-- ==== Sys2Proof/Word.lean ====
section
/-! DEFINITION. Bytes, words and the one sparse-table type that holds every family of like things. -/

namespace Sys2Proof

/-- A byte of memory (R9, R14). -/
abbrev Byte := BitVec 8

/-- A 32-bit register word (R15). -/
abbrev Word := BitVec 32

/-- A 64-bit word: the halves of R20, argument words (R210), tags (R177). -/
abbrev DWord := BitVec 64

/-- A sparse family of like things by number: keys strictly rising, and no entry equal to what an unlisted
key reads as (the default is an argument of the reading and writing functions in `Machine/Table.lean`).
A memory is a `Table Byte`, which is a list of `Host.Cell`. -/
abbrev Table (α : Type) := List (Nat × α)

end Sys2Proof
end

