-- ==== Sys2Proof/Syntax.lean ====
section
/-! DEFINITION. The commands of the block: one constructor of `Instr` for each row of spec/opcode_table.json, with
the operands its rule gives it. Physical facts the module only measures (an edge count, a temperature, a received
frame, a byte read from host memory) are operands. -/

namespace Sys2Proof

/-! ### Operand types -/

/-- The PCIe function of an access: 0 for PF0, n for VF n (R23). -/
abbrev Fn := Fin 256
/-- A core 0-63: 4 * site + local core (R23). -/
abbrev CoreNo := Fin 64
/-- A site 0-15, and its Tarn, Pond, HBM stack and site port (R23). -/
abbrev SiteNo := Fin 16
/-- An Outlet 0-15 (R23). -/
abbrev OutletNo := Fin 16
/-- A Spring 0-9 (R23). -/
abbrev SpringNo := Fin 10
/-- A Basin tile 0-8 (R23). -/
abbrev TileNo := Fin 9
/-- A host DMA channel 0-31 (R450). -/
abbrev ChanNo := Fin 32
/-- A queue pair 0-262,143 (R435). -/
abbrev QpNo := Fin 262144

/-- The BARs of a function (R432). -/
inductive Bar where
  | bar0 | bar2 | bar4
deriving DecidableEq, Repr

/-- A read of `size` bytes at `off` of a BAR. -/
structure BarRead where
  bar : Bar
  off : Nat
  size : Nat
deriving DecidableEq, Repr

/-- The two reference inputs (R52). -/
inductive RefIn where
  | refA | refB
deriving DecidableEq, Repr

/-- A Weir (R28). -/
inductive Weir where
  | a | b
deriving DecidableEq, Repr

/-- One of the two power feeds (R30). -/
inductive Feed where
  | a | b
deriving DecidableEq, Repr

/-- A Basin receiver of a site, or a receive fibre channel of an Outlet (R344). -/
inductive Receiver where
  | basin (site : SiteNo) (ring : Fin 1024)
  | outlet (o : OutletNo) (lane : Fin 4) (lambda : Fin 32)
deriving DecidableEq, Repr

/-- A direction of the site bundle: down is from the die to the site port (R298). -/
inductive Dir where
  | down | up
deriving DecidableEq, Repr

/-- A crossing with a partner-reset signal (R83): the Tarn port into the Pond, the Pond into the tile backbone, the
bundle between die and site port, the site port into the tile backbone, and from the host interface and each Weir into tile 4. -/
inductive CrossKind where
  | tarnPond | pondTile | bundle | portTile | hostTile | weirTile (w : Weir)
deriving DecidableEq, Repr

/-- One side of a crossing: the upper side (Tarn, Pond, die, site port, host interface or Weir), or the lower one, toward the tile
backbone. -/
inductive Side where
  | upper | lower
deriving DecidableEq, Repr

/-- The crossing of one site and one kind (site 0 for those into tile 4), and the side of it that resets or returns. -/
structure Crossing where
  kind : CrossKind
  site : SiteNo
  side : Side
deriving DecidableEq, Repr

/-- Which slot of a bundle (R196). -/
inductive Slot where
  | a | v | m | c
deriving DecidableEq, Repr

/-- Fields of MMA (R199). -/
structure MmaF where
  arrays : BitVec 16
  ta : Fin 16
  tb : Fin 16
  acc : Fin 2
  zero : Bool
  wlo : BitVec 10
  h : Fin 16
deriving DecidableEq, Repr

/-- Fields of MERGE (R199). -/
structure MergeF where
  arrays : BitVec 16
  ta : Fin 16
  acc : Fin 2
  wlo : BitVec 10
  h : Fin 16
deriving DecidableEq, Repr

/-- Fields of DRAIN (R199). -/
structure DrainF where
  arrays : BitVec 16
  td : Fin 16
  acc : Fin 2
  port : Bool
  move : BitVec 16
deriving DecidableEq, Repr

/-- Fields of VLD and VST (R205): SPAN is the field value plus 1, ADDR is in units of 512 bytes. -/
structure VMemF where
  lfmt : Fin 4
  span : Fin 16
  dst : Fin 64
  addr : BitVec 16
deriving DecidableEq, Repr

/-- Fields of every other V-slot operation (R205). -/
structure VecF where
  lfmt : Fin 4
  span : Fin 16
  dst : Fin 64
  src1 : Fin 64
  src2 : Fin 64
  src3 : Fin 64
  xfmt : Fin 16
deriving DecidableEq, Repr

/-- The V-slot operations of R206 that take `VecF`. -/
inductive VecOp where
  | add | sub | mul | fma | min | max | abs | neg | cvt | cvtmx | unpkmx
  | exp2 | log2 | rcp | rsq | tanh | rmax | rsum | bcast
deriving DecidableEq, Repr

/-- Fields of POST (R212). -/
structure PostF where
  counter : Fin 32
  amount : Fin 256
  after : BitVec 3
  target : Fin 8
  chan : BitVec 12
  dstCore : Fin 64
deriving DecidableEq, Repr

/-- A decoded slot operation (R199, R206, R209, R212). -/
inductive SlotOp where
  | nop
  | ldtd (reg : Fin 16) (index : BitVec 12)
  | mma (f : MmaF)
  | merge (f : MergeF)
  | drain (f : DrainF)
  | vld (f : VMemF)
  | vst (f : VMemF)
  | vec (op : VecOp) (f : VecF)
  | move (index : BitVec 16)
  | wait (counter : Fin 32) (amount : Fin 256)
  | post (f : PostF)
  | close
  | setsel (word : BitVec 23)
  | fault (code : BitVec 16)
  | rdstat (off : BitVec 20)
deriving DecidableEq, Repr

/-- The status with which a transfer or a move ends (R160, R183, R411). -/
inductive XferStatus where
  | ok | poison | crossingReset | refused | aborted
deriving DecidableEq, Repr

/-- The 32-byte header of a transfer on a scheduled channel (R265): KIND 0 data, 1 post token, 2 barrier token, with DST_OFF and LENGTH
in 32-byte units. -/
structure ChanHdr where
  kind : Fin 3
  context : Fin 16
  dstLocal : Fin 4
  dstOff : Nat
  length : Nat
  ctr : Fin 32
  ctrEn : Bool
  amount : Fin 256
  phase : Nat
  fault : Bool
  selector : Word
deriving DecidableEq, Repr

/-- A fabric packet: the header flit of R387, field by field, and its data bytes. -/
structure Packet where
  type : Nat
  hop : Nat
  rlen : Nat
  flagged : Bool
  key : Nat
  tag : Nat
  route : DWord
  dst : Nat
  dstSite : Nat
  src : Nat
  srcSite : Nat
  srcAgent : Nat
  len : Nat
  status : Nat
  dpa : Nat
  aop : Nat
  awide : Bool
  signed : Bool
  op0 : DWord
  op1 : DWord
  time : Nat
  resv : Bool          -- some reserved bit is set (R412)
  data : List Byte
deriving DecidableEq, Repr

/-- Where a packet enters a site port of this module: from its own Outlet, or over the Basin from another site, or
from a source of the site itself (R280, R385). -/
inductive Arrival where
  | outlet (o : OutletNo)
  | basin (src dst : SiteNo)
  | own (site : SiteNo)
deriving DecidableEq, Repr

/-- The post token message of R213: where it arrives. -/
inductive TokenPath where
  | link (src dst : CoreNo)
  | channel (dst : SiteNo) (guide : Fin 128) (lambda : Fin 32)
deriving DecidableEq, Repr

/-- A fault report (R533). -/
structure Report where
  cls : Fin 16
  code : Nat
  unit : Nat
  part : Nat
  d0 : Nat
  d1 : Nat
  src : Nat
  stamp : Nat
deriving DecidableEq, Repr

/-- A configuration register or firmware table entry with its own parity unit (R626). -/
inductive ParityUnit where
  | clock | time
  | cperf (core : CoreNo)
  | txcal (site : SiteNo) (c : Fin 256)
  | rxcal (site : SiteNo) (r : Fin 1024) (lambda : Fin 32)
  | key (site : SiteNo) (i : Fin 16)
  | siteTable (site : SiteNo) (i : Nat)
  | outletTable (o : OutletNo) (i : Nat)
  | dmaCtl (ch : ChanNo)
  | qpSel
  | msix (v : Fin 2048)
  | qp (q : QpNo)
  | setpoint (d : Fin 166)
deriving DecidableEq, Repr

/-- A calibration entry register (R365). -/
inductive CalReg where
  | tx (site : SiteNo) (c : Fin 256)
  | rx (site : SiteNo) (r : Fin 1024) (lambda : Fin 32)
deriving DecidableEq, Repr

/-- The outcome of decoding a line under its check code (R246), or a correction that the stack reports of its own (R225). -/
inductive EccOutcome where
  | clean | onDie | corrected | uncorrectable
deriving DecidableEq, Repr

/-- What the decoders report of the words and lines that a read touches, by address: any that is not listed decodes clean (R99,
R237, R246). -/
abbrev EccList := List (Nat × EccOutcome)

/-- An operand with what the decoders report of what the command reads. -/
structure Reads (α : Type) where
  op : α
  ecc : EccList
deriving DecidableEq, Repr

/-- The frame control of a bundle frame (R302); `reserved` holds bits 31 to 27, then bits 63 to 56. -/
structure FrameCtl where
  seq : Fin 4096
  ack : Fin 4096
  nak : Bool
  type : Fin 4
  cmd : Fin 16
  lane : Fin 128
  dir : Dir
  atSeq : Fin 4096
  reserved : Fin 8192
deriving DecidableEq, Repr

/-- The payload of a bundle frame (R303), and the symbols that arrive wrong, each with what it differs by (R301). -/
structure FrameBody where
  payload : List Byte
  wrong : List (Fin 68 × Fin 256)
deriving DecidableEq, Repr

/-- What a lane showed in its test (R308): no eye, or so many wrong bits of the scrambled sequence. -/
inductive LaneTest where
  | noEye
  | wrongBits (n : Nat)
deriving DecidableEq, Repr

/-- A line frame as its sender sends it (R357): the seed, and the second one should the first not do (R359), what the module's random
source gives; TYPE, FSEQ, the reserved header bits and the payload. -/
structure LineFrame where
  seed : BitVec 32
  seed2 : BitVec 32
  type : Fin 4
  fseq : Fin 65536
  reserved : Fin 1024
  payload : List Byte
deriving DecidableEq, Repr

/-- A frame of an optical line without its seeds. -/
structure LineBody where
  type : Fin 4
  fseq : Fin 65536
  reserved : Fin 1024
  payload : List Byte
deriving DecidableEq, Repr

/-- The outcome of an SQ read (R443). -/
inductive SqRead where
  | entry (words : List DWord)
  | ur | ca | cto | poisoned
deriving DecidableEq, Repr

/-- The cause of a failed host access of a copy (R468). -/
inductive HostErr where
  | ur | ca | cto | poisoned | bmeClear
deriving DecidableEq, Repr

/-- The payload of CAPS (R314). -/
structure CapsF where
  cls : Nat
  maker : Nat
  stepping : Nat
  verMin : Nat
  verMax : Nat
  powerMax : Nat
  sensors : Nat
  features : BitVec 32
deriving DecidableEq, Repr

/-- The payload of OFFER and ACCEPT (R314). -/
structure OfferF where
  version : Nat
  features : BitVec 32
  powerLimit : Nat
  reportUs : Nat
deriving DecidableEq, Repr

/-- The payload of REPORT (R320): temperatures in 1/16 degC (0x8000 broken), power in 1/4 W, the flag word, and the four
core powers when CORE_POWER was accepted. -/
structure ReportF where
  temps : List (BitVec 16)
  power : Nat
  flags : BitVec 16
  corePower : List Nat
deriving DecidableEq, Repr

/-- The header and the CRC-16 of a sideband message, as they arrive (R313). -/
structure SbHead where
  type : Byte
  len : Byte
  seq : Byte
  reserved : Byte
  crc : BitVec 16
deriving DecidableEq, Repr

/-- LANES: one half of a list of bad lanes, by group (R308, R314). -/
structure LanesF where
  head : SbHead
  half : Fin 2
  bad : List (Fin 32 × Fin 68)
deriving DecidableEq, Repr

/-- Whether a Pond trained, and the best points of the via groups that lie off their stored ones (R324, R607). -/
structure PondTraining where
  good : Bool
  best : List (Dir × Fin 1000 × Fin 64)
deriving DecidableEq, Repr

/-- Why a Spring is declared failed (R336). -/
inductive SpringFault where
  | powerLow | offGrid | domain
deriving DecidableEq, Repr

/-- One measurement of a calibration value set (R348, R349): the heater code at which each of the position's three rings meets the
wavelength, the auxiliary code, and the extinction ratio in 0.1 dB. -/
structure CalMeas where
  code0 : Nat
  code1 : Nat
  code2 : Nat
  aux : Nat
  extinction : Nat
deriving DecidableEq, Repr

/-- The two measurements of one calibration entry. -/
structure CalPair where
  reg : CalReg
  first : CalMeas
  second : CalMeas
deriving DecidableEq, Repr

/-- The fields of HELLO between neighbours (R415). -/
structure NHello where
  coord : Nat
  sizeX : Nat
  sizeY : Nat
  sizeZ : Nat
  outlet : Nat
  kind : Nat
  windowBase : Nat
  windowSize : Nat
deriving DecidableEq, Repr

/-- A LINK_STATE message (R416): the sender, its sequence number, and for each of its 16 links the state and partner. -/
structure LinkStateF where
  src : Nat
  seq : BitVec 32
  links : List (Nat × Nat)
deriving DecidableEq, Repr

/-- A path on which a beat or an explicit fault reaches the switchover controller (R551). -/
inductive BeatPath where
  | message | wire
deriving DecidableEq, Repr

/-- The kinds of explicit Weir fault (R553). -/
inductive WeirFault where
  | lockstep | voltage | firmware | checkpoint
deriving DecidableEq, Repr

/-- An optical power monitor (R345). -/
inductive Monitor where
  | springOut (n : SpringNo)
  | comb (site : SiteNo) (i : Fin 12)
  | guide (g : Fin 128)
  | drop (site : SiteNo) (n : Fin 256)
  | outletTx (o : OutletNo) (f : Fin 6)
  | outletRx (o : OutletNo) (f : Fin 6)
deriving DecidableEq, Repr

/-- One reading of a bank that a round latched: the power in 1/100 dBm, and whether it is below the stage's fault threshold
(R345, R369). -/
structure MonReading where
  at_ : Monitor
  power : BitVec 16
  low : Bool
deriving DecidableEq, Repr

/-- What one housekeeping round reads (R584, R639): per channel the words 0 and 1. -/
structure RoundReading where
  channel : Fin 512
  word0 : BitVec 32
  word1 : BitVec 32
deriving DecidableEq, Repr

/-! ### The commands -/

/-- The block's commands, one constructor for each row of spec/opcode_table.json. -/
inductive Instr where
  -- host register access (R15-R20, R620-R628)
  /-- HOST_REGISTER_WRITE (R17): a write of `size` bytes at `off` of a BAR. -/
  | hostRegisterWrite (fn : Fn) (bar : Bar) (off size : Nat) (value : Word)
  /-- L64_LOW_READ (R20): a read of the low half of a pair. -/
  | l64LowRead (fn : Fn) (r : BarRead)
  /-- PAIR_FIRST_WRITE (R18): a write of `value` to offset n of the RWP register. -/
  | pairFirstWrite (value : Word)
  /-- GLOBAL_RESET_GO (R632): the complement write to offset n + 4. -/
  | globalResetGo (complement : Word)
  /-- CPERF_CLEAR (R117): CLEAR = 1 with the FREEZE and ENABLE written beside it. -/
  | cperfClear (core : CoreNo) (freeze enable : Bool)
  | cperfFreeze (core : CoreNo) (on : Bool)
  | cperfEnable (core : CoreNo) (on : Bool)
  | dmaChannelDisable (ch : ChanNo) (on : Bool)
  | dmaChannelPriority (ch : ChanNo) (p : Fin 4)
  | dmaHaltClear (ch : ChanNo)
  | houseTrigger (go : Bool)
  | refaModeWrite (mode : Bool)
  | clockEnableWrite (value : Word)
  | calEntryWrite (reg : CalReg) (value : Word)
  | sqTailWrite (fn : Fn) (page : Nat) (value : Word)
  | cqHeadWrite (fn : Fn) (page : Nat) (value : Word)
  | mbDoorbell (fn : Fn) (window : Fn) (value : Word)
  | mbEvtHeadWrite (fn : Fn) (window : Fn) (value : Word)
  | busMasterEnable (fn : Fn) (on : Bool)
  | parityMismatch (unit : ParityUnit) (bit : Nat)
  | parityRestore (unit : ParityUnit)
  -- time, clocks and the combiner
  | refMonitorWindow (ref : RefIn) (edges : Nat)
  | tileAlignment (failed : BitVec 9) (delays : List Nat)
  /-- TIME_BEACON (R62): for each region listed, how many cycles more than its nominal frequency gives (or fewer) its local clock
  has counted since the last beacon. -/
  | timeBeacon (extra : List (Nat × Int))
  | timeBackupCopy
  | tickEnd
  | combinerResolveTick
  | faultReport (r : Report)
  | repeatWindowClose
  | logWrite
  | stepArmed (site : SiteNo)
  | stepDeadline
  | stepCommit
  | hbmStepQuiesce
  | coreRampDone (core : CoreNo)
  | crossingPartnerReset (x : Crossing)
  | partnerUp (x : Crossing) (epoch : Nat)
  -- the cores
  | bundleIssue (core : CoreNo)
  | nop (core : CoreNo) (slot : Slot)
  | ldtd (core : CoreNo) (reg : Fin 16) (index : BitVec 12)
  | mma (core : CoreNo) (f : Reads MmaF)
  | merge (core : CoreNo) (f : Reads MergeF)
  | drain (core : CoreNo) (f : DrainF)
  | arrayOpComplete (core : CoreNo) (array : Fin 16)
  | drainComplete (core : CoreNo) (array : Fin 16) (acc : Fin 2)
  | vld (core : CoreNo) (f : Reads VMemF)
  | vst (core : CoreNo) (f : VMemF)
  | add (core : CoreNo) (f : VecF)
  | sub (core : CoreNo) (f : VecF)
  | mul (core : CoreNo) (f : VecF)
  | fma (core : CoreNo) (f : VecF)
  | min (core : CoreNo) (f : VecF)
  | max (core : CoreNo) (f : VecF)
  | abs (core : CoreNo) (f : VecF)
  | neg (core : CoreNo) (f : VecF)
  | cvt (core : CoreNo) (f : VecF)
  | cvtmx (core : CoreNo) (f : VecF)
  | unpkmx (core : CoreNo) (f : VecF)
  | exp2 (core : CoreNo) (f : VecF)
  | log2 (core : CoreNo) (f : VecF)
  | rcp (core : CoreNo) (f : VecF)
  | rsq (core : CoreNo) (f : VecF)
  | tanh (core : CoreNo) (f : VecF)
  | transcendentalResult (core : CoreNo)
  | rmax (core : CoreNo) (f : VecF)
  | rsum (core : CoreNo) (f : VecF)
  | bcast (core : CoreNo) (f : VecF)
  | move (core : CoreNo) (index : Reads (BitVec 16))
  | moveComplete (core : CoreNo) (id : Nat) (status : XferStatus)
  | wait (core : CoreNo) (counter : Fin 32) (amount : Fin 256)
  | waitRelease (core : CoreNo)
  | post (core : CoreNo) (f : PostF)
  | close (core : CoreNo)
  | setsel (core : CoreNo) (word : Reads (BitVec 23))
  | fault (core : CoreNo) (code : BitVec 16)
  | rdstat (core : CoreNo) (off : BitVec 20)
  | operandParityFault (core : CoreNo) (unit : Nat)
  | tokrateWindow (core : CoreNo) (tokens : Word)
  | closeReport (core : CoreNo)
  | barrierToken (src dst : SiteNo) (context : Nat) (phase : Nat) (faultBit : Bool) (selector : Word)
  | barrierComplete (site : SiteNo) (context : Nat)
  | abortComplete (context : Nat)
  | siteReset (site : SiteNo) (cause : Fin 11)
  -- memory
  | inval (owner sharer : SiteNo) (region : Nat)
  | invalAck (owner sharer : SiteNo) (region : Nat)
  | hbmRefresh (site : SiteNo) (bank : Nat)
  | scrub (site : SiteNo) (pond : Bool) (line : Nat) (outcome : EccOutcome)
  | poisonNotice
  -- Basin transport
  | ringSettled (site : SiteNo) (ring : Fin 1024)
  | retuneLate (site : SiteNo) (ring : Fin 1024)
  | scheduledData (dst : SiteNo) (guide : Fin 128) (lambda : Fin 32) (hdr : ChanHdr) (data : List Byte)
  | postToken (path : TokenPath) (context : Fin 16) (dstLocal : Fin 4) (ctr : Fin 32) (amount : Fin 256)
  | creditMessage (src dst : SiteNo) (credits : Nat)
  | receiptConfirmation (dst : SiteNo) (guide : Fin 128) (lambda : Fin 32) (good : Nat)
  | lossOfSignal (r : Receiver) (set : Bool)
  | lossOfLock (r : Receiver) (set : Bool)
  | channelFailed (site : SiteNo) (ring : Fin 1024)
  -- Abango and the stack
  | bundleFrame (site : SiteNo) (dir : Dir) (group : Fin 32) (f : FrameCtl) (x : FrameBody)
  | bundleTraining (site : SiteNo) (dir : Dir) (group : Fin 32) (tests : List (Fin 68 × LaneTest))
  | propose (site : SiteNo) (dir : Dir) (group : Fin 32) (lane : Fin 68)
  | agree (site : SiteNo) (dir : Dir) (group : Fin 32) (atSeq : Fin 4096)
  | laneMapSwitch (site : SiteNo) (dir : Dir) (group : Fin 32)
  | hello (site : SiteNo)
  | caps (site : SiteNo) (h : SbHead) (f : CapsF)
  | offer (site : SiteNo)
  | accept (site : SiteNo) (h : SbHead) (f : OfferF)
  | reject (site : SiteNo) (h : SbHead) (reason : Byte)
  | commit (site : SiteNo)
  | report (site : SiteNo) (h : SbHead) (f : ReportF)
  | limit (site : SiteNo) (watts : Nat)
  | limitAck (site : SiteNo) (h : SbHead) (watts : Nat)
  | lanes (site : SiteNo) (dir : Dir) (m : LanesF)
  | refuse (site : SiteNo) (fromDie : Bool) (code type seq : Byte)
  | sidebandReplyTimeout (site : SiteNo)
  | reportLate (site : SiteNo)
  | powerExcessTimeout (site : SiteNo)
  | abangoAlert (site : SiteNo)
  | viaParityError (site : SiteNo) (dir : Dir) (group : Fin 1000) (failing : Fin 32)
  -- light
  | combinerFeedLoss (comb : Fin 192) (second : Bool)
  | combinerResume (comb : Fin 192)
  | springFailed (n : SpringNo) (cause : SpringFault)
  | springRestore
  | springLocked (n : SpringNo)
  | calibrationDone (activity : Nat) (values : List CalPair)
  | channelFrame (r : Receiver) (seed seed2 : BitVec 32) (f : LineBody) (wrong : List (Fin 16384))
  | clampTrip (o : OutletNo) (fibres : BitVec 6)
  | clampReopen (o : OutletNo) (monitorsValid : Bool)
  -- fabric
  | linkFlit (o : OutletNo) (number : Nat) (good : Bool)
  | fibreSwap (o : OutletNo) (lane : Fin 4)
  | helloTimeout (o : OutletNo)
  | linkTrained (o : OutletNo)
  | linkSleepEnter (o : OutletNo)
  | read (via : Arrival) (p : Reads Packet)
  | write (via : Arrival) (p : Packet)
  | atomic (via : Arrival) (p : Packet)
  | readData (via : Arrival) (p : Packet)
  | writeAck (via : Arrival) (p : Packet)
  | atomicResult (via : Arrival) (p : Packet)
  | refusal (via : Arrival) (p : Packet)
  | neighbourHello (o : OutletNo) (f : NHello)
  | helloRepeat
  | timeSync (o : OutletNo) (t1 t2 t3 t4 : Nat)
  | timeSyncPeriod
  | linkState (o : OutletNo) (f : LinkStateF)
  | weirMsg (via : Arrival) (p : Packet)
  | convergenceTimer
  | flaggedStoreRelease (site : SiteNo) (tag : Nat)
  | egressDrainTimeout (site : SiteNo)
  -- queues and DMA
  | sqFetch (qp : QpNo) (r : SqRead)
  | dispatch (qp : QpNo)
  | copy (qp : QpNo)
  | queueNop (qp : QpNo)
  | dmaBurstComplete (ch : ChanNo) (host : List Byte) (lines words : EccList)
  | dmaHalt (ch : ChanNo) (cause : HostErr)
  | coalescingTimeout (qp : QpNo)
  | functionLevelReset (fn : Fn)
  | hotReset
  | hostLinkDown
  | d3hotExit (fn : Fn)
  -- mailbox commands: firmware executes the oldest accepted request (R476)
  | info
  | evtRingSet
  | timeSet
  | fabricCoord
  | partCreate
  | partDestroy
  | destroyTimeout
  | partBind
  | partMem
  | partKey
  | partEgress
  | partSeal
  | partStatus
  | pondCache
  | pondArea
  | cacheSlices
  | cacheFlush
  | farMap
  | farUnmap
  | farUnmapTimeout
  | planLoad
  | planUnload
  | ctxAbort
  | ctxQuery
  | qpCreate
  | qpDelete
  | vfQpRange
  | stackSelftest
  | calChannel
  | calAll
  | calSave
  | calRestore
  | hbmRepair
  | refRecover
  | swapDrill
  | maintStatus
  | maintCancel
  /-- ACTIVITY_DONE (R499): the activity's end, with what it measured or found. -/
  | activityDone (activity : Nat) (status detail : Nat) (record : List Byte)
  | stepCore
  | stepModule
  | linkSleep
  | linkWake
  | linkRelease
  | logRead
  | logCounters
  | flashErase
  | flashProgram
  | fwSelect
  -- Weir redundancy
  | beat (path : BeatPath) (count : Nat)
  | beatMissed (path : BeatPath)
  | explicitFault (path : BeatPath) (kind : WeirFault)
  | switchoverComplete
  | gapBoundExpiry
  | checkpointWrite
  | standbyImageCheck (good : Bool)
  -- power and temperature
  | feedBad (f : Feed)
  | feedGood (f : Feed)
  | islandToVkeep
  | islandReturn (sosc : Nat)
  | domainReady (d : Fin 166)
  | domainVoltageFault (d : Fin 166)
  | coreIdlePowerOff (core : CoreNo)
  | throttleStart (f : Feed)
  | throttleStep (f : Feed)
  | throttleEnd
  | housekeepingPeriod
  | housekeepingRoundEnd (readings : List RoundReading) (monitors : List MonReading) (viaFail : List (SiteNo × Dir × Fin 1000))
  | thermalTrip (unit : Nat) (first second : BitVec 16)
  | tripClear
  -- start-up and reset
  | moduleResetPin
  | weirBoot (w : Weir) (slot0Good slot1Good : Bool) (record : Bool)
  | refSelectTimeout (pll0Locks : Bool)
  | springLockTimeout (n : SpringNo)
  | memoryTraining (site : SiteNo) (stackGood : Bool) (pond : PondTraining)
  | coreSelftest (failed : BitVec 64)
  | calStage (failing : List Nat) (rejected : List Nat)
  | outletLight (o : OutletNo) (cabled : Bool)
  | stageBoundExpiry (sites : BitVec 16)
  | ready
  | calImageWrite
  -- maintenance port
  | getStatus
  | getSensors (first count : Nat)
  | mctpLogRead (first max : Nat)
  | mctpLogCounters
  | mctpModuleReset (confirm : Word)
  | setEndpointId (eid : Byte)
  | getEndpointId
  | getMctpVersionSupport
  | getMessageTypeSupport
  | getVendorDefinedMessageSupport
  | uartFrame (byte : Byte) (framingError : Bool)
  | uartBreak
  | consoleVer
  | consoleStat
  | consoleSensors
  | consoleLog
  | consoleCounters
  | consoleBaud
  | bypass (tdi : List Bool)
  | idcode
  | samplePreload (pins : BitVec 80) (shiftIn : BitVec 80)
  | extest (drive : BitVec 80) (leave : Bool)
  | statusRd
  | logRd (number : Nat)
  -- further steps
  | arm (site : SiteNo)
  | moveLastByteLeftSource (core : CoreNo) (id : Nat)
  | refreshManagementRequest (site : SiteNo) (bank : Nat)
  | linkControlWord (o : OutletNo) (ack : Nat) (again : Option Nat) (credits : Nat) (reserved : List (Nat × Nat))
  | vkeepLost
  | moduleResetRelease
  | d3hotEntry (fn : Fn)
  | vfEnable (on : Bool)
  | hostLinkUp
deriving DecidableEq, Repr

end Sys2Proof
end

