-- ==== Sys2Proof/Decode.lean ====
section
/-! DEFINITION. The command that a word spells. The module takes commands from outside and has no instruction encoding:
no row of spec/opcode_table.json gives bits, so no word spells a command. -/

namespace Sys2Proof

/-- The command an `nbits`-bit word spells: none, for no row of the table gives bits. -/
def decodeTableWord (_nbits _w : Nat) : Option Instr := none

end Sys2Proof
end

