-- ==== Sys2Proof/Config.lean ====
section
/-! DEFINITION. What an implementation fixes and the free values of the model: constants without a body, so that nothing in
Lean can evaluate them or prove a value of them. Each is named in a row of notes/assumptions. -/

namespace Sys2Proof

/-- The module's fused serial number, `GLOBAL_SERIAL` (R629). DESIGN CHOICE, log 3: the spec gives no value. -/
opaque Config.serial : DWord

/-- Itzevel's PCI vendor ID, as PF0 reports it (R656). DESIGN CHOICE, log 3. -/
opaque Config.pciVendorId : BitVec 16

/-- Itzevel's 11-bit JEDEC manufacturer code (R661). DESIGN CHOICE, log 3. -/
opaque Config.jedecCode : BitVec 11

/-- The levels of the GA2 to GA0 straps, which the slot gives (R653, R656). DESIGN CHOICE, log 3. -/
opaque Config.gaPins : BitVec 3

/-- Firmware's patch level: version 3.2.x (R2). DESIGN CHOICE, log 3. -/
opaque Config.fwPatch : Byte

/-- How many banks one HBM4 stack has beyond its first (R228, R229). DESIGN CHOICE, log 3. -/
opaque Config.hbmMoreBanks : Nat

/-- The number of banks of one HBM4 stack: at least one. -/
def Config.hbmBanks : Nat := Config.hbmMoreBanks + 1

/-- The row of a stack that a line lies in, by the line's device physical address (R250). DESIGN CHOICE, log 3. -/
opaque Config.hbmRow : Nat → Nat

/-- The choice the design fixes between the two representable neighbours of a transcendental result (R150): `true` takes the
one of larger magnitude. The function is 0 exp2, 1 log2, 2 reciprocal, 3 reciprocal square root, 4 tanh; the argument is the
FP32 operand. DESIGN CHOICE, log 4. -/
opaque Config.faithful : Nat → BitVec 32 → Bool

/-- Whether tininess is detected after rounding: IEEE 754-2019 leaves it to the implementation and R147 does not say.
DESIGN CHOICE, log 4. -/
opaque Config.tinyAfter : Bool

/-- Whether a fused multiply-add of zero, infinity and a quiet NaN raises invalid: IEEE 754-2019 leaves it to the
implementation and R149 does not say. DESIGN CHOICE, log 4. -/
opaque Config.fmaInvalid : Bool

/-- What UNPKMX gives for an element whose scaled value is beyond FP32: R208 calls the conversion exact and states no such
result. The arguments are the format code, the element and the scale code. DESIGN CHOICE, log 4. -/
opaque Config.unpkOver : Nat → Nat → Nat → BitVec 32

/-- A value the spec leaves undefined, fresh for each number of the counter `State.freeCount`. DESIGN CHOICE, log 5. -/
opaque Config.freeValue : Nat → BitVec 64

/-- The factory heater coefficient K of R341, in tenths of a code per degC, 90 to 100. DESIGN CHOICE, log 3. -/
opaque Config.heaterK : Nat

/-- The factory coupler curve of R343: the coupler setting, from a position's full-drop coupler code, at which its ring takes one part
in the given number of the light that reaches it. DESIGN CHOICE, log 3. -/
opaque Config.coupler : Nat → Nat → BitVec 8

/-- The bytes of one half of the bad-lane list of LANES (R314): 32 of the 64 bytes, whose assignment to the lanes of 32 groups the spec
does not give. The arguments are the half, the lanes it names, by group, and the number of the byte. DESIGN CHOICE, log 18. -/
opaque Config.lanesByte : Nat → List (Nat × Nat) → Nat → Byte

/-- The delay sets that the factory stores in a Pond's fuses (R324): by site, direction (0 down, 1 up), group, band and Pond frequency
(0, 1, 2 for 1.0, 1.5 and 2.0 GHz), a step of the delay line modulo 64. DESIGN CHOICE, log 3. -/
opaque Config.viaDelay : Nat → Nat → Nat → Nat → Nat → Nat

/-- The factory table of pre-emphasis (R354): PRE, in 1/64, of the Basin drivers (0) or the Outlet drivers (1), for each band. DESIGN
CHOICE, log 3. -/
opaque Config.tapPre : Nat → Nat → Int

/-- POST of the same table. DESIGN CHOICE, log 3. -/
opaque Config.tapPost : Nat → Nat → Int

/-- The factory bias table of R355: gain current in mA for each band. DESIGN CHOICE, log 3. -/
opaque Config.springBias : Nat → BitVec 10

/-- Whether the firmware image in a slot of a Weir flash passes the header, CRC, signature and series checks of R505, from
its bytes: the DETAIL 1, 2, 3 or 5 of the check that fails, and any other number where all pass. DESIGN CHOICE, log 6. -/
opaque Config.imageCheck : List Byte → Nat

/-- The version of the image whose bytes are given, major.minor.patch.0 (R505). DESIGN CHOICE, log 6. -/
opaque Config.imageVersion : List Byte → BitVec 32

end Sys2Proof
end

