-- ==== Sys2Proof/Machine/State.lean ====
section
/-! DEFINITION. Everything the spec gives the module to hold, as plain data, and the machine right after reset.

All BAR0 registers (every counter, flag word and status register of R618) stand in ONE table `regs`, by their BAR0 offset,
with the reset value of the spec's register tables as its default (`Machine/RegMap.lean`). What has no register stands in
the structures below. -/

namespace Sys2Proof.Machine

/-- A step never ends in a fault: the spec gives every command an effect in every state. -/
inductive Fault where
  /-- Raised by no command: every operand type names only parts that exist (safe). -/
  | noSuchPart
deriving DecidableEq, Repr

/-- Why a command has no meaning. -/
inductive Refusal where
  /-- Raised by an arm of `exec` that has no meaning yet (safe: nothing is claimed of it). -/
  | notModelled (mnemonic : String)
deriving DecidableEq, Repr

/-! ### Outward messages -/

/-- What the module sends out, in the order it is sent: interrupts, register read values, packets and messages on its
links, and answers on the maintenance ports. -/
inductive Output where
  | readValue (fn : Nat) (value : Word)
  | msix (fn vector : Nat)
  | basin (src dst : Nat) (chan : Nat) (p : Packet)
  | answer (site : Nat) (p : Packet)
  | packet (outlet : Nat) (p : Packet)
  | linkControl (outlet : Nat) (ack : Nat) (again : Bool)
  | linkCredit (outlet : Nat) (credits : Nat) (reserved : List (Nat × Nat))
  | sideband (site : Nat) (bytes : List Nat)
  | frame (site : Nat) (up : Bool) (group : Nat) (f : FrameCtl) (lanes : List (Nat × List Bool))
  | chanBytes (site : Nat) (up : Bool) (index : Nat) (bytes : List Byte)
  | chanIdle (site : Nat) (index : Nat)
  | lineBytes (site : Nat) (ring : Nat) (bytes : List Byte)
  | chanData (site : Nat) (guide lambda : Nat) (hdr : ChanHdr) (data : List Byte)
  | token (src dst : Nat) (context ctr amount : Nat)
  | ringReport (site ring : Nat) (what : Nat) (count : Nat)
  | credit (src dst : Nat) (credits : Nat)
  | inval (owner sharer : Nat) (region : Nat)
  | beacon (time : Nat)
  | stepMsg (site : Nat) (kind : Nat) (target commit : Nat)
  | partnerUp (x : Crossing) (epoch : Nat)
  | mctp (body : List Byte)
  | console (line : List Char)
  | jtag (bits : List Bool)
deriving DecidableEq, Repr

/-! ### Time and clocks -/

/-- Basin time and its copies (R61 to R65). -/
structure TimeState where
  now : Nat                 -- the tile-4 master, in ns
  frac : Nat                -- its 16-bit binary fraction of a ns
  copyErr : Table Int       -- each copy less the master, in 1/65,536 ns: tiles 0-8, Ponds 9-24, host 25, Weirs 26-27 (R62)
  copyFix : Table Nat       -- corrections in progress (R63): 1 adds, 2 withholds 1 ns at every 64th ns, 3 holds the copy
  pathDelay : Table Nat     -- stored beacon path delay of each tile, in backbone cycles
  running : Bool            -- Basin time has been synchronised since the start began (R69)
  slewLeft : Int            -- target minus Basin time (R64)
  hold : Bool               -- a slew withholds the next ns of the count (R64)
  setAt : Option Nat        -- a load or forward jump that takes effect at the next tick boundary
  shift : Int               -- ns that loads and jumps have added since the island's last copy
  backup : Nat              -- the island's real-time backup: master at the last copy
  backupValid : Bool
deriving DecidableEq, Repr

/-- A module step change held by the step controller (R77). -/
structure StepChange where
  target : Nat
  commit : Nat
  participants : List Nat
  armed : List Nat
  passed : Bool             -- the checks of the deadline passed (R77)
  window : Option Nat       -- the mailbox request that waits for it
deriving DecidableEq, Repr

/-- References, PLLs and the step controller (R52 to R58, R77 to R80). -/
structure ClockState where
  badA : Nat
  badB : Nat
  goodA : Nat
  goodB : Nat
  trimmed : Bool
  refaMode : Bool           -- REFA mode in force on the monitor (R52, R635)
  pllRef : Table Nat        -- 0 REFA, 1 REFB, 2 FOSC, by PLL
  pllLost : Table Nat       -- 1 + the reference whose loss made a PLL coast (R57, R58)
  restoreDue : Bool         -- the step restore of a recovery waits for the armed change (R58)
  change : Option StepChange
  stepBefore : Nat          -- module step in force when the PLLs of the stepped clocks began to coast (R58)
  inReset : Table Bool      -- Pond regions in reset
  waitExit : Table Nat      -- Pond regions held in their reset-exit sequence, until this commit count has passed (R79)
deriving DecidableEq, Repr

/-- What one side of a crossing holds of its partner: the last epoch it saw, and whether it refuses transfers (R83). -/
structure PartnerView where
  epoch : Nat
  refusing : Bool
deriving DecidableEq, Repr

/-- A crossing: what its lower side, toward the tile backbone, holds of the upper one, and the other way (R83 to R85). -/
structure CrossState where
  upper : PartnerView
  lower : PartnerView
deriving DecidableEq, Repr

/-! ### Faults and the log -/

/-- A report the combiner has placed in a tick not yet resolved (R69). -/
structure Arrived where
  rep : Report
  tick : Nat
  late : Bool
deriving DecidableEq, Repr

/-- A record of the combiner, and the body of a log entry (R537, R542). -/
structure LogRec where
  cls : Nat
  sev : Nat
  late : Bool
  isRepeat : Bool
  firmware : Bool
  part : Nat
  tick : Nat
  code : Nat
  unit : Nat
  count : Nat
  firstSrc : Nat
  d0 : Nat
  d1 : Nat
  lastTick : Nat
deriving DecidableEq, Repr

/-- A repeat window of R538: its signature, the tick that opened it, and the later reports it has taken. -/
structure RepWindow where
  first : LogRec
  opened : Nat
  count : Nat
  firstStamp : Nat
  lastStamp : Nat
  late : Bool
deriving DecidableEq, Repr

/-- A fault-log entry held in the island (R541, R542). -/
structure LogEntry where
  number : Nat
  body : LogRec
  read : Bool               -- a LOG_READ has returned it (R543)
deriving DecidableEq, Repr

/-- An event-ring notice firmware owes once the combiner has resolved `tick` (R248, R455). -/
structure Notice where
  tick : Nat
  part : Nat
  type : Nat
  words : List Nat
deriving DecidableEq, Repr

structure FaultState where
  inTransit : List Report
  arrived : List Arrived
  nextTick : Nat            -- the oldest tick not resolved
  windows : List RepWindow
  queue : List LogRec       -- records waiting for firmware, at most 512
  log : List LogEntry       -- oldest first, at most 4,096
  notices : List Notice
deriving DecidableEq, Repr

/-! ### Cores, contexts and the dispatch engine -/

/-- One accumulator register of one array: 128 x 128 cells of 160 bits (R86, R129). -/
structure Acc where
  cells : Table Int         -- cell 128 * row + column, default 0
  wlo : Int
  h : Nat
  count : Nat               -- contributions since it was started from zero (R134)
  poisoned : Bool           -- R183
deriving DecidableEq, Repr

/-- A fault latched on a core for its running context (R182). -/
structure Latched where
  cause : Nat
  stamp : Nat
deriving DecidableEq, Repr

/-- A move in progress (R160, R210). -/
structure MoveRec where
  id : Nat
  kind : Nat
  src : Nat                 -- absolute source address, as `Machine/Moves.lean` forms it
  dst : List Nat            -- absolute destination addresses: one, or one for each multicast receiver
  dstCores : List Nat
  len : Nat
  srcCtr : Option Nat
  dstCtr : Option Nat
  flagged : Bool
  chan : Nat                -- schedule entry, 0xFFF for none
  bounds : Bool             -- raised BOUNDS: moves no byte (R194)
  left : Bool               -- its last byte has left its source (R101)
  data : List Byte
  poison : List Nat         -- offsets of poisoned 32-byte units of the data
  storePoison : Bool        -- its source read found a poisoned core-store word (R182)
  no : Nat                  -- its number among the core's M (or, of a DRAIN, A) operations of the phase
  fromA : Bool              -- issued by a DRAIN with PORT = 1
  stored : Bool             -- its write has been applied at the owning controller (R235)
  open_ : Nat               -- far or open-class requests not yet answered
  bad : XferStatus          -- worst status of an answered request
deriving DecidableEq, Repr

/-- A POST that waits for the slots its AFTER mask names (R213). -/
structure PostWait where
  f : PostF
  needA : Nat               -- operations issued to each unit up to it
  needV : Nat
  needM : Nat
deriving DecidableEq, Repr

/-- A remote post on its way to one destination core, in the order of issue of its link's or channel's transfers (R106, R213,
R214). -/
structure RemotePost where
  dst : Nat
  ctr : Nat
  amount : Nat
  id : Nat                  -- its number among the module's transfers
  via : Nat                 -- TARGET of R213: 1 row link, 2 column link, 3 port link, 4 channel
  chan : Nat                -- schedule entry of a channel post
  sent : Bool               -- it has left its core's port link (R106)
deriving DecidableEq, Repr

/-- A C-slot operation issued, with the operations issued to each unit up to its bundle (R213). -/
structure COp where
  op : SlotOp
  needA : Nat
  needV : Nat
  needM : Nat
deriving DecidableEq, Repr

structure CoreState where
  fenced : Bool
  step : Nat                -- the core's present step
  cmdStep : Nat             -- the step firmware commanded
  rampTo : Option Nat       -- step toward which the regulator ramps (R76)
  parityTimes : List Nat    -- operand-parity faults of the last second (R121)
  running : Option Nat      -- handle of the running context
  pc : Nat                  -- index of the next bundle
  aQ : List SlotOp          -- operations issued to each unit and not yet completed, oldest first
  vQ : List SlotOp
  mQ : List SlotOp
  cQ : List COp
  aIssued : Nat             -- operations issued in the phase, by unit
  vIssued : Nat
  mIssued : Nat
  aStarted : Nat            -- operations their unit has accepted in the phase
  vStarted : Nat
  mStarted : Nat
  aOpen : List (Nat × Nat)  -- array operations whose last contribution has not been added: number, array (R90)
  dOpen : List (Nat × Nat)  -- drains not finished: number, 2 * array + accumulator (R91)
  tOpen : List (Nat × Nat × Nat) -- transcendental results not yet available: number, first register, count (R95)
  held : List SlotOp        -- A, V and M operations of a bundle whose WAIT stalls (R197)
  stalled : Option (Nat × Nat)
  posts : List PostWait
  remote : List RemotePost  -- remote posts not yet confirmed by every destination (R214)
  moves : List MoveRec
  closed : Bool
  reported : Bool
  accs : Table Acc          -- key 2 * array + acc; no entry is an unwritten accumulator (R174)
  vregs : Table Nat         -- written vector registers, 4,096 bits each; no entry is unwritten
  vpoison : Table Nat       -- by vector register, a mask of its 32-byte units computed from a poisoned word (R183)
  vflags : BitVec 5         -- invalid, divide-by-zero, overflow, underflow, inexact in bits 4 to 0 (R446)
  sel : Word
  below : Nat
  invalid : Nat
  sat : Nat
  latched : List Latched
  idleSince : Option Nat    -- in no partition since (R574)
deriving DecidableEq, Repr

/-- A phase-table entry (R218). -/
structure Phase where
  sched : Nat
  ending : Nat              -- 0 END, 1 NEXT, 2 SELECT
  hold : Bool
  selector : Nat
  visits : Nat
  target : Nat
deriving DecidableEq, Repr

/-- A channel entry of a schedule (R215). -/
structure ChanEntry where
  barrier : Bool
  src : Nat
  chan : Nat
  dst : BitVec 16
deriving DecidableEq, Repr

/-- A loaded context's part on one logical core (R157, R193). -/
structure CtxCore where
  core : Nat
  region : Nat              -- byte offset of the region in the core store
  stream : Nat              -- address of the stream section in Pond scratch
  entryOff : Nat
  tdOff : Nat
  tdCount : Nat
  moveOff : Nat
  moveCount : Nat
  bundleOff : Nat
  bundleCount : Nat
  streamSize : Nat
  counters : Table Nat
  tds : Table Nat           -- tile-descriptor registers, 128 bits each
  below : Nat               -- BELOW, INVALID and SAT of the dispatch, kept while another context runs (R135)
  invalid : Nat
  sat : Nat
deriving DecidableEq, Repr

/-- A dispatch that holds, or held, a context-start slot (R178, R179). -/
structure Dispatch where
  qp : Nat
  seq : Nat                 -- order of the entry in its SQ
  fn : Nat
  tag : Nat
  cq : Nat
  argDpa : Nat
  argLen : Nat
  granted : Nat             -- tick of the slot's grant
deriving DecidableEq, Repr

/-- A barrier report of a site port (R164). -/
structure SiteReport where
  site : Nat
  faultBit : Bool
  selector : Word
  stamp : Nat
deriving DecidableEq, Repr

/-- How a dispatch will end at the end of the tick (R181, R187). -/
structure EndRec where
  status : Nat
  cause : Nat
  lcore : Nat
  phase : Nat
  time : Nat                -- Basin time of the final barrier or cut
deriving DecidableEq, Repr

/-- The running dispatch of a context. -/
structure Run where
  d : Dispatch
  phase : Nat
  prev : Nat                -- the phase whose resources it holds across a HOLD boundary
  granted : Bool            -- the phase has been granted its resources
  readyTick : Nat
  hold : Bool               -- the phase follows a HOLD boundary (R173)
  phases : Nat              -- phases run
  visits : Table Nat
  tStart : Nat
  closedCores : List Nat    -- cores whose close report has left
  siteFault : Table Bool    -- OR of the close reports' fault bits, by site
  tokens : List (Nat × Nat) -- (holder, sender) barrier tokens
  tokenFault : Bool
  selector : Word
  reports : List SiteReport -- completion reports on their way to the engine
  complete : List SiteReport
  faults : List (Nat × Nat × Nat) -- (stamp, logical core, cause) of every latched fault
  outcome : Option EndRec
  abortReq : Bool           -- an abort granted in the present tick (R184)
  aborting : Option Nat     -- status with which a cut dispatch will complete
deriving DecidableEq, Repr

structure Context where
  handle : Nat
  part : Nat
  planId : Nat
  sites : List Nat          -- physical site of each logical site
  skipDisable : Bool
  regionSize : Nat
  phases : List Phase
  scheds : List (List ChanEntry)
  selects : List (List (Nat × Nat))
  cores : List CtxCore      -- by logical core
  waiting : List Dispatch   -- hold a context-start slot
  run : Option Run
  idleTick : Nat            -- tick in which its last dispatch ended (R172)
  removing : Bool           -- leaves at the end of the tick (R158, R186)
  visitor : Nat             -- function that loaded it
deriving DecidableEq, Repr

/-- A request stamped in the present tick for a context-start slot (R73, R178). -/
structure StartReq where
  handle : Nat
  d : Dispatch
deriving DecidableEq, Repr

/-! ### Partitions and memory -/

inductive PartMode where
  | absent | opened | sealed | destroying
deriving DecidableEq, Repr

/-- A key of a partition with its site masks (R515, R516). -/
structure KeyRec where
  key : Nat
  egress : BitVec 16
  inBasin : BitVec 16
  inOutlet : BitVec 16
deriving DecidableEq, Repr

/-- A Pond area (R232), in MiB. -/
structure Area where
  base : Nat
  data : Nat
  stream : Nat
deriving DecidableEq, Repr

structure Partition where
  mode : PartMode
  cores : BitVec 64
  strict : Nat
  vf : Option Nat
  channels : BitVec 32
  keys : List KeyRec        -- the first is the home key
  units : Table Bool        -- 64 MiB units of the near tier
  areas : Table Area        -- by site
  slices : Table Nat        -- by site, a 16-bit mask
  unwritten : Nat           -- R244
  sealing : Bool            -- a committed seal that takes effect at the tick's end (R518)
  destroyFrom : Option Nat  -- Basin time at which a destroy took effect (R524)
  activity : Nat
deriving DecidableEq, Repr

/-- An egress entry in the island (R400, R401). -/
structure Egress where
  w0 : DWord
  w1 : DWord
  sealed : Bool
deriving DecidableEq, Repr

/-- A far-window slot (R241). -/
structure FarSlot where
  valid : Bool
  part : Nat
  cacheable : Bool
  writable : Bool
  kind : Nat
  coord : Nat
  key : Nat
  base : Nat
deriving DecidableEq, Repr

/-- A map, remap or unmap that waits (R243). -/
structure FarPending where
  slot : Nat
  entry : FarSlot
  since : Nat
  window : Option Nat       -- the mailbox window of an unmap that waits
deriving DecidableEq, Repr

/-! ### Sites: transport, memory side, Abango -/

/-- A drop ring that is not parked (R255, R261). -/
structure Ring where
  lambda : Nat
  handle : Option Nat       -- context that holds it (R268); none for the open share
  settled : Bool
  failed : Bool
  since : Nat               -- Basin time of the grant or failure report
  good : Nat                -- good codewords received since the grant (R282)
  replacement : Bool
  part : Nat                -- it couples 1/part of the light that reaches it (R258)
  coupler : Nat             -- coupler setting (R343)
  sel : Nat                 -- selected ring of its position (R341)
  heater : Int              -- heater target (R341, R342)
deriving DecidableEq, Repr

/-- A modulator position in use (R341, R342): its selected ring, heater target and bias target, and when its loop took them. -/
structure Modulator where
  sel : Nat
  heater : Int
  bias : Nat
  since : Nat               -- Basin time
deriving DecidableEq, Repr

/-- Who issued an open-class request of a site port. -/
inductive Issuer where
  | move (core id : Nat)
  | copy (ch id : Nat)
  | inval (region : Nat)
  | folded (transfer : Nat) -- a piece of a transfer of a folded channel (R285)
  | transit                 -- a packet in transit, a reply, or a request from outside
deriving DecidableEq, Repr

/-- An open-class request at a site port, waiting for credits or outstanding (R272, R389). -/
structure OpenReq where
  issuer : Issuer
  dst : Nat                 -- site on whose pair it travels
  outlet : Option Nat
  stamp : Nat
  fn : Nat
  qp : Nat                  -- 1 + the queue pair it is tied to, 0 where it is tied to none (R72)
  core : Nat
  addr : Nat                -- address, as the issuer names it, of its first byte
  cached : Bool             -- a read whose lines may fill the site's cache (R234)
  seq : Nat                 -- order of issue
  fail : Nat                -- code of R411 with which an earlier store that it waits for ended (R397)
  retry : Bool              -- it has found too few credits (R272)
  paid : Bool               -- it holds the credits of the link that it leaves by (R391)
  p : Packet
deriving DecidableEq, Repr

/-- A transfer at its transmitting port that some destination site has not taken (R265 to R267, R282). -/
structure Transfer where
  id : Nat                  -- its number among the module's transfers
  core : Nat                -- core that issued it, or that it is for
  move : Option Nat         -- the move it belongs to
  handle : Nat              -- its context
  hdr : ChanHdr
  data : List Byte
  poison : List Nat         -- offsets of poisoned 32-byte units of the data
  sites : List Nat          -- every site of its channel's destination set
  dsts : List Nat           -- those for which it is and that have not taken it
  sent : Bool
  upTo : Nat                -- codewords of its channel since the grant up to its last (R282)
  near : Bool               -- a NEAR_WR's data, for a stack (R238)
  req : Option Nat          -- tag of the NEAR_RD request that it answers (R238)
deriving DecidableEq, Repr

/-- A failed channel that takes a spare, or is folded, at the end of its tick (R284 to R287). -/
structure SpareDue where
  idx : Nat                 -- transmit index
  handle : Option Nat       -- context of its rings
  dsts : List (Nat × Nat × Nat) -- receivers: site, share of the light, good codewords
deriving DecidableEq, Repr

/-- A combining entry (R274): the forwarded packet and the requesters attached to it. -/
structure Combine where
  p : Packet
  reqs : List OpenReq
deriving DecidableEq, Repr

/-- A write held at the owning controller until its sharers have answered (R235). -/
structure HeldWrite where
  addr : Nat
  data : List Byte
  poison : List Nat         -- offsets of its poisoned 32-byte units
  waiting : List (Nat × Nat) -- (64 KiB region, sharer) not yet acknowledged
  reply : Option (Arrival × Packet)
  issuer : Issuer
deriving DecidableEq, Repr

/-- A bundle lane group in one direction (R298 to R311). -/
structure Group where
  assemblyBad : Table Bool
  startBad : Table Bool     -- lanes that the receiver's test found bad (R308)
  partnerBad : Table Bool   -- lanes that the partner's list names (R310)
  replaced : Table Bool
  mode : Nat                -- 0 full, 1 half, 2 disabled
  seq : Nat                 -- last frame received in good order
  acked : Nat               -- last frame that the receiver acknowledged to the sender
  sent : Nat                -- SEQ of the sender's last frame
  kept : List (FrameCtl × List Byte) -- the sender's last 64 frames, oldest first (R304)
  onLanes : Nat             -- frames put on the lanes since frame alignment
  proposals : List Nat      -- lanes proposed and not yet switched, rising (R311)
  answered : Option (Nat × Nat) -- lane and AT_SEQ of the sender's AGREE
  switchAt : Option (Nat × Nat) -- the same, once the AGREE has reached the receiver
  corrected : Table (List (Nat × Nat)) -- by lane, the frames and symbols corrected within the last 4,096 frames
  idleErrs : Table Nat      -- wrong bits that the receiver saw on idle spare lanes, by lane (R300)
  frames : Nat              -- frames received in good order since it trained
  trained : Bool
deriving DecidableEq, Repr

/-- The site port's last sideband message of a type (R313, R317, R318). -/
structure SbSent where
  seq : Nat
  payload : List Nat
  at_ : Nat                 -- Basin time
  resends : Nat             -- times it was sent again after a CRC mismatch
deriving DecidableEq, Repr

/-- The negotiation with a die (R315). -/
inductive Nego where
  | idle | helloSent | capsSeen | offerSent | accepted | committed | ended
deriving DecidableEq, Repr

structure Abango where
  nego : Nego
  tries : Nat
  caps : CapsF
  offer : OfferF
  limit : Nat               -- POWER_LIMIT in force, W
  limitAcked : Bool
  excess : Nat              -- reports in a row above the limit
  excessFrom : Option Nat   -- Basin time of the first of them
  endCause : Nat            -- code of R646 with which negotiation ended, 0 for none
  refusals : List Nat       -- Basin times of REFUSE messages of the last second
  resetN : Bool             -- SB_RESET_N, low while the die is held in reset (R312)
  alert : Bool              -- SB_ALERT_N asserted (R321)
  sbSeq : Nat               -- number of the site port's next message (R313)
  sbSent : Table SbSent     -- by TYPE
  capsAt : Option Nat       -- Basin time of CAPS, until an OFFER reaches the die (R317)
  epoch : Nat
  lastReport : ReportF
  reportAt : Nat
  onTime : Nat              -- reports in a row on time (R590)
  late : Bool
  groupsDn : Table Group
  groupsUp : Table Group
  viaSpareDn : Table Nat    -- via groups whose spare is in use: 1 + failing via
  viaSpareUp : Table Nat
  viaFuseDn : Table Nat     -- fuses: the vias replaced at assembly, likewise (R327)
  viaFuseUp : Table Nat
  viaBand : Nat             -- band of the delay set in force (R324)
  viaTrained : Table Nat    -- groups that keep a trained value until the next start: 1 + the value; key 1000 * direction + group
  viaErrDn : Table (List Nat)  -- parity error times within 1 ms
  viaErrUp : Table (List Nat)
deriving DecidableEq, Repr

structure SiteState where
  rings : Table Ring        -- key 8 * guide + k
  openReqs : List OpenReq
  outstanding : List OpenReq
  flagged : List OpenReq    -- held flagged stores (R397)
  egressQ : List OpenReq    -- sent toward the site's own Outlet, not yet on the link
  combining : List Combine
  recvHeld : Table Nat      -- flits held from each source site
  nextTag : Nat
  slot30 : Option Nat       -- transmit index carried on each spare (R284)
  slot31 : Option Nat
  folded : Table Bool       -- transmit indices folded (R285)
  failedTx : Table Bool
  returning : Table Bool    -- failed indices that passed calibration and wait for a grant (R288)
  mods : Table Modulator    -- active modulator positions, by transmit index of the carrier (R340, R342)
  paused : Table Bool       -- transmit channels that replay
  confirmed : Table Nat     -- lowest confirmed good count by transmit index
  txQ : Table (List Transfer) -- transfers of each transmit index, oldest first
  txCount : Table Nat       -- codewords that carried transfers since the grant, by transmit index (R282)
  lastGood : Table Nat      -- last good count from which a paused channel replays, by transmit index (R283)
  spareDue : List SpareDue  -- failures of the present tick (R287)
  pairTurn : Table Bool     -- by destination, whether the pair's second channel is next (R273)
  sharers : Table Nat       -- 16-bit masks by 64 KiB region (R235)
  heldWrites : List HeldWrite
  asleep : List (Arrival × Packet × EccList) -- requests that wait for the stack to leave self refresh, with their reads' outcomes (R230)
  cache : Table (List Byte) -- 256-byte lines held by the site's cache, by DPA / 256
  lru : List Nat            -- the lines, least recently used first (R233)
  bankBand : Table Nat      -- refresh band in force by bank
  wantBand : Nat            -- band of the stack's readout
  refreshed : Table Bool    -- banks refreshed at the faster rate (R229)
  rfm : List Nat            -- refresh management requests being honoured (R225)
  ueRuns : Table Nat        -- scrub passes in a row with the line uncorrectable (R250)
  abango : Abango
  tapBand : Nat             -- band of the pre-emphasis entry in force (R356)
  tapDue : Option Nat       -- band whose entry takes effect at the next frame boundary
  fall : Table Nat          -- rounds in a row below the band's bound: 0 Tarn, 1 Pond, 2 HBM, 3 site port
  offMedian : Table Nat     -- rounds in a row off the median, by sensor; 4: broken until the next start (R590)
  drainFrom : Option Nat    -- start of a commanded egress drain (R399)
  creditsHeld : Bool        -- firmware withholds credits for a self-test (R328)
deriving DecidableEq, Repr

/-! ### Outlets and fabric -/

structure LinkState where
  txNext : Nat              -- number of the next flit to send
  rxNext : Nat              -- number of the next flit expected
  unacked : List (Nat × Packet) -- sent packets not yet acknowledged, by flit number
  waiting : List OpenReq    -- packets waiting for link credits
  shared : Nat              -- shared credits held (R390)
  reserved : Table Nat      -- reserved credits used, by pairing 2 * hop + class
  rxShared : Nat            -- shared places free in the receive buffer (R390)
  rxReserved : Table Nat    -- its reserved places taken, by pairing
  paid : List Packet        -- packets crossing the Basin to this link that hold its credits (R391)
  lastHello : Nat
  deadChans : Table Bool    -- 32 * lane + lambda
  sleepFrom : Option Nat    -- LINK_SLEEP flooded at (R382)
  activity : Nat
  violations : List Nat     -- times of the last second (R413)
  helloSeen : Bool
  trained : Bool
  lastReopen : Option Nat   -- last clamp reopening request (R363)
  cabled : Bool
  badFibres : Nat           -- mask of transmit fibres that failed (R380)
deriving DecidableEq, Repr

/-- A source route (R383): its length and its 4-bit entries. -/
structure Route where
  len : Nat
  word : DWord
deriving DecidableEq, Repr

structure FabricState where
  map : List LinkStateF     -- newest LINK_STATE of every module
  mapChanged : Nat          -- Basin time of its last change
  routes : Table Route      -- by coordinate
  slotRoutes : Table Route  -- by far-window slot
  nodes : List (Nat × Nat × Nat) -- (outlet, window base, window size) of memory nodes here
  lsSeq : Nat
  floodDue : Bool           -- a change of this module's links waits for a Weir to flood it (R556)
  held : List (Nat × LinkStateF) -- LINK_STATEs that wait for the end of a gap, with their Outlets (R556)
  offsetSum : Int           -- sum of the offsets along the tree path
  hold : Bool               -- the configuration record's hold mark (R617)
deriving DecidableEq, Repr

/-! ### Queues, DMA and mailboxes -/

/-- An SQ entry fetched or accepted (R441, R442). -/
structure SqEntry where
  words : List DWord
  seq : Nat                 -- its number in SQ order since the queue pair was created
  stamp : Nat
  status : Nat              -- R445: 0 passes, else the status of its first failed check
  cq : Nat                  -- the CQ whose slot it reserved
deriving DecidableEq, Repr

structure QpState where
  mode : Nat                -- 0 absent, 1 active, 2 error, 3 deleting
  owner : Nat
  sqBase : Nat
  cqBase : Nat
  sqLog : Nat               -- size is 2 ^ (log + 4)
  cqLog : Nat
  channel : Nat
  vector : Nat
  coalCount : Nat
  coalTime : Nat
  dbError : Bool
  fetchError : Bool
  tail : Nat
  head : Nat                -- SQ_HEAD
  cqHead : Nat
  cqTail : Nat              -- CQ_STATUS
  phaseTag : Bool
  reserved : Nat
  fetched : List SqEntry
  nextSeq : Nat
  fetchPos : Nat            -- SQ index of the next entry to read
  accepted : List SqEntry   -- accepted and not started
  open_ : List Nat          -- sequence numbers accepted and not completed
  unreported : Nat          -- entries written since the last interrupt
  oldest : Option Nat       -- Basin time of the oldest of them
  blocked : List (List Nat) -- completion entries waiting for Bus Master Enable
deriving DecidableEq, Repr

structure VfRange where
  base : Nat
  count : Nat
deriving DecidableEq, Repr

/-- A copy on its channel (R450). -/
structure CopyRec where
  qp : Nat
  seq : Nat
  fn : Nat
  cq : Nat
  tag : Nat
  toHost : Bool
  host : Nat
  dpa : Nat
  len : Nat
  moved : Nat
  tStart : Option Nat
  crossing : Bool
  refused : Option Nat
  poison : Bool
  bounds : Bool
  held : Nat                -- accesses of its bursts not yet answered: writes that wait for sharers (R235), fabric requests (R452)
  err : Option Nat          -- cause of a host access that failed (R455)
  id : Nat                  -- its number among the module's copies
deriving DecidableEq, Repr

/-- A completion entry without its SQ head and phase tag (R446). -/
structure Cpl where
  tag : Nat
  status : Nat
  cause : Nat
  lcore : Nat
  phase : Nat
  sq : Nat
  tStart : Nat
  tEnd : Nat
  count : Nat
  vflags : Nat
  below : Nat
  invalid : Nat
  sat : Nat
deriving DecidableEq, Repr

/-- An entry that the engine has resolved in this tick (R448). -/
structure Ended where
  seq : Nat                 -- of the entry, in its SQ
  cq : Nat
  cpl : Cpl
deriving DecidableEq, Repr

structure DmaState where
  copies : List CopyRec     -- the first is in progress
  inRound : Nat             -- bursts taken in the present round
deriving DecidableEq, Repr

/-- A mailbox request held by the Weir (R475 to R477). -/
structure MbReq where
  fn : Nat
  seq : Nat
  opcode : Nat
  paramLen : Nat
  badAt : Nat               -- offset of the first reserved header byte that was not zero, 0 for none
  params : List Byte
  tick : Nat                -- tick of acceptance
  commit : Nat              -- tick in which it was committed (R474)
  executed : Bool           -- committed and applied; its answer waits for a later event
  arg : Nat
deriving DecidableEq, Repr

structure MbWindow where
  doorbell : Nat
  mode : Nat                -- 0 IDLE, 1 PENDING, 2 DONE, 3 RETRY, 4 BUSY
  seq : Nat
  flags : BitVec 32
  evtHead : Nat
  evtTail : Nat
  evtLost : Nat
  ringBase : Nat
  ringSize : Nat            -- 0 for none
  ringTag : Bool
  req : Table Nat           -- request area, by word 0-255
  resp : Table Nat          -- response area
  lastSeq : Option Nat
  stamped : Option Nat      -- SEQ of a doorbell that waits for its tick's end
  stampTick : Nat           -- its tick, by the host interface's copy (R68)
  blocked : List (List Nat) -- events waiting for Bus Master Enable (R443)
deriving DecidableEq, Repr

inductive ActMode where
  | queued | running | done
deriving DecidableEq, Repr

/-- A background or maintenance activity (R499, R560). -/
structure Activity where
  num : Nat
  opcode : Nat
  maint : Bool
  mode : ActMode
  status : Nat
  detail : Nat
  site : Nat                -- site, outlet, Weir or partition named
  guide : Nat
  lambda : Nat
  addr : Nat
  src : Nat
  len : Nat
  from_ : Nat               -- Basin time of its start
deriving DecidableEq, Repr

/-! ### Weirs, island, power and housekeeping -/

/-- A switchover in progress (R555, R558). -/
structure Gap where
  starting : Weir
  former : Weir
  beatsOnly : Bool          -- declared from missed beats alone
  drill : Bool
  retry : Bool              -- a restart of the former Weir
  since : Nat               -- the declaration
  from_ : Nat               -- from where the bound counts: the declaration, or the restart (R558)
deriving DecidableEq, Repr

structure WeirState where
  active : Weir
  running : Bool
  failedA : Bool
  failedB : Bool
  gap : Option Gap
  mgmtLost : Bool
  missMsg : Nat
  missWire : Nat
  beatMsg : Nat
  lastMsg : Nat             -- Basin time from which the next beat of each path is awaited (R551)
  lastWire : Nat
  owed : List (Nat × List Nat) -- events that wait for the end of a gap, by function (R556)
  slotA : Nat               -- boot slot of each Weir
  slotB : Nat
  runSlot : Nat             -- slot from which the active Weir runs
  switchovers : Nat         -- kept in the configuration records (R567)
  ckSeq : Nat               -- sequence number of the newest full checkpoint
  ckBank : Nat
  journal : Nat             -- records appended since
  standbyChecked : Option Nat   -- time of the last check since ready (R559, R616)
deriving DecidableEq, Repr

/-- The configuration record of the Weir flash, as firmware reads it at stage 2 (R52, R337, R375, R617). -/
structure ConfigRecord where
  refaMode : Bool
  coord : Option Nat        -- coordinate and sizes packed as FABRIC_COORD [23:0]
  hold : Bool
  springPos : List Nat      -- the Spring of each feed position
deriving DecidableEq, Repr

structure TripRecord where
  tick : Nat
  unit : Nat
  first : BitVec 16
  second : BitVec 16
deriving DecidableEq, Repr

structure Island where
  onVkeep : Bool
  lost : Bool               -- the island lost its state since the last start
  outages : List Nat        -- backup value at each switch to and return from VKEEP (R573)
  vkeepUsed : Bool
  trip : Option TripRecord
  tripped : Option TripRecord -- a cleared trip that no start has logged yet (R594)
  bothBadAt : Option Nat
  keys : List (Nat × Nat)   -- sealed key entries: (site, SITE_BASIN_KEY word)
  split : Table Nat         -- CACHE_SIZE of each site's Pond split, in the checkpoint (R231); 2 at delivery
  egress : List Egress
  egressLost : Bool
deriving DecidableEq, Repr

structure PowerState where
  goodA : Bool
  goodB : Bool
  stage : Nat               -- furthest step of R581
  throttleFrom : Option Nat
  lowerAt : Nat             -- earliest time of the next lowering of R581
  feedPowers : List Nat     -- total feed power of the last 16 rounds
  restore : List Nat        -- sites whose lowered cores wait for restoration
  restoreAt : Nat
deriving DecidableEq, Repr

structure HouseState where
  running : Bool
  started : Nat
  latched : Bool
  trigTick : Option Nat     -- tick of the last trigger, to count those of one tick as one
  lostNow : Bool            -- that trigger was counted as lost
deriving DecidableEq, Repr

/-- A Spring's own record besides its registers (R333 to R337). -/
structure SpringState where
  failed : Bool
  failedAt : Nat            -- tick of its failure (R337)
  restoring : Option Nat    -- the position it is being switched into
  fall : Nat
  onNs : Nat                -- time spent powered before now, ns: kept in the Spring (R370)
  onSince : Option Int      -- the physical time since which it is powered
deriving DecidableEq, Repr

structure StartState where
  held : Bool               -- MODULE_RESET_N holds the module in reset
  resetReq : Bool           -- a module reset takes effect at the tick's end
deriving DecidableEq, Repr

/-- The maintenance port (R651 to R661). -/
structure MaintPort where
  smbAddr : Option Nat      -- 7-bit SMBus address, once stage 2 has sampled the straps (R653, R656)
  eid : Nat
  line : List Nat           -- console characters of the line being received, 256 + c for a flagged byte
  lines : List (List Nat)   -- complete lines not yet answered
  baud : Nat
  ir : Nat                  -- JTAG instruction last used
  pinDrive : BitVec 80      -- row-B values driven by EXTEST
  extest : Bool
deriving DecidableEq, Repr

/-- Pages of the two Weir flash devices, by 256-byte page: erased reads 0xFF (R503). -/
structure FlashState where
  a : Table Byte
  b : Table Byte
  calChanged : Bool
  calWritten : Nat
deriving DecidableEq, Repr

/-- The whole block. `pending` is the queue of commands; everything else is what the spec gives the module. -/
structure State where
  pending : List Instr
  regs : Table Nat
  latches : Table Nat       -- L64 latches, by 2^26 * function + offset
  firstWrite : Option Nat   -- pending first write of GLOBAL_RESET (R18)
  upsets : List (ParityUnit × Nat) -- parity mismatches that stand, with the bit that flipped (R627)
  flagsNow : Table Nat      -- W1C bits that hardware has set in the present tick (R19)
  mem : List Host.Cell      -- near tier, Ponds and core stores by DPA
  written : Table Bool      -- written bits by 4 KiB page (R244)
  poison : Table Bool       -- poisoned 64-byte lines of the near tier and Ponds, by DPA / 64
  corePoison : Table Bool   -- poisoned 32-byte words of the core stores, by DPA / 32
  hostMem : List Host.Cell  -- what the module has written to host memory, by 2^64 * function + address
  out : List Output
  time : TimeState
  clock : ClockState
  cross : Table CrossState  -- key 8 * site + kind
  faults : FaultState
  cores : Table CoreState
  contexts : List Context
  gens : Table Nat          -- generation last used, by 16 * core + context number (R490)
  startReqs : List StartReq
  ended : List Ended        -- entries resolved in this tick, to be completed at its end (R448)
  parts : Table Partition
  far : Table FarSlot
  farPending : List FarPending
  sites : Table SiteState
  links : Table LinkState
  fabric : FabricState
  qps : Table QpState
  vfRanges : Table VfRange
  bme : Table Bool
  d3hot : Table Bool
  linkUp : Bool
  vfsOn : Bool
  dma : Table DmaState
  windows : Table MbWindow
  mbReqs : List MbReq
  taken : Table Nat         -- acceptance tick + 1 of the last request that took a resource kind (R476)
  acts : List Activity
  nextAct : Nat
  weir : WeirState
  record : ConfigRecord
  island : Island
  power : PowerState
  house : HouseState
  springs : Table SpringState
  start : StartState
  maint : MaintPort
  flash : FlashState
  nextId : Nat              -- number of the next move
  freeCount : Nat           -- the model's own: free values drawn so far (log 5)
deriving DecidableEq, Repr

/-! ### After reset

The values below are the rules' where a rule gives one (R618 and the register tables, R103, R174, R231, R333, R535, R605,
R658); every other field is zero, empty or absent, a DESIGN CHOICE (log 2). -/

/-- An accumulator that has just been written from nothing (R174). -/
def Acc.zero : Acc := { cells := [], wlo := 0, h := 0, count := 0, poisoned := false }

/-- A core at reset: nothing runs on it and nothing of it is written (R118 IDLE = 1, R174). -/
def CoreState.reset : CoreState :=
  { fenced := false, step := 0, cmdStep := 0, rampTo := none, parityTimes := [], running := none, pc := 0,
    aQ := [], vQ := [], mQ := [], cQ := [], aIssued := 0, vIssued := 0, mIssued := 0, aStarted := 0, vStarted := 0,
    mStarted := 0, aOpen := [], dOpen := [], tOpen := [], held := [], stalled := none, posts := [], remote := [],
    moves := [], closed := false, reported := false, accs := [], vregs := [], vpoison := [], vflags := 0, sel := 0, below := 0, invalid := 0,
    sat := 0, latched := [], idleSince := none }

def capsReset : CapsF :=
  { cls := 0, maker := 0, stepping := 0, verMin := 0, verMax := 0, powerMax := 0, sensors := 0, features := 0 }

def offerReset : OfferF := { version := 0, features := 0, powerLimit := 0, reportUs := 0 }

def reportReset : ReportF := { temps := [], power := 0, flags := 0, corePower := [] }

/-- A lane group with no bad lane, at full width (R309). -/
def Group.reset : Group :=
  { assemblyBad := [], startBad := [], partnerBad := [], replaced := [], mode := 0, seq := 0, acked := 0, sent := 0, kept := [],
    onLanes := 0, proposals := [], answered := none, switchAt := none, corrected := [], idleErrs := [], frames := 0, trained := false }

def SbSent.reset : SbSent := { seq := 0, payload := [], at_ := 0, resends := 0 }

def Abango.reset : Abango :=
  { nego := .idle, tries := 0, caps := capsReset, offer := offerReset, limit := 0, limitAcked := false, excess := 0,
    excessFrom := none, endCause := 0, refusals := [], resetN := false, alert := false, sbSeq := 0, sbSent := [], capsAt := none, epoch := 0,
    lastReport := reportReset, reportAt := 0, onTime := 0, late := false, groupsDn := [], groupsUp := [], viaSpareDn := [],
    viaSpareUp := [], viaFuseDn := [], viaFuseUp := [], viaBand := 0, viaTrained := [], viaErrDn := [], viaErrUp := [] }

def SiteState.reset : SiteState :=
  { rings := [], openReqs := [], outstanding := [], flagged := [], egressQ := [], combining := [], recvHeld := [],
    nextTag := 0, slot30 := none, slot31 := none, folded := [], failedTx := [], returning := [], mods := [], paused := [], confirmed := [],
    txQ := [], txCount := [], lastGood := [], spareDue := [], pairTurn := [],
    sharers := [], heldWrites := [], asleep := [], cache := [], lru := [], bankBand := [], wantBand := 0, refreshed := [], rfm := [],
    ueRuns := [], abango := .reset, tapBand := 0, tapDue := none, fall := [], offMedian := [], drainFrom := none, creditsHeld := false }

/-- The shared flits of an Outlet's receive buffer: 32,768 less 5 for each of 32 pairings (R390). -/
def sharedFlits : Nat := 32768 - 5 * 32

def LinkState.reset : LinkState :=
  { txNext := 0, rxNext := 0, unacked := [], waiting := [], shared := sharedFlits, reserved := [],
    rxShared := sharedFlits, rxReserved := [], paid := [], lastHello := 0,
    deadChans := [], sleepFrom := none, activity := 0, violations := [], helloSeen := false, trained := false,
    lastReopen := none, cabled := false, badFibres := 0 }

def Partition.reset : Partition :=
  { mode := .absent, cores := 0, strict := 0, vf := none, channels := 0, keys := [], units := [], areas := [],
    slices := [], unwritten := 0, sealing := false, destroyFrom := none, activity := 0 }

def FarSlot.reset : FarSlot :=
  { valid := false, part := 0, cacheable := false, writable := false, kind := 0, coord := 0, key := 0, base := 0 }

/-- A queue pair that does not exist (R438 STATE 0). -/
def QpState.reset : QpState :=
  { mode := 0, owner := 0, sqBase := 0, cqBase := 0, sqLog := 0, cqLog := 0, channel := 0, vector := 0, coalCount := 0,
    coalTime := 0, dbError := false, fetchError := false, tail := 0, head := 0, cqHead := 0, cqTail := 0,
    phaseTag := true, reserved := 0, fetched := [], nextSeq := 0, fetchPos := 0, accepted := [], open_ := [],
    unreported := 0, oldest := none, blocked := [] }

def VfRange.reset : VfRange := { base := 0, count := 0 }

def DmaState.reset : DmaState := { copies := [], inRound := 0 }

def MbWindow.reset : MbWindow :=
  { doorbell := 0, mode := 0, seq := 0, flags := 0, evtHead := 0, evtTail := 0, evtLost := 0, ringBase := 0,
    ringSize := 0, ringTag := true, req := [], resp := [], lastSeq := none, stamped := none, stampTick := 0, blocked := [] }

/-- A crossing before either side was ever up. -/
def CrossState.reset : CrossState := { upper := { epoch := 0, refusing := false }, lower := { epoch := 0, refusing := false } }

def SpringState.reset : SpringState := { failed := false, failedAt := 0, restoring := none, fall := 0, onNs := 0, onSince := none }

def TimeState.reset : TimeState :=
  { now := 0, frac := 0, copyErr := [], copyFix := [], pathDelay := [], running := false, slewLeft := 0, hold := false, setAt := none, shift := 0, backup := 0,
    backupValid := false }

def ClockState.reset : ClockState :=
  { badA := 0, badB := 0, goodA := 0, goodB := 0, trimmed := false, refaMode := false, pllRef := [], pllLost := [], restoreDue := false, change := none, stepBefore := 0, inReset := [],
    waitExit := [] }

def FaultState.reset : FaultState :=
  { inTransit := [], arrived := [], nextTick := 0, windows := [], queue := [], log := [], notices := [] }

def FabricState.reset : FabricState :=
  { map := [], mapChanged := 0, routes := [], slotRoutes := [], nodes := [], lsSeq := 0, floodDue := false, held := [], offsetSum := 0, hold := false }

/-- Weir A starts first (R28, R600); it does not run yet (R603 stage 1). -/
def WeirState.reset : WeirState :=
  { active := .a, running := false, failedA := false, failedB := false, gap := none, mgmtLost := false, missMsg := 0,
    missWire := 0, beatMsg := 0, lastMsg := 0, lastWire := 0, owed := [], slotA := 0, slotB := 0, runSlot := 0, switchovers := 0, ckSeq := 0, ckBank := 0,
    journal := 0, standbyChecked := none }

/-- The defaults of R605: REFA in 100 MHz mode, no stored coordinate, Spring n in position n. -/
def ConfigRecord.reset : ConfigRecord :=
  { refaMode := false, coord := none, hold := false, springPos := [0, 1, 2, 3, 4, 5, 6, 7] }

/-- The island of a cold start: nothing kept (R601). -/
def Island.reset : Island :=
  { onVkeep := false, lost := true, outages := [], vkeepUsed := false, trip := none, tripped := none, bothBadAt := none, keys := [],
    split := [], egress := [], egressLost := false }

def PowerState.reset : PowerState :=
  { goodA := false, goodB := false, stage := 0, throttleFrom := none, lowerAt := 0,
    feedPowers := [], restore := [], restoreAt := 0 }

def HouseState.reset : HouseState := { running := false, started := 0, latched := false, trigTick := none, lostNow := false }

def StartState.reset : StartState := { held := false, resetReq := false }

/-- The console at 115,200 baud (R658), JTAG at IDCODE. -/
def MaintPort.reset : MaintPort :=
  { smbAddr := none, eid := 0, line := [], lines := [], baud := 115200, ir := 1, pinDrive := 0, extest := false }

def FlashState.reset : FlashState := { a := [], b := [], calChanged := false, calWritten := 0 }

/-- The module right after a cold start begins: every register at the reset value of its table, every domain off, the
island empty, stage 1 (R596, R601, R603, R618, R631). -/
def State.reset : State :=
  { pending := [], regs := [], latches := [], firstWrite := none, upsets := [], flagsNow := [], mem := [], written := [], poison := [],
    corePoison := [], hostMem := [], out := [], time := .reset, clock := .reset, cross := [], faults := .reset,
    cores := [], contexts := [], gens := [], startReqs := [], ended := [], parts := [], far := [], farPending := [], sites := [],
    links := [], fabric := .reset, qps := [], vfRanges := [], bme := [], d3hot := [], linkUp := false, vfsOn := false,
    dma := [], windows := [], mbReqs := [], taken := [], acts := [], nextAct := 0, weir := .reset, record := .reset,
    island := .reset, power := .reset, house := .reset, springs := [], start := .reset, maint := .reset, flash := .reset,
    nextId := 0, freeCount := 0 }

end Sys2Proof.Machine
end

