-- ==== Sys2Proof/Machine/Table.lean ====
section
/-! DEFINITION. Reading and writing a sparse table in its one canonical form, and the form itself. -/

namespace Sys2Proof.Machine

/-- The entry of a key, if one is listed. -/
def tfind {α : Type} : Table α → Nat → Option α
  | [], _ => none
  | e :: t, k => if e.1 = k then some e.2 else tfind t k

/-- The value at a key: what an unlisted key reads as is `d`. -/
def tget {α : Type} (d : α) (t : Table α) (k : Nat) : α := (tfind t k).getD d

/-- Put an entry in its place. -/
def tins {α : Type} : Table α → Nat → α → Table α
  | [], k, v => [(k, v)]
  | e :: t, k, v =>
    if k < e.1 then (k, v) :: e :: t else if k = e.1 then (k, v) :: t else e :: tins t k v

/-- Remove the entry of a key. -/
def tdel {α : Type} (t : Table α) (k : Nat) : Table α := t.filter fun e => e.1 != k

/-- Write a value at a key: writing what an unlisted key reads as removes the entry. -/
def tput {α : Type} [DecidableEq α] (d : α) (t : Table α) (k : Nat) (v : α) : Table α :=
  if v = d then tdel t k else tins t k v

/-- Change the value at a key. -/
def tmod {α : Type} [DecidableEq α] (d : α) (t : Table α) (k : Nat) (f : α → α) : Table α :=
  tput d t k (f (tget d t k))

/-- Remove the entries whose keys a test picks. -/
def tdrop {α : Type} (t : Table α) (p : Nat → Bool) : Table α := t.filter fun e => !p e.1

/-- Keys strictly rising. -/
def tsorted {α : Type} : Table α → Bool
  | [] => true
  | e :: t => t.all (fun f => e.1 < f.1) && tsorted t

/-- The canonical form: keys strictly rising, and no entry equal to what its key reads as unlisted. -/
def twf {α : Type} [DecidableEq α] (d : Nat → α) (t : Table α) : Bool :=
  tsorted t && t.all fun e => decide (e.2 ≠ d e.1)

/-- The canonical form of a memory: an unlisted byte reads 0 (R244, R601: a page nothing has written reads zeros). -/
def Memory.wf (m : List Host.Cell) : Bool := twf (fun _ => (0 : Byte)) m

/-- A byte of a memory. -/
def readByte (m : List Host.Cell) (a : Nat) : Byte := tget 0 m a

/-- Write a byte. -/
def writeByte (m : List Host.Cell) (a : Nat) (v : Byte) : List Host.Cell := tput 0 m a v

/-- Bytes a, a + 1, … -/
def readBytes (m : List Host.Cell) (a n : Nat) : List Byte := (List.range n).map fun i => readByte m (a + i)

/-- Write bytes from `a` upward. -/
def writeBytes (m : List Host.Cell) : Nat → List Byte → List Host.Cell
  | _, [] => m
  | a, b :: bs => writeByte (writeBytes m (a + 1) bs) a b

/-- Remove every byte in a range: the range reads zeros. -/
def zeroRange (m : List Host.Cell) (a n : Nat) : List Host.Cell := tdrop m fun k => a ≤ k && k < a + n

/-! ### Bit fields and little-endian values (R16, R194) -/

/-- Bits [hi:lo] of a natural number. -/
def bits (v hi lo : Nat) : Nat := v / 2 ^ lo % 2 ^ (hi + 1 - lo)

def bit (v i : Nat) : Bool := v / 2 ^ i % 2 == 1

/-- `v` with bits [hi:lo] replaced by `x`. -/
def setBits (v hi lo x : Nat) : Nat :=
  v / 2 ^ (hi + 1) * 2 ^ (hi + 1) + x % 2 ^ (hi + 1 - lo) * 2 ^ lo + v % 2 ^ lo

def setBit (v i : Nat) (b : Bool) : Nat := setBits v i i (if b then 1 else 0)

/-- A little-endian number from bytes. -/
def leNat : List Byte → Nat
  | [] => 0
  | b :: bs => b.toNat + 256 * leNat bs

/-- `n` little-endian bytes of a number. -/
def leBytes : Nat → Nat → List Byte
  | 0, _ => []
  | n + 1, v => BitVec.ofNat 8 v :: leBytes n (v / 256)

/-- A two's-complement number of `w` bits. -/
def signed (w v : Nat) : Int := if v % 2 ^ w < 2 ^ (w - 1) then (v % 2 ^ w : Nat) else (v % 2 ^ w : Nat) - (2 ^ w : Nat)

/-- The `w`-bit two's-complement pattern of an integer. -/
def twos (w : Nat) (i : Int) : Nat := (i % (2 ^ w : Nat)).toNat

def minNat (a b : Nat) : Nat := if a ≤ b then a else b
def maxNat (a b : Nat) : Nat := if a ≤ b then b else a

/-- A `w`-bit counter that stops at its largest value. -/
def satAdd (w a b : Nat) : Nat := minNat (a + b) (2 ^ w - 1)

/-- The 1-bits of a mask below `n`, in rising order. -/
def maskList (v n : Nat) : List Nat := (List.range n).filter (bit v)

/-- The mask of a list of bit numbers. -/
def maskOf : List Nat → Nat
  | [] => 0
  | i :: is => if bit (maskOf is) i then maskOf is else maskOf is + 2 ^ i

end Sys2Proof.Machine
end

