-- ==== Sys2Proof/Machine/Codes.lean ====
section
/-! DEFINITION. Reed-Solomon codes over the fields of the bundle and of the line code (R301, R360). -/

namespace Sys2Proof.Machine

/-- A code: the width of its field's elements, the field polynomial with its leading term, and the number of check symbols. Its generator
has the roots alpha^0, alpha^1 and so on, one for each check symbol. -/
structure RsCode where
  width : Nat
  poly : Nat
  checks : Nat
deriving DecidableEq, Repr

/-- Twice a field element. -/
def gfTwice (c : RsCode) (a : Nat) : Nat := if a < 2 ^ (c.width - 1) then 2 * a else (2 * a) ^^^ c.poly

/-- The product of two field elements. -/
def gfMul (c : RsCode) (a b : Nat) : Nat :=
  if a == 0 then 0
  else ((List.range c.width).foldl (fun (e : Nat × Nat) k => (if b.testBit k then e.1 ^^^ e.2 else e.1, gfTwice c e.2)) (0, a)).1

/-- A polynomial, lowest coefficient first, times x plus an element. -/
def gfPolyStep (c : RsCode) (p : List Nat) (a : Nat) : List Nat := List.zipWith (· ^^^ ·) (0 :: p) (p.map (gfMul c a) ++ [0])

/-- The generator, lowest coefficient first. -/
def rsGenerator (c : RsCode) : List Nat :=
  ((List.range c.checks).foldl (fun (e : List Nat × Nat) _ => (gfPolyStep c e.1 e.2, gfTwice c e.2)) ([1], 1)).1

/-- The remainder takes one more symbol: lowest coefficient first. -/
def rsStep (c : RsCode) (gen r : List Nat) (d : Nat) : List Nat :=
  let f := d ^^^ r.getD (c.checks - 1) 0
  List.zipWith (fun a g => a ^^^ gfMul c f g) (0 :: r.take (c.checks - 1)) (gen.take c.checks)

/-- The check symbols of some data symbols. The first symbol is the highest coefficient. DESIGN CHOICE, log 18. -/
def rsCheck (c : RsCode) (ds : List Nat) : List Nat := (ds.foldl (rsStep c (rsGenerator c)) (List.replicate c.checks 0)).reverse

/-- Symbol errors that the code corrects in a codeword. -/
def RsCode.reach (c : RsCode) : Nat := c.checks / 2

/-- The bits of some symbols in order, bit 0 first. -/
def symbolBits (w : Nat) (ss : List Nat) : List Bool := ss.flatMap fun v => (List.range w).map v.testBit

end Sys2Proof.Machine
end

