-- ==== Sys2Proof/Machine/RegMap.lean ====
section
/-! DEFINITION. The BAR0 map (R618, R619): the offset of every register, in the order of the manual's tables, its reset
value, which offsets are low halves of L64 pairs (R20) and which bits are write-1-to-clear (R17). A pair is held whole at
its low offset. -/

namespace Sys2Proof.Machine.Reg

/-! ### GLOBAL (R629) -/

def globalIdent : Nat := 0x0000_0000 + 0x0
def globalStat : Nat := 0x0000_0000 + 0x4
def globalFlags : Nat := 0x0000_0000 + 0x8
def globalReset : Nat := 0x0000_0000 + 0x10
def globalSerial : Nat := 0x0000_0000 + 0x18
def globalFw : Nat := 0x0000_0000 + 0x20
def globalParityUnit : Nat := 0x0000_0000 + 0x24
def globalParityCount : Nat := 0x0000_0000 + 0x28

/-! ### TIME (R633) -/

def timeCtrl : Nat := 0x0010_0000 + 0x0
def timeStat : Nat := 0x0010_0000 + 0x4
def timeNow : Nat := 0x0010_0000 + 0x10
def timeLastChange : Nat := 0x0010_0000 + 0x18
def timeSlewLeft : Nat := 0x0010_0000 + 0x20
def timeBeaconErr : Nat := 0x0010_0000 + 0x24

/-! ### CLOCK (R635) -/

def clockCtrl : Nat := 0x0020_0000 + 0x0
def clockFlags : Nat := 0x0020_0000 + 0x4
def clockRefcfg : Nat := 0x0020_0000 + 0x8
def clockRefstat : Nat := 0x0020_0000 + 0xC
def clockPllstat : Nat := 0x0020_0000 + 0x10
def clockStep : Nat := 0x0020_0000 + 0x14
def clockCommit : Nat := 0x0020_0000 + 0x18
def clockRefcount : Nat := 0x0020_0000 + 0x20

/-! ### HOUSE (R638) -/

def houseStat : Nat := 0x0030_0000 + 0x0
def houseTrigger : Nat := 0x0030_0000 + 0x4
def houseRound : Nat := 0x0030_0000 + 0x10
def houseLost : Nat := 0x0030_0000 + 0x18
def houseBroken (i : Nat) : Nat := 0x0030_0000 + 0x100 + 4 * i
def houseStackBroken (i : Nat) : Nat := 0x0030_0000 + 0x180 + 4 * i
def houseValue (i : Nat) : Nat := 0x0030_0000 + 0x1000 + 8 * i

/-! ### POWER (R641) -/

def powerStat : Nat := 0x0040_0000 + 0x0
def powerFlags : Nat := 0x0040_0000 + 0x4
def powerFeedA : Nat := 0x0040_0000 + 0x8
def powerFeedB : Nat := 0x0040_0000 + 0xC
def powerEstimate : Nat := 0x0040_0000 + 0x10
def powerThrottleNs : Nat := 0x0040_0000 + 0x18
def powerThrottles : Nat := 0x0040_0000 + 0x20
def powerDomain (i : Nat) : Nat := 0x0040_0000 + 0x100 + 4 * i

/-! ### FAULT (R566) -/

def faultWeir : Nat := 0x0050_0000 + 0x0
def faultFlags : Nat := 0x0050_0000 + 0x4
def faultLogNext : Nat := 0x0050_0000 + 0x8
def faultLogOldest : Nat := 0x0050_0000 + 0xC
def faultLost : Nat := 0x0050_0000 + 0x10
def faultLateEvents : Nat := 0x0050_0000 + 0x18
def faultMerged : Nat := 0x0050_0000 + 0x20
def faultClass (i : Nat) : Nat := 0x0050_0000 + 0x100 + 8 * i

/-! ### DMA channel (R464) -/

def dmaCtl (ch : Nat) : Nat := 0x0060_0000 + ch * 0x100 + 0x0
def dmaStat (ch : Nat) : Nat := 0x0060_0000 + ch * 0x100 + 0x4
def dmaFlags (ch : Nat) : Nat := 0x0060_0000 + ch * 0x100 + 0x8
def dmaErrinfo (ch : Nat) : Nat := 0x0060_0000 + ch * 0x100 + 0xC
def dmaErraddr (ch : Nat) : Nat := 0x0060_0000 + ch * 0x100 + 0x10
def dmaBytes (ch : Nat) : Nat := 0x0060_0000 + ch * 0x100 + 0x18
def dmaErrors (ch : Nat) : Nat := 0x0060_0000 + ch * 0x100 + 0x20

/-! ### QUEUE (R461) -/

def queueStat : Nat := 0x0080_0000 + 0x0
def queueFlags : Nat := 0x0080_0000 + 0x4
def queueQpSel : Nat := 0x0080_0000 + 0x8
def queueQpInfo : Nat := 0x0080_0000 + 0xC
def queueAccepted : Nat := 0x0080_0000 + 0x10
def queueRetries : Nat := 0x0080_0000 + 0x18
def queueRefused : Nat := 0x0080_0000 + 0x20
def queueDbErrors : Nat := 0x0080_0000 + 0x28

/-! ### SITE state (R644) -/

def siteStat (s : Nat) : Nat := 0x0100_0000 + s * 0x10_0000 + 0x0
def siteFailCause (s : Nat) : Nat := 0x0100_0000 + s * 0x10_0000 + 0x4

/-! ### SITE counters of a core (R116) -/

def cperfCtl (c : Nat) : Nat := 0x0100_0000 + c / 4 * 0x10_0000 + 0x4_0000 + c % 4 * 0x1000 + 0x0
def cperfStat (c : Nat) : Nat := 0x0100_0000 + c / 4 * 0x10_0000 + 0x4_0000 + c % 4 * 0x1000 + 0x4
def cperfReplica (c : Nat) : Nat := 0x0100_0000 + c / 4 * 0x10_0000 + 0x4_0000 + c % 4 * 0x1000 + 0x10
def cperfIssue (c : Nat) : Nat := 0x0100_0000 + c / 4 * 0x10_0000 + 0x4_0000 + c % 4 * 0x1000 + 0x18
def cperfStallToken (c : Nat) : Nat := 0x0100_0000 + c / 4 * 0x10_0000 + 0x4_0000 + c % 4 * 0x1000 + 0x20
def cperfStallBank (c : Nat) : Nat := 0x0100_0000 + c / 4 * 0x10_0000 + 0x4_0000 + c % 4 * 0x1000 + 0x28
def cperfStallLink (c : Nat) : Nat := 0x0100_0000 + c / 4 * 0x10_0000 + 0x4_0000 + c % 4 * 0x1000 + 0x30
def cperfArrayActive (c : Nat) : Nat := 0x0100_0000 + c / 4 * 0x10_0000 + 0x4_0000 + c % 4 * 0x1000 + 0x38
def cperfArraySkipped (c : Nat) : Nat := 0x0100_0000 + c / 4 * 0x10_0000 + 0x4_0000 + c % 4 * 0x1000 + 0x40
def cperfVector (c : Nat) : Nat := 0x0100_0000 + c / 4 * 0x10_0000 + 0x4_0000 + c % 4 * 0x1000 + 0x48
def cperfCadenceOverrun (c : Nat) : Nat := 0x0100_0000 + c / 4 * 0x10_0000 + 0x4_0000 + c % 4 * 0x1000 + 0x50
def cperfTokrate (c : Nat) : Nat := 0x0100_0000 + c / 4 * 0x10_0000 + 0x4_0000 + c % 4 * 0x1000 + 0x58

/-! ### SITE memory (R251) -/

def memCfg (s : Nat) : Nat := 0x0100_0000 + s * 0x10_0000 + 0x5_0000 + 0x0
def memPoisoned (s : Nat) : Nat := 0x0100_0000 + s * 0x10_0000 + 0x5_0000 + 0x4
def memRefresh (s : Nat) : Nat := 0x0100_0000 + s * 0x10_0000 + 0x5_0000 + 0x8
def memScrubPos (s : Nat) : Nat := 0x0100_0000 + s * 0x10_0000 + 0x5_0000 + 0xC
def memHbmCe (s : Nat) : Nat := 0x0100_0000 + s * 0x10_0000 + 0x5_0000 + 0x10
def memHbmUe (s : Nat) : Nat := 0x0100_0000 + s * 0x10_0000 + 0x5_0000 + 0x18
def memPondCe (s : Nat) : Nat := 0x0100_0000 + s * 0x10_0000 + 0x5_0000 + 0x20
def memPondUe (s : Nat) : Nat := 0x0100_0000 + s * 0x10_0000 + 0x5_0000 + 0x28
def memCacheHit (s : Nat) : Nat := 0x0100_0000 + s * 0x10_0000 + 0x5_0000 + 0x30
def memCacheMiss (s : Nat) : Nat := 0x0100_0000 + s * 0x10_0000 + 0x5_0000 + 0x38
def memCacheErr (s : Nat) : Nat := 0x0100_0000 + s * 0x10_0000 + 0x5_0000 + 0x40
def memInval (s : Nat) : Nat := 0x0100_0000 + s * 0x10_0000 + 0x5_0000 + 0x48
def memUnwrittenRd (s : Nat) : Nat := 0x0100_0000 + s * 0x10_0000 + 0x5_0000 + 0x50
def memScrubPass (s : Nat) : Nat := 0x0100_0000 + s * 0x10_0000 + 0x5_0000 + 0x58

/-! ### SITE transport (R290) -/

def basinStat (s : Nat) : Nat := 0x0100_0000 + s * 0x10_0000 + 0x6_0000 + 0x0
def basinFlags (s : Nat) : Nat := 0x0100_0000 + s * 0x10_0000 + 0x6_0000 + 0x4
def basinSubst (s : Nat) : Nat := 0x0100_0000 + s * 0x10_0000 + 0x6_0000 + 0x8
def basinRetuneMax (s : Nat) : Nat := 0x0100_0000 + s * 0x10_0000 + 0x6_0000 + 0xC
def basinRetunes (s : Nat) : Nat := 0x0100_0000 + s * 0x10_0000 + 0x6_0000 + 0x10
def basinFailovers (s : Nat) : Nat := 0x0100_0000 + s * 0x10_0000 + 0x6_0000 + 0x18
def basinReplayBytes (s : Nat) : Nat := 0x0100_0000 + s * 0x10_0000 + 0x6_0000 + 0x20
def basinOpenFlits (s : Nat) : Nat := 0x0100_0000 + s * 0x10_0000 + 0x6_0000 + 0x28
def basinOpenRetry (s : Nat) : Nat := 0x0100_0000 + s * 0x10_0000 + 0x6_0000 + 0x30
def basinCombined (s : Nat) : Nat := 0x0100_0000 + s * 0x10_0000 + 0x6_0000 + 0x38
def basinKeyRefused (s : Nat) : Nat := 0x0100_0000 + s * 0x10_0000 + 0x6_0000 + 0x40
def basinCtxDiscard (s : Nat) : Nat := 0x0100_0000 + s * 0x10_0000 + 0x6_0000 + 0x48
def basinCredit (s i : Nat) : Nat := 0x0100_0000 + s * 0x10_0000 + 0x6_0000 + 0x100 + 4 * i
def basinKey (s i : Nat) : Nat := 0x0100_0000 + s * 0x10_0000 + 0x6_0000 + 0x200 + 4 * i
def basinTxch (s i : Nat) : Nat := 0x0100_0000 + s * 0x10_0000 + 0x6_0000 + 0x400 + 4 * i

/-! ### SITE Abango (R329) -/

def abangoStat (s : Nat) : Nat := 0x0100_0000 + s * 0x10_0000 + 0x7_0000 + 0x0
def abangoFlags (s : Nat) : Nat := 0x0100_0000 + s * 0x10_0000 + 0x7_0000 + 0x4
def abangoVia (s : Nat) : Nat := 0x0100_0000 + s * 0x10_0000 + 0x7_0000 + 0x8
def abangoFecCorr (s : Nat) : Nat := 0x0100_0000 + s * 0x10_0000 + 0x7_0000 + 0x10
def abangoReplays (s : Nat) : Nat := 0x0100_0000 + s * 0x10_0000 + 0x7_0000 + 0x18
def abangoLaneSwaps (s : Nat) : Nat := 0x0100_0000 + s * 0x10_0000 + 0x7_0000 + 0x20
def abangoViaSwaps (s : Nat) : Nat := 0x0100_0000 + s * 0x10_0000 + 0x7_0000 + 0x28
def abangoRefused (s : Nat) : Nat := 0x0100_0000 + s * 0x10_0000 + 0x7_0000 + 0x30
def abangoLanemapDn (s i : Nat) : Nat := 0x0100_0000 + s * 0x10_0000 + 0x7_0000 + 0x100 + 4 * i
def abangoLanemapUp (s i : Nat) : Nat := 0x0100_0000 + s * 0x10_0000 + 0x7_0000 + 0x180 + 4 * i

/-! ### SITE light (R365) -/

def lightStat (s : Nat) : Nat := 0x0100_0000 + s * 0x10_0000 + 0x8_0000 + 0x0
def lightFlags (s : Nat) : Nat := 0x0100_0000 + s * 0x10_0000 + 0x8_0000 + 0x4
def lightLos (s : Nat) : Nat := 0x0100_0000 + s * 0x10_0000 + 0x8_0000 + 0x10
def lightLol (s : Nat) : Nat := 0x0100_0000 + s * 0x10_0000 + 0x8_0000 + 0x18
def lightFecCorr (s : Nat) : Nat := 0x0100_0000 + s * 0x10_0000 + 0x8_0000 + 0x20
def lightFecUncorr (s : Nat) : Nat := 0x0100_0000 + s * 0x10_0000 + 0x8_0000 + 0x28
def lightStuffErr (s : Nat) : Nat := 0x0100_0000 + s * 0x10_0000 + 0x8_0000 + 0x30
def lightReseeds (s : Nat) : Nat := 0x0100_0000 + s * 0x10_0000 + 0x8_0000 + 0x38
def lightCals (s : Nat) : Nat := 0x0100_0000 + s * 0x10_0000 + 0x8_0000 + 0x40
def lightCalRejects (s : Nat) : Nat := 0x0100_0000 + s * 0x10_0000 + 0x8_0000 + 0x48
def lightGuidepwr (s i : Nat) : Nat := 0x0100_0000 + s * 0x10_0000 + 0x8_0000 + 0x100 + 4 * i
def lightComb (s i : Nat) : Nat := 0x0100_0000 + s * 0x10_0000 + 0x8_0000 + 0x140 + 4 * i
def lightTxcal (s i : Nat) : Nat := 0x0100_0000 + s * 0x10_0000 + 0x8_0000 + 0x400 + 4 * i
def lightRxpwr (s i : Nat) : Nat := 0x0100_0000 + s * 0x10_0000 + 0x8_0000 + 0x1000 + 4 * i

/-! ### OUTLET link (R424) -/

def linkStat (o : Nat) : Nat := 0x0200_0000 + o * 0x10_0000 + 0x0
def linkFlags (o : Nat) : Nat := 0x0200_0000 + o * 0x10_0000 + 0x4
def linkPartner (o : Nat) : Nat := 0x0200_0000 + o * 0x10_0000 + 0x8
def linkLanes (o : Nat) : Nat := 0x0200_0000 + o * 0x10_0000 + 0xC
def linkTxFlits (o : Nat) : Nat := 0x0200_0000 + o * 0x10_0000 + 0x10
def linkRxFlits (o : Nat) : Nat := 0x0200_0000 + o * 0x10_0000 + 0x18
def linkReplays (o : Nat) : Nat := 0x0200_0000 + o * 0x10_0000 + 0x20
def linkViolations (o : Nat) : Nat := 0x0200_0000 + o * 0x10_0000 + 0x28
def linkCreditWaits (o : Nat) : Nat := 0x0200_0000 + o * 0x10_0000 + 0x30

/-! ### OUTLET optics (R373) -/

def optStat (o : Nat) : Nat := 0x0200_0000 + o * 0x10_0000 + 0x8_0000 + 0x0
def optFlags (o : Nat) : Nat := 0x0200_0000 + o * 0x10_0000 + 0x8_0000 + 0x4
def optClamp (o : Nat) : Nat := 0x0200_0000 + o * 0x10_0000 + 0x8_0000 + 0x8
def optClampTrips (o : Nat) : Nat := 0x0200_0000 + o * 0x10_0000 + 0x8_0000 + 0x10
def optTxpwr (o i : Nat) : Nat := 0x0200_0000 + o * 0x10_0000 + 0x8_0000 + 0x100 + 4 * i
def optRxpwr (o i : Nat) : Nat := 0x0200_0000 + o * 0x10_0000 + 0x8_0000 + 0x180 + 4 * i

/-! ### SPRING (R370) -/

def springStat (n : Nat) : Nat := 0x0300_0000 + n * 0x1_0000 + 0x0
def springFlags (n : Nat) : Nat := 0x0300_0000 + n * 0x1_0000 + 0x4
def springOutpwr (n : Nat) : Nat := 0x0300_0000 + n * 0x1_0000 + 0x8
def springGriderr (n : Nat) : Nat := 0x0300_0000 + n * 0x1_0000 + 0xC
def springBias (n : Nat) : Nat := 0x0300_0000 + n * 0x1_0000 + 0x10
def springOnTime (n : Nat) : Nat := 0x0300_0000 + n * 0x1_0000 + 0x18

/-! ### FABRIC (R420) -/

def fabricCoord : Nat := 0x0310_0000 + 0x0
def fabricStat : Nat := 0x0310_0000 + 0x4
def fabricFlags : Nat := 0x0310_0000 + 0x8
def fabricTimeOffset : Nat := 0x0310_0000 + 0xC
def fabricReqOut : Nat := 0x0310_0000 + 0x10
def fabricReqIn : Nat := 0x0310_0000 + 0x18
def fabricTransit : Nat := 0x0310_0000 + 0x20
def fabricCombined : Nat := 0x0310_0000 + 0x28
def fabricRefusalsRx : Nat := 0x0310_0000 + 0x30
def fabricRefusalsTx : Nat := 0x0310_0000 + 0x38
def fabricStoresDiscarded : Nat := 0x0310_0000 + 0x40
def fabricRepliesDiscarded : Nat := 0x0310_0000 + 0x48
def fabricFlagHolds : Nat := 0x0310_0000 + 0x50

/-- `SITE_LIGHT_RXCAL[r][l]`, the entry of drop position r for a wavelength (R365). -/
def lightRxcal (s r l : Nat) : Nat := 0x0100_0000 + s * 0x10_0000 + 0xA_0000 + 128 * r + 4 * l

/-! ### Where an offset lies (R618, R619) -/

/-- The block an offset lies in, with its number and the offset within its sub-block. -/
inductive Place where
  | global | time | clock | house | power | fault
  | dma (ch : Nat)
  | queue
  | siteState (s : Nat)
  | cperf (c : Nat)
  | mem (s : Nat)
  | basin (s : Nat)
  | abango (s : Nat)
  | light (s : Nat)
  | link (o : Nat)
  | optics (o : Nat)
  | spring (n : Nat)
  | fabric
  | gap
deriving DecidableEq, Repr

/-- R618 and R619. -/
def place (off : Nat) : Place × Nat :=
  if off < 0x10_0000 then (.global, off)
  else if off < 0x20_0000 then (.time, off - 0x10_0000)
  else if off < 0x30_0000 then (.clock, off - 0x20_0000)
  else if off < 0x40_0000 then (.house, off - 0x30_0000)
  else if off < 0x50_0000 then (.power, off - 0x40_0000)
  else if off < 0x60_0000 then (.fault, off - 0x50_0000)
  else if off < 0x60_2000 then (.dma ((off - 0x60_0000) / 0x100), off % 0x100)
  else if off < 0x80_0000 then (.gap, off)
  else if off < 0x90_0000 then (.queue, off - 0x80_0000)
  else if off < 0x100_0000 then (.gap, off)
  else if off < 0x200_0000 then
    let s := (off - 0x100_0000) / 0x10_0000
    let x := off % 0x10_0000
    if x < 0x4_0000 then (.siteState s, x)
    else if x < 0x4_4000 then (.cperf (4 * s + (x - 0x4_0000) / 0x1000), x % 0x1000)
    else if x < 0x5_0000 then (.gap, off)
    else if x < 0x6_0000 then (.mem s, x - 0x5_0000)
    else if x < 0x7_0000 then (.basin s, x - 0x6_0000)
    else if x < 0x8_0000 then (.abango s, x - 0x7_0000)
    else if x < 0xC_0000 then (.light s, x - 0x8_0000)
    else (.gap, off)
  else if off < 0x300_0000 then
    let o := (off - 0x200_0000) / 0x10_0000
    let x := off % 0x10_0000
    if x < 0x8_0000 then (.link o, x) else (.optics o, x - 0x8_0000)
  else if off < 0x30A_0000 then (.spring ((off - 0x300_0000) / 0x1_0000), off % 0x1_0000)
  else if off < 0x310_0000 then (.gap, off)
  else if off < 0x320_0000 then (.fabric, off - 0x310_0000)
  else (.gap, off)

/-- Whether an offset is the low half of an L64 pair. -/
def pairLow (off : Nat) : Bool :=
  match place off with

  | (.global, x) => x == 0x18
  | (.time, x) => x == 0x10 || x == 0x18
  | (.clock, x) => x == 0x18
  | (.house, x) => x == 0x10 || x == 0x18 || (0x1000 ≤ x && x < 0x2000 && x % 8 == 0)
  | (.power, x) => x == 0x18 || x == 0x20
  | (.fault, x) => x == 0x10 || x == 0x18 || x == 0x20 || (0x100 ≤ x && x < 0x180 && x % 8 == 0)
  | (.dma _, x) => x == 0x10 || x == 0x18 || x == 0x20
  | (.queue, x) => x == 0x10 || x == 0x18 || x == 0x20 || x == 0x28
  | (.cperf _, x) => x == 0x10 || x == 0x18 || x == 0x20 || x == 0x28 || x == 0x30 || x == 0x38 || x == 0x40 || x == 0x48 || x == 0x50
  | (.mem _, x) => x == 0x10 || x == 0x18 || x == 0x20 || x == 0x28 || x == 0x30 || x == 0x38 || x == 0x40 || x == 0x48 || x == 0x50 || x == 0x58
  | (.basin _, x) => x == 0x10 || x == 0x18 || x == 0x20 || x == 0x28 || x == 0x30 || x == 0x38 || x == 0x40 || x == 0x48
  | (.abango _, x) => x == 0x10 || x == 0x18 || x == 0x20 || x == 0x28 || x == 0x30
  | (.light _, x) => x == 0x10 || x == 0x18 || x == 0x20 || x == 0x28 || x == 0x30 || x == 0x38 || x == 0x40 || x == 0x48
  | (.link _, x) => x == 0x10 || x == 0x18 || x == 0x20 || x == 0x28 || x == 0x30
  | (.optics _, x) => x == 0x10
  | (.spring _, x) => x == 0x18
  | (.fabric, x) => x == 0x10 || x == 0x18 || x == 0x20 || x == 0x28 || x == 0x30 || x == 0x38 || x == 0x40 || x == 0x48 || x == 0x50
  | _ => false

/-- The write-1-to-clear bits of the register at an offset (R17): 0 where it has none. -/
def w1cBits (off : Nat) : Nat :=
  match place off with
  | (.global, 0x8) => 0x3
  | (.time, 0x4) => 0x6
  | (.clock, 0x4) => 0x1
  | (.clock, 0xC) => 0x3
  | (.clock, 0x14) => 0x1_0000
  | (.power, 0x4) => 0x1F
  | (.fault, 0x4) => 0xF
  | (.dma _, 0x8) => 0x3
  | (.queue, 0x4) => 0x7
  | (.basin _, 0x4) => 0x7F
  | (.abango _, 0x4) => 0x1F
  | (.light _, 0x4) => 0x7F
  | (.link _, 0x4) => 0x3F
  | (.optics _, 0x4) => 0x7
  | (.spring _, 0x4) => 0xF
  | (.fabric, 0x8) => 0xFF
  | _ => 0

/-- The reset value of the register at an offset: the tables' reset columns; every register not named here resets to 0.
An MSI-X entry is masked at reset. PRESUMED, log 7: "as the specification decides" (R461). -/
def resetVal (off : Nat) : Nat :=
  if 2 ^ 40 ≤ off then (if off % 2 ^ 32 < 0x40_1000 && off % 16 == 12 then 1 else 0) else
  match place off with
  | (.queue, x) => if 0x4_0000 ≤ x && x < 0x4_8000 && x % 16 == 12 then 1 else 0
  | (.global, 0x0) => 0x0016_A101
  | (.global, 0x4) => 0x1
  | (.fault, 0x0) => 0x1
  | (.dma _, 0x0) => 0x2
  | (.cperf _, 0x0) => 0x1
  | (.cperf _, 0x4) => 0x80
  | (.mem _, 0x8) => 0xF3C
  | (.abango _, x) => if 0x100 ≤ x && x < 0x200 && x % 4 == 0 then 0x0FFF_FFFF else 0
  | (.link _, 0xC) => 0x7777
  | (.optics _, 0x8) => 0x05AA_03E8
  | (.spring _, 0x0) => 0x00F0_0000
  | _ => 0

end Sys2Proof.Machine.Reg
end

