-- ==== Sys2Proof/Machine/Ops.lean ====
section
/-! DEFINITION. The shared operations on the state: registers, flags and counters, reports, the parts by number, power domains
and outward messages. -/

namespace Sys2Proof.Machine

/-! ### Registers -/

/-- The stored value of the register or pair at an offset. -/
def reg (s : State) (off : Nat) : Nat := tget (Reg.resetVal off) s.regs off

def putReg (s : State) (off v : Nat) : State := { s with regs := tput (Reg.resetVal off) s.regs off v }

/-- Set bits [hi:lo] of a register. -/
def putField (s : State) (off hi lo v : Nat) : State := putReg s off (setBits (reg s off) hi lo v)

def field (s : State) (off hi lo : Nat) : Nat := bits (reg s off) hi lo

def putBit (s : State) (off i : Nat) (b : Bool) : State := putReg s off (setBit (reg s off) i b)

def regBit (s : State) (off i : Nat) : Bool := bit (reg s off) i

/-- Hardware sets a W1C flag: the bit stays set through a clear of the same tick (R19). -/
def raiseFlag (s : State) (off i : Nat) : State :=
  let s := putBit s off i true
  { s with flagsNow := tmod 0 s.flagsNow off fun v => setBit v i true }

/-- Add to a 64-bit pair that wraps (R540). -/
def addPair (s : State) (off n : Nat) : State := putReg s off ((reg s off + n) % 2 ^ 64)

/-- Add to a 64-bit counter that stops at its largest value (R461). -/
def addPairSat (s : State) (off n : Nat) : State := putReg s off (satAdd 64 (reg s off) n)

/-- Add to a 32-bit counter that stops at 0xFFFF_FFFF. -/
def addReg (s : State) (off n : Nat) : State := putReg s off (satAdd 32 (reg s off) n)

/-- Clear every register whose offset a test picks: it reads its reset value again. -/
def dropRegs (s : State) (p : Nat → Bool) : State :=
  { s with regs := tdrop s.regs p, latches := tdrop s.latches fun k => p (k % 2 ^ 26) }

/-! ### Parity (R626, R627) -/

/-- Whether a parity mismatch stands in a unit. -/
def upsetIn (s : State) (u : ParityUnit) : Bool := s.upsets.any fun e => e.1 == u

/-- Parity mismatches that a write of a register ends (R627). -/
def endUpset (s : State) (p : ParityUnit → Bool) : State := { s with upsets := s.upsets.filter fun u => !p u.1 }

/-! ### Time -/

/-- The number of the present event tick (R67). -/
def tickOf (s : State) : Nat := s.time.now / 256

/-- Whether PLL 0 gives its coast output: bit 0 of `CLOCK_PLLSTAT` (R57, R635). -/
def coasting (s : State) : Bool := regBit s Reg.clockPllstat 0

/-- The nominal period of the backbone clock in 1/65,536 ns (R61). -/
def backbonePeriod (s : State) : Nat := 65536 + if coasting s then 7282 else 0

/-- The master in 1/65,536 ns (R61, R62). -/
def masterUnits (s : State) : Nat := 65536 * s.time.now + s.time.frac % 65536

/-- The error of a copy after a correction has run for `d` units, in which `n` 64th ns have passed (R63): it stops within 2 ns, a held
copy where the master has reached it. -/
def fixError (how d n : Nat) (e : Int) : Int :=
  match how with
  | 1 => if e < -131072 then min (e + 65536 * n) (e + 65536 * ((-131072 - e + 65535) / 65536)) else e
  | 2 => if 131072 < e then max (e - 65536 * n) (e - 65536 * ((e - 131072 + 65535) / 65536)) else e
  | _ => max 0 (e - d)

/-- Whether a correction has come to its end. -/
def fixDone (how : Nat) (e : Int) : Bool :=
  match how with
  | 1 => -131072 ≤ e
  | 2 => e ≤ 131072
  | _ => e ≤ 0

/-- Basin time counts on by `d` units of 1/65,536 ns: the copies with the master, each with its correction in progress (R61 to R63).
While the TIME block is disabled none is corrected (R626). -/
def passTime (s : State) (d : Nat) : State :=
  let a := masterUnits s
  let n := (a + d) / 4194304 - a / 4194304
  let fixes := if regBit s Reg.timeCtrl 0 then s.time.copyFix else []
  let errs := fixes.foldl (fun t f => tmod 0 t f.1 (fixError f.2 d n)) s.time.copyErr
  { s with time := { s.time with now := (a + d) / 65536, frac := (a + d) % 65536, copyErr := errs,
                                 copyFix := s.time.copyFix.filter fun f => !fixDone f.2 (tget 0 errs f.1) } }

/-- One cycle of the backbone clock: the count adds its period (R61), unless a slew withholds it (R64). -/
def backboneCycle (s : State) : State :=
  if s.time.hold then { s with time := { s.time with hold := false } } else passTime s (backbonePeriod s)

/-! ### Regions and their copies (R62, R68) -/

/-- The tile under a site: the 4 x 4 sites laid over the 3 x 3 tiles. PRESUMED, log 8. -/
def tileUnder (i : Nat) : Nat := 3 * (i / 4 * 3 / 4) + i % 4 * 3 / 4

/-- The copy of a Pond region and of a Weir; copies 0-8 are the tiles', 25 the host interface's. -/
def copyPond (i : Nat) : Nat := 9 + i
def copyHost : Nat := 25
def copyWeir : Weir → Nat
  | .a => 26
  | .b => 27

/-- The region of a source of R540, in which what it reports is sampled (R51, R68): cores at the crossing into their Pond, site
ports and Outlets in the tile under them. Springs and the island report to tile 4. PRESUMED, log 8. -/
def regionOf (src : Nat) : Nat :=
  if src < 0x40 then copyPond (src / 4)
  else if src < 0x50 then tileUnder (src - 0x40)
  else if src < 0x60 then copyPond (src - 0x50)
  else if src < 0x70 then copyPond (src - 0x60)
  else if src < 0x80 then tileUnder (src - 0x70)
  else if 0x90 ≤ src && src < 0x99 then src - 0x90
  else if src == 0xA0 then copyHost
  else if src == 0xA1 then copyWeir .a
  else if src == 0xA2 then copyWeir .b
  else 4

/-- A region's copy of Basin time, in 1/65,536 ns; tile 4 holds the master (R61, R62). -/
def copyUnits (s : State) (r : Nat) : Nat :=
  if r == 4 then masterUnits s else ((masterUnits s : Int) + tget 0 s.time.copyErr r).toNat

/-- The event tick in which a region's copy stands (R68). -/
def copyTick (s : State) (r : Nat) : Nat := copyUnits s r / 65536 / 256

/-! ### Outward messages -/

def emit (s : State) (o : Output) : State := { s with out := s.out ++ [o] }

/-! ### Parts by number -/

def core (s : State) (c : Nat) : CoreState := tget .reset s.cores c
def putCore (s : State) (c : Nat) (x : CoreState) : State := { s with cores := tput .reset s.cores c x }
def modCore (s : State) (c : Nat) (f : CoreState → CoreState) : State := putCore s c (f (core s c))

def site (s : State) (i : Nat) : SiteState := tget .reset s.sites i
def putSite (s : State) (i : Nat) (x : SiteState) : State := { s with sites := tput .reset s.sites i x }
def modSite (s : State) (i : Nat) (f : SiteState → SiteState) : State := putSite s i (f (site s i))

def modAbango (s : State) (i : Nat) (f : Abango → Abango) : State :=
  modSite s i fun x => { x with abango := f x.abango }

def link (s : State) (o : Nat) : LinkState := tget .reset s.links o
def putLink (s : State) (o : Nat) (x : LinkState) : State := { s with links := tput .reset s.links o x }
def modLink (s : State) (o : Nat) (f : LinkState → LinkState) : State := putLink s o (f (link s o))

def qp (s : State) (q : Nat) : QpState := tget .reset s.qps q
def putQp (s : State) (q : Nat) (x : QpState) : State := { s with qps := tput .reset s.qps q x }
def modQp (s : State) (q : Nat) (f : QpState → QpState) : State := putQp s q (f (qp s q))

def dmaCh (s : State) (c : Nat) : DmaState := tget .reset s.dma c
def putDma (s : State) (c : Nat) (x : DmaState) : State := { s with dma := tput .reset s.dma c x }

def win (s : State) (w : Nat) : MbWindow := tget .reset s.windows w
def putWin (s : State) (w : Nat) (x : MbWindow) : State := { s with windows := tput .reset s.windows w x }
def modWin (s : State) (w : Nat) (f : MbWindow → MbWindow) : State := putWin s w (f (win s w))

def part (s : State) (p : Nat) : Partition := tget .reset s.parts p
def putPart (s : State) (p : Nat) (x : Partition) : State := { s with parts := tput .reset s.parts p x }
def modPart (s : State) (p : Nat) (f : Partition → Partition) : State := putPart s p (f (part s p))

def spring (s : State) (n : Nat) : SpringState := tget .reset s.springs n
def putSpring (s : State) (n : Nat) (x : SpringState) : State := { s with springs := tput .reset s.springs n x }

def farSlot (s : State) (i : Nat) : FarSlot := tget .reset s.far i

def ctx? (s : State) (h : Nat) : Option Context := s.contexts.find? fun c => c.handle == h

/-! ### Crossings (R83) -/

def crossKey (kind : CrossKind) (i : Nat) : Nat :=
  8 * i + match kind with
    | .tarnPond => 0
    | .pondTile => 1
    | .bundle => 2
    | .portTile => 3
    | .hostTile => 4
    | .weirTile .a => 5
    | .weirTile .b => 6

def crossAt (s : State) (kind : CrossKind) (i : Nat) : CrossState := tget .reset s.cross (crossKey kind i)

def putCross (s : State) (kind : CrossKind) (i : Nat) (x : CrossState) : State :=
  { s with cross := tput .reset s.cross (crossKey kind i) x }

/-- Whether a surviving side of a crossing refuses transfers. -/
def crossRefuses (s : State) (kind : CrossKind) (i : Nat) : Bool :=
  (crossAt s kind i).upper.refusing || (crossAt s kind i).lower.refusing

/-- What the partner holds of one side of a crossing. -/
def CrossState.view (c : CrossState) : Side → PartnerView
  | .upper => c.upper
  | .lower => c.lower

def CrossState.withView (c : CrossState) (d : Side) (v : PartnerView) : CrossState :=
  match d with
  | .upper => { c with upper := v }
  | .lower => { c with lower := v }

/-- The partner of one side refuses from now on, and keeps the last epoch it saw (R83). -/
def refuseSide (s : State) (kind : CrossKind) (i : Nat) (d : Side) : State :=
  let c := crossAt s kind i
  putCross s kind i (c.withView d { c.view d with refusing := true })

/-- The region whose copy gives a side its epoch: its own, or its clocked partner's where it has no clock (R84). -/
def sideCopy (kind : CrossKind) (i : Nat) (d : Side) : Nat :=
  match kind, d with
  | .tarnPond, _ => copyPond i
  | .pondTile, .upper => copyPond i
  | .hostTile, .upper => copyHost
  | .weirTile w, .upper => copyWeir w
  | .hostTile, .lower | .weirTile _, .lower => 4
  | .pondTile, .lower | .bundle, _ | .portTile, _ => tileUnder i

/-- A side leaves reset and announces its return with the tick number of its copy (R84), once there is Basin time. -/
def sideUp (s : State) (kind : CrossKind) (i : Nat) (d : Side) : State :=
  if !s.time.running then s else
  emit s (.partnerUp { kind := kind, site := Fin.ofNat 16 i, side := d } (copyTick s (sideCopy kind i d)))

/-- The lowest core, the context number and the generation of a context handle (R490). -/
def ctxLowest (h : Nat) : Nat := bits h 15 10
def ctxNo (h : Nat) : Nat := bits h 9 6
def ctxGen (h : Nat) : Nat := bits h 5 0

/-- Change the context of a handle. -/
def modCtx (s : State) (h : Nat) (f : Context → Context) : State :=
  { s with contexts := s.contexts.map fun c => if c.handle == h then f c else c }

/-- The partition that owns a core: the lowest-numbered one that is not absent and holds it, or 0xFF (R533). -/
def partOfCore (s : State) (c : Nat) : Nat :=
  match s.parts.find? fun e => e.2.mode != .absent && e.2.cores.toNat.testBit c with
  | some e => e.1
  | none => 0xFF

/-- The partition of a VF, by the binding of R511: 0xFF for none. -/
def partOfVf (s : State) (f : Nat) : Nat :=
  match s.parts.find? fun e => e.2.mode != .absent && e.2.vf == some f with
  | some e => e.1
  | none => 0xFF

/-- The partition that owns a near-tier address, by its 64 MiB unit: 0xFF for none. -/
def partOfNear (s : State) (dpa : Nat) : Nat :=
  match s.parts.find? fun e => e.2.mode != .absent && tget false e.2.units (dpa / 2 ^ 26) with
  | some e => e.1
  | none => 0xFF

/-! ### Power domains (R640) -/

def domCore (c : Nat) : Nat := c
def domUncore (i : Nat) : Nat := 64 + i
def domPond (i : Nat) : Nat := 80 + i
def domHbm (i : Nat) : Nat := 96 + i
def domPort (i : Nat) : Nat := 112 + i
def domOutlet (o : Nat) : Nat := 128 + o
def domSpring (n : Nat) : Nat := 144 + n
def domTile (t : Nat) : Nat := 154 + t
def domHost : Nat := 163
def domWeir : Weir → Nat
  | .a => 164
  | .b => 165

/-- `POWER_DOMAIN[d].STATE` (R641): 0 off, 1 ramping, 2 on, 3 off after a fault. -/
def domState (s : State) (d : Nat) : Nat := field s (Reg.powerDomain d) 31 30

def domOn (s : State) (d : Nat) : Bool := domState s d == 2

/-- Begin to ramp a domain that is off. -/
def rampDomain (s : State) (d mv : Nat) : State :=
  if domState s d == 0 then putReg s (Reg.powerDomain d) (1 * 2 ^ 30 + mv) else s

/-- Switch a domain off. -/
def offDomain (s : State) (d : Nat) : State := putReg s (Reg.powerDomain d) 0

/-- Time as a clock that no load or jump of Basin time moves, in ns. -/
def physNow (s : State) : Int := (s.time.now : Int) - s.time.shift

/-- The time that a Spring has spent powered, ns (R370). -/
def springOnNs (s : State) (x : SpringState) : Nat := x.onNs + match x.onSince with
  | some t => (physNow s - t).toNat
  | none => 0

/-- A Spring's record when its supply goes off. -/
def springUnpowered (s : State) (x : SpringState) : SpringState := { x with onNs := springOnNs s x, onSince := none }

/-! ### Fault reports (R533, R535, R540, R668) -/

/-- UNIT of R535. -/
def unitNo (kind index : Nat) : Nat := kind * 2 ^ 24 + index % 2 ^ 24

/-- SEVERITY of a class and code (R668). -/
def severity (cls code : Nat) : Nat :=
  match cls with
  | 0 => if code == 1 then 4 else 1
  | 1 => if code == 2 then 0 else if code == 5 then 3 else if code == 4 || code == 6 then 4 else 1
  | 2 => if code == 5 then 0 else if code == 2 then 2 else if code == 4 then 4 else 1
  | 3 => if code == 3 then 0 else if code == 5 then 2 else if code == 4 || code == 6 then 3 else 1
  | 4 => if code == 10 then 2 else 1
  | 5 => if code == 6 || code == 8 || code == 9 then 2 else if code == 3 || code == 5 || code == 7 || code == 10 then 3 else 1
  | 6 => 0
  | 7 => 1
  | 8 => if code == 2 then 3 else 2
  | 9 => 2
  | 10 => if code == 2 || code == 3 then 1 else 2
  | 11 => 2
  | 12 => 2
  | 13 => 1
  | 14 => 2
  | _ => if code == 2 then 0 else 1

/-- Source numbers of R540. -/
def srcCore (c : Nat) : Nat := c
def srcPort (i : Nat) : Nat := 0x40 + i
def srcPond (i : Nat) : Nat := 0x50 + i
def srcHbm (i : Nat) : Nat := 0x60 + i
def srcOutlet (o : Nat) : Nat := 0x70 + o
def srcSpring (n : Nat) : Nat := 0x80 + n
def srcTile (t : Nat) : Nat := 0x90 + t
def srcHost : Nat := 0xA0
def srcWeir : Weir → Nat
  | .a => 0xA1
  | .b => 0xA2
def srcIsland : Nat := 0xA3

/-- A detector raises a report, stamped with the tick in which its region's copy of Basin time stands; it travels to the combiner
(R68, R69, R533). Before Basin time is first synchronised the stamp is 0. -/
def raise (s : State) (cls code unit part d0 d1 src : Nat) : State :=
  { s with faults := { s.faults with inTransit := s.faults.inTransit ++
      [{ cls := Fin.ofNat 16 cls, code := code, unit := unit, part := part, d0 := d0, d1 := d1, src := src,
         stamp := if s.time.running then copyTick s (regionOf src) else 0 }] } }

/-- The record of an entry that firmware writes of its own (R546): FIRMWARE set and COUNT 1. -/
def fwRec (s : State) (cls code sev unit part d0 d1 : Nat) : LogRec :=
  { cls := cls, sev := sev, late := false, isRepeat := false, firmware := true, part := part,
    tick := if s.time.running then copyTick s (copyWeir s.weir.active) else 0, code := code, unit := unit, count := 1,
    firstSrc := srcWeir s.weir.active, d0 := d0, d1 := d1,
    lastTick := if s.time.running then copyTick s (copyWeir s.weir.active) else 0 }

/-- Append an entry to the log ring (R541, R543): when the ring is full the oldest is replaced, and is counted as lost
unless a LOG_READ returned it. -/
def appendLog (s : State) (r : LogRec) : State :=
  let n := reg s Reg.faultLogNext
  let old := s.faults.log
  let full := 4096 ≤ old.length
  let s := if full && !(old.head?.map (·.read)).getD true then addPair s Reg.faultLost 1 else s
  let log := (if full then old.drop 1 else old) ++ [{ number := n, body := r, read := false }]
  let s := { s with faults := { s.faults with log := log } }
  let s := putReg s Reg.faultLogNext ((n + 1) % 2 ^ 32)
  putReg s Reg.faultLogOldest ((log.head?.map (·.number)).getD 0)

/-- Whether a Weir runs and writes entries now (R556). -/
def weirServes (s : State) : Bool := s.weir.running && s.weir.gap.isNone && !s.weir.mgmtLost

/-- An entry of firmware's own (R546): written at once, or behind the records that wait for firmware, so that entry numbers keep
rising with time (R541); while no Weir serves it is held with them (R556). -/
def fwLogSev (s : State) (cls code sev unit part d0 d1 : Nat) : State :=
  if weirServes s && s.faults.queue.isEmpty then appendLog s (fwRec s cls code sev unit part d0 d1)
  else { s with faults := { s.faults with queue := s.faults.queue ++ [fwRec s cls code sev unit part d0 d1] } }

def fwLog (s : State) (cls code unit part d0 d1 : Nat) : State :=
  fwLogSev s cls code (severity cls code) unit part d0 d1

/-! ### Housekeeping triggers (R586) -/

/-- A trigger of a housekeeping round: it starts a round, is latched while one runs, or is counted as lost. Triggers of one
tick count as one. -/
def houseTrig (s : State) : State :=
  if s.house.trigTick == some (tickOf s) then s
  else
    let h := { s.house with trigTick := some (tickOf s), lostNow := false }
    if !h.running then
      putBit { s with house := { h with running := true, started := s.time.now } } Reg.houseStat 0 true
    else if !h.latched then putBit { s with house := { h with latched := true } } Reg.houseStat 1 true
    else addPair { s with house := { h with lostNow := true } } Reg.houseLost 1

/-! ### Interrupts -/

/-- Where an MSI-X entry's dword `i` stands: PF0's table in the QUEUE block (R461), a VF's in its own BAR2 (R432),
which the register table holds at 2^40 + 2^32 * fn + offset. -/
def msixAt (fn v i : Nat) : Nat :=
  if fn == 0 then 0x84_0000 + 16 * v + 4 * i else 2 ^ 40 + fn * 2 ^ 32 + 0x40_0000 + 16 * v + 4 * i

/-- The pending bit of a vector. -/
def pbaAt (fn v : Nat) : Nat :=
  if fn == 0 then 0x84_8000 + 4 * (v / 32) else 2 ^ 40 + fn * 2 ^ 32 + 0x40_1000 + 4 * (v / 32)

/-- Whether a vector is masked: by its entry's mask bit, by a parity mismatch of a PF0 entry (R626), or while the function
may not master the bus (R443). -/
def msixHeld (s : State) (fn v : Nat) : Bool :=
  regBit s (msixAt fn v 3) 0 || !tget false s.bme fn || tget false s.d3hot fn ||
    (fn == 0 && s.upsets.any fun u => match u.1 with
      | .msix w => w.val == v
      | _ => false)

/-- Raise a vector of a function: its message is written, or its pending bit is set while it is held (R449). -/
def msix (s : State) (fn v : Nat) : State :=
  if msixHeld s fn v then putBit s (pbaAt fn v) (v % 32) true else emit s (.msix fn v)

/-- A vector that is no longer held sends its pending message. -/
def msixRelease (s : State) (fn v : Nat) : State :=
  if regBit s (pbaAt fn v) (v % 32) && !msixHeld s fn v then
    emit (putBit s (pbaAt fn v) (v % 32) false) (.msix fn v)
  else s

end Sys2Proof.Machine
end

