-- ==== Sys2Proof/Machine/Bundle.lean ====
section
/-! DEFINITION. What the lanes of the site bundle carry: lane maps, the scrambler, and the layout and code of a frame (R298, R300 to
R303, R309). -/

namespace Sys2Proof.Machine

/-! ### Lane maps (R298, R307, R309) -/

/-- Bad lanes of a group, in rising order (R309, R310). -/
def badLanes (g : Group) : List Nat :=
  (List.range 68).filter fun l =>
    tget false g.assemblyBad l || tget false g.startBad l || tget false g.partnerBad l || tget false g.replaced l

/-- The mode that a number of bad lanes gives (R309). -/
def laneMode (bad : Nat) : Nat := if bad ≤ 4 then 0 else if bad ≤ 36 then 1 else 2

/-- The good lanes of a group, in rising order: the k-th carries logical lane k. -/
def goodLanes (g : Group) : List Nat := (List.range 68).filter fun l => !(badLanes g).any (· == l)

/-- The logical lanes that a mode uses: at half width, those on the 32 lowest good lanes. -/
def lanesUsed (mode : Nat) : Nat := if mode == 0 then 64 else if mode == 1 then 32 else 0

/-- The place of a physical lane among the good ones: its logical lane, or beyond those in use the place of an idle spare. -/
def lanePlace? (g : Group) (l : Nat) : Option Nat := (goodLanes g).findIdx? (· == l)

/-- The logical lane that a physical lane carries. -/
def logicalLane? (g : Group) (l : Nat) : Option Nat :=
  match lanePlace? g l with
  | some k => if k < lanesUsed g.mode then some k else none
  | none => none

/-- The unit intervals of a frame (R301, R309). -/
def frameIntervals (mode : Nat) : Nat := if mode == 1 then 256 else 128

/-- The symbol that a physical lane carries in a unit interval of a frame: logical lane l carries symbols 8l to 8l + 7, and at half
width twice as many (R301; half width DEDUCED, log 18). -/
def symbolAt? (g : Group) (lane ui : Nat) : Option Nat :=
  match logicalLane? g lane with
  | some k => if ui < frameIntervals g.mode then some (frameIntervals g.mode / 16 * k + ui / 16) else none
  | none => none

/-! ### The scrambler (R300) -/

/-- The next bit of the sequence of x^23 + x^18 + 1: bit k of the register is the bit sent k + 1 before. -/
def scrambleBit (r : Nat) : Bool := r.testBit 22 ^^ r.testBit 17

def scrambleStep (r : Nat) : Nat := (2 * r + if scrambleBit r then 1 else 0) % 2 ^ 23

/-- The register of a lane at frame alignment. A spare lane counts on from the logical lanes. DESIGN CHOICE, log 18. -/
def scrambleSeed (group lane : Nat) : Nat := 0x1_0000 + 0x100 * group + lane

/-- The register after some unit intervals. -/
def scrambleAfter (n r : Nat) : Nat := (List.range n).foldl (fun r _ => scrambleStep r) r

/-- The next bits of the sequence. -/
def scrambleBits : Nat → Nat → List Bool
  | 0, _ => []
  | n + 1, r => scrambleBit r :: scrambleBits n (scrambleStep r)

/-! ### RS(512,484) (R301) -/

/-- The code of a bundle frame: 28 check symbols over GF(2^16), field polynomial x^16 + x^12 + x^3 + x + 1. It corrects any 14 symbol
errors. -/
def bundleCode : RsCode := { width := 16, poly := 0x1100B, checks := 28 }

/-! ### Frames (R301, R302) -/

/-- The frame control word (R302). -/
def ctlWord (f : FrameCtl) : Nat :=
  f.seq.val + f.ack.val * 2 ^ 12 + (if f.nak then 2 ^ 24 else 0) + f.type.val * 2 ^ 25 + f.reserved.val % 32 * 2 ^ 27 +
    f.cmd.val * 2 ^ 32 + f.lane.val * 2 ^ 36 + (match f.dir with
      | .down => 0
      | .up => 2 ^ 43) + f.atSeq.val * 2 ^ 44 + f.reserved.val / 32 * 2 ^ 56

/-- The 960 payload bytes: an idle frame carries none, and what stands there is 0. DESIGN CHOICE, log 18. -/
def framePayload (f : FrameCtl) (payload : List Byte) : List Byte :=
  if f.type.val == 0 then (payload ++ List.replicate 960 0).take 960 else List.replicate 960 0

/-- The 512 symbols of a frame: symbol n is bytes 2n and 2n + 1, the first the low one. DESIGN CHOICE, log 18. -/
def frameSymbols (f : FrameCtl) (payload : List Byte) : List Nat :=
  let bs := leBytes 8 (ctlWord f) ++ framePayload f payload
  let ds := (List.range 484).map fun n => (bs.getD (2 * n) 0).toNat + 256 * (bs.getD (2 * n + 1) 0).toNat
  ds ++ rsCheck bundleCode ds

/-- What every good lane carries during a frame: its logical lane's symbols scrambled, or, on a spare lane, the idle sequence. -/
def frameLanes (q : Nat) (g : Group) (f : FrameCtl) (payload : List Byte) : List (Nat × List Bool) :=
  let ss := frameSymbols f payload
  let n := frameIntervals g.mode
  (goodLanes g).map fun l =>
    let k := (lanePlace? g l).getD 0
    let key := scrambleBits n (scrambleAfter (n * g.onLanes) (scrambleSeed q k))
    (l, match logicalLane? g l with
      | some k => List.zipWith xor (symbolBits 16 ((ss.drop (n / 16 * k)).take (n / 16))) key
      | none => key)

/-- The wrong symbols of a frame, each once, from the wrong bits of its lanes. The scrambler is additive, so a wrong bit of a lane is a
wrong bit of its symbol. -/
def wrongSymbols (g : Group) (wrong : List (Fin 68 × Fin 256)) : List Nat :=
  wrong.foldl (fun ns w => match symbolAt? g w.1.val w.2.val with
    | some n => if ns.any (· == n) then ns else ns ++ [n]
    | none => ns) []

/-- Symbols corrected on a physical lane. -/
def correctedOn (g : Group) (ns : List Nat) (lane : Nat) : Nat :=
  match logicalLane? g lane with
  | some k => (ns.filter fun n => n / (frameIntervals g.mode / 16) == k).length
  | none => 0

/-- The receiver checks idle spare lanes continuously (R300): it counts their wrong bits. -/
def idleCheck (g : Group) (wrong : List (Fin 68 × Fin 256)) : Group :=
  { g with idleErrs := wrong.foldl (fun t w =>
      if (lanePlace? g w.1.val).isSome && (logicalLane? g w.1.val).isNone && w.2.val < frameIntervals g.mode then
        tmod 0 t w.1.val (· + 1) else t) g.idleErrs }

/-- Whether the sender's buffer is full: 64 frames are not acknowledged (R304). -/
def framesFull (g : Group) : Bool := 64 ≤ (g.sent + 4096 - g.acked) % 4096

/-- A quarantined site's bundle is idle (R319). -/
def quarantined (s : State) (i : Nat) : Bool := regBit s (Reg.abangoStat i) 4

/-- Whether the bundle takes nothing new from a site's stack for a transmit index (R304, R319). -/
def bundleHolds (s : State) (i idx : Nat) : Bool :=
  quarantined s i || framesFull (tget .reset (site s i).abango.groupsDn (idx / 8))

/-- The channel index whose payload a frame carries (R303). -/
def frameChannel (q seq : Nat) : Nat := 8 * q + seq % 8

/-! ### CRC-16 of the sideband (R313) -/

def crc16Bit (c : Nat) : Nat := if c < 0x8000 then 2 * c else ((2 * c) ^^^ 0x1021) % 0x10000

/-- Each byte's most significant bit enters first. DESIGN CHOICE, log 18. -/
def crc16 (bs : List Nat) : Nat :=
  bs.foldl (fun c b => (List.range 8).foldl (fun c _ => crc16Bit c) (c ^^^ (b % 256 * 256))) 0xFFFF

end Sys2Proof.Machine
end

