-- ==== Sys2Proof/Machine/Flags.lean ====
section
/-! DEFINITION. The vector exception flags (R96, R149): one result with the flags it raises. The order of the bits is that of
R446: invalid 4, divide-by-zero 3, overflow 2, underflow 1, inexact 0. -/

namespace Sys2Proof.Machine

/-- The five flags. -/
abbrev Flags := BitVec 5

def flInvalid : Flags := 16
def flDivZero : Flags := 8
def flOverflow : Flags := 4
def flUnderflow : Flags := 2
def flInexact : Flags := 1

/-- A result's bits with the flags it raises. -/
structure Res where
  bits : Nat
  fl : Flags
deriving DecidableEq, Repr

/-- A result that raises no flag. -/
def Res.exact (b : Nat) : Res := { bits := b, fl := 0 }

/-- Flags are sticky: a core's flags take those a result raises (R96). -/
def stick (x : CoreState) (f : Flags) : CoreState := { x with vflags := x.vflags ||| f }

/-- The union of the flags of several results. -/
def allFlags (rs : List Res) : Flags := rs.foldl (fun f r => f ||| r.fl) 0

/-- Add to one of the 32-bit status counters of R135, which stop at 0xFFFF_FFFF. -/
def addBelow (x : CoreState) (n : Nat) : CoreState := { x with below := satAdd 32 x.below n }
def addInvalid (x : CoreState) (n : Nat) : CoreState := { x with invalid := satAdd 32 x.invalid n }
def addSat (x : CoreState) (n : Nat) : CoreState := { x with sat := satAdd 32 x.sat n }

end Sys2Proof.Machine
end

