-- ==== Sys2Proof/Machine/Formats.lean ====
section
/-! DEFINITION. Number formats: exact values, the element formats of the arrays, IEEE formats and the one rounding the module
supports (R123 to R126, R142 to R149). -/

namespace Sys2Proof.Machine

/-- An exact value: a signed multiple of a power of two, an infinity, or a NaN. -/
inductive Val where
  | num (neg : Bool) (m : Nat) (e : Int)   -- (-1)^neg * m * 2^e
  | inf (neg : Bool)
  | nan (signalling : Bool)
deriving DecidableEq, Repr

/-- What a format's top exponent means (R123). -/
inductive Special where
  | none      -- every encoding is a number
  | e4m3      -- S.1111.111 is NaN
  | ieee      -- infinities and NaNs
deriving DecidableEq, Repr

/-- A floating-point format: exponent and mantissa bits and bias (R123). -/
structure FFmt where
  eb : Nat
  mb : Nat
  bias : Nat
  special : Special
deriving DecidableEq, Repr

def fE4M3 : FFmt := { eb := 4, mb := 3, bias := 7, special := .e4m3 }
def fE5M2 : FFmt := { eb := 5, mb := 2, bias := 15, special := .ieee }
def fE3M2 : FFmt := { eb := 3, mb := 2, bias := 3, special := .none }
def fE2M3 : FFmt := { eb := 2, mb := 3, bias := 1, special := .none }
def fE2M1 : FFmt := { eb := 2, mb := 1, bias := 1, special := .none }
def fFP32 : FFmt := { eb := 8, mb := 23, bias := 127, special := .ieee }
def fBF16 : FFmt := { eb := 8, mb := 7, bias := 127, special := .ieee }
def fFP16 : FFmt := { eb := 5, mb := 10, bias := 15, special := .ieee }

def FFmt.width (f : FFmt) : Nat := 1 + f.eb + f.mb

/-- The value of an encoding (R124). A NaN whose first fraction bit is zero is signalling, E5M2's of fraction 01 among them; E4M3's one
NaN is quiet (R149). DESIGN CHOICE, log 10. -/
def FFmt.decode (f : FFmt) (b : Nat) : Val :=
  let neg := bit b (f.eb + f.mb)
  let e := bits b (f.eb + f.mb - 1) f.mb
  let m := b % 2 ^ f.mb
  let top := e == 2 ^ f.eb - 1
  if top && f.special == .ieee then
    if m == 0 then .inf neg else .nan (m < 2 ^ (f.mb - 1))
  else if top && f.special == .e4m3 && m == 2 ^ f.mb - 1 then .nan false
  else if e == 0 then .num neg m (1 - (f.bias : Int) - f.mb)
  else .num neg (2 ^ f.mb + m) ((e : Int) - f.bias - f.mb)

/-- The canonical quiet NaN (R146). -/
def FFmt.qnan (f : FFmt) : Nat := (2 ^ f.eb - 1) * 2 ^ f.mb + 2 ^ (f.mb - 1)

def FFmt.signBit (f : FFmt) (neg : Bool) : Nat := if neg then 2 ^ (f.eb + f.mb) else 0

def FFmt.infBits (f : FFmt) (neg : Bool) : Nat := f.signBit neg + (2 ^ f.eb - 1) * 2 ^ f.mb

/-- The number of bits of a natural number. -/
def bitLen (n : Nat) : Nat := if n = 0 then 0 else Nat.log2 n + 1

/-- `m * 2^e` floored to a multiple of `2^q`, counted in units of `2^q`, with what was dropped in units of `2^(q - d)`: the
quotient, the remainder and the divisor. -/
def quantise (m : Nat) (e q : Int) : Nat × Nat × Nat :=
  if q ≤ e then (m * 2 ^ (e - q).toNat, 0, 1)
  else (m / 2 ^ (q - e).toNat, m % 2 ^ (q - e).toNat, 2 ^ (q - e).toNat)

/-- Round a quotient to nearest, ties to even. -/
def roundEven (x : Nat × Nat × Nat) : Nat :=
  if 2 * x.2.1 < x.2.2 then x.1
  else if 2 * x.2.1 = x.2.2 && x.1 % 2 == 0 then x.1 else x.1 + 1

/-- The exponent of the unit in the last place that a magnitude `m * 2^e` takes in a format. -/
def FFmt.ulp (f : FFmt) (m : Nat) (e : Int) : Int :=
  let lead := e + bitLen m - 1
  let emin : Int := 1 - f.bias
  (if lead < emin then emin else lead) - f.mb

/-- The encoding of a magnitude of `k` units of `2^q`, where `q` is the unit of `FFmt.ulp` (a carry out of the significand
included). -/
def FFmt.pack (f : FFmt) (neg : Bool) (k : Nat) (q : Int) : Nat :=
  let q' := if k == 2 ^ (f.mb + 1) then q + 1 else q
  let k' := if k == 2 ^ (f.mb + 1) then 2 ^ f.mb else k
  if k' < 2 ^ f.mb then f.signBit neg + k'
  else f.signBit neg + (q' + f.mb + f.bias).toNat * 2 ^ f.mb + (k' - 2 ^ f.mb)

/-- Whether the exponent field of a packed magnitude is beyond the largest finite value. -/
def FFmt.overflows (f : FFmt) (k : Nat) (q : Int) : Bool :=
  let lead := q + bitLen k - 1
  (2 ^ f.eb - 2 : Int) - f.bias < lead

/-- Round an exact number to an IEEE format, to nearest with ties to even, with its flags (R142, R143, R147, R148). -/
def FFmt.round (f : FFmt) (neg : Bool) (m : Nat) (e : Int) : Res :=
  if m == 0 then .exact (f.signBit neg)
  else
    let q := f.ulp m e
    let x := quantise m e q
    let k := roundEven x
    let inexact := x.2.1 != 0
    if f.overflows k q then { bits := f.infBits neg, fl := flOverflow ||| flInexact }
    else
      let tinyBefore := e + bitLen m - 1 < 1 - (f.bias : Int)
      let tinyRounded := tinyBefore &&
        (let q' := e + bitLen m - 1 - f.mb
         let k' := roundEven (quantise m e q')
         q' + bitLen k' - 1 < 1 - (f.bias : Int))
      let tiny := if Config.tinyAfter then tinyRounded else tinyBefore
      { bits := f.pack neg k q,
        fl := if inexact then (if tiny then flUnderflow ||| flInexact else flInexact) else 0 }

/-- Round a signed exact number: zero takes the sign given. -/
def FFmt.roundInt (f : FFmt) (i e : Int) (zeroNeg : Bool) : Res :=
  if i == 0 then .exact (f.signBit zeroNeg) else f.round (i < 0) i.natAbs e

def signedNat (neg : Bool) (m : Nat) : Int := if neg then -(m : Int) else m

/-- Two exact numbers over one power of two. -/
def align (n1 : Bool) (m1 : Nat) (e1 : Int) (n2 : Bool) (m2 : Nat) (e2 : Int) : Int × Int × Int :=
  let e := if e1 ≤ e2 then e1 else e2
  (signedNat n1 (m1 * 2 ^ (e1 - e).toNat), signedNat n2 (m2 * 2 ^ (e2 - e).toNat), e)

/-- The flag of a signalling NaN among the inputs (R149). -/
def sigFlag (vs : List Val) : Flags := if vs.any fun v => v == .nan true then flInvalid else 0

def Val.isNan : Val → Bool
  | .nan _ => true
  | _ => false

def Val.isInf : Val → Bool
  | .inf _ => true
  | _ => false

def Val.isZero : Val → Bool
  | .num _ m _ => m == 0
  | _ => false

def Val.neg? : Val → Bool
  | .num n _ _ => n
  | .inf n => n
  | .nan _ => false

def Val.negate : Val → Val
  | .num n m e => .num (!n) m e
  | .inf n => .inf (!n)
  | .nan s => .nan s

/-- The canonical NaN with flags (R149). -/
def FFmt.nanRes (f : FFmt) (fl : Flags) : Res := { bits := f.qnan, fl := fl }

/-- Addition (R147, R148). -/
def FFmt.add (f : FFmt) (a b : Val) : Res :=
  match a, b with
  | .num na ma ea, .num nb mb eb =>
    let x := align na ma ea nb mb eb
    f.roundInt (x.1 + x.2.1) x.2.2 (na && nb)
  | .inf na, .inf nb => if na == nb then .exact (f.infBits na) else f.nanRes flInvalid
  | .inf na, .num _ _ _ => .exact (f.infBits na)
  | .num _ _ _, .inf nb => .exact (f.infBits nb)
  | _, _ => f.nanRes (sigFlag [a, b])

/-- Multiplication. -/
def FFmt.mul (f : FFmt) (a b : Val) : Res :=
  match a, b with
  | .num na ma ea, .num nb mb eb => f.round (na != nb) (ma * mb) (ea + eb)
  | .inf na, .inf nb => .exact (f.infBits (na != nb))
  | .inf na, .num nb mb _ => if mb == 0 then f.nanRes flInvalid else .exact (f.infBits (na != nb))
  | .num na ma _, .inf nb => if ma == 0 then f.nanRes flInvalid else .exact (f.infBits (na != nb))
  | _, _ => f.nanRes (sigFlag [a, b])

/-- Fused multiply-add, rounded once (R147). -/
def FFmt.fma (f : FFmt) (a b c : Val) : Res :=
  if a.isNan || b.isNan || c.isNan then
    let bad := !a.isNan && !b.isNan && ((a.isInf && b.isZero) || (a.isZero && b.isInf)) && Config.fmaInvalid
    f.nanRes (sigFlag [a, b, c] ||| if bad then flInvalid else 0)
  else
    match a, b with
    | .num na ma ea, .num nb mb eb =>
      match c with
      | .num nc mc ec =>
        let x := align (na != nb) (ma * mb) (ea + eb) nc mc ec
        f.roundInt (x.1 + x.2.1) x.2.2 ((na != nb) && nc)
      | .inf nc => .exact (f.infBits nc)
      | .nan s => f.nanRes (if s then flInvalid else 0)
    | _, _ =>
      if a.isZero || b.isZero then f.nanRes flInvalid
      else
        let n := a.neg? != b.neg?
        if c.isInf && c.neg? != n then f.nanRes flInvalid else .exact (f.infBits n)

/-- Whether a is below b as the minimum and maximum of R149 order them: -0 is below +0. -/
def Val.below (a b : Val) : Bool :=
  match a, b with
  | .num na ma ea, .num nb mb eb =>
    let x := align na ma ea nb mb eb
    x.1 < x.2.1 || (x.1 == x.2.1 && na && !nb)
  | .inf na, .inf nb => na && !nb
  | .inf na, _ => na
  | _, .inf nb => !nb
  | _, _ => false

/-- IEEE 754-2019 minimum (`least`) and maximum of two encodings (R149). -/
def FFmt.minMax (f : FFmt) (least : Bool) (a b : Nat) : Res :=
  let x := f.decode a
  let y := f.decode b
  if x.isNan || y.isNan then f.nanRes (sigFlag [x, y])
  else if least then .exact (if y.below x then b else a) else .exact (if x.below y then b else a)

/-- Absolute value and negation are exact sign operations; a NaN gives the canonical one (R149, R206). -/
def FFmt.signOp (f : FFmt) (negate : Bool) (a : Nat) : Res :=
  let x := f.decode a
  if x.isNan then f.nanRes (sigFlag [x])
  else
    let mag := a % 2 ^ (f.eb + f.mb)
    .exact (if negate then f.signBit (!x.neg?) + mag else mag)

/-- Conversion of an exact value into an IEEE format (R148). -/
def FFmt.ofVal (f : FFmt) (v : Val) : Res :=
  match v with
  | .num n m e => f.round n m e
  | .inf n => .exact (f.infBits n)
  | .nan s => f.nanRes (if s then flInvalid else 0)

/-! ### Element formats by code (R201) -/

/-- The floating-point format of a code, where it has one. -/
def elemFmt? : Nat → Option FFmt
  | 0x0 => some fE4M3
  | 0x1 => some fE5M2
  | 0x2 => some fE3M2
  | 0x3 => some fE2M3
  | 0x4 => some fE2M1
  | 0x8 => some fBF16
  | 0x9 => some fFP16
  | 0xA => some fFP32
  | _ => none

/-- Bits of one element. -/
def elemBits : Nat → Nat
  | 0x0 => 8 | 0x1 => 8 | 0x2 => 6 | 0x3 => 6 | 0x4 => 4 | 0x5 => 8 | 0x6 => 8 | 0x7 => 4 | 0x8 => 16 | 0x9 => 16
  | 0xA => 32 | _ => 160

/-- The value of an element (R124): MXINT8 counts 2^-6, INT8 and INT4 are integers. -/
def elemVal (fmt b : Nat) : Val :=
  match elemFmt? fmt with
  | some f => f.decode b
  | none =>
    let i := signed (elemBits fmt) b
    .num (i < 0) i.natAbs (if fmt == 0x5 then -6 else 0)

/-- Whether a format takes block scales from memory (R125): the MX formats. -/
def isMx (fmt : Nat) : Bool := fmt ≤ 0x5

/-- The width class of R128: 8, 4 or 16; 0 for no operand format. -/
def widthClass (fmt : Nat) : Nat :=
  if fmt == 0x4 || fmt == 0x7 then 4
  else if fmt ≤ 0x6 then 8
  else if fmt == 0x8 || fmt == 0x9 then 16 else 0

/-! ### MX output blocks (R144) -/

/-- emax of R144. -/
def mxEmax : Nat → Int
  | 0x0 => 8 | 0x1 => 15 | 0x2 => 4 | 0x3 => 2 | 0x4 => 2 | _ => 0

/-- The largest finite magnitude of an MX format, as `m * 2^e` (R123; for MXINT8 the integer bound is applied apart). -/
def mxMax : Nat → Nat × Int
  | 0x0 => (7, 6)      -- 448
  | 0x1 => (7, 13)     -- 57,344
  | 0x2 => (7, 2)      -- 28
  | 0x3 => (15, -1)    -- 7.5
  | _ => (3, 1)        -- 6

/-- floor(log2 (m * 2^e)) of a nonzero magnitude. -/
def floorLog2 (m : Nat) (e : Int) : Int := e + bitLen m - 1

/-- One element of an MX block on the scale 2^X: its encoding, and whether it saturated (R144 step 4). A zero has the encoding of +0, a
negative one of a CVTMX too. DESIGN CHOICE, log 10. -/
def mxElem (fmt : Nat) (neg : Bool) (m : Nat) (e X : Int) : Nat × Bool :=
  if fmt == 0x5 then
    let t := quantise m (e - X + 6) 0
    let beyond := if neg then 128 < t.1 || (t.1 == 128 && t.2.1 != 0) else 127 < t.1 || (t.1 == 127 && t.2.1 != 0)
    if beyond then (if neg then 0x80 else 0x7F, true) else (twos 8 (signedNat neg (roundEven t)), false)
  else
    let f := (elemFmt? fmt).getD fE4M3
    if m == 0 then (0, false)
    else
      let a := mxMax fmt
      let x := align false m (e - X) false a.1 a.2
      if x.2.1 < x.1 then
        let q := f.ulp a.1 a.2
        (f.pack neg (quantise a.1 a.2 q).1 q, true)
      else
        let q := f.ulp m (e - X)
        (f.pack neg (roundEven (quantise m (e - X) q)) q, false)

/-- Convert a block of exact values; `none` is INVALID. The scale code, the elements and the number saturated (R144). -/
def mxBlock (fmt : Nat) (vs : List (Option (Bool × Nat × Int))) : Nat × List Nat × Nat :=
  if vs.any (·.isNone) then (0xFF, vs.map fun _ => 0, 0)
  else
    let ns := vs.filterMap id
    let logs := (ns.filter fun v => v.2.1 != 0).map fun v => floorLog2 v.2.1 v.2.2
    match logs with
    | [] => (0, vs.map fun _ => 0, 0)
    | l :: ls =>
      let top := ls.foldl (fun a b => if a < b then b else a) l
      let X0 := top - mxEmax fmt
      let X := if X0 < -126 then -126 else if 127 < X0 then 127 else X0
      let es := ns.map fun v => mxElem fmt v.1 v.2.1 v.2.2 X
      ((X + 127).toNat, es.map (·.1), (es.filter (·.2)).length)

/-- INT8 output of an exact value on a tile scale code: `V * 2^(127 - c)`, ties to even, saturated (R145). -/
def int8Out (i : Int) (e : Int) (c : Nat) : Nat × Bool :=
  let t := quantise i.natAbs (e + 127 - c) 0
  let neg := decide (i < 0)
  let beyond := if neg then 128 < t.1 || (t.1 == 128 && t.2.1 != 0) else 127 < t.1 || (t.1 == 127 && t.2.1 != 0)
  if beyond then (if neg then 0x80 else 0x7F, true) else (twos 8 (signedNat neg (roundEven t)), false)

end Sys2Proof.Machine
end

