-- ==== Sys2Proof/Machine/Memory.lean ====
section
/-! DEFINITION. The memory tiers (R221 to R252): the address space, written pages, poison, the Pond's remote-data cache, sharers
and held writes. -/

namespace Sys2Proof.Machine

/-- This module's coordinate in the layout of R387. -/
def ownCoord (s : State) : Nat := field s Reg.fabricCoord 11 0

/-! ### Device physical addresses (R221 to R223) -/

def farBase : Nat := 0x100_0000_0000
def pondBase (i : Nat) : Nat := 0x400_0000_0000 + i * 2 ^ 29
def coreBase (c : Nat) : Nat := 0x402_0000_0000 + c * 2 ^ 25

/-- What a device physical address lies in. -/
inductive Zone where
  | near (site : Nat)
  | far (slot : Nat)
  | pond (site : Nat)
  | core (c : Nat)
  | reserved
deriving DecidableEq, Repr

def zoneOf (a : Nat) : Zone :=
  if a < farBase then .near (a / 2 ^ 36)
  else if a < 0x400_0000_0000 then .far ((a - farBase) / 2 ^ 30)
  else if a < 0x402_0000_0000 then .pond ((a - 0x400_0000_0000) / 2 ^ 29)
  else if a < 0x402_8000_0000 then .core ((a - 0x402_0000_0000) / 2 ^ 25)
  else .reserved

/-- The unit of protection: a core-store word of 32 bytes (R99), or a line of 64 (R227, R246). -/
def lineSize (a : Nat) : Nat :=
  match zoneOf a with
  | .core _ => 32
  | _ => 64

/-- The site whose controller owns an address. -/
def ownerSite (a : Nat) : Nat :=
  match zoneOf a with
  | .near i => i
  | .pond i => i
  | .core c => c / 4
  | _ => 0

/-- Whether written bits are kept for an address: stacks and Pond scratch (R244). -/
def paged (a : Nat) : Bool :=
  match zoneOf a with
  | .near _ => true
  | .pond _ => true
  | _ => false

/-- Whether a site's stack is in self refresh: requests for it wait (R230). -/
def stackAsleep (s : State) (i : Nat) : Bool := regBit s (Reg.memCfg i) 3

/-- K of R231: the bytes of a Pond that are its cache. -/
def pondCacheBytes (s : State) (i : Nat) : Nat :=
  match field s (Reg.memCfg i) 17 16 with
  | 0 => 0
  | 1 => 64 * 2 ^ 20
  | 2 => 128 * 2 ^ 20
  | _ => 256 * 2 ^ 20

/-- The bytes of scratch of a Pond. -/
def pondScratch (s : State) (i : Nat) : Nat := 2 ^ 29 - pondCacheBytes s i

/-- The pseudo-channel of a stack address (R226). -/
def pseudoChannel (a : Nat) : Nat := bits a 13 8 ^^^ bits a 19 14

/-- The channel of a stack address, and its pseudo-channel within it (R226). -/
def hbmChannel (a : Nat) : Nat × Nat := (pseudoChannel a / 2, pseudoChannel a % 2)

/-- The partition that owns a Pond address, by its area (R232). -/
def partOfPond (s : State) (a : Nat) : Nat :=
  let i := ownerSite a
  let off := a - pondBase i
  match s.parts.find? fun e => e.2.mode != .absent && (match tfind e.2.areas i with
      | some r => r.base * 2 ^ 20 ≤ off && off < (r.base + r.data + r.stream) * 2 ^ 20
      | none => false) with
  | some e => e.1
  | none => 0xFF

/-- The partition that owns an address of the module, 0xFF for none. -/
def partOfAddr (s : State) (a : Nat) : Nat :=
  match zoneOf a with
  | .near _ => partOfNear s a
  | .pond _ => partOfPond s a
  | .core c => partOfCore s c
  | .far i => if (farSlot s i).valid then (farSlot s i).part else 0xFF
  | .reserved => 0xFF

/-! ### Written pages (R244, R245) -/

def pageWritten (s : State) (a : Nat) : Bool := !paged a || tget false s.written (a / 4096)

/-- The pages a range touches. -/
def pagesOf (a n : Nat) : List Nat :=
  if n = 0 then [] else (List.range ((a + n - 1) / 4096 - a / 4096 + 1)).map (a / 4096 + ·)

/-- One never-written page is read: its site and its owner count it. -/
def noteUnwritten (s : State) (page : Nat) : State :=
  if pageWritten s (4096 * page) then s
  else
    let s := addPairSat s (Reg.memUnwrittenRd (ownerSite (4096 * page))) 1
    let p := partOfAddr s (4096 * page)
    if p == 0xFF then s else modPart s p fun x => { x with unwritten := x.unwritten + 1 }

/-- A read counts every never-written page that it covers wholly or in part. -/
def noteRead (s : State) (a n : Nat) : State := (pagesOf a n).foldl noteUnwritten s

/-- Assign pages to a partition: their written bits are cleared. -/
def assignPages (s : State) (a n : Nat) : State :=
  { s with written := tdrop s.written fun k => a ≤ 4096 * k && 4096 * k < a + n }

/-! ### Poison (R227, R246, R249) -/

/-- How many lines of a stack line's row are poisoned. -/
def rowPoisoned (s : State) (a : Nat) : Nat :=
  (s.poison.filter fun e => e.2 && 64 * e.1 < farBase && ownerSite (64 * e.1) == ownerSite a &&
    Config.hbmRow (64 * e.1) == Config.hbmRow a).length

/-- Repair of a stack line's row is recommended (R250). -/
def repairReport (s : State) (a : Nat) : State :=
  raise s 7 2 (unitNo 0x05 (ownerSite a)) (partOfAddr s a) (a / 64 * 64) 0 (srcHbm (ownerSite a))

/-- A line was poisoned: a stack row that now holds four poisoned lines is reported for repair (R250). -/
def rowReport (s : State) (a : Nat) : State := if a < farBase && 4 ≤ rowPoisoned s a then repairReport s a else s

/-- Set or clear the poison of the line or word that an address lies in, and count the lines now poisoned. -/
def setPoison (s : State) (a : Nat) (b : Bool) : State :=
  match zoneOf a with
  | .core _ => { s with corePoison := tput false s.corePoison (a / 32) b }
  | .near _ | .pond _ =>
    let old := tget false s.poison (a / 64)
    let s := { s with poison := tput false s.poison (a / 64) b }
    let r := Reg.memPoisoned (ownerSite a)
    if old == b then s else if b then rowReport (putReg s r (reg s r + 1)) a else putReg s r (reg s r - 1)
  | _ => s

/-- Whether the line or word an address lies in reads as poison. -/
def poisonedAt (s : State) (a : Nat) : Bool :=
  match zoneOf a with
  | .core _ => tget false s.corePoison (a / 32)
  | .near _ | .pond _ => pageWritten s a && tget false s.poison (a / 64)
  | _ => false

/-- Offsets, in steps of 32, of the 32-byte units of a range that are poisoned. -/
def poisonUnits (s : State) (a n : Nat) : List Nat :=
  ((List.range ((n + a % 32 + 31) / 32)).filter fun i => poisonedAt s (a / 32 * 32 + 32 * i)).map (32 * ·)

/-! ### Reading and writing -/

/-- A byte as a reader sees it: a never-written page reads zeros. -/
def byteAt (s : State) (a : Nat) : Byte := if pageWritten s a then readByte s.mem a else 0

def loadBytes (s : State) (a n : Nat) : List Byte := (List.range n).map fun i => byteAt s (a + i)

/-- The first write to a page: zeros to all of it, whole lines, so that no former poison stays (R245). -/
def openPage (s : State) (a : Nat) : State :=
  if pageWritten s a then s
  else
    let p := a / 4096
    let s := { s with mem := zeroRange s.mem (4096 * p) 4096, written := tput false s.written p true }
    (List.range 64).foldl (fun s i => setPoison s (4096 * p + 64 * i) false) s

/-- Write bytes that lie within one line, of poisoned data or not. A part of a poisoned line is not applied: `true` says so
(R249). A whole line takes its data's poison (R183). -/
def applyPiece (s : State) (a : Nat) (bs : List Byte) (p : Bool) : State × Bool :=
  let s := if paged a then openPage s a else s
  let full := a % lineSize a == 0 && bs.length == lineSize a
  if !full && poisonedAt s a then (s, true)
  else
    let s := { s with mem := writeBytes s.mem a bs }
    (if full || p then setPoison s a p else s, false)

/-- Cut a write at line boundaries and apply the pieces; `pois` are the offsets of the poisoned units of the data. -/
def writePieces : Nat → State → Nat → Nat → List Byte → List Nat → State × Bool
  | 0, s, _, _, _, _ => (s, false)
  | fuel + 1, s, a, off, bs, pois =>
    if bs.isEmpty then (s, false)
    else
      let n := minNat bs.length (lineSize a - a % lineSize a)
      let r := applyPiece s a (bs.take n) (pois.any fun o => o < off + n && off < o + 32)
      let q := writePieces fuel r.1 (a + n) (off + n) (bs.drop n) pois
      (q.1, r.2 || q.2)

/-- Write a range; the flag says whether part of a poisoned line was left unwritten. -/
def writeMem (s : State) (a : Nat) (bs : List Byte) (pois : List Nat) : State × Bool :=
  writePieces bs.length s a 0 bs pois

/-- Firmware owes the owner of a line a notice that it was poisoned, once the combiner has resolved the tick (R248). -/
def oweNotice (s : State) (a : Nat) : State :=
  let p := partOfAddr s a
  if p == 0xFF then s
  else { s with faults := { s.faults with notices := s.faults.notices ++
    [{ tick := tickOf s, part := p, type := 1, words := [a, ownerSite a] }] } }

/-- The line or word an address lies in is found uncorrectable: it is poisoned, counted and reported with its address and owner
(R99, R248). -/
def lineUncorrectable (s : State) (a : Nat) : State :=
  let i := ownerSite a
  let line := a / lineSize a * lineSize a
  let src := match zoneOf a with
    | .pond _ => srcPond i
    | .core c => srcCore c
    | _ => srcHbm i
  let s := match zoneOf a with
    | .near _ => addPairSat s (Reg.memHbmUe i) 1
    | .pond _ => addPairSat s (Reg.memPondUe i) 1
    | _ => s
  oweNotice (raise (setPoison s line true) 7 1 (unitNo 0x05 i) (partOfAddr s a) line 0 src) line

/-- An error that the decoder, or the stack itself, corrected is counted and logged (R99, R225, R246). -/
def lineCorrected (s : State) (a : Nat) : State :=
  let i := ownerSite a
  let line := a / lineSize a * lineSize a
  match zoneOf a with
  | .near _ => raise (addPairSat s (Reg.memHbmCe i) 1) 6 1 (unitNo 0x05 i) (partOfAddr s a) line 0 (srcHbm i)
  | .pond _ => raise (addPairSat s (Reg.memPondCe i) 1) 6 2 (unitNo 0x05 i) (partOfAddr s a) line 0 (srcPond i)
  | .core c => raise s 6 3 (unitNo 0x05 i) (partOfCore s c) line 0 (srcCore c)
  | _ => s

/-- Whether an address is memory of this module. -/
def inMemory (a : Nat) : Bool :=
  match zoneOf a with
  | .near _ => true
  | .pond _ => true
  | .core _ => true
  | _ => false

/-- What a read's decoder reports of one line or word (R246): a never-written page is not touched, and a poisoned line is not
decoded. Only a stack corrects errors of its own (R225). -/
def lineDecoded (s : State) (a : Nat) (o : EccOutcome) : State :=
  if !inMemory a || !pageWritten s a || poisonedAt s a then s
  else
    match o with
    | .clean => s
    | .onDie => if a < farBase then lineCorrected s a else s
    | .corrected => lineCorrected s a
    | .uncorrectable => lineUncorrectable s a

/-- What the decoders report of the lines and words of a range that is read. -/
def decodeRange (s : State) (ecc : EccList) (a n : Nat) : State :=
  ecc.foldl (fun s e =>
    let line := e.1 / lineSize e.1 * lineSize e.1
    if line < a + n && a < line + lineSize e.1 then lineDecoded s e.1 e.2 else s) s

/-! ### The open class's requests (R272) -/

/-- A request waits at a site port for its credits. -/
def submitOpen (s : State) (i : Nat) (r : OpenReq) : State :=
  modSite s i fun x => { x with openReqs := x.openReqs ++ [r] }

/-- A header flit with every field zero but the type. -/
def blankPacket (type : Nat) : Packet :=
  { type := type, hop := 0, rlen := 0, flagged := false, key := 0, tag := 0, route := 0, dst := 0, dstSite := 0, src := 0,
    srcSite := 0, srcAgent := 0, len := 0, status := 0, dpa := 0, aop := 0, awide := false, signed := false, op0 := 0,
    op1 := 0, time := 0, resv := false, data := [] }

/-! ### The remote-data cache (R233 to R237)

A slice is 16-way with 4,096 sets, and a partition's lines lie in its own slices. Which set a line takes is time only
(R233): the model takes line number modulo the sets of all the partition's slices. DESIGN CHOICE, log 9. -/

/-- The slices a partition has on a site. -/
def slicesOf (s : State) (p i : Nat) : Nat := (maskList (tget 0 (part s p).slices i) 16).length

def lineSet (n line : Nat) : Nat := line % (4096 * n)

/-- Drop the lines a test picks from a site's cache. -/
def cacheDrop (s : State) (i : Nat) (p : Nat → Bool) : State :=
  modSite s i fun x => { x with cache := tdrop x.cache p, lru := x.lru.filter fun k => !p k }

/-- The bytes of a line, if a site's cache holds it. -/
def cacheGet (s : State) (i line : Nat) : Option (List Byte) := tfind (site s i).cache line

/-- A use moves a line to the end of the order. -/
def cacheTouch (s : State) (i line : Nat) : State :=
  modSite s i fun x => { x with lru := x.lru.filter (· != line) ++ [line] }

/-- Fill a line for a partition: the least recently used of a full set leaves. -/
def cacheFill (s : State) (p i line : Nat) (bs : List Byte) : State :=
  let n := slicesOf s p i
  if n == 0 then s
  else
    let mates := (site s i).lru.filter fun k =>
      k != line && lineSet n k == lineSet n line && partOfAddr s (256 * k) == p
    let s := match mates with
      | k :: _ => if 16 ≤ mates.length then cacheDrop s i (· == k) else s
      | [] => s
    modSite s i fun x => { x with cache := tput [] x.cache line bs, lru := x.lru.filter (· != line) ++ [line] }

/-! ### Sharers and held writes (R235) -/

def regionsOf (a n : Nat) : List Nat :=
  if n = 0 then [] else (List.range ((a + n - 1) / 65536 - a / 65536 + 1)).map (a / 65536 + ·)

/-- The (region, sharer) pairs of a range of the near tier, whose regions may lie in two stacks. -/
def sharersOf (s : State) (a n : Nat) : List (Nat × Nat) :=
  (regionsOf a n).flatMap fun r => match zoneOf (65536 * r) with
    | .near i => (maskList (tget 0 (site s i).sharers r) 16).map fun t => (r, t)
    | _ => []

/-- Record that site `t` fills a line of a region. -/
def addSharer (s : State) (a t : Nat) : State :=
  modSite s (ownerSite a) fun x =>
    { x with sharers := tmod 0 x.sharers (a / 65536) fun m => setBit m t true }

/-- Whether a write to a region is held: a read then fills no cache, so that none turns stale. DESIGN CHOICE, log 9. -/
def regionHeld (s : State) (a : Nat) : Bool :=
  (site s (ownerSite a)).heldWrites.any fun h => h.waiting.any fun w => w.1 == a / 65536

/-- The home key of a partition, which its packets within the module carry (R279, R516). -/
def homeKey (s : State) (p : Nat) : Nat := ((part s p).keys.head?.map (·.key)).getD 0

/-- The key that the invalidations of a region carry: its partition's (R281, R388). DEDUCED, log 9. -/
def regionKey (s : State) (region : Nat) : Nat := homeKey s (partOfAddr s (65536 * region))

/-- Hold a write and send one invalidation to each sharer of each region: a control message in the open class, which counts
for the write's function (R39, R272). -/
def holdWrite (s : State) (h : HeldWrite) (fn q c : Nat) : State :=
  let s := modSite s (ownerSite h.addr) fun x => { x with heldWrites := x.heldWrites ++ [h] }
  h.waiting.foldl (fun s w =>
    let i := ownerSite (65536 * w.1)
    submitOpen s i { issuer := .inval w.1, dst := w.2, outlet := none, stamp := copyTick s (tileUnder i), fn := fn, qp := q, core := c,
                     addr := w.1 * 65536, cached := false, seq := 0, fail := 0, retry := false, paid := false,
                     p := { blankPacket 4 with key := regionKey s w.1, dst := ownCoord s, dstSite := w.2, src := ownCoord s,
                                               srcSite := i, dpa := w.1 * 65536, time := s.time.now } }) s

/-- Firmware writes the near tier: the write is held like any other until its sharers have dropped their lines (R235). -/
def firmwareWrite (s : State) (a : Nat) (bs : List Byte) : State :=
  let w := sharersOf s a bs.length
  if w.isEmpty then (writeMem s a bs []).1
  else holdWrite s { addr := a, data := bs, poison := [], waiting := w, reply := none, issuer := .transit } 0 0 0

/-! ### Losing cached lines (R235 to R237, R245) -/

/-- A request for a line that a test picks fills no cache when its data comes. -/
def stopFill (p : Nat → Bool) (r : OpenReq) : OpenReq := if p (r.addr / 256) then { r with cached := false } else r

/-- A site's cache loses the lines a test picks, those of reads under way included. -/
def cacheForget (s : State) (i : Nat) (p : Nat → Bool) : State :=
  modSite (cacheDrop s i p) i fun x =>
    { x with openReqs := x.openReqs.map (stopFill p), outstanding := x.outstanding.map (stopFill p),
             egressQ := x.egressQ.map (stopFill p),
             combining := x.combining.map fun e => { e with reqs := e.reqs.map (stopFill p) } }

/-- An uncorrectable error in a cache line discards the line (R237). -/
def cacheUncorrectable (s : State) (i line : Nat) : State :=
  let s := addPairSat (cacheDrop s i (· == line)) (Reg.memCacheErr i) 1
  raise s 6 4 (unitNo 0x05 i) (partOfAddr s (256 * line)) (256 * line) 0 (srcPond i)

end Sys2Proof.Machine
end

