-- ==== Sys2Proof/Machine/Operands.lean ====
section
/-! DEFINITION. The operand forms of a bundle's slots: the running context on a core, its region, counters and argument words,
the units' queues, tile descriptors and vector registers. -/

namespace Sys2Proof.Machine

/-! ### The running context -/

def runCtx? (s : State) (c : Nat) : Option Context := (core s c).running.bind (ctx? s)

def ctxCore? (x : Context) (c : Nat) : Option CtxCore := x.cores.find? fun k => k.core == c

/-- The logical core that a physical core is. -/
def lcoreOf (x : Context) (c : Nat) : Nat := x.cores.findIdx fun k => k.core == c

/-- The logical site that a physical site is. -/
def lsiteOf (x : Context) (i : Nat) : Nat := x.sites.findIdx (· == i)

/-- The physical core at a local position of a physical site, if the context has it. -/
def coreAt? (x : Context) (i loc : Nat) : Option CtxCore := ctxCore? x (4 * i + loc)

/-- Change a context's part on one core. -/
def modCtxCore (s : State) (h c : Nat) (f : CtxCore → CtxCore) : State :=
  modCtx s h fun x => { x with cores := x.cores.map fun k => if k.core == c then f k else k }

/-- Log a fault of a context (R182): every latched fault is logged. -/
def raiseCtx (s : State) (c : Nat) (x : Context) (cause d0 : Nat) : State :=
  raise s 9 cause (unitNo 0x17 x.handle) x.part d0 0 (srcCore c)

/-- Latch a fault on the core that saw it, with its cause and tick, for the running context (R182). -/
def latch (s : State) (c : Nat) (x : Context) (cause d0 : Nat) : State :=
  let s := modCore s c fun k => { k with latched := k.latched ++ [{ cause := cause, stamp := copyTick s (copyPond (c / 4)) }] }
  raiseCtx s c x cause d0

def causeParity : Nat := 0x01
def causeStorePoison : Nat := 0x02
def causeMovePoison : Nat := 0x03
def causeCrossing : Nat := 0x04
def causeRefused : Nat := 0x05
def causeBounds : Nat := 0x06
def causeOverflow : Nat := 0x07
def causeResidue : Nat := 0x08
def causeArith : Nat := 0x09
def causeUnwritten : Nat := 0x0A
def causeBudget : Nat := 0x0B
def causeRaised : Nat := 0x0C

/-! ### The region (R194) -/

/-- The address of a region offset in the core-store aperture. -/
def regionAddr (k : CtxCore) (off : Nat) : Nat := coreBase k.core + k.region + off

/-- Whether a range lies within the region. -/
def regionOk (x : Context) (off n : Nat) : Bool := off + n ≤ x.regionSize

/-- A read of the region by a slot, with the offsets of its poisoned words: one latches STORE_POISON (R182). -/
def loadRegion (s : State) (x : Context) (k : CtxCore) (off n : Nat) : State × List Byte × List Nat :=
  let a := regionAddr k off
  let p := poisonUnits s a n
  (if p.isEmpty then s else latch s k.core x causeStorePoison 0, loadBytes s a n, p)

/-- A write of the region by a slot, with the offsets of its data's poisoned words. -/
def storeRegion (s : State) (k : CtxCore) (off : Nat) (bs : List Byte) (pois : List Nat) : State :=
  (writeMem s (regionAddr k off) bs pois).1

/-- Every 32-byte unit of `n` bytes, as offsets. -/
def wholePoison (n : Nat) : List Nat := (List.range ((n + 31) / 32)).map (32 * ·)

/-- What the decoders report of a read of the region (R99): the words outside it are no part of the read. -/
def decodeRegion (s : State) (k : CtxCore) (ecc : EccList) (off n : Nat) : State := decodeRange s ecc (regionAddr k off) n

/-- Argument word w, as it stands (R210). -/
def argWord (s : State) (k : CtxCore) (w : Nat) : Nat := leNat (loadBytes s (regionAddr k (8 * w)) 8)

/-! ### Token counters (R100 to R103) -/

def counter (k : CtxCore) (n : Nat) : Nat := tget 0 k.counters n

/-- Post an amount to a counter of a context on a core: above 65,535 it stays there and the context faults (R103). -/
def postCounter (s : State) (x : Context) (c n amount : Nat) : State :=
  match (ctx? s x.handle).bind (ctxCore? · c) with
  | none => s
  | some k =>
    let v := counter k n + amount
    let s := modCtxCore s x.handle c fun k => { k with counters := tput 0 k.counters n (minNat v 65535) }
    if 65535 < v then latch s c x causeOverflow n else s

/-! ### Issue order (R196 to R198) -/

def queueOf (y : CoreState) : Slot → List SlotOp
  | .a => y.aQ
  | .v => y.vQ
  | .m => y.mQ
  | .c => y.cQ.map (·.op)

/-- A unit accepts the operation at the head of its queue. -/
def popOp (y : CoreState) : Slot → CoreState
  | .a => { y with aQ := y.aQ.drop 1, aStarted := y.aStarted + 1 }
  | .v => { y with vQ := y.vQ.drop 1, vStarted := y.vStarted + 1 }
  | .m => { y with mQ := y.mQ.drop 1, mStarted := y.mStarted + 1 }
  | .c => { y with cQ := y.cQ.drop 1 }

/-- A unit accepts an operation that a bundle has issued to it, in stream order (R87, R198): no other runs (R153). -/
def takeOp (y : CoreState) (sl : Slot) (op : SlotOp) : Option CoreState :=
  if (queueOf y sl).head? = some op then some (popOp y sl) else none

/-- The number that the operation a unit has just accepted has among its unit's of the phase. -/
def opNo (y : CoreState) : Slot → Nat
  | .a => y.aStarted - 1
  | .v => y.vStarted - 1
  | .m => y.mStarted - 1
  | .c => 0

/-- Run an operation of a slot on a core: it takes effect for the running context once its unit accepts it. A core that runs
no context issues nothing, and an operation that another one precedes in its slot waits (R87, R153, R198). -/
def runOp (s : State) (c : Nat) (sl : Slot) (op : SlotOp) (ready : CoreState → Bool)
    (f : Context → CtxCore → Nat → State → State) : State :=
  match runCtx? s c with
  | none => s
  | some x =>
    match ctxCore? x c with
    | none => s
    | some k =>
      if !ready (core s c) then s
      else
        match takeOp (core s c) sl op with
        | none => s
        | some y => f x k (opNo y sl) (putCore s c y)

/-! ### Posts that wait (R213) -/

/-- Whether every operation that a post waits for has completed. -/
def postReady (y : CoreState) (p : PostWait) : Bool :=
  (!p.f.after.getLsbD 2 || (p.needA ≤ y.aStarted && y.aOpen.all (fun o => p.needA ≤ o.1) &&
      y.dOpen.all (fun o => p.needA ≤ o.1) && y.moves.all fun m => !m.fromA || p.needA ≤ m.no)) &&
    (!p.f.after.getLsbD 1 || (p.needV ≤ y.vStarted && y.tOpen.all fun o => p.needV ≤ o.1)) &&
    (!p.f.after.getLsbD 0 || (p.needM ≤ y.mStarted && y.moves.all fun m => m.fromA || p.needM ≤ m.no))

/-- The channel entry of the running phase's schedule. -/
def chanEntry? (x : Context) (i : Nat) : Option ChanEntry :=
  x.run.bind fun r => (x.phases[r.phase]?).bind fun p => (x.scheds[p.sched]?).bind fun es => es[i]?

/-- The physical destination sites of an entry. -/
def chanDsts (x : Context) (e : ChanEntry) : List Nat :=
  (maskList e.dst.toNat 16).filterMap fun j => x.sites[j]?

/-- The guide and wavelength of an entry (R216). -/
def chanGuide (x : Context) (e : ChanEntry) : Nat × Nat := (8 * (x.sites[e.src]?).getD 0 + e.chan / 32, e.chan % 32)

/-- The row and column neighbours of a core (R105). -/
def rowOf (c : Nat) : Nat := if c % 2 == 0 then c + 1 else c - 1
def colOf (c : Nat) : Nat := if c % 4 < 2 then c + 2 else c - 2

/-- The destination cores of a remote post or CHANNEL move to logical core `lc` on entry `e`: the context's core at that
local position on each site of the entry's destination set (R267). -/
def chanCores (x : Context) (e : ChanEntry) (lc : Nat) : List Nat :=
  match x.cores[lc]? with
  | none => []
  | some k => (chanDsts x e).filterMap fun i => (coreAt? x i (k.core % 4)).map (·.core)

/-! ### Vector registers (R174, R207) -/

/-- A vector register: zero while unwritten (R174). -/
def vreg (y : CoreState) (r : Nat) : Nat := (tfind y.vregs r).getD 0

def vwritten (y : CoreState) (r : Nat) : Bool := (tfind y.vregs r).isSome

/-- Write a vector register, with the mask of its poisoned 32-byte units. -/
def putVreg (y : CoreState) (r v p : Nat) : CoreState :=
  { y with vregs := tins y.vregs r (v % 2 ^ 4096), vpoison := tput 0 y.vpoison r p }

/-- `n` elements of `w` bits of a value, element 0 first. -/
def elems (w : Nat) : Nat → Nat → List Nat
  | 0, _ => []
  | n + 1, v => v % 2 ^ w :: elems w n (v / 2 ^ w)

/-- A value of elements of `w` bits. -/
def packElems (w : Nat) : List Nat → Nat
  | [] => 0
  | e :: es => e % 2 ^ w + 2 ^ w * packElems w es

/-- The registers from a first one. -/
def regSpan (r n : Nat) : List Nat := (List.range n).map (r + ·)

/-- Reading registers: a read of an unwritten one raises UNWRITTEN_STATE (R174). -/
def readVregs (s : State) (x : Context) (c : Nat) (rs : List Nat) : State :=
  if rs.all (vwritten (core s c)) then s else latch s c x causeUnwritten 0

/-- Whether a register range waits for a transcendental result (R95). -/
def awaits (y : CoreState) (rs : List Nat) : Bool :=
  y.tOpen.any fun o => rs.any fun r => o.2.1 ≤ r && r < o.2.1 + o.2.2

/-! ### Tile descriptors (R200 to R203) -/

/-- A tile descriptor, with its offsets in bytes. -/
structure Td where
  fmt : Nat
  base : Nat
  scaleBase : Nat
  blocks : Nat
  stride : Nat
  tileScale : Nat
deriving DecidableEq, Repr

/-- The fields of R200. -/
def tdOf (v : Nat) : Td :=
  { fmt := bits v 127 124, base := 32 * bits v 119 100, scaleBase := 32 * bits v 99 80, blocks := bits v 79 64,
    stride := 32 * bits v 63 48, tileScale := bits v 47 40 }

/-- Natural slice of an operand format, in bytes (R201). -/
def naturalSlice (fmt : Nat) : Nat :=
  match fmt with
  | 0x2 => 96 | 0x3 => 96 | 0x8 => 256 | 0x9 => 256 | _ => 128

/-- Natural row of a result format (R201). -/
def naturalRow (fmt : Nat) : Nat :=
  match fmt with
  | 0x2 => 96 | 0x3 => 96 | 0x4 => 64 | 0x8 => 256 | 0x9 => 256 | 0xA => 512 | 0xB => 2560 | _ => 128

def Td.slicePitch (t : Td) : Nat := if t.stride == 0 then naturalSlice t.fmt else t.stride
def Td.rowPitch (t : Td) : Nat := if t.stride == 0 then naturalRow t.fmt else t.stride

/-- The bit position, from the operand's base, of the element of row `n` at inner index `k` (R202). -/
def Td.elemBit (t : Td) (n k : Nat) : Nat :=
  if widthClass t.fmt == 4 then 8 * (k / 2 * t.slicePitch + n) + 4 * (k % 2)
  else 8 * (k * t.slicePitch) + elemBits t.fmt * n

/-- The offset of the scale byte of row `n` and block `m`. -/
def Td.scaleOff (t : Td) (n m : Nat) : Nat := t.scaleBase + m * (128 * t.slicePitch / naturalSlice t.fmt) + n

/-- Bits of the region from a bit position. -/
def regionBits (s : State) (k : CtxCore) (off bitPos w : Nat) : Nat :=
  let a := regionAddr k (off + bitPos / 8)
  leNat (loadBytes s a ((bitPos % 8 + w + 7) / 8)) / 2 ^ (bitPos % 8) % 2 ^ w

/-- The scale code of a block of an operand: its MX scale byte, the tile scale of an integer tile (R127), or 127 (no scale)
for the 16-bit class. -/
def Td.scaleCode (t : Td) (s : State) (k : CtxCore) (n m : Nat) : Nat :=
  if isMx t.fmt then (byteAt s (regionAddr k (t.scaleOff n m))).toNat
  else if t.fmt == 0x6 || t.fmt == 0x7 then t.tileScale else 127

/-- The element of row `n` at inner index `k`. -/
def Td.elem (t : Td) (s : State) (kc : CtxCore) (n k : Nat) : Val :=
  elemVal t.fmt (regionBits s kc t.base (t.elemBit n k) (elemBits t.fmt))

end Sys2Proof.Machine
end

