-- ==== Sys2Proof/Machine/Rings.lean ====
section
/-! DEFINITION. Scheduled channels and drop rings (R254 to R269, R282 to R296): what a context holds, the tuning at a grant,
and the failure of a ring or a channel. -/

namespace Sys2Proof.Machine

/-! ### What a context holds (R171, R173) -/

/-- Whether a context holds a phase's resources: its phase is granted, or it waits at a HOLD boundary. -/
def holds (x : Context) : Bool :=
  match x.run with
  | some r => r.granted || r.hold
  | none => false

/-- The schedule of a phase. -/
def schedOf (x : Context) (p : Nat) : List ChanEntry :=
  ((x.phases[p]?).bind fun q => x.scheds[q.sched]?).getD []

/-- The schedule whose channels a context holds. -/
def heldSched (x : Context) : List ChanEntry :=
  match x.run with
  | some r => if r.granted then schedOf x r.phase else if r.hold then schedOf x r.prev else []
  | none => []

/-- The physical source site of an entry. -/
def entrySite (x : Context) (e : ChanEntry) : Nat := (x.sites[e.src]?).getD 0

/-! ### Carriers (R284, R285, R288) -/

/-- The guide and wavelength that carry transmit index `idx` of site `i`: its own, or its spare's. None: it is folded. -/
def carrier (s : State) (i idx : Nat) : Option (Nat × Nat) :=
  let x := site s i
  if tget false x.folded idx then none
  else if x.slot30 == some idx then some (8 * i + 6, 31)
  else if x.slot31 == some idx then some (8 * i + 7, 31)
  else some (8 * i + idx / 32, idx % 32)

/-- The transmit index that a guide and wavelength carry. -/
def carried (s : State) (g l : Nat) : Nat :=
  let x := site s (g / 8)
  let idx := 32 * (g % 8) + l
  if idx == 223 then x.slot30.getD 223 else if idx == 255 then x.slot31.getD 255 else idx

/-- The rings a schedule needs at a site, as guides and wavelengths. -/
def wantedAt (s : State) (x : Context) (es : List ChanEntry) (d : Nat) : List (Nat × Nat) :=
  ((es.filter fun e => (chanDsts x e).any (· == d)).filterMap fun e => carrier s (entrySite x e) e.chan).eraseDups

/-- The sites that drop a guide and wavelength under a schedule. -/
def droppedBy (s : State) (x : Context) (es : List ChanEntry) (w : Nat × Nat) : List Nat :=
  match es.find? fun e => carrier s (entrySite x e) e.chan == some w with
  | some e => chanDsts x e
  | none => []

/-! ### Rings -/

/-- The lowest-numbered free ring of a guide at a site (R216). -/
def freeRing? (s : State) (d g : Nat) : Option Nat :=
  (List.range 8).find? fun k => (tfind (site s d).rings (8 * g + k)).isNone

/-- Place of a receiving site in guide order from the transmitting site, among the sites that drop a channel: the i-th of m, in
guide order, couples 1/(m - i + 1) of the light that reaches it (R253, R258). -/
def ringPart (i : Nat) (ds : List Nat) (d : Nat) : Nat :=
  ds.length - (ds.filter fun t => (t + 16 - i) % 16 < (d + 16 - i) % 16).length

/-- The temperature of a site port in 1/16 degC, by its published sensors that are not broken: the hotter one (R341, R585). DESIGN
CHOICE, log 19. -/
def portTemp (s : State) (i : Nat) : Int :=
  let t (c : Nat) : Int := signed 32 (reg s (Reg.houseValue c))
  let broken (c : Nat) : Bool := regBit s (Reg.houseBroken (c / 32)) (c % 32)
  let a := 32 + 2 * i
  if broken a then t (a + 1) else if broken (a + 1) then t a else if t a < t (a + 1) then t (a + 1) else t a

/-- The heater code applied at a site port: CODE - K (T - 70), K in tenths of a code per degC (R341). The spec states no rounding: the
model rounds the correction down. DESIGN CHOICE, log 19. -/
def appliedCode (s : State) (i code : Nat) : Int := (code : Int) - (Config.heaterK : Int) * (portTemp s i - 1120) / 160

/-- Fields of a calibration entry (R368). -/
def calSel (e : Nat) : Nat := bits e 29 28
def calAux (e : Nat) : Nat := bits e 27 20
def calCode (e : Nat) : Nat := bits e 11 0

/-- Ring k of guide g at site d with the targets of its calibration entry for a wavelength: its heater code, and the coupler setting
for its share of the light (R341 to R343). -/
def ringAt (s : State) (d g k l : Nat) (h : Option Nat) (part : Nat) : Ring :=
  let e := reg s (Reg.lightRxcal d (8 * g + k) l)
  { lambda := l, handle := h, settled := false, failed := false, since := s.time.now, good := 0, replacement := false,
    part := part, coupler := (Config.coupler (calAux e) part).toNat, sel := calSel e, heater := appliedCode s d (calCode e) }

/-- The targets of a modulator position, from its calibration entry (R341, R342). -/
def modulatorAt (s : State) (i m : Nat) : Modulator :=
  let e := reg s (Reg.lightTxcal i m)
  { sel := calSel e, heater := appliedCode s i (calCode e), bias := calAux e, since := s.time.now }

/-- The position of a site's modulators that carries a transmit index. -/
def modulatorOf (s : State) (i idx : Nat) : Option Nat := (carrier s i idx).map fun w => 32 * (w.1 % 8) + w.2

/-- The modulator that carries an index is active: one that is already holds its lock. -/
def lightMod (s : State) (i idx : Nat) : State :=
  match modulatorOf s i idx with
  | none => s
  | some m => modSite s i fun x => if (tfind x.mods m).isSome then x else { x with mods := tins x.mods m (modulatorAt s i m) }

/-- A modulator that carries nothing is idle. -/
def darkMod (s : State) (i idx : Nat) : State :=
  match modulatorOf s i idx with
  | none => s
  | some m => modSite s i fun x => { x with mods := tdel x.mods m }

/-- Whether a modulator is locked: at most 2.8 us after its heater took its target (R342; DEDUCED, log 19). -/
def modLocked (s : State) (m : Modulator) : Bool := m.since + 2800 ≤ s.time.now

/-- Tune a free ring of a guide, if there is one; `f` is what the caller knows of it. -/
def tuneRing (s : State) (d g l : Nat) (h : Option Nat) (part : Nat) (f : Ring → Ring) : State :=
  match freeRing? s d g with
  | none => s
  | some k => modSite s d fun x => { x with rings := tins x.rings (8 * g + k) (f (ringAt s d g k l h part)) }

/-- A ring takes another share of its channel's light (R258, R261). -/
def recouple (s : State) (d key part : Nat) (r : Ring) : Ring :=
  { r with part := part, coupler := (Config.coupler (calAux (reg s (Reg.lightRxcal d key r.lambda))) part).toNat }

/-- Whether a ring is stale: its context holds no phase, so another grant may take it (R261). -/
def ringStale (s : State) (r : Ring) : Bool :=
  match r.handle with
  | none => false
  | some h => match ctx? s h with
    | some x => !holds x
    | none => true

/-- The rings of one site at a grant (R261): those of the context that the new schedule names are kept, with their coupling set anew,
and count as settled (R263); the others it held are released, and free rings are tuned for the rest. -/
def grantSite (s : State) (x : Context) (es : List ChanEntry) (d : Nat) : State :=
  let want := wantedAt s x es d
  let part (w : Nat × Nat) : Nat := ringPart (w.1 / 8) (droppedBy s x es w) d
  let rs := (site s d).rings
  let keep := rs.filterMap fun e =>
    if e.2.handle == some x.handle then
      (if !e.2.failed && want.any (fun w => w.1 == e.1 / 8 && w.2 == e.2.lambda) then
        some (e.1, { recouple s d e.1 (part (e.1 / 8, e.2.lambda)) e.2 with settled := true, good := 0, replacement := false })
      else none)
    else if ringStale s e.2 then none else some e
  let s := modSite s d fun y => { y with rings := keep }
  let new := want.filter fun w => !keep.any fun e => e.2.handle == some x.handle && e.1 / 8 == w.1 && e.2.lambda == w.2
  new.foldl (fun s w => addPairSat (tuneRing s d w.1 w.2 (some x.handle) (part w) id) (Reg.basinRetunes d) 1) s

/-- A channel is held by a context's phase: its transfers and counts begin anew (R282, R296). -/
def txHold (s : State) (i idx h : Nat) : State :=
  let s := modSite s i fun x =>
    { x with txQ := tdel x.txQ idx, txCount := tdel x.txCount idx, confirmed := tdel x.confirmed idx,
             lastGood := tdel x.lastGood idx, paused := tdel x.paused idx }
  let s := lightMod s i idx
  putField (putField s (Reg.basinTxch i idx) 31 30 1) (Reg.basinTxch i idx) 27 24 (ctxNo h)

/-- A channel that no phase holds is idle, or failed where it is carried by a spare or folded. -/
def txFree (s : State) (i idx : Nat) : State :=
  let s := modSite (darkMod s i idx) i fun x => { x with txQ := tdel x.txQ idx }
  putField (putField s (Reg.basinTxch i idx) 31 30 (if tget false (site s i).failedTx idx then 3 else 0)) (Reg.basinTxch i idx) 27 24 0

def releaseChannels (s : State) (x : Context) (es : List ChanEntry) : State :=
  es.foldl (fun s e => txFree s (entrySite x e) e.chan) s

/-- Grant a schedule's channels and rings (R171, R261). -/
def grantSched (s : State) (x : Context) (es : List ChanEntry) : State :=
  let s := x.sites.foldl (fun s d => grantSite s x es d) s
  es.foldl (fun s e => txHold s (entrySite x e) e.chan x.handle) s

/-- Release every ring a context holds: they park (R255). -/
def parkRings (s : State) (x : Context) : State :=
  x.sites.foldl (fun s d => modSite s d fun y =>
    { y with rings := y.rings.filter fun e => e.2.handle != some x.handle }) s

/-! ### Free for a grant (R171, R172) -/

/-- Whether two schedules name one channel. -/
def sharesChannel (x y : Context) (es fs : List ChanEntry) : Bool :=
  es.any fun e => fs.any fun f => entrySite x e == entrySite y f && e.chan == f.chan

/-- What other contexts take of the resources a phase needs: `ys` are the contexts that hold, or reserve, a schedule. A site's rings
count where the phase needs rings of the site, and a guide's where it needs some of that guide. -/
def blockedBy (s : State) (x : Context) (es : List ChanEntry) (ys : List (Context × List ChanEntry)) : Bool :=
  (ys.any fun y => (x.cores.any fun k => y.1.cores.any fun j => j.core == k.core) || sharesChannel x y.1 es y.2) ||
    x.sites.any fun d =>
      let mine := wantedAt s x es d
      let theirs := ys.flatMap fun y => wantedAt s y.1 y.2 d
      (!mine.isEmpty && 226 < mine.length + theirs.length) ||
        (mine.map (·.1)).eraseDups.any fun g =>
          8 < (mine.filter (·.1 == g)).length + (theirs.filter (·.1 == g)).length +
            ((site s d).rings.filter fun e => e.1 / 8 == g && (e.2.handle.isNone || e.2.failed)).length

/-! ### Transfers on a channel (R263, R265, R266, R282, R285) -/

/-- The transfers of a transmit index at its port, oldest first. -/
def txTransfers (s : State) (i idx : Nat) : List Transfer := tget [] (site s i).txQ idx

def putTransfers (s : State) (i idx : Nat) (q : List Transfer) : State :=
  modSite s i fun x => { x with txQ := tput [] x.txQ idx q }

/-- Codewords that a transfer's header and data take: three for each frame's 1,920 bytes (R265, R357, R360). -/
def transferCodes (n : Nat) : Nat := 3 * ((32 + n + 1919) / 1920)

/-- Payload bytes of one codeword (R357). -/
def codeBytes : Nat := 640

/-- The replay buffer of a channel is full: 16 KiB of codewords that some receiver has not confirmed (R282). -/
def bufferFull (s : State) (i idx : Nat) : Bool :=
  16384 ≤ codeBytes * (tget 0 (site s i).txCount idx - tget 0 (site s i).confirmed idx)

/-- Whether a port may send a context's transfer on a channel: the bundle takes it (R304, R319), and the channel is folded, or it is not
paused, its replay buffer has room, and the rings of all its destinations have settled (R263, R282, R283). -/
def chanReady (s : State) (i idx h : Nat) (ds : List Nat) : Bool :=
  !bundleHolds s i idx && match carrier s i idx with
  | none => true
  | some w => !tget false (site s i).paused idx && !bufferFull s i idx && ds.all fun d =>
      (site s d).rings.any fun e => e.1 / 8 == w.1 && e.2.lambda == w.2 && e.2.handle == some h && e.2.settled && !e.2.failed

/-- Cut a transfer's bytes into pieces of at most 256. -/
def pieces : Nat → List Byte → List (List Byte)
  | 0, _ => []
  | n + 1, bs => if bs.isEmpty then [] else bs.take 256 :: pieces n (bs.drop 256)

/-- The header of a transfer as R265 lays it out. -/
def headerBytes (h : ChanHdr) : List Byte :=
  leBytes 8 (h.kind.val + 16 * h.context.val + 2 ^ 8 * h.dstLocal.val + 2 ^ 16 * (h.dstOff % 2 ^ 20) + 2 ^ 36 * (h.length % 2 ^ 27)) ++
    leBytes 8 (h.ctr.val + (if h.ctrEn then 32 else 0) + 2 ^ 8 * h.amount.val) ++
    leBytes 8 (h.phase % 4096 + (if h.fault then 4096 else 0) + 2 ^ 32 * h.selector.toNat) ++ leBytes 8 0

/-- A transfer of a folded channel travels to one destination as open-class packets, with credits, in pieces of at most 256 bytes
(R285). The spec gives these packets no type: the model's carry none. DESIGN CHOICE, log 13. -/
def sendFolded (i : Nat) (t : Transfer) (s : State) (d : Nat) : State :=
  let bs := headerBytes t.hdr ++ t.data
  let x := ctx? s t.handle
  (pieces bs.length bs).foldl (fun s b => submitOpen s i
    { issuer := .folded t.id, dst := d, outlet := none, stamp := copyTick s (tileUnder i),
      fn := ((x.bind (·.run)).map fun r => r.d.fn).getD 0, qp := ((x.bind (·.run)).map fun r => r.d.qp + 1).getD 0, core := t.core,
      addr := 0, cached := false, seq := 0, fail := 0, retry := false, paid := false,
      p := { blankPacket 0 with len := (b.length + 31) / 32, srcSite := i, dstSite := d, srcAgent := t.core, data := b,
                                time := s.time.now } }) s

/-- A transfer goes out: on the guide that carries its channel, or folded, to each destination that has not taken it. -/
def putOut (s : State) (i idx : Nat) (t : Transfer) : State :=
  match carrier s i idx with
  | some w => emit s (.chanData i w.1 w.2 t.hdr t.data)
  | none => t.dsts.foldl (sendFolded i t) s

/-- One transfer that waits at a port is sent once its channel is ready. -/
def sendWaiting (i idx : Nat) (s : State) (t : Transfer) : State :=
  if t.sent || !chanReady s i idx t.handle t.sites then s
  else
    let n := tget 0 (site s i).txCount idx + transferCodes t.data.length
    let t' := { t with sent := true, upTo := n }
    let s := modSite s i fun x =>
      { x with txCount := tput 0 x.txCount idx n,
               txQ := tput [] x.txQ idx ((tget [] x.txQ idx).map fun u => if u.id == t.id then t' else u) }
    putOut s i idx t'

/-- A port sends, in order, the transfers of a channel that wait (R266). -/
def pumpTx (s : State) (i idx : Nat) : State := (txTransfers s i idx).foldl (sendWaiting i idx) s

/-- A transfer reaches its port, behind those of its channel that reached it before (R266). -/
def queueTransfer (s : State) (i idx : Nat) (t : Transfer) : State :=
  pumpTx (putTransfers s i idx (txTransfers s i idx ++ [t])) i idx

/-- At an abort the transmitting ports discard a context's transfers (R269). -/
def dropTransfers (s : State) (h : Nat) : State :=
  (List.range 16).foldl (fun s i => modSite s i fun x =>
    let gone := (x.txQ.flatMap (·.2)).filter fun t => t.handle == h
    { x with txQ := x.txQ.foldl (fun u e => tput [] u e.1 (e.2.filter fun t => t.handle != h)) [],
             openReqs := x.openReqs.filter fun r => match r.issuer with
               | .folded n => !gone.any fun t => t.id == n
               | _ => true }) s

/-! ### Failures (R282 to R289) -/

/-- The sites that hold a ring on a channel, with the ring's key. -/
def ringsOn (s : State) (g l : Nat) : List (Nat × Nat × Ring) :=
  (List.range 16).flatMap fun d => (site s d).rings.filterMap fun e =>
    if e.1 / 8 == g && e.2.lambda == l then some (d, e.1, e.2) else none

/-- The transmitter of a channel pauses it (R283). -/
def pauseTx (s : State) (g l : Nat) (b : Bool) : State :=
  let idx := carried s g l
  modSite s (g / 8) fun x => { x with paused := tput false x.paused idx b }

/-- Whether spare slot 30 or 31 (transmit index 223 or 255) of a site may carry a channel whose receivers are `ds`: it is
neither in use nor failed, and every receiver has a free ring on its guide (R284). -/
def spareOk (s : State) (i : Nat) (slot31 : Bool) (ds : List Nat) : Bool :=
  let x := site s i
  let free := if slot31 then x.slot31.isNone && !tget false x.failedTx 255
    else x.slot30.isNone && !tget false x.failedTx 223
  free && ds.all fun d => (freeRing? s d (8 * i + if slot31 then 7 else 6)).isSome

/-- Whether an index serves the open share (R259). -/
def openIndex (idx : Nat) : Bool := 28 ≤ idx % 32

/-- The two transmit indices of the open pair from site i to site d (R259). -/
def openPair (i d : Nat) : Nat × Nat :=
  let k := (d + 16 - i - 1) % 16
  let slot (j : Nat) : Nat := 32 * (j % 8) + 28 + j / 8
  (slot (2 * k), slot (2 * k + 1))

/-- Whether an open channel of a site is out of service: failed and on no spare. -/
def openDown (s : State) (i idx : Nat) : Bool :=
  let x := site s i
  tget false x.failedTx idx && x.slot30 != some idx && x.slot31 != some idx

/-! ### Calibrations (R347) -/

def opCc : Nat := 0x41
def opCa : Nat := 0x42
def opCr : Nat := 0x44

/-- Whether an activity has a channel under calibration: that of a CAL_CHANNEL, the one a CAL_ALL has come to, and any that is measured
once more. -/
def holdsChannel (a : Activity) : Bool :=
  a.mode == .running && (a.opcode == opCc || (a.opcode == opCa && a.maint) || ((a.opcode == opCa || a.opcode == opCr) && a.len != 0))

/-- Whether a channel is under calibration: the engine then treats it as held, and an open channel leaves its pair's traffic to the other
(R347). -/
def calibrating (s : State) (i idx : Nat) : Bool :=
  s.acts.any fun a => holdsChannel a && a.guide == 8 * i + idx / 32 && a.lambda == idx % 32

/-- Whether an open channel carries nothing now. -/
def openOut (s : State) (i idx : Nat) : Bool := openDown s i idx || calibrating s i idx

/-- Whether both channels of a pair are out of service. -/
def pairDown (s : State) (i d : Nat) : Bool := openOut s i (openPair i d).1 && openOut s i (openPair i d).2

/-- The site through which a pair without channels is relayed: the lowest-numbered with working channels from the source and
to the destination (R286). -/
def relayOf? (s : State) (i d : Nat) : Option Nat :=
  (List.range 16).find? fun r => r != i && r != d && !pairDown s i r && !pairDown s r d

/-- The receivers of a channel, each with its share of the light and its count of good codewords. -/
def receiversOf (s : State) (g l : Nat) : List (Nat × Nat × Nat) :=
  ((ringsOn s g l).map (·.1)).eraseDups.map fun d =>
    let rs := (ringsOn s g l).filter (·.1 == d)
    (d, (rs.head?.map fun o => o.2.2.part).getD 1, rs.foldl (fun m o => maxNat m o.2.2.good) 0)

/-- A failed index takes spare slot 30 or 31: each receiver tunes a free ring on the spare's guide to the spare's wavelength, and the
transmitter replays once they have settled (R284). -/
def takeSlot (s : State) (i idx : Nat) (slot31 : Bool) (h : Option Nat) (ds : List (Nat × Nat × Nat)) : State :=
  let s := modSite s i fun x =>
    { x with slot30 := if slot31 then x.slot30 else some idx, slot31 := if slot31 then some idx else x.slot31 }
  let s := lightMod s i idx
  ds.foldl (fun s r => tuneRing s r.1 (8 * i + if slot31 then 7 else 6) 31 h r.2.1 fun q =>
    { q with good := r.2.2, replacement := true }) s

/-- A channel is folded: what its receivers have not taken travels in the open class (R285). -/
def foldIndex (s : State) (i idx : Nat) : State :=
  let s := raiseFlag s (Reg.basinFlags i) 3
  let s := modSite s i fun x => { x with folded := tput false x.folded idx true, paused := tput false x.paused idx false }
  pumpTx (((txTransfers s i idx).filter (·.sent)).foldl (fun s t => putOut s i idx t) s) i idx

/-- The partition that owns a transmit channel, physical index `phys` of site i: its core's (R512, R533). -/
def channelPart (s : State) (i phys : Nat) : Nat :=
  if openIndex phys then 0xFF else partOfCore s (4 * i + phys % 32 / 7)

/-- The partition whose context a ring serves (R533). -/
def ringOwner (s : State) (r : Ring) : Nat := ((r.handle.bind (ctx? s)).map (·.part)).getD 0xFF

/-- A failed index goes to a spare slot that every receiver can take; without one it is folded, or, in the open share, leaves its pair
to the other channel, or to a relay (R284 to R286). -/
def placeIndex (s : State) (i idx : Nat) (h : Option Nat) (ds : List (Nat × Nat × Nat)) : State :=
  if spareOk s i false (ds.map (·.1)) then takeSlot s i idx false h ds
  else if spareOk s i true (ds.map (·.1)) then takeSlot s i idx true h ds
  else if openIndex idx then
    (if (List.range 16).any fun t => t != i && ((openPair i t).1 == idx || (openPair i t).2 == idx) && pairDown s i t then
      raiseFlag s (Reg.basinFlags i) 6 else s)
  else foldIndex (raise s 4 9 (unitNo 0x0A (256 * i + idx)) (channelPart s i idx) 0 0 (srcPort i)) i idx

/-- A channel fails (R284): it is flagged and reported, its transmitter pauses it, and its failed rings are released. It takes its
place on a spare at the end of the tick, behind the failures of the tick that come before it (R287). -/
def failChannel (s : State) (d g l : Nat) : State :=
  let i := g / 8
  let idx := carried s g l
  let phys := 32 * (g % 8) + l
  let on := ringsOn s g l
  let due : SpareDue := { idx := idx, handle := on.head?.bind fun o => o.2.2.handle, dsts := receiversOf s g l }
  let s := raiseFlag (addPairSat s (Reg.basinFailovers d) 1) (Reg.basinFlags d) 2
  let s := raise s 4 8 (unitNo 0x0A (32 * g + l)) (channelPart s i phys) 0 0 (srcPort d)
  let s := on.foldl (fun s o => modSite s o.1 fun x => { x with rings := x.rings.filter fun e => e.1 != o.2.1 }) s
  let s := modSite s i fun x =>
    { x with failedTx := tput false x.failedTx phys true, mods := tdel x.mods phys,
             slot30 := if phys == 223 then none else x.slot30, slot31 := if phys == 255 then none else x.slot31,
             paused := tput false x.paused idx true, spareDue := x.spareDue ++ [due] }
  if phys == idx && !openIndex idx then s else putField s (Reg.basinTxch i phys) 31 30 3

/-- Insert a failure by transmit index. -/
def insertDue (u : SpareDue) : List SpareDue → List SpareDue
  | [] => [u]
  | v :: vs => if u.idx < v.idx then u :: v :: vs else v :: insertDue u vs

/-- Failures of the tick take spares in ascending order of source site, then transmit index (R287). -/
def takeSpares (s : State) : State :=
  (List.range 16).foldl (fun s i =>
    let us := (site s i).spareDue.foldl (fun us u => insertDue u us) []
    us.foldl (fun s u => placeIndex s i u.idx u.handle u.dsts) (modSite s i fun x => { x with spareDue := [] })) s

/-- A ring fails (R282, R283): its receiver reports its last good count, its position is retuned to another free ring of its guide, and
the transmitter pauses the channel. Where no ring of the guide is free, or the ring that replaces another fails before it has settled,
the channel fails (R284). DEDUCED, log 13. -/
def failRing (s : State) (d ring : Nat) : State :=
  match tfind (site s d).rings ring with
  | none => s
  | some r =>
    if r.failed then s
    else
      let g := ring / 8
      let s := raise s 4 7 (unitNo 0x0B (1024 * d + ring)) (ringOwner s r) 0 0 (srcPort d)
      if r.replacement && !r.settled then failChannel s d g r.lambda
      else
        let idx := carried s g r.lambda
        let s := modSite s d fun x => { x with rings := tins x.rings ring { r with failed := true } }
        let s := modSite s (g / 8) fun x => { x with lastGood := tput 0 x.lastGood idx (match tfind x.lastGood idx with
          | some n => minNat n r.good
          | none => r.good) }
        let s := raiseFlag (addPairSat s (Reg.basinFailovers d) 1) (Reg.basinFlags d) 1
        if (freeRing? s d g).isNone then failChannel s d g r.lambda
        else pauseTx (tuneRing s d g r.lambda r.handle r.part fun q => { q with good := r.good, replacement := true }) g r.lambda true

/-! ### The open share of a site (R259, R260) -/

/-- A ring of the open share, settled. -/
def openRing (s : State) (d g l : Nat) : State :=
  tuneRing s d g l none 1 fun r => { r with settled := true }

/-- The open share of one destination: two rings for each other site, and the transmit channels that they receive (R259, R260). -/
def openShareAt (s : State) (d : Nat) : State :=
  let s := (List.range 16).foldl (fun s i =>
    if i == d then s
    else [(openPair i d).1, (openPair i d).2].foldl (fun s idx =>
      let r := Reg.basinTxch i idx
      let s := if openDown s i idx then s else match carrier s i idx with
        | some (g, l) => openRing (lightMod s i idx) d g l
        | none => s
      if tget false (site s i).failedTx idx then s else putField s r 31 30 2) s) s
  let s := (List.range 16).foldl (fun s i => if i == d then s else putField s (Reg.basinCredit d i) 9 0 512) s
  putBit (putBit s (Reg.basinStat d) 1 true) (Reg.lightStat d) 0 true

/-- A site port that returns tunes the rings of its open share again, where the share is in service. -/
def reopenShare (s : State) (d : Nat) : State := if regBit s (Reg.basinStat d) 1 then openShareAt s d else s

end Sys2Proof.Machine
end

