-- ==== Sys2Proof/Machine/Channels.lean ====
section
/-! DEFINITION. What cores send one another, in the order of their links and channels (R105 to R107, R213, R214, R265, R266). -/

namespace Sys2Proof.Machine

/-! ### Links (R105, R106) -/

/-- The link by which a move of a kind leaves its core: 1 row, 2 column, 3 port (R105, R211). -/
def linkOut (kind : Nat) : Option Nat :=
  match kind with
  | 1 => some 1
  | 2 => some 2
  | 3 => some 3
  | 4 => some 3
  | 6 => some 3
  | 8 => some 3
  | 10 => some 3
  | _ => none

/-- The link by which a remote post leaves its core. -/
def postLink (p : RemotePost) : Nat := if p.via ≤ 2 then p.via else 3

/-- Whether a transfer issued earlier has not yet left by a link: a later one waits for it (R106, R107). A move that raised BOUNDS
moves nothing. -/
def ahead (y : CoreState) (link id : Nat) : Bool :=
  (y.moves.any fun m => m.id < id && !m.left && !m.bounds && linkOut m.kind == some link) ||
    y.remote.any fun p => p.id < id && !p.sent && postLink p == link

/-! ### Headers of channel transfers (R265) -/

/-- A header with every field zero but the kind and the context. -/
def blankHdr (kind : Fin 3) (h : Nat) : ChanHdr :=
  { kind := kind, context := Fin.ofNat 16 (ctxNo h), dstLocal := 0, dstOff := 0, length := 0, ctr := 0, ctrEn := false, amount := 0,
    phase := 0, fault := false, selector := 0 }

/-- The header of a post token. -/
def postHdr (h loc ctr amount : Nat) : ChanHdr :=
  { blankHdr 1 h with dstLocal := Fin.ofNat 4 loc, ctr := Fin.ofNat 32 ctr, ctrEn := true, amount := Fin.ofNat 256 amount }

/-- The header of a barrier token (R163). -/
def barrierHdr (h phase : Nat) (f : Bool) (sel : Word) : ChanHdr :=
  { blankHdr 2 h with phase := phase % 4096, fault := f, selector := sel }

/-! ### Posts (R213) -/

/-- A remote post goes on its way once nothing is ahead of it on its link: as a token message on a link, or as a post token on its
channel (R213). -/
def sendPost (x : Context) (c : Nat) (s : State) (p : RemotePost) : State :=
  let y := core s c
  match y.remote.find? fun q => q.id == p.id with
  | none => s
  | some q =>
    if q.sent || ahead y (postLink q) q.id then s
    else
      let s := modCore s c fun y => { y with remote := y.remote.map fun r => if r.id == q.id then { r with sent := true } else r }
      if q.via ≤ 3 then emit s (.token c q.dst (ctxNo x.handle) q.ctr q.amount)
      else match chanEntry? x q.chan with
        | none => s
        | some e => queueTransfer s (c / 4) e.chan
            { id := q.id, core := c, move := none, handle := x.handle, hdr := postHdr x.handle (q.dst % 4) q.ctr q.amount, data := [],
              poison := [], sites := chanDsts x e,
              dsts := (y.remote.filter fun r => r.id == q.id).map fun r => r.dst / 4, sent := false, upTo := 0, near := false,
              req := none }

/-- A core's remote posts that nothing holds back go on their way. -/
def sendPosts (s : State) (c : Nat) : State :=
  match runCtx? s c with
  | none => s
  | some x => (core s c).remote.foldl (sendPost x c) s

/-- Apply a post of R213: to the own counter at once, to other cores as a token message behind what its link carries. -/
def applyPost (s : State) (c : Nat) (x : Context) (f : PostF) : State :=
  let send (ds : List Nat) : State :=
    let s := modCore { s with nextId := s.nextId + 1 } c fun y => { y with remote := y.remote ++ ds.map fun d =>
      { dst := d, ctr := f.counter.val, amount := f.amount.val, id := s.nextId, via := f.target.val, chan := f.chan.toNat,
        sent := false } }
    sendPosts s c
  match f.target.val with
  | 0 => postCounter s x c f.counter.val f.amount.val
  | 1 => send [rowOf c]
  | 2 => send [colOf c]
  | 3 => match x.cores[f.dstCore.val]? with
    | some k => send [k.core]
    | none => s
  | 4 => match chanEntry? x f.chan.toNat with
    | none => s
    | some e => send (chanCores x e f.dstCore.val)
  | _ => s

/-- Apply every waiting post of a core whose slots have completed. -/
def runPosts (s : State) (c : Nat) : State :=
  match runCtx? s c with
  | none => s
  | some x =>
    let y := core s c
    let ready := y.posts.filter (postReady y)
    let s := putCore s c { y with posts := y.posts.filter fun p => !postReady y p }
    ready.foldl (fun s p => applyPost s c ((ctx? s x.handle).getD x) p.f) s

/-! ### Transfers that arrive (R266, R268, R282, R285) -/

/-- The context whose tag a channel carries at a site: that of its ring there, or, on a folded channel, of the running phase that
holds it (R268, R285): a cut one's transfers are discarded (R269). The outer none: nothing of the channel arrives there. -/
def chanTag (s : State) (d g l : Nat) : Option (Option Nat) :=
  match (site s d).rings.find? fun e => e.1 / 8 == g && e.2.lambda == l && !e.2.failed && e.2.settled with
  | some e => some e.2.handle
  | none =>
    let i := g / 8
    let idx := carried s g l
    if !tget false (site s i).folded idx then none
    else (s.contexts.find? fun x => holds x && (x.run.map fun r => r.outcome.isNone && r.aborting.isNone).getD false &&
      (heldSched x).any fun e => entrySite x e == i && e.chan == idx && (chanDsts x e).any (· == d)).map fun x => some x.handle

/-- Whether a piece of a folded transfer still waits for its credits to a site. -/
def pieceWaits (s : State) (i d id : Nat) : Bool :=
  (site s i).openReqs.any fun r => r.issuer == .folded id && r.dst == d

/-- The transfer of a channel that arrives next at a site: the first one sent that the site has not taken (R266); none while the site's
bundle is held idle (R319). -/
def nextTransfer? (s : State) (i idx d : Nat) : Option Transfer :=
  if quarantined s d then none else match (txTransfers s i idx).find? fun t => t.dsts.any (· == d) with
  | some t => if t.sent && !pieceWaits s i d t.id then some t else none
  | none => none

/-- Flits of a folded transfer's pieces. -/
def foldedFlits (t : Transfer) : Nat :=
  let n := 32 + t.data.length
  ((List.range ((n + 255) / 256)).map fun j => ((minNat 256 (n - 256 * j) + 31) / 32 + 1) / 2).sum

/-- A site takes a transfer: its ring has received the channel's codewords up to it (R282), or it holds a folded one's flits until it
returns their credits (R271). A transfer that every site has taken is done with. -/
def takeTransfer (s : State) (i idx d : Nat) (t : Transfer) : State :=
  let q := (txTransfers s i idx).filterMap fun u =>
    if u.id != t.id then some u
    else
      let left := u.dsts.filter (· != d)
      if left.isEmpty then none else some { u with dsts := left }
  let s := putTransfers s i idx q
  match carrier s i idx with
  | none => modSite s d fun x => { x with recvHeld := tmod 0 x.recvHeld i (· + foldedFlits t) }
  | some w => modSite s d fun x => { x with rings := x.rings.map fun e =>
      if e.1 / 8 == w.1 && e.2.lambda == w.2 && !e.2.failed then (e.1, { e.2 with good := maxNat e.2.good t.upTo }) else e }

end Sys2Proof.Machine
end

