-- ==== Sys2Proof/Machine/Completions.lean ====
section
/-! DEFINITION. Completion entries and the progress of copies (R440, R443, R446 to R449, R453 to R455, R466). -/

namespace Sys2Proof.Machine

/-! ### Host memory -/

/-- Write 64-bit words to a function's host memory (R14). -/
def hostWrite (s : State) (fn a : Nat) (bs : List Byte) : State :=
  { s with hostMem := writeBytes s.hostMem (2 ^ 64 * fn + a) bs }

def wordBytes (ws : List Nat) : List Byte := ws.flatMap (leBytes 8)

/-- Whether a function may write host memory and interrupts (R443). -/
def mayMaster (s : State) (fn : Nat) : Bool := tget false s.bme fn && !tget false s.d3hot fn

/-! ### Completion entries (R446) -/

/-- A completion without a dispatch's fields. -/
def Cpl.plain (tag status sq : Nat) : Cpl :=
  { tag := tag, status := status, cause := 0, lcore := 0, phase := 0, sq := sq, tStart := 0, tEnd := 0, count := 0,
    vflags := 0, below := 0, invalid := 0, sat := 0 }

/-- The eight words of an entry, the SQ head and the phase tag apart. -/
def Cpl.words (c : Cpl) : List Nat :=
  [c.tag, c.status + c.cause * 2 ^ 8 + c.lcore * 2 ^ 16 + c.phase * 2 ^ 22 + c.sq * 2 ^ 34, c.tStart, c.tEnd,
   c.count % 2 ^ 32 + c.vflags * 2 ^ 32, c.below + c.invalid * 2 ^ 32, c.sat, 0]

/-- Put the SQ head into word 4 of an entry. -/
def withHead (ws : List Nat) (head : Nat) : List Nat :=
  (List.range ws.length).zip ws |>.map fun t => if t.1 == 4 then t.2 + head % 65536 * 2 ^ 48 else t.2

/-- Put the phase tag into a word of an entry. -/
def withTag (ws : List Nat) (i : Nat) (p : Bool) : List Nat :=
  (List.range ws.length).zip ws |>.map fun t => if t.1 == i then t.2 + (if p then 2 ^ 63 else 0) else t.2

def cqSize (q : QpState) : Nat := 2 ^ (q.cqLog + 4)
def sqSize (q : QpState) : Nat := 2 ^ (q.sqLog + 4)

/-- Raise a CQ's vector and start a new coalescing group (R449). -/
def cqInterrupt (s : State) (n : Nat) : State :=
  let q := qp s n
  msix (putQp s n { q with unreported := 0, oldest := none }) q.owner q.vector

/-- Write an entry at a CQ's next slot, with the SQ head as it now stands (R440, R446, R449). -/
def cqWrite (s : State) (n : Nat) (ws : List Nat) : State :=
  let q := qp s n
  let head := (qp s (bits (ws.getD 1 0) 51 34)).head
  let es := withHead (withTag ws 1 q.phaseTag) head
  let s := hostWrite s q.owner (q.cqBase + 64 * q.cqTail) (wordBytes es)
  let next := (q.cqTail + 1) % cqSize q
  let q := { q with cqTail := next, phaseTag := if next == 0 then !q.phaseTag else q.phaseTag,
                    reserved := q.reserved - 1, unreported := q.unreported + 1, oldest := some (q.oldest.getD s.time.now) }
  let s := putQp s n q
  if maxNat 1 q.coalCount ≤ q.unreported then cqInterrupt s n else s

/-- The engine resolves the entry of sequence number `seq` of an SQ for a CQ: its completion is written at the end of the tick, in the
order of R448. -/
def complete (s : State) (seq cq : Nat) (c : Cpl) : State := { s with ended := s.ended ++ [{ seq := seq, cq := cq, cpl := c }] }

/-- A resolved entry completes (R448): its completion is written, or waits while its owner may not master the bus (R443). A CQ that no
longer exists takes nothing (R458). -/
def writeCompletion (s : State) (e : Ended) : State :=
  let s := modQp s e.cpl.sq fun q => { q with open_ := q.open_.filter (· != e.seq) }
  let s := if e.cpl.status == 0x05 then addPairSat s Reg.queueRetries 1 else s
  let q := qp s e.cq
  if q.mode == 0 then s
  else if mayMaster s q.owner then cqWrite s e.cq e.cpl.words
  else putQp s e.cq { q with blocked := q.blocked ++ [e.cpl.words] }

/-- Write what waited for Bus Master Enable. -/
def cqFlush (s : State) (n : Nat) : State :=
  let ws := (qp s n).blocked
  ws.foldl (fun s w => cqWrite s n w) (modQp s n fun q => { q with blocked := [] })

/-! ### DMA channels -/

/-- Whether a channel runs: it has copies and is neither disabled, halted nor stopped by a parity mismatch (R454, R455, R626). -/
def dmaRuns (s : State) (ch : Nat) : Bool :=
  !(dmaCh s ch).copies.isEmpty && !regBit s (Reg.dmaCtl ch) 0 && !regBit s (Reg.dmaFlags ch) 0 &&
    !s.upsets.any fun u => match u.1 with
      | .dmaCtl c => c.val == ch
      | _ => false

/-- DMA_CH_STAT of a channel (R466): a copy behind a halted or disabled channel that has not begun still waits. -/
def dmaStat (s : State) (ch : Nat) : State :=
  let cs := (dmaCh s ch).copies
  let active : Bool := match cs with
    | r :: _ => r.tStart.isSome || dmaRuns s ch
    | [] => false
  let s := putField s (Reg.dmaStat ch) 31 16 (minNat (cs.length - (if active then 1 else 0)) 65535)
  let s := putBit s (Reg.dmaStat ch) 2 (active && (cs.head?.map (·.toHost)).getD false)
  let s := putBit s (Reg.dmaStat ch) 1 active
  putBit s (Reg.dmaStat ch) 0 (regBit s (Reg.dmaFlags ch) 0)

/-- The status of a finished copy: the first error in the order of R453. -/
def copyStatus (r : CopyRec) : Nat × Nat :=
  if r.bounds then (0x08, 0)
  else if r.crossing then (0x0A, 0)
  else match r.refused with
    | some c => (0x0B, c)
    | none => if r.poison then (0x09, 0) else (0, 0)

/-- The copy at a channel's head has ended with a status. -/
def endCopy (s : State) (ch : Nat) (r : CopyRec) (status cause : Nat) : State :=
  let d := dmaCh s ch
  let s := dmaStat (putDma s ch { d with copies := d.copies.drop 1 }) ch
  complete s r.seq r.cq { Cpl.plain r.tag status r.qp with
    cause := cause, tStart := r.tStart.getD s.time.now, tEnd := s.time.now, count := r.moved }

/-- End the head copy once all that it has begun is acknowledged: after its last byte (R448), at an address out of bounds (R453), or
after a host access that failed (R455). -/
def copyProgress (s : State) (ch : Nat) : State :=
  match (dmaCh s ch).copies with
  | [] => s
  | r :: _ =>
    if r.held != 0 then s
    else match r.err with
      | some c => endCopy s ch r 0x0C c
      | none =>
        if r.bounds || r.moved == r.len then
          let st := copyStatus r
          endCopy s ch r st.1 st.2
        else s

/-- Change the head copy of a channel. -/
def modCopy (s : State) (ch : Nat) (f : CopyRec → CopyRec) : State :=
  let d := dmaCh s ch
  putDma s ch { d with copies := match d.copies with
    | r :: rs => f r :: rs
    | [] => [] }

/-- One access of a copy has been answered; nothing more is done for a copy that has stopped (R458). -/
def copyAnswered (s : State) (ch id : Nat) (f : CopyRec → CopyRec) : State :=
  match (dmaCh s ch).copies with
  | r :: _ => if r.id == id then copyProgress (modCopy s ch fun r => f { r with held := r.held - 1 }) ch else s
  | [] => s

end Sys2Proof.Machine
end

