-- ==== Sys2Proof/Machine/OpenClass.lean ====
section
/-! DEFINITION. Open-class requests that this module's site ports originate: partition keys (R278 to R281), the egress table
(R402), combining of reads (R274, R275), flagged stores (R397), and how an answer completes a request. -/

namespace Sys2Proof.Machine

/-! ### Packets -/

/-- Flits of a packet (R388): the header and its data; a piece of a folded transfer is data alone (R285). -/
def flitsOf (p : Packet) : Nat :=
  if p.type == 0x00 then (p.len + 1) / 2
  else if p.type == 0x02 || p.type == 0x10 then 1 + (p.len + 1) / 2
  else if p.type == 0x22 then 2
  else if p.type == 0x23 then 1 + (p.data.length + 63) / 64 else 1

def isReqType (t : Nat) : Bool := t == 0x01 || t == 0x02 || t == 0x03
def isReplyType (t : Nat) : Bool := t == 0x10 || t == 0x11 || t == 0x12 || t == 0x13 || t == 0x14

/-- Whether this module has a coordinate (R421). -/
def hasCoord (s : State) : Bool := regBit s Reg.fabricCoord 31

/-- Entry h of a route. -/
def routeEntry (r : DWord) (h : Nat) : Nat := bits r.toNat (4 * h + 3) (4 * h)

/-- What a code of R411 completes a move with. -/
def statusOfCode (c : Nat) : XferStatus :=
  if c == 0 then .ok else if c == 6 then .poison else if c == 9 then .crossingReset else if c == 0xA then .aborted
  else .refused

/-- Whether two requests combine (R274). -/
def sameReq (p q : Packet) : Bool :=
  p.type == q.type && p.key == q.key && p.dst == q.dst && p.dstSite == q.dstSite && p.dpa == q.dpa && p.len == q.len &&
    p.aop == q.aop && p.awide == q.awide && p.signed == q.signed && p.op0 == q.op0 && p.op1 == q.op1

/-! ### Key entries (R278, R295) -/

def dirEgress : Nat := 18
def dirOutlet : Nat := 17
def dirBasin : Nat := 16

/-- Whether a key entry is disabled by a parity mismatch (R626). -/
def keyUpset (s : State) (i e : Nat) : Bool :=
  s.upsets.any fun u => match u.1 with
    | .key i' e' => i'.val == i && e'.val == e
    | _ => false

/-- Whether a site port accepts a key in a direction. -/
def keyOk (s : State) (i key dir : Nat) : Bool :=
  (List.range 16).any fun e =>
    let v := reg s (Reg.basinKey i e)
    bit v 31 && bits v 15 0 == key && bit v dir && !keyUpset s i e

/-- A packet that a key check refuses is counted, flagged and reported (R280). -/
def keyRefused (s : State) (i : Nat) (p : Packet) : State :=
  let s := raiseFlag (addPairSat s (Reg.basinKeyRefused i) 1) (Reg.basinFlags i) 4
  raise s 12 1 (unitNo 0x02 i) 0xFF p.key p.src (srcPort i)

/-! ### The route table of a site port (R384, R626) -/

/-- A table entry that holds no route. -/
def noRoute : Route := { len := 0, word := 0 }

/-- The route of a far-window slot in a site port's table: absent while its entry's parity fails. -/
def slotRouteAt (s : State) (i slot : Nat) : Route :=
  let absent : Bool := s.upsets.any fun u => match u.1 with
    | .siteTable i' e => i'.val == i && e == slot
    | _ => false
  if absent then noRoute else tget noRoute s.fabric.slotRoutes slot

/-! ### The egress table (R400, R402) -/

/-- Whether one entry allows an operation: its partition, key, coordinate and whole byte range. -/
def egressMatch (e : Egress) (p key coord dpa n type : Nat) : Bool :=
  let w := e.w0.toNat
  e.sealed && bit w 63 && bits w 61 56 == p && e.w1.toNat / 2 ^ 48 == key &&
    (bit w 48 || bits w 47 36 == coord) && bits w 35 0 * 4096 ≤ dpa &&
    dpa + n ≤ bits e.w1.toNat 35 0 * 4096 + 4096 &&
    (if type == 0x01 then bit w 49 else if type == 0x02 then bit w 50 else bit w 51)

def egressOk (s : State) (p key coord dpa n type : Nat) : Bool :=
  s.island.egress.any fun e => egressMatch e p key coord dpa n type

/-- A request that the egress table refuses (R402). -/
def egressRefused (s : State) (i part : Nat) (p : Packet) : State :=
  let s := raiseFlag s Reg.fabricFlags 2
  raise s 12 2 (unitNo 0x02 i) part p.key p.dpa (srcPort i)

/-! ### Completing a request -/

/-- Bytes of `new`, which begins at address `b`, laid over those of `old`, which begins at address `a`. -/
def overlay (a : Nat) (old : List Byte) (b : Nat) (new : List Byte) : List Byte :=
  (List.range old.length).map fun i =>
    if b ≤ a + i && a + i < b + new.length then new.getD (a + i - b) 0 else old.getD i 0

/-- The 32-byte units of a move that a range of its source covers. -/
def unitsIn (m : MoveRec) (addr n : Nat) : List Nat :=
  ((List.range ((m.len + 31) / 32)).map (32 * ·)).filter fun o => addr < m.src + o + 32 && m.src + o < addr + n

/-- One request of a move, of `n` bytes, has ended: the first error of a move stands. A read answered with poison poisons its
bytes of the move (R183). -/
def moveAnswered (m : MoveRec) (st : XferStatus) (addr n : Nat) (data : List Byte) : MoveRec :=
  { m with open_ := m.open_ - 1, bad := if m.bad == .ok then st else m.bad,
           data := if st == .ok && !data.isEmpty then overlay m.src m.data addr data else m.data,
           poison := if st == .poison && (m.kind == 7 || m.kind == 9) then m.poison ++ unitsIn m addr n else m.poison }

def modMove (s : State) (c id : Nat) (f : MoveRec → MoveRec) : State :=
  modCore s c fun y => { y with moves := y.moves.map fun m => if m.id == id then f m else m }

/-- Later flagged stores of the same agent to the same coordinate take a failed store's code (R397). -/
def failFlagged (s : State) (i : Nat) (r : OpenReq) (code : Nat) : State :=
  if code == 0 || r.p.type != 0x02 then s
  else modSite s i fun x => { x with flagged := x.flagged.map fun f =>
    if f.p.srcAgent == r.p.srcAgent && f.p.dst == r.p.dst && r.seq < f.seq && f.fail == 0 then { f with fail := code }
    else f }

/-- A fabric request of a copy has ended (R452, R453): what it read goes to host memory, a poisoned line as zeros. -/
def answerCopy (s : State) (ch id a n code : Nat) (data : List Byte) : State :=
  let st := statusOfCode code
  let s := match (dmaCh s ch).copies with
    | r :: _ =>
      if r.id == id && r.toHost && (st == .ok || st == .poison) then
        hostWrite s r.fn (r.host + (a - r.dpa)) (if st == .ok then data else List.replicate n 0)
      else s
    | [] => s
  copyAnswered s ch id fun r =>
    { r with crossing := r.crossing || st == .crossingReset || st == .aborted,
             refused := if st == .refused && r.refused.isNone then some code else r.refused,
             poison := r.poison || st == .poison }

/-- A request that a site port of this module issued ends with a code and, for a read, its data. A line that may be cached
fills the site's cache (R234). -/
def finishReq (s : State) (i : Nat) (r : OpenReq) (code : Nat) (data : List Byte) (fill : Bool) : State :=
  let s := failFlagged s i r code
  match r.issuer with
  | .move c id =>
    let s := modMove s c id fun m => moveAnswered m (statusOfCode code) r.addr (32 * r.p.len) data
    if code == 0 && r.cached && fill then cacheFill s (partOfAddr s r.addr) i (r.addr / 256) data else s
  | .copy ch id => answerCopy s ch id r.addr (32 * r.p.len) code data
  | _ => s

/-- A request refused at its own site port, which never leaves it (R279, R402, R375). -/
def refuseLocal (s : State) (i : Nat) (r : OpenReq) (code : Nat) : State := finishReq s i r code [] false

/-! ### Originating -/

/-- Give a request its tag and order. -/
def numberReq (s : State) (i : Nat) (r : OpenReq) : State × OpenReq :=
  let t := (site s i).nextTag
  ({ modSite s i fun x => { x with nextTag := (t + 1) % 65536 } with nextId := s.nextId + 1 },
    { r with seq := s.nextId, stamp := copyTick s (tileUnder i), p := { r.p with tag := t, time := s.time.now } })

/-- A site port holds at most 4,096 outstanding fabric requests; a further one waits (R389). -/
def roomFor (x : SiteState) : Bool := (x.outstanding.filter fun r => r.outlet.isSome).length < 4096

/-- A read within the module whose data returns on its move's scheduled channel (R238): it combines with none. -/
def chanRead (p : Packet) : Bool := p.type == 0x01 && p.op1 == 1

/-- Attach a read to an entry of a site port that holds an identical read, queued or unanswered, and has room (R274, R275); `reg`
counts it. None where there is no such entry. -/
def attachRead (s : State) (i reg : Nat) (r : OpenReq) : Option State :=
  match (site s i).combining.findIdx? fun e => r.p.type == 0x01 && !chanRead r.p && sameReq e.p r.p && e.reqs.length < 63 with
  | some n => some (addPairSat (modSite s i fun x =>
      { x with combining := (List.range x.combining.length).zip x.combining |>.map fun t =>
          if t.1 == n then { t.2 with reqs := t.2.reqs ++ [r] } else t.2 }) reg 1)
  | none => none

/-- A read takes a combining entry, if one is free: identical reads may attach to it until it is answered (R274). -/
def openEntry (s : State) (i : Nat) (p : Packet) : State :=
  if p.type == 0x01 && !chanRead p && (site s i).combining.length < 256 then
    modSite s i fun x => { x with combining := x.combining ++ [{ p := p, reqs := [] }] }
  else s

/-- Send a checked request: onto the Basin toward its exit or target site when credits are granted, or into the site's own
Outlet's egress queue, where it counts as accepted (R399). An identical read that is queued or unanswered takes it instead
(R274, R275). -/
def sendReq (s : State) (i : Nat) (r : OpenReq) : State :=
  let s := if r.outlet.isSome then addPairSat s Reg.fabricReqOut 1 else s
  match attachRead s i (Reg.basinCombined i) r with
  | some t => t
  | none =>
    let s := openEntry s i r.p
    if r.dst == i && roomFor (site s i) then
      modSite s i fun x => { x with egressQ := x.egressQ ++ [r], outstanding := x.outstanding ++ [r] }
    else submitOpen s i r

/-- The checks of the issuing site port: the key has an egress entry there and belongs to the issuer's partition (R279), a
fabric request has a route (R375, R384) and a valid egress entry (R402). -/
def checkReq (s : State) (i part : Nat) (r : OpenReq) : Nat :=
  if !keyOk s i r.p.key dirEgress || !(s.parts.any fun e => e.1 == part && e.2.keys.any fun k => k.key == r.p.key) then 1
  else if r.outlet.isNone then 0
  else if !hasCoord s || r.p.rlen == 0 then 3
  else if !egressOk s part r.p.key r.p.dst r.p.dpa (32 * r.p.len) r.p.type then 2 else 0

/-- Check a request and send it, or end it at the site port. -/
def checkAndSend (s : State) (i part : Nat) (r : OpenReq) : State :=
  match checkReq s i part r with
  | 0 => sendReq s i r
  | 1 => refuseLocal (keyRefused s i r.p) i r 1
  | 2 => refuseLocal (egressRefused s i part r.p) i r 2
  | c => refuseLocal s i r c

/-- Whether a store that a flagged store waits for is still unanswered (R397). -/
def earlierStore (s : State) (i : Nat) (r : OpenReq) : Bool :=
  let x := site s i
  (x.outstanding ++ x.openReqs ++ x.flagged).any fun q =>
    q.p.type == 0x02 && q.p.srcAgent == r.p.srcAgent && q.p.dst == r.p.dst && q.seq < r.seq

/-- Originate a request of a partition; a flagged store that has predecessors is held (R397). -/
def originate (s : State) (i part : Nat) (r : OpenReq) : State :=
  let n := numberReq s i r
  if r.p.flagged && earlierStore n.1 i n.2 then
    addPairSat (modSite n.1 i fun x => { x with flagged := x.flagged ++ [n.2] }) Reg.fabricFlagHolds 1
  else checkAndSend n.1 i part n.2

/-- FLAGGED_STORE_RELEASE (R397): a held flagged store goes out once every earlier store of its agent to its coordinate has
been acknowledged, or ends with the status of one that failed. -/
def flaggedStoreRelease (i tag : Nat) (s : State) : State :=
  match (site s i).flagged.find? fun r => r.p.tag == tag with
  | none => s
  | some r =>
    if earlierStore s i r then s
    else
      let s := modSite s i fun x => { x with flagged := x.flagged.filter fun q => q.seq != r.seq }
      if r.fail != 0 then finishReq s i r r.fail [] false
      else
        checkAndSend s i (partOfCore s r.core) r

def execFlaggedStoreRelease (site : SiteNo) (tag : Nat) (s : State) : Host.Outcome State Fault Refusal :=
  .next (flaggedStoreRelease site.val tag s)

end Sys2Proof.Machine
end

