-- ==== Sys2Proof/Machine/Moves.lean ====
section
/-! DEFINITION. The M slot (R209 to R211, R194, R238, R242) and the life of a move: its issue, its last byte leaving its source
(R101, R106, R263) and its completion (R160, R182, R183). -/

namespace Sys2Proof.Machine

/-! ### Move descriptors (R210) -/

structure MoveDesc where
  kind : Nat
  srcArg : Option Nat
  src : Nat
  flagged : Bool
  dstArg : Option Nat
  dst : Nat
  dstCore : Nat
  chan : Nat
  len : Nat
  dstCtr : Option Nat
  srcCtr : Option Nat
deriving DecidableEq, Repr

def moveDescOf (w0 w1 w2 w3 : Nat) : MoveDesc :=
  { kind := bits w0 63 60, srcArg := if bit w0 57 then some (bits w0 56 48) else none, src := bits w0 47 0,
    flagged := bit w1 58, dstArg := if bit w1 57 then some (bits w1 56 48) else none, dst := bits w1 47 0,
    dstCore := bits w2 49 44, chan := bits w2 43 32, len := bits w2 31 0,
    dstCtr := if bit w3 13 then some (bits w3 12 8) else none, srcCtr := if bit w3 5 then some (bits w3 4 0) else none }

/-- The descriptor at an index of the core's move table (R193). -/
def moveDescAt (s : State) (k : CtxCore) (i : Nat) : MoveDesc :=
  let a := k.stream + k.moveOff + 32 * i
  let w (j : Nat) : Nat := leNat (loadBytes s (a + 8 * j) 8)
  moveDescOf (w 0) (w 1) (w 2) (w 3)

/-- SRC and DST with their argument words, modulo 2^48 (R210). -/
def moveSrc (s : State) (k : CtxCore) (d : MoveDesc) : Nat :=
  (d.src + match d.srcArg with
    | some w => argWord s k w
    | none => 0) % 2 ^ 48
def moveDst (s : State) (k : CtxCore) (d : MoveDesc) : Nat :=
  (d.dst + match d.dstArg with
    | some w => argWord s k w
    | none => 0) % 2 ^ 48

/-! ### Where a move may go -/

/-- Whether a near-tier range belongs to a partition (R224, R510). -/
def nearOk (s : State) (p a n : Nat) : Bool :=
  a + n ≤ farBase && ((List.range ((a + n - 1) / 2 ^ 26 - a / 2 ^ 26 + 1)).all fun i =>
    partOfNear s (a / 2 ^ 26 * 2 ^ 26 + i * 2 ^ 26) == p)

/-- Whether every far-window slot of a range may be used by a partition (R242). -/
def farOk (s : State) (p a n : Nat) (wr : Bool) : Bool :=
  farBase ≤ a && a + n ≤ 0x400_0000_0000 &&
    ((List.range ((a + n - 1 - farBase) / 2 ^ 30 - (a - farBase) / 2 ^ 30 + 1)).all fun i =>
      let f := farSlot s ((a - farBase) / 2 ^ 30 + i)
      f.valid && f.part == p && (!wr || f.writable))

/-- The Pond address of an area offset, if the range lies in the area's data part (R232). -/
def pondAddr? (s : State) (p i off n : Nat) : Option Nat :=
  match tfind (part s p).areas i with
  | some r => if off + n ≤ r.data * 2 ^ 20 then some (pondBase i + r.base * 2 ^ 20 + off) else none
  | none => none

/-- Whether a move's kind reads the issuing core's store. -/
def coreSource (kind : Nat) : Bool := kind ≤ 4 || kind == 6 || kind == 8 || kind == 10

/-- The core of the context a neighbour move or a PORT move reaches. -/
def moveCore? (x : Context) (k : CtxCore) (d : MoveDesc) : Option CtxCore :=
  match d.kind with
  | 0 => some k
  | 1 => ctxCore? x (rowOf k.core)
  | 2 => ctxCore? x (colOf k.core)
  | 3 => match x.cores[d.dstCore]? with
    | some q => if q.core / 4 == k.core / 4 then some q else none
    | none => none
  | _ => some k

/-- The data entry a CHANNEL move may use (R211). -/
def moveChan? (x : Context) (k : CtxCore) (d : MoveDesc) : Option ChanEntry :=
  match chanEntry? x d.chan with
  | some e => if !e.barrier && x.sites[e.src]? == some (k.core / 4) then some e else none
  | none => none

/-- The cores that a NEAR_RD's channel reaches: on every site of the entry's destination set the context's core at the issuing
core's local position (R238, R267). DEDUCED, log 11. -/
def readCores (x : Context) (k : CtxCore) (d : MoveDesc) : List Nat :=
  match chanEntry? x d.chan with
  | some e => chanCores x e (lcoreOf x k.core)
  | none => [k.core]

/-- The cores whose counters a move's DST_CTR names, wherever its bytes may go. -/
def moveDstCores (x : Context) (k : CtxCore) (d : MoveDesc) : List Nat :=
  match d.kind with
  | 4 => match moveChan? x k d with
    | some e => chanCores x e d.dstCore
    | none => []
  | 7 => readCores x k d
  | 6 => []
  | 8 => []
  | 10 => []
  | _ => match moveCore? x k d with
    | some q => [q.core]
    | none => []

/-- Whether a NEAR move's channel fits its address (R238). -/
def nearChanOk (x : Context) (k : CtxCore) (d : MoveDesc) (a : Nat) : Bool :=
  d.chan == 0xFFF ||
    match chanEntry? x d.chan with
    | none => false
    | some e =>
      (a + d.len - 1) / 2 ^ 36 == a / 2 ^ 36 &&
        if d.kind == 7 then !e.barrier && x.sites[e.src]? == some (ownerSite a) && (chanDsts x e).any (· == k.core / 4)
        else !e.barrier && x.sites[e.src]? == some (k.core / 4) && (chanDsts x e).any (· == ownerSite a)

/-- The address of a region offset in each of a context's cores. -/
def regionsAt (x : Context) (off : Nat) (cs : List Nat) : List Nat := cs.map fun c => match ctxCore? x c with
  | some q => regionAddr q off
  | none => 0

/-- Absolute source, destinations and destination cores of a move; none where it raises BOUNDS (R194, R224, R232, R238,
R242). A DRAIN's source is not read. -/
def movePlace (s : State) (x : Context) (k : CtxCore) (d : MoveDesc) (drained : Bool) :
    Option (Nat × List Nat × List Nat) :=
  let src := moveSrc s k d
  let dst := moveDst s k d
  let n := d.len
  if src % 32 != 0 || dst % 32 != 0 || n == 0 then none
  else
    let a? : Option Nat :=
      if coreSource d.kind then (if drained || regionOk x src n then some (regionAddr k src) else none)
      else match d.kind with
        | 5 => pondAddr? s x.part (k.core / 4) src n
        | 7 => if nearOk s x.part src n && nearChanOk x k d src then some src else none
        | _ => if farOk s x.part src n false then some src else none
    match a? with
    | none => none
    | some a =>
      match d.kind with
      | 4 => match moveChan? x k d with
        | none => none
        | some e => if regionOk x dst n then some (a, regionsAt x dst (chanCores x e d.dstCore), chanCores x e d.dstCore) else none
      | 7 => if regionOk x dst n then some (a, regionsAt x dst (readCores x k d), readCores x k d) else none
      | 6 => (pondAddr? s x.part (k.core / 4) dst n).map fun b => (a, [b], [])
      | 8 => if nearOk s x.part dst n && nearChanOk x k d dst then some (a, [dst], []) else none
      | 10 => if farOk s x.part dst n true then some (a, [dst], []) else none
      | _ => match moveCore? x k d with
        | none => none
        | some q => if regionOk x dst n then some (a, [regionAddr q dst], [q.core]) else none

/-! ### Requests of a move -/

/-- Cut a range at 256-byte boundaries (R389). -/
def segments : Nat → Nat → Nat → List (Nat × Nat)
  | 0, _, _ => []
  | fuel + 1, a, n =>
    if n = 0 then []
    else
      let m := minNat n (256 - a % 256)
      (a, m) :: segments fuel (a + m) (n - m)

/-- The request for a segment at a module address: to the owning site of a near-tier address, or to the target of its
far-window slot (R238, R241, R384). Inside the module OPERAND0 marks a read that may fill the cache, and OPERAND1 the
poisoned 32-byte units of a store, so that poison is not laundered (R183), or with 1 a read whose data returns on its move's
scheduled channel (R238). DESIGN CHOICE, log 11. -/
def segReq (s : State) (x : Context) (c id type a n : Nat) (cached last : Bool) (data : List Byte) (marks : Nat) : OpenReq :=
  let i := c / 4
  let fn := (x.run.map fun r => r.d.fn).getD 0
  let q := (x.run.map fun r => r.d.qp + 1).getD 0
  let p0 := { blankPacket type with src := ownCoord s, srcSite := i, srcAgent := c, len := n / 32, data := data,
                                    op0 := if cached then 1 else 0 }
  match zoneOf a with
  | .far slot =>
    let f := farSlot s slot
    let r := slotRouteAt s i slot
    { issuer := .move c id, dst := routeEntry r.word 0, outlet := some (routeEntry r.word 0), stamp := 0, fn := fn, qp := q,
      core := c, addr := a, cached := cached, seq := 0, fail := 0, retry := false, paid := false,
      p := { p0 with rlen := r.len, route := r.word, key := f.key, dst := f.coord, op0 := 0,
                     dpa := f.base * 2 ^ 30 + (a - farBase) % 2 ^ 30, flagged := last } }
  | _ =>
    { issuer := .move c id, dst := ownerSite a, outlet := none, stamp := 0, fn := fn, qp := q, core := c, addr := a,
      cached := cached, seq := 0, fail := 0, retry := false, paid := false,
      p := { p0 with key := homeKey s x.part, dst := ownCoord s, dpa := a, op1 := marks } }

/-- Issue one request of a move. -/
def issueReq (s : State) (x : Context) (c id : Nat) (r : OpenReq) : State :=
  originate (modMove s c id fun m => { m with open_ := m.open_ + 1 }) (c / 4) x.part r

/-- Whether the read of an address at a site goes through its cache: another site's stack without a channel, or a cacheable
window, where the partition has a slice (R233, R234). -/
def readsCached (s : State) (x : Context) (c a : Nat) (chan : Nat) : Bool :=
  0 < slicesOf s x.part (c / 4) &&
    match zoneOf a with
    | .near i => i != c / 4 && chan == 0xFFF
    | .far slot => (farSlot s slot).cacheable
    | _ => false

/-- What the Pond's decoders report of a line that its cache holds: an uncorrectable one is discarded (R237), and a corrected error
is one of the Pond (R246). -/
def cacheDecoded (ecc : EccList) (i line : Nat) (s : State) : State :=
  if (cacheGet s i line).isNone then s
  else ecc.foldl (fun s e =>
    if e.1 / 256 != line then s
    else match e.2 with
      | .uncorrectable => if (cacheGet s i line).isSome then cacheUncorrectable s i line else s
      | .corrected => raise (addPairSat s (Reg.memPondCe i) 1) 6 2 (unitNo 0x05 i) (partOfAddr s e.1) e.1 0 (srcPond i)
      | _ => s) s

/-- One line of a cached read: a hit gives its bytes, and a miss, or a line found uncorrectable, fetches the whole line (R234, R237). -/
def readLine (x : Context) (c id : Nat) (ecc : EccList) (s : State) (line : Nat) : State :=
  let i := c / 4
  let s := cacheDecoded ecc i line s
  match cacheGet s i line with
  | some bs =>
    let s := cacheTouch (addPairSat s (Reg.memCacheHit i) 1) i line
    modMove s c id fun m => { m with data := overlay m.src m.data (256 * line) bs }
  | none =>
    issueReq (addPairSat s (Reg.memCacheMiss i) 1) x c id (segReq s x c id 1 (256 * line) 256 true false [] 0)

/-- Send the reads of a move: a line that may fill the cache through it, whole, and else exactly the move's range (R234). -/
def sendReads (s : State) (x : Context) (c id a n chan : Nat) (ecc : EccList) : State :=
  (segments n a n).foldl (fun s g =>
    if readsCached s x c g.1 chan then readLine x c id ecc s (g.1 / 256)
    else issueReq s x c id (segReq s x c id 1 g.1 g.2 false false [] (if chan == 0xFFF then 0 else 1))) s

/-- Send the stores of a move, of which the last of a flagged move is flagged (R397). A request whose data holds a poisoned
byte is not sent toward the far tier, and completes with poison status (R183). -/
def sendWrites (s : State) (x : Context) (c id : Nat) (m : MoveRec) : State :=
  let b := m.dst.headD 0
  let gs := segments m.len b m.len
  gs.foldl (fun s g =>
    let bad := m.poison.any fun o => o < g.1 - b + g.2 && g.1 - b < o + 32
    let r := segReq s x c id 2 g.1 g.2 false (m.flagged && g.1 + g.2 == b + m.len) ((m.data.drop (g.1 - b)).take g.2)
      (maskOf ((List.range 8).filter fun j => m.poison.any fun o => o == g.1 - b + 32 * j && 32 * j < g.2))
    if bad && farBase ≤ g.1 then
      refuseLocal (modMove s c id fun y => { y with open_ := y.open_ + 1 }) (c / 4) (numberReq s (c / 4) r).2 6
    else issueReq s x c id r) s

/-- Whether a move travels as open-class requests (R238). -/
def openMove (c : Nat) (m : MoveRec) : Bool :=
  match m.kind with
  | 7 => ownerSite m.src != c / 4
  | 9 => true
  | 10 => true
  | _ => false

/-- Whether a near-tier store goes to another site without a channel. -/
def remoteStore (c : Nat) (m : MoveRec) (chan : Nat) : Bool :=
  m.kind == 8 && ownerSite (m.dst.headD 0) != c / 4 && chan == 0xFFF

/-- Whether a move's data travels on a scheduled channel (R238, R265). -/
def onChannel (m : MoveRec) : Bool := m.kind == 4 || ((m.kind == 7 || m.kind == 8) && m.chan != 0xFFF)

/-- Whether a move reads or writes its own site's stack through the Pond (R238). -/
def ownStack (c : Nat) (m : MoveRec) : Bool :=
  (m.kind == 7 && !openMove c m) || (m.kind == 8 && !remoteStore c m m.chan && !onChannel m)

/-- The channel entry by which a move's data leaves its site. -/
def outChan? (x : Context) (m : MoveRec) : Option ChanEntry :=
  if m.kind == 4 || (m.kind == 8 && m.chan != 0xFFF) then chanEntry? x m.chan else none

/-- Whether a crossing on a move's way refuses new transfers (R83, R108). -/
def moveRefused (s : State) (c : Nat) (m : MoveRec) : Bool :=
  4 ≤ m.kind && !m.bounds && (crossRefuses s .tarnPond (c / 4) ||
    ((onChannel m || openMove c m || remoteStore c m m.chan) &&
      (crossRefuses s .bundle (c / 4) || crossRefuses s .portTile (c / 4))))

/-! ### Issue -/

/-- Whether an argument word that a move reads at issue is poisoned: a DRAIN's move reads none for its source (R182, R210). -/
def argPoisoned (s : State) (k : CtxCore) (d : MoveDesc) (drained : Bool) : Bool :=
  let bad (w : Option Nat) : Bool := match w with
    | some w => poisonedAt s (regionAddr k (8 * w))
    | none => false
  (!drained && bad d.srcArg) || bad d.dstArg

/-- What the decoders report of the argument words that a move reads at issue (R99, R210). -/
def decodeArgs (s : State) (k : CtxCore) (d : MoveDesc) (drained : Bool) (ecc : EccList) : State :=
  let word (s : State) (w : Option Nat) : State := match w with
    | some w => decodeRegion s k ecc (8 * w) 8
    | none => s
  word (if drained then s else word s d.srcArg) d.dstArg

/-- Issue the move of a descriptor (R209 to R211). A poisoned argument word raises STORE_POISON, and the move goes on with the word
as it stands (DEDUCED, log 10). A move that raises BOUNDS moves no byte and still posts its counters when it
completes (R160, R194). -/
def issueMove (s : State) (x : Context) (k : CtxCore) (no : Nat) (d : MoveDesc) (drained : Option (List Byte × Bool)) (ecc : EccList) :
    State :=
  let c := k.core
  let id := s.nextId
  let s := decodeArgs { s with nextId := id + 1 } k d drained.isSome ecc
  let s := if argPoisoned s k d drained.isSome then latch s c x causeStorePoison 0 else s
  let m0 : MoveRec :=
    { id := id, kind := d.kind, src := 0, dst := [], dstCores := moveDstCores x k d, len := d.len, srcCtr := d.srcCtr, dstCtr := d.dstCtr,
      flagged := d.flagged, chan := d.chan, bounds := true, left := false, data := [], poison := [], storePoison := false, no := no,
      fromA := drained.isSome, stored := false, open_ := 0, bad := .ok }
  match movePlace s x k d drained.isSome with
  | none => latch (modCore s c fun y => { y with moves := y.moves ++ [m0] }) c x causeBounds 0
  | some (a, bs, cs) =>
    let m := { m0 with src := a, dst := bs, dstCores := cs, bounds := false,
                       data := match drained with
                         | some z => z.1
                         | none => List.replicate d.len 0,
                       poison := match drained with
                         | some z => if z.2 then wholePoison d.len else []
                         | none => [] }
    let s := modCore s c fun y => { y with moves := y.moves ++ [m] }
    if moveRefused s c m then s
    else if openMove c m && d.kind != 10 then sendReads s x c id a d.len d.chan ecc
    else if drained.isSome then s
    else decodeRange s ecc a d.len

/-- MOVE (R209, R210), with what the decoders report of the words and lines it reads here (R99, R237, R246). -/
def move (c : Nat) (index : BitVec 16) (ecc : EccList) (s : State) : State :=
  runOp s c .m (.move index) (fun _ => true) fun x k no s =>
    if index.toNat < k.moveCount then issueMove s x k no (moveDescAt s k index.toNat) none ecc else s

def execMove (core : CoreNo) (index : Reads (BitVec 16)) (s : State) : Host.Outcome State Fault Refusal :=
  .next (move core.val index.op index.ecc s)

/-! ### The last byte leaves (R101) -/

def findMove? (s : State) (c id : Nat) : Option MoveRec := (core s c).moves.find? fun m => m.id == id

/-- The header of a data transfer of `n` bytes on a scheduled channel (R265). -/
def chanHdr (x : Context) (m : MoveRec) (loc off n : Nat) (post : Bool) : ChanHdr :=
  { blankHdr 0 x.handle with dstLocal := Fin.ofNat 4 loc, dstOff := off, length := n / 32, ctr := Fin.ofNat 32 (m.dstCtr.getD 0),
                             ctrEn := post && m.dstCtr.isSome, amount := 1 }

/-- The transfer of a move's data on its channel: to the context's cores at one local position (R267), or, for a NEAR_WR, whose header
the spec gives no address, to the site of its stack (R238). DESIGN CHOICE, log 11. -/
def moveTransfer (x : Context) (c : Nat) (m : MoveRec) (e : ChanEntry) : Transfer :=
  let off := match m.dstCores.head?.bind (ctxCore? x) with
    | some q => (m.dst.headD 0 - regionAddr q 0) / 32
    | none => 0
  let near := m.kind == 8
  { id := m.id, core := c, move := some m.id, handle := x.handle,
    hdr := if near then { chanHdr x m 0 0 m.len false with ctr := 0 } else chanHdr x m (m.dstCores.headD 0 % 4) off m.len true,
    data := m.data, poison := m.poison, sites := chanDsts x e,
    dsts := if near then [ownerSite (m.dst.headD 0)] else m.dstCores.map (· / 4), sent := false, upTo := 0, near := near, req := none }

/-- Whether a channel takes a move: every earlier transfer of it has gone out, and it is ready for one more (R263, R266, R282). -/
def chanTakes (s : State) (x : Context) (c : Nat) (m : MoveRec) : Bool :=
  match outChan? x m with
  | none => true
  | some e => (txTransfers s (c / 4) e.chan).all (·.sent) && chanReady s (c / 4) e.chan x.handle (chanDsts x e)

/-- Whether the last byte of a move may leave: an open-class read has all its data, nothing is ahead of it on its link (R106, R107),
its channel takes it, and its stack is awake (R230). -/
def canLeave (s : State) (x : Context) (c : Nat) (m : MoveRec) : Bool :=
  !m.left && !m.bounds && (!(openMove c m && m.kind != 10) || m.open_ == 0) &&
    (match linkOut m.kind with
      | some l => !ahead (core s c) l m.id
      | none => true) &&
    chanTakes s x c m && !(ownStack c m && stackAsleep s (c / 4))

/-- The last byte of a move leaves its source: the bytes are those the source holds now, a poisoned core-store word raises
STORE_POISON (R182), a poisoned Pond or near-tier line is carried along (R183), and the source counter is posted. Stores go
out (R399), a transfer goes on its channel (R265), and posts behind it go on their way. -/
def leaveMove (s : State) (x : Context) (k : CtxCore) (m : MoveRec) : State :=
  let c := k.core
  let keep := m.fromA || openMove c m && m.kind != 10
  let s := if keep || coreSource m.kind then s else noteRead s m.src m.len
  let data := if keep then m.data else loadBytes s m.src m.len
  let pois := if keep then m.poison else poisonUnits s m.src m.len
  let s := if coreSource m.kind && !m.fromA && !pois.isEmpty then latch s c x causeStorePoison 0 else s
  let m := { m with left := true, data := data, poison := pois, storePoison := coreSource m.kind && !m.fromA && !pois.isEmpty,
                    bad := if !coreSource m.kind && !pois.isEmpty && m.bad == .ok then .poison else m.bad }
  let s := modMove s c m.id fun _ => m
  let s := match m.srcCtr with
    | some n => postCounter s x c n 1
    | none => s
  let s := if m.kind == 10 || remoteStore c m m.chan then sendWrites s x c m.id m else s
  let s := match outChan? x m with
    | some e => queueTransfer s (c / 4) e.chan (moveTransfer x c m e)
    | none => s
  sendPosts s c

/-- MOVE_LAST_BYTE_LEFT_SOURCE (R101). -/
def moveLastByteLeftSource (c id : Nat) (s : State) : State :=
  match runCtx? s c, findMove? s c id with
  | some x, some m =>
    match ctxCore? x c with
    | some k => if canLeave s x c m && !moveRefused s c m then leaveMove s x k m else s
    | none => s
  | _, _ => s

def execMoveLastByteLeftSource (core : CoreNo) (id : Nat) (s : State) : Host.Outcome State Fault Refusal :=
  .next (moveLastByteLeftSource core.val id s)

/-! ### Completion (R160) -/

/-- The cause with which a move's status faults its context (R182). -/
def causeOf : XferStatus → Option Nat
  | .poison => some causeMovePoison
  | .crossingReset => some causeCrossing
  | .refused => some causeRefused
  | _ => none

/-- Post the destination counter of a move: in each destination core, or in the issuing core where the move has none (R101). -/
def postDst (s : State) (x : Context) (c : Nat) (m : MoveRec) : State :=
  match m.dstCtr with
  | none => s
  | some n =>
    if m.kind == 6 || m.kind == 8 || m.kind == 10 then postCounter s x c n 1
    else m.dstCores.foldl (fun s d => postCounter s x d n 1) s

/-- A move that ends has no transfer left on a channel. -/
def dropMoveTransfers (s : State) (c : Nat) (m : MoveRec) : State :=
  if !onChannel m then s
  else (List.range 16).foldl (fun s i => modSite s i fun x =>
    { x with txQ := x.txQ.foldl (fun u e => tput [] u e.1 (e.2.filter fun t => !(t.core == c && t.move == some m.id))) [] }) s

/-- A move has ended: its counters are posted, its fault is latched, and it leaves the core's list. A move that raised STORE_POISON
for its source does not raise MOVE_POISON too (R182). -/
def endMove (s : State) (x : Context) (c : Nat) (m : MoveRec) (st : XferStatus) : State :=
  let s := match if m.left then none else m.srcCtr with
    | some n => postCounter s x c n 1
    | none => s
  let s := dropMoveTransfers (postDst s x c m) c m
  let s := match causeOf st with
    | some q => if m.storePoison && st == .poison then s else latch s c x q 0
    | none => s
  sendPosts (runPosts (modCore s c fun y => { y with moves := y.moves.filter fun q => q.id != m.id }) c) c

/-- Write a completed move's bytes at each destination; `true` where part of a poisoned line stayed unwritten. -/
def writeDsts (s : State) (m : MoveRec) : State × Bool :=
  m.dst.foldl (fun r b => let q := writeMem r.1 b m.data m.poison; (q.1, r.2 || q.2)) (s, false)

/-- The path on which a core's moves end in the order of their issue (R106, R107): its links, and through the port the Pond and the
site's stack, for reads and for writes. -/
def pathOf (c : Nat) (m : MoveRec) : Option Nat :=
  if m.kind == 1 || m.kind == 2 || m.kind == 3 || m.kind == 5 || m.kind == 6 || ownStack c m then some m.kind else none

/-- Whether an earlier transfer of a move's path has not arrived. -/
def behindOther (y : CoreState) (c : Nat) (m : MoveRec) : Bool :=
  match pathOf c m with
  | none => false
  | some p => (y.moves.any fun q => q.id < m.id && !q.bounds && pathOf c q == some p) ||
      y.remote.any fun q => q.id < m.id && q.via == p

/-- Whether data of a move on a channel is still on its way: to a core, or to the stack (R160). -/
def onItsWay (s : State) (c : Nat) (m : MoveRec) : Bool :=
  onChannel m && !m.stored && (m.kind == 8 || (List.range 16).any fun i => (site s i).txQ.any fun e =>
    e.2.any fun t => t.core == c && t.move == some m.id)

/-- Whether a move's bytes are written by what carries them. -/
def sentAway (c : Nat) (m : MoveRec) : Bool := m.kind == 10 || remoteStore c m m.chan || onChannel m

/-- MOVE_COMPLETE (R160): the last byte is written and the counters are posted, or the move ends with an error status, which
posts them too (R101). A write to a stack whose lines other sites hold is held until they have dropped them (R235), and the
move goes on waiting. -/
def moveComplete (c id : Nat) (status : XferStatus) (s : State) : State :=
  match runCtx? s c, findMove? s c id with
  | some x, some m0 =>
    match ctxCore? x c with
    | none => s
    | some k =>
      if m0.bounds then endMove s x c m0 .ok
      else if !m0.left && m0.open_ == 0 && moveRefused s c m0 then endMove s x c m0 .crossingReset
      else if m0.bad != .ok && m0.bad != .poison && m0.open_ == 0 then endMove s x c m0 m0.bad
      else if status != .ok && status != .poison then endMove s x c m0 status
      else if behindOther (core s c) c m0 || (ownStack c m0 && stackAsleep s (c / 4)) then s
      else if !m0.left && (!canLeave s x c m0 || (sentAway c m0 && m0.kind != 7)) then s
      else
        let s1 := if m0.left then s else leaveMove s x k m0
        match findMove? s1 c id with
        | none => s1
        | some m1 =>
          let m := if status == .poison && m1.poison.isEmpty && m1.bad == .ok then
              { m1 with bad := .poison, poison := wholePoison m1.len } else m1
          if m.open_ != 0 || onItsWay s1 c m then s
          else if sentAway c m || m.stored then endMove s1 x c m m.bad
          else
            let w := if m.kind == 8 then sharersOf s1 (m.dst.headD 0) m.len else []
            if !w.isEmpty then
              let fn := (x.run.map fun r => r.d.fn).getD 0
              holdWrite (modMove s1 c id fun y => { y with open_ := 1 })
                { addr := m.dst.headD 0, data := m.data, poison := m.poison, waiting := w, reply := none,
                  issuer := .move c id } fn ((x.run.map fun r => r.d.qp + 1).getD 0) c
            else
              let r := writeDsts s1 m
              endMove r.1 x c m (if m.bad == .ok && r.2 then .poison else m.bad)
  | _, _ => s

def execMoveComplete (core : CoreNo) (id : Nat) (status : XferStatus) (s : State) : Host.Outcome State Fault Refusal :=
  .next (moveComplete core.val id status s)

end Sys2Proof.Machine
end

