-- ==== Sys2Proof/Machine/Queues.lean ====
section
/-! DEFINITION. Queue pairs, completions, event rings and DMA channels (R435 to R457, R461 to R468, R484 to R486). -/

namespace Sys2Proof.Machine

/-! ### Event rings (R484 to R486) -/

def setMbFlag (w : MbWindow) (b : Nat) : MbWindow := { w with flags := BitVec.ofNat 32 (setBit w.flags.toNat b true) }

/-- Set a mailbox flag that stays through a clear of the same tick (R19). The window's flags stand at 2^41 plus its number among
the flags set now. -/
def raiseMb (s : State) (n b : Nat) : State :=
  { modWin s n fun w => setMbFlag w b with flagsNow := tmod 0 s.flagsNow (2 ^ 41 + n) fun v => setBit v b true }

/-- Write an event at a ring's tail. -/
def evtWrite (s : State) (fn : Nat) (ws : List Nat) : State :=
  let w := win s fn
  if w.ringSize == 0 || (w.evtTail + 1) % w.ringSize == w.evtHead then
    raiseMb (putWin s fn { w with evtLost := satAdd 32 w.evtLost 1 }) fn 3
  else
    let s := hostWrite s fn (w.ringBase + 64 * w.evtTail) (wordBytes (withTag ws 0 w.ringTag))
    let next := (w.evtTail + 1) % w.ringSize
    let s := putWin s fn { w with evtTail := next, ringTag := if next == 0 then !w.ringTag else w.ringTag }
    msix s fn 0

/-- Firmware writes an event: it waits for Bus Master Enable like every other write (R443). -/
def deliverEvent (s : State) (fn : Nat) (ws : List Nat) : State :=
  if (win s fn).ringSize == 0 || mayMaster s fn then evtWrite s fn ws
  else modWin s fn fun w => { w with blocked := w.blocked ++ [ws] }

/-- An event for a function. In a gap it waits for the new Weir (R556); with no Weir at all nothing writes it (R558). -/
def event (s : State) (fn type part : Nat) (words : List Nat) : State :=
  let ws := [type + part * 2 ^ 8, s.time.now] ++ words
  let ws := ws ++ List.replicate (8 - ws.length) 0
  if s.weir.gap.isSome then { s with weir := { s.weir with owed := s.weir.owed ++ [(fn, ws)] } }
  else if weirServes s then deliverEvent s fn ws else s

/-- The events of a gap are written once it has ended. -/
def writeOwed (s : State) : State :=
  s.weir.owed.foldl (fun s e => deliverEvent s e.1 e.2) { s with weir := { s.weir with owed := [] } }

def evtFlush (s : State) (fn : Nat) : State :=
  let ws := (win s fn).blocked
  ws.foldl (fun s w => evtWrite s fn w) (modWin s fn fun w => { w with blocked := [] })

/-- The function whose ring takes a partition's events: the VF bound to it, or PF0 (R486). -/
def partFn (s : State) (p : Nat) : Nat := ((part s p).vf).getD 0

/-- An event that concerns a partition. -/
def partEvent (s : State) (p type : Nat) (words : List Nat) : State := event s (partFn s p) type p words

/-- POISON_NOTICE (R248): once the combiner has resolved the tick, the oldest notice owed goes to its partition's ring. -/
def poisonNotice (s : State) : State :=
  match s.faults.notices with
  | [] => s
  | n :: ns =>
    if s.faults.nextTick ≤ n.tick || !weirServes s then s
    else partEvent { s with faults := { s.faults with notices := ns } } n.part n.type n.words

def execPoisonNotice (s : State) : Host.Outcome State Fault Refusal := .next (poisonNotice s)

/-! ### Fetching (R441, R443) -/

/-- The partition of a function's own objects (R533): none for PF0. -/
def fnPart (s : State) (fn : Nat) : Nat := if fn == 0 then 0xFF else partOfVf s fn

def qpErrorState (s : State) (n : Nat) : State :=
  let s := modQp s n fun q => { q with mode := 2, fetchError := true }
  let s := raiseFlag s Reg.queueFlags 2
  raise s 14 2 (unitNo 0x15 n) (fnPart s (qp s n).owner) n 0 srcHost

/-- SQ_FETCH (R441, R443): the next entry of an SQ arrives and is stamped, or the failed read puts the queue pair in error. -/
def sqFetch (n : Nat) (r : SqRead) (s : State) : State :=
  let q := qp s n
  if q.mode != 1 || !mayMaster s q.owner || q.fetchPos == q.tail then s
  else
    match r with
    | .entry ws =>
      putQp s n { q with fetched := q.fetched ++ [{ words := ws, seq := q.nextSeq, stamp := copyTick s copyHost, status := 0, cq := n }],
                         nextSeq := q.nextSeq + 1, fetchPos := (q.fetchPos + 1) % sqSize q }
    | _ => qpErrorState s n

def execSqFetch (qp : QpNo) (r : SqRead) (s : State) : Host.Outcome State Fault Refusal := .next (sqFetch qp.val r s)

/-! ### The fields of an SQ entry (R444) -/

def eWord (e : SqEntry) (i : Nat) : Nat := ((e.words[i]?).getD 0).toNat
def eType (e : SqEntry) : Nat := bits (eWord e 0) 7 0
def eFence (e : SqEntry) : Bool := bit (eWord e 0) 8
def eCq (e : SqEntry) : Nat := bits (eWord e 0) 33 16
def eTag (e : SqEntry) : Nat := eWord e 1
def eContext (e : SqEntry) : Nat := bits (eWord e 0) 63 48
def eArgDpa (e : SqEntry) : Nat := bits (eWord e 2) 47 0
def eArgLen (e : SqEntry) : Nat := bits (eWord e 3) 12 0
def eDir (e : SqEntry) : Bool := bit (eWord e 0) 9
def eHost (e : SqEntry) : Nat := eWord e 2
def eDpa (e : SqEntry) : Nat := bits (eWord e 3) 47 0
def eLen (e : SqEntry) : Nat := bits (eWord e 4) 31 0

/-- Whether an entry's reserved bits are zero and its fields lie in range and alignment (check 2 of R445). -/
def entryFormed (e : SqEntry) : Bool :=
  match eType e with
  | 1 => bits (eWord e 0) 15 9 == 0 && bits (eWord e 0) 47 34 == 0 && bits (eWord e 2) 63 48 == 0 &&
      bits (eWord e 3) 63 13 == 0 && eArgLen e ≤ 4096 && eArgLen e % 8 == 0 &&
      (eArgLen e == 0 || eArgDpa e % 8 == 0) && eWord e 4 == 0 && eWord e 5 == 0 && eWord e 6 == 0 && eWord e 7 == 0
  | 2 => bits (eWord e 0) 15 10 == 0 && bits (eWord e 0) 63 34 == 0 && eHost e % 64 == 0 && bits (eWord e 3) 63 48 == 0 &&
      eDpa e % 64 == 0 && bits (eWord e 4) 63 32 == 0 && eLen e % 64 == 0 && eLen e != 0 && eWord e 5 == 0 &&
      eWord e 6 == 0 && eWord e 7 == 0
  | 3 => bits (eWord e 0) 15 9 == 0 && bits (eWord e 0) 63 34 == 0 && eWord e 2 == 0 && eWord e 3 == 0 &&
      eWord e 4 == 0 && eWord e 5 == 0 && eWord e 6 == 0 && eWord e 7 == 0
  | _ => false

/-- The partition a function serves: any for PF0 (R434). -/
def serves (s : State) (fn p : Nat) : Bool := fn == 0 || (p != 0xFF && partOfVf s fn == p)

/-- The context check of R178: resident, of a partition the function serves, and not of one being destroyed (R524). -/
def contextFor (s : State) (fn h : Nat) : Bool :=
  match ctx? s h with
  | some x => !x.removing && serves s fn x.part && (part s x.part).mode != .destroying
  | none => false

/-- Whether every 64 MiB unit of a near-tier range is one of a partition's. -/
def nearRange (s : State) (p a n : Nat) : Bool :=
  n != 0 && a + n ≤ farBase && (List.range ((a + n - 1) / 2 ^ 26 - a / 2 ^ 26 + 1)).all fun i =>
    tget false (part s p).units (a / 2 ^ 26 + i)

/-- Whether every slot of a far-window range may be used by a function (R242, R452). -/
def farRange (s : State) (fn a n : Nat) (wr : Bool) : Bool :=
  farBase ≤ a && a + n ≤ 0x400_0000_0000 && (List.range ((a + n - 1 - farBase) / 2 ^ 30 - (a - farBase) / 2 ^ 30 + 1)).all fun i =>
    let f := farSlot s ((a - farBase) / 2 ^ 30 + i)
    f.valid && (fn == 0 || f.part == partOfVf s fn) && (!wr || f.writable)

/-- Whether an aperture range is one PF0 may reach: not the cache part of a Pond (R223, R452). -/
def apertureRange (s : State) (a n : Nat) : Bool :=
  match zoneOf a with
  | .pond i => zoneOf (a + n - 1) == .pond i && a + n - 1 - pondBase i < pondScratch s i
  | .core c => (match zoneOf (a + n - 1) with
    | .core d => c ≤ d
    | _ => false)
  | _ => false

/-- Where a function's copies may reach (R452). -/
def reach (s : State) (fn a n : Nat) (wr : Bool) : Bool :=
  match zoneOf a with
  | .near _ => if fn == 0 then a + n ≤ farBase else nearRange s (partOfVf s fn) a n
  | .far _ => farRange s fn a n wr
  | _ => fn == 0 && apertureRange s a n

/-- The status of the first failed check of R445, 0 where all pass; and the CQ that takes the completion. -/
def entryCheck (s : State) (n : Nat) (e : SqEntry) : Nat × Nat :=
  let fn := (qp s n).owner
  let c := qp s (eCq e)
  if c.mode == 0 || c.owner != fn then (0x06, n)
  else if !entryFormed e then (0x0D, eCq e)
  else if eType e == 1 then
    if !contextFor s fn (eContext e) then (0x06, eCq e)
    else if eArgLen e != 0 && !(eArgDpa e + eArgLen e ≤ farBase &&
        (fn == 0 || nearRange s (partOfVf s fn) (eArgDpa e) (eArgLen e))) then (0x08, eCq e)
    else (0, eCq e)
  else if eType e == 2 then
    if reach s fn (eDpa e) (eLen e) (!eDir e) then (0, eCq e) else (0x08, eCq e)
  else (0, eCq e)

/-! ### Starting accepted entries (R442) -/

/-- Whether the head of an SQ's accepted entries may start: a fenced entry waits for every earlier one (R442). -/
def mayStart (q : QpState) (e : SqEntry) : Bool := !eFence e || q.open_.all fun n => e.seq ≤ n

/-- The head accepted entry, where it is of a type and may start: a copy or NOP waits until a DISPATCH before it has its slot. -/
def headOf (s : State) (n type : Nat) : Option SqEntry :=
  let q := qp s n
  match q.accepted with
  | e :: _ => if eType e == type && mayStart q e && (type == 1 || !s.startReqs.any fun r => r.d.qp == n) then some e else none
  | [] => none

def dropHead (s : State) (n : Nat) : State := modQp s n fun q => { q with accepted := q.accepted.drop 1 }

/-- QUEUE_NOP (R444): completes with OK as soon as it starts. -/
def queueNop (n : Nat) (s : State) : State :=
  match headOf s n 3 with
  | none => s
  | some e => complete (dropHead s n) e.seq e.cq (Cpl.plain (eTag e) 0 n)

def execQueueNop (qp : QpNo) (s : State) : Host.Outcome State Fault Refusal := .next (queueNop qp.val s)

/-- DISPATCH (R178): the entry asks for a context-start slot in this tick, or completes with REFUSED where its context is no
longer one the function may use. -/
def dispatch (n : Nat) (s : State) : State :=
  match headOf s n 1 with
  | none => s
  | some e =>
    let fn := (qp s n).owner
    let s := dropHead s n
    if !contextFor s fn (eContext e) then complete s e.seq e.cq (Cpl.plain (eTag e) 0x06 n)
    else
      let d : Dispatch := { qp := n, seq := e.seq, fn := fn, tag := eTag e, cq := e.cq, argDpa := eArgDpa e,
                            argLen := eArgLen e, granted := tickOf s }
      { s with startReqs := s.startReqs ++ [{ handle := eContext e, d := d }] }

def execDispatch (qp : QpNo) (s : State) : Host.Outcome State Fault Refusal := .next (dispatch qp.val s)

/-! ### DMA channels -/

/-- COPY (R442, R450): the entry is queued on its queue pair's channel. -/
def copy (n : Nat) (s : State) : State :=
  match headOf s n 2 with
  | none => s
  | some e =>
    let q := qp s n
    let s := dropHead s n
    let r : CopyRec :=
      { qp := n, seq := e.seq, fn := q.owner, cq := e.cq, tag := eTag e, toHost := eDir e, host := eHost e, dpa := eDpa e,
        len := eLen e, moved := 0, tStart := none, crossing := false, refused := none, poison := false, bounds := false,
        held := 0, err := none, id := s.nextId }
    let d := dmaCh s q.channel
    dmaStat (putDma { s with nextId := s.nextId + 1 } q.channel { d with copies := d.copies ++ [r] }) q.channel

def execCopy (qp : QpNo) (s : State) : Host.Outcome State Fault Refusal := .next (copy qp.val s)

/-- Bursts that a channel may take in a round (R451). -/
def dmaQuota (s : State) (ch : Nat) : Nat := 2 ^ field s (Reg.dmaCtl ch) 2 1

/-- Whether the rounds let a channel take a burst: it has some of its share left, or every other channel of its direction that
runs has used its own, and a new round begins (R451). -/
def dmaTurn (s : State) (ch : Nat) (toHost : Bool) : Bool × Bool :=
  if (dmaCh s ch).inRound < dmaQuota s ch then (true, false)
  else
    let others := s.dma.filter fun e => e.1 != ch && dmaRuns s e.1 && ((e.2.copies.head?.map (·.toHost)) == some toHost) &&
      e.2.inRound < dmaQuota s e.1
    (others.isEmpty, true)

/-- Begin a new round of a direction. -/
def dmaRound (s : State) (toHost : Bool) : State :=
  s.dma.foldl (fun s e => if (e.2.copies.head?.map (·.toHost)) == some toHost then
    putDma s e.1 { dmaCh s e.1 with inRound := 0 } else s) s

/-- The length of a copy's next burst: up to 4 KiB within a 4 KiB block of host memory (R450). A burst also ends where the core
store, Pond, stack or far-window slot that it works on ends, so that one owner answers for it: DESIGN CHOICE, log 24. -/
def burstLen (r : CopyRec) : Nat :=
  minNat (minNat (r.len - r.moved) (4096 - (r.host + r.moved) % 4096)) (2 ^ 25 - (r.dpa + r.moved) % 2 ^ 25)

/-- The fabric requests of a far-window burst, of at most 256 bytes each, with the slot's route and key (R389, R452). They issue at the
site of the slot's first Outlet, for the function's partition; PF0, which serves every partition, acts for the slot's. DESIGN CHOICE,
log 24. -/
def farBurst (s : State) (ch : Nat) (r : CopyRec) (a n : Nat) (data : List Byte) : State :=
  let slot := (a - farBase) / 2 ^ 30
  let f := farSlot s slot
  let i := routeEntry (tget noRoute s.fabric.slotRoutes slot).word 0
  let rt := slotRouteAt s i slot
  let t := f.base * 2 ^ 30 + (a - farBase) % 2 ^ 30
  let part := if r.fn == 0 then f.part else partOfVf s r.fn
  let req (g : Nat × Nat) : OpenReq :=
    { issuer := .copy ch r.id, dst := i, outlet := some i, stamp := 0, fn := r.fn, qp := r.qp + 1, core := 0, addr := a + g.1,
      cached := false, seq := 0, fail := 0, retry := false, paid := false,
      p := { blankPacket (if r.toHost then 1 else 2) with
             rlen := rt.len, route := rt.word, key := f.key, dst := f.coord, dpa := t + g.1, src := ownCoord s, srcSite := i,
             srcAgent := 0x40, len := g.2 / 32, data := if r.toHost then [] else (data.drop g.1).take g.2 } }
  if !hasCoord s || rt.len == 0 then modCopy s ch fun r => { r with refused := some (r.refused.getD 3) }
  else
    ((List.range ((n + 255) / 256)).map fun j => (256 * j, minNat 256 (n - 256 * j))).foldl (fun s g =>
      originate (modCopy s ch fun r => { r with held := r.held + 1 }) i part (req g)) s

/-- The device side of a burst: the bytes it gives a host write, or takes from a host read. A burst that writes a stack whose
lines other sites hold waits for them (R235). -/
def burstDevice (s : State) (ch : Nat) (r : CopyRec) (n : Nat) (host : List Byte) (ecc : EccList) : State :=
  let a := r.dpa + r.moved
  if r.toHost then
    let s := noteRead (decodeRange s ecc a n) a n
    let bs := loadBytes s a n
    let ps := poisonUnits s a n
    let bs := (List.range n).zip bs |>.map fun t => if ps.any fun o => o / 64 == t.1 / 64 then 0 else t.2
    let s := hostWrite s r.fn (r.host + r.moved) bs
    if ps.isEmpty then s else modCopy s ch fun r => { r with poison := true }
  else
    let bs := (List.range n).map fun i => host.getD i 0
    let w := sharersOf s a n
    if w.isEmpty then (writeMem s a bs []).1
    else holdWrite (modCopy s ch fun r => { r with held := r.held + 1 })
      { addr := a, data := bs, poison := [], waiting := w, reply := none, issuer := .copy ch r.id } r.fn (r.qp + 1) 0

/-- Whether a crossing on the way of a burst refuses it: the host interface's, the Pond's, or a core store's into its Pond (R83). -/
def burstRefused (s : State) (a : Nat) : Bool :=
  crossRefuses s .hostTile 0 || match zoneOf a with
    | .near i | .pond i => crossRefuses s .pondTile i
    | .core c => crossRefuses s .pondTile (c / 4) || crossRefuses s .tarnPond (c / 4)
    | _ => false

/-- Whether a burst's stack is in self refresh: it waits (R230). -/
def burstSleeps (s : State) (a : Nat) : Bool :=
  match zoneOf a with
  | .near i => stackAsleep s i
  | _ => false

/-- The burst in progress on a channel moves its bytes: one whose crossing refuses it moves none, and one for the far tier goes out as
fabric requests. -/
def moveBurst (s : State) (ch : Nat) (r : CopyRec) (host : List Byte) (ecc : EccList) : State :=
  let n := burstLen r
  let a := r.dpa + r.moved
  let far := farBase ≤ a && a < 0x400_0000_0000
  if far && !farRange s r.fn a n (!r.toHost) then modCopy s ch fun r => { r with bounds := true }
  else
    let s :=
      if burstRefused s a then modCopy s ch fun r => { r with crossing := true }
      else if far then farBurst s ch r a n host
      else burstDevice s ch r n host ecc
    modCopy (addPairSat s (Reg.dmaBytes ch) n) ch fun r => { r with moved := r.moved + n }

/-- DMA_BURST_COMPLETE (R450 to R453): the burst in progress on a channel completes on the host's side; `host` holds the bytes read from
host memory, and `ecc` what the decoders report of the lines that it reads (R246). The completion follows the last burst, once every
access is answered. -/
def dmaBurstComplete (ch : Nat) (host : List Byte) (ecc : EccList) (s : State) : State :=
  match (dmaCh s ch).copies with
  | [] => s
  | r :: _ =>
    let turn := dmaTurn s ch r.toHost
    if !dmaRuns s ch || !turn.1 || r.moved == r.len || r.bounds || r.err.isSome || burstSleeps s (r.dpa + r.moved) then s
    else
      let s := if turn.2 then dmaRound s r.toHost else s
      let s := putDma s ch { dmaCh s ch with inRound := (dmaCh s ch).inRound + 1 }
      let s := modCopy s ch fun r => { r with tStart := some (r.tStart.getD s.time.now) }
      copyProgress (moveBurst s ch r host ecc) ch

def execDmaBurstComplete (ch : ChanNo) (host : List Byte) (lines words : EccList) (s : State) :
    Host.Outcome State Fault Refusal := .next (dmaBurstComplete ch.val host (lines ++ words) s)

def hostErrNo : HostErr → Nat
  | .ur => 0 | .ca => 1 | .cto => 2 | .poisoned => 3 | .bmeClear => 4

/-- Firmware's notice to PF0's ring (R455). -/
def haltNotice (s : State) (ch : Nat) : State :=
  event s 0 2 0xFF [ch, reg s (Reg.dmaErrinfo ch), reg s (Reg.dmaErraddr ch)]

/-- DMA_HALT (R455): the failing burst writes nothing, the error is latched, the channel halts, and the copy completes with BUS_ERROR once
the bursts already issued have completed. -/
def dmaHalt (ch : Nat) (cause : HostErr) (s : State) : State :=
  match (dmaCh s ch).copies with
  | [] => s
  | r :: _ =>
    if !dmaRuns s ch || r.moved == r.len || r.bounds || r.err.isSome then s
    else
      let s := addPairSat s (Reg.dmaErrors ch) 1
      let info := 2 ^ 31 + (if r.toHost then 2 ^ 30 else 0) + hostErrNo cause * 2 ^ 27 + r.fn
      let s := if regBit s (Reg.dmaErrinfo ch) 31 then raiseFlag s (Reg.dmaFlags ch) 1
        else putReg (putReg s (Reg.dmaErrinfo ch) info) (Reg.dmaErraddr ch) (r.host + r.moved)
      let s := raiseFlag s (Reg.dmaFlags ch) 0
      let s := raise s 14 1 (unitNo 0x14 ch) 0xFF (reg s (Reg.dmaErrinfo ch)) 0 srcHost
      let s := modCopy s ch fun r => { r with err := some (hostErrNo cause), tStart := some (r.tStart.getD s.time.now) }
      haltNotice (dmaStat (copyProgress s ch) ch) ch

def execDmaHalt (ch : ChanNo) (cause : HostErr) (s : State) : Host.Outcome State Fault Refusal :=
  .next (dmaHalt ch.val cause s)

/-- COALESCING_TIMEOUT (R449): the oldest unreported entry of a CQ is older than the coalescing time. -/
def coalescingTimeout (n : Nat) (s : State) : State :=
  let q := qp s n
  match q.oldest with
  | none => s
  | some t => if q.mode != 0 && t + 1000 * q.coalTime < s.time.now then cqInterrupt s n else s

def execCoalescingTimeout (qp : QpNo) (s : State) : Host.Outcome State Fault Refusal := .next (coalescingTimeout qp.val s)

end Sys2Proof.Machine
end

