-- ==== Sys2Proof/Machine/Mbox.lean ====
section
/-! DEFINITION. How firmware takes and answers mailbox requests (R471 to R481, R487): the checks that precede every command,
the parameters, the answer, and activities. -/

namespace Sys2Proof.Machine

/-! ### Status codes (R479) -/

def stOk : Nat := 0x00
def stBusy : Nat := 0x01
def stRetry : Nat := 0x02
def stMalformed : Nat := 0x03
def stUnknown : Nat := 0x04
def stNotPermitted : Nat := 0x05
def stRefused : Nat := 0x06
def stNoResource : Nat := 0x07
def stInFlight : Nat := 0x08
def stNotRunning : Nat := 0x09
def stAccepted : Nat := 0x0A
def stQueued : Nat := 0x0B
def stNotErased : Nat := 0x0C
def stAbandoned : Nat := 0x0D
def stNotFound : Nat := 0x0E
def stSealed : Nat := 0x0F
def stVerifyFailed : Nat := 0x10
def stInUse : Nat := 0x11
def stBounds : Nat := 0x12
def stNotReady : Nat := 0x13
def stCap : Nat := 0x14

/-- An answer: status, detail and result bytes. -/
structure Ans where
  status : Nat
  detail : Nat
  data : List Byte
deriving DecidableEq, Repr

def Ans.of (status : Nat) : Ans := { status := status, detail := 0, data := [] }
def Ans.det (status detail : Nat) : Ans := { status := status, detail := detail, data := [] }
def Ans.ok (data : List Byte) : Ans := { status := stOk, detail := 0, data := data }

/-! ### The response area (R474, R477) -/

/-- The words of a byte list, the last one filled with zeros. -/
def wordsOf : Nat → List Byte → List Nat
  | 0, _ => []
  | n + 1, bs => if bs.isEmpty then [] else leNat (bs.take 4) :: wordsOf n (bs.drop 4)

/-- The response area with an answer: the words after the results read 0. DESIGN CHOICE, log 14. -/
def respArea (seq : Nat) (a : Ans) (tick : Nat) : Table Nat :=
  let bs := a.data.take 1008
  let ws := [seq % 65536 + a.status * 65536, a.detail % 2 ^ 32, bs.length, tick % 2 ^ 32] ++ wordsOf 256 bs
  ((List.range ws.length).zip ws).foldl (fun t w => tput 0 t w.1 w.2) []

/-- Answer a request: the response, the state and vector 0 of its function (R477). -/
def respond (s : State) (r : MbReq) (a : Ans) : State :=
  let s := { s with mbReqs := s.mbReqs.filter fun q => !(q.fn == r.fn && q.seq == r.seq && q.tick == r.tick) }
  let s := modWin s r.fn fun w =>
    { w with resp := respArea r.seq a r.commit, mode := if a.status == stRetry then 3 else 2, seq := r.seq }
  msix s r.fn 0

/-- The answer of a request that was never committed: the tick of its commit is a free value. DESIGN CHOICE, log 5. -/
def respondUncommitted (s : State) (r : MbReq) (a : Ans) : State :=
  respond { s with freeCount := s.freeCount + 1 } { r with commit := (Config.freeValue s.freeCount).toNat } a

/-- Mark a request as committed and applied, its answer waiting for a later event that `arg` names. -/
def waitAnswer (s : State) (r : MbReq) (arg : Nat) : State :=
  { s with mbReqs := s.mbReqs.map fun q =>
      if q.fn == r.fn && q.seq == r.seq && q.tick == r.tick then { q with commit := r.commit, executed := true, arg := arg } else q }

/-- Put a waiting request's end into its `arg`, above the argument, while no Weir serves. -/
def endedArg (arg : Nat) (a : Ans) : Nat := arg % 2 ^ 64 + 2 ^ 64 * (1 + a.status + 256 * (a.detail % 2 ^ 32))

/-- The argument of a waiting request, and its end where it has one. The results of an ended STEP_MODULE are its argument, the
commit count (R496); no other command that waits has results when it ends. -/
def endOf (q : MbReq) : Option Ans :=
  if q.arg < 2 ^ 64 then none
  else
    let e := q.arg / 2 ^ 64 - 1
    some { status := e % 256, detail := e / 256,
           data := if q.opcode == 0x51 && e % 256 == stOk then leBytes 8 (q.arg % 2 ^ 64) else [] }

/-- Answer every waiting request of an opcode and argument: at once while a Weir serves, else once one does (R480, R481). -/
def answerWaiting (s : State) (opcode arg : Nat) (a : Ans) : State :=
  let hit (q : MbReq) : Bool := q.executed && q.opcode == opcode && q.arg == arg
  if weirServes s then (s.mbReqs.filter hit).foldl (fun s q => respond s q a) s
  else { s with mbReqs := s.mbReqs.map fun q => if hit q then { q with arg := endedArg q.arg a } else q }

/-- Answer the waiting requests that ended while no Weir served (R481). -/
def answerEnded (s : State) : State :=
  s.mbReqs.foldl (fun s q => match endOf q with
    | some a => respond s q a
    | none => s) s

/-! ### Firmware's order (R476, R488) -/

/-- The opcodes of R488. -/
def opcodes : List Nat :=
  [0x01, 0x02, 0x03, 0x04, 0x10, 0x11, 0x12, 0x13, 0x14, 0x15, 0x16, 0x17, 0x20, 0x21, 0x22, 0x23, 0x24, 0x25, 0x30, 0x31,
   0x32, 0x33, 0x38, 0x39, 0x3A, 0x40, 0x41, 0x42, 0x43, 0x44, 0x45, 0x46, 0x47, 0x48, 0x49, 0x50, 0x51, 0x58, 0x59, 0x5A,
   0x60, 0x61, 0x70, 0x71, 0x72]

/-- The commands that a VF may issue. -/
def vfOpcodes : List Nat := [0x01, 0x02, 0x17, 0x30, 0x31, 0x32, 0x33, 0x38, 0x39]

/-- `PARAM_LEN` of a command (R488): none where its parameters do not fix it. -/
def paramLen? (op : Nat) : Option Nat :=
  match op with
  | 0x01 => some 0 | 0x02 => some 12 | 0x03 => some 8 | 0x04 => some 7 | 0x10 => some 10 | 0x11 => some 1 | 0x12 => some 3
  | 0x13 => some 18 | 0x14 => some 9 | 0x15 => none | 0x16 => some 1 | 0x17 => some 1 | 0x20 => some 2 | 0x21 => some 6
  | 0x22 => some 4 | 0x23 => some 2 | 0x24 => some 14 | 0x25 => some 2 | 0x30 => some 33 | 0x31 => some 2 | 0x32 => some 2
  | 0x33 => some 2 | 0x38 => some 27 | 0x39 => some 4 | 0x3A => some 7 | 0x40 => some 9 | 0x41 => some 2 | 0x42 => some 0
  | 0x43 => some 8 | 0x44 => some 8 | 0x45 => some 8 | 0x46 => some 0 | 0x47 => some 0 | 0x48 => some 2 | 0x49 => some 2
  | 0x50 => some 9 | 0x51 => some 1 | 0x58 => some 1 | 0x59 => some 1 | 0x5A => some 1 | 0x60 => some 5 | 0x61 => some 0
  | 0x70 => some 9 | 0x71 => some 17 | 0x72 => some 2 | _ => none

/-- `PARAM_LEN` fits the command: PART_EGRESS takes its partition, COUNT and COUNT entries of 16 bytes. -/
def paramOk (r : MbReq) : Bool :=
  match paramLen? r.opcode with
  | some n => r.paramLen == n
  | none => 2 ≤ r.paramLen && r.paramLen == 2 + 16 * ((r.params[1]?).getD 0).toNat

/-- Whether a command carries a PARTITION parameter in its first byte that a VF's binding replaces (R487). -/
def namesPartition (op : Nat) : Bool := op == 0x17 || op == 0x30

def moduleReady (s : State) : Bool := regBit s Reg.globalStat 5

/-- The checks that come before a command's own: the header, the opcode, the issuer, readiness, `PARAM_LEN` and, for a VF, its
binding. The spec gives them no order; DEDUCED, log 14. -/
def precheck (s : State) (r : MbReq) : Option Ans :=
  if 1008 < r.paramLen then some (.det stMalformed 4)
  else if r.badAt != 0 then some (.det stMalformed r.badAt)
  else if !opcodes.any (· == r.opcode) then some (.of stUnknown)
  else if r.fn != 0 && !vfOpcodes.any (· == r.opcode) then some (.of stNotPermitted)
  else if !moduleReady s && r.opcode != 0x01 && r.opcode != 0x03 then some (.of stNotReady)
  else if !paramOk r then some (.det stMalformed 4)
  else if r.fn != 0 && namesPartition r.opcode && partOfVf s r.fn == 0xFF then some (.of stNotPermitted)
  else none

/-- Bytes of a request's parameters, little-endian. -/
def param (r : MbReq) (off n : Nat) : Nat := leNat ((r.params.drop off).take n)

/-- The partition a request acts for: the bound one for a VF, else the byte at an offset. -/
def paramPart (s : State) (r : MbReq) (off : Nat) : Nat := if r.fn == 0 then param r off 1 else partOfVf s r.fn

/-- The answer MALFORMED for the parameter at an offset. -/
def badParam (off : Nat) : Ans := .det stMalformed (0x10 + off)

/-- Answer the requests at the head of firmware's order that no command's own checks see. -/
def settleHead : Nat → State → State
  | 0, s => s
  | fuel + 1, s =>
    match s.mbReqs.find? fun q => !q.executed with
    | none => s
    | some r => match precheck s r with
      | some a => settleHead fuel (respond { s with weir := { s.weir with journal := s.weir.journal + 1 } } { r with commit := tickOf s } a)
      | none => s

/-- Firmware executes the oldest accepted request, if it is of the command's opcode: it is committed, which appends to the
journal (R477, R554), and `f` answers it or leaves it waiting. While no Weir serves, requests stay pending (R480). -/
def execReq (s : State) (opcode : Nat) (f : MbReq → State → State) : State :=
  if !weirServes s then s
  else
    let s := settleHead 16 s
    match s.mbReqs.find? fun q => !q.executed with
    | none => s
    | some r =>
      if r.opcode != opcode then s
      else f { r with commit := tickOf s } { s with weir := { s.weir with journal := s.weir.journal + 1 } }

/-- An immediate command: an answer and the state after it. -/
def execNow (s : State) (opcode : Nat) (f : MbReq → State → State × Ans) : State :=
  execReq s opcode fun r s => let q := f r s; respond q.1 r q.2

/-- A request that finds a resource exhausted: RETRY where a request of the same tick took the last, else NO_RESOURCE (R476). -/
def exhausted (s : State) (r : MbReq) (kind : Nat) : Ans :=
  if tget 0 s.taken kind == r.tick + 1 then .of stRetry else .of stNoResource

/-- A request takes one of a resource. -/
def take (s : State) (r : MbReq) (kind : Nat) : State := { s with taken := tput 0 s.taken kind (r.tick + 1) }

/-! Resource kinds. -/
def resContext : Nat := 0
def resRegion : Nat := 1
def resStream : Nat := 2
def resQp : Nat := 3
def resKey : Nat := 4
def resEgress : Nat := 5
def resActivity : Nat := 6
def resArea : Nat := 7
def resPending : Nat := 8

/-! ### Activities (R488, R499, R560) -/

def blankActivity (op : Nat) (maint : Bool) : Activity :=
  { num := 0, opcode := op, maint := maint, mode := .running, status := 0, detail := 0, site := 0, guide := 0, lambda := 0,
    addr := 0, src := 0, len := 0, from_ := 0 }

/-- The activities that have not ended. -/
def liveActs (s : State) : List Activity := s.acts.filter fun a => a.mode != .done

/-- The next free activity number, from 1 to 65,535 (R488). -/
def nextActNum (s : State) : Nat :=
  let n := s.nextAct % 65535 + 1
  ((List.range 128).map fun i => (n - 1 + i) % 65535 + 1).find? (fun k => !(liveActs s).any fun a => a.num == k) |>.getD n

/-- A step of an activity appends a record to the journal (R554). -/
def journalStep (s : State) : State := { s with weir := { s.weir with journal := s.weir.journal + 1 } }

/-- Add an activity, queued or running. Ended activities leave once 64 newer ones are known. DESIGN CHOICE, log 14. -/
def addActivity (s : State) (a : Activity) : State × Nat :=
  let n := nextActNum s
  let a := { a with num := n, from_ := s.time.now }
  let ended := s.acts.filter fun b => b.mode == .done && b.num != n
  let keep := s.acts.filter fun b => b.mode != .done || (ended.drop (ended.length - 64)).any fun e => e == b
  ({ s with acts := (keep.filter fun b => b.num != n) ++ [a], nextAct := n }, n)

/-- End an activity: it is done, and its event goes to PF0 (R485, R486). -/
def endActivity (s : State) (n status detail : Nat) : State :=
  let s := journalStep { s with acts := s.acts.map fun a =>
      if a.num == n then { a with mode := .done, status := status, detail := detail } else a }
  event s 0 3 0xFF [n + status * 2 ^ 16 + detail % 2 ^ 32 * 2 ^ 32]

end Sys2Proof.Machine
end

