-- ==== Sys2Proof/Machine/PowerOps.lean ====
section
/-! DEFINITION. Steps and power: the step tables, bands, admission under the power cap, and the ramps of cores and uncores
(R44, R76, R111, R574 to R579). -/

namespace Sys2Proof.Machine

/-! ### Tables (R576 to R578) -/

/-- The voltage of a step in mV. -/
def stepMv (k : Nat) : Nat := 500 + 50 * k

/-- Full-load power of a core at a step, W. -/
def coreLoad (k : Nat) : Nat :=
  match k with
  | 0 => 14 | 1 => 22 | 2 => 32 | 3 => 43 | 4 => 58 | 5 => 76 | 6 => 89 | _ => 103

/-- Power of an uncore at a step, W. -/
def uncoreLoad (k : Nat) : Nat :=
  match k with
  | 0 => 6 | 1 => 7 | 2 => 8 | 3 => 10 | 4 => 13 | 5 => 16 | 6 => 17 | _ => 18

/-- The Pond rail at a module step, mV. -/
def pondMv (k : Nat) : Nat := if k ≤ 1 then 700 else if k ≤ 3 then 750 else 800

/-- The highest step that a band permits (R578). -/
def bandStep (b : Nat) : Nat := if b ≤ 1 then 7 else if b == 2 then 6 else 4

/-- Setpoint of a domain of fixed rail, mV (R574). HBM stacks and Springs have supplies without a stated voltage: their setpoint
reads 0. DESIGN CHOICE, log 16. -/
def railMv (d : Nat) : Nat :=
  if d < 96 then 750
  else if d < 112 then 0
  else if d < 144 then 750
  else if d < 154 then 0
  else if d < 164 then 750
  else 800

/-! ### Steps in force -/

def moduleStep (s : State) : Nat := field s Reg.clockStep 2 0

/-- Whether a core's domain is up: on, or on and ramping to another step (R76). -/
def corePowered (s : State) (c : Nat) : Bool :=
  domOn s (domCore c) || (domState s (domCore c) == 1 && (core s c).rampTo.isSome)

/-- The step a core stands at or ramps to. -/
def heading (y : CoreState) : Nat := y.rampTo.getD y.step

def tarnBand (s : State) (i : Nat) : Nat := field s (Reg.siteStat i) 13 12
def pondBand (s : State) (i : Nat) : Nat := field s (Reg.siteStat i) 15 14

/-- The hottest of some sites' Ponds. -/
def hottestPond (s : State) (sites : List Nat) : Nat := sites.foldl (fun b i => maxNat b (pondBand s i)) 0

def siteFailed (s : State) (i : Nat) : Bool := regBit s (Reg.siteStat i) 1

/-- The sites that are not failed. -/
def liveSites (s : State) : List Nat := (List.range 16).filter fun i => !siteFailed s i

/-- The pinned step of a strict core (R530). -/
def pinOf (s : State) (c : Nat) : Option Nat :=
  let p := partOfCore s c
  if p == 0xFF then none
  else
    let v := (part s p).strict
    if bit v 7 then some (v % 8) else none

/-! ### Admission (R579, R531) -/

/-- A core's reported power in 1/4 W; a die that reports none counts 0. DESIGN CHOICE, log 16. -/
def measured4 (s : State) (c : Nat) : Nat := ((site s (c / 4)).abango.lastReport.corePower[c % 4]?).getD 0

/-- The highest total feed power of the last 16 rounds, W. -/
def maxFeed (s : State) : Nat := s.power.feedPowers.foldl maxNat 0

/-- The step of a site's uncore: the highest of its powered cores, with the changes `new` made. None: no core is powered. -/
def uncoreStep (s : State) (i : Nat) (new : List (Nat × Nat)) : Option Nat :=
  (List.range 4).foldl (fun m k =>
    let c := 4 * i + k
    match (new.find? fun n => n.1 == c).map (·.2) with
    | some v => some (maxNat (m.getD 0) v)
    | none => if corePowered s c then some (maxNat (m.getD 0) (heading (core s c))) else m) none

def uncoreWatts (k : Option Nat) : Nat := (k.map uncoreLoad).getD 0

/-- What a change adds to the die-side power, in 1/4 W. `pin`: the named cores become strict at their new step. -/
def addedDie4 (s : State) (new : List (Nat × Nat)) (pin : Bool) : Int :=
  let coreAdd (c : Nat) : Int :=
    match pinOf s c, (new.find? fun n => n.1 == c).map (·.2) with
    | none, none => 0
    | some k, none => 4 * (coreLoad k : Int) - measured4 s c
    | p, some k =>
      if pin then 4 * (coreLoad k : Int) - measured4 s c
      else if p.isSome then 4 * (coreLoad (p.getD 0) : Int) - measured4 s c
      else 4 * (coreLoad k : Int) - (if corePowered s c then 4 * (coreLoad (core s c).step : Int) else 0)
  let cores := ((List.range 64).map coreAdd).foldl (· + ·) 0
  let uncores := (((new.map fun n => n.1 / 4).eraseDups).map fun i =>
    4 * (uncoreWatts (uncoreStep s i new) : Int) - 4 * (uncoreWatts (uncoreStep s i []) : Int)).foldl (· + ·) 0
  cores + uncores

/-- Whether the estimated input power stays at or below 7,500 W, with die-side figures at 96.5 % conversion (R579). -/
def capAdmits (s : State) (new : List (Nat × Nat)) (pin : Bool) : Bool :=
  4 * 965 * (maxFeed s : Int) + 1000 * addedDie4 s new pin ≤ 4 * 965 * 7500

/-! ### Ramps (R76, R111) -/

/-- Show an uncore's setpoint: the highest step of its powered cores, those they ramp to included (R111). -/
def showUncore (s : State) (i : Nat) : State :=
  let d := domUncore i
  if domState s d == 0 || domState s d == 3 then s
  else
    let top (f : CoreState → Nat) : Nat :=
      (List.range 4).foldl (fun m k =>
        let e := domState s (domCore (4 * i + k))
        if e == 1 || e == 2 then maxNat m (f (core s (4 * i + k))) else m) 0
    putField s (Reg.powerDomain d) 15 0 (stepMv (maxNat (top (·.step)) (top heading)))

/-- A powered core begins to ramp to a step; a ramp in progress turns toward it at once (R582). -/
def rampCore (s : State) (c k : Nat) : State :=
  let y := core s c
  if !corePowered s c then modCore s c fun y => { y with step := k }
  else if heading y == k then s
  else
    let s := modCore s c fun y => { y with rampTo := some k }
    showUncore (putReg s (Reg.powerDomain (domCore c)) (2 ^ 30 + stepMv k)) (c / 4)

/-- Firmware commands a core's step. -/
def commandCore (s : State) (c k : Nat) : State := modCore (rampCore s c k) c fun y => { y with cmdStep := k }

/-- Whether every core of a mask is on and at its step. -/
def coresSettled (s : State) (mask : Nat) : Bool :=
  (maskList mask 64).all fun c => (core s c).rampTo.isNone && domState s (domCore c) != 1

/-- Answer the STEP_CORE and PART_CREATE requests whose cores have all ended their ramps (R495, R530). -/
def answerRamps (s : State) : State :=
  let s := (s.mbReqs.filter fun q => q.executed && q.opcode == 0x50 && q.arg < 2 ^ 64 && coresSettled s (param q 0 8)).foldl
    (fun s q => answerWaiting s 0x50 q.arg (.of stOk)) s
  (s.mbReqs.filter fun q => q.executed && q.opcode == 0x10 && q.arg < 2 ^ 64 && coresSettled s (param q 1 8)).foldl
    (fun s q => answerWaiting s 0x10 q.arg (.of stOk)) s

/-- CORE_RAMP_DONE (R76, R111): the core stands at the step it ramped to. -/
def coreRampDone (c : Nat) (s : State) : State :=
  match (core s c).rampTo with
  | none => s
  | some k =>
    let s := modCore s c fun y => { y with step := k, rampTo := none }
    answerRamps (showUncore (putReg s (Reg.powerDomain (domCore c)) (2 * 2 ^ 30 + stepMv k)) (c / 4))

def execCoreRampDone (core : CoreNo) (s : State) : Host.Outcome State Fault Refusal := .next (coreRampDone core.val s)

/-! ### Switching domains on (R574) -/

/-- A core's domain, and its uncore's before it, are switched on; an uncore that is on rises to the core's step first (R111). -/
def coreOn (s : State) (c : Nat) : State :=
  let d := domUncore (c / 4)
  let mv := stepMv (core s c).step
  let s := rampDomain s d mv
  let s := if domState s d != 3 && field s (Reg.powerDomain d) 15 0 < mv then putField s (Reg.powerDomain d) 15 0 mv else s
  rampDomain s (domCore c) mv

/-- A core's domain goes off; its uncore's follows the last core (R574). -/
def coreOff (s : State) (c : Nat) : State :=
  let s := modCore (offDomain s (domCore c)) c fun y => { y with rampTo := none }
  if (List.range 4).any fun k => domState s (domCore (c / 4 * 4 + k)) == 1 || domState s (domCore (c / 4 * 4 + k)) == 2 then
    showUncore s (c / 4)
  else offDomain s (domUncore (c / 4))

end Sys2Proof.Machine
end

