-- ==== Sys2Proof/Machine/Engine.lean ====
section
/-! DEFINITION. The dispatch engine (R157 to R187): phase grants, barriers, the end of a dispatch, aborts, fencing and removal. -/

namespace Sys2Proof.Machine

/-! ### Releasing (R171, R173, R184) -/

/-- Keep BELOW, INVALID and SAT of the core's context with the context (R135). -/
def saveStatus (s : State) (c : Nat) : State :=
  let y := core s c
  match y.running with
  | some h => modCtxCore s h c fun k => { k with below := y.below, invalid := y.invalid, sat := y.sat }
  | none => s

/-- Nothing is in progress on a core. -/
def quiet (y : CoreState) : CoreState :=
  { y with aQ := [], vQ := [], mQ := [], cQ := [], aOpen := [], dOpen := [], tOpen := [], held := [], stalled := none,
           posts := [], remote := [], moves := [] }

/-- The context leaves a core: skipping and fixed-cadence mode are those of a running context (R115, R118). -/
def freeCore (s : State) (c : Nat) : State :=
  let s := modCore s c fun y => { quiet y with running := none, latched := [] }
  putBit (putBit s (Reg.cperfStat c) 2 false) (Reg.cperfStat c) 1 false

/-- Release the cores and channels that a context holds. -/
def releasePhase (s : State) (x : Context) : State :=
  let s := releaseChannels s x (heldSched x)
  x.cores.foldl (fun s k => if (core s k.core).running == some x.handle then freeCore s k.core else s) s

/-! ### Cutting (R184, R269, R277, R399) -/

def isMoveOf (c : Nat) (r : OpenReq) : Bool :=
  match r.issuer with
  | .move d _ => d == c
  | _ => false

/-- Requests of a core at its site port are cut: those not yet accepted are dropped, and their stores are counted; accepted
ones are delivered, and their replies find nothing (R399, R410). A read with other requesters attached stays outstanding for
them (R277). -/
def cutRequests (s : State) (c : Nat) : State :=
  let i := c / 4
  let x := site s i
  let comb := x.combining.map fun e => { e with reqs := e.reqs.filter fun r => !isMoveOf c r }
  let shared (r : OpenReq) : Bool := comb.any fun e => e.p.tag == r.p.tag && e.p.type == r.p.type && !e.reqs.isEmpty
  let keep (r : OpenReq) : Bool := !isMoveOf c r || shared r
  let lost := ((x.openReqs ++ x.flagged).filter fun r => isMoveOf c r && r.p.type == 0x02).length
  let gone (e : Combine) : Bool := (x.openReqs ++ x.outstanding).any fun r => r.p.tag == e.p.tag && !keep r
  let s := putSite s i { x with openReqs := x.openReqs.filter keep, outstanding := x.outstanding.filter keep,
                                flagged := x.flagged.filter fun r => !isMoveOf c r,
                                combining := comb.filter fun e => !gone e,
                                heldWrites := x.heldWrites.filter fun h => (match h.issuer with
                                  | .move d _ => d != c
                                  | _ => true) }
  if lost == 0 then s else addPairSat s Reg.fabricStoresDiscarded lost

/-- Cut everything in progress for a context: each core stops at its next bundle, its transfers are discarded, and its rings take
nothing more (R184, R269). -/
def cutContext (s : State) (x : Context) : State :=
  let s := x.cores.foldl (fun s k =>
    if (core s k.core).running == some x.handle then
      modCore (cutRequests (saveStatus s k.core) k.core) k.core fun y => { quiet y with closed := true, reported := true }
    else s) s
  parkRings (dropTransfers s x.handle) x

/-! ### The end of a dispatch (R180, R181) -/

/-- BELOW, INVALID and SAT over a context's cores, and the OR of the sticky flags. -/
def statusSums (s : State) (x : Context) : Nat × Nat × Nat × Nat :=
  x.cores.foldl (fun a k => (satAdd 32 a.1 k.below, satAdd 32 a.2.1 k.invalid, satAdd 32 a.2.2.1 k.sat,
    a.2.2.2 ||| (core s k.core).vflags.toNat)) (0, 0, 0, 0)

/-- End the running dispatch of a context: its resources are free, one completion is written (R180), and the context is
between dispatches. -/
def endRun (s : State) (h : Nat) (e : EndRec) : State :=
  match ctx? s h with
  | none => s
  | some x0 =>
    match x0.run with
    | none => s
    | some r =>
      let s := x0.cores.foldl (fun s k => if (core s k.core).running == some h then saveStatus s k.core else s) s
      let x := (ctx? s h).getD x0
      let q := statusSums s x
      let s := parkRings (releasePhase s x) x
      let s := modCtx s h fun y => { y with run := none, idleTick := tickOf s }
      complete s r.d.seq r.d.cq
        { tag := r.d.tag, status := e.status, cause := e.cause, lcore := e.lcore, phase := e.phase, sq := r.d.qp,
          tStart := r.tStart, tEnd := e.time, count := r.phases, vflags := q.2.2.2, below := q.1, invalid := q.2.1,
          sat := q.2.2.1 }

/-- The order in which causes of one tick choose the status: CORE_FAILED, SITE_RESET, FAULTED (or OK), ABORTED (R187). -/
def endRank (status : Nat) : Nat :=
  match status with
  | 3 => 0 | 4 => 1 | 0 => 2 | 1 => 2 | _ => 3

/-- Record how a dispatch ends at the end of this tick. -/
def setOutcome (s : State) (h : Nat) (e : EndRec) : State :=
  modCtx s h fun x => { x with run := x.run.map fun r =>
    match r.outcome with
    | some f => if endRank e.status < endRank f.status then { r with outcome := some e } else r
    | none => { r with outcome := some e } }

/-- Whether a context's dispatch runs: phase 0 has been granted and it has not been cut (R185). -/
def dispatchRuns (x : Context) : Bool :=
  match x.run with
  | some r => 0 < r.phases && r.outcome.isNone && r.aborting.isNone
  | none => false

/-- Abort the running dispatch of a context at once: it will complete with a status (R184). -/
def startAbort (s : State) (h status : Nat) : State :=
  match ctx? s h with
  | none => s
  | some x =>
    if !dispatchRuns x then s
    else modCtx (cutContext s x) h fun y => { y with run := y.run.map fun r => { r with aborting := some status } }

/-- Ask the engine to abort a context's dispatch at the end of the tick, after the tick's barriers (R165, R184). -/
def requestAbort (s : State) (h : Nat) : State :=
  modCtx s h fun y => { y with run := y.run.map fun r => { r with abortReq := true } }

/-- Whether a dispatch of a queue pair runs. -/
def qpRuns (s : State) (q : Nat) : Bool :=
  s.contexts.any fun x => match x.run with
    | some r => r.d.qp == q && 0 < r.phases
    | none => false

/-- No queue pair: work that names it completes nowhere. -/
def noCq : Nat := 2 ^ 18

def renameDispatch (q : Nat) (d : Dispatch) : Dispatch := if d.qp == q then { d with qp := noCq, cq := noCq } else d

def renameContext (q : Nat) (x : Context) : Context :=
  { x with waiting := x.waiting.map (renameDispatch q), run := x.run.map fun r => { r with d := renameDispatch q r.d } }

/-- A queue pair is gone; dispatches that started through it belong to none. -/
def forgetQp (s : State) (q : Nat) : State := { putQp s q .reset with contexts := s.contexts.map (renameContext q) }

/-- Queue pairs whose delete waited for a running dispatch are gone once none is left, and the delete is answered (R458,
R494). -/
def settleDeletes (s : State) : State :=
  (s.qps.filter fun e => e.2.mode == 3 && !qpRuns s e.1).foldl (fun s e =>
    answerWaiting (forgetQp s e.1) 0x39 e.1 (.of stOk)) s

/-- ABORT_COMPLETE (R184, R491): the cut context's resources are free, its dispatch completes, and a mailbox abort is
answered. -/
def abortComplete (h : Nat) (s : State) : State :=
  match ctx? s h with
  | none => s
  | some x =>
    match x.run.bind (·.aborting) with
    | none => s
    | some st =>
      let s := endRun s h { status := st, cause := 0, lcore := 0, phase := 0, time := s.time.now }
      settleDeletes (answerWaiting s 0x32 h (.of stOk))

def execAbortComplete (context : Nat) (s : State) : Host.Outcome State Fault Refusal := .next (abortComplete context s)

/-! ### Removal (R158, R186) -/

/-- A context leaves: its pending dispatches complete with CANCELLED, and what it holds is free (R157, R158). -/
def removeContext (s : State) (h : Nat) : State :=
  match ctx? s h with
  | none => s
  | some x =>
    let cancel (s : State) (d : Dispatch) : State := complete s d.seq d.cq (Cpl.plain d.tag 0x07 d.qp)
    let s := match x.run with
      | some r => if r.phases == 0 then cancel s r.d else s
      | none => s
    let s := x.waiting.foldl cancel s
    let s := parkRings (releasePhase s x) x
    { s with contexts := s.contexts.filter fun y => y.handle != h }

/-! ### Fencing (R121, R186, R599) -/

/-- A core is fenced: it finishes no more, its contexts leave at the end of the tick, and its domain is off. `status` is what
running dispatches complete with. -/
def fenceCore (s : State) (c status : Nat) : State :=
  if (core s c).fenced then s
  else
    let s := modCore s c fun y => { y with fenced := true }
    let s := raise s 8 2 (unitNo 0x01 c) (partOfCore s c) 0 0 (srcCore c)
    let s := partEvent s (partOfCore s c) 5 [c]
    let here := s.contexts.filter fun x => x.cores.any fun k => k.core == c
    let s := here.foldl (fun s x =>
      let s := if 0 < (x.run.map (·.phases)).getD 0 then
          setOutcome (cutContext s x) x.handle { status := status, cause := 0, lcore := 0, phase := 0, time := s.time.now }
        else s
      let s := if x.removing then s else partEvent s x.part 6 [x.handle]
      modCtx s x.handle fun y => { y with removing := true }) s
    coreOff s c

/-- OPERAND_PARITY_FAULT (R120, R121): reported with the core and the unit, latched for the running context; more than 16 in
1 s of Basin time fence the core. -/
def operandParityFault (c unit : Nat) (s : State) : State :=
  let s := raise s 8 1 (unitNo 0x01 c) (partOfCore s c) unit 0 (srcCore c)
  let s := match runCtx? s c with
    | some x => latch s c x causeParity unit
    | none => s
  let ts := (core s c).parityTimes.filter (fun t => s.time.now < t + 1000000000) ++ [s.time.now]
  let s := modCore s c fun y => { y with parityTimes := ts }
  if 16 < ts.length then fenceCore s c 0x03 else s

def execOperandParityFault (core : CoreNo) (unit : Nat) (s : State) : Host.Outcome State Fault Refusal :=
  .next (operandParityFault core.val unit s)

/-! ### Barriers (R161 to R165) -/

def modRun (s : State) (h : Nat) (f : Run → Run) : State := modCtx s h fun x => { x with run := x.run.map f }

/-- The faults latched on the cores of a context at a site, with their logical cores (R182). -/
def latchedAt (s : State) (x : Context) (i : Nat) : List (Nat × Nat × Nat) :=
  (x.cores.filter fun k => k.core / 4 == i).flatMap fun k =>
    (core s k.core).latched.map fun l => (l.stamp, lcoreOf x k.core, l.cause)

/-- A site port that holds every token makes the residue check and reports to the engine (R161, R164). A core with any counter that is
not zero raises one fault, not one for each counter: DESIGN CHOICE, log 10. The faults latched on the site's cores, after their close
reports too, are the dispatch's (R182). -/
def siteBarrier (s : State) (h i : Nat) : State :=
  match ctx? s h with
  | none => s
  | some x =>
    let here := x.cores.filter fun k => k.core / 4 == i
    let bad := here.filter fun k => !k.counters.isEmpty
    let s := bad.foldl (fun s k => latch s k.core x causeResidue 0) s
    let fs := latchedAt s x i
    let t := copyTick s (tileUnder i)
    modRun s h fun r =>
      let rep : SiteReport := { site := i, faultBit := r.tokenFault || !bad.isEmpty, selector := r.selector, stamp := t }
      { r with reports := r.reports ++ [rep], faults := r.faults ++ fs }

/-- Whether a site port holds a token from every participating site. -/
def allTokens (x : Context) (r : Run) (i : Nat) : Bool := x.sites.all fun j => r.tokens.any fun t => t.1 == i && t.2 == j

/-- The barrier entry of a site in a phase's schedule (R163, R215). -/
def barrierEntry? (x : Context) (p i : Nat) : Option ChanEntry :=
  (schedOf x p).find? fun e => e.barrier && entrySite x e == i

/-- A site port sends its barrier token to the context's other sites on its barrier channel (R163). -/
def sendBarrier (s : State) (x : Context) (i phase : Nat) (f : Bool) (sel : Word) : State :=
  match barrierEntry? x phase i with
  | none => s
  | some e =>
    queueTransfer { s with nextId := s.nextId + 1 } i e.chan
      { id := s.nextId, core := 4 * i, move := none, handle := x.handle, hdr := barrierHdr x.handle phase f sel, data := [], poison := [],
        sites := chanDsts x e, dsts := x.sites.filter (· != i), sent := false, upTo := 0, near := false, req := none }

/-- Every core of the context on one site has closed: its port sends its barrier token to the other sites, and holds its own
(R163). -/
def siteClosed (s : State) (h i : Nat) : State :=
  match ctx? s h with
  | none => s
  | some x =>
    match x.run with
    | none => s
    | some r =>
      let f := tget false r.siteFault i
      let s := if x.sites.any (· != i) then sendBarrier s x i r.phase f r.selector else s
      let s := modRun s h fun r => { r with tokens := r.tokens ++ [(i, i)], tokenFault := r.tokenFault || f }
      match (ctx? s h).bind fun y => y.run.map fun q => allTokens y q i with
      | some true => siteBarrier s h i
      | _ => s

/-- Whether a closed core's report may leave: every move, operation and post of the phase has completed (R162, R214). -/
def mayReport (y : CoreState) : Bool :=
  y.closed && !y.reported && y.aQ.isEmpty && y.vQ.isEmpty && y.mQ.isEmpty && y.aOpen.isEmpty && y.dOpen.isEmpty &&
    y.tOpen.isEmpty && y.held.isEmpty && y.posts.isEmpty && y.remote.isEmpty && y.moves.isEmpty

/-- CLOSE_REPORT (R162, R163, R182): the core's close report reaches its site port, with its fault bit and, from the selector
core, the selector value. -/
def closeReport (c : Nat) (s : State) : State :=
  match runCtx? s c with
  | none => s
  | some x =>
    let y := core s c
    if !mayReport y then s
    else
      let s := modCore (saveStatus s c) c fun y => { y with reported := true }
      let i := c / 4
      let lc := lcoreOf x c
      let sel : Bool := match x.run with
        | some r => ((x.phases[r.phase]?).map fun p => p.selector == lc).getD false
        | none => false
      let s := modRun s x.handle fun r =>
        { r with closedCores := r.closedCores ++ [c], selector := if sel then y.sel else r.selector,
                 siteFault := tmod false r.siteFault i fun b => b || !y.latched.isEmpty }
      let closed : Bool := match (ctx? s x.handle).bind (·.run) with
        | some r => (x.cores.filter fun k => k.core / 4 == i).all fun k => r.closedCores.any (· == k.core)
        | none => false
      if closed then siteClosed s x.handle i else s

def execCloseReport (core : CoreNo) (s : State) : Host.Outcome State Fault Refusal := .next (closeReport core.val s)

/-- A transfer whose context its ring does not carry is discarded (R268). -/
def ctxDiscard (s : State) (d : Nat) : State :=
  let s := raiseFlag (addPairSat s (Reg.basinCtxDiscard d) 1) (Reg.basinFlags d) 5
  raise s 12 3 (unitNo 0x02 d) 0xFF 0 0 (srcPort d)

/-- The barrier token that a site port has sent, if it is what arrives next on its barrier channel at a site that carries the context's
tag (R266, R268). -/
def tokenThere? (s : State) (x : Context) (src dst : Nat) (hdr : ChanHdr) : Option (Nat × Transfer) :=
  match (x.run.bind fun r => barrierEntry? x r.phase src).map (·.chan) with
  | none => none
  | some idx =>
    let w := (carrier s src idx).getD (8 * src + idx / 32, idx % 32)
    if chanTag s dst w.1 w.2 != some (some x.handle) then none
    else ((nextTransfer? s src idx dst).filter fun t => t.hdr == hdr).map fun t => (idx, t)

/-- BARRIER_TOKEN (R163, R164): a token that was sent reaches a site port; the port that holds all of them completes the barrier. -/
def barrierToken (src dst h phase : Nat) (f : Bool) (sel : Word) (s : State) : State :=
  match ctx? s h with
  | none => ctxDiscard s dst
  | some x =>
    match x.run with
    | none => ctxDiscard s dst
    | some r =>
      if !r.granted || r.phase != phase || !x.sites.any (· == src) || !x.sites.any (· == dst) then ctxDiscard s dst
      else match tokenThere? s x src dst (barrierHdr h phase f sel) with
        | none => s
        | some (idx, t) =>
          let selSite := ((x.phases[r.phase]?).bind fun p => (x.cores[p.selector]?).map fun k => k.core / 4)
          let s := modRun (takeTransfer s src idx dst t) h fun r =>
            { r with tokens := r.tokens ++ [(dst, src)], tokenFault := r.tokenFault || f,
                     selector := if selSite == some src then sel else r.selector }
          match (ctx? s h).bind fun y => y.run.map fun q => allTokens y q dst with
          | some true => siteBarrier s h dst
          | _ => s

def execBarrierToken (src dst : SiteNo) (context phase : Nat) (faultBit : Bool) (selector : Word) (s : State) :
    Host.Outcome State Fault Refusal := .next (barrierToken src.val dst.val context phase faultBit selector s)

/-- Whether a fault comes before another as the deciding one: earliest stamp, then lowest logical core, then the order of the
causes (R182). -/
def faultBefore (a b : Nat × Nat × Nat) : Bool :=
  a.1 < b.1 || (a.1 == b.1 && (a.2.1 < b.2.1 || (a.2.1 == b.2.1 && a.2.2 < b.2.2)))

def decidingFault : List (Nat × Nat × Nat) → Option (Nat × Nat × Nat)
  | [] => none
  | f :: fs => match decidingFault fs with
    | some g => if faultBefore g f then some g else some f
    | none => some f

/-- The next phase that a phase's ending names (R166, R168): none at END. -/
def nextPhase (x : Context) (p : Phase) (sel : Word) : Option Nat :=
  match p.ending with
  | 0 => none
  | 1 => some p.target
  | _ => (((x.selects[p.target]?).getD []).filter fun e => e.1 ≤ sel.toNat).foldl (fun _ e => some e.2) (some 0)

/-- The tick of a completed barrier: that in which the last of its reports is stamped (R165). -/
def barrierTick (r : Run) : Nat := r.complete.foldl (fun m q => maxNat m q.stamp) 0

/-- The engine resolves a completed barrier (R165, R166, R170, R182). -/
def resolveBarrier (s : State) (x : Context) (r : Run) : State :=
  let now := s.time.now
  if r.complete.any (·.faultBit) then
    let f := (decidingFault r.faults).getD (0, 0, 0)
    setOutcome s x.handle { status := 0x01, cause := f.2.2, lcore := f.2.1, phase := r.phase, time := now }
  else
    match x.phases[r.phase]? with
    | none => s
    | some p =>
      let sel := ((r.complete.find? fun q => ((x.cores[p.selector]?).map fun k => k.core / 4) == some q.site).map
        (·.selector)).getD r.selector
      match nextPhase x p sel with
      | none => setOutcome s x.handle { status := 0x00, cause := 0, lcore := 0, phase := 0, time := now }
      | some n =>
        if ((x.phases[n]?).map (·.visits)).getD 0 < tget 0 r.visits n + 1 then
          let s := raise s 9 causeBudget (unitNo 0x17 x.handle) x.part n 0 srcHost
          setOutcome s x.handle { status := 0x01, cause := causeBudget, lcore := 0, phase := n, time := now }
        else
          let s := if p.hold then s else releasePhase s x
          modRun s x.handle fun r =>
            { r with prev := r.phase, phase := n, granted := false, readyTick := barrierTick r, hold := p.hold,
                     closedCores := [], siteFault := [], tokens := [], tokenFault := false, selector := 0, reports := [],
                     complete := [], faults := [] }

/-- BARRIER_COMPLETE (R164, R165): a site port's report reaches the engine, which resolves the barrier with the last one. -/
def barrierComplete (i h : Nat) (s : State) : State :=
  match ctx? s h with
  | none => s
  | some x =>
    match x.run with
    | none => s
    | some r =>
      match r.reports.find? fun q => q.site == i with
      | none => s
      | some q =>
        if r.outcome.isSome || r.aborting.isSome then s
        else
          let r := { r with reports := r.reports.filter fun p => p.site != i, complete := r.complete ++ [q] }
          let s := modRun s h fun _ => r
          if x.sites.all fun j => r.complete.any fun p => p.site == j then resolveBarrier s { x with run := some r } r
          else s

def execBarrierComplete (site : SiteNo) (context : Nat) (s : State) : Host.Outcome State Fault Refusal :=
  .next (barrierComplete site.val context s)

/-! ### Granting a phase (R171 to R176, R179) -/

/-- A core starts a phase of a context: its queues are empty, and, unless the phase follows a HOLD boundary, its registers and
accumulators are unwritten (R174). The select register is zero at every phase's start (R167), a HOLD boundary's too, though R174 has
the core keep it: DESIGN CHOICE, log 10. The sticky flags stay through a dispatch's start, since no rule but PART_CREATE's clears them
(R180, R522): DESIGN CHOICE, log 10. -/
def startCore (s : State) (h : Nat) (k : CtxCore) (entry : Nat) (hold : Bool) : State :=
  modCore s k.core fun y =>
    let y := { quiet y with running := some h, pc := entry, closed := false, reported := false, latched := [], sel := 0,
                            aIssued := 0, vIssued := 0, mIssued := 0, aStarted := 0, vStarted := 0, mStarted := 0,
                            below := k.below, invalid := k.invalid, sat := k.sat }
    if hold then y else { y with accs := [], vregs := [], vpoison := [] }

/-- DISPATCH_START (R135, R179): counters and status counters are zero, and the argument block is copied with its poison. -/
def startDispatch (s : State) (x : Context) (d : Dispatch) : State :=
  let s := modCtx s x.handle fun y =>
    { y with cores := y.cores.map fun k => { k with counters := [], below := 0, invalid := 0, sat := 0 } }
  if d.argLen == 0 then s
  else
    let s := noteRead s d.argDpa d.argLen
    let bs := loadBytes s d.argDpa d.argLen
    let ps := poisonUnits s d.argDpa d.argLen
    x.cores.foldl (fun s k => (writeMem s (regionAddr k 0) bs ps).1) s

/-- The entry point of a phase on a core (R193). -/
def entryPoint (s : State) (k : CtxCore) (p : Nat) : Nat := leNat (loadBytes s (k.stream + k.entryOff + 4 * p) 4)

/-- Skipping and cadence of a phase (R176): `SITE_CPERF_STAT` bits 2 and 1, and bit 7 while the core idles. -/
def cadence (s : State) (x : Context) (c : Nat) : State :=
  let strict := (part s x.part).strict != 0
  putBit (putBit (putBit s (Reg.cperfStat c) 2 (!x.skipDisable && !strict)) (Reg.cperfStat c) 1 strict) (Reg.cperfStat c) 7 false

/-- Grant a ready context its phase (R171). -/
def grantPhase (s : State) (h : Nat) : State :=
  match ctx? s h with
  | none => s
  | some x =>
    match x.run with
    | none => s
    | some r =>
      let first := r.phases == 0
      let s := if first then startDispatch s x r.d else s
      let s := if r.hold then releaseChannels s x (schedOf x r.prev) else s
      let s := grantSched s x (schedOf x r.phase)
      let x := (ctx? s h).getD x
      let s := x.cores.foldl (fun s k => cadence (startCore s h k (entryPoint s k r.phase) r.hold) x k.core) s
      modRun s h fun r =>
        { r with granted := true, phases := r.phases + 1, visits := tmod 0 r.visits r.phase (· + 1),
                 tStart := if first then s.time.now else r.tStart }

/-! ### Site reset (R186, R599, R646) -/

/-- Whether a dispatch of a context runs, or ends in this tick for a cause that another may come before (R187). -/
def runsOrEnds (x : Context) : Bool :=
  match x.run with
  | some r => 0 < r.phases && r.aborting.isNone
  | none => false

/-- Every dispatch that runs on a core of a site ends with SITE_RESET, one that a barrier of the same tick ended too (R187); the
contexts stay (R186). -/
def siteResetRuns (s : State) (i : Nat) : State :=
  (s.contexts.filter fun x => x.sites.any (· == i) && runsOrEnds x).foldl (fun s x =>
    setOutcome (cutContext s x) x.handle { status := 0x04, cause := 0, lcore := 0, phase := 0, time := s.time.now }) s

end Sys2Proof.Machine
end

