-- ==== Sys2Proof/Machine/Routes.lean ====
section
/-! DEFINITION. Fabric links, the fabric's map, hop distances, source routes and the time tree (R376, R377, R383, R384, R405, R416, R417,
R422, R425). -/

namespace Sys2Proof.Machine

/-! ### Links -/

/-- Roles of R376. -/
def roleOf (o : Nat) : Nat :=
  match o with
  | 7 => 0 | 11 => 1 | 4 => 2 | 8 => 3 | 1 => 4 | 2 => 5 | 13 => 6 | 14 => 7 | 0 => 8 | 15 => 9 | 3 => 10 | 12 => 11
  | _ => 12

/-- The auxiliary Outlets (R376). -/
def auxOutlet (o : Nat) : Bool := roleOf o == 12

/-- The Outlet of a partner agent (R387). -/
def partnerOutlet (agent : Nat) : Nat :=
  match agent with
  | 0x50 => 5 | 0x51 => 6 | 0x52 => 9 | _ => 10

def isPartner (agent : Nat) : Bool := 0x50 ≤ agent && agent ≤ 0x53

/-- `OUTLET_LINK_STAT.STATE` (R425). -/
def linkStateOf (s : State) (o : Nat) : Nat := field s (Reg.linkStat o) 2 0

/-- A link in service: up or up degraded. -/
def linkUp (s : State) (o : Nat) : Bool := linkStateOf s o == 2 || linkStateOf s o == 3

/-- A link that carries packets: it is up, and a hello has been accepted (R415). -/
def linkServes (s : State) (o : Nat) : Bool := linkUp s o && regBit s (Reg.linkPartner o) 31

/-- Set a link's state, and with it LINKS_UP (R422). -/
def setLinkState (s : State) (o v : Nat) : State :=
  let s := putField (putField s (Reg.linkStat o) 2 0 v) (Reg.linkStat o) 11 8 (roleOf o)
  putField s Reg.fabricStat 20 16 ((List.range 16).filter (linkUp s)).length

/-! ### Cabling (R377) -/

def sizeOf (s : State) (d : Nat) : Nat := field s Reg.fabricCoord (15 + 4 * d) (12 + 4 * d) + 1
def coordOf (c d : Nat) : Nat := bits c (4 * d + 3) (4 * d)
def withCoord (c d v : Nat) : Nat := setBits c (4 * d + 3) (4 * d) v

/-- Dimension, sign (true for +) and whether it is the express link of a role. -/
def roleParts (role : Nat) : Nat × Bool × Bool := (role / 4, role % 4 < 2, role % 2 == 1)

/-- The Outlet of a role. -/
def outletOfRole (role : Nat) : Nat := ((List.range 16).find? fun o => roleOf o == role).getD 0

/-- The Outlet expected at the other end of a module link: the same kind in the opposite direction. -/
def partnerEnd (o : Nat) : Nat :=
  let r := roleOf o
  outletOfRole (if r % 4 < 2 then r + 2 else r - 2)

/-- The coordinate expected there. -/
def partnerCoord (s : State) (o : Nat) : Nat :=
  let q := roleParts (roleOf o)
  let n := sizeOf s q.1
  let e := if q.2.2 && 8 ≤ n then 4 else 1
  let v := coordOf (ownCoord s) q.1
  withCoord (ownCoord s) q.1 (if q.2.1 then (v + e) % n else (v + n - e % n) % n)

/-- Whether a link's dimension has size 1: its Outlets take no cable (R377). -/
def flatLink (s : State) (o : Nat) : Bool := !auxOutlet o && sizeOf s (roleOf o / 4) == 1

/-! ### The map (R416) -/

def mapEntry (m : List LinkStateF) (c : Nat) : Option LinkStateF := m.find? fun f => f.src == c

/-- Put a LINK_STATE into the map: `true` where it is new (R416). -/
def mergeMap (m : List LinkStateF) (f : LinkStateF) : List LinkStateF × Bool :=
  match m.find? fun g => g.src == f.src with
  | none => (m ++ [f], true)
  | some g => if g.seq.toNat < f.seq.toNat then (m.map (fun g => if g.src == f.src then f else g), true) else (m, false)

/-- The working links of a module, not to partners: Outlet and neighbour. -/
def neighbours (f : LinkStateF) : List (Nat × Nat) :=
  ((List.range f.links.length).zip f.links).filterMap fun t =>
    if !auxOutlet t.1 && (t.2.1 == 2 || t.2.1 == 3) then some (t.1, t.2.2) else none

/-- One round of a search outward: modules next to the last layer that have no distance yet. -/
def nextLayer (m : List LinkStateF) (dist : Table Nat) (layer : List Nat) : List Nat :=
  (layer.flatMap fun c => match mapEntry m c with
    | some f => (neighbours f).map (·.2)
    | none => []).eraseDups.filter fun c => (tfind dist c).isNone

/-- Hop distances from a module (R384). -/
def distances : Nat → List LinkStateF → Table Nat → List Nat → Nat → Table Nat
  | 0, _, dist, _, _ => dist
  | fuel + 1, m, dist, layer, n =>
    match nextLayer m dist layer with
    | [] => dist
    | l => distances fuel m (l.foldl (fun d c => tins d c (n + 1)) dist) l (n + 1)

def distFrom (m : List LinkStateF) (c : Nat) : Table Nat := distances 64 m [(c, 0)] [c] 0

/-- Outlets in order of preference: express links first, then x, y, z (R384). -/
def outletOrder : List Nat := [11, 8, 2, 14, 15, 12, 7, 4, 1, 13, 0, 3]

/-- The Outlets of a route of fewest hops to a module whose distances are given. -/
def routeSteps : Nat → List LinkStateF → Table Nat → Nat → Option (List Nat)
  | 0, _, _, _ => none
  | fuel + 1, m, dist, c =>
    match tfind dist c with
    | none => none
    | some 0 => some []
    | some n =>
      match mapEntry m c with
      | none => none
      | some f =>
        let ns := neighbours f
        match outletOrder.findSome? fun o => (ns.find? fun t => t.1 == o && tfind dist t.2 == some (n - 1)) with
        | none => none
        | some t => (routeSteps fuel m dist t.2).map (t.1 :: ·)

/-- A route word (R383). -/
def routeWord (os : List Nat) : Route :=
  { len := os.length, word := BitVec.ofNat 64 ((((List.range os.length).zip os).map fun t => t.2 * 16 ^ t.1).foldl (· + ·) 0) }

/-- The route to a coordinate over the Outlets of this module that may be taken: the least number of hops, then the order of R384. None
where it is unreachable so, or longer than 16 hops. -/
def routeVia (s : State) (ok : Nat → Bool) (c : Nat) : Option (List Nat) :=
  let m := s.fabric.map.filter fun f => f.src != ownCoord s
  let dist := distFrom m c
  let ns : List (Nat × Nat) := match mapEntry s.fabric.map (ownCoord s) with
    | some f => (neighbours f).filter fun t => ok t.1
    | none => []
  let ways := outletOrder.filterMap fun o => (ns.find? fun t => t.1 == o).bind fun t => (tfind dist t.2).map fun n => (n, t)
  match ways.foldl (fun (b : Option (Nat × Nat × Nat)) w => if b.all fun v => w.1 < v.1 then some w else b) none with
  | none => none
  | some w => ((routeSteps 17 m dist w.2.2).map (w.2.1 :: ·)).filter fun os => os.length ≤ 16

/-- Whether a site holds a key for requests that leave by its Outlet and for their replies, from and to the cores of a partition (R405). -/
def carriesKey (s : State) (p key o : Nat) : Bool :=
  keyOk s o key dirEgress && keyOk s o key dirOutlet &&
    (keyOk s o key dirBasin || (maskList (part s p).cores.toNat 64).all fun c => c / 4 == o)

/-- The auxiliary Outlet of the memory node whose window holds a target address. The windows of this module's nodes are known;
for another module's, whose windows no message carries here, it is the lowest auxiliary link that it reports up. DESIGN
CHOICE, log 15. -/
def nodeOutlet (s : State) (coord dpa : Nat) : Option Nat :=
  if coord == ownCoord s then
    (s.fabric.nodes.find? fun n => n.2.1 ≤ dpa && dpa < n.2.1 + n.2.2).map (·.1)
  else
    (mapEntry s.fabric.map coord).bind fun f =>
      [5, 6, 9, 10].find? fun o => match f.links[o]? with
        | some l => l.1 == 2 || l.1 == 3
        | none => false

/-- The route of a far-window slot, through a site that holds its key (R384, R405): no entry where there is none. Which sites of other
modules hold the key no message tells this module. DEDUCED, log 15. -/
def slotRoute (s : State) (f : FarSlot) : Route :=
  let ok := carriesKey s f.part f.key
  match if f.coord == ownCoord s then some [] else routeVia s ok f.coord with
  | none => noRoute
  | some os =>
    if f.kind == 0 then
      match nodeOutlet s f.coord (f.base * 2 ^ 30) with
      | some o => if os.length < 16 && (!os.isEmpty || ok o) then routeWord (os ++ [o]) else noRoute
      | none => noRoute
    else routeWord os

/-- Both route tables, from the map (R384). -/
def computeRoutes (s : State) : Table Route × Table Route :=
  (s.fabric.map.foldl (fun t f => if f.src == ownCoord s then t else
      match routeVia s (fun _ => true) f.src with
      | some os => tput noRoute t f.src (routeWord os)
      | none => t) [],
   s.far.foldl (fun t e => if e.2.valid then tput noRoute t e.1 (slotRoute s e.2) else t) [])

/-- Load the routes, and say so where they changed (R416). -/
def loadRoutes (s : State) : State :=
  let r := computeRoutes s
  if r.1 = s.fabric.routes ∧ r.2 = s.fabric.slotRoutes then s
  else
    let s := { s with fabric := { s.fabric with routes := r.1, slotRoutes := r.2 } }
    raiseFlag s Reg.fabricFlags 5

/-! ### The time tree (R417, R422) -/

/-- The root: the present module with the lowest coordinate word. -/
def timeRoot (s : State) : Nat := s.fabric.map.foldl (fun m f => minNat m f.src) (ownCoord s)

/-- The parent Outlet: the lowest on a path of fewest hops toward the root. -/
def parentOutlet? (s : State) : Option Nat :=
  let d := distFrom s.fabric.map (timeRoot s)
  match tfind d (ownCoord s), mapEntry s.fabric.map (ownCoord s) with
  | some (n + 1), some f => ((neighbours f).find? fun t => tfind d t.2 == some n).map (·.1)
  | _, _ => none

/-- ROOT and TIME_DEPTH as the map has them. -/
def showTree (s : State) : State :=
  let r := timeRoot s
  let d := (tfind (distFrom s.fabric.map r) (ownCoord s)).getD 0
  putField (putField s Reg.fabricStat 15 4 r) Reg.fabricStat 28 24 (minNat d 31)

/-- Take a LINK_STATE into the map. -/
def learn (s : State) (f : LinkStateF) : State × Bool :=
  let m := mergeMap s.fabric.map f
  if !m.2 then (s, false)
  else
    let changed := (mapEntry s.fabric.map f.src).map (·.links) != some f.links
    let s := { s with fabric := { s.fabric with map := m.1,
                                                mapChanged := if changed then s.time.now else s.fabric.mapChanged } }
    let s := showTree s
    (if changed && field s Reg.fabricStat 1 0 == 3 then loadRoutes s else s, true)

end Sys2Proof.Machine
end

