-- ==== Sys2Proof/Machine/Links.lean ====
section
/-! DEFINITION. Fabric links and how packets leave the module (R379 to R386, R390 to R392, R405, R411 to R413, R416). -/

namespace Sys2Proof.Machine

/-! ### Violations (R412) -/

/-- Count and report a violation by the peer of a link. -/
def noteViolation (s : State) (o code d0 : Nat) : State :=
  let s := addPairSat s (Reg.linkViolations o) 1
  let s := raiseFlag (raiseFlag s (Reg.linkFlags o) 4) Reg.fabricFlags 3
  let s := raise s 11 code (unitNo 0x06 o) 0xFF d0 0 (srcOutlet o)
  modLink s o fun l =>
    { l with violations := l.violations.filter (fun t => s.time.now < t + 1000000000) ++ [s.time.now] }

/-- A reply or refusal is discarded (R381, R410, R412). -/
def discardReply (s : State) : State := raiseFlag (addPairSat s Reg.fabricRepliesDiscarded 1) Reg.fabricFlags 4

/-! ### Leaving -/

/-! ### Credits of a link (R390, R391) -/

/-- The pairing of a packet's class and a hop class. -/
def pairing (p : Packet) (hop : Nat) : Nat := 2 * hop + if isReplyType p.type then 1 else 0

/-- Take credits: shared ones first, then those reserved for a pairing; none where they are too few. -/
def creditTake? (shared : Nat) (reserved : Table Nat) (k f : Nat) : Option (Nat × Table Nat) :=
  let a := minNat f shared
  let used := tget 0 reserved k
  if f - a + used ≤ 5 then some (shared - a, tput 0 reserved k (used + (f - a))) else none

/-- How credits of a pairing come back: those reserved for it first. DESIGN CHOICE, log 15. -/
def creditSplit (reserved : Table Nat) (k f : Nat) : Nat × Nat :=
  let b := minNat f (tget 0 reserved k)
  (f - b, b)

/-- A packet takes its credits of the link that it is to leave by. -/
def exitCredits? (l : LinkState) (p : Packet) : Option LinkState :=
  (creditTake? l.shared l.reserved (pairing p p.hop) (flitsOf p)).map fun c => { l with shared := c.1, reserved := c.2 }

/-- A packet that does not leave by a link gives back the credits that it holds there. -/
def refundExit (p : Packet) (l : LinkState) : LinkState :=
  let k := pairing p p.hop
  let b := creditSplit l.reserved k (flitsOf p)
  { l with shared := l.shared + b.1, reserved := tmod 0 l.reserved k (· - b.2) }

/-- The pairing of a packet that has come by a link: that of the hop it has crossed. -/
def rxPairing (p : Packet) : Nat := pairing p (p.hop - 1)

/-- A packet enters an Outlet's receive buffer; none where its flits are more than its sender's credits (R412). -/
def rxTake? (l : LinkState) (p : Packet) : Option LinkState :=
  (creditTake? l.rxShared l.rxReserved (rxPairing p) (flitsOf p)).map fun c => { l with rxShared := c.1, rxReserved := c.2 }

/-- The site port has taken a packet from its Outlet's receive buffer: its credits go back in a link control word. -/
def rxLeave (s : State) (o : Nat) (p : Packet) : State :=
  let k := rxPairing p
  let b := creditSplit (link s o).rxReserved k (flitsOf p)
  emit (modLink s o fun l => { l with rxShared := l.rxShared + b.1, rxReserved := tmod 0 l.rxReserved k (· - b.2) })
    (.linkCredit o b.1 (if b.2 == 0 then [] else [(k, b.2)]))

/-- Whether two packets are one: in the same direction, from the same agent, with the same tag. -/
def samePacket (p q : Packet) : Bool :=
  p.type == q.type && p.tag == q.tag && p.src == q.src && p.srcSite == q.srcSite && p.srcAgent == q.srcAgent && p.dst == q.dst &&
    p.dstSite == q.dstSite

/-- A packet that crossed to a link with its credits has come there: whether it holds them. -/
def takePaid (s : State) (o : Nat) (p : Packet) : State × Bool :=
  match (link s o).paid.findIdx? (samePacket p) with
  | some n => (modLink s o fun l => { l with paid := l.paid.eraseIdx n }, true)
  | none => (s, false)

/-- Give back what such a packet holds, where it does not leave. -/
def unpay (s : State) (paid : Bool) (o : Nat) (p : Packet) : State := if paid then modLink s o (refundExit p) else s

/-! ### Requests in transit -/

/-- A packet waits at a link for its credits. -/
def queueAtLink (s : State) (o : Nat) (r : OpenReq) : State := modLink s o fun l => { l with waiting := l.waiting ++ [r] }

/-- A packet in transit, as a request of site port i. -/
def transitReq (s : State) (i dst : Nat) (outlet : Option Nat) (p : Packet) : OpenReq :=
  { issuer := .transit, dst := dst, outlet := outlet, stamp := copyTick s (tileUnder i), fn := 0, qp := 0, core := p.srcAgent, addr := p.dpa,
    cached := false, seq := 0, fail := 0, retry := false, paid := false, p := p }

/-- Whether a request of a site port is a packet that came by its Outlet (R391): from another module, or from a partner here. -/
def fromOutlet (s : State) (r : OpenReq) : Bool :=
  r.issuer == .transit && (r.p.src != ownCoord s || (isPartner r.p.srcAgent && isReqType r.p.type))

/-- The egress key check before a packet leaves by an Outlet (R405). -/
def exitKeyOk (s : State) (o : Nat) (p : Packet) : Bool := p.key == 0 || keyOk s o p.key dirEgress

/-- A reply or firmware packet leaves by an Outlet at its site: a link that is down discards and logs it (R381). -/
def exitReply (s : State) (o : Nat) (p : Packet) : State :=
  let q := takePaid s o p
  if !exitKeyOk s o p then keyRefused (unpay q.1 q.2 o p) o p
  else if linkServes s o then queueAtLink q.1 o { transitReq s o o (some o) p with paid := q.2 }
  else raise (discardReply (unpay q.1 q.2 o p)) 10 1 (unitNo 0x06 o) 0xFF p.tag 0 (srcOutlet o)

/-- Give a move's request, or a request of another source, its answer: code, data, and result of an atomic. -/
def answerOwn (s : State) (i : Nat) (r : OpenReq) (code : Nat) (data : List Byte) (fill : Bool) (reply : Packet) : State :=
  match r.issuer with
  | .transit => emit s (.answer i reply)
  | _ => finishReq s i r code data fill

/-! ### Replies (R385, R387, R411) -/

/-- Entries 0 to n - 1 of a route, reversed (R385). -/
def reverseRoute (route : DWord) (n : Nat) : DWord :=
  BitVec.ofNat 64 (((List.range n).map fun j => routeEntry route j * 16 ^ (n - 1 - j)).foldl (· + ·) 0)

/-- The reply of a type to a request as it stands at site `i`: it returns along the recorded entries. The requester's agent
stands in SRC_AGENT, so that a partner's reply finds its Outlet. DEDUCED, log 15. -/
def replyTo (s : State) (i : Nat) (q : Packet) (type code : Nat) (data : List Byte) : Packet :=
  { blankPacket type with rlen := q.hop, route := reverseRoute q.route q.hop, key := q.key, tag := q.tag, dst := q.src,
                          dstSite := q.srcSite, src := ownCoord s, srcSite := i, srcAgent := q.srcAgent, len := q.len,
                          status := code, dpa := q.dpa, time := s.time.now, data := data }

/-- The low `w` bits of a number, as the atomics take them. -/
def atomicWidth (p : Packet) : Nat := if p.awide then 64 else 32

/-- The value an atomic leaves (R276, R387). -/
def atomicNew (p : Packet) (old : Nat) : Nat :=
  let w := atomicWidth p
  let v := p.op0.toNat % 2 ^ w
  match p.aop with
  | 1 => (old + v) % 2 ^ w
  | 2 => if p.signed then (if signed w old ≤ signed w v then old else v) else minNat old v
  | 3 => if p.signed then (if signed w old ≤ signed w v then v else old) else maxNat old v
  | 4 => v
  | _ => if old == v then p.op1.toNat % 2 ^ w else old

/-- The result of rank r of `k` combined atomics from the old value (R276). -/
def rankResult (p : Packet) (old r : Nat) : Nat :=
  if r == 0 then old
  else
    let w := atomicWidth p
    match p.aop with
    | 1 => (old + r * (p.op0.toNat % 2 ^ w)) % 2 ^ w
    | _ => atomicNew p old

/-- What arrives with a reply that finds its request. -/
def replyCode (q r : Packet) : Nat :=
  if r.type == 0x13 then r.status
  else if (q.type == 0x01 && r.type == 0x10 && r.data.length == 32 * q.len) || (q.type == 0x02 && r.type == 0x11) ||
    (q.type == 0x03 && r.type == 0x12) then r.status else 8

/-- The copy of a reply for a requester that was attached: its own tag and return route (R277, R407), and its rank's value of
an atomic. -/
def copyReply (s : State) (i : Nat) (q r : Packet) (rank code : Nat) : Packet :=
  let type := if code == r.status && r.type != 0x13 then r.type else 0x13
  { replyTo s i q type code (if type == 0x10 then r.data else []) with
    op0 := if type == 0x12 then BitVec.ofNat 64 (rankResult q r.op0.toNat rank) else r.op0 }

/-- Send a reply on from site `i`: out by its next Outlet, to the site it is for, or to the partner behind an Outlet. The
outcome at the site it is for is `deliver`. -/
def sendOn (s : State) (i : Nat) (p : Packet) (deliver : State → State) : State :=
  if p.hop < p.rlen then
    let e := routeEntry p.route p.hop
    if e == i then exitReply s e p else submitOpen s i (transitReq s i e (some e) p)
  else if p.dst == ownCoord s && isPartner p.srcAgent then
    let e := partnerOutlet p.srcAgent
    if e == i then exitReply s e p else submitOpen s i (transitReq s i e (some e) p)
  else if p.dstSite == i then deliver s
  else submitOpen s i (transitReq s i p.dstSite none p)

/-- Answer one requester attached to a combined request. -/
def answerAttached (s : State) (i : Nat) (q : OpenReq) (r : Packet) (rank code : Nat) (fill : Bool) : State :=
  let c := copyReply s i q.p r rank code
  match q.issuer with
  | .transit => sendOn s i c fun s => emit s (.answer i c)
  | _ => finishReq s i q code r.data fill

/-- The combining entry of a request, and its attached requesters. -/
def attachedTo (x : SiteState) (p : Packet) : List OpenReq :=
  ((x.combining.filter fun e => e.p.tag == p.tag && e.p.type == p.type && e.p.src == p.src && e.p.srcSite == p.srcSite).flatMap
    (·.reqs))

def dropCombining (s : State) (i : Nat) (p : Packet) : State :=
  modSite s i fun x => { x with combining := x.combining.filter fun e =>
    !(e.p.tag == p.tag && e.p.type == p.type && e.p.src == p.src && e.p.srcSite == p.srcSite) }

def answerAll (s : State) (i : Nat) (qs : List OpenReq) (r : Packet) (code : Nat) (fill : Bool) : State :=
  ((List.range qs.length).zip qs).foldl (fun s t => answerAttached s i t.2 r (t.1 + 1) code fill) s

/-- A reply reaches the site port that issued the request (R385, R410, R412): it completes the request for every attached
requester, or matches none and is discarded. -/
def deliverReply (s : State) (i : Nat) (r : Packet) : State :=
  let link := routeEntry r.route (r.hop - 1)
  let x := site s i
  let s := if r.type == 0x13 && 0 < r.hop then addPairSat s Reg.fabricRefusalsRx 1 else s
  match x.outstanding.find? fun q => q.p.tag == r.tag with
  | none => if 0 < r.hop then noteViolation (discardReply s) link 3 r.tag else discardReply s
  | some q =>
    let code := replyCode q.p r
    let bad := code == 8 && r.type != 0x13
    let s := if bad && 0 < r.hop then noteViolation s link 4 r.tag else s
    let qs := attachedTo x q.p
    let s := modSite (dropCombining s i q.p) i fun x => { x with outstanding := x.outstanding.filter fun o => o.seq != q.seq }
    let fill := r.op0 == 1 && r.type == 0x10
    let s := answerOwn s i q code r.data (fill || q.outlet.isSome) r
    answerAll s i qs r code (fill || q.outlet.isSome)

/-- Send a reply from site `i` to its requester. -/
def routeReply (s : State) (i : Nat) (r : Packet) : State := sendOn s i r fun s => deliverReply s i r

/-- The type of the request that a reply of a type answers; a refusal answers any. -/
def answers (r q : Nat) : Bool :=
  match r with
  | 0x10 => q == 0x01
  | 0x11 => q == 0x02
  | 0x12 => q == 0x03
  | _ => true

/-- A reply passes the port that forwarded its request, or a refusal begins there: requesters that the port attached get copies (R275,
R277, R407). A site's own request is answered where its reply is delivered. -/
def copyTransit (s : State) (i : Nat) (r : Packet) : State :=
  let mine (p : Packet) : Bool := p.tag == r.tag && p.src == r.dst && p.srcSite == r.dstSite && answers r.type p.type &&
    isPartner p.srcAgent == isPartner r.srcAgent
  let here := r.dst == ownCoord s && r.dstSite == i && !isPartner r.srcAgent
  match (site s i).combining.find? fun e => mine e.p with
  | some e => if here then s else answerAll (dropCombining s i e.p) i e.reqs r r.status false
  | none => s

/-- Refuse a request at site `i` (R411): sent back along its recorded route. -/
def refuse (s : State) (i : Nat) (q : Packet) (code : Nat) : State :=
  let s := if 0 < q.hop || 0 < q.rlen then addPairSat s Reg.fabricRefusalsTx 1 else s
  routeReply s i (replyTo s i q 0x13 code [])

/-- Refuse a request that site `i` was to forward, and with it those attached to it there (R277). -/
def refuseForwarded (s : State) (i : Nat) (q : Packet) (code : Nat) : State :=
  refuse (copyTransit s i (replyTo s i q 0x13 code [])) i q code

/-! ### Requests leaving -/

/-- A request leaves by an Outlet at its site, or is refused. An identical read that the port forwards takes a request in
transit instead (R407). -/
def exitRequest (s : State) (o : Nat) (p : Packet) : State :=
  let q := takePaid s o p
  if !linkServes s o then refuse (unpay q.1 q.2 o p) o p 4
  else if !exitKeyOk s o p then refuse (keyRefused (unpay q.1 q.2 o p) o p) o p 1
  else
    let r := { transitReq s o o (some o) p with paid := q.2 }
    match attachRead (unpay q.1 q.2 o p) o Reg.fabricCombined r with
    | some t => t
    | none => queueAtLink (openEntry q.1 o p) o r

/-! ### Firmware's messages -/

/-- This module's LINK_STATE (R416): state and partner of each link. One that is to sleep is flooded as down (R382). -/
def ownLinkState (s : State) : LinkStateF :=
  { src := ownCoord s, seq := BitVec.ofNat 32 s.fabric.lsSeq,
    links := (List.range 16).map fun o =>
      (if (link s o).sleepFrom.isSome then 4 else linkStateOf s o, field s (Reg.linkPartner o) 11 0) }

/-- The bytes of a LINK_STATE: two for each link, the partner in bits 11 to 0 and the state in bits 14 to 12. DESIGN CHOICE,
log 15. -/
def linkStateBytes (f : LinkStateF) : List Byte := f.links.flatMap fun l => leBytes 2 (l.2 % 4096 + l.1 % 8 * 4096)

/-- A packet of firmware, with key 0, waits at a link for its credits like any other (R36, R39). -/
def sendFirmware (s : State) (o : Nat) (p : Packet) : State :=
  if linkUp s o then queueAtLink s o (transitReq s o o (some o) { p with src := ownCoord s, time := s.time.now }) else s

/-- Flood a LINK_STATE on every working link but one (R416). -/
def flood (s : State) (f : LinkStateF) (except : Option Nat) : State :=
  (List.range 16).foldl (fun s o =>
    if except == some o then s
    else if linkServes s o then
      queueAtLink s o (transitReq s o o (some o)
        { blankPacket 0x22 with src := f.src, op0 := BitVec.ofNat 64 f.seq.toNat, time := s.time.now, data := linkStateBytes f })
    else s) s

/-- Firmware floods a change of its own links, and a converged module loads its new routes (R416). While no Weir serves, this waits
(R556). -/
def floodOwn (s : State) : State :=
  if !hasCoord s then s
  else if !weirServes s then { s with fabric := { s.fabric with floodDue := true } }
  else
    let s := { s with fabric := { s.fabric with lsSeq := s.fabric.lsSeq + 1, floodDue := false } }
    let f := ownLinkState s
    let m := mergeMap s.fabric.map f
    let s := flood { s with fabric := { s.fabric with map := m.1, mapChanged := s.time.now } } f none
    if field s Reg.fabricStat 1 0 == 3 then loadRoutes (showTree s) else s

/-! ### A link goes down (R380, R381) -/

/-- The packets that wait to cross a link, as they stood before it. -/
def waitingAt (s : State) (o : Nat) : List OpenReq :=
  (link s o).unacked.map (fun u => transitReq s o o (some o) { u.2 with hop := u.2.hop - 1 }) ++
    (site s o).egressQ ++ (link s o).waiting

/-- What becomes of each of them: requests are refused with LINK_DOWN, replies discarded and logged. -/
def turnBack (o : Nat) (s : State) (r : OpenReq) : State :=
  if isReqType r.p.type then refuseForwarded s o r.p 4
  else if isReplyType r.p.type then raise (discardReply s) 10 1 (unitNo 0x06 o) 0xFF r.p.tag 0 (srcOutlet o)
  else s

/-- A link goes down. -/
def linkGoesDown (s : State) (o state : Nat) : State :=
  let ws := waitingAt s o
  let was := linkUp s o
  let s := setLinkState s o state
  let s := modLink s o fun l =>
    { LinkState.reset with
      activity := l.activity, violations := l.violations, deadChans := l.deadChans, lastReopen := l.lastReopen,
      cabled := l.cabled, badFibres := l.badFibres, sleepFrom := l.sleepFrom }
  let s := modSite s o fun x => { x with egressQ := [] }
  let s := putBit s (Reg.linkPartner o) 31 false
  let s := ws.foldl (turnBack o) s
  if was then
    let s := raiseFlag (raiseFlag s (Reg.linkFlags o) 0) Reg.fabricFlags 0
    floodOwn (raise s 10 1 (unitNo 0x06 o) 0xFF 0 0 (srcOutlet o))
  else s

/-- Quarantine every link that has logged 1,024 violations within 1 s (R413). -/
def quarantineLinks (s : State) : State :=
  (List.range 16).foldl (fun s o =>
    if 1024 ≤ (link s o).violations.length && !regBit s (Reg.linkStat o) 3 then
      let s := linkGoesDown s o 4
      let s := raiseFlag (putBit s (Reg.linkStat o) 3 true) (Reg.linkFlags o) 5
      raise s 10 5 (unitNo 0x06 o) 0xFF 0 0 (srcOutlet o)
    else s) s

end Sys2Proof.Machine
end

