-- ==== Sys2Proof/Machine/Packets.lean ====
section
/-! DEFINITION. Packets arriving at a site port (R385, R386, R394, R395, R403 to R407, R411, R412), what the owning controller does
with them (R235, R249), and invalidations. -/

namespace Sys2Proof.Machine

/-! ### Form (R389, R412) -/

/-- The bytes a request covers. -/
def spanOf (p : Packet) : Nat := if p.type == 0x03 then atomicWidth p / 8 else 32 * p.len

/-- Whether a request's fields are defined. A range that leaves its 256-byte block, or an atomic that is not aligned, is a
violation of R389. DEDUCED, log 15. -/
def requestFormed (p : Packet) : Bool :=
  !p.resv && p.rlen ≤ 16 && p.hop ≤ p.rlen &&
    (if p.type == 0x03 then 1 ≤ p.aop && p.aop ≤ 5 && p.dpa % spanOf p == 0
     else 1 ≤ p.len && p.len ≤ 8 && p.dpa % 32 == 0 && p.dpa % 256 + 32 * p.len ≤ 256) &&
    (p.type != 0x02 || p.data.length == 32 * p.len)

def replyFormed (p : Packet) : Bool :=
  !p.resv && p.rlen ≤ 16 && p.hop ≤ p.rlen && (p.type != 0x10 || (1 ≤ p.len && p.len ≤ 8))

/-- Record the arrival Outlet in the entry of the exit just crossed (R385): a partner's hop is not recorded. -/
def recordHop (o : Nat) (p : Packet) : Packet :=
  if auxOutlet o || p.hop == 0 then p
  else { p with route := BitVec.ofNat 64 (setBits p.route.toNat (4 * (p.hop - 1) + 3) (4 * (p.hop - 1)) o) }

/-! ### The owning controller (R235, R249, R394, R395) -/

/-- Whether a site's stack takes no transfers (R83). -/
def stackRefuses (s : State) (i : Nat) : Bool := crossRefuses s .pondTile i || crossRefuses s .bundle i || crossRefuses s .portTile i

/-- Poisoned 32-byte units that an in-module store's mark names (R183; log 11). -/
def markedUnits (p : Packet) : List Nat := if p.rlen == 0 then (maskList p.op1.toNat 8).map (32 * ·) else []

/-- A write request is applied: part of a poisoned line stays unwritten and answers POISON (R249, R394). -/
def applyWrite (s : State) (i : Nat) (p : Packet) : State :=
  let r := writeMem s p.dpa p.data (markedUnits p)
  if r.2 then refuse r.1 i p 6 else routeReply r.1 i (replyTo s i p 0x11 0 [])

/-- An atomic is applied in full (R276, R395). -/
def applyAtomic (s : State) (i : Nat) (p : Packet) : State :=
  let n := spanOf p
  if !(poisonUnits s p.dpa n).isEmpty then refuse s i p 6
  else
    let s := noteRead s p.dpa n
    let old := leNat (loadBytes s p.dpa n)
    let s := (writeMem s p.dpa (leBytes n (atomicNew p old)) []).1
    routeReply s i { replyTo s i p 0x12 0 [] with op0 := BitVec.ofNat 64 old }

/-- The function that a request of an agent of this module counts for (R71, R272): that of the context its core runs. -/
def fnOfAgent (s : State) (p : Packet) : Nat :=
  if p.src == ownCoord s && p.srcAgent < 64 then ((runCtx? s p.srcAgent).bind fun x => x.run.map fun r => r.d.fn).getD 0 else 0

/-- The move of this module that issued a request, with its core. -/
def moveOfReq? (s : State) (p : Packet) : Option (Nat × MoveRec) :=
  if p.src != ownCoord s || 64 ≤ p.srcAgent then none
  else
    let x := site s p.srcSite
    match (x.outstanding ++ x.openReqs).find? fun r => r.p.tag == p.tag && r.p.type == p.type with
    | some r => match r.issuer with
      | .move c id => (findMove? s c id).map fun m => (c, m)
      | _ => none
    | none => none

/-- A request's read of never-written pages is counted: a move's once for each page, by the request that holds the first of its bytes
there; a cache fill's and any other request's each time (R244). -/
def noteReadOf (s : State) (p : Packet) : State :=
  match if p.rlen == 0 && p.op0 == 0 then moveOfReq? s p else none with
  | some q => if p.dpa % 4096 == 0 || p.dpa == q.2.src then noteRead s p.dpa (32 * p.len) else s
  | none => noteRead s p.dpa (32 * p.len)

/-- Whether another read of a move has not yet been served onto the move's channel. -/
def otherReads (s : State) (c id tag : Nat) : Bool :=
  let x := site s (c / 4)
  (x.openReqs ++ x.outstanding).any fun r => r.issuer == .move c id && r.p.tag != tag &&
    !(s.sites.any fun e => e.2.txQ.any fun q => q.2.any fun t => t.req == some r.p.tag && t.core == c && t.move == some id)

/-- A read whose move names a scheduled channel: its data, with its poison (R183), goes on the channel, and the last of the move's posts
the destination counter (R238, R265). -/
def serveOnChannel (s : State) (i : Nat) (p : Packet) : State :=
  match moveOfReq? s p, runCtx? s p.srcAgent with
  | some (c, m), some x =>
    match chanEntry? x m.chan, m.dstCores.head?.bind (ctxCore? x) with
    | some e, some k =>
      let n := 32 * p.len
      let off := (m.dst.headD 0 - regionAddr k 0 + (p.dpa - m.src)) / 32
      let ps := poisonUnits s p.dpa n
      let s := if ps.isEmpty then s else modMove s c m.id fun m => { m with bad := if m.bad == .ok then .poison else m.bad }
      queueTransfer { s with nextId := s.nextId + 1 } i e.chan
        { id := s.nextId, core := c, move := some m.id, handle := x.handle,
          hdr := chanHdr x m (k.core % 4) off n (!otherReads s c m.id p.tag), data := loadBytes s p.dpa n, poison := ps,
          sites := chanDsts x e, dsts := m.dstCores.map (· / 4), sent := false, upTo := 0, near := false, req := some p.tag }
    | _, _ => s
  | _, _ => s

/-- Whether a site port holds requests for its stack: it is in self refresh (R230), or the bundle to it is held idle (R319). -/
def stackHeld (s : State) (i : Nat) : Bool := stackAsleep s i || quarantined s i

/-- Serve a request in the near tier at its owning site, with what the decoders report of the lines that it reads (R246). While the
stack is not reached the request waits. -/
def serve (s : State) (i : Nat) (via : Arrival) (p : Packet) (ecc : EccList) : State :=
  if stackRefuses s i then refuse s i p 9
  else if !(p.dpa + spanOf p ≤ farBase) || ownerSite p.dpa != i then refuse s i p 5
  else if stackHeld s i then modSite s i fun x => { x with asleep := x.asleep ++ [(via, p, ecc)] }
  else
    let s := if 0 < p.rlen || isPartner p.srcAgent then addPairSat s Reg.fabricReqIn 1 else s
    match p.type with
    | 0x01 =>
      let s := noteReadOf (decodeRange s ecc p.dpa (32 * p.len)) p
      if p.rlen == 0 && chanRead p then serveOnChannel s i p
      else if !(poisonUnits s p.dpa (32 * p.len)).isEmpty then refuse s i p 6
      else
        let fill := p.rlen == 0 && p.op0 == 1 && p.srcSite != i && !regionHeld s p.dpa
        let s := if fill then addSharer s p.dpa p.srcSite else s
        routeReply s i { replyTo s i p 0x10 0 (loadBytes s p.dpa (32 * p.len)) with op0 := if fill then 1 else 0 }
    | _ =>
      let w := sharersOf s p.dpa (spanOf p)
      if !w.isEmpty then
        holdWrite s { addr := p.dpa, data := p.data, poison := markedUnits p, waiting := w, reply := some (via, p),
                      issuer := .transit } (fnOfAgent s p) 0 p.srcAgent
      else if p.type == 0x02 then applyWrite s i p else applyAtomic s i p

/-- A stack has left self refresh: what waited for it is served in order (R230). -/
def wakeStack (s : State) (i : Nat) : State :=
  if stackHeld s i then s
  else ((site s i).asleep).foldl (fun s q => serve s i q.1 q.2.1 q.2.2) (modSite s i fun x => { x with asleep := [] })

/-- A held write is applied: its requester is answered, its move goes on, or its copy counts it (R235). -/
def applyHeld (s : State) (i : Nat) (h : HeldWrite) : State :=
  match h.reply with
  | some q => if q.2.type == 0x02 then applyWrite s i q.2 else applyAtomic s i q.2
  | none =>
    let r := writeMem s h.addr h.data h.poison
    match h.issuer with
    | .move c id => modMove r.1 c id fun m =>
        { m with stored := true, open_ := m.open_ - 1, bad := if r.2 && m.bad == .ok then .poison else m.bad }
    | .copy ch id => copyAnswered r.1 ch id fun q => { q with poison := q.poison || r.2 }
    | _ => r.1

/-! ### Invalidations (R235) -/

/-- A packet that crosses the Basin lies in the receive buffer until its credits are returned (R271). -/
def received (s : State) (src dst : Nat) (p : Packet) : State :=
  modSite s dst fun x => { x with recvHeld := tmod 0 x.recvHeld src (· + flitsOf p) }

/-- The packets of an invalidation, with the key of the region's partition (R281, R388). -/
def invalPacket (s : State) (type src dst region : Nat) : Packet :=
  { blankPacket type with key := regionKey s region, dpa := region * 65536, srcSite := src, dstSite := dst, src := ownCoord s,
                          dst := ownCoord s, time := s.time.now }

/-- INVAL (R235, R271, R280): the sharer drops its lines of the region, counts it, and acknowledges in the open class. A sharer that does
not accept the key refuses it. -/
def inval (owner sharer region : Nat) (s : State) : State :=
  let p := invalPacket s 0x04 owner sharer region
  let s := received s owner sharer p
  if !keyOk s sharer p.key dirBasin then refuse (keyRefused s sharer p) sharer p 1
  else
    let s := cacheForget s sharer fun k => k / 256 == region
    let s := addPairSat s (Reg.memInval sharer) 1
    submitOpen s sharer (transitReq s sharer owner none (invalPacket s 0x14 sharer owner region))

def execInval (owner sharer : SiteNo) (region : Nat) (s : State) : Host.Outcome State Fault Refusal :=
  .next (inval owner.val sharer.val region s)

/-- A write no longer waits for a sharer of a region. -/
def ackWrite (region sharer : Nat) (h : HeldWrite) : HeldWrite := { h with waiting := h.waiting.filter (· != (region, sharer)) }

/-- The held writes of a site for which no sharer is waited for are applied. -/
def applyReady (s : State) (i : Nat) : State :=
  let ready := (site s i).heldWrites.filter (·.waiting.isEmpty)
  let s := modSite s i fun x => { x with heldWrites := x.heldWrites.filter fun h => !h.waiting.isEmpty }
  ready.foldl (fun s h => applyHeld s i h) s

/-- INVAL_ACK (R235): the sharer bit clears, and every held write that no sharer holds back any longer is applied. A write that begins
in another stack may wait for it too. One whose key the owner does not accept is discarded (R280). -/
def invalAck (owner sharer region : Nat) (s : State) : State :=
  let p := invalPacket s 0x14 sharer owner region
  let s := received s sharer owner p
  if !keyOk s owner p.key dirBasin then keyRefused s owner p
  else
    let s := modSite s owner fun x => { x with sharers := tmod 0 x.sharers region fun m => setBit m sharer false }
    (List.range 16).foldl (fun s i =>
      applyReady (modSite s i fun x => { x with heldWrites := x.heldWrites.map (ackWrite region sharer) }) i) s

def execInvalAck (owner sharer : SiteNo) (region : Nat) (s : State) : Host.Outcome State Fault Refusal :=
  .next (invalAck owner.val sharer.val region s)

/-! ### Arriving by an Outlet (R390, R391, R412) -/

/-- Whether a packet that came by site o's Outlet waits there to cross. -/
def waitsToCross (s : State) (o : Nat) (p : Packet) : Bool := (site s o).openReqs.any fun r => fromOutlet s r && samePacket p r.p

/-- A packet comes by an Outlet: it lies in the receive buffer until the site port takes it. Flits beyond the sender's credits are discarded,
and a request among them is refused. -/
def arrive (s : State) (o : Nat) (p : Packet) (act : State → State) : State :=
  match rxTake? (link s o) p with
  | none =>
    let s := noteViolation s o 5 p.tag
    quarantineLinks (if isReqType p.type then refuse s o p 8 else s)
  | some l =>
    let s := act (putLink s o l)
    if !linkUp s o || waitsToCross s o p then s else rxLeave s o p

/-! ### Requests (R386, R403, R405) -/

/-- Cross the Basin from a site to another with a packet in transit. A read that its port forwards already takes an identical one
(R274, R275). -/
def crossTo (s : State) (i dst : Nat) (outlet : Option Nat) (p : Packet) : State :=
  let r := { transitReq s i dst outlet p with fn := fnOfAgent s p }
  match attachRead s i (Reg.basinCombined i) r with
  | some t => t
  | none => submitOpen (openEntry s i p) i r

/-- The fate of a request at the site where it entered this module (R386). -/
def requestFate (s : State) (i : Nat) (arrival : Option Nat) (p : Packet) (ecc : EccList) : State :=
  if p.hop == p.rlen then
    if p.dst != ownCoord s then refuse s i p 3
    else if !(p.dpa + spanOf p ≤ farBase) then refuse s i p 5
    else if ownerSite p.dpa == i then serve s i (match arrival with
      | some o => .outlet (Fin.ofNat 16 o)
      | none => .own (Fin.ofNat 16 i)) p ecc
    else crossTo s i (ownerSite p.dpa) none p
  else
    let e := routeEntry p.route p.hop
    if auxOutlet e && p.hop + 1 != p.rlen then refuse s i p 3
    else if arrival == some e || !linkServes s e then refuse s i p 4
    else
      let s := if isPartner p.srcAgent && p.hop == 0 then addPairSat s Reg.fabricReqOut 1
        else addPairSat s Reg.fabricTransit 1
      if e == i then exitRequest s e p else crossTo s i e (some e) p

/-- The partition that holds a key (R403). -/
def partOfKey (s : State) (key : Nat) : Nat :=
  match s.parts.find? fun e => e.2.mode != .absent && e.2.keys.any fun k => k.key == key with
  | some e => e.1
  | none => 0xFF

/-- A request that has come by an Outlet: its form and key are checked, a partner's also against the egress table, and its fate is
decided. Key 0 is a violation of the link's peer, and is refused like any other key that has no entry (R280, R281, R412). -/
def checkArrived (o : Nat) (p : Packet) (ecc : EccList) (s : State) : State :=
  if !requestFormed p then quarantineLinks (refuse (noteViolation s o 1 p.tag) o p 8)
  else if p.key == 0 then quarantineLinks (refuse (noteViolation (keyRefused s o p) o 2 p.tag) o p 1)
  else if !keyOk s o p.key dirOutlet then refuse (keyRefused s o p) o p 1
  else if auxOutlet o then
    let q := partOfKey s p.key
    if !egressOk s q p.key p.dst p.dpa (spanOf p) p.type then refuse (egressRefused s o q p) o p 2
    else requestFate s o (some o) p ecc
  else requestFate s o (some o) p ecc

/-- A request arrives by an Outlet in service. -/
def requestByOutlet (s : State) (o : Nat) (p0 : Packet) (ecc : EccList) : State :=
  let p := recordHop o p0
  if linkServes s o then arrive s o p (checkArrived o p ecc) else s

/-- A request arrives over the Basin: it leaves by the site's Outlet or is served there (R405). -/
def requestByBasin (s : State) (src dst : Nat) (p : Packet) (ecc : EccList) : State :=
  let s := received s src dst p
  if p.key == 0 || !keyOk s dst p.key dirBasin then refuse (keyRefused s dst p) dst p 1
  else if p.hop < p.rlen then
    (if routeEntry p.route p.hop == dst then exitRequest s dst p else refuse s dst p 3)
  else if p.dst != ownCoord s then refuse s dst p 3
  else serve s dst (.basin (Fin.ofNat 16 src) (Fin.ofNat 16 dst)) p ecc

/-- The far-window slot of a partition that holds a target. -/
def slotOfTarget? (s : State) (part coord dpa : Nat) : Option FarSlot :=
  (s.far.find? fun e => e.2.valid && e.2.part == part && e.2.coord == coord && e.2.base == dpa / 2 ^ 30).map (·.2)

/-- The partition for which an agent of a site issues a request, and the key that the port stamps on it (R279, R281): a core's running
context takes its slot's key or its partition's. The host interface's requests hold the key of the slot that they use (R452): DEDUCED,
log 10. No other agent has one. -/
def stampKey (s : State) (p : Packet) : Nat × Nat :=
  if p.srcAgent == 0x40 then (partOfKey s p.key, p.key)
  else match if p.srcAgent < 64 then runCtx? s p.srcAgent else none with
    | none => (0xFF, 0)
    | some x => (x.part, if p.rlen == 0 then homeKey s x.part else ((slotOfTarget? s x.part p.dst p.dpa).map (·.key)).getD 0)

/-- A request of an agent for its own site's stack: an identical read that waits there takes it (R274, R275). -/
def serveOwn (s : State) (i : Nat) (r : OpenReq) (ecc : EccList) : State :=
  match attachRead s i (Reg.basinCombined i) r with
  | some t => t
  | none => serve (modSite (openEntry s i r.p) i fun x => { x with outstanding := x.outstanding ++ [r] }) i (.own (Fin.ofNat 16 i)) r.p ecc

/-- A request of an agent of the site itself: a Weir's is refused with KEY (R404); a core's is stamped with its key and passes the checks
of its site port (R279, R402), is combined, and goes to its target or exit. -/
def requestByOwn (s : State) (i : Nat) (p0 : Packet) (ecc : EccList) : State :=
  let q := stampKey s p0
  let p := { p0 with hop := 0, src := ownCoord s, srcSite := i, key := q.2,
                     op0 := if p0.type == 0x03 then p0.op0 else 0, op1 := if p0.type == 0x03 then p0.op1 else 0 }
  if p.srcAgent == 0x41 || p.srcAgent == 0x42 then emit (keyRefused s i p) (.answer i (replyTo s i p 0x13 1 []))
  else if !requestFormed p then emit s (.answer i (replyTo s i p 0x13 8 []))
  else
    let far := 0 < p.rlen
    let dst := if far then routeEntry p.route 0 else ownerSite p.dpa
    let r : OpenReq := { transitReq s i dst (if far then some dst else none) p with fn := fnOfAgent s p }
    let n := numberReq s i r
    match checkReq n.1 i q.1 n.2 with
    | 0 => if far || dst != i then sendReq n.1 i n.2 else serveOwn n.1 i n.2 ecc
    | 1 => emit (keyRefused n.1 i n.2.p) (.answer i (replyTo s i n.2.p 0x13 1 []))
    | 2 => emit (egressRefused n.1 i q.1 n.2.p) (.answer i (replyTo s i n.2.p 0x13 2 []))
    | c => emit n.1 (.answer i (replyTo s i n.2.p 0x13 c []))

def request (via : Arrival) (p : Packet) (ecc : EccList) (s : State) : State :=
  match via with
  | .outlet o => requestByOutlet s o.val p ecc
  | .basin a b => requestByBasin s a.val b.val p ecc
  | .own i => requestByOwn s i.val p ecc

/-- READ (R386, R394), with what the decoders report of the lines that it reads at its stack (R246). -/
def readPacket (via : Arrival) (p : Packet) (ecc : EccList) (s : State) : State := request via { p with type := 0x01 } ecc s
/-- WRITE (R386, R394). -/
def writePacket (via : Arrival) (p : Packet) (s : State) : State := request via { p with type := 0x02 } [] s
/-- ATOMIC (R276, R386, R395). -/
def atomicPacket (via : Arrival) (p : Packet) (s : State) : State := request via { p with type := 0x03 } [] s

def execRead (via : Arrival) (p : Reads Packet) (s : State) : Host.Outcome State Fault Refusal :=
  .next (readPacket via p.op p.ecc s)
def execWrite (via : Arrival) (p : Packet) (s : State) : Host.Outcome State Fault Refusal := .next (writePacket via p s)
def execAtomic (via : Arrival) (p : Packet) (s : State) : Host.Outcome State Fault Refusal := .next (atomicPacket via p s)

/-! ### Replies (R385, R407) -/

/-- A reply that has come by an Outlet: after the checks of its form and key it goes on to its requester. -/
def passReply (o : Nat) (p : Packet) (s : State) : State :=
  if !replyFormed p then quarantineLinks (noteViolation s o 1 p.tag)
  else if p.key == 0 then quarantineLinks (noteViolation (keyRefused s o p) o 2 p.tag)
  else if !keyOk s o p.key dirOutlet then keyRefused s o p
  else
    let s := copyTransit s o p
    if p.hop == p.rlen then
      if p.dst != ownCoord s then discardReply s
      else if isPartner p.srcAgent then
        let e := partnerOutlet p.srcAgent
        if e == o then exitReply s o p else crossTo s o e (some e) p
      else if p.dstSite == o then quarantineLinks (deliverReply s o p)
      else crossTo s o p.dstSite none p
    else
      let e := routeEntry p.route p.hop
      if e == o || !linkServes s e then discardReply s
      else
        let s := addPairSat s Reg.fabricTransit 1
        crossTo s o e (some e) p

def replyByOutlet (s : State) (o : Nat) (p0 : Packet) : State :=
  let p := recordHop o p0
  if linkServes s o then arrive s o p (passReply o p) else s

def replyByBasin (s : State) (src dst : Nat) (p : Packet) : State :=
  let s := received s src dst p
  if p.key == 0 || !keyOk s dst p.key dirBasin then keyRefused s dst p
  else if p.hop < p.rlen then
    (if routeEntry p.route p.hop == dst then exitReply (copyTransit s dst p) dst p else discardReply s)
  else if isPartner p.srcAgent then exitReply (copyTransit s dst p) (partnerOutlet p.srcAgent) p
  else quarantineLinks (deliverReply s dst p)

def reply (via : Arrival) (p : Packet) (s : State) : State :=
  match via with
  | .outlet o => replyByOutlet s o.val p
  | .basin a b => replyByBasin s a.val b.val p
  | .own i => deliverReply s i.val p

/-- READ_DATA (R275, R385): the data completes the request for every attached requester. -/
def readData (via : Arrival) (p : Packet) (s : State) : State := reply via { p with type := 0x10 } s
/-- WRITE_ACK (R385): the store is complete. -/
def writeAck (via : Arrival) (p : Packet) (s : State) : State := reply via { p with type := 0x11 } s
/-- ATOMIC_RESULT (R276): each combined requester receives its rank's value. -/
def atomicResult (via : Arrival) (p : Packet) (s : State) : State := reply via { p with type := 0x12 } s
/-- REFUSAL (R277, R411): the request completes with the code's status. -/
def refusal (via : Arrival) (p : Packet) (s : State) : State := reply via { p with type := 0x13 } s

def execReadData (via : Arrival) (p : Packet) (s : State) : Host.Outcome State Fault Refusal := .next (readData via p s)
def execWriteAck (via : Arrival) (p : Packet) (s : State) : Host.Outcome State Fault Refusal := .next (writeAck via p s)
def execAtomicResult (via : Arrival) (p : Packet) (s : State) : Host.Outcome State Fault Refusal :=
  .next (atomicResult via p s)
def execRefusal (via : Arrival) (p : Packet) (s : State) : Host.Outcome State Fault Refusal := .next (refusal via p s)

/-! ### Routed firmware messages (R281, R388, R404) -/

/-- A WEIR_MSG at a site: it is delivered to a Weir, or goes on. -/
def weirMsgFrom (s : State) (i : Nat) (arrival : Option Nat) (p : Packet) : State :=
  if p.hop == p.rlen then
    if p.dst != ownCoord s then s
    else if p.dstSite == i then emit s (.answer i p) else crossTo s i p.dstSite none p
  else
    let e := routeEntry p.route p.hop
    if arrival == some e || !linkServes s e then s
    else
      let s := if arrival.isSome then addPairSat s Reg.fabricTransit 1 else s
      if e == i then exitReply s e p else crossTo s i e (some e) p

/-- A WEIR_MSG that has come by an Outlet; one of more than 16 flits is malformed (R388). -/
def passWeirMsg (o : Nat) (p : Packet) (s : State) : State :=
  if p.resv || 16 < p.rlen || p.rlen < p.hop || 16 < flitsOf p then quarantineLinks (noteViolation s o 1 p.tag)
  else if p.key != 0 then quarantineLinks (refuse (noteViolation (keyRefused s o p) o 2 p.tag) o p 1)
  else weirMsgFrom s o (some o) p

/-- WEIR_MSG (R388): with key 0 only, and from a Weir of this module where it begins here. Another key is refused with KEY
(R412). -/
def weirMsg (via : Arrival) (p0 : Packet) (s : State) : State :=
  let p := { p0 with type := 0x23 }
  match via with
  | .outlet o =>
    let p := recordHop o.val p
    if linkServes s o.val then arrive s o.val p (passWeirMsg o.val p) else s
  | .basin a b =>
    let s := received s a.val b.val p
    if p.key != 0 then keyRefused s b.val p else weirMsgFrom s b.val none p
  | .own i =>
    if p.key != 0 || !(p.srcAgent == 0x41 || p.srcAgent == 0x42) then keyRefused s i.val p
    else weirMsgFrom s i.val none { p with hop := 0, src := ownCoord s, srcSite := i.val, time := s.time.now }

def execWeirMsg (via : Arrival) (p : Packet) (s : State) : Host.Outcome State Fault Refusal := .next (weirMsg via p s)

end Sys2Proof.Machine
end

