-- ==== Sys2Proof/Machine/TimeOps.lean ====
section
/-! DEFINITION. How firmware changes Basin time: loads, forward jumps and slews (R64). -/

namespace Sys2Proof.Machine

/-- Show what is left of a slew: `TIME_SLEW_LEFT`, and SLEWING while any is left. -/
def showSlew (s : State) : State :=
  putBit (putReg s Reg.timeSlewLeft (twos 32 s.time.slewLeft)) Reg.timeCtrl 1 (s.time.slewLeft != 0)

/-- Begin a slew of `d` ns, positive when Basin time is behind its target; it replaces one in progress, with what that withheld. -/
def beginSlew (s : State) (d : Int) : State :=
  let s := { s with time := { s.time with slewLeft := d, hold := false } }
  putReg (showSlew s) Reg.timeLastChange s.time.now

/-- The boundary that ends the present tick. -/
def tickEndTime (s : State) : Nat := 256 * (tickOf s + 1)

/-- Basin time takes a value at the next tick boundary. -/
def setAtBoundary (s : State) (t : Nat) : State := { s with time := { s.time with setAt := some t } }

/-- A load or jump takes effect: any slew ends (R64), and the tick of the flags set before it is over (R19). -/
def applySetTime (s : State) : State :=
  match s.time.setAt with
  | none => s
  | some t =>
    let s := { s with time := { s.time with now := t, frac := 0, setAt := none, slewLeft := 0, hold := false,
                                            shift := s.time.shift + ((t : Int) - s.time.now) },
                      flagsNow := [] }
    putReg (showSlew s) Reg.timeLastChange t

end Sys2Proof.Machine
end

