-- ==== Sys2Proof/Machine/FabricEvents.lean ====
section
/-! DEFINITION. The events of fabric links and of fabric firmware (R379 to R382, R390, R399, R414 to R419). -/

namespace Sys2Proof.Machine

/-! ### Flits (R379, R390) -/

/-- LINK_FLIT (R379): the next flit in good order is acknowledged; any other is requested again. -/
def linkFlit (o number : Nat) (good : Bool) (s : State) : State :=
  if !linkUp s o then s
  else
    let n := (link s o).rxNext
    if good && number == n then
      emit (addPairSat (modLink s o fun l => { l with rxNext := n + 1 }) (Reg.linkRxFlits o) 1) (.linkControl o n false)
    else if good && number < n then s
    else emit s (.linkControl o n true)

def execLinkFlit (o : OutletNo) (number : Nat) (good : Bool) (s : State) : Host.Outcome State Fault Refusal :=
  .next (linkFlit o.val number good s)

/-- Send a packet's flits: they take the next numbers, and the packet leaves with its HOP incremented (R379, R385). -/
def transmit (s : State) (o : Nat) (p : Packet) : State :=
  let p := { p with hop := if p.hop < p.rlen then p.hop + 1 else p.hop }
  let n := (link s o).txNext
  let s := modLink s o fun l => { l with txNext := n + flitsOf p, unacked := l.unacked ++ [(n, p)] }
  emit (addPairSat s (Reg.linkTxFlits o) (flitsOf p)) (.packet o p)

/-- LINK_CONTROL_WORD (R379, R390): acknowledged packets leave the replay buffer, a flit requested again is replayed with those
that follow it, and credits come back. -/
def linkControlWord (o ack : Nat) (again : Option Nat) (credits : Nat) (reserved : List (Nat × Nat)) (s : State) : State :=
  if !linkUp s o then s
  else
    let s := modLink s o fun l =>
      { l with unacked := l.unacked.filter fun u => ack < u.1 + flitsOf u.2 - 1,
               shared := minNat sharedFlits (l.shared + credits),
               reserved := reserved.foldl (fun t r => tmod 0 t r.1 fun v => v - r.2) l.reserved }
    match again with
    | none => s
    | some n =>
      let ps := (link s o).unacked.filter fun u => n < u.1 + flitsOf u.2
      let k := (ps.map fun u => flitsOf u.2 - (n - u.1)).foldl (· + ·) 0
      if k == 0 then s
      else ps.foldl (fun s u => emit s (.packet o u.2)) (raiseFlag (addPairSat s (Reg.linkReplays o) k) (Reg.linkFlags o) 1)

def execLinkControlWord (o : OutletNo) (ack : Nat) (again : Option Nat) (credits : Nat) (reserved : List (Nat × Nat))
    (s : State) : Host.Outcome State Fault Refusal := .next (linkControlWord o.val ack again credits reserved s)

/-! ### Lanes (R380) -/

def fibreOf (s : State) (o lane : Nat) : Nat := field s (Reg.linkLanes o) (4 * lane + 2) (4 * lane)
def laneUp (s : State) (o lane : Nat) : Bool := regBit s (Reg.linkLanes o) (16 + lane)

/-- The lowest-numbered fibre that carries no lane and has not failed. -/
def spareFibre? (s : State) (o : Nat) : Option Nat :=
  (List.range 6).find? fun f => !bit (link s o).badFibres f && (List.range 4).all fun l => fibreOf s o l != f

/-- Up or up degraded, as the lanes are; down when none works. -/
def laneState (s : State) (o : Nat) : State :=
  let n := ((List.range 4).filter (laneUp s o)).length
  if !linkUp s o then s
  else if n == 0 then linkGoesDown s o 4
  else setLinkState s o (if n == 4 then 2 else 3)

/-- A lane fails: it waits for its swap, or the link runs on without it. -/
def failLane (s : State) (o lane : Nat) : State :=
  if !laneUp s o lane then s
  else
    let s := raiseFlag (putBit s (Reg.linkLanes o) (16 + lane) false) (Reg.linkFlags o) 2
    let s := raise s 10 3 (unitNo 0x06 o) 0xFF lane 0 (srcOutlet o)
    let f := fibreOf s o lane
    let s := modLink s o fun l => { l with badFibres := setBit l.badFibres f true }
    laneState s o

/-- FIBRE_SWAP (R380): both ends move a failed lane to the lowest-numbered free spare fibre. -/
def fibreSwap (o lane : Nat) (s : State) : State :=
  if laneUp s o lane || !linkUp s o then s
  else
    match spareFibre? s o with
    | none => s
    | some f =>
      let s := putField s (Reg.linkLanes o) (4 * lane + 2) (4 * lane) f
      let s := raiseFlag (putBit s (Reg.linkLanes o) (16 + lane) true) (Reg.linkFlags o) 3
      let s := modLink s o fun l => { l with deadChans := tdrop l.deadChans fun k => k / 32 == lane }
      laneState (raise s 10 2 (unitNo 0x06 o) 0xFF lane 0 (srcOutlet o)) o

def execFibreSwap (o : OutletNo) (lane : Fin 4) (s : State) : Host.Outcome State Fault Refusal :=
  .next (fibreSwap o.val lane.val s)

/-- HELLO_TIMEOUT (R380): no hello for 10 ms brings the link down. -/
def helloTimeout (o : Nat) (s : State) : State :=
  if linkUp s o && (link s o).lastHello + 10000000 ≤ s.time.now then linkGoesDown s o 4 else s

def execHelloTimeout (o : OutletNo) (s : State) : Host.Outcome State Fault Refusal := .next (helloTimeout o.val s)

/-! ### Discovery (R414 to R416) -/

/-- The words a HELLO carries: serial, firmware version, and coordinate, sizes and Outlet. DESIGN CHOICE, log 15. -/
def helloPacket (s : State) (o : Nat) : Packet :=
  { blankPacket 0x20 with src := ownCoord s, dst := partnerCoord s o, op0 := Config.serial,
                          op1 := BitVec.ofNat 64 (reg s Reg.globalFw + reg s Reg.fabricCoord % 2 ^ 24 * 2 ^ 32), srcSite := o }

/-- The directions of an Outlet sleep: the shutters close, and both announce it (R362, R374). -/
def opticsSleep (s : State) (o : Nat) : State :=
  let s := putField s (Reg.optStat o) 13 8 0x3F
  raiseFlag (putField s (Reg.optStat o) 4 3 3) (Reg.optFlags o) 0

/-- The directions of an Outlet wake: the fibres of its lanes open, unless the clamp holds them. -/
def opticsWake (s : State) (o : Nat) : State :=
  let s := raiseFlag (putField s (Reg.optStat o) 4 3 0) (Reg.optFlags o) 1
  if regBit s (Reg.optStat o) 2 then s else putField s (Reg.optStat o) 13 8 0x30

/-- DISCOVERY_START (R414, R617): a ready module with a coordinate and no hold mark trains its cabled links; the Outlets that take no link
sleep (R382). -/
def discoveryStart (s : State) : State :=
  if !regBit s Reg.globalStat 5 || !hasCoord s || s.fabric.hold || field s Reg.fabricStat 1 0 != 0 then s
  else
    let s := putField s Reg.fabricStat 1 0 1
    (List.range 16).foldl (fun s o =>
      if regBit s (Reg.linkStat o) 3 then s
      else if !(link s o).cabled || flatLink s o then (if linkStateOf s o == 5 then s else opticsSleep (setLinkState s o 5) o)
      else if linkUp s o || linkStateOf s o == 5 then s
      else setLinkState s o 1) s

/-- A LINK_WAKE ends with the training of its link (R382). -/
def endWake (s : State) (o : Nat) : State :=
  let n := (link s o).activity
  if n == 0 || (link s o).sleepFrom.isSome then s else endActivity (modLink s o fun l => { l with activity := 0 }) n stOk 0

/-- LINK_TRAINED (R381, R414): a cabled link that trains, at first or after it went down, reaches up state with all its
credits. -/
def linkTrained (o : Nat) (s : State) : State :=
  if !(linkStateOf s o == 1 || linkStateOf s o == 4) || field s Reg.fabricStat 1 0 == 0 || !(link s o).cabled || regBit s (Reg.linkStat o) 3 then s
  else
    let s := if field s (Reg.linkLanes o) 19 16 == 0 then
        putReg s (Reg.linkLanes o) (0xF * 2 ^ 16 + 3 * 2 ^ 12 + 2 * 2 ^ 8 + 1 * 2 ^ 4) else s
    let s := modLink s o fun l => { l with trained := true, lastHello := s.time.now, txNext := 0, rxNext := 0, unacked := [],
                                           shared := sharedFlits, reserved := [], rxShared := sharedFlits, rxReserved := [],
                                           paid := [] }
    endWake (sendFirmware (laneState (setLinkState s o 2) o) o (helloPacket s o)) o

def execLinkTrained (o : OutletNo) (s : State) : Host.Outcome State Fault Refusal := .next (linkTrained o.val s)

/-- Whether a hello fits the cabling (R377, R378, R415). -/
def helloFits (s : State) (o : Nat) (f : NHello) : Bool :=
  if auxOutlet o then
    (f.kind == 1 || f.kind == 2) && f.coord == ownCoord s
  else
    f.kind == 0 && !flatLink s o && f.coord == partnerCoord s o && f.outlet == partnerEnd o &&
      f.sizeX == sizeOf s 0 && f.sizeY == sizeOf s 1 && f.sizeZ == sizeOf s 2

/-- Whether a memory node's window overlaps another's on this module (R378). -/
def windowClash (s : State) (o : Nat) (f : NHello) : Bool :=
  f.kind == 1 && s.fabric.nodes.any fun n => n.1 != o && f.windowBase < n.2.1 + n.2.2 && n.2.1 < f.windowBase + f.windowSize

/-- A firmware message of one hop is taken from the receive buffer at once: its flits' credits go back (R390). -/
def messageTaken (s : State) (o flits : Nat) : State := emit s (.linkCredit o flits [])

/-- NEIGHBOUR_HELLO (R415): a hello that fits brings the link into service; a mismatch leaves it down. -/
def neighbourHello (o : Nat) (f : NHello) (s0 : State) : State :=
  let s := messageTaken s0 o 1
  if !linkUp s o then s0
  else if !helloFits s o f then
    let s := raiseFlag (linkGoesDown s o 4) Reg.fabricFlags 1
    raise s 10 4 (unitNo 0x06 o) 0xFF (f.coord % 4096 + f.outlet % 16 * 4096) (ownCoord s + o * 4096) (srcOutlet o)
  else if windowClash s o f then linkGoesDown s o 4
  else
    let first := !regBit s (Reg.linkPartner o) 31
    let s := modLink s o fun l => { l with helloSeen := true, lastHello := s.time.now }
    let s := putReg s (Reg.linkPartner o)
      (2 ^ 31 + f.kind % 4 * 2 ^ 29 + (if f.kind == 0 then f.outlet % 16 * 2 ^ 12 else 0) + f.coord % 4096)
    let s := { s with fabric := { s.fabric with
      nodes := s.fabric.nodes.filter (fun n => n.1 != o) ++ (if f.kind == 1 then [(o, f.windowBase, f.windowSize)] else []) } }
    if !first then s
    else
      let s := if field s Reg.fabricStat 1 0 == 1 then putField s Reg.fabricStat 1 0 2 else s
      floodOwn s

def execNeighbourHello (o : OutletNo) (f : NHello) (s : State) : Host.Outcome State Fault Refusal :=
  .next (neighbourHello o.val f s)

/-- HELLO_REPEAT (R415): a HELLO goes out on every link that is up. -/
def helloRepeat (s : State) : State := (List.range 16).foldl (fun s o => sendFirmware s o (helloPacket s o)) s

def execHelloRepeat (s : State) : Host.Outcome State Fault Refusal := .next (helloRepeat s)

/-- Firmware takes a LINK_STATE that came by an Outlet, and forwards it where it is new. -/
def learnAndFlood (s : State) (o : Nat) (f : LinkStateF) : State :=
  let r := learn s f
  if r.2 then flood r.1 f (some o) else s

/-- What a gap held back of the fabric's messages goes on (R556). -/
def resumeFabric (s : State) : State :=
  let s := s.fabric.held.foldl (fun s e => learnAndFlood s e.1 e.2) { s with fabric := { s.fabric with held := [] } }
  if s.fabric.floodDue then floodOwn s else s

/-- LINK_STATE (R412, R416): one not yet seen is merged into the map and forwarded; one on a link without an accepted hello is
out of order and is discarded. In a gap it waits for the new Weir (R556). -/
def linkStateMsg (o : Nat) (f : LinkStateF) (s0 : State) : State :=
  let s := messageTaken s0 o 2
  if !linkUp s o then s0
  else if !regBit s (Reg.linkPartner o) 31 then quarantineLinks (noteViolation s o 6 f.src)
  else if !weirServes s then { s with fabric := { s.fabric with held := s.fabric.held ++ [(o, f)] } }
  else learnAndFlood s o f

def execLinkState (o : OutletNo) (f : LinkStateF) (s : State) : Host.Outcome State Fault Refusal :=
  .next (linkStateMsg o.val f s)

/-- Whether every module that the map reaches has reported (R416). -/
def mapWhole (s : State) : Bool :=
  let d := distFrom s.fabric.map (ownCoord s)
  d.all fun e => (mapEntry s.fabric.map e.1).isSome

/-- CONVERGENCE_TIMER (R416): a map that has not changed for 10 s and is whole is converged: the routes are loaded. -/
def convergenceTimer (s : State) : State :=
  if !weirServes s || !(field s Reg.fabricStat 1 0 == 2 || field s Reg.fabricStat 1 0 == 3) || !hasCoord s ||
    s.time.now < s.fabric.mapChanged + 10000000000 || !mapWhole s then s
  else showTree (putField (loadRoutes s) Reg.fabricStat 1 0 3)

def execConvergenceTimer (s : State) : Host.Outcome State Fault Refusal := .next (convergenceTimer s)

/-! ### Fabric time (R417 to R419) -/

/-- TIME_SYNC_PERIOD (R417): a TIME_SYNC goes out on the parent link, but not in a gap (R556). -/
def timeSyncPeriod (s : State) : State :=
  match if weirServes s then parentOutlet? s else none with
  | none => s
  | some o => sendFirmware s o { blankPacket 0x21 with op0 := BitVec.ofNat 64 s.time.now }

def execTimeSyncPeriod (s : State) : Host.Outcome State Fault Refusal := .next (timeSyncPeriod s)

/-- The offset from the parent: half of the difference between the two one-way delays, positive when ahead (R417, R420). -/
def syncOffset (t1 t2 t3 t4 : Nat) : Int := (((t4 : Int) - t3) - ((t2 : Int) - t1)) / 2

/-- TIME_SYNC (R417 to R419): the exchange on the parent link gives the offset; a ready module behind by more than 1 us jumps,
and slews otherwise. How far the parent itself lies from the root, no message of the exchange carries: it is a free value
unless the parent is the root. DESIGN CHOICE, log 5. -/
def timeSync (o t1 t2 t3 t4 : Nat) (s0 : State) : State :=
  let s := messageTaken s0 o 1
  if !linkUp s o then s0
  else if !regBit s (Reg.linkPartner o) 31 then quarantineLinks (noteViolation s o 6 0)
  else if !weirServes s || parentOutlet? s != some o then s
  else
    let d := syncOffset t1 t2 t3 t4
    let s := putReg s Reg.fabricTimeOffset (twos 32 d)
    let atRoot := field s (Reg.linkPartner o) 11 0 == timeRoot s
    let rest : Int := if atRoot then 0 else (Config.freeValue s.freeCount).toInt
    let s := if atRoot then s else { s with freeCount := s.freeCount + 1 }
    let s := { s with fabric := { s.fabric with offsetSum := d + rest } }
    let s := putBit s Reg.fabricStat 3 (-25 ≤ d + rest && d + rest ≤ 25)
    if !regBit s Reg.globalStat 5 then s
    else if d < -1000 then raiseFlag (setAtBoundary s (tickEndTime s + (-d).toNat)) Reg.fabricFlags 6
    else if d != 0 then beginSlew s (-d) else s

def execTimeSync (o : OutletNo) (t1 t2 t3 t4 : Nat) (s : State) : Host.Outcome State Fault Refusal :=
  .next (timeSync o.val t1 t2 t3 t4 s)

/-! ### Sleep (R362, R382) -/

/-- Whether nothing waits to leave by an Outlet. -/
def egressEmpty (s : State) (o : Nat) : Bool :=
  (link s o).waiting.isEmpty && (link s o).unacked.isEmpty && (site s o).egressQ.isEmpty

/-- LINK_SLEEP_ENTER (R382): 2 s after the flood and with nothing left to send, the link sleeps, and its activity ends. -/
def linkSleepEnter (o : Nat) (s : State) : State :=
  match (link s o).sleepFrom with
  | none => s
  | some t =>
    if s.time.now < t + 2000000000 || !egressEmpty s o then s
    else
      let n := (link s o).activity
      let s := linkGoesDown s o 5
      let s := opticsSleep (modLink s o fun l => { l with sleepFrom := none, activity := 0 }) o
      if n == 0 then s else endActivity s n stOk 0

def execLinkSleepEnter (o : OutletNo) (s : State) : Host.Outcome State Fault Refusal := .next (linkSleepEnter o.val s)

/-! ### Egress drain (R399) -/

/-- Discard the stores that still wait at an exit: they are counted, and their moves complete with crossing-reset status. -/
def discardStores (s : State) (o : Nat) : State :=
  let isStore (r : OpenReq) : Bool := r.p.type == 0x02
  let own := (site s o).egressQ.filter isStore
  let others := (link s o).waiting.filter isStore
  let s := modSite s o fun x => { x with egressQ := x.egressQ.filter fun r => !isStore r }
  let s := modLink s o fun l => { l with waiting := l.waiting.filter fun r => !isStore r }
  let n := own.length + others.length
  let s := if n == 0 then s else addPairSat s Reg.fabricStoresDiscarded n
  let back (s : State) (p : Packet) : State :=
    if p.src == ownCoord s then
      match (site s p.srcSite).outstanding.find? fun q => q.p.tag == p.tag with
      | some q => finishReq (modSite s p.srcSite fun x => { x with outstanding := x.outstanding.filter fun r => r.seq != q.seq })
          p.srcSite q 9 [] false
      | none => s
    else s
  (own ++ others).foldl (fun s r => back s r.p) s

/-- EGRESS_DRAIN_TIMEOUT (R399): 100 us after the request, stores still queued are discarded; the Outlet of a site under site
reset then goes down (R549). -/
def egressDrainTimeout (o : Nat) (s : State) : State :=
  match (site s o).drainFrom with
  | none => s
  | some t =>
    if s.time.now < t + 100000 then s
    else
      let s := modSite (discardStores s o) o fun x => { x with drainFrom := none }
      if regBit s (Reg.siteStat o) 1 && linkUp s o then linkGoesDown s o 4 else s

def execEgressDrainTimeout (site : SiteNo) (s : State) : Host.Outcome State Fault Refusal :=
  .next (egressDrainTimeout site.val s)

end Sys2Proof.Machine
end

