-- ==== Sys2Proof/Machine/Steps.lean ====
section
/-! DEFINITION. The reference monitors, holdover, and the module step change (R56 to R58, R77 to R80, R230, R577). -/

namespace Sys2Proof.Machine

/-! ### The step change (R77 to R80) -/

/-- Kinds of step message: the controller's ARM and ABANDON, and a region's ARMED. -/
def msgArm : Nat := 0
def msgArmed : Nat := 1
def msgAbandon : Nat := 2

/-- A Pond region that takes part: powered and not in reset. -/
def pondRuns (s : State) (i : Nat) : Bool := domOn s (domPond i) && !tget false s.clock.inReset i

/-- Firmware sets the rail of every powered Pond (R577). -/
def pondRails (s : State) (mv : Nat) : State :=
  (List.range 16).foldl (fun s i =>
    if domState s (domPond i) == 1 || domState s (domPond i) == 2 then putField s (Reg.powerDomain (domPond i)) 15 0 mv else s) s

/-- Whether a change may begin: none is armed (R80), and the CLOCK block is enabled (R626). -/
def stepFree (s : State) : Bool := s.clock.change.isNone && regBit s Reg.clockCtrl 0

/-- Firmware writes a target and a commit count: ARM goes to every participant (R77). When the step rises, the Pond rails rise
first. -/
def startChange (s : State) (target c : Nat) (window : Option Nat) : State :=
  let s := if moduleStep s < target then pondRails s (pondMv target) else s
  let ps := (List.range 16).filter (pondRuns s)
  let ch : StepChange := { target := target, commit := c, participants := ps, armed := [], passed := false, window := window }
  let s := { s with clock := { s.clock with change := some ch } }
  let s := putReg (putBit (putField s Reg.clockStep 22 20 target) Reg.clockStep 23 true) Reg.clockCommit c
  ps.foldl (fun s i => emit s (.stepMsg i msgArm target c)) s

/-- The commit count of a change asked for now: the first tick boundary at least 100 us after `from_`, or after the present where
that lies less than 64 us ahead (R77, R496). DEDUCED, log 16. -/
def commitCount (s : State) (from_ : Nat) : Nat :=
  let up (t : Nat) : Nat := (t + 100000 + 255) / 256 * 256
  if up from_ < s.time.now + 64000 then up s.time.now else up from_

/-- No change is armed any more; stacks leave self refresh, and serve what waited for them (R230). -/
def endChange (s : State) : State :=
  let s := { s with clock := { s.clock with change := none } }
  (List.range 16).foldl (fun s i => if stackAsleep s i then wakeStack (putBit s (Reg.memCfg i) 3 false) i else s)
    (putBit s Reg.clockStep 23 false)

/-- Whether a region that leaves reset now is held: from ARM until C has passed (R79). -/
def exitHeld (s : State) : Bool := s.clock.change.isSome || s.time.now < reg s Reg.clockCommit

/-- A Pond region leaves reset at the step that stands, and announces its return to both its partners (R79, R84). -/
def leaveReset (s : State) (i : Nat) : State :=
  let c := s.clock
  let s := { s with clock := { c with inReset := tput false c.inReset i false, waitExit := tput 0 c.waitExit i 0 } }
  sideUp (sideUp s .pondTile i .upper) .tarnPond i .lower

/-- A Pond region is ready to leave reset: at once, or when the commit count that stands has passed (R79). -/
def pondReturns (s : State) (i : Nat) : State :=
  if exitHeld s then
    let c := s.clock
    { s with clock := { c with inReset := tput false c.inReset i true, waitExit := tput 0 c.waitExit i (reg s Reg.clockCommit) } }
  else leaveReset s i

/-- Regions that waited for a commit count that has passed leave reset (R79). -/
def releaseExits (s : State) : State :=
  if s.clock.change.isSome then s
  else (s.clock.waitExit.filter fun e => e.2 ≤ s.time.now).foldl (fun s e => leaveReset s e.1) s

/-- Whether any of the PLLs that make the stepped clocks coasts (R57). -/
def stepPllCoasts (s : State) : Bool := field s Reg.clockPllstat 8 1 != 0

/-- Firmware restores the module step that stood before a coast, as far as the bands allow; while a change is armed it waits for
its end (R58). -/
def restoreStep (s : State) : State :=
  let t := minNat s.clock.stepBefore (bandStep (hottestPond s (liveSites s)))
  if stepPllCoasts s || t ≤ moduleStep s then { s with clock := { s.clock with restoreDue := false } }
  else if stepFree s then
    startChange { s with clock := { s.clock with restoreDue := false } } t (commitCount s s.time.now) none
  else { s with clock := { s.clock with restoreDue := true } }

/-- The change is abandoned: every region keeps the old step (R78). -/
def abandonChange (s : State) (missing : Nat) : State :=
  match s.clock.change with
  | none => s
  | some ch =>
    let s := putField (endChange s) Reg.clockStep 15 8 missing
    let s := raiseFlag s Reg.clockStep 16
    let s := ch.participants.foldl (fun s i => emit s (.stepMsg i msgAbandon ch.target ch.commit)) s
    let s := if ch.target ≤ moduleStep s then s else pondRails s (pondMv (moduleStep s))
    let s := raise s 2 5 (unitNo 0x0E 4) 0xFF 0 0 (srcTile 4)
    let s := answerWaiting s 0x51 ch.commit (.det stAbandoned missing)
    if s.clock.restoreDue then restoreStep s else s

/-- ARM (R77): a region whose voltage is good for the target and that is not in reset answers ARMED. -/
def arm (i : Nat) (s : State) : State :=
  match s.clock.change with
  | none => s
  | some ch =>
    if ch.participants.any (· == i) && pondRuns s i && pondMv ch.target ≤ field s (Reg.powerDomain (domPond i)) 15 0 then
      emit s (.stepMsg i msgArmed ch.target ch.commit)
    else s

def execArm (site : SiteNo) (s : State) : Host.Outcome State Fault Refusal := .next (arm site.val s)

/-- STEP_ARMED (R77): a participant's answer reaches the controller. -/
def stepArmed (i : Nat) (s : State) : State :=
  match s.clock.change with
  | none => s
  | some ch =>
    if ch.participants.any (· == i) && !ch.passed then
      { s with clock := { s.clock with change := some { ch with armed := ch.armed.filter (· != i) ++ [i] } } }
    else s

def execStepArmed (site : SiteNo) (s : State) : Host.Outcome State Fault Refusal := .next (stepArmed site.val s)

/-- The participants that have not answered. -/
def unarmed (ch : StepChange) : List Nat := ch.participants.filter fun i => !ch.armed.any (· == i)

/-- STEP_DEADLINE (R77, R78): at C - 8 us the controller checks the answers and the band limit. -/
def stepDeadline (s : State) : State :=
  match s.clock.change with
  | none => s
  | some ch =>
    if ch.passed || s.time.now + 8000 < ch.commit then s
    else
      match unarmed ch with
      | i :: is => abandonChange s (is.foldl minNat i)
      | [] =>
        if bandStep (hottestPond s ch.participants) < ch.target then abandonChange s 0xFF
        else { s with clock := { s.clock with change := some { ch with passed := true } } }

def execStepDeadline (s : State) : Host.Outcome State Fault Refusal := .next (stepDeadline s)

/-- HBM_STEP_QUIESCE (R230): at C - 2 us the stacks of the participants enter self refresh. -/
def hbmStepQuiesce (s : State) : State :=
  match s.clock.change with
  | none => s
  | some ch =>
    if !ch.passed || s.time.now + 2000 < ch.commit then s
    else ch.participants.foldl (fun s i => putBit s (Reg.memCfg i) 3 true) s

def execHbmStepQuiesce (s : State) : Host.Outcome State Fault Refusal := .next (hbmStepQuiesce s)

/-- STEP_COMMIT (R77, R79, R577): at C the participants switch and CURRENT takes the target; firmware then lowers the rails, and
regions that waited leave reset. While the PLLs coast CURRENT reads S0 (R57), and the target is what firmware restores; a change that
commits after a recovery takes the place of the step that was to be restored. DEDUCED, log 16. -/
def stepCommit (s : State) : State :=
  match s.clock.change with
  | none => releaseExits s
  | some ch =>
    if !ch.passed || s.time.now < ch.commit then s
    else
      let s := endChange s
      let s := { s with clock := { s.clock with restoreDue := false } }
      let s := if stepPllCoasts s then { s with clock := { s.clock with stepBefore := ch.target } }
        else putField s Reg.clockStep 2 0 ch.target
      let s := releaseExits (pondRails s (pondMv ch.target))
      answerWaiting s 0x51 ch.commit (.ok (leBytes 8 ch.commit))

def execStepCommit (s : State) : Host.Outcome State Fault Refusal := .next (stepCommit s)

/-! ### References (R56, R57) -/

def refNo : RefIn → Nat
  | .refA => 0
  | .refB => 1

/-- One PLL enters holdover: FOSC is its reference and its coast output its output (R57). The coast of any PLL cancels an armed
change (R80). -/
def holdover (s : State) (p : Nat) : State :=
  let before := if 1 ≤ p && p ≤ 8 && !stepPllCoasts s then moduleStep s else s.clock.stepBefore
  let lost := 1 + tget 0 s.clock.pllRef p
  let s := { s with clock := { s.clock with pllRef := tput 0 s.clock.pllRef p 2, pllLost := tput 0 s.clock.pllLost p lost,
                                            stepBefore := before } }
  let s := putBit s Reg.clockPllstat p true
  let s := raise s 2 2 (unitNo 0x0F (16 + p)) 0xFF 0 0 (srcTile 4)
  let s := if p == 0 then
      (List.range 16).foldl (fun s o => if linkUp s o then linkGoesDown s o 4 else s) (putBit s Reg.timeStat 0 true)
    else if p ≤ 8 then putField s Reg.clockStep 2 0 0
    else s
  abandonChange s 0xFE

/-- Every locked PLL on a reference enters holdover. -/
def loseRef (s : State) (r : Nat) : State :=
  (List.range 10).foldl (fun s p =>
    if tget 0 s.clock.pllRef p == r && regBit s Reg.clockPllstat (16 + p) then holdover s p else s) s

/-- The edges a monitor expects in 4,096 FOSC cycles (R56). -/
def refExpected (s : State) (r : RefIn) : Nat := if r == .refA && s.clock.refaMode then 256 else 1024

/-- Whether a count lies more than 3 % off. -/
def refBad (expected edges : Nat) : Bool := 3 * expected < 100 * ((edges - expected) + (expected - edges))

/-- REF_MONITOR_WINDOW (R56, R57, R636): a window is bad when its count is off by more than 3 %; two bad windows in a row declare
the reference lost, and 64 good ones set GOOD. -/
def refMonitorWindow (r : RefIn) (edges : Nat) (s : State) : State :=
  let n := refNo r
  let bad := refBad (refExpected s r) edges
  let b := if bad then (if n == 0 then s.clock.badA else s.clock.badB) + 1 else 0
  let g := if bad then 0 else minNat 64 ((if n == 0 then s.clock.goodA else s.clock.goodB) + 1)
  let s := putField s Reg.clockRefcount (16 * n + 12) (16 * n) (minNat edges 8191)
  let s := { s with clock :=
    (if n == 0 then { s.clock with badA := b, goodA := g } else { s.clock with badB := b, goodB := g }) }
  if b == 2 then
    let s := raiseFlag (putBit s Reg.clockRefstat (2 + n) false) Reg.clockRefstat n
    loseRef (raise s 2 1 (unitNo 0x0F n) 0xFF 0 0 (srcTile 4)) n
  else if g == 64 then putBit s Reg.clockRefstat (2 + n) true
  else s

/-! ### Basin time (R61 to R65) -/

/-- Units of 1/65,536 ns in `n` ns. -/
def nsUnits (n : Int) : Int := 65536 * n

/-- The nominal period of a region's local clock in 1/65,536 ns (R54, R57, R62, R75): the backbone's, the Pond clock of the step in
force or of a coast, and 1.25 ns of a Weir. The spec gives no frequency of the host interface's clock: it counts as the backbone's.
DESIGN CHOICE, log 8. -/
def localPeriod (s : State) (r : Nat) : Nat :=
  if copyWeir .a ≤ r then 81920
  else if r < copyPond 0 || r == copyHost then backbonePeriod s
  else
    let i := r - copyPond 0
    let k := if stepPllCoasts s then s.clock.stepBefore else moduleStep s
    if regBit s Reg.clockPllstat (1 + 2 * (i / 8) + i % 4 / 2) then 65536
    else if k < 2 then 65536 else if k < 4 then 43691 else 32768

/-- Which correction a beacon begins for a copy that stands at an error (R63): 0 none, 1 to add, 2 to withhold, 3 to hold, 4 to
jump. -/
def correction (e : Int) : Nat :=
  if e < nsUnits (-16) then 4 else if e < nsUnits (-2) then 1
  else if e ≤ nsUnits 2 then 0 else if e ≤ nsUnits 16 then 2 else 3

/-- The widest error of some copies. -/
def widest (es : List Int) : Int := es.foldl (fun m e => if m.natAbs < e.natAbs then e else m) 0

/-- The errors of the copies once each has counted the given cycles more, or fewer, than its nominal frequency gives. -/
def drifted (s : State) (extra : List (Nat × Int)) : Table Int :=
  extra.foldl (fun t d => if d.1 < 28 && d.1 != 4 then tmod 0 t d.1 (· + d.2 * localPeriod s d.1) else t) s.time.copyErr

/-- The source that reports the step of a region's copy. -/
def copySrc (r : Nat) : Nat :=
  if r ≤ 8 then srcTile r else if r ≤ 24 then srcPond (r - 9) else if r == copyHost then srcHost
  else if r == copyWeir .a then srcWeir .a else srcWeir .b

/-- A beacon's action on one copy (R63): a jump to the beacon's value, or a correction that runs from now on; one that is held stays
held until the master reaches it. -/
def correctCopy (s : State) (e : Nat × Int) : State :=
  let k := correction e.2
  let s := if k < 3 then s
    else raise (raiseFlag s Reg.timeStat 1) 2 3 (unitNo 0x0E (if e.1 ≤ 8 then e.1 else 4)) 0xFF e.1 (twos 64 (e.2.tdiv 65536))
      (copySrc e.1)
  let x := s.time
  if k == 4 then { s with time := { x with copyErr := tput 0 x.copyErr e.1 0, copyFix := tput 0 x.copyFix e.1 0 } }
  else if tget 0 x.copyFix e.1 == 3 then s
  else { s with time := { x with copyFix := tput 0 x.copyFix e.1 k } }

/-- The hotter of the bands of a site's Tarn and Pond (R324). -/
def hotterBand (s : State) (i : Nat) : Nat := maxNat (field s (Reg.siteStat i) 13 12) (field s (Reg.siteStat i) 15 14)

/-- A beacon has passed: the crossings take up the delay set of the hotter band (R324), and the drivers that of the site port's band at
the next frame boundary (R356). -/
def bandSettings (s : State) : State :=
  (List.range 16).foldl (fun s i =>
    let b := hotterBand s i
    let p := field s (Reg.lightStat i) 3 2
    modSite s i fun x => { x with abango := { x.abango with viaBand := b }, tapDue := if p == x.tapBand then none else some p }) s

/-- TIME_BEACON (R62, R63): tile 4 sends its time; each copy has counted its cycles since the last one, and is corrected. While the
TIME block is disabled there is no correction (R626). -/
def timeBeacon (extra : List (Nat × Int)) (s : State) : State :=
  let errs := drifted s extra
  let s := { s with time := { s.time with copyErr := errs } }
  if !s.time.running || !regBit s Reg.timeCtrl 0 then s
  else
    let s := putReg (emit s (.beacon s.time.now)) Reg.timeBeaconErr (twos 16 ((widest (errs.map (·.2))).tdiv 65536))
    let s := putBit s Reg.timeCtrl 2 (errs.all fun e => correction e.2 == 0)
    bandSettings (errs.foldl correctCopy s)

def execTimeBeacon (extra : List (Nat × Int)) (s : State) : Host.Outcome State Fault Refusal := .next (timeBeacon extra s)

/-- TIME_BACKUP_COPY (R65): while a feed is present the island copies the master. -/
def timeBackupCopy (s : State) : State :=
  if !s.time.running || s.island.onVkeep then s
  else { s with time := { s.time with backup := s.time.now, backupValid := true, shift := 0 } }

def execTimeBackupCopy (s : State) : Host.Outcome State Fault Refusal := .next (timeBackupCopy s)

end Sys2Proof.Machine
end

