-- ==== Sys2Proof/Machine/Crossings.lean ====
section
/-! DEFINITION. Resets of one side of a crossing (R83 to R85, R108, R306) and the reset of a failed site (R549, R599). -/

namespace Sys2Proof.Machine

/-! ### Ending what is outstanding (R83) -/

/-- Requests of one move leave its site port: those not yet accepted are dropped, and its stores are counted (R399, R410). -/
def cutMove (s : State) (c id : Nat) : State :=
  let i := c / 4
  let x := site s i
  let mine (r : OpenReq) : Bool := r.issuer == .move c id
  let lost := ((x.openReqs ++ x.flagged).filter fun r => mine r && r.p.type == 0x02).length
  let s := putSite s i { x with openReqs := x.openReqs.filter (fun r => !mine r), outstanding := x.outstanding.filter (fun r => !mine r),
                                flagged := x.flagged.filter (fun r => !mine r),
                                combining := x.combining.map fun e => { e with reqs := e.reqs.filter fun r => !mine r },
                                heldWrites := x.heldWrites.filter fun h => h.issuer != .move c id }
  if lost == 0 then s else addPairSat s Reg.fabricStoresDiscarded lost

/-- The moves of a site's cores that a test picks end with crossing-reset status. -/
def resetMoves (s : State) (i : Nat) (p : Nat → MoveRec → Bool) : State :=
  (List.range 4).foldl (fun s k =>
    let c := 4 * i + k
    (((core s c).moves.filter fun m => !m.bounds && p c m).foldl (fun s m =>
      match runCtx? s c with
      | some x => endMove (cutMove s c m.id) x c m .crossingReset
      | none => s)) s) s

/-- Whether a move crosses the Basin. -/
def leavesSite (c : Nat) (m : MoveRec) : Bool := m.kind == 4 || openMove c m || remoteStore c m m.chan || m.chan != 0xFFF

/-- Held writes, and requests that wait for the stack, at a site whose Pond side is gone end with crossing-reset status. -/
def resetHeld (s : State) (i : Nat) : State :=
  let hs := (site s i).heldWrites
  let ps := (site s i).asleep
  let s := modSite s i fun x => { x with heldWrites := [], asleep := [] }
  let s := ps.foldl (fun s q => refuse s i q.2.1 9) s
  hs.foldl (fun s h => match h.reply with
    | some q => refuse s i q.2 9
    | none => match h.issuer with
      | .move c id => modMove s c id fun m => { m with open_ := m.open_ - 1, bad := .crossingReset }
      | .copy ch id => copyAnswered s ch id fun q => { q with crossing := true }
      | _ => s) s

/-- Writes that wait for a sharer that is gone go on: its cache holds nothing any more. -/
def dropSharer (s : State) (t : Nat) : State :=
  (List.range 16).foldl (fun s i =>
    let rs := ((site s i).heldWrites.flatMap (·.waiting)).filter fun w => w.2 == t
    let s := rs.foldl (fun s w => invalAck i t w.1 s) s
    modSite s i fun x => { x with sharers := x.sharers.foldl (fun u e => tput 0 u e.1 (setBit e.2 t false)) [] }) s

/-- Requests outstanding toward a site that has reset end with CROSSING_RESET (R83, R411). -/
def resetToward (s : State) (i : Nat) : State :=
  (List.range 16).foldl (fun s j =>
    if j == i then s
    else
      ((site s j).outstanding.filter fun r => r.dst == i && r.outlet.isNone).foldl (fun s r =>
        deliverReply s j (replyTo s j r.p 0x13 9 [])) s) s

/-- The transmit channels of a site whose port has reset: those of the open share serve it, the others are idle (R296). -/
def clearTxch (s : State) (i : Nat) : State :=
  let up := regBit s (Reg.basinStat i) 1
  let s := dropRegs s fun off => Reg.basinTxch i 0 ≤ off && off < Reg.basinTxch i 256
  if !up then s
  else ((List.range 16).filter (· != i)).foldl (fun s d =>
    putField (putField s (Reg.basinTxch i (openPair i d).1) 31 30 2) (Reg.basinTxch i (openPair i d).2) 31 30 2) s

/-- What a site port holds and has not sent is lost; its unsent stores are counted (R399). -/
def clearPort (s : State) (i : Nat) : State :=
  let x := site s i
  let lost := ((x.openReqs ++ x.flagged).filter fun r => r.p.type == 0x02).length
  let s := putSite s i { x with openReqs := [], outstanding := [], flagged := [], combining := [], recvHeld := [], rings := [],
                                slot30 := none, slot31 := none, folded := [], failedTx := [], returning := [],
                                mods := [], paused := [], confirmed := [], txQ := [], txCount := [], lastGood := [], spareDue := [],
                                pairTurn := [], asleep := [] }
  let s := clearTxch s i
  if lost == 0 then s else addPairSat s Reg.fabricStoresDiscarded lost

/-- The exit port sends its egress queue first; what is left after 100 us is discarded (R399). -/
def beginDrain (s : State) (o : Nat) : State :=
  if egressEmpty s o then s else modSite s o fun x => { x with drainFrom := some s.time.now }

/-- A lane group whose frames begin anew (R306, R308). Its own tests and replacements stand; the partner's list is that of the training
that comes. -/
def restartGroup (g : Group) : Group :=
  { g with partnerBad := if g.trained then [] else g.partnerBad, seq := 0, acked := 0, sent := 0, kept := [], onLanes := 0,
           proposals := [], answered := none, switchAt := none, corrected := [], idleErrs := [], frames := 0, trained := false }

def restartGroups (t : Table Group) : Table Group :=
  t.foldl (fun u e => tput Group.reset u e.1 (restartGroup e.2)) []

/-- Negotiation begins anew (R306, R315). -/
def restartNego (s : State) (i : Nat) : State :=
  let s := modAbango s i fun a =>
    { a with nego := .idle, tries := 0, limitAcked := false, excess := 0, excessFrom := none, onTime := 0, capsAt := none, groupsDn := restartGroups a.groupsDn,
             groupsUp := restartGroups a.groupsUp }
  putBit (putBit s (Reg.abangoStat i) 1 false) (Reg.abangoStat i) 2 false

/-- Whether a move crosses between a Pond and its tile's memory side: a copy of the site's own Pond or stack. -/
def usesPond (c : Nat) (m : MoveRec) : Bool :=
  m.kind == 5 || m.kind == 6 || ((m.kind == 7 || m.kind == 8) && !openMove c m && !remoteStore c m m.chan)

/-- What the reset of one side ends, by the kind of the crossing: the transfers that the surviving side had accepted, and what the
side that resets held. Across the crossings of the host interface and the Weirs a transfer is one command, which ends with its own
status. -/
def crossEffects (s : State) (kind : CrossKind) (i : Nat) (d : Side) : State :=
  match kind, d with
  | .tarnPond, _ => resetMoves s i fun _ m => 4 ≤ m.kind
  | .pondTile, .upper =>
    let s := { s with clock := { s.clock with inReset := tput false s.clock.inReset i true } }
    resetHeld (resetMoves s i usesPond) i
  | .pondTile, .lower => resetHeld (resetMoves s i usesPond) i
  | .bundle, _ => restartNego (resetMoves s i leavesSite) i
  | .portTile, .upper =>
    let s := siteResetRuns s i
    let s := resetToward (dropSharer (resetHeld (resetMoves s i leavesSite) i) i) i
    beginDrain (clearPort s i) i
  | .portTile, .lower => resetToward (resetMoves s i leavesSite) i
  | .hostTile, _ | .weirTile _, _ => s

/-- The source that reports a crossing's fault: the site port, the host interface, or tile 4 for a Weir (R535, R540). -/
def crossSrc (x : Crossing) : Nat :=
  match x.kind with
  | .hostTile => srcHost
  | .weirTile _ => srcTile 4
  | _ => srcPort x.site.val

/-- CROSSING_PARTNER_RESET (R83): outstanding transfers end with crossing-reset status, new ones are refused, and the last epoch
is kept. -/
def crossingPartnerReset (x : Crossing) (s : State) : State :=
  let i := x.site.val
  raise (crossEffects (refuseSide s x.kind i x.side) x.kind i x.side) 5 8 (unitNo 0x02 i) 0xFF (crossKey x.kind i) 0 (crossSrc x)

def execCrossingPartnerReset (x : Crossing) (s : State) : Host.Outcome State Fault Refusal := .next (crossingPartnerReset x s)

/-- The surviving side of a crossing takes the epoch of a partner that returned (R84). The crossing resumes when neither side
refuses (R85). -/
def acceptSide (s : State) (x : Crossing) (epoch : Nat) : State :=
  putCross s x.kind x.site.val ((crossAt s x.kind x.site.val).withView x.side { epoch := epoch, refusing := false })

/-- Whether a crossing belongs to a site, and ends with a site reset. -/
def siteCrossing : CrossKind → Bool
  | .hostTile | .weirTile _ => false
  | _ => true

/-- PARTNER_UP (R79, R84, R85, R306, R599): the surviving side resumes with a greater epoch, and refuses any other message. A bundle
resumes only with its COMMIT, a Pond region only once it has left its reset exit, and no crossing of a site under site reset. -/
def partnerUp (x : Crossing) (epoch : Nat) (s : State) : State :=
  let i := x.site.val
  if epoch ≤ ((crossAt s x.kind i).view x.side).epoch then
    raise s 5 9 (unitNo 0x02 i) 0xFF (crossKey x.kind i) epoch (crossSrc x)
  else if siteCrossing x.kind && siteFailed s i then s
  else
    match x.kind, x.side with
    | .bundle, _ => if regBit s (Reg.abangoStat i) 2 then acceptSide s x epoch else s
    | .pondTile, .upper =>
      if tget false s.clock.inReset i && exitHeld s then pondReturns s i
      else acceptSide { s with clock := { s.clock with inReset := tput false s.clock.inReset i false } } x epoch
    | .portTile, .upper => reopenShare (acceptSide s x epoch) i
    | _, _ => acceptSide s x epoch

def execPartnerUp (x : Crossing) (epoch : Nat) (s : State) : Host.Outcome State Fault Refusal := .next (partnerUp x epoch s)

/-! ### Site reset (R549, R599, R646) -/

/-- A reset that clears the registers held in a site port; site state is held elsewhere (R618, R623). -/
def clearSiteRegs (s : State) (i : Nat) : State :=
  dropRegs s fun off => 0x104_0000 + i * 0x10_0000 ≤ off && off < 0x110_0000 + i * 0x10_0000

/-- SITE_RESET (R186, R549, R599, R646): firmware takes a failed site out of service until the next start. Dispatches on it end
with SITE_RESET, its cores are fenced, every crossing to it refuses, its stack is failed, and its Outlet goes down once its
egress queue is empty. That the fence removes the contexts of its cores, which R186 keeps for the reset alone, is DEDUCED, log 17. -/
def siteReset (i cause : Nat) (s : State) : State :=
  if siteFailed s i || !weirServes s then s
  else
    let s := if reg s (Reg.siteFailCause i) == 0 then putReg s (Reg.siteFailCause i) cause else s
    let s := putBit (putBit s (Reg.siteStat i) 1 true) (Reg.siteStat i) 2 false
    let s := modAbango (siteResetRuns s i) i fun a => { a with resetN := false }
    let s := [CrossKind.tarnPond, .pondTile, .bundle, .portTile].foldl (fun s k =>
      crossEffects (refuseSide s k i .upper) k i .upper) s
    let s := (List.range 4).foldl (fun s k => fenceCore s (4 * i + k) 0x04) s
    let s := offDomain (offDomain s (domPond i)) (domHbm i)
    let s := if egressEmpty s i then linkGoesDown s i 4 else s
    let s := if cause == 5 || cause == 6 || cause == 9 then offDomain (offDomain s (domPort i)) (domOutlet i) else s
    fwLog (clearSiteRegs s i) 5 10 (unitNo 0x02 i) 0xFF cause 0

end Sys2Proof.Machine
end

