-- ==== Sys2Proof/Machine/Abango.lean ====
section
/-! DEFINITION. The Abango interface: bundle frames, spare lanes, the sideband and its negotiation, violations, and via repair
(R297 to R332). -/

namespace Sys2Proof.Machine

def aba (s : State) (i : Nat) : Abango := (site s i).abango

/-! ### Lane groups (R307 to R311) -/

def groupOf (s : State) (i : Nat) (d : Dir) (q : Nat) : Group :=
  match d with
  | .down => tget .reset (aba s i).groupsDn q
  | .up => tget .reset (aba s i).groupsUp q

def putGroup (s : State) (i : Nat) (d : Dir) (q : Nat) (g : Group) : State :=
  modAbango s i fun a => match d with
    | .down => { a with groupsDn := tput .reset a.groupsDn q g }
    | .up => { a with groupsUp := tput .reset a.groupsUp q g }

def Dir.other : Dir → Dir
  | .down => .up
  | .up => .down

def isUp : Dir → Bool
  | .down => false
  | .up => true

/-- The lane-map register of a group (R332). -/
def laneMapWord (g : Group) : Nat :=
  let bs := if g.mode == 0 then badLanes g else []
  g.mode * 2 ^ 30 + bs.getD 0 0x7F + bs.getD 1 0x7F * 2 ^ 7 + bs.getD 2 0x7F * 2 ^ 14 + bs.getD 3 0x7F * 2 ^ 21

def laneMapAt (i : Nat) (d : Dir) (q : Nat) : Nat :=
  match d with
  | .down => Reg.abangoLanemapDn i q
  | .up => Reg.abangoLanemapUp i q

/-- Every group of both directions. -/
def allGroups (s : State) (i : Nat) : List Group :=
  (List.range 32).map (groupOf s i .down) ++ (List.range 32).map (groupOf s i .up)

/-- A group takes the mode of its bad lanes: its map, DEGRADED, and, where the mode changes after the start, the flag and report
of R310. A disabled group is always reported. The report of a group that is full again is that of R534's group halved. DESIGN CHOICE,
log 18. -/
def formMap (s : State) (i : Nat) (d : Dir) (q : Nat) (g : Group) : State :=
  let m := laneMode (badLanes g).length
  let changed := m != g.mode && regBit s Reg.globalStat 5
  let s := putGroup s i d q { g with mode := m }
  let s := putReg s (laneMapAt i d q) (laneMapWord { g with mode := m })
  let s := putBit s (Reg.abangoStat i) 3 ((allGroups s i).any fun h => h.mode != 0)
  let unit := unitNo 0x0C (i * 2 ^ 20 + (if isUp d then 2 ^ 19 else 0) + q * 2 ^ 14)
  let s := if changed then raiseFlag s (Reg.abangoFlags i) 2 else s
  if m == 2 && g.mode != 2 then raise s 5 3 unit 0xFF 0 0 (srcPort i)
  else if m != 2 && changed then raise s 5 2 unit 0xFF 0 0 (srcPort i)
  else s

/-! ### The sideband and violations (R312 to R319) -/

/-- Sideband message types (R314). -/
def sbHello : Nat := 0x01
def sbCaps : Nat := 0x02
def sbOffer : Nat := 0x03
def sbAccept : Nat := 0x04
def sbReject : Nat := 0x05
def sbCommit : Nat := 0x06
def sbReport : Nat := 0x10
def sbLimit : Nat := 0x11
def sbLimitAck : Nat := 0x12
def sbLanes : Nat := 0x13
def sbRefuse : Nat := 0x20

def le (n v : Nat) : List Nat := (leBytes n v).map (·.toNat)

/-- The types of R314. -/
def sbKnown (type : Nat) : Bool := (1 ≤ type && type ≤ 6) || (0x10 ≤ type && type ≤ 0x13) || type == sbRefuse

/-- A message on the wires: header, payload and CRC-16, its low byte first (R313). The CRC's byte order is a DESIGN CHOICE, log 18. -/
def sbBytes (type seq : Nat) (payload : List Nat) : List Nat :=
  let body := [type, payload.length, seq, 0] ++ payload
  body ++ le 2 (crc16 body)

/-- The site port sends a message under a number of its own (R313). -/
def sendMsg (s : State) (i type : Nat) (payload : List Nat) : State :=
  let n := (aba s i).sbSeq
  let s := modAbango s i fun a =>
    { a with sbSeq := (n + 1) % 256,
             sbSent := tput .reset a.sbSent type { seq := n, payload := payload, at_ := s.time.now, resends := 0 } }
  emit s (.sideband i (sbBytes type n payload))

/-- The site port's last message of a type. -/
def sentOf (s : State) (i type : Nat) : SbSent := tget .reset (aba s i).sbSent type

/-- Quarantine a site (R319). -/
def quarantineSite (s : State) (i : Nat) : State :=
  if regBit s (Reg.abangoStat i) 4 then s
  else raise (putBit s (Reg.abangoStat i) 4 true) 5 7 (unitNo 0x02 i) 0xFF 0 0 (srcPort i)

/-- The site port sends REFUSE, under the number of the message it answers: it is counted, and the 64th within 1 s quarantines the site
(R313, R314, R318, R319). -/
def sendRefuse (s : State) (i code type seq : Nat) : State :=
  let s := emit s (.sideband i (sbBytes sbRefuse seq [code, type, seq]))
  let s := raiseFlag (addPairSat s (Reg.abangoRefused i) 1) (Reg.abangoFlags i) 1
  let ts := (aba s i).refusals.filter (fun t => s.time.now < t + 1000000000) ++ [s.time.now]
  let s := modAbango s i fun a => { a with refusals := ts }
  if 64 ≤ ts.length then quarantineSite s i else s

/-- A violation by the die: refused, counted and logged (R318). -/
def violate (s : State) (i code type seq : Nat) : State :=
  raise (sendRefuse s i code type seq) 5 6 (unitNo 0x02 i) 0xFF code 0 (srcPort i)

/-- The violation that a message's arrival shows, 0 for none (R318): its CRC, its TYPE, its order, then its fields. -/
def sbFault (h : SbHead) (type : Nat) (payload : List Nat) (inOrder fits : Bool) : Nat :=
  if h.crc.toNat != crc16 ([h.type.toNat, h.len.toNat, h.seq.toNat, h.reserved.toNat] ++ payload) then 0x01
  else if !sbKnown h.type.toNat then 0x02
  else if h.type.toNat != type || !inOrder then 0x03
  else if h.reserved != 0 || h.len.toNat != payload.length || !fits then 0x04 else 0

/-- A sideband message from the die, while the sideband runs (R312): refused by how it arrived, or taken. -/
def sideband (s : State) (i : Nat) (h : SbHead) (type : Nat) (payload : List Nat) (inOrder fits : Bool) (f : State → State) : State :=
  if !regBit s (Reg.abangoStat i) 0 then s
  else
    match sbFault h type payload inOrder fits with
    | 0 => f s
    | code => violate s i code h.type.toNat h.seq.toNat

/-- Whether a reply carries the number of the message it answers (R313). A reply under another number counts as a field out of range.
DESIGN CHOICE, log 18. -/
def answersMsg (s : State) (i type : Nat) (h : SbHead) : Bool := h.seq.toNat == (sentOf s i type).seq

/-- Messages of the site port (R314). -/
def sendHello (s : State) (i : Nat) : State :=
  let n (m : Nat) : Nat := ((allGroups s i).filter fun g => g.mode == m).length
  sendMsg s i sbHello (le 2 0x0101 ++ [0xA1, i, n 0, n 1])

def offerBytes (f : OfferF) : List Nat := le 2 f.version ++ le 4 f.features.toNat ++ le 2 f.powerLimit ++ le 2 f.reportUs

def sendOffer (s : State) (i : Nat) : State := sendMsg s i sbOffer (offerBytes (aba s i).offer)

def sendCommit (s : State) (i : Nat) : State := sendMsg s i sbCommit (le 7 (aba s i).epoch)

/-- A LIMIT that names the present limit answers an alert (R321). -/
def sendLimit (s : State) (i : Nat) : State :=
  sendMsg (modAbango s i fun a => { a with limitAcked := false, alert := false }) i sbLimit (le 2 (aba s i).limit)

/-- The 32 bytes of one half of a bad-lane list (R314). -/
def lanesBytes (half : Nat) (bad : List (Nat × Nat)) : List Nat :=
  (List.range 32).map fun k => (Config.lanesByte half bad k).toNat

/-- The site port sends its list of bad down lanes, in two messages (R308, R314). -/
def sendLanes (s : State) (i : Nat) : State :=
  let bad := (List.range 32).flatMap fun q => (badLanes (groupOf s i .down q)).map fun l => (q, l)
  let msg (s : State) (half : Nat) : State := sendMsg s i sbLanes (lanesBytes half bad)
  msg (msg s 0) 1

/-! ### Training (R308 to R310) -/

/-- Whether a test found a lane bad: no eye, or any error (R308). -/
def testBad : LaneTest → Bool
  | .noEye => true
  | .wrongBits n => 0 < n

/-- BUNDLE_TRAINING (R300, R308, R309): a group is trained with the lanes that failed its test; its frames and scramblers begin anew.
Assembly-bad lanes are not tested (R307). With the last group the bundle is trained, and the site port has sent its list of down lanes
with the last of those. -/
def bundleTraining (i : Nat) (d : Dir) (q : Nat) (tests : List (Fin 68 × LaneTest)) (s : State) : State :=
  if siteFailed s i || !domOn s (domPort i) then s
  else
    let g := groupOf s i d q
    let bad := tests.filter fun t => testBad t.2 && !tget false g.assemblyBad t.1.val
    let g := { restartGroup g with startBad := bad.foldl (fun t l => tput false t l.1.val true) [], trained := true }
    let s := formMap s i d q g
    let s := if d == .down && (List.range 32).all fun q => (groupOf s i .down q).trained then sendLanes s i else s
    if (allGroups s i).all (·.trained) then putBit s (Reg.abangoStat i) 1 true else s

def execBundleTraining (site : SiteNo) (dir : Dir) (group : Fin 32) (tests : List (Fin 68 × LaneTest)) (s : State) :
    Host.Outcome State Fault Refusal := .next (bundleTraining site.val dir group.val tests s)

/-! ### Negotiation (R315 to R317) -/

def setNego (s : State) (i : Nat) (n : Nego) (tries : Nat) : State := modAbango s i fun a => { a with nego := n, tries := tries }

/-- Negotiation ends, and the site is not used. -/
def endNego (s : State) (i cause : Nat) : State := modAbango s i fun a => { a with nego := .ended, endCause := cause }

/-- HELLO (R315): the site port opens negotiation once the bundle has trained. -/
def hello (i : Nat) (s : State) : State :=
  if (aba s i).nego != .idle || !regBit s (Reg.abangoStat i) 1 || !regBit s (Reg.abangoStat i) 0 then s
  else sendHello (setNego s i .helloSent 1) i

def execHello (site : SiteNo) (s : State) : Host.Outcome State Fault Refusal := .next (hello site.val s)

/-- The highest version of 1.0 and 1.1 that a die supports: 0 for none (R316). -/
def commonVersion (f : CapsF) : Nat :=
  if f.verMin ≤ 0x0101 && 0x0101 ≤ f.verMax then 0x0101
  else if f.verMin ≤ 0x0100 && 0x0100 ≤ f.verMax then 0x0100 else 0

/-- The features that both sides support at a version (R316). -/
def commonFeatures (f : CapsF) (v : Nat) : BitVec 32 := f.features &&& (if v == 0x0101 then 0xF else 0x3)

/-- The capabilities of the Tarn/Pond stack of ITZ-TH16-A1-LQ (R316). -/
def tarnPondCaps : CapsF :=
  { cls := 0x0001, maker := 0x0001, stepping := 0xA1, verMin := 0x0100, verMax := 0x0101, powerMax := 460, sensors := 8,
    features := 0xF }

def capsBytes (f : CapsF) : List Nat :=
  le 2 f.cls ++ le 2 f.maker ++ le 1 f.stepping ++ le 2 f.verMin ++ le 2 f.verMax ++ le 2 f.powerMax ++ le 1 f.sensors ++
    le 4 f.features.toNat

/-- Whether capabilities lie in the ranges of R314. -/
def capsFit (f : CapsF) : Bool :=
  f.cls < 65536 && f.maker < 65536 && f.stepping < 256 && f.verMin < 65536 && f.verMax < 65536 && f.powerMax < 65536 &&
    1 ≤ f.sensors && f.sensors ≤ 16

/-- CAPS (R315, R316, R318): the die's capabilities; without a common version, SCHEDULED or OPEN the negotiation ends, and nothing of
them is kept. -/
def caps (i : Nat) (h : SbHead) (f : CapsF) (s : State) : State :=
  sideband s i h sbCaps (capsBytes f) ((aba s i).nego == .helloSent) (capsFit f && answersMsg s i sbHello h) fun s =>
    if commonVersion f == 0 || (commonFeatures f (commonVersion f)).toNat % 4 != 3 then
      endNego (violate s i 0x05 sbCaps h.seq.toNat) i 0x01
    else
      modAbango (putField s (Reg.abangoStat i) 31 16 f.cls) i fun a =>
        { a with caps := f, nego := .capsSeen, capsAt := some s.time.now }

/-- OFFER (R315): the highest common version, the common features, and the limit: the die's maximum, with a report every
1,000 us. The last two are DESIGN CHOICE, log 18. One that comes later than 20 ms after CAPS finds the die waiting for HELLO (R317). -/
def offer (i : Nat) (s : State) : State :=
  if (aba s i).nego != .capsSeen then s
  else
    let f := (aba s i).caps
    let v := commonVersion f
    let o : OfferF := { version := v, features := commonFeatures f v, powerLimit := f.powerMax, reportUs := 1000 }
    let late := (aba s i).capsAt.any fun t => t + 20000000 < s.time.now
    sendOffer (setNego (modAbango s i fun a => { a with offer := o, capsAt := if late then a.capsAt else none }) i .offerSent 1) i

def execOffer (site : SiteNo) (s : State) : Host.Outcome State Fault Refusal := .next (offer site.val s)

/-- Whether a reply to OFFER is in order: an OFFER is out, and it reached a die that waited for it (R315, R317). -/
def offerOut (s : State) (i : Nat) : Bool := (aba s i).nego == .offerSent && (aba s i).capsAt.isNone

/-- ACCEPT (R315): the offer unchanged. -/
def accept (i : Nat) (h : SbHead) (f : OfferF) (s : State) : State :=
  sideband s i h sbAccept (offerBytes f) (offerOut s i) (f = (aba s i).offer && answersMsg s i sbOffer h) fun s =>
    modAbango s i fun a => { a with nego := .accepted, limit := f.powerLimit, limitAcked := true }

def execAccept (site : SiteNo) (h : SbHead) (f : OfferF) (s : State) : Host.Outcome State Fault Refusal :=
  .next (accept site.val h f s)

/-- REJECT (R315): the die rejects the offer; the site is not used. DEDUCED, log 18. -/
def reject (i : Nat) (h : SbHead) (reason : Byte) (s : State) : State :=
  sideband s i h sbReject [reason.toNat] (offerOut s i) (answersMsg s i sbOffer h) fun s => endNego s i 0x01

/-- COMMIT (R84, R306, R315): the epoch completes negotiation, and the bundle's crossing resumes with it. -/
def commit (i : Nat) (s : State) : State :=
  if (aba s i).nego != .accepted then s
  else
    let e := copyTick s (sideCopy .bundle i .lower)
    let v := (aba s i).offer.version
    let s := modAbango s i fun a => { a with nego := .committed, epoch := e, reportAt := s.time.now, onTime := 0, late := false }
    let s := putBit (putField s (Reg.abangoStat i) 15 8 (v / 256 * 16 + v % 256)) (Reg.abangoStat i) 2 true
    let c := crossAt s .bundle i
    let take (v : PartnerView) : PartnerView := if v.epoch < e then { epoch := e, refusing := false } else v
    let s := if siteFailed s i then s else putCross s .bundle i { upper := take c.upper, lower := take c.lower }
    sendCommit s i

/-- Firmware lowers every core of a site that is not strict by one step (R318). How far, the spec does not say: one step. DESIGN
CHOICE, log 18. -/
def lowerSite (s : State) (i : Nat) : State :=
  (List.range 4).foldl (fun s k =>
    let c := 4 * i + k
    if corePowered s c && (pinOf s c).isNone && 0 < heading (core s c) then rampCore s c (heading (core s c) - 1) else s) s

/-- Whether 2 ms have passed since the site port's last message of a type (R317). -/
def replyDue (s : State) (i type : Nat) : Bool := (sentOf s i type).at_ + 2000000 ≤ s.time.now

/-- SIDEBAND_REPLY_TIMEOUT (R317, R318): HELLO and OFFER are sent at most three times; after the third the site is absent. A
LIMIT_ACK that is missing is violation 0x09, which acts as 0x06. A message is taken to end when it is sent. DEDUCED, log 18. -/
def sidebandReplyTimeout (i : Nat) (s : State) : State :=
  let a := aba s i
  let absent := raise (endNego s i 0x02) 5 10 (unitNo 0x02 i) 0xFF 0x02 0 (srcPort i)
  match a.nego with
  | .helloSent =>
    if !replyDue s i sbHello then s
    else if 3 ≤ a.tries then absent else sendHello (setNego s i .helloSent (a.tries + 1)) i
  | .offerSent =>
    if !replyDue s i sbOffer then s
    else if 3 ≤ a.tries then absent else sendOffer (setNego s i .offerSent (a.tries + 1)) i
  | .committed =>
    if a.limitAcked || !replyDue s i sbLimit then s
    else lowerSite (violate (modAbango s i fun a => { a with limitAcked := true }) i 0x09 sbLimitAck (sentOf s i sbLimit).seq) i
  | _ => s

/-- The payload of one half of a bad-lane list (R314). -/
def lanesPayload (half : Nat) (bad : List (Fin 32 × Fin 68)) : List Nat :=
  lanesBytes half (bad.map fun b => (b.1.val, b.2.val))

/-- LANES (R308, R310): one half of the die's bad-lane list; both lists are taken together. -/
def lanes (i : Nat) (d : Dir) (h : SbHead) (half : Nat) (bad : List (Fin 32 × Fin 68)) (s : State) : State :=
  sideband s i h sbLanes (lanesPayload half bad) ((aba s i).nego == .idle) true fun s =>
    ((List.range 32).filter fun q => bad.any fun b => b.1.val == q).foldl (fun s q =>
      let g := groupOf s i d q
      let g := { g with partnerBad := (bad.filter fun b => b.1.val == q).foldl (fun t b => tput false t b.2.val true) g.partnerBad }
      if g.trained then formMap s i d q g else putGroup s i d q g) s

def execLanes (site : SiteNo) (dir : Dir) (m : LanesF) (s : State) : Host.Outcome State Fault Refusal :=
  .next (lanes site.val dir m.head m.half.val m.bad s)

/-! ### Reports and limits (R318, R320, R321) -/

/-- Whether a REPORT has the shape that was agreed (R320). -/
def reportFits (a : Abango) (f : ReportF) : Bool :=
  f.temps.length == a.caps.sensors && f.flags.toNat < 2 && f.power < 65536 && f.corePower.all (· < 65536) &&
    f.corePower.length == if a.offer.features.toNat.testBit 3 then 4 else 0

/-- The payload of REPORT (R320). -/
def reportBytes (f : ReportF) : List Nat :=
  f.temps.flatMap (fun t => le 2 t.toNat) ++ le 2 f.power ++ le 2 f.flags.toNat ++ f.corePower.flatMap (le 2)

/-- REPORT (R318, R320, R590): the die's sensors and power. Three reports in a row above the limit are violation 0x06; four in a
row on time bring back sensors that were broken through lateness. -/
def report (i : Nat) (h : SbHead) (f : ReportF) (s : State) : State :=
  let a := aba s i
  sideband s i h sbReport (reportBytes f) (a.nego == .committed) (reportFits a f) fun s =>
    let onTime := if s.time.now ≤ a.reportAt + 1000 * a.offer.reportUs then minNat 4 (a.onTime + 1) else 0
    let beyond := 4 * a.limit < f.power
    let excess := if beyond then a.excess + 1 else 0
    let s := modAbango s i fun a =>
      { a with lastReport := f, reportAt := s.time.now, onTime := onTime, late := a.late && onTime < 4, excess := excess,
               excessFrom := if beyond then some (a.excessFrom.getD s.time.now) else none }
    if beyond && excess % 3 == 0 then lowerSite (violate s i 0x06 sbReport h.seq.toNat) i else s

def execReport (site : SiteNo) (h : SbHead) (f : ReportF) (s : State) : Host.Outcome State Fault Refusal :=
  .next (report site.val h f s)

/-- LIMIT (R318, R321): the site port names a power limit. -/
def limit (i watts : Nat) (s : State) : State :=
  if (aba s i).nego != .committed then s
  else sendLimit (modAbango s i fun a => { a with limit := watts % 65536 }) i

def execLimit (site : SiteNo) (watts : Nat) (s : State) : Host.Outcome State Fault Refusal := .next (limit site.val watts s)

/-- LIMIT_ACK (R313, R314, R318): a wrong one is violation 0x09, which acts as 0x06. -/
def limitAck (i : Nat) (h : SbHead) (watts : Nat) (s : State) : State :=
  let a := aba s i
  sideband s i h sbLimitAck (le 2 watts) (a.nego == .committed && !a.limitAcked) true fun s =>
    let s := modAbango s i fun a => { a with limitAcked := true }
    if watts == a.limit && answersMsg s i sbLimit h then s else lowerSite (violate s i 0x09 sbLimitAck h.seq.toNat) i

def execLimitAck (site : SiteNo) (h : SbHead) (watts : Nat) (s : State) : Host.Outcome State Fault Refusal :=
  .next (limitAck site.val h watts s)

/-- REFUSE (R318, R319): one that the site port sends answers a violation; one from the die makes the site port send the message with a
bad CRC again, under its number, at most three times. -/
def refuseMsg (i : Nat) (fromDie : Bool) (code type seq : Nat) (s : State) : State :=
  if !regBit s (Reg.abangoStat i) 0 then s
  else if !fromDie then violate s i code type seq
  else
    let s := raiseFlag s (Reg.abangoFlags i) 1
    let m := sentOf s i type
    if code == 0x01 && ((aba s i).sbSent.any fun e => e.1 == type) && m.seq == seq && m.resends < 3 then
      emit (modAbango s i fun a => { a with sbSent := tput .reset a.sbSent type { m with at_ := s.time.now, resends := m.resends + 1 } })
        (.sideband i (sbBytes type seq m.payload))
    else s

def execRefuse (site : SiteNo) (fromDie : Bool) (code type seq : Byte) (s : State) : Host.Outcome State Fault Refusal :=
  .next (refuseMsg site.val fromDie code.toNat type.toNat seq.toNat s)

/-- REPORT_LATE (R318, R322, R590): a REPORT more than two intervals late makes every sensor of the die broken. -/
def reportLate (i : Nat) (s : State) : State :=
  let a := aba s i
  if a.nego != .committed || a.late || s.time.now ≤ a.reportAt + 3000 * a.offer.reportUs then s
  else
    let s := modAbango s i fun a => { a with late := true, onTime := 0 }
    let s := raiseFlag (violate s i 0x07 sbReport 0) (Reg.abangoFlags i) 0
    raise s 13 3 (unitNo 0x13 (i * 2 ^ 16)) 0xFF 0 0 (srcPort i)

def execReportLate (site : SiteNo) (s : State) : Host.Outcome State Fault Refusal := .next (reportLate site.val s)

/-- The die domains of a site go off: its cores are fenced, and its crossings refuse (R83, R575). -/
def dieOff (s : State) (i : Nat) : State :=
  let s := (List.range 4).foldl (fun s k => fenceCore s (4 * i + k) 0x03) s
  let s := [CrossKind.tarnPond, .pondTile].foldl (fun s k =>
    crossEffects (refuseSide s k i .upper) k i .upper) s
  putBit (offDomain (offDomain s (domUncore i)) (domPond i)) (Reg.siteStat i) 2 false

/-- POWER_EXCESS_TIMEOUT (R318): an excess that has lasted 10 ms powers down the site's die domains. -/
def powerExcessTimeout (i : Nat) (s : State) : State :=
  match (aba s i).excessFrom with
  | none => s
  | some t => if (aba s i).excess < 3 || s.time.now < t + 10000000 then s
    else dieOff (modAbango s i fun a => { a with excess := 0, excessFrom := none }) i

def execPowerExcessTimeout (site : SiteNo) (s : State) : Host.Outcome State Fault Refusal :=
  .next (powerExcessTimeout site.val s)

/-- ABANGO_ALERT (R312, R321): a fault of the site, and a request for a REPORT: a LIMIT that names the present limit, to which the die
releases the wire. Before COMMIT there is no limit, and the wire stays low. -/
def abangoAlert (i : Nat) (s : State) : State :=
  if !regBit s (Reg.abangoStat i) 0 then s
  else
    let s := raise (modAbango s i fun a => { a with alert := true }) 0 3 (unitNo 0x02 i) 0xFF 0 0 (srcPort i)
    if (aba s i).nego == .committed then sendLimit s i else s

def execAbangoAlert (site : SiteNo) (s : State) : Host.Outcome State Fault Refusal := .next (abangoAlert site.val s)

/-! ### Frames that are sent (R302, R304) -/

/-- The sender has sent a frame: it keeps the last 64 (R304). -/
def noteSent (g : Group) (f : FrameCtl) (payload : List Byte) : Group :=
  let k := g.kept ++ [(f, payload)]
  { g with sent := f.seq.val, kept := k.drop (k.length - 64), onLanes := g.onLanes + 1 }

/-- Put a frame on the lanes of its group. -/
def putFrame (s : State) (i : Nat) (d : Dir) (q : Nat) (f : FrameCtl) (payload : List Byte) : State :=
  emit s (.frame i (isUp d) q f (frameLanes q (groupOf s i d q) f payload))

/-- The next frame of a direction that carries no payload: an acknowledgement, a request for a replay, or a lane command. -/
def nextFrame (s : State) (i : Nat) (d : Dir) (q : Nat) : FrameCtl :=
  { seq := Fin.ofNat 4096 ((groupOf s i d q).sent + 1), ack := Fin.ofNat 4096 (groupOf s i (Dir.other d) q).seq, nak := false, type := 1,
    cmd := 0, lane := 0, dir := .down, atSeq := 0, reserved := 0 }

def sendFrame (s : State) (i : Nat) (d : Dir) (q : Nat) (f : FrameCtl) : State :=
  let s := putFrame s i d q f []
  putGroup s i d q (noteSent (groupOf s i d q) f [])

/-- The frames that a NAK asks for again: those after ACK; none where they are no longer held (R304). -/
def replayOf? (g : Group) (ack : Nat) : Option (List (FrameCtl × List Byte)) :=
  let n := (g.sent + 4096 - ack) % 4096
  if 0 < n && n ≤ g.kept.length then some (g.kept.drop (g.kept.length - n)) else none

/-- Resend kept frames in order; each is counted. -/
def replayFrames (s : State) (i : Nat) (d : Dir) (q : Nat) (fs : List (FrameCtl × List Byte)) : State :=
  let s := fs.foldl (fun s e =>
    let s := putFrame s i d q e.1 e.2
    putGroup s i d q { groupOf s i d q with onLanes := (groupOf s i d q).onLanes + 1 }) s
  addPairSat s (Reg.abangoReplays i) fs.length

/-! ### Lane replacement (R311) -/

/-- Put a lane in its place among those proposed. -/
def addLane (l : Nat) : List Nat → List Nat
  | [] => [l]
  | x :: xs => if l == x then x :: xs else if l < x then l :: x :: xs else x :: addLane l xs

/-- The sender answers the lowest lane that is proposed, unless a switch is already agreed: AT_SEQ is 256 beyond the frame that carries
the AGREE. -/
def answerPropose (s : State) (i : Nat) (d : Dir) (q : Nat) : State :=
  let g := groupOf s i d q
  match g.answered, g.proposals with
  | none, l :: _ =>
    let f := nextFrame s i d q
    let at_ := (f.seq.val + 256) % 4096
    sendFrame (putGroup s i d q { g with answered := some (l, at_) }) i d q
      { f with cmd := 2, lane := Fin.ofNat 128 l, dir := d, atSeq := Fin.ofNat 4096 at_ }
  | _, _ => s

/-- PROPOSE (R311) reaches the sender. -/
def propose (i : Nat) (d : Dir) (q lane : Nat) (s : State) : State :=
  let g := groupOf s i d q
  if (badLanes g).any (· == lane) then s
  else answerPropose (putGroup s i d q { g with proposals := addLane lane g.proposals }) i d q

def execPropose (site : SiteNo) (dir : Dir) (group : Fin 32) (lane : Fin 68) (s : State) : Host.Outcome State Fault Refusal :=
  .next (propose site.val dir group.val lane.val s)

/-- Whether an AGREE answers a PROPOSE that is still open. -/
def agreeDue (g : Group) : Bool := !g.proposals.isEmpty && g.switchAt.isNone

/-- The lane that an AGREE concerns: the one the sender answered, else the lowest. -/
def agreeLane (g : Group) : Nat := match g.answered with
  | some e => e.1
  | none => g.proposals.headD 0

/-- AGREE (R311, R318): both ends will switch at a frame; an AGREE without a PROPOSE from the die is violation 0x08. -/
def agree (i : Nat) (d : Dir) (q atSeq : Nat) (s : State) : State :=
  let g := groupOf s i d q
  if agreeDue g then putGroup s i d q { g with switchAt := some (agreeLane g, atSeq), answered := some (agreeLane g, atSeq) }
  else if d == .down then violate s i 0x08 0 0 else s

def execAgree (site : SiteNo) (dir : Dir) (group : Fin 32) (atSeq : Fin 4096) (s : State) : Host.Outcome State Fault Refusal :=
  .next (agree site.val dir group.val atSeq.val s)

/-- LANE_MAP_SWITCH (R309 to R311): with frame AT_SEQ, the next one that the sender sends, both ends change to the new map; a PROPOSE
that waited is answered then. -/
def laneMapSwitch (i : Nat) (d : Dir) (q : Nat) (s : State) : State :=
  let g := groupOf s i d q
  match g.switchAt with
  | some (l, at_) =>
    if (g.sent + 1) % 4096 != at_ then s
    else
      let s := formMap s i d q { g with replaced := tput false g.replaced l true, proposals := g.proposals.filter (· != l),
                                        answered := none, switchAt := none, corrected := tdel g.corrected l }
      let s := raiseFlag (addPairSat s (Reg.abangoLaneSwaps i) 1) (Reg.abangoFlags i) 3
      let s := raise s 5 1 (unitNo 0x0C (i * 2 ^ 20 + (if isUp d then 2 ^ 19 else 0) + q * 2 ^ 14 + l * 2 ^ 7)) 0xFF 0 0 (srcPort i)
      answerPropose s i d q
  | none => s

def execLaneMapSwitch (site : SiteNo) (dir : Dir) (group : Fin 32) (s : State) : Host.Outcome State Fault Refusal :=
  .next (laneMapSwitch site.val dir group.val s)

/-! ### Frames that arrive (R301 to R304) -/

/-- Count the symbols corrected on the lanes of frame `n`, within the last 4,096 frames (R311). -/
def countCorrected (g : Group) (n : Nat) (ns : List Nat) : Group :=
  { g with corrected := (goodLanes g).foldl (fun t l =>
      let k := correctedOn g ns l
      if k == 0 then t else tmod [] t l fun es => es.filter (fun e => n < e.1 + 4096) ++ [(n, k)]) g.corrected }

/-- The good lanes whose count has reached 64 within the 4,096 frames that end with frame `n` (R311). -/
def failingLanes (g : Group) (n : Nat) : List Nat :=
  (g.corrected.filter fun c =>
    64 ≤ ((c.2.filter fun e => n < e.1 + 4096).map (·.2)).sum && !(badLanes g).any (· == c.1)).map (·.1)

/-- The receiver proposes to replace the lanes that fail, in its next frames in the opposite direction. -/
def proposeLanes (s : State) (i : Nat) (d : Dir) (q n : Nat) : State :=
  let ls := (failingLanes (groupOf s i d q) n).filter fun l => !(groupOf s i d q).proposals.any (· == l)
  ls.foldl (fun s l =>
    let s := putGroup s i d q { groupOf s i d q with proposals := addLane l (groupOf s i d q).proposals }
    sendFrame s i (Dir.other d) q { nextFrame s i (Dir.other d) q with cmd := 1, lane := Fin.ofNat 128 l, dir := d }) s

/-- A frame that cannot be taken is discarded: NAK, with the last good frame in ACK (R304). -/
def nakFrame (s : State) (i : Nat) (d : Dir) (q : Nat) : State :=
  sendFrame s i (Dir.other d) q { nextFrame s i (Dir.other d) q with nak := true }

/-- The violation that a frame shows, 0 for none (R302, R304, R318). -/
def frameFault (s : State) (i : Nat) (d : Dir) (q : Nat) (f : FrameCtl) : Nat :=
  if 2 ≤ f.type.val || 3 ≤ f.cmd.val || (f.nak && (replayOf? (groupOf s i (Dir.other d) q) f.ack.val).isNone) ||
    (f.cmd.val == 2 && !agreeDue (groupOf s i f.dir q)) then 0x08
  else if f.reserved.val != 0 || (f.cmd.val == 1 && 68 ≤ f.lane.val) then 0x04 else 0

/-- A frame's acknowledgement, replay request and lane command take effect. -/
def takeControl (s : State) (i : Nat) (d : Dir) (q : Nat) (f : FrameCtl) : State :=
  let o := groupOf s i (Dir.other d) q
  let s := putGroup s i (Dir.other d) q { o with acked := f.ack.val }
  let s := match if f.nak then replayOf? o f.ack.val else none with
    | some fs => replayFrames s i (Dir.other d) q fs
    | none => s
  if f.cmd.val == 1 then propose i f.dir q f.lane.val s
  else if f.cmd.val == 2 then agree i f.dir q f.atSeq.val s
  else s

/-- A frame's payload is passed on in order: a down frame's on its transmit channel, with the channel's idle frames where it carries
none or its group cannot fill the slot; an up frame's to the die (R303, R309). A die's data before COMMIT is passed on nowhere (R315;
DEDUCED, log 18). -/
def passFrame (s : State) (i : Nat) (d : Dir) (q : Nat) (f : FrameCtl) (payload : List Byte) : State :=
  let c := frameChannel q f.seq.val
  let data : Bool := f.type.val == 0 && (isUp d || regBit s (Reg.abangoStat i) 2)
  let s := if data then emit s (.chanBytes i (isUp d) c (framePayload f payload)) else s
  if !isUp d && (!data || (groupOf s i d q).mode == 1) then emit s (.chanIdle i c) else s

/-- A frame reaches its receiver with some wrong symbols. One that fails decoding or breaks a rule is answered with NAK; one out of
order waits for the replay. -/
def receiveFrame (s : State) (i : Nat) (d : Dir) (q : Nat) (f : FrameCtl) (payload : List Byte) (ns : List Nat) : State :=
  if bundleCode.reach < ns.length then nakFrame s i d q
  else
    match frameFault s i d q f with
    | 0 =>
      let g := groupOf s i d q
      if g.frames != 0 && f.seq.val != (g.seq + 1) % 4096 then s
      else
        let s := putGroup s i d q { countCorrected g g.frames ns with seq := f.seq.val, frames := g.frames + 1 }
        let s := passFrame (addPairSat s (Reg.abangoFecCorr i) ns.length) i d q f payload
        takeControl (proposeLanes s i d q g.frames) i d q f
    | code => nakFrame (if d == .down then violate s i code 0 0 else s) i d q

/-- Whether the sender holds a frame back: a quarantined site's bundle is idle, and a full buffer lets nothing new down (R304, R319). -/
def frameHeld (s : State) (i : Nat) (d : Dir) (g : Group) (f : FrameCtl) (new : Bool) : Bool :=
  (isUp d && f.type.val == 0 && quarantined s i) || (!isUp d && new && framesFull g)

/-- BUNDLE_FRAME (R300 to R304, R311, R318, R319): a frame as its sender sends it, and the bits that its lanes bring wrong. A
quarantined site's frames are refused but for lane commands. A disabled group carries none. -/
def bundleFrame (i : Nat) (d : Dir) (q : Nat) (f : FrameCtl) (payload : List Byte) (wrong : List (Fin 68 × Fin 256)) (s : State) :
    State :=
  let g := groupOf s i d q
  let new : Bool := g.kept.isEmpty || f.seq.val == (g.sent + 1) % 4096
  if !regBit s (Reg.abangoStat i) 1 || g.mode == 2 || frameHeld s i d g f new then s
  else
    let ns := wrongSymbols g wrong
    let s := putGroup s i d q (idleCheck (if new then noteSent g f payload else g) wrong)
    if quarantined s i && !isUp d && f.cmd.val == 0 then s else receiveFrame s i d q f payload ns

def execBundleFrame (site : SiteNo) (dir : Dir) (group : Fin 32) (f : FrameCtl) (x : FrameBody) (s : State) :
    Host.Outcome State Fault Refusal := .next (bundleFrame site.val dir group.val f x.payload x.wrong s)

/-! ### Vias (R325) -/

/-- VIA_PARITY_ERROR (R325): the group replays; 16 errors within 1 ms steer the failing via onto the spare. A group whose spare is
in use has no parity. -/
def viaParityError (i : Nat) (d : Dir) (q failing : Nat) (s : State) : State :=
  let a := aba s i
  let spare := if d == .down then a.viaSpareDn else a.viaSpareUp
  let errs := if d == .down then a.viaErrDn else a.viaErrUp
  if tget 0 spare q != 0 then s
  else
    let ts := (tget [] errs q).filter (fun t => s.time.now < t + 1000000) ++ [s.time.now]
    let full := 16 ≤ ts.length
    let errs := tput [] errs q (if full then [] else ts)
    let spare := if full then tput 0 spare q (failing + 1) else spare
    let s := modAbango s i fun a => if d == .down then { a with viaErrDn := errs, viaSpareDn := spare }
      else { a with viaErrUp := errs, viaSpareUp := spare }
    if !full then s
    else
      let s := raiseFlag (addPairSat s (Reg.abangoViaSwaps i) 1) (Reg.abangoFlags i) 4
      let s := putField s (Reg.abangoVia i) 26 16 (field s (Reg.abangoVia i) 26 16 + 1)
      raise s 5 4 (unitNo 0x0D (i * 2 ^ 20 + (if isUp d then 2 ^ 19 else 0) + q)) 0xFF 0 0 (srcPort i)

def execViaParityError (site : SiteNo) (dir : Dir) (group : Fin 1000) (failing : Fin 32) (s : State) :
    Host.Outcome State Fault Refusal := .next (viaParityError site.val dir group.val failing.val s)

end Sys2Proof.Machine
end

