-- ==== Sys2Proof/Machine/Crc.lean ====
section
/-! DEFINITION. CRC-32C (R190), and the bytes of a log entry (R542). -/

namespace Sys2Proof.Machine

/-- One bit of the reflected polynomial 0x1EDC_6F41. -/
def crcBit (c : BitVec 32) : BitVec 32 := if c.getLsbD 0 then (c >>> 1) ^^^ 0x82F63B78#32 else c >>> 1

def crcByte (c : BitVec 32) (b : Byte) : BitVec 32 :=
  crcBit (crcBit (crcBit (crcBit (crcBit (crcBit (crcBit (crcBit (c ^^^ b.zeroExtend 32))))))))

/-- The CRC-32C of a byte list. -/
def crc32c (bs : List Byte) : BitVec 32 := (bs.foldl crcByte 0xFFFF_FFFF#32) ^^^ 0xFFFF_FFFF#32

/-- The 64 bytes of a fault-log entry (R542). -/
def logBytes (e : LogEntry) : List Byte :=
  let r := e.body
  let flag (b : Bool) (i : Nat) : Nat := if b then 2 ^ i else 0
  let w0 := e.number % 2 ^ 32 + r.cls % 16 * 2 ^ 32 + r.sev % 8 * 2 ^ 40 + flag r.late 48 + flag r.isRepeat 49 +
    flag r.firmware 50 + r.part % 256 * 2 ^ 56
  let ws := [w0, r.tick % 2 ^ 56, r.code % 2 ^ 16 + r.unit % 2 ^ 32 * 2 ^ 16,
    minNat r.count (2 ^ 32 - 1) + r.firstSrc % 2 ^ 16 * 2 ^ 32, r.d0 % 2 ^ 64, r.d1 % 2 ^ 64, r.lastTick % 2 ^ 56]
  let bs := ws.flatMap (leBytes 8)
  bs ++ leBytes 8 (crc32c bs).toNat

end Sys2Proof.Machine
end

