-- ==== Sys2Proof/Machine/MemoryEvents.lean ====
section
/-! DEFINITION. Refresh (R225, R228 to R230) and the scrubber (R246 to R250). -/

namespace Sys2Proof.Machine

/-- The refresh rate of a band: x1, x2 or x4 as 0, 1, 2 (R228). -/
def refreshRate (band : Nat) : Nat := if band == 2 then 1 else if band == 3 then 2 else 0

/-- The all-bank-equivalent interval in ns (R228). -/
def refreshInterval (band : Nat) : Nat := if band == 2 then 1950 else if band == 3 then 975 else 3900

/-- Show the band in force: the highest among the stack's banks (R251, R252). -/
def showRefresh (s : State) (i : Nat) : State :=
  let b := (site s i).bankBand.foldl (fun m e => maxNat m e.2) 0
  putReg (putField s (Reg.memCfg i) 13 12 b) (Reg.memRefresh i) (refreshInterval b)

/-- HBM_REFRESH (R228, R229): a bank's refresh takes up a new band: a faster or equal rate at once, a slower one once every bank
has had a refresh at the faster rate. A refresh also honours the bank's refresh management request. -/
def hbmRefresh (i bank : Nat) (s : State) : State :=
  if regBit s (Reg.memCfg i) 3 || Config.hbmBanks ≤ bank then s
  else
    let x := site s i
    let cur := tget 0 x.bankBand bank
    let up := refreshRate cur ≤ refreshRate x.wantBand
    let done := (List.range Config.hbmBanks).all fun b => tget false x.refreshed b
    let s := putSite s i { x with bankBand := if up || done then tput 0 x.bankBand bank x.wantBand else x.bankBand,
                                  refreshed := if up || !done then tput false x.refreshed bank true else x.refreshed,
                                  rfm := x.rfm.filter (· != bank) }
    showRefresh s i

def execHbmRefresh (site : SiteNo) (bank : Nat) (s : State) : Host.Outcome State Fault Refusal :=
  .next (hbmRefresh site.val bank s)

/-- REFRESH_MANAGEMENT_REQUEST (R225): the controller honours it with a refresh of the bank. -/
def refreshManagementRequest (i bank : Nat) (s : State) : State :=
  if Config.hbmBanks ≤ bank then s else modSite s i fun x => { x with rfm := x.rfm.filter (· != bank) ++ [bank] }

def execRefreshManagementRequest (site : SiteNo) (bank : Nat) (s : State) : Host.Outcome State Fault Refusal :=
  .next (refreshManagementRequest site.val bank s)

/-- The address of a line of a site's stack or Pond. -/
def lineAddr (i : Nat) (pond : Bool) (line : Nat) : Nat := if pond then pondBase i + 64 * line else i * 2 ^ 36 + 64 * line

def lineInRange (s : State) (i : Nat) (pond : Bool) (line : Nat) : Bool :=
  if pond then 64 * line < pondScratch s i else line < 2 ^ 30

/-- The scrub position moves past a stack line; the last line ends a pass (R251). -/
def scrubMoves (s : State) (i : Nat) (pond : Bool) (line : Nat) : State :=
  if pond then s
  else if line + 1 == 2 ^ 30 then addPairSat (putReg s (Reg.memScrubPos i) 0) (Reg.memScrubPass i) 1
  else putReg s (Reg.memScrubPos i) (64 * (line + 1) / 65536)

/-- A line that the scrubber finds uncorrectable: on three passes in a row, repair of its row is recommended (R250). -/
def scrubRuns (s : State) (i a : Nat) : State :=
  let runs := tget 0 (site s i).ueRuns (a / 64) + 1
  let s := modSite s i fun x => { x with ueRuns := tput 0 x.ueRuns (a / 64) runs }
  if runs == 3 then repairReport s a else s

/-- SCRUB (R246 to R250): the next written line is read, corrected and written back, or poisoned where it is uncorrectable, with
a notice to its owner. Unwritten pages and poisoned lines are skipped. -/
def scrub (i : Nat) (pond : Bool) (line : Nat) (outcome : EccOutcome) (s : State) : State :=
  if !regBit s (Reg.memCfg i) 4 || regBit s (Reg.memCfg i) 3 || !lineInRange s i pond line then s
  else
    let a := lineAddr i pond line
    let s := scrubMoves s i pond line
    if !pageWritten s a || poisonedAt s a then s
    else
      let s := match outcome with
        | .uncorrectable => if pond then s else scrubRuns s i a
        | _ => modSite s i fun x => { x with ueRuns := tdel x.ueRuns (a / 64) }
      lineDecoded s a outcome

def execScrub (site : SiteNo) (pond : Bool) (line : Nat) (outcome : EccOutcome) (s : State) :
    Host.Outcome State Fault Refusal := .next (scrub site.val pond line outcome s)

end Sys2Proof.Machine
end

