-- ==== Sys2Proof/Machine/Activities.lean ====
section
/-! DEFINITION. Maintenance activities: the interlock, what starts and ends each, calibration of a channel, the calibration image
and the Weir flash (R288, R328, R347 to R353, R499 to R504, R560 to R563, R610). -/

namespace Sys2Proof.Machine

/-! ### The interlock (R561, R562) -/

def opSt : Nat := 0x40
def opCs : Nat := 0x43
def opHr : Nat := 0x45
def opRr : Nat := 0x46
def opSd : Nat := 0x47

/-- The site an activity names: the owner of a channel's guide for CC, the stack of an address for HR. -/
def actSite (a : Activity) : Nat :=
  if a.opcode == opCc then a.guide / 8 else if a.opcode == opHr then a.addr / 2 ^ 36 else a.site

/-- Whether two activities may run together. -/
def mayRunTogether (a b : Activity) : Bool :=
  let pair (x y : Nat) : Bool := (a.opcode == x && b.opcode == y) || (a.opcode == y && b.opcode == x)
  if pair opSt opCc || pair opSt opHr || pair opHr opHr then actSite a != actSite b
  else pair opSt opCs || pair opCc opHr || pair opCa opHr || pair opCs opHr || pair opCs opRr || pair opCr opHr

/-! ### Channels and calibration entries (R347, R350, R351, R368) -/

/-- The sites that a channel's calibration involves: all that are not failed. -/
def calSites (s : State) : List Nat := liveSites s

/-- The drop positions of guide g at site i that are free: no ring is tuned at them. -/
def freePositions (s : State) (i g : Nat) : List Nat :=
  ((List.range 8).map (8 * g + ·)).filter fun r => (tfind (site s i).rings r).isNone

/-- The entries of a channel: its modulator entry, and the entries for its wavelength of the free drop positions. -/
def channelEntries (s : State) (g l : Nat) : List Nat :=
  Reg.lightTxcal (g / 8) (32 * (g % 8) + l) ::
    ((calSites s).filter fun i => i != g / 8).flatMap fun i => (freePositions s i g).map fun r => Reg.lightRxcal i r l

/-- The drop monitors of the receivers that a channel feeds: receivers stand in the order of the rings (R369; PRESUMED, log 26). -/
def channelMonitors (s : State) (g l : Nat) : List Nat :=
  (List.range 16).flatMap fun i => ((site s i).rings.zipIdx.filter fun e => e.1.1 / 8 == g && e.1.2.lambda == l).map fun e =>
    Reg.lightRxpwr i e.2

/-- Whether a register is a drop monitor. -/
def dropMonitor (off : Nat) : Bool :=
  match Reg.place off with
  | (.light _, x) => 0x1000 ≤ x && x < 0x1400
  | _ => false

/-- Set STALE on a channel's monitors, or clear it on all: one channel is calibrated at a time. -/
def markMonitors (s : State) (g l : Nat) (b : Bool) : State :=
  if b then (channelMonitors s g l).foldl (fun s r => putBit s r 30 true) s
  else (s.regs.filter fun e => dropMonitor e.1 && bit e.2 30).foldl (fun s e => putBit s e.1 30 false) s

/-- Set or clear STALE on every entry of a channel, and on the monitors that concern it (R350). -/
def markStale (s : State) (g l : Nat) (b : Bool) : State :=
  let s := markMonitors s g l b
  let s := putBit s (Reg.lightTxcal (g / 8) (32 * (g % 8) + l)) 30 b
  (List.range 16).foldl (fun s i =>
    if i == g / 8 then s
    else (List.range 8).foldl (fun s k =>
      let r := Reg.lightRxcal i (8 * g + k) l
      if b then (if (freePositions s i g).any (· == 8 * g + k) then putBit s r 30 true else s)
      else if regBit s r 30 then putBit s r 30 false else s) s) s

/-- Show whether a calibration involving the sites runs. -/
def showCalibrating (s : State) (g l : Nat) (b : Bool) : State :=
  (calSites s).foldl (fun s i =>
    let r := Reg.lightStat i
    let s := putBit s r 1 b
    if b then putField (putField s r 22 16 g) r 12 8 l else s) s

def flagSites (s : State) (b : Nat) : State := (calSites s).foldl (fun s i => raiseFlag s (Reg.lightFlags i) b) s
def countSites (s : State) (r : Nat → Nat) : State := (calSites s).foldl (fun s i => addPairSat s (r i) 1) s

/-- Whether a phase that is ready or runs names a transmit channel. -/
def channelNamed (s : State) (i idx : Nat) : Bool :=
  s.contexts.any fun x => match x.run with
    | some r => ((if r.granted then [] else schedOf x r.phase) ++ heldSched x).any fun e => entrySite x e == i && e.chan == idx
    | none => false

/-- A channel without a working modulator of its own is failed: it is carried on a spare, relayed or folded, and what its slot carried as
a spare finds another place (R284 to R288, R348). -/
def failIndex (s : State) (i idx : Nat) : State :=
  if tget false (site s i).failedTx idx then s
  else
    let g := 8 * i + idx / 32
    let l := idx % 32
    let load := if idx == 223 then (site s i).slot30 else if idx == 255 then (site s i).slot31 else some idx
    let rs := receiversOf s g l
    let h := (ringsOn s g l).head?.bind fun o => o.2.2.handle
    let s := (ringsOn s g l).foldl (fun s o => modSite s o.1 fun x => { x with rings := x.rings.filter fun e => e.1 != o.2.1 }) s
    let s := modSite s i fun x =>
      { x with failedTx := tput false x.failedTx idx true, mods := tdel x.mods idx, slot30 := if idx == 223 then none else x.slot30,
               slot31 := if idx == 255 then none else x.slot31 }
    let s := putField s (Reg.basinTxch i idx) 31 30 3
    match load with
    | some k => placeIndex s i k h rs
    | none => s

/-- The site that an open channel of a site serves (R259). -/
def openDst? (i idx : Nat) : Option Nat :=
  (List.range 16).find? fun d => d != i && ((openPair i d).1 == idx || (openPair i d).2 == idx)

/-- The spare that carries an index is free again. -/
def freeSlot (idx : Nat) (x : SiteState) : SiteState :=
  { x with slot30 := if x.slot30 == some idx then none else x.slot30, slot31 := if x.slot31 == some idx then none else x.slot31 }

/-- A failed channel that passed calibration is back: its spare is free again, and the receiver of an open channel tunes its ring (R260,
R288). -/
def reviveIndex (s : State) (i idx : Nat) : State :=
  let x := site s i
  let spare : Option Nat := if x.slot30 == some idx then some (8 * i + 6) else if x.slot31 == some idx then some (8 * i + 7) else none
  let s := modSite s i fun x => freeSlot idx
    { x with failedTx := tput false x.failedTx idx false, mods := match spare with
               | some g => tdel x.mods (32 * (g % 8) + 31)
               | none => x.mods,
             folded := tput false x.folded idx false,
             returning := tput false x.returning idx false }
  let s := putField s (Reg.basinTxch i idx) 31 30 (if openIndex idx then 2 else 0)
  let s := match spare with
    | some g => (List.range 16).foldl (fun s d => modSite s d fun y =>
        { y with rings := y.rings.filter fun e => !(e.1 / 8 == g && e.2.lambda == 31 && e.2.handle.isNone) }) s
    | none => s
  match if openIndex idx then openDst? i idx else none with
  | some d => if regBit s (Reg.basinStat d) 1 then tuneRing (lightMod s i idx) d (8 * i + idx / 32) (idx % 32) none 1 id else s
  | none => s

/-- At a grant, channels that passed calibration and that no held schedule names return to service (R288). -/
def reviveChannels (s : State) : State :=
  (List.range 16).foldl (fun s i =>
    (site s i).returning.foldl (fun s e => if e.2 && !channelNamed s i e.1 then reviveIndex s i e.1 else s) s) s

/-! ### Starting (R348, R328, R58, R502) -/

def modAct (s : State) (n : Nat) (f : Activity → Activity) : State :=
  { s with acts := s.acts.map fun a => if a.num == n then f a else a }

/-- Whether the pair of a site's Springs is whole (R351). -/
def pairWhole (s : State) (i : Nat) : Bool :=
  [2 * (i / 4), 2 * (i / 4) + 1].all fun p => (List.range 10).any fun n =>
    field s (Reg.springStat n) 23 20 == p && field s (Reg.springStat n) 10 8 == 3

/-- Whether a queued activity's own conditions let it start. -/
def actReady (s : State) (a : Activity) : Bool :=
  if a.opcode == opCc then
    (openIndex (32 * (a.guide % 8) + a.lambda) || !channelNamed s (a.guide / 8) (32 * (a.guide % 8) + a.lambda)) &&
      (a.src == 0 || pairWhole s (a.guide / 8))
  else if a.opcode == opCa then a.src == 0 || (List.range 4).all fun p => pairWhole s (4 * p)
  else if a.opcode == opSt then !s.contexts.any fun x => x.cores.any fun k => k.core / 4 == a.site
  else true

/-- Whether a queued activity may start: with every running activity, and with every one queued before it (R562). -/
def mayBegin (s : State) (a : Activity) : Bool :=
  actReady s a && (s.acts.filter fun b => b.maint && b.mode == .running).all (mayRunTogether a) &&
    ((s.acts.filter fun b => b.maint && b.mode == .queued).takeWhile fun b => b.num != a.num).all (mayRunTogether a)

/-- The channel that CAL_ALL goes on with, from a channel number 32 g + l on: the next one that no ready or running phase names (R347). The
order of the channels is a DESIGN CHOICE, log 20. -/
def nextCal (s : State) (c : Nat) : Nat :=
  (((List.range 4096).map fun k => (c + k) % 4096).find? fun c =>
    !siteFailed s (c / 256) && (openIndex (c % 256) || !channelNamed s (c / 256) (c % 256))).getD (c % 4096)

/-- A CAL_ALL takes a channel out of service. -/
def pointCal (s : State) (n c : Nat) : State :=
  let s := modAct s n fun a => { a with guide := c / 32, lambda := c % 32, len := 0 }
  markStale (showCalibrating s (c / 32) (c % 32) true) (c / 32) (c % 32) true

/-- Point every coasting PLL at the reference other than the one that it lost, when that reports good (R58). -/
def recoverPlls (s : State) : State :=
  (List.range 10).foldl (fun s p =>
    let other := 2 - tget 0 s.clock.pllLost p
    if regBit s Reg.clockPllstat p && regBit s Reg.clockRefstat (2 + other) then
      { s with clock := { s.clock with pllRef := tput 0 s.clock.pllRef p other } }
    else s) s

/-- What happens as an activity starts. -/
def beginWork (s : State) (a : Activity) : State :=
  if a.opcode == opSt then restartNego (modSite s a.site fun x => { x with creditsHeld := true }) a.site
  else if a.opcode == opCc then showCalibrating (markStale s a.guide a.lambda true) a.guide a.lambda true
  else if a.opcode == opCa then pointCal s a.num (nextCal s 0)
  else if a.opcode == opRr then recoverPlls s
  else s

/-! ### Switchover (R480, R502, R555) -/

def otherWeir : Weir → Weir
  | .a => .b
  | .b => .a

def weirNo : Weir → Nat
  | .a => 0
  | .b => 1

def weirFailed (s : State) (w : Weir) : Bool :=
  match w with
  | .a => s.weir.failedA
  | .b => s.weir.failedB

/-- Whether a standby exists. -/
def hasStandby (s : State) : Bool := !weirFailed s (otherWeir s.weir.active)

/-- Show the Weirs in `FAULT_WEIR` (R567). -/
def showWeir (s : State) : State :=
  let st := if !hasStandby s then 2 else match otherWeir s.weir.active with
    | .b => 0
    | .a => 1
  putField (putBit (putField s Reg.faultWeir 2 1 st) Reg.faultWeir 0 (s.weir.active == .a)) Reg.faultWeir 5 5
    (if s.weir.mgmtLost then 1 else 0)

/-- An abandoned calibration (R351): the old entries stand, the channel is back in service, and firmware repeats it later. -/
def abandonCal (s : State) (a : Activity) (forSpring : Bool) : State :=
  let s := modAct s a.num fun a => { a with mode := .queued, src := if forSpring then 1 else a.src, len := 0 }
  flagSites (showCalibrating s a.guide a.lambda false) 4

/-- Abandon the running calibrations that a test picks. STALE stays until the new Weir clears it where a switchover is the
cause. -/
def abandonCals (s : State) (forSpring clear : Bool) (p : Activity → Bool) : State :=
  (s.acts.filter fun a => a.mode == .running && (a.opcode == opCc || a.opcode == opCa) && p a).foldl (fun s a =>
    let s := abandonCal s a forSpring
    if clear then markStale s a.guide a.lambda false else s) s

/-- Clear every STALE mark that an abandoned calibration left (R351). -/
def clearStale (s : State) : State :=
  (s.acts.filter fun a => a.mode == .queued && (a.opcode == opCc || a.opcode == opCa)).foldl (fun s a => markStale s a.guide a.lambda false) s

/-- A gap begins (R480, R555): GAP reads 1, the doorbells stamped in this tick receive BUSY, and running calibrations are
abandoned. -/
def beginGap (s : State) (g : Gap) : State :=
  let s := abandonCals s false false fun _ => true
  let s := { s with weir := { s.weir with gap := some g, missMsg := 0, missWire := 0 } }
  s.windows.foldl (fun s w => match w.2.stamped with
    | some q => modWin s w.1 fun w => { w with stamped := none, mode := 4, seq := q }
    | none => s) s

/-- A switchover is declared (R555): the starting Weir's domain is switched on while the failed one's goes off. -/
def declare (s : State) (g : Gap) : State :=
  let s := beginGap s g
  let s := if g.drill then s else offDomain s (domWeir g.former)
  rampDomain s (domWeir g.starting) (railMv (domWeir g.starting))

/-- The activity starts (R499, R562). -/
def startAct (s : State) (a : Activity) : State :=
  let s := journalStep (modAct s a.num fun b => { b with mode := .running, from_ := s.time.now })
  if a.opcode == opSd then
    let s := { s with weir := { s.weir with ckSeq := s.weir.ckSeq + 1, ckBank := 1 - s.weir.ckBank, journal := 0 } }
    declare s { starting := otherWeir s.weir.active, former := s.weir.active, beatsOnly := false, drill := true, retry := false,
                since := s.time.now, from_ := s.time.now }
  else beginWork s a

/-- Queued activities start in the order in which they were queued (R562). -/
def startQueued (s : State) : State :=
  if !weirServes s then s
  else (s.acts.filter fun a => a.maint && a.mode == .queued).foldl (fun s a => if weirServes s && mayBegin s a then startAct s a else s) s

/-- A maintenance activity is requested: it starts, or is queued (R499). The answer's status and number. -/
def requestAct (s : State) (a : Activity) : State × Nat × Nat :=
  let r := addActivity s { a with mode := .queued, maint := true }
  let a := { a with num := r.2 }
  if mayBegin r.1 a then (startAct r.1 a, stAccepted, r.2) else (r.1, stQueued, r.2)

/-! ### The calibration image (R501, R610) -/

def imageSize : Nat := 2113600

/-- The register words of a site's part of the image: STALE is no part of a stored entry. -/
def siteWords (s : State) (i : Nat) : List Nat :=
  ((List.range 256).map fun c => setBit (reg s (Reg.lightTxcal i c)) 30 false) ++
    (List.range 1024).flatMap fun r => (List.range 32).map fun l => setBit (reg s (Reg.lightRxcal i r l)) 30 false

def imageHead (crc : Nat) : List Byte :=
  leBytes 4 0x4C414349 ++ leBytes 2 1 ++ leBytes 2 0 ++ leBytes 8 Config.serial.toNat ++ leBytes 4 crc ++ leBytes 44 0

/-- The calibration image. -/
def calImage (s : State) : List Byte :=
  let body := (List.range 16).flatMap fun i => (siteWords s i).flatMap (leBytes 4)
  imageHead (crc32c (imageHead 0 ++ body)).toNat ++ body

/-- The cause for which an image is refused: 0 none (R501). -/
def imageFault (bs : List Byte) : Nat :=
  let at_ (o n : Nat) : Nat := leNat ((bs.drop o).take n)
  if at_ 0 4 != 0x4C414349 || at_ 4 2 != 1 || at_ 6 2 != 0 || ((bs.drop 20).take 44).any (· != 0) then 1
  else if at_ 8 8 != Config.serial.toNat then 2
  else if at_ 16 4 != (crc32c (bs.take 16 ++ leBytes 4 0 ++ bs.drop 20)).toNat then 3 else 0

/-- An entry as a register takes it: reserved bits are dropped, SEL 3 and codes above 3,200 are clamped, STALE stays (R368). -/
def calEntry (old v : Nat) : Nat :=
  let sel := minNat 2 (bits v 29 28)
  let code := minNat 3200 (bits v 11 0)
  bits v 31 31 * 2 ^ 31 + bits old 30 30 * 2 ^ 30 + sel * 2 ^ 28 + bits v 27 20 * 2 ^ 20 + code

def putEntry (s : State) (r v : Nat) : State := putReg s r (calEntry (reg s r) v)

/-- Load an image's entries of some sites. -/
def loadImage (s : State) (bs : List Byte) (sites : List Nat) : State :=
  sites.foldl (fun s i =>
    let ws := wordsOf 33024 ((bs.drop (0x40 + i * 0x2_0400)).take 0x2_0400)
    let rs := (List.range 256).map (Reg.lightTxcal i) ++ (List.range 1024).flatMap fun r => (List.range 32).map (Reg.lightRxcal i r)
    (rs.zip ws).foldl (fun s e => putEntry s e.1 e.2) s) s

/-! ### Flash (R503, R504) -/

def flashOf (s : State) (w : Nat) : Table Byte := if w == 0 then s.flash.a else s.flash.b

def putFlash (s : State) (w : Nat) (t : Table Byte) : State :=
  { s with flash := if w == 0 then { s.flash with a := t } else { s.flash with b := t } }

def flashByte (s : State) (w o : Nat) : Byte := tget 0xFF (flashOf s w) o

def flashErase (s : State) (w o n : Nat) : State := putFlash s w (tdrop (flashOf s w) fun k => o ≤ k && k < o + n)

/-- Write bytes from an offset: the table keeps its canonical form, an erased byte reading 0xFF. -/
def flashPut (s : State) (w o : Nat) (bs : List Byte) : State :=
  let t := flashOf s w
  let new := ((List.range bs.length).zip bs).filterMap fun b => if b.2 = 0xFF then none else some (o + b.1, b.2)
  putFlash s w (t.filter (fun e => e.1 < o) ++ new ++ t.filter fun e => o + bs.length ≤ e.1)

/-- The sector of the first byte that is not blank (R504). -/
def notBlank? (s : State) (w o n : Nat) : Option Nat :=
  ((flashOf s w).find? fun e => o ≤ e.1 && e.1 < o + n).map fun e => e.1 / 65536

/-- The active Weir writes the image to both flash devices (R610). -/
def writeCalImage (s : State) : State :=
  let bs := calImage s
  let s := [0, 1].foldl (fun s w => flashPut (flashErase s w 0x201_0000 0x21_0000) w 0x201_0000 bs) s
  { s with flash := { s.flash with calChanged := false, calWritten := s.time.now } }

/-! ### Ending (R499, R500, R504, R58) -/

/-- A lane map of the self-test record: bit l set for a bad lane (R500). -/
def laneBytes (g : Group) : List Byte := leBytes 9 (maskOf (badLanes g))

/-- The self-test record (R500): what was measured is RESULT in the first byte of `m`, then the via bytes of both directions. -/
def selftestRecord (s : State) (a : Activity) (m : List Byte) : List Byte :=
  let get (k : Nat) : Byte := m.getD k 0
  let lanes (d : Dir) : List Byte := (List.range 32).flatMap fun q => laneBytes (groupOf s a.site d q)
  let vias (o : Nat) : List Byte := (List.range 1000).map fun k => get (1 + o + k)
  [BitVec.ofNat 8 a.site, get 0] ++ leBytes 2 0x0104 ++ leBytes 4 ((s.time.now - a.from_) / 1000) ++ leBytes 8 a.from_ ++
    lanes .down ++ lanes .up ++ leBytes 16 0 ++ vias 0 ++ vias 1000 ++ leBytes (4096 - 0xA30) 0

/-- The effects of an activity's end, and the status and detail it ends with. -/
def finishWork (s : State) (a : Activity) (status detail : Nat) (m : List Byte) : State × Nat × Nat :=
  if a.opcode == opSt then
    let s := modSite s a.site fun x => { x with creditsHeld := false }
    (firmwareWrite s a.addr (selftestRecord s a m), status, detail)
  else if a.opcode == opCa then
    let s := markStale (showCalibrating s a.guide a.lambda false) a.guide a.lambda false
    (if status == stOk then writeCalImage s else s, status, detail)
  else if a.opcode == opCs then
    let s := if status == stOk then writeCalImage (firmwareWrite s a.addr (calImage s)) else s
    (s, status, detail)
  else if a.opcode == opCr then
    let bs := loadBytes s a.addr imageSize
    let f := imageFault bs
    if f != 0 then (s, stVerifyFailed, f)
    else
      let s := loadImage s bs (liveSites s)
      (if status == stOk then writeCalImage s else s, status, detail)
  else if a.opcode == opHr then
    (if status == stOk then modSite s (actSite a) fun x =>
        { x with ueRuns := tdrop x.ueRuns fun k => Config.hbmRow (64 * k) == Config.hbmRow a.addr }
      else s, status, detail)
  else if a.opcode == opRr then
    if status != stOk then (s, status, detail)
    else
      let s := (List.range 10).foldl (fun s p =>
        if regBit s Reg.clockPllstat p && tget 0 s.clock.pllRef p != 2 then putBit s Reg.clockPllstat p false else s) s
      (restoreStep (putBit s Reg.timeStat 0 (coasting s)), status, detail)
  else if a.opcode == 0x70 then
    (if status == stOk then flashErase s a.site a.addr a.len else s, status, detail)
  else if a.opcode == 0x71 then
    match notBlank? s a.site a.addr a.len with
    | some k => (s, stNotErased, k)
    | none => (if status == stOk then flashPut s a.site a.addr (loadBytes s a.src a.len) else s, status, detail)
  else (s, status, detail)

/-- Whether a self-test's site has trained and negotiated again (R328). -/
def bundleBack (s : State) (a : Activity) : Bool :=
  a.opcode != opSt || siteFailed s a.site ||
    (regBit s (Reg.abangoStat a.site) 1 && ((aba s a.site).nego == .committed || (aba s a.site).nego == .ended))

/-- ACTIVITY_DONE (R499): an activity ends with its event, and queued ones start. A channel's calibration ends with
CALIBRATION_DONE, a drill with its switchover, and a destroy and a sleep with their own steps. -/
def activityDone (n status detail : Nat) (m : List Byte) (s : State) : State :=
  match s.acts.find? fun a => a.num == n && a.mode == .running with
  | none => s
  | some a =>
    if !weirServes s || !bundleBack s a || a.opcode == opCc || a.opcode == opSd || a.opcode == 0x11 || a.opcode == 0x58 then s
    else
      let r := finishWork s a status detail m
      startQueued (endActivity r.1 n r.2.1 r.2.2)

def execActivityDone (activity status detail : Nat) (record : List Byte) (s : State) : Host.Outcome State Fault Refusal :=
  .next (activityDone activity status detail record s)

/-! ### Calibrations (R348, R349) -/

/-- The ring that calibration selects: the one whose code is at least 360 and the smallest such, with the code (R341). -/
def selectRing (m : CalMeas) : Option (Nat × Nat) :=
  [(0, m.code0), (1, m.code1), (2, m.code2)].foldl (fun b e =>
    if e.2 < 360 then b else match b with
      | none => some e
      | some c => if e.2 < c.2 then some e else b) none

/-- Whether two measurements of a position select one ring, at codes from 360 to 2,492 that lie within 3 of each other (R341, R349). -/
def ringsAgree (m n : CalMeas) : Bool :=
  match selectRing m, selectRing n with
  | some a, some b => a.1 == b.1 && a.2 ≤ b.2 + 3 && b.2 ≤ a.2 + 3 && a.2 ≤ 2492 && b.2 ≤ 2492
  | _, _ => false

/-- Whether the two measurements of an entry agree (R349). -/
def measAgree (p : CalPair) : Bool :=
  let near (a b n : Nat) : Bool := a ≤ b + n && b ≤ a + n
  ringsAgree p.first p.second && near p.first.aux p.second.aux 2 &&
    match p.reg with
    | .tx _ _ => 45 ≤ p.first.extinction && 45 ≤ p.second.extinction
    | .rx _ _ _ => true

def calRegAt : CalReg → Nat
  | .tx i c => Reg.lightTxcal i.val c.val
  | .rx i r l => Reg.lightRxcal i.val r.val l.val

def calUnit : CalReg → ParityUnit
  | .tx i c => .txcal i c
  | .rx i r l => .rxcal i r l

def measWord (m : CalMeas) : Nat :=
  match selectRing m with
  | some e => 2 ^ 31 + e.1 * 2 ^ 28 + m.aux % 256 * 2 ^ 20 + e.2 % 4096
  | none => 0

/-- The channel that a value set belongs to: that of its modulator entry. -/
def valueChannel? (vs : List CalPair) : Option (Nat × Nat) :=
  vs.findSome? fun v => match v.reg with
    | .tx i c => some (8 * i.val + c.val / 32, c.val % 32)
    | .rx _ _ _ => none

/-- A modulator in use takes the targets of its new entry (R342). -/
def relightMod (s : State) (i m : Nat) : State :=
  modSite s i fun x => if (tfind x.mods m).isSome then { x with mods := tins x.mods m (modulatorAt s i m) } else x

/-- A channel's calibration is accepted: the values of the second measurement are written as one update. -/
def acceptCal (s : State) (g l : Nat) (vs : List CalPair) : State :=
  let es := channelEntries s g l
  let s := vs.foldl (fun s v =>
    if es.any (· == calRegAt v.reg) then endUpset (putEntry s (calRegAt v.reg) (measWord v.second)) (· == calUnit v.reg) else s) s
  let s := countSites (markStale s g l false) Reg.lightCals
  let s := relightMod s (g / 8) (32 * (g % 8) + l)
  let i := g / 8
  let idx := 32 * (g % 8) + l
  let s := if tget false (site s i).failedTx idx then modSite s i fun x => { x with returning := tput false x.returning idx true } else s
  { s with flash := { s.flash with calChanged := true } }

/-- A second disagreement: the old entries stand, and the channel is marked failed. -/
def rejectCal (s : State) (g l : Nat) : State :=
  let s := countSites (flagSites (markStale s g l false) 5) Reg.lightCalRejects
  let s := raise s 4 11 (unitNo 0x0A (32 * g + l)) (channelPart s (g / 8) (32 * (g % 8) + l)) 0 0 (srcPort (g / 8))
  failIndex s (g / 8) (32 * (g % 8) + l)

/-- Whether a running activity may have calibrated a channel: CAL_CHANNEL its own; the others one that they hold, or that no ready or running
phase names (R347). -/
def mayCalibrate (s : State) (a : Activity) (g l : Nat) : Bool :=
  let own : Bool := a.guide == g && a.lambda == l
  if a.opcode == opCc then own
  else (a.opcode == opCa || a.opcode == opCr) &&
    ((own && holdsChannel a) || openIndex (32 * (g % 8) + l) || !channelNamed s (g / 8) (32 * (g % 8) + l))

/-- A channel is done with: CAL_CHANNEL ends; CAL_ALL goes on with the next channel; the others note it. -/
def calNext (s : State) (a : Activity) (g l status : Nat) : State :=
  if a.opcode == opCc then startQueued (endActivity (showCalibrating s g l false) a.num status 0)
  else if a.opcode == opCa && a.maint then
    let s := if a.guide == g && a.lambda == l then s else markStale s a.guide a.lambda false
    pointCal s a.num (nextCal s (32 * g + l + 1))
  else modAct s a.num fun a => { a with guide := g, lambda := l, len := 0 }

/-- CALIBRATION_DONE (R348): a channel's two measurements are in: accepted, measured once more, or rejected. Within CAL_ALL,
CAL_RESTORE and stage 7 the channel is that of the modulator entry, and the activity goes on. -/
def calibrationDone (n : Nat) (vs : List CalPair) (s : State) : State :=
  match s.acts.find? fun a => a.num == n && a.mode == .running with
  | none => s
  | some a =>
    match valueChannel? vs with
    | none => s
    | some (g, l) =>
      if !weirServes s || !mayCalibrate s a g l then s
      else
        let s := journalStep s
        if vs.all measAgree then calNext (acceptCal s g l vs) a g l stOk
        else if a.len == 32 * g + l + 1 then calNext (rejectCal s g l) a g l stVerifyFailed
        else modAct (if a.opcode == opCc then s else markStale (showCalibrating s g l true) g l true) n fun a =>
          { a with guide := g, lambda := l, len := 32 * g + l + 1 }

def execCalibrationDone (activity : Nat) (values : List CalPair) (s : State) : Host.Outcome State Fault Refusal :=
  .next (calibrationDone activity values s)

/-- CAL_IMAGE_WRITE (R610): once in every 24 h in which an entry has changed, the active Weir writes the image. -/
def calImageWrite (s : State) : State :=
  if weirServes s && s.flash.calChanged && s.flash.calWritten + 86400000000000 ≤ s.time.now then writeCalImage s else s

def execCalImageWrite (s : State) : Host.Outcome State Fault Refusal := .next (calImageWrite s)

end Sys2Proof.Machine
end

