-- ==== Sys2Proof/Machine/Transcend.lean ====
section
/-! DEFINITION. The transcendental unit (R150, R151). A result that is not representable is one of the two representable
values that bracket the exact result; which one is the opaque `Config.faithful`. The lower of the two is computed here in
fixed point, well beyond the precision of FP32. -/

namespace Sys2Proof.Machine

/-- The fixed-point unit: 2^192. -/
def fixOne : Nat := 2 ^ 192

/-- ln 2 in fixed point, floored. -/
def fixLn2 : Nat := 4350955369971217654477563090224794165364344896676135745069

/-- The terms of the exponential series of `t` from term `n` on, each from the one before. -/
def expTerms : Nat → Nat → Nat → Nat → Nat
  | 0, _, _, _ => 0
  | fuel + 1, n, t, term => term + expTerms fuel (n + 1) t (term * t / fixOne / (n + 1))

/-- e^t for a fixed-point t of 0 to 1. -/
def fixExp (t : Nat) : Nat := expTerms 60 0 t fixOne

/-- Square `n` times in fixed point. -/
def fixSquares : Nat → Nat → Nat
  | 0, x => x
  | n + 1, x => fixSquares n (x * x / fixOne)

/-- `n` bits of the fraction of log2 of a mantissa of 2^256 to 2^257, by repeated squaring. -/
def logBits : Nat → Nat → Nat → Nat
  | 0, _, acc => acc
  | n + 1, x, acc =>
    let y := x * x / 2 ^ 256
    if 2 ^ 257 ≤ y then logBits n (y / 2) (2 * acc + 1) else logBits n y (2 * acc)

/-- The bits of the integer square root of `n` from bit `i` down, above those already in `r`. -/
def sqrtBits : Nat → Nat → Nat → Nat
  | 0, _, r => r
  | i + 1, n, r => if (r + 2 ^ i) * (r + 2 ^ i) ≤ n then sqrtBits i n (r + 2 ^ i) else sqrtBits i n r

/-- The integer square root of a number below 2^(2 * 288). -/
def isqrt (n : Nat) : Nat := sqrtBits 288 n 0

/-- The transcendental functions, numbered as `Config.faithful` takes them. -/
inductive TFun where
  | exp2 | log2 | rcp | rsq | tanh
deriving DecidableEq, Repr

def TFun.num : TFun → Nat
  | .exp2 => 0
  | .log2 => 1
  | .rcp => 2
  | .rsq => 3
  | .tanh => 4

/-- The faithful result for an exact magnitude of which `m * 2^e` is all but the tail: the value itself when it is exact and
representable, else one of the two that bracket it (R150). -/
def faithful (fn : TFun) (x : Nat) (neg : Bool) (m : Nat) (e : Int) (exact : Bool) : Res :=
  let f := fFP32
  let q := f.ulp m e
  let t := quantise m e q
  let up := Config.faithful fn.num (BitVec.ofNat 32 x)
  if exact && t.2.1 == 0 && !f.overflows t.1 q then .exact (f.pack neg t.1 q)
  else if exact && t.2.1 == 0 then
    if up then { bits := f.infBits neg, fl := flOverflow ||| flInexact }
    else { bits := f.infBits neg - 1, fl := flInexact }
  else
    let k := if up then t.1 + 1 else t.1
    let tiny := if Config.tinyAfter then k < 2 ^ f.mb else t.1 < 2 ^ f.mb
    if f.overflows k q then { bits := f.infBits neg, fl := flOverflow ||| flInexact }
    else { bits := f.pack neg k q, fl := if tiny then flUnderflow ||| flInexact else flInexact }

/-- 2^x (R151). -/
def tExp2 (x : Nat) : Res :=
  match fFP32.decode x with
  | .nan s => fFP32.nanRes (if s then flInvalid else 0)
  | .inf n => .exact (if n then 0 else fFP32.infBits false)
  | .num n m e =>
    -- x in units of 2^-192
    let v : Int := signedNat n (m * 2 ^ (e + 192).toNat)
    let one : Int := fixOne
    if 128 * one ≤ v then { bits := fFP32.infBits false, fl := flOverflow }
    else if v < -150 * one then { bits := 0, fl := flUnderflow ||| flInexact }
    else
      let k := v / one
      let frac := (v % one).toNat
      if frac == 0 && -149 ≤ k then .exact (fFP32.pack false (if k < -126 then 2 ^ (k + 149).toNat else 2 ^ 23)
        (if k < -126 then -149 else k - 23))
      else faithful .exp2 x false (fixExp (frac * fixLn2 / fixOne)) (k - 192) (frac == 0)

/-- log2 x (R151). -/
def tLog2 (x : Nat) : Res :=
  match fFP32.decode x with
  | .nan s => fFP32.nanRes (if s then flInvalid else 0)
  | .inf n => if n then fFP32.nanRes flInvalid else .exact (fFP32.infBits false)
  | .num n m e =>
    if m == 0 then { bits := fFP32.infBits true, fl := flDivZero }
    else if n then fFP32.nanRes flInvalid
    else
      let k := e + bitLen m - 1
      if m == 2 ^ (bitLen m - 1) then fFP32.roundInt k 0 false
      else
        let v : Int := k * (2 ^ 120 : Nat) + logBits 120 (m * 2 ^ (257 - bitLen m)) 0
        faithful .log2 x (v < 0) v.natAbs (-120) false

/-- 1 / x (R151). -/
def tRcp (x : Nat) : Res :=
  match fFP32.decode x with
  | .nan s => fFP32.nanRes (if s then flInvalid else 0)
  | .inf n => .exact (fFP32.signBit n)
  | .num n m e =>
    if m == 0 then { bits := fFP32.infBits n, fl := flDivZero }
    else if e + bitLen m - 1 < -128 then { bits := fFP32.infBits n, fl := flOverflow }
    else faithful .rcp x n (2 ^ 300 / m) (-300 - e) (2 ^ 300 % m == 0)

/-- 1 / sqrt x (R151). -/
def tRsq (x : Nat) : Res :=
  match fFP32.decode x with
  | .nan s => fFP32.nanRes (if s then flInvalid else 0)
  | .inf n => if n then fFP32.nanRes flInvalid else .exact 0
  | .num n m e =>
    if m == 0 then { bits := fFP32.infBits n, fl := flDivZero }
    else if n then fFP32.nanRes flInvalid
    else
      let m := if e % 2 == 0 then m else 2 * m
      let e := if e % 2 == 0 then e else e - 1
      let r := isqrt (2 ^ 400 / m)
      faithful .rsq x false r (-200 - e / 2) (r * r * m == 2 ^ 400)

/-- tanh x (R151). -/
def tTanh (x : Nat) : Res :=
  match fFP32.decode x with
  | .nan s => fFP32.nanRes (if s then flInvalid else 0)
  | .inf n => .exact (fFP32.pack n (2 ^ 23) (-23))
  | .num n m e =>
    let v := m * 2 ^ (e + 192).toNat
    if v < fixOne / 2 ^ 12 then { bits := x, fl := if m == 0 then 0 else flInexact }
    else if 10 * fixOne ≤ v then { bits := fFP32.pack n (2 ^ 23) (-23), fl := flInexact }
    else
      let ex := fixSquares 6 (fixExp (v / 32))
      faithful .tanh x n ((ex - fixOne) * fixOne / (ex + fixOne)) (-192) false

def TFun.apply : TFun → Nat → Res
  | .exp2, x => tExp2 x
  | .log2, x => tLog2 x
  | .rcp, x => tRcp x
  | .rsq, x => tRsq x
  | .tanh, x => tTanh x

end Sys2Proof.Machine
end

