-- ==== Sys2Proof/Machine/Vector.lean ====
section
/-! DEFINITION. The V slot (R205 to R208, R147 to R151): loads and stores of vector registers, elementwise arithmetic,
conversions, the transcendental functions and the reductions. -/

namespace Sys2Proof.Machine

/-- The lane format of R205, in the element codes of R201. -/
def laneFmt (l : Nat) : FFmt := if l == 0 then fFP32 else if l == 1 then fBF16 else fFP16

def laneBits (l : Nat) : Nat := if l == 0 then 32 else 16
def laneCount (l : Nat) : Nat := if l == 0 then 128 else 256

def spanN (f : VecF) : Nat := f.span.val + 1

/-- The registers an operation reads and those it writes (R206 to R208). -/
def vecReads (op : VecOp) (f : VecF) : List Nat :=
  let s1 := regSpan f.src1.val (spanN f)
  match op with
  | .add | .sub | .mul | .min | .max => s1 ++ regSpan f.src2.val (spanN f)
  | .fma => s1 ++ regSpan f.src2.val (spanN f) ++ regSpan f.src3.val (spanN f)
  | .cvt => if f.xfmt.val == 0 || f.lfmt.val != 0 then s1 else regSpan f.src1.val (spanN f / 2)
  | .unpkmx => regSpan f.src1.val (spanN f / 4) ++ [f.src2.val]
  | _ => s1

def vecWrites (op : VecOp) (f : VecF) : List Nat :=
  match op with
  | .cvt => if f.xfmt.val == 0 && f.lfmt.val != 0 then regSpan f.dst.val (spanN f / 2) else regSpan f.dst.val (spanN f)
  | .cvtmx => regSpan f.dst.val (spanN f / 4) ++ [f.src2.val]
  | _ => regSpan f.dst.val (spanN f)

/-- Rule 9 of R220: what a loaded plan's operation meets. An operation that breaks it is never issued by a plan, and here it
changes nothing (log 10). Where R207 and R208 have an operation name fewer registers than SPAN on one side, the bound of R205 holds
for those it names: half of SPAN for the BF16 or FP16 side of a CVT with FP32, a quarter of it for the MX side of CVTMX and UNPKMX,
and one for their scales. DEDUCED, log 10. -/
def vecLegal (op : VecOp) (f : VecF) : Bool :=
  f.lfmt.val < 3 && (vecReads op f).all (· < 64) && (vecWrites op f).all (· < 64) &&
    (match op with
    | .cvt => f.xfmt.val < 3 && ((f.xfmt.val == 0) == (f.lfmt.val == 0) || spanN f % 2 == 0)
    | .cvtmx | .unpkmx => f.lfmt.val == 0 && spanN f % 4 == 0 && f.xfmt.val < 6
    | .exp2 | .log2 | .rcp | .rsq | .tanh => f.lfmt.val == 0
    | _ => true)

/-- The elements of register `r` in a lane format. -/
def regElems (y : CoreState) (l r : Nat) : List Nat := elems (laneBits l) (laneCount l) (vreg y r)

/-- One element's result. -/
def elemOp (op : VecOp) (l a b c : Nat) : Res :=
  let f := laneFmt l
  match op with
  | .add => f.add (f.decode a) (f.decode b)
  | .sub => f.add (f.decode a) (f.decode b).negate
  | .mul => f.mul (f.decode a) (f.decode b)
  | .fma => f.fma (f.decode a) (f.decode b) (f.decode c)
  | .min => f.minMax true a b
  | .max => f.minMax false a b
  | .abs => f.signOp false a
  | .neg => f.signOp true a
  | .exp2 => TFun.exp2.apply a
  | .log2 => TFun.log2.apply a
  | .rcp => TFun.rcp.apply a
  | .rsq => TFun.rsq.apply a
  | .tanh => TFun.tanh.apply a
  | _ => .exact a

/-- Three lists element by element. -/
def zip3 : List Nat → List Nat → List Nat → List (Nat × Nat × Nat)
  | a :: as, b :: bs, c :: cs => (a, b, c) :: zip3 as bs cs
  | _, _, _ => []

/-- What an operation writes: registers with their values, in order, and the flags and saturations it raises. -/
structure VecOut where
  regs : List (Nat × Nat)
  fl : Flags
  sat : Nat

/-- Elementwise operations (R206). SAT counts output conversions only, those of DRAIN and CVTMX: no result of vector arithmetic, and
no CVT, which R148 governs. DEDUCED, log 4. -/
def vecElementwise (y : CoreState) (op : VecOp) (f : VecF) : VecOut :=
  let l := f.lfmt.val
  let rs := (List.range (spanN f)).map fun i =>
    ((zip3 (regElems y l (f.src1.val + i)) (regElems y l (f.src2.val + i)) (regElems y l (f.src3.val + i))).map
      fun t => elemOp op l t.1 t.2.1 t.2.2)
  { regs := (List.range (spanN f)).zip rs |>.map fun t => (f.dst.val + t.1, packElems (laneBits l) (t.2.map (·.bits))),
    fl := allFlags rs.flatten, sat := 0 }

/-- Conversion between lane formats (R207). Formats of one width, a format to itself included, map register to register. -/
def vecCvt (y : CoreState) (f : VecF) : VecOut :=
  let x := f.xfmt.val
  let l := f.lfmt.val
  let conv (e : Nat) : Res := (laneFmt l).ofVal ((laneFmt x).decode e)
  if x == 0 && l != 0 then
    let rs := (List.range (spanN f / 2)).map fun i =>
      (regElems y 0 (f.src1.val + 2 * i) ++ regElems y 0 (f.src1.val + 2 * i + 1)).map conv
    { regs := (List.range (spanN f / 2)).zip rs |>.map fun t => (f.dst.val + t.1, packElems 16 (t.2.map (·.bits))),
      fl := allFlags rs.flatten, sat := 0 }
  else if x != 0 && l == 0 then
    let rs := (List.range (spanN f)).map fun i =>
      (((regElems y x (f.src1.val + i / 2)).drop (128 * (i % 2))).take 128).map conv
    { regs := (List.range (spanN f)).zip rs |>.map fun t => (f.dst.val + t.1, packElems 32 (t.2.map (·.bits))),
      fl := allFlags rs.flatten, sat := 0 }
  else
    let rs := (List.range (spanN f)).map fun i => (regElems y x (f.src1.val + i)).map conv
    { regs := (List.range (spanN f)).zip rs |>.map fun t => (f.dst.val + t.1, packElems (laneBits l) (t.2.map (·.bits))),
      fl := allFlags rs.flatten, sat := 0 }

/-- Cut a list into blocks of 32. -/
def blocks32 {α : Type} : Nat → List α → List (List α)
  | 0, _ => []
  | n + 1, xs => xs.take 32 :: blocks32 n (xs.drop 32)

/-- A value that enters an MX block: NaN and infinity count as INVALID. DEDUCED, log 10: R144 converts finite values and
INVALID only. -/
def blockVal (b : Nat) : Option (Bool × Nat × Int) :=
  match fFP32.decode b with
  | .num n m e => some (n, m, e)
  | _ => none

/-- Bits of an MX element row as R203 packs it: elements in order at their width. -/
def packMx (fmt : Nat) (es : List Nat) : Nat := packElems (elemBits fmt) es

/-- FP32 to an MX format (R208, R144). A signalling NaN raises invalid (R149); of the other flags R144's steps raise none. DESIGN
CHOICE, log 4. -/
def vecCvtmx (y : CoreState) (f : VecF) : VecOut :=
  let g := spanN f / 4
  let blocks := (List.range g).map fun i =>
    (blocks32 16 ((List.range 4).flatMap fun j => regElems y 0 (f.src1.val + 4 * i + j))).map fun b =>
      mxBlock f.xfmt.val (b.map blockVal)
  { regs := ((List.range g).zip blocks |>.map fun t => (f.dst.val + t.1, packMx f.xfmt.val (t.2.flatMap fun b => b.2.1))) ++
      [(f.src2.val, packElems 8 (blocks.flatten.map (·.1)))],
    fl := sigFlag ((List.range (spanN f)).flatMap fun i => (regElems y 0 (f.src1.val + i)).map fFP32.decode), sat := (blocks.flatten.map fun b => b.2.2).sum }

/-- One unpacked element: exact, except that one beyond FP32 is a free value (log 4); a block of scale 0xFF is NaN, one of
the zero scale is zero (R125, R126, R208). -/
def unpackElem (fmt e c : Nat) : Res :=
  if c == 0xFF then .exact fFP32.qnan
  else if c == 0 then .exact 0
  else
    match elemVal fmt e with
    | .num n m x =>
      let r := fFP32.round n m (x + (c : Int) - 127)
      if (r.fl &&& flOverflow) != 0 then .exact (Config.unpkOver fmt e c).toNat else .exact r.bits
    | .inf n => .exact (fFP32.infBits n)
    | .nan s => fFP32.nanRes (if s then flInvalid else 0)

/-- An MX format to FP32 (R208): the layout of CVTMX reversed. -/
def vecUnpkmx (y : CoreState) (f : VecF) : VecOut :=
  let fmt := f.xfmt.val
  let rs := (List.range (spanN f)).map fun i =>
    let es := ((elems (elemBits fmt) 512 (vreg y (f.src1.val + i / 4))).drop (128 * (i % 4))).take 128
    (List.range 128).zip es |>.map fun t =>
      unpackElem fmt t.2 (vreg y f.src2.val / 2 ^ (8 * (4 * i + t.1 / 32)) % 256)
  { regs := (List.range (spanN f)).zip rs |>.map fun t => (f.dst.val + t.1, packElems 32 (t.2.map (·.bits))),
    fl := allFlags rs.flatten, sat := 0 }

/-- Fold a list's second half onto its first, element by element. -/
def foldHalf (g : Nat → Nat → Res) (xs : List Nat) : List Res :=
  ((xs.take (xs.length / 2)).zip (xs.drop (xs.length / 2))).map fun t => g t.1 t.2

/-- The tree of R208, with the flags of every pass. -/
def treeFold (g : Nat → Nat → Res) : Nat → List Nat → Flags → Nat × Flags
  | 0, xs, fl => (xs.headD 0, fl)
  | n + 1, xs, fl =>
    let r := foldHalf g xs
    treeFold g n (r.map (·.bits)) (fl ||| allFlags r)

/-- RMAX and RSUM (R206, R208): seven passes for FP32, eight for a 16-bit format. -/
def vecReduce (y : CoreState) (op : VecOp) (f : VecF) : VecOut :=
  let l := f.lfmt.val
  let g (a b : Nat) : Res := if op = .rmax then (laneFmt l).minMax false a b else elemOp .add l a b 0
  let rs := (List.range (spanN f)).map fun i => treeFold g (if l == 0 then 7 else 8) (regElems y l (f.src1.val + i)) 0
  { regs := (List.range (spanN f)).zip rs |>.map fun t => (f.dst.val + t.1, t.2.1),
    fl := rs.foldl (fun a r => a ||| r.2) 0, sat := 0 }

/-- BCAST (R206): element 0 to every element. A NaN gives the canonical one, and a signalling one raises invalid (R149). -/
def vecBcast (y : CoreState) (f : VecF) : VecOut :=
  let l := f.lfmt.val
  let rs := (List.range (spanN f)).map fun i =>
    let e := vreg y (f.src1.val + i) % 2 ^ laneBits l
    let v := (laneFmt l).decode e
    if v.isNan then (laneFmt l).nanRes (sigFlag [v]) else .exact e
  { regs := (List.range (spanN f)).zip rs |>.map fun t =>
      (f.dst.val + t.1, packElems (laneBits l) (List.replicate (laneCount l) t.2.bits)),
    fl := allFlags rs, sat := 0 }

def vecOut (y : CoreState) (op : VecOp) (f : VecF) : VecOut :=
  match op with
  | .cvt => vecCvt y f
  | .cvtmx => vecCvtmx y f
  | .unpkmx => vecUnpkmx y f
  | .rmax | .rsum => vecReduce y op f
  | .bcast => vecBcast y f
  | _ => vecElementwise y op f

/-! ### Poison of vector values, by 32-byte unit (R183) -/

/-- The poisoned units of a vector register. -/
def vmask (y : CoreState) (r : Nat) : Nat := tget 0 y.vpoison r

/-- The mask of the units from 0 to 15 that a test picks. -/
def unitMask (p : Nat → Bool) : Nat := maskOf ((List.range 16).filter p)

/-- Whether a mask has a unit that the bits from `a` on, `n` of them, overlap. -/
def bitsHit (m a n : Nat) : Bool := (List.range 16).any fun u => m.testBit u && a < 256 * (u + 1) && 256 * u < a + n

/-- Whether block b of a group of four FP32 registers holds a poisoned element. -/
def blockHit (y : CoreState) (r b : Nat) : Bool := vmask y (r + b / 4) / 2 ^ (4 * (b % 4)) % 16 != 0

/-- The poisoned units of each register an operation writes, in the order of its results: those with an element computed from a
poisoned one. -/
def vecMasks (y : CoreState) (op : VecOp) (f : VecF) : List Nat :=
  let a (i : Nat) : Nat := vmask y (f.src1.val + i)
  let b (i : Nat) : Nat := vmask y (f.src2.val + i)
  let c (i : Nat) : Nat := vmask y (f.src3.val + i)
  let n := spanN f
  let eb := elemBits f.xfmt.val
  match op with
  | .add | .sub | .mul | .min | .max => (List.range n).map fun i => a i ||| b i
  | .fma => (List.range n).map fun i => a i ||| b i ||| c i
  | .cvt =>
    if f.xfmt.val == 0 && f.lfmt.val != 0 then
      (List.range (n / 2)).map fun i => unitMask fun u =>
        a (2 * i + u / 8) / 2 ^ (2 * (u % 8)) % 4 != 0
    else if f.xfmt.val != 0 && f.lfmt.val == 0 then
      (List.range n).map fun i => unitMask fun u => (a (i / 2)).testBit (8 * (i % 2) + u / 2)
    else (List.range n).map a
  | .cvtmx =>
    ((List.range (n / 4)).map fun i => unitMask fun u => (List.range 16).any fun q =>
      blockHit y (f.src1.val + 4 * i) q && 32 * eb * q < 256 * (u + 1) && 256 * u < 32 * eb * (q + 1)) ++
      [unitMask fun u => (List.range (4 * n)).any fun q => q / 32 == u && blockHit y (f.src1.val + q / 16 * 4) (q % 16)]
  | .unpkmx => (List.range n).map fun i => unitMask fun u =>
      bitsHit (a (i / 4)) (eb * (128 * (i % 4) + 8 * u)) (8 * eb) || (b 0).testBit ((4 * i + u / 4) / 32)
  | .rmax | .rsum => (List.range n).map fun i => if a i == 0 then 0 else 1
  | .bcast => (List.range n).map fun i => if (a i).testBit 0 then 0xFFFF else 0
  | _ => (List.range n).map a

def isTrans (op : VecOp) : Bool := op == .exp2 || op == .log2 || op == .rcp || op == .rsq || op == .tanh

/-- Add to a performance counter of a core, unless the counters are stopped (R117); it wraps (R119). -/
def perfAdd (s : State) (c off n : Nat) : State := if regBit s (Reg.cperfStat c) 0 then s else addPair s off n

/-- A V-slot operation on registers (R206): it reads its sources, writes its destinations, raises flags, and carries poison
(R183). A transcendental result is available later (R95), and an operation that names it waits. -/
def vecRun (op : VecOp) (c : Nat) (f : VecF) (s : State) : State :=
  if !vecLegal op f then s
  else
    runOp s c .v (.vec op f) (fun y => !awaits y (vecReads op f) && !awaits y (vecWrites op f)) fun x _ no s =>
      let s := readVregs s x c (vecReads op f)
      let y := core s c
      let o := vecOut y op f
      let y := (o.regs.zip (vecMasks y op f)).foldl (fun y r => putVreg y r.1.1 r.1.2 r.2) y
      let y := addSat (stick y o.fl) o.sat
      let y := if isTrans op then { y with tOpen := y.tOpen ++ [(no, f.dst.val, spanN f)] } else y
      let s := perfAdd (putCore s c y) c (Reg.cperfVector c) (if isTrans op then (spanN f + 3) / 4 else 1)
      runPosts s c

/-- The vector register a span of VLD or VST names, with its store offset (R205). -/
def vmemSpan (f : VMemF) : List (Nat × Nat) :=
  (List.range (f.span.val + 1)).map fun i => (f.dst.val + i, 512 * (f.addr.toNat + i))

def vmemLegal (x : Context) (f : VMemF) : Bool :=
  f.lfmt.val < 3 && f.dst.val + f.span.val < 64 && regionOk x (512 * f.addr.toNat) (512 * (f.span.val + 1))

/-- VLD (R206). A poisoned word latches STORE_POISON and poisons its unit of the register (R99, R182, R183). -/
def vld (c : Nat) (f : VMemF) (ecc : EccList) (s : State) : State :=
  match runCtx? s c with
  | none => s
  | some x =>
    if !vmemLegal x f then s
    else
      runOp s c .v (.vld f) (fun y => !awaits y (regSpan f.dst.val (f.span.val + 1))) fun x k _ s =>
        let s := (vmemSpan f).foldl (fun s t =>
          let r := loadRegion (decodeRegion s k ecc t.2 512) x k t.2 512
          putCore r.1 c (putVreg (core r.1 c) t.1 (leNat r.2.1) (maskOf (r.2.2.map (· / 32))))) s
        runPosts (perfAdd s c (Reg.cperfVector c) 1) c

def execVld (core : CoreNo) (f : Reads VMemF) (s : State) : Host.Outcome State Fault Refusal := .next (vld core.val f.op f.ecc s)

/-- VST (R206): the poisoned units of a register are written poisoned (R183). -/
def vst (c : Nat) (f : VMemF) (s : State) : State :=
  match runCtx? s c with
  | none => s
  | some x =>
    if !vmemLegal x f then s
    else
      runOp s c .v (.vst f) (fun y => !awaits y (regSpan f.dst.val (f.span.val + 1))) fun x k _ s =>
        let s := readVregs s x c (regSpan f.dst.val (f.span.val + 1))
        let y := core s c
        let s := (vmemSpan f).foldl (fun s t =>
          storeRegion s k t.2 (leBytes 512 (vreg y t.1)) ((maskList (vmask y t.1) 16).map (32 * ·))) s
        runPosts (perfAdd s c (Reg.cperfVector c) 1) c

def execVst (core : CoreNo) (f : VMemF) (s : State) : Host.Outcome State Fault Refusal := .next (vst core.val f s)

/-- ADD (R206, R147, R148). -/
def execAdd (core : CoreNo) (f : VecF) (s : State) : Host.Outcome State Fault Refusal := .next (vecRun .add core.val f s)
/-- SUB (R206, R147, R148). -/
def execSub (core : CoreNo) (f : VecF) (s : State) : Host.Outcome State Fault Refusal := .next (vecRun .sub core.val f s)
/-- MUL (R206, R147, R148). -/
def execMul (core : CoreNo) (f : VecF) (s : State) : Host.Outcome State Fault Refusal := .next (vecRun .mul core.val f s)
/-- FMA (R206): rounded once. -/
def execFma (core : CoreNo) (f : VecF) (s : State) : Host.Outcome State Fault Refusal := .next (vecRun .fma core.val f s)
/-- MIN (R206, R149). -/
def execMin (core : CoreNo) (f : VecF) (s : State) : Host.Outcome State Fault Refusal := .next (vecRun .min core.val f s)
/-- MAX (R206, R149). -/
def execMax (core : CoreNo) (f : VecF) (s : State) : Host.Outcome State Fault Refusal := .next (vecRun .max core.val f s)
/-- ABS (R206). -/
def execAbs (core : CoreNo) (f : VecF) (s : State) : Host.Outcome State Fault Refusal := .next (vecRun .abs core.val f s)
/-- NEG (R206). -/
def execNeg (core : CoreNo) (f : VecF) (s : State) : Host.Outcome State Fault Refusal := .next (vecRun .neg core.val f s)
/-- CVT (R207). -/
def execCvt (core : CoreNo) (f : VecF) (s : State) : Host.Outcome State Fault Refusal := .next (vecRun .cvt core.val f s)
/-- CVTMX (R208). -/
def execCvtmx (core : CoreNo) (f : VecF) (s : State) : Host.Outcome State Fault Refusal := .next (vecRun .cvtmx core.val f s)
/-- UNPKMX (R208). -/
def execUnpkmx (core : CoreNo) (f : VecF) (s : State) : Host.Outcome State Fault Refusal := .next (vecRun .unpkmx core.val f s)
/-- EXP2 (R150, R151). -/
def execExp2 (core : CoreNo) (f : VecF) (s : State) : Host.Outcome State Fault Refusal := .next (vecRun .exp2 core.val f s)
/-- LOG2 (R150, R151). -/
def execLog2 (core : CoreNo) (f : VecF) (s : State) : Host.Outcome State Fault Refusal := .next (vecRun .log2 core.val f s)
/-- RCP (R150, R151). -/
def execRcp (core : CoreNo) (f : VecF) (s : State) : Host.Outcome State Fault Refusal := .next (vecRun .rcp core.val f s)
/-- RSQ (R150, R151). -/
def execRsq (core : CoreNo) (f : VecF) (s : State) : Host.Outcome State Fault Refusal := .next (vecRun .rsq core.val f s)
/-- TANH (R150, R151). -/
def execTanh (core : CoreNo) (f : VecF) (s : State) : Host.Outcome State Fault Refusal := .next (vecRun .tanh core.val f s)
/-- RMAX (R206). -/
def execRmax (core : CoreNo) (f : VecF) (s : State) : Host.Outcome State Fault Refusal := .next (vecRun .rmax core.val f s)
/-- RSUM (R206, R208). -/
def execRsum (core : CoreNo) (f : VecF) (s : State) : Host.Outcome State Fault Refusal := .next (vecRun .rsum core.val f s)
/-- BCAST (R206). -/
def execBcast (core : CoreNo) (f : VecF) (s : State) : Host.Outcome State Fault Refusal := .next (vecRun .bcast core.val f s)

/-- TRANSCENDENTAL_RESULT (R95): the oldest result becomes available, and what waited for it goes on. -/
def transcendentalResult (c : Nat) (s : State) : State :=
  runPosts (modCore s c fun y => { y with tOpen := y.tOpen.drop 1 }) c

def execTranscendentalResult (core : CoreNo) (s : State) : Host.Outcome State Fault Refusal :=
  .next (transcendentalResult core.val s)

end Sys2Proof.Machine
end

