-- ==== Sys2Proof/Machine/Arrays.lean ====
section
/-! DEFINITION. The A slot (R199 to R203) and the arrays' arithmetic (R129 to R146). -/

namespace Sys2Proof.Machine

/-! ### Contributions (R131 to R134) -/

/-- INVALID of R130. -/
def accInvalid : Int := -(2 ^ 159 : Nat)

/-- An operand's exact elements count in units of 2^-140, below every format's quantum (R123). -/
def unitExp : Int := -140

/-- An element as a whole number of units; none for a NaN or an infinity. -/
def elemUnits (v : Val) : Option Int :=
  match v with
  | .num n m e => some (signedNat n (m * 2 ^ (e - unitExp).toNat))
  | _ => none

/-- One row's or column's block of 32 inner elements. -/
structure OpBlock where
  code : Nat
  vals : List (Option Int)
deriving DecidableEq, Repr

/-- The contribution of R131: exactly zero, INVALID, or `n * 2^e`. -/
inductive Contribution where
  | zero
  | invalid
  | value (n e : Int)
deriving DecidableEq, Repr

/-- The sum of products of a block pair; none where an element is a NaN or infinite. -/
def dotUnits : List (Option Int) → List (Option Int) → Option Int
  | some a :: as, some b :: bs => (dotUnits as bs).map (a * b + ·)
  | [], _ => some 0
  | _, [] => some 0
  | _, _ => none

/-- The contributions of a block pair: one, or in the 16-bit class one for each product (R131). A zero scale in either block
contributes exactly zero whatever the rest holds (R126, R133). -/
def contributions (cls : Nat) (a b : OpBlock) : List Contribution :=
  if cls == 16 then
    (a.vals.zip b.vals).map fun t => match t.1, t.2 with
      | some x, some y => .value (x * y) (2 * unitExp)
      | _, _ => .invalid
  else if a.code == 0 || b.code == 0 then [.zero]
  else if a.code == 0xFF || b.code == 0xFF then [.invalid]
  else
    match dotUnits a.vals b.vals with
    | some n => [.value n (2 * unitExp + ((a.code : Int) - 127) + ((b.code : Int) - 127))]
    | none => [.invalid]

/-- `floor (n * 2^e / 2^w)`, and whether a nonzero remainder was dropped (R132, R135). -/
def floorWindow (n e w : Int) : Int × Bool :=
  if 0 ≤ e - w then (n * 2 ^ (e - w).toNat, false)
  else
    let d : Int := 2 ^ (w - e).toNat
    (n / d, n % d != 0)

/-- Addition in 161 bits (R134, R140). -/
def accAdd (a n : Int) : Int :=
  if a == accInvalid then a
  else
    let t := a + n
    if t < -(2 ^ 159 - 1) || 2 ^ 159 - 1 < t then accInvalid else t

/-- A cell while contributions are added: its value and the contributions floored with loss. -/
structure CellRun where
  a : Int
  below : Nat
deriving DecidableEq, Repr

/-- Add one contribution, the `cnt`-th since the accumulator was started from zero (R132 to R134). -/
def addContribution (wlo : Int) (h cnt : Nat) (c : CellRun) (x : Contribution) : CellRun :=
  let beyond := 1024 * 2 ^ h < cnt
  match x with
  | .zero => if beyond then { c with a := accInvalid } else c
  | .invalid => { c with a := accInvalid }
  | .value n e =>
    let f := floorWindow n e wlo
    let fits := f.1.natAbs ≤ 2 ^ (149 - h) - 1
    { a := if beyond || !fits then accInvalid else accAdd c.a f.1, below := c.below + if f.2 then 1 else 0 }

/-- Add a pass's contributions in order. -/
def addAll (wlo : Int) (h : Nat) : Nat → CellRun → List Contribution → CellRun
  | _, c, [] => c
  | cnt, c, x :: xs => addAll wlo h (cnt + 1) (addContribution wlo h (cnt + 1) c x) xs

/-! ### Operand tiles (R202) -/

def opBlock (s : State) (k : CtxCore) (t : Td) (n m : Nat) : OpBlock :=
  let code := t.scaleCode s k n m
  { code := code,
    vals := if code == 0 then [] else (List.range 32).map fun i => elemUnits (t.elem s k n (32 * m + i)) }

/-- The blocks of one row or column. -/
def opRow (s : State) (k : CtxCore) (t : Td) (n : Nat) : List OpBlock :=
  (List.range t.blocks).map fun m => opBlock s k t n m

/-- Slices an operand of K inner elements is stored in. -/
def sliceCount (t : Td) : Nat := if widthClass t.fmt == 4 then 16 * t.blocks else 32 * t.blocks

/-- The bytes of an operand of `rows` rows: the slices, and the scale slices of an MX format (R202). -/
def operandBytes (t : Td) (rows : Nat) : List (Nat × Nat) :=
  ((List.range (sliceCount t)).map fun i => (t.base + i * t.slicePitch, naturalSlice t.fmt * rows / 128)) ++
    (if isMx t.fmt then (List.range t.blocks).map fun m => (t.scaleOff 0 m, rows) else [])

/-- Whether a poisoned word is read: a block with the zero scale is not (R126). -/
def operandPoison (s : State) (k : CtxCore) (t : Td) (first : Nat) : Bool :=
  (List.range t.blocks).any fun m => (List.range 128).any fun n =>
    (isMx t.fmt && poisonedAt s (regionAddr k (t.scaleOff (first + n) m))) ||
      (t.scaleCode s k (first + n) m != 0 && (List.range 32).any fun i =>
        poisonedAt s (regionAddr k (t.base + t.elemBit (first + n) (32 * m + i) / 8)))

/-! ### Array state -/

def acc? (y : CoreState) (key : Nat) : Option Acc := tfind y.accs key
def putAcc (y : CoreState) (key : Nat) (a : Acc) : CoreState := { y with accs := tins y.accs key a }

/-- A table of 128 x 128 cells from a function of the row and column, in canonical form. -/
def cellTable (f : Nat → Nat → Int) : Table Int :=
  (List.range 16384).filterMap fun n =>
    let v := f (n / 128) (n % 128)
    if v == 0 then none else some (n, v)

def cellAt (a : Acc) (i j : Nat) : Int := tget 0 a.cells (128 * i + j)

/-- Cells of `b` that are INVALID and were not in `a`: the contributions and merges that meet a cell already INVALID count no more of
INVALID (R135). DESIGN CHOICE, log 10. -/
def becameInvalid (a b : Table Int) : Nat :=
  (b.filter fun e => e.2 == accInvalid && tget 0 a e.1 != accInvalid).length

/-- The selected arrays in ascending order, each with its rank (R199). -/
def ranked (m : BitVec 16) : List (Nat × Nat) := (List.range 16).zip (maskList m.toNat 16)

/-- An accumulator as an operation with a window finds it: started from zero, unwritten, as it stands, or of another window
(R129, R174). -/
inductive AccUse where
  | fresh
  | unwritten
  | same (a : Acc)
  | other (a : Acc)

def accUse (y : CoreState) (key : Nat) (zero : Bool) (wlo : Int) (h : Nat) : AccUse :=
  if zero then .fresh
  else match acc? y key with
    | none => .unwritten
    | some a => if a.wlo == wlo && a.h == h then .same a else .other a

/-- Every cell becomes INVALID (R129). -/
def spoilAcc (y : CoreState) (key : Nat) (a : Acc) : CoreState :=
  let cells := cellTable fun _ _ => accInvalid
  addInvalid (putAcc y key { a with cells := cells }) (becameInvalid a.cells cells)

/-- The accumulator to which an operation adds: none where its window differs. -/
def accStart (y : CoreState) (key : Nat) (zero : Bool) (wlo : Int) (h : Nat) : Option Acc :=
  match accUse y key zero wlo h with
  | .same a => some a
  | .other _ => none
  | _ => some { Acc.zero with wlo := wlo, h := h }

/-- Faults that the choice of accumulator raises (R129, R174). -/
def accFault (s : State) (x : Context) (c key : Nat) (zero : Bool) (wlo : Int) (h : Nat) : State :=
  match accUse (core s c) key zero wlo h with
  | .unwritten => latch s c x causeUnwritten 0
  | .other _ => latch s c x causeArith 0
  | _ => s

/-! ### MMA (R88 to R92, R129 to R135, R199, R202) -/

def wloOf (w : BitVec 10) : Int := w.toInt

/-- Rules 7 and 8 of R220, which a loaded plan meets: operands of one width class and one inner dimension, within the region. -/
def mmaLegal (x : Context) (ta tb : Td) (f : MmaF) : Bool :=
  let n := (maskList f.arrays.toNat 16).length
  widthClass ta.fmt != 0 && widthClass ta.fmt == widthClass tb.fmt && ta.blocks == tb.blocks && f.h.val ≤ 9 &&
    (operandBytes ta (128 * n)).all (fun r => regionOk x r.1 r.2) && (operandBytes tb 128).all (fun r => regionOk x r.1 r.2)

/-- One array's part of an MMA: its 128 rows of A against the columns of B. Where its window differs from the accumulator's (R129), the
contributions are not formed and none counts in BELOW. DESIGN CHOICE, log 10. -/
def mmaArray (s : State) (x : Context) (k : CtxCore) (ta : Td) (f : MmaF) (cols : List (List OpBlock)) (poisonB : Bool)
    (arr : Nat × Nat) : State :=
  let c := k.core
  let key := 2 * arr.2 + f.acc.val
  let w := wloOf f.wlo
  let cls := widthClass ta.fmt
  let s := accFault s x c key f.zero w f.h.val
  let y := core s c
  match accStart y key f.zero w f.h.val with
  | none => putCore s c (match acc? y key with
    | some a => spoilAcc y key a
    | none => y)
  | some a0 =>
    let rows := (List.range 128).map fun i => opRow s k ta (128 * arr.1 + i)
    let runs := rows.map fun r => cols.map fun q => (r.zip q).flatMap fun t => contributions cls t.1 t.2
    let res := (List.range 128).zip runs |>.map fun t => (List.range 128).zip t.2 |>.map fun u =>
      addAll w f.h.val a0.count { a := cellAt a0 t.1 u.1, below := 0 } u.2
    let cells := cellTable fun i j => (((res[i]?).getD [])[j]?.map (·.a)).getD 0
    let a := { a0 with cells := cells, count := a0.count + if cls == 16 then 32 * ta.blocks else ta.blocks,
                       poisoned := a0.poisoned || poisonB || operandPoison s k ta (128 * arr.1) }
    let below := (res.flatten.map (·.below)).sum
    putCore s c (addBelow (addInvalid (putAcc y key a) (becameInvalid a0.cells cells)) below)

/-- Block steps an array skips: every block of A, or every block of B, at that step has the zero scale (R92). -/
def skippedSteps (rows cols : List (List OpBlock)) (blocks : Nat) : Nat :=
  ((List.range blocks).filter fun m =>
    rows.all (fun r => ((r[m]?).map (·.code)).getD 1 == 0) || cols.all fun q => ((q[m]?).map (·.code)).getD 1 == 0).length

/-- Tokens of operand input of a block step (R90). -/
def stepTokens (cls : Nat) : Nat := if cls == 4 then 16 else if cls == 16 then 128 else 32

/-- The array counters of an MMA (R116): a skipped step takes one token, in which no slice enters. DEDUCED, log 10. -/
def countArray (s : State) (k : CtxCore) (ta : Td) (cols : List (List OpBlock)) (arr : Nat × Nat) : State :=
  let cls := widthClass ta.fmt
  let rows := (List.range 128).map fun i => opRow s k ta (128 * arr.1 + i)
  let n := if regBit s (Reg.cperfStat k.core) 2 && cls != 16 then skippedSteps rows cols ta.blocks else 0
  perfAdd (perfAdd s k.core (Reg.cperfArrayActive k.core) ((ta.blocks - n) * stepTokens cls)) k.core
    (Reg.cperfArraySkipped k.core) (n * (stepTokens cls - 1))

/-- Whether no selected accumulator is still draining (R91). -/
def notDraining (arrays : BitVec 16) (acc : Fin 2) (y : CoreState) : Bool :=
  (maskList arrays.toNat 16).all fun a => y.dOpen.all fun d => d.2 != 2 * a + acc.val

/-- An A-slot operation is in flight on each selected array until its last contribution is added (R90). -/
def openArrays (y : CoreState) (no : Nat) (arrays : BitVec 16) : CoreState :=
  { y with aOpen := y.aOpen ++ (maskList arrays.toNat 16).map fun a => (no, a) }

/-- What the decoders report of the ranges that an operation reads (R99). -/
def decodeRanges (s : State) (k : CtxCore) (ecc : EccList) (rs : List (Nat × Nat)) : State :=
  if ecc.isEmpty then s else rs.foldl (fun s r => decodeRegion s k ecc r.1 r.2) s

/-- MMA (R199), with what the decoders report of its operands (R99). -/
def mma (c : Nat) (f : MmaF) (ecc : EccList) (s : State) : State :=
  runOp s c .a (.mma f) (notDraining f.arrays f.acc) fun x k no s =>
    let ta := tdOf (tget 0 k.tds f.ta.val)
    let tb := tdOf (tget 0 k.tds f.tb.val)
    if !mmaLegal x ta tb f then s
    else
      let n := (maskList f.arrays.toNat 16).length
      let s := decodeRanges s k ecc (operandBytes ta (128 * n) ++ operandBytes tb 128)
      let cols := (List.range 128).map fun j => opRow s k tb j
      let pb := operandPoison s k tb 0
      let pa := (List.range n).any fun r => operandPoison s k ta (128 * r)
      let s := if pa || pb then latch s c x causeStorePoison 0 else s
      let s := (ranked f.arrays).foldl (fun s arr => countArray (mmaArray s x k ta f cols pb arr) k ta cols arr) s
      runPosts (modCore s c fun y => openArrays y no f.arrays) c

def execMma (core : CoreNo) (f : Reads MmaF) (s : State) : Host.Outcome State Fault Refusal := .next (mma core.val f.op f.ecc s)

/-! ### LDTD (R199) -/

/-- LDTD: a tile-descriptor register takes an entry of the core's table. -/
def ldtd (c : Nat) (r : Fin 16) (index : BitVec 12) (s : State) : State :=
  runOp s c .a (.ldtd r index) (fun _ => true) fun x k _ s =>
    if index.toNat < k.tdCount then
      let v := leNat (loadBytes s (k.stream + k.tdOff + 16 * index.toNat) 16)
      runPosts (modCtxCore s x.handle c fun q => { q with tds := tput 0 q.tds r.val v }) c
    else s

def execLdtd (core : CoreNo) (reg : Fin 16) (index : BitVec 12) (s : State) : Host.Outcome State Fault Refusal :=
  .next (ldtd core.val reg index s)

/-! ### MERGE (R140) -/

def mergeLegal (x : Context) (t : Td) (f : MergeF) : Bool :=
  let n := (maskList f.arrays.toNat 16).length
  t.fmt == 0xB && f.h.val ≤ 9 && regionOk x t.base ((128 * n - 1) * t.rowPitch + 2560)

/-- A value of an ACC160 tile (R139). -/
def acc160At (s : State) (k : CtxCore) (off : Nat) : Int := signed 160 (leNat (loadBytes s (regionAddr k off) 20))

/-- One array's part of a MERGE: 161-bit additions; an INVALID operand gives INVALID. -/
def mergeArray (s : State) (x : Context) (k : CtxCore) (t : Td) (f : MergeF) (arr : Nat × Nat) : State :=
  let c := k.core
  let key := 2 * arr.2 + f.acc.val
  let w := wloOf f.wlo
  let s := accFault s x c key false w f.h.val
  let y := core s c
  match accStart y key false w f.h.val with
  | none => putCore s c (match acc? y key with
    | some a => spoilAcc y key a
    | none => y)
  | some a0 =>
    let off (i : Nat) : Nat := t.base + (128 * arr.1 + i) * t.rowPitch
    let cells := cellTable fun i j =>
      let v := acc160At s k (off i + 20 * j)
      if v == accInvalid then accInvalid else accAdd (cellAt a0 i j) v
    let p := (List.range 128).any fun i => !(poisonUnits s (regionAddr k (off i)) 2560).isEmpty
    let s := if p then latch s c x causeStorePoison 0 else s
    putCore s c (addInvalid (putAcc (core s c) key { a0 with cells := cells, poisoned := a0.poisoned || p })
      (becameInvalid a0.cells cells))

/-- MERGE (R140, R199), with what the decoders report of its tile (R99). -/
def merge (c : Nat) (f : MergeF) (ecc : EccList) (s : State) : State :=
  runOp s c .a (.merge f) (notDraining f.arrays f.acc) fun x k no s =>
    let t := tdOf (tget 0 k.tds f.ta.val)
    if !mergeLegal x t f then s
    else
      let n := (maskList f.arrays.toNat 16).length
      let s := decodeRanges s k ecc ((List.range (128 * n)).map fun i => (t.base + i * t.rowPitch, 2560))
      let s := (ranked f.arrays).foldl (fun s arr => mergeArray s x k t f arr) s
      runPosts (modCore s c fun y => openArrays y no f.arrays) c

def execMerge (core : CoreNo) (f : Reads MergeF) (s : State) : Host.Outcome State Fault Refusal :=
  .next (merge core.val f.op f.ecc s)

/-! ### DRAIN (R142 to R146, R199, R203) -/

/-- What one row of a drain gives: its bytes, its scale bytes, and the conversions that saturated and that met INVALID in
INT8. -/
structure DrainRow where
  bytes : List Byte
  scales : List Byte
  sat : Nat
  inv : Nat
deriving DecidableEq, Repr

/-- Convert 128 values of one row on a window (R142 to R146). -/
def drainRow (fmt tileScale : Nat) (wlo : Int) (vs : List Int) : DrainRow :=
  if fmt == 0xB then
    { bytes := vs.flatMap fun v => leBytes 20 (twos 160 v), scales := [], sat := 0, inv := 0 }
  else if fmt == 0x6 then
    let rs := vs.map fun v => if v == accInvalid then (0, false) else int8Out v wlo tileScale
    { bytes := rs.map fun r => BitVec.ofNat 8 r.1, scales := [], sat := (rs.filter (·.2)).length,
      inv := (vs.filter (· == accInvalid)).length }
  else if isMx fmt then
    let bs := (blocks32 4 vs).map fun b => mxBlock fmt (b.map fun v =>
      if v == accInvalid then none else some (decide (v < 0), v.natAbs, wlo))
    { bytes := leBytes (naturalRow fmt) (packMx fmt (bs.flatMap fun b => b.2.1)),
      scales := bs.map fun b => BitVec.ofNat 8 b.1, sat := (bs.map fun b => b.2.2).sum, inv := 0 }
  else
    let f := (elemFmt? fmt).getD fFP32
    let rs := vs.map fun v => if v == accInvalid then Res.exact f.qnan else f.roundInt v wlo false
    { bytes := leBytes (naturalRow fmt) (packElems (elemBits fmt) (rs.map (·.bits))), scales := [],
      sat := (rs.filter fun r => (r.fl &&& flOverflow) != 0).length, inv := 0 }

/-- DRAIN's formats (R201) and bounds. -/
def drainLegal (x : Context) (t : Td) (f : DrainF) : Bool :=
  let n := (maskList f.arrays.toNat 16).length
  t.fmt ≤ 0xB && t.fmt != 0x7 && (f.port || (regionOk x t.base ((128 * n - 1) * t.rowPitch + naturalRow t.fmt) &&
    (!isMx t.fmt || regionOk x t.scaleBase ((128 * n - 1) * (4 * t.rowPitch / naturalRow t.fmt) + 4))))

/-- The rows of one array, in row order; an unwritten accumulator converts zero (R174). -/
def drainArray (y : CoreState) (t : Td) (key : Nat) : List DrainRow :=
  let a := (acc? y key).getD Acc.zero
  (List.range 128).map fun i => drainRow t.fmt t.tileScale a.wlo ((List.range 128).map fun j => cellAt a i j)

/-- Write one array's rows to the region (R203). -/
def storeDrain (s : State) (k : CtxCore) (t : Td) (rank : Nat) (rows : List DrainRow) (p : Bool) : State :=
  let put (s : State) (off : Nat) (bs : List Byte) : State :=
    storeRegion s k off bs (if p then wholePoison bs.length else [])
  ((List.range 128).zip rows).foldl (fun s r =>
    let i := 128 * rank + r.1
    let s := put s (t.base + i * t.rowPitch) r.2.bytes
    if isMx t.fmt then put s (t.scaleBase + i * (4 * t.rowPitch / naturalRow t.fmt)) r.2.scales else s) s

/-- DRAIN (R199). An operation that names its accumulator waits for the drain's end (R91), and finds it as it was: its value, count and
poison last until it is started from zero (R130, R134, R183), and an unwritten one stays unwritten (R174). With PORT = 1 the tile
leaves as the move MOVE, one contiguous image. A poisoned accumulator writes every line it covers poisoned (R183). -/
def drain (c : Nat) (f : DrainF) (s : State) : State :=
  runOp s c .a (.drain f) (notDraining f.arrays f.acc) fun x k no s =>
    let t := tdOf (tget 0 k.tds f.td.val)
    if !drainLegal x t f then s
    else
      let y := core s c
      let keys := (ranked f.arrays).map fun r => (r.1, 2 * r.2 + f.acc.val)
      let s := if keys.all fun q => (acc? y q.2).isSome then s else latch s c x causeUnwritten 0
      let tiles := keys.map fun q => (q.1, drainArray y t q.2, ((acc? y q.2).map (·.poisoned)).getD false)
      let rows := tiles.flatMap fun q => q.2.1
      let s := modCore s c fun y => addInvalid (addSat y (rows.map (·.sat)).sum) (rows.map (·.inv)).sum
      let s :=
        if f.port then
          let img := (rows.flatMap (·.bytes)) ++ rows.flatMap (·.scales)
          issueMove s x k no { moveDescAt s k f.move.toNat with len := img.length, srcArg := none, src := 0 }
            (some (img, tiles.any fun q => q.2.2)) []
        else tiles.foldl (fun s q => storeDrain s k t q.1 q.2.1 q.2.2) s
      runPosts (modCore s c fun y => { y with dOpen := y.dOpen ++ keys.map fun q => (no, q.2) }) c

def execDrain (core : CoreNo) (f : DrainF) (s : State) : Host.Outcome State Fault Refusal := .next (drain core.val f s)

/-- Remove the first entry for a key. -/
def dropFirst (k : Nat) : List (Nat × Nat) → List (Nat × Nat)
  | [] => []
  | e :: es => if e.2 == k then es else e :: dropFirst k es

/-- ARRAY_OP_COMPLETE (R90): the last contribution of the oldest operation on an array has been added. -/
def arrayOpComplete (c array : Nat) (s : State) : State :=
  runPosts (modCore s c fun y => { y with aOpen := dropFirst array y.aOpen }) c

def execArrayOpComplete (core : CoreNo) (array : Fin 16) (s : State) : Host.Outcome State Fault Refusal :=
  .next (arrayOpComplete core.val array.val s)

/-- DRAIN_COMPLETE (R91): the drain of an accumulator ends. -/
def drainComplete (c array acc : Nat) (s : State) : State :=
  runPosts (modCore s c fun y => { y with dOpen := dropFirst (2 * array + acc) y.dOpen }) c

def execDrainComplete (core : CoreNo) (array : Fin 16) (acc : Fin 2) (s : State) : Host.Outcome State Fault Refusal :=
  .next (drainComplete core.val array.val acc.val s)

end Sys2Proof.Machine
end

