-- ==== Sys2Proof/Machine/Basin.lean ====
section
/-! DEFINITION. The Basin transport's events (R213, R263 to R268, R271, R282 to R288). -/

namespace Sys2Proof.Machine

/-! ### Rings -/

/-- A transmitter whose channel every receiver holds settled resumes it, and replays the codewords that its buffer holds from the
lowest last good count (R283): the transfers that they carried go out again. With none unconfirmed there is nothing to replay (R287).
What waited behind them is sent in its turn. -/
def resumeTx (s : State) (g l : Nat) : State :=
  let i := g / 8
  let idx := carried s g l
  if tget false (site s i).paused idx && (ringsOn s g l).all fun o => o.2.2.settled || o.2.2.failed then
    let count := tget 0 (site s i).txCount idx
    let low := minNat count ((tfind (site s i).lastGood idx).getD 0)
    let s := addPairSat (pauseTx s g l false) (Reg.basinReplayBytes i) (minNat 16384 (codeBytes * (count - low)))
    let s := modSite s i fun x => { x with lastGood := tdel x.lastGood idx }
    pumpTx (((txTransfers s i idx).filter fun t => t.sent && low < t.upTo).foldl (fun s t => putOut s i idx t) s) i idx
  else pumpTx s i idx

/-- RING_SETTLED (R263, R283): the settle time is kept where it is the longest of any grant, and a paused channel resumes. -/
def ringSettled (d ring : Nat) (s : State) : State :=
  match tfind (site s d).rings ring with
  | none => s
  | some r =>
    if r.settled || r.failed then s
    else
      let t := s.time.now - r.since
      let s := modSite s d fun x => { x with rings := tins x.rings ring { r with settled := true } }
      let s := if r.replacement then s
        else putReg s (Reg.basinRetuneMax d) (maxNat (reg s (Reg.basinRetuneMax d)) (minNat t (2 ^ 32 - 1)))
      resumeTx s (ring / 8) r.lambda

def execRingSettled (site : SiteNo) (ring : Fin 1024) (s : State) : Host.Outcome State Fault Refusal :=
  .next (ringSettled site.val ring.val s)

/-- RETUNE_LATE (R264): a ring of a grant not settled at 4.0 us is flagged and treated as failed. -/
def retuneLate (d ring : Nat) (s : State) : State :=
  match tfind (site s d).rings ring with
  | none => s
  | some r =>
    if r.settled || r.failed || r.replacement || s.time.now < r.since + 4000 then s
    else failRing (raiseFlag s (Reg.basinFlags d) 0) d ring

def execRetuneLate (site : SiteNo) (ring : Fin 1024) (s : State) : Host.Outcome State Fault Refusal :=
  .next (retuneLate site.val ring.val s)

/-- CHANNEL_FAILED (R284): a replacement ring not settled within 4 us fails its channel. -/
def channelFailed (d ring : Nat) (s : State) : State :=
  match tfind (site s d).rings ring with
  | none => s
  | some r =>
    if r.settled || r.failed || !r.replacement || s.time.now < r.since + 4000 then s
    else failChannel s d (ring / 8) r.lambda

def execChannelFailed (site : SiteNo) (ring : Fin 1024) (s : State) : Host.Outcome State Fault Refusal :=
  .next (channelFailed site.val ring.val s)

/-- RECEIPT_CONFIRMATION (R282): a receiver's count of good codewords, at most those sent, and the lowest of all the channel's receivers
at the transmitter, whose buffer then has room for more. -/
def receiptConfirmation (d g l n : Nat) (s : State) : State :=
  let i := g / 8
  let idx := carried s g l
  let good := minNat n (tget 0 (site s i).txCount idx)
  match (site s d).rings.find? fun e => e.1 / 8 == g && e.2.lambda == l && !e.2.failed with
  | none => s
  | some e =>
    let s := modSite s d fun x => { x with rings := tins x.rings e.1 { e.2 with good := maxNat e.2.good good } }
    let low := ((ringsOn s g l).filter fun o => !o.2.2.failed).foldl (fun m o => minNat m o.2.2.good) (maxNat e.2.good good)
    pumpTx (modSite s i fun x => { x with confirmed := tput 0 x.confirmed idx low }) i idx

def execReceiptConfirmation (dst : SiteNo) (guide : Fin 128) (lambda : Fin 32) (good : Nat) (s : State) :
    Host.Outcome State Fault Refusal := .next (receiptConfirmation dst.val guide.val lambda.val good s)

/-! ### Transfers on a scheduled channel (R265 to R268) -/

/-- What becomes of a transfer at a site: it is for a core of the context, its core is not one of the context, or it is
discarded as a mismatch (R267, R268). -/
inductive ChanTo where
  | core (x : Context) (k : CtxCore)
  | noCore
  | mismatch
  | nothing
deriving DecidableEq, Repr

def chanTo (s : State) (d g l no loc : Nat) : ChanTo :=
  match chanTag s d g l with
  | none => .nothing
  | some none => .mismatch
  | some (some h) =>
    match ctx? s h with
    | none => .mismatch
    | some x =>
      if ctxNo h != no then .mismatch
      else match coreAt? x d loc with
        | none => .noCore
        | some k => if (core s k.core).running == some h then .core x k else .mismatch

/-- A site's core takes a data transfer: the data is written with its poison (R183), its counter is posted, and its move has one
destination less. -/
def takeData (s : State) (x : Context) (k : CtxCore) (t : Transfer) : State :=
  let off := 32 * t.hdr.dstOff
  if !regionOk x off t.data.length then s
  else
    let a := regionAddr k off
    let r := writeMem s a t.data t.poison
    let s := match t.move with
      | some id => modMove r.1 t.core id fun m =>
          { m with dst := if t.hdr.ctrEn || m.kind == 4 then m.dst.filter (· != a) else m.dst,
                   dstCores := if t.hdr.ctrEn then m.dstCores.filter (· != k.core) else m.dstCores,
                   bad := if r.2 && m.bad == .ok then .poison else m.bad }
      | none => r.1
    if t.hdr.ctrEn then postCounter s x k.core t.hdr.ctr.val t.hdr.amount.val else s

/-- The read that a transfer answers has all its data at its own site: it is no longer outstanding (R238). -/
def readTaken (s : State) (d : Nat) (t : Transfer) : State :=
  match t.req, t.move with
  | some tag, some id =>
    if t.core / 4 != d then s
    else
      let s := modSite s d fun y => { y with outstanding := y.outstanding.filter fun r => r.p.tag != tag }
      modMove s t.core id fun m => { m with open_ := m.open_ - 1 }
  | _, _ => s

/-- The site of a NEAR_WR's stack writes its data, once no site holds a line of it (R235, R238); the other sites of the channel
discard it. -/
def takeNear (s : State) (x : Context) (t : Transfer) : State :=
  match t.move.bind (findMove? s t.core) with
  | none => s
  | some m =>
    let a := m.dst.headD 0
    let w := sharersOf s a t.data.length
    if w.isEmpty then
      let r := writeMem s a t.data t.poison
      modMove r.1 t.core m.id fun m => { m with stored := true, bad := if r.2 && m.bad == .ok then .poison else m.bad }
    else
      holdWrite (modMove s t.core m.id fun m => { m with open_ := 1 })
        { addr := a, data := t.data, poison := t.poison, waiting := w, reply := none, issuer := .move t.core m.id }
        ((x.run.map fun r => r.d.fn).getD 0) ((x.run.map fun r => r.d.qp + 1).getD 0) t.core

/-- SCHEDULED_DATA (R238, R265 to R268): the transfer that a channel carries next to a site arrives. A core's data is written and its
counter posted; on a site without the context's core at that position it is discarded. A stack that is in self refresh takes none
(R230). -/
def scheduledData (d g l : Nat) (hdr : ChanHdr) (data : List Byte) (s : State) : State :=
  let i := g / 8
  let idx := carried s g l
  match chanTo s d g l hdr.context.val hdr.dstLocal.val with
  | .nothing => s
  | .mismatch => ctxDiscard s d
  | tag =>
    match (nextTransfer? s i idx d).filter fun t => t.hdr == hdr && t.data == data with
    | none => s
    | some t =>
      if t.near && stackAsleep s d then s
      else
        let s := readTaken (takeTransfer s i idx d t) d t
        match ctx? s t.handle, tag with
        | some x, .core _ k => if t.near then takeNear s x t else takeData s x k t
        | some x, _ => if t.near then takeNear s x t else s
        | none, _ => s

def execScheduledData (dst : SiteNo) (guide : Fin 128) (lambda : Fin 32) (hdr : ChanHdr) (data : List Byte) (s : State) :
    Host.Outcome State Fault Refusal := .next (scheduledData dst.val guide.val lambda.val hdr data s)

/-! ### Post tokens (R106, R213) -/

/-- The destination returns the fact that it took a post to the core that issued it (R214), where what waited behind it goes on. -/
def confirmPost (s : State) (c id dst : Nat) : State :=
  sendPosts (modCore s c fun y => { y with remote := y.remote.filter fun q => !(q.id == id && q.dst == dst) }) c

/-- The post that a link carries next to a core, once every transfer issued before it on the link has arrived (R106). -/
def nextPost? (s : State) (src dst : Nat) : Option RemotePost :=
  let y := core s src
  y.remote.find? fun p => p.dst == dst && p.via ≤ 3 && p.sent &&
    !(y.remote.any fun q => q.via == p.via && q.id < p.id) &&
    !(y.moves.any fun m => m.id < p.id && !m.bounds && m.kind == p.via)

/-- POST_TOKEN (R103, R106, R213, R268): the token that a link or a channel carries next posts its destination counter. -/
def postToken (path : TokenPath) (no loc ctr amount : Nat) (s : State) : State :=
  match path with
  | .link src dst =>
    match runCtx? s dst.val, nextPost? s src.val dst.val with
    | some x, some p =>
      if ctxNo x.handle != no || p.ctr != ctr || p.amount != amount || runCtx? s src.val != some x then s
      else confirmPost (postCounter s x dst.val ctr amount) src.val p.id dst.val
    | _, _ => s
  | .channel d g l =>
    match chanTo s d.val g.val l.val no loc with
    | .nothing => s
    | .mismatch => ctxDiscard s d.val
    | tag =>
      let i := g.val / 8
      let idx := carried s g.val l.val
      match (nextTransfer? s i idx d.val).filter fun t => t.hdr == postHdr t.handle loc ctr amount with
      | none => s
      | some t =>
        let s := takeTransfer s i idx d.val t
        match ctx? s t.handle, tag with
        | some x, .core _ k => confirmPost (postCounter s x k.core ctr amount) t.core t.id k.core
        | _, _ => s

def execPostToken (path : TokenPath) (context : Fin 16) (dstLocal : Fin 4) (ctr : Fin 32) (amount : Fin 256) (s : State) :
    Host.Outcome State Fault Refusal := .next (postToken path context.val dstLocal.val ctr.val amount.val s)

/-! ### Credits (R271, R294) -/

/-- CREDIT_MESSAGE (R271): receiver `src` returns credits to source `dst`, which holds at most 512 toward it. -/
def creditMessage (src dst n : Nat) (s : State) : State :=
  if src == dst then s
  else
    let r := Reg.basinCredit dst src
    let s := putField s r 9 0 (minNat 512 (field s r 9 0 + n))
    modSite s src fun x => { x with recvHeld := tmod 0 x.recvHeld dst fun h => h - n }

def execCreditMessage (src dst : SiteNo) (credits : Nat) (s : State) : Host.Outcome State Fault Refusal :=
  .next (creditMessage src.val dst.val credits s)

end Sys2Proof.Machine
end

