-- ==== Sys2Proof/Machine/Combiner.lean ====
section
/-! DEFINITION. The event combiner and the fault log (R69, R533 to R546). -/

namespace Sys2Proof.Machine

/-- The severity of a report: that of its class and code, except that CONFIG 1 for a voted setpoint is NOTE (R668). -/
def repSeverity (r : Report) : Nat :=
  if r.cls.val == 15 && r.code == 1 && r.unit / 2 ^ 24 == 0x12 then 0 else severity r.cls.val r.code

/-- The record of one report. -/
def recOf (r : Report) (late : Bool) : LogRec :=
  { cls := r.cls.val, sev := repSeverity r, late := late, isRepeat := false, firmware := false, part := r.part,
    tick := r.stamp, code := r.code, unit := r.unit, count := 1, firstSrc := r.src, d0 := r.d0, d1 := r.d1,
    lastTick := r.stamp }

/-- Whether two records have one signature: CLASS, CODE, UNIT and PARTITION, and for unit kinds 0x05 and 0x16 also DETAIL0
(R537). -/
def sameSig (a b : LogRec) : Bool :=
  a.cls == b.cls && a.code == b.code && a.unit == b.unit && a.part == b.part &&
    (!(a.unit / 2 ^ 24 == 0x05 || a.unit / 2 ^ 24 == 0x16) || a.d0 == b.d0)

/-- Merge a report's record into an existing one of its tick: the first source is the lowest, and the details are its
(R537); the highest severity stands (R536). -/
def mergeRec (a b : LogRec) : LogRec :=
  let a := { a with count := satAdd 32 a.count b.count, late := a.late || b.late, sev := maxNat a.sev b.sev }
  if b.firstSrc < a.firstSrc then { a with firstSrc := b.firstSrc, d0 := b.d0, d1 := b.d1 } else a

/-- What the resolution of one tick has formed so far. -/
structure Resolved where
  recs : List LogRec
  windows : List RepWindow
  early : List LogRec     -- REPEAT records of windows closed early
  merged : Nat
  lost : Nat

/-- The REPEAT record of a window (R538): the stamps of the first and last later report, and their number. -/
def repeatRec (w : RepWindow) : LogRec :=
  { w.first with isRepeat := true, count := minNat w.count (2 ^ 32 - 1), tick := w.firstStamp, lastTick := w.lastStamp,
                 late := w.late }

/-- The REPEAT record of a window, if it took any report. -/
def closeWindow (w : RepWindow) : List LogRec := if w.count == 0 then [] else [repeatRec w]

/-- Add a later report to a window. -/
def joinWindow (w : RepWindow) (r : LogRec) : RepWindow :=
  { w with count := w.count + 1, firstStamp := if w.count == 0 then r.tick else w.firstStamp, lastStamp := r.tick,
           late := w.late || r.late }

/-- Whether a window covers tick n for a signature: 4,096 ticks from its opening, which formed the record (R538). -/
def covers (w : RepWindow) (r : LogRec) (n : Nat) : Bool := sameSig w.first r && w.opened < n && n < w.opened + 4096

/-- Take one report of tick n: it merges into a record of its tick, joins a window, forms a record and opens a window, or is
dropped when 64 records are formed (R537 to R539). -/
def takeReport (n : Nat) (x : Resolved) (a : Arrived) : Resolved :=
  let r := recOf a.rep a.late
  if x.recs.any (sameSig r) then
    { x with recs := x.recs.map fun q => if sameSig r q then mergeRec q r else q, merged := x.merged + 1 }
  else if x.windows.any fun w => covers w r n then
    { x with windows := x.windows.map fun w => if covers w r n then joinWindow w r else w, merged := x.merged + 1 }
  else if 64 ≤ x.recs.length then { x with lost := x.lost + 1 }
  else
    let old := if 256 ≤ x.windows.length then x.windows.take 1 else []
    let keep := if 256 ≤ x.windows.length then x.windows.drop 1 else x.windows
    { x with recs := x.recs ++ [r], early := x.early ++ old.flatMap closeWindow,
             windows := keep ++ [{ first := r, opened := n, count := 0, firstStamp := r.tick, lastStamp := r.tick,
                                   late := false }] }

/-- Insert a record by ascending FIRST_SOURCE, after those of the same source. -/
def insertRec (r : LogRec) : List LogRec → List LogRec
  | [] => [r]
  | q :: qs => if r.firstSrc < q.firstSrc then r :: q :: qs else q :: insertRec r qs

/-- Records in ascending FIRST_SOURCE order (R539). -/
def sortRecs (rs : List LogRec) : List LogRec := rs.foldl (fun acc r => insertRec r acc) []

/-- Queue emitted records: those that find the queue of 512 full are dropped (R539). -/
def emitRecs (s : State) (rs : List LogRec) : State :=
  let room := 512 - s.faults.queue.length
  let lost := rs.length - room
  let s := { s with faults := { s.faults with queue := s.faults.queue ++ rs.take room } }
  if lost == 0 then s else raiseFlag (addPair s Reg.faultLost lost) Reg.faultFlags 1

/-- The oldest tick that is due: the first with an arrived report, else the last due one. -/
def resolveTick (s : State) : Nat :=
  let last := tickOf s - 3
  s.faults.arrived.foldl (fun m a => if a.tick < m then a.tick else m) last

/-- COMBINER_RESOLVE_TICK (R69): at 256 (n + 3) the combiner resolves tick n and emits its records. Ticks that hold no
report resolve with it. -/
def combinerResolveTick (s : State) : State :=
  if !s.time.running || tickOf s < s.faults.nextTick + 3 then s
  else
    let n := resolveTick s
    let x := (s.faults.arrived.filter fun a => a.tick == n).foldl (takeReport n)
      { recs := [], windows := s.faults.windows, early := [], merged := 0, lost := 0 }
    let s := { s with faults := { s.faults with
      arrived := s.faults.arrived.filter fun a => a.tick != n, nextTick := n + 1, windows := x.windows } }
    let s := addPair s Reg.faultMerged x.merged
    let s := if x.lost == 0 then s else raiseFlag (addPair s Reg.faultLost x.lost) Reg.faultFlags 1
    emitRecs s (sortRecs x.recs ++ x.early)

def execCombinerResolveTick (s : State) : Host.Outcome State Fault Refusal := .next (combinerResolveTick s)

/-- Remove the first occurrence of a report. -/
def dropReport (r : Report) : List Report → List Report
  | [] => []
  | q :: qs => if q = r then qs else q :: dropReport r qs

/-- FAULT_REPORT (R533, R540): a report reaches the combiner. Its class counter counts it; one whose tick is resolved is
placed in the oldest unresolved tick and marked late (R69). Before Basin time is synchronised it is a record at once. A
report of class THERMAL, POWER or LIGHT triggers a housekeeping round (R586). -/
def faultReport (r : Report) (s : State) : State :=
  let s := { s with faults := { s.faults with inTransit := dropReport r s.faults.inTransit } }
  let s := addPair s (Reg.faultClass r.cls.val) 1
  let s := if r.cls.val == 0 || r.cls.val == 1 || r.cls.val == 4 then houseTrig s else s
  if !s.time.running then emitRecs s [recOf r false]
  else if r.stamp < s.faults.nextTick then
    let s := raiseFlag (addPair s Reg.faultLateEvents 1) Reg.faultFlags 2
    { s with faults := { s.faults with arrived := s.faults.arrived ++
      [{ rep := r, tick := s.faults.nextTick, late := true }] } }
  else { s with faults := { s.faults with arrived := s.faults.arrived ++
      [{ rep := r, tick := r.stamp, late := false }] } }

def execFaultReport (r : Report) (s : State) : Host.Outcome State Fault Refusal := .next (faultReport r s)

/-- REPEAT_WINDOW_CLOSE (R538): the window opened earliest, once its last tick is resolved, emits its REPEAT record. -/
def repeatWindowClose (s : State) : State :=
  match s.faults.windows with
  | [] => s
  | w :: ws =>
    if s.faults.nextTick < w.opened + 4096 then s
    else emitRecs { s with faults := { s.faults with windows := ws } } (closeWindow w)

def execRepeatWindowClose (s : State) : Host.Outcome State Fault Refusal := .next (repeatWindowClose s)

/-- LOG_WRITE (R541): the active Weir writes the oldest record as the next log entry; log writing pauses in a gap (R556). -/
def logWrite (s : State) : State :=
  match s.faults.queue with
  | [] => s
  | r :: rs => if weirServes s then appendLog { s with faults := { s.faults with queue := rs } } r else s

def execLogWrite (s : State) : Host.Outcome State Fault Refusal := .next (logWrite s)

end Sys2Proof.Machine
end

