-- ==== Sys2Proof/Machine/LineCode.lean ====
section
/-! DEFINITION. The line code of Basin and Outlet channels: the layout of a frame, its code, scrambler and stuffing, and what a receiver
finds in it (R357 to R360). -/

namespace Sys2Proof.Machine

/-- The code of a line frame: RS(528,514) over GF(2^10), field polynomial x^10 + x^3 + 1; a codeword corrects up to 7 symbol errors
(R360). That the generator's roots begin with alpha^0 is a DESIGN CHOICE, log 19. -/
def lineCode : RsCode := { width := 10, poly := 0x409, checks := 14 }

/-- The 60 header bits of a frame with a seed (R357). -/
def lineHeader (f : LineFrame) (seed : BitVec 32) : Nat :=
  seed.toNat + f.type.val * 2 ^ 32 + f.fseq.val * 2 ^ 34 + f.reserved.val * 2 ^ 50

/-- Symbols of some width from bits, the first bit the lowest. -/
def bitSymbols (w : Nat) : Nat → List Bool → List Nat
  | 0, _ => []
  | n + 1, bs => ((bs.take w).foldr (fun b v => 2 * v + if b then 1 else 0) 0) :: bitSymbols w n (bs.drop w)

/-- The 15,420 data bits of a frame: its header and its 1,920 payload bytes, in order. -/
def lineData (f : LineFrame) (seed : BitVec 32) : List Bool :=
  symbolBits 60 [lineHeader f seed] ++ symbolBits 8 (((f.payload ++ List.replicate 1920 0).take 1920).map BitVec.toNat)

/-- The three codewords of a frame, 528 symbols each, one after the other. That they are not interleaved is a DESIGN CHOICE, log 19. -/
def lineSymbols (f : LineFrame) (seed : BitVec 32) : List Nat :=
  let ds := bitSymbols 10 1542 (lineData f seed)
  (List.range 3).flatMap fun k => let d := (ds.drop (514 * k)).take 514; d ++ rsCheck lineCode d

/-- A bit of the scrambler 1 + x^39 + x^58, from the register of the bits sent before: bit k the one k + 1 before (R358). It begins each
coded section at zero. DESIGN CHOICE, log 19. -/
def lineKey (r : Nat) : Bool := r.testBit 38 ^^ r.testBit 57

def lineShift (r : Nat) (b : Bool) : Nat := (2 * r + if b then 1 else 0) % 2 ^ 58

/-- Scramble: each bit sent is the data bit plus the bits sent 39 and 58 before. -/
def lineScramble : Nat → List Bool → List Bool
  | _, [] => []
  | r, b :: bs => let c := b ^^ lineKey r; c :: lineScramble (lineShift r c) bs

/-- Descramble: the receiver's register holds the bits received, and needs no seed. -/
def lineDescramble : Nat → List Bool → List Bool
  | _, [] => []
  | r, c :: cs => (c ^^ lineKey r) :: lineDescramble (lineShift r c) cs

/-- Stuff: after 24 identical consecutive bits a bit of the opposite value is inserted (R359); it is the first of the next run, since a run
counts anew only at the sync word. DEDUCED, log 19. `last` and `n` are the run so far. -/
def stuff : Bool → Nat → List Bool → List Bool
  | _, _, [] => []
  | last, n, b :: bs =>
    let m := if n != 0 && b == last then n + 1 else 1
    if m == 24 then b :: (!b) :: stuff (!b) 1 bs else b :: stuff b m bs

/-- Unstuff: the bit after every run of 24 is removed; the second part counts those that are not opposite (R359). -/
def unstuff : Bool → Nat → List Bool → List Bool × Nat
  | _, _, [] => ([], 0)
  | last, n, b :: bs =>
    if n == 24 then
      let u := unstuff b 1 bs
      (u.1, u.2 + if b == last then 1 else 0)
    else
      let u := unstuff b (if n != 0 && b == last then n + 1 else 1) bs
      (b :: u.1, u.2)

/-- The coded section of a frame, scrambled and stuffed. -/
def codedSection (f : LineFrame) (seed : BitVec 32) : List Bool :=
  stuff false 0 (lineScramble 0 (symbolBits 10 (lineSymbols f seed)))

/-- Bits that stuffing adds to a frame's 15,840. -/
def stuffedBits (f : LineFrame) (seed : BitVec 32) : Nat := (codedSection f seed).length - 15840

/-- A frame whose stuffing would exceed 480 bits is encoded again with a new seed (R359). -/
def reseeded (f : LineFrame) : Bool := 480 < stuffedBits f f.seed

/-- The frame and the seed that a slot carries: where the second encoding exceeds too, an idle frame (R359). -/
def slotFrame (f : LineFrame) : LineFrame × BitVec 32 :=
  if !reseeded f then (f, f.seed)
  else if stuffedBits f f.seed2 ≤ 480 then (f, f.seed2)
  else ({ f with type := 1, payload := [] }, f.seed2)

/-- The sync word, bit 0 first (R357). -/
def syncWord : Nat := 0x0F2D_F0D2_5A3C_A5C3

/-- The 16,384 unit intervals of a frame: sync word, coded section, and the reserve of 1, 0, 1, 0 (R357). -/
def lineBits (f : LineFrame) (seed : BitVec 32) : List Bool :=
  let c := codedSection f seed
  symbolBits 64 [syncWord] ++ c ++ (List.range (16320 - c.length)).map (· % 2 == 0)

/-- Bits with those at some places wrong. -/
def flipAt (wrong : List (Fin 16384)) (bs : List Bool) : List Bool :=
  bs.zipIdx.map fun b => if wrong.any (·.val == b.2) then !b.1 else b.1

/-- What a receiver finds in a frame: the wrong symbols of each codeword, and the stuffing errors. -/
structure LineFindings where
  wrong : List Nat
  stuffErrors : Nat
deriving DecidableEq, Repr

/-- Receive a frame whose lane brings some bits wrong: unstuff, descramble, and compare the symbols of the codewords with those sent, which
is what the code corrects. -/
def receiveLine (f : LineFrame) (seed : BitVec 32) (wrong : List (Fin 16384)) : LineFindings :=
  if wrong.isEmpty then { wrong := [0, 0, 0], stuffErrors := 0 }
  else
    let u := unstuff false 0 ((flipAt wrong (lineBits f seed)).drop 64)
    let got := bitSymbols 10 1584 (lineDescramble 0 u.1)
    let ne := List.zipWith (· != ·) got (lineSymbols f seed)
    { wrong := (List.range 3).map fun k => (((ne.drop (528 * k)).take 528).filter id).length, stuffErrors := u.2 }

/-- Symbols corrected: those of the codewords within the code's reach (R360). -/
def LineFindings.corrected (r : LineFindings) : Nat := (r.wrong.filter (· ≤ lineCode.reach)).sum

/-- Codewords beyond the code's reach. -/
def LineFindings.uncorrectable (r : LineFindings) : Nat := (r.wrong.filter (lineCode.reach < ·)).length

end Sys2Proof.Machine
end

