-- ==== Sys2Proof/Machine/Light.lean ====
section
/-! DEFINITION. Springs, combiners, receivers, line frames and the power clamp (R333 to R346, R357 to R363). -/

namespace Sys2Proof.Machine

/-! ### Springs (R333 to R337) -/

def springState (s : State) (n : Nat) : Nat := field s (Reg.springStat n) 10 8
def springPos (s : State) (n : Nat) : Nat := field s (Reg.springStat n) 23 20

/-- The Spring that feeds a position. -/
def feeding? (s : State) (p : Nat) : Option Nat := (List.range 10).find? fun n => springPos s n == p && springState s n == 3

/-- The other position of a pair. -/
def pairMate (p : Nat) : Nat := if p % 2 == 0 then p + 1 else p - 1

/-- A Spring's role: it follows where the Spring that feeds the pair's other position leads, and leads otherwise. -/
def takeRole (s : State) (r : Nat) : Option Nat → State
  | none => putBit s r 1 true
  | some m => if regBit s (Reg.springStat m) 1 then putBit s r 1 false else putBit s r 1 true

/-- The combiner registers of a pair: those of the guides and the Outlet lanes of its four sites (R333, R365). -/
def pairCombs (p : Nat) : List Nat := (List.range 4).flatMap fun k => (List.range 12).map (Reg.lightComb (4 * (p / 2) + k))

/-- The combs of a position's pair have its feed: the input is present, and a comb that has no other passes it alone (R335). Where the
other is present it goes on as it is until it sums both. -/
def combsGain (s : State) (p : Nat) : State :=
  (pairCombs p).foldl (fun s r =>
    let own := if p % 2 == 0 then 28 else 27
    let other := if p % 2 == 0 then 27 else 28
    let s := putBit s r own true
    if regBit s r other then s else putBit s r 26 true) s

/-- A Spring begins to feed a position: it follows where its partner feeds, and leads otherwise. At a start with both, the even
position leads. DEDUCED, log 19. -/
def feedFrom (s : State) (n p : Nat) : State :=
  let r := Reg.springStat n
  let s := combsGain (putField (putField s r 23 20 p) r 10 8 3) p
  takeRole s r (feeding? s (pairMate p))

/-- A Spring is switched on: it takes the bias of its band and warms (R337, R355). -/
def warmSpring (s : State) (n : Nat) : State :=
  let s := rampDomain s (domSpring n) (railMv (domSpring n))
  let s := putSpring s n { springUnpowered s (spring s n) with onSince := some (physNow s) }
  let s := putField s (Reg.springStat n) 10 8 1
  putField s (Reg.springBias n) 9 0 (Config.springBias (field s (Reg.springStat n) 17 16)).toNat

/-- SPRING_FAILED (R336): the laser goes dark at once, and the partner, if it feeds, leads alone. -/
def springDown (s : State) (n : Nat) (cause : SpringFault) : State :=
  let x := spring s n
  if x.failed then s
  else
    let r := Reg.springStat n
    let p := springPos s n
    let s := putSpring s n { springUnpowered s x with failed := true, failedAt := tickOf s, restoring := none }
    let s := putField (putBit (putBit s r 0 false) r 1 false) r 10 8 4
    let s := raiseFlag s (Reg.springFlags n) 2
    let s := match cause with
      | .powerLow => raiseFlag s (Reg.springFlags n) 0
      | .offGrid => raiseFlag s (Reg.springFlags n) 1
      | .domain => s
    let s := offDomain (putReg s (Reg.springBias n) 0) (domSpring n)
    let s := if p < 8 then match feeding? s (pairMate p) with
        | some m => putBit s (Reg.springStat m) 1 true
        | none => s
      else s
    let s := if p < 8 then abandonCals s true true fun a => a.opcode == opCa || a.guide / 32 == p / 2 else s
    raise s 4 1 (unitNo 0x07 n) 0xFF 0 0 (srcSpring n)

/-- A powered Spring fails; one that is off has no light to lose. -/
def springFailed (n : Nat) (cause : SpringFault) (s : State) : State :=
  if springState s n == 0 then s else springDown s n cause

/-- The spare that restoration takes: the lowest-numbered Spring that is unpowered and not failed. -/
def spareSpring? (s : State) : Option Nat :=
  (List.range 10).find? fun n => domState s (domSpring n) == 0 && springState s n == 0 && !(spring s n).failed

/-- Whether a position waits for a spare: its Spring failed, and none is on its way. -/
def positionLost (s : State) (p : Nat) : Bool :=
  (feeding? s p).isNone && ((List.range 10).any fun n => springPos s n == p && (spring s n).failed) &&
    !(List.range 10).any fun n => (spring s n).restoring == some p

/-- Whether the combiner has resolved the tick in which a position's Spring failed. -/
def positionResolved (s : State) (p : Nat) : Bool :=
  (List.range 10).all fun n => !(springPos s n == p && (spring s n).failed) || !s.time.running || (spring s n).failedAt < s.faults.nextTick

/-- Give the lowest lost position a spare: of a pair that one Spring still feeds, or, at a start, of any. -/
def takeSpare (s : State) (ok : Nat → Bool) : State :=
  match (List.range 8).find? fun p => positionLost s p && ok p with
  | none => s
  | some p => match spareSpring? s with
    | none => s
    | some n => warmSpring (putSpring s n { spring s n with restoring := some p }) n

/-- SPRING_RESTORE (R337): firmware powers a spare for the lowest-numbered position of a single-fed pair, once the combiner has
resolved the tick of the failure. -/
def springRestore (s : State) : State :=
  if !weirServes s then s
  else takeSpare s fun p => positionResolved s p && (feeding? s (pairMate p)).isSome

def execSpringRestore (s : State) : Host.Outcome State Fault Refusal := .next (springRestore s)

/-- A locked spare is switched into its position, and the new assignment is recorded (R337). -/
def switchIn (s : State) (n p : Nat) : State :=
  let s := (List.range 10).foldl (fun s m => if m != n && springPos s m == p then putField s (Reg.springStat m) 23 20 0xF else s) s
  let s := match feeding? s (pairMate p) with
    | some m => putBit s (Reg.springStat m) 1 true
    | none => s
  let s := raiseFlag (feedFrom (putSpring s n { spring s n with restoring := none }) n p) (Reg.springFlags n) 3
  { s with record := { s.record with springPos := (List.range 8).map fun q => if q == p then n else s.record.springPos.getD q q } }

/-- Locked spares that waited for a Weir are switched in (R337). -/
def switchWaiting (s : State) : State :=
  (List.range 10).foldl (fun s n => match (spring s n).restoring with
    | some p => if springState s n == 2 then switchIn s n p else s
    | none => s) s

/-- SPRING_LOCKED (R337, R606): a warming Spring has locked. It feeds its position, or is switched into the failed one's while a
Weir serves. -/
def springLocked (n : Nat) (s : State) : State :=
  if springState s n != 1 then s
  else
    let r := Reg.springStat n
    let s := putField s (Reg.powerDomain (domSpring n)) 31 30 2
    let s := putField (putBit s r 0 true) r 10 8 2
    match (spring s n).restoring with
    | some p => if weirServes s then switchIn s n p else s
    | none => if springPos s n < 8 then feedFrom s n (springPos s n) else s

/-! ### Combiners (R335) -/

/-- The site of a comb, its combiner register, and the feed positions of its pair (R333, R365). -/
def combSite (c : Nat) : Nat := if c < 128 then c / 8 else (c - 128) / 4
def combReg (c : Nat) : Nat := if c < 128 then Reg.lightComb (c / 8) (c % 8) else Reg.lightComb ((c - 128) / 4) (8 + c % 4)
def combPos (c : Nat) (second : Bool) : Nat := 2 * (combSite c / 4) + if second then 1 else 0

/-- COMBINER_FEED_LOSS (R335): an input has read low for 500 ns; the combiner passes the surviving feed alone. -/
def combinerFeedLoss (c : Nat) (second : Bool) (s : State) : State :=
  let r := combReg c
  let b := if second then 27 else 28
  let s := putBit s r b false
  let a := regBit s r 28
  let z := regBit s r 27
  let s := putBit (putBit s r 26 (a != z)) r 29 (!a && !z)
  raise s 4 2 (unitNo 0x08 (combPos c second)) 0xFF 0 0 (srcPort (combSite c))

def execCombinerFeedLoss (comb : Fin 192) (second : Bool) (s : State) : Host.Outcome State Fault Refusal :=
  .next (combinerFeedLoss comb.val second s)

/-- COMBINER_RESUME (R335): a second feed has arrived locked and coherent, and the combiner sums both. -/
def combinerResume (c : Nat) (s : State) : State :=
  if (feeding? s (combPos c false)).isNone || (feeding? s (combPos c true)).isNone then s
  else
    let r := combReg c
    putBit (putBit (putBit (putBit s r 28 true) r 27 true) r 26 false) r 29 false

def execCombinerResume (comb : Fin 192) (s : State) : Host.Outcome State Fault Refusal := .next (combinerResume comb.val s)

/-! ### Receivers (R282, R344, R360, R380) -/

/-- A channel of an Outlet lane leaves the striping; a lane of which more than four are gone fails (R380). -/
def loseChannel (s : State) (o lane l : Nat) : State :=
  let k := 32 * lane + l
  if tget false (link s o).deadChans k || !linkUp s o then s
  else
    let s := modLink s o fun x => { x with deadChans := tput false x.deadChans k true }
    let s := raiseFlag s (Reg.linkFlags o) 2
    let s := raise s 10 3 (unitNo 0x06 o) 0xFF lane l (srcOutlet o)
    if 4 < ((link s o).deadChans.filter fun e => e.1 / 32 == lane).length then failLane s o lane else s

/-- A detector of a receiver is set (R344): its flag, its counter, the report, and what R282 or R380 does about it. A receiver
whose ring is parked, or whose Outlet sleeps, declares nothing. -/
def detector (r : Receiver) (bit code : Nat) (count : Nat → Nat) (s : State) : State :=
  match r with
  | .basin i ring =>
    match tfind (site s i.val).rings ring.val with
    | none => s
    | some q =>
      let s := raiseFlag (addPairSat s (count i.val) 1) (Reg.lightFlags i.val) bit
      let s := raise s 4 code (unitNo 0x0B (1024 * i.val + ring.val)) (ringOwner s q) 0 0 (srcPort i.val)
      failRing s i.val ring.val
  | .outlet o lane l =>
    if linkStateOf s o.val == 5 || regBit s (Reg.optStat o.val) 4 then s
    else
      let s := raiseFlag (addPairSat s (count o.val) 1) (Reg.lightFlags o.val) bit
      let s := raise s 4 code (unitNo 0x06 o.val) 0xFF lane.val l.val (srcOutlet o.val)
      loseChannel s o.val lane.val l.val

/-- LOSS_OF_SIGNAL (R344): the detector is set; its clearing has no effect of its own, since the flags are write-1-to-clear. -/
def lossOfSignal (r : Receiver) (set : Bool) (s : State) : State := if set then detector r 0 5 Reg.lightLos s else s

def execLossOfSignal (r : Receiver) (set : Bool) (s : State) : Host.Outcome State Fault Refusal := .next (lossOfSignal r set s)

/-- LOSS_OF_LOCK (R344). -/
def lossOfLock (r : Receiver) (set : Bool) (s : State) : State := if set then detector r 1 6 Reg.lightLol s else s

def execLossOfLock (r : Receiver) (set : Bool) (s : State) : Host.Outcome State Fault Refusal := .next (lossOfLock r set s)

/-- The sender of a Basin channel counts a frame that it had to encode again (R359). -/
def countReseed (s : State) (f : LineFrame) : Receiver → State
  | .basin _ ring =>
    let i := ring.val / 8 / 8
    if reseeded f then raiseFlag (addPairSat s (Reg.lightReseeds i) 1) (Reg.lightFlags i) 2 else s
  | .outlet _ _ _ => s

/-- The payload of a data frame goes on to what the receiver feeds. -/
def passLine (s : State) (i ring : Nat) (f : LineFrame) : State :=
  if f.type.val == 0 then emit s (.lineBytes i ring f.payload) else s

/-- CHANNEL_FRAME (R357 to R360): a frame, as its sender encodes it, arrives with some bits wrong. Corrected symbols, stuffing errors and
uncorrectable codewords are counted. An uncorrectable one fails the ring (R282); on an Outlet its flits are asked for again (R379). -/
def channelFrame (r : Receiver) (f : LineFrame) (wrong : List (Fin 16384)) (s : State) : State :=
  let i := match r with
    | .basin i _ => i.val
    | .outlet o _ _ => o.val
  let e := slotFrame f
  let x := receiveLine e.1 e.2 wrong
  let s := countReseed s f r
  let s := addPairSat (addPairSat (addPairSat s (Reg.lightFecCorr i) x.corrected) (Reg.lightFecUncorr i) x.uncorrectable)
    (Reg.lightStuffErr i) x.stuffErrors
  let s := if x.stuffErrors == 0 then s else raiseFlag s (Reg.lightFlags i) 3
  match r with
  | .outlet o _ _ =>
    if x.uncorrectable == 0 || !linkUp s o.val then s else emit s (.linkControl o.val (link s o.val).rxNext true)
  | .basin i ring =>
    match tfind (site s i.val).rings ring.val with
    | none => s
    | some q =>
      let s := modSite s i.val fun x' => { x' with rings := tins x'.rings ring.val { q with good := q.good + (3 - x.uncorrectable) } }
      if x.uncorrectable == 0 then passLine s i.val ring.val e.1 else failRing s i.val ring.val

def execChannelFrame (r : Receiver) (seed seed2 : BitVec 32) (f : LineBody) (wrong : List (Fin 16384)) (s : State) :
    Host.Outcome State Fault Refusal :=
  .next (channelFrame r { seed := seed, seed2 := seed2, type := f.type, fseq := f.fseq, reserved := f.reserved, payload := f.payload } wrong s)

/-! ### Pre-emphasis (R354, R356) -/

/-- The three taps of the drivers in force at a site, of its Basin modulators (0) or its Outlet (1), in 1/64: PRE, MAIN and POST of the
factory table's entry for the band taken up. -/
def driverTaps (s : State) (i kind : Nat) : Int × Int × Int :=
  let b := (site s i).tapBand
  let p := Config.tapPre kind b
  let q := Config.tapPost kind b
  (p, 64 - |p| - |q|, q)

/-! ### The power clamp (R363) -/

/-- CLAMP_TRIP (R363): the shutters of the fibres concerned close, and the trip is latched. -/
def clampTrip (o : Nat) (fibres : BitVec 6) (s : State) : State :=
  let r := Reg.optStat o
  let s := putField s r 13 8 (field s r 13 8 ||| fibres.toNat)
  let s := raiseFlag (addPairSat (putBit s r 2 true) (Reg.optClampTrips o) 1) (Reg.optFlags o) 2
  raise s 4 10 (unitNo 0x06 o) 0xFF fibres.toNat 0 (srcOutlet o)

def execClampTrip (o : OutletNo) (fibres : BitVec 6) (s : State) : Host.Outcome State Fault Refusal :=
  .next (clampTrip o.val fibres s)

/-- The shutters of an Outlet that is awake: those of fibres that carry a lane are open. -/
def openShutters (s : State) (o : Nat) : Nat :=
  maskOf ((List.range 6).filter fun f => !(List.range 4).any fun l => fibreOf s o l == f)

/-- CLAMP_REOPEN (R363): firmware asks for a reopening, at most once a second; the clamp reopens only if every monitor is
valid. -/
def clampReopen (o : Nat) (valid : Bool) (s : State) : State :=
  let r := Reg.optStat o
  let soon : Bool := match (link s o).lastReopen with
    | some t => s.time.now < t + 1000000000
    | none => false
  if !weirServes s || !regBit s r 2 || soon then s
  else
    let s := modLink s o fun l => { l with lastReopen := some s.time.now }
    if !valid then s
    else
      let s := putBit s r 2 false
      if regBit s r 3 then s else putField s r 13 8 (openShutters s o)

def execClampReopen (o : OutletNo) (monitorsValid : Bool) (s : State) : Host.Outcome State Fault Refusal :=
  .next (clampReopen o.val monitorsValid s)

end Sys2Proof.Machine
end

