-- ==== Sys2Proof/Machine/HostRegs.lean ====
section
/-! DEFINITION. Host access to registers, doorbells and mailbox windows (R15 to R20, R432 to R440, R454, R461 to R475, R618 to
R628). -/

namespace Sys2Proof.Machine

/-! ### What the host reaches (R432, R460, R623) -/

/-- Whether a function takes memory requests: the host interface is on, the link is up, and the function exists and is not in
D3hot. -/
def fnReach (s : State) (fn : Nat) : Bool :=
  domOn s domHost && s.linkUp && (fn == 0 || s.vfsOn) && !tget false s.d3hot fn

/-- Whether the domain that holds the block of an offset is on and out of reset (R618, R623). -/
def blockHeld (s : State) (off : Nat) : Bool :=
  let port (i : Nat) : Bool := domOn s (domPort i) && !siteFailed s i
  match (Reg.place off).1 with
  | .global | .time | .clock | .house | .power | .fault | .spring _ | .fabric => domOn s (domTile 4)
  | .dma _ | .queue => domOn s domHost
  | .siteState i => domOn s (domTile (tileUnder i))
  | .cperf c => port (c / 4)
  | .mem i | .basin i | .abango i | .light i => port i
  | .link o | .optics o => domOn s (domOutlet o)
  | .gap => false

/-- Whether an offset of BAR0 is a register that PF0 reaches now. -/
def pf0Reg (s : State) (off : Nat) : Bool := fnReach s 0 && blockHeld s off

/-! ### Register views: what the registers that hold no value of their own read as -/

/-- `SITE_STAT` (R645). -/
def siteStatView (s : State) (i : Nat) : Nat :=
  let cores (p : Nat → Bool) : Nat := maskOf ((List.range 4).filter fun k => p (4 * i + k))
  let v := setBits (reg s (Reg.siteStat i)) 23 20 (cores fun c => (core s c).fenced)
  let v := setBits v 19 16 (cores (corePowered s))
  setBit v 0 (domOn s (domPort i) && !siteFailed s i)

/-- `SITE_CPERF_STAT` (R118): the context number is undefined while the core idles, a free value (log 5). -/
def cperfStatView (s : State) (c : Nat) : Nat :=
  let y := core s c
  let v := setBits (reg s (Reg.cperfStat c)) 6 4 y.step
  let v := if y.running.isSome then v else setBit (setBit v 2 false) 1 false
  match y.running with
  | some h => setBit (setBits v 11 8 (ctxNo h)) 7 false
  | none => setBit (setBits v 11 8 (Config.freeValue s.freeCount).toNat) 7 true

/-- `SITE_BASIN_STAT` (R291). -/
def basinStatView (s : State) (i : Nat) : Nat :=
  let x := site s i
  let v := setBits (reg s (Reg.basinStat i)) 23 16 (x.rings.filter fun e => e.2.handle.isNone && !e.2.failed).length
  let v := setBits v 15 7 (x.rings.filter fun e => !e.2.failed).length
  setBit (setBit v 2 (x.folded.any (·.2))) 0 (x.rings.any fun e => !e.2.settled && !e.2.failed)

/-- `SITE_BASIN_TXCH` of an index (R296): whether a spare carries it or it is folded, and the sites that hold a ring on what carries
it. -/
def basinTxchView (s : State) (i idx : Nat) : Nat :=
  let x := site s i
  let dsts : List Nat := match carrier s i idx with
    | some w => ((ringsOn s w.1 w.2).filter fun (o : Nat × Nat × Ring) => !o.2.2.failed).map fun o => o.1
    | none => []
  let v := setBits (reg s (Reg.basinTxch i idx)) 15 0 (maskOf dsts.eraseDups)
  setBit (setBit v 29 (x.slot30 == some idx || x.slot31 == some idx)) 28 (tget false x.folded idx)

/-- `SITE_BASIN_SUBST` (R293). -/
def basinSubstView (s : State) (i : Nat) : Nat :=
  let slot (o : Option Nat) (b : Nat) : Nat := match o with
    | some idx => 2 ^ (b + 15) + idx * 2 ^ b
    | none => 0
  slot (site s i).slot30 0 + slot (site s i).slot31 16

/-- `SITE_BASIN_CREDIT[d]` (R294): STALLED while requests toward d wait for credits. -/
def basinCreditView (s : State) (i d : Nat) : Nat :=
  if i == d then 0 else setBit (reg s (Reg.basinCredit i d)) 31 ((site s i).openReqs.any fun r => r.dst == d && r.retry)

def slotsInUse (s : State) : Nat :=
  (s.contexts.map fun x => x.waiting.length + (match x.run with
    | some r => if r.phases == 0 then 1 else 0
    | none => 0)).foldl (· + ·) 0

def selUpset (s : State) : Bool := s.upsets.any fun u => u.1 == ParityUnit.qpSel

/-- `QUEUE_QP_INFO` (R462, R626). -/
def qpInfoView (s : State) : Nat :=
  if selUpset s then 0
  else
    let q := qp s (field s Reg.queueQpSel 17 0)
    q.mode % 4 * 2 ^ 30 + q.channel % 32 * 2 ^ 25 + q.cqLog % 16 * 2 ^ 20 + q.sqLog % 16 * 2 ^ 16 + q.owner % 256

/-- A calibration entry whose parity fails reads VALID 0 (R626). -/
def calUpset (s : State) (off : Nat) : Bool :=
  s.upsets.any fun u => match u.1 with
    | .txcal i c => Reg.lightTxcal i.val c.val == off
    | .rxcal i r l => Reg.lightRxcal i.val r.val l.val == off
    | _ => false

/-- Whether GAP reads 1 (R471, R631): in a switchover gap, and once no Weir is left. -/
def inGap (s : State) : Bool := s.weir.gap.isSome || s.weir.mgmtLost

/-- `HOUSE_STAT` with CHANNEL, the channel that a running round reads now, 4 us each (R584, R638). -/
def houseStatView (s : State) : Nat :=
  let v := reg s Reg.houseStat
  if s.house.running then v + minNat ((s.time.now - s.house.started) / 4000) 511 * 2 ^ 16 else v

/-- `POWER_THROTTLE_NS` with the throttle in progress (R641). -/
def throttleNsView (s : State) : Nat :=
  reg s Reg.powerThrottleNs + (s.power.throttleFrom.map (s.time.now - ·)).getD 0

/-- The value of a register, or of a whole pair at its low offset. -/
def regView (s : State) (off : Nat) : Nat :=
  match Reg.place off with
  | (.global, 0x4) => setBit (reg s off) 9 (inGap s)
  | (.global, 0x10) => 0
  | (.global, 0x14) => 0xFFFF_FFFF
  | (.global, 0x18) => Config.serial.toNat
  | (.time, 0x10) => if s.time.running then s.time.now else 0
  | (.clock, 0x10) => setBit (setBit (reg s off) 26 (domOn s (domWeir .a))) 27 (domOn s (domWeir .b))
  | (.house, 0x0) => houseStatView s
  | (.house, 0x4) => 0
  | (.power, 0x18) => throttleNsView s
  | (.queue, 0x0) => slotsInUse s
  | (.queue, 0xC) => qpInfoView s
  | (.siteState i, 0x0) => siteStatView s i
  | (.cperf c, 0x4) => cperfStatView s c
  | (.basin i, 0x0) => basinStatView s i
  | (.basin i, 0x8) => basinSubstView s i
  | (.basin i, x) => if 0x100 ≤ x && x < 0x140 then basinCreditView s i ((x - 0x100) / 4)
    else if 0x400 ≤ x && x < 0x800 then basinTxchView s i ((x - 0x400) / 4) else reg s off
  | (.spring n, 0x18) => springOnNs s (spring s n) / 1000000000
  | (.light _, _) => if calUpset s off then setBit (reg s off) 31 false else reg s off
  | _ => reg s off

/-! ### Latches (R20) -/

def latchKey (fn off : Nat) : Nat := 2 ^ 26 * fn + off

/-! ### The guarded pair GLOBAL_RESET (R18, R632) -/

/-- A pair that does not match, or is broken up (R18). -/
def pairMismatch (s : State) : State :=
  raise (raiseFlag { s with firstWrite := none } Reg.globalFlags 0) 15 2 (unitNo 0x00 0) 0xFF 0 0 (srcTile 4)

/-- PAIR_FIRST_WRITE (R18): a write to offset n cancels an earlier pending pair and is the pending first write itself. -/
def pairFirstWrite (value : Word) (s : State) : State :=
  if !pf0Reg s Reg.globalReset then s
  else
    let s := if s.firstWrite.isSome then pairMismatch s else s
    { s with firstWrite := some value.toNat }

def execPairFirstWrite (value : Word) (s : State) : Host.Outcome State Fault Refusal := .next (pairFirstWrite value s)

/-- GLOBAL_RESET_GO (R632): a matching complement with GO = 1 requests a module reset, which acts at the end of the tick. -/
def globalResetGo (complement : Word) (s : State) : State :=
  if !pf0Reg s Reg.globalReset then s
  else
    match s.firstWrite with
    | none => pairMismatch s
    | some v =>
      if BitVec.ofNat 32 v != ~~~complement then pairMismatch s
      else
        let s := { s with firstWrite := none }
        if bit v 0 then { s with start := { s.start with resetReq := true } } else s

def execGlobalResetGo (complement : Word) (s : State) : Host.Outcome State Fault Refusal := .next (globalResetGo complement s)

/-! ### Writes with rows of their own -/

/-- Zero the nine counters of a core (R117, R119). -/
def clearCperf (s : State) (c : Nat) : State :=
  [Reg.cperfReplica c, Reg.cperfIssue c, Reg.cperfStallToken c, Reg.cperfStallBank c, Reg.cperfStallLink c,
    Reg.cperfArrayActive c, Reg.cperfArraySkipped c, Reg.cperfVector c, Reg.cperfCadenceOverrun c].foldl (fun s r => putReg s r 0) s

/-- A write of `SITE_CPERF_CTL` (R117 to R119). -/
def writeCperf (s : State) (c : Nat) (clear freeze enable : Bool) : State :=
  if !pf0Reg s (Reg.cperfCtl c) then s
  else
    let s := if clear then clearCperf s c else s
    let s := putReg s (Reg.cperfCtl c) ((if freeze then 2 else 0) + if enable then 1 else 0)
    let s := putBit s (Reg.cperfStat c) 0 (freeze || !enable)
    endUpset s fun u => match u with
      | .cperf d => d.val == c
      | _ => false

/-- CPERF_CLEAR (R117). -/
def cperfClear (c : Nat) (freeze enable : Bool) (s : State) : State := writeCperf s c true freeze enable
def execCperfClear (core : CoreNo) (freeze enable : Bool) (s : State) : Host.Outcome State Fault Refusal :=
  .next (cperfClear core.val freeze enable s)

/-- CPERF_FREEZE (R117). -/
def cperfFreeze (c : Nat) (on : Bool) (s : State) : State := writeCperf s c false on (regBit s (Reg.cperfCtl c) 0)
def execCperfFreeze (core : CoreNo) (on : Bool) (s : State) : Host.Outcome State Fault Refusal := .next (cperfFreeze core.val on s)

/-- CPERF_ENABLE (R117). -/
def cperfEnable (c : Nat) (on : Bool) (s : State) : State := writeCperf s c false (regBit s (Reg.cperfCtl c) 1) on
def execCperfEnable (core : CoreNo) (on : Bool) (s : State) : Host.Outcome State Fault Refusal := .next (cperfEnable core.val on s)

/-- A write of `DMA_CH_CTL` (R465). -/
def writeDmaCtl (s : State) (ch v : Nat) : State :=
  if !pf0Reg s (Reg.dmaCtl ch) then s
  else
    let s := endUpset (putReg s (Reg.dmaCtl ch) (v % 8)) fun u => match u with
      | .dmaCtl d => d.val == ch
      | _ => false
    dmaStat s ch

/-- DMA_CHANNEL_DISABLE (R454). -/
def dmaChannelDisable (ch : Nat) (on : Bool) (s : State) : State := writeDmaCtl s ch (setBit (reg s (Reg.dmaCtl ch)) 0 on)
def execDmaChannelDisable (ch : ChanNo) (on : Bool) (s : State) : Host.Outcome State Fault Refusal :=
  .next (dmaChannelDisable ch.val on s)

/-- DMA_CHANNEL_PRIORITY (R451, R465). -/
def dmaChannelPriority (ch p : Nat) (s : State) : State := writeDmaCtl s ch (setBits (reg s (Reg.dmaCtl ch)) 2 1 p)
def execDmaChannelPriority (ch : ChanNo) (p : Fin 4) (s : State) : Host.Outcome State Fault Refusal :=
  .next (dmaChannelPriority ch.val p.val s)

/-- A write-1-to-clear write: bits that hardware has set in this tick stay (R17, R19). -/
def clearFlags (s : State) (off v : Nat) : State :=
  let m := reg s off &&& v &&& Reg.w1cBits off
  putReg s off (reg s off ^^^ (m ^^^ (m &&& tget 0 s.flagsNow off)))

/-- A write of `DMA_CH_FLAGS`: clearing HALTED resumes the channel and clears VALID (R455). -/
def writeDmaFlags (s : State) (ch v : Nat) : State :=
  if !pf0Reg s (Reg.dmaFlags ch) then s
  else
    let s := clearFlags s (Reg.dmaFlags ch) v
    let s := if bit v 0 && !regBit s (Reg.dmaFlags ch) 0 then putBit s (Reg.dmaErrinfo ch) 31 false else s
    dmaStat s ch

/-- DMA_HALT_CLEAR (R455). -/
def dmaHaltClear (ch : Nat) (s : State) : State := writeDmaFlags s ch 1
def execDmaHaltClear (ch : ChanNo) (s : State) : Host.Outcome State Fault Refusal := .next (dmaHaltClear ch.val s)

/-- HOUSE_TRIGGER (R586, R638). -/
def houseTrigger (go : Bool) (s : State) : State := if go && pf0Reg s Reg.houseTrigger then houseTrig s else s
def execHouseTrigger (go : Bool) (s : State) : Host.Outcome State Fault Refusal := .next (houseTrigger go s)

def clockUpset (s : State) : Bool := s.upsets.any fun u => u.1 == ParityUnit.clock

/-- REFA_MODE_WRITE (R17, R635): takes effect only while the block is disabled. -/
def refaModeWrite (mode : Bool) (s : State) : State :=
  if !pf0Reg s Reg.clockRefcfg then s
  else if regBit s Reg.clockCtrl 0 then raiseFlag s Reg.clockFlags 0
  else { putReg s Reg.clockRefcfg (if mode then 1 else 0) with upsets := s.upsets.filter fun u => !(u.1 == .clock && u.2 < 32) }

def execRefaModeWrite (mode : Bool) (s : State) : Host.Outcome State Fault Refusal := .next (refaModeWrite mode s)

/-- The CLOCK block is enabled, unless a mismatch stands in it (R628): REFA_MODE then acts on the monitor (R635). -/
def enableClock (s : State) : State :=
  if clockUpset s then s
  else { putBit s Reg.clockCtrl 0 true with clock := { s.clock with refaMode := regBit s Reg.clockRefcfg 0 } }

/-- CLOCK_ENABLE_WRITE (R624, R635): whatever the host writes, ENABLE is set, a 0 being clamped to 1. -/
def clockEnableWrite (_value : Word) (s : State) : State := if pf0Reg s Reg.clockCtrl then enableClock s else s
def execClockEnableWrite (value : Word) (s : State) : Host.Outcome State Fault Refusal := .next (clockEnableWrite value s)

def calSite : CalReg → Nat
  | .tx i _ => i.val
  | .rx i _ _ => i.val

/-- CAL_ENTRY_WRITE (R353, R368): an entry is written while the site's rings are not in service; else the write is ignored. -/
def calEntryWrite (r : CalReg) (value : Word) (s : State) : State :=
  let i := calSite r
  if !pf0Reg s (calRegAt r) then s
  else if regBit s (Reg.lightStat i) 0 then raiseFlag s (Reg.lightFlags i) 6
  else endUpset (putEntry s (calRegAt r) value.toNat) (· == calUnit r)

def execCalEntryWrite (reg : CalReg) (value : Word) (s : State) : Host.Outcome State Fault Refusal :=
  .next (calEntryWrite reg value s)

/-! ### MSI-X entries (R449, R461, R626) -/

/-- A write of one dword of a vector's entry: reserved bits of the control dword are dropped, and a vector that is no longer
masked sends its pending message. -/
def writeMsix (s : State) (fn v i value : Nat) : State :=
  let s := putReg s (msixAt fn v i) (if i == 3 then value % 2 else value % 2 ^ 32)
  let s := if fn == 0 then endUpset s fun u => match u with
      | .msix w => w.val == v
      | _ => false
    else s
  msixRelease s fn v

/-- Every vector of a function that is no longer held sends its pending message. -/
def msixReleaseAll (s : State) (fn : Nat) : State :=
  (List.range (if fn == 0 then 2048 else 64)).foldl (fun s v => msixRelease s fn v) s

/-- BUS_MASTER_ENABLE (R443): completions, events and interrupts that waited for the bit are written when it is set. -/
def busMasterEnable (fn : Nat) (on : Bool) (s : State) : State :=
  let s := { s with bme := tput false s.bme fn on }
  if !on || tget false s.d3hot fn then s
  else
    let s := s.qps.foldl (fun s q => if q.2.owner == fn && q.2.mode != 0 then cqFlush s q.1 else s) s
    msixReleaseAll (evtFlush s fn) fn

def execBusMasterEnable (fn : Fn) (on : Bool) (s : State) : Host.Outcome State Fault Refusal := .next (busMasterEnable fn.val on s)

/-! ### Doorbell pages (R436 to R440) -/

/-- The queue pair whose page a function writes, if it may. PF0's write to a page that is not its own is flagged. -/
def pageQp (s : State) (fn page : Nat) : Option Nat :=
  if fn == 0 then
    (if page < 262144 && (qp s page).mode != 0 && (qp s page).owner == 0 then some page else none)
  else
    let r := tget .reset s.vfRanges fn
    if page < r.count && (qp s (r.base + page)).mode != 0 && (qp s (r.base + page)).owner == fn then some (r.base + page) else none

/-- PF0 writes a page of a queue pair it does not own: of a VF's queue pair, or of a VF's range (R437). -/
def foreignPage (s : State) (fn page : Nat) : Bool :=
  fn == 0 && page < 262144 && ((qp s page).mode != 0 && (qp s page).owner != 0 ||
    s.vfRanges.any fun r => r.2.base ≤ page && page < r.2.base + r.2.count)

def foreign (s : State) (page : Nat) : State :=
  let owner := ((s.vfRanges.find? fun r => r.2.base ≤ page && page < r.2.base + r.2.count).map (·.1)).getD (qp s page).owner
  raise (raiseFlag s Reg.queueFlags 0) 12 4 (unitNo 0x15 page) (fnPart s owner) 0 0 srcHost

def dbError (s : State) (q : Nat) : State :=
  let s := addPairSat (raiseFlag (modQp s q fun x => { x with dbError := true }) Reg.queueFlags 1) Reg.queueDbErrors 1
  raise s 14 3 (unitNo 0x15 q) (fnPart s (qp s q).owner) q 0 srcHost

/-- SQ_TAIL_WRITE (R439). -/
def sqTailWrite (fn page : Nat) (value : Word) (s : State) : State :=
  if !fnReach s fn then s
  else
    match pageQp s fn page with
    | none => if foreignPage s fn page then foreign s page else s
    | some q =>
      let x := qp s q
      let n := sqSize x
      let t := value.toNat % 65536 % n
      let ahead (v : Nat) : Nat := (v + n - x.head % n) % n
      if ahead t < ahead x.tail then dbError s q
      else putQp s q { x with tail := t, dbError := false }

def execSqTailWrite (fn : Fn) (page : Nat) (value : Word) (s : State) : Host.Outcome State Fault Refusal :=
  .next (sqTailWrite fn.val page value s)

/-- CQ_HEAD_WRITE (R440): frees the slots before the new head; a head that passes the module's write index is ignored. -/
def cqHeadWrite (fn page : Nat) (value : Word) (s : State) : State :=
  if !fnReach s fn then s
  else
    match pageQp s fn page with
    | none => if foreignPage s fn page then foreign s page else s
    | some q =>
      let x := qp s q
      let n := cqSize x
      let t := value.toNat % 65536 % n
      if (x.cqTail + n - x.cqHead) % n < (t + n - x.cqHead) % n then dbError s q
      else putQp s q { x with cqHead := t, dbError := false }

def execCqHeadWrite (fn : Fn) (page : Nat) (value : Word) (s : State) : Host.Outcome State Fault Refusal :=
  .next (cqHeadWrite fn.val page value s)

/-! ### Mailbox windows (R469 to R475) -/

/-- Whether a function may write a window: its own (R470). -/
def ownWindow (s : State) (fn w : Nat) : Bool := fnReach s fn && fn == w

/-- MB_DOORBELL (R475, R480). -/
def mbDoorbell (fn n : Nat) (value : Word) (s : State) : State :=
  if !ownWindow s fn n then s
  else
    let q := value.toNat % 65536
    let s := modWin s n fun w => { w with doorbell := q }
    let w := win s n
    if w.mode == 1 then raiseMb s n 0
    else if tget 0 w.req 0 / 65536 != q then raiseMb s n 1
    else if w.lastSeq == some q then raiseMb s n 2
    else if inGap s then modWin s n fun w => { w with stamped := none, mode := 4, seq := q }
    else
      let s := if w.stamped.isSome then raiseMb s n 0 else s
      modWin s n fun w => { w with stamped := some q, stampTick := copyTick s copyHost }

def execMbDoorbell (fn window : Fn) (value : Word) (s : State) : Host.Outcome State Fault Refusal :=
  .next (mbDoorbell fn.val window.val value s)

/-- MB_EVT_HEAD_WRITE (R469, R484). -/
def mbEvtHeadWrite (fn n : Nat) (value : Word) (s : State) : State :=
  if ownWindow s fn n then modWin s n fun w => { w with evtHead := value.toNat % 4096 } else s

def execMbEvtHeadWrite (fn window : Fn) (value : Word) (s : State) : Host.Outcome State Fault Refusal :=
  .next (mbEvtHeadWrite fn.val window.val value s)

/-- A write of a word of a window. -/
def writeWindow (s : State) (fn n x : Nat) (value : Word) : State :=
  if x == 0 then mbDoorbell fn n value s
  else if x == 0x10 then mbEvtHeadWrite fn n value s
  else if !ownWindow s fn n then s
  else if x == 0x8 then
    let keep := tget 0 s.flagsNow (2 ^ 41 + n)
    modWin s n fun w => { w with flags := w.flags &&& ~~~(value &&& 0xF#32 &&& ~~~(BitVec.ofNat 32 keep)) }
  else if 0x400 ≤ x && x < 0x800 then modWin s n fun w => { w with req := tput 0 w.req ((x - 0x400) / 4) value.toNat }
  else s

/-! ### Reads of every BAR (R15, R17, R20) -/

/-- A read of BAR0 by PF0 (R20, R620, R623): the low half of a pair reads live, and the high half goes into the function's latch. A
block that is off reads zero, its latch too; any other defined offset reads its value, and a high half its latch. -/
def readBar0 (s : State) (fn off : Nat) : State :=
  if !blockHeld s off then
    let s := if Reg.pairLow off then { s with latches := tput 0 s.latches (latchKey fn off) 0 } else s
    emit s (.readValue fn 0)
  else if Reg.pairLow off then
    let v := regView s off
    let s := { s with latches := tput 0 s.latches (latchKey fn off) (v / 2 ^ 32 % 2 ^ 32) }
    emit s (.readValue fn (BitVec.ofNat 32 v))
  else if 4 ≤ off && Reg.pairLow (off - 4) then emit s (.readValue fn (BitVec.ofNat 32 (tget 0 s.latches (latchKey fn (off - 4)))))
  else
    let s := emit s (.readValue fn (BitVec.ofNat 32 (regView s off)))
    match Reg.place off with
    | (.cperf _, 0x4) => { s with freeCount := s.freeCount + 1 }
    | _ => s

/-- What a word of BAR2 reads as to a function (R432, R436 to R438): its own doorbell pages, and a VF's MSI-X table and pending bits. -/
def bar2View (s : State) (fn off : Nat) : Nat :=
  if fn != 0 && 0x40_0000 ≤ off then
    (if off < 0x40_0400 then reg s (msixAt fn ((off - 0x40_0000) / 16) (off % 16 / 4))
      else if 0x40_1000 ≤ off && off < 0x40_1008 then reg s (pbaAt fn (8 * (off - 0x40_1000))) else 0)
  else match pageQp s fn (off / 4096) with
    | none => 0
    | some n =>
      let q := qp s n
      match off % 4096 with
      | 0x0 => q.tail % 65536
      | 0x4 => q.cqHead % 65536
      | 0x8 => q.mode % 4 * 2 ^ 30 + (if q.dbError then 2 ^ 29 else 0) + (if q.fetchError then 2 ^ 28 else 0) + q.head % 65536
      | 0xC => q.cqTail % 65536
      | _ => 0

/-- `MB_STAT` (R471). -/
def mbStatView (s : State) (w : MbWindow) : Nat :=
  w.mode % 8 * 2 ^ 29 + (if inGap s then 2 ^ 28 else 0) + (if s.weir.active == .b then 2 ^ 27 else 0) + w.seq % 65536

/-- What a word of a mailbox window reads as (R469). -/
def windowView (s : State) (n x : Nat) : Nat :=
  let w := win s n
  match x with
  | 0x0 => w.doorbell
  | 0x4 => mbStatView s w
  | 0x8 => w.flags.toNat
  | 0x10 => w.evtHead
  | 0x14 => w.evtTail
  | 0x18 => w.evtLost
  | _ => if 0x400 ≤ x && x < 0x800 then tget 0 w.req ((x - 0x400) / 4)
    else if 0x800 ≤ x && x < 0xC00 then tget 0 w.resp ((x - 0x800) / 4) else 0

/-- A read of BAR4: PF0 reads every window, a VF its own (R432, R470). -/
def bar4View (s : State) (fn off : Nat) : Nat :=
  if fn == 0 then (if off < 0x10_0000 then windowView s (off / 4096) (off % 4096) else 0)
  else if off < 4096 then windowView s fn off else 0

/-- L64_LOW_READ (R15, R17, R20, R433, R438, R469, R470): a host read of any register. One of another size or alignment returns zero
and has no effect. VFs have no BAR0 (R432). -/
def l64LowRead (fn : Nat) (bar : Bar) (off size : Nat) (s : State) : State :=
  if !fnReach s fn || (fn != 0 && bar == .bar0) then s
  else if size != 4 || off % 4 != 0 then emit s (.readValue fn 0)
  else
    match bar with
    | .bar0 => readBar0 s fn off
    | .bar2 => emit s (.readValue fn (BitVec.ofNat 32 (bar2View s fn off)))
    | .bar4 => emit s (.readValue fn (BitVec.ofNat 32 (bar4View s fn off)))

def execL64LowRead (fn : Fn) (r : BarRead) (s : State) : Host.Outcome State Fault Refusal :=
  .next (l64LowRead fn.val r.bar r.off r.size s)

/-! ### HOST_REGISTER_WRITE (R17) -/

/-- Whether GLOBAL has a register at an offset: a write there breaks a pending pair (R18, R620). -/
def globalReg (x : Nat) : Bool := x == 0x0 || x == 0x4 || x == 0x8 || x == 0x18 || x == 0x1C || x == 0x20 || x == 0x24 || x == 0x28

/-- A write of one word of BAR0 that PF0 reaches. -/
def writeBar0 (s : State) (off : Nat) (value : Word) : State :=
  let v := value.toNat
  match Reg.place off with
  | (.global, x) =>
    if x == 0x10 then pairFirstWrite value s
    else if x == 0x14 then globalResetGo value s
    else
      let s := if globalReg x && s.firstWrite.isSome then pairMismatch s else s
      if x == 0x8 then clearFlags s off v else s
  | (.clock, x) =>
    if x == 0x0 then clockEnableWrite value s
    else if x == 0x8 then refaModeWrite (bit v 0) s
    else if Reg.w1cBits off != 0 then clearFlags s off v else s
  | (.house, x) => if x == 0x4 then houseTrigger (bit v 0) s else s
  | (.cperf c, x) => if x == 0x0 then writeCperf s c (bit v 2) (bit v 1) (bit v 0) else s
  | (.dma ch, x) => if x == 0x0 then writeDmaCtl s ch v else if x == 0x8 then writeDmaFlags s ch v else s
  | (.queue, x) =>
    if x == 0x8 then endUpset (putReg s off (v % 2 ^ 18)) (· == .qpSel)
    else if 0x4_0000 ≤ x && x < 0x4_8000 then writeMsix s 0 ((x - 0x4_0000) / 16) (x % 16 / 4) v
    else if Reg.w1cBits off != 0 then clearFlags s off v else s
  | (.light i, x) =>
    if h : 0x400 ≤ x ∧ x < 0x800 then
      calEntryWrite (.tx (Fin.ofNat 16 i) ⟨(x - 0x400) / 4, by omega⟩) value s
    else if 0x2_0000 ≤ x && x < 0x4_0000 then
      calEntryWrite (.rx (Fin.ofNat 16 i) (Fin.ofNat 1024 ((x - 0x2_0000) / 128)) (Fin.ofNat 32 (x % 128 / 4))) value s
    else if Reg.w1cBits off != 0 then clearFlags s off v else s
  | _ => if Reg.w1cBits off != 0 then clearFlags s off v else s

/-- HOST_REGISTER_WRITE (R15, R17, R433, R470): an aligned 32-bit write takes effect by the access code of the register; any other
is discarded. A register with a row of its own takes the effect of that row. -/
def hostRegisterWrite (fn : Nat) (bar : Bar) (off size : Nat) (value : Word) (s : State) : State :=
  if !fnReach s fn || size != 4 || off % 4 != 0 then s
  else
    match bar with
    | .bar0 => if fn == 0 && blockHeld s off then writeBar0 s off value else s
    | .bar2 =>
      let page := off / 4096
      if fn != 0 && 0x40_0000 ≤ off then
        (if off < 0x40_0400 then writeMsix s fn ((off - 0x40_0000) / 16) (off % 16 / 4) value.toNat else s)
      else if off % 4096 == 0 then sqTailWrite fn page value s
      else if off % 4096 == 4 then cqHeadWrite fn page value s
      else match pageQp s fn page with
        | some _ => s
        | none => if foreignPage s fn page then foreign s page else s
    | .bar4 =>
      if fn == 0 then writeWindow s 0 (off / 4096) (off % 4096) value
      else if off < 4096 then writeWindow s fn fn off value else s

def execHostRegisterWrite (fn : Fn) (bar : Bar) (off size : Nat) (value : Word) (s : State) :
    Host.Outcome State Fault Refusal := .next (hostRegisterWrite fn.val bar off size value s)

end Sys2Proof.Machine
end

