-- ==== Sys2Proof/Machine/Resets.lean ====
section
/-! DEFINITION. Resets of functions and of the host link (R458 to R460, R483, R494, R597). -/

namespace Sys2Proof.Machine

/-! ### One queue pair (R458 steps 1 to 5) -/

/-- What a dispatch completes on, once a queue pair is gone. -/
def unlinkDispatch (q : Nat) (d : Dispatch) : Dispatch := if d.qp == q || d.cq == q then { d with cq := noCq } else d

def unlinkContext (q : Nat) (x : Context) : Context :=
  { x with waiting := x.waiting.map (unlinkDispatch q), run := x.run.map fun r => { r with d := unlinkDispatch q r.d } }

/-- Whether a completion that waits to be written is of an SQ's entry. -/
def ofSq (q : Nat) (ws : List Nat) : Bool := bits (ws.getD 1 0) 51 34 == q

def unlinkEntries (q : Nat) (x : QpState) : QpState :=
  { x with accepted := (x.accepted.map fun a => if a.cq == q then { a with cq := noCq } else a),
           blocked := x.blocked.filter fun ws => !ofSq q ws }

/-- Completions of a queue pair's work go nowhere: neither its own entries' nor those that name its CQ. -/
def unlinkQp (s : State) (q : Nat) : State :=
  { s with contexts := s.contexts.map (unlinkContext q), startReqs := s.startReqs.filter fun r => r.d.qp != q,
           ended := (s.ended.filter fun e => e.cpl.sq != q).map fun e => if e.cq == q then { e with cq := noCq } else e,
           qps := s.qps.map fun e => (e.1, unlinkEntries q e.2) }

/-- The CQs, other than its own, in which work of a queue pair holds reserved slots. -/
def reservedElsewhere (s : State) (q : Nat) : List Nat :=
  let own := ((qp s q).accepted.map (·.cq)) ++ ((s.startReqs.filter fun r => r.d.qp == q).map (·.d.cq)) ++
    (s.contexts.flatMap fun x => ((x.waiting ++ (x.run.map (·.d)).toList).filter fun d => d.qp == q).map (·.cq)) ++
    (s.dma.flatMap fun e => (e.2.copies.filter fun r => r.qp == q).map (·.cq)) ++
    ((s.ended.filter fun e => e.cpl.sq == q).map (·.cq)) ++
    (s.qps.flatMap fun e => (e.2.blocked.filter (ofSq q)).map fun _ => e.1)
  own.filter fun c => c != q && c != noCq

/-- The copies that a test picks stop with no completion; what they still wait for is answered for nobody (R458). -/
def stopCopies (s : State) (p : CopyRec → Bool) : State :=
  s.dma.foldl (fun s e =>
    let d := dmaCh s e.1
    dmaStat (putDma s e.1 { d with copies := d.copies.filter fun r => !p r }) e.1) s

def unlinkCopies (q : Nat) (d : DmaState) : DmaState :=
  { d with copies := d.copies.map fun r => if r.cq == q then { r with cq := noCq } else r }

/-- The running dispatches that a test picks are to be aborted, after the tick's barriers (R165, R184). -/
def abortRuns (s : State) (p : Dispatch → Bool) : State :=
  (s.contexts.filter fun x => match x.run with
    | some r => p r.d
    | none => false).foldl (fun s x => requestAbort s x.handle) s

/-- Steps 1 to 5 of R458 for one queue pair: what is fetched and not started is dropped, running dispatches are aborted, copies
stop, and nothing more is written. -/
def stopQp (s : State) (q : Nat) : State :=
  let s := (reservedElsewhere s q).foldl (fun s c => modQp s c fun x => { x with reserved := x.reserved - 1 }) s
  let s := abortRuns s fun d => d.qp == q
  let s := unlinkQp (stopCopies s fun r => r.qp == q) q
  let s := { s with dma := s.dma.map fun e => (e.1, unlinkCopies q e.2) }
  modQp s q fun x => { x with fetched := [], accepted := [], open_ := [], unreported := 0, oldest := none, blocked := [] }

/-- A queue pair is gone (R458 step 6). -/
def deleteQp (s : State) (q : Nat) : State := forgetQp (stopQp s q) q

/-! ### The mailbox of a function (R483) -/

def forgetUnmap (fn : Nat) (f : FarPending) : FarPending := if f.window == some fn then { f with window := none } else f

def forgetStep (fn : Nat) (c : StepChange) : StepChange := if c.window == some fn then { c with window := none } else c

def resetWindow (s : State) (fn : Nat) : State :=
  let s := { s with mbReqs := s.mbReqs.filter fun r => r.fn != fn,
                    farPending := s.farPending.map (forgetUnmap fn) }
  let s := { s with clock := { s.clock with change := s.clock.change.map (forgetStep fn) } }
  modWin s fn fun w =>
    { w with mode := 0, seq := 0, flags := 0, lastSeq := none, stamped := none, evtHead := 0, evtTail := 0, evtLost := 0,
             ringBase := 0, ringSize := 0, ringTag := true, blocked := [] }

/-! ### Functions (R458, R459) -/

/-- The configuration state of a function that PCI Express clears with it: Bus Master Enable, the power state and the MSI-X table.
PRESUMED, log 20. -/
def resetConfig (s : State) (fn : Nat) : State :=
  let s := { s with bme := tput false s.bme fn false, d3hot := tput false s.d3hot fn false }
  dropRegs s fun off =>
    if fn == 0 then 0x84_0000 ≤ off && off < 0x84_8100 else 2 ^ 40 + fn * 2 ^ 32 ≤ off && off < 2 ^ 40 + (fn + 1) * 2 ^ 32

/-- R458 and R483 for one function: its queue pairs are deleted; its range, contexts and binding remain. -/
def resetFunction (s : State) (fn : Nat) : State :=
  let mine := (s.qps.filter fun e => e.2.mode != 0 && e.2.owner == fn).map (·.1)
  let s := abortRuns s fun d => d.fn == fn
  resetConfig (resetWindow (mine.foldl deleteQp s) fn) fn

/-- R458 for every function, after which the VFs are disabled (R459). -/
def resetAllFunctions (s : State) : State := { (List.range 256).foldl resetFunction s with vfsOn := false }

/-- Whether the host can reach a function's configuration space. -/
def fnExists (s : State) (fn : Nat) : Bool := domOn s domHost && s.linkUp && (fn == 0 || s.vfsOn)

/-- FUNCTION_LEVEL_RESET (R458, R459). -/
def functionLevelReset (fn : Nat) (s : State) : State :=
  if !fnExists s fn then s else if fn == 0 then resetAllFunctions s else resetFunction s fn

def execFunctionLevelReset (fn : Fn) (s : State) : Host.Outcome State Fault Refusal := .next (functionLevelReset fn.val s)

/-- HOT_RESET (R459, R597): a hot reset, or PERST#; it never starts a module reset. -/
def hotReset (s : State) : State := if domOn s domHost then resetAllFunctions s else s

def execHotReset (s : State) : Host.Outcome State Fault Refusal := .next (hotReset s)

/-- HOST_LINK_DOWN (R459): every function is reset, and the loss is reported. -/
def hostLinkDown (s : State) : State :=
  if !s.linkUp then s
  else raise { resetAllFunctions s with linkUp := false } 14 4 (unitNo 0x00 0) 0xFF 0 0 srcHost

def execHostLinkDown (s : State) : Host.Outcome State Fault Refusal := .next (hostLinkDown s)

/-- HOST_LINK_UP (R459): the link has trained, while the host interface is on. -/
def hostLinkUp (s : State) : State := if domOn s domHost then { s with linkUp := true } else s

def execHostLinkUp (s : State) : Host.Outcome State Fault Refusal := .next (hostLinkUp s)

/-- D3HOT_ENTRY (R460): the function accepts only configuration requests, and may not master the bus. -/
def d3hotEntry (fn : Nat) (s : State) : State :=
  if fnExists s fn then { s with d3hot := tput false s.d3hot fn true } else s

def execD3hotEntry (fn : Fn) (s : State) : Host.Outcome State Fault Refusal := .next (d3hotEntry fn.val s)

/-- D3HOT_EXIT (R460): a return to D0 acts as a Function Level Reset. -/
def d3hotExit (fn : Nat) (s : State) : State := if tget false s.d3hot fn then functionLevelReset fn s else s

def execD3hotExit (fn : Fn) (s : State) : Host.Outcome State Fault Refusal := .next (d3hotExit fn.val s)

/-- VF_ENABLE (R459): the VFs become available, or are reset and disabled. -/
def vfEnable (on : Bool) (s : State) : State :=
  if !(domOn s domHost && s.linkUp) then s
  else if on then { s with vfsOn := true }
  else { (List.range 255).foldl (fun s i => resetFunction s (i + 1)) s with vfsOn := false }

def execVfEnable (on : Bool) (s : State) : Host.Outcome State Fault Refusal := .next (vfEnable on s)

end Sys2Proof.Machine
end

