-- ==== Sys2Proof/Machine/Partitions.lean ====
section
/-! DEFINITION. The mailbox commands that build, seal and destroy partitions, and those of the Pond cache, the cache slices and the
far window (R230 to R243, R400, R401, R488 to R493, R508 to R526, R530). -/

namespace Sys2Proof.Machine

/-! ### Shared checks -/

/-- Whether a partition takes new requests: it is open or sealed (R524). -/
def partLive (s : State) (p : Nat) : Bool := (part s p).mode == .opened || (part s p).mode == .sealed

/-- Whether a partition is sealed, or its seal is committed. -/
def partSealed (s : State) (p : Nat) : Bool := (part s p).mode == .sealed || (part s p).sealing

/-- The partitions that are not absent. -/
def livingParts (s : State) : List (Nat × Partition) := s.parts.filter fun e => e.2.mode != .absent

/-- Whether another partition holds something that a test finds. -/
def heldByOther (s : State) (p : Nat) (f : Partition → Bool) : Bool := (livingParts s).any fun e => e.1 != p && f e.2

/-- Whether a context of a partition has cores, and so streams, on a site. -/
def streamsAt (s : State) (p i : Nat) : Bool := s.contexts.any fun x => x.part == p && x.cores.any fun k => k.core / 4 == i

/-! ### PART_CREATE (R508, R510, R522, R530) -/

/-- Firmware prepares a core that it gives: the core store reads zeros, and every register is unwritten (R522). -/
def prepareCore (s : State) (c : Nat) : State :=
  let s := { s with mem := zeroRange s.mem (coreBase c) (2 ^ 25),
                    corePoison := tdrop s.corePoison fun k => coreBase c ≤ 32 * k && 32 * k < coreBase c + 2 ^ 25 }
  coreOn (modCore s c fun y => { y with accs := [], vregs := [], vpoison := [], vflags := 0, sel := 0, idleSince := none }) c

/-- The DETAIL of CAP with which PART_CREATE is refused: 0 for an admitted one (R530, R582). -/
def pinRefused (s : State) (cores : List Nat) (v : Nat) : Nat :=
  let pins := bit v 7 && !cores.isEmpty
  if pins && bandStep 3 < v % 8 then 2
  else if s.power.throttleFrom.isSome || (pins && !capAdmits s (cores.map fun c => (c, v % 8)) true) then 1 else 0

def strictOk (v : Nat) : Bool := bits v 6 3 == 0 && (bit v 7 || v % 8 == 0)

/-- Set STRICT, with the ramps of a pin, and answer once they have ended (R530). -/
def pinAndAnswer (s : State) (r : MbReq) (p : Nat) (cores : List Nat) (v : Nat) : State :=
  let s := modPart s p fun x => { x with strict := v }
  let s := if bit v 7 then cores.foldl (fun s c => commandCore s c (v % 8)) s else s
  answerRamps (waitAnswer s r p)

/-- PART_CREATE on a partition that exists: only STRICT may change (R522, R492). -/
def changeStrict (r : MbReq) (s : State) (p v : Nat) (cores : List Nat) : State :=
  let x := part s p
  if x.mode == .destroying || x.cores.toNat != param r 1 8 then respond s r (.of stInUse)
  else if v == x.strict then respond s r (.of stOk)
  else if partSealed s p then respond s r (.of stSealed)
  else
    let d := pinRefused s cores v
    if d != 0 then respond s r (.det stCap d) else pinAndAnswer s r p cores v

def partCreate (r : MbReq) (s : State) : State :=
  let p := param r 0 1
  let v := param r 9 1
  let cores := maskList (param r 1 8) 64
  if 64 ≤ p then respond s r (badParam 0)
  else if !strictOk v then respond s r (badParam 9)
  else if (part s p).mode != .absent then changeStrict r s p v cores
  else if cores.any fun c => partOfCore s c != 0xFF || (core s c).fenced then respond s r (.of stInUse)
  else
    let d := pinRefused s cores v
    if d != 0 then respond s r (.det stCap d)
    else
      let s := putPart s p { Partition.reset with mode := .opened, cores := BitVec.ofNat 64 (param r 1 8) }
      let s := modPart s p fun x => { x with strict := v }
      let s := if bit v 7 then cores.foldl (fun s c => commandCore s c (v % 8)) s else s
      pinAndAnswer (cores.foldl prepareCore s) r p [] v

def execPartCreate (s : State) : Host.Outcome State Fault Refusal := .next (execReq s 0x10 partCreate)

/-! ### PART_BIND (R434, R511) -/

def bindVf (s : State) (p v : Nat) : State × Ans :=
  let x := part s p
  if x.vf == some v then (s, .of stOk)
  else if x.vf.isSome || heldByOther s p (fun y => y.vf == some v) then (s, .of stInUse)
  else (putPart s p { x with vf := some v }, .of stOk)

def unbindVf (s : State) (p v : Nat) : State × Ans :=
  let x := part s p
  if x.vf != some v then (s, .of stNotFound)
  else if s.qps.any fun q => q.2.mode != 0 && q.2.owner == v then (s, .of stInUse)
  else (putPart s p { x with vf := none }, .of stOk)

def bindChannel (s : State) (p v : Nat) : State × Ans :=
  (modPart s p fun x => { x with channels := BitVec.ofNat 32 (setBit x.channels.toNat v true) }, .of stOk)

def unbindChannel (s : State) (p v : Nat) : State × Ans :=
  if !bit (part s p).channels.toNat v then (s, .of stNotFound)
  else (modPart s p fun x => { x with channels := BitVec.ofNat 32 (setBit x.channels.toNat v false) }, .of stOk)

def partBind (r : MbReq) (s : State) : State × Ans :=
  let p := param r 0 1
  let v := param r 1 1
  let b := param r 2 1
  if 64 ≤ p then (s, badParam 0)
  else if 3 < b then (s, badParam 2)
  else if (b < 2 && v == 0) || (2 ≤ b && 31 < v) then (s, badParam 1)
  else if !partLive s p then (s, .of stNotFound)
  else if b == 0 then unbindVf s p v
  else if b == 1 then bindVf s p v
  else if b == 2 then bindChannel s p v
  else unbindChannel s p v

def execPartBind (s : State) : Host.Outcome State Fault Refusal := .next (execNow s 0x12 partBind)

/-! ### PART_MEM (R509, R510, R519, R523) -/

/-- A 64 MiB unit changes hands: no cache keeps a line of it. -/
def dropUnitLines (s : State) (u : Nat) : State :=
  let s := (List.range 16).foldl (fun s i => cacheForget s i fun l => 256 * l / 2 ^ 26 == u) s
  modSite s (ownerSite (u * 2 ^ 26)) fun x => { x with sharers := tdrop x.sharers fun k => 65536 * k / 2 ^ 26 == u }

/-- A unit given reads zeros until it is written. -/
def giveUnit (p : Nat) (s : State) (u : Nat) : State :=
  if tget false (part s p).units u then s
  else
    let s := modPart s p fun x => { x with units := tput false x.units u true }
    assignPages (dropUnitLines s u) (u * 2 ^ 26) (2 ^ 26)

/-- A unit taken back keeps its bytes. -/
def takeUnit (p : Nat) (s : State) (u : Nat) : State :=
  if !tget false (part s p).units u then s
  else dropUnitLines (modPart s p fun x => { x with units := tput false x.units u false }) u

def partMem (r : MbReq) (s : State) : State × Ans :=
  let p := param r 0 1
  let a := param r 1 8
  let n := param r 9 8
  let give := param r 17 1
  let us := (List.range (n / 2 ^ 26)).map (a / 2 ^ 26 + ·)
  if 64 ≤ p then (s, badParam 0)
  else if a % 2 ^ 26 != 0 || farBase ≤ a then (s, badParam 1)
  else if n == 0 || n % 2 ^ 26 != 0 || farBase < a + n then (s, badParam 9)
  else if 1 < give then (s, badParam 17)
  else if !partLive s p then (s, .of stNotFound)
  else
    let other := us.any fun u => heldByOther s p fun y => tget false y.units u
    if give == 1 then (if other then (s, .of stInUse) else (us.foldl (giveUnit p) s, .of stOk))
    else if partSealed s p then (s, .of stSealed)
    else if other then (s, .of stNotPermitted)
    else (us.foldl (takeUnit p) s, .of stOk)

def execPartMem (s : State) : Host.Outcome State Fault Refusal := .next (execNow s 0x13 partMem)

/-! ### PART_KEY (R515, R516) -/

def keyMask (k : KeyRec) : Nat := (k.egress ||| k.inBasin ||| k.inOutlet).toNat

/-- The key entries that keys take at a site. -/
def keysAt (ks : List KeyRec) (i : Nat) : Nat := (ks.filter fun k => bit (keyMask k) i).length

/-- The key entries in use at a site, with a partition's keys as given. -/
def keyUse (s : State) (p : Nat) (ks : List KeyRec) (i : Nat) : Nat :=
  ((livingParts s).map fun e => keysAt (if e.1 == p then ks else e.2.keys) i).foldl (· + ·) 0

/-- The key entries of a site as a resource (R476). -/
def resKeyAt (i : Nat) : Nat := 0x100 + i

/-- Whether an egress entry is one of a partition's. -/
def egressOf (p : Nat) (e : Egress) : Bool := bit e.w0.toNat 63 && bits e.w0.toNat 61 56 == p

def partKey (r : MbReq) (s : State) : State × Ans :=
  let p := param r 0 1
  let key := param r 1 2
  let k : KeyRec := { key := key, egress := BitVec.ofNat 16 (param r 3 2), inBasin := BitVec.ofNat 16 (param r 5 2),
                      inOutlet := BitVec.ofNat 16 (param r 7 2) }
  let x := part s p
  if 64 ≤ p then (s, badParam 0)
  else if key == 0 then (s, badParam 1)
  else if !partLive s p then (s, .of stNotFound)
  else if partSealed s p then (s, .of stSealed)
  else if heldByOther s p fun y => y.keys.any fun j => j.key == key then (s, .of stInUse)
  else
    let held := x.keys.any fun j => j.key == key
    let ks := if held then x.keys.map fun j => if j.key == key then k else j else x.keys ++ [k]
    match (List.range 16).find? fun i => 16 < keyUse s p ks i && bit (keyMask k) i with
    | some i => (s, exhausted s r (resKeyAt i))
    | none =>
      if k.egress == 0 && s.island.egress.any fun e => egressOf p e && e.w1.toNat / 2 ^ 48 == key then (s, .of stNotPermitted)
      else
        let s := (maskList (keyMask k) 16).foldl (fun s i => take s r (resKeyAt i)) s
        (putPart s p { x with keys := ks }, .of stOk)

def execPartKey (s : State) : Host.Outcome State Fault Refusal := .next (execNow s 0x14 partKey)

/-! ### PART_EGRESS (R401, R517) -/

/-- Whether an entry of the parameters is well formed. -/
def egressFormed (w0 w1 : Nat) : Bool :=
  bit w0 63 && bits w0 55 52 == 0 && !bit w0 62 && bits w1 47 36 == 0 && bits w0 35 0 ≤ bits w1 35 0

/-- An entry as firmware writes it: its PARTITION is the partition's number. -/
def egressEntry (p w0 w1 : Nat) : Egress :=
  { w0 := BitVec.ofNat 64 (setBits w0 61 56 p), w1 := BitVec.ofNat 64 w1, sealed := false }

def noEgress : Egress := { w0 := 0, w1 := 0, sealed := false }

/-- The free places of the egress table, lowest first. -/
def freeEgress (s : State) : List Nat :=
  (List.range 1024).filter fun i => !bit ((s.island.egress[i]?).getD noEgress).w0.toNat 63

/-- Write an entry at a place of the egress table. -/
def putEgress (s : State) (i : Nat) (e : Egress) : State :=
  let t := s.island.egress ++ List.replicate (i + 1 - s.island.egress.length) noEgress
  { s with island := { s.island with egress := t.set i e } }

def partEgress (r : MbReq) (s : State) : State × Ans :=
  let p := param r 0 1
  let n := param r 1 1
  let es := (List.range n).map fun i => (param r (2 + 16 * i) 8, param r (10 + 16 * i) 8)
  if 64 ≤ p then (s, badParam 0)
  else if n == 0 || 16 < n then (s, badParam 1)
  else match es.findIdx? fun e => !egressFormed e.1 e.2 with
    | some i => (s, badParam (2 + 16 * i))
    | none =>
      if !partLive s p then (s, .of stNotFound)
      else if partSealed s p then (s, .of stSealed)
      else if es.any fun e => !(part s p).keys.any fun k => k.key == e.2 / 2 ^ 48 && k.egress != 0 then (s, .of stNotPermitted)
      else
        let free := freeEgress s
        if free.length < n then (s, exhausted s r resEgress)
        else
          let s := (free.zip es).foldl (fun s t => putEgress s t.1 (egressEntry p t.2.1 t.2.2)) s
          (take s r resEgress, .ok (leBytes 2 (free.headD 0)))

def execPartEgress (s : State) : Host.Outcome State Fault Refusal := .next (execNow s 0x15 partEgress)

/-! ### PART_SEAL (R518) -/

/-- The three rules of R518. -/
def sealAllowed (x : Partition) : Bool :=
  let sites := ((maskList x.cores.toNat 64).map (· / 4)).eraseDups
  let unitStacks := (x.units.map fun e => e.1 / 2 ^ 10).eraseDups
  match x.keys.head? with
  | none => sites.isEmpty && unitStacks.isEmpty
  | some k => (sites.all fun i => bit k.egress.toNat i && bit k.inBasin.toNat i) && unitStacks.all fun i => bit k.inBasin.toNat i

def partSeal (r : MbReq) (s : State) : State :=
  let p := param r 0 1
  if 64 ≤ p then respond s r (badParam 0)
  else if !partLive s p then respond s r (.of stNotFound)
  else if partSealed s p then respond s r (.of stSealed)
  else if !sealAllowed (part s p) then respond s r (.of stNotPermitted)
  else waitAnswer (modPart s p fun x => { x with sealing := true }) r p

def execPartSeal (s : State) : Host.Outcome State Fault Refusal := .next (execReq s 0x16 partSeal)

/-- `SITE_BASIN_KEY` of a key at a site (R295). -/
def keyWord (k : KeyRec) (i : Nat) : Nat :=
  2 ^ 31 + 2 ^ 30 + (if bit k.egress.toNat i then 2 ^ 18 else 0) + (if bit k.inOutlet.toNat i then 2 ^ 17 else 0) +
    (if bit k.inBasin.toNat i then 2 ^ 16 else 0) + k.key % 65536

/-- A reserved key entry is written into its site port, in the lowest free place, and its sealed copy into the island (R42). -/
def writeKey (s : State) (k : KeyRec) (i : Nat) : State :=
  match (List.range 16).find? fun e => !regBit s (Reg.basinKey i e) 31 with
  | none => s
  | some e =>
    let w := keyWord k i
    let s := endUpset (putReg s (Reg.basinKey i e) w) fun u => match u with
      | .key i' e' => i'.val == i && e'.val == e
      | _ => false
    { s with island := { s.island with keys := s.island.keys ++ [(16 * i + e, w)] } }

/-- Seals that were committed take effect at the end of the tick, and are answered (R518). -/
def applySeal (s : State) (p : Nat) : State :=
  let s := (part s p).keys.foldl (fun s k => (maskList (keyMask k) 16).foldl (fun s i => writeKey s k i) s) s
  let es := s.island.egress.map fun e => if egressOf p e then { e with sealed := true } else e
  let s := { s with island := { s.island with egress := es } }
  answerWaiting (modPart s p fun x => { x with mode := .sealed, sealing := false }) 0x16 p (.of stOk)

def applySeals (s : State) : State := ((s.parts.filter fun e => e.2.sealing).map (·.1)).foldl applySeal s

/-! ### PART_STATUS (R488) -/

def partStatus (r : MbReq) (s : State) : State × Ans :=
  let p := paramPart s r 0
  let x := part s p
  let st := match x.mode with
    | .absent => 0
    | .opened => 1
    | .sealed => 2
    | .destroying => 3
  if 64 ≤ p then (s, badParam 0)
  else (s, .ok (leBytes 1 st ++ leBytes 1 x.strict ++ leBytes 8 x.cores.toNat ++
    leBytes 2 (s.contexts.filter fun y => y.part == p).length ++ leBytes 8 x.unwritten ++
    leBytes 4 (s.poison.filter fun e => e.2 && pageWritten s (64 * e.1) && partOfAddr s (64 * e.1) == p).length))

def execPartStatus (s : State) : Host.Outcome State Fault Refusal := .next (execNow s 0x17 partStatus)

/-! ### Ponds and slices (R231 to R233, R493, R519) -/

def pondCache (r : MbReq) (s : State) : State × Ans :=
  let i := param r 0 1
  let k := param r 1 1
  if 15 < i then (s, badParam 0)
  else if 3 < k then (s, badParam 1)
  else if (livingParts s).any (fun e => (tfind e.2.areas i).isSome || tget 0 e.2.slices i != 0) ||
      s.contexts.any (fun x => x.cores.any fun c => c.core / 4 == i) then (s, .of stInUse)
  else
    let s := { s with island := { s.island with split := tput 2 s.island.split i k } }
    (putField s (Reg.memCfg i) 17 16 k, .of stOk)

def execPondCache (s : State) : Host.Outcome State Fault Refusal := .next (execNow s 0x20 pondCache)

/-- The lowest place, in MiB, of a site's scratch where an area of `n` MiB of a partition fits. -/
def areaPlace? (s : State) (p i n : Nat) : Option Nat :=
  let taken := (livingParts s).filterMap fun e => if e.1 == p then none else tfind e.2.areas i
  let fits (o : Nat) : Bool := o + n ≤ pondScratch s i / 2 ^ 20 &&
    taken.all fun t => o + n ≤ t.base || t.base + t.data + t.stream ≤ o
  (List.range 513).find? fits

def pondArea (r : MbReq) (s : State) : State × Ans :=
  let p := param r 0 1
  let i := param r 1 1
  let d := param r 2 2
  let m := param r 4 2
  let x := part s p
  if 64 ≤ p then (s, badParam 0)
  else if 15 < i then (s, badParam 1)
  else if d + m == 0 then (s, badParam 2)
  else if !partLive s p then (s, .of stNotFound)
  else if !((maskList x.cores.toNat 64).any fun c => c / 4 == i) then (s, .of stNotPermitted)
  else if (tfind x.areas i).isSome && partSealed s p then (s, .of stSealed)
  else if (tfind x.areas i).isSome && streamsAt s p i then (s, .of stInUse)
  else match areaPlace? s p i (d + m) with
    | none => (s, exhausted s r (resArea + 0x200 + 16 * i))
    | some o =>
      let s := putPart s p { x with areas := tins x.areas i { base := o, data := d, stream := m } }
      let s := assignPages s (pondBase i + o * 2 ^ 20) ((d + m) * 2 ^ 20)
      (take s r (resArea + 0x200 + 16 * i), .ok (leBytes 2 o))

def execPondArea (s : State) : Host.Outcome State Fault Refusal := .next (execNow s 0x21 pondArea)

def cacheSlices (r : MbReq) (s : State) : State × Ans :=
  let i := param r 0 1
  let p := param r 1 1
  let m := param r 2 2
  let held := tget 0 (part s p).slices i
  if 15 < i then (s, badParam 0)
  else if 64 ≤ p then (s, badParam 1)
  else if m / 2 ^ (pondCacheBytes s i / 2 ^ 24) != 0 then (s, badParam 2)
  else if !partLive s p then (s, .of stNotFound)
  else if heldByOther s p fun y => (tget 0 y.slices i &&& m) != 0 then (s, .of stInUse)
  else if held != 0 && partSealed s p && m != held then (s, .of stSealed)
  else
    let s := modPart s p fun x => { x with slices := tput 0 x.slices i m }
    (cacheForget s i fun l => partOfAddr s (256 * l) == p, .of stOk)

def execCacheSlices (s : State) : Host.Outcome State Fault Refusal := .next (execNow s 0x22 cacheSlices)

/-! ### The far window (R236, R241 to R243, R493) -/

/-- A slot's lines leave every cache. -/
def dropSlotLines (s : State) (slot : Nat) : State :=
  (List.range 16).foldl (fun s i => cacheForget s i fun l => farBase + slot * 2 ^ 30 ≤ 256 * l && 256 * l < farBase + (slot + 1) * 2 ^ 30) s

def cacheFlush (r : MbReq) (s : State) : State × Ans :=
  let n := param r 0 2
  if 3072 ≤ n then (s, badParam 0)
  else if !(farSlot s n).valid then (s, .of stNotFound)
  else (dropSlotLines s n, .of stOk)

def execCacheFlush (s : State) : Host.Outcome State Fault Refusal := .next (execNow s 0x23 cacheFlush)

/-- Whether entries that start at or before `a` carry it to the end of a range: `fuel` bounds the number of entries. -/
def covered : Nat → List (Nat × Nat) → Nat → Nat → Bool
  | 0, _, a, b => b ≤ a
  | fuel + 1, es, a, b =>
    if b ≤ a then true
    else match es.find? fun e => e.1 ≤ a && a < e.2 with
      | some e => covered fuel es e.2 b
      | none => false

/-- Whether a partition's sealed entries allow an operation on a whole window (R493). -/
def windowAllowed (s : State) (p key coord lo b : Nat) : Bool :=
  let es := (s.island.egress.filter fun e => e.sealed && egressOf p e && e.w1.toNat / 2 ^ 48 == key &&
    (bit e.w0.toNat 48 || bits e.w0.toNat 47 36 == coord) && bit e.w0.toNat b).map fun e =>
      (bits e.w0.toNat 35 0 * 4096, bits e.w1.toNat 35 0 * 4096 + 4096)
  covered es.length es lo (lo + 2 ^ 30)

/-- The bytes of a slot's target that begin its window. -/
def farSlotOf (r : MbReq) : FarSlot :=
  { valid := true, part := param r 2 1, cacheable := bit (param r 3 1) 0, writable := bit (param r 3 1) 1, kind := param r 4 1,
    coord := param r 5 1 + 16 * param r 6 1 + 256 * param r 7 1, key := param r 8 2, base := param r 10 4 }

def farMap (r : MbReq) (s : State) : State :=
  let n := param r 0 2
  let f := farSlotOf r
  if 3072 ≤ n then respond s r (badParam 0)
  else if 64 ≤ f.part then respond s r (badParam 2)
  else if 3 ≤ param r 3 1 then respond s r (badParam 3)
  else if 1 < f.kind then respond s r (badParam 4)
  else if 15 < param r 5 1 then respond s r (badParam 5)
  else if 15 < param r 6 1 then respond s r (badParam 6)
  else if 15 < param r 7 1 then respond s r (badParam 7)
  else if 2 ^ 18 ≤ f.base || (f.kind == 1 && farBase ≤ f.base * 2 ^ 30) then respond s r (badParam 10)
  else if !partLive s f.part then respond s r (.of stNotFound)
  else if !windowAllowed s f.part f.key f.coord (f.base * 2 ^ 30) 49 ||
      (f.writable && !windowAllowed s f.part f.key f.coord (f.base * 2 ^ 30) 50) then respond s r (.of stNotPermitted)
  else
    let q : FarPending := { slot := n, entry := f, since := s.time.now, window := some r.fn }
    waitAnswer { s with farPending := s.farPending ++ [q] } r n

def execFarMap (s : State) : Host.Outcome State Fault Refusal := .next (execReq s 0x24 farMap)

/-- The requests to a slot that have no answer, those of copies among them (R389, R452): a flagged store that is still held back is
not yet one (R397). -/
def slotRequests (s : State) (slot : Nat) : Nat :=
  let here (a : Nat) : Bool := farBase + slot * 2 ^ 30 ≤ a && a < farBase + (slot + 1) * 2 ^ 30
  let ports := (List.range 16).map fun i =>
    let x := site s i
    ((x.openReqs ++ x.outstanding ++ x.combining.flatMap (·.reqs)).filter fun r => r.outlet.isSome && here r.addr).length
  ports.foldl (· + ·) 0

/-- The slot is no longer mapped. -/
def clearSlot (s : State) (n : Nat) : State :=
  dropSlotLines { s with far := tdel s.far n, fabric := { s.fabric with slotRoutes := tdel s.fabric.slotRoutes n } } n

def farUnmap (r : MbReq) (s : State) : State :=
  let n := param r 0 2
  if 3072 ≤ n then respond s r (badParam 0)
  else if !(farSlot s n).valid then respond s r (.of stNotFound)
  else if slotRequests s n == 0 then respond (clearSlot s n) r (.of stOk)
  else
    let q : FarPending := { slot := n, entry := .reset, since := s.time.now, window := some r.fn }
    waitAnswer { s with farPending := s.farPending ++ [q] } r n

def execFarUnmap (s : State) : Host.Outcome State Fault Refusal := .next (execReq s 0x25 farUnmap)

/-- FAR_UNMAP_TIMEOUT (R243): an unmap that has waited 100 ms ends with the number of requests outstanding. -/
def farUnmapTimeout (s : State) : State :=
  if !weirServes s then s
  else
    let late (q : FarPending) : Bool := !q.entry.valid && q.since + 100000000 ≤ s.time.now && 0 < slotRequests s q.slot
    (s.farPending.filter late).foldl (fun s q => answerWaiting s 0x25 q.slot (.det stInFlight (slotRequests s q.slot)))
      { s with farPending := s.farPending.filter fun q => !late q }

def execFarUnmapTimeout (s : State) : Host.Outcome State Fault Refusal := .next (farUnmapTimeout s)

/-- One pending map, or unmap whose slot has no request left, takes effect (R243). -/
def applyFar (s : State) (q : FarPending) : State :=
  if q.entry.valid then
    let s := clearSlot s q.slot
    let s := { s with far := tput .reset s.far q.slot q.entry }
    let rt := if field s Reg.fabricStat 1 0 == 3 then slotRoute s q.entry else noRoute
    let s := { s with fabric := { s.fabric with slotRoutes := tput noRoute s.fabric.slotRoutes q.slot rt } }
    answerWaiting s 0x24 q.slot (.of stOk)
  else if slotRequests s q.slot == 0 then answerWaiting (clearSlot s q.slot) 0x25 q.slot (.of stOk)
  else { s with farPending := s.farPending ++ [q] }

/-- At the end of a tick firmware applies the pending changes of the far window. -/
def applyFars (s : State) : State := s.farPending.foldl applyFar { s with farPending := [] }

/-! ### Removing contexts (R158, R184, R491) -/

/-- The pending dispatches of a context complete with CANCELLED. -/
def cancelPending (s : State) (h : Nat) : State :=
  match ctx? s h with
  | none => s
  | some x =>
    let first := match x.run with
      | some r => if r.phases == 0 then [r.d] else []
      | none => []
    let s := modCtx s h fun y => { y with waiting := [], run := if first.isEmpty then y.run else none }
    (first ++ x.waiting).foldl (fun s d => complete s d.seq d.cq (Cpl.plain d.tag 0x07 d.qp)) s

/-- A context is to leave: its pending dispatches are cancelled, and a running one is aborted by `abort`. -/
def leaveContext (abort : State → Nat → State) (s : State) (h : Nat) : State :=
  modCtx (abort (cancelPending s h) h) h fun x => { x with removing := true }

/-- An unload asks for the abort, which waits for the tick's barriers (R165). -/
def unloadContext (s : State) (h : Nat) : State := leaveContext requestAbort s h

/-- A context that is to leave, and whose dispatch has ended, is gone; an unload that waited is answered. -/
def settleRemoval (s : State) (h : Nat) : State :=
  match ctx? s h with
  | none => s
  | some x =>
    let runs : Bool := match x.run with
      | some r => 0 < r.phases
      | none => false
    if !x.removing || runs then s else answerWaiting (removeContext s h) 0x31 h (.of stOk)

def settleRemovals (s : State) : State := (s.contexts.map (·.handle)).foldl settleRemoval s

/-! ### PART_DESTROY (R524 to R526) -/

def partDestroy (r : MbReq) (s : State) : State × Ans :=
  let p := param r 0 1
  if 64 ≤ p then (s, badParam 0)
  else if (part s p).mode == .absent then (s, .of stNotFound)
  else if (part s p).activity != 0 then (s, .of stInUse)
  else if 64 ≤ (liveActs s).length then (s, exhausted s r resActivity)
  else
    let q := addActivity s { blankActivity 0x11 false with site := p }
    let s := take (modPart q.1 p fun x => { x with activity := q.2 }) r resActivity
    (s, { status := stAccepted, detail := q.2, data := leBytes 2 q.2 })

def execPartDestroy (s : State) : Host.Outcome State Fault Refusal := .next (execNow s 0x11 partDestroy)

/-- At the end of the tick in which it commits, a destroy takes effect, and step 1 begins. -/
def beginDestroy (s : State) (p : Nat) : State :=
  let s := modPart s p fun x => { x with mode := .destroying, sealing := false, destroyFrom := some s.time.now }
  let s := answerWaiting s 0x16 p (.of stNotFound)
  (s.contexts.filter fun x => x.part == p).foldl (fun s x => leaveContext (fun s h => startAbort s h 0x02) s x.handle) s

def beginDestroys (s : State) : State :=
  ((s.parts.filter fun e => e.2.activity != 0 && e.2.mode != .destroying).map (·.1)).foldl beginDestroy s

def partSlots (s : State) (p : Nat) : List Nat := (s.far.filter fun e => e.2.valid && e.2.part == p).map (·.1)

/-- Whether a packet is a store of this module with one of a partition's keys. -/
def storeOf (s : State) (p : Nat) (k : Packet) : Bool :=
  k.type == 0x02 && k.src == ownCoord s && (part s p).keys.any fun j => j.key == k.key

/-- Whether a store of a partition that egress has accepted is still to be delivered (R399). -/
def storesLeft (s : State) (p : Nat) : Bool :=
  (s.sites.any fun e => e.2.egressQ.any fun r => storeOf s p r.p) ||
    s.links.any fun l => (l.2.waiting.any fun r => storeOf s p r.p) || l.2.unacked.any fun u => storeOf s p u.2

/-- Step 5: the key and egress entries of a partition are cleared. -/
def clearKeys (s : State) (p : Nat) : State :=
  let ks := (part s p).keys.map (·.key)
  let mine (w : Nat) : Bool := bit w 31 && ks.any (· == w % 65536)
  let s := (List.range 256).foldl (fun s n =>
    let r := Reg.basinKey (n / 16) (n % 16)
    if mine (reg s r) then putReg s r 0 else s) s
  let es := s.island.egress.map fun e => if egressOf p e then noEgress else e
  { s with island := { s.island with keys := s.island.keys.filter fun e => !mine e.2, egress := es } }

/-- Steps 5 and 6: the partition is absent, and what it held is free; its cores keep their step. -/
def tearDown (s : State) (p : Nat) : State :=
  let x := part s p
  let s := clearKeys s p
  let s := x.slices.foldl (fun s e => cacheForget s e.1 fun l => partOfAddr s (256 * l) == p) s
  let s := (x.units.map (·.1)).foldl (takeUnit p) s
  let s := putPart s p .reset
  (maskList x.cores.toNat 64).foldl (fun s c => modCore s c fun y => { y with idleSince := some s.time.now }) s

/-- Steps 2 to 7, once step 1 has ended: what is still held is waited for. -/
def stepDestroy (s : State) (p : Nat) : State :=
  let x := part s p
  if x.mode != .destroying || x.activity == 0 || s.contexts.any (fun c => c.part == p) then s
  else
    let s := match x.vf with
      | some v => ((s.qps.filter fun e => e.2.mode != 0 && e.2.owner == v).map (·.1)).foldl deleteQp s
      | none => s
    let s := modPart s p fun x => { x with vf := none, channels := 0 }
    let s := (partSlots s p).foldl (fun s n => if slotRequests s n == 0 then clearSlot s n else s) s
    if !(partSlots s p).isEmpty || storesLeft s p then s
    else endActivity (tearDown s p) x.activity stOk 0

def stepDestroys (s : State) : State := if weirServes s then (List.range 64).foldl stepDestroy s else s

/-- DESTROY_TIMEOUT (R525): a destroy whose slot is still held after 1 s ends with IN_FLIGHT; the partition stays destroying. -/
def destroyTimeout (s : State) : State :=
  if !weirServes s then s
  else
    let late (e : Nat × Partition) : Bool := e.2.mode == .destroying && e.2.activity != 0 && !(partSlots s e.1).isEmpty &&
      (match e.2.destroyFrom with
        | some t => t + 1000000000 ≤ s.time.now
        | none => false)
    (s.parts.filter late).foldl (fun s e =>
      let n := ((partSlots s e.1).map (slotRequests s)).foldl (· + ·) 0
      endActivity (modPart s e.1 fun x => { x with activity := 0 }) e.2.activity stInFlight n) s

def execDestroyTimeout (s : State) : Host.Outcome State Fault Refusal := .next (destroyTimeout s)

end Sys2Proof.Machine
end

