-- ==== Sys2Proof/Machine/MailCmds.lean ====
section
/-! DEFINITION. The mailbox commands of the module, its contexts, queue pairs, maintenance, steps, links, logs and flash
(R484 to R507). -/

namespace Sys2Proof.Machine

/-! ### INFO, EVT_RING_SET, TIME_SET, FABRIC_COORD (R484, R488, R497, R498) -/

/-- The bytes of a version word: major, minor, patch, 0. -/
def versionBytes (v : Nat) : List Byte := leBytes 1 (v / 2 ^ 24) ++ leBytes 1 (v / 2 ^ 16) ++ leBytes 1 (v / 2 ^ 8) ++ leBytes 1 0

def info (r : MbReq) (s : State) : State × Ans :=
  (s, .ok (versionBytes (reg s Reg.globalFw) ++ leBytes 8 Config.serial.toNat ++ leBytes 1 0xA1 ++
    leBytes 1 (weirNo s.weir.active) ++ leBytes 1 (if moduleReady s then 1 else 0) ++ leBytes 1 (fnPart s r.fn)))

def execInfo (s : State) : Host.Outcome State Fault Refusal := .next (execNow s 0x01 info)

/-- The sizes of an event ring: powers of two from 16 to 4,096. -/
def ringSizes : List Nat := [16, 32, 64, 128, 256, 512, 1024, 2048, 4096]

/-- A ring placed starts empty; ENTRIES = 0 removes it; `MB_EVT_LOST` keeps its value (R484). -/
def evtRingSet (r : MbReq) (s : State) : State × Ans :=
  let a := param r 0 8
  let n := param r 8 4
  if n != 0 && a % 4096 != 0 then (s, badParam 0)
  else if n != 0 && !ringSizes.any (· == n) then (s, badParam 8)
  else (modWin s r.fn fun w => { w with ringBase := if n == 0 then 0 else a, ringSize := n, ringTag := true, evtHead := 0, evtTail := 0 },
    .of stOk)

def execEvtRingSet (s : State) : Host.Outcome State Fault Refusal := .next (execNow s 0x02 evtRingSet)

/-- TIME_SET is checked when it commits, and acts at the next tick boundary (R64, R497). -/
def timeSet (r : MbReq) (s : State) : State :=
  if !s.time.running then respond s r (.of stNotReady)
  else if regBit s Reg.fabricStat 3 && hasCoord s && timeRoot s != ownCoord s then respond s r (.of stNotPermitted)
  else waitAnswer s r (param r 0 8)

def execTimeSet (s : State) : Host.Outcome State Fault Refusal := .next (execReq s 0x03 timeSet)

/-- A committed TIME_SET at the boundary: a load before ready, then a jump to a later time or a slew toward an earlier one. -/
def applyTimeSet (s : State) (r : MbReq) : State :=
  let t := param r 0 8
  if !moduleReady s then respond (applySetTime (setAtBoundary s t)) r (.ok [0])
  else if s.time.now ≤ t then respond (applySetTime (setAtBoundary s t)) r (.ok [1])
  else respond (beginSlew s ((t : Int) - s.time.now)) r (.ok [2])

def applyTimeSets (s : State) : State :=
  if !weirServes s then s else (s.mbReqs.filter fun q => q.executed && q.opcode == 0x03).foldl applyTimeSet s

/-- The first field of FABRIC_COORD that is out of range. -/
def badCoord? (r : MbReq) : Option Nat :=
  (List.range 7).find? fun i =>
    let v := param r i 1
    if i < 3 then (let n := param r (i + 3) 1; 1 ≤ n && n ≤ 16 && n ≤ v)
    else if i < 6 then v == 0 || 16 < v
    else 2 < v

/-- FABRIC_COORD (R375, R498, R617): the coordinate is in force, discovery starts if it waited, and STORE writes the configuration
record, STORE = 2 with the hold mark; the mark of an earlier start is cleared. -/
def fabricCoord (r : MbReq) (s : State) : State × Ans :=
  match badCoord? r with
  | some i => (s, badParam i)
  | none =>
    if field s Reg.fabricStat 1 0 != 0 then (s, .of stInUse)
    else
      let v (i : Nat) : Nat := param r i 1
      let w := v 0 + 16 * v 1 + 256 * v 2 + 2 ^ 12 * (v 3 - 1) + 2 ^ 16 * (v 4 - 1) + 2 ^ 20 * (v 5 - 1)
      let s := putReg s Reg.fabricCoord (2 ^ 31 + w)
      let c := s.record
      let s := { s with fabric := { s.fabric with hold := false },
                        record := { c with coord := if v 6 == 0 then c.coord else some w, hold := v 6 == 2 } }
      (discoveryStart s, .of stOk)

def execFabricCoord (s : State) : Host.Outcome State Fault Refusal := .next (execNow s 0x04 fabricCoord)

/-! ### Contexts (R491) -/

/-- The context that a request names, or the status it fails with. -/
def namedContext (s : State) (r : MbReq) : Context ⊕ Ans :=
  match ctx? s (param r 0 2) with
  | none => .inr (.of stNotFound)
  | some x =>
    if x.removing then .inr (.of stNotFound)
    else if r.fn != 0 && partOfVf s r.fn != x.part then .inr (.of stNotPermitted) else .inl x

def planUnload (r : MbReq) (s : State) : State :=
  match namedContext s r with
  | .inr a => respond s r a
  | .inl x => settleRemoval (unloadContext (waitAnswer s r x.handle) x.handle) x.handle

def execPlanUnload (s : State) : Host.Outcome State Fault Refusal := .next (execReq s 0x31 planUnload)

/-- CTX_ABORT (R184, R185): the engine applies the abort at the end of the tick; a context between dispatches is not running. -/
def ctxAbort (r : MbReq) (s : State) : State :=
  match namedContext s r with
  | .inr a => respond s r a
  | .inl x =>
    if !dispatchRuns x then respond s r (.of stNotRunning)
    else waitAnswer (requestAbort s x.handle) r x.handle

def execCtxAbort (s : State) : Host.Outcome State Fault Refusal := .next (execReq s 0x32 ctxAbort)

/-- The aborts of a tick, of every request, once its barriers are resolved (R165, R185). -/
def applyAborts (s : State) : State :=
  (s.contexts.filter fun x => (x.run.map (·.abortReq)).getD false).foldl (fun s x =>
    let s := modRun s x.handle fun q => { q with abortReq := false }
    if dispatchRuns x then startAbort s x.handle 0x02
    else if (x.run.bind (·.aborting)).isSome then s
    else answerWaiting s 0x32 x.handle (.of stNotRunning)) s

def ctxQuery (r : MbReq) (s : State) : State × Ans :=
  match namedContext s r with
  | .inr a => (s, a)
  | .inl x =>
    let started : Bool := match x.run with
      | some q => 0 < q.phases
      | none => false
    let n := x.waiting.length + if x.run.isSome && !started then 1 else 0
    (s, .ok (leBytes 1 (if started then 1 else 0) ++ leBytes 2 n ++ leBytes 1 x.part ++
      leBytes 8 (maskOf (x.cores.map (·.core))) ++ leBytes 8 x.planId))

def execCtxQuery (s : State) : Host.Outcome State Fault Refusal := .next (execNow s 0x33 ctxQuery)

/-! ### Queue pairs (R435, R436, R458, R494) -/

/-- The VF in whose range a queue pair number lies: 0, PF0, for none. -/
def rangeOwner (s : State) (q : Nat) : Nat :=
  ((s.vfRanges.find? fun e => e.2.base ≤ q && q < e.2.base + e.2.count).map (·.1)).getD 0

def qpCreate (r : MbReq) (s : State) : State × Ans :=
  let q := param r 0 4
  let ch := param r 22 1
  let v := param r 23 2
  if 262144 ≤ q then (s, badParam 0)
  else if param r 4 8 % 4096 != 0 then (s, badParam 4)
  else if param r 12 8 % 4096 != 0 then (s, badParam 12)
  else if 12 < param r 20 1 then (s, badParam 20)
  else if 12 < param r 21 1 then (s, badParam 21)
  else if 31 < ch then (s, badParam 22)
  else if v == 0 || (if r.fn == 0 then 2047 else 63) < v then (s, badParam 23)
  else if r.fn != 0 && (part s (partOfVf s r.fn)).mode == .destroying then (s, .of stNotFound)
  else if rangeOwner s q != r.fn then (s, .of stNotPermitted)
  else if r.fn != 0 && !bit (part s (partOfVf s r.fn)).channels.toNat ch then (s, .of stNotPermitted)
  else if (qp s q).mode != 0 then (s, .of stInUse)
  else
    (putQp s q { QpState.reset with
      mode := 1, owner := r.fn, sqBase := param r 4 8, cqBase := param r 12 8, sqLog := param r 20 1, cqLog := param r 21 1,
      channel := ch, vector := v, coalCount := param r 25 1, coalTime := param r 26 1 }, .of stOk)

def execQpCreate (s : State) : Host.Outcome State Fault Refusal := .next (execNow s 0x38 qpCreate)

/-- QP_DELETE (R458, R494): it answers once no running dispatch of the queue pair is left. -/
def qpDelete (r : MbReq) (s : State) : State :=
  let q := param r 0 4
  let x := qp s q
  if 262144 ≤ q then respond s r (badParam 0)
  else if x.mode == 0 then respond s r (.of stNotFound)
  else if x.owner != r.fn then respond s r (.of stNotPermitted)
  else if x.mode == 3 then respond s r (.of stInUse)
  else
    let s := modQp (stopQp s q) q fun y => { y with mode := 3 }
    if qpRuns s q then waitAnswer s r q else respond (forgetQp s q) r (.of stOk)

def execQpDelete (s : State) : Host.Outcome State Fault Refusal := .next (execReq s 0x39 qpDelete)

/-- VF_QP_RANGE (R436, R494); a range that overlaps another VF's is in use. DEDUCED, log 14. -/
def vfQpRange (r : MbReq) (s : State) : State × Ans :=
  let vf := param r 0 1
  let b := param r 1 4
  let n := param r 5 2
  let old := tget .reset s.vfRanges vf
  let inside (q base count : Nat) : Bool := base ≤ q && q < base + count
  if vf == 0 then (s, badParam 0)
  else if b % 16 != 0 || 262144 ≤ b then (s, badParam 1)
  else if n < 16 || 1024 < n || 262144 < b + n then (s, badParam 5)
  else if s.qps.any fun e => e.2.mode != 0 && (inside e.1 b n || inside e.1 old.base old.count) then (s, .of stInUse)
  else if s.vfRanges.any fun e => e.1 != vf && b < e.2.base + e.2.count && e.2.base < b + n then (s, .of stInUse)
  else ({ s with vfRanges := tput .reset s.vfRanges vf { base := b, count := n } }, .of stOk)

def execVfQpRange (s : State) : Host.Outcome State Fault Refusal := .next (execNow s 0x3A vfQpRange)

/-! ### Maintenance activities (R499 to R502) -/

/-- Request a maintenance activity: ACCEPTED or QUEUED, with its number (R499). -/
def maintain (r : MbReq) (s : State) (a : Activity) : State × Ans :=
  if 64 ≤ (liveActs s).length then (s, exhausted s r resActivity)
  else
    let q := requestAct (take s r resActivity) a
    (q.1, { status := q.2.1, detail := q.2.2, data := leBytes 2 q.2.2 })

/-- A near-tier range: MALFORMED unless it begins at a multiple of 4,096, BOUNDS where it leaves the tier. -/
def badNear? (a n off : Nat) : Option Ans :=
  if a % 4096 != 0 then some (badParam off) else if farBase < a + n then some (.of stBounds) else none

def stackSelftest (r : MbReq) (s : State) : State × Ans :=
  let i := param r 0 1
  if 15 < i then (s, badParam 0)
  else match badNear? (param r 1 8) 4096 1 with
    | some a => (s, a)
    | none =>
      if s.contexts.any fun x => x.cores.any fun k => k.core / 4 == i then (s, .of stInUse)
      else maintain r s { blankActivity opSt true with site := i, addr := param r 1 8 }

def execStackSelftest (s : State) : Host.Outcome State Fault Refusal := .next (execNow s 0x40 stackSelftest)

def calChannel (r : MbReq) (s : State) : State × Ans :=
  let g := param r 0 1
  let l := param r 1 1
  if 127 < g then (s, badParam 0)
  else if 31 < l then (s, badParam 1)
  else maintain r s { blankActivity opCc true with guide := g, lambda := l }

def execCalChannel (s : State) : Host.Outcome State Fault Refusal := .next (execNow s 0x41 calChannel)

def calAll (r : MbReq) (s : State) : State × Ans := maintain r s (blankActivity opCa true)

def execCalAll (s : State) : Host.Outcome State Fault Refusal := .next (execNow s 0x42 calAll)

/-- CAL_SAVE and CAL_RESTORE name the place of an image (R501). -/
def calAt (op : Nat) (r : MbReq) (s : State) : State × Ans :=
  match badNear? (param r 0 8) imageSize 0 with
  | some a => (s, a)
  | none => maintain r s { blankActivity op true with addr := param r 0 8 }

def calSave (r : MbReq) (s : State) : State × Ans := calAt opCs r s
def calRestore (r : MbReq) (s : State) : State × Ans := calAt opCr r s

def execCalSave (s : State) : Host.Outcome State Fault Refusal := .next (execNow s 0x43 calSave)
def execCalRestore (s : State) : Host.Outcome State Fault Refusal := .next (execNow s 0x44 calRestore)

def hbmRepair (r : MbReq) (s : State) : State × Ans :=
  if farBase ≤ param r 0 8 then (s, .of stBounds) else maintain r s { blankActivity opHr true with addr := param r 0 8 }

def execHbmRepair (s : State) : Host.Outcome State Fault Refusal := .next (execNow s 0x45 hbmRepair)

def refRecover (r : MbReq) (s : State) : State × Ans := maintain r s (blankActivity opRr true)

def execRefRecover (s : State) : Host.Outcome State Fault Refusal := .next (execNow s 0x46 refRecover)

def swapDrill (r : MbReq) (s : State) : State × Ans := maintain r s (blankActivity opSd true)

def execSwapDrill (s : State) : Host.Outcome State Fault Refusal := .next (execNow s 0x47 swapDrill)

def actState : ActMode → Nat
  | .queued => 0
  | .running => 1
  | .done => 2

def maintStatus (r : MbReq) (s : State) : State × Ans :=
  match s.acts.find? fun a => a.num == param r 0 2 with
  | none => (s, .of stNotFound)
  | some a => (s, .ok (leBytes 1 (actState a.mode) ++ leBytes 1 a.status ++ leBytes 4 a.detail ++ leBytes 2 a.opcode))

def execMaintStatus (s : State) : Host.Outcome State Fault Refusal := .next (execNow s 0x48 maintStatus)

/-- MAINT_CANCEL (R499): a queued activity ends with RETRY. -/
def maintCancel (r : MbReq) (s : State) : State × Ans :=
  match s.acts.find? fun a => a.num == param r 0 2 with
  | none => (s, .of stNotFound)
  | some a => match a.mode with
    | .queued => (startQueued (endActivity s a.num stRetry 0), .of stOk)
    | .running => (s, .of stInUse)
    | .done => (s, .of stNotFound)

def execMaintCancel (s : State) : Host.Outcome State Fault Refusal := .next (execNow s 0x49 maintCancel)

/-! ### Steps (R495, R496, R579) -/

/-- The DETAIL of CAP with which STEP_CORE is refused: a pinned core, a band, then the power cap (R47, R115, R495, R579, R582). 0:
admitted. -/
def stepRefused (s : State) (cores : List Nat) (k : Nat) : Nat :=
  if cores.any (fun c => (pinOf s c).isSome) then 3
  else if cores.any (fun c => bandStep (tarnBand s (c / 4)) < k) then 2
  else if s.power.throttleFrom.isSome then 1
  else if cores.any (fun c => heading (core s c) < k) && !capAdmits s (cores.map fun c => (c, k)) false then 1 else 0

def stepCore (r : MbReq) (s : State) : State :=
  let cores := maskList (param r 0 8) 64
  let k := param r 8 1
  if 7 < k then respond s r (badParam 8)
  else
    let d := stepRefused s cores k
    if d != 0 then respond s r (.det stCap d)
    else answerRamps (waitAnswer (cores.foldl (fun s c => commandCore s c k) s) r 0)

def execStepCore (s : State) : Host.Outcome State Fault Refusal := .next (execReq s 0x50 stepCore)

def stepModule (r : MbReq) (s : State) : State :=
  let k := param r 0 1
  if 7 < k then respond s r (badParam 0)
  else if !stepFree s then respond s r (.of stBusy)
  else
    let c := commitCount s (256 * (r.tick + 1))
    startChange (waitAnswer s r c) k c (some r.fn)

def execStepModule (s : State) : Host.Outcome State Fault Refusal := .next (execReq s 0x51 stepModule)

/-! ### Links (R382, R413) -/

/-- Start a background activity on a link: its number goes into the answer. -/
def linkActivity (r : MbReq) (s : State) (op o : Nat) : State × Nat :=
  addActivity (take s r resActivity) { blankActivity op false with site := o }

def accepted (n : Nat) : Ans := { status := stAccepted, detail := n, data := leBytes 2 n }

/-- LINK_SLEEP (R382): a link in service is flooded as down first and sleeps after LINK_SLEEP_ENTER; any other sleeps at once. -/
def linkSleep (r : MbReq) (s : State) : State :=
  let o := param r 0 1
  if 15 < o then respond s r (badParam 0)
  else if (link s o).activity != 0 then respond s r (.of stBusy)
  else if 64 ≤ (liveActs s).length then respond s r (exhausted s r resActivity)
  else
    let q := linkActivity r s 0x58 o
    let s := respond q.1 r (accepted q.2)
    if linkUp s o then
      floodOwn (modLink s o fun l => { l with sleepFrom := some s.time.now, activity := q.2 })
    else
      let s := if linkStateOf s o == 5 then s else opticsSleep (linkGoesDown s o 5) o
      endActivity s q.2 stOk 0

def execLinkSleep (s : State) : Host.Outcome State Fault Refusal := .next (execReq s 0x58 linkSleep)

/-- LINK_WAKE (R382): a sleeping link's directions wake, and it trains again; the activity ends once it has, or at once where the link
was awake. -/
def linkWake (r : MbReq) (s : State) : State × Ans :=
  let o := param r 0 1
  if 15 < o then (s, badParam 0)
  else if (link s o).activity != 0 then (s, .of stBusy)
  else if 64 ≤ (liveActs s).length then (s, exhausted s r resActivity)
  else
    let q := linkActivity r s 0x59 o
    let s := q.1
    if linkStateOf s o == 5 then
      (modLink (setLinkState (opticsWake s o) o 1) o fun l => { l with activity := q.2 }, accepted q.2)
    else (endActivity s q.2 stOk 0, accepted q.2)

def execLinkWake (s : State) : Host.Outcome State Fault Refusal := .next (execNow s 0x59 linkWake)

/-- LINK_RELEASE (R413, R498): a quarantine ends, and the link then trains. -/
def linkRelease (r : MbReq) (s : State) : State × Ans :=
  let o := param r 0 1
  if 15 < o then (s, badParam 0)
  else if !regBit s (Reg.linkStat o) 3 then (s, .of stOk)
  else
    let s := modLink (putBit s (Reg.linkStat o) 3 false) o fun l => { l with violations := [] }
    (setLinkState s o 1, .of stOk)

def execLinkRelease (s : State) : Host.Outcome State Fault Refusal := .next (execNow s 0x5A linkRelease)

/-! ### Logs (R507, R545) -/

/-- The entries that a read from absolute number FIRST returns, at most `max`. -/
def logFrom (s : State) (first max : Nat) : List LogEntry :=
  let es := s.faults.log
  let ahead := (first + 2 ^ 32 - reg s Reg.faultLogNext) % 2 ^ 32
  if ahead < 2 ^ 31 then []
  else match es.findIdx? fun e => e.number == first with
    | some i => (es.drop i).take max
    | none => es.take max

/-- The number to ask for next. -/
def logNextAfter (s : State) (es : List LogEntry) : Nat :=
  match es.getLast? with
  | some e => (e.number + 1) % 2 ^ 32
  | none => reg s Reg.faultLogNext

/-- Entries that a LOG_READ returned are no longer lost when they are replaced (R543). -/
def markRead (s : State) (es : List LogEntry) : State :=
  let mark (e : LogEntry) : LogEntry := { e with read := e.read || es.any fun f => f.number == e.number }
  { s with faults := { s.faults with log := s.faults.log.map mark } }

def logRead (r : MbReq) (s : State) : State × Ans :=
  let m := param r 4 1
  if m == 0 || 15 < m then (s, badParam 4)
  else
    let es := logFrom s (param r 0 4) m
    (markRead s es, .ok (leBytes 1 es.length ++ leBytes 4 (reg s Reg.faultLogOldest) ++ leBytes 4 (logNextAfter s es) ++ es.flatMap logBytes))

def execLogRead (s : State) : Host.Outcome State Fault Refusal := .next (execNow s 0x60 logRead)

/-- The 160 bytes of LOG_COUNTERS (R545). -/
def counterBytes (s : State) : List Byte :=
  ((List.range 16).flatMap fun i => leBytes 8 (reg s (Reg.faultClass i))) ++ leBytes 8 (reg s Reg.faultLost) ++
    leBytes 8 (reg s Reg.faultLateEvents) ++ leBytes 8 (reg s Reg.faultMerged) ++ leBytes 4 (reg s Reg.faultLogNext) ++
    leBytes 4 (reg s Reg.faultLogOldest)

def logCounters (_r : MbReq) (s : State) : State × Ans := (s, .ok (counterBytes s))

def execLogCounters (s : State) : Host.Outcome State Fault Refusal := .next (execNow s 0x61 logCounters)

/-! ### Flash (R503 to R505) -/

/-- Why a range of a Weir flash may not be erased or programmed. -/
def badFlash? (s : State) (w o n unit offAt lenAt : Nat) : Option Ans :=
  if 1 < w then some (badParam 0)
  else if o % unit != 0 || 0x201_0000 ≤ o then some (badParam offAt)
  else if n == 0 || n % unit != 0 then some (badParam lenAt)
  else if 0x200_0000 < o + n then some (.of stNotPermitted)
  else if o / 0x100_0000 != (o + n - 1) / 0x100_0000 then some (badParam lenAt)
  else if weirNo s.weir.active == w && s.weir.runSlot == o / 0x100_0000 then some (.of stInUse)
  else if (liveActs s).any (fun a => (a.opcode == 0x70 || a.opcode == 0x71) && a.site == w && a.addr / 0x100_0000 == o / 0x100_0000) then
    some (.of stBusy)
  else none

/-- Start an erase or a program. -/
def startFlash (r : MbReq) (s : State) (a : Activity) : State × Ans :=
  if 64 ≤ (liveActs s).length then (s, exhausted s r resActivity)
  else
    let q := addActivity (take s r resActivity) a
    (q.1, accepted q.2)

def flashEraseCmd (r : MbReq) (s : State) : State × Ans :=
  match badFlash? s (param r 0 1) (param r 1 4) (param r 5 4) 65536 1 5 with
  | some a => (s, a)
  | none => startFlash r s { blankActivity 0x70 false with site := param r 0 1, addr := param r 1 4, len := param r 5 4 }

def execFlashErase (s : State) : Host.Outcome State Fault Refusal := .next (execNow s 0x70 flashEraseCmd)

def flashProgramCmd (r : MbReq) (s : State) : State × Ans :=
  match badFlash? s (param r 0 1) (param r 1 4) (param r 13 4) 256 1 13 with
  | some a => (s, a)
  | none =>
    if farBase < param r 5 8 + param r 13 4 then (s, .of stBounds)
    else startFlash r s { blankActivity 0x71 false with site := param r 0 1, addr := param r 1 4, src := param r 5 8, len := param r 13 4 }

def execFlashProgram (s : State) : Host.Outcome State Fault Refusal := .next (execNow s 0x71 flashProgramCmd)

/-- The bytes of an image slot. -/
def slotBytes (s : State) (w k : Nat) : List Byte := (List.range 0x100_0000).map fun i => flashByte s w (k * 0x100_0000 + i)

/-- FW_SELECT (R505): a slot whose image verifies boots from the Weir's next start. -/
def fwSelect (r : MbReq) (s : State) : State × Ans :=
  let w := param r 0 1
  let k := param r 1 1
  if 1 < w then (s, badParam 0)
  else if 1 < k then (s, badParam 1)
  else
    let c := Config.imageCheck (slotBytes s w k)
    if c == 1 || c == 2 || c == 3 || c == 5 then (s, .det stVerifyFailed c)
    else
      let x := s.weir
      let s := { s with weir := if w == 0 then { x with slotA := k } else { x with slotB := k } }
      (s, .ok (versionBytes (Config.imageVersion (slotBytes s w k)).toNat))

def execFwSelect (s : State) : Host.Outcome State Fault Refusal := .next (execNow s 0x72 fwSelect)

end Sys2Proof.Machine
end

