-- ==== Sys2Proof/Machine/Weirs.lean ====
section
/-! DEFINITION. The switchover controller: beats, declarations, the gap and its end, checkpoints and the standby's check
(R550 to R559, R481, R482, R502). -/

namespace Sys2Proof.Machine

/-- Mark a Weir failed (R557). -/
def markWeir (s : State) (w : Weir) : State :=
  showWeir { s with weir := match w with
    | .a => { s.weir with failedA := true }
    | .b => { s.weir with failedB := true } }

/-- Management is lost (R558): GAP stays 1, and both Weirs are marked failed (R600). -/
def loseMgmt (s : State) : State :=
  showWeir { s with weir := { s.weir with gap := none, mgmtLost := true, failedA := true, failedB := true } }

/-- The controller reports a declaration or a Weir that failed to start. -/
def raiseWeir (s : State) (code : Nat) (w : Weir) : State := raise s 3 code (unitNo 0x10 (weirNo w)) 0xFF 0 0 srcIsland

/-- The active Weir is declared failed (R552, R553, R557): the standby starts, or with no standby the same Weir restarts where
beats alone were missed; otherwise management is lost. -/
def declareFailed (s : State) (beatsOnly : Bool) : State :=
  let w := s.weir.active
  let s := raiseWeir s (if beatsOnly then 1 else 2) w
  let g : Gap := { starting := if hasStandby s then otherWeir w else w, former := w, beatsOnly := beatsOnly, drill := false,
                   retry := !hasStandby s, since := s.time.now, from_ := s.time.now }
  if hasStandby s || beatsOnly then declare s g else loseMgmt (beginGap s g)

/-! ### The end of a gap (R481, R482, R502, R555, R558) -/

/-- End every running activity that a test picks. -/
def endActs (s : State) (p : Activity → Bool) (status detail : Nat) : State :=
  (s.acts.filter fun a => a.mode == .running && p a).foldl (fun s a => endActivity s a.num status detail) s

/-- A Weir resumes or takes up firmware's work: what ended in the gap is answered, flash work ends with RETRY, and what waited
goes on. -/
def resumeFirmware (s : State) : State :=
  let s := putBit { s with weir := { s.weir with gap := none, missMsg := 0, missWire := 0, lastMsg := s.time.now, lastWire := s.time.now } }
    Reg.faultWeir 3 false
  let s := endActs (answerEnded (resumeFabric (writeOwed s))) (fun a => a.opcode == 0x70 || a.opcode == 0x71) stRetry 0
  switchWaiting (clearStale s)

/-- Requests that were not committed before the switchover take no effect (R481). -/
def retryPending (s : State) : State := (s.mbReqs.filter fun q => !q.executed).foldl (fun s q => respondUncommitted s q (.of stRetry)) s

/-- A starting Weir has not cleared GAP (R558): it is held in reset and marked; the former Weir resumes after a drill, or is
restarted once where beats alone were missed; otherwise management is lost. -/
def gapFailed (s : State) (g : Gap) : State :=
  let s := if weirFailed s g.starting || g.retry then s else raiseWeir s 4 g.starting
  let s := offDomain (markWeir s g.starting) (domWeir g.starting)
  if g.drill then
    startQueued (endActs (resumeFirmware s) (fun a => a.opcode == opSd) stVerifyFailed 4)
  else if g.beatsOnly && !g.retry then
    rampDomain { s with weir := { s.weir with gap := some { g with starting := g.former, retry := true, from_ := s.time.now } } } (domWeir g.former)
      (railMv (domWeir g.former))
  else loseMgmt s

/-- The new Weir has cleared GAP (R555): the switchover counts, is flagged and logged, and SWITCHOVER goes to every ring. -/
def takeOver (s : State) (g : Gap) : State :=
  let w := g.starting
  let n := minNat (s.weir.switchovers + 1) 65535
  let x := s.weir
  let s := { s with weir := { x with active := w, running := true, switchovers := n,
                                     runSlot := if w == .a then x.slotA else x.slotB } }
  let s := if g.drill then offDomain s (domWeir g.former) else if w == g.former then s else markWeir s g.former
  let s := raiseFlag (putField (showWeir s) Reg.faultWeir 23 8 n) Reg.faultFlags 3
  let gap := s.time.now - g.since
  let s := retryPending (resumeFirmware s)
  let s := fwLogSev s 3 3 0 (unitNo 0x10 (weirNo w)) 0xFF 0 0
  let s := (s.windows.filter fun e => e.2.ringSize != 0).foldl (fun s e => event s e.1 4 0xFF [weirNo w, gap]) s
  startQueued (if g.drill then endActs s (fun a => a.opcode == opSd) stOk 0 else s)

/-- SWITCHOVER_COMPLETE (R555). -/
def switchoverComplete (s : State) : State :=
  match s.weir.gap with
  | none => s
  | some g => if g.drill && weirFailed s g.starting then s else takeOver s g

def execSwitchoverComplete (s : State) : Host.Outcome State Fault Refusal := .next (switchoverComplete s)

/-- GAP_BOUND_EXPIRY (R555, R558): a gap, or a restart within it, is at most 12.5 ms. -/
def gapBoundExpiry (s : State) : State :=
  match s.weir.gap with
  | none => s
  | some g => if s.time.running && s.time.now < g.from_ + 12500000 then s else gapFailed s g

def execGapBoundExpiry (s : State) : Host.Outcome State Fault Refusal := .next (gapBoundExpiry s)

/-! ### Beats and explicit faults (R551 to R553) -/

/-- The beats that a path has missed in a row. -/
def missed (s : State) : BeatPath → Nat
  | .message => s.weir.missMsg
  | .wire => s.weir.missWire

def setMissed (s : State) (p : BeatPath) (n : Nat) : State :=
  { s with weir := match p with
    | .message => { s.weir with missMsg := n }
    | .wire => { s.weir with missWire := n } }

/-- The next beat of a path is awaited from a time on. -/
def awaitBeat (s : State) (p : BeatPath) (t : Nat) : State :=
  { s with weir := match p with
    | .message => { s.weir with lastMsg := t }
    | .wire => { s.weir with lastWire := t } }

def awaitedFrom (s : State) : BeatPath → Nat
  | .message => s.weir.lastMsg
  | .wire => s.weir.lastWire

/-- Whether a beat is missed: none within 1.1 ms (R551). Before Basin time runs, the controller's count on SOSC is not held. DESIGN
CHOICE, log 23. -/
def beatLate (s : State) (p : BeatPath) : Bool := !s.time.running || awaitedFrom s p + 1100000 ≤ s.time.now

def otherPath : BeatPath → BeatPath
  | .message => .wire
  | .wire => .message

/-- BEAT (R551): the path's misses begin again from none. A starting Weir's beats are not watched (R558). -/
def beat (p : BeatPath) (count : Nat) (s : State) : State :=
  if !weirServes s then s
  else
    let s := awaitBeat (setMissed s p 0) p s.time.now
    let s := match p with
      | .message => { s with weir := { s.weir with beatMsg := count } }
      | .wire => s
    if missed s (otherPath p) < 3 then putBit s Reg.faultWeir 3 false else s

def execBeat (path : BeatPath) (count : Nat) (s : State) : Host.Outcome State Fault Refusal := .next (beat path count s)

/-- BEAT_MISSED (R552): three beats in a row missed on both paths declare the active Weir failed. Three missed on one path while
the other misses none are logged as WEIR 7 (DEDUCED, log 23). -/
def beatMissed (p : BeatPath) (s : State) : State :=
  if !weirServes s || !beatLate s p then s
  else
    let s := awaitBeat (setMissed s p (missed s p + 1)) p (minNat s.time.now (awaitedFrom s p + 1100000))
    if 3 ≤ missed s p && 3 ≤ missed s (otherPath p) then declareFailed s true
    else if 3 ≤ missed s p && missed s (otherPath p) == 0 && !regBit s Reg.faultWeir 3 then
      raiseWeir (putBit s Reg.faultWeir 3 true) 7 s.weir.active
    else s

def execBeatMissed (path : BeatPath) (s : State) : Host.Outcome State Fault Refusal := .next (beatMissed path s)

/-- EXPLICIT_FAULT (R552, R553, R558): the active Weir is declared failed, or a starting one has failed to clear GAP. Every kind
acts the same, on either path. -/
def explicitFault (_p : BeatPath) (_k : WeirFault) (s : State) : State :=
  if s.weir.mgmtLost || !s.weir.running then s
  else match s.weir.gap with
    | some g => gapFailed s g
    | none => declareFailed s false

def execExplicitFault (path : BeatPath) (kind : WeirFault) (s : State) : Host.Outcome State Fault Refusal :=
  .next (explicitFault path kind s)

/-! ### Checkpoints and the standby's image (R554, R559) -/

/-- CHECKPOINT_WRITE (R554): a full checkpoint goes into the bank that was not written last. -/
def checkpointWrite (s : State) : State :=
  if !weirServes s then s
  else { s with weir := { s.weir with ckSeq := s.weir.ckSeq + 1, ckBank := 1 - s.weir.ckBank, journal := 0 } }

def execCheckpointWrite (s : State) : Host.Outcome State Fault Refusal := .next (checkpointWrite s)

/-- STANDBY_IMAGE_CHECK (R559, R616), first when the module is ready and then once every 24 h: a damaged image of the standby is logged as WEIR 6 and shown; a good check clears the mark
(DESIGN CHOICE, log 23). -/
def standbyImageCheck (good : Bool) (s : State) : State :=
  if !weirServes s || !hasStandby s || !regBit s Reg.globalStat 5 || s.weir.standbyChecked.any (s.time.now < · + 86400000000000) then s
  else
    let s := putBit { s with weir := { s.weir with standbyChecked := some s.time.now } } Reg.faultWeir 4 (!good)
    if good then s else fwLog s 3 6 (unitNo 0x10 (weirNo (otherWeir s.weir.active))) 0xFF 0 0

def execStandbyImageCheck (good : Bool) (s : State) : Host.Outcome State Fault Refusal := .next (standbyImageCheck good s)

end Sys2Proof.Machine
end

