-- ==== Sys2Proof/Machine/Starts.lean ====
section
/-! DEFINITION. Everything off and every start: what survives, how a start begins, its stages, and the site states at their ends
(R29, R399, R571, R574, R596 to R615). -/

namespace Sys2Proof.Machine

/-! ### What survives (R29, R544, R596, R601) -/

/-- Registers whose values lie outside the switched domains: the fault counters and log numbers of the island (R544, R566). -/
def keptReg (off : Nat) : Bool :=
  match Reg.place off with
  | (.fault, x) => x == 0x8 || x == 0xC || x == 0x10 || x == 0x20 || (0x100 ≤ x && x < 0x180)
  | _ => false

/-- The fuses of a lane group: its assembly-bad lanes (R307); those of a via group are the via replaced at assembly (R327). -/
def keepGroups (t : Table Group) : Table Group :=
  t.foldl (fun u e => tput Group.reset u e.1 { Group.reset with assemblyBad := e.2.assemblyBad }) []

def keepSite (x : SiteState) : SiteState :=
  let a : Abango := { Abango.reset with groupsDn := keepGroups x.abango.groupsDn, groupsUp := keepGroups x.abango.groupsUp,
                                        viaFuseDn := x.abango.viaFuseDn, viaFuseUp := x.abango.viaFuseUp,
                                        viaSpareDn := x.abango.viaFuseDn, viaSpareUp := x.abango.viaFuseUp }
  { SiteState.reset with abango := a }

/-- What the checkpoint keeps of a partition: the keys of an open one were only reserved, and are no sealed entries (R516, R601;
DEDUCED, log 25). -/
def keepPart (x : Partition) : Partition :=
  { x with keys := if x.mode == .opened then [] else x.keys, unwritten := 0, sealing := false, activity := 0, destroyFrom := none }

def keepWeir (w : WeirState) : WeirState :=
  { WeirState.reset with active := w.active, failedA := w.failedA, failedB := w.failedB, slotA := w.slotA, slotB := w.slotB,
                         switchovers := w.switchovers, ckSeq := w.ckSeq, ckBank := w.ckBank, journal := w.journal }

/-- Show the feeds in `POWER_STAT` (R642). -/
def showFeeds (s : State) : State := putBit (putBit s Reg.powerStat 0 s.power.goodA) Reg.powerStat 1 s.power.goodB

/-- Every switched domain is off: what is left is the island, the non-volatile storage, the pins, and what lies outside the module
(R29, R571, R593, R598, R601). Reports on their way are lost, but for the island's own (R595; DEDUCED, log 25). `STAGE` reads 0
until a start begins. -/
def allOff (s : State) : State :=
  let t : State :=
    { State.reset with
      pending := s.pending, out := s.out, hostMem := s.hostMem,
      regs := s.regs.filter fun e => keptReg e.1,
      time := { TimeState.reset with now := s.time.now, shift := s.time.shift, backup := s.time.backup,
                                     backupValid := s.time.backupValid },
      faults := { FaultState.reset with log := s.faults.log,
                                        inTransit := s.faults.inTransit.filter fun r => r.src == srcIsland },
      parts := s.parts.foldl (fun u e => tput Partition.reset u e.1 (keepPart e.2)) [],
      far := s.far, vfRanges := s.vfRanges,
      sites := s.sites.foldl (fun u e => tput SiteState.reset u e.1 (keepSite e.2)) [],
      springs := s.springs.foldl (fun u e =>
        tput SpringState.reset u e.1 { SpringState.reset with onNs := springOnNs s e.2 }) [],
      weir := keepWeir s.weir, record := s.record,
      island := { s.island with egress := s.island.egress.map fun e => if e.sealed then e else noEgress },
      power := { PowerState.reset with goodA := s.power.goodA, goodB := s.power.goodB },
      start := { StartState.reset with held := s.start.held },
      flash := s.flash, nextId := s.nextId, freeCount := s.freeCount }
  showFeeds (showWeir (putField t Reg.globalStat 3 0 0))

/-- The island has lost its state: the log and its counters, the backup, the checkpoint, the sealed tables and the latch
(R65, R544, R573, R594, R601). -/
def loseIsland (s : State) : State :=
  let s := dropRegs s fun off => keptReg off && (Reg.place off).1 == .fault
  { s with faults := { s.faults with log := [], inTransit := [] }, parts := [], far := [], vfRanges := [],
           time := { s.time with backup := 0, backupValid := false, shift := 0 },
           weir := { s.weir with ckSeq := 0, ckBank := 0, journal := 0 },
           island := { Island.reset with onVkeep := s.island.onVkeep, bothBadAt := s.island.bothBadAt,
                                         vkeepUsed := s.island.vkeepUsed } }

/-! ### The island's clock (R65) -/

/-- Whole SOSC cycles of 30,517.578125 ns, in ns. -/
def soscNs (n : Nat) : Nat := n * 1953125 / 64

/-- Basin time as the island has it: the last copy and the SOSC cycles counted since (R65). `time.now` stands for the physical clock
on which SOSC counts, less what loads and jumps have added. -/
def islandTime (s : State) : Nat :=
  let gone := ((s.time.now : Int) - s.time.shift - s.time.backup).toNat
  s.time.backup + soscNs (gone * 64 / 1953125)

/-! ### Egress at a reset (R399) -/

/-- Whether an egress queue holds anything. -/
def egressWaits (s : State) : Bool := (List.range 16).any fun o => !((site s o).egressQ.isEmpty && (link s o).waiting.isEmpty)

/-- Before a module reset or a power-down the ports send their egress queues; what waits behind a link that is down is discarded
(R399, R593). -/
def drainEgress (s : State) : State :=
  (List.range 16).foldl (fun s o =>
    let rs := (site s o).egressQ ++ (link s o).waiting
    let s := modLink (modSite s o fun x => { x with egressQ := [] }) o fun l => { l with waiting := [] }
    if linkServes s o then rs.foldl (fun s r => transmit s o r.p) s else s) s

/-! ### Beginning a start (R598, R600, R603) -/

/-- The Weir that starts first, and the failure marks (R600). -/
def startMarks (moduleReset : Bool) (w : WeirState) : WeirState :=
  if !moduleReset || (w.failedA && w.failedB) then { w with active := .a, failedA := false, failedB := false }
  else if w.failedA then { w with active := .b }
  else if w.failedB then { w with active := .a }
  else w

def stage (s : State) : Nat := field s Reg.globalStat 3 0
def startFailed (s : State) : Bool := regBit s Reg.globalStat 7

/-- The domains that stage 1 switches on: the first Weir's, tile 4's backbone and the host interface. -/
def firstDomains (s : State) : List Nat := [domTile 4, domHost, domWeir s.weir.active]

def rampAll (s : State) (ds : List Nat) : State := ds.foldl (fun s d => rampDomain s d (railMv d)) s

/-- A start runs from stage 1, unless MODULE_RESET_N holds the module in reset (R598, R653). -/
def beginStart (moduleReset : Bool) (s : State) : State :=
  let s := showWeir { s with weir := startMarks moduleReset s.weir }
  if s.start.held then s
  else
    let s := putField s Reg.globalStat 3 0 1
    rampAll s (firstDomains s)

/-- A module reset (R598): egress is sent, every domain goes off, and the start runs from stage 1. While the island runs on VKEEP or
a trip is latched, nothing comes of the request (R594, R598). -/
def moduleReset (s : State) : State :=
  if s.island.onVkeep || s.island.trip.isSome then { s with start := { s.start with resetReq := false } }
  else beginStart true (allOff (drainEgress s))

/-! ### Domains that become ready (R574, R575) -/

/-- A site port leaves reset: its sideband runs and lets the die out of reset (R312), the vias replaced at assembly are in use (R327),
and the island reloads its sealed key entries (R42, R601). -/
def portUp (s : State) (i : Nat) : State :=
  let s := (s.island.keys.filter fun e => e.1 / 16 == i).foldl (fun s e => putReg s (Reg.basinKey i (e.1 % 16)) e.2) s
  let s := modAbango s i fun a => { a with resetN := true }
  let s := putField s (Reg.abangoVia i) 10 0 ((site s i).abango.viaFuseDn.length + (site s i).abango.viaFuseUp.length)
  putBit s (Reg.abangoStat i) 0 true

/-- A domain is at voltage and out of reset: a Pond region once it may leave its reset exit (R79); what has crossings announces its
return across them (R84). -/
def domainUp (s : State) (d : Nat) : State :=
  let s := putField s (Reg.powerDomain d) 31 30 2
  if d < 64 then answerRamps (showUncore s (d / 4))
  else if d < 80 then sideUp s .tarnPond (d - 64) .upper
  else if d < 96 then pondReturns s (d - 80)
  else if 112 ≤ d && d < 128 then portUp (sideUp (sideUp s .bundle (d - 112) .lower) .portTile (d - 112) .upper) (d - 112)
  else if d == domHost then sideUp s .hostTile 0 .upper
  else if d == domWeir .a then sideUp s (.weirTile .a) 0 .upper
  else if d == domWeir .b then sideUp s (.weirTile .b) 0 .upper
  else s

/-- Domains that still ramp when their stage ends are ready by then (R574, R603; DEDUCED, log 25). -/
def settleDomains (s : State) (ds : List Nat) : State :=
  ds.foldl (fun s d => if domState s d == 1 && (64 ≤ d || (core s d).rampTo.isNone) then domainUp s d else s) s

/-! ### Stages 3 and 4 (R603, R605) -/

/-- PLLs 0 to 9 lock: each to its reference of R54, or all to one (R605). -/
def lockPlls (s : State) (ref : Nat → Nat) : State :=
  (List.range 10).foldl (fun s p =>
    putBit { s with clock := { s.clock with pllRef := tput 0 s.clock.pllRef p (ref p) } } Reg.clockPllstat (16 + p) true) s

/-- The reference of a PLL at delivery (R54). -/
def ownRef (p : Nat) : Nat := if p == 9 then 1 else 0

def pllsLocked (s : State) : Bool := (List.range 10).all fun p => regBit s Reg.clockPllstat (16 + p)

/-- At stage 3, once both references are good, the PLLs lock (R603, R605). -/
def selectRefs (s : State) : State :=
  if stage s == 3 && !startFailed s && !pllsLocked s && regBit s Reg.clockRefstat 2 && regBit s Reg.clockRefstat 3 then lockPlls s ownRef
  else s

def tiles : List Nat := (List.range 9).map domTile

/-- Stage 3 has ended: the PLLs are locked and every backbone runs. Stage 4 switches on the site ports, and their Outlets (R574). -/
def endStage3 (s : State) : State :=
  if stage s == 3 && !startFailed s && pllsLocked s && tiles.all (domOn s) then
    rampAll (putField s Reg.globalStat 3 0 4) ((List.range 16).map domPort ++ (List.range 16).map domOutlet)
  else s

/-! ### Stages 5 and 6 (R606 to R609) -/

/-- Stage 5 begins: Springs, stacks, Ponds and uncores are switched on (R574, R606). The uncores stand at S5, for the self-test
(R608). -/
def enterStage5 (s : State) : State :=
  let s := putField s Reg.globalStat 3 0 5
  let s := (List.range 8).foldl (fun s p =>
    let n := s.record.springPos.getD p p
    if n < 10 then warmSpring (putField s (Reg.springStat n) 23 20 p) n else s) s
  (List.range 16).foldl (fun s i =>
    rampDomain (rampDomain (rampDomain s (domPond i) (pondMv (moduleStep s))) (domHbm i) (railMv (domHbm i))) (domUncore i) (stepMv 5)) s

/-- Stage 5a is done for a position: a Spring feeds it, or none is on its way to it (R606). -/
def positionDone (s : State) (p : Nat) : Bool :=
  (feeding? s p).isSome ||
    !(List.range 10).any fun n => (springPos s n == p && (springState s n == 1 || springState s n == 2)) || (spring s n).restoring == some p

/-- Stages 5b and 5c are done for a site: it has trained and negotiation has ended, or it is failed. -/
def siteTrained (s : State) (i : Nat) : Bool :=
  siteFailed s i || (field s (Reg.memCfg i) 1 0 == 3 && ((aba s i).nego == .committed || (aba s i).nego == .ended))

/-- The cause for which a site is held under site reset at the end of stage 5 (R606, R609, R646): 0 for none. -/
def holdCause (s : State) (i : Nat) : Nat :=
  if (aba s i).endCause != 0 then (aba s i).endCause
  else if (allGroups s i).any fun g => g.mode == 2 then 3
  else if (feeding? s (2 * (i / 4))).isNone && (feeding? s (2 * (i / 4) + 1)).isNone then 6
  else 0

/-- Hold the sites that offer no cores for a cause (R599, R609). -/
def holdSites (s : State) (cause : State → Nat → Nat) : State :=
  (List.range 16).foldl (fun s i =>
    if siteFailed s i || cause s i == 0 then s else siteReset i (cause s i) s) s

def siteCores (i : Nat) : List Nat := (List.range 4).map (4 * i + ·)

/-- Stage 5 has ended: the sites that cannot be used are held, and the cores of the others are switched on at S5 for their self-test
(R603, R608, R609). -/
def enterStage6 (s : State) : State :=
  let s := holdSites s holdCause
  let s := putField s Reg.globalStat 3 0 6
  ((liveSites s).flatMap siteCores).foldl (fun s c =>
    rampDomain (modCore s c fun y => { y with step := 5, cmdStep := 5 }) (domCore c) (stepMv 5)) s

def endStage5 (s : State) : State :=
  if stage s == 5 && !startFailed s && weirServes s && (List.range 8).all (positionDone s) && (List.range 16).all (siteTrained s) then
    enterStage6 s
  else s

/-! ### Stages 8 and 9 (R612) -/

/-- An Outlet's stage 8 has ended: its lanes are placed, or it has no working site port. -/
def outletLit (s : State) (o : Nat) : Bool :=
  siteFailed s o || !domOn s (domPort o) || !domOn s (domOutlet o) || field s (Reg.linkLanes o) 14 0 != 0x7777

def endStage8 (s : State) : State :=
  if stage s == 8 && !startFailed s && (List.range 16).all (outletLit s) then putField s Reg.globalStat 3 0 9 else s

/-! ### Stage movement -/

/-- The running stage ends when its work is done (R603). Stages 2, 4, 6, 7 and 9 end with commands of their own. -/
def advanceStart (s : State) : State :=
  let s := if stage s == 1 && (firstDomains s).all (domOn s) then putField s Reg.globalStat 3 0 2 else s
  endStage8 (endStage5 (endStage3 s))

/-- DOMAIN_READY (R574): a domain that was switched on reaches its voltage. A core that ramps to another step ends that with
CORE_RAMP_DONE, and a Spring is on when it has locked. At stage 1 the first domains have been commanded on. -/
def domainReady (d : Nat) (s : State) : State :=
  let first : Bool := stage s == 1 && (firstDomains s).any (· == d)
  let s := if first then rampAll s [d] else s
  if domState s d != 1 || (d < 64 && (core s d).rampTo.isSome) || (144 ≤ d && d < 154) then s
  else advanceStart (domainUp s d)

def execDomainReady (d : Fin 166) (s : State) : Host.Outcome State Fault Refusal := .next (domainReady d.val s)

/-! ### Commands that may end a stage (R56, R306, R317, R336, R549, R606) -/

def execRefMonitorWindow (ref : RefIn) (edges : Nat) (s : State) : Host.Outcome State Fault Refusal :=
  .next (advanceStart (selectRefs (refMonitorWindow ref edges s)))

def execCaps (site : SiteNo) (h : SbHead) (f : CapsF) (s : State) : Host.Outcome State Fault Refusal :=
  .next (advanceStart (caps site.val h f s))

def execReject (site : SiteNo) (h : SbHead) (reason : Byte) (s : State) : Host.Outcome State Fault Refusal :=
  .next (advanceStart (reject site.val h reason s))

def execCommit (site : SiteNo) (s : State) : Host.Outcome State Fault Refusal := .next (advanceStart (commit site.val s))

def execSidebandReplyTimeout (site : SiteNo) (s : State) : Host.Outcome State Fault Refusal :=
  .next (advanceStart (sidebandReplyTimeout site.val s))

def execSiteReset (site : SiteNo) (cause : Fin 11) (s : State) : Host.Outcome State Fault Refusal :=
  .next (advanceStart (siteReset site.val cause.val s))

def execSpringLocked (n : SpringNo) (s : State) : Host.Outcome State Fault Refusal := .next (advanceStart (springLocked n.val s))

/-- A Spring that fails during stage 5 gives its position to a spare at once (R606). -/
def springFailedAt (n : Nat) (cause : SpringFault) (s : State) : State :=
  let s := springFailed n cause s
  if stage s == 5 && weirServes s then advanceStart (takeSpare s fun _ => true) else s

def execSpringFailed (n : SpringNo) (cause : SpringFault) (s : State) : Host.Outcome State Fault Refusal :=
  .next (springFailedAt n.val cause s)

end Sys2Proof.Machine
end

