-- ==== Sys2Proof/Machine/PowerEvents.lean ====
section
/-! DEFINITION. Feeds, the always-on island, the thermal trip, faulty and idle domains, and the throttle (R569 to R583, R592 to
R595). -/

namespace Sys2Proof.Machine

/-! ### Feeds (R569, R570) -/

def feedNo : Feed → Nat
  | .a => 0
  | .b => 1

def feedIsGood (s : State) : Feed → Bool
  | .a => s.power.goodA
  | .b => s.power.goodB

def setFeed (s : State) (f : Feed) (b : Bool) : State :=
  showFeeds { s with power := match f with
    | .a => { s.power with goodA := b }
    | .b => { s.power with goodB := b } }

def noFeed (s : State) : Bool := !s.power.goodA && !s.power.goodB

/-- A report of the power stage on a feed: POWER 1 or 2. The power stage has no source number in R540: the island's is used.
DESIGN CHOICE, log 25. -/
def raiseFeed (s : State) (code : Nat) (f : Feed) : State := raise s 1 code (unitNo 0x11 (feedNo f)) 0xFF 0 0 srcIsland

/-- FEED_BAD (R569, R570): the feed is disconnected, and the other carries the load. -/
def feedBad (f : Feed) (s : State) : State :=
  if !feedIsGood s f then s
  else
    let s := raiseFeed (raiseFlag (setFeed s f false) Reg.powerFlags (feedNo f)) 1 f
    if noFeed s then { s with island := { s.island with bothBadAt := some s.time.now } } else s

def execFeedBad (f : Feed) (s : State) : Host.Outcome State Fault Refusal := .next (feedBad f s)

/-- FEED_GOOD (R569, R570): a feed that has been good for 50 ms carries its share of the load again. -/
def feedGood (f : Feed) (s : State) : State :=
  if feedIsGood s f then s
  else
    let s := raiseFeed (setFeed s f true) 2 f
    { s with island := { s.island with bothBadAt := none } }

def execFeedGood (f : Feed) (s : State) : Host.Outcome State Fault Refusal := .next (feedGood f s)

/-! ### The island (R29, R65, R571 to R573) -/

/-- ISLAND_TO_VKEEP (R399, R571, R573): both feeds have been bad for 20 us: every switched domain goes off, what is left in egress is
lost, and the island counts SOSC cycles alone. -/
def islandToVkeep (s : State) : State :=
  if !noFeed s || s.island.onVkeep then s
  else
    let lost := egressWaits s
    let t := islandTime s
    let s := allOff s
    let s := { s with time := { s.time with backup := t, shift := 0, now := t } }
    { s with island := { s.island with onVkeep := true, vkeepUsed := true, outages := s.island.outages ++ [t],
                                       egressLost := s.island.egressLost || lost } }

def execIslandToVkeep (s : State) : Host.Outcome State Fault Refusal := .next (islandToVkeep s)

/-- ISLAND_RETURN (R65, R572, R573, R594, R596): the feeds have been stable for 50 ms. The backup has counted `sosc` SOSC cycles. The
start is a cold start if the island has lost its state, and a power-on start otherwise; while a trip is latched none follows. -/
def islandReturn (sosc : Nat) (s : State) : State :=
  if !s.island.onVkeep || noFeed s then s
  else
    let t := s.time.backup + soscNs sosc
    let s := { s with time := { s.time with backup := t, now := t } }
    let s := { s with island := { s.island with onVkeep := false, outages := s.island.outages ++ [t] } }
    if s.island.trip.isSome then s else beginStart false s

def execIslandReturn (sosc : Nat) (s : State) : Host.Outcome State Fault Refusal := .next (islandReturn sosc s)

/-- VKEEP_LOST (R65, R544, R573, R594): VKEEP falls below 2.7 V while the island depends on it. -/
def vkeepLost (s : State) : State := if s.island.onVkeep then loseIsland s else s

def execVkeepLost (s : State) : Host.Outcome State Fault Refusal := .next (vkeepLost s)

/-! ### The thermal trip (R592 to R595) -/

/-- Whether a sensor of kind 0x13 is marked broken: of a stack, by its number; of another part, by its channel (R592, R638). Sensor
numbers 16 and above name the site's HBM stack and its two port sensors. DESIGN CHOICE, log 26. -/
def sensorBroken (s : State) (unit : Nat) : Bool :=
  let i := bits unit 23 16
  let k := unit % 256
  let chan (c : Nat) : Bool := regBit s (Reg.houseBroken (c / 32)) (c % 32)
  if unit / 2 ^ 24 != 0x13 then false
  else if 16 ≤ i then chan k
  else if k < 16 then regBit s (Reg.houseStackBroken i) k || (site s i).abango.late
  else if k == 16 then chan (16 + i)
  else chan (32 + 2 * i + (k - 17) % 2)

/-- 115 degC in 1/16 degC. -/
def tripPoint : Int := 1840

/-- Whether the island has switched to VKEEP in this tick: a trip of the same tick is recorded too (R595). -/
def switchedNow (s : State) : Bool := s.island.outages.getLast?.any fun t => t / 256 == tickOf s

/-- THERMAL_TRIP (R592 to R595): a sensor that is not broken has read 115 degC or more in two samples in a row. Egress is sent as in a
commanded power-down, every domain goes off, and the island latches the trip. -/
def thermalTrip (unit : Nat) (first second : BitVec 16) (s : State) : State :=
  if s.island.trip.isSome || (s.island.onVkeep && !switchedNow s) || sensorBroken s unit || first.toInt < tripPoint || second.toInt < tripPoint then s
  else
    let t := if s.time.running || s.island.onVkeep then tickOf s else 0
    let s := allOff (if s.island.onVkeep then s else drainEgress s)
    { s with island := { s.island with trip := some { tick := t, unit := unit, first := first, second := second } } }

def execThermalTrip (unit : Nat) (first second : BitVec 16) (s : State) : Host.Outcome State Fault Refusal :=
  .next (thermalTrip unit first second s)

/-- TRIP_CLEAR (R594): both feeds have been bad together for 1 s while the island ran from VKEEP: the latch clears, and the record is
kept for the next start's log. -/
def tripClear (s : State) : State :=
  if s.island.trip.isNone || !s.island.onVkeep || !noFeed s then s
  else { s with island := { s.island with trip := none, tripped := s.island.trip } }

def execTripClear (s : State) : Host.Outcome State Fault Refusal := .next (tripClear s)

/-! ### Domains (R549, R574, R575) -/

/-- The unit, source and part of a domain's fault (R535, R540). -/
def domSrc (d : Nat) : Nat :=
  if d < 64 then srcCore d
  else if d < 80 then srcPort (d - 64)
  else if d < 96 then srcPond (d - 80)
  else if d < 112 then srcHbm (d - 96)
  else if d < 128 then srcPort (d - 112)
  else if d < 144 then srcOutlet (d - 128)
  else if d < 154 then srcSpring (d - 144)
  else if d < 163 then srcTile (d - 154)
  else if d == 163 then srcHost
  else if d == 164 then srcWeir .a
  else srcWeir .b

/-- The cores of a Tarn are fenced; the site offers none (R549, R646). -/
def failTarn (s : State) (i cause : Nat) : State :=
  let s := (siteCores i).foldl (fun s c => fenceCore s c 0x03) s
  let s := putBit s (Reg.siteStat i) 2 false
  if reg s (Reg.siteFailCause i) != 0 then s
  else fwLog (putReg s (Reg.siteFailCause i) cause) 5 10 (unitNo 0x02 i) 0xFF cause 0

/-- What the loss of a domain costs (R549, R575): `kind` is that of R640. A tile backbone stops the module: the rest goes off with it, and
no start follows by itself. The host interface and a Spring that is not used are lost alone. The loss of a standby Weir's domain is found
when it is needed (R559). -/
def loseUnit (s : State) (d : Nat) : State :=
  if d < 64 then fenceCore s d 0x03
  else if d < 80 then failTarn s (d - 64) 9
  else if d < 96 then siteReset (d - 80) 9 s
  else if d < 112 then siteReset (d - 96) 9 s
  else if d < 128 then siteReset (d - 112) 9 s
  else if d < 144 then linkGoesDown s (d - 128) 4
  else if d < 154 then springFailedAt (d - 144) .domain s
  else if d < 163 then allOff s
  else if d == 163 then hostLinkDown s
  else
    let w : Weir := if d == 164 then .a else .b
    let named : Bool := match s.weir.gap with
      | some g => g.starting == w
      | none => s.weir.active == w
    if named then explicitFault .message .voltage s else s

/-- DOMAIN_VOLTAGE_FAULT (R575): a domain that is on and does not ramp reads below 95 % of its setpoint: it is switched off, and its
unit fails. A site whose reset waits for a Weir has its domain off already. -/
def domainVoltageFault (d : Nat) (s : State) : State :=
  if !domOn s d then s
  else
    let part := if d < 64 then partOfCore s d else 0xFF
    let s := raise (raiseFlag s Reg.powerFlags 3) 1 5 (unitNo 0x12 d) part 0 0 (domSrc d)
    let s := loseUnit s d
    if domTile 0 ≤ d && d ≤ domTile 8 then s else putReg s (Reg.powerDomain d) (3 * 2 ^ 30)

def execDomainVoltageFault (d : Fin 166) (s : State) : Host.Outcome State Fault Refusal := .next (domainVoltageFault d.val s)

/-- CORE_IDLE_POWER_OFF (R574): a core that has been in no partition for 1 s is switched off. -/
def coreIdlePowerOff (c : Nat) (s : State) : State :=
  match (core s c).idleSince with
  | none => s
  | some t =>
    if partOfCore s c != 0xFF || s.time.now < t + 1000000000 || !weirServes s || domState s (domCore c) == 0 || domState s (domCore c) == 3
    then s else coreOff s c

def execCoreIdlePowerOff (core : CoreNo) (s : State) : Host.Outcome State Fault Refusal := .next (coreIdlePowerOff core.val s)

/-! ### The throttle (R580 to R583) -/

def isStrict (s : State) (c : Nat) : Bool := (pinOf s c).isSome

/-- Whether a core is one of a partition that is not strict (R581). -/
def isFree (s : State) (c : Nat) : Bool := partOfCore s c != 0xFF && !isStrict s c

/-- The step from which a throttle lowers a core: a ramp toward a higher step counts for nothing (R582). -/
def reached (y : CoreState) : Nat := minNat y.step (heading y)

/-- `POWER_STAT` THROTTLED and THROTTLE_STAGE (R642). -/
def showThrottle (s : State) (on : Bool) (k : Nat) : State :=
  let s := { s with power := { s.power with stage := k } }
  putField (putBit s Reg.powerStat 3 on) Reg.powerStat 6 4 k

/-- Powered cores above a step that a test picks. -/
def coresAbove (s : State) (k : Nat) (p : Nat → Bool) : List Nat :=
  (List.range 64).filter fun c => corePowered s c && p c && k < heading (core s c)

/-- THROTTLE_START (R581, R582): a feed has been at its limit for 2 us: every core that is not strict and runs above S5 ramps to S5,
and one that ramps toward a higher step turns back to the step it stands at, or to S5 where that is lower (DEDUCED, log 25). -/
def throttleStart (f : Feed) (s : State) : State :=
  if !feedIsGood s f || s.power.throttleFrom.isSome then s
  else
    let s := { s with power := { s.power with throttleFrom := some s.time.now, lowerAt := s.time.now + 20000, restore := [] } }
    let s := addPair (raiseFlag (showThrottle s true 1) Reg.powerFlags 2) Reg.powerThrottles 1
    let s := raise s 1 3 (unitNo 0x11 (feedNo f)) 0xFF 0 0 srcIsland
    (((List.range 64).filter fun c => corePowered s c && isFree s c && reached (core s c) < heading (core s c)) ++
      coresAbove s 5 (isFree s)).foldl (fun s c => rampCore s c (minNat 5 (reached (core s c)))) s

def execThrottleStart (f : Feed) (s : State) : Host.Outcome State Fault Refusal := .next (throttleStart f s)

/-- Step 4 of R581: every core domain goes off, and every core is fenced. -/
def throttleLast (s : State) (f : Feed) : State :=
  let s := raise (showThrottle s true 4) 1 6 (unitNo 0x11 (feedNo f)) 0xFF 0 0 srcIsland
  (List.range 64).foldl (fun s c => fenceCore s c 0x03) s

/-- Lower some cores by one step. -/
def lowerCores (s : State) (cs : List Nat) : State :=
  let s := cs.foldl (fun s c => rampCore s c (reached (core s c) - 1)) s
  { s with power := { s.power with lowerAt := s.time.now + 10000 } }

/-- THROTTLE_STEP (R581): a feed is still at its limit: from 20 us on, every 10 us, the cores that are not strict lower by one step,
once those stand at S0 the strict ones, each partition with its report; from 500 us on every core goes off. -/
def throttleStep (f : Feed) (s : State) : State :=
  match s.power.throttleFrom with
  | none => s
  | some t =>
    if !feedIsGood s f || s.power.stage == 4 then s
    else if t + 500000 ≤ s.time.now then throttleLast s f
    else if s.time.now < s.power.lowerAt then s
    else
      let free := coresAbove s 0 (isFree s)
      if !free.isEmpty then lowerCores (showThrottle s true (maxNat 2 s.power.stage)) free
      else
        let cs := coresAbove s 0 (isStrict s)
        if cs.isEmpty then s
        else
          let ps := (cs.map (partOfCore s)).eraseDups
          let s := ps.foldl (fun s p => raise s 1 3 (unitNo 0x11 (feedNo f)) p 0 0 srcIsland) s
          lowerCores (showThrottle s true (maxNat 3 s.power.stage)) cs

def execThrottleStep (f : Feed) (s : State) : Host.Outcome State Fault Refusal := .next (throttleStep f s)

/-- The sites whose cores stand below their commanded steps: first those that hold strict cores, then the rest, each in ascending order
(R583). -/
def loweredSites (s : State) : List Nat :=
  let low := (List.range 16).filter fun i => (siteCores i).any fun c => corePowered s c && heading (core s c) < (core s c).cmdStep
  let strictAt (i : Nat) : Bool := (siteCores i).any (isStrict s)
  low.filter strictAt ++ low.filter fun i => !strictAt i

/-- THROTTLE_END (R583): the total feed power has stayed below 7,200 W for 1 ms. Firmware restores the lowered cores from 10 ms on. -/
def throttleEnd (s : State) : State :=
  match s.power.throttleFrom with
  | none => s
  | some t =>
    let s := addPair (showThrottle s false 0) Reg.powerThrottleNs (s.time.now - t)
    { s with power := { s.power with throttleFrom := none, restore := loweredSites s, restoreAt := s.time.now + 10000000 } }

def execThrottleEnd (s : State) : Host.Outcome State Fault Refusal := .next (throttleEnd s)

end Sys2Proof.Machine
end

