-- ==== Sys2Proof/Machine/House.lean ====
section
/-! DEFINITION. Housekeeping rounds: published values, broken sensors, bands, the location of light losses, and what firmware does
with a round (R326, R345, R346, R578, R579, R583 to R591, R602, R639). -/

namespace Sys2Proof.Machine

/-- HOUSEKEEPING_PERIOD (R586): 2.048 ms have passed since the last round started. -/
def housekeepingPeriod (s : State) : State :=
  if !domOn s (domTile 4) || s.time.now < s.house.started + 2048000 then s else houseTrig s

def execHousekeepingPeriod (s : State) : Host.Outcome State Fault Refusal := .next (housekeepingPeriod s)

/-! ### Values (R584, R639) -/

/-- What a channel reads whose source is broken, absent or unpowered. -/
def noValue : Nat := 0x8000_0000

/-- Whether the source of a channel is powered. -/
def chanPowered (s : State) (c : Nat) : Bool :=
  if c < 16 then true
  else if c < 32 then domOn s (domHbm (c - 16))
  else if c < 64 then domOn s (domPort ((c - 32) / 2))
  else if c < 73 then domOn s (domTile (c - 64))
  else if c < 103 then domOn s (domSpring ((c - 73) / 3))
  else if c < 105 then s.power.goodA
  else if c < 107 then s.power.goodB
  else if c < 114 then true
  else if c < 280 then domState s (c - 114) == 1 || domState s (c - 114) == 2
  else if c < 328 then domOn s (domPort ((c - 280) / 3))
  else c < 360 && domOn s (domOutlet ((c - 328) / 2))

/-- Whether a channel reads a temperature sensor of its own. -/
def tempChan (c : Nat) : Bool := (16 ≤ c && c < 73) || (73 ≤ c && c < 103 && c % 3 == 1) || (107 ≤ c && c < 113)

def reading? (rs : List RoundReading) (c : Nat) : Option RoundReading := rs.find? fun r => r.channel.val == c

/-- Whether a temperature in 1/16 degC lies outside −40 to 150 degC (R590). -/
def outOfRange (t : Int) : Bool := t < -640 || 2400 < t

def chanBroken (s : State) (c : Nat) : Bool := c < 114 && regBit s (Reg.houseBroken (c / 32)) (c % 32)

/-- A sensor's name: the numbers of a site's stack, its HBM readout and its two port sensors, or a channel (R535; DESIGN CHOICE,
log 26). -/
def sensorUnit (c : Nat) : Nat :=
  if c < 32 then unitNo 0x13 ((c - 16) * 2 ^ 16 + 16)
  else if c < 64 then unitNo 0x13 ((c - 32) / 2 * 2 ^ 16 + 17 + c % 2)
  else unitNo 0x13 (0xFF * 2 ^ 16 + c)

def sensorSrc (c : Nat) : Nat :=
  if c < 32 then srcHbm (c - 16)
  else if c < 64 then srcPort ((c - 32) / 2)
  else if c < 73 then srcTile (c - 64)
  else if c < 103 then srcSpring ((c - 73) / 3)
  else srcIsland

/-! ### Broken sensors (R590, R591) -/

/-- A single sensor outside the range is broken; for an HBM stack that is every sensor it has. -/
def checkChan (s : State) (rs : List RoundReading) (c : Nat) : State :=
  match reading? rs c with
  | none => s
  | some r =>
    if chanBroken s c || !chanPowered s c || !outOfRange r.word0.toInt then s
    else
      let s := raise (putBit s (Reg.houseBroken (c / 32)) (c % 32) true) 13 1 (sensorUnit c) 0xFF 0 0 (sensorSrc c)
      if c < 32 then raise s 13 2 (sensorUnit c) 0xFF 0 0 (sensorSrc c) else s

/-- Rounds off the median after which a sensor is broken until the next start. -/
def brokenRounds : Nat := 4

/-- Put a temperature in its place in a rising list. -/
def insertTemp (t : Int) : List Int → List Int
  | [] => [t]
  | x :: xs => if t ≤ x then t :: x :: xs else x :: insertTemp t xs

/-- Twice the median of some temperatures. -/
def median2 (ts : List Int) : Int :=
  let xs := ts.foldr insertTemp []
  xs.getD ((xs.length - 1) / 2) 0 + xs.getD (xs.length / 2) 0

/-- The sensors of a stack that are not broken, with their last readings (R320). -/
def validSensors (s : State) (i : Nat) : List (Nat × Int) :=
  let x := site s i
  if x.abango.nego != .committed || x.abango.late then []
  else (x.abango.lastReport.temps.zipIdx).filterMap fun e =>
    if tget 0 x.offMedian e.2 == brokenRounds then none else some (e.2, e.1.toInt)

/-- What a round adds to a sensor's count of rounds off the median. -/
def offRounds (vs : List (Nat × Int)) (n : Nat) (k : Nat) (t : Int) : Nat :=
  let others := (vs.filter fun v => v.1 != k).map (·.2)
  if 3 ≤ others.length && 800 < (2 * t - median2 others).natAbs then n + 1 else 0

/-- Mark a sensor of a stack broken. -/
def breakSensor (s : State) (i k : Nat) : State :=
  raise (modSite s i fun x => { x with offMedian := tput 0 x.offMedian k brokenRounds }) 13 1 (unitNo 0x13 (i * 2 ^ 16 + k)) 0xFF 0 0
    (srcPort i)

/-- The sensors of a stack after a round: those that read 0x8000 or out of range, then those that lie off the median of the others. -/
def checkStack (s : State) (i : Nat) : State :=
  let s := ((validSensors s i).filter fun v => outOfRange v.2).foldl (fun s v => breakSensor s i v.1) s
  let vs := validSensors s i
  vs.foldl (fun s v =>
    let n := offRounds vs (tget 0 (site s i).offMedian v.1) v.1 v.2
    if n == brokenRounds then breakSensor s i v.1
    else modSite s i fun x => { x with offMedian := tput 0 x.offMedian v.1 n }) s

/-- The broken sensors of a stack, as `HOUSE_STACK_BROKEN` shows them. -/
def stackBroken (s : State) (i : Nat) : Nat :=
  let x := site s i
  maskOf ((List.range 16).filter fun k =>
    tget 0 x.offMedian k == brokenRounds || (x.abango.late && k < x.abango.caps.sensors))

/-- Whether every sensor of a stack is broken. -/
def stackDark (s : State) (i : Nat) : Bool :=
  let a := (site s i).abango
  a.nego == .committed && 0 < a.caps.sensors && (List.range a.caps.sensors).all (bit (stackBroken s i))

/-- Publish the flags of a stack; a stack whose last sensor has broken is reported (R591). -/
def showStack (s : State) (i : Nat) : State :=
  let dark := stackDark s i
  let was := chanBroken s i
  let s := putBit (putReg s (Reg.houseStackBroken i) (stackBroken s i)) (Reg.houseBroken 0) i dark
  if dark && !was then raise s 13 2 (unitNo 0x13 (i * 2 ^ 16)) 0xFF 0 0 (srcPort i) else s

/-! ### Bands (R587, R588) -/

/-- The lower bounds of B1, B2 and B3: 45, 85 and 95 degC, in 1/16 degC. -/
def bandLow (b : Nat) : Int := if b == 1 then 720 else if b == 2 then 1360 else 1520

def bandOf (t : Int) : Nat := if t < bandLow 1 then 0 else if t < bandLow 2 then 1 else if t < bandLow 3 then 2 else 3

/-- The band and the count of rounds below it, after a round with a band value. -/
def nextBand (b n : Nat) (t : Int) : Nat × Nat :=
  if b < bandOf t then (bandOf t, 0)
  else if 0 < b && t + 48 ≤ bandLow b then (if n + 1 == 4 then (b - 1, 0) else (b, n + 1))
  else (b, 0)

/-- A unit with no valid sensor is treated as B3 (R591). -/
def nextBand? (b n : Nat) : Option Int → Nat × Nat
  | some t => nextBand b n t
  | none => (3, 0)

def hottest? (ts : List Int) : Option Int := ts.foldl (fun m t => some (match m with
  | some x => max x t
  | none => t)) none

/-- A die that enters B3 is reported (R534). -/
def raiseB3 (s : State) (old new unit src : Nat) : State := if old < 3 && new == 3 then raise s 0 2 unit 0xFF 0 0 src else s

/-- The rounds-below counters of a site: 0 Tarn, 1 Pond, 2 HBM, 3 site port. -/
def fallOf (s : State) (i k : Nat) : Nat := tget 0 (site s i).fall k
def putFall (s : State) (i k n : Nat) : State := modSite s i fun x => { x with fall := tput 0 x.fall k n }

/-- The bands of a stack's Tarn, from sensors 0 to 5, and Pond, from 6 and 7. A die that runs and has no valid report is in B3 (R322). -/
def stackBands (s : State) (i : Nat) : State :=
  if !domOn s (domPond i) then s
  else
    let vs := validSensors s i
    let one (s : State) (k hi lo first : Nat) (p : Nat → Bool) : State :=
      let old := field s (Reg.siteStat i) hi lo
      let b := nextBand? old (fallOf s i k) (hottest? ((vs.filter fun v => p v.1).map (·.2)))
      raiseB3 (putField (putFall s i k b.2) (Reg.siteStat i) hi lo b.1) old b.1 (unitNo 0x13 (i * 2 ^ 16 + first)) (srcPort i)
    one (one s 0 13 12 0 (· < 6)) 1 15 14 6 fun k => k == 6 || k == 7

/-- The temperature of a channel after the round: `none` when nothing was read; `some none` when its sensor is broken. -/
def chanTemp? (s : State) (rs : List RoundReading) (c : Nat) : Option (Option Int) :=
  if !chanPowered s c then none
  else if chanBroken s c then some none
  else (reading? rs c).map fun r => some r.word0.toInt

/-- The band of an HBM stack (R229). -/
def hbmBand (s : State) (rs : List RoundReading) (i : Nat) : State :=
  match chanTemp? s rs (16 + i) with
  | none => s
  | some t =>
    let old := (site s i).wantBand
    let b := nextBand? old (fallOf s i 2) t
    let s := modSite (putFall s i 2 b.2) i fun x =>
      if b.1 == old then x else { x with wantBand := b.1, refreshed := [] }
    raiseB3 s old b.1 (sensorUnit (16 + i)) (srcHbm i)

/-- The band of a site port and of its Outlet's drivers (R354); a change abandons the calibrations that run (R351). -/
def portBand (s : State) (rs : List RoundReading) (i : Nat) : State :=
  let ts := ([32 + 2 * i, 33 + 2 * i].filterMap (chanTemp? s rs))
  if ts.isEmpty then s
  else
    let old := field s (Reg.lightStat i) 3 2
    let b := nextBand? old (fallOf s i 3) (hottest? (ts.filterMap id))
    let s := putFall s i 3 b.2
    if b.1 == old then s
    else
      let s := putField (putField s (Reg.lightStat i) 3 2 b.1) (Reg.optStat i) 1 0 b.1
      raiseB3 (abandonCals s false true fun _ => true) old b.1 (sensorUnit (32 + 2 * i)) (srcPort i)

/-- The band of a Spring, and its bias (R355). -/
def springBand (s : State) (rs : List RoundReading) (n : Nat) : State :=
  match chanTemp? s rs (73 + 3 * n) with
  | none => s
  | some t =>
    let old := field s (Reg.springStat n) 17 16
    let b := nextBand? old (spring s n).fall t
    let s := putSpring s n { spring s n with fall := b.2 }
    if b.1 == old then s
    else
      let s := putField s (Reg.springStat n) 17 16 b.1
      let lit := springState s n
      let s := if lit == 0 || lit == 4 then s else putField s (Reg.springBias n) 9 0 (Config.springBias b.1).toNat
      raiseB3 s old b.1 (unitNo 0x07 n) (srcSpring n)

/-! ### Monitors (R345, R346, R369) -/

def monReg : Monitor → Nat
  | .springOut n => Reg.springOutpwr n.val
  | .comb i k => Reg.lightComb i.val k.val
  | .guide g => Reg.lightGuidepwr (g.val / 8) (g.val % 8)
  | .drop i n => Reg.lightRxpwr i.val n.val
  | .outletTx o f => Reg.optTxpwr o.val f.val
  | .outletRx o f => Reg.optRxpwr o.val f.val

/-- The housekeeping channel whose bank a monitor belongs to. -/
def monBank : Monitor → Nat
  | .springOut n => 74 + 3 * n.val
  | .guide g => 280 + 3 * (g.val / 8)
  | .comb i _ => 281 + 3 * i.val
  | .drop i _ => 282 + 3 * i.val
  | .outletTx o _ => 328 + 2 * o.val
  | .outletRx o _ => 329 + 2 * o.val

def monLow (s : State) (m : Monitor) : Bool := regBit s (monReg m) 29

/-- A monitor register takes a reading, unless calibration has marked it stale (R350). -/
def putMonitor (s : State) (r : MonReading) : State :=
  let a := monReg r.at_
  if regBit s a 30 then s
  else putReg s a (2 ^ 31 + (if r.low then 2 ^ 29 else 0) + field s a 28 26 * 2 ^ 26 + r.power.toNat)

/-- The active ring that feeds a receiver of a site: the receivers stand in the order of the rings (PRESUMED, log 26). -/
def receiverRing? (s : State) (i n : Nat) : Option (Nat × Ring) := (site s i).rings[n]?

/-- Whether every receiver of a channel reads low. -/
def channelDark (s : State) (g l : Nat) : Bool :=
  (List.range 16).all fun i =>
    ((site s i).rings.zipIdx).all fun e => !(e.1.1 / 8 == g && e.1.2.lambda == l) || regBit s (Reg.lightRxpwr i e.2) 29

/-- The comb behind a combiner register: a guide, or an Outlet lane (R535). -/
def combNo (i k : Nat) : Nat := if k < 8 then 8 * i + k else 128 + 4 * i + (k - 8)

/-- Firmware locates a loss from the published readings: the code and unit of the first row of R346 that matches. The code logged is
the class's own for the part found. DESIGN CHOICE, log 26. -/
def locate (s : State) : Monitor → Option (Nat × Nat)
  | .springOut n => some (1, unitNo 0x07 n.val)
  | .comb i k =>
    let p := 2 * (i.val / 4)
    let dark := (List.range 10).any fun n => (springPos s n == p || springPos s n == p + 1) && monLow s (.springOut (Fin.ofNat 10 n))
    let r := Reg.lightComb i.val k.val
    if dark then none
    else if !regBit s r 28 then some (2, unitNo 0x08 p)
    else if !regBit s r 27 then some (2, unitNo 0x08 (p + 1))
    else some (3, unitNo 0x09 (combNo i.val k.val))
  | .guide g => if regBit s (Reg.lightComb (g.val / 8) (g.val % 8)) 29 then none else some (4, unitNo 0x09 g.val)
  | .drop i n =>
    match receiverRing? s i.val n.val with
    | none => none
    | some e =>
      let g := e.1 / 8
      if regBit s (Reg.lightGuidepwr (g / 8) (g % 8)) 29 then none
      else if channelDark s g e.2.lambda then some (5, unitNo 0x0A (32 * g + e.2.lambda))
      else some (5, unitNo 0x0B (1024 * i.val + e.1))
  | .outletTx o f =>
    match (List.range 4).find? fun l => fibreOf s o.val l == f.val with
    | some l => if regBit s (Reg.lightComb o.val (8 + l)) 29 then none else some (5, unitNo 0x06 o.val)
    | none => none
  | .outletRx o f => if monLow s (.outletTx o f) then none else some (5, unitNo 0x06 o.val)

/-- The banks of a round are latched, and the location of each new loss is logged, once for each unit. -/
def takeMonitors (s : State) (ms : List MonReading) : State :=
  let new := (ms.filter fun m => m.low && !monLow s m.at_ && !regBit s (monReg m.at_) 30).map (·.at_)
  let s := ms.foldl putMonitor s
  ((new.filterMap (locate s)).eraseDups).foldl (fun s e => fwLog s 4 e.1 e.2 0xFF 0 0) s

/-! ### Publication (R585, R639) -/

/-- The words of a channel, low half first. -/
def chanValue (s : State) (rs : List RoundReading) (ms : List MonReading) (c : Nat) : Nat :=
  if c < 16 then
    match hottest? ((validSensors s c).map (·.2)) with
    | some t => twos 32 t + (site s c).abango.lastReport.power * 2 ^ 32
    | none => noValue
  else if 360 ≤ c then 0
  else if !chanPowered s c || chanBroken s c then noValue
  else if 280 ≤ c then (ms.filter fun m => monBank m.at_ == c).length
  else match reading? rs c with
    | none => noValue
    | some r => r.word0.toNat + (if 114 ≤ c then r.word1.toNat * 2 ^ 32 else 0)

def publish (s : State) (rs : List RoundReading) (ms : List MonReading) : State :=
  (List.range 512).foldl (fun s c => putReg s (Reg.houseValue c) (chanValue s rs ms c)) s

/-- A feed's voltage in mV and current in mA, from its two channels; a bad feed carries none. -/
def feedRead (rs : List RoundReading) (c : Nat) : Nat × Nat :=
  let w (c : Nat) : Nat := ((reading? rs c).map fun r => r.word0.toNat).getD 0
  (w c, w (c + 1))

def feedWatts (v : Nat × Nat) : Nat := v.1 * v.2 / 1000000

/-- The feed powers of a round, and M of R579. -/
def takeFeeds (s : State) (rs : List RoundReading) : State :=
  let a := if s.power.goodA then feedRead rs 103 else (0, 0)
  let b := if s.power.goodB then feedRead rs 105 else (0, 0)
  let word (v : Nat × Nat) : Nat := minNat (v.1 / 10) 65535 * 2 ^ 16 + minNat (feedWatts v) 65535
  let s := putReg (putReg s Reg.powerFeedA (word a)) Reg.powerFeedB (word b)
  let ps := (feedWatts a + feedWatts b) :: s.power.feedPowers.take 15
  let s := { s with power := { s.power with feedPowers := ps } }
  putReg s Reg.powerEstimate (minNat (maxFeed s) 65535)

/-- The grid error of a Spring, in 0.1 GHz; one beyond 5 GHz has lost its lock (R371, R372). -/
def takeGrid (s : State) (rs : List RoundReading) (n : Nat) : State :=
  match reading? rs (75 + 3 * n) with
  | none => s
  | some r =>
    if !chanPowered s (75 + 3 * n) then s
    else
      let s := putReg s (Reg.springGriderr n) (r.word0.toNat % 65536)
      if springState s n != 2 && springState s n != 3 then s
      else
        let off : Bool := 50 < (signed 16 (r.word0.toNat % 65536)).natAbs
        let s := if off && regBit s (Reg.springStat n) 0 then raiseFlag s (Reg.springFlags n) 1 else s
        putBit s (Reg.springStat n) 0 (!off)

/-! ### What firmware does with a round (R583, R589, R602) -/

/-- Cores above the step that their Tarn's band permits are lowered; strict cores need no lowering. -/
def lowerForBands (s : State) : State :=
  ((List.range 64).filter fun c => corePowered s c && !isStrict s c && bandStep (tarnBand s (c / 4)) < heading (core s c)).foldl
    (fun s c => commandCore s c (bandStep (tarnBand s (c / 4)))) s

/-- A module step that the hottest Pond's band does not permit is changed, and again in every round until the change succeeds. -/
def lowerModule (s : State) : State :=
  let k := bandStep (hottestPond s (liveSites s))
  if k < moduleStep s && stepFree s then startChange s k (commitCount s s.time.now) none else s

/-- The changes that bring strict cores of a partition to their pinned step. -/
def pinChanges (s : State) (p : Nat) : List (Nat × Nat) :=
  (List.range 64).filterMap fun c =>
    if partOfCore s c == p && corePowered s c then
      match pinOf s c with
      | some k => if (core s c).cmdStep < k then some (c, k) else none
      | none => none
    else none

/-- The pinned step of each strict partition that stands below it is tried again (R602). -/
def retryPins (s : State) : State :=
  (s.parts.map (·.1)).foldl (fun s p =>
    let new := pinChanges s p
    if new.isEmpty || !capAdmits s new true then s else new.foldl (fun s e => commandCore s e.1 e.2) s) s

/-- The changes that bring a Tarn's cores back to their commanded steps, as its band permits. -/
def restoreChanges (s : State) (i : Nat) : List (Nat × Nat) :=
  (siteCores i).filterMap fun c =>
    let k := minNat (core s c).cmdStep (bandStep (tarnBand s i))
    if corePowered s c && heading (core s c) < k then some (c, k) else none

/-- After a throttle one Tarn is restored per round: the first that is admitted (R583). -/
def restoreTarn (s : State) : State :=
  let left := s.power.restore.filter fun i => !(restoreChanges s i).isEmpty
  if s.time.now < s.power.restoreAt then s
  else match left.find? fun i => capAdmits s (restoreChanges s i) false with
    | none => { s with power := { s.power with restore := left } }
    | some i =>
      let s := (restoreChanges s i).foldl (fun s e => rampCore s e.1 e.2) s
      { s with power := { s.power with restore := left.filter (· != i) } }

def firmwareRound (s : State) : State :=
  if !weirServes s then s
  else
    let s := lowerModule (lowerForBands s)
    if s.power.throttleFrom.isSome then s else restoreTarn (retryPins s)

/-! ### Repaired via groups (R326) -/

/-- The walking pattern finds a second failing via in a repaired group: the Tarn is lost. -/
def secondVia (s : State) (i : Nat) (d : Dir) (g : Nat) : State :=
  let a := (site s i).abango
  if tget 0 (if isUp d then a.viaSpareUp else a.viaSpareDn) g == 0 then s
  else failTarn (raise s 5 5 (unitNo 0x0D (i * 2 ^ 20 + (if isUp d then 2 ^ 19 else 0) + g)) 0xFF 0 0 (srcPort i)) i 8

/-! ### The end of a round (R585, R586) -/

/-- The round ends; a latched trigger starts the next one. A trigger of this tick arrives after the end. -/
def endRound (s : State) : State :=
  let h := s.house
  let again : Bool := h.lostNow && h.trigTick == some (tickOf s)
  let s := if again then putReg s Reg.houseLost (reg s Reg.houseLost - 1) else s
  let h := { h with running := h.latched, started := if h.latched then s.time.now else h.started, latched := again, lostNow := false }
  putBit (putBit { s with house := h } Reg.houseStat 0 h.running) Reg.houseStat 1 again

/-- HOUSEKEEPING_ROUND_END (R583 to R591): a round of 512 channels takes 2.048 ms. -/
def housekeepingRoundEnd (rs : List RoundReading) (ms : List MonReading) (vias : List (SiteNo × Dir × Fin 1000)) (s : State) : State :=
  if !s.house.running || s.time.now < s.house.started + 2048000 then s
  else
    let s := addPair s Reg.houseRound 1
    let s := (List.range 16).foldl checkStack s
    let s := ((List.range 114).filter tempChan).foldl (fun s c => checkChan s rs c) s
    let s := (List.range 16).foldl showStack s
    let s := takeMonitors (publish s rs ms) ms
    let s := (List.range 10).foldl (fun s n => springBand (takeGrid s rs n) rs n) (takeFeeds s rs)
    let s := (List.range 16).foldl (fun s i => portBand (hbmBand (stackBands s i) rs i) rs i) s
    let s := vias.foldl (fun s v => secondVia s v.1.val v.2.1 v.2.2.val) s
    endRound (firmwareRound s)

def execHousekeepingRoundEnd (readings : List RoundReading) (monitors : List MonReading) (viaFail : List (SiteNo × Dir × Fin 1000))
    (s : State) : Host.Outcome State Fault Refusal := .next (housekeepingRoundEnd readings monitors viaFail s)

end Sys2Proof.Machine
end

