-- ==== Sys2Proof/Machine/Startup.lean ====
section
/-! DEFINITION. The commands of a start, stage by stage, and the MODULE_RESET_N pin (R52, R53, R59, R65, R399, R573, R594, R598 to
R617, R653). -/

namespace Sys2Proof.Machine

/-- A start cannot go on: it holds with START_FAILED (R614). -/
def holdStart (s : State) : State := putBit s Reg.globalStat 7 true

/-- Firmware logs why a start holds, with severity MODULE (R614). -/
def failStart (s : State) (cls code unit : Nat) : State := fwLogSev (holdStart s) cls code 4 unit 0xFF 0 0

/-! ### The pin (R598, R653) -/

/-- MODULE_RESET_PIN (R653): the pin has been low for 10 us: a module reset is requested, and the module stays in reset until the
release. -/
def moduleResetPin (s : State) : State := { s with start := { s.start with held := true, resetReq := true } }

def execModuleResetPin (s : State) : Host.Outcome State Fault Refusal := .next (moduleResetPin s)

/-- MODULE_RESET_RELEASE (R598, R653): the start that waited for the release runs from stage 1. -/
def moduleResetRelease (s : State) : State :=
  if !s.start.held then s
  else
    let s := { s with start := { s.start with held := false } }
    if s.start.resetReq || stage s != 0 || s.island.onVkeep || s.island.trip.isSome || noFeed s then s
    else
      let s := putField s Reg.globalStat 3 0 1
      rampAll s (firstDomains s)

def execModuleResetRelease (s : State) : Host.Outcome State Fault Refusal := .next (moduleResetRelease s)

/-! ### Stage 2 (R52, R53, R567, R573, R594, R604, R605) -/

/-- The slot that a Weir boots from: its boot slot where that is good, else the other. -/
def bootFrom (slot : Nat) (good0 good1 : Bool) : Option Nat :=
  let good (k : Nat) : Bool := if k == 0 then good0 else good1
  if good slot then some slot else if good (1 - slot) then some (1 - slot) else none

/-- A Weir whose slots both fail is marked, and the other starts in its place; without one the start holds (R604). -/
def bootFailed (s : State) (w : Weir) : State :=
  let s := offDomain (raiseWeir (markWeir s w) 4 w) (domWeir w)
  let o := otherWeir w
  if weirFailed s o then holdStart s
  else rampDomain (showWeir { s with weir := { s.weir with active := o } }) (domWeir o) (railMv (domWeir o))

/-- The configuration record comes into force; one that fails its CRC is replaced by the defaults, and logged (R52, R375, R605, R617). -/
def loadRecord (s : State) (w : Weir) (good : Bool) : State :=
  let s := if good then s else fwLog { s with record := .reset } 15 1 (unitNo 0x10 (weirNo w)) 0xFF 0 0
  let s := { s with clock := { s.clock with refaMode := s.record.refaMode, trimmed := true },
                    fabric := { s.fabric with hold := s.record.hold } }
  let s := putBit s Reg.clockRefcfg 0 s.record.refaMode
  match s.record.coord with
  | some c => putReg s Reg.fabricCoord (3 * 2 ^ 30 + c % 2 ^ 24)
  | none => s

/-- The entries that firmware writes for what the island recorded: each stay on VKEEP, with the backup at both ends, and a trip that has
been cleared (R573, R594). -/
def logOutages : List Nat → State → State
  | a :: b :: rest, s => logOutages rest (fwLog s 1 4 (unitNo 0x11 2) 0xFF a b)
  | [a], s => fwLog s 1 4 (unitNo 0x11 2) 0xFF a 0
  | [], s => s

def logIsland (s : State) : State :=
  let s := logOutages s.island.outages s
  let s := match s.island.tripped with
    | some t => fwLog s 0 1 t.unit 0xFF t.tick (t.first.toNat + t.second.toNat * 2 ^ 32)
    | none => s
  let s := if s.island.lost then raiseFlag s Reg.faultFlags 0 else s
  let s := if s.island.egressLost then raiseFlag s Reg.fabricFlags 7 else s
  { s with island := { s.island with outages := [], tripped := none, lost := false, egressLost := false } }

/-- A Weir runs: the GA straps are sampled (R653, R656), stage 2 ends, and stage 3 switches on the other backbones and enables the CLOCK
block. -/
def bootDone (s : State) (w : Weir) (slot : Nat) (record : Bool) : State :=
  let s := { s with weir := { s.weir with running := true, runSlot := slot },
                    maint := { s.maint with smbAddr := some (0x60 + Config.gaPins.toNat) } }
  let s := putReg s Reg.globalFw (3 * 2 ^ 24 + 2 * 2 ^ 16 + Config.fwPatch.toNat * 2 ^ 8)
  let s := putField s Reg.faultWeir 23 8 s.weir.switchovers
  let s := logIsland (loadRecord s w record)
  let s := putBit (putField s Reg.globalStat 3 0 3) Reg.clockCtrl 0 true
  selectRefs (rampAll s tiles)

/-- WEIR_BOOT (R604): the active Weir verifies its boot slot, and the other slot where that fails. -/
def weirBoot (w : Weir) (good0 good1 record : Bool) (s : State) : State :=
  let s := if stage s == 1 || stage s == 2 then advanceStart (settleDomains s (firstDomains s)) else s
  if stage s != 2 || startFailed s || s.weir.running || w != s.weir.active || !domOn s (domWeir w) then s
  else
    match bootFrom (match w with
      | .a => s.weir.slotA
      | .b => s.weir.slotB) good0 good1 with
    | none => bootFailed s w
    | some k => bootDone s w k record

def execWeirBoot (w : Weir) (slot0Good slot1Good record : Bool) (s : State) : Host.Outcome State Fault Refusal :=
  .next (weirBoot w slot0Good slot1Good record s)

/-! ### Stages 3 and 4 (R59, R65, R601, R605) -/

/-- REF_SELECT_TIMEOUT (R605): 10 ms of stage 3 have passed. With one good reference every PLL takes it; with none, or without a lock of
PLL 0, the start holds. -/
def refSelectTimeout (pll0Locks : Bool) (s : State) : State :=
  if stage s != 3 || startFailed s || !weirServes s then s
  else
    let s := settleDomains s tiles
    let a := regBit s Reg.clockRefstat 2
    let b := regBit s Reg.clockRefstat 3
    if !a && !b then failStart s 2 1 (unitNo 0x0F 0)
    else if !pll0Locks then failStart s 2 2 (unitNo 0x0F 16)
    else if a && b then advanceStart (lockPlls s ownRef)
    else
      let r := if a then 0 else 1
      advanceStart (fwLog (lockPlls s fun _ => r) 2 1 (unitNo 0x0F (1 - r)) 0xFF 0 0)

def execRefSelectTimeout (pll0Locks : Bool) (s : State) : Host.Outcome State Fault Refusal := .next (refSelectTimeout pll0Locks s)

/-- Tile 4 loads Basin time, and every copy synchronises (R59, R65, R69). -/
def loadTime (s : State) (delays : List Nat) : State :=
  let t := if s.time.backupValid then islandTime s else 0
  let s := if s.time.backupValid then s else raiseFlag s Reg.timeStat 2
  let pd := ((List.range 9).zip delays).foldl (fun u e => tput 0 u e.1 e.2) []
  let s := { s with time := { s.time with now := t, frac := 0, copyErr := [], pathDelay := pd, running := true, copyFix := [], slewLeft := 0, hold := false,
                                          setAt := none, shift := 0, backup := if s.time.backupValid then s.time.backup else 0 },
                    house := { s.house with started := t, trigTick := none } }
  let s := { s with faults := { s.faults with nextTick := tickOf s } }
  putReg s Reg.timeCtrl 5

/-- TILE_ALIGNMENT (R59, R603, R614): the tiles align to tile 4, and Basin time is loaded; a tile that cannot align holds the start. -/
def tileAlignment (failed : BitVec 9) (delays : List Nat) (s : State) : State :=
  if !(stage s == 3 || stage s == 4) || startFailed s || !weirServes s || s.time.running then s
  else
    let s := advanceStart (settleDomains s tiles)
    if stage s != 4 then s
    else
      let bad := maskList failed.toNat 9
      if !bad.isEmpty then bad.foldl (fun s t => raise s 2 4 (unitNo 0x0E t) 0xFF 0 0 (srcTile t)) (holdStart s)
      else
        let s := loadTime s delays
        enterStage5 (settleDomains s ((List.range 16).map domPort ++ (List.range 16).map domOutlet))

def execTileAlignment (failed : BitVec 9) (delays : List Nat) (s : State) : Host.Outcome State Fault Refusal :=
  .next (tileAlignment failed delays s)

/-! ### Stage 5 (R606, R607, R615) -/

/-- SPRING_LOCK_TIMEOUT (R606): a Spring that has not locked within 1.5 s is failed, and its position takes a spare. -/
def springLockTimeout (n : Nat) (s : State) : State :=
  if stage s != 5 || springState s n != 1 then s else advanceStart (takeSpare (springDown s n .domain) fun _ => true)

def execSpringLockTimeout (n : SpringNo) (s : State) : Host.Outcome State Fault Refusal := .next (springLockTimeout n.val s)

/-- Training clears the written bits and sharer masks of a site (R607). -/
def clearTracking (s : State) (i : Nat) : State :=
  modSite { s with written := tdrop s.written fun k => ownerSite (4096 * k) == i } i fun x => { x with sharers := [] }

/-- The Pond frequency of the present step (R75): 0, 1, 2 for 1.0, 1.5 and 2.0 GHz. -/
def pondFreq (s : State) : Nat := if moduleStep s ≤ 1 then 0 else if moduleStep s ≤ 3 then 1 else 2

/-- The stored step of a via group's delay line: of the twelve sets, the one for the band in force and the present frequency (R324). -/
def storedDelay (s : State) (i : Nat) (d : Dir) (g : Nat) : Nat :=
  Config.viaDelay i (if isUp d then 1 else 0) g (site s i).abango.viaBand (pondFreq s) % 64

def viaKey (d : Dir) (g : Nat) : Nat := (if isUp d then 1000 else 0) + g

/-- The step in force: the trained one, until the next start, or the stored one (R324). -/
def delayStep (s : State) (i : Nat) (d : Dir) (g : Nat) : Nat :=
  match tget 0 (site s i).abango.viaTrained (viaKey d g) with
  | 0 => storedDelay s i d g
  | n + 1 => n

/-- Training checks the stored set of the present band and frequency: a group whose best point lies more than two steps off takes it
(R324). Groups that are not listed lie within two steps. -/
def trainDelays (s : State) (i : Nat) (best : List (Dir × Fin 1000 × Fin 64)) : State :=
  let s := modAbango s i fun a => { a with viaBand := hotterBand s i, viaTrained := [] }
  best.foldl (fun s b =>
    let v := storedDelay s i b.1 b.2.1.val
    if b.2.2.val ≤ v + 2 && v ≤ b.2.2.val + 2 then s
    else modAbango s i fun a => { a with viaTrained := tput 0 a.viaTrained (viaKey b.1 b.2.1.val) (b.2.2.val + 1) }) s

/-- MEMORY_TRAINING (R324, R607): a site's stack and Pond end their training; one that fails, fails its site. -/
def memoryTraining (i : Nat) (stackGood pondGood : Bool) (best : List (Dir × Fin 1000 × Fin 64)) (s : State) : State :=
  let r := Reg.memCfg i
  if stage s != 5 || startFailed s || !weirServes s || siteFailed s i || field s r 1 0 == 3 then s
  else
    let s := settleDomains s [domPond i, domHbm i, domUncore i]
    let s := trainDelays s i best
    let s := clearTracking (putBit (putBit s r 0 stackGood) r 1 pondGood) i
    if stackGood && pondGood then advanceStart (showRefresh (putBit s r 4 true) i) else advanceStart (siteReset i 4 s)

def execMemoryTraining (site : SiteNo) (stackGood : Bool) (pond : PondTraining) (s : State) : Host.Outcome State Fault Refusal :=
  .next (memoryTraining site.val stackGood pond.good pond.best s)

/-! ### Stage 6 (R608, R609, R316, R646) -/

/-- The core stores read zeros, and every register is unwritten (R608, R522). -/
def clearCores (s : State) : State :=
  { s with mem := zeroRange s.mem (coreBase 0) (64 * 2 ^ 25), corePoison := [],
           cores := s.cores.map fun e => (e.1, { e.2 with accs := [], vregs := [], vpoison := [], vflags := 0, sel := 0 }) }

/-- The features that a site must have accepted before plans are placed on it: SCHEDULED, OPEN and FIXED_CADENCE (R316). -/
def placesPlans (s : State) (i : Nat) : Bool :=
  let a := aba s i
  a.nego == .committed && a.caps.cls == 1 && a.offer.features.toNat % 8 == 7

/-- A site offers its cores, or is logged as one that offers none (R316, R645, R646). -/
def offerCores (s : State) (i : Nat) : State :=
  if placesPlans s i then putBit s (Reg.siteStat i) 2 true
  else if reg s (Reg.siteFailCause i) != 0 then s
  else fwLog (putReg s (Reg.siteFailCause i) 0x0A) 5 10 (unitNo 0x02 i) 0xFF 0x0A 0

/-- The module step after stage 6 (R609); while the PLLs of the stepped clocks coast it is what firmware restores (R57). -/
def setModuleStep (s : State) : State :=
  let k := minNat 5 (bandStep (hottestPond s (liveSites s)))
  if stepPllCoasts s then { s with clock := { s.clock with stepBefore := k } }
  else pondRails (putField s Reg.clockStep 2 0 k) (pondMv k)

/-- Every good core stands at S5, or at the highest step that its band permits; a core in no partition idles from now (R574, R609). -/
def settleCore (s : State) (c : Nat) : State :=
  let s := commandCore s c (minNat 5 (bandStep (tarnBand s (c / 4))))
  if partOfCore s c == 0xFF then modCore s c fun y => { y with idleSince := some s.time.now } else s

/-- Whether any entry register of a site holds VALID: PF0 has written its entries (R353). -/
def siteWritten (s : State) (i : Nat) : Bool :=
  s.regs.any fun e => bit e.2 31 && match Reg.place e.1 with
    | (.light j, x) => j == i && ((0x400 ≤ x && x < 0x800) || (0x2_0000 ≤ x && x < 0x4_0000))
    | _ => false

/-- The calibration image that a Weir's flash holds: its magic is read first (R501, R610). -/
def flashImage? (s : State) (w : Nat) : Option (List Byte) :=
  let bytes (n : Nat) : List Byte := (List.range n).map fun k => flashByte s w (0x201_0000 + k)
  if leNat (bytes 4) != 0x4C414349 then none
  else
    let bs := bytes imageSize
    if imageFault bs == 0 then some bs else none

/-- The image of the active Weir's flash, or else of the other's (R611). -/
def savedImage? (s : State) : Option (List Byte) :=
  match flashImage? s (weirNo s.weir.active) with
  | some bs => some bs
  | none => flashImage? s (weirNo (otherWeir s.weir.active))

/-- Stage 7 begins as a CA activity: the saved image's entries are loaded, except at sites that PF0 has written. The activity notes
where its entries come from: 1 the image, 2 PF0 alone, 0 nowhere (R611). -/
def enterStage7 (s : State) : State :=
  let s := putField s Reg.globalStat 3 0 7
  let live := liveSites s
  let start (s : State) (from_ : Nat) : State :=
    showCalibrating (addActivity s { blankActivity opCa true with addr := from_ }).1 0 0 true
  match savedImage? s with
  | some bs => start (loadImage s bs (live.filter fun i => !siteWritten s i)) 1
  | none => start s (if live.any (siteWritten s) then 2 else 0)

/-- A strict partition's cores take their pinned step, or the highest below it that the cap admits, which is logged (R602). -/
def restorePin (s : State) (p : Nat) : State :=
  let x := part s p
  let cs := (maskList x.cores.toNat 64).filter (corePowered s)
  if !(x.mode == .opened || x.mode == .sealed) || !bit x.strict 7 || cs.isEmpty then s
  else
    let pin := x.strict % 8
    let k := ((List.range (pin + 1)).reverse.find? fun k => capAdmits s (cs.map fun c => (c, k)) true).getD 0
    let s := cs.foldl (fun s c => commandCore s c k) s
    if k < pin then fwLog s 15 3 (unitNo 0x00 0) p pin k else s

/-- Stage 6 ends: the cores that failed, or did not finish, are fenced, a site without a good core is failed, and the module and the
cores take their steps (R608, R609). -/
def endStage6 (s : State) (failed : Nat → Bool) : State :=
  let cs := (liveSites s).flatMap siteCores
  let s := cs.foldl (fun s c => if failed c || !domOn s (domCore c) then fenceCore s c 0x03 else s) s
  let s := (liveSites s).foldl (fun s i => if (siteCores i).all fun c => (core s c).fenced then siteReset i 7 s else s) s
  let s := (liveSites s).foldl offerCores (clearCores s)
  let s := setModuleStep s
  let s := (((liveSites s).flatMap siteCores).filter fun c => !(core s c).fenced).foldl settleCore s
  enterStage7 ((s.parts.map (·.1)).foldl restorePin s)

/-- CORE_SELFTEST (R608). -/
def coreSelftest (failed : BitVec 64) (s : State) : State :=
  if stage s != 6 || startFailed s || !weirServes s then s
  else endStage6 (settleDomains s (((liveSites s).flatMap siteCores).map domCore)) (bit failed.toNat)

def execCoreSelftest (failed : BitVec 64) (s : State) : Host.Outcome State Fault Refusal := .next (coreSelftest failed s)

/-! ### Stage 7 (R260, R288, R353, R611) -/

/-- CAL_STAGE (R611): stage 7 ends. `failing` are the channels that failed verification, `rejected` those whose calibration was
rejected. -/
def endStage7 (failing rejected : List Nat) (s : State) : State :=
  match s.acts.find? fun a => a.opcode == opCa && a.mode == .running with
  | none => s
  | some a =>
    let full := a.addr == 0 || 256 < ((failing.filter (· < 4096)).eraseDups).length
    let s := ((rejected.filter (· < 4096)).eraseDups).foldl (fun s c =>
      if tget false (site s (c / 256)).failedTx (c % 256) then s else rejectCal s (c / 32) (c % 32)) s
    let s := putBit (if full || a.addr == 2 then writeCalImage s else s) Reg.globalStat 8 (!full)
    let s := showCalibrating s a.guide a.lambda false
    let s := { s with acts := s.acts.filter fun b => b.num != a.num }
    advanceStart (putField ((liveSites s).foldl openShareAt s) Reg.globalStat 3 0 8)

def calStage (failing rejected : List Nat) (s : State) : State :=
  if stage s != 7 || startFailed s || !weirServes s then s else endStage7 failing rejected s

def execCalStage (failing rejected : List Nat) (s : State) : Host.Outcome State Fault Refusal := .next (calStage failing rejected s)

/-! ### Stage 8 (R362, R612) -/

/-- An Outlet's lanes stand on fibres 0 to 3, and its role is known (R376, R428). -/
def placeLanes (s : State) (o : Nat) : State := putField (setLinkState s o (linkStateOf s o)) (Reg.linkLanes o) 14 0 0x3210

/-- OUTLET_LIGHT (R612): the Outlet opens its shutters and sends training frames, or sleeps. -/
def outletLight (o : Nat) (cabled : Bool) (s : State) : State :=
  if stage s != 8 || startFailed s || outletLit s o then s
  else
    let s := placeLanes (modLink s o fun l => { l with cabled := cabled }) o
    let asleep : Bool := !cabled || (hasCoord s && flatLink s o)
    let s := if asleep then setLinkState (opticsSleep s o) o 5 else setLinkState (putField s (Reg.optStat o) 13 8 (openShutters s o)) o 1
    advanceStart s

def execOutletLight (o : OutletNo) (cabled : Bool) (s : State) : Host.Outcome State Fault Refusal := .next (outletLight o.val cabled s)

/-! ### Bounds (R603, R615) -/

/-- Stage 5 misses its bound: Springs that have not locked fail, and sites that have not trained or negotiated. -/
def bound5 (s : State) : State :=
  let s := (List.range 10).foldl (fun s n => if springState s n == 1 then springDown s n .domain else s) s
  enterStage6 (holdSites s fun s i =>
    if field s (Reg.memCfg i) 1 0 != 3 then 4 else if (aba s i).nego == .committed || (aba s i).nego == .ended then 0 else 2)

/-- Stage 7 misses its bound: a channel without a valid modulator entry fails. -/
def bound7 (s : State) : State :=
  endStage7 [] ((List.range 4096).filter fun c => !siteFailed s (c / 256) && !regBit s (Reg.lightTxcal (c / 256) (c % 256)) 31) s

/-- Stage 8 misses its bound: an Outlet that is not lit is down. -/
def bound8 (s : State) : State :=
  advanceStart ((List.range 16).foldl (fun s o => if outletLit s o then s else setLinkState (placeLanes s o) o 4) s)

/-- STAGE_BOUND_EXPIRY (R615): units that miss the bound of the stage fail: of stage 6 the cores of the named sites. -/
def stageBoundExpiry (sites : BitVec 16) (s : State) : State :=
  if startFailed s || !weirServes s then s
  else if stage s == 5 then bound5 s
  else if stage s == 6 then
    let late (c : Nat) : Bool := bit sites.toNat (c / 4)
    endStage6 (settleDomains s ((((liveSites s).flatMap siteCores).filter fun c => !late c).map domCore)) late
  else if stage s == 7 then bound7 s
  else if stage s == 8 then bound8 s
  else s

def execStageBoundExpiry (sites : BitVec 16) (s : State) : Host.Outcome State Fault Refusal := .next (stageBoundExpiry sites s)

/-! ### Stage 9 (R601, R602, R613, R617) -/

/-- A fenced core leaves its partition (R602). -/
def dropFenced (s : State) (x : Partition) : Partition :=
  { x with cores := BitVec.ofNat 64 (maskOf ((maskList x.cores.toNat 64).filter fun c => !(core s c).fenced)) }

/-- Firmware completes destroys and restores the partitions. -/
def restoreParts (s : State) : State :=
  let s := ((s.parts.filter fun e => e.2.mode == .destroying).map (·.1)).foldl tearDown s
  let ps := s.parts.foldl (fun (u : Table Partition) (e : Nat × Partition) => tput .reset u e.1 (dropFenced s e.2)) []
  let s := { s with parts := ps }
  (liveSites s).foldl (fun s i => putField s (Reg.memCfg i) 17 16 (tget 2 s.island.split i)) s

/-- Whether some site has usable cores. -/
def someUsable (s : State) : Bool :=
  (List.range 16).any fun i => regBit s (Reg.siteStat i) 2 && (siteCores i).any fun c => !(core s c).fenced

/-- Whether a site, a core, a Spring or a channel has failed. -/
def anyFailed (s : State) : Bool :=
  (List.range 16).any (fun i => siteFailed s i || reg s (Reg.siteFailCause i) != 0 || (site s i).failedTx.any (·.2)) ||
    (List.range 64).any (fun c => (core s c).fenced) || (List.range 10).any fun n => (spring s n).failed

/-- READY (R613): the module is ready, degraded or not; with no usable site the start holds. -/
def ready (s : State) : State :=
  if stage s != 9 || startFailed s || !weirServes s || regBit s Reg.globalStat 5 then s
  else
    let s := restoreParts s
    if !someUsable s then failStart s 5 10 (unitNo 0x00 0)
    else
      let s := if s.island.vkeepUsed then raiseFlag s Reg.powerFlags 4 else s
      let s := { s with island := { s.island with vkeepUsed := false } }
      discoveryStart (putBit (putBit s Reg.globalStat 5 true) Reg.globalStat 6 (anyFailed s))

def execReady (s : State) : Host.Outcome State Fault Refusal := .next (ready s)

end Sys2Proof.Machine
end

