-- ==== Sys2Proof/Machine/MaintPort.lean ====
section
/-! DEFINITION. The maintenance ports: MCTP over SMBus, the console UART and JTAG (R656 to R661). -/

namespace Sys2Proof.Machine

/-! ### MCTP (R656, R657) -/

/-- Completion bytes of a vendor-defined response. -/
def mctpOk : Byte := 0x00
def mctpMalformed : Byte := 0x01
def mctpRefused : Byte := 0x03

/-- The active Weir answers an MCTP request; without one the port does not acknowledge its address. -/
def mctp (s : State) (f : State → State × List Byte) : State :=
  if !weirServes s then s
  else
    let r := f s
    emit r.1 (.mctp r.2)

/-- The registers of GET_STATUS. -/
def statusRegs (s : State) : List Nat :=
  [Reg.globalStat, Reg.globalFw, Reg.faultWeir, Reg.powerStat, Reg.fabricStat].map (regView s)

def getStatus (s : State) : State := mctp s fun s => (s, mctpOk :: (statusRegs s).flatMap (leBytes 4))

def execGetStatus (s : State) : Host.Outcome State Fault Refusal := .next (getStatus s)

/-- Whether a range of housekeeping channels may be read. -/
def sensorRange (first count : Nat) : Bool := 1 ≤ count && count ≤ 32 && first + count ≤ 512

def sensorValues (s : State) (first count : Nat) : List Nat := (List.range count).map fun k => reg s (Reg.houseValue (first + k))

def getSensors (first count : Nat) (s : State) : State :=
  mctp s fun s => (s, if sensorRange first count then mctpOk :: (sensorValues s first count).flatMap (leBytes 8) else [mctpMalformed])

def execGetSensors (first count : Nat) (s : State) : Host.Outcome State Fault Refusal := .next (getSensors first count s)

def mctpLogRead (first max : Nat) (s : State) : State :=
  mctp s fun s =>
    if max == 0 || 4 < max then (s, [mctpMalformed])
    else
      let es := logFrom s (first % 2 ^ 32) max
      (markRead s es, mctpOk :: (leBytes 1 es.length ++ leBytes 4 (reg s Reg.faultLogOldest) ++ leBytes 4 (logNextAfter s es) ++
        es.flatMap logBytes))

def execMctpLogRead (first max : Nat) (s : State) : Host.Outcome State Fault Refusal := .next (mctpLogRead first max s)

def mctpLogCounters (s : State) : State := mctp s fun s => (s, mctpOk :: counterBytes s)

def execMctpLogCounters (s : State) : Host.Outcome State Fault Refusal := .next (mctpLogCounters s)

/-- MODULE_RESET (R657, R596): requested only with the low half of the serial number. -/
def mctpModuleReset (confirm : Word) (s : State) : State :=
  mctp s fun s =>
    if confirm.toNat == Config.serial.toNat % 2 ^ 32 then ({ s with start := { s.start with resetReq := true } }, [mctpOk])
    else (s, [mctpRefused])

def execMctpModuleReset (confirm : Word) (s : State) : Host.Outcome State Fault Refusal := .next (mctpModuleReset confirm s)

/-! The control commands of DSP0236 1.3: the response bytes are that specification's. PRESUMED, log 27. -/

/-- Set Endpoint ID: an identifier that DSP0236 reserves is not taken. -/
def setEndpointId (eid : Byte) (s : State) : State :=
  mctp s fun s =>
    if eid == 0 || eid == 0xFF then (s, [0x02])
    else ({ s with maint := { s.maint with eid := eid.toNat } }, [0x00, 0x00, eid, 0x00])

def execSetEndpointId (eid : Byte) (s : State) : Host.Outcome State Fault Refusal := .next (setEndpointId eid s)

def getEndpointId (s : State) : State := mctp s fun s => (s, [0x00, BitVec.ofNat 8 s.maint.eid, 0x00, 0x00])

def execGetEndpointId (s : State) : Host.Outcome State Fault Refusal := .next (getEndpointId s)

def getMctpVersionSupport (s : State) : State := mctp s fun s => (s, [0x00, 0x01, 0xF1, 0xF3, 0xF0, 0x00])

def execGetMctpVersionSupport (s : State) : Host.Outcome State Fault Refusal := .next (getMctpVersionSupport s)

def getMessageTypeSupport (s : State) : State := mctp s fun s => (s, [0x00, 0x01, 0x7E])

def execGetMessageTypeSupport (s : State) : Host.Outcome State Fault Refusal := .next (getMessageTypeSupport s)

def getVendorSupport (s : State) : State :=
  mctp s fun s => (s, [0x00, 0xFF, 0x00, (Config.pciVendorId >>> 8).setWidth 8, Config.pciVendorId.setWidth 8, 0x00, 0x00])

def execGetVendorDefinedMessageSupport (s : State) : Host.Outcome State Fault Refusal := .next (getVendorSupport s)

/-! ### The console: lines in (R658 to R660) -/

def codes (cs : List Char) : List Nat := cs.map Char.toNat

/-- The words of a line. -/
def lineWords : List Nat → List (List Nat)
  | [] => []
  | c :: cs =>
    if c == 32 then lineWords cs
    else match cs, lineWords cs with
      | d :: _, w :: ws => if d == 32 then [c] :: w :: ws else (c :: w) :: ws
      | _, ws => [c] :: ws

def digit? (base c : Nat) : Option Nat :=
  let v := if 48 ≤ c && c ≤ 57 then c - 48 else if 97 ≤ c && c ≤ 102 then c - 87 else if 65 ≤ c && c ≤ 70 then c - 55 else 99
  if v < base then some v else none

def number? (base : Nat) (cs : List Nat) : Option Nat :=
  if cs.isEmpty then none
  else cs.foldl (fun m c => m.bind fun v => (digit? base c).map fun d => base * v + d) (some 0)

/-- A decimal or 0x-prefixed number. -/
def parseNum? : List Nat → Option Nat
  | 48 :: 120 :: cs => number? 16 cs
  | cs => number? 10 cs

/-- The console's commands. -/
inductive ConCmd where
  | ver | stat | sensors | log | counters | baud
deriving DecidableEq, Repr

def rates : List Nat := [115200, 230400, 460800, 921600, 1000000, 2000000, 3000000]

/-- The command and numbers of a line, if it is a command that the module takes. -/
def parseLine? (line : List Nat) : Option (ConCmd × Nat × Nat) :=
  if 128 < line.length then none
  else match lineWords line with
    | [w] =>
      if w == codes ['v', 'e', 'r'] then some (.ver, 0, 0)
      else if w == codes ['s', 't', 'a', 't'] then some (.stat, 0, 0)
      else if w == codes ['c', 'o', 'u', 'n', 't', 'e', 'r', 's'] then some (.counters, 0, 0)
      else none
    | [w, a] =>
      match parseNum? a with
      | some b => if w == codes ['b', 'a', 'u', 'd'] && rates.any (· == b) then some (.baud, b, 0) else none
      | none => none
    | [w, a, b] =>
      match parseNum? a, parseNum? b with
      | some f, some n =>
        if w == codes ['s', 'e', 'n', 's', 'o', 'r', 's'] && sensorRange f n then some (.sensors, f, n)
        else if w == codes ['l', 'o', 'g'] && 1 ≤ n && n ≤ 16 then some (.log, f % 2 ^ 32, n)
        else none
      | _, _ => none
    | _ => none

/-! ### Lines out -/

def say (s : State) (line : List Char) : State := emit s (.console line)

def hexDigit (d : Nat) : Char := Char.ofNat (if d < 10 then 48 + d else 87 + d)

/-- The low `n` hex digits of a number, and the output form of a value. DESIGN CHOICE, log 27: fixed widths. -/
def hexDigits : Nat → Nat → List Char
  | 0, _ => []
  | n + 1, v => hexDigits n (v / 16) ++ [hexDigit (v % 16)]

def hex (n v : Nat) : List Char := '0' :: 'x' :: hexDigits n v

def spaced : List (List Char) → List Char
  | [] => []
  | [w] => w
  | w :: ws => w ++ ' ' :: spaced ws

def sayOk (s : State) : State := say s ['O', 'K']

/-- A line that is no command answers ERR; one that holds a flagged byte ERR FRAMING. -/
def sayErr (s : State) (line : List Nat) : State :=
  if line.any (256 ≤ ·) then say s ['E', 'R', 'R', ' ', 'F', 'R', 'A', 'M', 'I', 'N', 'G'] else say s ['E', 'R', 'R']

/-- Answer the lines at the front that hold no command. -/
def flushLines (s : State) : State :=
  let bad := s.maint.lines.takeWhile fun l => (parseLine? l).isNone
  bad.foldl sayErr { s with maint := { s.maint with lines := s.maint.lines.drop bad.length } }

/-- UART_FRAME (R659, R660): a byte arrives. CR or LF ends the line; a byte of a framing error is kept with its flag. An empty line
asks for nothing. DESIGN CHOICE, log 27. -/
def uartFrame (b : Byte) (bad : Bool) (s : State) : State :=
  if !weirServes s then s
  else
    let m := s.maint
    if !bad && (b == 13 || b == 10) then
      if m.line.isEmpty then s else flushLines { s with maint := { m with line := [], lines := m.lines ++ [m.line] } }
    else if 129 ≤ m.line.length then s
    else { s with maint := { m with line := m.line ++ [b.toNat + if bad then 256 else 0] } }

def execUartFrame (byte : Byte) (framingError : Bool) (s : State) : Host.Outcome State Fault Refusal :=
  .next (uartFrame byte framingError s)

/-- UART_BREAK (R659): the line being received is discarded, and the rate is 115,200 baud. -/
def uartBreak (s : State) : State := { s with maint := { s.maint with line := [], baud := 115200 } }

def execUartBreak (s : State) : Host.Outcome State Fault Refusal := .next (uartBreak s)

/-! ### The console's commands (R660) -/

/-- The oldest line that waits is executed, if it is this command. -/
def console (s : State) (cmd : ConCmd) (f : State → Nat → Nat → State) : State :=
  if !weirServes s then s
  else match s.maint.lines with
    | [] => s
    | l :: rest => match parseLine? l with
      | some (k, a, b) => if k == cmd then flushLines (f { s with maint := { s.maint with lines := rest } } a b) else s
      | none => s

/-- One line of values, and OK. -/
def sayValues (s : State) (vs : List (List Char)) : State := sayOk (say s (spaced vs))

def sayLines (s : State) (ls : List (List (List Char))) : State := sayOk (ls.foldl (fun s l => say s (spaced l)) s)

def consoleVer (s : State) : State :=
  console s .ver fun s _ _ => sayValues s [hex 8 (reg s Reg.globalFw), hex 16 Config.serial.toNat,
    hex 2 (field s Reg.globalIdent 15 8), hex 1 (weirNo s.weir.active)]

def execConsoleVer (s : State) : Host.Outcome State Fault Refusal := .next (consoleVer s)

def consoleStat (s : State) : State := console s .stat fun s _ _ => sayValues s ((statusRegs s).map (hex 8))

def execConsoleStat (s : State) : Host.Outcome State Fault Refusal := .next (consoleStat s)

def consoleSensors (s : State) : State :=
  console s .sensors fun s f n => sayLines s ((sensorValues s f n).map fun v => [hex 8 v, hex 8 (v / 2 ^ 32)])

def execConsoleSensors (s : State) : Host.Outcome State Fault Refusal := .next (consoleSensors s)

/-- The eight words of a log entry. -/
def logWords (e : LogEntry) : List Nat :=
  let bs := logBytes e
  (List.range 8).map fun k => leNat ((bs.drop (8 * k)).take 8)

def consoleLog (s : State) : State :=
  console s .log fun s f n => sayLines s ((logFrom s f n).map fun e => (logWords e).map (hex 16))

def execConsoleLog (s : State) : Host.Outcome State Fault Refusal := .next (consoleLog s)

def consoleCounters (s : State) : State :=
  console s .counters fun s _ _ =>
    let wide := (List.range 16).map (fun k => reg s (Reg.faultClass k)) ++ [Reg.faultLost, Reg.faultLateEvents, Reg.faultMerged].map (reg s)
    sayValues s (wide.map (hex 16) ++ [Reg.faultLogNext, Reg.faultLogOldest].map fun r => hex 8 (reg s r))

def execConsoleCounters (s : State) : Host.Outcome State Fault Refusal := .next (consoleCounters s)

/-- CONSOLE_BAUD (R660): OK goes out at the old rate. -/
def consoleBaud (s : State) : State :=
  console s .baud fun s b _ =>
    let s := sayOk s
    { s with maint := { s.maint with baud := b } }

def execConsoleBaud (s : State) : Host.Outcome State Fault Refusal := .next (consoleBaud s)

/-! ### JTAG (R661) -/

/-- JTAG instructions, as `ir` names them. -/
def irExtest : Nat := 0
def irIdcode : Nat := 1
def irSample : Nat := 2
def irBypass : Nat := 3
def irStatus : Nat := 4
def irLog : Nat := 5

/-- Another instruction than EXTEST: leaving EXTEST starts a module reset. -/
def jtagIr (s : State) (k : Nat) : State :=
  let left := s.maint.extest && k != irExtest
  { s with maint := { s.maint with ir := k, extest := s.maint.extest && k == irExtest },
           start := { s.start with resetReq := s.start.resetReq || left } }

/-- `n` bits of a number, least significant first. -/
def bitsOf (n v : Nat) : List Bool := (List.range n).map (bit v)

/-- BYPASS: one bit of delay, which starts at 0. -/
def bypass (tdi : List Bool) (s : State) : State := emit (jtagIr s irBypass) (.jtag ((false :: tdi).take tdi.length))

def execBypass (tdi : List Bool) (s : State) : Host.Outcome State Fault Refusal := .next (bypass tdi s)

def idcodeValue : Nat := 0x1001_6000 + 2 * Config.jedecCode.toNat + 1

def idcode (s : State) : State := emit (jtagIr s irIdcode) (.jtag (bitsOf 32 idcodeValue))

def execIdcode (s : State) : Host.Outcome State Fault Refusal := .next (idcode s)

/-- The levels of row B, bit k that of position k + 1: THERMTRIP_N and READY_N are low while the module drives them, and PRESENT_N is
tied to ground (R651, R653); the rest is as it stands outside. The order of the scan is a DESIGN CHOICE, log 27. -/
def rowB (s : State) (pins : BitVec 80) : BitVec 80 :=
  let low (b : Bool) (k : Nat) : BitVec 80 := if b then BitVec.ofNat 80 (2 ^ k) else 0
  pins &&& ~~~(low s.island.trip.isSome 9 ||| low (regBit s Reg.globalStat 5) 10 ||| low true 11)

/-- SAMPLE/PRELOAD: the pins of row B are shifted out, and what is shifted in is what EXTEST drives first. -/
def samplePreload (pins shiftIn : BitVec 80) (s : State) : State :=
  let s := jtagIr s irSample
  emit { s with maint := { s.maint with pinDrive := shiftIn } } (.jtag (bitsOf 80 (rowB s pins).toNat))

def execSamplePreload (pins : BitVec 80) (shiftIn : BitVec 80) (s : State) : Host.Outcome State Fault Refusal :=
  .next (samplePreload pins shiftIn s)

/-- EXTEST: the pins of row B are driven; its end starts a module reset. -/
def extest (drive : BitVec 80) (leave : Bool) (s : State) : State :=
  let s := jtagIr s irExtest
  { s with maint := { s.maint with pinDrive := drive, extest := !leave },
           start := { s.start with resetReq := s.start.resetReq || leave } }

def execExtest (drive : BitVec 80) (leave : Bool) (s : State) : Host.Outcome State Fault Refusal := .next (extest drive leave s)

/-- STATUS_RD: `GLOBAL_STAT`, then `FAULT_WEIR`. It needs no Weir. -/
def statusRd (s : State) : State :=
  emit (jtagIr s irStatus) (.jtag (bitsOf 32 (regView s Reg.globalStat) ++ bitsOf 32 (regView s Reg.faultWeir)))

def execStatusRd (s : State) : Host.Outcome State Fault Refusal := .next (statusRd s)

/-- LOG_RD: one entry of the log by its number; zeros where the log does not hold it (DESIGN CHOICE, log 27). -/
def logRd (n : Nat) (s : State) : State :=
  let bs : List Bool := match s.faults.log.find? fun e => e.number == n with
    | some e => (logBytes e).flatMap fun b => bitsOf 8 b.toNat
    | none => bitsOf 512 0
  emit (jtagIr s irLog) (.jtag bs)

def execLogRd (number : Nat) (s : State) : Host.Outcome State Fault Refusal := .next (logRd number s)

end Sys2Proof.Machine
end

