-- ==== Sys2Proof/Machine/Parity.lean ====
section
/-! DEFINITION. Parity of configuration registers and of the tables that firmware writes: what a mismatch disables, and what
restores it (R625 to R628). -/

namespace Sys2Proof.Machine

/-- The register of a parity unit and the bit of it that a stored bit is: none for a table without a register of its own. A bit
that the register does not store stands nowhere. -/
def upsetReg (u : ParityUnit) (b : Nat) : Option (Nat × Nat) :=
  match u with
  | .clock => if b == 0 then some (Reg.clockRefcfg, 0) else none
  | .cperf c => if b < 2 then some (Reg.cperfCtl c.val, b) else none
  | .txcal i c => if b < 32 && b != 30 && (b < 12 || 20 ≤ b) then some (Reg.lightTxcal i.val c.val, b) else none
  | .rxcal i r l => if b < 32 && b != 30 && (b < 12 || 20 ≤ b) then some (Reg.lightRxcal i.val r.val l.val, b) else none
  | .key i e => if b < 32 then some (Reg.basinKey i.val e.val, b) else none
  | .dmaCtl ch => if b < 3 then some (Reg.dmaCtl ch.val, b) else none
  | .qpSel => if b < 18 then some (Reg.queueQpSel, b) else none
  | .msix v => if b < 128 then some (msixAt 0 v.val (b / 32), b % 32) else none
  | _ => none

/-- Flip a stored bit. -/
def flipBit (s : State) (u : ParityUnit) (b : Nat) : State :=
  match upsetReg u b with
  | some (off, i) => putBit s off i (!regBit s off i)
  | none => s

/-- The fault unit, the partition and the source of a parity unit (R535, R540, R626). -/
def upsetUnit (s : State) (u : ParityUnit) : Nat × Nat × Nat :=
  match u with
  | .clock => (0x0F00_0010, 0xFF, srcTile 4)
  | .time => (0x0E00_0004, 0xFF, srcTile 4)
  | .cperf c => (unitNo 0x01 c.val, partOfCore s c.val, srcCore c.val)
  | .txcal i c => (unitNo 0x0A (256 * i.val + c.val), 0xFF, srcPort i.val)
  | .rxcal i r _ => (unitNo 0x0B (1024 * i.val + r.val), 0xFF, srcPort i.val)
  | .key i _ => (unitNo 0x02 i.val, 0xFF, srcPort i.val)
  | .siteTable i _ => (unitNo 0x02 i.val, 0xFF, srcPort i.val)
  | .outletTable o _ => (unitNo 0x06 o.val, 0xFF, srcOutlet o.val)
  | .dmaCtl ch => (unitNo 0x14 ch.val, 0xFF, srcHost)
  | .qpSel => (unitNo 0x00 0, 0xFF, srcHost)
  | .msix _ => (unitNo 0x00 0, 0xFF, srcHost)
  | .qp q => (unitNo 0x15 q.val, fnPart s (qp s q.val).owner, srcHost)
  | .setpoint d => (unitNo 0x12 d.val, 0xFF, srcTile 4)

/-- Whether the domain that holds a unit is on and out of reset. -/
def unitHeld (s : State) (u : ParityUnit) : Bool :=
  match u with
  | .clock | .time => domOn s (domTile 4)
  | .cperf c => blockHeld s (Reg.cperfCtl c.val)
  | .txcal i _ => blockHeld s (Reg.lightStat i.val)
  | .rxcal i _ _ => blockHeld s (Reg.lightStat i.val)
  | .key i _ => blockHeld s (Reg.basinStat i.val)
  | .siteTable i _ => blockHeld s (Reg.basinStat i.val)
  | .outletTable o _ => domOn s (domOutlet o.val)
  | .dmaCtl _ | .qpSel | .msix _ => domOn s domHost
  | .qp q => domOn s domHost && (qp s q.val).mode != 0
  | .setpoint _ => domOn s (domTile 4)

/-- What a unit's disabling changes beyond the checks that look its mismatch up. -/
def disableUnit (s : State) (u : ParityUnit) : State :=
  match u with
  | .clock => putBit s Reg.clockCtrl 0 false
  | .time => putBit (putBit s Reg.timeStat 0 true) Reg.timeCtrl 0 false
  | .cperf c => putBit s (Reg.cperfStat c.val) 0 true
  | .txcal i c => if (ringsOn s (8 * i.val + c.val / 32) (c.val % 32)).isEmpty then failIndex s i.val c.val
      else failChannel s i.val (8 * i.val + c.val / 32) (c.val % 32)
  | .rxcal i r l =>
    match tfind (site s i.val).rings r.val with
    | some q => if q.lambda == l.val then failRing s i.val r.val else s
    | none => s
  | .qp q => raiseFlag (modQp s q.val fun x => { x with mode := 2 }) Reg.queueFlags 2
  | _ => s

/-- PARITY_MISMATCH (R625 to R627): a stored bit has flipped, and the mismatch is found: it is reported, counted and disables the
unit until the unit is restored. A later upset of a unit whose mismatch stands changes the value only. A setpoint is voted, and its
upset is corrected at once. -/
def parityMismatch (u : ParityUnit) (b : Nat) (s : State) : State :=
  if !unitHeld s u then s
  else
    let q := upsetUnit s u
    match u with
    | .setpoint _ => raise s 15 1 q.1 q.2.1 0 0 q.2.2
    | _ =>
      let stood := upsetIn s u
      let s := flipBit { s with upsets := s.upsets ++ [(u, b)] } u b
      if stood then s
      else
        let s := raise s 15 1 q.1 q.2.1 0 0 q.2.2
        let s := raiseFlag (addReg (putReg s Reg.globalParityUnit q.1) Reg.globalParityCount 1) Reg.globalFlags 1
        disableUnit s u

def execParityMismatch (unit : ParityUnit) (bit : Nat) (s : State) : Host.Outcome State Fault Refusal :=
  .next (parityMismatch unit bit s)

/-- Put back the bits that have flipped in a unit, and end its mismatch. -/
def putBack (s : State) (u : ParityUnit) : State :=
  endUpset ((s.upsets.filter fun e => e.1 == u).foldl (fun s e => flipBit s e.1 e.2) s) (· == u)

/-- Recalibrate a channel for an entry whose parity fails, unless the activity is already asked for. -/
def recalibrate (s : State) (g l : Nat) : State :=
  if (liveActs s).any fun a => a.opcode == opCc && a.guide == g && a.lambda == l then s
  else (requestAct s { blankActivity opCc true with guide := g, lambda := l }).1

/-- PARITY_RESTORE (R626): what restores a unit by itself: the island reloads a key entry, and firmware rewrites its own tables while a
Weir serves. The units that PF0 rewrites, and a queue pair, are not restored here. -/
def parityRestore (u : ParityUnit) (s : State) : State :=
  if !upsetIn s u then s
  else
    match u with
    | .key _ _ => putBack s u
    | .cperf _ | .dmaCtl _ | .qpSel | .msix _ | .qp _ | .setpoint _ => s
    | .clock =>
      if !weirServes s then s
      else
        let s := if s.upsets.any fun e => e.1 == u && e.2 == 0 then putReg s Reg.clockRefcfg (if s.record.refaMode then 1 else 0) else s
        enableClock (endUpset s (· == u))
    | .time =>
      if !weirServes s then s
      else putBit (putBit (endUpset s (· == u)) Reg.timeStat 0 (coasting s)) Reg.timeCtrl 0 true
    | .txcal i c => if weirServes s then recalibrate s (8 * i.val + c.val / 32) (c.val % 32) else s
    | .rxcal _ r l => if weirServes s then recalibrate s (r.val / 8) l.val else s
    | .siteTable _ _ | .outletTable _ _ => if weirServes s then putBack s u else s

def execParityRestore (unit : ParityUnit) (s : State) : Host.Outcome State Fault Refusal := .next (parityRestore unit s)

end Sys2Proof.Machine
end

