-- ==== Sys2Proof/Machine/Slots.lean ====
section
/-! DEFINITION. Bundles and the C slot (R87, R196 to R198, R212 to R214, R102, R103, R167). -/

namespace Sys2Proof.Machine

/-! ### Decoding a bundle (R196, R199, R205, R209, R212) -/

def fin (n v : Nat) (h : 0 < n := by decide) : Fin n := ⟨v % n, Nat.mod_lt _ h⟩

def slotA (w : Nat) : SlotOp :=
  match bits w 63 58 with
  | 0x01 => .ldtd (fin 16 (bits w 57 54)) (BitVec.ofNat 12 (bits w 53 42))
  | 0x02 => .mma { arrays := BitVec.ofNat 16 (bits w 57 42), ta := fin 16 (bits w 41 38), tb := fin 16 (bits w 37 34),
                   acc := fin 2 (bits w 33 33), zero := bit w 32, wlo := BitVec.ofNat 10 (bits w 31 22),
                   h := fin 16 (bits w 21 18) }
  | 0x03 => .merge { arrays := BitVec.ofNat 16 (bits w 57 42), ta := fin 16 (bits w 41 38), acc := fin 2 (bits w 33 33),
                     wlo := BitVec.ofNat 10 (bits w 31 22), h := fin 16 (bits w 21 18) }
  | 0x04 => .drain { arrays := BitVec.ofNat 16 (bits w 57 42), td := fin 16 (bits w 41 38), acc := fin 2 (bits w 33 33),
                     port := bit w 32, move := BitVec.ofNat 16 (bits w 31 16) }
  | _ => .nop

/-- The operation of a V-slot opcode above VST (R206). -/
def vecOpOf : Nat → Option VecOp
  | 0x03 => some .add | 0x04 => some .sub | 0x05 => some .mul | 0x06 => some .fma | 0x07 => some .min | 0x08 => some .max
  | 0x09 => some .abs | 0x0A => some .neg | 0x0B => some .cvt | 0x0C => some .cvtmx | 0x0D => some .unpkmx
  | 0x0E => some .exp2 | 0x0F => some .log2 | 0x10 => some .rcp | 0x11 => some .rsq | 0x12 => some .tanh
  | 0x13 => some .rmax | 0x14 => some .rsum | 0x15 => some .bcast
  | _ => none

def slotV (w : Nat) : SlotOp :=
  let m : VMemF := { lfmt := fin 4 (bits w 57 56), span := fin 16 (bits w 55 52), dst := fin 64 (bits w 51 46),
                     addr := BitVec.ofNat 16 (bits w 45 30) }
  match bits w 63 58 with
  | 0x01 => .vld m
  | 0x02 => .vst m
  | o => match vecOpOf o with
    | some op => .vec op { lfmt := m.lfmt, span := m.span, dst := m.dst, src1 := fin 64 (bits w 45 40),
                           src2 := fin 64 (bits w 39 34), src3 := fin 64 (bits w 33 28), xfmt := fin 16 (bits w 27 24) }
    | none => .nop

def slotM (w : Nat) : SlotOp :=
  match bits w 63 58 with
  | 0x01 => .move (BitVec.ofNat 16 (bits w 57 42))
  | _ => .nop

def slotC (w : Nat) : SlotOp :=
  match bits w 63 58 with
  | 0x01 => .wait (fin 32 (bits w 57 53)) (fin 256 (bits w 52 45))
  | 0x02 => .post { counter := fin 32 (bits w 57 53), amount := fin 256 (bits w 52 45), after := BitVec.ofNat 3 (bits w 44 42),
                    target := fin 8 (bits w 41 39), chan := BitVec.ofNat 12 (bits w 38 27), dstCore := fin 64 (bits w 26 21) }
  | 0x03 => .close
  | 0x04 => .setsel (BitVec.ofNat 23 (bits w 57 35))
  | 0x05 => .fault (BitVec.ofNat 16 (bits w 57 42))
  | 0x06 => .rdstat (BitVec.ofNat 20 (bits w 57 38))
  | _ => .nop

/-- The four slots of a bundle's 256 bits. -/
def bundleOf (w : Nat) : SlotOp × SlotOp × SlotOp × SlotOp :=
  (slotA (bits w 63 0), slotV (bits w 127 64), slotM (bits w 191 128), slotC (bits w 255 192))

/-- The slot whose unit runs an operation. -/
def slotOf : SlotOp → Slot
  | .ldtd _ _ | .mma _ | .merge _ | .drain _ => .a
  | .vld _ | .vst _ | .vec _ _ => .v
  | .move _ => .m
  | _ => .c

/-- Hand an operation to its unit, or to the C slot with the operations issued to each unit so far. A NOP does nothing. -/
def enqueue (y : CoreState) (op : SlotOp) : CoreState :=
  if op = .nop then y
  else match slotOf op with
    | .a => { y with aQ := y.aQ ++ [op], aIssued := y.aIssued + 1 }
    | .v => { y with vQ := y.vQ ++ [op], vIssued := y.vIssued + 1 }
    | .m => { y with mQ := y.mQ ++ [op], mIssued := y.mIssued + 1 }
    | .c => { y with cQ := y.cQ ++ [{ op := op, needA := y.aIssued, needV := y.vIssued, needM := y.mIssued }] }

def isWait : SlotOp → Bool
  | .wait _ _ => true
  | _ => false

def isClose : SlotOp → Bool
  | .close => true
  | _ => false

/-- Whether the issue stage may issue: no wait stalls it, and the core has not closed (R87, R102, R162). The other operations of the C
slot hold up no later bundle (R87). -/
def canIssue (y : CoreState) : Bool :=
  !y.closed && y.stalled.isNone && y.held.isEmpty && !y.cQ.any fun o => isWait o.op || isClose o.op

/-- BUNDLE_ISSUE (R87, R196, R197): the next bundle's four slots start together, except that a WAIT holds the other three. -/
def bundleIssue (c : Nat) (s : State) : State :=
  match runCtx? s c with
  | none => s
  | some x =>
    match ctxCore? x c with
    | none => s
    | some k =>
      let y := core s c
      if !canIssue y || k.bundleCount ≤ y.pc then s
      else
        let b := bundleOf (leNat (loadBytes s (k.stream + k.bundleOff + 32 * y.pc) 32))
        let y := { y with pc := y.pc + 1 }
        let y := if isWait b.2.2.2 then { y with held := [b.1, b.2.1, b.2.2.1] }
          else enqueue (enqueue (enqueue y b.1) b.2.1) b.2.2.1
        perfAdd (putCore s c (enqueue y b.2.2.2)) c (Reg.cperfIssue c) 1

def execBundleIssue (core : CoreNo) (s : State) : Host.Outcome State Fault Refusal := .next (bundleIssue core.val s)

/-- NOP (R196): does nothing. -/
def execNop (_core : CoreNo) (_slot : Slot) (s : State) : Host.Outcome State Fault Refusal := .next s

/-! ### Waits and posts -/

/-- A wait completes: it takes its amount, and the operations its bundle held start (R102, R197). -/
def passWait (s : State) (x : Context) (c n amount : Nat) : State :=
  let s := modCtxCore s x.handle c fun k => { k with counters := tput 0 k.counters n (counter k n - amount) }
  modCore s c fun y => y.held.foldl enqueue { y with stalled := none, held := [] }

/-- WAIT (R102): it completes when its counter holds the amount, and otherwise stalls the issue stage. -/
def wait (c : Nat) (n : Fin 32) (amount : Fin 256) (s : State) : State :=
  runOp s c .c (.wait n amount) (fun y => y.stalled.isNone) fun x k _ s =>
    if amount.val ≤ counter k n.val then passWait s x c n.val amount.val
    else modCore s c fun y => { y with stalled := some (n.val, amount.val) }

def execWait (core : CoreNo) (counter : Fin 32) (amount : Fin 256) (s : State) : Host.Outcome State Fault Refusal :=
  .next (wait core.val counter amount s)

/-- WAIT_RELEASE (R102): a stalled wait completes once its counter has reached the amount. -/
def waitRelease (c : Nat) (s : State) : State :=
  match runCtx? s c, (core s c).stalled with
  | some x, some w =>
    match ctxCore? x c with
    | some k => if w.2 ≤ counter k w.1 then passWait s x c w.1 w.2 else s
    | none => s
  | _, _ => s

def execWaitRelease (core : CoreNo) (s : State) : Host.Outcome State Fault Refusal := .next (waitRelease core.val s)

/-- POST (R213): applied once every operation of the slots that AFTER names has completed, those of its own bundle included. -/
def post (c : Nat) (f : PostF) (s : State) : State :=
  let o := (core s c).cQ.head?
  runOp s c .c (.post f) (fun y => y.stalled.isNone) fun _ _ _ s =>
    runPosts (modCore s c fun y =>
      { y with posts := y.posts ++ [{ f := f, needA := (o.map (·.needA)).getD 0, needV := (o.map (·.needV)).getD 0,
                                      needM := (o.map (·.needM)).getD 0 }] }) c

def execPost (core : CoreNo) (f : PostF) (s : State) : Host.Outcome State Fault Refusal := .next (post core.val f s)

/-! ### The other C-slot operations (R212) -/

/-- CLOSE (R161, R214): ends the core's part of the phase. -/
def close (c : Nat) (s : State) : State :=
  runOp s c .c .close (fun y => y.stalled.isNone) fun _ _ _ s => modCore s c fun y => { y with closed := true }

def execClose (core : CoreNo) (s : State) : Host.Outcome State Fault Refusal := .next (close core.val s)

/-- SETSEL (R167): the select register takes a word of the region, with what the decoder reports of it (R99). -/
def setsel (c : Nat) (word : BitVec 23) (ecc : EccList) (s : State) : State :=
  runOp s c .c (.setsel word) (fun y => y.stalled.isNone) fun x k _ s =>
    if regionOk x (4 * word.toNat) 4 then
      let r := loadRegion (decodeRegion s k ecc (4 * word.toNat) 4) x k (4 * word.toNat) 4
      modCore r.1 c fun y => { y with sel := BitVec.ofNat 32 (leNat r.2.1) }
    else s

def execSetsel (core : CoreNo) (word : Reads (BitVec 23)) (s : State) : Host.Outcome State Fault Refusal :=
  .next (setsel core.val word.op word.ecc s)

/-- FAULT (R212): raises PLAN_RAISED with its code, which the log carries (R182). -/
def faultOp (c : Nat) (code : BitVec 16) (s : State) : State :=
  runOp s c .c (.fault code) (fun y => y.stalled.isNone) fun x _ _ s => latch s c x causeRaised code.toNat

def execFault (core : CoreNo) (code : BitVec 16) (s : State) : Host.Outcome State Fault Refusal :=
  .next (faultOp core.val code s)

/-- The eight words that RDSTAT writes. -/
def statWords (y : CoreState) : List Nat := [y.below, y.invalid, y.sat, y.vflags.toNat, 0, 0, 0, 0]

/-- RDSTAT (R212): BELOW, INVALID, SAT and the sticky flags. -/
def rdstat (c : Nat) (off : BitVec 20) (s : State) : State :=
  runOp s c .c (.rdstat off) (fun y => y.stalled.isNone) fun x k _ s =>
    if regionOk x (32 * off.toNat) 32 then
      storeRegion s k (32 * off.toNat) ((statWords (core s c)).flatMap (leBytes 4)) []
    else s

def execRdstat (core : CoreNo) (off : BitVec 20) (s : State) : Host.Outcome State Fault Refusal :=
  .next (rdstat core.val off s)

/-- TOKRATE_WINDOW (R116, R117): the window's replica tokens, whatever ENABLE says; REPLICA counts them while the counters
run. -/
def tokrateWindow (c : Nat) (tokens : Word) (s : State) : State :=
  perfAdd (putReg s (Reg.cperfTokrate c) tokens.toNat) c (Reg.cperfReplica c) tokens.toNat

def execTokrateWindow (core : CoreNo) (tokens : Word) (s : State) : Host.Outcome State Fault Refusal :=
  .next (tokrateWindow core.val tokens s)

end Sys2Proof.Machine
end

