-- ==== Sys2Proof/Machine/Container.lean ====
section
/-! DEFINITION. The plan container (R188 to R193, R215 to R219) and the checks that its bytes, its traced streams and its
placement must pass (R156, R194 to R214, R220). -/

namespace Sys2Proof.Machine

/-! ### The image -/

/-- A little-endian number of the image: bytes past its end read 0. -/
def rd (m : Array Byte) (off n : Nat) : Nat := leNat ((List.range n).map fun i => m.getD (off + i) 0)

/-- The header (R188). -/
structure PlanHead where
  planId : Nat
  size : Nat
  cores : Nat
  sites : Nat
  flags : Nat
  region : Nat
  lastPos : Nat
  phases : Nat
  schedules : Nat
  selects : Nat
  phaseOff : Nat
  schedOff : Nat
  selectOff : Nat
  dirOff : Nat
deriving DecidableEq, Repr

def planHead (m : Array Byte) : PlanHead :=
  { planId := rd m 8 8, size := rd m 0x10 8, cores := rd m 0x18 1, sites := rd m 0x19 1, flags := rd m 0x1A 2,
    region := rd m 0x1C 4, lastPos := rd m 0x20 4, phases := rd m 0x24 2, schedules := rd m 0x26 2, selects := rd m 0x28 2,
    phaseOff := rd m 0x30 8, schedOff := rd m 0x38 8, selectOff := rd m 0x40 8, dirOff := rd m 0x48 8 }

/-- Logical cores of the last logical site. -/
def lastCores (h : PlanHead) : Nat := h.cores - 4 * (h.sites - 1)

def lastByte (h : PlanHead) (k : Nat) : Nat := h.lastPos / 256 ^ k % 256

/-- The local position of a logical core (R189). -/
def localPos (h : PlanHead) (lc : Nat) : Nat := if lc < 4 * (h.sites - 1) then lc % 4 else lastByte h (lc - 4 * (h.sites - 1))

/-- The local positions that a logical site uses. -/
def sitePositions (h : PlanHead) (j : Nat) : List Nat :=
  ((List.range h.cores).filter fun lc => lc / 4 == j).map (localPos h)

/-- LAST_POS meets R189. -/
def lastPosOk (h : PlanHead) : Bool :=
  let ps := (List.range (lastCores h)).map (lastByte h)
  ps.all (· ≤ 3) && ps.eraseDups.length == ps.length && ((List.range 4).all fun k => k < lastCores h || lastByte h k == 0xFF) &&
    (lastCores h != 4 || h.lastPos == 0x03020100)

/-- Rule 4 of R220 on the header alone (R156). -/
def headCountsOk (h : PlanHead) : Bool :=
  1 ≤ h.cores && h.cores ≤ 64 && h.sites == (h.cores + 3) / 4 && 65536 ≤ h.region && h.region ≤ 33554432 && h.region % 65536 == 0 &&
    1 ≤ h.phases && h.phases ≤ 4096 && 1 ≤ h.schedules && h.schedules ≤ 1024 && h.selects ≤ 1024 &&
    ((h.selects == 0) == (h.selectOff == 0)) && lastPosOk h

/-- FLAGS, the last of what R156 has checked on the header alone: its reserved bits fail rule 5 of R220. DEDUCED, log 22. -/
def headFlagsOk (h : PlanHead) : Bool := h.flags < 2

/-- Rule 1 of R220, on the first 256 bytes and LENGTH. -/
def headRule1 (m : Array Byte) (len : Nat) : Bool :=
  256 ≤ len && rd m 0 4 == 0x4E4C5054 && rd m 4 2 == 0x0100 && rd m 6 2 == 256 && rd m 0x10 8 == len

/-- Rule 2 of R220: CHECK is the CRC-32C of the container with CHECK taken as zero (R190). -/
def headRule2 (m : Array Byte) : Bool :=
  let bs := m.toList
  (crc32c (bs.take 0xFC ++ [0, 0, 0, 0] ++ bs.drop 0x100)).toNat == rd m 0xFC 4

/-! ### Sections and tables -/

/-- An entry of the core directory (R191). -/
structure DirEntry where
  off : Nat
  size : Nat
  constOff : Nat
  constSize : Nat
  resv : Nat
deriving DecidableEq, Repr

def dirEntry (m : Array Byte) (h : PlanHead) (lc : Nat) : DirEntry :=
  let b := h.dirOff + 32 * lc
  { off := rd m b 8, size := rd m (b + 8) 8, constOff := rd m (b + 16) 8, constSize := rd m (b + 24) 4, resv := rd m (b + 28) 4 }

/-- A stream header (R193). -/
structure StreamHead where
  entryOff : Nat
  tdOff : Nat
  tdCount : Nat
  moveOff : Nat
  moveCount : Nat
  bundleOff : Nat
  bundleCount : Nat
  resv : Nat
deriving DecidableEq, Repr

def streamHead (m : Array Byte) (o : Nat) : StreamHead :=
  { entryOff := rd m o 4, tdOff := rd m (o + 4) 4, tdCount := rd m (o + 8) 2, moveOff := rd m (o + 0x0C) 4,
    moveCount := rd m (o + 0x10) 4, bundleOff := rd m (o + 0x14) 4, bundleCount := rd m (o + 0x18) 4,
    resv := rd m (o + 0x0A) 2 + rd m (o + 0x1C) 36 }

/-- Two ranges that share no byte. -/
def apart (a b : Nat × Nat) : Bool := a.2 == 0 || b.2 == 0 || a.1 + a.2 ≤ b.1 || b.1 + b.2 ≤ a.1

def disjoint : List (Nat × Nat) → Bool
  | [] => true
  | r :: rs => rs.all (apart r) && disjoint rs

/-- The ranges of a stream section: its header, its tables and its bundles. -/
def streamParts (h : PlanHead) (t : StreamHead) : List (Nat × Nat) :=
  [(0, 64), (t.entryOff, 4 * h.phases), (t.tdOff, 16 * t.tdCount), (t.moveOff, 32 * t.moveCount), (t.bundleOff, 32 * t.bundleCount)]

/-- Whether the tables of a stream section lie within it and within the container, so that they can be read. -/
def streamFits (m : Array Byte) (h : PlanHead) (e : DirEntry) : Bool :=
  let t := streamHead m e.off
  64 ≤ e.size && e.off + e.size ≤ h.size && (streamParts h t).all fun r => r.2 == 0 || r.1 + r.2 ≤ e.size

/-- A schedule's index entry: the offset and number of its channel entries (R215). -/
def schedIndex (m : Array Byte) (h : PlanHead) (i : Nat) : Nat := rd m (h.schedOff + 8 * i) 8

def chanWord (m : Array Byte) (h : PlanHead) (i j : Nat) : Nat := rd m (h.schedOff + bits (schedIndex m h i) 31 0 + 8 * j) 8

def chanEntryOf (w : Nat) : ChanEntry :=
  { barrier := bits w 63 60 == 1, src := bits w 59 56, chan := bits w 55 48, dst := BitVec.ofNat 16 (bits w 47 32) }

def schedTable (m : Array Byte) (h : PlanHead) (i : Nat) : List ChanEntry :=
  (List.range (minNat (bits (schedIndex m h i) 47 32) 4096)).map fun j => chanEntryOf (chanWord m h i j)

/-- The bytes that the schedule section takes. -/
def schedExtent (m : Array Byte) (h : PlanHead) : Nat :=
  (List.range h.schedules).foldl (fun n i =>
    let x := schedIndex m h i
    maxNat n (bits x 31 0 + 8 * bits x 47 32)) (8 * h.schedules)

/-- Every section of the container (R188). -/
def planSections (m : Array Byte) (h : PlanHead) : List (Nat × Nat) :=
  [(0, 256), (h.phaseOff, 16 * h.phases), (h.schedOff, schedExtent m h), (h.selectOff, 128 * h.selects), (h.dirOff, 32 * h.cores)] ++
    (List.range h.cores).flatMap fun lc =>
      let e := dirEntry m h lc
      [(e.off, e.size), (e.constOff, e.constSize)]

/-- A phase-table entry (R218). -/
def phaseOf (m : Array Byte) (h : PlanHead) (p : Nat) : Phase :=
  let b := h.phaseOff + 16 * p
  let w := rd m b 4
  { sched := bits w 9 0, ending := bits w 17 16, hold := bit w 18, selector := bits w 29 24, visits := rd m (b + 4) 2,
    target := bits (rd m (b + 8) 4) 11 0 }

/-- The entries of a SELECT table, as pairs of THRESHOLD and the word of NEXT and VALID (R219). -/
def selectWords (m : Array Byte) (h : PlanHead) (t : Nat) : List (Nat × Nat) :=
  (List.range 16).map fun e => (rd m (h.selectOff + 128 * t + 8 * e) 4, rd m (h.selectOff + 128 * t + 8 * e + 4) 4)

/-- The valid entries: those before the first that is not. -/
def selectOf (ws : List (Nat × Nat)) : List (Nat × Nat) := (ws.takeWhile fun w => bit w.2 31).map fun w => (w.1, bits w.2 11 0)

/-- The container as far as the tables are concerned. -/
structure Plan where
  m : Array Byte
  h : PlanHead
  phases : List Phase
  scheds : List (List ChanEntry)
  selects : List (List (Nat × Nat))

def planOf (m : Array Byte) : Plan :=
  let h := planHead m
  { m := m, h := h, phases := (List.range h.phases).map (phaseOf m h), scheds := (List.range h.schedules).map (schedTable m h),
    selects := (List.range h.selects).map fun t => selectOf (selectWords m h t) }

/-! ### Findings -/

/-- A check of R156, or a rule of R220 under check 11, that a container fails. -/
inductive Finding where
  | check (n : Nat)
  | rule (n : Nat)
deriving DecidableEq, Repr

def need (ok : Bool) (f : Finding) : List Finding := if ok then [] else [f]

/-- Bits [hi:lo] of a word are zero. -/
def clear (w hi lo : Nat) : Bool := bits w hi lo == 0

/-! ### Rules 3, 4, 5 and 11 over the tables -/

/-- R217 over one schedule of `n` logical sites. -/
def schedMeets (n : Nat) (es : List ChanEntry) : Bool :=
  let key (e : ChanEntry) : Nat := 256 * e.src + e.chan
  let rising := (es.zip (es.drop 1)).all fun t => key t.1 < key t.2
  let sound := es.all fun e => e.src < n && e.dst.toNat < 2 ^ n && !bit e.dst.toNat e.src && (e.barrier || e.dst != 0) &&
    (!e.barrier || e.dst.toNat + 2 ^ e.src == 2 ^ n - 1)
  let count (j : Nat) : Nat := (es.filter fun e => e.barrier && e.src == j).length
  rising && sound && (List.range n).all fun j => count j == (if n == 1 then 0 else 1)

def schedFindings (m : Array Byte) (h : PlanHead) : List Finding :=
  let xs := (List.range h.schedules).map (schedIndex m h)
  (xs.flatMap fun x => need (clear x 63 48) (.rule 5) ++
    need (bits x 47 32 == 0 || 8 * h.schedules ≤ bits x 31 0) (.rule 3) ++
    need (bits x 31 0 % 8 == 0 && bits x 47 32 ≤ 4096) (.rule 11)) ++
  need (disjoint (xs.map fun x => (bits x 31 0, 8 * bits x 47 32))) (.rule 3) ++
  (List.range h.schedules).flatMap fun i =>
    ((List.range (minNat (bits (schedIndex m h i) 47 32) 4096)).flatMap fun j =>
      let w := chanWord m h i j
      need (clear w 31 0 && bits w 63 60 ≤ 1) (.rule 5)) ++ need (schedMeets h.sites (schedTable m h i)) (.rule 11)

/-- A SELECTOR that names no core of the plan fails as a number out of range. DEDUCED, log 22. -/
def phaseFindings (m : Array Byte) (h : PlanHead) (p : Nat) : List Finding :=
  let b := h.phaseOff + 16 * p
  let x := phaseOf m h p
  need ((rd m b 4) &&& 0xC0F8FC00 == 0 && clear (rd m (b + 4) 4) 31 16 && clear (rd m (b + 8) 4) 31 12 && rd m (b + 12) 4 == 0 &&
      x.ending != 3 && (x.ending != 0 || x.target == 0)) (.rule 5) ++
    need (x.ending != 2 || x.selector < h.cores) (.rule 4) ++
    need (x.sched < h.schedules && (x.ending != 2 || x.target < h.selects)) (.rule 11)

def selectFindings (m : Array Byte) (h : PlanHead) (t : Nat) : List Finding :=
  let ws := selectWords m h t
  need (((ws.takeWhile fun w => bit w.2 31).all fun w => clear w.2 30 12) &&
    (ws.dropWhile fun w => bit w.2 31).all fun w => w.1 == 0 && w.2 == 0) (.rule 5)

/-- A tile descriptor of a table: its format code is defined and its reserved bits are zero. -/
def tdDefined (v : Nat) : Bool := bits v 127 124 ≤ 0xB && clear v 123 120 && clear v 39 0

/-- A move descriptor of a table: its kind is defined and its reserved bits are zero. -/
def moveDefined (w0 w1 w2 w3 : Nat) : Bool :=
  bits w0 63 60 ≤ 0xA && clear w0 59 58 && clear w1 63 59 && clear w2 63 50 && clear w3 63 14 && clear w3 7 6

def coreFindings (m : Array Byte) (h : PlanHead) (lc : Nat) : List Finding :=
  let e := dirEntry m h lc
  let t := streamHead m e.off
  need (e.resv == 0) (.rule 5) ++
    need (e.constSize % 32 == 0 && e.constSize + 4096 ≤ h.region && (e.constSize != 0 || e.constOff == 0) && 64 ≤ e.size) (.rule 4) ++
    (if e.size < 64 then [] else
      need (t.resv == 0) (.rule 5) ++
      need (t.tdCount ≤ 4096 && t.moveCount ≤ 65536 && 1 ≤ t.bundleCount && t.bundleCount ≤ 2 ^ 24) (.rule 4) ++
      need (t.entryOff % 4 == 0 && t.tdOff % 16 == 0 && t.moveOff % 32 == 0 && t.bundleOff % 32 == 0 && streamFits m h e &&
        disjoint (streamParts h t)) (.rule 3) ++
      (if !streamFits m h e then [] else
        need ((List.range (minNat t.tdCount 4096)).all fun i => tdDefined (rd m (e.off + t.tdOff + 16 * i) 16)) (.rule 5) ++
        need ((List.range (minNat t.moveCount 65536)).all fun i =>
          let w (j : Nat) : Nat := rd m (e.off + t.moveOff + 32 * i + 8 * j) 8
          moveDefined (w 0) (w 1) (w 2) (w 3)) (.rule 5)))

/-- Rules 3, 4, 5 and 11 of R220 over the header and the tables. -/
def tableFindings (m : Array Byte) (h : PlanHead) : List Finding :=
  need (clear h.flags 15 1 && rd m 0x2A 6 == 0 && rd m 0x50 0xAC == 0) (.rule 5) ++
    need ((planSections m h).all (fun r => r.2 == 0 || (r.1 % 4096 == 0 && r.1 + r.2 ≤ h.size)) && disjoint (planSections m h)) (.rule 3) ++
    schedFindings m h ++ (List.range h.phases).flatMap (phaseFindings m h) ++ (List.range h.selects).flatMap (selectFindings m h) ++
    (List.range h.cores).flatMap (coreFindings m h)

/-! ### The trace of a stream (R220) -/

/-- An operation that a phase of a core's stream issues, with the descriptors that its registers hold. -/
structure PlanOp where
  lc : Nat
  phase : Nat
  op : SlotOp
  ta : Option Td
  tb : Option Td
deriving DecidableEq, Repr

/-- A slot's 64 bits hold a defined operation with its reserved fields zero (R196, R199, R205, R206, R209, R212). -/
def slotDefined (sl : Slot) (w : Nat) : Bool :=
  match sl, bits w 63 58 with
  | _, 0x00 => w == 0
  | .a, 0x01 => clear w 41 0
  | .a, 0x02 => clear w 17 0
  | .a, 0x03 => clear w 37 34 && !bit w 32 && clear w 17 0
  | .a, 0x04 => clear w 37 34 && clear w 15 0
  | .v, 0x01 => clear w 29 0
  | .v, 0x02 => clear w 29 0
  | .v, o => o ≤ 0x15 && clear w 23 0
  | .m, 0x01 => clear w 41 0
  | .c, 0x01 => clear w 44 0
  | .c, 0x02 => clear w 20 0
  | .c, 0x03 => clear w 57 0
  | .c, 0x04 => clear w 34 0
  | .c, 0x05 => clear w 41 0
  | .c, 0x06 => clear w 37 0
  | _, _ => false

/-- The tile-descriptor registers an array operation names (R204): the first, and TB of an MMA. -/
def tdRegs : SlotOp → Option Nat × Option Nat
  | .mma f => (some f.ta.val, some f.tb.val)
  | .merge f => (some f.ta.val, none)
  | .drain f => (some f.td.val, none)
  | _ => (none, none)

/-- Trace a phase from bundle `i` on: what it issues and what it fails. `loaded` holds the registers that the phase has loaded. -/
def tracePhase (pl : Plan) (e : DirEntry) (lc p : Nat) : Nat → Nat → Table Nat → List PlanOp × List Finding
  | 0, _, _ => ([], [.rule 6])
  | fuel + 1, i, loaded =>
    let t := streamHead pl.m e.off
    if t.bundleCount ≤ i then ([], [.rule 6])
    else
      let w (k : Nat) : Nat := rd pl.m (e.off + t.bundleOff + 32 * i + 8 * k) 8
      let legal := slotDefined .a (w 0) && slotDefined .v (w 1) && slotDefined .m (w 2) && slotDefined .c (w 3)
      let ops := [(Slot.a, slotA (w 0), w 0), (Slot.v, slotV (w 1), w 1), (Slot.m, slotM (w 2), w 2), (Slot.c, slotC (w 3), w 3)].filter
        fun o => o.2.1 != .nop && slotDefined o.1 o.2.2
      let at? (r : Option Nat) : Option Td := (r.bind (tfind loaded)).map tdOf
      let named := tdRegs (slotA (w 0))
      let lost := (named.1.isSome && (at? named.1).isNone) || (named.2.isSome && (at? named.2).isNone)
      let ldtd := match slotA (w 0) with
        | .ldtd r x => if slotDefined .a (w 0) then some (r.val, x.toNat) else none
        | _ => none
      let loaded' := match ldtd with
        | some (r, x) => if x < t.tdCount then tins loaded r (rd pl.m (e.off + t.tdOff + 16 * x) 16) else tdel loaded r
        | none => loaded
      let badIndex := match ldtd with
        | some (_, x) => t.tdCount ≤ x
        | none => false
      let here := ops.map fun o => { lc := lc, phase := p, op := o.2.1, ta := at? (tdRegs o.2.1).1, tb := at? (tdRegs o.2.1).2 }
      let bad := need legal (.rule 5) ++ need (!badIndex && !(lost && slotDefined .a (w 0))) (.rule 7)
      if slotC (w 3) == .close && slotDefined .c (w 3) then (here, bad)
      else
        let rest := tracePhase pl e lc p fuel (i + 1) loaded'
        (here ++ rest.1, bad ++ rest.2)

/-- Every operation that the plan can issue, and what the trace fails. -/
def traceAll (pl : Plan) : List PlanOp × List Finding :=
  let xs := (List.range pl.h.cores).flatMap fun lc =>
    let e := dirEntry pl.m pl.h lc
    let t := streamHead pl.m e.off
    if !streamFits pl.m pl.h e then [] else (List.range pl.h.phases).map fun p =>
      let i := rd pl.m (e.off + t.entryOff + 4 * p) 4
      tracePhase pl e lc p (t.bundleCount - i) i []
  (xs.flatMap (·.1), xs.flatMap (·.2))

/-! ### Rules 5 and 8 to 10 and checks 5 and 6 of an operation -/

def popcount (v : BitVec 16) : Nat := (maskList v.toNat 16).length

/-- An operand descriptor on `n` arrays (R199 to R202, R194). -/
def operandOk (t : Td) (n region : Nat) : Bool :=
  let nat := naturalSlice t.fmt
  let k := if widthClass t.fmt == 4 then 16 * t.blocks else 32 * t.blocks
  t.fmt ≤ 0x9 && t.stride % nat == 0 && t.blocks != 0 && n * nat ≤ t.slicePitch &&
    t.base + (k - 1) * t.slicePitch + n * nat ≤ region &&
    (!isMx t.fmt || t.scaleBase + (t.blocks - 1) * (128 * t.slicePitch / nat) + 128 * n ≤ region)

/-- A result or source descriptor stored row-major on `n` arrays (R203, R194). -/
def rowsOk (t : Td) (n region : Nat) : Bool :=
  let nat := naturalRow t.fmt
  t.stride % nat == 0 && t.base + (128 * n - 1) * t.rowPitch + nat ≤ region &&
    (!isMx t.fmt || t.scaleBase + (128 * n - 1) * 4 * t.rowPitch / nat + 4 ≤ region)

/-- The formats a DRAIN may give (R201). -/
def drainFormat (fmt : Nat) : Bool := fmt ≤ 0xB && fmt != 0x7

/-- Register ranges and formats of a vector operation (R205 to R208). The range that holds the narrow side of a conversion is as long as
the registers that R207 and R208 have it take, SPAN / 2 or SPAN / 4, and not SPAN as R205's words have every range. DESIGN CHOICE,
log 22. -/
def vecOk (op : VecOp) (f : VecF) : Bool :=
  let n := f.span.val + 1
  let lf := f.lfmt.val
  let xf := f.xfmt.val
  let d := f.dst.val
  let a := f.src1.val
  let b := f.src2.val
  let c := f.src3.val
  match op with
  | .fma => d + n ≤ 64 && a + n ≤ 64 && b + n ≤ 64 && c + n ≤ 64
  | .add | .sub | .mul | .min | .max => d + n ≤ 64 && a + n ≤ 64 && b + n ≤ 64
  | .abs | .neg | .rmax | .rsum | .bcast => d + n ≤ 64 && a + n ≤ 64
  | .exp2 | .log2 | .rcp | .rsq | .tanh => lf == 0 && d + n ≤ 64 && a + n ≤ 64
  | .cvt =>
    if xf == 0 && lf != 0 then n % 2 == 0 && a + n ≤ 64 && d + n / 2 ≤ 64
    else if xf != 0 && lf == 0 then n % 2 == 0 && d + n ≤ 64 && a + n / 2 ≤ 64
    else d + n ≤ 64 && a + n ≤ 64
  | .cvtmx => lf == 0 && n % 4 == 0 && a + n ≤ 64 && d + n / 4 ≤ 64
  | .unpkmx => lf == 0 && n % 4 == 0 && d + n ≤ 64 && a + n / 4 ≤ 64

/-- XFMT holds a defined code of the operation: a lane format or an MX format (R205), or rule 5 of R220 fails. -/
def xfmtOk (op : VecOp) (f : VecF) : Bool :=
  match op with
  | .cvt => f.xfmt.val ≤ 2
  | .cvtmx => f.xfmt.val ≤ 5
  | .unpkmx => f.xfmt.val ≤ 5
  | _ => true

/-- The channel entry of a phase's schedule, if it is a data entry. -/
def planEntry? (pl : Plan) (p chan : Nat) : Option ChanEntry :=
  match ((pl.phases[p]?).bind fun q => pl.scheds[q.sched]?).bind fun es => es[chan]? with
  | some e => if e.barrier then none else some e
  | none => none

/-- A data entry from the issuing site that drops at the site of DST_CORE (R211, R213). -/
def planChanOk (pl : Plan) (o : PlanOp) (chan dstCore : Nat) : Bool :=
  match planEntry? pl o.phase chan with
  | some e => dstCore < pl.h.cores && e.src == o.lc / 4 && e.dst.toNat.testBit (dstCore / 4)
  | none => false

/-- The logical site of a core holds a core at its row (1) or column (2) neighbour's position (R105). -/
def hasNeighbour (pl : Plan) (lc k : Nat) : Bool := (sitePositions pl.h (lc / 4)).any (· == (localPos pl.h lc ^^^ k))

def sameSite (pl : Plan) (lc d : Nat) : Bool := d < pl.h.cores && d / 4 == lc / 4

def postOk (pl : Plan) (o : PlanOp) (f : PostF) : Bool :=
  f.amount.val != 0 && match f.target.val with
    | 0 => true
    | 1 => hasNeighbour pl o.lc 1
    | 2 => hasNeighbour pl o.lc 2
    | 3 => sameSite pl o.lc f.dstCore.val
    | _ => planChanOk pl o f.chan.toNat f.dstCore.val

/-- What one operation fails, its move apart. An H above 9 is an undefined value of its field, which rule 5 covers: DEDUCED, log 22. -/
def opFindings (pl : Plan) (o : PlanOp) : List Finding :=
  let region := pl.h.region
  match o.op with
  | .mma f => need (f.h.val ≤ 9) (.rule 5) ++ match o.ta, o.tb with
    | some a, some b =>
      need (operandOk a (popcount f.arrays) region && operandOk b 1 region && a.blocks == b.blocks) (.rule 8) ++
        need (widthClass a.fmt == 0 || widthClass b.fmt == 0 || widthClass a.fmt == widthClass b.fmt) (.check 5)
    | _, _ => []
  | .merge f => need (f.h.val ≤ 9) (.rule 5) ++ match o.ta with
    | some a => need (a.fmt == 0xB && rowsOk a (popcount f.arrays) region) (.rule 8)
    | none => []
  | .drain f => match o.ta with
    | some a => need (drainFormat a.fmt && (f.port || rowsOk a (popcount f.arrays) region)) (.rule 8) ++
        need (a.fmt != 0x6 || a.tileScale != 0) (.check 6)
    | none => []
  | .vld f => need (f.lfmt.val != 3) (.rule 5) ++ need (f.dst.val + f.span.val + 1 ≤ 64) (.rule 9) ++
      need (512 * (f.addr.toNat + f.span.val + 1) ≤ region) (.rule 8)
  | .vst f => need (f.lfmt.val != 3) (.rule 5) ++ need (f.dst.val + f.span.val + 1 ≤ 64) (.rule 9) ++
      need (512 * (f.addr.toNat + f.span.val + 1) ≤ region) (.rule 8)
  | .vec op f => need (f.lfmt.val != 3) (.rule 5) ++ need (xfmtOk op f) (.rule 5) ++ need (vecOk op f) (.rule 9)
  | .post f => need (f.target.val ≤ 4) (.rule 5) ++ need (postOk pl o f) (.rule 10)
  | .setsel w => need (4 * w.toNat + 4 ≤ region) (.rule 8)
  | .rdstat w => need (32 * w.toNat + 32 ≤ region) (.rule 8)
  | _ => []

/-! ### Moves -/

/-- The move descriptor at an index of a logical core's table. -/
def planMove? (pl : Plan) (lc i : Nat) : Option MoveDesc :=
  let e := dirEntry pl.m pl.h lc
  let t := streamHead pl.m e.off
  if t.moveCount ≤ i then none
  else
    let w (j : Nat) : Nat := rd pl.m (e.off + t.moveOff + 32 * i + 8 * j) 8
    some (moveDescOf (w 0) (w 1) (w 2) (w 3))

/-- The bytes of a drained tile (R199). -/
def drainLen (f : DrainF) (t : Td) : Nat := 128 * popcount f.arrays * (naturalRow t.fmt + if isMx t.fmt then 4 else 0)

/-- The kinds that a DRAIN with PORT = 1 may name (R199). -/
def portKind (k : Nat) : Bool := k == 3 || k == 4 || k == 6 || k == 8 || k == 10

/-- Whether a move's kind writes a core store. -/
def coreDest (k : Nat) : Bool := k ≤ 5 || k == 7 || k == 9

/-- The entry rules of R211 and R238 for a move. -/
def moveChanOk (pl : Plan) (o : PlanOp) (d : MoveDesc) : Bool :=
  match d.kind with
  | 4 => planChanOk pl o d.chan d.dstCore
  | 7 => d.chan == 0xFFF || match planEntry? pl o.phase d.chan with
    | some e => e.dst.toNat.testBit (o.lc / 4)
    | none => false
  | 8 => d.chan == 0xFFF || match planEntry? pl o.phase d.chan with
    | some e => e.src == o.lc / 4
    | none => false
  | _ => d.chan == 0xFFF

/-- The core that a move within the site reaches belongs to the plan. -/
def moveReaches (pl : Plan) (o : PlanOp) (d : MoveDesc) : Bool :=
  match d.kind with
  | 1 => hasNeighbour pl o.lc 1
  | 2 => hasNeighbour pl o.lc 2
  | 3 => sameSite pl o.lc d.dstCore
  | _ => true

/-- A move that names a channel, or the Pond, at a fixed address fits the placement (R232, R238): `sites` gives the physical
site of each logical site and `data` the bytes of the partition's data part there. -/
def movePlaced (pl : Plan) (sites : List Nat) (data : Nat → Nat) (o : PlanOp) (d : MoveDesc) (n : Nat) : Bool :=
  let a := if d.kind == 5 || d.kind == 7 then d.src else d.dst
  let fixed := if d.kind == 5 || d.kind == 7 then d.srcArg.isNone else d.dstArg.isNone
  if !fixed then true
  else if d.kind == 5 || d.kind == 6 then a + n ≤ data ((sites[o.lc / 4]?).getD 0)
  else if (d.kind == 7 || d.kind == 8) && d.chan != 0xFFF then
    match planEntry? pl o.phase d.chan with
    | none => true
    | some e =>
      let named := if d.kind == 7 then [e.src] else maskList e.dst.toNat 16
      (named.filterMap fun j => sites[j]?).any fun i => a / 2 ^ 36 == i && a + n ≤ (i + 1) * 2 ^ 36
  else true

/-- What a used move fails: `drained` is the length of the tile where a DRAIN uses it. -/
def moveFindings (pl : Plan) (sites : List Nat) (data : Nat → Nat) (o : PlanOp) (i : Nat) (drained : Option Nat) : List Finding :=
  match planMove? pl o.lc i with
  | none => [.rule 7]
  | some d =>
    let n := drained.getD d.len
    let issued := drained.isNone
    need (if issued then d.len % 32 == 0 && 32 ≤ d.len && (d.srcArg.isSome || d.src % 32 == 0) else portKind d.kind) (.rule 10) ++
      need (d.dstArg.isSome || d.dst % 32 == 0) (.rule 10) ++
      need ((!issued || !coreSource d.kind || d.srcArg.isSome || d.src + n ≤ pl.h.region) &&
        (!coreDest d.kind || d.dstArg.isSome || d.dst + n ≤ pl.h.region)) (.rule 8) ++
      need (moveChanOk pl o d && moveReaches pl o d && movePlaced pl sites data o d n) (.rule 10)

def opMoveFindings (pl : Plan) (sites : List Nat) (data : Nat → Nat) (o : PlanOp) : List Finding :=
  match o.op with
  | .move i => moveFindings pl sites data o i.toNat none
  | .drain f => if f.port then moveFindings pl sites data o f.move.toNat (some ((o.ta.map (drainLen f)).getD 0)) else []
  | _ => []

/-! ### Checks 7 to 10 of R156 -/

/-- Checks 7 and 8 over one schedule, once placed (R37, R38, R217, R257, R259, R512, R513). -/
def placedSched (sites : List Nat) (owned : Nat → Bool) (es : List ChanEntry) : List Finding :=
  let phys (j : Nat) : Nat := (sites[j]?).getD 16
  let drops (e : ChanEntry) (d : Nat) : Bool := (maskList e.dst.toNat 16).any fun j => phys j == d
  let toward (i d : Nat) : List ChanEntry := es.filter fun e => phys e.src == i && drops e d
  let guideFull (i d g : Nat) : Bool :=
    let q := openPair i d
    8 < ((toward i d).filter fun e => e.chan / 32 == g).length + (if q.1 / 32 == g then 1 else 0) + (if q.2 / 32 == g then 1 else 0)
  let pairsOk := sites.all fun i => sites.all fun d => i == d || ((toward i d).length ≤ 62 && (List.range 8).all fun g => !guideFull i d g)
  let into (d : Nat) : Nat := (es.filter fun e => phys e.src != d && drops e d).length
  need (pairsOk && sites.all fun d => into d ≤ 226) (.check 7) ++
    need ((es.all fun e => e.chan % 32 < 28 && owned (4 * phys e.src + e.chan % 32 / 7)) &&
      sites.all fun d => into d ≤ 56 * ((List.range 4).filter fun q => owned (4 * d + q)).length) (.check 8)

/-- Check 9 over one SELECT table. -/
def selectRises (phases : Nat) (es : List (Nat × Nat)) : Bool :=
  (match es.head? with
    | some e => e.1 == 0
    | none => false) && ((es.zip (es.drop 1)).all fun t => t.1.1 < t.2.1) && es.all fun e => e.2 < phases

/-- Check 10 over one phase. -/
def phaseBounded (phases : Nat) (p : Phase) : Bool := (p.ending != 1 || p.target < phases) && 1 ≤ p.visits

/-- Everything that a container fails on a placement, checks 5 to 11. -/
def planFindings (pl : Plan) (sites : List Nat) (data : Nat → Nat) (owned : Nat → Bool) : List Finding :=
  let t := traceAll pl
  tableFindings pl.m pl.h ++ t.2 ++ t.1.flatMap (opFindings pl) ++ t.1.flatMap (opMoveFindings pl sites data) ++
    pl.scheds.flatMap (placedSched sites owned) ++ pl.selects.flatMap (fun es => need (selectRises pl.h.phases es) (.check 9)) ++
    pl.phases.flatMap fun p => need (phaseBounded pl.h.phases p) (.check 10)

/-- The first check of R156 that fails, with the first rule of R220 where it is check 11: the DETAIL of REFUSED, 0 for none. -/
def firstFinding (fs : List Finding) : Nat :=
  match (List.range 11).find? fun n => fs.any (· == .check n) with
  | some n => n
  | none => match (List.range 12).find? fun n => fs.any (· == .rule n) with
    | some n => 11 + 256 * n
    | none => 0

end Sys2Proof.Machine
end

