-- ==== Sys2Proof/Machine/PlanLoad.lean ====
section
/-! DEFINITION. PLAN_LOAD (R156 to R158, R188 to R192, R216, R489, R490, R519). -/

namespace Sys2Proof.Machine

/-! ### The placement (R156 checks 1 to 4, R489)

Where several places would do, the model takes the lowest: of the context numbers, of the offsets in a core store, of the
addresses in an area's stream part. DESIGN CHOICE, log 22. -/

structure Placement where
  sites : List Nat
  cores : List Nat          -- by logical core
  number : Nat
  regions : List Nat        -- by logical core
  streams : List Nat        -- by logical core, the address of its stream section
deriving DecidableEq, Repr

/-- The context numbers free on every one of some cores (R157). -/
def freeNumbers (cs : List Context) (cores : List Nat) : List Nat :=
  (List.range 16).filter fun n => !cs.any fun x => ctxNo x.handle == n && x.cores.any fun k => cores.any (· == k.core)

/-- The lowest start, in some taken ranges, from which `n` more bytes fit below `hi`. -/
def lowestFit? (taken : List (Nat × Nat)) (lo hi n : Nat) : Option Nat :=
  let starts := lo :: (taken.map fun t => t.1 + t.2)
  (starts.filter fun o => lo ≤ o && o + n ≤ hi && taken.all fun t => o + n ≤ t.1 || t.1 + t.2 ≤ o).min?

/-- The regions in use on a core. -/
def regionsOn (cs : List Context) (c : Nat) : List (Nat × Nat) :=
  cs.flatMap fun x => (x.cores.filter fun k => k.core == c).map fun k => (k.region, x.regionSize)

/-- The stream sections in use on a site. -/
def streamsOn (cs : List Context) (i : Nat) : List (Nat × Nat) :=
  cs.flatMap fun x => (x.cores.filter fun k => k.core / 4 == i).map fun k => (k.stream, k.streamSize)

/-- The lowest-numbered site for a logical site that PLACE leaves open: the check that fails where there is none. -/
def openSite (cs : List Context) (owned : Nat → Bool) (taken pos : List Nat) : Nat ⊕ Nat :=
  let cands := (List.range 16).filter fun i => !taken.any (· == i) && pos.all fun q => owned (4 * i + q)
  match cands.find? fun i => !(freeNumbers cs (pos.map (4 * i + ·))).isEmpty with
  | some i => .inr i
  | none => .inl (if cands.isEmpty then 1 else 2)

/-- Give every logical site from `j` on its physical site. -/
def openSites (cs : List Context) (h : PlanHead) (owned : Nat → Bool) (place : Nat → Nat) : List Nat → List Nat → Nat ⊕ List Nat
  | [], _ => .inr []
  | j :: js, taken =>
    let here : Nat ⊕ Nat := if place j != 0xFF then .inr (place j) else openSite cs owned taken (sitePositions h j)
    match here with
    | .inl c => .inl c
    | .inr i => match openSites cs h owned place js (i :: taken) with
      | .inl c => .inl c
      | .inr is => .inr (i :: is)

/-- Place the stream sections of the logical cores, one after another. -/
def placeStreams (area : Nat → Option (Nat × Nat)) : List (Nat × Nat) → (Nat → List (Nat × Nat)) → Option (List Nat)
  | [], _ => some []
  | e :: es, taken =>
    match area (e.1 / 4) with
    | none => none
    | some r => match lowestFit? (taken (e.1 / 4)) r.1 r.2 e.2 with
      | none => none
      | some a => (placeStreams area es fun i => if i == e.1 / 4 then (a, e.2) :: taken i else taken i).map (a :: ·)

/-- The stream part of a partition's area on a site: its first address and its end. -/
def streamPart (x : Partition) (i : Nat) : Option (Nat × Nat) :=
  (tfind x.areas i).map fun r =>
    (pondBase i + (r.base + r.data) * 2 ^ 20, pondBase i + (r.base + r.data + r.stream) * 2 ^ 20)

/-- Checks 1 to 4 of R156 among the contexts `cs`: the first that fails, or the placement. -/
def placePlan (cs : List Context) (x : Partition) (m : Array Byte) (h : PlanHead) (place : Nat → Nat) : Nat ⊕ Placement :=
  let owned (c : Nat) : Bool := bit x.cores.toNat c
  let js := List.range h.sites
  let named := js.filter fun j => place j != 0xFF
  if named.any fun j => !(sitePositions h j).all fun q => owned (4 * place j + q) then .inl 1
  else match openSites cs h owned place js (named.map place) with
    | .inl c => .inl c
    | .inr sites =>
      let cores := (List.range h.cores).map fun lc => 4 * (sites[lc / 4]?).getD 0 + localPos h lc
      match freeNumbers cs cores with
      | [] => .inl 2
      | n :: _ =>
        let fits := cores.map fun c => lowestFit? (regionsOn cs c) 0 (2 ^ 25) h.region
        if fits.any (·.isNone) then .inl 3
        else
          let sizes := (cores.zip (List.range h.cores)).map fun t => (t.1, (dirEntry m h t.2).size)
          match placeStreams (streamPart x) sizes (streamsOn cs) with
          | none => .inl 4
          | some as => .inr { sites := sites, cores := cores, number := n, regions := fits.map (·.getD 0), streams := as }

/-! ### Taking the load -/

/-- The context's part on one core: its stream section goes into Pond scratch, its region reads zero and takes the constant
data (R192). -/
def loadCore (s : State) (m : Array Byte) (h : PlanHead) (lc core region stream : Nat) : State × CtxCore :=
  let e := dirEntry m h lc
  let t := streamHead m e.off
  let k : CtxCore :=
    { core := core, region := region, stream := stream, entryOff := t.entryOff, tdOff := t.tdOff, tdCount := t.tdCount,
      moveOff := t.moveOff, moveCount := t.moveCount, bundleOff := t.bundleOff, bundleCount := t.bundleCount,
      streamSize := e.size, counters := [], tds := [], below := 0, invalid := 0, sat := 0 }
  let bytes (o n : Nat) : List Byte := (m.extract o (o + n)).toList
  let a := coreBase core + region
  let s := { s with mem := writeBytes (zeroRange s.mem a h.region) (a + 4096) (bytes e.constOff e.constSize),
                    corePoison := tdrop s.corePoison fun w => a ≤ 32 * w && 32 * w < a + h.region }
  ((writeMem s stream (bytes e.off e.size) []).1, k)

def loadCores (s : State) (m : Array Byte) (h : PlanHead) (pl : Placement) : State × List CtxCore :=
  (List.range h.cores).foldl (fun q lc =>
    let r := loadCore q.1 m h lc ((pl.cores[lc]?).getD 0) ((pl.regions[lc]?).getD 0) ((pl.streams[lc]?).getD 0)
    (r.1, q.2 ++ [r.2])) (s, [])

/-- The next handle of a context number whose lowest core is `c` (R490). -/
def newHandle (s : State) (c n : Nat) : Nat := 1024 * c + 64 * n + (tget 0 s.gens (16 * c + n) + 1) % 64

/-- A plan loads as one resident context (R157). PLAN_ID, for which the completion entry and the log entry have no field (R446, R542),
shows in the answers of PLAN_LOAD and CTX_QUERY alone. DESIGN CHOICE, log 22. -/
def takePlan (s : State) (r : MbReq) (p : Nat) (plan : Plan) (pl : Placement) : State × Ans :=
  let low := (pl.cores.min?).getD 0
  let handle := newHandle s low pl.number
  let q := loadCores s plan.m plan.h pl
  let x : Context :=
    { handle := handle, part := p, planId := plan.h.planId, sites := pl.sites, skipDisable := bit plan.h.flags 0,
      regionSize := plan.h.region, phases := plan.phases, scheds := plan.scheds, selects := plan.selects, cores := q.2,
      waiting := [], run := none, idleTick := 0, removing := false, visitor := r.fn }
  let s := { q.1 with contexts := q.1.contexts ++ [x],
                      gens := tput 0 q.1.gens (16 * low + pl.number) (handle % 64),
                      taken := tput 0 q.1.taken (2 ^ 20 + handle) (r.tick + 1) }
  (s, .ok (leBytes 2 handle ++ leBytes 8 plan.h.planId))

/-- The contexts without those that requests of the same tick loaded (R476). -/
def contextsBefore (s : State) (r : MbReq) : List Context :=
  s.contexts.filter fun x => tget 0 s.taken (2 ^ 20 + x.handle) != r.tick + 1

/-- The answer to a load that check `c` of 1 to 4 refuses: RETRY where a request of the same tick took what it needed. -/
def placeRefused (s : State) (r : MbReq) (x : Partition) (m : Array Byte) (h : PlanHead) (place : Nat → Nat) (c : Nat) : Ans :=
  match placePlan (contextsBefore s r) x m h place with
  | .inl _ => .det stRefused c
  | .inr _ => .of stRetry

/-- A container whose header passes is placed and checked (R156). -/
def checkPlan (r : MbReq) (s : State) (p : Nat) (m : Array Byte) (place : Nat → Nat) : State × Ans :=
  let h := planHead m
  match (List.range 16).find? fun j => h.sites ≤ j && place j != 0xFF with
  | some j => (s, badParam (17 + j))
  | none => match placePlan s.contexts (part s p) m h place with
    | .inl c => (s, placeRefused s r (part s p) m h place c)
    | .inr pl =>
      let plan := planOf m
      let data (i : Nat) : Nat := match tfind (part s p).areas i with
        | some a => a.data * 2 ^ 20
        | none => 0
      match firstFinding (planFindings plan pl.sites data fun c => bit (part s p).cores.toNat c) with
      | 0 => takePlan s r p plan pl
      | d => (s, .det stRefused d)

/-- The first byte of PLACE that names no site, or a site named before. -/
def badPlace? (place : Nat → Nat) : Option Nat :=
  (List.range 16).find? fun j => place j != 0xFF && (15 < place j || (List.range j).any fun i => place i == place j)

def planLoad (r : MbReq) (s : State) : State × Ans :=
  let p := paramPart s r 0
  let a := param r 1 8
  let n := param r 9 8
  let place (j : Nat) : Nat := param r (17 + j) 1
  if 64 ≤ p then (s, badParam 0)
  else if a % 4096 != 0 then (s, badParam 1)
  else if farBase ≤ a || !reach s r.fn a (maxNat n 1) false then (s, .of stBounds)
  else match badPlace? place with
    | some j => (s, badParam (17 + j))
    | none =>
      if (part s p).mode == .absent || (part s p).mode == .destroying then (s, .of stNotFound)
      else if (part s p).mode != .sealed || (part s p).cores == 0 then (s, .of stNotPermitted)
      else if !headRule1 (loadBytes s a (minNat n 256)).toArray n then (s, .det stRefused (11 + 256))
      else
        let m := (loadBytes s a n).toArray
        if !headRule2 m then (s, .det stRefused (11 + 512))
        else if !headCountsOk (planHead m) then (s, .det stRefused (11 + 1024))
        else if !headFlagsOk (planHead m) then (s, .det stRefused (11 + 1280))
        else checkPlan r s p m place

/-- PLAN_LOAD (R156, R489): a load that a check refuses changes nothing. -/
def execPlanLoad (s : State) : Host.Outcome State Fault Refusal := .next (execNow s 0x30 planLoad)

end Sys2Proof.Machine
end

