-- ==== Sys2Proof/Machine/Tick.lean ====
section
/-! DEFINITION. The end of an event tick (R70 to R73): barriers, firmware, context-start slots, phases, queue entries, mailbox
requests and credits, in this order; then the changes that firmware applies at a tick's end, and the next tick begins. -/

namespace Sys2Proof.Machine

/-! ### The order of requests (R70 to R72) -/

/-- The lexicographic order of keys. -/
def keyLe : List Nat → List Nat → Bool
  | [], _ => true
  | _ :: _, [] => false
  | a :: as, b :: bs => a < b || (a == b && keyLe as bs)

/-- Insert after every entry whose key is not greater: requests with equal keys keep their order. -/
def insertKey {α : Type} (f : α → List Nat) (x : α) : List α → List α
  | [] => [x]
  | y :: ys => if keyLe (f y) (f x) then y :: insertKey f x ys else x :: y :: ys

def sortKey {α : Type} (f : α → List Nat) (xs : List α) : List α := xs.foldl (fun ys x => insertKey f x ys) []

/-- Where a function stands in tick n: PF0 first, then the VFs from VF 1 + (n mod 255) upward (R70, R71). -/
def fnRank (n fn : Nat) : Nat := if fn == 0 then 0 else 1 + (fn + 254 - n % 255) % 255

/-! ### Ending dispatches (R165, R180, R187) -/

/-- Contexts whose dispatch ends at this tick's end, in the order of their completions. -/
def endings (s : State) (n : Nat) : List (Nat × EndRec) :=
  let xs := s.contexts.filterMap fun x => x.run.bind fun r => r.outcome.map fun e => (x.handle, r, e)
  (sortKey (fun (t : Nat × Run × EndRec) => [fnRank n t.2.1.d.fn, t.2.1.d.qp, t.2.1.d.seq, t.1]) xs).map fun t => (t.1, t.2.2)

def endDispatches (s : State) (n : Nat) : State :=
  (endings s n).foldl (fun s e => modCtx (endRun s e.1 e.2) e.1 fun x => { x with idleTick := n }) s

/-! ### Context-start slots (R73, R178, R179) -/

/-- Grant one request: the dispatch waits for its context, or completes with REFUSED or RETRY. -/
def grantSlot (s : State) (r : StartReq) : State :=
  if !contextFor s r.d.fn r.handle then complete s r.d.seq r.d.cq (Cpl.plain r.d.tag 0x06 r.d.qp)
  else if 2048 ≤ slotsInUse s then complete s r.d.seq r.d.cq (Cpl.plain r.d.tag 0x05 r.d.qp)
  else modCtx s r.handle fun x => { x with waiting := x.waiting ++ [r.d] }

def grantSlots (s : State) (n : Nat) : State :=
  (sortKey (fun (r : StartReq) => [fnRank n r.d.fn, r.d.qp, r.d.seq]) s.startReqs).foldl grantSlot { s with startReqs := [] }

/-- A dispatch that is to be granted phase 0. -/
def newRun (d : Dispatch) (ready : Nat) : Run :=
  { d := d, phase := 0, prev := 0, granted := false, readyTick := ready, hold := false, phases := 0, visits := [], tStart := 0,
    closedCores := [], siteFault := [], tokens := [], tokenFault := false, selector := 0, reports := [], complete := [],
    faults := [], outcome := none, abortReq := false, aborting := none }

/-- A context between dispatches makes its oldest waiting one ready (R179): from the tick of its slot's grant, or of the end of the
dispatch before it, whichever is later (R172). -/
def readyNext (x : Context) : Context :=
  match x.run, x.waiting with
  | none, d :: ds => { x with run := some (newRun d (maxNat d.granted x.idleTick)), waiting := ds }
  | _, _ => x

def readyDispatches (s : State) : State := { s with contexts := s.contexts.map readyNext }

/-! ### Phases (R171 to R173) -/

/-- A context's place among the ready ones, none where it is not ready: HOLD boundaries first, then the oldest, then the order of
the functions that dispatched. -/
def readyKey (x : Context) : Option (List Nat) :=
  match x.run with
  | none => none
  | some r =>
    if r.granted || r.outcome.isSome || r.aborting.isSome || x.removing then none
    else some [if r.hold then 0 else 1, r.readyTick, fnRank r.readyTick r.d.fn, r.d.qp, r.d.seq]

/-- The schedule a ready context asks for. -/
def wantedSched (x : Context) : List ChanEntry :=
  match x.run with
  | some r => schedOf x r.phase
  | none => []

/-- Whether a channel of a schedule is under calibration, which counts as held (R347). -/
def calBlocks (s : State) (x : Context) (es : List ChanEntry) : Bool :=
  es.any fun e => calibrating s (entrySite x e) e.chan

/-- One pass over the ready contexts: each is granted its phase, or reserves what it needs, which for one at a HOLD boundary takes in
what it holds (R172). -/
def grantPhases : List Nat → State → List (Context × List ChanEntry) → State
  | [], s, _ => s
  | h :: hs, s, reserved =>
    match ctx? s h with
    | none => grantPhases hs s reserved
    | some x =>
      let es := wantedSched x
      let held := s.contexts.filter fun y => y.handle != h && holds y && !reserved.any fun r => r.1.handle == y.handle
      let ys := held.map (fun y => (y, heldSched y)) ++ reserved
      if blockedBy s x es ys || calBlocks s x es then
        grantPhases hs s (reserved ++ [(x, (heldSched x ++ es).eraseDups)])
      else grantPhases hs (grantPhase s h) reserved

/-- Grant phases; at a grant, channels that passed calibration return to service (R288). -/
def phaseGrants (s : State) : State :=
  let ready := (sortKey (fun (t : List Nat × Nat) => t.1) (s.contexts.filterMap fun x => (readyKey x).map fun k => (k, x.handle))).map
    (·.2)
  let t := grantPhases ready s []
  let some_ : Bool := ready.any fun h => match (ctx? t h).bind (·.run) with
    | some r => r.granted
    | none => false
  if some_ then reviveChannels t else t

/-! ### Accepting queue entries (R441, R445) -/

/-- Whether a CQ has a slot that holds no unread entry and is not reserved. -/
def cqFree (q : QpState) : Bool := (q.cqTail + cqSize q - q.cqHead) % cqSize q + q.reserved + 1 < cqSize q

/-- Accept the entry at the head of an SQ: its CQ slot is reserved, SQ_HEAD advances, and an entry that fails its checks completes
with their status. The flag says whether it was accepted. -/
def acceptEntry (s : State) (n : Nat) : State × Bool :=
  let q := qp s n
  match q.fetched with
  | [] => (s, false)
  | e :: es =>
    let c := entryCheck s n e
    if !(q.mode == 1 || q.mode == 2) || !cqFree (qp s c.2) then (s, false)
    else
      let s := putQp s n { q with fetched := es, head := (q.head + 1) % sqSize q, open_ := q.open_ ++ [e.seq],
                                  accepted := if c.1 == 0 then q.accepted ++ [{ e with status := 0, cq := c.2 }] else q.accepted }
      let s := modQp s c.2 fun x => { x with reserved := x.reserved + 1 }
      let s := addPairSat s Reg.queueAccepted 1
      if c.1 == 0 then (s, true)
      else (complete (addPairSat s Reg.queueRefused 1) e.seq c.2 (Cpl.plain (eTag e) c.1 n), true)

/-- Accept entries of one queue pair: at most `fuel`, of the `left` that the tick still has. -/
def acceptFrom (n : Nat) : Nat → State → Nat → State × Nat
  | 0, s, left => (s, left)
  | fuel + 1, s, left =>
    if left == 0 then (s, 0)
    else
      let r := acceptEntry s n
      if r.2 then acceptFrom n fuel r.1 (left - 1) else (r.1, left)

/-- Accept at most 32 entries, and at most 16 of one queue pair. -/
def acceptEntries (s : State) (n : Nat) : State :=
  let qs := s.qps.filter fun e => !e.2.fetched.isEmpty
  ((sortKey (fun (e : Nat × QpState) => [fnRank n e.2.owner, e.1]) qs).foldl (fun a e => acceptFrom e.1 16 a.1 a.2) (s, 32)).1

/-- The entries resolved in the tick complete, in ascending order of SQ number and then in SQ order (R448). -/
def writeCompletions (s : State) : State :=
  (sortKey (fun (e : Ended) => [e.cpl.sq, e.seq]) s.ended).foldl writeCompletion { s with ended := [] }

/-! ### Mailbox doorbells (R473, R475) -/

/-- The first reserved part of a request header that is not zero. -/
def headerBad (w : Table Nat) : Nat :=
  if tget 0 w 1 / 65536 != 0 then 6 else if tget 0 w 2 != 0 then 8 else if tget 0 w 3 != 0 then 12 else 0

/-- A request as it is copied from its window. -/
def requestOf (fn q tick : Nat) (w : Table Nat) : MbReq :=
  let len := tget 0 w 1 % 65536
  let bs := (List.range 252).flatMap fun i => leBytes 4 (tget 0 w (4 + i))
  { fn := fn, seq := q, opcode := tget 0 w 0 % 65536, paramLen := len, badAt := headerBad w, params := bs.take len, tick := tick,
    commit := 0, executed := false, arg := 0 }

/-- Grant a stamped doorbell one of the 16 places. -/
def grantDoorbell (n : Nat) (s : State) (fn : Nat) : State :=
  let w := win s fn
  match w.stamped with
  | none => s
  | some q =>
    let s := putWin s fn { w with stamped := none }
    let r := requestOf fn q n w.req
    if tget 0 w.req 0 / 65536 != q then raiseMb s fn 1
    else if 16 ≤ s.mbReqs.length then respondUncommitted s r (.of stRetry)
    else { modWin s fn (fun w => { w with mode := 1, seq := q, lastSeq := some q }) with mbReqs := s.mbReqs ++ [r] }

def grantDoorbells (s : State) (n : Nat) : State :=
  (sortKey (fun (fn : Nat) => [fnRank n fn]) ((s.windows.filter fun e => e.2.stamped.isSome && e.2.stampTick ≤ n).map (·.1))).foldl (grantDoorbell n) s

/-! ### Identical atomics (R276, R407) -/

/-- The atomic that stands for k identical ones. -/
def timesAtomic (p : Packet) (k : Nat) : Packet :=
  if p.type == 0x03 && p.aop == 1 then { p with op0 := BitVec.ofNat 64 (k * p.op0.toNat % 2 ^ atomicWidth p) } else p

/-- A granted request with the identical atomics that joined it, itself among them. -/
structure Joined where
  head : OpenReq
  rest : List OpenReq
deriving DecidableEq, Repr

/-- Whether a request is an atomic that one granted at the same tick end may stand for: a first one to join needs a combining entry
(R274). -/
def mayJoin (room : Bool) (r : OpenReq) (j : Joined) : Bool :=
  r.p.type == 0x03 && sameReq j.head.p r.p && j.rest.length < 63 && (room || !j.rest.isEmpty)

/-- Whether a combining entry is free at a site, those that the groups of this tick take apart. -/
def entryRoom (x : SiteState) (js : List Joined) : Bool :=
  x.combining.length + (js.filter fun j => !j.rest.isEmpty).length < 256

/-- Join the first group of identical atomics. -/
def joinFirst (room : Bool) (r : OpenReq) : List Joined → List Joined
  | [] => []
  | j :: js => if mayJoin room r j then { j with rest := j.rest ++ [r] } :: js else j :: joinFirst room r js

/-- Whether a request of a site port is a transit packet: it comes from elsewhere, or it only crosses. -/
def isTransit (s : State) (i : Nat) (r : OpenReq) : Bool :=
  !(isReqType r.p.type && r.p.src == ownCoord s && r.p.srcSite == i && r.p.hop == 0)

/-- The order of ranks: the module's own requests in their order, then those from Outlets by source and tag. -/
def rankKey (s : State) (i : Nat) (r : OpenReq) : List Nat :=
  if r.p.hop == 0 && r.p.src == ownCoord s then [0]
  else if isTransit s i r then [1, 256 * r.p.src + r.p.srcAgent, r.p.tag] else [0]

/-- A request of the site port itself is outstanding until it is answered. -/
def addOutstanding (s : State) (i : Nat) (r : OpenReq) : State :=
  if isTransit s i r || (site s i).outstanding.any fun q => q.seq == r.seq then s
  else modSite s i fun x => { x with outstanding := x.outstanding ++ [r] }

/-- A group forwarded from site i: its lowest rank goes, and the others attach to it. -/
def forwarded (s : State) (i : Nat) (j : Joined) : State × OpenReq :=
  match sortKey (rankKey s i) (j.head :: j.rest) with
  | [] => (s, j.head)
  | r :: rs =>
    if rs.isEmpty then (s, r)
    else
      let s := modSite s i fun x => { x with combining := x.combining ++ [{ p := r.p, reqs := rs }] }
      (addOutstanding s i r, { r with p := timesAtomic r.p (1 + rs.length) })

/-! ### Open-class credits (R271 to R273, R286, R391) -/

/-- The order of R272: the oldest stamp first, then the order of R70 to R72, then the core. -/
def openKey (r : OpenReq) : List Nat :=
  [r.stamp, if 0x20 ≤ r.p.type then 0 else 1, fnRank r.stamp r.fn, r.qp, r.core, r.seq]

def credits (s : State) (i d : Nat) : Nat := field s (Reg.basinCredit i d) 9 0

def takeCredits (s : State) (i d f : Nat) : State := putField s (Reg.basinCredit i d) 9 0 (credits s i d - f)

/-- The hops on which a packet from i to d takes credits: none where the pair is out of service and no site relays. -/
def openHops (s : State) (i d : Nat) : Option (List (Nat × Nat)) :=
  if !pairDown s i d then some [(i, d)]
  else (relayOf? s i d).map fun r => [(i, r), (r, d)]

/-- Whether a packet finds its credits: 64 of each pair's 512 serve only replies (R391). -/
def openFits (s : State) (hops : List (Nat × Nat)) (p : Packet) : Bool :=
  let keep := if isReplyType p.type then 0 else 64
  hops.all fun h => flitsOf p + keep ≤ credits s h.1 h.2

/-- What a pass over the requests of one destination has come to. -/
structure OpenPass where
  s : State
  granted : List Joined
  left : List OpenReq
  reqStop : Bool            -- a request has found too few credits
  repStop : Bool            -- a reply has

/-- Whether a request comes from a core of the site, over the bundle. -/
def fromCore (r : OpenReq) : Bool := match r.issuer with
  | .move _ _ => true
  | _ => false

/-- What a packet that came by an Outlet needs beyond its credits on the Basin (R391): the credits of the link that it leaves by, or a place
in its target's request queue of 256. None where it finds neither. -/
def onward? (s : State) (i d : Nat) (r : OpenReq) : Option State :=
  if !fromOutlet s r then some s
  else match r.outlet with
    | some e => if e == d then (exitCredits? (link s e) r.p).map (putLink s e) else some s
    | none =>
      let x := site s d
      if !isReqType r.p.type || x.asleep.length + (x.heldWrites.filter fun h => h.reply.isSome).length < 256 then some s else none

/-- One request of site i for site d: it joins an identical atomic, is granted, or waits; what waits is not overtaken, but replies
do not wait for requests. DEDUCED, log 10. -/
def openOne (i d : Nat) (held : Bool) (a : OpenPass) (r : OpenReq) : OpenPass :=
  let room := entryRoom (site a.s i) a.granted
  if a.granted.any (mayJoin room r) then
    { a with s := addPairSat a.s (Reg.basinCombined i) 1, granted := joinFirst room r a.granted }
  else
    let rep := isReplyType r.p.type
    let hops := openHops a.s i d
    let fits : Bool := !held && !(quarantined a.s i && fromCore r) && !(if rep then a.repStop else a.reqStop) && (match hops with
      | some hs => openFits a.s hs r.p
      | none => false)
    if !isTransit a.s i r && r.outlet.isSome && !roomFor (site a.s i) then { a with left := a.left ++ [r] }
    else match if fits then onward? a.s i d r else none with
    | none =>
      { a with s := addPairSat a.s (Reg.basinOpenRetry i) 1, left := a.left ++ [{ r with retry := true }],
               reqStop := a.reqStop || !rep, repStop := a.repStop || rep }
    | some s =>
      let s := (hops.getD []).foldl (fun s h => takeCredits s h.1 h.2 (flitsOf r.p)) s
      let s := addOutstanding s i r
      { a with s := addPairSat s (Reg.basinOpenFlits i) (flitsOf r.p), granted := a.granted ++ [{ head := r, rest := [] }] }

/-- A packet of site i cannot cross to a site whose port refuses transfers: a request for its stack is refused with
CROSSING_RESET, one for its Outlet, once the link is down, with LINK_DOWN (R83, R386, R549); any other packet is lost. -/
def refuseOpen (i : Nat) (s : State) (r : OpenReq) : State :=
  let code := match r.outlet with
    | some o => if linkServes s o then 9 else 4
    | none => 9
  if isReplyType r.p.type && r.p.type != 0x14 then discardReply s
  else if !isReqType r.p.type then s
  else if isTransit s i r then refuseForwarded s i r.p code
  else deliverReply (addOutstanding s i r) i (replyTo s i r.p 0x13 code [])

/-- A granted packet leaves over a pair of open channels, which it takes in turn with those before it; a channel out of service leaves
them to the other (R273, R286). A site that relays it holds its flits until it returns their credits. -/
def leavePair (p : Packet) (last : Nat) (s : State) (h : Nat × Nat) : State :=
  let c := openPair h.1 h.2
  let turn := tget false (site s h.1).pairTurn h.2
  let chan := if openOut s h.1 c.1 then c.2 else if openOut s h.1 c.2 then c.1 else if turn then c.2 else c.1
  let s := modSite s h.1 fun x => { x with pairTurn := tput false x.pairTurn h.2 !turn }
  let s := if h.2 == last then s else modSite s h.2 fun x => { x with recvHeld := tmod 0 x.recvHeld h.1 (· + flitsOf p) }
  emit s (.basin h.1 h.2 chan p)

/-- A granted packet of site i leaves for site d, by way of a relay where the pair has no channel left. -/
def leaveBasin (s : State) (i d : Nat) (p : Packet) : State := ((openHops s i d).getD []).foldl (leavePair p d) s

/-- A packet that came by an Outlet leaves its receive buffer. -/
def takenFrom (i : Nat) (s : State) (r : OpenReq) : State := if fromOutlet s r then rxLeave s i r.p else s

/-- A granted group leaves site i for site d. A packet with the credits of a link holds them on its way there. -/
def leaveGroup (i d : Nat) (s : State) (j : Joined) : State :=
  let s := (j.head :: j.rest).foldl (takenFrom i) s
  let f := forwarded s i j
  let s := if fromOutlet f.1 j.head && f.2.outlet == some d then modLink f.1 d fun l => { l with paid := l.paid ++ [f.2.p] } else f.1
  leaveBasin s i d f.2.p

/-- The requests that site i holds for site d. Those for its own Outlet take no credits of a pair: they waited for room among its
outstanding requests (R389). -/
def openPass (n i d : Nat) (s : State) : State :=
  let due (r : OpenReq) : Bool := r.dst == d && r.stamp ≤ n
  let rs := sortKey openKey ((site s i).openReqs.filter due)
  if rs.isEmpty then s
  else
    let s := modSite s i fun x => { x with openReqs := x.openReqs.filter fun r => !due r }
    if i == d then
      rs.foldl (fun s r =>
        if r.outlet.isSome && roomFor (site s i) then
          modSite s i fun x => { x with egressQ := x.egressQ ++ [r], outstanding := x.outstanding ++ [r] }
        else modSite s i fun x => { x with openReqs := x.openReqs ++ [r] }) s
    else if crossRefuses s .portTile d then rs.foldl (fun s r => refuseOpen i (takenFrom i s r) r) s
    else
      let a := rs.foldl (openOne i d (site s d).creditsHeld) { s := s, granted := [], left := [], reqStop := false, repStop := false }
      let s := modSite a.s i fun x => { x with openReqs := x.openReqs ++ a.left }
      a.granted.foldl (leaveGroup i d) s

def openGrants (s : State) (n : Nat) : State :=
  (List.range 16).foldl (fun s i => (List.range 16).foldl (fun s d => openPass n i d s) s) s

/-! ### Exit credits (R390, R392) -/

/-- The order of R392. -/
def exitKey (n : Nat) (s : State) (o : Nat) (r : OpenReq) : List Nat :=
  if r.stamp < n then [0, r.stamp]
  else if isTransit s o r && 0 < r.p.hop then [2, routeEntry r.p.route (r.p.hop - 1)]
  else 1 :: openKey r

/-- The sender's replay buffer of 256 KiB holds 4,096 flits that are not acknowledged (R379). -/
def replayRoom (l : LinkState) (granted : List Joined) (p : Packet) : Bool :=
  let sum (ps : List Packet) : Nat := (ps.map flitsOf).foldl (· + ·) 0
  sum (l.unacked.map (·.2)) + sum (granted.map (·.head.p)) + flitsOf p ≤ 4096

/-- What a pass over the packets of one Outlet has come to. -/
structure ExitPass where
  s : State
  granted : List Joined
  left : List OpenReq

/-- One packet that waits for an Outlet's link: it joins an identical atomic, is granted, or waits. -/
def exitOne (o : Nat) (a : ExitPass) (r : OpenReq) : ExitPass :=
  let room := entryRoom (site a.s o) a.granted
  if a.granted.any (mayJoin room r) then
    let c := if isTransit a.s o r then Reg.fabricCombined else Reg.basinCombined o
    { a with s := addPairSat (unpay a.s r.paid o r.p) c 1, granted := joinFirst room r a.granted }
  else if !replayRoom (link a.s o) a.granted r.p then { a with left := a.left ++ [r] }
  else match if r.paid then some (link a.s o) else exitCredits? (link a.s o) r.p with
    | some l => { a with s := putLink a.s o l, granted := a.granted ++ [{ head := r, rest := [] }] }
    | none => { a with left := a.left ++ [r] }

/-- Whether a link carries a packet: HELLO and TIME_SYNC need none of the partner's hellos (R414, R415). -/
def linkCarries (s : State) (o : Nat) (p : Packet) : Bool :=
  linkServes s o || (linkUp s o && (p.type == 0x20 || p.type == 0x21))

/-- The packets that wait for an Outlet's link: a link that does not carry them turns them back (R381). -/
def exitPass (n o : Nat) (s : State) : State :=
  let due (r : OpenReq) : Bool := r.stamp ≤ n
  let rs := sortKey (exitKey n s o) (((site s o).egressQ ++ (link s o).waiting).filter due)
  if rs.isEmpty then s
  else
    let later (l : List OpenReq) : List OpenReq := l.filter fun r => !due r
    let s := modLink (modSite s o fun x => { x with egressQ := later x.egressQ }) o fun l => { l with waiting := later l.waiting }
    let go := rs.filter fun r => linkCarries s o r.p
    let s := (rs.filter fun r => !linkCarries s o r.p).foldl (turnBack o) s
    let a := go.foldl (exitOne o) { s := s, granted := [], left := [] }
    let s := a.granted.foldl (fun s j => let f := forwarded s o j; transmit f.1 o f.2.p) a.s
    if a.left.isEmpty then s
    else addPairSat (modLink s o fun l => { l with waiting := a.left ++ l.waiting }) (Reg.linkCreditWaits o) 1

def exitGrants (s : State) (n : Nat) : State := (List.range 16).foldl (fun s o => exitPass n o s) s

/-! ### Basin time (R64) -/

/-- A slew adds or withholds 1 ns at every fourth tick boundary, in all copies together: 1 ns in each 1,024 ns. -/
def slewStep (n : Nat) (s : State) : State :=
  if (n + 1) % 4 != 0 || s.time.slewLeft == 0 then s
  else if 0 < s.time.slewLeft then
    showSlew { s with time := { s.time with now := s.time.now + 1, slewLeft := s.time.slewLeft - 1 } }
  else showSlew { s with time := { s.time with hold := true, slewLeft := s.time.slewLeft + 1 } }

/-! ### TICK_END -/

/-- Basin time counts to the boundary that ends the present tick; what a slew withheld has passed by then. -/
def toBoundary (s : State) : State :=
  let s := { s with time := { s.time with hold := false } }
  passTime s (65536 * tickEndTime s - masterUnits s)

/-- What is granted at the end of tick n: barriers first, then firmware, then the functions' requests (R70, R165). -/
def grantTick (n : Nat) (s : State) : State :=
  let s := endDispatches (applyAborts s) n
  let s := beginDestroys (applySeals (settleRemovals s))
  let s := readyDispatches (grantSlots s n)
  let s := grantDoorbells (acceptEntries (phaseGrants s) n) n
  exitGrants (openGrants s n) n

/-- What firmware and the engines carry on with at a tick's end. -/
def settleTick (s : State) : State :=
  let s := if weirServes s then stepDestroys (applyFars s) else s
  startQueued (settleDeletes (settleRemovals s))

/-- A frame boundary: drivers take up the pre-emphasis entry that is due (R356). -/
def takeTaps (s : State) : State :=
  (List.range 16).foldl (fun s i => match (site s i).tapDue with
    | some b => modSite s i fun x => { x with tapBand := b, tapDue := none }
    | none => s) s

/-- What happens at the boundary that ends tick n (R64, R73, R287): failed channels take their spares, and the arbiters grant the
requests stamped in the tick; loads, jumps and slews of Basin time, and a module reset that was requested, take effect. The flags set
in tick n are set no longer in the present tick (R19). -/
def atBoundary (n : Nat) (s : State) : State :=
  let s := writeCompletions (settleTick (grantTick n (takeSpares (releaseExits { s with flagsNow := [] }))))
  let s := takeTaps (slewStep n (applyTimeSets (applySetTime s)))
  let s := if s.start.resetReq then moduleReset s else s
  advanceStart s

/-- TICK_END (R73): Basin time reaches the boundary that ends the present tick. -/
def tickEnd (s : State) : State := atBoundary (tickOf s) (toBoundary s)

/-- A cycle of the backbone clock in which nothing is commanded: a boundary that it passes ends its tick. DESIGN CHOICE, log 1. -/
def idleCycle (s : State) : State :=
  let t := backboneCycle s
  if tickOf t == tickOf s then t else atBoundary (tickOf s) t

def execTickEnd (s : State) : Host.Outcome State Fault Refusal := .next (tickEnd s)

end Sys2Proof.Machine
end

