-- ==== Sys2Proof/Machine/Dispatch.lean ====
section
/-! DEFINITION. One arm for each command: its meaning, or its name where it has none yet. -/

namespace Sys2Proof.Machine

def exec (i : Instr) (s : State) : Host.Outcome State Fault Refusal :=
  match i with
  | .hostRegisterWrite fn bar off size value => Sys2Proof.Machine.execHostRegisterWrite fn bar off size value s
  | .l64LowRead fn r => Sys2Proof.Machine.execL64LowRead fn r s
  | .pairFirstWrite value => Sys2Proof.Machine.execPairFirstWrite value s
  | .globalResetGo complement => Sys2Proof.Machine.execGlobalResetGo complement s
  | .cperfClear core freeze enable => Sys2Proof.Machine.execCperfClear core freeze enable s
  | .cperfFreeze core on => Sys2Proof.Machine.execCperfFreeze core on s
  | .cperfEnable core on => Sys2Proof.Machine.execCperfEnable core on s
  | .dmaChannelDisable ch on => Sys2Proof.Machine.execDmaChannelDisable ch on s
  | .dmaChannelPriority ch p => Sys2Proof.Machine.execDmaChannelPriority ch p s
  | .dmaHaltClear ch => Sys2Proof.Machine.execDmaHaltClear ch s
  | .houseTrigger go => Sys2Proof.Machine.execHouseTrigger go s
  | .refaModeWrite mode => Sys2Proof.Machine.execRefaModeWrite mode s
  | .clockEnableWrite value => Sys2Proof.Machine.execClockEnableWrite value s
  | .calEntryWrite reg value => Sys2Proof.Machine.execCalEntryWrite reg value s
  | .sqTailWrite fn page value => Sys2Proof.Machine.execSqTailWrite fn page value s
  | .cqHeadWrite fn page value => Sys2Proof.Machine.execCqHeadWrite fn page value s
  | .mbDoorbell fn window value => Sys2Proof.Machine.execMbDoorbell fn window value s
  | .mbEvtHeadWrite fn window value => Sys2Proof.Machine.execMbEvtHeadWrite fn window value s
  | .busMasterEnable fn on => Sys2Proof.Machine.execBusMasterEnable fn on s
  | .parityMismatch unit bit => Sys2Proof.Machine.execParityMismatch unit bit s
  | .parityRestore unit => Sys2Proof.Machine.execParityRestore unit s
  | .refMonitorWindow ref edges => Sys2Proof.Machine.execRefMonitorWindow ref edges s
  | .tileAlignment failed delays => Sys2Proof.Machine.execTileAlignment failed delays s
  | .timeBeacon extra => Sys2Proof.Machine.execTimeBeacon extra s
  | .timeBackupCopy => Sys2Proof.Machine.execTimeBackupCopy s
  | .tickEnd => Sys2Proof.Machine.execTickEnd s
  | .combinerResolveTick => Sys2Proof.Machine.execCombinerResolveTick s
  | .faultReport r => Sys2Proof.Machine.execFaultReport r s
  | .repeatWindowClose => Sys2Proof.Machine.execRepeatWindowClose s
  | .logWrite => Sys2Proof.Machine.execLogWrite s
  | .stepArmed site => Sys2Proof.Machine.execStepArmed site s
  | .stepDeadline => Sys2Proof.Machine.execStepDeadline s
  | .stepCommit => Sys2Proof.Machine.execStepCommit s
  | .hbmStepQuiesce => Sys2Proof.Machine.execHbmStepQuiesce s
  | .coreRampDone core => Sys2Proof.Machine.execCoreRampDone core s
  | .crossingPartnerReset x => Sys2Proof.Machine.execCrossingPartnerReset x s
  | .partnerUp x epoch => Sys2Proof.Machine.execPartnerUp x epoch s
  | .bundleIssue core => Sys2Proof.Machine.execBundleIssue core s
  | .nop core slot => Sys2Proof.Machine.execNop core slot s
  | .ldtd core reg index => Sys2Proof.Machine.execLdtd core reg index s
  | .mma core f => Sys2Proof.Machine.execMma core f s
  | .merge core f => Sys2Proof.Machine.execMerge core f s
  | .drain core f => Sys2Proof.Machine.execDrain core f s
  | .arrayOpComplete core array => Sys2Proof.Machine.execArrayOpComplete core array s
  | .drainComplete core array acc => Sys2Proof.Machine.execDrainComplete core array acc s
  | .vld core f => Sys2Proof.Machine.execVld core f s
  | .vst core f => Sys2Proof.Machine.execVst core f s
  | .add core f => Sys2Proof.Machine.execAdd core f s
  | .sub core f => Sys2Proof.Machine.execSub core f s
  | .mul core f => Sys2Proof.Machine.execMul core f s
  | .fma core f => Sys2Proof.Machine.execFma core f s
  | .min core f => Sys2Proof.Machine.execMin core f s
  | .max core f => Sys2Proof.Machine.execMax core f s
  | .abs core f => Sys2Proof.Machine.execAbs core f s
  | .neg core f => Sys2Proof.Machine.execNeg core f s
  | .cvt core f => Sys2Proof.Machine.execCvt core f s
  | .cvtmx core f => Sys2Proof.Machine.execCvtmx core f s
  | .unpkmx core f => Sys2Proof.Machine.execUnpkmx core f s
  | .exp2 core f => Sys2Proof.Machine.execExp2 core f s
  | .log2 core f => Sys2Proof.Machine.execLog2 core f s
  | .rcp core f => Sys2Proof.Machine.execRcp core f s
  | .rsq core f => Sys2Proof.Machine.execRsq core f s
  | .tanh core f => Sys2Proof.Machine.execTanh core f s
  | .transcendentalResult core => Sys2Proof.Machine.execTranscendentalResult core s
  | .rmax core f => Sys2Proof.Machine.execRmax core f s
  | .rsum core f => Sys2Proof.Machine.execRsum core f s
  | .bcast core f => Sys2Proof.Machine.execBcast core f s
  | .move core index => Sys2Proof.Machine.execMove core index s
  | .moveComplete core id status => Sys2Proof.Machine.execMoveComplete core id status s
  | .wait core counter amount => Sys2Proof.Machine.execWait core counter amount s
  | .waitRelease core => Sys2Proof.Machine.execWaitRelease core s
  | .post core f => Sys2Proof.Machine.execPost core f s
  | .close core => Sys2Proof.Machine.execClose core s
  | .setsel core word => Sys2Proof.Machine.execSetsel core word s
  | .fault core code => Sys2Proof.Machine.execFault core code s
  | .rdstat core off => Sys2Proof.Machine.execRdstat core off s
  | .operandParityFault core unit => Sys2Proof.Machine.execOperandParityFault core unit s
  | .tokrateWindow core tokens => Sys2Proof.Machine.execTokrateWindow core tokens s
  | .closeReport core => Sys2Proof.Machine.execCloseReport core s
  | .barrierToken src dst context phase faultBit selector => Sys2Proof.Machine.execBarrierToken src dst context phase faultBit selector s
  | .barrierComplete site context => Sys2Proof.Machine.execBarrierComplete site context s
  | .abortComplete context => Sys2Proof.Machine.execAbortComplete context s
  | .siteReset site cause => Sys2Proof.Machine.execSiteReset site cause s
  | .inval owner sharer region => Sys2Proof.Machine.execInval owner sharer region s
  | .invalAck owner sharer region => Sys2Proof.Machine.execInvalAck owner sharer region s
  | .hbmRefresh site bank => Sys2Proof.Machine.execHbmRefresh site bank s
  | .scrub site pond line outcome => Sys2Proof.Machine.execScrub site pond line outcome s
  | .poisonNotice => Sys2Proof.Machine.execPoisonNotice s
  | .ringSettled site ring => Sys2Proof.Machine.execRingSettled site ring s
  | .retuneLate site ring => Sys2Proof.Machine.execRetuneLate site ring s
  | .scheduledData dst guide lambda hdr data => Sys2Proof.Machine.execScheduledData dst guide lambda hdr data s
  | .postToken path context dstLocal ctr amount => Sys2Proof.Machine.execPostToken path context dstLocal ctr amount s
  | .creditMessage src dst credits => Sys2Proof.Machine.execCreditMessage src dst credits s
  | .receiptConfirmation dst guide lambda good => Sys2Proof.Machine.execReceiptConfirmation dst guide lambda good s
  | .lossOfSignal r set => Sys2Proof.Machine.execLossOfSignal r set s
  | .lossOfLock r set => Sys2Proof.Machine.execLossOfLock r set s
  | .channelFailed site ring => Sys2Proof.Machine.execChannelFailed site ring s
  | .bundleFrame site dir group f x => Sys2Proof.Machine.execBundleFrame site dir group f x s
  | .bundleTraining site dir group tests => Sys2Proof.Machine.execBundleTraining site dir group tests s
  | .propose site dir group lane => Sys2Proof.Machine.execPropose site dir group lane s
  | .agree site dir group atSeq => Sys2Proof.Machine.execAgree site dir group atSeq s
  | .laneMapSwitch site dir group => Sys2Proof.Machine.execLaneMapSwitch site dir group s
  | .hello site => Sys2Proof.Machine.execHello site s
  | .caps site h f => Sys2Proof.Machine.execCaps site h f s
  | .offer site => Sys2Proof.Machine.execOffer site s
  | .accept site h f => Sys2Proof.Machine.execAccept site h f s
  | .reject site h reason => Sys2Proof.Machine.execReject site h reason s
  | .commit site => Sys2Proof.Machine.execCommit site s
  | .report site h f => Sys2Proof.Machine.execReport site h f s
  | .limit site watts => Sys2Proof.Machine.execLimit site watts s
  | .limitAck site h watts => Sys2Proof.Machine.execLimitAck site h watts s
  | .lanes site dir m => Sys2Proof.Machine.execLanes site dir m s
  | .refuse site fromDie code type seq => Sys2Proof.Machine.execRefuse site fromDie code type seq s
  | .sidebandReplyTimeout site => Sys2Proof.Machine.execSidebandReplyTimeout site s
  | .reportLate site => Sys2Proof.Machine.execReportLate site s
  | .powerExcessTimeout site => Sys2Proof.Machine.execPowerExcessTimeout site s
  | .abangoAlert site => Sys2Proof.Machine.execAbangoAlert site s
  | .viaParityError site dir group failing => Sys2Proof.Machine.execViaParityError site dir group failing s
  | .combinerFeedLoss comb second => Sys2Proof.Machine.execCombinerFeedLoss comb second s
  | .combinerResume comb => Sys2Proof.Machine.execCombinerResume comb s
  | .springFailed n cause => Sys2Proof.Machine.execSpringFailed n cause s
  | .springRestore => Sys2Proof.Machine.execSpringRestore s
  | .springLocked n => Sys2Proof.Machine.execSpringLocked n s
  | .calibrationDone activity values => Sys2Proof.Machine.execCalibrationDone activity values s
  | .channelFrame r seed seed2 f wrong => Sys2Proof.Machine.execChannelFrame r seed seed2 f wrong s
  | .clampTrip o fibres => Sys2Proof.Machine.execClampTrip o fibres s
  | .clampReopen o monitorsValid => Sys2Proof.Machine.execClampReopen o monitorsValid s
  | .linkFlit o number good => Sys2Proof.Machine.execLinkFlit o number good s
  | .fibreSwap o lane => Sys2Proof.Machine.execFibreSwap o lane s
  | .helloTimeout o => Sys2Proof.Machine.execHelloTimeout o s
  | .linkTrained o => Sys2Proof.Machine.execLinkTrained o s
  | .linkSleepEnter o => Sys2Proof.Machine.execLinkSleepEnter o s
  | .read via p => Sys2Proof.Machine.execRead via p s
  | .write via p => Sys2Proof.Machine.execWrite via p s
  | .atomic via p => Sys2Proof.Machine.execAtomic via p s
  | .readData via p => Sys2Proof.Machine.execReadData via p s
  | .writeAck via p => Sys2Proof.Machine.execWriteAck via p s
  | .atomicResult via p => Sys2Proof.Machine.execAtomicResult via p s
  | .refusal via p => Sys2Proof.Machine.execRefusal via p s
  | .neighbourHello o f => Sys2Proof.Machine.execNeighbourHello o f s
  | .helloRepeat => Sys2Proof.Machine.execHelloRepeat s
  | .timeSync o t1 t2 t3 t4 => Sys2Proof.Machine.execTimeSync o t1 t2 t3 t4 s
  | .timeSyncPeriod => Sys2Proof.Machine.execTimeSyncPeriod s
  | .linkState o f => Sys2Proof.Machine.execLinkState o f s
  | .weirMsg via p => Sys2Proof.Machine.execWeirMsg via p s
  | .convergenceTimer => Sys2Proof.Machine.execConvergenceTimer s
  | .flaggedStoreRelease site tag => Sys2Proof.Machine.execFlaggedStoreRelease site tag s
  | .egressDrainTimeout site => Sys2Proof.Machine.execEgressDrainTimeout site s
  | .sqFetch qp r => Sys2Proof.Machine.execSqFetch qp r s
  | .dispatch qp => Sys2Proof.Machine.execDispatch qp s
  | .copy qp => Sys2Proof.Machine.execCopy qp s
  | .queueNop qp => Sys2Proof.Machine.execQueueNop qp s
  | .dmaBurstComplete ch host lines words => Sys2Proof.Machine.execDmaBurstComplete ch host lines words s
  | .dmaHalt ch cause => Sys2Proof.Machine.execDmaHalt ch cause s
  | .coalescingTimeout qp => Sys2Proof.Machine.execCoalescingTimeout qp s
  | .functionLevelReset fn => Sys2Proof.Machine.execFunctionLevelReset fn s
  | .hotReset => Sys2Proof.Machine.execHotReset s
  | .hostLinkDown => Sys2Proof.Machine.execHostLinkDown s
  | .d3hotExit fn => Sys2Proof.Machine.execD3hotExit fn s
  | .info => Sys2Proof.Machine.execInfo s
  | .evtRingSet => Sys2Proof.Machine.execEvtRingSet s
  | .timeSet => Sys2Proof.Machine.execTimeSet s
  | .fabricCoord => Sys2Proof.Machine.execFabricCoord s
  | .partCreate => Sys2Proof.Machine.execPartCreate s
  | .partDestroy => Sys2Proof.Machine.execPartDestroy s
  | .destroyTimeout => Sys2Proof.Machine.execDestroyTimeout s
  | .partBind => Sys2Proof.Machine.execPartBind s
  | .partMem => Sys2Proof.Machine.execPartMem s
  | .partKey => Sys2Proof.Machine.execPartKey s
  | .partEgress => Sys2Proof.Machine.execPartEgress s
  | .partSeal => Sys2Proof.Machine.execPartSeal s
  | .partStatus => Sys2Proof.Machine.execPartStatus s
  | .pondCache => Sys2Proof.Machine.execPondCache s
  | .pondArea => Sys2Proof.Machine.execPondArea s
  | .cacheSlices => Sys2Proof.Machine.execCacheSlices s
  | .cacheFlush => Sys2Proof.Machine.execCacheFlush s
  | .farMap => Sys2Proof.Machine.execFarMap s
  | .farUnmap => Sys2Proof.Machine.execFarUnmap s
  | .farUnmapTimeout => Sys2Proof.Machine.execFarUnmapTimeout s
  | .planLoad => Sys2Proof.Machine.execPlanLoad s
  | .planUnload => Sys2Proof.Machine.execPlanUnload s
  | .ctxAbort => Sys2Proof.Machine.execCtxAbort s
  | .ctxQuery => Sys2Proof.Machine.execCtxQuery s
  | .qpCreate => Sys2Proof.Machine.execQpCreate s
  | .qpDelete => Sys2Proof.Machine.execQpDelete s
  | .vfQpRange => Sys2Proof.Machine.execVfQpRange s
  | .stackSelftest => Sys2Proof.Machine.execStackSelftest s
  | .calChannel => Sys2Proof.Machine.execCalChannel s
  | .calAll => Sys2Proof.Machine.execCalAll s
  | .calSave => Sys2Proof.Machine.execCalSave s
  | .calRestore => Sys2Proof.Machine.execCalRestore s
  | .hbmRepair => Sys2Proof.Machine.execHbmRepair s
  | .refRecover => Sys2Proof.Machine.execRefRecover s
  | .swapDrill => Sys2Proof.Machine.execSwapDrill s
  | .maintStatus => Sys2Proof.Machine.execMaintStatus s
  | .maintCancel => Sys2Proof.Machine.execMaintCancel s
  | .activityDone activity status detail record => Sys2Proof.Machine.execActivityDone activity status detail record s
  | .stepCore => Sys2Proof.Machine.execStepCore s
  | .stepModule => Sys2Proof.Machine.execStepModule s
  | .linkSleep => Sys2Proof.Machine.execLinkSleep s
  | .linkWake => Sys2Proof.Machine.execLinkWake s
  | .linkRelease => Sys2Proof.Machine.execLinkRelease s
  | .logRead => Sys2Proof.Machine.execLogRead s
  | .logCounters => Sys2Proof.Machine.execLogCounters s
  | .flashErase => Sys2Proof.Machine.execFlashErase s
  | .flashProgram => Sys2Proof.Machine.execFlashProgram s
  | .fwSelect => Sys2Proof.Machine.execFwSelect s
  | .beat path count => Sys2Proof.Machine.execBeat path count s
  | .beatMissed path => Sys2Proof.Machine.execBeatMissed path s
  | .explicitFault path kind => Sys2Proof.Machine.execExplicitFault path kind s
  | .switchoverComplete => Sys2Proof.Machine.execSwitchoverComplete s
  | .gapBoundExpiry => Sys2Proof.Machine.execGapBoundExpiry s
  | .checkpointWrite => Sys2Proof.Machine.execCheckpointWrite s
  | .standbyImageCheck good => Sys2Proof.Machine.execStandbyImageCheck good s
  | .feedBad f => Sys2Proof.Machine.execFeedBad f s
  | .feedGood f => Sys2Proof.Machine.execFeedGood f s
  | .islandToVkeep => Sys2Proof.Machine.execIslandToVkeep s
  | .islandReturn sosc => Sys2Proof.Machine.execIslandReturn sosc s
  | .domainReady d => Sys2Proof.Machine.execDomainReady d s
  | .domainVoltageFault d => Sys2Proof.Machine.execDomainVoltageFault d s
  | .coreIdlePowerOff core => Sys2Proof.Machine.execCoreIdlePowerOff core s
  | .throttleStart f => Sys2Proof.Machine.execThrottleStart f s
  | .throttleStep f => Sys2Proof.Machine.execThrottleStep f s
  | .throttleEnd => Sys2Proof.Machine.execThrottleEnd s
  | .housekeepingPeriod => Sys2Proof.Machine.execHousekeepingPeriod s
  | .housekeepingRoundEnd readings monitors viaFail => Sys2Proof.Machine.execHousekeepingRoundEnd readings monitors viaFail s
  | .thermalTrip unit first second => Sys2Proof.Machine.execThermalTrip unit first second s
  | .tripClear => Sys2Proof.Machine.execTripClear s
  | .moduleResetPin => Sys2Proof.Machine.execModuleResetPin s
  | .weirBoot w slot0Good slot1Good record => Sys2Proof.Machine.execWeirBoot w slot0Good slot1Good record s
  | .refSelectTimeout pll0Locks => Sys2Proof.Machine.execRefSelectTimeout pll0Locks s
  | .springLockTimeout n => Sys2Proof.Machine.execSpringLockTimeout n s
  | .memoryTraining site stackGood pond => Sys2Proof.Machine.execMemoryTraining site stackGood pond s
  | .coreSelftest failed => Sys2Proof.Machine.execCoreSelftest failed s
  | .calStage failing rejected => Sys2Proof.Machine.execCalStage failing rejected s
  | .outletLight o cabled => Sys2Proof.Machine.execOutletLight o cabled s
  | .stageBoundExpiry sites => Sys2Proof.Machine.execStageBoundExpiry sites s
  | .ready => Sys2Proof.Machine.execReady s
  | .calImageWrite => Sys2Proof.Machine.execCalImageWrite s
  | .getStatus => Sys2Proof.Machine.execGetStatus s
  | .getSensors first count => Sys2Proof.Machine.execGetSensors first count s
  | .mctpLogRead first max => Sys2Proof.Machine.execMctpLogRead first max s
  | .mctpLogCounters => Sys2Proof.Machine.execMctpLogCounters s
  | .mctpModuleReset confirm => Sys2Proof.Machine.execMctpModuleReset confirm s
  | .setEndpointId eid => Sys2Proof.Machine.execSetEndpointId eid s
  | .getEndpointId => Sys2Proof.Machine.execGetEndpointId s
  | .getMctpVersionSupport => Sys2Proof.Machine.execGetMctpVersionSupport s
  | .getMessageTypeSupport => Sys2Proof.Machine.execGetMessageTypeSupport s
  | .getVendorDefinedMessageSupport => Sys2Proof.Machine.execGetVendorDefinedMessageSupport s
  | .uartFrame byte framingError => Sys2Proof.Machine.execUartFrame byte framingError s
  | .uartBreak => Sys2Proof.Machine.execUartBreak s
  | .consoleVer => Sys2Proof.Machine.execConsoleVer s
  | .consoleStat => Sys2Proof.Machine.execConsoleStat s
  | .consoleSensors => Sys2Proof.Machine.execConsoleSensors s
  | .consoleLog => Sys2Proof.Machine.execConsoleLog s
  | .consoleCounters => Sys2Proof.Machine.execConsoleCounters s
  | .consoleBaud => Sys2Proof.Machine.execConsoleBaud s
  | .bypass tdi => Sys2Proof.Machine.execBypass tdi s
  | .idcode => Sys2Proof.Machine.execIdcode s
  | .samplePreload pins shiftIn => Sys2Proof.Machine.execSamplePreload pins shiftIn s
  | .extest drive leave => Sys2Proof.Machine.execExtest drive leave s
  | .statusRd => Sys2Proof.Machine.execStatusRd s
  | .logRd number => Sys2Proof.Machine.execLogRd number s
  | .arm site => Sys2Proof.Machine.execArm site s
  | .moveLastByteLeftSource core id => Sys2Proof.Machine.execMoveLastByteLeftSource core id s
  | .refreshManagementRequest site bank => Sys2Proof.Machine.execRefreshManagementRequest site bank s
  | .linkControlWord o ack again credits reserved => Sys2Proof.Machine.execLinkControlWord o ack again credits reserved s
  | .vkeepLost => Sys2Proof.Machine.execVkeepLost s
  | .moduleResetRelease => Sys2Proof.Machine.execModuleResetRelease s
  | .d3hotEntry fn => Sys2Proof.Machine.execD3hotEntry fn s
  | .vfEnable on => Sys2Proof.Machine.execVfEnable on s
  | .hostLinkUp => Sys2Proof.Machine.execHostLinkUp s

end Sys2Proof.Machine
end

