-- ==== Sys2Proof/Machine/Step.lean ====
section
/-! DEFINITION. One step: the command at the front of the queue, or a backbone cycle when none waits. -/

namespace Sys2Proof.Machine

/-- One step takes the command at the front of the queue and gives it its effect with the rest of the queue. On an empty
queue the block idles for one cycle of the backbone clock, in which Basin time advances by its period (R61); where it passes a tick
boundary, that tick ends as by TICK_END. DESIGN CHOICE, log 1. -/
def step (s : State) : Host.Outcome State Fault Refusal :=
  match s.pending with
  | [] => .next (idleCycle s)
  | c :: rest => exec c { s with pending := rest }

/-- `s` with the command a word spells at the front of its queue: `s` itself, where the word spells none. -/
def State.withFetchWord (s : State) (nbits w : Nat) : State :=
  match decodeTableWord nbits w with
  | none => s
  | some c => { s with pending := c :: s.pending }

end Sys2Proof.Machine
end

