-- ==== Sys2Proof/Safety.lean ====
section
/-! DEFINITION. What a safe run is: a step that ends in a next state; which parts of the state a command may change; and the
canonical form of the memories. -/

namespace Sys2Proof.Machine

/-- A step completes when it answers a next state. -/
def Completes (o : Host.Outcome State Fault Refusal) : Prop := ∃ t, o = .next t

/-- From a state, the next step completes. -/
def StepCompletes (s : State) : Prop := Completes (step s)

/-- The parts of the state, one for each field. -/
inductive StatePart where
  | pending | regs | latches | firstWrite | upsets | flagsNow | mem | written | poison | corePoison | hostMem | out | time |
  clock | cross | faults | cores | contexts | gens | startReqs | ended | parts | far | farPending | sites | links | fabric |
  qps | vfRanges | bme | d3hot | linkUp | vfsOn | dma | windows | mbReqs | taken | acts | nextAct | weir | record | island |
  power | house | springs | start | maint | flash | nextId | freeCount
deriving DecidableEq, Repr

/-- The number of a part. -/
def StatePart.ix (p : StatePart) : Nat := p.ctorIdx

/-- Two states agree on a part. -/
def Agree (s t : State) : StatePart → Prop
  | .pending => s.pending = t.pending
  | .regs => s.regs = t.regs
  | .latches => s.latches = t.latches
  | .firstWrite => s.firstWrite = t.firstWrite
  | .upsets => s.upsets = t.upsets
  | .flagsNow => s.flagsNow = t.flagsNow
  | .mem => s.mem = t.mem
  | .written => s.written = t.written
  | .poison => s.poison = t.poison
  | .corePoison => s.corePoison = t.corePoison
  | .hostMem => s.hostMem = t.hostMem
  | .out => s.out = t.out
  | .time => s.time = t.time
  | .clock => s.clock = t.clock
  | .cross => s.cross = t.cross
  | .faults => s.faults = t.faults
  | .cores => s.cores = t.cores
  | .contexts => s.contexts = t.contexts
  | .gens => s.gens = t.gens
  | .startReqs => s.startReqs = t.startReqs
  | .ended => s.ended = t.ended
  | .parts => s.parts = t.parts
  | .far => s.far = t.far
  | .farPending => s.farPending = t.farPending
  | .sites => s.sites = t.sites
  | .links => s.links = t.links
  | .fabric => s.fabric = t.fabric
  | .qps => s.qps = t.qps
  | .vfRanges => s.vfRanges = t.vfRanges
  | .bme => s.bme = t.bme
  | .d3hot => s.d3hot = t.d3hot
  | .linkUp => s.linkUp = t.linkUp
  | .vfsOn => s.vfsOn = t.vfsOn
  | .dma => s.dma = t.dma
  | .windows => s.windows = t.windows
  | .mbReqs => s.mbReqs = t.mbReqs
  | .taken => s.taken = t.taken
  | .acts => s.acts = t.acts
  | .nextAct => s.nextAct = t.nextAct
  | .weir => s.weir = t.weir
  | .record => s.record = t.record
  | .island => s.island = t.island
  | .power => s.power = t.power
  | .house => s.house = t.house
  | .springs => s.springs = t.springs
  | .start => s.start = t.start
  | .maint => s.maint = t.maint
  | .flash => s.flash = t.flash
  | .nextId => s.nextId = t.nextId
  | .freeCount => s.freeCount = t.freeCount

/-- States `s` and `t` agree on every part whose bit is not in the mask. -/
structure Only (mask : Nat) (s t : State) : Prop where
  out : ∀ p : StatePart, mask.testBit p.ix = false → Agree s t p

/-- The mask of a list of parts. -/
def parts : List StatePart → Nat
  | [] => 0
  | p :: ps => 2 ^ p.ix ||| parts ps

/-- The parts that a command may change: a part that is not listed is the same after it. -/
def footprint : Instr → List StatePart
  | .hostRegisterWrite .. =>
    [.regs, .firstWrite, .upsets, .flagsNow, .out, .clock, .faults, .qps, .windows, .house, .start]
  | .l64LowRead .. =>
    [.latches, .out, .freeCount]
  | .pairFirstWrite .. =>
    [.regs, .firstWrite, .flagsNow, .faults]
  | .globalResetGo .. =>
    [.regs, .firstWrite, .flagsNow, .faults, .start]
  | .cperfClear .. | .cperfFreeze .. | .cperfEnable .. | .dmaChannelDisable .. | .dmaChannelPriority .. =>
    [.regs, .upsets]
  | .dmaHaltClear .. | .hbmStepQuiesce | .tokrateWindow .. | .combinerResume .. =>
    [.regs]
  | .houseTrigger .. | .housekeepingPeriod =>
    [.regs, .house]
  | .refaModeWrite .. | .calEntryWrite .. =>
    [.regs, .upsets, .flagsNow]
  | .clockEnableWrite .. =>
    [.regs, .clock]
  | .sqTailWrite .. | .cqHeadWrite .. | .sqFetch .. =>
    [.regs, .flagsNow, .faults, .qps]
  | .mbDoorbell .. =>
    [.flagsNow, .windows]
  | .mbEvtHeadWrite .. =>
    [.windows]
  | .busMasterEnable .. =>
    [.regs, .flagsNow, .hostMem, .out, .qps, .bme, .windows]
  | .parityMismatch .. =>
    [.regs, .upsets, .flagsNow, .out, .faults, .sites, .qps]
  | .parityRestore .. =>
    [.regs, .upsets, .flagsNow, .clock, .sites, .windows, .acts, .nextAct, .weir]
  | .refMonitorWindow .. | .domainReady .. | .refSelectTimeout .. | .memoryTraining .. =>
    [.regs, .latches, .flagsNow, .mem, .written, .poison, .corePoison, .hostMem, .out, .clock, .cross, .faults, .cores,
      .contexts, .ended, .parts, .sites, .links, .fabric, .dma, .windows, .mbReqs, .weir, .nextId]
  | .tileAlignment .. =>
    [.regs, .latches, .flagsNow, .mem, .written, .poison, .corePoison, .hostMem, .out, .time, .clock, .cross, .faults,
      .cores, .contexts, .ended, .parts, .sites, .links, .fabric, .dma, .windows, .mbReqs, .weir, .house, .springs,
      .nextId]
  | .timeBeacon .. =>
    [.regs, .flagsNow, .out, .time, .faults, .sites]
  | .timeBackupCopy =>
    [.time]
  | .tickEnd =>
    [.regs, .latches, .firstWrite, .upsets, .flagsNow, .mem, .written, .poison, .corePoison, .hostMem, .out, .time,
      .clock, .cross, .faults, .cores, .contexts, .gens, .startReqs, .ended, .parts, .far, .farPending, .sites, .links,
      .fabric, .qps, .bme, .d3hot, .linkUp, .vfsOn, .dma, .windows, .mbReqs, .taken, .acts, .nextAct, .weir, .island,
      .power, .house, .springs, .start, .maint, .nextId, .freeCount]
  | .combinerResolveTick | .repeatWindowClose | .clampTrip .. =>
    [.regs, .flagsNow, .faults]
  | .faultReport .. =>
    [.regs, .flagsNow, .faults, .house]
  | .logWrite | .combinerFeedLoss .. =>
    [.regs, .faults]
  | .stepArmed .. =>
    [.clock]
  | .stepDeadline | .stepCommit =>
    [.regs, .flagsNow, .mem, .written, .poison, .corePoison, .hostMem, .out, .clock, .faults, .cores, .ended, .parts,
      .sites, .links, .dma, .windows, .mbReqs, .nextId]
  | .coreRampDone .. =>
    [.regs, .out, .cores, .windows, .mbReqs]
  | .crossingPartnerReset .. =>
    [.regs, .latches, .flagsNow, .mem, .written, .poison, .corePoison, .hostMem, .out, .clock, .cross, .faults, .cores,
      .contexts, .ended, .parts, .sites, .links, .dma, .nextId]
  | .partnerUp .. =>
    [.regs, .out, .clock, .cross, .faults, .sites]
  | .bundleIssue .. | .coreIdlePowerOff .. =>
    [.regs, .cores]
  | .nop .. =>
    []
  | .ldtd .. | .arrayOpComplete .. | .drainComplete .. | .transcendentalResult .. | .post .. | .closeReport .. =>
    [.out, .faults, .cores, .contexts, .sites, .nextId]
  | .mma .. | .merge .. | .vld .. =>
    [.regs, .poison, .corePoison, .out, .faults, .cores, .contexts, .sites, .nextId]
  | .drain .. =>
    [.regs, .flagsNow, .mem, .written, .poison, .corePoison, .hostMem, .out, .faults, .cores, .contexts, .ended, .sites,
      .dma, .nextId]
  | .vst .. =>
    [.regs, .mem, .written, .poison, .corePoison, .out, .faults, .cores, .contexts, .sites, .nextId]
  | .add .. | .sub .. | .mul .. | .fma .. | .min .. | .max .. | .abs .. | .neg .. | .cvt .. | .cvtmx .. | .unpkmx ..
  | .exp2 .. | .log2 .. | .rcp .. | .rsq .. | .tanh .. | .rmax .. | .rsum .. | .bcast .. =>
    [.regs, .out, .faults, .cores, .contexts, .sites, .nextId]
  | .move .. =>
    [.regs, .flagsNow, .poison, .corePoison, .hostMem, .faults, .cores, .ended, .sites, .dma, .nextId]
  | .moveComplete .. =>
    [.regs, .flagsNow, .mem, .written, .poison, .corePoison, .hostMem, .out, .faults, .cores, .contexts, .ended, .parts,
      .sites, .dma, .nextId]
  | .wait .. | .waitRelease .. =>
    [.cores, .contexts]
  | .close .. =>
    [.cores]
  | .setsel .. =>
    [.regs, .poison, .corePoison, .faults, .cores]
  | .fault .. =>
    [.faults, .cores]
  | .rdstat .. =>
    [.regs, .mem, .written, .poison, .corePoison, .faults, .cores]
  | .operandParityFault .. =>
    [.regs, .flagsNow, .hostMem, .out, .faults, .cores, .contexts, .sites, .windows, .weir]
  | .barrierToken .. =>
    [.regs, .flagsNow, .faults, .cores, .contexts, .sites]
  | .barrierComplete .. =>
    [.regs, .faults, .cores, .contexts, .sites]
  | .abortComplete .. =>
    [.regs, .out, .cores, .contexts, .ended, .sites, .qps, .windows, .mbReqs]
  | .siteReset .. | .caps .. | .reject .. | .commit .. | .sidebandReplyTimeout .. | .outletLight .. =>
    [.regs, .latches, .flagsNow, .mem, .written, .poison, .corePoison, .hostMem, .out, .clock, .cross, .faults, .cores,
      .contexts, .ended, .parts, .sites, .links, .fabric, .dma, .windows, .weir, .nextId]
  | .inval .. =>
    [.regs, .flagsNow, .hostMem, .out, .faults, .cores, .ended, .sites, .links, .dma]
  | .invalAck .. =>
    [.regs, .flagsNow, .mem, .written, .poison, .corePoison, .hostMem, .out, .faults, .cores, .ended, .parts, .sites,
      .links, .dma]
  | .hbmRefresh .. | .creditMessage .. =>
    [.regs, .sites]
  | .scrub .. =>
    [.regs, .poison, .corePoison, .faults, .sites]
  | .poisonNotice =>
    [.regs, .flagsNow, .hostMem, .out, .faults, .windows, .weir]
  | .ringSettled .. =>
    [.regs, .out, .sites]
  | .retuneLate .. | .channelFailed .. | .viaParityError .. =>
    [.regs, .flagsNow, .faults, .sites]
  | .scheduledData .. =>
    [.regs, .flagsNow, .mem, .written, .poison, .corePoison, .faults, .cores, .contexts, .sites]
  | .postToken .. =>
    [.regs, .flagsNow, .out, .faults, .cores, .contexts, .sites]
  | .receiptConfirmation .. | .propose .. | .hello .. | .offer .. | .limit .. =>
    [.out, .sites]
  | .lossOfSignal .. | .lossOfLock .. | .fibreSwap .. | .helloTimeout .. | .readData .. | .writeAck .. | .atomicResult ..
  | .refusal .. | .neighbourHello .. | .linkState .. | .weirMsg .. | .egressDrainTimeout .. =>
    [.regs, .flagsNow, .hostMem, .out, .faults, .cores, .ended, .sites, .links, .fabric, .dma]
  | .bundleFrame .. | .bundleTraining .. | .agree .. | .laneMapSwitch .. | .accept .. | .lanes .. | .refuse ..
  | .reportLate .. | .channelFrame .. =>
    [.regs, .flagsNow, .out, .faults, .sites]
  | .report .. | .limitAck .. =>
    [.regs, .flagsNow, .out, .faults, .cores, .sites]
  | .powerExcessTimeout .. =>
    [.regs, .latches, .flagsNow, .mem, .written, .poison, .corePoison, .hostMem, .out, .clock, .cross, .faults, .cores,
      .contexts, .ended, .parts, .sites, .links, .dma, .windows, .weir, .nextId]
  | .abangoAlert .. =>
    [.out, .faults, .sites]
  | .springFailed .. | .springLockTimeout .. =>
    [.regs, .latches, .flagsNow, .mem, .written, .poison, .corePoison, .hostMem, .out, .clock, .cross, .faults, .cores,
      .contexts, .ended, .parts, .sites, .links, .fabric, .dma, .windows, .acts, .weir, .springs, .nextId]
  | .springRestore =>
    [.regs, .springs]
  | .springLocked .. =>
    [.regs, .latches, .flagsNow, .mem, .written, .poison, .corePoison, .hostMem, .out, .clock, .cross, .faults, .cores,
      .contexts, .ended, .parts, .sites, .links, .fabric, .dma, .windows, .weir, .record, .springs, .nextId]
  | .calibrationDone .. =>
    [.regs, .upsets, .flagsNow, .hostMem, .out, .clock, .faults, .sites, .windows, .acts, .weir, .flash]
  | .clampReopen .. =>
    [.regs, .links]
  | .linkFlit .. =>
    [.regs, .out, .links]
  | .linkTrained .. | .linkSleepEnter .. =>
    [.regs, .flagsNow, .hostMem, .out, .faults, .cores, .ended, .sites, .links, .fabric, .dma, .windows, .acts, .weir]
  | .read .. | .write .. | .atomic .. =>
    [.regs, .flagsNow, .mem, .written, .poison, .corePoison, .hostMem, .out, .faults, .cores, .ended, .parts, .sites,
      .links, .fabric, .dma, .nextId]
  | .helloRepeat | .timeSyncPeriod =>
    [.links]
  | .timeSync .. =>
    [.regs, .flagsNow, .hostMem, .out, .time, .faults, .cores, .ended, .sites, .links, .fabric, .dma, .freeCount]
  | .convergenceTimer =>
    [.regs, .flagsNow, .fabric]
  | .flaggedStoreRelease .. =>
    [.regs, .flagsNow, .hostMem, .faults, .cores, .ended, .sites, .dma]
  | .dispatch .. =>
    [.startReqs, .ended, .qps]
  | .copy .. =>
    [.regs, .qps, .dma, .nextId]
  | .queueNop .. =>
    [.ended, .qps]
  | .dmaBurstComplete .. =>
    [.regs, .flagsNow, .mem, .written, .poison, .corePoison, .hostMem, .faults, .cores, .ended, .parts, .sites, .dma,
      .nextId]
  | .dmaHalt .. =>
    [.regs, .flagsNow, .hostMem, .out, .faults, .ended, .dma, .windows, .weir]
  | .coalescingTimeout .. =>
    [.regs, .out, .qps]
  | .functionLevelReset .. | .hotReset | .d3hotExit .. | .vfEnable .. =>
    [.regs, .latches, .clock, .contexts, .startReqs, .ended, .farPending, .qps, .bme, .d3hot, .vfsOn, .dma, .windows,
      .mbReqs]
  | .hostLinkDown =>
    [.regs, .latches, .clock, .faults, .contexts, .startReqs, .ended, .farPending, .qps, .bme, .d3hot, .linkUp, .vfsOn,
      .dma, .windows, .mbReqs]
  | .info | .evtRingSet | .timeSet | .partStatus | .ctxQuery | .maintStatus | .logCounters | .fwSelect =>
    [.regs, .out, .windows, .mbReqs, .weir]
  | .fabricCoord =>
    [.regs, .flagsNow, .out, .fabric, .windows, .mbReqs, .weir, .record]
  | .partCreate =>
    [.regs, .mem, .corePoison, .out, .cores, .parts, .windows, .mbReqs, .weir]
  | .partDestroy =>
    [.regs, .out, .parts, .windows, .mbReqs, .taken, .acts, .nextAct, .weir]
  | .destroyTimeout =>
    [.regs, .flagsNow, .hostMem, .out, .parts, .windows, .acts, .weir]
  | .partBind | .partSeal =>
    [.regs, .out, .parts, .windows, .mbReqs, .weir]
  | .partMem =>
    [.regs, .written, .out, .parts, .sites, .windows, .mbReqs, .weir]
  | .partKey =>
    [.regs, .out, .parts, .windows, .mbReqs, .taken, .weir]
  | .partEgress =>
    [.regs, .out, .windows, .mbReqs, .taken, .weir, .island]
  | .pondCache =>
    [.regs, .out, .windows, .mbReqs, .weir, .island]
  | .pondArea =>
    [.regs, .written, .out, .parts, .windows, .mbReqs, .taken, .weir]
  | .cacheSlices =>
    [.regs, .out, .parts, .sites, .windows, .mbReqs, .weir]
  | .cacheFlush =>
    [.regs, .out, .sites, .windows, .mbReqs, .weir]
  | .farMap =>
    [.regs, .out, .farPending, .windows, .mbReqs, .weir]
  | .farUnmap =>
    [.regs, .out, .far, .farPending, .sites, .fabric, .windows, .mbReqs, .weir]
  | .farUnmapTimeout =>
    [.regs, .out, .farPending, .windows, .mbReqs]
  | .planLoad =>
    [.regs, .mem, .written, .poison, .corePoison, .out, .faults, .contexts, .gens, .windows, .mbReqs, .taken, .weir]
  | .planUnload =>
    [.regs, .out, .cores, .contexts, .ended, .sites, .windows, .mbReqs, .weir]
  | .ctxAbort =>
    [.regs, .out, .contexts, .windows, .mbReqs, .weir]
  | .qpCreate =>
    [.regs, .out, .qps, .windows, .mbReqs, .weir]
  | .qpDelete =>
    [.regs, .out, .contexts, .startReqs, .ended, .qps, .dma, .windows, .mbReqs, .weir]
  | .vfQpRange =>
    [.regs, .out, .vfRanges, .windows, .mbReqs, .weir]
  | .stackSelftest | .calChannel | .calAll | .calSave | .calRestore | .hbmRepair | .refRecover | .swapDrill =>
    [.regs, .flagsNow, .out, .clock, .sites, .windows, .mbReqs, .taken, .acts, .nextAct, .weir]
  | .maintCancel =>
    [.regs, .flagsNow, .hostMem, .out, .clock, .sites, .windows, .mbReqs, .acts, .weir]
  | .activityDone .. =>
    [.regs, .flagsNow, .mem, .written, .poison, .corePoison, .hostMem, .out, .clock, .faults, .sites, .windows, .acts,
      .weir, .flash]
  | .stepCore =>
    [.regs, .out, .cores, .windows, .mbReqs, .weir]
  | .stepModule =>
    [.regs, .out, .clock, .windows, .mbReqs, .weir]
  | .linkSleep =>
    [.regs, .flagsNow, .hostMem, .out, .faults, .cores, .ended, .sites, .links, .fabric, .dma, .windows, .mbReqs,
      .taken, .acts, .nextAct, .weir]
  | .linkWake =>
    [.regs, .flagsNow, .hostMem, .out, .links, .windows, .mbReqs, .taken, .acts, .nextAct, .weir]
  | .linkRelease =>
    [.regs, .out, .links, .windows, .mbReqs, .weir]
  | .logRead =>
    [.regs, .out, .faults, .windows, .mbReqs, .weir]
  | .flashErase | .flashProgram =>
    [.regs, .out, .windows, .mbReqs, .taken, .acts, .nextAct, .weir]
  | .beat .. =>
    [.regs, .weir]
  | .beatMissed .. =>
    [.regs, .flagsNow, .faults, .windows, .acts, .weir]
  | .explicitFault .. | .gapBoundExpiry =>
    [.regs, .flagsNow, .hostMem, .out, .clock, .faults, .sites, .links, .fabric, .windows, .mbReqs, .acts, .weir,
      .record, .springs]
  | .switchoverComplete =>
    [.regs, .flagsNow, .hostMem, .out, .clock, .faults, .sites, .links, .fabric, .windows, .mbReqs, .acts, .weir,
      .record, .springs, .freeCount]
  | .checkpointWrite =>
    [.weir]
  | .standbyImageCheck .. =>
    [.regs, .faults, .weir]
  | .feedBad .. =>
    [.regs, .flagsNow, .faults, .island, .power]
  | .feedGood .. =>
    [.regs, .faults, .island, .power]
  | .islandToVkeep =>
    [.regs, .latches, .firstWrite, .upsets, .flagsNow, .mem, .written, .poison, .corePoison, .time, .clock, .cross,
      .faults, .cores, .contexts, .gens, .startReqs, .ended, .parts, .farPending, .sites, .links, .fabric, .qps, .bme,
      .d3hot, .linkUp, .vfsOn, .dma, .windows, .mbReqs, .taken, .acts, .nextAct, .weir, .island, .power, .house,
      .springs, .start, .maint]
  | .islandReturn .. =>
    [.regs, .time, .weir, .island]
  | .domainVoltageFault .. =>
    [.regs, .latches, .firstWrite, .upsets, .flagsNow, .mem, .written, .poison, .corePoison, .hostMem, .out, .time,
      .clock, .cross, .faults, .cores, .contexts, .gens, .startReqs, .ended, .parts, .farPending, .sites, .links,
      .fabric, .qps, .bme, .d3hot, .linkUp, .vfsOn, .dma, .windows, .mbReqs, .taken, .acts, .nextAct, .weir, .record,
      .island, .power, .house, .springs, .start, .maint, .nextId]
  | .throttleStart .. =>
    [.regs, .flagsNow, .faults, .cores, .power]
  | .throttleStep .. =>
    [.regs, .flagsNow, .hostMem, .out, .faults, .cores, .contexts, .sites, .windows, .weir, .power]
  | .throttleEnd =>
    [.regs, .power]
  | .housekeepingRoundEnd .. =>
    [.regs, .flagsNow, .hostMem, .out, .clock, .faults, .cores, .contexts, .sites, .windows, .acts, .weir, .power,
      .house, .springs]
  | .thermalTrip .. =>
    [.regs, .latches, .firstWrite, .upsets, .flagsNow, .mem, .written, .poison, .corePoison, .out, .time, .clock,
      .cross, .faults, .cores, .contexts, .gens, .startReqs, .ended, .parts, .farPending, .sites, .links, .fabric, .qps,
      .bme, .d3hot, .linkUp, .vfsOn, .dma, .windows, .mbReqs, .taken, .acts, .nextAct, .weir, .island, .power, .house,
      .springs, .start, .maint]
  | .tripClear =>
    [.island]
  | .moduleResetPin =>
    [.start]
  | .weirBoot .. =>
    [.regs, .latches, .flagsNow, .mem, .written, .poison, .corePoison, .hostMem, .out, .clock, .cross, .faults, .cores,
      .contexts, .ended, .parts, .sites, .links, .fabric, .dma, .windows, .mbReqs, .weir, .record, .island, .maint,
      .nextId]
  | .coreSelftest .. =>
    [.regs, .latches, .flagsNow, .mem, .written, .poison, .corePoison, .hostMem, .out, .clock, .cross, .faults, .cores,
      .contexts, .ended, .parts, .sites, .links, .fabric, .dma, .windows, .mbReqs, .acts, .nextAct, .weir, .nextId]
  | .calStage .. =>
    [.regs, .latches, .flagsNow, .mem, .written, .poison, .corePoison, .hostMem, .out, .clock, .cross, .faults, .cores,
      .contexts, .ended, .parts, .sites, .links, .fabric, .dma, .windows, .acts, .weir, .flash, .nextId]
  | .stageBoundExpiry .. =>
    [.regs, .latches, .flagsNow, .mem, .written, .poison, .corePoison, .hostMem, .out, .clock, .cross, .faults, .cores,
      .contexts, .ended, .parts, .sites, .links, .fabric, .dma, .windows, .mbReqs, .acts, .nextAct, .weir, .springs,
      .flash, .nextId]
  | .ready =>
    [.regs, .flagsNow, .faults, .cores, .parts, .sites, .island]
  | .calImageWrite =>
    [.flash]
  | .getStatus | .getSensors .. | .mctpLogCounters | .getEndpointId | .getMctpVersionSupport | .getMessageTypeSupport
  | .getVendorDefinedMessageSupport | .arm .. =>
    [.out]
  | .mctpLogRead .. =>
    [.out, .faults]
  | .mctpModuleReset .. =>
    [.out, .start]
  | .setEndpointId .. | .uartFrame .. | .consoleVer | .consoleStat | .consoleSensors | .consoleLog | .consoleCounters
  | .consoleBaud =>
    [.out, .maint]
  | .uartBreak =>
    [.maint]
  | .bypass .. | .idcode | .samplePreload .. | .statusRd | .logRd .. =>
    [.out, .start, .maint]
  | .extest .. =>
    [.start, .maint]
  | .moveLastByteLeftSource .. =>
    [.regs, .flagsNow, .hostMem, .out, .faults, .cores, .contexts, .ended, .parts, .sites, .dma, .nextId]
  | .refreshManagementRequest .. =>
    [.sites]
  | .linkControlWord .. =>
    [.regs, .flagsNow, .out, .links]
  | .vkeepLost =>
    [.regs, .latches, .time, .faults, .parts, .far, .vfRanges, .weir, .island]
  | .moduleResetRelease =>
    [.regs, .start]
  | .d3hotEntry .. =>
    [.d3hot]
  | .hostLinkUp =>
    [.linkUp]

/-- The memories and their marks are in canonical form: equal contents are equal data. -/
structure MemOk (s : State) : Prop where
  mem : Memory.wf s.mem = true
  hostMem : Memory.wf s.hostMem = true
  written : twf (fun _ => false) s.written = true
  poison : twf (fun _ => false) s.poison = true
  corePoison : twf (fun _ => false) s.corePoison = true

/-- Core `c` runs context `x`, whose part on that core is `k`. -/
def Runs (s : State) (c : Nat) (x : Context) (k : CtxCore) : Prop := runCtx? s c = some x ∧ ctxCore? x c = some k

/-- The unit of a slot takes an operation next; `y` is the core once it has. -/
def Accepts (s : State) (c : Nat) (sl : Slot) (op : SlotOp) (y : CoreState) : Prop := takeOp (core s c) sl op = some y

/-- Firmware's next request is `r`, of an opcode, and it passes the checks that precede a command's own. -/
def Served (s : State) (op : Nat) (r : MbReq) : Prop :=
  weirServes s = true ∧ (s.mbReqs.find? fun q => !q.executed) = some r ∧ r.opcode = op ∧ precheck s r = none

/-- Request `r` has been answered with `a`: the response stands in its window, and the window's state says so. -/
def Answered (s t : State) (r : MbReq) (a : Ans) : Prop :=
  (win t r.fn).resp = respArea r.seq a (tickOf s) ∧ (win t r.fn).seq = r.seq ∧
    (win t r.fn).mode = (if a.status = stRetry then 3 else 2) ∧ ∀ q ∈ t.mbReqs, ¬ (q.fn = r.fn ∧ q.seq = r.seq ∧ q.tick = r.tick)

/-- A via group's errors within the last 1 ms, and its spare: 1 + the via that it stands for, 0 where it is free (R325). -/
def viaErrors (a : Abango) (d : Dir) (q : Nat) : List Nat := tget [] (match d with
  | .down => a.viaErrDn
  | .up => a.viaErrUp) q
def viaSpare (a : Abango) (d : Dir) (q : Nat) : Nat := tget 0 (match d with
  | .down => a.viaSpareDn
  | .up => a.viaSpareUp) q

/-- A start stands in a stage and has not failed, and a Weir serves. -/
def InStage (s : State) (n : Nat) : Prop := stage s = n ∧ startFailed s = false ∧ weirServes s = true

/-- The command that a V-slot operation over vector registers is. -/
def vecInstr (op : VecOp) (c : CoreNo) (f : VecF) : Instr :=
  match op with
  | .add => .add c f
  | .sub => .sub c f
  | .mul => .mul c f
  | .fma => .fma c f
  | .min => .min c f
  | .max => .max c f
  | .abs => .abs c f
  | .neg => .neg c f
  | .cvt => .cvt c f
  | .cvtmx => .cvtmx c f
  | .unpkmx => .unpkmx c f
  | .exp2 => .exp2 c f
  | .log2 => .log2 c f
  | .rcp => .rcp c f
  | .rsq => .rsq c f
  | .tanh => .tanh c f
  | .rmax => .rmax c f
  | .rsum => .rsum c f
  | .bcast => .bcast c f

end Sys2Proof.Machine
end

