-- ==== Sys2Proof/Certificates/Slice0/Obligations.lean ====
section
/-! DEFINITION. The statements about the block: one proposition per statement, over the meanings of
its commands, its operations and its step.  Each docstring says what the statement claims and which
rules of the specification it rests on; OBLIGATIONS.json lists them with their tiers.  A statement
of a command's effect has as its conclusion the next state the command answers, so it says both that
the command completes and what it leaves; what every command leaves alone is said once, by
`Obligations.CommandsChangeOnlyTheirFootprint`. -/

open Sys2Proof Sys2Proof.Machine

/-- The guarded pair GLOBAL_RESET: first write, matching complement, mismatch, and a write with
nothing pending.  While PF0 reaches GLOBAL_RESET: PAIR_FIRST_WRITE with nothing pending makes its
value the pending first write and changes nothing else; with a pair pending it also sets
PAIR_MISMATCH, and its own value is then pending. GLOBAL_RESET_GO with the bitwise complement of
the pending value ends the pair and, with GO = 1, requests a module reset, changing nothing else.
A complement that does not match, or with nothing pending, sets PAIR_MISMATCH, leaves nothing
pending and requests no reset. While PF0 does not reach the register both commands change nothing.
(Rests on R18, R632) -/
def Obligations.GuardedPairRequestsModuleReset : Prop :=
  (∀ (s : State) (v : Word), pf0Reg s Reg.globalReset = true → s.firstWrite = none →
    exec (.pairFirstWrite v) s = .next { s with firstWrite := some v.toNat }) ∧
  (∀ (s : State) (v : Word) (n : Nat), pf0Reg s Reg.globalReset = true → s.firstWrite = some n →
    ∃ t, exec (.pairFirstWrite v) s = .next t ∧ t.firstWrite = some v.toNat ∧ regBit t Reg.globalFlags 0 = true) ∧
  (∀ (s : State) (v : Word), pf0Reg s Reg.globalReset = true → s.firstWrite = some v.toNat → v.getLsbD 0 = true →
    exec (.globalResetGo (~~~v)) s =
      .next { s with firstWrite := none, start := { s.start with resetReq := true } }) ∧
  (∀ (s : State) (v : Word), pf0Reg s Reg.globalReset = true → s.firstWrite = some v.toNat → v.getLsbD 0 = false →
    exec (.globalResetGo (~~~v)) s = .next { s with firstWrite := none }) ∧
  (∀ (s : State) (c : Word), pf0Reg s Reg.globalReset = true → s.firstWrite ≠ some (~~~c).toNat →
    (∀ n ∈ s.firstWrite, n < 2 ^ 32) →
    ∃ t, exec (.globalResetGo c) s = .next t ∧ t.firstWrite = none ∧ t.start = s.start ∧
      regBit t Reg.globalFlags 0 = true) ∧
  (∀ (s : State) (v : Word), pf0Reg s Reg.globalReset = false →
    exec (.pairFirstWrite v) s = .next s ∧ exec (.globalResetGo v) s = .next s)

/-- Host accesses: discarded forms, write-1-to-clear, read-only registers, and the latched 64-bit
pair.  A write that is not four aligned bytes changes nothing, and a read of another size or
alignment answers 0. A PF0 write to a flag register of a site's transport or Abango block, of a
link or of an Outlet's optics that PF0 reaches clears exactly the flag bits written 1 that
hardware has not set in the same tick, and every other register keeps its value. A PF0 write to a
read-only register of those blocks changes nothing. A read of the low half of a pair that PF0
reaches answers the low 32 bits and latches the high 32 bits for the function; a read of the high
half answers that latch and changes nothing else. A read of a register that is no half of a pair,
in a block that is off, answers 0. A read of BAR2 or BAR4 answers the word that the function sees
there and changes nothing else.  (Rests on R15, R17, R19, R20, R471) -/
def Obligations.HostAccessTakesEffectByAccessCode : Prop :=
  (∀ (s : State) (fn : Fn) (bar : Bar) (off size : Nat) (v : Word), size ≠ 4 ∨ off % 4 ≠ 0 →
    exec (.hostRegisterWrite fn bar off size v) s = .next s) ∧
  (∀ (s : State) (fn : Fn) (bar : Bar) (off size : Nat), fnReach s fn = true → fn = 0 ∨ bar ≠ .bar0 → size ≠ 4 ∨ off % 4 ≠ 0 →
    exec (.l64LowRead fn ⟨bar, off, size⟩) s = .next { s with out := s.out ++ [.readValue fn 0] }) ∧
  (∀ (s : State) (v : Word) (n : Fin 16) (off : Nat), pf0Reg s off = true →
    off ∈ [Reg.basinFlags n, Reg.abangoFlags n, Reg.linkFlags n, Reg.optFlags n] →
    ∃ t, exec (.hostRegisterWrite 0 .bar0 off 4 v) s = .next t ∧
      (∀ i, regBit t off i =
        (regBit s off i && !(v.getLsbD i && bit (Reg.w1cBits off) i && !bit (tget 0 s.flagsNow off) i))) ∧
      (∀ k, k ≠ off → reg t k = reg s k) ∧ t.out = s.out) ∧
  (∀ (s : State) (v : Word) (n : Fin 16) (off : Nat), pf0Reg s off = true →
    off ∈ [Reg.basinStat n, Reg.abangoStat n, Reg.linkStat n, Reg.optStat n, Reg.linkLanes n] →
    exec (.hostRegisterWrite 0 .bar0 off 4 v) s = .next s) ∧
  (∀ (s : State) (off : Nat), pf0Reg s off = true → off % 4 = 0 → Reg.pairLow off = true →
    exec (.l64LowRead 0 ⟨.bar0, off, 4⟩) s =
      .next { s with latches := tput 0 s.latches off (regView s off / 2 ^ 32 % 2 ^ 32),
                     out := s.out ++ [.readValue 0 (BitVec.ofNat 32 (regView s off))] }) ∧
  (∀ (s : State) (n : Fin 16), pf0Reg s (Reg.linkTxFlits n + 4) = true →
    exec (.l64LowRead 0 ⟨.bar0, Reg.linkTxFlits n + 4, 4⟩) s =
      .next { s with out := s.out ++ [.readValue 0 (BitVec.ofNat 32 (tget 0 s.latches (Reg.linkTxFlits n)))] }) ∧
  (∀ (s : State) (off : Nat), fnReach s 0 = true → blockHeld s off = false → off % 4 = 0 → Reg.pairLow off = false →
    exec (.l64LowRead 0 ⟨.bar0, off, 4⟩) s = .next { s with out := s.out ++ [.readValue 0 0] }) ∧
  (∀ (s : State) (fn : Fn) (off : Nat), fnReach s fn = true → off % 4 = 0 →
    exec (.l64LowRead fn ⟨.bar2, off, 4⟩) s = .next { s with out := s.out ++ [.readValue fn (BitVec.ofNat 32 (bar2View s fn off))] } ∧
    exec (.l64LowRead fn ⟨.bar4, off, 4⟩) s = .next { s with out := s.out ++ [.readValue fn (BitVec.ofNat 32 (bar4View s fn off))] })

/-- PF0 writes of SITE_CPERF_CTL, DMA_CH_CTL, DMA_CH_FLAGS.HALTED and HOUSE_TRIGGER.  While PF0
reaches the register: CPERF_CLEAR zeroes each of the nine counters of the core and writes FREEZE
and ENABLE; CPERF_FREEZE writes FREEZE and keeps ENABLE, CPERF_ENABLE writes ENABLE and keeps
FREEZE, and both keep the nine counters. DMA_CHANNEL_DISABLE writes DISABLE and keeps PRIORITY;
DMA_CHANNEL_PRIORITY writes PRIORITY and keeps DISABLE. DMA_HALT_CLEAR clears HALTED and
DMA_CH_ERRINFO.VALID unless hardware has set HALTED in the same tick. HOUSE_TRIGGER with GO = 1
starts a round if none runs, and with GO = 0 changes nothing.  (Rests on R117, R118, R119, R451,
R454, R455, R465, R586, R638) -/
def Obligations.CounterAndChannelControlWrites : Prop :=
  (∀ (s : State) (c : CoreNo) (f e : Bool), pf0Reg s (Reg.cperfCtl c) = true →
    ∃ t, exec (.cperfClear c f e) s = .next t ∧
      (∀ r ∈ [Reg.cperfReplica c, Reg.cperfIssue c, Reg.cperfStallToken c, Reg.cperfStallBank c, Reg.cperfStallLink c,
        Reg.cperfArrayActive c, Reg.cperfArraySkipped c, Reg.cperfVector c, Reg.cperfCadenceOverrun c], reg t r = 0) ∧
      reg t (Reg.cperfCtl c) = (if f then 2 else 0) + (if e then 1 else 0)) ∧
  (∀ (s : State) (c : CoreNo) (b : Bool), pf0Reg s (Reg.cperfCtl c) = true →
    ∃ t, exec (.cperfFreeze c b) s = .next t ∧ regBit t (Reg.cperfCtl c) 1 = b ∧
      regBit t (Reg.cperfCtl c) 0 = regBit s (Reg.cperfCtl c) 0 ∧
      (∀ k, k ≠ Reg.cperfCtl c → k ≠ Reg.cperfStat c → reg t k = reg s k)) ∧
  (∀ (s : State) (c : CoreNo) (b : Bool), pf0Reg s (Reg.cperfCtl c) = true →
    ∃ t, exec (.cperfEnable c b) s = .next t ∧ regBit t (Reg.cperfCtl c) 0 = b ∧
      regBit t (Reg.cperfCtl c) 1 = regBit s (Reg.cperfCtl c) 1 ∧
      (∀ k, k ≠ Reg.cperfCtl c → k ≠ Reg.cperfStat c → reg t k = reg s k)) ∧
  (∀ (s : State) (ch : ChanNo) (b : Bool), pf0Reg s (Reg.dmaCtl ch) = true →
    ∃ t, exec (.dmaChannelDisable ch b) s = .next t ∧ regBit t (Reg.dmaCtl ch) 0 = b ∧
      field t (Reg.dmaCtl ch) 2 1 = field s (Reg.dmaCtl ch) 2 1) ∧
  (∀ (s : State) (ch : ChanNo) (p : Fin 4), pf0Reg s (Reg.dmaCtl ch) = true →
    ∃ t, exec (.dmaChannelPriority ch p) s = .next t ∧ field t (Reg.dmaCtl ch) 2 1 = p.val ∧
      regBit t (Reg.dmaCtl ch) 0 = regBit s (Reg.dmaCtl ch) 0) ∧
  (∀ (s : State) (ch : ChanNo), pf0Reg s (Reg.dmaFlags ch) = true → bit (tget 0 s.flagsNow (Reg.dmaFlags ch)) 0 = false →
    ∃ t, exec (.dmaHaltClear ch) s = .next t ∧ regBit t (Reg.dmaFlags ch) 0 = false ∧
      regBit t (Reg.dmaErrinfo ch) 31 = false) ∧
  (∀ (s : State), pf0Reg s Reg.houseTrigger = true → s.house.running = false → s.house.trigTick ≠ some (tickOf s) →
    ∃ t, exec (.houseTrigger true) s = .next t ∧ t.house.running = true ∧ t.house.started = s.time.now ∧
      regBit t Reg.houseStat 0 = true) ∧
  (∀ s : State, exec (.houseTrigger false) s = .next s)

/-- PF0 writes of CLOCK_REFCFG, CLOCK_CTRL and the calibration entries take effect only as their
blocks allow.  While PF0 reaches the register: REFA_MODE_WRITE in a disabled CLOCK block writes
REFA_MODE; in an enabled one it keeps the register and sets WRITE_IGNORED. CLOCK_ENABLE_WRITE sets
ENABLE whatever it writes and puts REFA_MODE in force, unless a parity mismatch stands in the
block: then it changes nothing. CAL_ENTRY_WRITE while the site's light block is disabled writes
the entry, with SEL clamped to 2 and the code to 3,200; while it is enabled the entry is kept and
WRITE_IGNORED is set.  (Rests on R17, R353, R368, R624, R628, R635) -/
def Obligations.ClockAndCalibrationWrites : Prop :=
  (∀ (s : State) (m : Bool), pf0Reg s Reg.clockRefcfg = true → regBit s Reg.clockCtrl 0 = false →
    ∃ t, exec (.refaModeWrite m) s = .next t ∧ reg t Reg.clockRefcfg = (if m then 1 else 0) ∧
      ∀ k, k ≠ Reg.clockRefcfg → reg t k = reg s k) ∧
  (∀ (s : State) (m : Bool), pf0Reg s Reg.clockRefcfg = true → regBit s Reg.clockCtrl 0 = true →
    ∃ t, exec (.refaModeWrite m) s = .next t ∧ regBit t Reg.clockFlags 0 = true ∧
      ∀ k, k ≠ Reg.clockFlags → reg t k = reg s k) ∧
  (∀ (s : State) (v : Word), pf0Reg s Reg.clockCtrl = true → (∀ u ∈ s.upsets, u.1 ≠ .clock) →
    ∃ t, exec (.clockEnableWrite v) s = .next t ∧ regBit t Reg.clockCtrl 0 = true ∧
      t.clock = { s.clock with refaMode := regBit s Reg.clockRefcfg 0 }) ∧
  (∀ (s : State) (v : Word) (b : Nat), pf0Reg s Reg.clockCtrl = true → (.clock, b) ∈ s.upsets →
    exec (.clockEnableWrite v) s = .next s) ∧
  (∀ (s : State) (i : SiteNo) (c : Fin 256) (v : Word), pf0Reg s (Reg.lightTxcal i c) = true →
    regBit s (Reg.lightStat i) 0 = false →
    ∃ t, exec (.calEntryWrite (.tx i c) v) s = .next t ∧
      field t (Reg.lightTxcal i c) 11 0 = minNat 3200 (bits v.toNat 11 0) ∧
      field t (Reg.lightTxcal i c) 29 28 = minNat 2 (bits v.toNat 29 28) ∧
      regBit t (Reg.lightTxcal i c) 31 = v.getLsbD 31) ∧
  (∀ (s : State) (i : SiteNo) (r : Fin 1024) (l : Fin 32) (v : Word), pf0Reg s (Reg.lightRxcal i r l) = true →
    regBit s (Reg.lightStat i) 0 = true →
    ∃ t, exec (.calEntryWrite (.rx i r l) v) s = .next t ∧ regBit t (Reg.lightFlags i) 6 = true ∧
      ∀ k, k ≠ Reg.lightFlags i → reg t k = reg s k)

/-- A parity mismatch flips the stored bit, is reported and counted; its restoration puts the bit
back; Bus Master Enable.  PARITY_MISMATCH of a DMA channel's control register, while the host
interface is on and no mismatch stands in it, flips the stored bit, writes the unit to
GLOBAL_PARITY_UNIT, counts it, sets CFG_PARITY and raises CONFIG 1; the mismatch stands until it
is restored. PARITY_RESTORE of a sealed key entry whose only flipped bit is b puts that bit back
and ends the mismatch; for a unit in which no mismatch stands it changes nothing.
BUS_MASTER_ENABLE with the bit clear changes that bit only; with the bit set the function may
master the bus from then on.  (Rests on R443, R625, R626, R627) -/
def Obligations.ParityMismatchDisablesAndRestores : Prop :=
  (∀ (s : State) (ch : ChanNo) (b : Nat), domOn s domHost = true → b < 3 → (∀ u ∈ s.upsets, u.1 ≠ .dmaCtl ch) →
    ∃ t, exec (.parityMismatch (.dmaCtl ch) b) s = .next t ∧ t.upsets = s.upsets ++ [(.dmaCtl ch, b)] ∧
      regBit t (Reg.dmaCtl ch) b = !regBit s (Reg.dmaCtl ch) b ∧
      reg t Reg.globalParityUnit = unitNo 0x14 ch ∧
      reg t Reg.globalParityCount = satAdd 32 (reg s Reg.globalParityCount) 1 ∧
      regBit t Reg.globalFlags 1 = true ∧
      ∃ r, t.faults.inTransit = s.faults.inTransit ++ [r] ∧ r.cls = 15 ∧ r.code = 1 ∧ r.unit = unitNo 0x14 ch) ∧
  (∀ (s : State) (i : SiteNo) (e : Fin 16) (b : Nat), b < 32 → s.upsets = [(.key i e, b)] →
    ∃ t, exec (.parityRestore (.key i e)) s = .next t ∧ t.upsets = [] ∧
      regBit t (Reg.basinKey i e) b = !regBit s (Reg.basinKey i e) b ∧
      ∀ k, k ≠ Reg.basinKey i e → reg t k = reg s k) ∧
  (∀ (s : State) (u : ParityUnit), (∀ e ∈ s.upsets, e.1 ≠ u) → exec (.parityRestore u) s = .next s) ∧
  (∀ (s : State) (f : Fn), exec (.busMasterEnable f false) s = .next { s with bme := tput false s.bme f false }) ∧
  (∀ (s : State) (f : Fn), ∃ t, exec (.busMasterEnable f true) s = .next t ∧
    (∀ g : Fn, tget false t.bme g = if g = f then true else tget false s.bme g))

/-- Doorbell writes: the tail and head tests, the mailbox doorbell and the event-ring head.  For a
function that the host reaches: SQ_TAIL_WRITE on a page of its own queue pair is accepted exactly
if (t - h) mod n is at least (t_old - h) mod n, and then sets the tail and clears DB_ERROR;
otherwise the tail is kept, DB_ERROR and QUEUE_FLAGS.DB_ERROR are set and QUEUE_DB_ERRORS counts
it. CQ_HEAD_WRITE takes a head that does not pass the write index, and flags one that does.
MB_DOORBELL on a window that is not PENDING, with the SEQ of the request header, not the last
accepted SEQ and outside a gap, is stamped; in a gap it sets BUSY with its SEQ; on a PENDING
window it sets DB_IGNORED and stamps nothing. MB_EVT_HEAD_WRITE sets MB_EVT_HEAD.  (Rests on R437,
R439, R440, R469, R470, R475, R480, R484) -/
def Obligations.DoorbellsAreCheckedAndTaken : Prop :=
  (∀ (s : State) (f : Fn) (page q : Nat) (v : Word), fnReach s f = true → pageQp s f page = some q →
    let x := qp s q; let n := sqSize x; let t := v.toNat % 65536 % n
    ((x.tail + n - x.head % n) % n ≤ (t + n - x.head % n) % n →
      exec (.sqTailWrite f page v) s = .next (putQp s q { x with tail := t, dbError := false })) ∧
    ((t + n - x.head % n) % n < (x.tail + n - x.head % n) % n →
      ∃ u, exec (.sqTailWrite f page v) s = .next u ∧ qp u q = { x with dbError := true } ∧
        regBit u Reg.queueFlags 1 = true ∧ reg u Reg.queueDbErrors = satAdd 64 (reg s Reg.queueDbErrors) 1)) ∧
  (∀ (s : State) (f : Fn) (page q : Nat) (v : Word), fnReach s f = true → pageQp s f page = some q →
    let x := qp s q; let n := cqSize x; let t := v.toNat % 65536 % n
    ((t + n - x.cqHead) % n ≤ (x.cqTail + n - x.cqHead) % n →
      exec (.cqHeadWrite f page v) s = .next (putQp s q { x with cqHead := t, dbError := false })) ∧
    ((x.cqTail + n - x.cqHead) % n < (t + n - x.cqHead) % n →
      ∃ u, exec (.cqHeadWrite f page v) s = .next u ∧ qp u q = { x with dbError := true } ∧
        regBit u Reg.queueFlags 1 = true)) ∧
  (∀ (s : State) (f : Fn) (v : Word), fnReach s f = true → (win s f).mode ≠ 1 →
    tget 0 (win s f).req 0 / 65536 = v.toNat % 65536 → (win s f).lastSeq ≠ some (v.toNat % 65536) →
    (s.weir.gap = none → s.weir.mgmtLost = false →
      ∃ t, exec (.mbDoorbell f f v) s = .next t ∧ (win t f).stamped = some (v.toNat % 65536) ∧
        (win t f).doorbell = v.toNat % 65536 ∧ (win t f).mode = (win s f).mode) ∧
    (s.weir.gap ≠ none →
      ∃ t, exec (.mbDoorbell f f v) s = .next t ∧ (win t f).stamped = none ∧ (win t f).mode = 4 ∧
        (win t f).seq = v.toNat % 65536)) ∧
  (∀ (s : State) (f : Fn) (v : Word), fnReach s f = true → (win s f).mode = 1 →
    ∃ t, exec (.mbDoorbell f f v) s = .next t ∧ (win t f).flags.getLsbD 0 = true ∧
      (win t f).stamped = (win s f).stamped ∧ (win t f).mode = 1) ∧
  (∀ (s : State) (f : Fn) (v : Word), fnReach s f = true →
    exec (.mbEvtHeadWrite f f v) s = .next (putWin s f { win s f with evtHead := v.toNat % 4096 })) ∧
  (∀ (s : State) (f w : Fn) (page : Nat) (v : Word), fnReach s f = false →
    exec (.sqTailWrite f page v) s = .next s ∧ exec (.cqHeadWrite f page v) s = .next s ∧
      exec (.mbDoorbell f w v) s = .next s ∧ exec (.mbEvtHeadWrite f w v) s = .next s)

/-- Basin time: the beacon and its corrections, the island copy, the load of tile alignment, and the
boundary of a tick.  While Basin time runs and TIME_CTRL.ENABLE is set, TIME_BEACON sends the
present time and corrects each copy: an error of at most 2 ns stays; a copy at most 16 ns ahead
begins to lose 1 ns in every 64 ns, one at most 16 ns behind to gain it; a copy further ahead is
held until the master reaches it, and one further behind jumps, both with the flag of a step. A
copy has drifted by the cycles its clock counted beyond its nominal frequency, which is all that
happens while the block is disabled. TIME_BACKUP_COPY, while the island has a feed, copies the
present time and changes nothing else. TILE_ALIGNMENT at stage 4 with no failed tile starts Basin
time: from the island's time where its backup is valid, else from 0. TICK_END ends the tick at its
boundary, 256 times the next tick number, where no load, slew or module reset waits; a load that
waits takes effect there.  (Rests on R59, R61, R62, R63, R64, R65, R67, R73) -/
def Obligations.BasinTimeIsSentCopiedLoadedAndTicked : Prop :=
  (∀ (s : State), s.time.running = true → regBit s Reg.timeCtrl 0 = true →
    ∃ t, exec (.timeBeacon []) s = .next t ∧ t.out = s.out ++ [.beacon s.time.now] ∧ t.time.now = s.time.now) ∧
  (∀ (s : State) (k : Nat) (e : Int), s.time.running = true → regBit s Reg.timeCtrl 0 = true → s.time.copyErr = [(k, e)] →
    tget 0 s.time.copyFix k ≠ 3 →
    ∃ t, exec (.timeBeacon []) s = .next t ∧
      (nsUnits (-2) ≤ e → e ≤ nsUnits 2 → tget 0 t.time.copyErr k = e ∧ tget 0 t.time.copyFix k = 0) ∧
      (nsUnits 2 < e → e ≤ nsUnits 16 → tget 0 t.time.copyErr k = e ∧ tget 0 t.time.copyFix k = 2) ∧
      (e < nsUnits (-2) → nsUnits (-16) ≤ e → tget 0 t.time.copyErr k = e ∧ tget 0 t.time.copyFix k = 1) ∧
      (nsUnits 16 < e → tget 0 t.time.copyErr k = e ∧ tget 0 t.time.copyFix k = 3 ∧ regBit t Reg.timeStat 1 = true) ∧
      (e < nsUnits (-16) → tget 0 t.time.copyErr k = 0 ∧ tget 0 t.time.copyFix k = 0 ∧ regBit t Reg.timeStat 1 = true)) ∧
  (∀ (s : State) (k : Nat) (n : Int), k < 28 → k ≠ 4 → regBit s Reg.timeCtrl 0 = false →
    exec (.timeBeacon [(k, n)]) s =
      .next { s with time := { s.time with copyErr := tmod 0 s.time.copyErr k (· + n * localPeriod s k) } }) ∧
  (∀ (s : State), s.time.running = true → s.island.onVkeep = false →
    exec .timeBackupCopy s = .next { s with time := { s.time with backup := s.time.now, backupValid := true, shift := 0 } }) ∧
  (∀ (s : State) (delays : List Nat), stage s = 4 → startFailed s = false → weirServes s = true → s.time.running = false →
    ∃ t, exec (.tileAlignment 0 delays) s = .next t ∧ t.time.running = true ∧
      t.time.now = (if s.time.backupValid then islandTime s else 0) ∧ t.faults.nextTick = t.time.now / 256) ∧
  (∀ (s : State), s.start.resetReq = false → weirServes s = false →
    ∃ t, exec .tickEnd s = .next t ∧
      (s.time.setAt = none → s.time.slewLeft = 0 → t.time.now = 256 * (tickOf s + 1)) ∧
      (∀ v, s.time.setAt = some v → t.time.now = v ∧ t.time.setAt = none ∧ t.time.slewLeft = 0))

/-- Fault reports are counted and placed, resolved into records of their tick, repeated in windows,
and written to the log.  FAULT_REPORT of a class that triggers no housekeeping round adds 1 to the
counter of its class and, while Basin time runs, is placed in its own tick, or marked late in the
oldest unresolved tick when its own is resolved. COMBINER_RESOLVE_TICK, three ticks after the only
tick that holds reports, makes one record of a single report, and of two reports of one signature
one record with count 2 whose first source is the lower; the next tick to resolve is the one
after. REPEAT_WINDOW_CLOSE emits the REPEAT record of the oldest window once its last tick is
resolved, and changes nothing else. LOG_WRITE, while a Weir serves and the log is not full, writes
the oldest record under the next entry number and advances the number.  (Rests on R68, R69, R533,
R537, R538, R540, R541, R542) -/
def Obligations.CombinerMergesAndLogsReports : Prop :=
  (∀ (s : State) (r : Report), r.cls ∉ ([0, 1, 4] : List (Fin 16)) → s.time.running = true →
    ∃ t, exec (.faultReport r) s = .next t ∧
      reg t (Reg.faultClass r.cls) = (reg s (Reg.faultClass r.cls) + 1) % 2 ^ 64 ∧
      t.faults.inTransit = dropReport r s.faults.inTransit ∧
      (s.faults.nextTick ≤ r.stamp → t.faults.arrived = s.faults.arrived ++ [⟨r, r.stamp, false⟩]) ∧
      (r.stamp < s.faults.nextTick → t.faults.arrived = s.faults.arrived ++ [⟨r, s.faults.nextTick, true⟩] ∧
        regBit t Reg.faultFlags 2 = true)) ∧
  (∀ (s : State) (r : Report) (n : Nat), s.time.running = true → s.faults.nextTick ≤ n → n + 3 ≤ tickOf s →
    s.faults.arrived = [⟨r, n, false⟩] → s.faults.windows = [] → s.faults.queue = [] →
    ∃ t, exec .combinerResolveTick s = .next t ∧ t.faults.queue = [recOf r false] ∧ t.faults.arrived = [] ∧
      t.faults.nextTick = n + 1) ∧
  (∀ (s : State) (r q : Report) (n : Nat), s.time.running = true → s.faults.nextTick ≤ n → n + 3 ≤ tickOf s →
    s.faults.arrived = [⟨r, n, false⟩, ⟨q, n, false⟩] → s.faults.windows = [] → s.faults.queue = [] →
    sameSig (recOf q false) (recOf r false) = true → q.src < r.src →
    ∃ t x, exec .combinerResolveTick s = .next t ∧ t.faults.queue = [x] ∧ x.count = 2 ∧ x.firstSrc = q.src ∧ x.d0 = q.d0 ∧
      reg t Reg.faultMerged = (reg s Reg.faultMerged + 1) % 2 ^ 64) ∧
  (∀ (s : State) (w : RepWindow) (ws : List RepWindow), s.faults.windows = w :: ws → w.opened + 4096 ≤ s.faults.nextTick →
    w.count ≠ 0 → s.faults.queue.length < 512 →
    exec .repeatWindowClose s =
      .next { s with faults := { s.faults with windows := ws, queue := s.faults.queue ++ [repeatRec w] } }) ∧
  (∀ (s : State) (r : LogRec) (rs : List LogRec), s.faults.queue = r :: rs → weirServes s = true →
    s.faults.log.length < 4096 →
    ∃ t, exec .logWrite s = .next t ∧ t.faults.queue = rs ∧
      t.faults.log = s.faults.log ++ [⟨reg s Reg.faultLogNext, r, false⟩] ∧
      reg t Reg.faultLogNext = (reg s Reg.faultLogNext + 1) % 2 ^ 32)

/-- The module step change: a region arms, the controller checks at the deadline, stacks quiesce, and
the step is committed or abandoned.  With a change armed: ARM of a powered participant out of
reset whose voltage suffices for the target answers ARMED and changes nothing else; STEP_ARMED
records the answer. At the deadline STEP_DEADLINE passes the change if every participant has
answered and the band of the hottest Pond permits the target, and otherwise abandons it, with its
ABANDONED flag set and no change left. HBM_STEP_QUIESCE of a passed change, 2 us before the commit
count, puts every participating stack into self refresh. STEP_COMMIT of a passed change at its
commit count ends the change, and CURRENT takes the target, or while the PLLs coast the target is
what will be restored; a region that waits in its reset exit leaves it once the commit count has
passed.  (Rests on R77, R78, R79, R230, R577) -/
def Obligations.ModuleStepChangeArmsAndCommits : Prop :=
  (∀ (s : State) (i : SiteNo) (ch : StepChange), s.clock.change = some ch → i.val ∈ ch.participants → pondRuns s i = true →
    pondMv ch.target ≤ field s (Reg.powerDomain (domPond i)) 15 0 →
    exec (.arm i) s = .next { s with out := s.out ++ [.stepMsg i msgArmed ch.target ch.commit] }) ∧
  (∀ (s : State) (i : SiteNo) (ch : StepChange), s.clock.change = some ch → i.val ∈ ch.participants → ch.passed = false →
    ∃ t ch', exec (.stepArmed i) s = .next t ∧ t = { s with clock := { s.clock with change := some ch' } } ∧
      i.val ∈ ch'.armed ∧ (∀ j ∈ ch.armed, j ∈ ch'.armed) ∧ ch' = { ch with armed := ch'.armed }) ∧
  (∀ (s : State) (ch : StepChange), s.clock.change = some ch → ch.passed = false → ch.commit ≤ s.time.now + 8000 →
    ((∀ i ∈ ch.participants, i ∈ ch.armed) → ch.target ≤ bandStep (hottestPond s ch.participants) →
      exec .stepDeadline s = .next { s with clock := { s.clock with change := some { ch with passed := true } } }) ∧
    ((∃ i ∈ ch.participants, i ∉ ch.armed) → s.clock.restoreDue = false →
      ∃ t, exec .stepDeadline s = .next t ∧ t.clock.change = none)) ∧
  (∀ (s : State) (ch : StepChange) (i : Nat), s.clock.change = some ch → ch.passed = true → ch.commit ≤ s.time.now + 2000 →
    i ∈ ch.participants → ∃ t, exec .hbmStepQuiesce s = .next t ∧ regBit t (Reg.memCfg i) 3 = true ∧ t.clock = s.clock) ∧
  (∀ (s : State) (ch : StepChange), s.clock.change = some ch → ch.passed = true → ch.commit ≤ s.time.now →
    stepPllCoasts s = true → (∀ i < 16, (site s i).asleep = []) →
    ∃ t, exec .stepCommit s = .next t ∧ t.clock.change = none ∧ t.clock.stepBefore = ch.target) ∧
  (∀ (s : State) (ch : StepChange), s.clock.change = some ch → ch.passed = true → ch.commit ≤ s.time.now →
    stepPllCoasts s = false → (∀ i < 16, (site s i).asleep = []) →
    ∃ t, exec .stepCommit s = .next t ∧ t.clock.change = none ∧ moduleStep t = ch.target % 8) ∧
  (∀ s : State, s.clock.change = none → exec .stepDeadline s = .next s ∧ exec .hbmStepQuiesce s = .next s ∧
    (s.clock.waitExit = [] → exec .stepCommit s = .next s)) ∧
  (∀ (s : State) (i : Nat), s.clock.change = none → s.clock.waitExit = [(i, s.time.now)] →
    ∃ t, exec .stepCommit s = .next t ∧ tget 0 t.clock.waitExit i = 0 ∧ tget false t.clock.inReset i = false)

/-- Reference monitors, crossings that refuse and resume, a core at the end of its ramp, and the reset
of a site.  In a running module REF_MONITOR_WINDOW of REFB with a count more than 3 % off counts a
bad window; the second in a row sets REFB_LOST, clears REFB_GOOD, and puts PLL 9, where it alone
uses REFB, into holdover on FOSC. The 64th good window of REFA in a row sets REFA_GOOD.
CROSSING_PARTNER_RESET makes the crossing refuse what crosses it, keeps the epoch last seen of the
side that reset, and leaves every other crossing. PARTNER_UP with an epoch that is not greater
than the kept one changes no crossing, and with a greater one makes that side resume with it: a
bundle once it is committed, a Pond once it may leave its reset exit (until then it waits for the
commit count). CORE_RAMP_DONE puts a core at the step that it ramped to. SITE_RESET of a working
site makes its four crossings refuse; of a failed one, in a running module, it changes nothing.
(Rests on R56, R57, R83, R84, R85, R76, R599) -/
def Obligations.ReferencesAndCrossings : Prop :=
  (∀ (s : State) (edges : Nat), stage s = 9 → s.clock.badB = 0 → edges < 994 ∨ 1054 < edges →
    ∃ t, exec (.refMonitorWindow .refB edges) s = .next t ∧ t.clock.badB = 1 ∧ t.clock.goodB = 0 ∧
      regBit t Reg.clockRefstat 3 = regBit s Reg.clockRefstat 3) ∧
  (∀ (s : State) (edges : Nat), stage s = 9 → s.clock.badB = 1 → edges < 994 ∨ 1054 < edges →
    (∀ p, p < 9 → tget 0 s.clock.pllRef p ≠ 1) → tget 0 s.clock.pllRef 9 = 1 → regBit s Reg.clockPllstat 25 = true →
    s.clock.change = none →
    ∃ t, exec (.refMonitorWindow .refB edges) s = .next t ∧ regBit t Reg.clockRefstat 1 = true ∧
      regBit t Reg.clockRefstat 3 = false ∧ tget 0 t.clock.pllRef 9 = 2 ∧ regBit t Reg.clockPllstat 9 = true) ∧
  (∀ (s : State) (edges : Nat), stage s = 9 → 63 ≤ s.clock.goodA → s.clock.refaMode = false → 994 ≤ edges → edges ≤ 1054 →
    ∃ t, exec (.refMonitorWindow .refA edges) s = .next t ∧ regBit t Reg.clockRefstat 2 = true ∧ t.clock.badA = 0 ∧
      regBit t Reg.clockRefstat 0 = regBit s Reg.clockRefstat 0) ∧
  (∀ (s : State) (x : Crossing), ∃ t, exec (.crossingPartnerReset x) s = .next t ∧
    crossAt t x.kind x.site = (crossAt s x.kind x.site).withView x.side
      { (crossAt s x.kind x.site).view x.side with refusing := true } ∧ crossRefuses t x.kind x.site = true ∧
    (∀ k i, (k, i) ≠ (x.kind, x.site.val) → crossAt t k i = crossAt s k i)) ∧
  (∀ (s : State) (x : Crossing) (e : Nat), e ≤ ((crossAt s x.kind x.site).view x.side).epoch →
    ∃ t, exec (.partnerUp x e) s = .next t ∧ t.cross = s.cross) ∧
  (∀ (s : State) (x : Crossing) (e : Nat), ((crossAt s x.kind x.site).view x.side).epoch < e →
    (siteCrossing x.kind = true → siteFailed s x.site = false) →
    (x.kind = .bundle → regBit s (Reg.abangoStat x.site) 2 = true) →
    (x.kind = .pondTile → x.side = .upper → tget false s.clock.inReset x.site = true → exitHeld s = false) →
    ∃ t, exec (.partnerUp x e) s = .next t ∧
      crossAt t x.kind x.site = (crossAt s x.kind x.site).withView x.side { epoch := e, refusing := false } ∧
      (∀ k i, (k, i) ≠ (x.kind, x.site.val) → crossAt t k i = crossAt s k i)) ∧
  (∀ (s : State) (i : SiteNo) (e : Nat), (crossAt s .pondTile i).upper.epoch < e → siteFailed s i = false →
    tget false s.clock.inReset i = true → exitHeld s = true →
    ∃ t, exec (.partnerUp ⟨.pondTile, i, .upper⟩ e) s = .next t ∧ t.cross = s.cross ∧
      tget 0 t.clock.waitExit i = reg s Reg.clockCommit) ∧
  (∀ (s : State) (c : CoreNo) (k : Nat), (core s c).rampTo = some k →
    ∃ t, exec (.coreRampDone c) s = .next t ∧ core t c = { core s c with step := k, rampTo := none } ∧
      (∀ j, j ≠ c.val → core t j = core s j)) ∧
  (∀ (s : State) (c : CoreNo), (core s c).rampTo = none → exec (.coreRampDone c) s = .next s) ∧
  (∀ (s : State) (i : SiteNo) (cause : Fin 11) (k : CrossKind), siteFailed s i = false → weirServes s = true →
    siteCrossing k = true → ∃ t, exec (.siteReset i cause) s = .next t ∧ (crossAt t k i).upper.refusing = true) ∧
  (∀ (s : State) (i : SiteNo) (cause : Fin 11), stage s = 9 → siteFailed s i = true →
    exec (.siteReset i cause) s = .next s)

/-- A core issues bundles in order; WAIT, POST, CLOSE, SETSEL, FAULT and RDSTAT of the C slot; NOP.
On a core that runs a context: BUNDLE_ISSUE, with no wait stalled and the next bundle within the
stream, advances the bundle index and hands the operations of a bundle without a WAIT to their
units, and of one with a WAIT holds the A, V and M operations. A WAIT whose counter holds its
amount subtracts it and starts the held operations; otherwise it stalls the issue stage, and
WAIT_RELEASE completes it once the counter has reached the amount. A POST with AFTER = 0 and
TARGET 0 adds its amount at once, and stays at 65,535 with a latched COUNTER_OVERFLOW above that;
one whose AFTER names an unfinished A-slot operation waits. CLOSE closes the core, SETSEL copies a
word of the region, FAULT latches PLAN_RAISED, and RDSTAT writes 32 bytes: BELOW, INVALID, SAT,
the sticky flags and zeros; no other byte changes. NOP changes nothing. An operation runs when it
is the one at the head of its unit's queue.  (Rests on R87, R102, R103, R161, R167, R196, R197,
R212, R213) -/
def Obligations.BundlesAndTheCSlot : Prop :=
  (∀ (s : State) (c : CoreNo) (x : Context) (k : CtxCore), Runs s c x k → canIssue (core s c) = true →
    (core s c).pc < k.bundleCount →
    ∃ t w, exec (.bundleIssue c) s = .next t ∧
      w = bundleOf (leNat (loadBytes s (k.stream + k.bundleOff + 32 * (core s c).pc) 32)) ∧
      (core t c).pc = (core s c).pc + 1 ∧
      (isWait w.2.2.2 = false → (core t c).aQ = (core s c).aQ ++ [w.1].filter (· != .nop) ∧
        (core t c).vQ = (core s c).vQ ++ [w.2.1].filter (· != .nop) ∧
        (core t c).mQ = (core s c).mQ ++ [w.2.2.1].filter (· != .nop)) ∧
      (isWait w.2.2.2 = true → (core t c).aQ = (core s c).aQ ∧ (core t c).vQ = (core s c).vQ ∧ (core t c).mQ = (core s c).mQ ∧
        (core t c).held = [w.1, w.2.1, w.2.2.1]) ∧
      (core t c).cQ = (core s c).cQ ++
        (if w.2.2.2 = .nop then [] else [⟨w.2.2.2, (core t c).aIssued, (core t c).vIssued, (core t c).mIssued⟩])) ∧
  (∀ (s : State) (c : CoreNo) (sl : Slot), exec (.nop c sl) s = .next s) ∧
  (∀ (s : State) (c : CoreNo) (x : Context) (k : CtxCore) (y : CoreState) (n : Fin 32) (a : Fin 256), Runs s c x k →
    (core s c).stalled = none → Accepts s c .c (.wait n a) y → a.val ≤ counter k n →
    ∃ t k', exec (.wait c n a) s = .next t ∧ (ctx? t x.handle).bind (ctxCore? · c) = some k' ∧
      counter k' n = counter k n - a ∧ (∀ m, m ≠ n.val → counter k' m = counter k m) ∧
      core t c = y.held.foldl enqueue { y with stalled := none, held := [] }) ∧
  (∀ (s : State) (c : CoreNo) (x : Context) (k : CtxCore) (y : CoreState) (n : Fin 32) (a : Fin 256), Runs s c x k →
    (core s c).stalled = none → Accepts s c .c (.wait n a) y → counter k n < a.val →
    ∃ t, exec (.wait c n a) s = .next t ∧ core t c = { y with stalled := some (n.val, a.val) } ∧ t.contexts = s.contexts ∧
      (∀ j, j ≠ c.val → core t j = core s j)) ∧
  (∀ (s : State) (c : CoreNo) (x : Context) (k : CtxCore) (n a : Nat), Runs s c x k → (core s c).stalled = some (n, a) →
    (a ≤ counter k n → ∃ t k', exec (.waitRelease c) s = .next t ∧ (ctx? t x.handle).bind (ctxCore? · c) = some k' ∧
      counter k' n = counter k n - a ∧ (core t c).stalled = none) ∧
    (counter k n < a → exec (.waitRelease c) s = .next s)) ∧
  (∀ (s : State) (c : CoreNo) (x : Context) (k : CtxCore) (y : CoreState) (f : PostF), Runs s c x k →
    (core s c).stalled = none → Accepts s c .c (.post f) y → y.posts = [] → f.after = 0 → f.target = 0 →
    ∃ t k', exec (.post c f) s = .next t ∧ (ctx? t x.handle).bind (ctxCore? · c) = some k' ∧
      (counter k f.counter + f.amount ≤ 65535 → counter k' f.counter = counter k f.counter + f.amount ∧
        (core t c).latched = y.latched) ∧
      (65535 < counter k f.counter + f.amount → counter k' f.counter = 65535 ∧
        (core t c).latched = y.latched ++ [{ cause := causeOverflow, stamp := copyTick s (copyPond (c / 4)) }])) ∧
  (∀ (s : State) (c : CoreNo) (x : Context) (k : CtxCore) (y : CoreState) (f : PostF), Runs s c x k →
    (core s c).stalled = none → Accepts s c .c (.post f) y → y.posts = [] → f.after.getLsbD 2 = true →
    (∀ o ∈ (core s c).cQ.head?, y.aStarted < o.needA) →
    ∃ t, exec (.post c f) s = .next t ∧ (core t c).posts.map (·.f) = [f] ∧ t.contexts = s.contexts ∧ t.out = s.out) ∧
  (∀ (s : State) (c : CoreNo) (x : Context) (k : CtxCore) (y : CoreState), Runs s c x k → (core s c).stalled = none →
    Accepts s c .c .close y →
    ∃ t, exec (.close c) s = .next t ∧ core t c = { y with closed := true } ∧ (∀ j, j ≠ c.val → core t j = core s j)) ∧
  (∀ (s : State) (c : CoreNo) (x : Context) (k : CtxCore) (y : CoreState) (w : BitVec 23) (ecc : EccList), Runs s c x k →
    (core s c).stalled = none → Accepts s c .c (.setsel w) y → 4 * w.toNat + 4 ≤ x.regionSize →
    ∃ t, exec (.setsel c ⟨w, ecc⟩) s = .next t ∧
      (core t c).sel = BitVec.ofNat 32 (leNat (loadBytes s (regionAddr k (4 * w.toNat)) 4))) ∧
  (∀ (s : State) (c : CoreNo) (x : Context) (k : CtxCore) (y : CoreState) (code : BitVec 16), Runs s c x k →
    (core s c).stalled = none → Accepts s c .c (.fault code) y →
    ∃ t, exec (.fault c code) s = .next t ∧
      (core t c).latched = y.latched ++ [{ cause := causeRaised, stamp := copyTick s (copyPond (c / 4)) }] ∧ t.contexts = s.contexts) ∧
  (∀ (s : State) (c : CoreNo) (x : Context) (k : CtxCore) (y : CoreState) (off : BitVec 20), Runs s c x k →
    (core s c).stalled = none → Accepts s c .c (.rdstat off) y → 32 * off.toNat + 32 ≤ x.regionSize →
    (∀ i, i < 32 → poisonedAt s (regionAddr k (32 * off.toNat) + i) = false) →
    ∃ t, exec (.rdstat c off) s = .next t ∧
      loadBytes t (regionAddr k (32 * off.toNat)) 32 =
        leBytes 4 y.below ++ leBytes 4 y.invalid ++ leBytes 4 y.sat ++ leBytes 4 y.vflags.toNat ++ leBytes 16 0 ∧
      (∀ a, ¬ (regionAddr k (32 * off.toNat) ≤ a ∧ a < regionAddr k (32 * off.toNat) + 32) → byteAt t a = byteAt s a))

/-- A contribution is floored to the window, and the cell adds the floor as an integer.  For every
contribution n * 2^e and window W_lo the model's floored value is the greatest integer not above n
* 2^e / 2^W_lo (a number with bits below the window goes toward minus infinity). Adding the
contribution to a cell, where the floored value fits, the count is within the limit, and the sum
lies in the accumulator's range, adds exactly that integer to the cell.  (States R132) -/
def Obligations.ContributionsAreFlooredToTheWindow : Prop :=
  (∀ n e w : Int, (floorWindow n e w).1 = ⌊((n : ℚ) * 2 ^ e) / 2 ^ w⌋) ∧
  (∀ (w n e : Int) (h cnt : Nat) (c : CellRun), cnt ≤ 1024 * 2 ^ h → c.a ≠ accInvalid →
    (⌊((n : ℚ) * 2 ^ e) / 2 ^ w⌋).natAbs ≤ 2 ^ (149 - h) - 1 →
    (c.a + ⌊((n : ℚ) * 2 ^ e) / 2 ^ w⌋).natAbs ≤ 2 ^ 159 - 1 →
    (addContribution w h cnt c (.value n e)).a = c.a + ⌊((n : ℚ) * 2 ^ e) / 2 ^ w⌋)

/-- Within the limit a pass is the exact sum of its floored contributions, in any order, and INVALID
absorbs every addition.  Started from zero with headroom h at most 9, a pass of at most 1,024 *
2^h fitting contributions ends with exactly the sum of their floored values: the register neither
overflows nor becomes INVALID. The value does not depend on the order of the contributions. A pass
that holds one contribution that does not fit, or that goes past the limit, ends INVALID; so does
a pass that starts INVALID.  (Rests on R132, R133, R134) -/
def Obligations.AccumulationIsExactAndOrderFree : Prop :=
  (∀ (w : Int) (h : Nat) (xs : List (Int × Int)), h ≤ 9 → xs.length ≤ 1024 * 2 ^ h →
    (∀ x ∈ xs, (floorWindow x.1 x.2 w).1.natAbs ≤ 2 ^ (149 - h) - 1) →
    (addAll w h 0 { a := 0, below := 0 } (xs.map fun x => .value x.1 x.2)).a =
      (xs.map fun x => (floorWindow x.1 x.2 w).1).sum) ∧
  (∀ (w : Int) (h : Nat) (xs ys : List (Int × Int)), h ≤ 9 → xs.length ≤ 1024 * 2 ^ h → xs.Perm ys →
    (∀ x ∈ xs, (floorWindow x.1 x.2 w).1.natAbs ≤ 2 ^ (149 - h) - 1) →
    addAll w h 0 { a := 0, below := 0 } (ys.map fun x => .value x.1 x.2) =
      addAll w h 0 { a := 0, below := 0 } (xs.map fun x => .value x.1 x.2)) ∧
  (∀ (w : Int) (h n : Nat) (c : CellRun) (xs : List Contribution), c.a = accInvalid → (addAll w h n c xs).a = accInvalid) ∧
  (∀ (w : Int) (h n : Nat) (c : CellRun) (xs ys : List Contribution) (x : Contribution),
    (x = .invalid ∨ (∃ m e, x = .value m e ∧ 2 ^ (149 - h) - 1 < (floorWindow m e w).1.natAbs) ∨ 1024 * 2 ^ h ≤ n + xs.length) →
    (addAll w h n c (xs ++ x :: ys)).a = accInvalid)

/-- LDTD, MMA, MERGE and DRAIN, the ends of array operations and drains, and the token-rate window.
On a core that runs a context and has no post waiting: LDTD puts an entry of the core's table into
a tile-descriptor register. A legal MMA with ZERO = 1 on one array writes each cell of the
accumulator with the pass of its row's and column's block pairs, latches W_LO and H, and sets the
count; one with ZERO = 0 into an unwritten accumulator latches UNWRITTEN_STATE. A legal MERGE on
one array adds each ACC160 value to its cell, keeps the count, and latches W_LO and H where the
accumulator was unwritten. A legal DRAIN into the region leaves its accumulator as it was and in
progress, and changes no byte outside the core's region. ARRAY_OP_COMPLETE and DRAIN_COMPLETE end
the oldest operation of an array and the drain of an accumulator. TOKRATE_WINDOW writes the
window's tokens. An operation runs when it is the one at the head of its unit's queue.  (Rests on
R90, R91, R116, R129, R140, R174, R199) -/
def Obligations.ArrayOperationsTakeEffect : Prop :=
  (∀ (s : State) (c : CoreNo) (x : Context) (k : CtxCore) (y : CoreState) (r : Fin 16) (i : BitVec 12), Runs s c x k →
    Accepts s c .a (.ldtd r i) y → y.posts = [] → i.toNat < k.tdCount →
    ∃ t k', exec (.ldtd c r i) s = .next t ∧ (ctx? t x.handle).bind (ctxCore? · c) = some k' ∧
      tget 0 k'.tds r = leNat (loadBytes s (k.stream + k.tdOff + 16 * i.toNat) 16) ∧
      (∀ q, q ≠ r.val → tget 0 k'.tds q = tget 0 k.tds q)) ∧
  (∀ (s : State) (c : CoreNo) (x : Context) (k : CtxCore) (y : CoreState) (f : MmaF) (ecc : EccList) (a : Nat) (ta tb : Td), Runs s c x k →
    Accepts s c .a (.mma f) y → y.posts = [] → notDraining f.arrays f.acc (core s c) = true →
    ta = tdOf (tget 0 k.tds f.ta) → tb = tdOf (tget 0 k.tds f.tb) → mmaLegal x ta tb f = true →
    maskList f.arrays.toNat 16 = [a] →
    ∃ t, exec (.mma c ⟨f, ecc⟩) s = .next t ∧ t.mem = s.mem ∧ t.contexts = s.contexts ∧
      (f.zero = true → ∃ acc, acc? (core t c) (2 * a + f.acc) = some acc ∧ acc.wlo = wloOf f.wlo ∧ acc.h = f.h.val ∧
        acc.count = (if widthClass ta.fmt = 16 then 32 * ta.blocks else ta.blocks) ∧
        ∀ i j, i < 128 → j < 128 → cellAt acc i j =
          (addAll (wloOf f.wlo) f.h 0 { a := 0, below := 0 } (((opRow s k ta i).zip (opRow s k tb j)).flatMap
            fun t => contributions (widthClass ta.fmt) t.1 t.2)).a) ∧
      (f.zero = false → acc? (core s c) (2 * a + f.acc) = none →
        ∃ l ∈ (core t c).latched, l.cause = causeUnwritten)) ∧
  (∀ (s : State) (c : CoreNo) (x : Context) (k : CtxCore) (y : CoreState) (f : MergeF) (ecc : EccList) (a : Nat) (ta : Td) (a0 : Acc),
    Runs s c x k → Accepts s c .a (.merge f) y → y.posts = [] → notDraining f.arrays f.acc (core s c) = true →
    ta = tdOf (tget 0 k.tds f.ta) → mergeLegal x ta f = true → maskList f.arrays.toNat 16 = [a] →
    acc? (core s c) (2 * a + f.acc) = some a0 → a0.wlo = wloOf f.wlo → a0.h = f.h.val →
    ∃ t acc, exec (.merge c ⟨f, ecc⟩) s = .next t ∧ t.mem = s.mem ∧ acc? (core t c) (2 * a + f.acc) = some acc ∧
      acc.count = a0.count ∧ acc.wlo = a0.wlo ∧ acc.h = a0.h ∧
      ∀ i j, i < 128 → j < 128 → acc160At s k (ta.base + i * ta.rowPitch + 20 * j) ≠ accInvalid →
        cellAt acc i j = accAdd (cellAt a0 i j) (acc160At s k (ta.base + i * ta.rowPitch + 20 * j))) ∧
  (∀ (s : State) (c : CoreNo) (x : Context) (k : CtxCore) (y : CoreState) (f : DrainF) (a : Nat) (td : Td), Runs s c x k →
    Accepts s c .a (.drain f) y → y.posts = [] → notDraining f.arrays f.acc (core s c) = true →
    td = tdOf (tget 0 k.tds f.td) → drainLegal x td f = true → f.port = false → maskList f.arrays.toNat 16 = [a] →
    ∃ t, exec (.drain c f) s = .next t ∧ acc? (core t c) (2 * a + f.acc) = acc? (core s c) (2 * a + f.acc) ∧
      (∃ no, (no, 2 * a + f.acc.val) ∈ (core t c).dOpen) ∧
      (∀ b, ¬ (regionAddr k 0 ≤ b ∧ b < regionAddr k 0 + x.regionSize) → byteAt t b = byteAt s b)) ∧
  (∀ (s : State) (c : CoreNo) (a : Fin 16), (core s c).posts = [] →
    ∃ t, exec (.arrayOpComplete c a) s = .next t ∧ core t c = { core s c with aOpen := dropFirst a (core s c).aOpen } ∧
      (∀ j, j ≠ c.val → core t j = core s j)) ∧
  (∀ (s : State) (c : CoreNo) (a : Fin 16) (n : Fin 2), (core s c).posts = [] →
    ∃ t, exec (.drainComplete c a n) s = .next t ∧
      core t c = { core s c with dOpen := dropFirst (2 * a.val + n.val) (core s c).dOpen } ∧
      (∀ j, j ≠ c.val → core t j = core s j)) ∧
  (∀ (s : State) (c : CoreNo) (n : Word), ∃ t, exec (.tokrateWindow c n) s = .next t ∧
    reg t (Reg.cperfTokrate c) = n.toNat ∧
    (regBit s (Reg.cperfStat c) 0 = true → reg t (Reg.cperfReplica c) = reg s (Reg.cperfReplica c)) ∧
    (regBit s (Reg.cperfStat c) 0 = false →
      reg t (Reg.cperfReplica c) = (reg s (Reg.cperfReplica c) + n.toNat) % 2 ^ 64))

/-- The V-slot operations over vector registers, VLD, VST and the arrival of a transcendental result.
On a core that runs a context and has no post waiting: a legal ADD, SUB, MUL, FMA, MIN, MAX, ABS,
NEG, CVT, CVTMX, UNPKMX, EXP2, LOG2, RCP, RSQ, TANH, RMAX, RSUM or BCAST whose registers await no
result writes its destination registers with the results computed from the source registers,
leaves every other register, adds its flags to the sticky ones and its saturations to SAT, and
changes no memory and no other core; a transcendental operation opens a result. VLD within the
region loads register DST + i from 512 bytes each. VST within the region stores no byte outside
its range, and of registers that hold no poison it stores their 512 bytes each into lines that are
not poisoned. TRANSCENDENTAL_RESULT delivers the oldest open result. An operation runs when it is
the one at the head of its unit's queue.  (Rests on R95, R96, R183, R205, R206, R207, R208) -/
def Obligations.VectorOperationsTakeEffect : Prop :=
  (∀ (s : State) (c : CoreNo) (x : Context) (k : CtxCore) (y : CoreState) (op : VecOp) (f : VecF), Runs s c x k →
    Accepts s c .v (.vec op f) y → y.posts = [] → vecLegal op f = true → awaits (core s c) (vecReads op f) = false →
    awaits (core s c) (vecWrites op f) = false →
    ∃ t, exec (vecInstr op c f) s = .next t ∧ t.mem = s.mem ∧
      (∀ r v, ((vecOut (core s c) op f).regs.map (·.1)).Nodup → (r, v) ∈ (vecOut (core s c) op f).regs →
        vreg (core t c) r = v % 2 ^ 4096) ∧
      (∀ r, (∀ w ∈ (vecOut (core s c) op f).regs, w.1 ≠ r) → vreg (core t c) r = vreg (core s c) r) ∧
      (core t c).vflags = (core s c).vflags ||| (vecOut (core s c) op f).fl ∧
      (core t c).sat = satAdd 32 (core s c).sat (vecOut (core s c) op f).sat ∧
      (core t c).tOpen = (core s c).tOpen ++ (if isTrans op then [(opNo y .v, f.dst.val, spanN f)] else []) ∧
      ∀ j, j ≠ c.val → core t j = core s j) ∧
  (∀ (s : State) (c : CoreNo) (x : Context) (k : CtxCore) (y : CoreState) (f : VMemF) (ecc : EccList), Runs s c x k →
    Accepts s c .v (.vld f) y → y.posts = [] → vmemLegal x f = true →
    awaits (core s c) (regSpan f.dst.val (f.span.val + 1)) = false →
    ∃ t, exec (.vld c ⟨f, ecc⟩) s = .next t ∧ t.mem = s.mem ∧
      (∀ i, i ≤ f.span.val →
        vreg (core t c) (f.dst.val + i) = leNat (loadBytes s (regionAddr k (512 * (f.addr.toNat + i))) 512) % 2 ^ 4096) ∧
      (∀ r, (r < f.dst.val ∨ f.dst.val + f.span.val < r) → vreg (core t c) r = vreg (core s c) r) ∧
      ∀ j, j ≠ c.val → core t j = core s j) ∧
  (∀ (s : State) (c : CoreNo) (x : Context) (k : CtxCore) (y : CoreState) (f : VMemF), Runs s c x k →
    Accepts s c .v (.vst f) y → y.posts = [] → vmemLegal x f = true →
    awaits (core s c) (regSpan f.dst.val (f.span.val + 1)) = false →
    ∃ t, exec (.vst c f) s = .next t ∧
      (∀ b, ¬ (regionAddr k (512 * f.addr.toNat) ≤ b ∧ b < regionAddr k (512 * (f.addr.toNat + f.span.val + 1))) →
        byteAt t b = byteAt s b) ∧
      ((∀ b, regionAddr k (512 * f.addr.toNat) ≤ b → b < regionAddr k (512 * (f.addr.toNat + f.span.val + 1)) →
          poisonedAt s b = false) →
        (∀ i, i ≤ f.span.val → tget 0 (core s c).vpoison (f.dst.val + i) = 0) →
        ∀ i, i ≤ f.span.val → loadBytes t (regionAddr k (512 * (f.addr.toNat + i))) 512 =
          leBytes 512 (vreg (core s c) (f.dst.val + i)))) ∧
  (∀ (s : State) (c : CoreNo), (core s c).posts = [] →
    ∃ t, exec (.transcendentalResult c) s = .next t ∧ core t c = { core s c with tOpen := (core s c).tOpen.drop 1 } ∧
      ∀ j, j ≠ c.val → core t j = core s j)

/-- A conversion to a lane format keeps every value the format holds, subnormals included, and raises
no flag for it.  For every element of the lane formats FP32, BF16 and FP16 that is no NaN:
converting it to its own format gives its own bits and no flag, so no subnormal is flushed; and
multiplying it by 1.0 does the same. A BF16 element converts to FP32 exactly: to its own bits
followed by 16 zeros, with no flag. ABS gives the bits with the sign bit clear and NEG the bits
with the sign bit inverted, with no flag.  (Rests on R147, R148, R206, R207) -/
def Obligations.ConversionKeepsWhatTheFormatHolds : Prop :=
  (∀ (l a : Nat), l < 3 → a < 2 ^ laneBits l → ((laneFmt l).decode a).isNan = false →
    (laneFmt l).ofVal ((laneFmt l).decode a) = { bits := a, fl := 0 } ∧
    elemOp .mul l a (((laneFmt l).bias) * 2 ^ (laneFmt l).mb) 0 = { bits := a, fl := 0 } ∧
    elemOp .abs l a 0 0 = { bits := a % 2 ^ (laneBits l - 1), fl := 0 } ∧
    elemOp .neg l a 0 0 = { bits := (a + 2 ^ (laneBits l - 1)) % 2 ^ laneBits l, fl := 0 }) ∧
  (∀ a : Nat, a < 2 ^ 16 → (fBF16.decode a).isNan = false → fFP32.ofVal (fBF16.decode a) = { bits := a * 2 ^ 16, fl := 0 })

/-- Every NaN an elementwise vector operation produces is the canonical quiet NaN, and a NaN input
gives it.  For every elementwise operation, lane format and operands: a result that is a NaN of
the format is its canonical quiet NaN, so no payload passes through. For ADD, SUB, MUL, FMA, MIN,
MAX, ABS, NEG and the transcendental functions, a NaN among the operands the operation reads gives
that NaN, and a signalling one raises the invalid flag. MIN of zeros of both signs gives -0 and
MAX gives +0, in either order.  (Rests on R146, R149, R150, R151) -/
def Obligations.VectorNaNsAreCanonical : Prop :=
  (∀ (op : VecOp) (l a b c : Nat), l < 3 → a < 2 ^ laneBits l → b < 2 ^ laneBits l → c < 2 ^ laneBits l →
    (op = .add ∨ op = .sub ∨ op = .mul ∨ op = .fma ∨ op = .min ∨ op = .max ∨ op = .abs ∨ op = .neg ∨ (isTrans op = true ∧ l = 0)) →
    ((laneFmt l).decode (elemOp op l a b c).bits).isNan = true → (elemOp op l a b c).bits = (laneFmt l).qnan) ∧
  (∀ (op : VecOp) (l a b c : Nat), l < 3 →
    ((op = .fma ∧ (((laneFmt l).decode a).isNan || ((laneFmt l).decode b).isNan || ((laneFmt l).decode c).isNan) = true) ∨
      ((op = .add ∨ op = .sub ∨ op = .mul ∨ op = .min ∨ op = .max) ∧
        (((laneFmt l).decode a).isNan || ((laneFmt l).decode b).isNan) = true) ∨
      ((op = .abs ∨ op = .neg ∨ (isTrans op = true ∧ l = 0)) ∧ ((laneFmt l).decode a).isNan = true)) →
    (elemOp op l a b c).bits = (laneFmt l).qnan ∧
    ((op = .abs ∨ op = .neg ∨ isTrans op = true) → (laneFmt l).decode a = .nan true → (elemOp op l a b c).fl = flInvalid) ∧
    ((op = .add ∨ op = .sub ∨ op = .mul ∨ op = .min ∨ op = .max) →
      ((laneFmt l).decode a = .nan true ∨ (laneFmt l).decode b = .nan true) → (elemOp op l a b c).fl = flInvalid)) ∧
  (∀ l, l < 3 →
    (elemOp .min l 0 (2 ^ (laneBits l - 1)) 0).bits = 2 ^ (laneBits l - 1) ∧
    (elemOp .min l (2 ^ (laneBits l - 1)) 0 0).bits = 2 ^ (laneBits l - 1) ∧
    (elemOp .max l 0 (2 ^ (laneBits l - 1)) 0).bits = 0 ∧ (elemOp .max l (2 ^ (laneBits l - 1)) 0 0).bits = 0)

/-- MOVE issues its descriptor, its last byte leaves its source, and it completes by writing its bytes
and posting its counters.  MOVE with an index in its core's table and no poisoned argument word
adds the descriptor's move: where the ranges are not the context's, it latches BOUNDS and carries
no byte; a LOCAL, ROW, COLUMN, PORT or CHANNEL move has the source and the destinations that its
words name. No byte of memory changes. When the last byte of a LOCAL, ROW, COLUMN or PORT move
with no poisoned source leaves, nothing issued before it still waiting for its link, the move
takes the bytes its source holds, and its source counter rises by 1. When such a move completes,
nothing of its path issued before it being still on its way, it writes those bytes at its
destination and no other byte, posts its destination counter, and leaves the core's list.  (Rests
on R101, R160, R194, R209, R210, R211) -/
def Obligations.MovesIssueLeaveAndComplete : Prop :=
  (∀ (s : State) (c : CoreNo) (x : Context) (k : CtxCore) (y : CoreState) (i : BitVec 16) (ecc : EccList) (d : MoveDesc), Runs s c x k →
    Accepts s c .m (.move i) y → i.toNat < k.moveCount → d = moveDescAt s k i.toNat → argPoisoned s k d false = false →
    ∃ t, exec (.move c ⟨i, ecc⟩) s = .next t ∧ t.nextId = s.nextId + 1 ∧
      (movePlace s x k d false = none → t.mem = s.mem ∧ (∃ m, (core t c).moves = (core s c).moves ++ [m] ∧ m.id = s.nextId ∧
          m.bounds = true) ∧ ∃ l ∈ (core t c).latched, l.cause = causeBounds) ∧
      (∀ a bs cs, d.kind ≤ 4 → movePlace s x k d false = some (a, bs, cs) → t.mem = s.mem ∧
        ∃ m, (core t c).moves = (core s c).moves ++ [m] ∧ m.id = s.nextId ∧ m.kind = d.kind ∧ m.src = a ∧ m.dst = bs ∧
          m.dstCores = cs ∧ m.len = d.len ∧ m.srcCtr = d.srcCtr ∧ m.dstCtr = d.dstCtr ∧ m.bounds = false ∧ m.left = false)) ∧
  (∀ (s : State) (c : CoreNo) (x : Context) (k : CtxCore) (m : MoveRec) (id : Nat), Runs s c x k →
    findMove? s c id = some m → m.kind ≤ 3 → m.bounds = false → m.left = false → m.fromA = false →
    poisonUnits s m.src m.len = [] → (∀ l, linkOut m.kind = some l → ahead (core s c) l id = false) →
    (∀ n, m.srcCtr = some n → counter k n < 65535) →
    ∃ t, exec (.moveLastByteLeftSource c id) s = .next t ∧ t.mem = s.mem ∧
      findMove? t c id = some
        { m with left := true, data := loadBytes s m.src m.len, poison := [], storePoison := false } ∧
      ∃ k', (ctx? t x.handle).bind (ctxCore? · c) = some k' ∧
        (∀ n, counter k' n = if m.srcCtr = some n then counter k n + 1 else counter k n)) ∧
  (∀ (s : State) (c : CoreNo) (x : Context) (k q : CtxCore) (m : MoveRec) (id b d : Nat), Runs s c x k →
    (core s c).posts = [] → findMove? s c id = some m → m.kind ≤ 3 → m.bounds = false → m.left = true → m.bad = .ok →
    m.open_ = 0 → m.stored = false → behindOther (core s c) c m = false → m.poison = [] → m.dst = [b] → m.dstCores = [d] → ctxCore? x d = some q →
    (∀ n, m.dstCtr = some n → counter q n < 65535) →
    (∀ i, i < m.data.length → poisonedAt s (b + i) = false) →
    ∃ t, exec (.moveComplete c id .ok) s = .next t ∧ loadBytes t b m.data.length = m.data ∧
      (∀ a, ¬ (b ≤ a ∧ a < b + m.data.length) → byteAt t a = byteAt s a) ∧
      (core t c).moves = (core s c).moves.filter (fun z => z.id != id) ∧
      ∃ q', (ctx? t x.handle).bind (ctxCore? · d) = some q' ∧
        ∀ n, counter q' n = if m.dstCtr = some n then counter q n + 1 else counter q n)

/-- Operand parity faults, close reports, barrier tokens and reports, and the end of an abort.
OPERAND_PARITY_FAULT is reported with the core and the unit and latched for the running context;
with 16 earlier ones within 1 s it fences the core, and every context on the core leaves.
CLOSE_REPORT of a core that may report adds it to the cores that have closed, and puts the site's
own token at its port once all of the context's cores there have closed; of one that may not, it
changes nothing. BARRIER_TOKEN of the granted phase, when that token is what arrives next of its
channel, reaches the port with its fault bit; of a context the site does not carry, it is
discarded and reported. BARRIER_COMPLETE of a context on one site with no fault ends the dispatch
with OK at END, and otherwise makes the next phase wait for its grant. ABORT_COMPLETE of a cut
context ends its run and frees its cores; of any other, it changes nothing.  (Rests on R120, R121,
R161, R162, R163, R164, R165, R166, R168, R180, R184, R268) -/
def Obligations.PhasesCloseThroughBarriers : Prop :=
  (∀ (s : State) (c : CoreNo) (u : Nat) (ts : List Nat), ts = (core s c).parityTimes.filter (fun t => s.time.now < t + 1000000000) →
    ∃ t, exec (.operandParityFault c u) s = .next t ∧
      (∃ r ∈ t.faults.inTransit, r.cls = 8 ∧ r.code = 1 ∧ r.unit = unitNo 0x01 c ∧ r.d0 = u) ∧
      (ts.length < 16 → (core t c).parityTimes = ts ++ [s.time.now] ∧ (core t c).fenced = (core s c).fenced ∧
        ∀ x k, Runs s c x k → ∃ l ∈ (core t c).latched, l.cause = causeParity) ∧
      (16 ≤ ts.length → (core t c).fenced = true ∧
        ((core s c).fenced = false → ∀ x ∈ t.contexts, (∃ k ∈ x.cores, k.core = c) → x.removing = true))) ∧
  (∀ (s : State) (c : CoreNo) (x : Context) (k : CtxCore) (r : Run), Runs s c x k → x.run = some r →
    mayReport (core s c) = true →
    ∃ t x' r', exec (.closeReport c) s = .next t ∧ (core t c).reported = true ∧ ctx? t x.handle = some x' ∧ x'.run = some r' ∧
      r'.closedCores = r.closedCores ++ [c.val] ∧
      ((∀ q ∈ x.cores, q.core / 4 = c.val / 4 → q.core ∈ r.closedCores ++ [c.val]) → (c.val / 4, c.val / 4) ∈ r'.tokens)) ∧
  (∀ (s : State) (c : CoreNo), mayReport (core s c) = false → exec (.closeReport c) s = .next s) ∧
  (∀ (s : State) (i j : SiteNo) (h : Nat) (x : Context) (r : Run) (f : Bool) (v : Word) (n : Nat) (tr : Transfer), ctx? s h = some x →
    x.run = some r → r.granted = true → i.val ∈ x.sites → j.val ∈ x.sites →
    tokenThere? s x i j (barrierHdr h r.phase f v) = some (n, tr) →
    ∃ t x' r', exec (.barrierToken i j h r.phase f v) s = .next t ∧ ctx? t h = some x' ∧ x'.run = some r' ∧
      r'.tokens = r.tokens ++ [(j.val, i.val)] ∧ r'.tokenFault = (r.tokenFault || f) ∧ r'.closedCores = r.closedCores) ∧
  (∀ (s : State) (i j : SiteNo) (h p : Nat) (f : Bool) (v : Word), ctx? s h = none →
    ∃ t, exec (.barrierToken i j h p f v) s = .next t ∧ regBit t (Reg.basinFlags j) 5 = true ∧ t.contexts = s.contexts ∧
      ∃ e, t.faults.inTransit = s.faults.inTransit ++ [e] ∧ e.cls = 12 ∧ e.code = 3 ∧ e.unit = unitNo 0x02 j) ∧
  (∀ (s : State) (i : SiteNo) (h : Nat) (x : Context) (r : Run) (q : SiteReport) (p : Phase) (k : CtxCore), ctx? s h = some x →
    x.run = some r → x.sites = [i.val] → r.reports = [q] → q.site = i → q.faultBit = false → r.complete = [] →
    r.outcome = none → r.aborting = none → x.phases[r.phase]? = some p → x.cores[p.selector]? = some k → k.core / 4 = i →
    ∃ t x' r', exec (.barrierComplete i h) s = .next t ∧ ctx? t h = some x' ∧ x'.run = some r' ∧
      (nextPhase x p q.selector = none →
        r'.outcome = some { status := 0, cause := 0, lcore := 0, phase := 0, time := s.time.now }) ∧
      (∀ n e, nextPhase x p q.selector = some n → x.phases[n]? = some e → tget 0 r.visits n < e.visits →
        r'.phase = n ∧ r'.granted = false ∧ r'.prev = r.phase ∧ r'.outcome = none ∧ r'.hold = p.hold)) ∧
  (∀ (s : State) (h : Nat) (x : Context) (r : Run) (st : Nat), ctx? s h = some x → x.run = some r → r.aborting = some st →
    ∃ t x', exec (.abortComplete h) s = .next t ∧ ctx? t h = some x' ∧ x'.run = none ∧ x'.idleTick = tickOf s ∧
      ∀ k ∈ x.cores, (core t k.core).running ≠ some h) ∧
  (∀ (s : State) (h : Nat) (x : Context), ctx? s h = some x → x.run.bind (·.aborting) = none →
    exec (.abortComplete h) s = .next s)

/-- READ, WRITE and ATOMIC that end at the owning site by its Outlet are served and answered on that
link.  Take a formed request whose last hop arrives by an Outlet that serves, at the site that
owns its range, with this module's coordinate and a key that the site accepts from the Outlet and
for egress, within the sender's credits, while the stack takes transfers and is neither in self
refresh nor held by quarantine. READ of a range with no poisoned line, what the decoders find now
included, changes no memory and queues READ_DATA with the range's bytes and the request's tag on
the link; of another it queues a REFUSAL with POISON. WRITE of a range that no site caches writes
its data there and no other byte, and queues WRITE_ACK. ATOMIC of such a range writes the
operation's new value and no other byte, and queues ATOMIC_RESULT with the old one. A request that
arrives by an Outlet whose link does not serve changes nothing.  (Rests on R276, R385, R386, R387,
R394, R395, R403) -/
def Obligations.RequestsAreServedAndAnswered : Prop :=
  ∀ (s : State) (o : Fin 16) (p : Packet) (ecc : EccList),
    (linkServes s o = false → exec (.read (.outlet o) ⟨p, ecc⟩) s = .next s ∧ exec (.write (.outlet o) p) s = .next s ∧
      exec (.atomic (.outlet o) p) s = .next s) ∧
    (linkServes s o = true → p.key ≠ 0 → keyOk s o p.key dirOutlet = true → keyOk s o p.key dirEgress = true →
      auxOutlet o = false → 0 < p.hop → p.hop = p.rlen → p.dst = ownCoord s → ownerSite p.dpa = o → stackRefuses s o = false → stackHeld s o = false →
      (∀ T, (rxTake? (link s o) (recordHop o { p with type := T })).isSome = true) →
      (requestFormed (recordHop o { p with type := 0x01 }) = true → p.dpa + 32 * p.len ≤ farBase →
        poisonUnits (decodeRange s ecc p.dpa (32 * p.len)) p.dpa (32 * p.len) = [] →
        ∃ t r, exec (.read (.outlet o) ⟨p, ecc⟩) s = .next t ∧ t.mem = s.mem ∧ (link t o).waiting = (link s o).waiting ++ [r] ∧
          r.p.type = 0x10 ∧ r.p.tag = p.tag ∧ r.p.status = 0 ∧ r.p.data = loadBytes s p.dpa (32 * p.len)) ∧
      (requestFormed (recordHop o { p with type := 0x01 }) = true → p.dpa + 32 * p.len ≤ farBase →
        poisonUnits (decodeRange s ecc p.dpa (32 * p.len)) p.dpa (32 * p.len) ≠ [] →
        ∃ t r, exec (.read (.outlet o) ⟨p, ecc⟩) s = .next t ∧ t.mem = s.mem ∧ (link t o).waiting = (link s o).waiting ++ [r] ∧
          r.p.type = 0x13 ∧ r.p.tag = p.tag ∧ r.p.status = 6 ∧ r.p.data = []) ∧
      (requestFormed (recordHop o { p with type := 0x02 }) = true → p.dpa + 32 * p.len ≤ farBase →
        (∀ i, i < 32 * p.len → poisonedAt s (p.dpa + i) = false) → sharersOf s p.dpa (32 * p.len) = [] →
        ∃ t r, exec (.write (.outlet o) p) s = .next t ∧ loadBytes t p.dpa (32 * p.len) = p.data ∧
          (∀ b, ¬ (p.dpa ≤ b ∧ b < p.dpa + 32 * p.len) → byteAt t b = byteAt s b) ∧
          (link t o).waiting = (link s o).waiting ++ [r] ∧ r.p.type = 0x11 ∧ r.p.tag = p.tag ∧ r.p.status = 0) ∧
      (∀ n, n = atomicWidth p / 8 → requestFormed (recordHop o { p with type := 0x03 }) = true → p.dpa + n ≤ farBase →
        (∀ i, i < n → poisonedAt s (p.dpa + i) = false) → poisonUnits s p.dpa n = [] → sharersOf s p.dpa n = [] →
        ∃ t r, exec (.atomic (.outlet o) p) s = .next t ∧
          leNat (loadBytes t p.dpa n) = atomicNew p (leNat (loadBytes s p.dpa n)) ∧
          (∀ b, ¬ (p.dpa ≤ b ∧ b < p.dpa + n) → byteAt t b = byteAt s b) ∧
          (link t o).waiting = (link s o).waiting ++ [r] ∧ r.p.type = 0x12 ∧ r.p.tag = p.tag ∧ r.p.status = 0 ∧
          r.p.op0 = BitVec.ofNat 64 (leNat (loadBytes s p.dpa n))))

/-- READ_DATA, WRITE_ACK, ATOMIC_RESULT and REFUSAL complete a move's request; INVAL, INVAL_ACK and
WEIR_MSG.  A reply that reaches a site port whose outstanding request with its tag a move issued,
with no attached requester, removes the request and gives the move the status of the reply's code
and the reply's data; one that matches no request is discarded and flagged. INVAL, with a key that
the sharer accepts, empties the sharer's cache of the region's lines; with another it is refused
and reported. INVAL_ACK clears the sharer's bit, and a held write that waited for that sharer
alone is written. WEIR_MSG with key 0 from a Weir of the site to the site itself is delivered;
with another key, or from another agent, it is refused and reported.  (Rests on R235, R275, R281,
R385, R388, R404, R410, R411) -/
def Obligations.RepliesCompleteRequests : Prop :=
  (∀ (s : State) (i : SiteNo) (p : Packet) (q : OpenReq) (m : MoveRec) (c id T : Nat) (e : Instr),
    ((T = 0x10 ∧ e = .readData (.own i) p) ∨ (T = 0x11 ∧ e = .writeAck (.own i) p) ∨ (T = 0x12 ∧ e = .atomicResult (.own i) p) ∨
      (T = 0x13 ∧ e = .refusal (.own i) p)) →
    p.hop = 0 → (site s i).outstanding.find? (fun r => r.p.tag == p.tag) = some q → q.issuer = .move c id →
    attachedTo (site s i) q.p = [] → findMove? s c id = some m →
    ∃ t, exec e s = .next t ∧ (site t i).outstanding = (site s i).outstanding.filter (fun r => r.seq != q.seq) ∧
      findMove? t c id = some (moveAnswered m (statusOfCode (replyCode q.p { p with type := T })) q.addr (32 * q.p.len) p.data)) ∧
  (∀ (s : State) (i : SiteNo) (p : Packet) (e : Instr),
    (e = .readData (.own i) p ∨ e = .writeAck (.own i) p ∨ e = .atomicResult (.own i) p ∨ e = .refusal (.own i) p) → p.hop = 0 →
    (∀ r ∈ (site s i).outstanding, r.p.tag ≠ p.tag) →
    ∃ t, exec e s = .next t ∧ regBit t Reg.fabricFlags 4 = true ∧ t.sites = s.sites ∧ t.cores = s.cores ∧ t.mem = s.mem) ∧
  (∀ (s : State) (o h : SiteNo) (region : Nat), keyOk s h (regionKey s region) dirBasin = true →
    ∃ t, exec (.inval o h region) s = .next t ∧ t.mem = s.mem ∧
    (∀ line, line / 256 = region → cacheGet t h line = none) ∧
    (∀ line, line / 256 ≠ region → cacheGet t h line = cacheGet s h line)) ∧
  (∀ (s : State) (o h : SiteNo) (region : Nat), keyOk s h (regionKey s region) dirBasin = false →
    ∃ t e, exec (.inval o h region) s = .next t ∧ regBit t (Reg.basinFlags h) 4 = true ∧ e ∈ t.faults.inTransit ∧ e.cls = 12 ∧
      e.code = 1 ∧ e.unit = unitNo 0x02 h) ∧
  (∀ (s : State) (o h : SiteNo) (region : Nat), keyOk s o (regionKey s region) dirBasin = true →
    (∀ i < 16, (site s i).heldWrites = []) →
    ∃ t, exec (.invalAck o h region) s = .next t ∧ t.mem = s.mem ∧ ∀ j : SiteNo,
      bit (tget 0 (site t o).sharers region) j = (if j = h then false else bit (tget 0 (site s o).sharers region) j)) ∧
  (∀ (s : State) (o h : SiteNo) (region : Nat) (w : HeldWrite), keyOk s o (regionKey s region) dirBasin = true →
    (site s o).heldWrites = [w] → (∀ i < 16, i ≠ o.val → (site s i).heldWrites = []) → w.waiting = [(region, h.val)] →
    w.reply = none → w.issuer = .transit → w.poison = [] →
    (∀ i, i < w.data.length → poisonedAt s (w.addr + i) = false) →
    ∃ t, exec (.invalAck o h region) s = .next t ∧ (site t o).heldWrites = [] ∧ loadBytes t w.addr w.data.length = w.data ∧
      ∀ b, ¬ (w.addr ≤ b ∧ b < w.addr + w.data.length) → byteAt t b = byteAt s b) ∧
  (∀ (s : State) (i : SiteNo) (p : Packet), (p.key ≠ 0 ∨ ¬ (p.srcAgent = 0x41 ∨ p.srcAgent = 0x42)) →
    ∃ t e, exec (.weirMsg (.own i) p) s = .next t ∧ t.out = s.out ∧ regBit t (Reg.basinFlags i) 4 = true ∧
      t.faults.inTransit = s.faults.inTransit ++ [e] ∧ e.cls = 12 ∧ e.code = 1 ∧ e.unit = unitNo 0x02 i) ∧
  (∀ (s : State) (i : SiteNo) (p : Packet), p.key = 0 → (p.srcAgent = 0x41 ∨ p.srcAgent = 0x42) → p.rlen = 0 →
    p.dst = ownCoord s → p.dstSite = i →
    ∃ t q, exec (.weirMsg (.own i) p) s = .next t ∧ t = { s with out := s.out ++ [.answer i q] } ∧ q.type = 0x23 ∧
      q.src = ownCoord s ∧ q.srcSite = i ∧ q.data = p.data)

/-- Refresh takes up the band, refresh management is honoured, the scrubber corrects or poisons,
flagged stores are released in order.  HBM_REFRESH of a bank of a stack that is not off clears the
bank's management request and takes up the wanted band where the rate is faster or equal, or where
every bank has been refreshed; the register shows the interval of the highest band.
REFRESH_MANAGEMENT_REQUEST records the bank. SCRUB of an enabled stack's line in a written page
that is not poisoned counts a corrected error, and changes no byte; an uncorrectable one poisons
the line and owes its partition a notice. A line of an unwritten page is passed over.
FLAGGED_STORE_RELEASE changes nothing while an earlier store is unanswered; then the store leaves
the held ones: with the status of one that failed, or, if it passes its checks at its own exit
site, into the egress queue. The number of banks is not given (log 3).  (Rests on R225, R228,
R229, R246, R247, R248, R249, R397) -/
def Obligations.RefreshScrubAndFlaggedStores : Prop :=
  (∀ (s : State) (i : SiteNo) (b : Nat) (up : Bool), regBit s (Reg.memCfg i) 3 = false → b < Config.hbmBanks →
    up = (decide (refreshRate (tget 0 (site s i).bankBand b) ≤ refreshRate (site s i).wantBand) ||
      (List.range Config.hbmBanks).all fun j => tget false (site s i).refreshed j) →
    ∃ t, exec (.hbmRefresh i b) s = .next t ∧
      (∀ j, tget 0 (site t i).bankBand j = if j = b ∧ up = true then (site s i).wantBand else tget 0 (site s i).bankBand j) ∧
      (site t i).rfm = (site s i).rfm.filter (· != b) ∧ t.mem = s.mem ∧
      reg t (Reg.memRefresh i) = refreshInterval ((site t i).bankBand.foldl (fun m e => maxNat m e.2) 0)) ∧
  (∀ (s : State) (i : SiteNo) (b : Nat), (regBit s (Reg.memCfg i) 3 = true ∨ Config.hbmBanks ≤ b) →
    exec (.hbmRefresh i b) s = .next s) ∧
  (∀ (s : State) (i : SiteNo) (b : Nat), b < Config.hbmBanks →
    ∃ t, exec (.refreshManagementRequest i b) s = .next t ∧ b ∈ (site t i).rfm ∧
      (∀ j, j ≠ b → (j ∈ (site t i).rfm ↔ j ∈ (site s i).rfm)) ∧ t.mem = s.mem) ∧
  (∀ (s : State) (i : SiteNo) (n : Nat), regBit s (Reg.memCfg i) 4 = true → regBit s (Reg.memCfg i) 3 = false → n < 2 ^ 30 →
    pageWritten s (i * 2 ^ 36 + 64 * n) = true → poisonedAt s (i * 2 ^ 36 + 64 * n) = false →
    (∃ t r, exec (.scrub i false n .corrected) s = .next t ∧ t.mem = s.mem ∧ t.poison = s.poison ∧
      reg t (Reg.memHbmCe i) = satAdd 64 (reg s (Reg.memHbmCe i)) 1 ∧ t.faults.inTransit = s.faults.inTransit ++ [r] ∧
      r.cls = 6 ∧ r.code = 1 ∧ r.unit = unitNo 0x05 i ∧ r.d0 = i * 2 ^ 36 + 64 * n) ∧
    (∃ t, exec (.scrub i false n .uncorrectable) s = .next t ∧ t.mem = s.mem ∧
      poisonedAt t (i * 2 ^ 36 + 64 * n) = true ∧
      (partOfAddr s (i * 2 ^ 36 + 64 * n) ≠ 0xFF → ∃ w, t.faults.notices = s.faults.notices ++ [w] ∧
        w.part = partOfAddr s (i * 2 ^ 36 + 64 * n) ∧ w.words = [i * 2 ^ 36 + 64 * n, i.val]))) ∧
  (∀ (s : State) (i : SiteNo) (n : Nat) (e : EccOutcome), pageWritten s (i * 2 ^ 36 + 64 * n) = false →
    ∃ t, exec (.scrub i false n e) s = .next t ∧ t.mem = s.mem ∧ t.poison = s.poison ∧ t.faults = s.faults) ∧
  (∀ (s : State) (i : SiteNo) (g : Nat) (r : OpenReq), (site s i).flagged.find? (fun r => r.p.tag == g) = some r →
    (earlierStore s i r = true → exec (.flaggedStoreRelease i g) s = .next s) ∧
    (earlierStore s i r = false →
      (∀ c id m, r.fail ≠ 0 → r.issuer = .move c id → findMove? s c id = some m →
        ∃ t, exec (.flaggedStoreRelease i g) s = .next t ∧ (∀ q ∈ (site t i).flagged, q.seq ≠ r.seq) ∧
          findMove? t c id = some (moveAnswered m (statusOfCode r.fail) r.addr (32 * r.p.len) [])) ∧
      (∀ c id, r.fail = 0 → r.issuer = .move c id → r.p.type = 0x02 → r.dst = i → roomFor (site s i) = true →
        checkReq s i (partOfCore s r.core) r = 0 →
        ∃ t, exec (.flaggedStoreRelease i g) s = .next t ∧ (∀ q ∈ (site t i).flagged, q.seq ≠ r.seq) ∧
          (site t i).egressQ = (site s i).egressQ ++ [r] ∧ (site t i).outstanding = (site s i).outstanding ++ [r])))

/-- SQ_FETCH, QUEUE_NOP, DISPATCH, COPY, coalescing timeouts and poison notices.  SQ_FETCH of a
running queue pair whose owner may master the bus and which has an entry to fetch takes the entry
in order, stamps it with the host interface's tick and advances the fetch position; a failed read
puts the queue pair in error. QUEUE_NOP starts its head entry and resolves it with status OK.
DISPATCH of a context the function may use asks for a start slot with the entry's tag and
arguments, granted in this tick; of another context it resolves the entry with REFUSED. COPY
queues a copy with the entry's addresses and length on the queue pair's channel. A head entry of
another type, one that must wait, or none, changes nothing. The completion of a resolved entry,
which TICK_END writes, stands with the phase tag and the SQ head at the completion queue's next
slot in its owner's host memory and no other byte changes; without Bus Master Enable it waits; a
queue that is gone takes nothing. COALESCING_TIMEOUT reports a group once its oldest entry is
older than the time. POISON_NOTICE takes the oldest notice owed once its tick is resolved and a
Weir serves.  (Rests on R248, R440, R441, R442, R443, R444, R446, R448, R449, R178) -/
def Obligations.QueueEntriesAreFetchedAndCompleted : Prop :=
  (∀ (s : State) (n : QpNo) (ws : List DWord), (qp s n).mode = 1 → mayMaster s (qp s n).owner = true →
    (qp s n).fetchPos ≠ (qp s n).tail →
    ∃ t e, exec (.sqFetch n (.entry ws)) s = .next t ∧ (qp t n).fetched = (qp s n).fetched ++ [e] ∧ e.words = ws ∧
      e.seq = (qp s n).nextSeq ∧ e.stamp = copyTick s copyHost ∧ (qp t n).nextSeq = (qp s n).nextSeq + 1 ∧
      (qp t n).fetchPos = ((qp s n).fetchPos + 1) % sqSize (qp s n) ∧ ∀ k : Nat, k ≠ n → qp t k = qp s k) ∧
  (∀ (s : State) (n : QpNo) (r : SqRead), (qp s n).mode = 1 → mayMaster s (qp s n).owner = true →
    (qp s n).fetchPos ≠ (qp s n).tail → (∀ ws, r ≠ .entry ws) →
    ∃ t e, exec (.sqFetch n r) s = .next t ∧ qp t n = { qp s n with mode := 2, fetchError := true } ∧
      regBit t Reg.queueFlags 2 = true ∧ t.faults.inTransit = s.faults.inTransit ++ [e] ∧ e.cls = 14 ∧ e.code = 2 ∧
      e.unit = unitNo 0x15 n) ∧
  (∀ (s : State) (n : QpNo) (r : SqRead), ((qp s n).mode ≠ 1 ∨ mayMaster s (qp s n).owner = false ∨
    (qp s n).fetchPos = (qp s n).tail) → exec (.sqFetch n r) s = .next s) ∧
  (∀ (s : State) (n : QpNo) (e : SqEntry), headOf s n 3 = some e →
    ∃ t, exec (.queueNop n) s = .next t ∧ (qp t n).accepted = (qp s n).accepted.drop 1 ∧
      t.ended = s.ended ++ [{ seq := e.seq, cq := e.cq, cpl := Cpl.plain (eTag e) 0 n }] ∧ t.hostMem = s.hostMem ∧ t.mem = s.mem) ∧
  (∀ (s : State) (n : QpNo) (e : SqEntry), headOf s n 1 = some e → contextFor s (qp s n).owner (eContext e) = true →
    ∃ t d, exec (.dispatch n) s = .next t ∧ t.startReqs = s.startReqs ++ [{ handle := eContext e, d := d }] ∧ d.qp = n.val ∧
      d.seq = e.seq ∧ d.fn = (qp s n).owner ∧ d.tag = eTag e ∧ d.cq = e.cq ∧ d.argDpa = eArgDpa e ∧ d.argLen = eArgLen e ∧
      d.granted = tickOf s ∧ (qp t n).accepted = (qp s n).accepted.drop 1 ∧ t.hostMem = s.hostMem ∧ t.ended = s.ended) ∧
  (∀ (s : State) (n : QpNo) (e : SqEntry), headOf s n 1 = some e → contextFor s (qp s n).owner (eContext e) = false →
    ∃ t, exec (.dispatch n) s = .next t ∧ t.startReqs = s.startReqs ∧ (qp t n).accepted = (qp s n).accepted.drop 1 ∧
      t.ended = s.ended ++ [{ seq := e.seq, cq := e.cq, cpl := Cpl.plain (eTag e) 6 n }]) ∧
  (∀ (s : State) (n : QpNo) (e : SqEntry), headOf s n 2 = some e →
    ∃ t r, exec (.copy n) s = .next t ∧ (dmaCh t (qp s n).channel).copies = (dmaCh s (qp s n).channel).copies ++ [r] ∧
      r.qp = n.val ∧ r.seq = e.seq ∧ r.cq = e.cq ∧ r.tag = eTag e ∧ r.toHost = eDir e ∧ r.host = eHost e ∧ r.dpa = eDpa e ∧
      r.len = eLen e ∧ r.moved = 0 ∧ r.held = 0 ∧ r.err = none ∧ (qp t n).accepted = (qp s n).accepted.drop 1 ∧ t.hostMem = s.hostMem ∧
      t.mem = s.mem) ∧
  (∀ (s : State) (n : QpNo), (headOf s n 1 = none → exec (.dispatch n) s = .next s) ∧
    (headOf s n 2 = none → exec (.copy n) s = .next s) ∧ (headOf s n 3 = none → exec (.queueNop n) s = .next s)) ∧
  (∀ (s : State) (x : Ended), (qp s x.cq).mode ≠ 0 → mayMaster s (qp s x.cq).owner = true →
    (qp (writeCompletion s x) x.cpl.sq).open_ = (qp s x.cpl.sq).open_.filter (· != x.seq) ∧
    (qp (writeCompletion s x) x.cq).cqTail = ((qp s x.cq).cqTail + 1) % cqSize (qp s x.cq) ∧
    readBytes (writeCompletion s x).hostMem (2 ^ 64 * (qp s x.cq).owner + ((qp s x.cq).cqBase + 64 * (qp s x.cq).cqTail)) 64 =
      wordBytes (withHead (withTag x.cpl.words 1 (qp s x.cq).phaseTag) (qp s (bits (x.cpl.words.getD 1 0) 51 34)).head) ∧
    (∀ z, ¬ (2 ^ 64 * (qp s x.cq).owner + ((qp s x.cq).cqBase + 64 * (qp s x.cq).cqTail) ≤ z ∧ z < 2 ^ 64 * (qp s x.cq).owner + ((qp s x.cq).cqBase + 64 * (qp s x.cq).cqTail) + 64) →
      readByte (writeCompletion s x).hostMem z = readByte s.hostMem z)) ∧
  (∀ (s : State) (x : Ended), (qp s x.cq).mode ≠ 0 → mayMaster s (qp s x.cq).owner = false →
    (writeCompletion s x).hostMem = s.hostMem ∧
    (qp (writeCompletion s x) x.cq).blocked = (qp s x.cq).blocked ++ [x.cpl.words]) ∧
  (∀ (s : State) (x : Ended), (qp s x.cq).mode = 0 → (writeCompletion s x).hostMem = s.hostMem) ∧
  (∀ (s : State) (n : QpNo) (a : Nat), (qp s n).oldest = some a → (qp s n).mode ≠ 0 →
    (a + 1000 * (qp s n).coalTime < s.time.now → ∃ t, exec (.coalescingTimeout n) s = .next t ∧
      qp t n = { qp s n with unreported := 0, oldest := none } ∧ t.hostMem = s.hostMem) ∧
    (s.time.now ≤ a + 1000 * (qp s n).coalTime → exec (.coalescingTimeout n) s = .next s)) ∧
  (∀ (s : State) (n : QpNo), ((qp s n).oldest = none ∨ (qp s n).mode = 0) → exec (.coalescingTimeout n) s = .next s) ∧
  (∀ (s : State) (w : Notice) (ws : List Notice), s.faults.notices = w :: ws →
    (w.tick < s.faults.nextTick → weirServes s = true → ∃ t, exec .poisonNotice s = .next t ∧
      t.faults = { s.faults with notices := ws } ∧ t.mem = s.mem) ∧
    ((s.faults.nextTick ≤ w.tick ∨ weirServes s = false) → exec .poisonNotice s = .next s)) ∧
  (∀ s : State, s.faults.notices = [] → exec .poisonNotice s = .next s)

/-- DMA bursts between host memory and the near tier move exactly their bytes; a bus error halts the
channel.  Take a running channel whose turn it is, and whose head copy's next burst stands in a
stack, Pond scratch or core store that no crossing on its way refuses and that is not in self
refresh. DMA_BURST_COMPLETE of a copy from host memory, over lines that it writes whole or that
are not poisoned and that no site caches, writes the burst's bytes there and no other byte of
device memory. Of a copy to host memory it changes no device byte, and (the decoders reporting
nothing and no word poisoned) the owner's host memory holds the bytes of the device and is
unchanged elsewhere. The byte counter rises by the burst's length; the copy stays at the channel's
head with its progress until its last burst, and then leaves, resolved with status OK or its first
error. A burst over a refusing crossing moves no byte; one outside the far slots its function may
use ends the copy with BOUNDS; one for a slot without a route is noted as refused. A channel that
does not run, or has used its share, or whose head copy has ended or waits for a stack in self
refresh, changes nothing. DMA_HALT of a running channel stops its head copy, which ends with
BUS_ERROR once nothing of it is outstanding, halts the channel and latches the first error's
information and address. Where a burst ends is in part the model's choice (log 24).  (Rests on
R448, R450, R451, R452, R453, R455, R466, R467) -/
def Obligations.DmaBurstsMoveBytesAndHalt : Prop :=
  (∀ (s : State) (ch : ChanNo) (r : CopyRec) (rs : List CopyRec) (bs : List Byte) (ls ws : EccList) (a n : Nat), (dmaCh s ch).copies = r :: rs →
    dmaRuns s ch = true → (dmaTurn s ch r.toHost).1 = true → r.moved < r.len → r.bounds = false → r.held = 0 → r.err = none →
    a = r.dpa + r.moved → n = burstLen r → (a < farBase ∨ 0x400_0000_0000 ≤ a) → a < 0x402_8000_0000 →
    burstRefused s a = false → burstSleeps s a = false →
    ∃ t, exec (.dmaBurstComplete ch bs ls ws) s = .next t ∧
      (r.toHost = false → sharersOf s a n = [] →
        (a % 64 = 0 ∧ n % 64 = 0 ∨ ∀ i, i < n → poisonedAt s (a + i) = false) →
        loadBytes t a n = (List.range n).map (fun i => bs.getD i 0) ∧
        ∀ z, ¬ (a ≤ z ∧ z < a + n) → byteAt t z = byteAt s z) ∧
      (r.toHost = true → ls = [] → ws = [] → t.mem = s.mem ∧ (poisonUnits s a n = [] →
        readBytes t.hostMem (2 ^ 64 * r.fn + (r.host + r.moved)) n = loadBytes s a n ∧
        ∀ z, ¬ (2 ^ 64 * r.fn + (r.host + r.moved) ≤ z ∧ z < 2 ^ 64 * r.fn + (r.host + r.moved) + n) →
          readByte t.hostMem z = readByte s.hostMem z)) ∧
      ((r.toHost = true ∨ sharersOf s a n = []) →
        (r.moved + n < r.len → ∃ q, (dmaCh t ch).copies = q :: rs ∧ q.moved = r.moved + n ∧ q.seq = r.seq ∧ t.ended = s.ended) ∧
        (r.moved + n = r.len → (dmaCh t ch).copies = rs ∧ ∃ c, t.ended = s.ended ++ [c] ∧ c.seq = r.seq ∧ c.cq = r.cq ∧
          c.cpl.tag = r.tag ∧ c.cpl.count = r.len ∧ c.cpl.tEnd = s.time.now)) ∧
      (r.toHost = false → sharersOf s a n ≠ [] → t.mem = s.mem ∧ ∃ q, (dmaCh t ch).copies = q :: rs ∧ q.held = 1) ∧
      reg t (Reg.dmaBytes ch) = satAdd 64 (reg s (Reg.dmaBytes ch)) n) ∧
  (∀ (s : State) (ch : ChanNo) (r : CopyRec) (rs : List CopyRec) (bs : List Byte) (ls ws : EccList) (a : Nat), (dmaCh s ch).copies = r :: rs →
    dmaRuns s ch = true → (dmaTurn s ch r.toHost).1 = true → r.moved < r.len → r.bounds = false → r.held = 0 → r.err = none →
    a = r.dpa + r.moved → burstSleeps s a = false →
    (burstRefused s a = true → (farBase ≤ a ∧ a < 0x400_0000_0000 → farRange s r.fn a (burstLen r) (!r.toHost) = true) →
      ∃ t, exec (.dmaBurstComplete ch bs ls ws) s = .next t ∧ t.mem = s.mem ∧
      t.hostMem = s.hostMem ∧ (r.moved + burstLen r < r.len → ∃ q, (dmaCh t ch).copies = q :: rs ∧ q.crossing = true) ∧
      (r.moved + burstLen r = r.len → ∃ c, t.ended = s.ended ++ [c] ∧ c.seq = r.seq ∧ c.cpl.status = 0x0A)) ∧
    (farBase ≤ a → a < 0x400_0000_0000 → farRange s r.fn a (burstLen r) (!r.toHost) = false →
      ∃ t c, exec (.dmaBurstComplete ch bs ls ws) s = .next t ∧ t.mem = s.mem ∧ t.hostMem = s.hostMem ∧ (dmaCh t ch).copies = rs ∧
        t.ended = s.ended ++ [c] ∧ c.seq = r.seq ∧ c.cpl.status = 0x08 ∧ c.cpl.count = r.moved) ∧
    (farBase ≤ a → a < 0x400_0000_0000 → farRange s r.fn a (burstLen r) (!r.toHost) = true → burstRefused s a = false →
      hasCoord s = false → r.moved + burstLen r < r.len →
      ∃ t q, exec (.dmaBurstComplete ch bs ls ws) s = .next t ∧ t.mem = s.mem ∧ t.hostMem = s.hostMem ∧
        (dmaCh t ch).copies = q :: rs ∧ q.refused = some (r.refused.getD 3) ∧ q.moved = r.moved + burstLen r)) ∧
  (∀ (s : State) (ch : ChanNo) (r : CopyRec) (rs : List CopyRec) (bs : List Byte) (ls ws : EccList),
    (dmaCh s ch).copies = r :: rs → (dmaRuns s ch = false ∨ (dmaTurn s ch r.toHost).1 = false ∨ r.moved = r.len ∨ r.bounds = true ∨
      r.err.isSome = true ∨ burstSleeps s (r.dpa + r.moved) = true) →
    exec (.dmaBurstComplete ch bs ls ws) s = .next s) ∧
  (∀ (s : State) (ch : ChanNo) (r : CopyRec) (rs : List CopyRec) (e : HostErr), (dmaCh s ch).copies = r :: rs →
    dmaRuns s ch = true → r.moved ≠ r.len → r.bounds = false → r.err = none →
    ∃ t, exec (.dmaHalt ch e) s = .next t ∧ regBit t (Reg.dmaFlags ch) 0 = true ∧ t.mem = s.mem ∧
      (r.held = 0 → (dmaCh t ch).copies = rs ∧ ∃ c, t.ended = s.ended ++ [c] ∧ c.seq = r.seq ∧ c.cpl.status = 0x0C ∧
        c.cpl.cause = hostErrNo e ∧ c.cpl.count = r.moved) ∧
      (r.held ≠ 0 → t.ended = s.ended ∧ ∃ q, (dmaCh t ch).copies = q :: rs ∧ q.err = some (hostErrNo e) ∧ q.held = r.held) ∧
      (regBit s (Reg.dmaErrinfo ch) 31 = false → reg t (Reg.dmaErraddr ch) = r.host + r.moved ∧
        reg t (Reg.dmaErrinfo ch) = 2 ^ 31 + (if r.toHost then 2 ^ 30 else 0) + hostErrNo e * 2 ^ 27 + r.fn) ∧
      (regBit s (Reg.dmaErrinfo ch) 31 = true → reg t (Reg.dmaErraddr ch) = reg s (Reg.dmaErraddr ch) ∧
        regBit t (Reg.dmaFlags ch) 1 = true)) ∧
  (∀ (s : State) (ch : ChanNo) (e : HostErr), ((dmaCh s ch).copies = [] ∨ dmaRuns s ch = false) →
    exec (.dmaHalt ch e) s = .next s) ∧
  (∀ (s : State) (ch : ChanNo) (r : CopyRec) (rs : List CopyRec) (e : HostErr), (dmaCh s ch).copies = r :: rs →
    (r.moved = r.len ∨ r.bounds = true ∨ r.err.isSome = true) → exec (.dmaHalt ch e) s = .next s) ∧
  (∀ (s : State) (ch : ChanNo) (bs : List Byte) (ls ws : EccList), (dmaCh s ch).copies = [] →
    exec (.dmaBurstComplete ch bs ls ws) s = .next s)

/-- Rings settle, are late or fail over; transfers and tokens reach their core or are discarded;
credits and receipts count.  RING_SETTLED settles an unsettled ring, keeps the longest settle time
of a grant, and resumes the channel once no ring on it is unsettled. RETUNE_LATE of a ring of a
grant that is 4 us old fails it: a free ring of its guide takes its channel, which pauses; without
one the channel fails. CHANNEL_FAILED of a replacement ring that is 4 us old fails its channel,
which waits for its place at the end of the tick: spare slot 30 where it may carry it, else slot
31, else it is folded. RECEIPT_CONFIRMATION confirms the least count of its receivers.
SCHEDULED_DATA takes the channel's next transfer to the site: for a core of the running context it
writes its bytes and no others and posts its counter; for a stack whose lines no site holds it
writes them there; where the context has no such core, and in self refresh, it writes nothing;
what is not the next transfer changes nothing, and a mismatch is discarded, flagged and reported.
POST_TOKEN of a link's or a channel's next post posts the running context's counter and tells the
sender. CREDIT_MESSAGE returns credits up to 512.  (Rests on R213, R263, R264, R265, R267, R268,
R271, R282, R283, R284, R285, R294) -/
def Obligations.BasinEventsTakeEffect : Prop :=
  (∀ (s : State) (d : SiteNo) (n : Fin 1024) (r : Ring), tfind (site s d).rings n = some r →
    ((r.settled = true ∨ r.failed = true) → exec (.ringSettled d n) s = .next s) ∧
    (r.settled = false → r.failed = false → ∃ t, exec (.ringSettled d n) s = .next t ∧
      tfind (site t d).rings n = some { r with settled := true } ∧ t.mem = s.mem ∧
      (r.replacement = false → reg t (Reg.basinRetuneMax d) =
        maxNat (reg s (Reg.basinRetuneMax d)) (minNat (s.time.now - r.since) (2 ^ 32 - 1))) ∧
      ((∀ o ∈ ringsOn t (n / 8) r.lambda, o.2.2.settled = true ∨ o.2.2.failed = true) →
        tget false (site t (n / 8 / 8)).paused (carried s (n / 8) r.lambda) = false))) ∧
  (∀ (s : State) (d : SiteNo) (n : Fin 1024), tfind (site s d).rings n = none →
    exec (.ringSettled d n) s = .next s ∧ exec (.retuneLate d n) s = .next s ∧ exec (.channelFailed d n) s = .next s) ∧
  (∀ (s : State) (d : SiteNo) (n : Fin 1024) (r : Ring), tfind (site s d).rings n = some r → r.settled = false →
    r.failed = false → r.replacement = false →
    (s.time.now < r.since + 4000 → exec (.retuneLate d n) s = .next s) ∧
    (r.since + 4000 ≤ s.time.now → ∃ t, exec (.retuneLate d n) s = .next t ∧ regBit t (Reg.basinFlags d) 0 = true ∧
      regBit t (Reg.basinFlags d) 1 = true ∧ tget false (site t (n / 8 / 8)).paused (carried s (n / 8) r.lambda) = true ∧
      (∀ k, freeRing? s d (n / 8) = some k → ∃ q, tfind (site t d).rings n = some { r with failed := true } ∧
        tfind (site t d).rings (8 * (n / 8) + k) = some q ∧ q.lambda = r.lambda ∧ q.handle = r.handle ∧ q.settled = false ∧
        q.replacement = true ∧ q.since = s.time.now) ∧
      (freeRing? s d (n / 8) = none → regBit t (Reg.basinFlags d) 2 = true ∧
        tget false (site t (n / 8 / 8)).failedTx (32 * (n / 8 % 8) + r.lambda) = true))) ∧
  (∀ (s : State) (d : SiteNo) (n : Fin 1024) (r : Ring) (i : Nat), tfind (site s d).rings n = some r → r.settled = false →
    r.failed = false → r.replacement = true → i = n / 8 / 8 →
    (s.time.now < r.since + 4000 → exec (.channelFailed d n) s = .next s) ∧
    (r.since + 4000 ≤ s.time.now →
      ∃ t u, exec (.channelFailed d n) s = .next t ∧ regBit t (Reg.basinFlags d) 2 = true ∧ ringsOn t (n / 8) r.lambda = [] ∧
        tget false (site t i).failedTx (32 * (n / 8 % 8) + r.lambda) = true ∧ tget false (site t i).paused (carried s (n / 8) r.lambda) = true ∧
        (site t i).spareDue = (site s i).spareDue ++ [u] ∧ u.idx = carried s (n / 8) r.lambda ∧ u.dsts = receiversOf s (n / 8) r.lambda)) ∧
  (∀ (s : State) (i : SiteNo) (idx : Nat) (h : Option Nat) (ds : List (Nat × Nat × Nat)),
    (spareOk s i false (ds.map (·.1)) = true → (site (placeIndex s i idx h ds) i).slot30 = some idx) ∧
    (spareOk s i false (ds.map (·.1)) = false → spareOk s i true (ds.map (·.1)) = true →
      (site (placeIndex s i idx h ds) i).slot31 = some idx) ∧
    (spareOk s i false (ds.map (·.1)) = false → spareOk s i true (ds.map (·.1)) = false → openIndex idx = false →
      tget false (site (placeIndex s i idx h ds) i).folded idx = true ∧ regBit (placeIndex s i idx h ds) (Reg.basinFlags i) 3 = true)) ∧
  (∀ (s : State) (d : SiteNo) (g : Fin 128) (l : Fin 32) (good : Nat) (e : Nat × Ring),
    (site s d).rings.find? (fun e => e.1 / 8 == g.val && e.2.lambda == l.val && !e.2.failed) = some e →
    ∃ t, exec (.receiptConfirmation d g l good) s = .next t ∧ t.mem = s.mem ∧
      (d.val, e.1, { e.2 with good := maxNat e.2.good (minNat good (tget 0 (site s (g / 8)).txCount (carried s g l))) }) ∈ ringsOn t g l ∧
      (∀ o ∈ ringsOn t g l, o.2.2.failed = false → tget 0 (site t (g / 8)).confirmed (carried s g l) ≤ o.2.2.good) ∧
      ∃ o ∈ ringsOn t g l, o.2.2.failed = false ∧ tget 0 (site t (g / 8)).confirmed (carried s g l) = o.2.2.good) ∧
  (∀ (s : State) (d : SiteNo) (g : Fin 128) (l : Fin 32) (good : Nat),
    (site s d).rings.find? (fun e => e.1 / 8 == g.val && e.2.lambda == l.val && !e.2.failed) = none →
    exec (.receiptConfirmation d g l good) s = .next s) ∧
  (∀ (s : State) (d : SiteNo) (g : Fin 128) (l : Fin 32) (u : Transfer) (x : Context) (k : CtxCore) (a : Nat),
    chanTo s d g l u.hdr.context u.hdr.dstLocal = .core x k → ctx? s x.handle = some x → ctxCore? x k.core = some k →
    nextTransfer? s (g / 8) (carried s g l) d = some u → u.handle = x.handle → u.near = false → u.poison = [] →
    a = regionAddr k (32 * u.hdr.dstOff) → regionOk x (32 * u.hdr.dstOff) u.data.length = true →
    (∀ i, i < u.data.length → poisonedAt s (a + i) = false) → counter k u.hdr.ctr + u.hdr.amount ≤ 65535 →
    ∃ t k', exec (.scheduledData d g l u.hdr u.data) s = .next t ∧ loadBytes t a u.data.length = u.data ∧
      (∀ z, ¬ (a ≤ z ∧ z < a + u.data.length) → byteAt t z = byteAt s z) ∧
      (ctx? t x.handle).bind (ctxCore? · k.core) = some k' ∧
      counter k' u.hdr.ctr = counter k u.hdr.ctr + (if u.hdr.ctrEn then u.hdr.amount.val else 0)) ∧
  (∀ (s : State) (d : SiteNo) (g : Fin 128) (l : Fin 32) (u : Transfer) (x : Context) (m : MoveRec) (id : Nat),
    chanTo s d g l u.hdr.context u.hdr.dstLocal = .noCore → ctx? s u.handle = some x →
    nextTransfer? s (g / 8) (carried s g l) d = some u → u.near = true → u.poison = [] → stackAsleep s d = false → u.req = none →
    u.move = some id → findMove? s u.core id = some m → sharersOf s (m.dst.headD 0) u.data.length = [] →
    (∀ i, i < u.data.length → poisonedAt s (m.dst.headD 0 + i) = false) →
    ∃ t, exec (.scheduledData d g l u.hdr u.data) s = .next t ∧ loadBytes t (m.dst.headD 0) u.data.length = u.data ∧
      (∀ z, ¬ (m.dst.headD 0 ≤ z ∧ z < m.dst.headD 0 + u.data.length) → byteAt t z = byteAt s z) ∧ t.contexts = s.contexts) ∧
  (∀ (s : State) (d : SiteNo) (g : Fin 128) (l : Fin 32) (u : Transfer),
    nextTransfer? s (g / 8) (carried s g l) d = some u →
    (u.near = true → stackAsleep s d = true → chanTo s d g l u.hdr.context u.hdr.dstLocal ≠ .mismatch →
      exec (.scheduledData d g l u.hdr u.data) s = .next s) ∧
    (u.near = false → chanTo s d g l u.hdr.context u.hdr.dstLocal = .noCore →
      ∃ t, exec (.scheduledData d g l u.hdr u.data) s = .next t ∧ t.mem = s.mem ∧ t.contexts = s.contexts)) ∧
  (∀ (s : State) (d : SiteNo) (g : Fin 128) (l : Fin 32) (h : ChanHdr) (bs : List Byte),
    (chanTo s d g l h.context h.dstLocal = .mismatch →
      ∃ t r, exec (.scheduledData d g l h bs) s = .next t ∧ t.mem = s.mem ∧ t.contexts = s.contexts ∧
        regBit t (Reg.basinFlags d) 5 = true ∧ t.faults.inTransit = s.faults.inTransit ++ [r] ∧ r.cls = 12 ∧ r.code = 3) ∧
    (chanTo s d g l h.context h.dstLocal = .nothing → exec (.scheduledData d g l h bs) s = .next s) ∧
    (chanTo s d g l h.context h.dstLocal ≠ .mismatch →
      ((nextTransfer? s (g / 8) (carried s g l) d).filter fun t => t.hdr == h && t.data == bs) = none →
      exec (.scheduledData d g l h bs) s = .next s)) ∧
  (∀ (s : State) (a b : CoreNo) (no : Fin 16) (loc : Fin 4) (n : Fin 32) (v : Fin 256) (x : Context) (k : CtxCore) (p : RemotePost),
    Runs s b x k → runCtx? s a = some x → ctxNo x.handle = no → nextPost? s a b = some p → p.ctr = n → p.amount = v →
    counter k n + v ≤ 65535 →
    ∃ t k', exec (.postToken (.link a b) no loc n v) s = .next t ∧ (ctx? t x.handle).bind (ctxCore? · b) = some k' ∧
      counter k' n = counter k n + v ∧ (∀ q ∈ (core t a).remote, ¬ (q.id = p.id ∧ q.dst = b)) ∧ t.mem = s.mem) ∧
  (∀ (s : State) (d : SiteNo) (g : Fin 128) (l : Fin 32) (no : Fin 16) (loc : Fin 4) (n : Fin 32) (v : Fin 256) (u : Transfer)
    (x : Context) (k : CtxCore), chanTo s d g l no loc = .core x k → ctx? s x.handle = some x → ctxCore? x k.core = some k →
    nextTransfer? s (g / 8) (carried s g l) d = some u → u.handle = x.handle → u.hdr = postHdr u.handle loc n v →
    counter k n + v ≤ 65535 →
    ∃ t k', exec (.postToken (.channel d g l) no loc n v) s = .next t ∧ (ctx? t x.handle).bind (ctxCore? · k.core) = some k' ∧
      counter k' n = counter k n + v ∧ (∀ q ∈ (core t u.core).remote, ¬ (q.id = u.id ∧ q.dst = k.core)) ∧ t.mem = s.mem) ∧
  (∀ (s : State) (a b : CoreNo) (no : Fin 16) (loc : Fin 4) (n : Fin 32) (v : Fin 256), nextPost? s a b = none →
    exec (.postToken (.link a b) no loc n v) s = .next s) ∧
  (∀ (s : State) (d : SiteNo) (g : Fin 128) (l : Fin 32) (no : Fin 16) (loc : Fin 4) (n : Fin 32) (v : Fin 256),
    chanTo s d g l no loc = .mismatch → ∃ t, exec (.postToken (.channel d g l) no loc n v) s = .next t ∧
      regBit t (Reg.basinFlags d) 5 = true ∧ t.contexts = s.contexts ∧ t.mem = s.mem) ∧
  (∀ (s : State) (i j : SiteNo) (n : Nat),
    exec (.creditMessage i i n) s = .next s ∧ (i ≠ j → ∃ t, exec (.creditMessage i j n) s = .next t ∧ t.mem = s.mem ∧
      field t (Reg.basinCredit j i) 9 0 = minNat 512 (field s (Reg.basinCredit j i) 9 0 + n) ∧
      tget 0 (site t i).recvHeld j = tget 0 (site s i).recvHeld j - n))

/-- Receivers report losses, combiners pass their feeds, a spare Spring is powered, frames are
counted, and the clamp latches.  LOSS_OF_SIGNAL and LOSS_OF_LOCK of a tuned Basin ring set their
flag, count and report; their clearing changes nothing. COMBINER_FEED_LOSS clears the input's bit,
shows a single feed where one is left, and none where none is. COMBINER_RESUME shows both where
both positions of the pair feed. SPRING_RESTORE, while a Weir serves, powers the lowest spare for
the lowest lost position, if there are both. An Outlet that is awake reports them likewise, and
one that sleeps does not. CHANNEL_FRAME of a frame as its sender encodes it adds the corrected
symbols, uncorrectable codewords and stuffing errors that the receiver finds, passes the payload
of a good data frame on, fails the ring of a bad one, and counts a frame encoded again; an Outlet
asks for the flits of a bad one again. CLAMP_TRIP closes the named shutters and latches the trip;
CLAMP_REOPEN, at most once a second while a Weir serves, ends it where every monitor is valid.
(Rests on R282, R335, R337, R344, R357, R358, R359, R360, R363) -/
def Obligations.LightEventsTakeEffect : Prop :=
  (∀ (s : State) (r : Receiver), exec (.lossOfSignal r false) s = .next s ∧ exec (.lossOfLock r false) s = .next s) ∧
  (∀ (s : State) (i : SiteNo) (n : Fin 1024) (q : Ring), tfind (site s i).rings n = some q →
    (∃ t e, exec (.lossOfSignal (.basin i n) true) s = .next t ∧ regBit t (Reg.lightFlags i) 0 = true ∧
      reg t (Reg.lightLos i) = satAdd 64 (reg s (Reg.lightLos i)) 1 ∧ e ∈ t.faults.inTransit ∧ e.cls = 4 ∧ e.code = 5 ∧
      e.unit = unitNo 0x0B (1024 * i + n) ∧ t.mem = s.mem) ∧
    (∃ t e, exec (.lossOfLock (.basin i n) true) s = .next t ∧ regBit t (Reg.lightFlags i) 1 = true ∧
      reg t (Reg.lightLol i) = satAdd 64 (reg s (Reg.lightLol i)) 1 ∧ e ∈ t.faults.inTransit ∧ e.cls = 4 ∧ e.code = 6 ∧
      e.unit = unitNo 0x0B (1024 * i + n) ∧ t.mem = s.mem)) ∧
  (∀ (s : State) (i : SiteNo) (n : Fin 1024), tfind (site s i).rings n = none →
    exec (.lossOfSignal (.basin i n) true) s = .next s ∧ exec (.lossOfLock (.basin i n) true) s = .next s) ∧
  (∀ (s : State) (c : Fin 192) (b : Bool), ∃ t r, exec (.combinerFeedLoss c b) s = .next t ∧
    regBit t (combReg c) (if b then 27 else 28) = false ∧
    regBit t (combReg c) (if b then 28 else 27) = regBit s (combReg c) (if b then 28 else 27) ∧
    regBit t (combReg c) 26 = regBit s (combReg c) (if b then 28 else 27) ∧
    regBit t (combReg c) 29 = !regBit s (combReg c) (if b then 28 else 27) ∧
    t.faults.inTransit = s.faults.inTransit ++ [r] ∧ r.cls = 4 ∧ r.code = 2 ∧ ∀ k, k ≠ combReg c → reg t k = reg s k) ∧
  (∀ (s : State) (c : Fin 192), ((feeding? s (combPos c false)).isNone || (feeding? s (combPos c true)).isNone) = true →
    exec (.combinerResume c) s = .next s) ∧
  (∀ (s : State) (c : Fin 192), (feeding? s (combPos c false)).isSome = true → (feeding? s (combPos c true)).isSome = true →
    ∃ t, exec (.combinerResume c) s = .next t ∧ regBit t (combReg c) 28 = true ∧ regBit t (combReg c) 27 = true ∧
      regBit t (combReg c) 26 = false ∧ regBit t (combReg c) 29 = false ∧ ∀ k, k ≠ combReg c → reg t k = reg s k) ∧
  (∀ (s : State), weirServes s = false → exec .springRestore s = .next s) ∧
  (∀ (s : State) (p n : Nat), weirServes s = true →
    (List.range 8).find? (fun p => positionLost s p && (positionResolved s p && (feeding? s (pairMate p)).isSome)) = some p →
    spareSpring? s = some n →
    ∃ t, exec .springRestore s = .next t ∧ springState t n = 1 ∧ (spring t n).restoring = some p ∧
      ∀ m, m ≠ n → spring t m = spring s m) ∧
  (∀ (s : State), weirServes s = true →
    ((List.range 8).find? (fun p => positionLost s p && (positionResolved s p && (feeding? s (pairMate p)).isSome)) = none ∨
      spareSpring? s = none) → exec .springRestore s = .next s) ∧
  (∀ (s : State) (o : OutletNo) (a : Fin 4) (l : Fin 32),
    ((linkStateOf s o = 5 ∨ regBit s (Reg.optStat o) 4 = true) →
      exec (.lossOfSignal (.outlet o a l) true) s = .next s ∧ exec (.lossOfLock (.outlet o a l) true) s = .next s) ∧
    (linkStateOf s o ≠ 5 → regBit s (Reg.optStat o) 4 = false →
      (∃ t e, exec (.lossOfSignal (.outlet o a l) true) s = .next t ∧ regBit t (Reg.lightFlags o) 0 = true ∧
        reg t (Reg.lightLos o) = satAdd 64 (reg s (Reg.lightLos o)) 1 ∧ e ∈ t.faults.inTransit ∧ e.cls = 4 ∧ e.code = 5 ∧
        e.unit = unitNo 6 o ∧ t.mem = s.mem) ∧
      (∃ t e, exec (.lossOfLock (.outlet o a l) true) s = .next t ∧ regBit t (Reg.lightFlags o) 1 = true ∧
        reg t (Reg.lightLol o) = satAdd 64 (reg s (Reg.lightLol o)) 1 ∧ e ∈ t.faults.inTransit ∧ e.cls = 4 ∧ e.code = 6 ∧
        e.unit = unitNo 6 o ∧ t.mem = s.mem))) ∧
  (∀ (s : State) (i : SiteNo) (n : Fin 1024) (f : LineFrame) (wrong : List (Fin 16384)) (x : LineFindings),
    x = receiveLine (slotFrame f).1 (slotFrame f).2 wrong →
    ∃ t, exec (.channelFrame (.basin i n) f.seed f.seed2 ⟨f.type, f.fseq, f.reserved, f.payload⟩ wrong) s = .next t ∧ t.mem = s.mem ∧
      reg t (Reg.lightFecCorr i) = satAdd 64 (reg s (Reg.lightFecCorr i)) x.corrected ∧
      reg t (Reg.lightFecUncorr i) = satAdd 64 (reg s (Reg.lightFecUncorr i)) x.uncorrectable ∧
      reg t (Reg.lightStuffErr i) = satAdd 64 (reg s (Reg.lightStuffErr i)) x.stuffErrors ∧
      (x.stuffErrors ≠ 0 → regBit t (Reg.lightFlags i) 3 = true) ∧
      (reseeded f = true → regBit t (Reg.lightFlags (n / 8 / 8)) 2 = true ∧
        reg t (Reg.lightReseeds (n / 8 / 8)) = satAdd 64 (reg s (Reg.lightReseeds (n / 8 / 8))) 1) ∧
      (∀ q, x.uncorrectable = 0 → tfind (site s i).rings n = some q →
        tfind (site t i).rings n = some { q with good := q.good + 3 } ∧
        (f.type = 0 → (slotFrame f).1 = f → t.out = s.out ++ [.lineBytes i n f.payload])) ∧
      (∀ q, x.uncorrectable ≠ 0 → tfind (site t i).rings n = some q → q.failed = true)) ∧
  (∀ (s : State) (o : OutletNo) (a : Fin 4) (l : Fin 32) (f : LineFrame) (wrong : List (Fin 16384)) (x : LineFindings),
    x = receiveLine (slotFrame f).1 (slotFrame f).2 wrong →
    ∃ t, exec (.channelFrame (.outlet o a l) f.seed f.seed2 ⟨f.type, f.fseq, f.reserved, f.payload⟩ wrong) s = .next t ∧ t.mem = s.mem ∧ t.sites = s.sites ∧
      reg t (Reg.lightFecCorr o) = satAdd 64 (reg s (Reg.lightFecCorr o)) x.corrected ∧
      reg t (Reg.lightFecUncorr o) = satAdd 64 (reg s (Reg.lightFecUncorr o)) x.uncorrectable ∧
      reg t (Reg.lightStuffErr o) = satAdd 64 (reg s (Reg.lightStuffErr o)) x.stuffErrors ∧
      t.out = s.out ++ if x.uncorrectable ≠ 0 ∧ linkUp s o = true then [.linkControl o (link s o).rxNext true] else []) ∧
  (∀ (s : State) (o : OutletNo) (f : BitVec 6), ∃ t r, exec (.clampTrip o f) s = .next t ∧
    field t (Reg.optStat o) 13 8 = (field s (Reg.optStat o) 13 8 ||| f.toNat) ∧ regBit t (Reg.optStat o) 2 = true ∧
    regBit t (Reg.optFlags o) 2 = true ∧ reg t (Reg.optClampTrips o) = satAdd 64 (reg s (Reg.optClampTrips o)) 1 ∧
    t.faults.inTransit = s.faults.inTransit ++ [r] ∧ r.cls = 4 ∧ r.code = 10) ∧
  (∀ (s : State) (o : OutletNo), weirServes s = true → regBit s (Reg.optStat o) 2 = true →
    (∀ a, (link s o).lastReopen = some a → a + 1000000000 ≤ s.time.now) →
    (exec (.clampReopen o false) s = .next (modLink s o fun l => { l with lastReopen := some s.time.now })) ∧
    (∃ t, exec (.clampReopen o true) s = .next t ∧ regBit t (Reg.optStat o) 2 = false ∧
      (link t o).lastReopen = some s.time.now ∧
      (regBit s (Reg.optStat o) 3 = false → field t (Reg.optStat o) 13 8 = openShutters s o))) ∧
  (∀ (s : State) (o : OutletNo) (v : Bool) (a : Nat), (weirServes s = false ∨ regBit s (Reg.optStat o) 2 = false ∨
    ((link s o).lastReopen = some a ∧ s.time.now < a + 1000000000)) → exec (.clampReopen o v) s = .next s)

/-- Descrambling undoes scrambling, unstuffing undoes stuffing, and a stuffed section holds no run of
25.  A receiver that descrambles what the scrambler 1 + x^39 + x^58 sent, from the same register,
has the bits back; one that removes the bit after every run of 24 has the unstuffed section back
and counts no error; and the stuffed section holds no 25 identical bits in a row. A frame that
arrives without a wrong bit shows no error.  (Rests on R358, R359) -/
def Obligations.FramesAreScrambledAndStuffed : Prop :=
  (∀ (r : Nat) (bs : List Bool), lineDescramble r (lineScramble r bs) = bs) ∧
  (∀ bs : List Bool, unstuff false 0 (stuff false 0 bs) = (bs, 0)) ∧
  (∀ (bs pre post : List Bool) (b : Bool), stuff false 0 bs ≠ pre ++ List.replicate 25 b ++ post) ∧
  (∀ (f : LineFrame) (seed : BitVec 32), (receiveLine f seed []).corrected = 0 ∧ (receiveLine f seed []).uncorrectable = 0 ∧
    (receiveLine f seed []).stuffErrors = 0 ∧ (stuffedBits f seed ≤ 480 → (lineBits f seed).length = 16384))

/-- Bundle training and frames, lane replacement by PROPOSE, AGREE and the switch, and the via spare.
BUNDLE_TRAINING of a site whose port is on trains the group with exactly the lanes that failed
their test; its mode and its lane-map register follow from them. BUNDLE_FRAME before the bundle
has trained, or on a disabled group, changes nothing, nor does a frame that its sender holds back;
one that fails decoding, or shows a violation, is answered with NAK; a good one in order becomes
the group's last frame, acknowledges the other direction, counts its corrected symbols and passes
its data on, and a NAK has the frames asked for sent again; one out of order is not taken. PROPOSE
of a good lane keeps it among the lanes proposed, and, with no switch agreed, agrees to a switch
of the lowest 256 frames on. AGREE to a proposal names the frame; from the die without one it is a
violation. LANE_MAP_SWITCH, at the agreed frame, replaces the lane and counts. VIA_PARITY_ERROR of
a group with its spare free is counted; the 16th within 1 ms steers the failing via onto the
spare.  (Rests on R301, R302, R304, R307, R308, R309, R310, R311, R318, R319, R325, R332) -/
def Obligations.AbangoFramesLanesAndVias : Prop :=
  (∀ (s : State) (i : SiteNo) (d : Dir) (q : Fin 32) (ts : List (Fin 68 × LaneTest)), siteFailed s i = false → domOn s (domPort i) = true →
    ∃ t, exec (.bundleTraining i d q ts) s = .next t ∧ (groupOf t i d q).trained = true ∧
      (∀ l : Fin 68, tget false (groupOf t i d q).startBad l =
        (ts.any (fun x => x.1 == l && testBad x.2) && !tget false (groupOf s i d q).assemblyBad l)) ∧
      (groupOf t i d q).frames = 0 ∧ (groupOf t i d q).seq = 0 ∧ (groupOf t i d q).sent = 0 ∧
      (groupOf t i d q).mode = laneMode (badLanes (groupOf t i d q)).length ∧
      reg t (laneMapAt i d q) = laneMapWord (groupOf t i d q) ∧
      ((∀ g ∈ allGroups t i, g.trained = true) → regBit t (Reg.abangoStat i) 1 = true)) ∧
  (∀ (s : State) (i : SiteNo) (d : Dir) (q : Fin 32) (ts : List (Fin 68 × LaneTest)),
    (siteFailed s i = true ∨ domOn s (domPort i) = false) → exec (.bundleTraining i d q ts) s = .next s) ∧
  (∀ (s : State) (i : SiteNo) (d : Dir) (q : Fin 32) (f : FrameCtl) (bs : List Byte) (wr : List (Fin 68 × Fin 256)),
    (regBit s (Reg.abangoStat i) 1 = false ∨ (groupOf s i d q).mode = 2 ∨ (d = .up ∧ f.type = 0 ∧ regBit s (Reg.abangoStat i) 4 = true) ∨
      (d = .down ∧ 64 ≤ ((groupOf s i d q).sent + 4096 - (groupOf s i d q).acked) % 4096 ∧
        f.seq.val = ((groupOf s i d q).sent + 1) % 4096)) →
    exec (.bundleFrame i d q f ⟨bs, wr⟩) s = .next s) ∧
  (∀ (s : State) (i : SiteNo) (d : Dir) (q : Fin 32) (f : FrameCtl) (bs : List Byte) (wr : List (Fin 68 × Fin 256)) (g : Group) (new : Bool),
    g = groupOf s i d q → new = (g.kept.isEmpty || f.seq.val == (g.sent + 1) % 4096) →
    regBit s (Reg.abangoStat i) 1 = true → regBit s (Reg.abangoStat i) 4 = false → g.mode ≠ 2 → frameHeld s i d g f new = false →
    (14 < (wrongSymbols g wr).length ∨ frameFault s i d q f ≠ 0 →
      ∃ t f' ls, exec (.bundleFrame i d q f ⟨bs, wr⟩) s = .next t ∧ .frame i (isUp (Dir.other d)) q f' ls ∈ t.out ∧ f'.nak = true ∧
        f'.ack.val = g.seq % 4096 ∧ (groupOf t i d q).seq = g.seq ∧ (groupOf t i d q).frames = g.frames) ∧
    ((wrongSymbols g wr).length ≤ 14 → frameFault s i d q f ≠ 0 → d = .down →
      ∃ t, exec (.bundleFrame i d q f ⟨bs, wr⟩) s = .next t ∧
        reg t (Reg.abangoRefused i) = satAdd 64 (reg s (Reg.abangoRefused i)) 1) ∧
    ((wrongSymbols g wr).length ≤ 14 → frameFault s i d q f = 0 → (g.frames = 0 ∨ f.seq.val = (g.seq + 1) % 4096) →
      ∃ t, exec (.bundleFrame i d q f ⟨bs, wr⟩) s = .next t ∧ (groupOf t i d q).seq = f.seq ∧
        (groupOf t i d q).frames = g.frames + 1 ∧ (groupOf t i (Dir.other d) q).acked = f.ack ∧
        reg t (Reg.abangoFecCorr i) = satAdd 64 (reg s (Reg.abangoFecCorr i)) (wrongSymbols g wr).length ∧
        (f.type = 0 → (d = .up ∨ regBit s (Reg.abangoStat i) 2 = true) →
          .chanBytes i (isUp d) (frameChannel q f.seq) (framePayload f bs) ∈ t.out) ∧
        (∀ fs, f.nak = true → replayOf? (groupOf s i (Dir.other d) q) f.ack = some fs → (∀ x ∈ (failingLanes (countCorrected g g.frames (wrongSymbols g wr)) g.frames), x ∈ g.proposals) →
          reg t (Reg.abangoReplays i) = satAdd 64 (reg s (Reg.abangoReplays i)) fs.length)) ∧
    ((wrongSymbols g wr).length ≤ 14 → frameFault s i d q f = 0 → g.frames ≠ 0 → f.seq.val ≠ (g.seq + 1) % 4096 →
      ∃ t, exec (.bundleFrame i d q f ⟨bs, wr⟩) s = .next t ∧ (groupOf t i d q).seq = g.seq ∧ (groupOf t i d q).frames = g.frames ∧
        t.out = s.out ∧ t.regs = s.regs)) ∧
  (∀ (s : State) (i : SiteNo) (d : Dir) (q : Fin 32) (l : Fin 68),
    (l.val ∉ badLanes (groupOf s i d q) →
      ∃ t, exec (.propose i d q l) s = .next t ∧ (groupOf t i d q).proposals = addLane l (groupOf s i d q).proposals ∧
        ((groupOf s i d q).answered ≠ none → t.out = s.out) ∧
        ((groupOf s i d q).answered = none → ∃ f ls m, t.out = s.out ++ [.frame i (isUp d) q f ls] ∧
          m = (addLane l (groupOf s i d q).proposals).headD 0 ∧ f.cmd = 2 ∧ f.lane = Fin.ofNat 128 m ∧ f.dir = d ∧
          f.atSeq.val = (f.seq.val + 256) % 4096 ∧ f.seq.val = ((groupOf s i d q).sent + 1) % 4096 ∧
          (groupOf t i d q).answered = some (m, f.atSeq.val))) ∧
    (l.val ∈ badLanes (groupOf s i d q) → exec (.propose i d q l) s = .next s)) ∧
  (∀ (s : State) (i : SiteNo) (d : Dir) (q : Fin 32) (n : Fin 4096),
    (agreeDue (groupOf s i d q) = true → ∃ t, exec (.agree i d q n) s = .next t ∧
      (groupOf t i d q).switchAt = some (agreeLane (groupOf s i d q), n.val) ∧ (groupOf t i d q).proposals = (groupOf s i d q).proposals ∧
      t.out = s.out) ∧
    (agreeDue (groupOf s i .down q) = false → ∃ t r, exec (.agree i .down q n) s = .next t ∧
      reg t (Reg.abangoRefused i) = satAdd 64 (reg s (Reg.abangoRefused i)) 1 ∧ r ∈ t.faults.inTransit ∧ r.cls = 5 ∧ r.code = 6 ∧
      r.d0 = 0x08) ∧
    (agreeDue (groupOf s i .up q) = false → exec (.agree i .up q n) s = .next s)) ∧
  (∀ (s : State) (i : SiteNo) (d : Dir) (q : Fin 32),
    (∀ l n, (groupOf s i d q).switchAt = some (l, n) → ((groupOf s i d q).sent + 1) % 4096 = n →
      ∃ t r, exec (.laneMapSwitch i d q) s = .next t ∧ tget false (groupOf t i d q).replaced l = true ∧
        l ∉ (groupOf t i d q).proposals ∧ (groupOf t i d q).switchAt = none ∧
        (groupOf t i d q).mode = laneMode (badLanes (groupOf t i d q)).length ∧
        reg t (Reg.abangoLaneSwaps i) = satAdd 64 (reg s (Reg.abangoLaneSwaps i)) 1 ∧ regBit t (Reg.abangoFlags i) 3 = true ∧
        r ∈ t.faults.inTransit ∧ r.cls = 5 ∧ r.code = 1) ∧
    (((groupOf s i d q).switchAt = none ∨ ((groupOf s i d q).switchAt.any fun x => ((groupOf s i d q).sent + 1) % 4096 != x.2) = true) →
      exec (.laneMapSwitch i d q) s = .next s)) ∧
  (∀ (s : State) (i : SiteNo) (d : Dir) (q : Fin 1000) (v : Fin 32) (ts : List Nat),
    ts = (viaErrors (aba s i) d q).filter (fun t => s.time.now < t + 1000000) →
    (viaSpare (aba s i) d q ≠ 0 → exec (.viaParityError i d q v) s = .next s) ∧
    (viaSpare (aba s i) d q = 0 → ts.length < 15 →
      ∃ t, exec (.viaParityError i d q v) s = .next t ∧ viaErrors (aba t i) d q = ts ++ [s.time.now] ∧
        viaSpare (aba t i) d q = 0 ∧ t.regs = s.regs) ∧
    (viaSpare (aba s i) d q = 0 → 15 ≤ ts.length →
      ∃ t r, exec (.viaParityError i d q v) s = .next t ∧ viaSpare (aba t i) d q = v + 1 ∧ viaErrors (aba t i) d q = [] ∧
        reg t (Reg.abangoViaSwaps i) = satAdd 64 (reg s (Reg.abangoViaSwaps i)) 1 ∧ regBit t (Reg.abangoFlags i) 4 = true ∧
        t.faults.inTransit = s.faults.inTransit ++ [r] ∧ r.cls = 5 ∧ r.code = 4))

/-- A message of the die is checked by CRC, TYPE, order and fields, in that order; the first fault
refuses it.  The check of a message finds code 0x01 where the CRC-16 of its header and payload
differs from the one received; else 0x02 where its TYPE is none of R314; else 0x03 where the TYPE
is not the one in order; else 0x04 where the reserved byte, the length or a field is wrong; else
none. A message with a fault is answered with a REFUSE of the code, its type and its number, is
counted, and is reported as a violation with the code; it has no effect of its own. While the
sideband is down nothing happens.  (Rests on R312, R313, R314, R318) -/
def Obligations.SidebandMessagesAreChecked : Prop :=
  (∀ (h : SbHead) (type : Nat) (p : List Nat) (o fit : Bool) (crc : Nat),
    crc = crc16 ([h.type.toNat, h.len.toNat, h.seq.toNat, h.reserved.toNat] ++ p) →
    (h.crc.toNat ≠ crc → sbFault h type p o fit = 1) ∧
    (h.crc.toNat = crc → sbKnown h.type.toNat = false → sbFault h type p o fit = 2) ∧
    (h.crc.toNat = crc → sbKnown h.type.toNat = true → (h.type.toNat ≠ type ∨ o = false) → sbFault h type p o fit = 3) ∧
    (h.crc.toNat = crc → sbKnown h.type.toNat = true → h.type.toNat = type → o = true →
      (h.reserved ≠ 0 ∨ h.len.toNat ≠ p.length ∨ fit = false) → sbFault h type p o fit = 4) ∧
    (h.crc.toNat = crc → sbKnown h.type.toNat = true → h.type.toNat = type → o = true → h.reserved = 0 → h.len.toNat = p.length →
      fit = true → sbFault h type p o fit = 0)) ∧
  (∀ (s : State) (i : SiteNo) (h : SbHead) (type : Nat) (p : List Nat) (o fit : Bool) (f : State → State) (c : Nat) (t : State),
    t = sideband s i h type p o fit f → c = sbFault h type p o fit → regBit s (Reg.abangoStat i) 0 = true →
    (c = 0 → t = f s) ∧
    (c ≠ 0 → reg t (Reg.abangoRefused i) = satAdd 64 (reg s (Reg.abangoRefused i)) 1 ∧ regBit t (Reg.abangoFlags i) 1 = true ∧
      (aba t i).nego = (aba s i).nego ∧ t.out = s.out ++ [.sideband i (sbBytes 0x20 h.seq.toNat [c, h.type.toNat, h.seq.toNat])] ∧
      ∃ r, r ∈ t.faults.inTransit ∧ r.cls = 5 ∧ r.code = 6 ∧ r.d0 = c)) ∧
  (∀ (s : State) (i : SiteNo) (h : SbHead) (type : Nat) (p : List Nat) (o fit : Bool) (f : State → State),
    regBit s (Reg.abangoStat i) 0 = false → sideband s i h type p o fit f = s) ∧
  (∀ (s : State) (i : SiteNo) (h : SbHead) (f : CapsF) (o : OfferF) (r : ReportF) (n : Byte) (w : Nat) (d : Dir) (hf : Fin 2)
    (bad : List (Fin 32 × Fin 68)), regBit s (Reg.abangoStat i) 0 = false →
    exec (.accept i h o) s = .next s ∧ exec (.report i h r) s = .next s ∧ exec (.limitAck i h w) s = .next s ∧
    exec (.lanes i d ⟨h, hf, bad⟩) s = .next s ∧ exec (.caps i h f) s = .next (advanceStart s) ∧
    exec (.reject i h n) s = .next (advanceStart s))

/-- The sideband: negotiation step by step, reports and limits, refusals and violations, and the power
excess.  HELLO opens negotiation of a trained, idle site; CAPS with a common version and both
required features is taken, without one it ends negotiation and nothing of it is kept; OFFER names
the common version and features; ACCEPT of it unchanged, COMMIT and the epoch complete
negotiation; REJECT ends it. Of an unanswered HELLO or OFFER the third ends negotiation; a missing
LIMIT_ACK is a violation that lowers the site's cores. A REPORT that fits is taken, and the third
in a row above the limit is a violation; LIMIT names a limit, and LIMIT_ACK of it is taken; of
another it is a violation. LANES before negotiation marks its lanes bad. REFUSE of a message with
a bad CRC makes the port send it again, three times at most. REPORT_LATE makes the die's sensors
late, POWER_EXCESS_TIMEOUT after 10 ms fences the site's cores and switches off its die, and
ABANGO_ALERT is reported and answered with a LIMIT. A site port's message of another state changes
nothing. CAPS, REJECT, COMMIT and the timeout may end a stage of a start besides. That OFFER asks
for the die's own maximum power and for a report every 1,000 us is the model's choice (log 18).
(Rests on R306, R308, R310, R314, R315, R316, R317, R318, R319, R320, R321, R322) -/
def Obligations.AbangoNegotiationAndReports : Prop :=
  (∀ (s : State) (i : SiteNo),
    ((aba s i).nego = .idle → regBit s (Reg.abangoStat i) 1 = true → regBit s (Reg.abangoStat i) 0 = true →
      ∃ t b, exec (.hello i) s = .next t ∧ (aba t i).nego = .helloSent ∧ (aba t i).tries = 1 ∧
        t.out = s.out ++ [.sideband i (sbBytes sbHello (aba s i).sbSeq b)]) ∧
    (((aba s i).nego ≠ .idle ∨ regBit s (Reg.abangoStat i) 1 = false ∨ regBit s (Reg.abangoStat i) 0 = false) →
      exec (.hello i) s = .next s)) ∧
  (∀ (s : State) (i : SiteNo) (h : SbHead) (f : CapsF) (t : State), t = caps i h f s → regBit s (Reg.abangoStat i) 0 = true →
    sbFault h sbCaps (capsBytes f) ((aba s i).nego == .helloSent) (capsFit f && answersMsg s i sbHello h) = 0 →
    exec (.caps i h f) s = .next (advanceStart t) ∧
    (commonVersion f ≠ 0 → (commonFeatures f (commonVersion f)).toNat % 4 = 3 →
      (aba t i).nego = .capsSeen ∧ (aba t i).caps = f ∧ field t (Reg.abangoStat i) 31 16 = f.cls ∧ t.faults = s.faults) ∧
    ((commonVersion f = 0 ∨ (commonFeatures f (commonVersion f)).toNat % 4 ≠ 3) →
      (aba t i).nego = .ended ∧ (aba t i).endCause = 1 ∧ (aba t i).caps = (aba s i).caps ∧
        reg t (Reg.abangoRefused i) = satAdd 64 (reg s (Reg.abangoRefused i)) 1)) ∧
  (∀ (s : State) (i : SiteNo) (h : SbHead) (n : Byte) (t : State), t = reject i h n s → regBit s (Reg.abangoStat i) 0 = true →
    sbFault h sbReject [n.toNat] (offerOut s i) (answersMsg s i sbOffer h) = 0 →
    exec (.reject i h n) s = .next (advanceStart t) ∧ (aba t i).nego = .ended ∧ (aba t i).endCause = 1 ∧ t.faults = s.faults) ∧
  (∀ (s : State) (i : SiteNo) (o : OfferF),
    o = ⟨commonVersion (aba s i).caps, commonFeatures (aba s i).caps (commonVersion (aba s i).caps), (aba s i).caps.powerMax, 1000⟩ →
    ((aba s i).nego = .capsSeen → ∃ t, exec (.offer i) s = .next t ∧ (aba t i).nego = .offerSent ∧ (aba t i).offer = o ∧
      (aba t i).tries = 1 ∧ t.out = s.out ++ [.sideband i (sbBytes sbOffer (aba s i).sbSeq (offerBytes o))]) ∧
    ((aba s i).nego ≠ .capsSeen → exec (.offer i) s = .next s)) ∧
  (∀ (s : State) (i : SiteNo) (h : SbHead), regBit s (Reg.abangoStat i) 0 = true →
    sbFault h sbAccept (offerBytes (aba s i).offer) (offerOut s i) (answersMsg s i sbOffer h) = 0 →
    ∃ t, exec (.accept i h (aba s i).offer) s = .next t ∧
      (aba t i).nego = .accepted ∧ (aba t i).limit = (aba s i).offer.powerLimit ∧ t.faults = s.faults) ∧
  (∀ (s : State) (i : SiteNo) (t : State), t = commit i s → exec (.commit i) s = .next (advanceStart t) ∧
    ((aba s i).nego = .accepted → (aba t i).nego = .committed ∧ (aba t i).epoch = copyTick s (sideCopy .bundle i .lower) ∧
      regBit t (Reg.abangoStat i) 2 = true ∧ ∃ b, t.out = s.out ++ [.sideband i (sbBytes sbCommit (aba s i).sbSeq b)]) ∧
    ((aba s i).nego ≠ .accepted → t = s)) ∧
  (∀ (s : State) (i : SiteNo) (t : State), t = sidebandReplyTimeout i s → exec (.sidebandReplyTimeout i) s = .next (advanceStart t) ∧
    ((aba s i).nego = .helloSent → replyDue s i sbHello = true → (aba s i).tries < 3 → (aba t i).nego = .helloSent ∧
      (aba t i).tries = (aba s i).tries + 1 ∧ ∃ b, t.out = s.out ++ [.sideband i (sbBytes sbHello (aba s i).sbSeq b)]) ∧
    ((aba s i).nego = .offerSent → replyDue s i sbOffer = true → (aba s i).tries < 3 → (aba t i).nego = .offerSent ∧
      (aba t i).tries = (aba s i).tries + 1 ∧ t.out = s.out ++ [.sideband i (sbBytes sbOffer (aba s i).sbSeq (offerBytes (aba s i).offer))]) ∧
    (((aba s i).nego = .helloSent ∧ replyDue s i sbHello = true ∨ (aba s i).nego = .offerSent ∧ replyDue s i sbOffer = true) →
      3 ≤ (aba s i).tries → (aba t i).nego = .ended ∧ (aba t i).endCause = 2 ∧
      ∃ r, t.faults.inTransit = s.faults.inTransit ++ [r] ∧ r.cls = 5 ∧ r.code = 10) ∧
    ((aba s i).nego = .committed → (aba s i).limitAcked = false → replyDue s i sbLimit = true →
      reg t (Reg.abangoRefused i) = satAdd 64 (reg s (Reg.abangoRefused i)) 1 ∧ (aba t i).limitAcked = true ∧
      ∀ k : Nat, k < 4 → corePowered s (4 * i + k) = true → pinOf s (4 * i + k) = none →
        heading (core t (4 * i + k)) = heading (core s (4 * i + k)) - 1) ∧
    (((aba s i).nego ≠ .helloSent ∨ replyDue s i sbHello = false) → ((aba s i).nego ≠ .offerSent ∨ replyDue s i sbOffer = false) →
      ((aba s i).nego ≠ .committed ∨ (aba s i).limitAcked = true ∨ replyDue s i sbLimit = false) → t = s)) ∧
  (∀ (s : State) (i : SiteNo) (h : SbHead) (f : ReportF), regBit s (Reg.abangoStat i) 0 = true →
    sbFault h sbReport (reportBytes f) ((aba s i).nego == .committed) (reportFits (aba s i) f) = 0 →
    ∃ t, exec (.report i h f) s = .next t ∧ (aba t i).lastReport = f ∧ (aba t i).reportAt = s.time.now ∧
      (f.power ≤ 4 * (aba s i).limit → (aba t i).excess = 0 ∧ (aba t i).excessFrom = none ∧ t.regs = s.regs ∧ t.faults = s.faults) ∧
      (4 * (aba s i).limit < f.power → (aba t i).excess = (aba s i).excess + 1 ∧
        (aba t i).excessFrom = some ((aba s i).excessFrom.getD s.time.now) ∧
        (((aba s i).excess + 1) % 3 = 0 → reg t (Reg.abangoRefused i) = satAdd 64 (reg s (Reg.abangoRefused i)) 1 ∧
          ∀ k : Nat, k < 4 → corePowered s (4 * i + k) = true → pinOf s (4 * i + k) = none →
            heading (core t (4 * i + k)) = heading (core s (4 * i + k)) - 1))) ∧
  (∀ (s : State) (i : SiteNo) (w : Nat),
    ((aba s i).nego = .committed → ∃ t, exec (.limit i w) s = .next t ∧ (aba t i).limit = w % 65536 ∧
      (aba t i).limitAcked = false ∧ t.out = s.out ++ [.sideband i (sbBytes sbLimit (aba s i).sbSeq (le 2 (w % 65536)))]) ∧
    ((aba s i).nego ≠ .committed → exec (.limit i w) s = .next s)) ∧
  (∀ (s : State) (i : SiteNo) (h : SbHead) (w : Nat), regBit s (Reg.abangoStat i) 0 = true →
    sbFault h sbLimitAck (le 2 w) ((aba s i).nego == .committed && !(aba s i).limitAcked) true = 0 →
    (w = (aba s i).limit → answersMsg s i sbLimit h = true → ∃ t, exec (.limitAck i h w) s = .next t ∧
      (aba t i).limitAcked = true ∧ t.faults = s.faults ∧ t.cores = s.cores) ∧
    ((w ≠ (aba s i).limit ∨ answersMsg s i sbLimit h = false) → ∃ t r, exec (.limitAck i h w) s = .next t ∧
      reg t (Reg.abangoRefused i) = satAdd 64 (reg s (Reg.abangoRefused i)) 1 ∧ r ∈ t.faults.inTransit ∧ r.cls = 5 ∧ r.code = 6 ∧ r.d0 = 9)) ∧
  (∀ (s : State) (i : SiteNo) (d : Dir) (h : SbHead) (hf : Fin 2) (bad : List (Fin 32 × Fin 68)), regBit s (Reg.abangoStat i) 0 = true →
    sbFault h sbLanes (lanesPayload hf bad) ((aba s i).nego == .idle) true = 0 →
    ∃ t, exec (.lanes i d ⟨h, hf, bad⟩) s = .next t ∧ ∀ (q : Fin 32) (l : Fin 68), tget false (groupOf t i d q).partnerBad l =
      (tget false (groupOf s i d q).partnerBad l || decide ((q, l) ∈ bad))) ∧
  (∀ (s : State) (i : SiteNo) (c ty n : Byte), regBit s (Reg.abangoStat i) 0 = true →
    (∃ t, exec (.refuse i false c ty n) s = .next t ∧ reg t (Reg.abangoRefused i) = satAdd 64 (reg s (Reg.abangoRefused i)) 1 ∧
      t.out = s.out ++ [.sideband i (sbBytes sbRefuse n.toNat [c.toNat, ty.toNat, n.toNat])]) ∧
    (∀ m, c = 1 → tfind (aba s i).sbSent ty.toNat = some m → m.seq = n.toNat → m.resends < 3 → ∃ t, exec (.refuse i true c ty n) s = .next t ∧
      sentOf t i ty.toNat = { m with at_ := s.time.now, resends := m.resends + 1 } ∧
      t.out = s.out ++ [.sideband i (sbBytes ty.toNat n.toNat m.payload)]) ∧
    (∀ m, (c ≠ 1 ∨ tfind (aba s i).sbSent ty.toNat = none ∨ tfind (aba s i).sbSent ty.toNat = some m ∧ (m.seq ≠ n.toNat ∨ 3 ≤ m.resends)) →
      ∃ t, exec (.refuse i true c ty n) s = .next t ∧ t.out = s.out ∧ regBit t (Reg.abangoFlags i) 1 = true ∧ t.sites = s.sites)) ∧
  (∀ (s : State) (i : SiteNo) (b : Bool) (c ty n : Byte), regBit s (Reg.abangoStat i) 0 = false →
    exec (.refuse i b c ty n) s = .next s ∧ exec (.abangoAlert i) s = .next s) ∧
  (∀ (s : State) (i : SiteNo),
    ((aba s i).nego = .committed → (aba s i).late = false → (aba s i).reportAt + 3000 * (aba s i).offer.reportUs < s.time.now →
      ∃ t, exec (.reportLate i) s = .next t ∧ (aba t i).late = true ∧ regBit t (Reg.abangoFlags i) 0 = true ∧
        reg t (Reg.abangoRefused i) = satAdd 64 (reg s (Reg.abangoRefused i)) 1) ∧
    (((aba s i).nego ≠ .committed ∨ (aba s i).late = true ∨ s.time.now ≤ (aba s i).reportAt + 3000 * (aba s i).offer.reportUs) →
      exec (.reportLate i) s = .next s)) ∧
  (∀ (s : State) (i : SiteNo) (a : Nat), (aba s i).excessFrom = some a →
    (3 ≤ (aba s i).excess → a + 10000000 ≤ s.time.now → ∃ t, exec (.powerExcessTimeout i) s = .next t ∧
      (∀ k : Nat, k < 4 → (core t (4 * i + k)).fenced = true) ∧ domState t (domUncore i) = 0 ∧ domState t (domPond i) = 0) ∧
    ((s.time.now < a + 10000000 ∨ (aba s i).excess < 3) → exec (.powerExcessTimeout i) s = .next s)) ∧
  (∀ (s : State) (i : SiteNo), (aba s i).excessFrom = none → exec (.powerExcessTimeout i) s = .next s) ∧
  (∀ (s : State) (i : SiteNo), regBit s (Reg.abangoStat i) 0 = true →
    ∃ t r, exec (.abangoAlert i) s = .next t ∧ t.faults.inTransit = s.faults.inTransit ++ [r] ∧
    r.cls = 0 ∧ r.code = 3 ∧ t.regs = s.regs ∧
    ((aba s i).nego ≠ .committed → t.out = s.out ∧ (aba t i).alert = true) ∧
    ((aba s i).nego = .committed → (aba t i).alert = false ∧ (aba t i).limitAcked = false ∧
      t.out = s.out ++ [.sideband i (sbBytes sbLimit (aba s i).sbSeq (le 2 (aba s i).limit))]))

/-- Flits and control words, fibre swaps, training, hellos, a link going down, sleeping, and the drain
of its egress.  LINK_FLIT on a link that is up acknowledges the next flit in good order, drops one
seen before, and asks again for any other. LINK_CONTROL_WORD drops acknowledged packets from the
replay buffer, gives credits back, and replays what is asked for again. FIBRE_SWAP moves a failed
lane to the lowest free fibre. HELLO_TIMEOUT after 10 ms takes the link down. LINK_TRAINED of a
cabled link brings it up with all its credits. NEIGHBOUR_HELLO that fits the cabling brings the
link into service; one that does not takes it down and is reported. LINK_SLEEP_ENTER, 2 s after
the flood with nothing to send, puts the link to sleep with its shutters closed.
EGRESS_DRAIN_TIMEOUT after 100 us discards and counts the stores that wait, and takes the link of
a site under reset down.  (Rests on R362, R377, R379, R380, R381, R382, R390, R399, R414, R415) -/
def Obligations.FabricLinksTrainServeAndSleep : Prop :=
  (∀ (s : State) (o : OutletNo) (n : Nat) (g : Bool),
    (linkUp s o = false → exec (.linkFlit o n g) s = .next s) ∧
    (linkUp s o = true → n = (link s o).rxNext → ∃ t, exec (.linkFlit o n true) s = .next t ∧ (link t o).rxNext = n + 1 ∧
      t.out = s.out ++ [.linkControl o n false] ∧ reg t (Reg.linkRxFlits o) = satAdd 64 (reg s (Reg.linkRxFlits o)) 1) ∧
    (linkUp s o = true → n < (link s o).rxNext → exec (.linkFlit o n true) s = .next s) ∧
    (linkUp s o = true → (g = false ∨ (link s o).rxNext < n) →
      exec (.linkFlit o n g) s = .next { s with out := s.out ++ [.linkControl o (link s o).rxNext true] })) ∧
  (∀ (s : State) (o : OutletNo) (a c : Nat) (rs : List (Nat × Nat)), linkUp s o = true →
    (∃ t, exec (.linkControlWord o a none c rs) s = .next t ∧
      (link t o).unacked = (link s o).unacked.filter (fun u => a < u.1 + flitsOf u.2 - 1) ∧
      (link t o).shared = minNat (32768 - 160) ((link s o).shared + c) ∧ (link t o).waiting = (link s o).waiting ∧
      (∀ k m : Nat, rs = [(k, m)] → tget 0 (link t o).reserved k = tget 0 (link s o).reserved k - m) ∧ t.out = s.out ∧ t.regs = s.regs) ∧
    (∀ n k ps, ps = ((link s o).unacked.filter (fun u => a < u.1 + flitsOf u.2 - 1)).filter (fun u => n < u.1 + flitsOf u.2) →
      k = (ps.map fun u => flitsOf u.2 - (n - u.1)).foldl (· + ·) 0 → k ≠ 0 →
      ∃ t, exec (.linkControlWord o a (some n) c rs) s = .next t ∧ t.out = s.out ++ ps.map (fun u => .packet o u.2) ∧
        reg t (Reg.linkReplays o) = satAdd 64 (reg s (Reg.linkReplays o)) k ∧ regBit t (Reg.linkFlags o) 1 = true)) ∧
  (∀ (s : State) (o : OutletNo) (a c : Nat) (n : Option Nat) (rs : List (Nat × Nat)), linkUp s o = false →
    exec (.linkControlWord o a n c rs) s = .next s) ∧
  (∀ (s : State) (o : OutletNo) (l : Fin 4), (linkUp s o = false ∨ laneUp s o l = true) → exec (.fibreSwap o l) s = .next s) ∧
  (∀ (s : State) (o : OutletNo) (l : Fin 4), linkUp s o = true → laneUp s o l = false →
    (∀ f, spareFibre? s o = some f → ∃ t, exec (.fibreSwap o l) s = .next t ∧ fibreOf t o l = f ∧ laneUp t o l = true ∧
      regBit t (Reg.linkFlags o) 3 = true ∧ linkUp t o = true) ∧
    (spareFibre? s o = none → exec (.fibreSwap o l) s = .next s)) ∧
  (∀ (s : State) (o : OutletNo), linkUp s o = true →
    ((link s o).lastHello + 10000000 ≤ s.time.now → ∃ t, exec (.helloTimeout o) s = .next t ∧ linkStateOf t o = 4 ∧
      regBit t (Reg.linkPartner o) 31 = false ∧ regBit t (Reg.linkFlags o) 0 = true) ∧
    (s.time.now < (link s o).lastHello + 10000000 → exec (.helloTimeout o) s = .next s)) ∧
  (∀ (s : State) (o : OutletNo), linkUp s o = false → exec (.helloTimeout o) s = .next s) ∧
  (∀ (s : State) (o : OutletNo),
    ((linkStateOf s o = 1 ∨ linkStateOf s o = 4) → field s Reg.fabricStat 1 0 ≠ 0 → (link s o).cabled = true →
      regBit s (Reg.linkStat o) 3 = false → ∃ t, exec (.linkTrained o) s = .next t ∧ linkUp t o = true ∧ (link t o).txNext = 0 ∧
        (link t o).rxNext = 0 ∧ (link t o).unacked = [] ∧ (link t o).shared = 32608 ∧ (link t o).lastHello = s.time.now) ∧
    (((linkStateOf s o ≠ 1 ∧ linkStateOf s o ≠ 4) ∨ field s Reg.fabricStat 1 0 = 0 ∨ (link s o).cabled = false ∨
      regBit s (Reg.linkStat o) 3 = true) → exec (.linkTrained o) s = .next s)) ∧
  (∀ (s : State) (o : OutletNo) (f : NHello),
    (linkUp s o = false → exec (.neighbourHello o f) s = .next s) ∧
    (linkUp s o = true → helloFits s o f = true → windowClash s o f = false → ∃ t, exec (.neighbourHello o f) s = .next t ∧
      linkServes t o = true ∧ (link t o).lastHello = s.time.now ∧ field t (Reg.linkPartner o) 11 0 = f.coord % 4096) ∧
    (linkUp s o = true → helloFits s o f = true → windowClash s o f = true → ∃ t, exec (.neighbourHello o f) s = .next t ∧
      linkStateOf t o = 4) ∧
    (linkUp s o = true → helloFits s o f = false → ∃ t r, exec (.neighbourHello o f) s = .next t ∧ linkStateOf t o = 4 ∧
      regBit t Reg.fabricFlags 1 = true ∧ r ∈ t.faults.inTransit ∧ r.cls = 10 ∧ r.code = 4 ∧ r.unit = unitNo 0x06 o)) ∧
  (∀ (s : State) (o : OutletNo) (a : Nat), (link s o).sleepFrom = some a →
    (a + 2000000000 ≤ s.time.now → egressEmpty s o = true → ∃ t, exec (.linkSleepEnter o) s = .next t ∧ linkStateOf t o = 5 ∧
      (link t o).sleepFrom = none ∧ field t (Reg.optStat o) 4 3 = 3 ∧ field t (Reg.optStat o) 13 8 = 0x3F) ∧
    ((s.time.now < a + 2000000000 ∨ egressEmpty s o = false) → exec (.linkSleepEnter o) s = .next s)) ∧
  (∀ (s : State) (o : OutletNo), (link s o).sleepFrom = none → exec (.linkSleepEnter o) s = .next s) ∧
  (∀ (s : State) (o : SiteNo) (a : Nat), (site s o).drainFrom = some a →
    (a + 100000 ≤ s.time.now → ∃ t, exec (.egressDrainTimeout o) s = .next t ∧ (site t o).drainFrom = none ∧
      (regBit s (Reg.siteStat o) 1 = false →
        (∀ r ∈ (site t o).egressQ, r.p.type ≠ 0x02) ∧ (∀ r ∈ (link t o).waiting, r.p.type ≠ 0x02)) ∧
      ((∃ r ∈ (site s o).egressQ ++ (link s o).waiting, r.p.type = 0x02) → reg t Reg.fabricStoresDiscarded =
        satAdd 64 (reg s Reg.fabricStoresDiscarded) (((site s o).egressQ ++ (link s o).waiting).filter fun r => r.p.type == 0x02).length) ∧
      (regBit s (Reg.siteStat o) 1 = true → linkUp s o = true → linkStateOf t o = 4)) ∧
    (s.time.now < a + 100000 → exec (.egressDrainTimeout o) s = .next s)) ∧
  (∀ (s : State) (o : SiteNo), (site s o).drainFrom = none → exec (.egressDrainTimeout o) s = .next s)

/-- Hellos and time messages go out, link states enter the map, a converged map loads the routes, and
time follows the parent.  HELLO_REPEAT has a HELLO wait for its credits on exactly the links that
are up. LINK_STATE on a link in service is merged into the map and forwarded on the other links in
service where it is new, gives only its credits back where it is not, and waits in a gap; on a
link without an accepted hello it is counted as a violation. CONVERGENCE_TIMER of a whole map that
has not changed for 10 s loads the routes of that map, and changes nothing earlier.
TIME_SYNC_PERIOD sends the present time toward the parent. TIME_SYNC on the parent link keeps the
offset, and a ready module below its root jumps at the next tick where it is more than 1 us
behind, and slews otherwise; on another link, or in a gap, it gives only its credits back. No
Weir: none of the firmware's own steps.  (Rests on R384, R412, R415, R416, R417, R418, R419) -/
def Obligations.FabricFirmwareMapsAndKeepsTime : Prop :=
  (∀ s : State, ∃ t, exec .helloRepeat s = .next t ∧ t.out = s.out ∧ t.regs = s.regs ∧ ∀ o : OutletNo,
    (linkUp s o = true → ∃ r, (link t o).waiting = (link s o).waiting ++ [r] ∧ r.p.type = 0x20 ∧ r.p.src = ownCoord s ∧
      r.p.srcSite = o.val) ∧
    (linkUp s o = false → link t o = link s o)) ∧
  (∀ (s : State) (o : OutletNo) (f : LinkStateF),
    (linkUp s o = false → exec (.linkState o f) s = .next s) ∧
    (linkServes s o = true → weirServes s = true → (mergeMap s.fabric.map f).2 = false →
      exec (.linkState o f) s = .next { s with out := s.out ++ [.linkCredit o 2 []] }) ∧
    (linkServes s o = true → weirServes s = true → (mergeMap s.fabric.map f).2 = true → ∃ t, exec (.linkState o f) s = .next t ∧
      t.fabric.map = (mergeMap s.fabric.map f).1 ∧ mapEntry t.fabric.map f.src = some f ∧ t.mem = s.mem ∧
      ∀ p : OutletNo, p ≠ o → linkServes s p = true → ∃ r, (link t p).waiting = (link s p).waiting ++ [r] ∧ r.p.type = 0x22 ∧
        r.p.src = f.src) ∧
    (linkServes s o = true → weirServes s = false → exec (.linkState o f) s =
      .next { s with out := s.out ++ [.linkCredit o 2 []], fabric := { s.fabric with held := s.fabric.held ++ [(o.val, f)] } }) ∧
    (linkUp s o = true → regBit s (Reg.linkPartner o) 31 = false → ∃ t, exec (.linkState o f) s = .next t ∧
      reg t (Reg.linkViolations o) = satAdd 64 (reg s (Reg.linkViolations o)) 1 ∧ t.fabric.held = s.fabric.held)) ∧
  (∀ s : State, weirServes s = true → (field s Reg.fabricStat 1 0 = 2 ∨ field s Reg.fabricStat 1 0 = 3) → hasCoord s = true →
    mapWhole s = true →
    (s.fabric.mapChanged + 10000000000 ≤ s.time.now → ∃ t, exec .convergenceTimer s = .next t ∧
      t.fabric.routes = (computeRoutes s).1 ∧ t.fabric.slotRoutes = (computeRoutes s).2 ∧ field t Reg.fabricStat 1 0 = 3 ∧
      t.fabric.map = s.fabric.map) ∧
    (s.time.now < s.fabric.mapChanged + 10000000000 → exec .convergenceTimer s = .next s)) ∧
  (∀ s : State, (weirServes s = false ∨ field s Reg.fabricStat 1 0 < 2 ∨ hasCoord s = false ∨ mapWhole s = false) →
    exec .convergenceTimer s = .next s) ∧
  (∀ s : State, ((weirServes s = false ∨ parentOutlet? s = none) → exec .timeSyncPeriod s = .next s) ∧
    (∀ o, weirServes s = true → parentOutlet? s = some o → linkUp s o = true → ∃ t r, exec .timeSyncPeriod s = .next t ∧
      (link t o).waiting = (link s o).waiting ++ [r] ∧ r.p.type = 0x21 ∧ r.p.op0 = BitVec.ofNat 64 s.time.now)) ∧
  (∀ (s : State) (o : OutletNo) (t1 t2 t3 t4 : Nat) (d : Int), linkServes s o = true → d = syncOffset t1 t2 t3 t4 →
    ((weirServes s = false ∨ parentOutlet? s ≠ some o.val) →
      exec (.timeSync o t1 t2 t3 t4) s = .next { s with out := s.out ++ [.linkCredit o 1 []] }) ∧
    (weirServes s = true → parentOutlet? s = some o.val → regBit s Reg.globalStat 5 = true →
      ∃ t, exec (.timeSync o t1 t2 t3 t4) s = .next t ∧ reg t Reg.fabricTimeOffset = twos 32 d ∧ t.time.now = s.time.now ∧
        (d < -1000 → t.time.setAt = some (256 * (tickOf s + 1) + (-d).toNat) ∧ regBit t Reg.fabricFlags 6 = true) ∧
        (-1000 ≤ d → d ≠ 0 → t.time.slewLeft = -d ∧ t.time.setAt = s.time.setAt) ∧
        (d = 0 → t.time = s.time) ∧
        (field s (Reg.linkPartner o) 11 0 = timeRoot s → (regBit t Reg.fabricStat 3 = true ↔ -25 ≤ d ∧ d ≤ 25)))) ∧
  (∀ (s : State) (o : OutletNo) (t1 t2 t3 t4 : Nat), linkUp s o = false → exec (.timeSync o t1 t2 t3 t4) s = .next s)

/-- Function Level Resets, the hot reset, the host link and D3hot reset functions and nothing of the
running module's memory.  FUNCTION_LEVEL_RESET of a VF that exists deletes its queue pairs,
discards its mailbox's requests, returns its window and event ring to idle, clears its Bus Master
Enable and D3hot, and keeps the resident contexts, the other functions' Bus Master Enable and
device memory. HOT_RESET and HOST_LINK_DOWN do so for every function and disable the VFs; the lost
link is reported. HOST_LINK_UP takes effect while the host interface is on. D3HOT_ENTRY puts a
function that exists into D3hot, and D3HOT_EXIT acts as its Function Level Reset. VF_ENABLE makes
the VFs available, or resets and disables them. A function that does not exist is not reset. That
Bus Master Enable and D3hot clear with a reset is PCI Express's (log 20).  (Rests on R443, R458,
R459, R460, R483, R597) -/
def Obligations.FunctionAndLinkResets : Prop :=
  (∀ (s : State) (n : Fn), n ≠ 0 → fnExists s n = true → ∃ t, exec (.functionLevelReset n) s = .next t ∧
    (∀ q, (qp s q).owner = n → (qp t q).mode = 0) ∧ (∀ r ∈ t.mbReqs, r.fn ≠ n) ∧ (win t n).mode = 0 ∧ (win t n).seq = 0 ∧
    (win t n).flags = 0 ∧ (win t n).ringSize = 0 ∧ (win t n).evtTail = 0 ∧ tget false t.bme n = false ∧
    tget false t.d3hot n = false ∧ (∀ m : Fn, m ≠ n → tget false t.bme m = tget false s.bme m) ∧
    t.contexts.map (·.handle) = s.contexts.map (·.handle) ∧ t.mem = s.mem ∧ t.vfsOn = s.vfsOn) ∧
  (∀ (s : State) (n : Fn), fnExists s n = false → exec (.functionLevelReset n) s = .next s) ∧
  (∀ (s : State), domOn s domHost = true → ∃ t, exec .hotReset s = .next t ∧ t.vfsOn = false ∧ t.linkUp = s.linkUp ∧
    (∀ n : Fn, (win t n).mode = 0 ∧ (win t n).seq = 0 ∧ (win t n).flags = 0 ∧ (win t n).ringSize = 0 ∧
      tget false t.bme n = false ∧ tget false t.d3hot n = false) ∧ t.mem = s.mem) ∧
  (∀ (s : State), domOn s domHost = false → exec .hotReset s = .next s) ∧
  (∀ (s : State), (s.linkUp = false → exec .hostLinkDown s = .next s) ∧
    (s.linkUp = true → ∃ t r, exec .hostLinkDown s = .next t ∧ t.linkUp = false ∧ t.vfsOn = false ∧
      (∀ n : Fn, (win t n).mode = 0 ∧ (win t n).seq = 0 ∧ tget false t.bme n = false) ∧ t.mem = s.mem ∧
      r ∈ t.faults.inTransit ∧ r.cls = 14 ∧ r.code = 4)) ∧
  (∀ (s : State), (domOn s domHost = true → exec .hostLinkUp s = .next { s with linkUp := true }) ∧
    (domOn s domHost = false → exec .hostLinkUp s = .next s)) ∧
  (∀ (s : State) (n : Fn), (fnExists s n = true → ∃ t, exec (.d3hotEntry n) s = .next t ∧ tget false t.d3hot n = true ∧
      (∀ m : Fn, m ≠ n → tget false t.d3hot m = tget false s.d3hot m) ∧ t.bme = s.bme) ∧
    (fnExists s n = false → exec (.d3hotEntry n) s = .next s) ∧
    (tget false s.d3hot n = true → exec (.d3hotExit n) s = exec (.functionLevelReset n) s) ∧
    (tget false s.d3hot n = false → exec (.d3hotExit n) s = .next s)) ∧
  (∀ (s : State), (domOn s domHost = true → s.linkUp = true → exec (.vfEnable true) s = .next { s with vfsOn := true } ∧
      ∃ t, exec (.vfEnable false) s = .next t ∧ t.vfsOn = false ∧ (∀ n : Fn, n ≠ 0 → (win t n).mode = 0 ∧ (win t n).seq = 0 ∧
        tget false t.bme n = false) ∧ tget false t.bme 0 = tget false s.bme 0 ∧ t.mem = s.mem) ∧
    ((domOn s domHost = false ∨ s.linkUp = false) → ∀ b, exec (.vfEnable b) s = .next s))

/-- While no Weir serves no mailbox command acts; a served query is answered with its result and
changes nothing it asks about.  While no Weir serves, every mailbox command leaves the state as it
is. A served INFO, LOG_COUNTERS, LOG_READ, MAINT_STATUS or CTX_QUERY is answered OK with its
fields, or NOT_FOUND where what it names is unknown; LOG_READ marks the entries it returns.
EVT_RING_SET of an aligned ring places it empty, and of an unaligned one is MALFORMED. TIME_SET
while Basin time runs waits for the next tick, and is not ready before. FABRIC_COORD before
discovery puts the coordinate in force. FW_SELECT of a slot whose image verifies boots from it,
and of another answers VERIFY_FAILED; which images verify is not given (log 6). The order of a
request's checks is the model's (log 14).  (Rests on R474, R477, R480, R484, R488, R497, R498,
R499, R505, R507, R545) -/
def Obligations.MailboxQueriesAreAnswered : Prop :=
  (∀ (s : State), weirServes s = false → ∀ i ∈ ([.info, .evtRingSet, .timeSet, .fabricCoord, .partCreate, .partDestroy, .partBind, .partMem, .partKey, .partEgress, .partSeal,
      .partStatus, .pondCache, .pondArea, .cacheSlices, .cacheFlush, .farMap, .farUnmap, .planLoad, .planUnload, .ctxAbort, .ctxQuery,
      .qpCreate, .qpDelete, .vfQpRange, .stackSelftest, .calChannel, .calAll, .calSave, .calRestore, .hbmRepair, .refRecover,
      .swapDrill, .maintStatus, .maintCancel, .stepCore, .stepModule, .linkSleep, .linkWake, .linkRelease, .logRead, .logCounters,
      .flashErase, .flashProgram, .fwSelect] : List Instr), exec i s = .next s) ∧
  (∀ (s : State) (r : MbReq), Served s 0x01 r → ∃ t a, exec .info s = .next t ∧ Answered s t r a ∧ a.status = stOk ∧
    a.data = versionBytes (reg s Reg.globalFw) ++ leBytes 8 Config.serial.toNat ++ leBytes 1 0xA1 ++
      leBytes 1 (weirNo s.weir.active) ++ leBytes 1 (if moduleReady s then 1 else 0) ++ leBytes 1 (fnPart s r.fn) ∧
    t.mem = s.mem ∧ t.weir.journal = s.weir.journal + 1) ∧
  (∀ (s : State) (r : MbReq), Served s 0x02 r →
    (param r 0 8 % 4096 = 0 → param r 8 4 ∈ ringSizes → ∃ t, exec .evtRingSet s = .next t ∧ Answered s t r (.of stOk) ∧
      (win t r.fn).ringBase = param r 0 8 ∧ (win t r.fn).ringSize = param r 8 4 ∧ (win t r.fn).evtHead = 0 ∧
      (win t r.fn).evtTail = 0 ∧ (win t r.fn).ringTag = true ∧ (win t r.fn).evtLost = (win s r.fn).evtLost) ∧
    (param r 8 4 ≠ 0 → param r 0 8 % 4096 ≠ 0 → ∃ t, exec .evtRingSet s = .next t ∧ Answered s t r (.det stMalformed 0x10) ∧
      (win t r.fn).ringSize = (win s r.fn).ringSize)) ∧
  (∀ (s : State) (r : MbReq), Served s 0x03 r →
    (s.time.running = false → ∃ t, exec .timeSet s = .next t ∧ Answered s t r (.of stNotReady) ∧ t.time = s.time) ∧
    (s.time.running = true → hasCoord s = false → ∃ t q, exec .timeSet s = .next t ∧ q ∈ t.mbReqs ∧ q.fn = r.fn ∧
      q.seq = r.seq ∧ q.executed = true ∧ q.commit = tickOf s ∧ t.time = s.time)) ∧
  (∀ (s : State) (r : MbReq) (v : Nat → Nat), Served s 0x04 r → (∀ i, v i = param r i 1) → badCoord? r = none →
    field s Reg.fabricStat 1 0 = 0 → ∃ t, exec .fabricCoord s = .next t ∧ Answered s t r (.of stOk) ∧
      reg t Reg.fabricCoord = 2 ^ 31 + (v 0 + 16 * v 1 + 256 * v 2 + 2 ^ 12 * (v 3 - 1) + 2 ^ 16 * (v 4 - 1) + 2 ^ 20 * (v 5 - 1)) ∧
      t.record.hold = (v 6 == 2)) ∧
  (∀ (s : State) (r : MbReq), Served s 0x48 r →
    (∀ x, s.acts.find? (fun a => a.num == param r 0 2) = some x → ∃ t a, exec .maintStatus s = .next t ∧ Answered s t r a ∧
      a.status = stOk ∧ a.data = leBytes 1 (actState x.mode) ++ leBytes 1 x.status ++ leBytes 4 x.detail ++ leBytes 2 x.opcode ∧
      t.acts = s.acts) ∧
    ((∀ x ∈ s.acts, x.num ≠ param r 0 2) → ∃ t, exec .maintStatus s = .next t ∧ Answered s t r (.of stNotFound) ∧
      t.acts = s.acts)) ∧
  (∀ (s : State) (r : MbReq) (es : List LogEntry), Served s 0x60 r → 1 ≤ param r 4 1 → param r 4 1 ≤ 15 →
    es = logFrom s (param r 0 4) (param r 4 1) → ∃ t a, exec .logRead s = .next t ∧ Answered s t r a ∧ a.status = stOk ∧
      a.data = leBytes 1 es.length ++ leBytes 4 (reg s Reg.faultLogOldest) ++ leBytes 4 (logNextAfter s es) ++ es.flatMap logBytes ∧
      t.faults.log.map (·.number) = s.faults.log.map (·.number) ∧ t.faults.log.map (·.body) = s.faults.log.map (·.body) ∧
      ∀ e ∈ t.faults.log, (∃ f ∈ es, f.number = e.number) → e.read = true) ∧
  (∀ (s : State) (r : MbReq), Served s 0x61 r → ∃ t a, exec .logCounters s = .next t ∧ Answered s t r a ∧ a.status = stOk ∧
    a.data = counterBytes s ∧ a.data.length = 160 ∧ t.faults = s.faults) ∧
  (∀ (s : State) (r : MbReq) (x : Context), Served s 0x33 r → namedContext s r = .inl x → x.run = none →
    ∃ t a, exec .ctxQuery s = .next t ∧ Answered s t r a ∧ a.status = stOk ∧ t.contexts = s.contexts ∧
      a.data = leBytes 1 0 ++ leBytes 2 x.waiting.length ++ leBytes 1 x.part ++ leBytes 8 (maskOf (x.cores.map (·.core))) ++
        leBytes 8 x.planId) ∧
  (∀ (s : State) (r : MbReq) (k : Nat), Served s 0x72 r → param r 0 1 = 0 → param r 1 1 = k → k ≤ 1 →
    ∃ t a, exec .fwSelect s = .next t ∧ Answered s t r a ∧ t.weir.slotB = s.weir.slotB ∧ t.mem = s.mem ∧
      (Config.imageCheck (slotBytes s 0 k) ∉ [1, 2, 3, 5] → a.status = stOk ∧
        a.data = versionBytes (Config.imageVersion (slotBytes s 0 k)).toNat ∧ t.weir.slotA = k) ∧
      (Config.imageCheck (slotBytes s 0 k) ∈ [1, 2, 3, 5] →
        a = .det stVerifyFailed (Config.imageCheck (slotBytes s 0 k)) ∧ t.weir.slotA = s.weir.slotA))

/-- PLAN_UNLOAD, CTX_ABORT, queue-pair commands, STEP_CORE, STEP_MODULE and the link commands take
effect when served.  A served PLAN_UNLOAD of a context between dispatches removes it, and of a
running one marks it to leave. CTX_ABORT of a running dispatch asks for its abort and otherwise
answers NOT_RUNNING. QP_CREATE of a free queue pair within the issuer's range creates it with its
parameters; QP_DELETE of an idle one of the issuer deletes it. VF_QP_RANGE gives a VF its range.
An admitted STEP_CORE commands exactly the named cores, a refused one answers CAP. STEP_MODULE
while no change is armed begins one, and otherwise answers BUSY. LINK_SLEEP of a link that is up
marks it to sleep, LINK_WAKE of a sleeping link lets it train, LINK_RELEASE ends a quarantine. The
order of a request's checks is the model's (log 14).  (Rests on R184, R382, R413, R436, R458,
R491, R494, R495, R496, R579) -/
def Obligations.MailboxContextQueueStepAndLinkCommands : Prop :=
  (∀ (s : State) (r : MbReq) (x : Context), Served s 0x31 r → namedContext s r = .inl x →
    (x.run = none → ∃ t, exec .planUnload s = .next t ∧ ctx? t x.handle = none ∧
      (∀ h, h ≠ x.handle → (ctx? t h).map (·.handle) = (ctx? s h).map (·.handle)) ∧
      ∀ q ∈ t.mbReqs, ¬ (q.fn = r.fn ∧ q.seq = r.seq ∧ q.tick = r.tick)) ∧
    (∀ q, x.run = some q → 0 < q.phases → ∃ t y, exec .planUnload s = .next t ∧ ctx? t x.handle = some y ∧ y.removing = true ∧
      ∃ w ∈ t.mbReqs, w.fn = r.fn ∧ w.seq = r.seq ∧ w.executed = true)) ∧
  (∀ (s : State) (r : MbReq) (x : Context), Served s 0x32 r → namedContext s r = .inl x →
    (dispatchRuns x = true → ∃ t y q, exec .ctxAbort s = .next t ∧ ctx? t x.handle = some y ∧ y.run = some q ∧
      q.abortReq = true ∧ ∃ w ∈ t.mbReqs, w.fn = r.fn ∧ w.seq = r.seq ∧ w.executed = true) ∧
    (dispatchRuns x = false → ∃ t, exec .ctxAbort s = .next t ∧ Answered s t r (.of stNotRunning) ∧ t.contexts = s.contexts)) ∧
  (∀ (s : State) (r : MbReq) (q : Nat), Served s 0x38 r → r.fn = 0 → q = param r 0 4 → q < 262144 → param r 4 8 % 4096 = 0 →
    param r 12 8 % 4096 = 0 → param r 20 1 ≤ 12 → param r 21 1 ≤ 12 → param r 22 1 ≤ 31 → param r 23 2 ≠ 0 → param r 23 2 ≤ 2047 →
    rangeOwner s q = 0 →
    ((qp s q).mode = 0 → ∃ t, exec .qpCreate s = .next t ∧ Answered s t r (.of stOk) ∧ (qp t q).mode = 1 ∧ (qp t q).owner = 0 ∧
      (qp t q).sqBase = param r 4 8 ∧ (qp t q).cqBase = param r 12 8 ∧ (qp t q).sqLog = param r 20 1 ∧ (qp t q).cqLog = param r 21 1 ∧
      (qp t q).channel = param r 22 1 ∧ (qp t q).vector = param r 23 2 ∧ (qp t q).coalCount = param r 25 1 ∧
      (qp t q).coalTime = param r 26 1 ∧ (qp t q).head = 0 ∧ (qp t q).tail = 0 ∧ ∀ k, k ≠ q → qp t k = qp s k) ∧
    ((qp s q).mode ≠ 0 → ∃ t, exec .qpCreate s = .next t ∧ Answered s t r (.of stInUse) ∧ t.qps = s.qps)) ∧
  (∀ (s : State) (r : MbReq) (q : Nat), Served s 0x39 r → q = param r 0 4 → q < 262144 → (qp s q).owner = r.fn →
    (qp s q).mode = 1 → qpRuns s q = false → ∃ t, exec .qpDelete s = .next t ∧ Answered s t r (.of stOk) ∧ (qp t q).mode = 0) ∧
  (∀ (s : State) (r : MbReq) (v b n : Nat), Served s 0x3A r → v = param r 0 1 → b = param r 1 4 → n = param r 5 2 → v ≠ 0 →
    b % 16 = 0 → 16 ≤ n → n ≤ 1024 → b + n ≤ 262144 → s.qps = [] → s.vfRanges = [] →
    ∃ t, exec .vfQpRange s = .next t ∧ Answered s t r (.of stOk) ∧ tget .reset t.vfRanges v = ⟨b, n⟩) ∧
  (∀ (s : State) (r : MbReq) (cs : List Nat) (k : Nat), Served s 0x50 r → cs = maskList (param r 0 8) 64 → k = param r 8 1 →
    k ≤ 7 →
    (stepRefused s cs k = 0 → ∃ t, exec .stepCore s = .next t ∧ t.mem = s.mem ∧
      ∀ c, (core t c).cmdStep = if c ∈ cs then k else (core s c).cmdStep) ∧
    (stepRefused s cs k ≠ 0 → ∃ t, exec .stepCore s = .next t ∧ Answered s t r (.det stCap (stepRefused s cs k)) ∧
      t.cores = s.cores)) ∧
  (∀ (s : State) (r : MbReq) (k : Nat), Served s 0x51 r → k = param r 0 1 → k ≤ 7 →
    (stepFree s = true → ∃ t ch, exec .stepModule s = .next t ∧ t.clock.change = some ch ∧ ch.target = k ∧ ch.armed = [] ∧
      ch.passed = false ∧ ch.commit = commitCount s (256 * (r.tick + 1)) ∧ ch.participants = (List.range 16).filter (pondRuns s) ∧
      moduleStep t = moduleStep s) ∧
    (stepFree s = false → ∃ t, exec .stepModule s = .next t ∧ Answered s t r (.of stBusy) ∧ t.clock = s.clock)) ∧
  (∀ (s : State) (r : MbReq) (o : Nat), Served s 0x58 r → o = param r 0 1 → o ≤ 15 → (link s o).activity = 0 →
    (liveActs s).length < 64 → linkUp s o = true → ∃ t a, exec .linkSleep s = .next t ∧ Answered s t r a ∧
      a.status = stAccepted ∧ a.detail = nextActNum s ∧ (link t o).sleepFrom = some s.time.now ∧ linkUp t o = true) ∧
  (∀ (s : State) (r : MbReq) (o : Nat), Served s 0x59 r → o = param r 0 1 → o ≤ 15 → (link s o).activity = 0 →
    (liveActs s).length < 64 → linkStateOf s o = 5 → ∃ t a, exec .linkWake s = .next t ∧ Answered s t r a ∧
      a.status = stAccepted ∧ linkStateOf t o = 1 ∧ field t (Reg.optStat o) 4 3 = 0) ∧
  (∀ (s : State) (r : MbReq) (o : Nat), Served s 0x5A r → o = param r 0 1 → o ≤ 15 →
    ∃ t, exec .linkRelease s = .next t ∧ Answered s t r (.of stOk) ∧ regBit t (Reg.linkStat o) 3 = false ∧
      (regBit s (Reg.linkStat o) 3 = true → linkStateOf t o = 1 ∧ (link t o).violations = []) ∧
      (regBit s (Reg.linkStat o) 3 = false → t.links = s.links))

/-- Maintenance commands begin or queue an activity under its number; activities and calibrations end
with their effects.  With fewer than 64 activities, a served STACK_SELFTEST of a free site,
CAL_CHANNEL, CAL_ALL, CAL_SAVE, CAL_RESTORE, HBM_REPAIR, REF_RECOVER or SWAP_DRILL is answered
ACCEPTED or QUEUED with the number of an activity that then runs or waits. FLASH_ERASE and
FLASH_PROGRAM begin theirs. MAINT_CANCEL of a queued activity ends it with RETRY. ACTIVITY_DONE of
an erase that succeeded leaves its range reading 0xFF, of a program of a blank range the bytes of
memory. Of a self-test it waits until the site has negotiated again. CALIBRATION_DONE with two
measurements that agree writes the selected ring, its code and the auxiliary code, and ends the
activity; with the first that disagree it changes no entry, with the second the channel is failed
and reported. CAL_IMAGE_WRITE when due writes the image to both devices. The order of a request's
checks is the model's (log 14).  (Rests on R348, R349, R368, R488, R499, R500, R501, R503, R504,
R562, R610) -/
def Obligations.MailboxMaintenanceCommands : Prop :=
  (∀ (s : State) (r : MbReq), Served s 0x40 r → (liveActs s).length < 64 → param r 0 1 ≤ 15 →
    param r 1 8 % 4096 = 0 → param r 1 8 + 4096 ≤ farBase → (∀ x ∈ s.contexts, ∀ k ∈ x.cores, k.core / 4 ≠ param r 0 1) →
    ∃ t a x, exec .stackSelftest s = .next t ∧ Answered s t r a ∧ (a.status = stAccepted ∨ a.status = stQueued) ∧ a.data = leBytes 2 x.num ∧
      x ∈ t.acts ∧ x.opcode = 0x40 ∧ x.mode = (if a.status = stAccepted then .running else .queued) ∧ x.site = param r 0 1) ∧
  (∀ (s : State) (r : MbReq), Served s 0x41 r → (liveActs s).length < 64 → param r 0 1 ≤ 127 → param r 1 1 ≤ 31 →
    ∃ t a x, exec .calChannel s = .next t ∧ Answered s t r a ∧ (a.status = stAccepted ∨ a.status = stQueued) ∧ a.data = leBytes 2 x.num ∧
      x ∈ t.acts ∧ x.opcode = 0x41 ∧ x.mode = (if a.status = stAccepted then .running else .queued) ∧
      x.guide = param r 0 1 ∧ x.lambda = param r 1 1) ∧
  (∀ (s : State) (r : MbReq), Served s 0x42 r → (liveActs s).length < 64 → 
    ∃ t a x, exec .calAll s = .next t ∧ Answered s t r a ∧ (a.status = stAccepted ∨ a.status = stQueued) ∧ a.data = leBytes 2 x.num ∧
      x ∈ t.acts ∧ x.opcode = 0x42 ∧ x.mode = (if a.status = stAccepted then .running else .queued)) ∧
  (∀ (s : State) (r : MbReq), Served s 0x43 r → (liveActs s).length < 64 → param r 0 8 % 4096 = 0 → param r 0 8 + imageSize ≤ farBase →
    ∃ t a x, exec .calSave s = .next t ∧ Answered s t r a ∧ (a.status = stAccepted ∨ a.status = stQueued) ∧ a.data = leBytes 2 x.num ∧
      x ∈ t.acts ∧ x.opcode = 0x43 ∧ x.mode = (if a.status = stAccepted then .running else .queued) ∧
      x.addr = param r 0 8) ∧
  (∀ (s : State) (r : MbReq), Served s 0x44 r → (liveActs s).length < 64 → param r 0 8 % 4096 = 0 → param r 0 8 + imageSize ≤ farBase →
    ∃ t a x, exec .calRestore s = .next t ∧ Answered s t r a ∧ (a.status = stAccepted ∨ a.status = stQueued) ∧ a.data = leBytes 2 x.num ∧
      x ∈ t.acts ∧ x.opcode = 0x44 ∧ x.mode = (if a.status = stAccepted then .running else .queued) ∧
      x.addr = param r 0 8) ∧
  (∀ (s : State) (r : MbReq), Served s 0x45 r → (liveActs s).length < 64 → param r 0 8 < farBase →
    ∃ t a x, exec .hbmRepair s = .next t ∧ Answered s t r a ∧ (a.status = stAccepted ∨ a.status = stQueued) ∧ a.data = leBytes 2 x.num ∧
      x ∈ t.acts ∧ x.opcode = 0x45 ∧ x.mode = (if a.status = stAccepted then .running else .queued) ∧ x.addr = param r 0 8) ∧
  (∀ (s : State) (r : MbReq), Served s 0x46 r → (liveActs s).length < 64 → 
    ∃ t a x, exec .refRecover s = .next t ∧ Answered s t r a ∧ (a.status = stAccepted ∨ a.status = stQueued) ∧ a.data = leBytes 2 x.num ∧
      x ∈ t.acts ∧ x.opcode = 0x46 ∧ x.mode = (if a.status = stAccepted then .running else .queued)) ∧
  (∀ (s : State) (r : MbReq), Served s 0x47 r → (liveActs s).length < 64 → 
    ∃ t a x, exec .swapDrill s = .next t ∧ Answered s t r a ∧ (a.status = stAccepted ∨ a.status = stQueued) ∧ a.data = leBytes 2 x.num ∧
      x ∈ t.acts ∧ x.opcode = 0x47 ∧ x.mode = (if a.status = stAccepted then .running else .queued)) ∧
  (∀ (s : State) (r : MbReq) (x : Activity), Served s 0x49 r → s.acts.find? (fun a => a.num == param r 0 2) = some x →
    (x.mode = .queued → ∃ t y, exec .maintCancel s = .next t ∧ Answered s t r (.of stOk) ∧ y ∈ t.acts ∧ y.num = param r 0 2 ∧
      y.mode = .done ∧ y.status = stRetry) ∧
    (x.mode = .running → ∃ t, exec .maintCancel s = .next t ∧ Answered s t r (.of stInUse) ∧ t.acts = s.acts)) ∧
  (∀ (s : State) (r : MbReq), Served s 0x70 r → (liveActs s).length < 64 →
    badFlash? s (param r 0 1) (param r 1 4) (param r 5 4) 65536 1 5 = none → ∃ t a x, exec .flashErase s = .next t ∧
      Answered s t r a ∧ a.status = stAccepted ∧ a.data = leBytes 2 x.num ∧ x ∈ t.acts ∧ x.mode = .running ∧ x.opcode = 0x70 ∧
      x.site = param r 0 1 ∧ x.addr = param r 1 4 ∧ x.len = param r 5 4) ∧
  (∀ (s : State) (r : MbReq), Served s 0x71 r → (liveActs s).length < 64 → param r 5 8 + param r 13 4 ≤ farBase →
    badFlash? s (param r 0 1) (param r 1 4) (param r 13 4) 256 1 13 = none → ∃ t a x, exec .flashProgram s = .next t ∧
      Answered s t r a ∧ a.status = stAccepted ∧ a.data = leBytes 2 x.num ∧ x ∈ t.acts ∧ x.mode = .running ∧ x.opcode = 0x71 ∧
      x.site = param r 0 1 ∧ x.addr = param r 1 4 ∧ x.src = param r 5 8 ∧ x.len = param r 13 4) ∧
  (∀ (s : State) (n d : Nat) (m : List Byte) (x : Activity), weirServes s = true →
    s.acts.find? (fun a => a.num == n && a.mode == .running) = some x →
    (x.opcode = 0x70 → ∃ t, exec (.activityDone n stOk d m) s = .next t ∧ (∀ k, flashByte t x.site k =
        if x.addr ≤ k ∧ k < x.addr + x.len then 0xFF else flashByte s x.site k) ∧ ∀ y ∈ t.acts, y.num = n → y.mode = .done) ∧
    (x.opcode = 0x71 → notBlank? s x.site x.addr x.len = none → ∃ t, exec (.activityDone n stOk d m) s = .next t ∧
      (∀ k, k < x.len → flashByte t x.site (x.addr + k) = byteAt s (x.src + k)) ∧ ∀ y ∈ t.acts, y.num = n → y.mode = .done)) ∧
  (∀ (s : State) (n : Nat) (x : Activity) (v : CalPair) (i : SiteNo) (c : Fin 256), weirServes s = true →
    s.acts.find? (fun a => a.num == n && a.mode == .running) = some x → x.opcode = opCc → v.reg = .tx i c →
    x.guide = 8 * i + c / 32 → x.lambda = c % 32 →
    (∀ e, measAgree v = true → selectRing v.second = some e → ∃ t, exec (.calibrationDone n [v]) s = .next t ∧
      field t (Reg.lightTxcal i c) 11 0 = e.2 ∧ field t (Reg.lightTxcal i c) 29 28 = e.1 ∧
      field t (Reg.lightTxcal i c) 27 20 = v.second.aux % 256 ∧ regBit t (Reg.lightTxcal i c) 31 = true ∧
      ((∀ y ∈ s.acts, y.mode ≠ .queued) → regBit t (Reg.lightTxcal i c) 30 = false) ∧ t.flash.calChanged = true ∧
      ∀ y ∈ t.acts, y.num = n → y.mode = .done) ∧
    (measAgree v = false → x.len = 0 → ∃ t, exec (.calibrationDone n [v]) s = .next t ∧ t.regs = s.regs ∧ t.flash = s.flash) ∧
    (measAgree v = false → x.len = 32 * x.guide + x.lambda + 1 → ∃ t r, exec (.calibrationDone n [v]) s = .next t ∧
      r ∈ t.faults.inTransit ∧ r.cls = 4 ∧ r.code = 11 ∧ tget false (site t i).failedTx c = true ∧
      field t (Reg.lightTxcal i c) 29 0 = field s (Reg.lightTxcal i c) 29 0 ∧ ∀ y ∈ t.acts, y.num = n → y.mode = .done)) ∧
  (∀ (s : State) (n st d : Nat) (m : List Byte) (vs : List CalPair),
    (weirServes s = false ∨ s.acts.find? (fun a => a.num == n && a.mode == .running) = none) →
    exec (.activityDone n st d m) s = .next s ∧ exec (.calibrationDone n vs) s = .next s) ∧
  (∀ (s : State) (n st d : Nat) (m : List Byte) (x : Activity), weirServes s = true →
    s.acts.find? (fun a => a.num == n && a.mode == .running) = some x →
    ((x.opcode = 0x41 ∨ x.opcode = 0x47 ∨ x.opcode = 0x11 ∨ x.opcode = 0x58 ∨ bundleBack s x = false) →
      exec (.activityDone n st d m) s = .next s) ∧
    (x.opcode = 0x40 → bundleBack s x = true → (∀ y ∈ s.acts, y.mode ≠ .queued) → ∃ t, exec (.activityDone n st d m) s = .next t ∧
      (site t x.site).creditsHeld = false ∧ ∀ y ∈ t.acts, y.num = n → y.mode = .done ∧ y.status = st)) ∧
  (∀ (s : State),
    (weirServes s = true → s.flash.calChanged = true → s.flash.calWritten + 86400000000000 ≤ s.time.now →
      ∃ t, exec .calImageWrite s = .next t ∧ t.flash.calChanged = false ∧ t.flash.calWritten = s.time.now ∧
        ∀ w k, w < 2 → k < (calImage s).length → flashByte t w (0x2010000 + k) = (calImage s).getD k 0) ∧
    ((weirServes s = false ∨ s.flash.calChanged = false ∨ s.time.now < s.flash.calWritten + 86400000000000) →
      exec .calImageWrite s = .next s))

/-- PART_CREATE, PART_BIND, PART_MEM, PART_KEY, PART_EGRESS, PART_SEAL, PART_STATUS, PART_DESTROY and
the timeout of a destroy take effect.  A served PART_CREATE without STRICT of free cores while no
throttle runs opens the partition with them, clears their core stores, registers and flags, and
leaves the other partitions; one that names a core that is given or fenced answers IN_USE.
PART_BIND binds and unbinds a VF and a DMA channel. PART_MEM gives units that no other partition
holds, the newly given reading zeros, and takes back those of an open partition. PART_KEY of a new
key within the entries of every site adds it. PART_EGRESS puts its entries into the lowest free
places. PART_SEAL of a partition that meets the rules commits its seal, and of another answers
NOT_PERMITTED. PART_STATUS answers the state. PART_DESTROY begins its activity. A destroy whose
slots are still held after 1 s ends with IN_FLIGHT. RETRY or NO_RESOURCE where room is short: log
21.  (Rests on R487, R488, R492, R510, R511, R515, R516, R517, R518, R522, R523, R524) -/
def Obligations.PartitionsAreBuiltSealedAndDestroyed : Prop :=
  (∀ (s : State) (r : MbReq) (p : Nat) (cs : List Nat), Served s 0x10 r → p = param r 0 1 → p < 64 → param r 9 1 = 0 →
    (part s p).mode = .absent → cs = maskList (param r 1 8) 64 →
    (s.power.throttleFrom = none → (∀ c ∈ cs, partOfCore s c = 0xFF ∧ (core s c).fenced = false) →
      ∃ t, exec .partCreate s = .next t ∧ (part t p).mode = .opened ∧ (part t p).cores.toNat = param r 1 8 ∧
        (part t p).strict = 0 ∧ (part t p).keys = [] ∧ (part t p).units = [] ∧ (∀ k, k ≠ p → part t k = part s k) ∧
        ∀ c ∈ cs, (core t c).vregs = [] ∧ (core t c).accs = [] ∧ (core t c).vflags = 0 ∧ (core t c).sel = 0 ∧
          ∀ a, coreBase c ≤ a → a < coreBase c + 2 ^ 25 → byteAt t a = 0) ∧
    ((∃ c ∈ cs, partOfCore s c ≠ 0xFF ∨ (core s c).fenced = true) →
      ∃ t, exec .partCreate s = .next t ∧ Answered s t r (.of stInUse) ∧ t.parts = s.parts ∧ t.mem = s.mem)) ∧
  (∀ (s : State) (r : MbReq) (p v : Nat), Served s 0x12 r → p = param r 0 1 → v = param r 1 1 → p < 64 → partLive s p = true →
    (param r 2 1 = 1 → v ≠ 0 → (part s p).vf = none → heldByOther s p (fun y => y.vf == some v) = false →
      ∃ t, exec .partBind s = .next t ∧ Answered s t r (.of stOk) ∧ (part t p).vf = some v ∧ ∀ k, k ≠ p → part t k = part s k) ∧
    (param r 2 1 = 0 → v ≠ 0 → (part s p).vf = some v → (∀ q ∈ s.qps, q.2.mode ≠ 0 → q.2.owner ≠ v) →
      ∃ t, exec .partBind s = .next t ∧ Answered s t r (.of stOk) ∧ (part t p).vf = none ∧ ∀ k, k ≠ p → part t k = part s k) ∧
    (param r 2 1 = 2 → v ≤ 31 → ∃ t, exec .partBind s = .next t ∧ Answered s t r (.of stOk) ∧
      (∀ k, k < 32 → bit (part t p).channels.toNat k = (k == v || bit (part s p).channels.toNat k)) ∧
      ∀ k, k ≠ p → part t k = part s k) ∧
    (param r 2 1 = 3 → v ≤ 31 → ∃ t a, exec .partBind s = .next t ∧ Answered s t r a ∧
      a.status = (if bit (part s p).channels.toNat v then stOk else stNotFound) ∧
      (∀ k, k < 32 → bit (part t p).channels.toNat k = (k != v && bit (part s p).channels.toNat k)) ∧
      ∀ k, k ≠ p → part t k = part s k)) ∧
  (∀ (s : State) (r : MbReq) (p a n : Nat), Served s 0x13 r → p = param r 0 1 → a = param r 1 8 → n = param r 9 8 → p < 64 →
    a % 2 ^ 26 = 0 → n % 2 ^ 26 = 0 → n ≠ 0 → a + n ≤ farBase → partLive s p = true →
    (∀ u, a / 2 ^ 26 ≤ u → u < (a + n) / 2 ^ 26 → heldByOther s p (fun y => tget false y.units u) = false) →
    (param r 17 1 = 1 → ∃ t, exec .partMem s = .next t ∧ Answered s t r (.of stOk) ∧ t.mem = s.mem ∧
      (∀ u, tget false (part t p).units u = (decide (a / 2 ^ 26 ≤ u ∧ u < (a + n) / 2 ^ 26) || tget false (part s p).units u)) ∧
      (∀ b, a ≤ b → b < a + n → tget false (part s p).units (b / 2 ^ 26) = false → byteAt t b = 0) ∧
      (∀ b, tget false (part s p).units (b / 2 ^ 26) = true → byteAt t b = byteAt s b) ∧ ∀ k, k ≠ p → part t k = part s k) ∧
    (param r 17 1 = 0 → partSealed s p = false → ∃ t, exec .partMem s = .next t ∧ Answered s t r (.of stOk) ∧ t.mem = s.mem ∧
      (∀ u, tget false (part t p).units u = (!decide (a / 2 ^ 26 ≤ u ∧ u < (a + n) / 2 ^ 26) && tget false (part s p).units u)) ∧
      ∀ k, k ≠ p → part t k = part s k)) ∧
  (∀ (s : State) (r : MbReq) (p : Nat) (k : KeyRec), Served s 0x14 r → p = param r 0 1 → p < 64 → k.key = param r 1 2 → k.key ≠ 0 →
    k.egress = BitVec.ofNat 16 (param r 3 2) → k.inBasin = BitVec.ofNat 16 (param r 5 2) → k.inOutlet = BitVec.ofNat 16 (param r 7 2) →
    partLive s p = true → partSealed s p = false → heldByOther s p (fun y => y.keys.any fun j => j.key == k.key) = false →
    (∀ j ∈ (part s p).keys, j.key ≠ k.key) → k.egress ≠ 0 →
    ((∀ i, i < 16 → bit (keyMask k) i = true → keyUse s p ((part s p).keys ++ [k]) i ≤ 16) →
      ∃ t, exec .partKey s = .next t ∧ Answered s t r (.of stOk) ∧ (part t p).keys = (part s p).keys ++ [k] ∧
        ∀ j, j ≠ p → part t j = part s j) ∧
    ((∃ i, i < 16 ∧ bit (keyMask k) i = true ∧ 16 < keyUse s p ((part s p).keys ++ [k]) i) →
      ∃ t a, exec .partKey s = .next t ∧ Answered s t r a ∧ (a.status = stRetry ∨ a.status = stNoResource) ∧ t.parts = s.parts)) ∧
  (∀ (s : State) (r : MbReq) (p n : Nat), Served s 0x15 r → p = param r 0 1 → n = param r 1 1 → p < 64 → 1 ≤ n → n ≤ 16 →
    (∀ j, j < n → egressFormed (param r (2 + 16 * j) 8) (param r (10 + 16 * j) 8) = true ∧
      ∃ k ∈ (part s p).keys, k.key = param r (10 + 16 * j) 8 / 2 ^ 48 ∧ k.egress ≠ 0) →
    partLive s p = true → partSealed s p = false →
    (n ≤ (freeEgress s).length → ∃ t, exec .partEgress s = .next t ∧ Answered s t r (.ok (leBytes 2 ((freeEgress s).headD 0))) ∧
      (∀ j i, j < n → (freeEgress s)[j]? = some i →
        t.island.egress[i]? = some (egressEntry p (param r (2 + 16 * j) 8) (param r (10 + 16 * j) 8))) ∧
      ∀ i, i ∉ (freeEgress s).take n → (t.island.egress[i]?).getD noEgress = (s.island.egress[i]?).getD noEgress) ∧
    ((freeEgress s).length < n → ∃ t a, exec .partEgress s = .next t ∧ Answered s t r a ∧
      (a.status = stRetry ∨ a.status = stNoResource) ∧ t.island = s.island)) ∧
  (∀ (s : State) (r : MbReq) (p : Nat), Served s 0x16 r → p = param r 0 1 → p < 64 → partLive s p = true → partSealed s p = false →
    (sealAllowed (part s p) = true → ∃ t, exec .partSeal s = .next t ∧ (part t p).sealing = true ∧
      (part t p).mode = (part s p).mode ∧ (part t p).keys = (part s p).keys ∧
      ∃ q ∈ t.mbReqs, q.fn = r.fn ∧ q.seq = r.seq ∧ q.executed = true ∧ q.commit = tickOf s) ∧
    (sealAllowed (part s p) = false → ∃ t, exec .partSeal s = .next t ∧ Answered s t r (.of stNotPermitted) ∧ t.parts = s.parts)) ∧
  (∀ (s : State) (r : MbReq) (p : Nat), Served s 0x17 r → p = paramPart s r 0 → p < 64 → ∃ t a, exec .partStatus s = .next t ∧
    Answered s t r a ∧ a.status = stOk ∧ t.parts = s.parts ∧
    a.data = leBytes 1 (if (part s p).mode = .absent then 0 else if (part s p).mode = .opened then 1 else
        if (part s p).mode = .sealed then 2 else 3) ++ leBytes 1 (part s p).strict ++ leBytes 8 (part s p).cores.toNat ++
      leBytes 2 (s.contexts.filter fun y => y.part == p).length ++ leBytes 8 (part s p).unwritten ++
      leBytes 4 (s.poison.filter fun e => partOfAddr s (64 * e.1) == p).length) ∧
  (∀ (s : State) (r : MbReq) (p : Nat), Served s 0x11 r → p = param r 0 1 → p < 64 →
    ((part s p).mode = .absent → ∃ t, exec .partDestroy s = .next t ∧ Answered s t r (.of stNotFound) ∧ t.acts = s.acts) ∧
    ((part s p).mode ≠ .absent → (part s p).activity = 0 → (liveActs s).length < 64 →
      ∃ t a x, exec .partDestroy s = .next t ∧ Answered s t r a ∧ a.status = stAccepted ∧ a.data = leBytes 2 x.num ∧ x ∈ t.acts ∧
        x.opcode = 0x11 ∧ x.mode = .running ∧ (part t p).activity = x.num ∧ (part t p).mode = (part s p).mode ∧
        ∀ k, k ≠ p → part t k = part s k)) ∧
  (∀ (s : State), weirServes s = false → exec .destroyTimeout s = .next s) ∧
  (∀ (s : State) (p a : Nat) (x : Partition), weirServes s = true → tfind s.parts p = some x → x.mode = .destroying →
    x.activity ≠ 0 → partSlots s p ≠ [] → x.destroyFrom = some a → a + 1000000000 ≤ s.time.now →
    ∃ t, exec .destroyTimeout s = .next t ∧ (part t p).activity = 0 ∧ (part t p).mode = .destroying ∧ t.mem = s.mem ∧
      t.far = s.far ∧ ∀ y ∈ t.acts, y.num = x.activity → y.mode = .done ∧ y.status = stInFlight)

/-- The Pond, cache, far-window and plan commands take effect when served; late unmaps end; a refused
plan changes nothing.  A served POND_CACHE of a site with no area, slices or contexts sets its
size, and otherwise answers IN_USE. POND_AREA gives a partition with cores on the site an area at
the lowest place that fits, or answers that none does. CACHE_SLICES gives free slices of the
cache. CACHE_FLUSH leaves no line of the slot in any cache. FAR_MAP of a window that the sealed
egress allows waits for the end of the tick; FAR_UNMAP of a slot without requests unmaps it at
once, and of another waits. FAR_UNMAP_TIMEOUT ends the waits of 100 ms. PLAN_LOAD of a placed
container that every check accepts adds one context, whose cores hold their constant data, and
answers its handle and plan; a load that a check refuses changes no context and no memory. The
lowest place is the model's choice (log 22).  (Rests on R157, R158, R192, R231, R232, R233, R236,
R242, R243, R489, R490, R493) -/
def Obligations.PondCacheFarWindowAndPlanCommands : Prop :=
  (∀ (s : State) (r : MbReq) (i k : Nat), Served s 0x20 r → i = param r 0 1 → k = param r 1 1 → i ≤ 15 → k ≤ 3 →
    ((∀ e ∈ livingParts s, tfind e.2.areas i = none ∧ tget 0 e.2.slices i = 0) →
      (∀ x ∈ s.contexts, ∀ c ∈ x.cores, c.core / 4 ≠ i) → ∃ t, exec .pondCache s = .next t ∧ Answered s t r (.of stOk) ∧
        field t (Reg.memCfg i) 17 16 = k ∧ tget 2 t.island.split i = k ∧ (∀ j, j ≠ i → tget 2 t.island.split j = tget 2 s.island.split j) ∧
        t.parts = s.parts) ∧
    ((∃ e ∈ livingParts s, (tfind e.2.areas i).isSome = true ∨ tget 0 e.2.slices i ≠ 0) →
      ∃ t, exec .pondCache s = .next t ∧ Answered s t r (.of stInUse) ∧ t.island = s.island)) ∧
  (∀ (s : State) (r : MbReq) (p i d m : Nat), Served s 0x21 r → p = param r 0 1 → i = param r 1 1 → d = param r 2 2 → m = param r 4 2 →
    p < 64 → i ≤ 15 → d + m ≠ 0 → partLive s p = true → (∃ c ∈ maskList (part s p).cores.toNat 64, c / 4 = i) →
    tfind (part s p).areas i = none →
    (∀ o, areaPlace? s p i (d + m) = some o → ∃ t, exec .pondArea s = .next t ∧ Answered s t r (.ok (leBytes 2 o)) ∧
      tfind (part t p).areas i = some { base := o, data := d, stream := m } ∧
      (∀ j, j ≠ i → tfind (part t p).areas j = tfind (part s p).areas j) ∧ (∀ k, k ≠ p → part t k = part s k) ∧
      ∀ b, pondBase i + o * 2 ^ 20 ≤ b → b < pondBase i + (o + d + m) * 2 ^ 20 → byteAt t b = 0) ∧
    (areaPlace? s p i (d + m) = none → ∃ t a, exec .pondArea s = .next t ∧ Answered s t r a ∧
      (a.status = stRetry ∨ a.status = stNoResource) ∧ t.parts = s.parts)) ∧
  (∀ (s : State) (r : MbReq) (i p m : Nat), Served s 0x22 r → i = param r 0 1 → p = param r 1 1 → m = param r 2 2 → i ≤ 15 → p < 64 →
    m < 2 ^ (pondCacheBytes s i / 2 ^ 24) → partLive s p = true →
    (heldByOther s p (fun y => (tget 0 y.slices i &&& m) != 0) = false →
      (tget 0 (part s p).slices i = 0 ∨ partSealed s p = false ∨ m = tget 0 (part s p).slices i) →
      ∃ t, exec .cacheSlices s = .next t ∧ Answered s t r (.of stOk) ∧ tget 0 (part t p).slices i = m ∧
        (∀ j, j ≠ i → tget 0 (part t p).slices j = tget 0 (part s p).slices j) ∧ (∀ k, k ≠ p → part t k = part s k) ∧
        t.mem = s.mem) ∧
    (heldByOther s p (fun y => (tget 0 y.slices i &&& m) != 0) = true →
      ∃ t, exec .cacheSlices s = .next t ∧ Answered s t r (.of stInUse) ∧ t.parts = s.parts)) ∧
  (∀ (s : State) (r : MbReq) (n : Nat), Served s 0x23 r → n = param r 0 2 → n < 3072 →
    ((farSlot s n).valid = true → ∃ t, exec .cacheFlush s = .next t ∧ Answered s t r (.of stOk) ∧ t.mem = s.mem ∧
      ∀ i l, i < 16 → farBase + n * 2 ^ 30 ≤ 256 * l → 256 * l < farBase + (n + 1) * 2 ^ 30 → cacheGet t i l = none) ∧
    ((farSlot s n).valid = false → ∃ t, exec .cacheFlush s = .next t ∧ Answered s t r (.of stNotFound) ∧ t.sites = s.sites)) ∧
  (∀ (s : State) (r : MbReq) (f : FarSlot), Served s 0x24 r → f = farSlotOf r → param r 0 2 < 3072 → f.part < 64 → param r 3 1 ≤ 2 →
    f.kind ≤ 1 → param r 5 1 ≤ 15 → param r 6 1 ≤ 15 → param r 7 1 ≤ 15 → f.base < 2 ^ 18 → (f.kind = 1 → f.base * 2 ^ 30 < farBase) →
    partLive s f.part = true →
    (windowAllowed s f.part f.key f.coord (f.base * 2 ^ 30) 49 = true →
      (f.writable = true → windowAllowed s f.part f.key f.coord (f.base * 2 ^ 30) 50 = true) →
      ∃ t q, exec .farMap s = .next t ∧ t.far = s.far ∧ t.farPending = s.farPending ++ [q] ∧ q.slot = param r 0 2 ∧ q.entry = f ∧
        ∃ w ∈ t.mbReqs, w.fn = r.fn ∧ w.seq = r.seq ∧ w.executed = true ∧ w.commit = tickOf s) ∧
    (windowAllowed s f.part f.key f.coord (f.base * 2 ^ 30) 49 = false →
      ∃ t, exec .farMap s = .next t ∧ Answered s t r (.of stNotPermitted) ∧ t.far = s.far ∧ t.farPending = s.farPending)) ∧
  (∀ (s : State) (r : MbReq) (n : Nat), Served s 0x25 r → n = param r 0 2 → n < 3072 → (farSlot s n).valid = true →
    (slotRequests s n = 0 → ∃ t, exec .farUnmap s = .next t ∧ Answered s t r (.of stOk) ∧ (farSlot t n).valid = false ∧
      ∀ k, k ≠ n → farSlot t k = farSlot s k) ∧
    (slotRequests s n ≠ 0 → ∃ t q, exec .farUnmap s = .next t ∧ t.far = s.far ∧ t.farPending = s.farPending ++ [q] ∧ q.slot = n ∧
      q.entry.valid = false ∧ q.since = s.time.now)) ∧
  (∀ (s : State), weirServes s = false → exec .farUnmapTimeout s = .next s) ∧
  (∀ (s : State), weirServes s = true → ∃ t, exec .farUnmapTimeout s = .next t ∧ t.far = s.far ∧ t.mem = s.mem ∧
    (t.farPending = s.farPending.filter fun q =>
      q.entry.valid || s.time.now < q.since + 100000000 || slotRequests s q.slot == 0) ∧
    ∀ q ∈ s.farPending, q.entry.valid = false → q.since + 100000000 ≤ s.time.now → slotRequests s q.slot ≠ 0 →
      ∀ w ∈ t.mbReqs, ¬ (w.executed = true ∧ w.opcode = 0x25 ∧ w.arg = q.slot)) ∧
  (∀ (s : State) (r : MbReq) (p a n : Nat) (m : Array Byte), Served s 0x30 r → p = paramPart s r 0 → a = param r 1 8 → n = param r 9 8 →
    p < 64 → a % 4096 = 0 → a < farBase → reach s r.fn a n false = true → badPlace? (fun j => param r (17 + j) 1) = none →
    (part s p).mode = .sealed → (part s p).cores ≠ 0 → m = (loadBytes s a n).toArray → headRule1 m n = true → headRule2 m = true →
    headCountsOk (planHead m) = true → (∀ j, j < 16 → (planHead m).sites ≤ j → param r (17 + j) 1 = 0xFF) →
    (∀ c, placePlan s.contexts (part s p) m (planHead m) (fun j => param r (17 + j) 1) = .inl c →
      ∃ t b, exec .planLoad s = .next t ∧ Answered s t r b ∧ (b = .det stRefused c ∨ b = .of stRetry) ∧
        t.contexts = s.contexts ∧ t.mem = s.mem) ∧
    (∀ pl d, placePlan s.contexts (part s p) m (planHead m) (fun j => param r (17 + j) 1) = .inr pl →
      d = firstFinding (planFindings (planOf m) pl.sites
        (fun i => match tfind (part s p).areas i with
          | some x => x.data * 2 ^ 20
          | none => 0) (fun c => bit (part s p).cores.toNat c)) →
      ∃ t, exec .planLoad s = .next t ∧
      (d ≠ 0 → Answered s t r (.det stRefused d) ∧ t.contexts = s.contexts ∧ t.mem = s.mem) ∧
      (d = 0 → ∃ x, t.contexts = s.contexts ++ [x] ∧ x.part = p ∧ x.run = none ∧ x.waiting = [] ∧
        x.planId = (planHead m).planId ∧ ctxNo x.handle = pl.number ∧ x.cores.map (·.core) = pl.cores ∧
        x.cores.map (·.region) = pl.regions ∧ x.cores.map (·.stream) = pl.streams ∧
        (∀ k ∈ x.cores, k.counters = []) ∧ Answered s t r (.ok (leBytes 2 x.handle ++ leBytes 8 x.planId)))))

/-- Beats and faults of the active Weir declare it failed, a switchover ends or misses its bound, and
checkpoints and the standby are kept.  While no Weir serves, beats, missed beats and checkpoints
change nothing. BEAT sets its path's misses to none. BEAT_MISSED, no sooner than 1.1 ms after the
last beat, counts one on its path; three on both paths declare the active Weir failed: with a
standby the standby starts and the failed Weir's domain goes off, else the same Weir restarts;
three on one path alone while the other misses none are reported once. EXPLICIT_FAULT declares it
failed, and without a standby management is lost. SWITCHOVER_COMPLETE ends the gap: the starting
Weir is active, the count rises, and what was not committed is answered. GAP_BOUND_EXPIRY at the
bound, or an explicit fault in the gap, marks the starting Weir failed: a drill ends, a restart of
the former is tried once where beats alone were missed, and else management is lost.
CHECKPOINT_WRITE fills the other bank. STANDBY_IMAGE_CHECK of a ready module, once in 24 h, shows
a damaged image. That a good check clears the mark is the model's choice (log 23).  (Rests on
R551, R552, R553, R554, R555, R557, R558, R559, R567, R600) -/
def Obligations.WeirBeatsFaultsAndSwitchovers : Prop :=
  (∀ (s : State), weirServes s = false → (∀ p n, exec (.beat p n) s = .next s) ∧ (∀ p, exec (.beatMissed p) s = .next s) ∧
    exec .checkpointWrite s = .next s ∧ ∀ g, exec (.standbyImageCheck g) s = .next s) ∧
  (∀ (s : State) (p : BeatPath) (n : Nat), weirServes s = true → ∃ t, exec (.beat p n) s = .next t ∧ missed t p = 0 ∧
    awaitedFrom t p = s.time.now ∧ missed t (otherPath p) = missed s (otherPath p) ∧ (p = .message → t.weir.beatMsg = n) ∧
    (missed s (otherPath p) < 3 → regBit t Reg.faultWeir 3 = false) ∧ (∀ k, k ≠ Reg.faultWeir → reg t k = reg s k) ∧
    t.faults = s.faults ∧ t.mem = s.mem) ∧
  (∀ (s : State) (p : BeatPath), beatLate s p = false → exec (.beatMissed p) s = .next s) ∧
  (∀ (s : State) (p : BeatPath), weirServes s = true → (s.time.running = false ∨ awaitedFrom s p + 1100000 ≤ s.time.now) →
    ∃ t, exec (.beatMissed p) s = .next t ∧
    (3 ≤ missed s p + 1 → 3 ≤ missed s (otherPath p) → ∃ g r, t.weir.gap = some g ∧ g.former = s.weir.active ∧
      g.starting = (if hasStandby s then otherWeir s.weir.active else s.weir.active) ∧ g.beatsOnly = true ∧ g.drill = false ∧
      g.retry = !hasStandby s ∧ g.since = s.time.now ∧ g.from_ = s.time.now ∧ weirServes t = false ∧ r ∈ t.faults.inTransit ∧ r.cls = 3 ∧ r.code = 1 ∧
      domState t (domWeir s.weir.active) = (if hasStandby s then 0 else 1)) ∧
    (¬ (3 ≤ missed s p + 1 ∧ 3 ≤ missed s (otherPath p)) → missed t p = missed s p + 1 ∧
      awaitedFrom t p = minNat s.time.now (awaitedFrom s p + 1100000) ∧ missed t (otherPath p) = missed s (otherPath p) ∧ t.weir.gap = s.weir.gap ∧
      (3 ≤ missed s p + 1 → missed s (otherPath p) = 0 → regBit s Reg.faultWeir 3 = false → regBit t Reg.faultWeir 3 = true ∧
        ∃ r, t.faults.inTransit = s.faults.inTransit ++ [r] ∧ r.cls = 3 ∧ r.code = 7))) ∧
  (∀ (s : State) (p : BeatPath) (k : WeirFault), (s.weir.mgmtLost = true ∨ s.weir.running = false) →
    exec (.explicitFault p k) s = .next s) ∧
  (∀ (s : State) (p : BeatPath) (k : WeirFault), s.weir.mgmtLost = false → s.weir.running = true →
    (s.weir.gap = none → hasStandby s = true → ∃ t g r, exec (.explicitFault p k) s = .next t ∧ t.weir.gap = some g ∧
      g.former = s.weir.active ∧ g.starting = otherWeir s.weir.active ∧ g.beatsOnly = false ∧ g.drill = false ∧
      r ∈ t.faults.inTransit ∧ r.cls = 3 ∧ r.code = 2 ∧ domState t (domWeir s.weir.active) = 0) ∧
    (s.weir.gap = none → hasStandby s = false → ∃ t, exec (.explicitFault p k) s = .next t ∧ t.weir.mgmtLost = true ∧
      t.weir.gap = none ∧ t.weir.failedA = true ∧ t.weir.failedB = true ∧ regBit t Reg.faultWeir 5 = true)) ∧
  (∀ (s : State), s.weir.gap = none → exec .switchoverComplete s = .next s ∧ exec .gapBoundExpiry s = .next s) ∧
  (∀ (s : State) (g : Gap), s.weir.gap = some g →
    (g.drill = true → weirFailed s g.starting = true → exec .switchoverComplete s = .next s) ∧
    (s.time.running = true → s.time.now < g.from_ + 12500000 → exec .gapBoundExpiry s = .next s) ∧
    ((g.drill = false ∨ weirFailed s g.starting = false) → ∃ t, exec .switchoverComplete s = .next t ∧ t.weir.active = g.starting ∧
      t.weir.switchovers = minNat (s.weir.switchovers + 1) 65535 ∧
      field t Reg.faultWeir 23 8 = minNat (s.weir.switchovers + 1) 65535 ∧ regBit t Reg.faultFlags 3 = true ∧
      (g.drill = false → g.starting ≠ g.former → weirFailed t g.former = true) ∧ (∀ q ∈ t.mbReqs, q.executed = true) ∧
      ((∀ a ∈ s.acts, a.opcode = opSd → a.mode ≠ .queued) → t.weir.running = true ∧ t.weir.gap = none))) ∧
  (∀ (s : State) (g : Gap) (c : Instr), s.weir.gap = some g →
    ((c = .gapBoundExpiry ∧ (s.time.running = false ∨ g.from_ + 12500000 ≤ s.time.now)) ∨
      (s.weir.mgmtLost = false ∧ s.weir.running = true ∧ ∃ p k, c = .explicitFault p k)) →
    (g.drill = true → ∃ t, exec c s = .next t ∧ weirFailed t g.starting = true ∧ t.weir.active = s.weir.active ∧
      ((∀ a ∈ s.acts, a.opcode = opSd → a.mode ≠ .queued) → t.weir.gap = none)) ∧
    (g.drill = false → g.beatsOnly = true → g.retry = false → ∃ t, exec c s = .next t ∧
      t.weir.gap = some { g with starting := g.former, retry := true, from_ := s.time.now } ∧ weirFailed t g.starting = true ∧
      (domState s (domWeir g.former) = 0 → domState t (domWeir g.former) = 1)) ∧
    (g.drill = false → (g.beatsOnly = false ∨ g.retry = true) → ∃ t, exec c s = .next t ∧ t.weir.mgmtLost = true ∧
      t.weir.gap = none ∧ t.weir.failedA = true ∧ t.weir.failedB = true ∧ regBit t Reg.faultWeir 5 = true)) ∧
  (∀ (s : State), weirServes s = true → ∃ t, exec .checkpointWrite s = .next t ∧ t.weir.ckSeq = s.weir.ckSeq + 1 ∧
    t.weir.ckBank = 1 - s.weir.ckBank ∧ t.weir.journal = 0 ∧ t.weir.active = s.weir.active ∧ t.mem = s.mem ∧ t.regs = s.regs) ∧
  (∀ (s : State),
    ((hasStandby s = false ∨ regBit s Reg.globalStat 5 = false ∨
      ∃ a, s.weir.standbyChecked = some a ∧ s.time.now < a + 86400000000000) → ∀ g, exec (.standbyImageCheck g) s = .next s) ∧
    (weirServes s = true → hasStandby s = true → regBit s Reg.globalStat 5 = true →
      (∀ a, s.weir.standbyChecked = some a → a + 86400000000000 ≤ s.time.now) → (∃ t, exec (.standbyImageCheck true) s = .next t ∧ regBit t Reg.faultWeir 4 = false ∧
        t.weir.standbyChecked = some s.time.now ∧ t.faults = s.faults) ∧
      ∃ t e, exec (.standbyImageCheck false) s = .next t ∧ regBit t Reg.faultWeir 4 = true ∧ t.weir.standbyChecked = some s.time.now ∧
        (e ∈ t.faults.log.map (·.body) ∨ e ∈ t.faults.queue) ∧ e.cls = 3 ∧ e.code = 6 ∧
        e.unit = unitNo 0x10 (weirNo (otherWeir s.weir.active))))

/-- Feeds go bad and good, the island runs on VKEEP and returns, and a thermal trip switches
everything off until it is cleared.  FEED_BAD of a good feed disconnects it, flags and reports it;
FEED_GOOD of a bad one connects and reports it; either again changes nothing. ISLAND_TO_VKEEP with
both feeds bad switches every domain off, stops Basin time and keeps the log and the partitions'
sealed egress. ISLAND_RETURN with a feed adds the SOSC cycles to the backup and, unless a trip is
latched or the module is held in reset, starts at stage 1 with Weir A. VKEEP_LOST while the island
depends on it loses the log, the partitions, the far window and the backup. THERMAL_TRIP on two
samples of 115 degC of a sensor that is not broken switches every domain off and latches its
record; TRIP_CLEAR while both feeds are bad clears the latch and keeps the record.  (Rests on R65,
R569, R570, R571, R573, R593, R594, R598, R642) -/
def Obligations.FeedsIslandAndTrip : Prop :=
  (∀ (s : State) (f : Feed), (feedIsGood s f = false → exec (.feedBad f) s = .next s) ∧
    (feedIsGood s f = true → ∃ t r, exec (.feedBad f) s = .next t ∧ feedIsGood t f = false ∧ regBit t Reg.powerStat (feedNo f) = false ∧
      regBit t Reg.powerFlags (feedNo f) = true ∧ t.faults.inTransit = s.faults.inTransit ++ [r] ∧ r.cls = 1 ∧ r.code = 1 ∧
      r.unit = unitNo 0x11 (feedNo f) ∧ (noFeed t = true → t.island.bothBadAt = some s.time.now) ∧ t.mem = s.mem ∧
      ∀ g, g ≠ f → feedIsGood t g = feedIsGood s g)) ∧
  (∀ (s : State) (f : Feed), (feedIsGood s f = true → exec (.feedGood f) s = .next s) ∧
    (feedIsGood s f = false → ∃ t r, exec (.feedGood f) s = .next t ∧ feedIsGood t f = true ∧ regBit t Reg.powerStat (feedNo f) = true ∧
      t.faults.inTransit = s.faults.inTransit ++ [r] ∧ r.cls = 1 ∧ r.code = 2 ∧ r.unit = unitNo 0x11 (feedNo f) ∧
      t.island.bothBadAt = none ∧ t.mem = s.mem ∧ ∀ g, g ≠ f → feedIsGood t g = feedIsGood s g)) ∧
  (∀ (s : State), (noFeed s = false ∨ s.island.onVkeep = true) → exec .islandToVkeep s = .next s) ∧
  (∀ (s : State), noFeed s = true → s.island.onVkeep = false → ∃ t, exec .islandToVkeep s = .next t ∧ t.island.onVkeep = true ∧
    t.island.vkeepUsed = true ∧ t.island.outages = s.island.outages ++ [islandTime s] ∧ t.time.running = false ∧
    t.time.backup = islandTime s ∧ t.weir.running = false ∧ t.faults.log = s.faults.log ∧ stage t = 0 ∧
    t.island.egressLost = (s.island.egressLost || egressWaits s) ∧ (∀ d, d < 166 → domState t d = 0) ∧
    ∀ e ∈ s.island.egress, e.sealed = true → e ∈ t.island.egress) ∧
  (∀ (s : State) (n : Nat), (s.island.onVkeep = false ∨ noFeed s = true) → exec (.islandReturn n) s = .next s) ∧
  (∀ (s : State) (n : Nat), s.island.onVkeep = true → noFeed s = false → ∃ t, exec (.islandReturn n) s = .next t ∧
    t.island.onVkeep = false ∧ t.time.backup = s.time.backup + soscNs n ∧
    t.island.outages = s.island.outages ++ [s.time.backup + soscNs n] ∧
    (s.island.trip ≠ none → t.regs = s.regs ∧ t.weir = s.weir) ∧
    (s.island.trip = none → t.weir.active = .a ∧ t.weir.failedA = false ∧ t.weir.failedB = false ∧
      (s.start.held = false → stage t = 1 ∧ (domState s (domTile 4) = 0 → domState t (domTile 4) = 1) ∧
        (domState s (domWeir .a) = 0 → domState t (domWeir .a) = 1)))) ∧
  (∀ (s : State), (s.island.onVkeep = false → exec .vkeepLost s = .next s) ∧
    (s.island.onVkeep = true → ∃ t, exec .vkeepLost s = .next t ∧ t.faults.log = [] ∧ t.parts = [] ∧ t.far = [] ∧
      t.time.backupValid = false ∧ t.island.keys = [] ∧ t.island.egress = [] ∧ t.island.trip = none ∧ t.island.onVkeep = true ∧
      t.island.lost = true ∧ t.flash = s.flash ∧ t.record = s.record)) ∧
  (∀ (s : State) (u : Nat) (x y : BitVec 16), (s.island.trip ≠ none ∨ (s.island.onVkeep = true ∧ switchedNow s = false) ∨ sensorBroken s u = true ∨
      x.toInt < 1840 ∨ y.toInt < 1840) → exec (.thermalTrip u x y) s = .next s) ∧
  (∀ (s : State) (u : Nat) (x y : BitVec 16), s.island.trip = none → (s.island.onVkeep = false ∨ switchedNow s = true) →
    sensorBroken s u = false →
    1840 ≤ x.toInt → 1840 ≤ y.toInt → ∃ t r, exec (.thermalTrip u x y) s = .next t ∧ t.island.trip = some r ∧ r.unit = u ∧
      r.first = x ∧ r.second = y ∧ stage t = 0 ∧ t.faults.log = s.faults.log ∧ ∀ d, d < 166 → domState t d = 0) ∧
  (∀ (s : State), (∀ r, s.island.trip = some r → s.island.onVkeep = true → noFeed s = true →
      ∃ t, exec .tripClear s = .next t ∧ t.island.trip = none ∧ t.island.tripped = some r ∧ t.faults = s.faults ∧ t.regs = s.regs) ∧
    ((s.island.trip = none ∨ s.island.onVkeep = false ∨ noFeed s = false) → exec .tripClear s = .next s))

/-- A domain out of voltage fails its unit, an idle core is switched off, and the throttle lowers,
stops and restores cores.  DOMAIN_VOLTAGE_FAULT of a domain that is not on changes nothing; of a
core it fences the core and reports; of a tile everything goes off; every other domain reads
failed. CORE_IDLE_POWER_OFF switches a core off that has been in no partition for 1 s while a Weir
serves, and else changes nothing. THROTTLE_START counts and shows stage 1, reports, and ramps
every powered core that is not strict and above S5 to S5, and turns a ramp up back (that a ramp up
counts for nothing is the model's reading, log 25). THROTTLE_STEP from 20 us on, every 10 us,
lowers by one step the cores that are not strict, or once these stand at S0 the strict ones with a
report for each partition, and once from 500 us on fences every core. THROTTLE_END adds its time
and notes the lowered sites.  (Rests on R549, R574, R575, R580, R581, R582, R583, R642) -/
def Obligations.DomainsFailAndTheThrottleLowersCores : Prop :=
  (∀ (s : State) (d : Fin 166), domOn s d = false → exec (.domainVoltageFault d) s = .next s) ∧
  (∀ (s : State) (d : Fin 166), domOn s d = true → ∃ t, exec (.domainVoltageFault d) s = .next t ∧
    (¬ (154 ≤ d.val ∧ d.val ≤ 162) → domState t d = 3) ∧
    (154 ≤ d.val → d.val ≤ 162 → stage t = 0 ∧ ∀ k, k < 166 → domState t k = 0) ∧
    (d.val < 64 → (core t d).fenced = true ∧ regBit t Reg.powerFlags 3 = true ∧
      ∃ r ∈ t.faults.inTransit, r.cls = 1 ∧ r.code = 5 ∧ r.unit = unitNo 0x12 d)) ∧
  (∀ (s : State) (c : CoreNo),
    ((∀ a, (core s c).idleSince = some a → partOfCore s c ≠ 0xFF ∨ s.time.now < a + 1000000000 ∨ weirServes s = false ∨
      domState s (domCore c) = 0 ∨ domState s (domCore c) = 3) → exec (.coreIdlePowerOff c) s = .next s) ∧
    (∀ a, (core s c).idleSince = some a → partOfCore s c = 0xFF → a + 1000000000 ≤ s.time.now → weirServes s = true →
      domState s (domCore c) ≠ 0 → domState s (domCore c) ≠ 3 → ∃ t, exec (.coreIdlePowerOff c) s = .next t ∧
        domState t (domCore c) = 0 ∧ (core t c).rampTo = none ∧ t.mem = s.mem ∧ (∀ k, k ≠ c.val → core t k = core s k) ∧
        ∀ k, k < 64 → k ≠ c.val → domState t (domCore k) = domState s (domCore k))) ∧
  (∀ (s : State) (f : Feed), (feedIsGood s f = false ∨ s.power.throttleFrom ≠ none) → exec (.throttleStart f) s = .next s) ∧
  (∀ (s : State) (f : Feed), feedIsGood s f = true → s.power.throttleFrom = none → ∃ t r, exec (.throttleStart f) s = .next t ∧
    t.power.throttleFrom = some s.time.now ∧ t.power.lowerAt = s.time.now + 20000 ∧ regBit t Reg.powerStat 3 = true ∧ field t Reg.powerStat 6 4 = 1 ∧
    regBit t Reg.powerFlags 2 = true ∧ reg t Reg.powerThrottles = (reg s Reg.powerThrottles + 1) % 2 ^ 64 ∧
    t.faults.inTransit = s.faults.inTransit ++ [r] ∧ r.cls = 1 ∧ r.code = 3 ∧ r.unit = unitNo 0x11 (feedNo f) ∧
    ∀ c, c < 64 → heading (core t c) =
      if corePowered s c && isFree s c && (decide (5 < heading (core s c)) || decide ((core s c).step < heading (core s c))) then
        minNat 5 (minNat (core s c).step (heading (core s c))) else heading (core s c)) ∧
  (∀ (s : State) (f : Feed), s.power.throttleFrom = none → exec (.throttleStep f) s = .next s ∧ exec .throttleEnd s = .next s) ∧
  (∀ (s : State) (f : Feed) (a : Nat), s.power.throttleFrom = some a →
    ((feedIsGood s f = false ∨ s.power.stage = 4 ∨ (s.time.now < a + 500000 ∧ s.time.now < s.power.lowerAt)) →
      exec (.throttleStep f) s = .next s) ∧
    (feedIsGood s f = true → s.power.stage ≠ 4 → a + 500000 ≤ s.time.now → ∃ t, exec (.throttleStep f) s = .next t ∧
      field t Reg.powerStat 6 4 = 4 ∧ t.power.stage = 4 ∧ (∀ c, c < 64 → (core t c).fenced = true) ∧
      ∃ r ∈ t.faults.inTransit, r.cls = 1 ∧ r.code = 6) ∧
    (feedIsGood s f = true → s.power.stage ≠ 4 → s.time.now < a + 500000 → s.power.lowerAt ≤ s.time.now →
      ((∃ c, c < 64 ∧ corePowered s c = true ∧ isFree s c = true ∧ 0 < heading (core s c)) →
        ∃ t, exec (.throttleStep f) s = .next t ∧ t.mem = s.mem ∧ t.faults = s.faults ∧ t.power.lowerAt = s.time.now + 10000 ∧
          field t Reg.powerStat 6 4 = maxNat 2 s.power.stage % 8 ∧ ∀ c, c < 64 →
            heading (core t c) = if corePowered s c && isFree s c && decide (0 < heading (core s c)) then
              minNat (core s c).step (heading (core s c)) - 1 else heading (core s c)) ∧
      ((∀ c, c < 64 → corePowered s c = true → isFree s c = true → heading (core s c) = 0) →
        ∃ t, exec (.throttleStep f) s = .next t ∧ t.mem = s.mem ∧ (∀ c, c < 64 →
            heading (core t c) = if corePowered s c && isStrict s c && decide (0 < heading (core s c)) then
              minNat (core s c).step (heading (core s c)) - 1 else heading (core s c)) ∧
          (∀ c, c < 64 → corePowered s c = true → isStrict s c = true → 0 < heading (core s c) →
            t.power.lowerAt = s.time.now + 10000 ∧
            ∃ r ∈ t.faults.inTransit, r.cls = 1 ∧ r.code = 3 ∧ r.part = partOfCore s c)))) ∧
  (∀ (s : State) (a : Nat), s.power.throttleFrom = some a → ∃ t, exec .throttleEnd s = .next t ∧ t.power.throttleFrom = none ∧
    t.power.restore = loweredSites s ∧ t.power.restoreAt = s.time.now + 10000000 ∧ regBit t Reg.powerStat 3 = false ∧
    field t Reg.powerStat 6 4 = 0 ∧ reg t Reg.powerThrottleNs = (reg s Reg.powerThrottleNs + (s.time.now - a)) % 2 ^ 64 ∧
    t.cores = s.cores ∧ t.mem = s.mem)

/-- Springs lock, fail and give way to spares, domains become ready, and the reset pin holds the
module in reset until its release.  Where a start's stage ends with these commands it moves on
(advanceStart): stage 1 with its first domains on, stage 3 with the PLLs locked and the tiles on,
stage 5 with its Springs and sites done, stage 8 with its Outlets; else it stands. SPRING_LOCKED
of a Spring that warms lets it feed its position, or switches a spare into the position it
restores while a Weir serves; of another Spring it changes nothing. SPRING_FAILED of a powered
Spring that has not failed switches it off, flags its cause and reports it; at stage 5 its
position takes a spare. SPRING_LOCK_TIMEOUT fails a Spring that warms at stage 5. DOMAIN_READY of
a domain that ramps, or is first switched on at stage 1, brings it on, and of a site port starts
its sideband; of any other it changes nothing. MODULE_RESET_PIN requests a reset and holds the
module; MODULE_RESET_RELEASE ends the hold, and a start that waited for it runs from stage 1.
(Rests on R42, R336, R337, R574, R594, R598, R603, R606, R653) -/
def Obligations.SpringsDomainsAndTheResetPin : Prop :=
  (∀ (s : State),
    (stage s = 1 → (∀ d ∈ firstDomains s, domState s d = 2) → stage (advanceStart s) = 2) ∧
    (InStage s 5 → (List.range 8).all (positionDone s) = true → (List.range 16).all (siteTrained s) = true →
      stage (advanceStart s) = 6) ∧
    (stage s = 8 → startFailed s = false → (∀ o, o < 16 → outletLit s o = true) → stage (advanceStart s) = 9) ∧
    (stage s = 3 → startFailed s = false → pllsLocked s = true → (∀ k, k < 9 → domState s (domTile k) = 2) →
      stage (advanceStart s) = 4 ∧ (∀ i, i < 16 → domState s (domPort i) = 0 → domState (advanceStart s) (domPort i) = 1)) ∧
    (stage s ≠ 1 → stage s ≠ 3 → stage s ≠ 5 → stage s ≠ 8 → advanceStart s = s) ∧
    (stage s = 1 → (∃ d ∈ firstDomains s, domState s d ≠ 2) → advanceStart s = s) ∧
    (stage s = 3 → (startFailed s = true ∨ pllsLocked s = false ∨ ∃ k, k < 9 ∧ domState s (domTile k) ≠ 2) → advanceStart s = s) ∧
    (stage s = 8 → (startFailed s = true ∨ ∃ o, o < 16 ∧ outletLit s o = false) → advanceStart s = s) ∧
    (stage s = 5 → ((List.range 8).all (positionDone s) && (List.range 16).all (siteTrained s)) = false → advanceStart s = s)) ∧
  (∀ (s : State) (n : SpringNo),
    (springState s n ≠ 1 → exec (.springLocked n) s = .next (advanceStart s)) ∧
    (springState s n = 1 → (spring s n).restoring = none → ∃ t, exec (.springLocked n) s = .next (advanceStart t) ∧
      springState t n = (if springPos s n < 8 then 3 else 2) ∧ springPos t n = springPos s n ∧ domState t (domSpring n) = 2 ∧
      regBit t (Reg.springStat n) 0 = true ∧ t.mem = s.mem ∧
      ∀ k, k ≠ Reg.springStat n → k ≠ Reg.powerDomain (domSpring n) → reg t k = reg s k) ∧
    (∀ p, springState s n = 1 → (spring s n).restoring = some p → p < 8 →
      (weirServes s = true → ∃ t, exec (.springLocked n) s = .next (advanceStart t) ∧ springState t n = 3 ∧ springPos t n = p ∧
        (spring t n).restoring = none ∧ t.record.springPos[p]? = some n.val ∧ regBit t (Reg.springFlags n) 3 = true ∧
        ∀ m, m < 10 → m ≠ n.val → springPos s m = p → springPos t m = 0xF) ∧
      (weirServes s = false → ∃ t, exec (.springLocked n) s = .next (advanceStart t) ∧ springState t n = 2 ∧
        (spring t n).restoring = some p))) ∧
  (∀ (s : State) (n : SpringNo) (c : SpringFault), springState s n ≠ 0 → (spring s n).failed = false → ∃ t r,
    exec (.springFailed n c) s = .next (if stage s = 5 ∧ weirServes s = true then advanceStart (takeSpare t fun _ => true) else t) ∧
    springState t n = 4 ∧ (spring t n).failed = true ∧ domState t (domSpring n) = 0 ∧ regBit t (Reg.springFlags n) 2 = true ∧
    (c = .powerLow → regBit t (Reg.springFlags n) 0 = true) ∧ (c = .offGrid → regBit t (Reg.springFlags n) 1 = true) ∧
    reg t (Reg.springBias n) = 0 ∧ t.faults.inTransit = s.faults.inTransit ++ [r] ∧ r.cls = 4 ∧ r.code = 1 ∧ r.unit = unitNo 0x07 n) ∧
  (∀ (s : State) (n : SpringNo) (c : SpringFault), (springState s n = 0 ∨ (spring s n).failed = true) →
    exec (.springFailed n c) s = .next (if stage s = 5 ∧ weirServes s = true then advanceStart (takeSpare s fun _ => true) else s)) ∧
  (∀ (s : State),
    (((List.range 8).find? (positionLost s) = none ∨ spareSpring? s = none) → takeSpare s (fun _ => true) = s) ∧
    (∀ p n, (List.range 8).find? (positionLost s) = some p → spareSpring? s = some n →
      springState (takeSpare s fun _ => true) n = 1 ∧ (spring (takeSpare s fun _ => true) n).restoring = some p ∧
      (∀ m, m < 10 → m ≠ n → springState (takeSpare s fun _ => true) m = springState s m))) ∧
  (∀ (s : State) (n : SpringNo), ((stage s ≠ 5 ∨ springState s n ≠ 1) → exec (.springLockTimeout n) s = .next s) ∧
    (stage s = 5 → springState s n = 1 →
      ∃ t, exec (.springLockTimeout n) s = .next (advanceStart (takeSpare t fun _ => true)) ∧ stage t = 5 ∧
        ((spring s n).failed = true → t = s) ∧
        ((spring s n).failed = false → springState t n = 4 ∧ (spring t n).failed = true ∧ domState t (domSpring n) = 0))) ∧
  (∀ (s : State) (d : Fin 166) (p : Prop), p = (domState s d = 1 ∨ (domState s d = 0 ∧ stage s = 1 ∧ d.val ∈ firstDomains s)) →
    ((¬ p ∨ (144 ≤ d.val ∧ d.val < 154) ∨ (d.val < 64 ∧ (core s d).rampTo ≠ none)) → exec (.domainReady d) s = .next s) ∧
    (p → ¬ (144 ≤ d.val ∧ d.val < 154) → (d.val < 64 → (core s d).rampTo = none) →
      ∃ t, exec (.domainReady d) s = .next (advanceStart t) ∧ domState t d = 2 ∧ t.mem = s.mem ∧ t.cores = s.cores ∧
        stage t = stage s ∧
        (∀ i : SiteNo, d.val = domPort i → regBit t (Reg.abangoStat i) 0 = true ∧ (aba t i).resetN = true ∧
          ∀ e w, s.island.keys = [(16 * i.val + e, w)] → e < 16 → reg t (Reg.basinKey i e) = w))) ∧
  (∀ (s : State), exec .moduleResetPin s = .next { s with start := { s.start with held := true, resetReq := true } }) ∧
  (∀ (s : State), (s.start.held = false → exec .moduleResetRelease s = .next s) ∧
    (s.start.held = true → ∃ t, exec .moduleResetRelease s = .next t ∧ t.start.held = false ∧ t.start.resetReq = s.start.resetReq ∧
      ((s.start.resetReq = true ∨ stage s ≠ 0) → t.regs = s.regs) ∧
      (s.start.resetReq = false → stage s = 0 → s.island.onVkeep = false → s.island.trip = none → noFeed s = false → stage t = 1 ∧
        (domState s (domTile 4) = 0 → domState t (domTile 4) = 1) ∧ (domState s domHost = 0 → domState t domHost = 1) ∧
        (domState s (domWeir s.weir.active) = 0 → domState t (domWeir s.weir.active) = 1))))

/-- Each stage of a start ends as its command says: boot, references, alignment, training, self-test,
calibration, light and ready.  First domains that still ramp are ready (DEDUCED, log 25). At stage
2 WEIR_BOOT of the active Weir with a good slot runs it from that slot and begins stage 3; with
none it marks the Weir, and the other starts or the start holds. At stage 3 REF_SELECT_TIMEOUT
locks every PLL to the good reference, or the start holds. At stage 4 TILE_ALIGNMENT with no
failed tile starts Basin time and begins stage 5, else the start holds. MEMORY_TRAINING of a site
shows it ready, with its pages unwritten and its delay steps stored or trained, or fails the site.
CORE_SELFTEST fences the failed cores, clears the core stores and begins stage 7. CAL_STAGE puts
the open share into service and shows the source of the entries. OUTLET_LIGHT places the lanes,
and the link trains or sleeps. STAGE_BOUND_EXPIRY ends its stage. READY with a usable site sets
READY and DEGRADED, completes destroys; without one the start holds. Outside their stages these
commands change nothing.  (Rests on R59, R604, R605, R607, R608, R609, R611, R612, R613, R614,
R615, R65) -/
def Obligations.StartStagesTakeEffect : Prop :=
  (∀ (s u : State) (w : Weir) (g0 g1 rec : Bool),
    u = (if stage s = 1 ∨ stage s = 2 then advanceStart (settleDomains s (firstDomains s)) else s) →
    (stage u ≠ 2 ∨ startFailed u = true ∨ u.weir.running = true ∨ w ≠ u.weir.active ∨ domState u (domWeir w) ≠ 2) →
    exec (.weirBoot w g0 g1 rec) s = .next u) ∧
  (∀ (s u : State) (w : Weir) (g0 g1 rec : Bool) (slot : Nat),
    u = (if stage s = 1 ∨ stage s = 2 then advanceStart (settleDomains s (firstDomains s)) else s) → stage u = 2 →
    startFailed u = false → u.weir.running = false → w = u.weir.active → domState u (domWeir w) = 2 →
    slot = (if w = .a then u.weir.slotA else u.weir.slotB) →
    (∀ k, bootFrom slot g0 g1 = some k → ∃ t, exec (.weirBoot w g0 g1 rec) s = .next t ∧ t.weir.running = true ∧
      t.weir.runSlot = k ∧ stage t = 3 ∧ regBit t Reg.clockCtrl 0 = true ∧ t.island.outages = [] ∧ t.island.lost = false ∧
      t.record = (if rec then u.record else .reset) ∧ t.maint.smbAddr = some (0x60 + Config.gaPins.toNat) ∧
      reg t Reg.globalFw = 3 * 2 ^ 24 + 2 * 2 ^ 16 + Config.fwPatch.toNat * 2 ^ 8) ∧
    (bootFrom slot g0 g1 = none → ∃ t, exec (.weirBoot w g0 g1 rec) s = .next t ∧ weirFailed t w = true ∧ stage t = 2 ∧
      t.weir.running = false ∧ domState t (domWeir w) = 0 ∧
      (weirFailed u (otherWeir w) = true → startFailed t = true) ∧
      (weirFailed u (otherWeir w) = false → startFailed t = false ∧ t.weir.active = otherWeir w))) ∧
  (∀ (s : State) (l : Bool), ¬ InStage s 3 → exec (.refSelectTimeout l) s = .next s) ∧
  (∀ (s : State) (l a b : Bool), InStage s 3 → a = regBit s Reg.clockRefstat 2 → b = regBit s Reg.clockRefstat 3 →
    ((a = false → b = false → ∃ t, exec (.refSelectTimeout l) s = .next t ∧ startFailed t = true ∧ stage t = 3) ∧
    ((a || b) = true → l = false → ∃ t, exec (.refSelectTimeout l) s = .next t ∧ startFailed t = true ∧ stage t = 3) ∧
    ((a || b) = true → l = true → ∃ t, exec (.refSelectTimeout l) s = .next t ∧ startFailed t = false ∧
      ∀ p, p < 10 → regBit t Reg.clockPllstat (16 + p) = true ∧
        tget 0 t.clock.pllRef p = (if a && b then (if p = 9 then 1 else 0) else if a then 0 else 1)))) ∧
  (∀ (s : State) (f : BitVec 9) (ds : List Nat), (¬ (InStage s 3 ∨ InStage s 4) ∨ s.time.running = true) →
    exec (.tileAlignment f ds) s = .next s) ∧
  (∀ (s u : State) (f : BitVec 9) (ds : List Nat), (InStage s 3 ∨ InStage s 4) → s.time.running = false →
    u = advanceStart (settleDomains s tiles) →
    (stage u ≠ 4 → exec (.tileAlignment f ds) s = .next u) ∧
    (stage u = 4 → f ≠ 0 → ∃ t r, exec (.tileAlignment f ds) s = .next t ∧ startFailed t = true ∧ stage t = 4 ∧ t.time = s.time ∧
      r ∈ t.faults.inTransit ∧ r.cls = 2 ∧ r.code = 4) ∧
    (stage u = 4 → f = 0 → ∃ t, exec (.tileAlignment f ds) s = .next t ∧ stage t = 5 ∧ startFailed t = false ∧ t.time.running = true ∧
      t.time.now = (if s.time.backupValid then islandTime s else 0) ∧
      (s.time.backupValid = false → regBit t Reg.timeStat 2 = true))) ∧
  (∀ (s : State) (i : SiteNo) (x y : Bool) (ls : List (Dir × Fin 1000 × Fin 64)),
    (¬ InStage s 5 ∨ siteFailed s i = true ∨ field s (Reg.memCfg i) 1 0 = 3) → exec (.memoryTraining i x ⟨y, ls⟩) s = .next s) ∧
  (∀ (s : State) (i : SiteNo) (x y : Bool) (ls : List (Dir × Fin 1000 × Fin 64)), InStage s 5 → siteFailed s i = false →
    field s (Reg.memCfg i) 1 0 ≠ 3 → ∃ t, exec (.memoryTraining i x ⟨y, ls⟩) s = .next (advanceStart t) ∧ stage t = 5 ∧
      ((x && y) = true → siteFailed t i = false ∧ field t (Reg.memCfg i) 1 0 = 3 ∧ regBit t (Reg.memCfg i) 4 = true ∧
        (∀ a, paged a = true → ownerSite a = i → byteAt t a = 0) ∧
        (∀ d g v, ls = [(d, g, v)] → delayStep t i d g =
          if v.val ≤ storedDelay t i d g + 2 ∧ storedDelay t i d g ≤ v.val + 2 then storedDelay t i d g else v.val)) ∧
      ((x && y) = false → siteFailed t i = true)) ∧
  (∀ (s : State) (f : BitVec 64), (¬ InStage s 6 → exec (.coreSelftest f) s = .next s) ∧
    (InStage s 6 → ∃ t, exec (.coreSelftest f) s = .next t ∧ stage t = 7 ∧
      (∀ c, c < 64 → siteFailed s (c / 4) = false → bit f.toNat c = true → (core t c).fenced = true) ∧
      (∀ a, coreBase 0 ≤ a → a < coreBase 64 → byteAt t a = 0) ∧ ∃ x ∈ t.acts, x.opcode = opCa ∧ x.mode = .running)) ∧
  (∀ (s : State) (fs rs : List Nat), (¬ InStage s 7 ∨ s.acts.find? (fun a => a.opcode == opCa && a.mode == .running) = none) → exec (.calStage fs rs) s = .next s) ∧
  (∀ (s : State) (fs rs : List Nat) (a : Activity), InStage s 7 →
    s.acts.find? (fun a => a.opcode == opCa && a.mode == .running) = some a →
    ∃ t, exec (.calStage fs rs) s = .next t ∧ (stage t = 8 ∨ stage t = 9) ∧ (∀ y ∈ t.acts, y.num ≠ a.num) ∧
      regBit t Reg.globalStat 8 = !(a.addr == 0 || decide (256 < ((fs.filter (· < 4096)).eraseDups).length)) ∧
      ∀ i, i < 16 → siteFailed s i = false → regBit t (Reg.basinStat i) 1 = true) ∧
  (∀ (s : State) (o : OutletNo) (c : Bool), (stage s ≠ 8 ∨ startFailed s = true ∨ outletLit s o = true) →
    exec (.outletLight o c) s = .next s) ∧
  (∀ (s : State) (o : OutletNo) (c : Bool), stage s = 8 → startFailed s = false → outletLit s o = false →
    ∃ t, exec (.outletLight o c) s = .next t ∧ field t (Reg.linkLanes o) 14 0 = 0x3210 ∧ (link t o).cabled = c ∧
      linkStateOf t o = (if !c || (hasCoord s && flatLink s o) then 5 else 1)) ∧
  (∀ (s : State) (m : BitVec 16), ((startFailed s = true ∨ weirServes s = false ∨ stage s < 5 ∨ 8 < stage s) →
      exec (.stageBoundExpiry m) s = .next s) ∧
    (InStage s 5 → ∃ t, exec (.stageBoundExpiry m) s = .next t ∧ stage t = 6 ∧
      ∀ i, i < 16 → field s (Reg.memCfg i) 1 0 ≠ 3 → siteFailed t i = true) ∧
    (InStage s 6 → ∃ t, exec (.stageBoundExpiry m) s = .next t ∧ stage t = 7 ∧
      ∀ c, c < 64 → siteFailed s (c / 4) = false → bit m.toNat (c / 4) = true → (core t c).fenced = true) ∧
    (InStage s 7 → (∃ a ∈ s.acts, a.opcode = opCa ∧ a.mode = .running) → ∃ t, exec (.stageBoundExpiry m) s = .next t ∧
      (stage t = 8 ∨ stage t = 9)) ∧
    (InStage s 7 → (∀ a ∈ s.acts, ¬ (a.opcode = opCa ∧ a.mode = .running)) → exec (.stageBoundExpiry m) s = .next s) ∧
    (InStage s 8 → ∃ t, exec (.stageBoundExpiry m) s = .next t ∧ stage t = 9)) ∧
  (∀ (s : State), (¬ InStage s 9 ∨ regBit s Reg.globalStat 5 = true) → exec .ready s = .next s) ∧
  (∀ (s : State), InStage s 9 → regBit s Reg.globalStat 5 = false →
    (someUsable (restoreParts s) = true → ∃ t, exec .ready s = .next t ∧ regBit t Reg.globalStat 5 = true ∧
      regBit t Reg.globalStat 6 = anyFailed (restoreParts s) ∧ t.island.vkeepUsed = false ∧
      ∀ p, (part s p).mode = .destroying → (part t p).mode = .absent) ∧
    (someUsable (restoreParts s) = false → ∃ t, exec .ready s = .next t ∧ startFailed t = true ∧ stage t = 9 ∧
      regBit t Reg.globalStat 5 = false))

/-- The period timer triggers rounds, and a round that ends publishes its values, marks broken
sensors, moves bands and starts a latched round.  HOUSEKEEPING_PERIOD before 2.048 ms have passed,
or while tile 4 is off, changes nothing; then, in a tick without another trigger, it starts a
round, is latched while one runs, or is counted as lost. HOUSEKEEPING_ROUND_END without a round,
or before its 2.048 ms have passed, changes nothing. Else it counts the round; a channel from 16
to 113 whose source is powered and whose sensor is not broken reads its reading; a temperature out
of range marks the sensor broken, reports it and reads no value; the feeds read their voltage and
power; the band of a Spring and of an HBM stack with a valid reading moves by the rule of R588;
and a latched trigger starts the next round. The numbers of sensors beyond a stack's sixteen are
the model's choice (log 26).  (Rests on R229, R355, R579, R584, R585, R586, R587, R588, R590,
R639) -/
def Obligations.HousekeepingRoundsPublishAndDecide : Prop :=
  (∀ (s : State), (domOn s (domTile 4) = false ∨ s.time.now < s.house.started + 2048000 ∨ s.house.trigTick = some (tickOf s)) →
    exec .housekeepingPeriod s = .next s) ∧
  (∀ (s : State), domOn s (domTile 4) = true → s.house.started + 2048000 ≤ s.time.now → s.house.trigTick ≠ some (tickOf s) →
    ∃ t, exec .housekeepingPeriod s = .next t ∧ t.house.trigTick = some (tickOf s) ∧ t.mem = s.mem ∧
      (s.house.running = false → t.house.running = true ∧ t.house.started = s.time.now ∧ regBit t Reg.houseStat 0 = true) ∧
      (s.house.running = true → s.house.latched = false → t.house.latched = true ∧ t.house.started = s.house.started ∧
        regBit t Reg.houseStat 1 = true) ∧
      (s.house.running = true → s.house.latched = true → t.house.latched = true ∧
        reg t Reg.houseLost = (reg s Reg.houseLost + 1) % 2 ^ 64)) ∧
  (∀ (s : State) (rs : List RoundReading) (ms : List MonReading) (vs : List (SiteNo × Dir × Fin 1000)), (s.house.running = false ∨
    s.time.now < s.house.started + 2048000) → exec (.housekeepingRoundEnd rs ms vs) s = .next s) ∧
  (∀ (s : State) (rs : List RoundReading) (ms : List MonReading) (vs : List (SiteNo × Dir × Fin 1000)), s.house.running = true →
    s.house.started + 2048000 ≤ s.time.now → ∃ t, exec (.housekeepingRoundEnd rs ms vs) s = .next t ∧ t.mem = s.mem ∧ t.house.running = s.house.latched ∧
      regBit t Reg.houseStat 0 = s.house.latched ∧ reg t Reg.houseRound = (reg s Reg.houseRound + 1) % 2 ^ 64 ∧
      (∀ c r, 16 ≤ c → c < 114 → chanPowered s c = true → chanBroken s c = false → reading? rs c = some r →
        ((tempChan c = false ∨ outOfRange r.word0.toInt = false) → reg t (Reg.houseValue c) = r.word0.toNat) ∧
        (tempChan c = true → outOfRange r.word0.toInt = true → regBit t (Reg.houseBroken (c / 32)) (c % 32) = true ∧
          reg t (Reg.houseValue c) = 0x80000000 ∧ ∃ q ∈ t.faults.inTransit, q.cls = 13 ∧ q.code = 1 ∧ q.unit = sensorUnit c)) ∧
      (∀ c, 16 ≤ c → c < 280 → chanPowered s c = false → reg t (Reg.houseValue c) = 0x80000000) ∧
      (∀ v i, s.power.goodA = true → reading? rs 103 = some v → reading? rs 104 = some i →
        reg t Reg.powerFeedA = minNat (v.word0.toNat / 10) 65535 * 2 ^ 16 +
          minNat (v.word0.toNat * i.word0.toNat / 1000000) 65535) ∧
      (∀ n r, n < 10 → domOn s (domSpring n) = true → chanBroken s (73 + 3 * n) = false → reading? rs (73 + 3 * n) = some r →
        outOfRange r.word0.toInt = false →
        (field t (Reg.springStat n) 17 16, (spring t n).fall) =
          nextBand (field s (Reg.springStat n) 17 16) (spring s n).fall r.word0.toInt) ∧
      (∀ i r, i < 16 → domOn s (domHbm i) = true → chanBroken s (16 + i) = false → reading? rs (16 + i) = some r →
        outOfRange r.word0.toInt = false →
        (site t i).wantBand = (nextBand (site s i).wantBand (fallOf s i 2) r.word0.toInt).1))

/-- MCTP requests are answered by the Weir that serves, and JTAG instructions shift out what they read
with no Weir.  While no Weir serves, an MCTP request changes nothing. Else GET_STATUS answers the
five registers, GET_SENSORS the published values or MALFORMED, LOG_READ of 1 to 4 entries marks
them read and answers them, LOG_COUNTERS answers the counters, and MODULE_RESET requests a reset
only with the low half of the serial number. The control commands answer in DSP0236's form (log
27). BYPASS delays by one bit, IDCODE shifts out the code, SAMPLE/PRELOAD the pins, STATUS_RD
GLOBAL_STAT and FAULT_WEIR, LOG_RD one entry of the log; EXTEST drives the pins, and leaving it
requests a module reset.  (Rests on R545, R596, R656, R657, R661) -/
def Obligations.ManagementBusAndJtagAnswer : Prop :=
  (∀ (s : State) (f n : Nat) (c : Word) (e : Byte), weirServes s = false → ∀ i ∈ ([.getStatus, .getSensors f n, .mctpLogRead f n,
      .mctpLogCounters, .mctpModuleReset c, .setEndpointId e, .getEndpointId, .getMctpVersionSupport, .getMessageTypeSupport,
      .getVendorDefinedMessageSupport] : List Instr), exec i s = .next s) ∧
  (∀ (s : State), weirServes s = true →
    (exec .getStatus s = .next (emit s (.mctp (0 :: (leBytes 4 (regView s Reg.globalStat) ++ leBytes 4 (regView s Reg.globalFw) ++
      leBytes 4 (regView s Reg.faultWeir) ++ leBytes 4 (regView s Reg.powerStat) ++ leBytes 4 (regView s Reg.fabricStat)))))) ∧
    (∀ f n, 1 ≤ n → n ≤ 32 → f + n ≤ 512 → exec (.getSensors f n) s =
      .next (emit s (.mctp (0 :: (List.range n).flatMap fun k => leBytes 8 (reg s (Reg.houseValue (f + k))))))) ∧
    (∀ f n, (n = 0 ∨ 32 < n ∨ 512 < f + n) → exec (.getSensors f n) s = .next (emit s (.mctp [1]))) ∧
    (∀ f n es, 1 ≤ n → n ≤ 4 → es = logFrom s (f % 2 ^ 32) n → ∃ t, exec (.mctpLogRead f n) s = .next t ∧
      t.out = s.out ++ [.mctp (0 :: (leBytes 1 es.length ++ leBytes 4 (reg s Reg.faultLogOldest) ++ leBytes 4 (logNextAfter s es) ++
        es.flatMap logBytes))] ∧ t.faults.log.map (·.body) = s.faults.log.map (·.body) ∧
      ∀ e ∈ t.faults.log, (∃ g ∈ es, g.number = e.number) → e.read = true) ∧
    (∀ f n, (n = 0 ∨ 4 < n) → exec (.mctpLogRead f n) s = .next (emit s (.mctp [1]))) ∧
    (exec .mctpLogCounters s = .next (emit s (.mctp (0 :: counterBytes s))) ∧ (counterBytes s).length = 160) ∧
    (∀ c : Word, (c.toNat = Config.serial.toNat % 2 ^ 32 → ∃ t, exec (.mctpModuleReset c) s = .next t ∧ t.start.resetReq = true ∧
        t.out = s.out ++ [.mctp [0]] ∧ t.mem = s.mem ∧ t.regs = s.regs) ∧
      (c.toNat ≠ Config.serial.toNat % 2 ^ 32 → exec (.mctpModuleReset c) s = .next (emit s (.mctp [3])))) ∧
    (∀ e : Byte, e ≠ 0 → e ≠ 0xFF → ∃ t u, exec (.setEndpointId e) s = .next t ∧ t.maint.eid = e.toNat ∧
      t.out = s.out ++ [.mctp [0, 0, e, 0]] ∧ exec .getEndpointId t = .next u ∧ u.out = t.out ++ [.mctp [0, e, 0, 0]]) ∧
    (∀ e : Byte, (e = 0 ∨ e = 0xFF) → exec (.setEndpointId e) s = .next (emit s (.mctp [2]))) ∧
    (∃ t, exec .getMctpVersionSupport s = .next t ∧ t.out = s.out ++ [.mctp [0, 1, 0xF1, 0xF3, 0xF0, 0]]) ∧
    (∃ t, exec .getMessageTypeSupport s = .next t ∧ t.out = s.out ++ [.mctp [0, 1, 0x7E]]) ∧
    (∃ t a b, exec .getVendorDefinedMessageSupport s = .next t ∧ t.out = s.out ++ [.mctp [0, 0xFF, 0, a, b, 0, 0]] ∧
      256 * a.toNat + b.toNat = Config.pciVendorId.toNat)) ∧
  (∀ (s : State) (bs : List Bool), ∃ t, exec (.bypass bs) s = .next t ∧ t.maint.ir = irBypass ∧
    ∃ o, t.out = s.out ++ [.jtag o] ∧ o.length = bs.length ∧ ∀ k, k < bs.length → o[k]? = if k = 0 then some false else bs[k - 1]?) ∧
  (∀ (s : State), ∃ t, exec .idcode s = .next t ∧ t.out = s.out ++ [.jtag (bitsOf 32 idcodeValue)] ∧ t.regs = s.regs) ∧
  (∀ (s : State) (p d : BitVec 80), ∃ t, exec (.samplePreload p d) s = .next t ∧ t.maint.pinDrive = d ∧
    ∃ o, t.out = s.out ++ [.jtag o] ∧ o.length = 80 ∧ ∀ k, k < 80 → o[k]? = some (p.getLsbD k)) ∧
  (∀ (s : State) (d : BitVec 80) (l : Bool), ∃ t, exec (.extest d l) s = .next t ∧ t.maint.pinDrive = d ∧ t.maint.extest = !l ∧
    t.start.resetReq = (s.start.resetReq || l) ∧ t.out = s.out ∧ t.mem = s.mem ∧ t.regs = s.regs) ∧
  (∀ (s : State) (bs : List Bool) (p d : BitVec 80) (n : Nat), s.maint.extest = true →
    ∀ i ∈ ([.bypass bs, .idcode, .samplePreload p d, .statusRd, .logRd n] : List Instr),
    ∃ t, exec i s = .next t ∧ t.start.resetReq = true ∧ t.maint.extest = false) ∧
  (∀ (s : State), ∃ t, exec .statusRd s = .next t ∧ t.maint.ir = irStatus ∧
    t.out = s.out ++ [.jtag (bitsOf 32 (regView s Reg.globalStat) ++ bitsOf 32 (regView s Reg.faultWeir))]) ∧
  (∀ (s : State) (n : Nat) (e : LogEntry), s.faults.log.find? (fun e => e.number == n) = some e →
    ∃ t o, exec (.logRd n) s = .next t ∧ t.out = s.out ++ [.jtag o] ∧ o.length = 512 ∧ t.faults = s.faults ∧
      ∀ k, k < 512 → o[k]? = some (((logBytes e)[k / 8]?.getD 0).getLsbD (k % 8))) ∧
  (∀ (s : State) (n : Nat), (∀ e ∈ s.faults.log, e.number ≠ n) → ∃ t, exec (.logRd n) s = .next t ∧ t.maint.ir = irLog ∧
    t.faults = s.faults)

/-- The console gathers lines of bytes, answers lines that hold no command, and executes its six
commands in the order of the lines.  While no Weir serves, bytes are lost and the commands change
nothing. UART_FRAME adds a byte, with its framing flag, to a line of up to 129; CR or LF ends a
line that is not empty, which waits if it holds a command and otherwise answers ERR, or ERR
FRAMING where a byte is flagged. UART_BREAK discards the line and returns to 115,200 baud. A
command of the oldest line that waits answers its values in one or more lines and then OK, and the
line is gone; a line of another command stays. CONSOLE_BAUD then takes up its rate. An empty line
and the fixed widths of the values are the model's choice (log 27).  (Rests on R542, R545, R658,
R659, R660) -/
def Obligations.ConsoleTakesLinesAndAnswersThem : Prop :=
  (∀ (s : State), weirServes s = false → (∀ b e, exec (.uartFrame b e) s = .next s) ∧
    ∀ i ∈ ([.consoleVer, .consoleStat, .consoleSensors, .consoleLog, .consoleCounters, .consoleBaud] : List Instr), exec i s = .next s) ∧
  (∀ (s : State) (b : Byte) (e : Bool), weirServes s = true → (e = true ∨ (b ≠ 13 ∧ b ≠ 10)) →
    (s.maint.line.length < 129 → ∃ t, exec (.uartFrame b e) s = .next t ∧
      t.maint.line = s.maint.line ++ [b.toNat + if e then 256 else 0] ∧ t.maint.lines = s.maint.lines ∧ t.out = s.out) ∧
    (129 ≤ s.maint.line.length → exec (.uartFrame b e) s = .next s)) ∧
  (∀ (s : State) (b : Byte) (l : List Nat), weirServes s = true → (b = 13 ∨ b = 10) → s.maint.line = l →
    (l = [] → exec (.uartFrame b false) s = .next s) ∧
    (l ≠ [] → s.maint.lines = [] → ∃ t, exec (.uartFrame b false) s = .next t ∧ t.maint.line = [] ∧ t.mem = s.mem ∧ t.regs = s.regs ∧
      ((parseLine? l).isSome = true → t.maint.lines = [l] ∧ t.out = s.out) ∧
      (parseLine? l = none → t.maint.lines = [] ∧
        ((∃ c ∈ l, 256 ≤ c) → t.out = s.out ++ [.console ['E', 'R', 'R', ' ', 'F', 'R', 'A', 'M', 'I', 'N', 'G']]) ∧
        ((∀ c ∈ l, c < 256) → t.out = s.out ++ [.console ['E', 'R', 'R']])))) ∧
  (∀ (s : State), ∃ t, exec .uartBreak s = .next t ∧ t.maint.line = [] ∧ t.maint.baud = 115200 ∧ t.maint.lines = s.maint.lines ∧
    t.out = s.out ∧ t.regs = s.regs) ∧
  (∀ (s : State) (l : List Nat) (ls : List (List Nat)) (c : ConCmd) (f n : Nat), weirServes s = true → s.maint.lines = l :: ls →
    parseLine? l = some (c, f, n) → (∀ m, ls.head? = some m → (parseLine? m).isSome = true) →
    (c = .ver → ∃ t o, exec .consoleVer s = .next t ∧ t.maint.lines = ls ∧ t.out = s.out ++ [.console o, .console ['O', 'K']] ∧
      o = spaced [hex 8 (reg s Reg.globalFw), hex 16 Config.serial.toNat, hex 2 (field s Reg.globalIdent 15 8),
        hex 1 (weirNo s.weir.active)]) ∧
    (c = .stat → ∃ t o, exec .consoleStat s = .next t ∧ t.maint.lines = ls ∧ t.out = s.out ++ [.console o, .console ['O', 'K']] ∧
      o = spaced ([Reg.globalStat, Reg.globalFw, Reg.faultWeir, Reg.powerStat, Reg.fabricStat].map fun r => hex 8 (regView s r))) ∧
    (c = .sensors → ∃ (t : State) (os : List (List Char)), exec .consoleSensors s = .next t ∧ t.maint.lines = ls ∧ os.length = n ∧
      t.out = s.out ++ (os.map fun o => .console o) ++ [.console ['O', 'K']] ∧
      ∀ k, k < n → os[k]? = some (spaced [hex 8 (reg s (Reg.houseValue (f + k))), hex 8 (reg s (Reg.houseValue (f + k)) / 2 ^ 32)])) ∧
    (c = .log → ∃ t, exec .consoleLog s = .next t ∧ t.maint.lines = ls ∧ t.faults = s.faults ∧
      t.out = s.out ++ ((logFrom s f n).map fun e => .console (spaced ((logWords e).map (hex 16)))) ++ [.console ['O', 'K']]) ∧
    (c = .counters → ∃ t o, exec .consoleCounters s = .next t ∧ t.maint.lines = ls ∧
      t.out = s.out ++ [.console o, .console ['O', 'K']] ∧ t.regs = s.regs) ∧
    (c = .baud → ∃ t, exec .consoleBaud s = .next t ∧ t.maint.lines = ls ∧ t.out = s.out ++ [.console ['O', 'K']] ∧
      t.maint.baud = f) ∧
    (c ≠ .baud → exec .consoleBaud s = .next s) ∧ (c ≠ .ver → exec .consoleVer s = .next s)) ∧
  (∀ b, b ∈ [115200, 230400, 460800, 921600, 1000000, 2000000, 3000000] ↔
    ∃ l m, parseLine? l = some (.baud, b, m))

/-- A step takes the command at the front of the queue and gives it its effect with the rest of the
queue.  For every state whose queue begins with a command, the step is exec of that command on the
state with the rest of the queue. The queue is the model's own (first in, first out): how commands
reach the block is not the manual's (log 1).  (Rests on R70, R476) -/
def Obligations.FrontCommandRuns : Prop :=
  ∀ (s : State) (c : Instr) (rest : List Instr), s.pending = c :: rest → step s = exec c { s with pending := rest }

/-- On an empty queue the step is one cycle of the backbone clock, which ends the tick whose boundary
it passes (the model's choice, log 1).  With no command waiting the step completes: it is one
cycle of the backbone clock, and where the cycle passes a tick boundary, what happens at the
boundary, as by TICK_END, follows. The cycle changes nothing but the time: while a slew withholds
the cycle the master stands, and else it gains 1 ns, and 7,282 of 65,536 parts of one more while
PLL 0 coasts. That the idle step is such a cycle is the model's choice (log 1).  (Rests on R61,
R64, R73) -/
def Obligations.EmptyQueueRunsBackboneCycle : Prop :=
  (∀ (s : State), s.pending = [] →
    (tickOf (backboneCycle s) = tickOf s → step s = .next (backboneCycle s)) ∧
    (tickOf (backboneCycle s) ≠ tickOf s → step s = .next (atBoundary (tickOf s) (backboneCycle s)))) ∧
  (∀ (s : State), exec .tickEnd s = .next (atBoundary (tickOf s) (toBoundary s))) ∧
  (∀ (s : State), { backboneCycle s with time := s.time } = s ∧
    (s.time.hold = true → (backboneCycle s).time = { s.time with hold := false }) ∧
    (s.time.hold = false → (backboneCycle s).time.hold = false ∧ (backboneCycle s).time.frac < 65536 ∧
      65536 * (backboneCycle s).time.now + (backboneCycle s).time.frac =
        65536 * (s.time.now + 1) + s.time.frac % 65536 + if coasting s then 7282 else 0))

/-- The machine right after a cold start has the reset values that the manual gives.  At reset the
queue is empty, the start stands at stage 1 and no bit of START_FAILED or READY is set,
GLOBAL_IDENT holds 0x16A101, every domain is off, Basin time does not run, Weir A is active and no
Weir runs, no page is written and every byte reads zero, every core is idle and its counters are
enabled, no context, partition, queue pair, far-window slot or log entry exists, every link lane
is unassigned, and the console is at 115,200 baud. A value the manual does not give is not stated
here (log 2).  (Rests on R118, R252, R438, R464, R596, R603, R618, R630, R631, R658, R28, R245) -/
def Obligations.ResetValuesOfTheSpec : Prop :=
  State.reset.pending = [] ∧ stage State.reset = 1 ∧ startFailed State.reset = false ∧ regBit State.reset Reg.globalStat 5 = false ∧
  reg State.reset Reg.globalIdent = 0x16A101 ∧ (∀ d : Fin 166, domState State.reset d = 0) ∧ State.reset.time.running = false ∧
  State.reset.weir.active = .a ∧ State.reset.weir.running = false ∧ (∀ a, byteAt State.reset a = 0) ∧
  (∀ c : Fin 64, reg State.reset (Reg.cperfCtl c) = 1 ∧ regBit State.reset (Reg.cperfStat c) 7 = true ∧
    (core State.reset c).running = none) ∧
  State.reset.contexts = [] ∧ (∀ p, (part State.reset p).mode = .absent) ∧ (∀ q, (qp State.reset q).mode = 0) ∧
  (∀ n, (farSlot State.reset n).valid = false) ∧ State.reset.faults.log = [] ∧
  (∀ o : Fin 16, field State.reset (Reg.linkLanes o) 14 0 = 0x7777) ∧ State.reset.maint.baud = 115200

/-- At reset the memories and their marks are in canonical form.  The module's memory, the host's
memory, the written bits and the poison marks of the state right after reset have strictly rising
keys and list nothing that equals what an unlisted key reads as. That an unlisted byte reads 0 is
the manual's for the module's memory (R244, R245) and the model's choice for the host's (log 2).
(Rests on R244, R601) -/
def Obligations.MemoriesAreCanonicalAtReset : Prop :=
  MemOk State.reset

/-- Every command answers a next state from every state, and no command touches the queue.  For every
command with every operand, and every state, exec answers a next state (no command of this block
faults or is refused: the manual gives each an effect, or says that it has none), with the queue
of waiting commands as it was; so every step completes.  (Rests on R70, R476, R623) -/
def Obligations.EveryCommandCompletes : Prop :=
  (∀ (c : Instr) (s : State), ∃ t, exec c s = .next t ∧ t.pending = s.pending) ∧
  (∀ s : State, StepCompletes s)

/-- Every command leaves every part of the state outside its footprint as it was.  For every command
and every state, if exec answers a next state, then every part of the state (each register table,
queue, memory, counter, log, partition, context, site, link, Weir, power, island, flash and
maintenance part) that does not stand in the command's footprint is unchanged.  (Rests on R42,
R34, R68, R70, R118, R529, R596, R623) -/
def Obligations.CommandsChangeOnlyTheirFootprint : Prop :=
  ∀ (c : Instr) (s t : State) (p : StatePart), exec c s = .next t → p ∉ footprint c → Agree s t p

/-- Every step keeps the memories and their marks in canonical form.  For every state whose memories
are in canonical form, if the step answers a next state, its memories are in canonical form: the
module's memory, the host's memory, the written bits, and the poison marks of lines and of core-
store words.  (Rests on R244, R245, R246, R249, R485) -/
def Obligations.EveryStepKeepsTheMemoriesCanonical : Prop :=
  ∀ s t : State, MemOk s → step s = .next t → MemOk t

/-- A command whose footprint holds neither memory nor the written bits leaves every byte of the
module reading as before.  For every command that stores nothing (its footprint holds neither the
memory nor the written bits of its pages), every state and every address, the byte reads after the
command as it read before.  (Rests on R244, R245, R235, R240) -/
def Obligations.CommandsThatStoreNothingKeepEveryByte : Prop :=
  ∀ (c : Instr) (s t : State) (a : Nat), StatePart.mem ∉ footprint c → StatePart.written ∉ footprint c → exec c s = .next t →
    byteAt t a = byteAt s a

/-- The stack of site s holds exactly the 64 GiB of addresses whose bits [39:36] name the site.  The
near tier is not interleaved across stacks: for every site s and address a, a lies in the stack of
s exactly if it lies from s * 2^36 to s * 2^36 + 2^36 - 1; bits [39:36] of such an address are s,
and bits [35:0] are its offset within the 64 GiB of the stack.  (States R222) -/
def Obligations.NearTierIsNotInterleaved : Prop :=
  ∀ (i : SiteNo) (a : Nat), (zoneOf a = .near i ↔ i.val * 0x10_0000_0000 ≤ a ∧ a ≤ i.val * 0x10_0000_0000 + 0xF_FFFF_FFFF) ∧
    (zoneOf a = .near i → ownerSite a = i ∧ bits a 39 36 = i ∧ bits a 35 0 = a - i.val * 0x10_0000_0000 ∧ bits a 35 0 < 2 ^ 36)

/-- A host write to either half of an L64 pair is ignored, with no flag.  For every offset of BAR0
that is the low or the high half of a 64-bit latched pair, a host write there, of any function,
size and value, leaves the state as it is, with no flag, while no guarded pair is pending. While
one is pending (a write to a GLOBAL register then breaks the pair up and flags that, R18), no L64
pair changes its value.  (States R622) -/
def Obligations.PairsAreNotWritable : Prop :=
  ∀ (s : State) (fn : Fn) (off size : Nat) (v : Word), (Reg.pairLow off = true ∨ (4 ≤ off ∧ Reg.pairLow (off - 4) = true)) →
    (s.firstWrite = none → exec (.hostRegisterWrite fn .bar0 off size v) s = .next s) ∧
    (∃ t, exec (.hostRegisterWrite fn .bar0 off size v) s = .next t ∧ ∀ k, Reg.pairLow k = true → reg t k = reg s k)

/-- A band rises in the first round, and falls by one only after four rounds in a row at least 3
degrees below its lower bound.  For a band b of 0 to 3 with n rounds counted (n below 4) and a
band value t in 1/16 degC: if t reaches the lower bound (45, 85, 95 degC) of a higher band, the
band is at once the highest whose bound t reaches. Otherwise, if t lies at least 3 degC below the
lower bound of b, the round is counted, and the fourth in a row lowers the band by one; any other
value keeps the band and starts the count again. A value above 105 degC keeps B3.  (Rests on R587,
R588) -/
def Obligations.BandsRiseAtOnceAndFallSlowly : Prop :=
  ∀ (b n : Nat) (t : Int), b ≤ 3 → n < 4 →
    (1520 ≤ t → (nextBand b n t).1 = 3) ∧
    (1360 ≤ t → t < 1520 → b ≤ 2 → nextBand b n t = (2, 0)) ∧
    (720 ≤ t → t < 1360 → b ≤ 1 → nextBand b n t = (1, 0)) ∧
    (1 ≤ b → t ≤ (if b = 1 then 720 else if b = 2 then 1360 else 1520) - 48 →
      nextBand b n t = if n = 3 then (b - 1, 0) else (b, n + 1)) ∧
    (1 ≤ b → (if b = 1 then 720 else if b = 2 then 1360 else 1520) - 48 < t →
      t < (if b = 1 then 720 else if b = 2 then 1360 else 1520) → nextBand b n t = (b, 0)) ∧
    (t < 720 → b = 0 → nextBand b n t = (0, 0)) ∧
    (1680 < t → nextBand 3 n t = (3, 0))

/-- Within a tick PF0 stands first, and then the VFs in rotation: each VF stands first once in every
255 ticks.  In tick n the rank of PF0 is below that of every VF; VF 1 + (n mod 255) stands first
among the VFs; each VF stands directly before the next, VF 255 before VF 1, except before the
first; two VFs never share a rank; and of any 255 ticks in a row each VF is first in exactly one.
(Rests on R70, R71) -/
def Obligations.RequestsStandInTheOrderOfTheirTick : Prop :=
  (∀ n v : Nat, 1 ≤ v → v ≤ 255 → fnRank n 0 < fnRank n v ∧ 1 ≤ fnRank n v ∧ fnRank n v ≤ 255) ∧
  (∀ n : Nat, fnRank n (1 + n % 255) = 1) ∧
  (∀ n v : Nat, 1 ≤ v → v ≤ 255 → v % 255 + 1 ≠ 1 + n % 255 → fnRank n (v % 255 + 1) = fnRank n v + 1) ∧
  (∀ n v w : Nat, 1 ≤ v → v ≤ 255 → 1 ≤ w → w ≤ 255 → fnRank n v = fnRank n w → v = w) ∧
  (∀ n v : Nat, 1 ≤ v → v ≤ 255 → ∃ k, k < 255 ∧ fnRank (n + k) v = 1 ∧ ∀ j, j < 255 → fnRank (n + j) v = 1 → j = k)
end

