-- ==== Sys2Proof/Laws/FrameBase.lean ====
section
/-! SUPPORT. Which parts of the state may differ: the rules with which the frame lemmas of the shared operations are proved.
The lemma `f_only` of an operation `f` says that f changes no part outside its mask; bit k of a mask is the part with number k. -/

namespace Sys2Proof.Machine

/-- Mask `a` lies within mask `m`. -/
structure Sub (a m : Nat) : Prop where
  out : m ||| a = m

theorem Sub.mono {a b m : Nat} (c : Sub b m) (h : b ||| a = b) : Sub a m := by
  constructor; rw [← c.out, Nat.or_assoc, h]

variable {m : Nat} {s0 : State}

theorem Sub.bit {a m i : Nat} (c : Sub a m) (h : a.testBit i = true) : m.testBit i = true := by
  rw [← c.out, Nat.testBit_or, h, Bool.or_true]

theorem Only.refl : Only m s0 s0 := ⟨fun p _ => by cases p <;> rfl⟩

theorem Only.trans {s t u : State} (a : Only m s t) (b : Only m t u) : Only m s u := by
  constructor
  intro p h
  have x := a.out p h
  have y := b.out p h
  cases p <;> exact x.trans y

/-- A wider mask says less. -/
theorem Only.mono {a : Nat} {s t : State} (h : Only a s t) (c : Sub a m) : Only m s t := by
  constructor
  intro p hp
  refine h.out p ?_
  cases hb : a.testBit p.ix with
  | false => rfl
  | true => rw [c.bit hb] at hp; cases hp

theorem onlyIte {c : Prop} [Decidable c] {a b : State} (h1 : Only m s0 a) (h2 : Only m s0 b) :
    Only m s0 (if c then a else b) := by
  split <;> assumption

theorem onlyIte1 {α : Type} {c : Prop} [Decidable c] {a b : State × α} (h1 : Only m s0 a.1) (h2 : Only m s0 b.1) :
    Only m s0 (if c then a else b).1 := by
  split <;> assumption

theorem onlySkip {c : Prop} [Decidable c] {a b : State} (h : Only m s0 b) (k : Only m s0 b → Only m s0 a) :
    Only m s0 (if c then a else b) := onlyIte (k h) h

theorem onlySkip2 {c : Prop} [Decidable c] {a b : State} (h : Only m s0 a) (k : Only m s0 a → Only m s0 b) :
    Only m s0 (if c then a else b) := onlyIte h (k h)

theorem onlyFold {α : Type} {l : List α} {s : State} {f : State → α → State} (h : Only m s0 s)
    (k : ∀ t, Only m s0 t → ∀ a, Only m s0 (f t a)) : Only m s0 (l.foldl f s) := by
  induction l generalizing s with
  | nil => exact h
  | cons a l ih => exact ih (k s h a)

theorem onlyFold1 {α β : Type} {l : List α} {s : State × β} {f : State × β → α → State × β} (h : Only m s0 s.1)
    (k : ∀ t, Only m s0 t.1 → ∀ a, Only m s0 (f t a).1) : Only m s0 (l.foldl f s).1 := by
  induction l generalizing s with
  | nil => exact h
  | cons a l ih => exact ih (k s h a)

/-! ### One update of the state -/

theorem only_regs {s : State} {x0} (h : Only m s0 s) (c : Sub 0x2 m) :
    Only m s0 { s with regs := x0 } :=
  h.trans ⟨fun p hp => by cases p <;> first | rfl | (rw [c.bit (by rfl)] at hp; cases hp)⟩

theorem only_latches {s : State} {x0} (h : Only m s0 s) (c : Sub 0x4 m) :
    Only m s0 { s with latches := x0 } :=
  h.trans ⟨fun p hp => by cases p <;> first | rfl | (rw [c.bit (by rfl)] at hp; cases hp)⟩

theorem only_regs_latches {s : State} {x0} {x1} (h : Only m s0 s) (c : Sub 0x6 m) :
    Only m s0 { s with regs := x0, latches := x1 } :=
  h.trans ⟨fun p hp => by cases p <;> first | rfl | (rw [c.bit (by rfl)] at hp; cases hp)⟩

theorem only_firstWrite {s : State} {x0} (h : Only m s0 s) (c : Sub 0x8 m) :
    Only m s0 { s with firstWrite := x0 } :=
  h.trans ⟨fun p hp => by cases p <;> first | rfl | (rw [c.bit (by rfl)] at hp; cases hp)⟩

theorem only_upsets {s : State} {x0} (h : Only m s0 s) (c : Sub 0x10 m) :
    Only m s0 { s with upsets := x0 } :=
  h.trans ⟨fun p hp => by cases p <;> first | rfl | (rw [c.bit (by rfl)] at hp; cases hp)⟩

theorem only_flagsNow {s : State} {x0} (h : Only m s0 s) (c : Sub 0x20 m) :
    Only m s0 { s with flagsNow := x0 } :=
  h.trans ⟨fun p hp => by cases p <;> first | rfl | (rw [c.bit (by rfl)] at hp; cases hp)⟩

theorem only_mem {s : State} {x0} (h : Only m s0 s) (c : Sub 0x40 m) :
    Only m s0 { s with mem := x0 } :=
  h.trans ⟨fun p hp => by cases p <;> first | rfl | (rw [c.bit (by rfl)] at hp; cases hp)⟩

theorem only_written {s : State} {x0} (h : Only m s0 s) (c : Sub 0x80 m) :
    Only m s0 { s with written := x0 } :=
  h.trans ⟨fun p hp => by cases p <;> first | rfl | (rw [c.bit (by rfl)] at hp; cases hp)⟩

theorem only_mem_written {s : State} {x0} {x1} (h : Only m s0 s) (c : Sub 0xc0 m) :
    Only m s0 { s with mem := x0, written := x1 } :=
  h.trans ⟨fun p hp => by cases p <;> first | rfl | (rw [c.bit (by rfl)] at hp; cases hp)⟩

theorem only_poison {s : State} {x0} (h : Only m s0 s) (c : Sub 0x100 m) :
    Only m s0 { s with poison := x0 } :=
  h.trans ⟨fun p hp => by cases p <;> first | rfl | (rw [c.bit (by rfl)] at hp; cases hp)⟩

theorem only_corePoison {s : State} {x0} (h : Only m s0 s) (c : Sub 0x200 m) :
    Only m s0 { s with corePoison := x0 } :=
  h.trans ⟨fun p hp => by cases p <;> first | rfl | (rw [c.bit (by rfl)] at hp; cases hp)⟩

theorem only_mem_corePoison {s : State} {x0} {x1} (h : Only m s0 s) (c : Sub 0x240 m) :
    Only m s0 { s with mem := x0, corePoison := x1 } :=
  h.trans ⟨fun p hp => by cases p <;> first | rfl | (rw [c.bit (by rfl)] at hp; cases hp)⟩

theorem only_hostMem {s : State} {x0} (h : Only m s0 s) (c : Sub 0x400 m) :
    Only m s0 { s with hostMem := x0 } :=
  h.trans ⟨fun p hp => by cases p <;> first | rfl | (rw [c.bit (by rfl)] at hp; cases hp)⟩

theorem only_out {s : State} {x0} (h : Only m s0 s) (c : Sub 0x800 m) :
    Only m s0 { s with out := x0 } :=
  h.trans ⟨fun p hp => by cases p <;> first | rfl | (rw [c.bit (by rfl)] at hp; cases hp)⟩

theorem only_time {s : State} {x0} (h : Only m s0 s) (c : Sub 0x1000 m) :
    Only m s0 { s with time := x0 } :=
  h.trans ⟨fun p hp => by cases p <;> first | rfl | (rw [c.bit (by rfl)] at hp; cases hp)⟩

theorem only_flagsNow_time {s : State} {x0} {x1} (h : Only m s0 s) (c : Sub 0x1020 m) :
    Only m s0 { s with flagsNow := x0, time := x1 } :=
  h.trans ⟨fun p hp => by cases p <;> first | rfl | (rw [c.bit (by rfl)] at hp; cases hp)⟩

theorem only_clock {s : State} {x0} (h : Only m s0 s) (c : Sub 0x2000 m) :
    Only m s0 { s with clock := x0 } :=
  h.trans ⟨fun p hp => by cases p <;> first | rfl | (rw [c.bit (by rfl)] at hp; cases hp)⟩

theorem only_cross {s : State} {x0} (h : Only m s0 s) (c : Sub 0x4000 m) :
    Only m s0 { s with cross := x0 } :=
  h.trans ⟨fun p hp => by cases p <;> first | rfl | (rw [c.bit (by rfl)] at hp; cases hp)⟩

theorem only_faults {s : State} {x0} (h : Only m s0 s) (c : Sub 0x8000 m) :
    Only m s0 { s with faults := x0 } :=
  h.trans ⟨fun p hp => by cases p <;> first | rfl | (rw [c.bit (by rfl)] at hp; cases hp)⟩

theorem only_cores {s : State} {x0} (h : Only m s0 s) (c : Sub 0x10000 m) :
    Only m s0 { s with cores := x0 } :=
  h.trans ⟨fun p hp => by cases p <;> first | rfl | (rw [c.bit (by rfl)] at hp; cases hp)⟩

theorem only_mem_corePoison_cores {s : State} {x0} {x1} {x2} (h : Only m s0 s) (c : Sub 0x10240 m) :
    Only m s0 { s with mem := x0, corePoison := x1, cores := x2 } :=
  h.trans ⟨fun p hp => by cases p <;> first | rfl | (rw [c.bit (by rfl)] at hp; cases hp)⟩

theorem only_contexts {s : State} {x0} (h : Only m s0 s) (c : Sub 0x20000 m) :
    Only m s0 { s with contexts := x0 } :=
  h.trans ⟨fun p hp => by cases p <;> first | rfl | (rw [c.bit (by rfl)] at hp; cases hp)⟩

theorem only_startReqs {s : State} {x0} (h : Only m s0 s) (c : Sub 0x80000 m) :
    Only m s0 { s with startReqs := x0 } :=
  h.trans ⟨fun p hp => by cases p <;> first | rfl | (rw [c.bit (by rfl)] at hp; cases hp)⟩

theorem only_ended {s : State} {x0} (h : Only m s0 s) (c : Sub 0x100000 m) :
    Only m s0 { s with ended := x0 } :=
  h.trans ⟨fun p hp => by cases p <;> first | rfl | (rw [c.bit (by rfl)] at hp; cases hp)⟩

theorem only_parts {s : State} {x0} (h : Only m s0 s) (c : Sub 0x200000 m) :
    Only m s0 { s with parts := x0 } :=
  h.trans ⟨fun p hp => by cases p <;> first | rfl | (rw [c.bit (by rfl)] at hp; cases hp)⟩

theorem only_far {s : State} {x0} (h : Only m s0 s) (c : Sub 0x400000 m) :
    Only m s0 { s with far := x0 } :=
  h.trans ⟨fun p hp => by cases p <;> first | rfl | (rw [c.bit (by rfl)] at hp; cases hp)⟩

theorem only_farPending {s : State} {x0} (h : Only m s0 s) (c : Sub 0x800000 m) :
    Only m s0 { s with farPending := x0 } :=
  h.trans ⟨fun p hp => by cases p <;> first | rfl | (rw [c.bit (by rfl)] at hp; cases hp)⟩

theorem only_sites {s : State} {x0} (h : Only m s0 s) (c : Sub 0x1000000 m) :
    Only m s0 { s with sites := x0 } :=
  h.trans ⟨fun p hp => by cases p <;> first | rfl | (rw [c.bit (by rfl)] at hp; cases hp)⟩

theorem only_links {s : State} {x0} (h : Only m s0 s) (c : Sub 0x2000000 m) :
    Only m s0 { s with links := x0 } :=
  h.trans ⟨fun p hp => by cases p <;> first | rfl | (rw [c.bit (by rfl)] at hp; cases hp)⟩

theorem only_fabric {s : State} {x0} (h : Only m s0 s) (c : Sub 0x4000000 m) :
    Only m s0 { s with fabric := x0 } :=
  h.trans ⟨fun p hp => by cases p <;> first | rfl | (rw [c.bit (by rfl)] at hp; cases hp)⟩

theorem only_clock_fabric {s : State} {x0} {x1} (h : Only m s0 s) (c : Sub 0x4002000 m) :
    Only m s0 { s with clock := x0, fabric := x1 } :=
  h.trans ⟨fun p hp => by cases p <;> first | rfl | (rw [c.bit (by rfl)] at hp; cases hp)⟩

theorem only_far_fabric {s : State} {x0} {x1} (h : Only m s0 s) (c : Sub 0x4400000 m) :
    Only m s0 { s with far := x0, fabric := x1 } :=
  h.trans ⟨fun p hp => by cases p <;> first | rfl | (rw [c.bit (by rfl)] at hp; cases hp)⟩

theorem only_qps {s : State} {x0} (h : Only m s0 s) (c : Sub 0x8000000 m) :
    Only m s0 { s with qps := x0 } :=
  h.trans ⟨fun p hp => by cases p <;> first | rfl | (rw [c.bit (by rfl)] at hp; cases hp)⟩

theorem only_contexts_startReqs_ended_qps {s : State} {x0} {x1} {x2} {x3} (h : Only m s0 s) (c : Sub 0x81a0000 m) :
    Only m s0 { s with contexts := x0, startReqs := x1, ended := x2, qps := x3 } :=
  h.trans ⟨fun p hp => by cases p <;> first | rfl | (rw [c.bit (by rfl)] at hp; cases hp)⟩

theorem only_vfRanges {s : State} {x0} (h : Only m s0 s) (c : Sub 0x10000000 m) :
    Only m s0 { s with vfRanges := x0 } :=
  h.trans ⟨fun p hp => by cases p <;> first | rfl | (rw [c.bit (by rfl)] at hp; cases hp)⟩

theorem only_bme {s : State} {x0} (h : Only m s0 s) (c : Sub 0x20000000 m) :
    Only m s0 { s with bme := x0 } :=
  h.trans ⟨fun p hp => by cases p <;> first | rfl | (rw [c.bit (by rfl)] at hp; cases hp)⟩

theorem only_d3hot {s : State} {x0} (h : Only m s0 s) (c : Sub 0x40000000 m) :
    Only m s0 { s with d3hot := x0 } :=
  h.trans ⟨fun p hp => by cases p <;> first | rfl | (rw [c.bit (by rfl)] at hp; cases hp)⟩

theorem only_bme_d3hot {s : State} {x0} {x1} (h : Only m s0 s) (c : Sub 0x60000000 m) :
    Only m s0 { s with bme := x0, d3hot := x1 } :=
  h.trans ⟨fun p hp => by cases p <;> first | rfl | (rw [c.bit (by rfl)] at hp; cases hp)⟩

theorem only_linkUp {s : State} {x0} (h : Only m s0 s) (c : Sub 0x80000000 m) :
    Only m s0 { s with linkUp := x0 } :=
  h.trans ⟨fun p hp => by cases p <;> first | rfl | (rw [c.bit (by rfl)] at hp; cases hp)⟩

theorem only_vfsOn {s : State} {x0} (h : Only m s0 s) (c : Sub 0x100000000 m) :
    Only m s0 { s with vfsOn := x0 } :=
  h.trans ⟨fun p hp => by cases p <;> first | rfl | (rw [c.bit (by rfl)] at hp; cases hp)⟩

theorem only_dma {s : State} {x0} (h : Only m s0 s) (c : Sub 0x200000000 m) :
    Only m s0 { s with dma := x0 } :=
  h.trans ⟨fun p hp => by cases p <;> first | rfl | (rw [c.bit (by rfl)] at hp; cases hp)⟩

theorem only_windows {s : State} {x0} (h : Only m s0 s) (c : Sub 0x400000000 m) :
    Only m s0 { s with windows := x0 } :=
  h.trans ⟨fun p hp => by cases p <;> first | rfl | (rw [c.bit (by rfl)] at hp; cases hp)⟩

theorem only_mbReqs {s : State} {x0} (h : Only m s0 s) (c : Sub 0x800000000 m) :
    Only m s0 { s with mbReqs := x0 } :=
  h.trans ⟨fun p hp => by cases p <;> first | rfl | (rw [c.bit (by rfl)] at hp; cases hp)⟩

theorem only_farPending_mbReqs {s : State} {x0} {x1} (h : Only m s0 s) (c : Sub 0x800800000 m) :
    Only m s0 { s with farPending := x0, mbReqs := x1 } :=
  h.trans ⟨fun p hp => by cases p <;> first | rfl | (rw [c.bit (by rfl)] at hp; cases hp)⟩

theorem only_taken {s : State} {x0} (h : Only m s0 s) (c : Sub 0x1000000000 m) :
    Only m s0 { s with taken := x0 } :=
  h.trans ⟨fun p hp => by cases p <;> first | rfl | (rw [c.bit (by rfl)] at hp; cases hp)⟩

theorem only_contexts_gens_taken {s : State} {x0} {x1} {x2} (h : Only m s0 s) (c : Sub 0x1000060000 m) :
    Only m s0 { s with contexts := x0, gens := x1, taken := x2 } :=
  h.trans ⟨fun p hp => by cases p <;> first | rfl | (rw [c.bit (by rfl)] at hp; cases hp)⟩

theorem only_acts {s : State} {x0} (h : Only m s0 s) (c : Sub 0x2000000000 m) :
    Only m s0 { s with acts := x0 } :=
  h.trans ⟨fun p hp => by cases p <;> first | rfl | (rw [c.bit (by rfl)] at hp; cases hp)⟩

theorem only_acts_nextAct {s : State} {x0} {x1} (h : Only m s0 s) (c : Sub 0x6000000000 m) :
    Only m s0 { s with acts := x0, nextAct := x1 } :=
  h.trans ⟨fun p hp => by cases p <;> first | rfl | (rw [c.bit (by rfl)] at hp; cases hp)⟩

theorem only_weir {s : State} {x0} (h : Only m s0 s) (c : Sub 0x8000000000 m) :
    Only m s0 { s with weir := x0 } :=
  h.trans ⟨fun p hp => by cases p <;> first | rfl | (rw [c.bit (by rfl)] at hp; cases hp)⟩

theorem only_record {s : State} {x0} (h : Only m s0 s) (c : Sub 0x10000000000 m) :
    Only m s0 { s with record := x0 } :=
  h.trans ⟨fun p hp => by cases p <;> first | rfl | (rw [c.bit (by rfl)] at hp; cases hp)⟩

theorem only_fabric_record {s : State} {x0} {x1} (h : Only m s0 s) (c : Sub 0x10004000000 m) :
    Only m s0 { s with fabric := x0, record := x1 } :=
  h.trans ⟨fun p hp => by cases p <;> first | rfl | (rw [c.bit (by rfl)] at hp; cases hp)⟩

theorem only_island {s : State} {x0} (h : Only m s0 s) (c : Sub 0x20000000000 m) :
    Only m s0 { s with island := x0 } :=
  h.trans ⟨fun p hp => by cases p <;> first | rfl | (rw [c.bit (by rfl)] at hp; cases hp)⟩

theorem only_time_faults_parts_far_vfRanges_weir_island {s : State} {x0} {x1} {x2} {x3} {x4} {x5} {x6} (h : Only m s0 s) (c : Sub 0x28010609000 m) :
    Only m s0 { s with time := x0, faults := x1, parts := x2, far := x3, vfRanges := x4, weir := x5, island := x6 } :=
  h.trans ⟨fun p hp => by cases p <;> first | rfl | (rw [c.bit (by rfl)] at hp; cases hp)⟩

theorem only_power {s : State} {x0} (h : Only m s0 s) (c : Sub 0x40000000000 m) :
    Only m s0 { s with power := x0 } :=
  h.trans ⟨fun p hp => by cases p <;> first | rfl | (rw [c.bit (by rfl)] at hp; cases hp)⟩

theorem only_house {s : State} {x0} (h : Only m s0 s) (c : Sub 0x80000000000 m) :
    Only m s0 { s with house := x0 } :=
  h.trans ⟨fun p hp => by cases p <;> first | rfl | (rw [c.bit (by rfl)] at hp; cases hp)⟩

theorem only_time_house {s : State} {x0} {x1} (h : Only m s0 s) (c : Sub 0x80000001000 m) :
    Only m s0 { s with time := x0, house := x1 } :=
  h.trans ⟨fun p hp => by cases p <;> first | rfl | (rw [c.bit (by rfl)] at hp; cases hp)⟩

theorem only_springs {s : State} {x0} (h : Only m s0 s) (c : Sub 0x100000000000 m) :
    Only m s0 { s with springs := x0 } :=
  h.trans ⟨fun p hp => by cases p <;> first | rfl | (rw [c.bit (by rfl)] at hp; cases hp)⟩

theorem only_start {s : State} {x0} (h : Only m s0 s) (c : Sub 0x200000000000 m) :
    Only m s0 { s with start := x0 } :=
  h.trans ⟨fun p hp => by cases p <;> first | rfl | (rw [c.bit (by rfl)] at hp; cases hp)⟩

theorem only_maint {s : State} {x0} (h : Only m s0 s) (c : Sub 0x400000000000 m) :
    Only m s0 { s with maint := x0 } :=
  h.trans ⟨fun p hp => by cases p <;> first | rfl | (rw [c.bit (by rfl)] at hp; cases hp)⟩

theorem only_weir_maint {s : State} {x0} {x1} (h : Only m s0 s) (c : Sub 0x408000000000 m) :
    Only m s0 { s with weir := x0, maint := x1 } :=
  h.trans ⟨fun p hp => by cases p <;> first | rfl | (rw [c.bit (by rfl)] at hp; cases hp)⟩

theorem only_start_maint {s : State} {x0} {x1} (h : Only m s0 s) (c : Sub 0x600000000000 m) :
    Only m s0 { s with start := x0, maint := x1 } :=
  h.trans ⟨fun p hp => by cases p <;> first | rfl | (rw [c.bit (by rfl)] at hp; cases hp)⟩

theorem only_flash {s : State} {x0} (h : Only m s0 s) (c : Sub 0x800000000000 m) :
    Only m s0 { s with flash := x0 } :=
  h.trans ⟨fun p hp => by cases p <;> first | rfl | (rw [c.bit (by rfl)] at hp; cases hp)⟩

theorem only_nextId {s : State} {x0} (h : Only m s0 s) (c : Sub 0x1000000000000 m) :
    Only m s0 { s with nextId := x0 } :=
  h.trans ⟨fun p hp => by cases p <;> first | rfl | (rw [c.bit (by rfl)] at hp; cases hp)⟩

theorem only_freeCount {s : State} {x0} (h : Only m s0 s) (c : Sub 0x2000000000000 m) :
    Only m s0 { s with freeCount := x0 } :=
  h.trans ⟨fun p hp => by cases p <;> first | rfl | (rw [c.bit (by rfl)] at hp; cases hp)⟩

end Sys2Proof.Machine
end

