-- ==== Sys2Proof/Laws/FrameOps.lean ====
section
/-! SUPPORT. Frame lemmas: core operations, memory, rings, completions, moves and slot operations. -/

namespace Sys2Proof.Machine

variable {m : Nat} {s0 : State}

theorem putReg_only {s : State} (off : ℕ) (v : ℕ) (h : Only m s0 s) (hc : Sub 0x2 m) :
    Only m s0 (putReg s off v) := by
  unfold putReg
  repeat' first
    | with_reducible assumption
    | exact hc.mono rfl
    | intro _
    | lift_lets -underBinder
    | with_reducible apply only_regs


theorem putField_only {s : State} (off : ℕ) (hi : ℕ) (lo : ℕ) (v : ℕ) (h : Only m s0 s) (hc : Sub 0x2 m) :
    Only m s0 (putField s off hi lo v) := by
  unfold putField
  repeat' first
    | with_reducible assumption
    | exact hc.mono rfl
    | with_reducible apply putReg_only


theorem putBit_only {s : State} (off : ℕ) (i : ℕ) (b : Bool) (h : Only m s0 s) (hc : Sub 0x2 m) :
    Only m s0 (putBit s off i b) := by
  unfold putBit
  repeat' first
    | with_reducible assumption
    | exact hc.mono rfl
    | with_reducible apply putReg_only


theorem raiseFlag_only {s : State} (off : ℕ) (i : ℕ) (h : Only m s0 s) (hc : Sub 0x22 m) :
    Only m s0 (raiseFlag s off i) := by
  unfold raiseFlag
  repeat' first
    | with_reducible assumption
    | exact hc.mono rfl
    | intro _
    | lift_lets -underBinder
    | with_reducible apply putBit_only
    | with_reducible apply only_flagsNow


theorem addPair_only {s : State} (off : ℕ) (n : ℕ) (h : Only m s0 s) (hc : Sub 0x2 m) :
    Only m s0 (addPair s off n) := by
  unfold addPair
  repeat' first
    | with_reducible assumption
    | exact hc.mono rfl
    | with_reducible apply putReg_only


theorem addPairSat_only {s : State} (off : ℕ) (n : ℕ) (h : Only m s0 s) (hc : Sub 0x2 m) :
    Only m s0 (addPairSat s off n) := by
  unfold addPairSat
  repeat' first
    | with_reducible assumption
    | exact hc.mono rfl
    | with_reducible apply putReg_only


theorem addReg_only {s : State} (off : ℕ) (n : ℕ) (h : Only m s0 s) (hc : Sub 0x2 m) :
    Only m s0 (addReg s off n) := by
  unfold addReg
  repeat' first
    | with_reducible assumption
    | exact hc.mono rfl
    | with_reducible apply putReg_only


theorem dropRegs_only {s : State} (p : ℕ → Bool) (h : Only m s0 s) (hc : Sub 0x6 m) :
    Only m s0 (dropRegs s p) := by
  unfold dropRegs
  repeat' first
    | with_reducible assumption
    | exact hc.mono rfl
    | intro _
    | lift_lets -underBinder
    | with_reducible apply only_regs_latches


theorem endUpset_only {s : State} (p : ParityUnit → Bool) (h : Only m s0 s) (hc : Sub 0x10 m) :
    Only m s0 (endUpset s p) := by
  unfold endUpset
  repeat' first
    | with_reducible assumption
    | exact hc.mono rfl
    | intro _
    | lift_lets -underBinder
    | with_reducible apply only_upsets


theorem passTime_only {s : State} (d : ℕ) (h : Only m s0 s) (hc : Sub 0x1000 m) :
    Only m s0 (passTime s d) := by
  unfold passTime
  repeat' first
    | with_reducible assumption
    | exact hc.mono rfl
    | intro t (ht : Only m s0 t)
    | intro _
    | lift_lets -underBinder
    | with_reducible (first | apply onlySkip | apply onlyFold)
    | split
    | with_reducible apply only_time


theorem backboneCycle_only {s : State} (h : Only m s0 s) (hc : Sub 0x1000 m) :
    Only m s0 (backboneCycle s) := by
  unfold backboneCycle
  repeat' first
    | with_reducible assumption
    | exact hc.mono rfl
    | intro _
    | lift_lets -underBinder
    | with_reducible apply passTime_only
    | with_reducible apply onlySkip
    | split
    | with_reducible apply only_time


theorem emit_only {s : State} (o : Output) (h : Only m s0 s) (hc : Sub 0x800 m) :
    Only m s0 (emit s o) := by
  unfold emit
  repeat' first
    | with_reducible assumption
    | exact hc.mono rfl
    | intro _
    | lift_lets -underBinder
    | with_reducible apply only_out


theorem putCore_only {s : State} (c' : ℕ) (x : CoreState) (h : Only m s0 s) (hc : Sub 0x10000 m) :
    Only m s0 (putCore s c' x) := by
  unfold putCore
  repeat' first
    | with_reducible assumption
    | exact hc.mono rfl
    | intro _
    | lift_lets -underBinder
    | with_reducible apply only_cores


theorem modCore_only {s : State} (c' : ℕ) (f : CoreState → CoreState) (h : Only m s0 s) (hc : Sub 0x10000 m) :
    Only m s0 (modCore s c' f) := by
  unfold modCore
  repeat' first
    | with_reducible assumption
    | exact hc.mono rfl
    | with_reducible apply putCore_only


theorem putSite_only {s : State} (i : ℕ) (x : SiteState) (h : Only m s0 s) (hc : Sub 0x1000000 m) :
    Only m s0 (putSite s i x) := by
  unfold putSite
  repeat' first
    | with_reducible assumption
    | exact hc.mono rfl
    | intro _
    | lift_lets -underBinder
    | with_reducible apply only_sites


theorem modSite_only {s : State} (i : ℕ) (f : SiteState → SiteState) (h : Only m s0 s) (hc : Sub 0x1000000 m) :
    Only m s0 (modSite s i f) := by
  unfold modSite
  repeat' first
    | with_reducible assumption
    | exact hc.mono rfl
    | with_reducible apply putSite_only


theorem modAbango_only {s : State} (i : ℕ) (f : Abango → Abango) (h : Only m s0 s) (hc : Sub 0x1000000 m) :
    Only m s0 (modAbango s i f) := by
  unfold modAbango
  repeat' first
    | with_reducible assumption
    | exact hc.mono rfl
    | intro _
    | lift_lets -underBinder
    | with_reducible apply modSite_only


theorem putLink_only {s : State} (o : ℕ) (x : LinkState) (h : Only m s0 s) (hc : Sub 0x2000000 m) :
    Only m s0 (putLink s o x) := by
  unfold putLink
  repeat' first
    | with_reducible assumption
    | exact hc.mono rfl
    | intro _
    | lift_lets -underBinder
    | with_reducible apply only_links


theorem modLink_only {s : State} (o : ℕ) (f : LinkState → LinkState) (h : Only m s0 s) (hc : Sub 0x2000000 m) :
    Only m s0 (modLink s o f) := by
  unfold modLink
  repeat' first
    | with_reducible assumption
    | exact hc.mono rfl
    | with_reducible apply putLink_only


theorem putQp_only {s : State} (q : ℕ) (x : QpState) (h : Only m s0 s) (hc : Sub 0x8000000 m) :
    Only m s0 (putQp s q x) := by
  unfold putQp
  repeat' first
    | with_reducible assumption
    | exact hc.mono rfl
    | intro _
    | lift_lets -underBinder
    | with_reducible apply only_qps


theorem modQp_only {s : State} (q : ℕ) (f : QpState → QpState) (h : Only m s0 s) (hc : Sub 0x8000000 m) :
    Only m s0 (modQp s q f) := by
  unfold modQp
  repeat' first
    | with_reducible assumption
    | exact hc.mono rfl
    | with_reducible apply putQp_only


theorem putDma_only {s : State} (c' : ℕ) (x : DmaState) (h : Only m s0 s) (hc : Sub 0x200000000 m) :
    Only m s0 (putDma s c' x) := by
  unfold putDma
  repeat' first
    | with_reducible assumption
    | exact hc.mono rfl
    | intro _
    | lift_lets -underBinder
    | with_reducible apply only_dma


theorem putWin_only {s : State} (w : ℕ) (x : MbWindow) (h : Only m s0 s) (hc : Sub 0x400000000 m) :
    Only m s0 (putWin s w x) := by
  unfold putWin
  repeat' first
    | with_reducible assumption
    | exact hc.mono rfl
    | intro _
    | lift_lets -underBinder
    | with_reducible apply only_windows


theorem modWin_only {s : State} (w : ℕ) (f : MbWindow → MbWindow) (h : Only m s0 s) (hc : Sub 0x400000000 m) :
    Only m s0 (modWin s w f) := by
  unfold modWin
  repeat' first
    | with_reducible assumption
    | exact hc.mono rfl
    | with_reducible apply putWin_only


theorem putPart_only {s : State} (p : ℕ) (x : Partition) (h : Only m s0 s) (hc : Sub 0x200000 m) :
    Only m s0 (putPart s p x) := by
  unfold putPart
  repeat' first
    | with_reducible assumption
    | exact hc.mono rfl
    | intro _
    | lift_lets -underBinder
    | with_reducible apply only_parts


theorem modPart_only {s : State} (p : ℕ) (f : Partition → Partition) (h : Only m s0 s) (hc : Sub 0x200000 m) :
    Only m s0 (modPart s p f) := by
  unfold modPart
  repeat' first
    | with_reducible assumption
    | exact hc.mono rfl
    | with_reducible apply putPart_only


theorem putSpring_only {s : State} (n : ℕ) (x : SpringState) (h : Only m s0 s) (hc : Sub 0x100000000000 m) :
    Only m s0 (putSpring s n x) := by
  unfold putSpring
  repeat' first
    | with_reducible assumption
    | exact hc.mono rfl
    | intro _
    | lift_lets -underBinder
    | with_reducible apply only_springs


theorem putCross_only {s : State} (kind : CrossKind) (i : ℕ) (x : CrossState) (h : Only m s0 s) (hc : Sub 0x4000 m) :
    Only m s0 (putCross s kind i x) := by
  unfold putCross
  repeat' first
    | with_reducible assumption
    | exact hc.mono rfl
    | intro _
    | lift_lets -underBinder
    | with_reducible apply only_cross


theorem refuseSide_only {s : State} (kind : CrossKind) (i : ℕ) (d : Side) (h : Only m s0 s) (hc : Sub 0x4000 m) :
    Only m s0 (refuseSide s kind i d) := by
  unfold refuseSide
  repeat' first
    | with_reducible assumption
    | exact hc.mono rfl
    | intro _
    | lift_lets -underBinder
    | with_reducible apply putCross_only


theorem sideUp_only {s : State} (kind : CrossKind) (i : ℕ) (d : Side) (h : Only m s0 s) (hc : Sub 0x800 m) :
    Only m s0 (sideUp s kind i d) := by
  unfold sideUp
  repeat' first
    | with_reducible assumption
    | exact hc.mono rfl
    | intro _
    | with_reducible (first | apply emit_only | apply partnerUp_only)
    | with_reducible apply onlySkip
    | split


theorem modCtx_only {s : State} (h' : ℕ) (f : Context → Context) (h : Only m s0 s) (hc : Sub 0x20000 m) :
    Only m s0 (modCtx s h' f) := by
  unfold modCtx
  repeat' first
    | with_reducible assumption
    | exact hc.mono rfl
    | intro _
    | lift_lets -underBinder
    | with_reducible apply onlySkip
    | split
    | with_reducible apply only_contexts


theorem rampDomain_only {s : State} (d : ℕ) (mv : ℕ) (h : Only m s0 s) (hc : Sub 0x2 m) :
    Only m s0 (rampDomain s d mv) := by
  unfold rampDomain
  repeat' first
    | with_reducible assumption
    | exact hc.mono rfl
    | intro _
    | with_reducible apply putReg_only
    | with_reducible apply onlySkip
    | split


theorem offDomain_only {s : State} (d : ℕ) (h : Only m s0 s) (hc : Sub 0x2 m) :
    Only m s0 (offDomain s d) := by
  unfold offDomain
  repeat' first
    | with_reducible assumption
    | exact hc.mono rfl
    | with_reducible apply putReg_only


theorem raise_only {s : State} (cls : ℕ) (code : ℕ) (unit : ℕ) (part : ℕ) (d0 : ℕ) (d1 : ℕ) (src : ℕ) (h : Only m s0 s)
  (hc : Sub 0x8000 m) :
    Only m s0 (raise s cls code unit part d0 d1 src) := by
  unfold raise
  repeat' first
    | with_reducible assumption
    | exact hc.mono rfl
    | intro _
    | lift_lets -underBinder
    | with_reducible apply onlySkip
    | split
    | with_reducible apply only_faults


theorem appendLog_only {s : State} (r : LogRec) (h : Only m s0 s) (hc : Sub 0x8002 m) :
    Only m s0 (appendLog s r) := by
  unfold appendLog
  repeat' first
    | with_reducible assumption
    | exact hc.mono rfl
    | intro _
    | lift_lets -underBinder
    | with_reducible (first | apply addPair_only | apply putReg_only)
    | with_reducible apply onlySkip
    | split
    | with_reducible apply only_faults


theorem fwLogSev_only {s : State} (cls : ℕ) (code : ℕ) (sev : ℕ) (unit : ℕ) (part : ℕ) (d0 : ℕ) (d1 : ℕ) (h : Only m s0 s)
  (hc : Sub 0x8002 m) :
    Only m s0 (fwLogSev s cls code sev unit part d0 d1) := by
  unfold fwLogSev
  repeat' first
    | with_reducible assumption
    | exact hc.mono rfl
    | intro _
    | lift_lets -underBinder
    | with_reducible apply appendLog_only
    | with_reducible apply onlySkip
    | split
    | with_reducible apply only_faults


theorem fwLog_only {s : State} (cls : ℕ) (code : ℕ) (unit : ℕ) (part : ℕ) (d0 : ℕ) (d1 : ℕ) (h : Only m s0 s)
  (hc : Sub 0x8002 m) :
    Only m s0 (fwLog s cls code unit part d0 d1) := by
  unfold fwLog
  repeat' first
    | with_reducible assumption
    | exact hc.mono rfl
    | with_reducible apply fwLogSev_only


theorem houseTrig_only {s : State} (h : Only m s0 s) (hc : Sub 0x80000000002 m) :
    Only m s0 (houseTrig s) := by
  unfold houseTrig
  repeat' first
    | with_reducible assumption
    | exact hc.mono rfl
    | intro _
    | lift_lets -underBinder
    | with_reducible (first | apply putBit_only | apply addPair_only)
    | with_reducible apply onlySkip
    | split
    | with_reducible apply only_house


theorem msix_only {s : State} (fn : ℕ) (v : ℕ) (h : Only m s0 s) (hc : Sub 0x802 m) :
    Only m s0 (msix s fn v) := by
  unfold msix
  repeat' first
    | with_reducible assumption
    | exact hc.mono rfl
    | intro _
    | with_reducible (first | apply putBit_only | apply emit_only)
    | with_reducible apply onlySkip
    | split


theorem msixRelease_only {s : State} (fn : ℕ) (v : ℕ) (h : Only m s0 s) (hc : Sub 0x802 m) :
    Only m s0 (msixRelease s fn v) := by
  unfold msixRelease
  repeat' first
    | with_reducible assumption
    | exact hc.mono rfl
    | intro _
    | with_reducible (first | apply emit_only | apply putBit_only | apply msix_only)
    | with_reducible apply onlySkip
    | split


theorem noteUnwritten_only {s : State} (page : ℕ) (h : Only m s0 s) (hc : Sub 0x200002 m) :
    Only m s0 (noteUnwritten s page) := by
  unfold noteUnwritten
  repeat' first
    | with_reducible assumption
    | exact hc.mono rfl
    | intro _
    | lift_lets -underBinder
    | with_reducible (first | apply addPairSat_only | apply modPart_only)
    | with_reducible apply onlySkip
    | split


theorem noteRead_only {s : State} (a : ℕ) (n : ℕ) (h : Only m s0 s) (hc : Sub 0x200002 m) :
    Only m s0 (noteRead s a n) := by
  unfold noteRead
  repeat' first
    | with_reducible assumption
    | exact hc.mono rfl
    | intro t (ht : Only m s0 t)
    | intro _
    | with_reducible apply noteUnwritten_only
    | with_reducible apply onlyFold


theorem assignPages_only {s : State} (a : ℕ) (n : ℕ) (h : Only m s0 s) (hc : Sub 0x80 m) :
    Only m s0 (assignPages s a n) := by
  unfold assignPages
  repeat' first
    | with_reducible assumption
    | exact hc.mono rfl
    | intro _
    | lift_lets -underBinder
    | with_reducible apply only_written


theorem repairReport_only {s : State} (a : ℕ) (h : Only m s0 s) (hc : Sub 0x8000 m) :
    Only m s0 (repairReport s a) := by
  unfold repairReport
  repeat' first
    | with_reducible assumption
    | exact hc.mono rfl
    | with_reducible apply raise_only


theorem rowReport_only {s : State} (a : ℕ) (h : Only m s0 s) (hc : Sub 0x8000 m) :
    Only m s0 (rowReport s a) := by
  unfold rowReport
  repeat' first
    | with_reducible assumption
    | exact hc.mono rfl
    | intro _
    | with_reducible apply repairReport_only
    | with_reducible apply onlySkip
    | split


theorem setPoison_only {s : State} (a : ℕ) (b : Bool) (h : Only m s0 s) (hc : Sub 0x8302 m) :
    Only m s0 (setPoison s a b) := by
  unfold setPoison
  repeat' first
    | with_reducible assumption
    | exact hc.mono rfl
    | intro _
    | lift_lets -underBinder
    | with_reducible (first | apply rowReport_only | apply putReg_only)
    | with_reducible apply onlySkip
    | split
    | with_reducible (first | apply only_poison | apply only_corePoison)
    | (conv => arg 3; zeta)


theorem openPage_only {s : State} (a : ℕ) (h : Only m s0 s) (hc : Sub 0x83c2 m) :
    Only m s0 (openPage s a) := by
  unfold openPage
  repeat' first
    | with_reducible assumption
    | exact hc.mono rfl
    | intro t (ht : Only m s0 t)
    | intro _
    | lift_lets -underBinder
    | with_reducible apply setPoison_only
    | with_reducible (first | apply onlySkip | apply onlyFold)
    | split
    | with_reducible apply only_mem_written


theorem applyPiece_only {s : State} (a : ℕ) (bs : List Byte) (p : Bool) (h : Only m s0 s) (hc : Sub 0x83c2 m) :
    Only m s0 (applyPiece s a bs p).1 := by
  unfold applyPiece
  repeat' first
    | with_reducible assumption
    | exact hc.mono rfl
    | intro _
    | lift_lets -underBinder
    | with_reducible (first | apply openPage_only | apply setPoison_only)
    | with_reducible apply onlySkip
    | split
    | with_reducible apply only_mem
    | (conv => arg 3; zeta)


theorem writePieces_only {s : State} (n a off : Nat) (bs : List Byte) (pois : List Nat) (h : Only m s0 s) (hc : Sub 0x83c2 m) :
    Only m s0 (writePieces n s a off bs pois).1 := by
  induction n generalizing s a off bs with
  | zero => exact h
  | succ n ih =>
    unfold writePieces
    split
    · exact h
    · exact ih _ _ _ (applyPiece_only _ _ _ h (hc.mono rfl))

theorem writeMem_only {s : State} (a : Nat) (bs : List Byte) (pois : List Nat) (h : Only m s0 s) (hc : Sub 0x83c2 m) :
    Only m s0 (writeMem s a bs pois).1 := writePieces_only _ _ _ _ _ h hc

theorem oweNotice_only {s : State} (a : ℕ) (h : Only m s0 s) (hc : Sub 0x8000 m) :
    Only m s0 (oweNotice s a) := by
  unfold oweNotice
  repeat' first
    | with_reducible assumption
    | exact hc.mono rfl
    | intro _
    | lift_lets -underBinder
    | with_reducible apply onlySkip
    | split
    | with_reducible apply only_faults


theorem lineUncorrectable_only {s : State} (a : ℕ) (h : Only m s0 s) (hc : Sub 0x8302 m) :
    Only m s0 (lineUncorrectable s a) := by
  unfold lineUncorrectable
  repeat' first
    | with_reducible assumption
    | exact hc.mono rfl
    | intro _
    | lift_lets -underBinder
    | with_reducible (first | apply addPairSat_only | apply oweNotice_only | apply raise_only | apply setPoison_only)
    | split
    | (conv => arg 3; zeta)


theorem lineCorrected_only {s : State} (a : ℕ) (h : Only m s0 s) (hc : Sub 0x8002 m) :
    Only m s0 (lineCorrected s a) := by
  unfold lineCorrected
  repeat' first
    | with_reducible assumption
    | exact hc.mono rfl
    | intro _
    | lift_lets -underBinder
    | with_reducible (first | apply raise_only | apply addPairSat_only)
    | split
    | (conv => arg 3; zeta)


theorem lineDecoded_only {s : State} (a : ℕ) (o : EccOutcome) (h : Only m s0 s) (hc : Sub 0x8302 m) :
    Only m s0 (lineDecoded s a o) := by
  unfold lineDecoded
  repeat' first
    | with_reducible assumption
    | exact hc.mono rfl
    | intro _
    | lift_lets -underBinder
    | with_reducible (first | apply lineCorrected_only | apply lineUncorrectable_only)
    | with_reducible apply onlySkip
    | split
    | (conv => arg 3; zeta)


theorem decodeRange_only {s : State} (ecc : EccList) (a : ℕ) (n : ℕ) (h : Only m s0 s) (hc : Sub 0x8302 m) :
    Only m s0 (decodeRange s ecc a n) := by
  unfold decodeRange
  repeat' first
    | with_reducible assumption
    | exact hc.mono rfl
    | intro t (ht : Only m s0 t)
    | intro _
    | lift_lets -underBinder
    | with_reducible apply lineDecoded_only
    | with_reducible (first | apply onlySkip | apply onlyFold)
    | split


theorem submitOpen_only {s : State} (i : ℕ) (r : OpenReq) (h : Only m s0 s) (hc : Sub 0x1000000 m) :
    Only m s0 (submitOpen s i r) := by
  unfold submitOpen
  repeat' first
    | with_reducible assumption
    | exact hc.mono rfl
    | intro _
    | lift_lets -underBinder
    | with_reducible apply modSite_only


theorem cacheDrop_only {s : State} (i : ℕ) (p : ℕ → Bool) (h : Only m s0 s) (hc : Sub 0x1000000 m) :
    Only m s0 (cacheDrop s i p) := by
  unfold cacheDrop
  repeat' first
    | with_reducible assumption
    | exact hc.mono rfl
    | intro _
    | lift_lets -underBinder
    | with_reducible apply modSite_only


theorem cacheTouch_only {s : State} (i : ℕ) (line : ℕ) (h : Only m s0 s) (hc : Sub 0x1000000 m) :
    Only m s0 (cacheTouch s i line) := by
  unfold cacheTouch
  repeat' first
    | with_reducible assumption
    | exact hc.mono rfl
    | intro _
    | lift_lets -underBinder
    | with_reducible apply modSite_only


theorem cacheFill_only {s : State} (p : ℕ) (i : ℕ) (line : ℕ) (bs : List Byte) (h : Only m s0 s) (hc : Sub 0x1000000 m) :
    Only m s0 (cacheFill s p i line bs) := by
  unfold cacheFill
  repeat' first
    | with_reducible assumption
    | exact hc.mono rfl
    | intro _
    | lift_lets -underBinder
    | with_reducible (first | apply cacheDrop_only | apply modSite_only)
    | with_reducible apply onlySkip
    | split
    | (conv => arg 3; zeta)


theorem addSharer_only {s : State} (a : ℕ) (t : ℕ) (h : Only m s0 s) (hc : Sub 0x1000000 m) :
    Only m s0 (addSharer s a t) := by
  unfold addSharer
  repeat' first
    | with_reducible assumption
    | exact hc.mono rfl
    | intro _
    | lift_lets -underBinder
    | with_reducible apply modSite_only


theorem holdWrite_only {s : State} (h' : HeldWrite) (fn : ℕ) (q : ℕ) (c' : ℕ) (h : Only m s0 s) (hc : Sub 0x1000000 m) :
    Only m s0 (holdWrite s h' fn q c') := by
  unfold holdWrite
  repeat' first
    | with_reducible assumption
    | exact hc.mono rfl
    | intro t (ht : Only m s0 t)
    | intro _
    | lift_lets -underBinder
    | with_reducible (first | apply modSite_only | apply submitOpen_only | apply inval_only)
    | with_reducible apply onlyFold


theorem firmwareWrite_only {s : State} (a : ℕ) (bs : List Byte) (h : Only m s0 s) (hc : Sub 0x10083c2 m) :
    Only m s0 (firmwareWrite s a bs) := by
  unfold firmwareWrite
  repeat' first
    | with_reducible assumption
    | exact hc.mono rfl
    | intro _
    | lift_lets -underBinder
    | with_reducible (first | apply writeMem_only | apply holdWrite_only)
    | with_reducible apply onlySkip
    | split


theorem cacheForget_only {s : State} (i : ℕ) (p : ℕ → Bool) (h : Only m s0 s) (hc : Sub 0x1000000 m) :
    Only m s0 (cacheForget s i p) := by
  unfold cacheForget
  repeat' first
    | with_reducible assumption
    | exact hc.mono rfl
    | intro _
    | lift_lets -underBinder
    | with_reducible (first | apply modSite_only | apply cacheDrop_only)


theorem cacheUncorrectable_only {s : State} (i : ℕ) (line : ℕ) (h : Only m s0 s) (hc : Sub 0x1008002 m) :
    Only m s0 (cacheUncorrectable s i line) := by
  unfold cacheUncorrectable
  repeat' first
    | with_reducible assumption
    | exact hc.mono rfl
    | intro _
    | lift_lets -underBinder
    | with_reducible (first | apply addPairSat_only | apply cacheDrop_only | apply raise_only)


theorem emitRecs_only {s : State} (rs : List LogRec) (h : Only m s0 s) (hc : Sub 0x8022 m) :
    Only m s0 (emitRecs s rs) := by
  unfold emitRecs
  repeat' first
    | with_reducible assumption
    | exact hc.mono rfl
    | intro _
    | lift_lets -underBinder
    | with_reducible (first | apply raiseFlag_only | apply addPair_only)
    | with_reducible apply onlySkip
    | split
    | with_reducible apply only_faults


theorem combinerResolveTick_only {s : State} (h : Only m s0 s) (hc : Sub 0x8022 m) :
    Only m s0 (combinerResolveTick s) := by
  unfold combinerResolveTick
  repeat' first
    | with_reducible assumption
    | exact hc.mono rfl
    | intro t (ht : Only m s0 t)
    | intro _
    | lift_lets -underBinder
    | with_reducible (first | apply addPair_only | apply raiseFlag_only | apply emitRecs_only)
    | with_reducible (first | apply onlySkip | apply onlyFold)
    | split
    | with_reducible apply only_faults
    | (conv => arg 3; zeta)


theorem faultReport_only (r : Report) {s : State} (h : Only m s0 s) (hc : Sub 0x80000008022 m) :
    Only m s0 (faultReport r s) := by
  unfold faultReport
  repeat' first
    | with_reducible assumption
    | exact hc.mono rfl
    | intro _
    | lift_lets -underBinder
    | with_reducible (first | apply addPair_only | apply houseTrig_only | apply emitRecs_only | apply raiseFlag_only)
    | with_reducible apply onlySkip
    | split
    | with_reducible apply only_faults
    | (conv => arg 3; zeta)


theorem repeatWindowClose_only {s : State} (h : Only m s0 s) (hc : Sub 0x8022 m) :
    Only m s0 (repeatWindowClose s) := by
  unfold repeatWindowClose
  repeat' first
    | with_reducible assumption
    | exact hc.mono rfl
    | intro _
    | lift_lets -underBinder
    | with_reducible apply emitRecs_only
    | with_reducible apply onlySkip
    | split
    | with_reducible apply only_faults
    | (conv => arg 3; zeta)


theorem logWrite_only {s : State} (h : Only m s0 s) (hc : Sub 0x8002 m) :
    Only m s0 (logWrite s) := by
  unfold logWrite
  repeat' first
    | with_reducible assumption
    | exact hc.mono rfl
    | intro _
    | lift_lets -underBinder
    | with_reducible apply appendLog_only
    | with_reducible apply onlySkip
    | split
    | with_reducible apply only_faults
    | (conv => arg 3; zeta)


theorem modCtxCore_only {s : State} (h' : ℕ) (c' : ℕ) (f : CtxCore → CtxCore) (h : Only m s0 s) (hc : Sub 0x20000 m) :
    Only m s0 (modCtxCore s h' c' f) := by
  unfold modCtxCore
  repeat' first
    | with_reducible assumption
    | exact hc.mono rfl
    | intro _
    | lift_lets -underBinder
    | with_reducible apply modCtx_only
    | with_reducible apply onlySkip
    | split


theorem raiseCtx_only {s : State} (c' : ℕ) (x : Context) (cause : ℕ) (d0 : ℕ) (h : Only m s0 s) (hc : Sub 0x8000 m) :
    Only m s0 (raiseCtx s c' x cause d0) := by
  unfold raiseCtx
  repeat' first
    | with_reducible assumption
    | exact hc.mono rfl
    | with_reducible apply raise_only


theorem latch_only {s : State} (c' : ℕ) (x : Context) (cause : ℕ) (d0 : ℕ) (h : Only m s0 s) (hc : Sub 0x18000 m) :
    Only m s0 (latch s c' x cause d0) := by
  unfold latch
  repeat' first
    | with_reducible assumption
    | exact hc.mono rfl
    | intro _
    | lift_lets -underBinder
    | with_reducible (first | apply modCore_only | apply raiseCtx_only)


theorem loadRegion_only {s : State} (x : Context) (k : CtxCore) (off : ℕ) (n : ℕ) (h : Only m s0 s) (hc : Sub 0x18000 m) :
    Only m s0 (loadRegion s x k off n).1 := by
  unfold loadRegion
  repeat' first
    | with_reducible assumption
    | exact hc.mono rfl
    | intro _
    | lift_lets -underBinder
    | with_reducible apply latch_only
    | with_reducible apply onlySkip
    | split


theorem storeRegion_only {s : State} (k : CtxCore) (off : ℕ) (bs : List Byte) (pois : List ℕ) (h : Only m s0 s)
  (hc : Sub 0x83c2 m) :
    Only m s0 (storeRegion s k off bs pois) := by
  unfold storeRegion
  repeat' first
    | with_reducible assumption
    | exact hc.mono rfl
    | with_reducible apply writeMem_only


theorem decodeRegion_only {s : State} (k : CtxCore) (ecc : EccList) (off : ℕ) (n : ℕ) (h : Only m s0 s) (hc : Sub 0x8302 m) :
    Only m s0 (decodeRegion s k ecc off n) := by
  unfold decodeRegion
  repeat' first
    | with_reducible assumption
    | exact hc.mono rfl
    | with_reducible apply decodeRange_only


theorem postCounter_only {s : State} (x : Context) (c' : ℕ) (n : ℕ) (amount : ℕ) (h : Only m s0 s) (hc : Sub 0x38000 m) :
    Only m s0 (postCounter s x c' n amount) := by
  unfold postCounter
  repeat' first
    | with_reducible assumption
    | exact hc.mono rfl
    | intro _
    | lift_lets -underBinder
    | with_reducible (first | apply modCtxCore_only | apply latch_only)
    | with_reducible apply onlySkip
    | split
    | (conv => arg 3; zeta)


theorem runOp_only {s : State} (c' : ℕ) (sl : Slot) (op : SlotOp) (ready : CoreState → Bool)
  (f : Context → CtxCore → ℕ → State → State) (h : Only m s0 s)
  (hff : ∀ (v0 : Context) (v1 : CtxCore) (v2 : ℕ) (v3 : State), Only m s0 v3 → Only m s0 (f v0 v1 v2 v3)) (hc : Sub 0x10000 m) :
    Only m s0 (runOp s c' sl op ready f) := by
  unfold runOp
  repeat' first
    | with_reducible assumption
    | exact hc.mono rfl
    | intro t (ht : Only m s0 t)
    | intro _
    | with_reducible apply hff
    | lift_lets -underBinder
    | with_reducible apply putCore_only
    | with_reducible apply onlySkip
    | split
    | (conv => arg 3; zeta)


theorem readVregs_only {s : State} (x : Context) (c' : ℕ) (rs : List ℕ) (h : Only m s0 s) (hc : Sub 0x18000 m) :
    Only m s0 (readVregs s x c' rs) := by
  unfold readVregs
  repeat' first
    | with_reducible assumption
    | exact hc.mono rfl
    | intro _
    | with_reducible apply latch_only
    | with_reducible apply onlySkip
    | split


theorem lightMod_only {s : State} (i : ℕ) (idx : ℕ) (h : Only m s0 s) (hc : Sub 0x1000000 m) :
    Only m s0 (lightMod s i idx) := by
  unfold lightMod
  repeat' first
    | with_reducible assumption
    | exact hc.mono rfl
    | intro _
    | lift_lets -underBinder
    | with_reducible apply modSite_only
    | with_reducible apply onlySkip
    | split
    | (conv => arg 3; zeta)


theorem darkMod_only {s : State} (i : ℕ) (idx : ℕ) (h : Only m s0 s) (hc : Sub 0x1000000 m) :
    Only m s0 (darkMod s i idx) := by
  unfold darkMod
  repeat' first
    | with_reducible assumption
    | exact hc.mono rfl
    | intro _
    | lift_lets -underBinder
    | with_reducible apply modSite_only
    | split
    | (conv => arg 3; zeta)


theorem tuneRing_only {s : State} (d : ℕ) (g : ℕ) (l : ℕ) (h' : Option ℕ) (part : ℕ) (f : Ring → Ring) (h : Only m s0 s)
  (hc : Sub 0x1000000 m) :
    Only m s0 (tuneRing s d g l h' part f) := by
  unfold tuneRing
  repeat' first
    | with_reducible assumption
    | exact hc.mono rfl
    | intro _
    | lift_lets -underBinder
    | with_reducible apply modSite_only
    | split
    | (conv => arg 3; zeta)


theorem grantSite_only {s : State} (x : Context) (es : List ChanEntry) (d : ℕ) (h : Only m s0 s) (hc : Sub 0x1000002 m) :
    Only m s0 (grantSite s x es d) := by
  unfold grantSite
  repeat' first
    | with_reducible assumption
    | exact hc.mono rfl
    | intro t (ht : Only m s0 t)
    | intro _
    | lift_lets -underBinder
    | with_reducible (first | apply modSite_only | apply addPairSat_only | apply tuneRing_only)
    | with_reducible (first | apply onlySkip | apply onlyFold)
    | split


theorem txHold_only {s : State} (i : ℕ) (idx : ℕ) (h' : ℕ) (h : Only m s0 s) (hc : Sub 0x1000002 m) :
    Only m s0 (txHold s i idx h') := by
  unfold txHold
  repeat' first
    | with_reducible assumption
    | exact hc.mono rfl
    | intro _
    | lift_lets -underBinder
    | with_reducible (first | apply modSite_only | apply lightMod_only | apply putField_only)


theorem txFree_only {s : State} (i : ℕ) (idx : ℕ) (h : Only m s0 s) (hc : Sub 0x1000002 m) :
    Only m s0 (txFree s i idx) := by
  unfold txFree
  repeat' first
    | with_reducible assumption
    | exact hc.mono rfl
    | intro _
    | lift_lets -underBinder
    | with_reducible (first | apply modSite_only | apply darkMod_only | apply putField_only)
    | with_reducible apply onlySkip
    | split


theorem releaseChannels_only {s : State} (x : Context) (es : List ChanEntry) (h : Only m s0 s) (hc : Sub 0x1000002 m) :
    Only m s0 (releaseChannels s x es) := by
  unfold releaseChannels
  repeat' first
    | with_reducible assumption
    | exact hc.mono rfl
    | intro t (ht : Only m s0 t)
    | intro _
    | with_reducible apply txFree_only
    | with_reducible apply onlyFold


theorem grantSched_only {s : State} (x : Context) (es : List ChanEntry) (h : Only m s0 s) (hc : Sub 0x1000002 m) :
    Only m s0 (grantSched s x es) := by
  unfold grantSched
  repeat' first
    | with_reducible assumption
    | exact hc.mono rfl
    | intro t (ht : Only m s0 t)
    | intro _
    | lift_lets -underBinder
    | with_reducible (first | apply grantSite_only | apply txHold_only)
    | with_reducible apply onlyFold


theorem parkRings_only {s : State} (x : Context) (h : Only m s0 s) (hc : Sub 0x1000000 m) :
    Only m s0 (parkRings s x) := by
  unfold parkRings
  repeat' first
    | with_reducible assumption
    | exact hc.mono rfl
    | intro t (ht : Only m s0 t)
    | intro _
    | lift_lets -underBinder
    | with_reducible apply modSite_only
    | with_reducible apply onlyFold


theorem putTransfers_only {s : State} (i : ℕ) (idx : ℕ) (q : List Transfer) (h : Only m s0 s) (hc : Sub 0x1000000 m) :
    Only m s0 (putTransfers s i idx q) := by
  unfold putTransfers
  repeat' first
    | with_reducible assumption
    | exact hc.mono rfl
    | intro _
    | lift_lets -underBinder
    | with_reducible apply modSite_only


theorem sendFolded_only (i : ℕ) (t : Transfer) {s : State} (d : ℕ) (h : Only m s0 s) (hc : Sub 0x1000000 m) :
    Only m s0 (sendFolded i t s d) := by
  unfold sendFolded
  repeat' first
    | with_reducible assumption
    | exact hc.mono rfl
    | intro t (ht : Only m s0 t)
    | intro _
    | lift_lets -underBinder
    | with_reducible apply submitOpen_only
    | with_reducible apply onlyFold


theorem putOut_only {s : State} (i : ℕ) (idx : ℕ) (t : Transfer) (h : Only m s0 s) (hc : Sub 0x1000800 m) :
    Only m s0 (putOut s i idx t) := by
  unfold putOut
  repeat' first
    | with_reducible assumption
    | exact hc.mono rfl
    | intro t (ht : Only m s0 t)
    | intro _
    | lift_lets -underBinder
    | with_reducible (first | apply emit_only | apply sendFolded_only)
    | with_reducible apply onlyFold
    | split
    | (conv => arg 3; zeta)


theorem sendWaiting_only (i : ℕ) (idx : ℕ) {s : State} (t : Transfer) (h : Only m s0 s) (hc : Sub 0x1000800 m) :
    Only m s0 (sendWaiting i idx s t) := by
  unfold sendWaiting
  repeat' first
    | with_reducible assumption
    | exact hc.mono rfl
    | intro _
    | lift_lets -underBinder
    | with_reducible (first | apply move_only | apply modSite_only | apply putOut_only)
    | with_reducible apply onlySkip
    | split
    | (conv => arg 3; zeta)


theorem pumpTx_only {s : State} (i : ℕ) (idx : ℕ) (h : Only m s0 s) (hc : Sub 0x1000800 m) :
    Only m s0 (pumpTx s i idx) := by
  unfold pumpTx
  repeat' first
    | with_reducible assumption
    | exact hc.mono rfl
    | intro t (ht : Only m s0 t)
    | intro _
    | with_reducible apply sendWaiting_only
    | with_reducible apply onlyFold


theorem queueTransfer_only {s : State} (i : ℕ) (idx : ℕ) (t : Transfer) (h : Only m s0 s) (hc : Sub 0x1000800 m) :
    Only m s0 (queueTransfer s i idx t) := by
  unfold queueTransfer
  repeat' first
    | with_reducible assumption
    | exact hc.mono rfl
    | with_reducible (first | apply pumpTx_only | apply putTransfers_only)


theorem dropTransfers_only {s : State} (h' : ℕ) (h : Only m s0 s) (hc : Sub 0x1000000 m) :
    Only m s0 (dropTransfers s h') := by
  unfold dropTransfers
  repeat' first
    | with_reducible assumption
    | exact hc.mono rfl
    | intro t (ht : Only m s0 t)
    | intro _
    | lift_lets -underBinder
    | with_reducible apply modSite_only
    | with_reducible apply onlyFold
    | split
    | (conv => arg 3; zeta)


theorem pauseTx_only {s : State} (g : ℕ) (l : ℕ) (b : Bool) (h : Only m s0 s) (hc : Sub 0x1000000 m) :
    Only m s0 (pauseTx s g l b) := by
  unfold pauseTx
  repeat' first
    | with_reducible assumption
    | exact hc.mono rfl
    | intro _
    | lift_lets -underBinder
    | with_reducible apply modSite_only


theorem takeSlot_only {s : State} (i : ℕ) (idx : ℕ) (slot31 : Bool) (h' : Option ℕ) (ds : List (ℕ × ℕ × ℕ)) (h : Only m s0 s)
  (hc : Sub 0x1000000 m) :
    Only m s0 (takeSlot s i idx slot31 h' ds) := by
  unfold takeSlot
  repeat' first
    | with_reducible assumption
    | exact hc.mono rfl
    | intro t (ht : Only m s0 t)
    | intro _
    | lift_lets -underBinder
    | with_reducible (first | apply modSite_only | apply lightMod_only | apply tuneRing_only)
    | with_reducible (first | apply onlySkip | apply onlyFold)
    | split


theorem foldIndex_only {s : State} (i : ℕ) (idx : ℕ) (h : Only m s0 s) (hc : Sub 0x1000822 m) :
    Only m s0 (foldIndex s i idx) := by
  unfold foldIndex
  repeat' first
    | with_reducible assumption
    | exact hc.mono rfl
    | intro t (ht : Only m s0 t)
    | intro _
    | lift_lets -underBinder
    | with_reducible (first | apply raiseFlag_only | apply modSite_only | apply pumpTx_only | apply putOut_only)
    | with_reducible apply onlyFold


theorem placeIndex_only {s : State} (i : ℕ) (idx : ℕ) (h' : Option ℕ) (ds : List (ℕ × ℕ × ℕ)) (h : Only m s0 s)
  (hc : Sub 0x1008822 m) :
    Only m s0 (placeIndex s i idx h' ds) := by
  unfold placeIndex
  repeat' first
    | with_reducible assumption
    | exact hc.mono rfl
    | intro _
    | with_reducible (first | apply takeSlot_only | apply raiseFlag_only | apply foldIndex_only | apply raise_only)
    | with_reducible apply onlySkip
    | split


theorem failChannel_only {s : State} (d : ℕ) (g : ℕ) (l : ℕ) (h : Only m s0 s) (hc : Sub 0x1008022 m) :
    Only m s0 (failChannel s d g l) := by
  unfold failChannel
  repeat' first
    | with_reducible assumption
    | exact hc.mono rfl
    | intro t (ht : Only m s0 t)
    | intro _
    | lift_lets -underBinder
    | with_reducible (first | apply raiseFlag_only | apply addPairSat_only | apply raise_only | apply modSite_only | apply putField_only)
    | with_reducible (first | apply onlySkip | apply onlyFold)
    | split


theorem takeSpares_only {s : State} (h : Only m s0 s) (hc : Sub 0x1008822 m) :
    Only m s0 (takeSpares s) := by
  unfold takeSpares
  repeat' first
    | with_reducible assumption
    | exact hc.mono rfl
    | intro t (ht : Only m s0 t)
    | intro _
    | lift_lets -underBinder
    | with_reducible (first | apply placeIndex_only | apply modSite_only)
    | with_reducible apply onlyFold


theorem failRing_only {s : State} (d : ℕ) (ring : ℕ) (h : Only m s0 s) (hc : Sub 0x1008022 m) :
    Only m s0 (failRing s d ring) := by
  unfold failRing
  repeat' first
    | with_reducible assumption
    | exact hc.mono rfl
    | intro _
    | lift_lets -underBinder
    | with_reducible (first | apply raise_only | apply failChannel_only | apply modSite_only | apply raiseFlag_only | apply addPairSat_only | apply pauseTx_only | apply tuneRing_only)
    | with_reducible apply onlySkip
    | split
    | (conv => arg 3; zeta)


theorem openRing_only {s : State} (d : ℕ) (g : ℕ) (l : ℕ) (h : Only m s0 s) (hc : Sub 0x1000000 m) :
    Only m s0 (openRing s d g l) := by
  unfold openRing
  repeat' first
    | with_reducible assumption
    | exact hc.mono rfl
    | intro _
    | lift_lets -underBinder
    | with_reducible apply tuneRing_only


theorem openShareAt_only {s : State} (d : ℕ) (h : Only m s0 s) (hc : Sub 0x1000002 m) :
    Only m s0 (openShareAt s d) := by
  unfold openShareAt
  repeat' first
    | with_reducible assumption
    | exact hc.mono rfl
    | intro t (ht : Only m s0 t)
    | intro _
    | lift_lets -underBinder
    | with_reducible (first | apply openRing_only | apply lightMod_only | apply putField_only | apply putBit_only)
    | with_reducible (first | apply onlySkip | apply onlyFold)
    | split
    | (conv => arg 3; zeta)


theorem reopenShare_only {s : State} (d : ℕ) (h : Only m s0 s) (hc : Sub 0x1000002 m) :
    Only m s0 (reopenShare s d) := by
  unfold reopenShare
  repeat' first
    | with_reducible assumption
    | exact hc.mono rfl
    | intro _
    | with_reducible apply openShareAt_only
    | with_reducible apply onlySkip
    | split


theorem sendPost_only (x : Context) (c' : ℕ) {s : State} (p : RemotePost) (h : Only m s0 s) (hc : Sub 0x1010800 m) :
    Only m s0 (sendPost x c' s p) := by
  unfold sendPost
  repeat' first
    | with_reducible assumption
    | exact hc.mono rfl
    | intro _
    | lift_lets -underBinder
    | with_reducible (first | apply modCore_only | apply emit_only | apply queueTransfer_only)
    | with_reducible apply onlySkip
    | split
    | (conv => arg 3; zeta)


theorem sendPosts_only {s : State} (c' : ℕ) (h : Only m s0 s) (hc : Sub 0x1010800 m) :
    Only m s0 (sendPosts s c') := by
  unfold sendPosts
  repeat' first
    | with_reducible assumption
    | exact hc.mono rfl
    | intro t (ht : Only m s0 t)
    | intro _
    | lift_lets -underBinder
    | with_reducible apply sendPost_only
    | with_reducible apply onlyFold
    | split
    | (conv => arg 3; zeta)


theorem applyPost_only {s : State} (c' : ℕ) (x : Context) (f : PostF) (h : Only m s0 s) (hc : Sub 0x1000001038800 m) :
    Only m s0 (applyPost s c' x f) := by
  unfold applyPost
  repeat' first
    | with_reducible assumption
    | exact hc.mono rfl
    | intro _
    | lift_lets -underBinder
    | with_reducible (first | apply modCore_only | apply sendPosts_only | apply postCounter_only)
    | split
    | with_reducible apply only_nextId
    | (conv => arg 3; zeta)


theorem runPosts_only {s : State} (c' : ℕ) (h : Only m s0 s) (hc : Sub 0x1000001038800 m) :
    Only m s0 (runPosts s c') := by
  unfold runPosts
  repeat' first
    | with_reducible assumption
    | exact hc.mono rfl
    | intro t (ht : Only m s0 t)
    | intro _
    | lift_lets -underBinder
    | with_reducible (first | apply putCore_only | apply applyPost_only)
    | with_reducible apply onlyFold
    | split
    | (conv => arg 3; zeta)


theorem takeTransfer_only {s : State} (i : ℕ) (idx : ℕ) (d : ℕ) (t : Transfer) (h : Only m s0 s) (hc : Sub 0x1000000 m) :
    Only m s0 (takeTransfer s i idx d t) := by
  unfold takeTransfer
  repeat' first
    | with_reducible assumption
    | exact hc.mono rfl
    | intro _
    | lift_lets -underBinder
    | with_reducible (first | apply move_only | apply putTransfers_only | apply modSite_only)
    | with_reducible apply onlySkip
    | split
    | (conv => arg 3; zeta)


theorem perfAdd_only {s : State} (c' : ℕ) (off : ℕ) (n : ℕ) (h : Only m s0 s) (hc : Sub 0x2 m) :
    Only m s0 (perfAdd s c' off n) := by
  unfold perfAdd
  repeat' first
    | with_reducible assumption
    | exact hc.mono rfl
    | intro _
    | with_reducible apply addPair_only
    | with_reducible apply onlySkip
    | split


theorem vecRun_only (op : VecOp) (c' : ℕ) (f : VecF) {s : State} (h : Only m s0 s) (hc : Sub 0x1000001038802 m) :
    Only m s0 (vecRun op c' f s) := by
  unfold vecRun
  repeat' first
    | with_reducible assumption
    | exact hc.mono rfl
    | intro t (ht : Only m s0 t)
    | intro _
    | lift_lets -underBinder
    | with_reducible (first | apply runOp_only | apply readVregs_only | apply perfAdd_only | apply putCore_only | apply runPosts_only)
    | with_reducible (first | apply onlySkip | apply onlyFold)
    | split


theorem vld_only (c' : ℕ) (f : VMemF) (ecc : EccList) {s : State} (h : Only m s0 s) (hc : Sub 0x1000001038b02 m) :
    Only m s0 (vld c' f ecc s) := by
  unfold vld
  repeat' first
    | with_reducible assumption
    | exact hc.mono rfl
    | intro t (ht : Only m s0 t)
    | intro _
    | lift_lets -underBinder
    | with_reducible (first | apply runOp_only | apply loadRegion_only | apply decodeRegion_only | apply putCore_only | apply runPosts_only | apply perfAdd_only)
    | with_reducible (first | apply onlySkip | apply onlyFold | apply onlyFold1)
    | split
    | (conv => arg 3; zeta)


theorem vst_only (c' : ℕ) (f : VMemF) {s : State} (h : Only m s0 s) (hc : Sub 0x1000001038bc2 m) :
    Only m s0 (vst c' f s) := by
  unfold vst
  repeat' first
    | with_reducible assumption
    | exact hc.mono rfl
    | intro t (ht : Only m s0 t)
    | intro _
    | lift_lets -underBinder
    | with_reducible (first | apply runOp_only | apply readVregs_only | apply storeRegion_only | apply runPosts_only | apply perfAdd_only)
    | with_reducible (first | apply onlySkip | apply onlyFold)
    | split
    | (conv => arg 3; zeta)


theorem transcendentalResult_only (c' : ℕ) {s : State} (h : Only m s0 s) (hc : Sub 0x1000001038800 m) :
    Only m s0 (transcendentalResult c' s) := by
  unfold transcendentalResult
  repeat' first
    | with_reducible assumption
    | exact hc.mono rfl
    | intro _
    | lift_lets -underBinder
    | with_reducible (first | apply runPosts_only | apply modCore_only)


theorem hostWrite_only {s : State} (fn : ℕ) (a : ℕ) (bs : List Byte) (h : Only m s0 s) (hc : Sub 0x400 m) :
    Only m s0 (hostWrite s fn a bs) := by
  unfold hostWrite
  repeat' first
    | with_reducible assumption
    | exact hc.mono rfl
    | intro _
    | lift_lets -underBinder
    | with_reducible apply only_hostMem


theorem cqInterrupt_only {s : State} (n : ℕ) (h : Only m s0 s) (hc : Sub 0x8000802 m) :
    Only m s0 (cqInterrupt s n) := by
  unfold cqInterrupt
  repeat' first
    | with_reducible assumption
    | exact hc.mono rfl
    | intro _
    | lift_lets -underBinder
    | with_reducible (first | apply msix_only | apply putQp_only | apply dbError_only)


theorem cqWrite_only {s : State} (n : ℕ) (ws : List ℕ) (h : Only m s0 s) (hc : Sub 0x8000c02 m) :
    Only m s0 (cqWrite s n ws) := by
  unfold cqWrite
  repeat' first
    | with_reducible assumption
    | exact hc.mono rfl
    | intro _
    | lift_lets -underBinder
    | with_reducible (first | apply hostWrite_only | apply dbError_only | apply putQp_only | apply cqInterrupt_only)
    | with_reducible apply onlySkip
    | split


theorem complete_only {s : State} (seq : ℕ) (cq : ℕ) (c' : Cpl) (h : Only m s0 s) (hc : Sub 0x100000 m) :
    Only m s0 (complete s seq cq c') := by
  unfold complete
  repeat' first
    | with_reducible assumption
    | exact hc.mono rfl
    | intro _
    | lift_lets -underBinder
    | with_reducible apply only_ended


theorem writeCompletion_only {s : State} (e : Ended) (h : Only m s0 s) (hc : Sub 0x8000c02 m) :
    Only m s0 (writeCompletion s e) := by
  unfold writeCompletion
  repeat' first
    | with_reducible assumption
    | exact hc.mono rfl
    | intro _
    | lift_lets -underBinder
    | with_reducible (first | apply modQp_only | apply dbError_only | apply addPairSat_only | apply cqWrite_only | apply putQp_only)
    | with_reducible apply onlySkip
    | split


theorem cqFlush_only {s : State} (n : ℕ) (h : Only m s0 s) (hc : Sub 0x8000c02 m) :
    Only m s0 (cqFlush s n) := by
  unfold cqFlush
  repeat' first
    | with_reducible assumption
    | exact hc.mono rfl
    | intro t (ht : Only m s0 t)
    | intro _
    | lift_lets -underBinder
    | with_reducible (first | apply cqWrite_only | apply modQp_only | apply dbError_only)
    | with_reducible apply onlyFold


theorem dmaStat_only {s : State} (ch : ℕ) (h : Only m s0 s) (hc : Sub 0x2 m) :
    Only m s0 (dmaStat s ch) := by
  unfold dmaStat
  repeat' first
    | with_reducible assumption
    | exact hc.mono rfl
    | intro _
    | lift_lets -underBinder
    | with_reducible (first | apply putField_only | apply putBit_only)
    | with_reducible apply onlySkip
    | split
    | (conv => arg 3; zeta)


theorem endCopy_only {s : State} (ch : ℕ) (r : CopyRec) (status : ℕ) (cause : ℕ) (h : Only m s0 s) (hc : Sub 0x200100002 m) :
    Only m s0 (endCopy s ch r status cause) := by
  unfold endCopy
  repeat' first
    | with_reducible assumption
    | exact hc.mono rfl
    | intro _
    | lift_lets -underBinder
    | with_reducible (first | apply dmaStat_only | apply putDma_only | apply complete_only)


theorem copyProgress_only {s : State} (ch : ℕ) (h : Only m s0 s) (hc : Sub 0x200100002 m) :
    Only m s0 (copyProgress s ch) := by
  unfold copyProgress
  repeat' first
    | with_reducible assumption
    | exact hc.mono rfl
    | intro _
    | lift_lets -underBinder
    | with_reducible apply endCopy_only
    | with_reducible apply onlySkip
    | split
    | (conv => arg 3; zeta)


theorem modCopy_only {s : State} (ch : ℕ) (f : CopyRec → CopyRec) (h : Only m s0 s) (hc : Sub 0x200000000 m) :
    Only m s0 (modCopy s ch f) := by
  unfold modCopy
  repeat' first
    | with_reducible assumption
    | exact hc.mono rfl
    | intro _
    | lift_lets -underBinder
    | with_reducible apply putDma_only
    | split
    | (conv => arg 3; zeta)


theorem copyAnswered_only {s : State} (ch : ℕ) (id : ℕ) (f : CopyRec → CopyRec) (h : Only m s0 s) (hc : Sub 0x200100002 m) :
    Only m s0 (copyAnswered s ch id f) := by
  unfold copyAnswered
  repeat' first
    | with_reducible assumption
    | exact hc.mono rfl
    | intro _
    | lift_lets -underBinder
    | with_reducible (first | apply copyProgress_only | apply modCopy_only)
    | with_reducible apply onlySkip
    | split
    | (conv => arg 3; zeta)


theorem keyRefused_only {s : State} (i : ℕ) (p : Packet) (h : Only m s0 s) (hc : Sub 0x8022 m) :
    Only m s0 (keyRefused s i p) := by
  unfold keyRefused
  repeat' first
    | with_reducible assumption
    | exact hc.mono rfl
    | intro _
    | lift_lets -underBinder
    | with_reducible (first | apply raiseFlag_only | apply addPairSat_only | apply raise_only)


theorem egressRefused_only {s : State} (i : ℕ) (part : ℕ) (p : Packet) (h : Only m s0 s) (hc : Sub 0x8022 m) :
    Only m s0 (egressRefused s i part p) := by
  unfold egressRefused
  repeat' first
    | with_reducible assumption
    | exact hc.mono rfl
    | intro _
    | lift_lets -underBinder
    | with_reducible (first | apply raiseFlag_only | apply raise_only)


theorem modMove_only {s : State} (c' : ℕ) (id : ℕ) (f : MoveRec → MoveRec) (h : Only m s0 s) (hc : Sub 0x10000 m) :
    Only m s0 (modMove s c' id f) := by
  unfold modMove
  repeat' first
    | with_reducible assumption
    | exact hc.mono rfl
    | intro _
    | lift_lets -underBinder
    | with_reducible apply modCore_only
    | with_reducible apply onlySkip
    | split


theorem failFlagged_only {s : State} (i : ℕ) (r : OpenReq) (code : ℕ) (h : Only m s0 s) (hc : Sub 0x1000000 m) :
    Only m s0 (failFlagged s i r code) := by
  unfold failFlagged
  repeat' first
    | with_reducible assumption
    | exact hc.mono rfl
    | intro _
    | lift_lets -underBinder
    | with_reducible apply modSite_only
    | with_reducible apply onlySkip
    | split
    | (conv => arg 3; zeta)


theorem answerCopy_only {s : State} (ch : ℕ) (id : ℕ) (a : ℕ) (n : ℕ) (code : ℕ) (data : List Byte) (h : Only m s0 s)
  (hc : Sub 0x200100402 m) :
    Only m s0 (answerCopy s ch id a n code data) := by
  unfold answerCopy
  repeat' first
    | with_reducible assumption
    | exact hc.mono rfl
    | intro _
    | lift_lets -underBinder
    | with_reducible (first | apply hostWrite_only | apply copyAnswered_only)
    | with_reducible apply onlySkip
    | split
    | (conv => arg 3; zeta)


theorem finishReq_only {s : State} (i : ℕ) (r : OpenReq) (code : ℕ) (data : List Byte) (fill : Bool) (h : Only m s0 s)
  (hc : Sub 0x201110402 m) :
    Only m s0 (finishReq s i r code data fill) := by
  unfold finishReq
  repeat' first
    | with_reducible assumption
    | exact hc.mono rfl
    | intro _
    | lift_lets -underBinder
    | with_reducible (first | apply failFlagged_only | apply modMove_only | apply cacheFill_only | apply answerCopy_only)
    | with_reducible apply onlySkip
    | split
    | (conv => arg 3; zeta)


theorem refuseLocal_only {s : State} (i : ℕ) (r : OpenReq) (code : ℕ) (h : Only m s0 s) (hc : Sub 0x201110402 m) :
    Only m s0 (refuseLocal s i r code) := by
  unfold refuseLocal
  repeat' first
    | with_reducible assumption
    | exact hc.mono rfl
    | with_reducible apply finishReq_only


theorem numberReq_only {s : State} (i : ℕ) (r : OpenReq) (h : Only m s0 s) (hc : Sub 0x1000001000000 m) :
    Only m s0 (numberReq s i r).1 := by
  unfold numberReq
  repeat' first
    | with_reducible assumption
    | exact hc.mono rfl
    | intro _
    | lift_lets -underBinder
    | with_reducible apply modSite_only
    | with_reducible apply only_nextId


theorem openEntry_only {s : State} (i : ℕ) (p : Packet) (h : Only m s0 s) (hc : Sub 0x1000000 m) :
    Only m s0 (openEntry s i p) := by
  unfold openEntry
  repeat' first
    | with_reducible assumption
    | exact hc.mono rfl
    | intro _
    | lift_lets -underBinder
    | with_reducible apply modSite_only
    | with_reducible apply onlySkip
    | split


theorem attachRead_only {s t : State} (i reg : Nat) (r : OpenReq) (e : attachRead s i reg r = some t) (h : Only m s0 s)
    (hc : Sub 0x1000002 m) : Only m s0 t := by
  unfold attachRead at e
  split at e
  · injection e with e; subst e; exact addPairSat_only _ _ (modSite_only _ _ h (hc.mono rfl)) (hc.mono rfl)
  · cases e

theorem sendReq_only {s : State} (i : Nat) (r : OpenReq) (h : Only m s0 s) (hc : Sub 0x1000002 m) : Only m s0 (sendReq s i r) := by
  unfold sendReq
  extract_lets s1
  have h1 : Only m s0 s1 := onlySkip h fun h => addPairSat_only _ _ h (hc.mono rfl)
  clear_value s1
  split
  · exact attachRead_only _ _ _ (by assumption) h1 (hc.mono rfl)
  · have h2 := openEntry_only i r.p h1 (hc.mono rfl)
    exact onlyIte (modSite_only _ _ h2 (hc.mono rfl)) (submitOpen_only _ _ h2 (hc.mono rfl))

theorem checkAndSend_only {s : State} (i : ℕ) (part : ℕ) (r : OpenReq) (h : Only m s0 s) (hc : Sub 0x201118422 m) :
    Only m s0 (checkAndSend s i part r) := by
  unfold checkAndSend
  repeat' first
    | with_reducible assumption
    | exact hc.mono rfl
    | intro _
    | lift_lets -underBinder
    | with_reducible (first | apply sendReq_only | apply refuseLocal_only | apply keyRefused_only | apply egressRefused_only)
    | split
    | (conv => arg 3; zeta)


theorem originate_only {s : State} (i : ℕ) (part : ℕ) (r : OpenReq) (h : Only m s0 s) (hc : Sub 0x1000201118422 m) :
    Only m s0 (originate s i part r) := by
  unfold originate
  repeat' first
    | with_reducible assumption
    | exact hc.mono rfl
    | intro _
    | lift_lets -underBinder
    | with_reducible (first | apply numberReq_only | apply addPairSat_only | apply modSite_only | apply checkAndSend_only)
    | with_reducible apply onlySkip
    | split


theorem flaggedStoreRelease_only (i : ℕ) (tag : ℕ) {s : State} (h : Only m s0 s) (hc : Sub 0x201118422 m) :
    Only m s0 (flaggedStoreRelease i tag s) := by
  unfold flaggedStoreRelease
  repeat' first
    | with_reducible assumption
    | exact hc.mono rfl
    | intro _
    | lift_lets -underBinder
    | with_reducible (first | apply modSite_only | apply finishReq_only | apply checkAndSend_only)
    | with_reducible apply onlySkip
    | split
    | (conv => arg 3; zeta)


theorem issueReq_only {s : State} (x : Context) (c' : ℕ) (id : ℕ) (r : OpenReq) (h : Only m s0 s) (hc : Sub 0x1000201118422 m) :
    Only m s0 (issueReq s x c' id r) := by
  unfold issueReq
  repeat' first
    | with_reducible assumption
    | exact hc.mono rfl
    | intro _
    | lift_lets -underBinder
    | with_reducible (first | apply originate_only | apply modMove_only)


theorem cacheDecoded_only (ecc : EccList) (i : ℕ) (line : ℕ) {s : State} (h : Only m s0 s) (hc : Sub 0x1008002 m) :
    Only m s0 (cacheDecoded ecc i line s) := by
  unfold cacheDecoded
  repeat' first
    | with_reducible assumption
    | exact hc.mono rfl
    | intro t (ht : Only m s0 t)
    | intro _
    | lift_lets -underBinder
    | with_reducible (first | apply cacheUncorrectable_only | apply raise_only | apply addPairSat_only)
    | with_reducible (first | apply onlySkip | apply onlyFold)
    | split
    | (conv => arg 3; zeta)


theorem readLine_only (x : Context) (c' : ℕ) (id : ℕ) (ecc : EccList) {s : State} (line : ℕ) (h : Only m s0 s)
  (hc : Sub 0x1000201118422 m) :
    Only m s0 (readLine x c' id ecc s line) := by
  unfold readLine
  repeat' first
    | with_reducible assumption
    | exact hc.mono rfl
    | intro _
    | lift_lets -underBinder
    | with_reducible (first | apply cacheDecoded_only | apply cacheTouch_only | apply addPairSat_only | apply modMove_only | apply issueReq_only)
    | split
    | (conv => arg 3; zeta)


theorem sendReads_only {s : State} (x : Context) (c' : ℕ) (id : ℕ) (a : ℕ) (n : ℕ) (chan : ℕ) (ecc : EccList) (h : Only m s0 s)
  (hc : Sub 0x1000201118422 m) :
    Only m s0 (sendReads s x c' id a n chan ecc) := by
  unfold sendReads
  repeat' first
    | with_reducible assumption
    | exact hc.mono rfl
    | intro t (ht : Only m s0 t)
    | intro _
    | with_reducible (first | apply readLine_only | apply issueReq_only)
    | with_reducible (first | apply onlySkip | apply onlyFold)
    | split


theorem sendWrites_only {s : State} (x : Context) (c' : ℕ) (id : ℕ) (m' : MoveRec) (h : Only m s0 s)
  (hc : Sub 0x1000201118422 m) :
    Only m s0 (sendWrites s x c' id m') := by
  unfold sendWrites
  repeat' first
    | with_reducible assumption
    | exact hc.mono rfl
    | intro t (ht : Only m s0 t)
    | intro _
    | lift_lets -underBinder
    | with_reducible (first | apply refuseLocal_only | apply modMove_only | apply numberReq_only | apply issueReq_only)
    | with_reducible (first | apply onlySkip | apply onlyFold | apply onlyFold1)
    | split


theorem decodeArgs_only {s : State} (k : CtxCore) (d : MoveDesc) (drained : Bool) (ecc : EccList) (h : Only m s0 s)
  (hc : Sub 0x8302 m) :
    Only m s0 (decodeArgs s k d drained ecc) := by
  unfold decodeArgs
  repeat' first
    | with_reducible assumption
    | exact hc.mono rfl
    | intro _
    | lift_lets -underBinder
    | with_reducible apply decodeRegion_only
    | with_reducible apply onlySkip
    | split
    | (conv => arg 3; zeta)


theorem issueMove_only {s : State} (x : Context) (k : CtxCore) (no : ℕ) (d : MoveDesc) (drained : Option (List Byte × Bool))
  (ecc : EccList) (h : Only m s0 s) (hc : Sub 0x1000201118722 m) :
    Only m s0 (issueMove s x k no d drained ecc) := by
  unfold issueMove
  repeat' first
    | with_reducible assumption
    | exact hc.mono rfl
    | intro _
    | lift_lets -underBinder
    | with_reducible (first | apply decodeArgs_only | apply latch_only | apply modCore_only | apply sendReads_only | apply decodeRange_only)
    | with_reducible apply onlySkip
    | split
    | with_reducible apply only_nextId
    | (conv => arg 3; zeta)


theorem move_only (c' : ℕ) (index : BitVec 16) (ecc : EccList) {s : State} (h : Only m s0 s) (hc : Sub 0x1000201118722 m) :
    Only m s0 (move c' index ecc s) := by
  unfold move
  repeat' first
    | with_reducible assumption
    | exact hc.mono rfl
    | intro _
    | with_reducible (first | apply runOp_only | apply issueMove_only)
    | with_reducible apply onlySkip
    | split


theorem leaveMove_only {s : State} (x : Context) (k : CtxCore) (m' : MoveRec) (h : Only m s0 s) (hc : Sub 0x1000201338c22 m) :
    Only m s0 (leaveMove s x k m') := by
  unfold leaveMove
  repeat' first
    | with_reducible assumption
    | exact hc.mono rfl
    | intro _
    | lift_lets -underBinder
    | with_reducible (first | apply noteRead_only | apply latch_only | apply modMove_only | apply postCounter_only | apply sendWrites_only | apply queueTransfer_only | apply sendPosts_only)
    | with_reducible apply onlySkip
    | split
    | (conv => arg 3; zeta)


theorem moveLastByteLeftSource_only (c' : ℕ) (id : ℕ) {s : State} (h : Only m s0 s) (hc : Sub 0x1000201338c22 m) :
    Only m s0 (moveLastByteLeftSource c' id s) := by
  unfold moveLastByteLeftSource
  repeat' first
    | with_reducible assumption
    | exact hc.mono rfl
    | intro _
    | lift_lets -underBinder
    | with_reducible apply leaveMove_only
    | with_reducible apply onlySkip
    | split
    | (conv => arg 3; zeta)


theorem postDst_only {s : State} (x : Context) (c' : ℕ) (m' : MoveRec) (h : Only m s0 s) (hc : Sub 0x38000 m) :
    Only m s0 (postDst s x c' m') := by
  unfold postDst
  repeat' first
    | with_reducible assumption
    | exact hc.mono rfl
    | intro t (ht : Only m s0 t)
    | intro _
    | lift_lets -underBinder
    | with_reducible apply postCounter_only
    | with_reducible (first | apply onlySkip | apply onlyFold)
    | split
    | (conv => arg 3; zeta)


theorem dropMoveTransfers_only {s : State} (c' : ℕ) (m' : MoveRec) (h : Only m s0 s) (hc : Sub 0x1000000 m) :
    Only m s0 (dropMoveTransfers s c' m') := by
  unfold dropMoveTransfers
  repeat' first
    | with_reducible assumption
    | exact hc.mono rfl
    | intro t (ht : Only m s0 t)
    | intro _
    | lift_lets -underBinder
    | with_reducible (first | apply modSite_only | apply move_only)
    | with_reducible (first | apply onlySkip | apply onlyFold)
    | split


theorem endMove_only {s : State} (x : Context) (c' : ℕ) (m' : MoveRec) (st : XferStatus) (h : Only m s0 s)
  (hc : Sub 0x1000001038800 m) :
    Only m s0 (endMove s x c' m' st) := by
  unfold endMove
  repeat' first
    | with_reducible assumption
    | exact hc.mono rfl
    | intro _
    | lift_lets -underBinder
    | with_reducible (first | apply postCounter_only | apply dropMoveTransfers_only | apply postDst_only | apply latch_only | apply sendPosts_only | apply runPosts_only | apply modCore_only)
    | with_reducible apply onlySkip
    | split
    | (conv => arg 3; zeta)


theorem writeDsts_only {s : State} (m' : MoveRec) (h : Only m s0 s) (hc : Sub 0x83c2 m) :
    Only m s0 (writeDsts s m').1 := by
  unfold writeDsts
  repeat' first
    | with_reducible assumption
    | exact hc.mono rfl
    | intro t (ht : Only m s0 t)
    | intro _
    | lift_lets -underBinder
    | with_reducible apply writeMem_only
    | with_reducible (first | apply onlyFold | apply onlyFold1)
    | split
    | (conv => arg 3; zeta)


theorem moveComplete_only (c' : ℕ) (id : ℕ) (status : XferStatus) {s : State} (h : Only m s0 s) (hc : Sub 0x1000201338fe2 m) :
    Only m s0 (moveComplete c' id status s) := by
  unfold moveComplete
  repeat' first
    | with_reducible assumption
    | exact hc.mono rfl
    | intro _
    | lift_lets -underBinder
    | with_reducible (first | apply endMove_only | apply leaveMove_only | apply holdWrite_only | apply modMove_only | apply move_only | apply writeDsts_only)
    | with_reducible apply onlySkip
    | split
    | (conv => arg 3; zeta)


theorem accFault_only {s : State} (x : Context) (c' : ℕ) (key : ℕ) (zero : Bool) (wlo : ℤ) (h' : ℕ) (h : Only m s0 s)
  (hc : Sub 0x18000 m) :
    Only m s0 (accFault s x c' key zero wlo h') := by
  unfold accFault
  repeat' first
    | with_reducible assumption
    | exact hc.mono rfl
    | intro _
    | lift_lets -underBinder
    | with_reducible apply latch_only
    | split
    | (conv => arg 3; zeta)


theorem mmaArray_only {s : State} (x : Context) (k : CtxCore) (ta : Td) (f : MmaF) (cols : List (List OpBlock)) (poisonB : Bool)
  (arr : ℕ × ℕ) (h : Only m s0 s) (hc : Sub 0x18000 m) :
    Only m s0 (mmaArray s x k ta f cols poisonB arr) := by
  unfold mmaArray
  repeat' first
    | with_reducible assumption
    | exact hc.mono rfl
    | intro _
    | lift_lets -underBinder
    | with_reducible (first | apply accFault_only | apply putCore_only)
    | with_reducible apply onlySkip
    | split
    | (conv => arg 3; zeta)


theorem countArray_only {s : State} (k : CtxCore) (ta : Td) (cols : List (List OpBlock)) (arr : ℕ × ℕ) (h : Only m s0 s)
  (hc : Sub 0x2 m) :
    Only m s0 (countArray s k ta cols arr) := by
  unfold countArray
  repeat' first
    | with_reducible assumption
    | exact hc.mono rfl
    | intro _
    | lift_lets -underBinder
    | with_reducible apply perfAdd_only
    | with_reducible apply onlySkip
    | split


theorem decodeRanges_only {s : State} (k : CtxCore) (ecc : EccList) (rs : List (ℕ × ℕ)) (h : Only m s0 s) (hc : Sub 0x8302 m) :
    Only m s0 (decodeRanges s k ecc rs) := by
  unfold decodeRanges
  repeat' first
    | with_reducible assumption
    | exact hc.mono rfl
    | intro t (ht : Only m s0 t)
    | intro _
    | with_reducible apply decodeRegion_only
    | with_reducible (first | apply onlySkip | apply onlyFold)
    | split


theorem mma_only (c' : ℕ) (f : MmaF) (ecc : EccList) {s : State} (h : Only m s0 s) (hc : Sub 0x1000001038b02 m) :
    Only m s0 (mma c' f ecc s) := by
  unfold mma
  repeat' first
    | with_reducible assumption
    | exact hc.mono rfl
    | intro t (ht : Only m s0 t)
    | intro _
    | lift_lets -underBinder
    | with_reducible (first | apply runOp_only | apply decodeRanges_only | apply latch_only | apply countArray_only | apply mmaArray_only | apply runPosts_only | apply modCore_only)
    | with_reducible (first | apply onlySkip | apply onlyFold)
    | split
    | (conv => arg 3; zeta)


theorem ldtd_only (c' : ℕ) (r : Fin 16) (index : BitVec 12) {s : State} (h : Only m s0 s) (hc : Sub 0x1000001038800 m) :
    Only m s0 (ldtd c' r index s) := by
  unfold ldtd
  repeat' first
    | with_reducible assumption
    | exact hc.mono rfl
    | intro _
    | lift_lets -underBinder
    | with_reducible (first | apply runOp_only | apply runPosts_only | apply modCtxCore_only)
    | with_reducible apply onlySkip
    | split


theorem mergeArray_only {s : State} (x : Context) (k : CtxCore) (t : Td) (f : MergeF) (arr : ℕ × ℕ) (h : Only m s0 s)
  (hc : Sub 0x18000 m) :
    Only m s0 (mergeArray s x k t f arr) := by
  unfold mergeArray
  repeat' first
    | with_reducible assumption
    | exact hc.mono rfl
    | intro _
    | lift_lets -underBinder
    | with_reducible (first | apply accFault_only | apply putCore_only | apply latch_only)
    | with_reducible apply onlySkip
    | split
    | (conv => arg 3; zeta)


theorem merge_only (c' : ℕ) (f : MergeF) (ecc : EccList) {s : State} (h : Only m s0 s) (hc : Sub 0x1000001038b02 m) :
    Only m s0 (merge c' f ecc s) := by
  unfold merge
  repeat' first
    | with_reducible assumption
    | exact hc.mono rfl
    | intro t (ht : Only m s0 t)
    | intro _
    | lift_lets -underBinder
    | with_reducible (first | apply runOp_only | apply decodeRanges_only | apply mergeArray_only | apply runPosts_only | apply modCore_only)
    | with_reducible (first | apply onlySkip | apply onlyFold)
    | split


theorem storeDrain_only {s : State} (k : CtxCore) (t : Td) (rank : ℕ) (rows : List DrainRow) (p : Bool) (h : Only m s0 s)
  (hc : Sub 0x83c2 m) :
    Only m s0 (storeDrain s k t rank rows p) := by
  unfold storeDrain
  repeat' first
    | with_reducible assumption
    | exact hc.mono rfl
    | intro t (ht : Only m s0 t)
    | intro _
    | lift_lets -underBinder
    | with_reducible apply storeRegion_only
    | with_reducible (first | apply onlySkip | apply onlyFold)
    | split


theorem drain_only (c' : ℕ) (f : DrainF) {s : State} (h : Only m s0 s) (hc : Sub 0x1000201138fe2 m) :
    Only m s0 (drain c' f s) := by
  unfold drain
  repeat' first
    | with_reducible assumption
    | exact hc.mono rfl
    | intro t (ht : Only m s0 t)
    | intro _
    | lift_lets -underBinder
    | with_reducible (first | apply runOp_only | apply latch_only | apply modCore_only | apply issueMove_only | apply move_only | apply storeDrain_only | apply runPosts_only)
    | with_reducible (first | apply onlySkip | apply onlyFold)
    | split


theorem arrayOpComplete_only (c' : ℕ) (array : ℕ) {s : State} (h : Only m s0 s) (hc : Sub 0x1000001038800 m) :
    Only m s0 (arrayOpComplete c' array s) := by
  unfold arrayOpComplete
  repeat' first
    | with_reducible assumption
    | exact hc.mono rfl
    | intro _
    | lift_lets -underBinder
    | with_reducible (first | apply runPosts_only | apply modCore_only)


theorem drainComplete_only (c' : ℕ) (array : ℕ) (acc : ℕ) {s : State} (h : Only m s0 s) (hc : Sub 0x1000001038800 m) :
    Only m s0 (drainComplete c' array acc s) := by
  unfold drainComplete
  repeat' first
    | with_reducible assumption
    | exact hc.mono rfl
    | intro _
    | lift_lets -underBinder
    | with_reducible (first | apply runPosts_only | apply modCore_only)


theorem bundleIssue_only (c' : ℕ) {s : State} (h : Only m s0 s) (hc : Sub 0x10002 m) :
    Only m s0 (bundleIssue c' s) := by
  unfold bundleIssue
  repeat' first
    | with_reducible assumption
    | exact hc.mono rfl
    | intro _
    | lift_lets -underBinder
    | with_reducible (first | apply perfAdd_only | apply putCore_only)
    | with_reducible apply onlySkip
    | split
    | (conv => arg 3; zeta)


theorem passWait_only {s : State} (x : Context) (c' : ℕ) (n : ℕ) (amount : ℕ) (h : Only m s0 s) (hc : Sub 0x30000 m) :
    Only m s0 (passWait s x c' n amount) := by
  unfold passWait
  repeat' first
    | with_reducible assumption
    | exact hc.mono rfl
    | intro t (ht : Only m s0 t)
    | intro _
    | lift_lets -underBinder
    | with_reducible (first | apply modCtxCore_only | apply modCore_only)
    | with_reducible apply onlyFold


theorem wait_only (c' : ℕ) (n : Fin 32) (amount : Fin 256) {s : State} (h : Only m s0 s) (hc : Sub 0x30000 m) :
    Only m s0 (wait c' n amount s) := by
  unfold wait
  repeat' first
    | with_reducible assumption
    | exact hc.mono rfl
    | intro _
    | lift_lets -underBinder
    | with_reducible (first | apply runOp_only | apply passWait_only | apply modCore_only)
    | with_reducible apply onlySkip
    | split


theorem waitRelease_only (c' : ℕ) {s : State} (h : Only m s0 s) (hc : Sub 0x30000 m) :
    Only m s0 (waitRelease c' s) := by
  unfold waitRelease
  repeat' first
    | with_reducible assumption
    | exact hc.mono rfl
    | intro _
    | lift_lets -underBinder
    | with_reducible apply passWait_only
    | with_reducible apply onlySkip
    | split
    | (conv => arg 3; zeta)


theorem post_only (c' : ℕ) (f : PostF) {s : State} (h : Only m s0 s) (hc : Sub 0x1000001038800 m) :
    Only m s0 (post c' f s) := by
  unfold post
  repeat' first
    | with_reducible assumption
    | exact hc.mono rfl
    | intro _
    | lift_lets -underBinder
    | with_reducible (first | apply runOp_only | apply runPosts_only | apply modCore_only)


theorem close_only (c' : ℕ) {s : State} (h : Only m s0 s) (hc : Sub 0x10000 m) :
    Only m s0 (close c' s) := by
  unfold close
  repeat' first
    | with_reducible assumption
    | exact hc.mono rfl
    | intro _
    | lift_lets -underBinder
    | with_reducible (first | apply runOp_only | apply modCore_only)


theorem setsel_only (c' : ℕ) (word : BitVec 23) (ecc : EccList) {s : State} (h : Only m s0 s) (hc : Sub 0x18302 m) :
    Only m s0 (setsel c' word ecc s) := by
  unfold setsel
  repeat' first
    | with_reducible assumption
    | exact hc.mono rfl
    | intro _
    | lift_lets -underBinder
    | with_reducible (first | apply runOp_only | apply loadRegion_only | apply decodeRegion_only | apply modCore_only)
    | with_reducible apply onlySkip
    | split


theorem faultOp_only (c' : ℕ) (code : BitVec 16) {s : State} (h : Only m s0 s) (hc : Sub 0x18000 m) :
    Only m s0 (faultOp c' code s) := by
  unfold faultOp
  repeat' first
    | with_reducible assumption
    | exact hc.mono rfl
    | intro t (ht : Only m s0 t)
    | intro _
    | lift_lets -underBinder
    | with_reducible (first | apply runOp_only | apply latch_only)
    | with_reducible (first | apply onlySkip | apply onlyFold | apply onlyFold1)
    | split
    | (conv => arg 3; zeta)


theorem rdstat_only (c' : ℕ) (off : BitVec 20) {s : State} (h : Only m s0 s) (hc : Sub 0x183c2 m) :
    Only m s0 (rdstat c' off s) := by
  unfold rdstat
  repeat' first
    | with_reducible assumption
    | exact hc.mono rfl
    | intro _
    | with_reducible (first | apply runOp_only | apply storeRegion_only)
    | with_reducible apply onlySkip
    | split


theorem tokrateWindow_only (c' : ℕ) (tokens : Word) {s : State} (h : Only m s0 s) (hc : Sub 0x2 m) :
    Only m s0 (tokrateWindow c' tokens s) := by
  unfold tokrateWindow
  repeat' first
    | with_reducible assumption
    | exact hc.mono rfl
    | with_reducible (first | apply perfAdd_only | apply putReg_only)


end Sys2Proof.Machine
end

