-- ==== Sys2Proof/Laws/Table.lean ====
section
/-! SUPPORT. The sparse tables: reading after writing, and that every operation keeps the canonical form; then the same of the
memories. -/

namespace Sys2Proof.Machine

variable {α : Type}

/-! ### Reading after writing -/

theorem tfind_tdel (t : Table α) (k j : Nat) : tfind (tdel t k) j = if j = k then none else tfind t j := by
  unfold tdel
  induction t with
  | nil => simp [tfind]
  | cons e t ih =>
    simp only [List.filter_cons, tfind]
    by_cases h : e.1 = k
    · rw [if_neg (by simpa using h), ih]; split <;> rename_i hj
      · rfl
      · rw [if_neg (by omega)]
    · rw [if_pos (by simpa using h)]; simp only [tfind, ih]
      by_cases hj : e.1 = j
      · rw [if_pos hj, if_pos hj, if_neg (by omega)]
      · rw [if_neg hj, if_neg hj]

theorem tfind_tins (t : Table α) (k j : Nat) (v : α) :
    tfind (tins t k v) j = if j = k then some v else tfind t j := by
  induction t with
  | nil =>
    simp only [tins, tfind]
    by_cases hj : j = k
    · rw [if_pos hj, if_pos hj.symm]
    · rw [if_neg hj, if_neg (Ne.symm hj)]
  | cons e t ih =>
    unfold tins
    by_cases hj : j = k
    · subst hj; rw [if_pos rfl]; split
      · simp only [tfind, if_true]
      · split
        · simp only [tfind, if_true]
        · rw [tfind, if_neg (by omega), ih, if_pos rfl]
    · rw [if_neg hj]; split
      · rw [tfind, if_neg (Ne.symm hj)]
      · split
        · rename_i h2; rw [tfind, tfind, if_neg (Ne.symm hj), if_neg (by omega)]
        · rw [tfind, tfind, ih, if_neg hj]

theorem tget_tput [DecidableEq α] (d : α) (t : Table α) (k j : Nat) (v : α) :
    tget d (tput d t k v) j = if j = k then v else tget d t j := by
  unfold tput tget
  split
  · rename_i hv; rw [tfind_tdel]; split
    · exact hv.symm
    · rfl
  · rw [tfind_tins]; split <;> rfl

theorem tget_tput_self [DecidableEq α] (d : α) (t : Table α) (k : Nat) (v : α) :
    tget d (tput d t k v) k = v := by rw [tget_tput d t k k v, if_pos rfl]

theorem tget_tput_other [DecidableEq α] (d : α) (t : Table α) (k j : Nat) (v : α) (n : j ≠ k) :
    tget d (tput d t k v) j = tget d t j := by rw [tget_tput d t k j v, if_neg n]

theorem tfind_tdrop (t : Table α) (p : Nat → Bool) (j : Nat) : tfind (tdrop t p) j = if p j then none else tfind t j := by
  unfold tdrop
  induction t with
  | nil => simp [tfind]
  | cons e t ih =>
    simp only [List.filter_cons, tfind]
    by_cases h : p e.1 = true
    · rw [if_neg (by simpa using h), ih]; split
      · rfl
      · rw [if_neg (by rintro rfl; contradiction)]
    · rw [if_pos (by simpa using h)]; simp only [tfind, ih]
      by_cases hj : e.1 = j
      · subst hj; rw [if_pos rfl, if_pos rfl, if_neg h]
      · rw [if_neg hj, if_neg hj]

theorem tget_tdrop (d : α) (t : Table α) (p : Nat → Bool) (j : Nat) :
    tget d (tdrop t p) j = if p j then d else tget d t j := by
  unfold tget; rw [tfind_tdrop]; split <;> rfl

/-! ### The canonical form -/

theorem all_filter (t : Table α) (p q : Nat × α → Bool) (h : t.all q = true) : (t.filter p).all q = true := by
  rw [List.all_eq_true] at *
  exact fun x hx => h x (List.mem_filter.1 hx).1

theorem tsorted_filter (t : Table α) (p : Nat × α → Bool) (h : tsorted t = true) : tsorted (t.filter p) = true := by
  induction t with
  | nil => rfl
  | cons e t ih =>
    simp only [tsorted, Bool.and_eq_true] at h
    rw [List.filter_cons]; split
    · simp only [tsorted, Bool.and_eq_true]; exact ⟨all_filter _ _ _ h.1, ih h.2⟩
    · exact ih h.2

theorem all_tins (t : Table α) (k : Nat) (v : α) (q : Nat × α → Bool) (h : t.all q = true) (hk : q (k, v) = true) :
    (tins t k v).all q = true := by
  induction t with
  | nil => simp [tins, hk]
  | cons e t ih =>
    have h' := h
    simp only [List.all_cons, Bool.and_eq_true] at h
    unfold tins; split
    · rw [List.all_cons, hk, h']; rfl
    · split
      · rw [List.all_cons, hk, h.2]; rfl
      · rw [List.all_cons, h.1, ih h.2]; rfl

theorem tsorted_tins (t : Table α) (k : Nat) (v : α) (h : tsorted t = true) : tsorted (tins t k v) = true := by
  induction t with
  | nil => rfl
  | cons e t ih =>
    have h' := h
    simp only [tsorted, Bool.and_eq_true] at h
    unfold tins; split
    · rename_i hk
      have : (e :: t).all (fun f => decide (k < f.1)) = true := by
        rw [List.all_eq_true] at *
        intro x hx
        rcases List.mem_cons.1 hx with rfl | hx
        · simpa using hk
        · have := h.1 x hx; simp only [decide_eq_true_eq] at *; omega
      show (_ && tsorted (e :: t)) = true
      rw [this, h']; rfl
    · split
      · rename_i _ hk; subst hk
        show (t.all _ && tsorted t) = true
        rw [h.1, h.2]; rfl
      · show ((tins t k v).all _ && tsorted (tins t k v)) = true
        rw [all_tins _ _ _ _ h.1 (by simp only [decide_eq_true_eq]; omega), ih h.2]; rfl

theorem twf_tdrop [DecidableEq α] (d : Nat → α) (t : Table α) (p : Nat → Bool) (h : twf d t = true) :
    twf d (tdrop t p) = true := by
  simp only [twf, tdrop, Bool.and_eq_true] at *
  exact ⟨tsorted_filter _ _ h.1, all_filter _ _ _ h.2⟩

theorem twf_tput [DecidableEq α] (d : Nat → α) (t : Table α) (k : Nat) (v : α) (h : twf d t = true) :
    twf d (tput (d k) t k v) = true := by
  unfold tput
  simp only [twf, Bool.and_eq_true] at *
  split
  · exact ⟨tsorted_filter _ _ h.1, all_filter _ _ _ h.2⟩
  · rename_i n
    exact ⟨tsorted_tins _ _ _ h.1, all_tins _ _ _ _ h.2 (by simpa using n)⟩

theorem twf_tmod [DecidableEq α] (d : Nat → α) (t : Table α) (k : Nat) (f : α → α) (h : twf d t = true) :
    twf d (tmod (d k) t k f) = true := twf_tput d t k _ h

/-! ### The memories -/

theorem wf_writeByte {m : List Host.Cell} (h : Memory.wf m = true) (a : Nat) (v : Byte) :
    Memory.wf (writeByte m a v) = true := twf_tput (fun _ => (0 : Byte)) m a v h

theorem wf_writeBytes {m : List Host.Cell} (h : Memory.wf m = true) (a : Nat) (bs : List Byte) :
    Memory.wf (writeBytes m a bs) = true := by
  induction bs generalizing a with
  | nil => exact h
  | cons b bs ih => exact wf_writeByte (ih _) a b

theorem wf_zeroRange {m : List Host.Cell} (h : Memory.wf m = true) (a n : Nat) : Memory.wf (zeroRange m a n) = true :=
  twf_tdrop (fun _ => (0 : Byte)) m _ h

theorem readByte_writeByte (m : List Host.Cell) (a b : Nat) (v : Byte) :
    readByte (writeByte m a v) b = if b = a then v else readByte m b := tget_tput 0 m a b v

/-- A byte after a write: the one written where the write lies, the former one elsewhere. -/
theorem readByte_writeBytes (m : List Host.Cell) (a : Nat) (bs : List Byte) (b : Nat) :
    readByte (writeBytes m a bs) b = if a ≤ b ∧ b < a + bs.length then bs.getD (b - a) 0 else readByte m b := by
  induction bs generalizing a with
  | nil => rw [if_neg (by simp only [List.length_nil]; omega)]; rfl
  | cons v bs ih =>
    show readByte (writeByte (writeBytes m (a + 1) bs) a v) b = _
    rw [readByte_writeByte, ih, List.length_cons]
    by_cases e : b = a
    · subst e; rw [if_pos rfl, if_pos (by omega), Nat.sub_self]; rfl
    · rw [if_neg e]
      by_cases g : a + 1 ≤ b ∧ b < a + 1 + bs.length
      · rw [if_pos g, if_pos (by omega)]
        obtain ⟨k, rfl⟩ : ∃ k, b = a + 1 + k := ⟨b - (a + 1), by omega⟩
        rw [show a + 1 + k - (a + 1) = k by omega, show a + 1 + k - a = k + 1 by omega]; rfl
      · rw [if_neg g, if_neg (by omega)]

theorem readByte_zeroRange (m : List Host.Cell) (a n b : Nat) :
    readByte (zeroRange m a n) b = if a ≤ b ∧ b < a + n then 0 else readByte m b := by
  unfold readByte zeroRange; rw [tget_tdrop]
  simp only [Bool.and_eq_true, decide_eq_true_eq]

end Sys2Proof.Machine
end

