-- ==== Sys2Proof/Laws/State.lean ====
section
/-! SUPPORT. One lemma for each part of the state under each of the plain updates; reading a part after writing it; and the bits
of a register after a field is written. -/

namespace Sys2Proof.Machine

variable (s : State)

/-! ### Bits of a number (R16) -/

theorem bit_testBit (v i : Nat) : bit v i = v.testBit i := by
  rw [Nat.testBit_eq_decide_div_mod_eq]; rfl

theorem testBit_bits (v hi lo j : Nat) : (bits v hi lo).testBit j = (decide (j < hi + 1 - lo) && v.testBit (lo + j)) := by
  unfold bits; rw [Nat.testBit_mod_two_pow, Nat.testBit_div_two_pow, Nat.add_comm j lo]

theorem testBit_setBits (v hi lo x j : Nat) (h : lo ≤ hi + 1) :
    (setBits v hi lo x).testBit j = if lo ≤ j ∧ j ≤ hi then x.testBit (j - lo) else v.testBit j := by
  have e : setBits v hi lo x =
      2 ^ lo * (2 ^ (hi + 1 - lo) * (v / 2 ^ (hi + 1)) + x % 2 ^ (hi + 1 - lo)) + v % 2 ^ lo := by
    have p : 2 ^ (hi + 1) = 2 ^ lo * 2 ^ (hi + 1 - lo) := by rw [← Nat.pow_add]; congr 1; omega
    unfold setBits
    rw [Nat.mul_add, ← Nat.mul_assoc, ← p, Nat.mul_comm (v / 2 ^ (hi + 1)), Nat.mul_comm (x % _)]
  have b1 : v % 2 ^ lo < 2 ^ lo := Nat.mod_lt _ (Nat.two_pow_pos _)
  have b2 : x % 2 ^ (hi + 1 - lo) < 2 ^ (hi + 1 - lo) := Nat.mod_lt _ (Nat.two_pow_pos _)
  rw [e, Nat.testBit_two_pow_mul_add _ b1]
  by_cases h1 : j < lo
  · rw [if_pos h1, if_neg (by omega), Nat.testBit_mod_two_pow]; simp [h1]
  · rw [if_neg h1, Nat.testBit_two_pow_mul_add _ b2]
    by_cases h2 : j ≤ hi
    · rw [if_pos (by omega), if_pos (by omega), Nat.testBit_mod_two_pow]; simp; omega
    · rw [if_neg (by omega), if_neg (by omega), Nat.testBit_div_two_pow]; congr 1; omega

theorem bits_setBits (v hi lo x : Nat) (h : lo ≤ hi + 1) : bits (setBits v hi lo x) hi lo = x % 2 ^ (hi + 1 - lo) := by
  apply Nat.eq_of_testBit_eq
  intro j
  rw [testBit_bits, testBit_setBits _ _ _ _ _ h, Nat.testBit_mod_two_pow]
  by_cases hj : j < hi + 1 - lo
  · rw [if_pos (by omega)]; simp [hj]
  · simp [hj]

theorem bit_setBits_other (v hi lo x j : Nat) (h : lo ≤ hi + 1) (o : j < lo ∨ hi < j) : bit (setBits v hi lo x) j = bit v j := by
  rw [bit_testBit, bit_testBit, testBit_setBits _ _ _ _ _ h, if_neg (by omega)]

theorem bits_setBits_other (v hi lo x a b : Nat) (h : lo ≤ hi + 1) (o : a < lo ∨ hi < b) :
    bits (setBits v hi lo x) a b = bits v a b := by
  apply Nat.eq_of_testBit_eq
  intro j
  rw [testBit_bits, testBit_bits, testBit_setBits _ _ _ _ _ h]
  by_cases hj : j < a + 1 - b
  · rw [if_neg (by omega)]
  · simp [hj]

theorem bit_setBit (v i j : Nat) (b : Bool) : bit (setBit v i b) j = if j = i then b else bit v j := by
  unfold setBit
  rw [bit_testBit, bit_testBit, testBit_setBits _ _ _ _ _ (by omega)]
  by_cases h : j = i
  · subst h; rw [if_pos ⟨Nat.le_refl _, Nat.le_refl _⟩, if_pos rfl, Nat.sub_self]; cases b <;> rfl
  · rw [if_neg (by omega), if_neg h]

theorem bits_lt (v hi lo : Nat) : bits v hi lo < 2 ^ (hi + 1 - lo) := Nat.mod_lt _ (Nat.two_pow_pos _)

theorem bit_eq_bits (v i : Nat) : bit v i = (bits v i i == 1) := by
  unfold bit bits; rw [Nat.add_sub_cancel_left, Nat.pow_one]

@[simp] theorem bit_setBit_self (v i : Nat) (b : Bool) : bit (setBit v i b) i = b := by rw [bit_setBit, if_pos rfl]

/-! ### The fields of the state under a plain update -/

@[simp] theorem putReg_pending (off v : Nat) : (putReg s off v).pending = s.pending := rfl
@[simp] theorem putReg_latches (off v : Nat) : (putReg s off v).latches = s.latches := rfl
@[simp] theorem putReg_firstWrite (off v : Nat) : (putReg s off v).firstWrite = s.firstWrite := rfl
@[simp] theorem putReg_upsets (off v : Nat) : (putReg s off v).upsets = s.upsets := rfl
@[simp] theorem putReg_flagsNow (off v : Nat) : (putReg s off v).flagsNow = s.flagsNow := rfl
@[simp] theorem putReg_mem (off v : Nat) : (putReg s off v).mem = s.mem := rfl
@[simp] theorem putReg_written (off v : Nat) : (putReg s off v).written = s.written := rfl
@[simp] theorem putReg_poison (off v : Nat) : (putReg s off v).poison = s.poison := rfl
@[simp] theorem putReg_corePoison (off v : Nat) : (putReg s off v).corePoison = s.corePoison := rfl
@[simp] theorem putReg_hostMem (off v : Nat) : (putReg s off v).hostMem = s.hostMem := rfl
@[simp] theorem putReg_out (off v : Nat) : (putReg s off v).out = s.out := rfl
@[simp] theorem putReg_time (off v : Nat) : (putReg s off v).time = s.time := rfl
@[simp] theorem putReg_clock (off v : Nat) : (putReg s off v).clock = s.clock := rfl
@[simp] theorem putReg_cross (off v : Nat) : (putReg s off v).cross = s.cross := rfl
@[simp] theorem putReg_faults (off v : Nat) : (putReg s off v).faults = s.faults := rfl
@[simp] theorem putReg_cores (off v : Nat) : (putReg s off v).cores = s.cores := rfl
@[simp] theorem putReg_contexts (off v : Nat) : (putReg s off v).contexts = s.contexts := rfl
@[simp] theorem putReg_gens (off v : Nat) : (putReg s off v).gens = s.gens := rfl
@[simp] theorem putReg_startReqs (off v : Nat) : (putReg s off v).startReqs = s.startReqs := rfl
@[simp] theorem putReg_ended (off v : Nat) : (putReg s off v).ended = s.ended := rfl
@[simp] theorem putReg_parts (off v : Nat) : (putReg s off v).parts = s.parts := rfl
@[simp] theorem putReg_far (off v : Nat) : (putReg s off v).far = s.far := rfl
@[simp] theorem putReg_farPending (off v : Nat) : (putReg s off v).farPending = s.farPending := rfl
@[simp] theorem putReg_sites (off v : Nat) : (putReg s off v).sites = s.sites := rfl
@[simp] theorem putReg_links (off v : Nat) : (putReg s off v).links = s.links := rfl
@[simp] theorem putReg_fabric (off v : Nat) : (putReg s off v).fabric = s.fabric := rfl
@[simp] theorem putReg_qps (off v : Nat) : (putReg s off v).qps = s.qps := rfl
@[simp] theorem putReg_vfRanges (off v : Nat) : (putReg s off v).vfRanges = s.vfRanges := rfl
@[simp] theorem putReg_bme (off v : Nat) : (putReg s off v).bme = s.bme := rfl
@[simp] theorem putReg_d3hot (off v : Nat) : (putReg s off v).d3hot = s.d3hot := rfl
@[simp] theorem putReg_linkUp (off v : Nat) : (putReg s off v).linkUp = s.linkUp := rfl
@[simp] theorem putReg_vfsOn (off v : Nat) : (putReg s off v).vfsOn = s.vfsOn := rfl
@[simp] theorem putReg_dma (off v : Nat) : (putReg s off v).dma = s.dma := rfl
@[simp] theorem putReg_windows (off v : Nat) : (putReg s off v).windows = s.windows := rfl
@[simp] theorem putReg_mbReqs (off v : Nat) : (putReg s off v).mbReqs = s.mbReqs := rfl
@[simp] theorem putReg_taken (off v : Nat) : (putReg s off v).taken = s.taken := rfl
@[simp] theorem putReg_acts (off v : Nat) : (putReg s off v).acts = s.acts := rfl
@[simp] theorem putReg_nextAct (off v : Nat) : (putReg s off v).nextAct = s.nextAct := rfl
@[simp] theorem putReg_weir (off v : Nat) : (putReg s off v).weir = s.weir := rfl
@[simp] theorem putReg_record (off v : Nat) : (putReg s off v).record = s.record := rfl
@[simp] theorem putReg_island (off v : Nat) : (putReg s off v).island = s.island := rfl
@[simp] theorem putReg_power (off v : Nat) : (putReg s off v).power = s.power := rfl
@[simp] theorem putReg_house (off v : Nat) : (putReg s off v).house = s.house := rfl
@[simp] theorem putReg_springs (off v : Nat) : (putReg s off v).springs = s.springs := rfl
@[simp] theorem putReg_start (off v : Nat) : (putReg s off v).start = s.start := rfl
@[simp] theorem putReg_maint (off v : Nat) : (putReg s off v).maint = s.maint := rfl
@[simp] theorem putReg_flash (off v : Nat) : (putReg s off v).flash = s.flash := rfl
@[simp] theorem putReg_nextId (off v : Nat) : (putReg s off v).nextId = s.nextId := rfl
@[simp] theorem putReg_freeCount (off v : Nat) : (putReg s off v).freeCount = s.freeCount := rfl

@[simp] theorem emit_pending (o : Output) : (emit s o).pending = s.pending := rfl
@[simp] theorem emit_regs (o : Output) : (emit s o).regs = s.regs := rfl
@[simp] theorem emit_latches (o : Output) : (emit s o).latches = s.latches := rfl
@[simp] theorem emit_firstWrite (o : Output) : (emit s o).firstWrite = s.firstWrite := rfl
@[simp] theorem emit_upsets (o : Output) : (emit s o).upsets = s.upsets := rfl
@[simp] theorem emit_flagsNow (o : Output) : (emit s o).flagsNow = s.flagsNow := rfl
@[simp] theorem emit_mem (o : Output) : (emit s o).mem = s.mem := rfl
@[simp] theorem emit_written (o : Output) : (emit s o).written = s.written := rfl
@[simp] theorem emit_poison (o : Output) : (emit s o).poison = s.poison := rfl
@[simp] theorem emit_corePoison (o : Output) : (emit s o).corePoison = s.corePoison := rfl
@[simp] theorem emit_hostMem (o : Output) : (emit s o).hostMem = s.hostMem := rfl
@[simp] theorem emit_time (o : Output) : (emit s o).time = s.time := rfl
@[simp] theorem emit_clock (o : Output) : (emit s o).clock = s.clock := rfl
@[simp] theorem emit_cross (o : Output) : (emit s o).cross = s.cross := rfl
@[simp] theorem emit_faults (o : Output) : (emit s o).faults = s.faults := rfl
@[simp] theorem emit_cores (o : Output) : (emit s o).cores = s.cores := rfl
@[simp] theorem emit_contexts (o : Output) : (emit s o).contexts = s.contexts := rfl
@[simp] theorem emit_gens (o : Output) : (emit s o).gens = s.gens := rfl
@[simp] theorem emit_startReqs (o : Output) : (emit s o).startReqs = s.startReqs := rfl
@[simp] theorem emit_ended (o : Output) : (emit s o).ended = s.ended := rfl
@[simp] theorem emit_parts (o : Output) : (emit s o).parts = s.parts := rfl
@[simp] theorem emit_far (o : Output) : (emit s o).far = s.far := rfl
@[simp] theorem emit_farPending (o : Output) : (emit s o).farPending = s.farPending := rfl
@[simp] theorem emit_sites (o : Output) : (emit s o).sites = s.sites := rfl
@[simp] theorem emit_links (o : Output) : (emit s o).links = s.links := rfl
@[simp] theorem emit_fabric (o : Output) : (emit s o).fabric = s.fabric := rfl
@[simp] theorem emit_qps (o : Output) : (emit s o).qps = s.qps := rfl
@[simp] theorem emit_vfRanges (o : Output) : (emit s o).vfRanges = s.vfRanges := rfl
@[simp] theorem emit_bme (o : Output) : (emit s o).bme = s.bme := rfl
@[simp] theorem emit_d3hot (o : Output) : (emit s o).d3hot = s.d3hot := rfl
@[simp] theorem emit_linkUp (o : Output) : (emit s o).linkUp = s.linkUp := rfl
@[simp] theorem emit_vfsOn (o : Output) : (emit s o).vfsOn = s.vfsOn := rfl
@[simp] theorem emit_dma (o : Output) : (emit s o).dma = s.dma := rfl
@[simp] theorem emit_windows (o : Output) : (emit s o).windows = s.windows := rfl
@[simp] theorem emit_mbReqs (o : Output) : (emit s o).mbReqs = s.mbReqs := rfl
@[simp] theorem emit_taken (o : Output) : (emit s o).taken = s.taken := rfl
@[simp] theorem emit_acts (o : Output) : (emit s o).acts = s.acts := rfl
@[simp] theorem emit_nextAct (o : Output) : (emit s o).nextAct = s.nextAct := rfl
@[simp] theorem emit_weir (o : Output) : (emit s o).weir = s.weir := rfl
@[simp] theorem emit_record (o : Output) : (emit s o).record = s.record := rfl
@[simp] theorem emit_island (o : Output) : (emit s o).island = s.island := rfl
@[simp] theorem emit_power (o : Output) : (emit s o).power = s.power := rfl
@[simp] theorem emit_house (o : Output) : (emit s o).house = s.house := rfl
@[simp] theorem emit_springs (o : Output) : (emit s o).springs = s.springs := rfl
@[simp] theorem emit_start (o : Output) : (emit s o).start = s.start := rfl
@[simp] theorem emit_maint (o : Output) : (emit s o).maint = s.maint := rfl
@[simp] theorem emit_flash (o : Output) : (emit s o).flash = s.flash := rfl
@[simp] theorem emit_nextId (o : Output) : (emit s o).nextId = s.nextId := rfl
@[simp] theorem emit_freeCount (o : Output) : (emit s o).freeCount = s.freeCount := rfl

@[simp] theorem putCore_pending (c : Nat) (x : CoreState) : (putCore s c x).pending = s.pending := rfl
@[simp] theorem putCore_regs (c : Nat) (x : CoreState) : (putCore s c x).regs = s.regs := rfl
@[simp] theorem putCore_latches (c : Nat) (x : CoreState) : (putCore s c x).latches = s.latches := rfl
@[simp] theorem putCore_firstWrite (c : Nat) (x : CoreState) : (putCore s c x).firstWrite = s.firstWrite := rfl
@[simp] theorem putCore_upsets (c : Nat) (x : CoreState) : (putCore s c x).upsets = s.upsets := rfl
@[simp] theorem putCore_flagsNow (c : Nat) (x : CoreState) : (putCore s c x).flagsNow = s.flagsNow := rfl
@[simp] theorem putCore_mem (c : Nat) (x : CoreState) : (putCore s c x).mem = s.mem := rfl
@[simp] theorem putCore_written (c : Nat) (x : CoreState) : (putCore s c x).written = s.written := rfl
@[simp] theorem putCore_poison (c : Nat) (x : CoreState) : (putCore s c x).poison = s.poison := rfl
@[simp] theorem putCore_corePoison (c : Nat) (x : CoreState) : (putCore s c x).corePoison = s.corePoison := rfl
@[simp] theorem putCore_hostMem (c : Nat) (x : CoreState) : (putCore s c x).hostMem = s.hostMem := rfl
@[simp] theorem putCore_out (c : Nat) (x : CoreState) : (putCore s c x).out = s.out := rfl
@[simp] theorem putCore_time (c : Nat) (x : CoreState) : (putCore s c x).time = s.time := rfl
@[simp] theorem putCore_clock (c : Nat) (x : CoreState) : (putCore s c x).clock = s.clock := rfl
@[simp] theorem putCore_cross (c : Nat) (x : CoreState) : (putCore s c x).cross = s.cross := rfl
@[simp] theorem putCore_faults (c : Nat) (x : CoreState) : (putCore s c x).faults = s.faults := rfl
@[simp] theorem putCore_contexts (c : Nat) (x : CoreState) : (putCore s c x).contexts = s.contexts := rfl
@[simp] theorem putCore_gens (c : Nat) (x : CoreState) : (putCore s c x).gens = s.gens := rfl
@[simp] theorem putCore_startReqs (c : Nat) (x : CoreState) : (putCore s c x).startReqs = s.startReqs := rfl
@[simp] theorem putCore_ended (c : Nat) (x : CoreState) : (putCore s c x).ended = s.ended := rfl
@[simp] theorem putCore_parts (c : Nat) (x : CoreState) : (putCore s c x).parts = s.parts := rfl
@[simp] theorem putCore_far (c : Nat) (x : CoreState) : (putCore s c x).far = s.far := rfl
@[simp] theorem putCore_farPending (c : Nat) (x : CoreState) : (putCore s c x).farPending = s.farPending := rfl
@[simp] theorem putCore_sites (c : Nat) (x : CoreState) : (putCore s c x).sites = s.sites := rfl
@[simp] theorem putCore_links (c : Nat) (x : CoreState) : (putCore s c x).links = s.links := rfl
@[simp] theorem putCore_fabric (c : Nat) (x : CoreState) : (putCore s c x).fabric = s.fabric := rfl
@[simp] theorem putCore_qps (c : Nat) (x : CoreState) : (putCore s c x).qps = s.qps := rfl
@[simp] theorem putCore_vfRanges (c : Nat) (x : CoreState) : (putCore s c x).vfRanges = s.vfRanges := rfl
@[simp] theorem putCore_bme (c : Nat) (x : CoreState) : (putCore s c x).bme = s.bme := rfl
@[simp] theorem putCore_d3hot (c : Nat) (x : CoreState) : (putCore s c x).d3hot = s.d3hot := rfl
@[simp] theorem putCore_linkUp (c : Nat) (x : CoreState) : (putCore s c x).linkUp = s.linkUp := rfl
@[simp] theorem putCore_vfsOn (c : Nat) (x : CoreState) : (putCore s c x).vfsOn = s.vfsOn := rfl
@[simp] theorem putCore_dma (c : Nat) (x : CoreState) : (putCore s c x).dma = s.dma := rfl
@[simp] theorem putCore_windows (c : Nat) (x : CoreState) : (putCore s c x).windows = s.windows := rfl
@[simp] theorem putCore_mbReqs (c : Nat) (x : CoreState) : (putCore s c x).mbReqs = s.mbReqs := rfl
@[simp] theorem putCore_taken (c : Nat) (x : CoreState) : (putCore s c x).taken = s.taken := rfl
@[simp] theorem putCore_acts (c : Nat) (x : CoreState) : (putCore s c x).acts = s.acts := rfl
@[simp] theorem putCore_nextAct (c : Nat) (x : CoreState) : (putCore s c x).nextAct = s.nextAct := rfl
@[simp] theorem putCore_weir (c : Nat) (x : CoreState) : (putCore s c x).weir = s.weir := rfl
@[simp] theorem putCore_record (c : Nat) (x : CoreState) : (putCore s c x).record = s.record := rfl
@[simp] theorem putCore_island (c : Nat) (x : CoreState) : (putCore s c x).island = s.island := rfl
@[simp] theorem putCore_power (c : Nat) (x : CoreState) : (putCore s c x).power = s.power := rfl
@[simp] theorem putCore_house (c : Nat) (x : CoreState) : (putCore s c x).house = s.house := rfl
@[simp] theorem putCore_springs (c : Nat) (x : CoreState) : (putCore s c x).springs = s.springs := rfl
@[simp] theorem putCore_start (c : Nat) (x : CoreState) : (putCore s c x).start = s.start := rfl
@[simp] theorem putCore_maint (c : Nat) (x : CoreState) : (putCore s c x).maint = s.maint := rfl
@[simp] theorem putCore_flash (c : Nat) (x : CoreState) : (putCore s c x).flash = s.flash := rfl
@[simp] theorem putCore_nextId (c : Nat) (x : CoreState) : (putCore s c x).nextId = s.nextId := rfl
@[simp] theorem putCore_freeCount (c : Nat) (x : CoreState) : (putCore s c x).freeCount = s.freeCount := rfl

@[simp] theorem putSite_pending (i : Nat) (x : SiteState) : (putSite s i x).pending = s.pending := rfl
@[simp] theorem putSite_regs (i : Nat) (x : SiteState) : (putSite s i x).regs = s.regs := rfl
@[simp] theorem putSite_latches (i : Nat) (x : SiteState) : (putSite s i x).latches = s.latches := rfl
@[simp] theorem putSite_firstWrite (i : Nat) (x : SiteState) : (putSite s i x).firstWrite = s.firstWrite := rfl
@[simp] theorem putSite_upsets (i : Nat) (x : SiteState) : (putSite s i x).upsets = s.upsets := rfl
@[simp] theorem putSite_flagsNow (i : Nat) (x : SiteState) : (putSite s i x).flagsNow = s.flagsNow := rfl
@[simp] theorem putSite_mem (i : Nat) (x : SiteState) : (putSite s i x).mem = s.mem := rfl
@[simp] theorem putSite_written (i : Nat) (x : SiteState) : (putSite s i x).written = s.written := rfl
@[simp] theorem putSite_poison (i : Nat) (x : SiteState) : (putSite s i x).poison = s.poison := rfl
@[simp] theorem putSite_corePoison (i : Nat) (x : SiteState) : (putSite s i x).corePoison = s.corePoison := rfl
@[simp] theorem putSite_hostMem (i : Nat) (x : SiteState) : (putSite s i x).hostMem = s.hostMem := rfl
@[simp] theorem putSite_out (i : Nat) (x : SiteState) : (putSite s i x).out = s.out := rfl
@[simp] theorem putSite_time (i : Nat) (x : SiteState) : (putSite s i x).time = s.time := rfl
@[simp] theorem putSite_clock (i : Nat) (x : SiteState) : (putSite s i x).clock = s.clock := rfl
@[simp] theorem putSite_cross (i : Nat) (x : SiteState) : (putSite s i x).cross = s.cross := rfl
@[simp] theorem putSite_faults (i : Nat) (x : SiteState) : (putSite s i x).faults = s.faults := rfl
@[simp] theorem putSite_cores (i : Nat) (x : SiteState) : (putSite s i x).cores = s.cores := rfl
@[simp] theorem putSite_contexts (i : Nat) (x : SiteState) : (putSite s i x).contexts = s.contexts := rfl
@[simp] theorem putSite_gens (i : Nat) (x : SiteState) : (putSite s i x).gens = s.gens := rfl
@[simp] theorem putSite_startReqs (i : Nat) (x : SiteState) : (putSite s i x).startReqs = s.startReqs := rfl
@[simp] theorem putSite_ended (i : Nat) (x : SiteState) : (putSite s i x).ended = s.ended := rfl
@[simp] theorem putSite_parts (i : Nat) (x : SiteState) : (putSite s i x).parts = s.parts := rfl
@[simp] theorem putSite_far (i : Nat) (x : SiteState) : (putSite s i x).far = s.far := rfl
@[simp] theorem putSite_farPending (i : Nat) (x : SiteState) : (putSite s i x).farPending = s.farPending := rfl
@[simp] theorem putSite_links (i : Nat) (x : SiteState) : (putSite s i x).links = s.links := rfl
@[simp] theorem putSite_fabric (i : Nat) (x : SiteState) : (putSite s i x).fabric = s.fabric := rfl
@[simp] theorem putSite_qps (i : Nat) (x : SiteState) : (putSite s i x).qps = s.qps := rfl
@[simp] theorem putSite_vfRanges (i : Nat) (x : SiteState) : (putSite s i x).vfRanges = s.vfRanges := rfl
@[simp] theorem putSite_bme (i : Nat) (x : SiteState) : (putSite s i x).bme = s.bme := rfl
@[simp] theorem putSite_d3hot (i : Nat) (x : SiteState) : (putSite s i x).d3hot = s.d3hot := rfl
@[simp] theorem putSite_linkUp (i : Nat) (x : SiteState) : (putSite s i x).linkUp = s.linkUp := rfl
@[simp] theorem putSite_vfsOn (i : Nat) (x : SiteState) : (putSite s i x).vfsOn = s.vfsOn := rfl
@[simp] theorem putSite_dma (i : Nat) (x : SiteState) : (putSite s i x).dma = s.dma := rfl
@[simp] theorem putSite_windows (i : Nat) (x : SiteState) : (putSite s i x).windows = s.windows := rfl
@[simp] theorem putSite_mbReqs (i : Nat) (x : SiteState) : (putSite s i x).mbReqs = s.mbReqs := rfl
@[simp] theorem putSite_taken (i : Nat) (x : SiteState) : (putSite s i x).taken = s.taken := rfl
@[simp] theorem putSite_acts (i : Nat) (x : SiteState) : (putSite s i x).acts = s.acts := rfl
@[simp] theorem putSite_nextAct (i : Nat) (x : SiteState) : (putSite s i x).nextAct = s.nextAct := rfl
@[simp] theorem putSite_weir (i : Nat) (x : SiteState) : (putSite s i x).weir = s.weir := rfl
@[simp] theorem putSite_record (i : Nat) (x : SiteState) : (putSite s i x).record = s.record := rfl
@[simp] theorem putSite_island (i : Nat) (x : SiteState) : (putSite s i x).island = s.island := rfl
@[simp] theorem putSite_power (i : Nat) (x : SiteState) : (putSite s i x).power = s.power := rfl
@[simp] theorem putSite_house (i : Nat) (x : SiteState) : (putSite s i x).house = s.house := rfl
@[simp] theorem putSite_springs (i : Nat) (x : SiteState) : (putSite s i x).springs = s.springs := rfl
@[simp] theorem putSite_start (i : Nat) (x : SiteState) : (putSite s i x).start = s.start := rfl
@[simp] theorem putSite_maint (i : Nat) (x : SiteState) : (putSite s i x).maint = s.maint := rfl
@[simp] theorem putSite_flash (i : Nat) (x : SiteState) : (putSite s i x).flash = s.flash := rfl
@[simp] theorem putSite_nextId (i : Nat) (x : SiteState) : (putSite s i x).nextId = s.nextId := rfl
@[simp] theorem putSite_freeCount (i : Nat) (x : SiteState) : (putSite s i x).freeCount = s.freeCount := rfl

@[simp] theorem putLink_pending (o : Nat) (x : LinkState) : (putLink s o x).pending = s.pending := rfl
@[simp] theorem putLink_regs (o : Nat) (x : LinkState) : (putLink s o x).regs = s.regs := rfl
@[simp] theorem putLink_latches (o : Nat) (x : LinkState) : (putLink s o x).latches = s.latches := rfl
@[simp] theorem putLink_firstWrite (o : Nat) (x : LinkState) : (putLink s o x).firstWrite = s.firstWrite := rfl
@[simp] theorem putLink_upsets (o : Nat) (x : LinkState) : (putLink s o x).upsets = s.upsets := rfl
@[simp] theorem putLink_flagsNow (o : Nat) (x : LinkState) : (putLink s o x).flagsNow = s.flagsNow := rfl
@[simp] theorem putLink_mem (o : Nat) (x : LinkState) : (putLink s o x).mem = s.mem := rfl
@[simp] theorem putLink_written (o : Nat) (x : LinkState) : (putLink s o x).written = s.written := rfl
@[simp] theorem putLink_poison (o : Nat) (x : LinkState) : (putLink s o x).poison = s.poison := rfl
@[simp] theorem putLink_corePoison (o : Nat) (x : LinkState) : (putLink s o x).corePoison = s.corePoison := rfl
@[simp] theorem putLink_hostMem (o : Nat) (x : LinkState) : (putLink s o x).hostMem = s.hostMem := rfl
@[simp] theorem putLink_out (o : Nat) (x : LinkState) : (putLink s o x).out = s.out := rfl
@[simp] theorem putLink_time (o : Nat) (x : LinkState) : (putLink s o x).time = s.time := rfl
@[simp] theorem putLink_clock (o : Nat) (x : LinkState) : (putLink s o x).clock = s.clock := rfl
@[simp] theorem putLink_cross (o : Nat) (x : LinkState) : (putLink s o x).cross = s.cross := rfl
@[simp] theorem putLink_faults (o : Nat) (x : LinkState) : (putLink s o x).faults = s.faults := rfl
@[simp] theorem putLink_cores (o : Nat) (x : LinkState) : (putLink s o x).cores = s.cores := rfl
@[simp] theorem putLink_contexts (o : Nat) (x : LinkState) : (putLink s o x).contexts = s.contexts := rfl
@[simp] theorem putLink_gens (o : Nat) (x : LinkState) : (putLink s o x).gens = s.gens := rfl
@[simp] theorem putLink_startReqs (o : Nat) (x : LinkState) : (putLink s o x).startReqs = s.startReqs := rfl
@[simp] theorem putLink_ended (o : Nat) (x : LinkState) : (putLink s o x).ended = s.ended := rfl
@[simp] theorem putLink_parts (o : Nat) (x : LinkState) : (putLink s o x).parts = s.parts := rfl
@[simp] theorem putLink_far (o : Nat) (x : LinkState) : (putLink s o x).far = s.far := rfl
@[simp] theorem putLink_farPending (o : Nat) (x : LinkState) : (putLink s o x).farPending = s.farPending := rfl
@[simp] theorem putLink_sites (o : Nat) (x : LinkState) : (putLink s o x).sites = s.sites := rfl
@[simp] theorem putLink_fabric (o : Nat) (x : LinkState) : (putLink s o x).fabric = s.fabric := rfl
@[simp] theorem putLink_qps (o : Nat) (x : LinkState) : (putLink s o x).qps = s.qps := rfl
@[simp] theorem putLink_vfRanges (o : Nat) (x : LinkState) : (putLink s o x).vfRanges = s.vfRanges := rfl
@[simp] theorem putLink_bme (o : Nat) (x : LinkState) : (putLink s o x).bme = s.bme := rfl
@[simp] theorem putLink_d3hot (o : Nat) (x : LinkState) : (putLink s o x).d3hot = s.d3hot := rfl
@[simp] theorem putLink_linkUp (o : Nat) (x : LinkState) : (putLink s o x).linkUp = s.linkUp := rfl
@[simp] theorem putLink_vfsOn (o : Nat) (x : LinkState) : (putLink s o x).vfsOn = s.vfsOn := rfl
@[simp] theorem putLink_dma (o : Nat) (x : LinkState) : (putLink s o x).dma = s.dma := rfl
@[simp] theorem putLink_windows (o : Nat) (x : LinkState) : (putLink s o x).windows = s.windows := rfl
@[simp] theorem putLink_mbReqs (o : Nat) (x : LinkState) : (putLink s o x).mbReqs = s.mbReqs := rfl
@[simp] theorem putLink_taken (o : Nat) (x : LinkState) : (putLink s o x).taken = s.taken := rfl
@[simp] theorem putLink_acts (o : Nat) (x : LinkState) : (putLink s o x).acts = s.acts := rfl
@[simp] theorem putLink_nextAct (o : Nat) (x : LinkState) : (putLink s o x).nextAct = s.nextAct := rfl
@[simp] theorem putLink_weir (o : Nat) (x : LinkState) : (putLink s o x).weir = s.weir := rfl
@[simp] theorem putLink_record (o : Nat) (x : LinkState) : (putLink s o x).record = s.record := rfl
@[simp] theorem putLink_island (o : Nat) (x : LinkState) : (putLink s o x).island = s.island := rfl
@[simp] theorem putLink_power (o : Nat) (x : LinkState) : (putLink s o x).power = s.power := rfl
@[simp] theorem putLink_house (o : Nat) (x : LinkState) : (putLink s o x).house = s.house := rfl
@[simp] theorem putLink_springs (o : Nat) (x : LinkState) : (putLink s o x).springs = s.springs := rfl
@[simp] theorem putLink_start (o : Nat) (x : LinkState) : (putLink s o x).start = s.start := rfl
@[simp] theorem putLink_maint (o : Nat) (x : LinkState) : (putLink s o x).maint = s.maint := rfl
@[simp] theorem putLink_flash (o : Nat) (x : LinkState) : (putLink s o x).flash = s.flash := rfl
@[simp] theorem putLink_nextId (o : Nat) (x : LinkState) : (putLink s o x).nextId = s.nextId := rfl
@[simp] theorem putLink_freeCount (o : Nat) (x : LinkState) : (putLink s o x).freeCount = s.freeCount := rfl

@[simp] theorem putQp_pending (q : Nat) (x : QpState) : (putQp s q x).pending = s.pending := rfl
@[simp] theorem putQp_regs (q : Nat) (x : QpState) : (putQp s q x).regs = s.regs := rfl
@[simp] theorem putQp_latches (q : Nat) (x : QpState) : (putQp s q x).latches = s.latches := rfl
@[simp] theorem putQp_firstWrite (q : Nat) (x : QpState) : (putQp s q x).firstWrite = s.firstWrite := rfl
@[simp] theorem putQp_upsets (q : Nat) (x : QpState) : (putQp s q x).upsets = s.upsets := rfl
@[simp] theorem putQp_flagsNow (q : Nat) (x : QpState) : (putQp s q x).flagsNow = s.flagsNow := rfl
@[simp] theorem putQp_mem (q : Nat) (x : QpState) : (putQp s q x).mem = s.mem := rfl
@[simp] theorem putQp_written (q : Nat) (x : QpState) : (putQp s q x).written = s.written := rfl
@[simp] theorem putQp_poison (q : Nat) (x : QpState) : (putQp s q x).poison = s.poison := rfl
@[simp] theorem putQp_corePoison (q : Nat) (x : QpState) : (putQp s q x).corePoison = s.corePoison := rfl
@[simp] theorem putQp_hostMem (q : Nat) (x : QpState) : (putQp s q x).hostMem = s.hostMem := rfl
@[simp] theorem putQp_out (q : Nat) (x : QpState) : (putQp s q x).out = s.out := rfl
@[simp] theorem putQp_time (q : Nat) (x : QpState) : (putQp s q x).time = s.time := rfl
@[simp] theorem putQp_clock (q : Nat) (x : QpState) : (putQp s q x).clock = s.clock := rfl
@[simp] theorem putQp_cross (q : Nat) (x : QpState) : (putQp s q x).cross = s.cross := rfl
@[simp] theorem putQp_faults (q : Nat) (x : QpState) : (putQp s q x).faults = s.faults := rfl
@[simp] theorem putQp_cores (q : Nat) (x : QpState) : (putQp s q x).cores = s.cores := rfl
@[simp] theorem putQp_contexts (q : Nat) (x : QpState) : (putQp s q x).contexts = s.contexts := rfl
@[simp] theorem putQp_gens (q : Nat) (x : QpState) : (putQp s q x).gens = s.gens := rfl
@[simp] theorem putQp_startReqs (q : Nat) (x : QpState) : (putQp s q x).startReqs = s.startReqs := rfl
@[simp] theorem putQp_ended (q : Nat) (x : QpState) : (putQp s q x).ended = s.ended := rfl
@[simp] theorem putQp_parts (q : Nat) (x : QpState) : (putQp s q x).parts = s.parts := rfl
@[simp] theorem putQp_far (q : Nat) (x : QpState) : (putQp s q x).far = s.far := rfl
@[simp] theorem putQp_farPending (q : Nat) (x : QpState) : (putQp s q x).farPending = s.farPending := rfl
@[simp] theorem putQp_sites (q : Nat) (x : QpState) : (putQp s q x).sites = s.sites := rfl
@[simp] theorem putQp_links (q : Nat) (x : QpState) : (putQp s q x).links = s.links := rfl
@[simp] theorem putQp_fabric (q : Nat) (x : QpState) : (putQp s q x).fabric = s.fabric := rfl
@[simp] theorem putQp_vfRanges (q : Nat) (x : QpState) : (putQp s q x).vfRanges = s.vfRanges := rfl
@[simp] theorem putQp_bme (q : Nat) (x : QpState) : (putQp s q x).bme = s.bme := rfl
@[simp] theorem putQp_d3hot (q : Nat) (x : QpState) : (putQp s q x).d3hot = s.d3hot := rfl
@[simp] theorem putQp_linkUp (q : Nat) (x : QpState) : (putQp s q x).linkUp = s.linkUp := rfl
@[simp] theorem putQp_vfsOn (q : Nat) (x : QpState) : (putQp s q x).vfsOn = s.vfsOn := rfl
@[simp] theorem putQp_dma (q : Nat) (x : QpState) : (putQp s q x).dma = s.dma := rfl
@[simp] theorem putQp_windows (q : Nat) (x : QpState) : (putQp s q x).windows = s.windows := rfl
@[simp] theorem putQp_mbReqs (q : Nat) (x : QpState) : (putQp s q x).mbReqs = s.mbReqs := rfl
@[simp] theorem putQp_taken (q : Nat) (x : QpState) : (putQp s q x).taken = s.taken := rfl
@[simp] theorem putQp_acts (q : Nat) (x : QpState) : (putQp s q x).acts = s.acts := rfl
@[simp] theorem putQp_nextAct (q : Nat) (x : QpState) : (putQp s q x).nextAct = s.nextAct := rfl
@[simp] theorem putQp_weir (q : Nat) (x : QpState) : (putQp s q x).weir = s.weir := rfl
@[simp] theorem putQp_record (q : Nat) (x : QpState) : (putQp s q x).record = s.record := rfl
@[simp] theorem putQp_island (q : Nat) (x : QpState) : (putQp s q x).island = s.island := rfl
@[simp] theorem putQp_power (q : Nat) (x : QpState) : (putQp s q x).power = s.power := rfl
@[simp] theorem putQp_house (q : Nat) (x : QpState) : (putQp s q x).house = s.house := rfl
@[simp] theorem putQp_springs (q : Nat) (x : QpState) : (putQp s q x).springs = s.springs := rfl
@[simp] theorem putQp_start (q : Nat) (x : QpState) : (putQp s q x).start = s.start := rfl
@[simp] theorem putQp_maint (q : Nat) (x : QpState) : (putQp s q x).maint = s.maint := rfl
@[simp] theorem putQp_flash (q : Nat) (x : QpState) : (putQp s q x).flash = s.flash := rfl
@[simp] theorem putQp_nextId (q : Nat) (x : QpState) : (putQp s q x).nextId = s.nextId := rfl
@[simp] theorem putQp_freeCount (q : Nat) (x : QpState) : (putQp s q x).freeCount = s.freeCount := rfl

@[simp] theorem putDma_pending (c : Nat) (x : DmaState) : (putDma s c x).pending = s.pending := rfl
@[simp] theorem putDma_regs (c : Nat) (x : DmaState) : (putDma s c x).regs = s.regs := rfl
@[simp] theorem putDma_latches (c : Nat) (x : DmaState) : (putDma s c x).latches = s.latches := rfl
@[simp] theorem putDma_firstWrite (c : Nat) (x : DmaState) : (putDma s c x).firstWrite = s.firstWrite := rfl
@[simp] theorem putDma_upsets (c : Nat) (x : DmaState) : (putDma s c x).upsets = s.upsets := rfl
@[simp] theorem putDma_flagsNow (c : Nat) (x : DmaState) : (putDma s c x).flagsNow = s.flagsNow := rfl
@[simp] theorem putDma_mem (c : Nat) (x : DmaState) : (putDma s c x).mem = s.mem := rfl
@[simp] theorem putDma_written (c : Nat) (x : DmaState) : (putDma s c x).written = s.written := rfl
@[simp] theorem putDma_poison (c : Nat) (x : DmaState) : (putDma s c x).poison = s.poison := rfl
@[simp] theorem putDma_corePoison (c : Nat) (x : DmaState) : (putDma s c x).corePoison = s.corePoison := rfl
@[simp] theorem putDma_hostMem (c : Nat) (x : DmaState) : (putDma s c x).hostMem = s.hostMem := rfl
@[simp] theorem putDma_out (c : Nat) (x : DmaState) : (putDma s c x).out = s.out := rfl
@[simp] theorem putDma_time (c : Nat) (x : DmaState) : (putDma s c x).time = s.time := rfl
@[simp] theorem putDma_clock (c : Nat) (x : DmaState) : (putDma s c x).clock = s.clock := rfl
@[simp] theorem putDma_cross (c : Nat) (x : DmaState) : (putDma s c x).cross = s.cross := rfl
@[simp] theorem putDma_faults (c : Nat) (x : DmaState) : (putDma s c x).faults = s.faults := rfl
@[simp] theorem putDma_cores (c : Nat) (x : DmaState) : (putDma s c x).cores = s.cores := rfl
@[simp] theorem putDma_contexts (c : Nat) (x : DmaState) : (putDma s c x).contexts = s.contexts := rfl
@[simp] theorem putDma_gens (c : Nat) (x : DmaState) : (putDma s c x).gens = s.gens := rfl
@[simp] theorem putDma_startReqs (c : Nat) (x : DmaState) : (putDma s c x).startReqs = s.startReqs := rfl
@[simp] theorem putDma_ended (c : Nat) (x : DmaState) : (putDma s c x).ended = s.ended := rfl
@[simp] theorem putDma_parts (c : Nat) (x : DmaState) : (putDma s c x).parts = s.parts := rfl
@[simp] theorem putDma_far (c : Nat) (x : DmaState) : (putDma s c x).far = s.far := rfl
@[simp] theorem putDma_farPending (c : Nat) (x : DmaState) : (putDma s c x).farPending = s.farPending := rfl
@[simp] theorem putDma_sites (c : Nat) (x : DmaState) : (putDma s c x).sites = s.sites := rfl
@[simp] theorem putDma_links (c : Nat) (x : DmaState) : (putDma s c x).links = s.links := rfl
@[simp] theorem putDma_fabric (c : Nat) (x : DmaState) : (putDma s c x).fabric = s.fabric := rfl
@[simp] theorem putDma_qps (c : Nat) (x : DmaState) : (putDma s c x).qps = s.qps := rfl
@[simp] theorem putDma_vfRanges (c : Nat) (x : DmaState) : (putDma s c x).vfRanges = s.vfRanges := rfl
@[simp] theorem putDma_bme (c : Nat) (x : DmaState) : (putDma s c x).bme = s.bme := rfl
@[simp] theorem putDma_d3hot (c : Nat) (x : DmaState) : (putDma s c x).d3hot = s.d3hot := rfl
@[simp] theorem putDma_linkUp (c : Nat) (x : DmaState) : (putDma s c x).linkUp = s.linkUp := rfl
@[simp] theorem putDma_vfsOn (c : Nat) (x : DmaState) : (putDma s c x).vfsOn = s.vfsOn := rfl
@[simp] theorem putDma_windows (c : Nat) (x : DmaState) : (putDma s c x).windows = s.windows := rfl
@[simp] theorem putDma_mbReqs (c : Nat) (x : DmaState) : (putDma s c x).mbReqs = s.mbReqs := rfl
@[simp] theorem putDma_taken (c : Nat) (x : DmaState) : (putDma s c x).taken = s.taken := rfl
@[simp] theorem putDma_acts (c : Nat) (x : DmaState) : (putDma s c x).acts = s.acts := rfl
@[simp] theorem putDma_nextAct (c : Nat) (x : DmaState) : (putDma s c x).nextAct = s.nextAct := rfl
@[simp] theorem putDma_weir (c : Nat) (x : DmaState) : (putDma s c x).weir = s.weir := rfl
@[simp] theorem putDma_record (c : Nat) (x : DmaState) : (putDma s c x).record = s.record := rfl
@[simp] theorem putDma_island (c : Nat) (x : DmaState) : (putDma s c x).island = s.island := rfl
@[simp] theorem putDma_power (c : Nat) (x : DmaState) : (putDma s c x).power = s.power := rfl
@[simp] theorem putDma_house (c : Nat) (x : DmaState) : (putDma s c x).house = s.house := rfl
@[simp] theorem putDma_springs (c : Nat) (x : DmaState) : (putDma s c x).springs = s.springs := rfl
@[simp] theorem putDma_start (c : Nat) (x : DmaState) : (putDma s c x).start = s.start := rfl
@[simp] theorem putDma_maint (c : Nat) (x : DmaState) : (putDma s c x).maint = s.maint := rfl
@[simp] theorem putDma_flash (c : Nat) (x : DmaState) : (putDma s c x).flash = s.flash := rfl
@[simp] theorem putDma_nextId (c : Nat) (x : DmaState) : (putDma s c x).nextId = s.nextId := rfl
@[simp] theorem putDma_freeCount (c : Nat) (x : DmaState) : (putDma s c x).freeCount = s.freeCount := rfl

@[simp] theorem putWin_pending (w : Nat) (x : MbWindow) : (putWin s w x).pending = s.pending := rfl
@[simp] theorem putWin_regs (w : Nat) (x : MbWindow) : (putWin s w x).regs = s.regs := rfl
@[simp] theorem putWin_latches (w : Nat) (x : MbWindow) : (putWin s w x).latches = s.latches := rfl
@[simp] theorem putWin_firstWrite (w : Nat) (x : MbWindow) : (putWin s w x).firstWrite = s.firstWrite := rfl
@[simp] theorem putWin_upsets (w : Nat) (x : MbWindow) : (putWin s w x).upsets = s.upsets := rfl
@[simp] theorem putWin_flagsNow (w : Nat) (x : MbWindow) : (putWin s w x).flagsNow = s.flagsNow := rfl
@[simp] theorem putWin_mem (w : Nat) (x : MbWindow) : (putWin s w x).mem = s.mem := rfl
@[simp] theorem putWin_written (w : Nat) (x : MbWindow) : (putWin s w x).written = s.written := rfl
@[simp] theorem putWin_poison (w : Nat) (x : MbWindow) : (putWin s w x).poison = s.poison := rfl
@[simp] theorem putWin_corePoison (w : Nat) (x : MbWindow) : (putWin s w x).corePoison = s.corePoison := rfl
@[simp] theorem putWin_hostMem (w : Nat) (x : MbWindow) : (putWin s w x).hostMem = s.hostMem := rfl
@[simp] theorem putWin_out (w : Nat) (x : MbWindow) : (putWin s w x).out = s.out := rfl
@[simp] theorem putWin_time (w : Nat) (x : MbWindow) : (putWin s w x).time = s.time := rfl
@[simp] theorem putWin_clock (w : Nat) (x : MbWindow) : (putWin s w x).clock = s.clock := rfl
@[simp] theorem putWin_cross (w : Nat) (x : MbWindow) : (putWin s w x).cross = s.cross := rfl
@[simp] theorem putWin_faults (w : Nat) (x : MbWindow) : (putWin s w x).faults = s.faults := rfl
@[simp] theorem putWin_cores (w : Nat) (x : MbWindow) : (putWin s w x).cores = s.cores := rfl
@[simp] theorem putWin_contexts (w : Nat) (x : MbWindow) : (putWin s w x).contexts = s.contexts := rfl
@[simp] theorem putWin_gens (w : Nat) (x : MbWindow) : (putWin s w x).gens = s.gens := rfl
@[simp] theorem putWin_startReqs (w : Nat) (x : MbWindow) : (putWin s w x).startReqs = s.startReqs := rfl
@[simp] theorem putWin_ended (w : Nat) (x : MbWindow) : (putWin s w x).ended = s.ended := rfl
@[simp] theorem putWin_parts (w : Nat) (x : MbWindow) : (putWin s w x).parts = s.parts := rfl
@[simp] theorem putWin_far (w : Nat) (x : MbWindow) : (putWin s w x).far = s.far := rfl
@[simp] theorem putWin_farPending (w : Nat) (x : MbWindow) : (putWin s w x).farPending = s.farPending := rfl
@[simp] theorem putWin_sites (w : Nat) (x : MbWindow) : (putWin s w x).sites = s.sites := rfl
@[simp] theorem putWin_links (w : Nat) (x : MbWindow) : (putWin s w x).links = s.links := rfl
@[simp] theorem putWin_fabric (w : Nat) (x : MbWindow) : (putWin s w x).fabric = s.fabric := rfl
@[simp] theorem putWin_qps (w : Nat) (x : MbWindow) : (putWin s w x).qps = s.qps := rfl
@[simp] theorem putWin_vfRanges (w : Nat) (x : MbWindow) : (putWin s w x).vfRanges = s.vfRanges := rfl
@[simp] theorem putWin_bme (w : Nat) (x : MbWindow) : (putWin s w x).bme = s.bme := rfl
@[simp] theorem putWin_d3hot (w : Nat) (x : MbWindow) : (putWin s w x).d3hot = s.d3hot := rfl
@[simp] theorem putWin_linkUp (w : Nat) (x : MbWindow) : (putWin s w x).linkUp = s.linkUp := rfl
@[simp] theorem putWin_vfsOn (w : Nat) (x : MbWindow) : (putWin s w x).vfsOn = s.vfsOn := rfl
@[simp] theorem putWin_dma (w : Nat) (x : MbWindow) : (putWin s w x).dma = s.dma := rfl
@[simp] theorem putWin_mbReqs (w : Nat) (x : MbWindow) : (putWin s w x).mbReqs = s.mbReqs := rfl
@[simp] theorem putWin_taken (w : Nat) (x : MbWindow) : (putWin s w x).taken = s.taken := rfl
@[simp] theorem putWin_acts (w : Nat) (x : MbWindow) : (putWin s w x).acts = s.acts := rfl
@[simp] theorem putWin_nextAct (w : Nat) (x : MbWindow) : (putWin s w x).nextAct = s.nextAct := rfl
@[simp] theorem putWin_weir (w : Nat) (x : MbWindow) : (putWin s w x).weir = s.weir := rfl
@[simp] theorem putWin_record (w : Nat) (x : MbWindow) : (putWin s w x).record = s.record := rfl
@[simp] theorem putWin_island (w : Nat) (x : MbWindow) : (putWin s w x).island = s.island := rfl
@[simp] theorem putWin_power (w : Nat) (x : MbWindow) : (putWin s w x).power = s.power := rfl
@[simp] theorem putWin_house (w : Nat) (x : MbWindow) : (putWin s w x).house = s.house := rfl
@[simp] theorem putWin_springs (w : Nat) (x : MbWindow) : (putWin s w x).springs = s.springs := rfl
@[simp] theorem putWin_start (w : Nat) (x : MbWindow) : (putWin s w x).start = s.start := rfl
@[simp] theorem putWin_maint (w : Nat) (x : MbWindow) : (putWin s w x).maint = s.maint := rfl
@[simp] theorem putWin_flash (w : Nat) (x : MbWindow) : (putWin s w x).flash = s.flash := rfl
@[simp] theorem putWin_nextId (w : Nat) (x : MbWindow) : (putWin s w x).nextId = s.nextId := rfl
@[simp] theorem putWin_freeCount (w : Nat) (x : MbWindow) : (putWin s w x).freeCount = s.freeCount := rfl

@[simp] theorem putPart_pending (p : Nat) (x : Partition) : (putPart s p x).pending = s.pending := rfl
@[simp] theorem putPart_regs (p : Nat) (x : Partition) : (putPart s p x).regs = s.regs := rfl
@[simp] theorem putPart_latches (p : Nat) (x : Partition) : (putPart s p x).latches = s.latches := rfl
@[simp] theorem putPart_firstWrite (p : Nat) (x : Partition) : (putPart s p x).firstWrite = s.firstWrite := rfl
@[simp] theorem putPart_upsets (p : Nat) (x : Partition) : (putPart s p x).upsets = s.upsets := rfl
@[simp] theorem putPart_flagsNow (p : Nat) (x : Partition) : (putPart s p x).flagsNow = s.flagsNow := rfl
@[simp] theorem putPart_mem (p : Nat) (x : Partition) : (putPart s p x).mem = s.mem := rfl
@[simp] theorem putPart_written (p : Nat) (x : Partition) : (putPart s p x).written = s.written := rfl
@[simp] theorem putPart_poison (p : Nat) (x : Partition) : (putPart s p x).poison = s.poison := rfl
@[simp] theorem putPart_corePoison (p : Nat) (x : Partition) : (putPart s p x).corePoison = s.corePoison := rfl
@[simp] theorem putPart_hostMem (p : Nat) (x : Partition) : (putPart s p x).hostMem = s.hostMem := rfl
@[simp] theorem putPart_out (p : Nat) (x : Partition) : (putPart s p x).out = s.out := rfl
@[simp] theorem putPart_time (p : Nat) (x : Partition) : (putPart s p x).time = s.time := rfl
@[simp] theorem putPart_clock (p : Nat) (x : Partition) : (putPart s p x).clock = s.clock := rfl
@[simp] theorem putPart_cross (p : Nat) (x : Partition) : (putPart s p x).cross = s.cross := rfl
@[simp] theorem putPart_faults (p : Nat) (x : Partition) : (putPart s p x).faults = s.faults := rfl
@[simp] theorem putPart_cores (p : Nat) (x : Partition) : (putPart s p x).cores = s.cores := rfl
@[simp] theorem putPart_contexts (p : Nat) (x : Partition) : (putPart s p x).contexts = s.contexts := rfl
@[simp] theorem putPart_gens (p : Nat) (x : Partition) : (putPart s p x).gens = s.gens := rfl
@[simp] theorem putPart_startReqs (p : Nat) (x : Partition) : (putPart s p x).startReqs = s.startReqs := rfl
@[simp] theorem putPart_ended (p : Nat) (x : Partition) : (putPart s p x).ended = s.ended := rfl
@[simp] theorem putPart_far (p : Nat) (x : Partition) : (putPart s p x).far = s.far := rfl
@[simp] theorem putPart_farPending (p : Nat) (x : Partition) : (putPart s p x).farPending = s.farPending := rfl
@[simp] theorem putPart_sites (p : Nat) (x : Partition) : (putPart s p x).sites = s.sites := rfl
@[simp] theorem putPart_links (p : Nat) (x : Partition) : (putPart s p x).links = s.links := rfl
@[simp] theorem putPart_fabric (p : Nat) (x : Partition) : (putPart s p x).fabric = s.fabric := rfl
@[simp] theorem putPart_qps (p : Nat) (x : Partition) : (putPart s p x).qps = s.qps := rfl
@[simp] theorem putPart_vfRanges (p : Nat) (x : Partition) : (putPart s p x).vfRanges = s.vfRanges := rfl
@[simp] theorem putPart_bme (p : Nat) (x : Partition) : (putPart s p x).bme = s.bme := rfl
@[simp] theorem putPart_d3hot (p : Nat) (x : Partition) : (putPart s p x).d3hot = s.d3hot := rfl
@[simp] theorem putPart_linkUp (p : Nat) (x : Partition) : (putPart s p x).linkUp = s.linkUp := rfl
@[simp] theorem putPart_vfsOn (p : Nat) (x : Partition) : (putPart s p x).vfsOn = s.vfsOn := rfl
@[simp] theorem putPart_dma (p : Nat) (x : Partition) : (putPart s p x).dma = s.dma := rfl
@[simp] theorem putPart_windows (p : Nat) (x : Partition) : (putPart s p x).windows = s.windows := rfl
@[simp] theorem putPart_mbReqs (p : Nat) (x : Partition) : (putPart s p x).mbReqs = s.mbReqs := rfl
@[simp] theorem putPart_taken (p : Nat) (x : Partition) : (putPart s p x).taken = s.taken := rfl
@[simp] theorem putPart_acts (p : Nat) (x : Partition) : (putPart s p x).acts = s.acts := rfl
@[simp] theorem putPart_nextAct (p : Nat) (x : Partition) : (putPart s p x).nextAct = s.nextAct := rfl
@[simp] theorem putPart_weir (p : Nat) (x : Partition) : (putPart s p x).weir = s.weir := rfl
@[simp] theorem putPart_record (p : Nat) (x : Partition) : (putPart s p x).record = s.record := rfl
@[simp] theorem putPart_island (p : Nat) (x : Partition) : (putPart s p x).island = s.island := rfl
@[simp] theorem putPart_power (p : Nat) (x : Partition) : (putPart s p x).power = s.power := rfl
@[simp] theorem putPart_house (p : Nat) (x : Partition) : (putPart s p x).house = s.house := rfl
@[simp] theorem putPart_springs (p : Nat) (x : Partition) : (putPart s p x).springs = s.springs := rfl
@[simp] theorem putPart_start (p : Nat) (x : Partition) : (putPart s p x).start = s.start := rfl
@[simp] theorem putPart_maint (p : Nat) (x : Partition) : (putPart s p x).maint = s.maint := rfl
@[simp] theorem putPart_flash (p : Nat) (x : Partition) : (putPart s p x).flash = s.flash := rfl
@[simp] theorem putPart_nextId (p : Nat) (x : Partition) : (putPart s p x).nextId = s.nextId := rfl
@[simp] theorem putPart_freeCount (p : Nat) (x : Partition) : (putPart s p x).freeCount = s.freeCount := rfl

@[simp] theorem putSpring_pending (n : Nat) (x : SpringState) : (putSpring s n x).pending = s.pending := rfl
@[simp] theorem putSpring_regs (n : Nat) (x : SpringState) : (putSpring s n x).regs = s.regs := rfl
@[simp] theorem putSpring_latches (n : Nat) (x : SpringState) : (putSpring s n x).latches = s.latches := rfl
@[simp] theorem putSpring_firstWrite (n : Nat) (x : SpringState) : (putSpring s n x).firstWrite = s.firstWrite := rfl
@[simp] theorem putSpring_upsets (n : Nat) (x : SpringState) : (putSpring s n x).upsets = s.upsets := rfl
@[simp] theorem putSpring_flagsNow (n : Nat) (x : SpringState) : (putSpring s n x).flagsNow = s.flagsNow := rfl
@[simp] theorem putSpring_mem (n : Nat) (x : SpringState) : (putSpring s n x).mem = s.mem := rfl
@[simp] theorem putSpring_written (n : Nat) (x : SpringState) : (putSpring s n x).written = s.written := rfl
@[simp] theorem putSpring_poison (n : Nat) (x : SpringState) : (putSpring s n x).poison = s.poison := rfl
@[simp] theorem putSpring_corePoison (n : Nat) (x : SpringState) : (putSpring s n x).corePoison = s.corePoison := rfl
@[simp] theorem putSpring_hostMem (n : Nat) (x : SpringState) : (putSpring s n x).hostMem = s.hostMem := rfl
@[simp] theorem putSpring_out (n : Nat) (x : SpringState) : (putSpring s n x).out = s.out := rfl
@[simp] theorem putSpring_time (n : Nat) (x : SpringState) : (putSpring s n x).time = s.time := rfl
@[simp] theorem putSpring_clock (n : Nat) (x : SpringState) : (putSpring s n x).clock = s.clock := rfl
@[simp] theorem putSpring_cross (n : Nat) (x : SpringState) : (putSpring s n x).cross = s.cross := rfl
@[simp] theorem putSpring_faults (n : Nat) (x : SpringState) : (putSpring s n x).faults = s.faults := rfl
@[simp] theorem putSpring_cores (n : Nat) (x : SpringState) : (putSpring s n x).cores = s.cores := rfl
@[simp] theorem putSpring_contexts (n : Nat) (x : SpringState) : (putSpring s n x).contexts = s.contexts := rfl
@[simp] theorem putSpring_gens (n : Nat) (x : SpringState) : (putSpring s n x).gens = s.gens := rfl
@[simp] theorem putSpring_startReqs (n : Nat) (x : SpringState) : (putSpring s n x).startReqs = s.startReqs := rfl
@[simp] theorem putSpring_ended (n : Nat) (x : SpringState) : (putSpring s n x).ended = s.ended := rfl
@[simp] theorem putSpring_parts (n : Nat) (x : SpringState) : (putSpring s n x).parts = s.parts := rfl
@[simp] theorem putSpring_far (n : Nat) (x : SpringState) : (putSpring s n x).far = s.far := rfl
@[simp] theorem putSpring_farPending (n : Nat) (x : SpringState) : (putSpring s n x).farPending = s.farPending := rfl
@[simp] theorem putSpring_sites (n : Nat) (x : SpringState) : (putSpring s n x).sites = s.sites := rfl
@[simp] theorem putSpring_links (n : Nat) (x : SpringState) : (putSpring s n x).links = s.links := rfl
@[simp] theorem putSpring_fabric (n : Nat) (x : SpringState) : (putSpring s n x).fabric = s.fabric := rfl
@[simp] theorem putSpring_qps (n : Nat) (x : SpringState) : (putSpring s n x).qps = s.qps := rfl
@[simp] theorem putSpring_vfRanges (n : Nat) (x : SpringState) : (putSpring s n x).vfRanges = s.vfRanges := rfl
@[simp] theorem putSpring_bme (n : Nat) (x : SpringState) : (putSpring s n x).bme = s.bme := rfl
@[simp] theorem putSpring_d3hot (n : Nat) (x : SpringState) : (putSpring s n x).d3hot = s.d3hot := rfl
@[simp] theorem putSpring_linkUp (n : Nat) (x : SpringState) : (putSpring s n x).linkUp = s.linkUp := rfl
@[simp] theorem putSpring_vfsOn (n : Nat) (x : SpringState) : (putSpring s n x).vfsOn = s.vfsOn := rfl
@[simp] theorem putSpring_dma (n : Nat) (x : SpringState) : (putSpring s n x).dma = s.dma := rfl
@[simp] theorem putSpring_windows (n : Nat) (x : SpringState) : (putSpring s n x).windows = s.windows := rfl
@[simp] theorem putSpring_mbReqs (n : Nat) (x : SpringState) : (putSpring s n x).mbReqs = s.mbReqs := rfl
@[simp] theorem putSpring_taken (n : Nat) (x : SpringState) : (putSpring s n x).taken = s.taken := rfl
@[simp] theorem putSpring_acts (n : Nat) (x : SpringState) : (putSpring s n x).acts = s.acts := rfl
@[simp] theorem putSpring_nextAct (n : Nat) (x : SpringState) : (putSpring s n x).nextAct = s.nextAct := rfl
@[simp] theorem putSpring_weir (n : Nat) (x : SpringState) : (putSpring s n x).weir = s.weir := rfl
@[simp] theorem putSpring_record (n : Nat) (x : SpringState) : (putSpring s n x).record = s.record := rfl
@[simp] theorem putSpring_island (n : Nat) (x : SpringState) : (putSpring s n x).island = s.island := rfl
@[simp] theorem putSpring_power (n : Nat) (x : SpringState) : (putSpring s n x).power = s.power := rfl
@[simp] theorem putSpring_house (n : Nat) (x : SpringState) : (putSpring s n x).house = s.house := rfl
@[simp] theorem putSpring_start (n : Nat) (x : SpringState) : (putSpring s n x).start = s.start := rfl
@[simp] theorem putSpring_maint (n : Nat) (x : SpringState) : (putSpring s n x).maint = s.maint := rfl
@[simp] theorem putSpring_flash (n : Nat) (x : SpringState) : (putSpring s n x).flash = s.flash := rfl
@[simp] theorem putSpring_nextId (n : Nat) (x : SpringState) : (putSpring s n x).nextId = s.nextId := rfl
@[simp] theorem putSpring_freeCount (n : Nat) (x : SpringState) : (putSpring s n x).freeCount = s.freeCount := rfl

@[simp] theorem putCross_pending (k : CrossKind) (i : Nat) (x : CrossState) : (putCross s k i x).pending = s.pending := rfl
@[simp] theorem putCross_regs (k : CrossKind) (i : Nat) (x : CrossState) : (putCross s k i x).regs = s.regs := rfl
@[simp] theorem putCross_latches (k : CrossKind) (i : Nat) (x : CrossState) : (putCross s k i x).latches = s.latches := rfl
@[simp] theorem putCross_firstWrite (k : CrossKind) (i : Nat) (x : CrossState) : (putCross s k i x).firstWrite = s.firstWrite := rfl
@[simp] theorem putCross_upsets (k : CrossKind) (i : Nat) (x : CrossState) : (putCross s k i x).upsets = s.upsets := rfl
@[simp] theorem putCross_flagsNow (k : CrossKind) (i : Nat) (x : CrossState) : (putCross s k i x).flagsNow = s.flagsNow := rfl
@[simp] theorem putCross_mem (k : CrossKind) (i : Nat) (x : CrossState) : (putCross s k i x).mem = s.mem := rfl
@[simp] theorem putCross_written (k : CrossKind) (i : Nat) (x : CrossState) : (putCross s k i x).written = s.written := rfl
@[simp] theorem putCross_poison (k : CrossKind) (i : Nat) (x : CrossState) : (putCross s k i x).poison = s.poison := rfl
@[simp] theorem putCross_corePoison (k : CrossKind) (i : Nat) (x : CrossState) : (putCross s k i x).corePoison = s.corePoison := rfl
@[simp] theorem putCross_hostMem (k : CrossKind) (i : Nat) (x : CrossState) : (putCross s k i x).hostMem = s.hostMem := rfl
@[simp] theorem putCross_out (k : CrossKind) (i : Nat) (x : CrossState) : (putCross s k i x).out = s.out := rfl
@[simp] theorem putCross_time (k : CrossKind) (i : Nat) (x : CrossState) : (putCross s k i x).time = s.time := rfl
@[simp] theorem putCross_clock (k : CrossKind) (i : Nat) (x : CrossState) : (putCross s k i x).clock = s.clock := rfl
@[simp] theorem putCross_faults (k : CrossKind) (i : Nat) (x : CrossState) : (putCross s k i x).faults = s.faults := rfl
@[simp] theorem putCross_cores (k : CrossKind) (i : Nat) (x : CrossState) : (putCross s k i x).cores = s.cores := rfl
@[simp] theorem putCross_contexts (k : CrossKind) (i : Nat) (x : CrossState) : (putCross s k i x).contexts = s.contexts := rfl
@[simp] theorem putCross_gens (k : CrossKind) (i : Nat) (x : CrossState) : (putCross s k i x).gens = s.gens := rfl
@[simp] theorem putCross_startReqs (k : CrossKind) (i : Nat) (x : CrossState) : (putCross s k i x).startReqs = s.startReqs := rfl
@[simp] theorem putCross_ended (k : CrossKind) (i : Nat) (x : CrossState) : (putCross s k i x).ended = s.ended := rfl
@[simp] theorem putCross_parts (k : CrossKind) (i : Nat) (x : CrossState) : (putCross s k i x).parts = s.parts := rfl
@[simp] theorem putCross_far (k : CrossKind) (i : Nat) (x : CrossState) : (putCross s k i x).far = s.far := rfl
@[simp] theorem putCross_farPending (k : CrossKind) (i : Nat) (x : CrossState) : (putCross s k i x).farPending = s.farPending := rfl
@[simp] theorem putCross_sites (k : CrossKind) (i : Nat) (x : CrossState) : (putCross s k i x).sites = s.sites := rfl
@[simp] theorem putCross_links (k : CrossKind) (i : Nat) (x : CrossState) : (putCross s k i x).links = s.links := rfl
@[simp] theorem putCross_fabric (k : CrossKind) (i : Nat) (x : CrossState) : (putCross s k i x).fabric = s.fabric := rfl
@[simp] theorem putCross_qps (k : CrossKind) (i : Nat) (x : CrossState) : (putCross s k i x).qps = s.qps := rfl
@[simp] theorem putCross_vfRanges (k : CrossKind) (i : Nat) (x : CrossState) : (putCross s k i x).vfRanges = s.vfRanges := rfl
@[simp] theorem putCross_bme (k : CrossKind) (i : Nat) (x : CrossState) : (putCross s k i x).bme = s.bme := rfl
@[simp] theorem putCross_d3hot (k : CrossKind) (i : Nat) (x : CrossState) : (putCross s k i x).d3hot = s.d3hot := rfl
@[simp] theorem putCross_linkUp (k : CrossKind) (i : Nat) (x : CrossState) : (putCross s k i x).linkUp = s.linkUp := rfl
@[simp] theorem putCross_vfsOn (k : CrossKind) (i : Nat) (x : CrossState) : (putCross s k i x).vfsOn = s.vfsOn := rfl
@[simp] theorem putCross_dma (k : CrossKind) (i : Nat) (x : CrossState) : (putCross s k i x).dma = s.dma := rfl
@[simp] theorem putCross_windows (k : CrossKind) (i : Nat) (x : CrossState) : (putCross s k i x).windows = s.windows := rfl
@[simp] theorem putCross_mbReqs (k : CrossKind) (i : Nat) (x : CrossState) : (putCross s k i x).mbReqs = s.mbReqs := rfl
@[simp] theorem putCross_taken (k : CrossKind) (i : Nat) (x : CrossState) : (putCross s k i x).taken = s.taken := rfl
@[simp] theorem putCross_acts (k : CrossKind) (i : Nat) (x : CrossState) : (putCross s k i x).acts = s.acts := rfl
@[simp] theorem putCross_nextAct (k : CrossKind) (i : Nat) (x : CrossState) : (putCross s k i x).nextAct = s.nextAct := rfl
@[simp] theorem putCross_weir (k : CrossKind) (i : Nat) (x : CrossState) : (putCross s k i x).weir = s.weir := rfl
@[simp] theorem putCross_record (k : CrossKind) (i : Nat) (x : CrossState) : (putCross s k i x).record = s.record := rfl
@[simp] theorem putCross_island (k : CrossKind) (i : Nat) (x : CrossState) : (putCross s k i x).island = s.island := rfl
@[simp] theorem putCross_power (k : CrossKind) (i : Nat) (x : CrossState) : (putCross s k i x).power = s.power := rfl
@[simp] theorem putCross_house (k : CrossKind) (i : Nat) (x : CrossState) : (putCross s k i x).house = s.house := rfl
@[simp] theorem putCross_springs (k : CrossKind) (i : Nat) (x : CrossState) : (putCross s k i x).springs = s.springs := rfl
@[simp] theorem putCross_start (k : CrossKind) (i : Nat) (x : CrossState) : (putCross s k i x).start = s.start := rfl
@[simp] theorem putCross_maint (k : CrossKind) (i : Nat) (x : CrossState) : (putCross s k i x).maint = s.maint := rfl
@[simp] theorem putCross_flash (k : CrossKind) (i : Nat) (x : CrossState) : (putCross s k i x).flash = s.flash := rfl
@[simp] theorem putCross_nextId (k : CrossKind) (i : Nat) (x : CrossState) : (putCross s k i x).nextId = s.nextId := rfl
@[simp] theorem putCross_freeCount (k : CrossKind) (i : Nat) (x : CrossState) : (putCross s k i x).freeCount = s.freeCount := rfl

/-! ### A reading depends on its own part of the state only -/

theorem reg_of {s t : State} (h : t.regs = s.regs) (b : Nat) : reg t b = reg s b := by unfold reg; rw [h]
theorem core_of {s t : State} (h : t.cores = s.cores) (b : Nat) : core t b = core s b := by unfold core; rw [h]
theorem site_of {s t : State} (h : t.sites = s.sites) (b : Nat) : site t b = site s b := by unfold site; rw [h]
theorem link_of {s t : State} (h : t.links = s.links) (b : Nat) : link t b = link s b := by unfold link; rw [h]
theorem qp_of {s t : State} (h : t.qps = s.qps) (b : Nat) : qp t b = qp s b := by unfold qp; rw [h]
theorem dmaCh_of {s t : State} (h : t.dma = s.dma) (b : Nat) : dmaCh t b = dmaCh s b := by unfold dmaCh; rw [h]
theorem win_of {s t : State} (h : t.windows = s.windows) (b : Nat) : win t b = win s b := by unfold win; rw [h]
theorem part_of {s t : State} (h : t.parts = s.parts) (b : Nat) : part t b = part s b := by unfold part; rw [h]
theorem spring_of {s t : State} (h : t.springs = s.springs) (b : Nat) : spring t b = spring s b := by unfold spring; rw [h]
theorem farSlot_of {s t : State} (h : t.far = s.far) (b : Nat) : farSlot t b = farSlot s b := by unfold farSlot; rw [h]
theorem crossAt_of {s t : State} (h : t.cross = s.cross) (j : CrossKind) (b : Nat) : crossAt t j b = crossAt s j b := by unfold crossAt; rw [h]
theorem ctxQ_of {s t : State} (h : t.contexts = s.contexts) (b : Nat) : ctx? t b = ctx? s b := by unfold ctx?; rw [h]
theorem tickOf_of {s t : State} (h : t.time = s.time) : tickOf t = tickOf s := by unfold tickOf; rw [h]
theorem regBit_of {s t : State} (h : t.regs = s.regs) (a i : Nat) : regBit t a i = regBit s a i := by
  unfold regBit; rw [reg_of h]
theorem field_of {s t : State} (h : t.regs = s.regs) (a i j : Nat) : field t a i j = field s a i j := by
  unfold field; rw [reg_of h]
theorem domOn_of {s t : State} (h : t.regs = s.regs) (d : Nat) : domOn t d = domOn s d := by
  unfold domOn domState; rw [field_of h]

/-! ### Reading one part under an update of another -/

@[simp] theorem core_putReg (off v : Nat) (b : Nat) : core (putReg s off v) b = core s b := rfl
@[simp] theorem site_putReg (off v : Nat) (b : Nat) : site (putReg s off v) b = site s b := rfl
@[simp] theorem link_putReg (off v : Nat) (b : Nat) : link (putReg s off v) b = link s b := rfl
@[simp] theorem qp_putReg (off v : Nat) (b : Nat) : qp (putReg s off v) b = qp s b := rfl
@[simp] theorem dmaCh_putReg (off v : Nat) (b : Nat) : dmaCh (putReg s off v) b = dmaCh s b := rfl
@[simp] theorem win_putReg (off v : Nat) (b : Nat) : win (putReg s off v) b = win s b := rfl
@[simp] theorem part_putReg (off v : Nat) (b : Nat) : part (putReg s off v) b = part s b := rfl
@[simp] theorem spring_putReg (off v : Nat) (b : Nat) : spring (putReg s off v) b = spring s b := rfl
@[simp] theorem farSlot_putReg (off v : Nat) (b : Nat) : farSlot (putReg s off v) b = farSlot s b := rfl
@[simp] theorem crossAt_putReg (off v : Nat) (j : CrossKind) (b : Nat) : crossAt (putReg s off v) j b = crossAt s j b := rfl
@[simp] theorem ctxQ_putReg (off v : Nat) (b : Nat) : ctx? (putReg s off v) b = ctx? s b := rfl
@[simp] theorem tickOf_putReg (off v : Nat)  : tickOf (putReg s off v) = tickOf s := rfl

@[simp] theorem reg_emit (o : Output) (b : Nat) : reg (emit s o) b = reg s b := rfl
@[simp] theorem core_emit (o : Output) (b : Nat) : core (emit s o) b = core s b := rfl
@[simp] theorem site_emit (o : Output) (b : Nat) : site (emit s o) b = site s b := rfl
@[simp] theorem link_emit (o : Output) (b : Nat) : link (emit s o) b = link s b := rfl
@[simp] theorem qp_emit (o : Output) (b : Nat) : qp (emit s o) b = qp s b := rfl
@[simp] theorem dmaCh_emit (o : Output) (b : Nat) : dmaCh (emit s o) b = dmaCh s b := rfl
@[simp] theorem win_emit (o : Output) (b : Nat) : win (emit s o) b = win s b := rfl
@[simp] theorem part_emit (o : Output) (b : Nat) : part (emit s o) b = part s b := rfl
@[simp] theorem spring_emit (o : Output) (b : Nat) : spring (emit s o) b = spring s b := rfl
@[simp] theorem farSlot_emit (o : Output) (b : Nat) : farSlot (emit s o) b = farSlot s b := rfl
@[simp] theorem crossAt_emit (o : Output) (j : CrossKind) (b : Nat) : crossAt (emit s o) j b = crossAt s j b := rfl
@[simp] theorem ctxQ_emit (o : Output) (b : Nat) : ctx? (emit s o) b = ctx? s b := rfl
@[simp] theorem tickOf_emit (o : Output)  : tickOf (emit s o) = tickOf s := rfl

@[simp] theorem reg_putCore (c : Nat) (x : CoreState) (b : Nat) : reg (putCore s c x) b = reg s b := rfl
@[simp] theorem site_putCore (c : Nat) (x : CoreState) (b : Nat) : site (putCore s c x) b = site s b := rfl
@[simp] theorem link_putCore (c : Nat) (x : CoreState) (b : Nat) : link (putCore s c x) b = link s b := rfl
@[simp] theorem qp_putCore (c : Nat) (x : CoreState) (b : Nat) : qp (putCore s c x) b = qp s b := rfl
@[simp] theorem dmaCh_putCore (c : Nat) (x : CoreState) (b : Nat) : dmaCh (putCore s c x) b = dmaCh s b := rfl
@[simp] theorem win_putCore (c : Nat) (x : CoreState) (b : Nat) : win (putCore s c x) b = win s b := rfl
@[simp] theorem part_putCore (c : Nat) (x : CoreState) (b : Nat) : part (putCore s c x) b = part s b := rfl
@[simp] theorem spring_putCore (c : Nat) (x : CoreState) (b : Nat) : spring (putCore s c x) b = spring s b := rfl
@[simp] theorem farSlot_putCore (c : Nat) (x : CoreState) (b : Nat) : farSlot (putCore s c x) b = farSlot s b := rfl
@[simp] theorem crossAt_putCore (c : Nat) (x : CoreState) (j : CrossKind) (b : Nat) : crossAt (putCore s c x) j b = crossAt s j b := rfl
@[simp] theorem ctxQ_putCore (c : Nat) (x : CoreState) (b : Nat) : ctx? (putCore s c x) b = ctx? s b := rfl
@[simp] theorem tickOf_putCore (c : Nat) (x : CoreState)  : tickOf (putCore s c x) = tickOf s := rfl

@[simp] theorem reg_putSite (i : Nat) (x : SiteState) (b : Nat) : reg (putSite s i x) b = reg s b := rfl
@[simp] theorem core_putSite (i : Nat) (x : SiteState) (b : Nat) : core (putSite s i x) b = core s b := rfl
@[simp] theorem link_putSite (i : Nat) (x : SiteState) (b : Nat) : link (putSite s i x) b = link s b := rfl
@[simp] theorem qp_putSite (i : Nat) (x : SiteState) (b : Nat) : qp (putSite s i x) b = qp s b := rfl
@[simp] theorem dmaCh_putSite (i : Nat) (x : SiteState) (b : Nat) : dmaCh (putSite s i x) b = dmaCh s b := rfl
@[simp] theorem win_putSite (i : Nat) (x : SiteState) (b : Nat) : win (putSite s i x) b = win s b := rfl
@[simp] theorem part_putSite (i : Nat) (x : SiteState) (b : Nat) : part (putSite s i x) b = part s b := rfl
@[simp] theorem spring_putSite (i : Nat) (x : SiteState) (b : Nat) : spring (putSite s i x) b = spring s b := rfl
@[simp] theorem farSlot_putSite (i : Nat) (x : SiteState) (b : Nat) : farSlot (putSite s i x) b = farSlot s b := rfl
@[simp] theorem crossAt_putSite (i : Nat) (x : SiteState) (j : CrossKind) (b : Nat) : crossAt (putSite s i x) j b = crossAt s j b := rfl
@[simp] theorem ctxQ_putSite (i : Nat) (x : SiteState) (b : Nat) : ctx? (putSite s i x) b = ctx? s b := rfl
@[simp] theorem tickOf_putSite (i : Nat) (x : SiteState)  : tickOf (putSite s i x) = tickOf s := rfl

@[simp] theorem reg_putLink (o : Nat) (x : LinkState) (b : Nat) : reg (putLink s o x) b = reg s b := rfl
@[simp] theorem core_putLink (o : Nat) (x : LinkState) (b : Nat) : core (putLink s o x) b = core s b := rfl
@[simp] theorem site_putLink (o : Nat) (x : LinkState) (b : Nat) : site (putLink s o x) b = site s b := rfl
@[simp] theorem qp_putLink (o : Nat) (x : LinkState) (b : Nat) : qp (putLink s o x) b = qp s b := rfl
@[simp] theorem dmaCh_putLink (o : Nat) (x : LinkState) (b : Nat) : dmaCh (putLink s o x) b = dmaCh s b := rfl
@[simp] theorem win_putLink (o : Nat) (x : LinkState) (b : Nat) : win (putLink s o x) b = win s b := rfl
@[simp] theorem part_putLink (o : Nat) (x : LinkState) (b : Nat) : part (putLink s o x) b = part s b := rfl
@[simp] theorem spring_putLink (o : Nat) (x : LinkState) (b : Nat) : spring (putLink s o x) b = spring s b := rfl
@[simp] theorem farSlot_putLink (o : Nat) (x : LinkState) (b : Nat) : farSlot (putLink s o x) b = farSlot s b := rfl
@[simp] theorem crossAt_putLink (o : Nat) (x : LinkState) (j : CrossKind) (b : Nat) : crossAt (putLink s o x) j b = crossAt s j b := rfl
@[simp] theorem ctxQ_putLink (o : Nat) (x : LinkState) (b : Nat) : ctx? (putLink s o x) b = ctx? s b := rfl
@[simp] theorem tickOf_putLink (o : Nat) (x : LinkState)  : tickOf (putLink s o x) = tickOf s := rfl

@[simp] theorem reg_putQp (q : Nat) (x : QpState) (b : Nat) : reg (putQp s q x) b = reg s b := rfl
@[simp] theorem core_putQp (q : Nat) (x : QpState) (b : Nat) : core (putQp s q x) b = core s b := rfl
@[simp] theorem site_putQp (q : Nat) (x : QpState) (b : Nat) : site (putQp s q x) b = site s b := rfl
@[simp] theorem link_putQp (q : Nat) (x : QpState) (b : Nat) : link (putQp s q x) b = link s b := rfl
@[simp] theorem dmaCh_putQp (q : Nat) (x : QpState) (b : Nat) : dmaCh (putQp s q x) b = dmaCh s b := rfl
@[simp] theorem win_putQp (q : Nat) (x : QpState) (b : Nat) : win (putQp s q x) b = win s b := rfl
@[simp] theorem part_putQp (q : Nat) (x : QpState) (b : Nat) : part (putQp s q x) b = part s b := rfl
@[simp] theorem spring_putQp (q : Nat) (x : QpState) (b : Nat) : spring (putQp s q x) b = spring s b := rfl
@[simp] theorem farSlot_putQp (q : Nat) (x : QpState) (b : Nat) : farSlot (putQp s q x) b = farSlot s b := rfl
@[simp] theorem crossAt_putQp (q : Nat) (x : QpState) (j : CrossKind) (b : Nat) : crossAt (putQp s q x) j b = crossAt s j b := rfl
@[simp] theorem ctxQ_putQp (q : Nat) (x : QpState) (b : Nat) : ctx? (putQp s q x) b = ctx? s b := rfl
@[simp] theorem tickOf_putQp (q : Nat) (x : QpState)  : tickOf (putQp s q x) = tickOf s := rfl

@[simp] theorem reg_putDma (c : Nat) (x : DmaState) (b : Nat) : reg (putDma s c x) b = reg s b := rfl
@[simp] theorem core_putDma (c : Nat) (x : DmaState) (b : Nat) : core (putDma s c x) b = core s b := rfl
@[simp] theorem site_putDma (c : Nat) (x : DmaState) (b : Nat) : site (putDma s c x) b = site s b := rfl
@[simp] theorem link_putDma (c : Nat) (x : DmaState) (b : Nat) : link (putDma s c x) b = link s b := rfl
@[simp] theorem qp_putDma (c : Nat) (x : DmaState) (b : Nat) : qp (putDma s c x) b = qp s b := rfl
@[simp] theorem win_putDma (c : Nat) (x : DmaState) (b : Nat) : win (putDma s c x) b = win s b := rfl
@[simp] theorem part_putDma (c : Nat) (x : DmaState) (b : Nat) : part (putDma s c x) b = part s b := rfl
@[simp] theorem spring_putDma (c : Nat) (x : DmaState) (b : Nat) : spring (putDma s c x) b = spring s b := rfl
@[simp] theorem farSlot_putDma (c : Nat) (x : DmaState) (b : Nat) : farSlot (putDma s c x) b = farSlot s b := rfl
@[simp] theorem crossAt_putDma (c : Nat) (x : DmaState) (j : CrossKind) (b : Nat) : crossAt (putDma s c x) j b = crossAt s j b := rfl
@[simp] theorem ctxQ_putDma (c : Nat) (x : DmaState) (b : Nat) : ctx? (putDma s c x) b = ctx? s b := rfl
@[simp] theorem tickOf_putDma (c : Nat) (x : DmaState)  : tickOf (putDma s c x) = tickOf s := rfl

@[simp] theorem reg_putWin (w : Nat) (x : MbWindow) (b : Nat) : reg (putWin s w x) b = reg s b := rfl
@[simp] theorem core_putWin (w : Nat) (x : MbWindow) (b : Nat) : core (putWin s w x) b = core s b := rfl
@[simp] theorem site_putWin (w : Nat) (x : MbWindow) (b : Nat) : site (putWin s w x) b = site s b := rfl
@[simp] theorem link_putWin (w : Nat) (x : MbWindow) (b : Nat) : link (putWin s w x) b = link s b := rfl
@[simp] theorem qp_putWin (w : Nat) (x : MbWindow) (b : Nat) : qp (putWin s w x) b = qp s b := rfl
@[simp] theorem dmaCh_putWin (w : Nat) (x : MbWindow) (b : Nat) : dmaCh (putWin s w x) b = dmaCh s b := rfl
@[simp] theorem part_putWin (w : Nat) (x : MbWindow) (b : Nat) : part (putWin s w x) b = part s b := rfl
@[simp] theorem spring_putWin (w : Nat) (x : MbWindow) (b : Nat) : spring (putWin s w x) b = spring s b := rfl
@[simp] theorem farSlot_putWin (w : Nat) (x : MbWindow) (b : Nat) : farSlot (putWin s w x) b = farSlot s b := rfl
@[simp] theorem crossAt_putWin (w : Nat) (x : MbWindow) (j : CrossKind) (b : Nat) : crossAt (putWin s w x) j b = crossAt s j b := rfl
@[simp] theorem ctxQ_putWin (w : Nat) (x : MbWindow) (b : Nat) : ctx? (putWin s w x) b = ctx? s b := rfl
@[simp] theorem tickOf_putWin (w : Nat) (x : MbWindow)  : tickOf (putWin s w x) = tickOf s := rfl

@[simp] theorem reg_putPart (p : Nat) (x : Partition) (b : Nat) : reg (putPart s p x) b = reg s b := rfl
@[simp] theorem core_putPart (p : Nat) (x : Partition) (b : Nat) : core (putPart s p x) b = core s b := rfl
@[simp] theorem site_putPart (p : Nat) (x : Partition) (b : Nat) : site (putPart s p x) b = site s b := rfl
@[simp] theorem link_putPart (p : Nat) (x : Partition) (b : Nat) : link (putPart s p x) b = link s b := rfl
@[simp] theorem qp_putPart (p : Nat) (x : Partition) (b : Nat) : qp (putPart s p x) b = qp s b := rfl
@[simp] theorem dmaCh_putPart (p : Nat) (x : Partition) (b : Nat) : dmaCh (putPart s p x) b = dmaCh s b := rfl
@[simp] theorem win_putPart (p : Nat) (x : Partition) (b : Nat) : win (putPart s p x) b = win s b := rfl
@[simp] theorem spring_putPart (p : Nat) (x : Partition) (b : Nat) : spring (putPart s p x) b = spring s b := rfl
@[simp] theorem farSlot_putPart (p : Nat) (x : Partition) (b : Nat) : farSlot (putPart s p x) b = farSlot s b := rfl
@[simp] theorem crossAt_putPart (p : Nat) (x : Partition) (j : CrossKind) (b : Nat) : crossAt (putPart s p x) j b = crossAt s j b := rfl
@[simp] theorem ctxQ_putPart (p : Nat) (x : Partition) (b : Nat) : ctx? (putPart s p x) b = ctx? s b := rfl
@[simp] theorem tickOf_putPart (p : Nat) (x : Partition)  : tickOf (putPart s p x) = tickOf s := rfl

@[simp] theorem reg_putSpring (n : Nat) (x : SpringState) (b : Nat) : reg (putSpring s n x) b = reg s b := rfl
@[simp] theorem core_putSpring (n : Nat) (x : SpringState) (b : Nat) : core (putSpring s n x) b = core s b := rfl
@[simp] theorem site_putSpring (n : Nat) (x : SpringState) (b : Nat) : site (putSpring s n x) b = site s b := rfl
@[simp] theorem link_putSpring (n : Nat) (x : SpringState) (b : Nat) : link (putSpring s n x) b = link s b := rfl
@[simp] theorem qp_putSpring (n : Nat) (x : SpringState) (b : Nat) : qp (putSpring s n x) b = qp s b := rfl
@[simp] theorem dmaCh_putSpring (n : Nat) (x : SpringState) (b : Nat) : dmaCh (putSpring s n x) b = dmaCh s b := rfl
@[simp] theorem win_putSpring (n : Nat) (x : SpringState) (b : Nat) : win (putSpring s n x) b = win s b := rfl
@[simp] theorem part_putSpring (n : Nat) (x : SpringState) (b : Nat) : part (putSpring s n x) b = part s b := rfl
@[simp] theorem farSlot_putSpring (n : Nat) (x : SpringState) (b : Nat) : farSlot (putSpring s n x) b = farSlot s b := rfl
@[simp] theorem crossAt_putSpring (n : Nat) (x : SpringState) (j : CrossKind) (b : Nat) : crossAt (putSpring s n x) j b = crossAt s j b := rfl
@[simp] theorem ctxQ_putSpring (n : Nat) (x : SpringState) (b : Nat) : ctx? (putSpring s n x) b = ctx? s b := rfl
@[simp] theorem tickOf_putSpring (n : Nat) (x : SpringState)  : tickOf (putSpring s n x) = tickOf s := rfl

@[simp] theorem reg_putCross (k : CrossKind) (i : Nat) (x : CrossState) (b : Nat) : reg (putCross s k i x) b = reg s b := rfl
@[simp] theorem core_putCross (k : CrossKind) (i : Nat) (x : CrossState) (b : Nat) : core (putCross s k i x) b = core s b := rfl
@[simp] theorem site_putCross (k : CrossKind) (i : Nat) (x : CrossState) (b : Nat) : site (putCross s k i x) b = site s b := rfl
@[simp] theorem link_putCross (k : CrossKind) (i : Nat) (x : CrossState) (b : Nat) : link (putCross s k i x) b = link s b := rfl
@[simp] theorem qp_putCross (k : CrossKind) (i : Nat) (x : CrossState) (b : Nat) : qp (putCross s k i x) b = qp s b := rfl
@[simp] theorem dmaCh_putCross (k : CrossKind) (i : Nat) (x : CrossState) (b : Nat) : dmaCh (putCross s k i x) b = dmaCh s b := rfl
@[simp] theorem win_putCross (k : CrossKind) (i : Nat) (x : CrossState) (b : Nat) : win (putCross s k i x) b = win s b := rfl
@[simp] theorem part_putCross (k : CrossKind) (i : Nat) (x : CrossState) (b : Nat) : part (putCross s k i x) b = part s b := rfl
@[simp] theorem spring_putCross (k : CrossKind) (i : Nat) (x : CrossState) (b : Nat) : spring (putCross s k i x) b = spring s b := rfl
@[simp] theorem farSlot_putCross (k : CrossKind) (i : Nat) (x : CrossState) (b : Nat) : farSlot (putCross s k i x) b = farSlot s b := rfl
@[simp] theorem ctxQ_putCross (k : CrossKind) (i : Nat) (x : CrossState) (b : Nat) : ctx? (putCross s k i x) b = ctx? s b := rfl
@[simp] theorem tickOf_putCross (k : CrossKind) (i : Nat) (x : CrossState)  : tickOf (putCross s k i x) = tickOf s := rfl

/-! ### Reading a part after it is written -/

@[simp] theorem reg_putReg_self (off v : Nat) : reg (putReg s off v) off = v := tget_tput_self _ _ _ _
theorem reg_putReg (off v : Nat) (b : Nat) : reg (putReg s off v) b = if b = off then v else reg s b := by
  unfold reg putReg
  by_cases h : b = off
  · subst h; rw [if_pos rfl, tget_tput_self]
  · rw [if_neg h]; unfold tget tput; split
    · rw [tfind_tdel, if_neg h]
    · rw [tfind_tins, if_neg h]
@[simp] theorem reg_putReg_other (off v : Nat) (b : Nat) (h : b ≠ off) : reg (putReg s off v) b = reg s b := by rw [reg_putReg, if_neg h]

@[simp] theorem core_putCore_self (c : Nat) (x : CoreState) : core (putCore s c x) c = x := tget_tput_self _ _ _ _
theorem core_putCore (c : Nat) (x : CoreState) (b : Nat) : core (putCore s c x) b = if b = c then x else core s b := by
  exact tget_tput _ _ _ _ _
@[simp] theorem core_putCore_other (c : Nat) (x : CoreState) (b : Nat) (h : b ≠ c) : core (putCore s c x) b = core s b := by rw [core_putCore, if_neg h]

@[simp] theorem site_putSite_self (i : Nat) (x : SiteState) : site (putSite s i x) i = x := tget_tput_self _ _ _ _
theorem site_putSite (i : Nat) (x : SiteState) (b : Nat) : site (putSite s i x) b = if b = i then x else site s b := by
  exact tget_tput _ _ _ _ _
@[simp] theorem site_putSite_other (i : Nat) (x : SiteState) (b : Nat) (h : b ≠ i) : site (putSite s i x) b = site s b := by rw [site_putSite, if_neg h]

@[simp] theorem link_putLink_self (o : Nat) (x : LinkState) : link (putLink s o x) o = x := tget_tput_self _ _ _ _
theorem link_putLink (o : Nat) (x : LinkState) (b : Nat) : link (putLink s o x) b = if b = o then x else link s b := by
  exact tget_tput _ _ _ _ _
@[simp] theorem link_putLink_other (o : Nat) (x : LinkState) (b : Nat) (h : b ≠ o) : link (putLink s o x) b = link s b := by rw [link_putLink, if_neg h]

@[simp] theorem qp_putQp_self (q : Nat) (x : QpState) : qp (putQp s q x) q = x := tget_tput_self _ _ _ _
theorem qp_putQp (q : Nat) (x : QpState) (b : Nat) : qp (putQp s q x) b = if b = q then x else qp s b := by
  exact tget_tput _ _ _ _ _
@[simp] theorem qp_putQp_other (q : Nat) (x : QpState) (b : Nat) (h : b ≠ q) : qp (putQp s q x) b = qp s b := by rw [qp_putQp, if_neg h]

@[simp] theorem dmaCh_putDma_self (c : Nat) (x : DmaState) : dmaCh (putDma s c x) c = x := tget_tput_self _ _ _ _
theorem dmaCh_putDma (c : Nat) (x : DmaState) (b : Nat) : dmaCh (putDma s c x) b = if b = c then x else dmaCh s b := by
  exact tget_tput _ _ _ _ _
@[simp] theorem dmaCh_putDma_other (c : Nat) (x : DmaState) (b : Nat) (h : b ≠ c) : dmaCh (putDma s c x) b = dmaCh s b := by rw [dmaCh_putDma, if_neg h]

@[simp] theorem win_putWin_self (w : Nat) (x : MbWindow) : win (putWin s w x) w = x := tget_tput_self _ _ _ _
theorem win_putWin (w : Nat) (x : MbWindow) (b : Nat) : win (putWin s w x) b = if b = w then x else win s b := by
  exact tget_tput _ _ _ _ _
@[simp] theorem win_putWin_other (w : Nat) (x : MbWindow) (b : Nat) (h : b ≠ w) : win (putWin s w x) b = win s b := by rw [win_putWin, if_neg h]

@[simp] theorem part_putPart_self (p : Nat) (x : Partition) : part (putPart s p x) p = x := tget_tput_self _ _ _ _
theorem part_putPart (p : Nat) (x : Partition) (b : Nat) : part (putPart s p x) b = if b = p then x else part s b := by
  exact tget_tput _ _ _ _ _
@[simp] theorem part_putPart_other (p : Nat) (x : Partition) (b : Nat) (h : b ≠ p) : part (putPart s p x) b = part s b := by rw [part_putPart, if_neg h]

@[simp] theorem spring_putSpring_self (n : Nat) (x : SpringState) : spring (putSpring s n x) n = x := tget_tput_self _ _ _ _
theorem spring_putSpring (n : Nat) (x : SpringState) (b : Nat) : spring (putSpring s n x) b = if b = n then x else spring s b := by
  exact tget_tput _ _ _ _ _
@[simp] theorem spring_putSpring_other (n : Nat) (x : SpringState) (b : Nat) (h : b ≠ n) : spring (putSpring s n x) b = spring s b := by rw [spring_putSpring, if_neg h]

@[simp] theorem crossAt_putCross_self (k : CrossKind) (i : Nat) (x : CrossState) : crossAt (putCross s k i x) k i = x :=
  tget_tput_self _ _ _ _

/-! ### Registers, fields and bits -/

@[simp] theorem reg_putField_other (off hi lo v b : Nat) (h : b ≠ off) : reg (putField s off hi lo v) b = reg s b :=
  reg_putReg_other s _ _ _ h

theorem field_putField (off hi lo v : Nat) (h : lo ≤ hi + 1) :
    field (putField s off hi lo v) off hi lo = v % 2 ^ (hi + 1 - lo) := by
  unfold field putField; rw [reg_putReg_self, bits_setBits _ _ _ _ h]

@[simp] theorem regBit_putBit_self (off i : Nat) (b : Bool) : regBit (putBit s off i b) off i = b := by
  unfold regBit putBit; rw [reg_putReg_self, bit_setBit_self]

theorem regBit_putBit (off i off' j : Nat) (b : Bool) :
    regBit (putBit s off i b) off' j = if off' = off ∧ j = i then b else regBit s off' j := by
  unfold regBit putBit
  rw [reg_putReg]
  by_cases h : off' = off
  · subst h; rw [if_pos rfl, bit_setBit]; simp
  · rw [if_neg h, if_neg (fun x => h x.1)]

@[simp] theorem regBit_raiseFlag_self (off i : Nat) : regBit (raiseFlag s off i) off i = true := regBit_putBit_self s off i true

@[simp] theorem reg_putBit_other (off i b : Nat) (v : Bool) (h : b ≠ off) : reg (putBit s off i v) b = reg s b :=
  reg_putReg_other s _ _ _ h

@[simp] theorem reg_raiseFlag_other (off i b : Nat) (h : b ≠ off) : reg (raiseFlag s off i) b = reg s b :=
  reg_putReg_other s _ _ _ h

@[simp] theorem reg_addPair_self (off n : Nat) : reg (addPair s off n) off = (reg s off + n) % 2 ^ 64 := reg_putReg_self s _ _
@[simp] theorem reg_addPairSat_self (off n : Nat) : reg (addPairSat s off n) off = satAdd 64 (reg s off) n :=
  reg_putReg_self s _ _
@[simp] theorem reg_addReg_self (off n : Nat) : reg (addReg s off n) off = satAdd 32 (reg s off) n := reg_putReg_self s _ _

@[simp] theorem core_modCore_self (c : Nat) (f : CoreState → CoreState) : core (modCore s c f) c = f (core s c) :=
  core_putCore_self s _ _
@[simp] theorem site_modSite_self (i : Nat) (f : SiteState → SiteState) : site (modSite s i f) i = f (site s i) :=
  site_putSite_self s _ _
@[simp] theorem link_modLink_self (o : Nat) (f : LinkState → LinkState) : link (modLink s o f) o = f (link s o) :=
  link_putLink_self s _ _
@[simp] theorem qp_modQp_self (q : Nat) (f : QpState → QpState) : qp (modQp s q f) q = f (qp s q) := qp_putQp_self s _ _
@[simp] theorem win_modWin_self (w : Nat) (f : MbWindow → MbWindow) : win (modWin s w f) w = f (win s w) :=
  win_putWin_self s _ _
@[simp] theorem part_modPart_self (p : Nat) (f : Partition → Partition) : part (modPart s p f) p = f (part s p) :=
  part_putPart_self s _ _

/-! ### The fields of the state under an update made of plain ones -/

@[simp] theorem putField_pending (off hi lo v : Nat) : (putField s off hi lo v).pending = s.pending := rfl
@[simp] theorem putField_latches (off hi lo v : Nat) : (putField s off hi lo v).latches = s.latches := rfl
@[simp] theorem putField_firstWrite (off hi lo v : Nat) : (putField s off hi lo v).firstWrite = s.firstWrite := rfl
@[simp] theorem putField_upsets (off hi lo v : Nat) : (putField s off hi lo v).upsets = s.upsets := rfl
@[simp] theorem putField_flagsNow (off hi lo v : Nat) : (putField s off hi lo v).flagsNow = s.flagsNow := rfl
@[simp] theorem putField_mem (off hi lo v : Nat) : (putField s off hi lo v).mem = s.mem := rfl
@[simp] theorem putField_written (off hi lo v : Nat) : (putField s off hi lo v).written = s.written := rfl
@[simp] theorem putField_poison (off hi lo v : Nat) : (putField s off hi lo v).poison = s.poison := rfl
@[simp] theorem putField_corePoison (off hi lo v : Nat) : (putField s off hi lo v).corePoison = s.corePoison := rfl
@[simp] theorem putField_hostMem (off hi lo v : Nat) : (putField s off hi lo v).hostMem = s.hostMem := rfl
@[simp] theorem putField_out (off hi lo v : Nat) : (putField s off hi lo v).out = s.out := rfl
@[simp] theorem putField_time (off hi lo v : Nat) : (putField s off hi lo v).time = s.time := rfl
@[simp] theorem putField_clock (off hi lo v : Nat) : (putField s off hi lo v).clock = s.clock := rfl
@[simp] theorem putField_cross (off hi lo v : Nat) : (putField s off hi lo v).cross = s.cross := rfl
@[simp] theorem putField_faults (off hi lo v : Nat) : (putField s off hi lo v).faults = s.faults := rfl
@[simp] theorem putField_cores (off hi lo v : Nat) : (putField s off hi lo v).cores = s.cores := rfl
@[simp] theorem putField_contexts (off hi lo v : Nat) : (putField s off hi lo v).contexts = s.contexts := rfl
@[simp] theorem putField_gens (off hi lo v : Nat) : (putField s off hi lo v).gens = s.gens := rfl
@[simp] theorem putField_startReqs (off hi lo v : Nat) : (putField s off hi lo v).startReqs = s.startReqs := rfl
@[simp] theorem putField_ended (off hi lo v : Nat) : (putField s off hi lo v).ended = s.ended := rfl
@[simp] theorem putField_parts (off hi lo v : Nat) : (putField s off hi lo v).parts = s.parts := rfl
@[simp] theorem putField_far (off hi lo v : Nat) : (putField s off hi lo v).far = s.far := rfl
@[simp] theorem putField_farPending (off hi lo v : Nat) : (putField s off hi lo v).farPending = s.farPending := rfl
@[simp] theorem putField_sites (off hi lo v : Nat) : (putField s off hi lo v).sites = s.sites := rfl
@[simp] theorem putField_links (off hi lo v : Nat) : (putField s off hi lo v).links = s.links := rfl
@[simp] theorem putField_fabric (off hi lo v : Nat) : (putField s off hi lo v).fabric = s.fabric := rfl
@[simp] theorem putField_qps (off hi lo v : Nat) : (putField s off hi lo v).qps = s.qps := rfl
@[simp] theorem putField_vfRanges (off hi lo v : Nat) : (putField s off hi lo v).vfRanges = s.vfRanges := rfl
@[simp] theorem putField_bme (off hi lo v : Nat) : (putField s off hi lo v).bme = s.bme := rfl
@[simp] theorem putField_d3hot (off hi lo v : Nat) : (putField s off hi lo v).d3hot = s.d3hot := rfl
@[simp] theorem putField_linkUp (off hi lo v : Nat) : (putField s off hi lo v).linkUp = s.linkUp := rfl
@[simp] theorem putField_vfsOn (off hi lo v : Nat) : (putField s off hi lo v).vfsOn = s.vfsOn := rfl
@[simp] theorem putField_dma (off hi lo v : Nat) : (putField s off hi lo v).dma = s.dma := rfl
@[simp] theorem putField_windows (off hi lo v : Nat) : (putField s off hi lo v).windows = s.windows := rfl
@[simp] theorem putField_mbReqs (off hi lo v : Nat) : (putField s off hi lo v).mbReqs = s.mbReqs := rfl
@[simp] theorem putField_taken (off hi lo v : Nat) : (putField s off hi lo v).taken = s.taken := rfl
@[simp] theorem putField_acts (off hi lo v : Nat) : (putField s off hi lo v).acts = s.acts := rfl
@[simp] theorem putField_nextAct (off hi lo v : Nat) : (putField s off hi lo v).nextAct = s.nextAct := rfl
@[simp] theorem putField_weir (off hi lo v : Nat) : (putField s off hi lo v).weir = s.weir := rfl
@[simp] theorem putField_record (off hi lo v : Nat) : (putField s off hi lo v).record = s.record := rfl
@[simp] theorem putField_island (off hi lo v : Nat) : (putField s off hi lo v).island = s.island := rfl
@[simp] theorem putField_power (off hi lo v : Nat) : (putField s off hi lo v).power = s.power := rfl
@[simp] theorem putField_house (off hi lo v : Nat) : (putField s off hi lo v).house = s.house := rfl
@[simp] theorem putField_springs (off hi lo v : Nat) : (putField s off hi lo v).springs = s.springs := rfl
@[simp] theorem putField_start (off hi lo v : Nat) : (putField s off hi lo v).start = s.start := rfl
@[simp] theorem putField_maint (off hi lo v : Nat) : (putField s off hi lo v).maint = s.maint := rfl
@[simp] theorem putField_flash (off hi lo v : Nat) : (putField s off hi lo v).flash = s.flash := rfl
@[simp] theorem putField_nextId (off hi lo v : Nat) : (putField s off hi lo v).nextId = s.nextId := rfl
@[simp] theorem putField_freeCount (off hi lo v : Nat) : (putField s off hi lo v).freeCount = s.freeCount := rfl

@[simp] theorem putBit_pending (off i : Nat) (b : Bool) : (putBit s off i b).pending = s.pending := rfl
@[simp] theorem putBit_latches (off i : Nat) (b : Bool) : (putBit s off i b).latches = s.latches := rfl
@[simp] theorem putBit_firstWrite (off i : Nat) (b : Bool) : (putBit s off i b).firstWrite = s.firstWrite := rfl
@[simp] theorem putBit_upsets (off i : Nat) (b : Bool) : (putBit s off i b).upsets = s.upsets := rfl
@[simp] theorem putBit_flagsNow (off i : Nat) (b : Bool) : (putBit s off i b).flagsNow = s.flagsNow := rfl
@[simp] theorem putBit_mem (off i : Nat) (b : Bool) : (putBit s off i b).mem = s.mem := rfl
@[simp] theorem putBit_written (off i : Nat) (b : Bool) : (putBit s off i b).written = s.written := rfl
@[simp] theorem putBit_poison (off i : Nat) (b : Bool) : (putBit s off i b).poison = s.poison := rfl
@[simp] theorem putBit_corePoison (off i : Nat) (b : Bool) : (putBit s off i b).corePoison = s.corePoison := rfl
@[simp] theorem putBit_hostMem (off i : Nat) (b : Bool) : (putBit s off i b).hostMem = s.hostMem := rfl
@[simp] theorem putBit_out (off i : Nat) (b : Bool) : (putBit s off i b).out = s.out := rfl
@[simp] theorem putBit_time (off i : Nat) (b : Bool) : (putBit s off i b).time = s.time := rfl
@[simp] theorem putBit_clock (off i : Nat) (b : Bool) : (putBit s off i b).clock = s.clock := rfl
@[simp] theorem putBit_cross (off i : Nat) (b : Bool) : (putBit s off i b).cross = s.cross := rfl
@[simp] theorem putBit_faults (off i : Nat) (b : Bool) : (putBit s off i b).faults = s.faults := rfl
@[simp] theorem putBit_cores (off i : Nat) (b : Bool) : (putBit s off i b).cores = s.cores := rfl
@[simp] theorem putBit_contexts (off i : Nat) (b : Bool) : (putBit s off i b).contexts = s.contexts := rfl
@[simp] theorem putBit_gens (off i : Nat) (b : Bool) : (putBit s off i b).gens = s.gens := rfl
@[simp] theorem putBit_startReqs (off i : Nat) (b : Bool) : (putBit s off i b).startReqs = s.startReqs := rfl
@[simp] theorem putBit_ended (off i : Nat) (b : Bool) : (putBit s off i b).ended = s.ended := rfl
@[simp] theorem putBit_parts (off i : Nat) (b : Bool) : (putBit s off i b).parts = s.parts := rfl
@[simp] theorem putBit_far (off i : Nat) (b : Bool) : (putBit s off i b).far = s.far := rfl
@[simp] theorem putBit_farPending (off i : Nat) (b : Bool) : (putBit s off i b).farPending = s.farPending := rfl
@[simp] theorem putBit_sites (off i : Nat) (b : Bool) : (putBit s off i b).sites = s.sites := rfl
@[simp] theorem putBit_links (off i : Nat) (b : Bool) : (putBit s off i b).links = s.links := rfl
@[simp] theorem putBit_fabric (off i : Nat) (b : Bool) : (putBit s off i b).fabric = s.fabric := rfl
@[simp] theorem putBit_qps (off i : Nat) (b : Bool) : (putBit s off i b).qps = s.qps := rfl
@[simp] theorem putBit_vfRanges (off i : Nat) (b : Bool) : (putBit s off i b).vfRanges = s.vfRanges := rfl
@[simp] theorem putBit_bme (off i : Nat) (b : Bool) : (putBit s off i b).bme = s.bme := rfl
@[simp] theorem putBit_d3hot (off i : Nat) (b : Bool) : (putBit s off i b).d3hot = s.d3hot := rfl
@[simp] theorem putBit_linkUp (off i : Nat) (b : Bool) : (putBit s off i b).linkUp = s.linkUp := rfl
@[simp] theorem putBit_vfsOn (off i : Nat) (b : Bool) : (putBit s off i b).vfsOn = s.vfsOn := rfl
@[simp] theorem putBit_dma (off i : Nat) (b : Bool) : (putBit s off i b).dma = s.dma := rfl
@[simp] theorem putBit_windows (off i : Nat) (b : Bool) : (putBit s off i b).windows = s.windows := rfl
@[simp] theorem putBit_mbReqs (off i : Nat) (b : Bool) : (putBit s off i b).mbReqs = s.mbReqs := rfl
@[simp] theorem putBit_taken (off i : Nat) (b : Bool) : (putBit s off i b).taken = s.taken := rfl
@[simp] theorem putBit_acts (off i : Nat) (b : Bool) : (putBit s off i b).acts = s.acts := rfl
@[simp] theorem putBit_nextAct (off i : Nat) (b : Bool) : (putBit s off i b).nextAct = s.nextAct := rfl
@[simp] theorem putBit_weir (off i : Nat) (b : Bool) : (putBit s off i b).weir = s.weir := rfl
@[simp] theorem putBit_record (off i : Nat) (b : Bool) : (putBit s off i b).record = s.record := rfl
@[simp] theorem putBit_island (off i : Nat) (b : Bool) : (putBit s off i b).island = s.island := rfl
@[simp] theorem putBit_power (off i : Nat) (b : Bool) : (putBit s off i b).power = s.power := rfl
@[simp] theorem putBit_house (off i : Nat) (b : Bool) : (putBit s off i b).house = s.house := rfl
@[simp] theorem putBit_springs (off i : Nat) (b : Bool) : (putBit s off i b).springs = s.springs := rfl
@[simp] theorem putBit_start (off i : Nat) (b : Bool) : (putBit s off i b).start = s.start := rfl
@[simp] theorem putBit_maint (off i : Nat) (b : Bool) : (putBit s off i b).maint = s.maint := rfl
@[simp] theorem putBit_flash (off i : Nat) (b : Bool) : (putBit s off i b).flash = s.flash := rfl
@[simp] theorem putBit_nextId (off i : Nat) (b : Bool) : (putBit s off i b).nextId = s.nextId := rfl
@[simp] theorem putBit_freeCount (off i : Nat) (b : Bool) : (putBit s off i b).freeCount = s.freeCount := rfl

@[simp] theorem addPair_pending (off n : Nat) : (addPair s off n).pending = s.pending := rfl
@[simp] theorem addPair_latches (off n : Nat) : (addPair s off n).latches = s.latches := rfl
@[simp] theorem addPair_firstWrite (off n : Nat) : (addPair s off n).firstWrite = s.firstWrite := rfl
@[simp] theorem addPair_upsets (off n : Nat) : (addPair s off n).upsets = s.upsets := rfl
@[simp] theorem addPair_flagsNow (off n : Nat) : (addPair s off n).flagsNow = s.flagsNow := rfl
@[simp] theorem addPair_mem (off n : Nat) : (addPair s off n).mem = s.mem := rfl
@[simp] theorem addPair_written (off n : Nat) : (addPair s off n).written = s.written := rfl
@[simp] theorem addPair_poison (off n : Nat) : (addPair s off n).poison = s.poison := rfl
@[simp] theorem addPair_corePoison (off n : Nat) : (addPair s off n).corePoison = s.corePoison := rfl
@[simp] theorem addPair_hostMem (off n : Nat) : (addPair s off n).hostMem = s.hostMem := rfl
@[simp] theorem addPair_out (off n : Nat) : (addPair s off n).out = s.out := rfl
@[simp] theorem addPair_time (off n : Nat) : (addPair s off n).time = s.time := rfl
@[simp] theorem addPair_clock (off n : Nat) : (addPair s off n).clock = s.clock := rfl
@[simp] theorem addPair_cross (off n : Nat) : (addPair s off n).cross = s.cross := rfl
@[simp] theorem addPair_faults (off n : Nat) : (addPair s off n).faults = s.faults := rfl
@[simp] theorem addPair_cores (off n : Nat) : (addPair s off n).cores = s.cores := rfl
@[simp] theorem addPair_contexts (off n : Nat) : (addPair s off n).contexts = s.contexts := rfl
@[simp] theorem addPair_gens (off n : Nat) : (addPair s off n).gens = s.gens := rfl
@[simp] theorem addPair_startReqs (off n : Nat) : (addPair s off n).startReqs = s.startReqs := rfl
@[simp] theorem addPair_ended (off n : Nat) : (addPair s off n).ended = s.ended := rfl
@[simp] theorem addPair_parts (off n : Nat) : (addPair s off n).parts = s.parts := rfl
@[simp] theorem addPair_far (off n : Nat) : (addPair s off n).far = s.far := rfl
@[simp] theorem addPair_farPending (off n : Nat) : (addPair s off n).farPending = s.farPending := rfl
@[simp] theorem addPair_sites (off n : Nat) : (addPair s off n).sites = s.sites := rfl
@[simp] theorem addPair_links (off n : Nat) : (addPair s off n).links = s.links := rfl
@[simp] theorem addPair_fabric (off n : Nat) : (addPair s off n).fabric = s.fabric := rfl
@[simp] theorem addPair_qps (off n : Nat) : (addPair s off n).qps = s.qps := rfl
@[simp] theorem addPair_vfRanges (off n : Nat) : (addPair s off n).vfRanges = s.vfRanges := rfl
@[simp] theorem addPair_bme (off n : Nat) : (addPair s off n).bme = s.bme := rfl
@[simp] theorem addPair_d3hot (off n : Nat) : (addPair s off n).d3hot = s.d3hot := rfl
@[simp] theorem addPair_linkUp (off n : Nat) : (addPair s off n).linkUp = s.linkUp := rfl
@[simp] theorem addPair_vfsOn (off n : Nat) : (addPair s off n).vfsOn = s.vfsOn := rfl
@[simp] theorem addPair_dma (off n : Nat) : (addPair s off n).dma = s.dma := rfl
@[simp] theorem addPair_windows (off n : Nat) : (addPair s off n).windows = s.windows := rfl
@[simp] theorem addPair_mbReqs (off n : Nat) : (addPair s off n).mbReqs = s.mbReqs := rfl
@[simp] theorem addPair_taken (off n : Nat) : (addPair s off n).taken = s.taken := rfl
@[simp] theorem addPair_acts (off n : Nat) : (addPair s off n).acts = s.acts := rfl
@[simp] theorem addPair_nextAct (off n : Nat) : (addPair s off n).nextAct = s.nextAct := rfl
@[simp] theorem addPair_weir (off n : Nat) : (addPair s off n).weir = s.weir := rfl
@[simp] theorem addPair_record (off n : Nat) : (addPair s off n).record = s.record := rfl
@[simp] theorem addPair_island (off n : Nat) : (addPair s off n).island = s.island := rfl
@[simp] theorem addPair_power (off n : Nat) : (addPair s off n).power = s.power := rfl
@[simp] theorem addPair_house (off n : Nat) : (addPair s off n).house = s.house := rfl
@[simp] theorem addPair_springs (off n : Nat) : (addPair s off n).springs = s.springs := rfl
@[simp] theorem addPair_start (off n : Nat) : (addPair s off n).start = s.start := rfl
@[simp] theorem addPair_maint (off n : Nat) : (addPair s off n).maint = s.maint := rfl
@[simp] theorem addPair_flash (off n : Nat) : (addPair s off n).flash = s.flash := rfl
@[simp] theorem addPair_nextId (off n : Nat) : (addPair s off n).nextId = s.nextId := rfl
@[simp] theorem addPair_freeCount (off n : Nat) : (addPair s off n).freeCount = s.freeCount := rfl

@[simp] theorem raiseFlag_pending (off i : Nat) : (raiseFlag s off i).pending = s.pending := rfl
@[simp] theorem raiseFlag_latches (off i : Nat) : (raiseFlag s off i).latches = s.latches := rfl
@[simp] theorem raiseFlag_firstWrite (off i : Nat) : (raiseFlag s off i).firstWrite = s.firstWrite := rfl
@[simp] theorem raiseFlag_upsets (off i : Nat) : (raiseFlag s off i).upsets = s.upsets := rfl
@[simp] theorem raiseFlag_mem (off i : Nat) : (raiseFlag s off i).mem = s.mem := rfl
@[simp] theorem raiseFlag_written (off i : Nat) : (raiseFlag s off i).written = s.written := rfl
@[simp] theorem raiseFlag_poison (off i : Nat) : (raiseFlag s off i).poison = s.poison := rfl
@[simp] theorem raiseFlag_corePoison (off i : Nat) : (raiseFlag s off i).corePoison = s.corePoison := rfl
@[simp] theorem raiseFlag_hostMem (off i : Nat) : (raiseFlag s off i).hostMem = s.hostMem := rfl
@[simp] theorem raiseFlag_out (off i : Nat) : (raiseFlag s off i).out = s.out := rfl
@[simp] theorem raiseFlag_time (off i : Nat) : (raiseFlag s off i).time = s.time := rfl
@[simp] theorem raiseFlag_clock (off i : Nat) : (raiseFlag s off i).clock = s.clock := rfl
@[simp] theorem raiseFlag_cross (off i : Nat) : (raiseFlag s off i).cross = s.cross := rfl
@[simp] theorem raiseFlag_faults (off i : Nat) : (raiseFlag s off i).faults = s.faults := rfl
@[simp] theorem raiseFlag_cores (off i : Nat) : (raiseFlag s off i).cores = s.cores := rfl
@[simp] theorem raiseFlag_contexts (off i : Nat) : (raiseFlag s off i).contexts = s.contexts := rfl
@[simp] theorem raiseFlag_gens (off i : Nat) : (raiseFlag s off i).gens = s.gens := rfl
@[simp] theorem raiseFlag_startReqs (off i : Nat) : (raiseFlag s off i).startReqs = s.startReqs := rfl
@[simp] theorem raiseFlag_ended (off i : Nat) : (raiseFlag s off i).ended = s.ended := rfl
@[simp] theorem raiseFlag_parts (off i : Nat) : (raiseFlag s off i).parts = s.parts := rfl
@[simp] theorem raiseFlag_far (off i : Nat) : (raiseFlag s off i).far = s.far := rfl
@[simp] theorem raiseFlag_farPending (off i : Nat) : (raiseFlag s off i).farPending = s.farPending := rfl
@[simp] theorem raiseFlag_sites (off i : Nat) : (raiseFlag s off i).sites = s.sites := rfl
@[simp] theorem raiseFlag_links (off i : Nat) : (raiseFlag s off i).links = s.links := rfl
@[simp] theorem raiseFlag_fabric (off i : Nat) : (raiseFlag s off i).fabric = s.fabric := rfl
@[simp] theorem raiseFlag_qps (off i : Nat) : (raiseFlag s off i).qps = s.qps := rfl
@[simp] theorem raiseFlag_vfRanges (off i : Nat) : (raiseFlag s off i).vfRanges = s.vfRanges := rfl
@[simp] theorem raiseFlag_bme (off i : Nat) : (raiseFlag s off i).bme = s.bme := rfl
@[simp] theorem raiseFlag_d3hot (off i : Nat) : (raiseFlag s off i).d3hot = s.d3hot := rfl
@[simp] theorem raiseFlag_linkUp (off i : Nat) : (raiseFlag s off i).linkUp = s.linkUp := rfl
@[simp] theorem raiseFlag_vfsOn (off i : Nat) : (raiseFlag s off i).vfsOn = s.vfsOn := rfl
@[simp] theorem raiseFlag_dma (off i : Nat) : (raiseFlag s off i).dma = s.dma := rfl
@[simp] theorem raiseFlag_windows (off i : Nat) : (raiseFlag s off i).windows = s.windows := rfl
@[simp] theorem raiseFlag_mbReqs (off i : Nat) : (raiseFlag s off i).mbReqs = s.mbReqs := rfl
@[simp] theorem raiseFlag_taken (off i : Nat) : (raiseFlag s off i).taken = s.taken := rfl
@[simp] theorem raiseFlag_acts (off i : Nat) : (raiseFlag s off i).acts = s.acts := rfl
@[simp] theorem raiseFlag_nextAct (off i : Nat) : (raiseFlag s off i).nextAct = s.nextAct := rfl
@[simp] theorem raiseFlag_weir (off i : Nat) : (raiseFlag s off i).weir = s.weir := rfl
@[simp] theorem raiseFlag_record (off i : Nat) : (raiseFlag s off i).record = s.record := rfl
@[simp] theorem raiseFlag_island (off i : Nat) : (raiseFlag s off i).island = s.island := rfl
@[simp] theorem raiseFlag_power (off i : Nat) : (raiseFlag s off i).power = s.power := rfl
@[simp] theorem raiseFlag_house (off i : Nat) : (raiseFlag s off i).house = s.house := rfl
@[simp] theorem raiseFlag_springs (off i : Nat) : (raiseFlag s off i).springs = s.springs := rfl
@[simp] theorem raiseFlag_start (off i : Nat) : (raiseFlag s off i).start = s.start := rfl
@[simp] theorem raiseFlag_maint (off i : Nat) : (raiseFlag s off i).maint = s.maint := rfl
@[simp] theorem raiseFlag_flash (off i : Nat) : (raiseFlag s off i).flash = s.flash := rfl
@[simp] theorem raiseFlag_nextId (off i : Nat) : (raiseFlag s off i).nextId = s.nextId := rfl
@[simp] theorem raiseFlag_freeCount (off i : Nat) : (raiseFlag s off i).freeCount = s.freeCount := rfl

@[simp] theorem modCore_pending (c : Nat) (f : CoreState → CoreState) : (modCore s c f).pending = s.pending := rfl
@[simp] theorem modCore_regs (c : Nat) (f : CoreState → CoreState) : (modCore s c f).regs = s.regs := rfl
@[simp] theorem modCore_latches (c : Nat) (f : CoreState → CoreState) : (modCore s c f).latches = s.latches := rfl
@[simp] theorem modCore_firstWrite (c : Nat) (f : CoreState → CoreState) : (modCore s c f).firstWrite = s.firstWrite := rfl
@[simp] theorem modCore_upsets (c : Nat) (f : CoreState → CoreState) : (modCore s c f).upsets = s.upsets := rfl
@[simp] theorem modCore_flagsNow (c : Nat) (f : CoreState → CoreState) : (modCore s c f).flagsNow = s.flagsNow := rfl
@[simp] theorem modCore_mem (c : Nat) (f : CoreState → CoreState) : (modCore s c f).mem = s.mem := rfl
@[simp] theorem modCore_written (c : Nat) (f : CoreState → CoreState) : (modCore s c f).written = s.written := rfl
@[simp] theorem modCore_poison (c : Nat) (f : CoreState → CoreState) : (modCore s c f).poison = s.poison := rfl
@[simp] theorem modCore_corePoison (c : Nat) (f : CoreState → CoreState) : (modCore s c f).corePoison = s.corePoison := rfl
@[simp] theorem modCore_hostMem (c : Nat) (f : CoreState → CoreState) : (modCore s c f).hostMem = s.hostMem := rfl
@[simp] theorem modCore_out (c : Nat) (f : CoreState → CoreState) : (modCore s c f).out = s.out := rfl
@[simp] theorem modCore_time (c : Nat) (f : CoreState → CoreState) : (modCore s c f).time = s.time := rfl
@[simp] theorem modCore_clock (c : Nat) (f : CoreState → CoreState) : (modCore s c f).clock = s.clock := rfl
@[simp] theorem modCore_cross (c : Nat) (f : CoreState → CoreState) : (modCore s c f).cross = s.cross := rfl
@[simp] theorem modCore_faults (c : Nat) (f : CoreState → CoreState) : (modCore s c f).faults = s.faults := rfl
@[simp] theorem modCore_contexts (c : Nat) (f : CoreState → CoreState) : (modCore s c f).contexts = s.contexts := rfl
@[simp] theorem modCore_gens (c : Nat) (f : CoreState → CoreState) : (modCore s c f).gens = s.gens := rfl
@[simp] theorem modCore_startReqs (c : Nat) (f : CoreState → CoreState) : (modCore s c f).startReqs = s.startReqs := rfl
@[simp] theorem modCore_ended (c : Nat) (f : CoreState → CoreState) : (modCore s c f).ended = s.ended := rfl
@[simp] theorem modCore_parts (c : Nat) (f : CoreState → CoreState) : (modCore s c f).parts = s.parts := rfl
@[simp] theorem modCore_far (c : Nat) (f : CoreState → CoreState) : (modCore s c f).far = s.far := rfl
@[simp] theorem modCore_farPending (c : Nat) (f : CoreState → CoreState) : (modCore s c f).farPending = s.farPending := rfl
@[simp] theorem modCore_sites (c : Nat) (f : CoreState → CoreState) : (modCore s c f).sites = s.sites := rfl
@[simp] theorem modCore_links (c : Nat) (f : CoreState → CoreState) : (modCore s c f).links = s.links := rfl
@[simp] theorem modCore_fabric (c : Nat) (f : CoreState → CoreState) : (modCore s c f).fabric = s.fabric := rfl
@[simp] theorem modCore_qps (c : Nat) (f : CoreState → CoreState) : (modCore s c f).qps = s.qps := rfl
@[simp] theorem modCore_vfRanges (c : Nat) (f : CoreState → CoreState) : (modCore s c f).vfRanges = s.vfRanges := rfl
@[simp] theorem modCore_bme (c : Nat) (f : CoreState → CoreState) : (modCore s c f).bme = s.bme := rfl
@[simp] theorem modCore_d3hot (c : Nat) (f : CoreState → CoreState) : (modCore s c f).d3hot = s.d3hot := rfl
@[simp] theorem modCore_linkUp (c : Nat) (f : CoreState → CoreState) : (modCore s c f).linkUp = s.linkUp := rfl
@[simp] theorem modCore_vfsOn (c : Nat) (f : CoreState → CoreState) : (modCore s c f).vfsOn = s.vfsOn := rfl
@[simp] theorem modCore_dma (c : Nat) (f : CoreState → CoreState) : (modCore s c f).dma = s.dma := rfl
@[simp] theorem modCore_windows (c : Nat) (f : CoreState → CoreState) : (modCore s c f).windows = s.windows := rfl
@[simp] theorem modCore_mbReqs (c : Nat) (f : CoreState → CoreState) : (modCore s c f).mbReqs = s.mbReqs := rfl
@[simp] theorem modCore_taken (c : Nat) (f : CoreState → CoreState) : (modCore s c f).taken = s.taken := rfl
@[simp] theorem modCore_acts (c : Nat) (f : CoreState → CoreState) : (modCore s c f).acts = s.acts := rfl
@[simp] theorem modCore_nextAct (c : Nat) (f : CoreState → CoreState) : (modCore s c f).nextAct = s.nextAct := rfl
@[simp] theorem modCore_weir (c : Nat) (f : CoreState → CoreState) : (modCore s c f).weir = s.weir := rfl
@[simp] theorem modCore_record (c : Nat) (f : CoreState → CoreState) : (modCore s c f).record = s.record := rfl
@[simp] theorem modCore_island (c : Nat) (f : CoreState → CoreState) : (modCore s c f).island = s.island := rfl
@[simp] theorem modCore_power (c : Nat) (f : CoreState → CoreState) : (modCore s c f).power = s.power := rfl
@[simp] theorem modCore_house (c : Nat) (f : CoreState → CoreState) : (modCore s c f).house = s.house := rfl
@[simp] theorem modCore_springs (c : Nat) (f : CoreState → CoreState) : (modCore s c f).springs = s.springs := rfl
@[simp] theorem modCore_start (c : Nat) (f : CoreState → CoreState) : (modCore s c f).start = s.start := rfl
@[simp] theorem modCore_maint (c : Nat) (f : CoreState → CoreState) : (modCore s c f).maint = s.maint := rfl
@[simp] theorem modCore_flash (c : Nat) (f : CoreState → CoreState) : (modCore s c f).flash = s.flash := rfl
@[simp] theorem modCore_nextId (c : Nat) (f : CoreState → CoreState) : (modCore s c f).nextId = s.nextId := rfl
@[simp] theorem modCore_freeCount (c : Nat) (f : CoreState → CoreState) : (modCore s c f).freeCount = s.freeCount := rfl

@[simp] theorem modSite_pending (i : Nat) (f : SiteState → SiteState) : (modSite s i f).pending = s.pending := rfl
@[simp] theorem modSite_regs (i : Nat) (f : SiteState → SiteState) : (modSite s i f).regs = s.regs := rfl
@[simp] theorem modSite_latches (i : Nat) (f : SiteState → SiteState) : (modSite s i f).latches = s.latches := rfl
@[simp] theorem modSite_firstWrite (i : Nat) (f : SiteState → SiteState) : (modSite s i f).firstWrite = s.firstWrite := rfl
@[simp] theorem modSite_upsets (i : Nat) (f : SiteState → SiteState) : (modSite s i f).upsets = s.upsets := rfl
@[simp] theorem modSite_flagsNow (i : Nat) (f : SiteState → SiteState) : (modSite s i f).flagsNow = s.flagsNow := rfl
@[simp] theorem modSite_mem (i : Nat) (f : SiteState → SiteState) : (modSite s i f).mem = s.mem := rfl
@[simp] theorem modSite_written (i : Nat) (f : SiteState → SiteState) : (modSite s i f).written = s.written := rfl
@[simp] theorem modSite_poison (i : Nat) (f : SiteState → SiteState) : (modSite s i f).poison = s.poison := rfl
@[simp] theorem modSite_corePoison (i : Nat) (f : SiteState → SiteState) : (modSite s i f).corePoison = s.corePoison := rfl
@[simp] theorem modSite_hostMem (i : Nat) (f : SiteState → SiteState) : (modSite s i f).hostMem = s.hostMem := rfl
@[simp] theorem modSite_out (i : Nat) (f : SiteState → SiteState) : (modSite s i f).out = s.out := rfl
@[simp] theorem modSite_time (i : Nat) (f : SiteState → SiteState) : (modSite s i f).time = s.time := rfl
@[simp] theorem modSite_clock (i : Nat) (f : SiteState → SiteState) : (modSite s i f).clock = s.clock := rfl
@[simp] theorem modSite_cross (i : Nat) (f : SiteState → SiteState) : (modSite s i f).cross = s.cross := rfl
@[simp] theorem modSite_faults (i : Nat) (f : SiteState → SiteState) : (modSite s i f).faults = s.faults := rfl
@[simp] theorem modSite_cores (i : Nat) (f : SiteState → SiteState) : (modSite s i f).cores = s.cores := rfl
@[simp] theorem modSite_contexts (i : Nat) (f : SiteState → SiteState) : (modSite s i f).contexts = s.contexts := rfl
@[simp] theorem modSite_gens (i : Nat) (f : SiteState → SiteState) : (modSite s i f).gens = s.gens := rfl
@[simp] theorem modSite_startReqs (i : Nat) (f : SiteState → SiteState) : (modSite s i f).startReqs = s.startReqs := rfl
@[simp] theorem modSite_ended (i : Nat) (f : SiteState → SiteState) : (modSite s i f).ended = s.ended := rfl
@[simp] theorem modSite_parts (i : Nat) (f : SiteState → SiteState) : (modSite s i f).parts = s.parts := rfl
@[simp] theorem modSite_far (i : Nat) (f : SiteState → SiteState) : (modSite s i f).far = s.far := rfl
@[simp] theorem modSite_farPending (i : Nat) (f : SiteState → SiteState) : (modSite s i f).farPending = s.farPending := rfl
@[simp] theorem modSite_links (i : Nat) (f : SiteState → SiteState) : (modSite s i f).links = s.links := rfl
@[simp] theorem modSite_fabric (i : Nat) (f : SiteState → SiteState) : (modSite s i f).fabric = s.fabric := rfl
@[simp] theorem modSite_qps (i : Nat) (f : SiteState → SiteState) : (modSite s i f).qps = s.qps := rfl
@[simp] theorem modSite_vfRanges (i : Nat) (f : SiteState → SiteState) : (modSite s i f).vfRanges = s.vfRanges := rfl
@[simp] theorem modSite_bme (i : Nat) (f : SiteState → SiteState) : (modSite s i f).bme = s.bme := rfl
@[simp] theorem modSite_d3hot (i : Nat) (f : SiteState → SiteState) : (modSite s i f).d3hot = s.d3hot := rfl
@[simp] theorem modSite_linkUp (i : Nat) (f : SiteState → SiteState) : (modSite s i f).linkUp = s.linkUp := rfl
@[simp] theorem modSite_vfsOn (i : Nat) (f : SiteState → SiteState) : (modSite s i f).vfsOn = s.vfsOn := rfl
@[simp] theorem modSite_dma (i : Nat) (f : SiteState → SiteState) : (modSite s i f).dma = s.dma := rfl
@[simp] theorem modSite_windows (i : Nat) (f : SiteState → SiteState) : (modSite s i f).windows = s.windows := rfl
@[simp] theorem modSite_mbReqs (i : Nat) (f : SiteState → SiteState) : (modSite s i f).mbReqs = s.mbReqs := rfl
@[simp] theorem modSite_taken (i : Nat) (f : SiteState → SiteState) : (modSite s i f).taken = s.taken := rfl
@[simp] theorem modSite_acts (i : Nat) (f : SiteState → SiteState) : (modSite s i f).acts = s.acts := rfl
@[simp] theorem modSite_nextAct (i : Nat) (f : SiteState → SiteState) : (modSite s i f).nextAct = s.nextAct := rfl
@[simp] theorem modSite_weir (i : Nat) (f : SiteState → SiteState) : (modSite s i f).weir = s.weir := rfl
@[simp] theorem modSite_record (i : Nat) (f : SiteState → SiteState) : (modSite s i f).record = s.record := rfl
@[simp] theorem modSite_island (i : Nat) (f : SiteState → SiteState) : (modSite s i f).island = s.island := rfl
@[simp] theorem modSite_power (i : Nat) (f : SiteState → SiteState) : (modSite s i f).power = s.power := rfl
@[simp] theorem modSite_house (i : Nat) (f : SiteState → SiteState) : (modSite s i f).house = s.house := rfl
@[simp] theorem modSite_springs (i : Nat) (f : SiteState → SiteState) : (modSite s i f).springs = s.springs := rfl
@[simp] theorem modSite_start (i : Nat) (f : SiteState → SiteState) : (modSite s i f).start = s.start := rfl
@[simp] theorem modSite_maint (i : Nat) (f : SiteState → SiteState) : (modSite s i f).maint = s.maint := rfl
@[simp] theorem modSite_flash (i : Nat) (f : SiteState → SiteState) : (modSite s i f).flash = s.flash := rfl
@[simp] theorem modSite_nextId (i : Nat) (f : SiteState → SiteState) : (modSite s i f).nextId = s.nextId := rfl
@[simp] theorem modSite_freeCount (i : Nat) (f : SiteState → SiteState) : (modSite s i f).freeCount = s.freeCount := rfl

@[simp] theorem modAbango_pending (i : Nat) (f : Abango → Abango) : (modAbango s i f).pending = s.pending := rfl
@[simp] theorem modAbango_regs (i : Nat) (f : Abango → Abango) : (modAbango s i f).regs = s.regs := rfl
@[simp] theorem modAbango_latches (i : Nat) (f : Abango → Abango) : (modAbango s i f).latches = s.latches := rfl
@[simp] theorem modAbango_firstWrite (i : Nat) (f : Abango → Abango) : (modAbango s i f).firstWrite = s.firstWrite := rfl
@[simp] theorem modAbango_upsets (i : Nat) (f : Abango → Abango) : (modAbango s i f).upsets = s.upsets := rfl
@[simp] theorem modAbango_flagsNow (i : Nat) (f : Abango → Abango) : (modAbango s i f).flagsNow = s.flagsNow := rfl
@[simp] theorem modAbango_mem (i : Nat) (f : Abango → Abango) : (modAbango s i f).mem = s.mem := rfl
@[simp] theorem modAbango_written (i : Nat) (f : Abango → Abango) : (modAbango s i f).written = s.written := rfl
@[simp] theorem modAbango_poison (i : Nat) (f : Abango → Abango) : (modAbango s i f).poison = s.poison := rfl
@[simp] theorem modAbango_corePoison (i : Nat) (f : Abango → Abango) : (modAbango s i f).corePoison = s.corePoison := rfl
@[simp] theorem modAbango_hostMem (i : Nat) (f : Abango → Abango) : (modAbango s i f).hostMem = s.hostMem := rfl
@[simp] theorem modAbango_out (i : Nat) (f : Abango → Abango) : (modAbango s i f).out = s.out := rfl
@[simp] theorem modAbango_time (i : Nat) (f : Abango → Abango) : (modAbango s i f).time = s.time := rfl
@[simp] theorem modAbango_clock (i : Nat) (f : Abango → Abango) : (modAbango s i f).clock = s.clock := rfl
@[simp] theorem modAbango_cross (i : Nat) (f : Abango → Abango) : (modAbango s i f).cross = s.cross := rfl
@[simp] theorem modAbango_faults (i : Nat) (f : Abango → Abango) : (modAbango s i f).faults = s.faults := rfl
@[simp] theorem modAbango_cores (i : Nat) (f : Abango → Abango) : (modAbango s i f).cores = s.cores := rfl
@[simp] theorem modAbango_contexts (i : Nat) (f : Abango → Abango) : (modAbango s i f).contexts = s.contexts := rfl
@[simp] theorem modAbango_gens (i : Nat) (f : Abango → Abango) : (modAbango s i f).gens = s.gens := rfl
@[simp] theorem modAbango_startReqs (i : Nat) (f : Abango → Abango) : (modAbango s i f).startReqs = s.startReqs := rfl
@[simp] theorem modAbango_ended (i : Nat) (f : Abango → Abango) : (modAbango s i f).ended = s.ended := rfl
@[simp] theorem modAbango_parts (i : Nat) (f : Abango → Abango) : (modAbango s i f).parts = s.parts := rfl
@[simp] theorem modAbango_far (i : Nat) (f : Abango → Abango) : (modAbango s i f).far = s.far := rfl
@[simp] theorem modAbango_farPending (i : Nat) (f : Abango → Abango) : (modAbango s i f).farPending = s.farPending := rfl
@[simp] theorem modAbango_links (i : Nat) (f : Abango → Abango) : (modAbango s i f).links = s.links := rfl
@[simp] theorem modAbango_fabric (i : Nat) (f : Abango → Abango) : (modAbango s i f).fabric = s.fabric := rfl
@[simp] theorem modAbango_qps (i : Nat) (f : Abango → Abango) : (modAbango s i f).qps = s.qps := rfl
@[simp] theorem modAbango_vfRanges (i : Nat) (f : Abango → Abango) : (modAbango s i f).vfRanges = s.vfRanges := rfl
@[simp] theorem modAbango_bme (i : Nat) (f : Abango → Abango) : (modAbango s i f).bme = s.bme := rfl
@[simp] theorem modAbango_d3hot (i : Nat) (f : Abango → Abango) : (modAbango s i f).d3hot = s.d3hot := rfl
@[simp] theorem modAbango_linkUp (i : Nat) (f : Abango → Abango) : (modAbango s i f).linkUp = s.linkUp := rfl
@[simp] theorem modAbango_vfsOn (i : Nat) (f : Abango → Abango) : (modAbango s i f).vfsOn = s.vfsOn := rfl
@[simp] theorem modAbango_dma (i : Nat) (f : Abango → Abango) : (modAbango s i f).dma = s.dma := rfl
@[simp] theorem modAbango_windows (i : Nat) (f : Abango → Abango) : (modAbango s i f).windows = s.windows := rfl
@[simp] theorem modAbango_mbReqs (i : Nat) (f : Abango → Abango) : (modAbango s i f).mbReqs = s.mbReqs := rfl
@[simp] theorem modAbango_taken (i : Nat) (f : Abango → Abango) : (modAbango s i f).taken = s.taken := rfl
@[simp] theorem modAbango_acts (i : Nat) (f : Abango → Abango) : (modAbango s i f).acts = s.acts := rfl
@[simp] theorem modAbango_nextAct (i : Nat) (f : Abango → Abango) : (modAbango s i f).nextAct = s.nextAct := rfl
@[simp] theorem modAbango_weir (i : Nat) (f : Abango → Abango) : (modAbango s i f).weir = s.weir := rfl
@[simp] theorem modAbango_record (i : Nat) (f : Abango → Abango) : (modAbango s i f).record = s.record := rfl
@[simp] theorem modAbango_island (i : Nat) (f : Abango → Abango) : (modAbango s i f).island = s.island := rfl
@[simp] theorem modAbango_power (i : Nat) (f : Abango → Abango) : (modAbango s i f).power = s.power := rfl
@[simp] theorem modAbango_house (i : Nat) (f : Abango → Abango) : (modAbango s i f).house = s.house := rfl
@[simp] theorem modAbango_springs (i : Nat) (f : Abango → Abango) : (modAbango s i f).springs = s.springs := rfl
@[simp] theorem modAbango_start (i : Nat) (f : Abango → Abango) : (modAbango s i f).start = s.start := rfl
@[simp] theorem modAbango_maint (i : Nat) (f : Abango → Abango) : (modAbango s i f).maint = s.maint := rfl
@[simp] theorem modAbango_flash (i : Nat) (f : Abango → Abango) : (modAbango s i f).flash = s.flash := rfl
@[simp] theorem modAbango_nextId (i : Nat) (f : Abango → Abango) : (modAbango s i f).nextId = s.nextId := rfl
@[simp] theorem modAbango_freeCount (i : Nat) (f : Abango → Abango) : (modAbango s i f).freeCount = s.freeCount := rfl

@[simp] theorem modLink_pending (o : Nat) (f : LinkState → LinkState) : (modLink s o f).pending = s.pending := rfl
@[simp] theorem modLink_regs (o : Nat) (f : LinkState → LinkState) : (modLink s o f).regs = s.regs := rfl
@[simp] theorem modLink_latches (o : Nat) (f : LinkState → LinkState) : (modLink s o f).latches = s.latches := rfl
@[simp] theorem modLink_firstWrite (o : Nat) (f : LinkState → LinkState) : (modLink s o f).firstWrite = s.firstWrite := rfl
@[simp] theorem modLink_upsets (o : Nat) (f : LinkState → LinkState) : (modLink s o f).upsets = s.upsets := rfl
@[simp] theorem modLink_flagsNow (o : Nat) (f : LinkState → LinkState) : (modLink s o f).flagsNow = s.flagsNow := rfl
@[simp] theorem modLink_mem (o : Nat) (f : LinkState → LinkState) : (modLink s o f).mem = s.mem := rfl
@[simp] theorem modLink_written (o : Nat) (f : LinkState → LinkState) : (modLink s o f).written = s.written := rfl
@[simp] theorem modLink_poison (o : Nat) (f : LinkState → LinkState) : (modLink s o f).poison = s.poison := rfl
@[simp] theorem modLink_corePoison (o : Nat) (f : LinkState → LinkState) : (modLink s o f).corePoison = s.corePoison := rfl
@[simp] theorem modLink_hostMem (o : Nat) (f : LinkState → LinkState) : (modLink s o f).hostMem = s.hostMem := rfl
@[simp] theorem modLink_out (o : Nat) (f : LinkState → LinkState) : (modLink s o f).out = s.out := rfl
@[simp] theorem modLink_time (o : Nat) (f : LinkState → LinkState) : (modLink s o f).time = s.time := rfl
@[simp] theorem modLink_clock (o : Nat) (f : LinkState → LinkState) : (modLink s o f).clock = s.clock := rfl
@[simp] theorem modLink_cross (o : Nat) (f : LinkState → LinkState) : (modLink s o f).cross = s.cross := rfl
@[simp] theorem modLink_faults (o : Nat) (f : LinkState → LinkState) : (modLink s o f).faults = s.faults := rfl
@[simp] theorem modLink_cores (o : Nat) (f : LinkState → LinkState) : (modLink s o f).cores = s.cores := rfl
@[simp] theorem modLink_contexts (o : Nat) (f : LinkState → LinkState) : (modLink s o f).contexts = s.contexts := rfl
@[simp] theorem modLink_gens (o : Nat) (f : LinkState → LinkState) : (modLink s o f).gens = s.gens := rfl
@[simp] theorem modLink_startReqs (o : Nat) (f : LinkState → LinkState) : (modLink s o f).startReqs = s.startReqs := rfl
@[simp] theorem modLink_ended (o : Nat) (f : LinkState → LinkState) : (modLink s o f).ended = s.ended := rfl
@[simp] theorem modLink_parts (o : Nat) (f : LinkState → LinkState) : (modLink s o f).parts = s.parts := rfl
@[simp] theorem modLink_far (o : Nat) (f : LinkState → LinkState) : (modLink s o f).far = s.far := rfl
@[simp] theorem modLink_farPending (o : Nat) (f : LinkState → LinkState) : (modLink s o f).farPending = s.farPending := rfl
@[simp] theorem modLink_sites (o : Nat) (f : LinkState → LinkState) : (modLink s o f).sites = s.sites := rfl
@[simp] theorem modLink_fabric (o : Nat) (f : LinkState → LinkState) : (modLink s o f).fabric = s.fabric := rfl
@[simp] theorem modLink_qps (o : Nat) (f : LinkState → LinkState) : (modLink s o f).qps = s.qps := rfl
@[simp] theorem modLink_vfRanges (o : Nat) (f : LinkState → LinkState) : (modLink s o f).vfRanges = s.vfRanges := rfl
@[simp] theorem modLink_bme (o : Nat) (f : LinkState → LinkState) : (modLink s o f).bme = s.bme := rfl
@[simp] theorem modLink_d3hot (o : Nat) (f : LinkState → LinkState) : (modLink s o f).d3hot = s.d3hot := rfl
@[simp] theorem modLink_linkUp (o : Nat) (f : LinkState → LinkState) : (modLink s o f).linkUp = s.linkUp := rfl
@[simp] theorem modLink_vfsOn (o : Nat) (f : LinkState → LinkState) : (modLink s o f).vfsOn = s.vfsOn := rfl
@[simp] theorem modLink_dma (o : Nat) (f : LinkState → LinkState) : (modLink s o f).dma = s.dma := rfl
@[simp] theorem modLink_windows (o : Nat) (f : LinkState → LinkState) : (modLink s o f).windows = s.windows := rfl
@[simp] theorem modLink_mbReqs (o : Nat) (f : LinkState → LinkState) : (modLink s o f).mbReqs = s.mbReqs := rfl
@[simp] theorem modLink_taken (o : Nat) (f : LinkState → LinkState) : (modLink s o f).taken = s.taken := rfl
@[simp] theorem modLink_acts (o : Nat) (f : LinkState → LinkState) : (modLink s o f).acts = s.acts := rfl
@[simp] theorem modLink_nextAct (o : Nat) (f : LinkState → LinkState) : (modLink s o f).nextAct = s.nextAct := rfl
@[simp] theorem modLink_weir (o : Nat) (f : LinkState → LinkState) : (modLink s o f).weir = s.weir := rfl
@[simp] theorem modLink_record (o : Nat) (f : LinkState → LinkState) : (modLink s o f).record = s.record := rfl
@[simp] theorem modLink_island (o : Nat) (f : LinkState → LinkState) : (modLink s o f).island = s.island := rfl
@[simp] theorem modLink_power (o : Nat) (f : LinkState → LinkState) : (modLink s o f).power = s.power := rfl
@[simp] theorem modLink_house (o : Nat) (f : LinkState → LinkState) : (modLink s o f).house = s.house := rfl
@[simp] theorem modLink_springs (o : Nat) (f : LinkState → LinkState) : (modLink s o f).springs = s.springs := rfl
@[simp] theorem modLink_start (o : Nat) (f : LinkState → LinkState) : (modLink s o f).start = s.start := rfl
@[simp] theorem modLink_maint (o : Nat) (f : LinkState → LinkState) : (modLink s o f).maint = s.maint := rfl
@[simp] theorem modLink_flash (o : Nat) (f : LinkState → LinkState) : (modLink s o f).flash = s.flash := rfl
@[simp] theorem modLink_nextId (o : Nat) (f : LinkState → LinkState) : (modLink s o f).nextId = s.nextId := rfl
@[simp] theorem modLink_freeCount (o : Nat) (f : LinkState → LinkState) : (modLink s o f).freeCount = s.freeCount := rfl

@[simp] theorem modQp_pending (q : Nat) (f : QpState → QpState) : (modQp s q f).pending = s.pending := rfl
@[simp] theorem modQp_regs (q : Nat) (f : QpState → QpState) : (modQp s q f).regs = s.regs := rfl
@[simp] theorem modQp_latches (q : Nat) (f : QpState → QpState) : (modQp s q f).latches = s.latches := rfl
@[simp] theorem modQp_firstWrite (q : Nat) (f : QpState → QpState) : (modQp s q f).firstWrite = s.firstWrite := rfl
@[simp] theorem modQp_upsets (q : Nat) (f : QpState → QpState) : (modQp s q f).upsets = s.upsets := rfl
@[simp] theorem modQp_flagsNow (q : Nat) (f : QpState → QpState) : (modQp s q f).flagsNow = s.flagsNow := rfl
@[simp] theorem modQp_mem (q : Nat) (f : QpState → QpState) : (modQp s q f).mem = s.mem := rfl
@[simp] theorem modQp_written (q : Nat) (f : QpState → QpState) : (modQp s q f).written = s.written := rfl
@[simp] theorem modQp_poison (q : Nat) (f : QpState → QpState) : (modQp s q f).poison = s.poison := rfl
@[simp] theorem modQp_corePoison (q : Nat) (f : QpState → QpState) : (modQp s q f).corePoison = s.corePoison := rfl
@[simp] theorem modQp_hostMem (q : Nat) (f : QpState → QpState) : (modQp s q f).hostMem = s.hostMem := rfl
@[simp] theorem modQp_out (q : Nat) (f : QpState → QpState) : (modQp s q f).out = s.out := rfl
@[simp] theorem modQp_time (q : Nat) (f : QpState → QpState) : (modQp s q f).time = s.time := rfl
@[simp] theorem modQp_clock (q : Nat) (f : QpState → QpState) : (modQp s q f).clock = s.clock := rfl
@[simp] theorem modQp_cross (q : Nat) (f : QpState → QpState) : (modQp s q f).cross = s.cross := rfl
@[simp] theorem modQp_faults (q : Nat) (f : QpState → QpState) : (modQp s q f).faults = s.faults := rfl
@[simp] theorem modQp_cores (q : Nat) (f : QpState → QpState) : (modQp s q f).cores = s.cores := rfl
@[simp] theorem modQp_contexts (q : Nat) (f : QpState → QpState) : (modQp s q f).contexts = s.contexts := rfl
@[simp] theorem modQp_gens (q : Nat) (f : QpState → QpState) : (modQp s q f).gens = s.gens := rfl
@[simp] theorem modQp_startReqs (q : Nat) (f : QpState → QpState) : (modQp s q f).startReqs = s.startReqs := rfl
@[simp] theorem modQp_ended (q : Nat) (f : QpState → QpState) : (modQp s q f).ended = s.ended := rfl
@[simp] theorem modQp_parts (q : Nat) (f : QpState → QpState) : (modQp s q f).parts = s.parts := rfl
@[simp] theorem modQp_far (q : Nat) (f : QpState → QpState) : (modQp s q f).far = s.far := rfl
@[simp] theorem modQp_farPending (q : Nat) (f : QpState → QpState) : (modQp s q f).farPending = s.farPending := rfl
@[simp] theorem modQp_sites (q : Nat) (f : QpState → QpState) : (modQp s q f).sites = s.sites := rfl
@[simp] theorem modQp_links (q : Nat) (f : QpState → QpState) : (modQp s q f).links = s.links := rfl
@[simp] theorem modQp_fabric (q : Nat) (f : QpState → QpState) : (modQp s q f).fabric = s.fabric := rfl
@[simp] theorem modQp_vfRanges (q : Nat) (f : QpState → QpState) : (modQp s q f).vfRanges = s.vfRanges := rfl
@[simp] theorem modQp_bme (q : Nat) (f : QpState → QpState) : (modQp s q f).bme = s.bme := rfl
@[simp] theorem modQp_d3hot (q : Nat) (f : QpState → QpState) : (modQp s q f).d3hot = s.d3hot := rfl
@[simp] theorem modQp_linkUp (q : Nat) (f : QpState → QpState) : (modQp s q f).linkUp = s.linkUp := rfl
@[simp] theorem modQp_vfsOn (q : Nat) (f : QpState → QpState) : (modQp s q f).vfsOn = s.vfsOn := rfl
@[simp] theorem modQp_dma (q : Nat) (f : QpState → QpState) : (modQp s q f).dma = s.dma := rfl
@[simp] theorem modQp_windows (q : Nat) (f : QpState → QpState) : (modQp s q f).windows = s.windows := rfl
@[simp] theorem modQp_mbReqs (q : Nat) (f : QpState → QpState) : (modQp s q f).mbReqs = s.mbReqs := rfl
@[simp] theorem modQp_taken (q : Nat) (f : QpState → QpState) : (modQp s q f).taken = s.taken := rfl
@[simp] theorem modQp_acts (q : Nat) (f : QpState → QpState) : (modQp s q f).acts = s.acts := rfl
@[simp] theorem modQp_nextAct (q : Nat) (f : QpState → QpState) : (modQp s q f).nextAct = s.nextAct := rfl
@[simp] theorem modQp_weir (q : Nat) (f : QpState → QpState) : (modQp s q f).weir = s.weir := rfl
@[simp] theorem modQp_record (q : Nat) (f : QpState → QpState) : (modQp s q f).record = s.record := rfl
@[simp] theorem modQp_island (q : Nat) (f : QpState → QpState) : (modQp s q f).island = s.island := rfl
@[simp] theorem modQp_power (q : Nat) (f : QpState → QpState) : (modQp s q f).power = s.power := rfl
@[simp] theorem modQp_house (q : Nat) (f : QpState → QpState) : (modQp s q f).house = s.house := rfl
@[simp] theorem modQp_springs (q : Nat) (f : QpState → QpState) : (modQp s q f).springs = s.springs := rfl
@[simp] theorem modQp_start (q : Nat) (f : QpState → QpState) : (modQp s q f).start = s.start := rfl
@[simp] theorem modQp_maint (q : Nat) (f : QpState → QpState) : (modQp s q f).maint = s.maint := rfl
@[simp] theorem modQp_flash (q : Nat) (f : QpState → QpState) : (modQp s q f).flash = s.flash := rfl
@[simp] theorem modQp_nextId (q : Nat) (f : QpState → QpState) : (modQp s q f).nextId = s.nextId := rfl
@[simp] theorem modQp_freeCount (q : Nat) (f : QpState → QpState) : (modQp s q f).freeCount = s.freeCount := rfl

@[simp] theorem modWin_pending (w : Nat) (f : MbWindow → MbWindow) : (modWin s w f).pending = s.pending := rfl
@[simp] theorem modWin_regs (w : Nat) (f : MbWindow → MbWindow) : (modWin s w f).regs = s.regs := rfl
@[simp] theorem modWin_latches (w : Nat) (f : MbWindow → MbWindow) : (modWin s w f).latches = s.latches := rfl
@[simp] theorem modWin_firstWrite (w : Nat) (f : MbWindow → MbWindow) : (modWin s w f).firstWrite = s.firstWrite := rfl
@[simp] theorem modWin_upsets (w : Nat) (f : MbWindow → MbWindow) : (modWin s w f).upsets = s.upsets := rfl
@[simp] theorem modWin_flagsNow (w : Nat) (f : MbWindow → MbWindow) : (modWin s w f).flagsNow = s.flagsNow := rfl
@[simp] theorem modWin_mem (w : Nat) (f : MbWindow → MbWindow) : (modWin s w f).mem = s.mem := rfl
@[simp] theorem modWin_written (w : Nat) (f : MbWindow → MbWindow) : (modWin s w f).written = s.written := rfl
@[simp] theorem modWin_poison (w : Nat) (f : MbWindow → MbWindow) : (modWin s w f).poison = s.poison := rfl
@[simp] theorem modWin_corePoison (w : Nat) (f : MbWindow → MbWindow) : (modWin s w f).corePoison = s.corePoison := rfl
@[simp] theorem modWin_hostMem (w : Nat) (f : MbWindow → MbWindow) : (modWin s w f).hostMem = s.hostMem := rfl
@[simp] theorem modWin_out (w : Nat) (f : MbWindow → MbWindow) : (modWin s w f).out = s.out := rfl
@[simp] theorem modWin_time (w : Nat) (f : MbWindow → MbWindow) : (modWin s w f).time = s.time := rfl
@[simp] theorem modWin_clock (w : Nat) (f : MbWindow → MbWindow) : (modWin s w f).clock = s.clock := rfl
@[simp] theorem modWin_cross (w : Nat) (f : MbWindow → MbWindow) : (modWin s w f).cross = s.cross := rfl
@[simp] theorem modWin_faults (w : Nat) (f : MbWindow → MbWindow) : (modWin s w f).faults = s.faults := rfl
@[simp] theorem modWin_cores (w : Nat) (f : MbWindow → MbWindow) : (modWin s w f).cores = s.cores := rfl
@[simp] theorem modWin_contexts (w : Nat) (f : MbWindow → MbWindow) : (modWin s w f).contexts = s.contexts := rfl
@[simp] theorem modWin_gens (w : Nat) (f : MbWindow → MbWindow) : (modWin s w f).gens = s.gens := rfl
@[simp] theorem modWin_startReqs (w : Nat) (f : MbWindow → MbWindow) : (modWin s w f).startReqs = s.startReqs := rfl
@[simp] theorem modWin_ended (w : Nat) (f : MbWindow → MbWindow) : (modWin s w f).ended = s.ended := rfl
@[simp] theorem modWin_parts (w : Nat) (f : MbWindow → MbWindow) : (modWin s w f).parts = s.parts := rfl
@[simp] theorem modWin_far (w : Nat) (f : MbWindow → MbWindow) : (modWin s w f).far = s.far := rfl
@[simp] theorem modWin_farPending (w : Nat) (f : MbWindow → MbWindow) : (modWin s w f).farPending = s.farPending := rfl
@[simp] theorem modWin_sites (w : Nat) (f : MbWindow → MbWindow) : (modWin s w f).sites = s.sites := rfl
@[simp] theorem modWin_links (w : Nat) (f : MbWindow → MbWindow) : (modWin s w f).links = s.links := rfl
@[simp] theorem modWin_fabric (w : Nat) (f : MbWindow → MbWindow) : (modWin s w f).fabric = s.fabric := rfl
@[simp] theorem modWin_qps (w : Nat) (f : MbWindow → MbWindow) : (modWin s w f).qps = s.qps := rfl
@[simp] theorem modWin_vfRanges (w : Nat) (f : MbWindow → MbWindow) : (modWin s w f).vfRanges = s.vfRanges := rfl
@[simp] theorem modWin_bme (w : Nat) (f : MbWindow → MbWindow) : (modWin s w f).bme = s.bme := rfl
@[simp] theorem modWin_d3hot (w : Nat) (f : MbWindow → MbWindow) : (modWin s w f).d3hot = s.d3hot := rfl
@[simp] theorem modWin_linkUp (w : Nat) (f : MbWindow → MbWindow) : (modWin s w f).linkUp = s.linkUp := rfl
@[simp] theorem modWin_vfsOn (w : Nat) (f : MbWindow → MbWindow) : (modWin s w f).vfsOn = s.vfsOn := rfl
@[simp] theorem modWin_dma (w : Nat) (f : MbWindow → MbWindow) : (modWin s w f).dma = s.dma := rfl
@[simp] theorem modWin_mbReqs (w : Nat) (f : MbWindow → MbWindow) : (modWin s w f).mbReqs = s.mbReqs := rfl
@[simp] theorem modWin_taken (w : Nat) (f : MbWindow → MbWindow) : (modWin s w f).taken = s.taken := rfl
@[simp] theorem modWin_acts (w : Nat) (f : MbWindow → MbWindow) : (modWin s w f).acts = s.acts := rfl
@[simp] theorem modWin_nextAct (w : Nat) (f : MbWindow → MbWindow) : (modWin s w f).nextAct = s.nextAct := rfl
@[simp] theorem modWin_weir (w : Nat) (f : MbWindow → MbWindow) : (modWin s w f).weir = s.weir := rfl
@[simp] theorem modWin_record (w : Nat) (f : MbWindow → MbWindow) : (modWin s w f).record = s.record := rfl
@[simp] theorem modWin_island (w : Nat) (f : MbWindow → MbWindow) : (modWin s w f).island = s.island := rfl
@[simp] theorem modWin_power (w : Nat) (f : MbWindow → MbWindow) : (modWin s w f).power = s.power := rfl
@[simp] theorem modWin_house (w : Nat) (f : MbWindow → MbWindow) : (modWin s w f).house = s.house := rfl
@[simp] theorem modWin_springs (w : Nat) (f : MbWindow → MbWindow) : (modWin s w f).springs = s.springs := rfl
@[simp] theorem modWin_start (w : Nat) (f : MbWindow → MbWindow) : (modWin s w f).start = s.start := rfl
@[simp] theorem modWin_maint (w : Nat) (f : MbWindow → MbWindow) : (modWin s w f).maint = s.maint := rfl
@[simp] theorem modWin_flash (w : Nat) (f : MbWindow → MbWindow) : (modWin s w f).flash = s.flash := rfl
@[simp] theorem modWin_nextId (w : Nat) (f : MbWindow → MbWindow) : (modWin s w f).nextId = s.nextId := rfl
@[simp] theorem modWin_freeCount (w : Nat) (f : MbWindow → MbWindow) : (modWin s w f).freeCount = s.freeCount := rfl

@[simp] theorem modPart_pending (p : Nat) (f : Partition → Partition) : (modPart s p f).pending = s.pending := rfl
@[simp] theorem modPart_regs (p : Nat) (f : Partition → Partition) : (modPart s p f).regs = s.regs := rfl
@[simp] theorem modPart_latches (p : Nat) (f : Partition → Partition) : (modPart s p f).latches = s.latches := rfl
@[simp] theorem modPart_firstWrite (p : Nat) (f : Partition → Partition) : (modPart s p f).firstWrite = s.firstWrite := rfl
@[simp] theorem modPart_upsets (p : Nat) (f : Partition → Partition) : (modPart s p f).upsets = s.upsets := rfl
@[simp] theorem modPart_flagsNow (p : Nat) (f : Partition → Partition) : (modPart s p f).flagsNow = s.flagsNow := rfl
@[simp] theorem modPart_mem (p : Nat) (f : Partition → Partition) : (modPart s p f).mem = s.mem := rfl
@[simp] theorem modPart_written (p : Nat) (f : Partition → Partition) : (modPart s p f).written = s.written := rfl
@[simp] theorem modPart_poison (p : Nat) (f : Partition → Partition) : (modPart s p f).poison = s.poison := rfl
@[simp] theorem modPart_corePoison (p : Nat) (f : Partition → Partition) : (modPart s p f).corePoison = s.corePoison := rfl
@[simp] theorem modPart_hostMem (p : Nat) (f : Partition → Partition) : (modPart s p f).hostMem = s.hostMem := rfl
@[simp] theorem modPart_out (p : Nat) (f : Partition → Partition) : (modPart s p f).out = s.out := rfl
@[simp] theorem modPart_time (p : Nat) (f : Partition → Partition) : (modPart s p f).time = s.time := rfl
@[simp] theorem modPart_clock (p : Nat) (f : Partition → Partition) : (modPart s p f).clock = s.clock := rfl
@[simp] theorem modPart_cross (p : Nat) (f : Partition → Partition) : (modPart s p f).cross = s.cross := rfl
@[simp] theorem modPart_faults (p : Nat) (f : Partition → Partition) : (modPart s p f).faults = s.faults := rfl
@[simp] theorem modPart_cores (p : Nat) (f : Partition → Partition) : (modPart s p f).cores = s.cores := rfl
@[simp] theorem modPart_contexts (p : Nat) (f : Partition → Partition) : (modPart s p f).contexts = s.contexts := rfl
@[simp] theorem modPart_gens (p : Nat) (f : Partition → Partition) : (modPart s p f).gens = s.gens := rfl
@[simp] theorem modPart_startReqs (p : Nat) (f : Partition → Partition) : (modPart s p f).startReqs = s.startReqs := rfl
@[simp] theorem modPart_ended (p : Nat) (f : Partition → Partition) : (modPart s p f).ended = s.ended := rfl
@[simp] theorem modPart_far (p : Nat) (f : Partition → Partition) : (modPart s p f).far = s.far := rfl
@[simp] theorem modPart_farPending (p : Nat) (f : Partition → Partition) : (modPart s p f).farPending = s.farPending := rfl
@[simp] theorem modPart_sites (p : Nat) (f : Partition → Partition) : (modPart s p f).sites = s.sites := rfl
@[simp] theorem modPart_links (p : Nat) (f : Partition → Partition) : (modPart s p f).links = s.links := rfl
@[simp] theorem modPart_fabric (p : Nat) (f : Partition → Partition) : (modPart s p f).fabric = s.fabric := rfl
@[simp] theorem modPart_qps (p : Nat) (f : Partition → Partition) : (modPart s p f).qps = s.qps := rfl
@[simp] theorem modPart_vfRanges (p : Nat) (f : Partition → Partition) : (modPart s p f).vfRanges = s.vfRanges := rfl
@[simp] theorem modPart_bme (p : Nat) (f : Partition → Partition) : (modPart s p f).bme = s.bme := rfl
@[simp] theorem modPart_d3hot (p : Nat) (f : Partition → Partition) : (modPart s p f).d3hot = s.d3hot := rfl
@[simp] theorem modPart_linkUp (p : Nat) (f : Partition → Partition) : (modPart s p f).linkUp = s.linkUp := rfl
@[simp] theorem modPart_vfsOn (p : Nat) (f : Partition → Partition) : (modPart s p f).vfsOn = s.vfsOn := rfl
@[simp] theorem modPart_dma (p : Nat) (f : Partition → Partition) : (modPart s p f).dma = s.dma := rfl
@[simp] theorem modPart_windows (p : Nat) (f : Partition → Partition) : (modPart s p f).windows = s.windows := rfl
@[simp] theorem modPart_mbReqs (p : Nat) (f : Partition → Partition) : (modPart s p f).mbReqs = s.mbReqs := rfl
@[simp] theorem modPart_taken (p : Nat) (f : Partition → Partition) : (modPart s p f).taken = s.taken := rfl
@[simp] theorem modPart_acts (p : Nat) (f : Partition → Partition) : (modPart s p f).acts = s.acts := rfl
@[simp] theorem modPart_nextAct (p : Nat) (f : Partition → Partition) : (modPart s p f).nextAct = s.nextAct := rfl
@[simp] theorem modPart_weir (p : Nat) (f : Partition → Partition) : (modPart s p f).weir = s.weir := rfl
@[simp] theorem modPart_record (p : Nat) (f : Partition → Partition) : (modPart s p f).record = s.record := rfl
@[simp] theorem modPart_island (p : Nat) (f : Partition → Partition) : (modPart s p f).island = s.island := rfl
@[simp] theorem modPart_power (p : Nat) (f : Partition → Partition) : (modPart s p f).power = s.power := rfl
@[simp] theorem modPart_house (p : Nat) (f : Partition → Partition) : (modPart s p f).house = s.house := rfl
@[simp] theorem modPart_springs (p : Nat) (f : Partition → Partition) : (modPart s p f).springs = s.springs := rfl
@[simp] theorem modPart_start (p : Nat) (f : Partition → Partition) : (modPart s p f).start = s.start := rfl
@[simp] theorem modPart_maint (p : Nat) (f : Partition → Partition) : (modPart s p f).maint = s.maint := rfl
@[simp] theorem modPart_flash (p : Nat) (f : Partition → Partition) : (modPart s p f).flash = s.flash := rfl
@[simp] theorem modPart_nextId (p : Nat) (f : Partition → Partition) : (modPart s p f).nextId = s.nextId := rfl
@[simp] theorem modPart_freeCount (p : Nat) (f : Partition → Partition) : (modPart s p f).freeCount = s.freeCount := rfl

@[simp] theorem modCtx_pending (h : Nat) (f : Context → Context) : (modCtx s h f).pending = s.pending := rfl
@[simp] theorem modCtx_regs (h : Nat) (f : Context → Context) : (modCtx s h f).regs = s.regs := rfl
@[simp] theorem modCtx_latches (h : Nat) (f : Context → Context) : (modCtx s h f).latches = s.latches := rfl
@[simp] theorem modCtx_firstWrite (h : Nat) (f : Context → Context) : (modCtx s h f).firstWrite = s.firstWrite := rfl
@[simp] theorem modCtx_upsets (h : Nat) (f : Context → Context) : (modCtx s h f).upsets = s.upsets := rfl
@[simp] theorem modCtx_flagsNow (h : Nat) (f : Context → Context) : (modCtx s h f).flagsNow = s.flagsNow := rfl
@[simp] theorem modCtx_mem (h : Nat) (f : Context → Context) : (modCtx s h f).mem = s.mem := rfl
@[simp] theorem modCtx_written (h : Nat) (f : Context → Context) : (modCtx s h f).written = s.written := rfl
@[simp] theorem modCtx_poison (h : Nat) (f : Context → Context) : (modCtx s h f).poison = s.poison := rfl
@[simp] theorem modCtx_corePoison (h : Nat) (f : Context → Context) : (modCtx s h f).corePoison = s.corePoison := rfl
@[simp] theorem modCtx_hostMem (h : Nat) (f : Context → Context) : (modCtx s h f).hostMem = s.hostMem := rfl
@[simp] theorem modCtx_out (h : Nat) (f : Context → Context) : (modCtx s h f).out = s.out := rfl
@[simp] theorem modCtx_time (h : Nat) (f : Context → Context) : (modCtx s h f).time = s.time := rfl
@[simp] theorem modCtx_clock (h : Nat) (f : Context → Context) : (modCtx s h f).clock = s.clock := rfl
@[simp] theorem modCtx_cross (h : Nat) (f : Context → Context) : (modCtx s h f).cross = s.cross := rfl
@[simp] theorem modCtx_faults (h : Nat) (f : Context → Context) : (modCtx s h f).faults = s.faults := rfl
@[simp] theorem modCtx_cores (h : Nat) (f : Context → Context) : (modCtx s h f).cores = s.cores := rfl
@[simp] theorem modCtx_gens (h : Nat) (f : Context → Context) : (modCtx s h f).gens = s.gens := rfl
@[simp] theorem modCtx_startReqs (h : Nat) (f : Context → Context) : (modCtx s h f).startReqs = s.startReqs := rfl
@[simp] theorem modCtx_ended (h : Nat) (f : Context → Context) : (modCtx s h f).ended = s.ended := rfl
@[simp] theorem modCtx_parts (h : Nat) (f : Context → Context) : (modCtx s h f).parts = s.parts := rfl
@[simp] theorem modCtx_far (h : Nat) (f : Context → Context) : (modCtx s h f).far = s.far := rfl
@[simp] theorem modCtx_farPending (h : Nat) (f : Context → Context) : (modCtx s h f).farPending = s.farPending := rfl
@[simp] theorem modCtx_sites (h : Nat) (f : Context → Context) : (modCtx s h f).sites = s.sites := rfl
@[simp] theorem modCtx_links (h : Nat) (f : Context → Context) : (modCtx s h f).links = s.links := rfl
@[simp] theorem modCtx_fabric (h : Nat) (f : Context → Context) : (modCtx s h f).fabric = s.fabric := rfl
@[simp] theorem modCtx_qps (h : Nat) (f : Context → Context) : (modCtx s h f).qps = s.qps := rfl
@[simp] theorem modCtx_vfRanges (h : Nat) (f : Context → Context) : (modCtx s h f).vfRanges = s.vfRanges := rfl
@[simp] theorem modCtx_bme (h : Nat) (f : Context → Context) : (modCtx s h f).bme = s.bme := rfl
@[simp] theorem modCtx_d3hot (h : Nat) (f : Context → Context) : (modCtx s h f).d3hot = s.d3hot := rfl
@[simp] theorem modCtx_linkUp (h : Nat) (f : Context → Context) : (modCtx s h f).linkUp = s.linkUp := rfl
@[simp] theorem modCtx_vfsOn (h : Nat) (f : Context → Context) : (modCtx s h f).vfsOn = s.vfsOn := rfl
@[simp] theorem modCtx_dma (h : Nat) (f : Context → Context) : (modCtx s h f).dma = s.dma := rfl
@[simp] theorem modCtx_windows (h : Nat) (f : Context → Context) : (modCtx s h f).windows = s.windows := rfl
@[simp] theorem modCtx_mbReqs (h : Nat) (f : Context → Context) : (modCtx s h f).mbReqs = s.mbReqs := rfl
@[simp] theorem modCtx_taken (h : Nat) (f : Context → Context) : (modCtx s h f).taken = s.taken := rfl
@[simp] theorem modCtx_acts (h : Nat) (f : Context → Context) : (modCtx s h f).acts = s.acts := rfl
@[simp] theorem modCtx_nextAct (h : Nat) (f : Context → Context) : (modCtx s h f).nextAct = s.nextAct := rfl
@[simp] theorem modCtx_weir (h : Nat) (f : Context → Context) : (modCtx s h f).weir = s.weir := rfl
@[simp] theorem modCtx_record (h : Nat) (f : Context → Context) : (modCtx s h f).record = s.record := rfl
@[simp] theorem modCtx_island (h : Nat) (f : Context → Context) : (modCtx s h f).island = s.island := rfl
@[simp] theorem modCtx_power (h : Nat) (f : Context → Context) : (modCtx s h f).power = s.power := rfl
@[simp] theorem modCtx_house (h : Nat) (f : Context → Context) : (modCtx s h f).house = s.house := rfl
@[simp] theorem modCtx_springs (h : Nat) (f : Context → Context) : (modCtx s h f).springs = s.springs := rfl
@[simp] theorem modCtx_start (h : Nat) (f : Context → Context) : (modCtx s h f).start = s.start := rfl
@[simp] theorem modCtx_maint (h : Nat) (f : Context → Context) : (modCtx s h f).maint = s.maint := rfl
@[simp] theorem modCtx_flash (h : Nat) (f : Context → Context) : (modCtx s h f).flash = s.flash := rfl
@[simp] theorem modCtx_nextId (h : Nat) (f : Context → Context) : (modCtx s h f).nextId = s.nextId := rfl
@[simp] theorem modCtx_freeCount (h : Nat) (f : Context → Context) : (modCtx s h f).freeCount = s.freeCount := rfl

@[simp] theorem raise_pending (cls code unit part d0 d1 src : Nat) : (raise s cls code unit part d0 d1 src).pending = s.pending := rfl
@[simp] theorem raise_regs (cls code unit part d0 d1 src : Nat) : (raise s cls code unit part d0 d1 src).regs = s.regs := rfl
@[simp] theorem raise_latches (cls code unit part d0 d1 src : Nat) : (raise s cls code unit part d0 d1 src).latches = s.latches := rfl
@[simp] theorem raise_firstWrite (cls code unit part d0 d1 src : Nat) : (raise s cls code unit part d0 d1 src).firstWrite = s.firstWrite := rfl
@[simp] theorem raise_upsets (cls code unit part d0 d1 src : Nat) : (raise s cls code unit part d0 d1 src).upsets = s.upsets := rfl
@[simp] theorem raise_flagsNow (cls code unit part d0 d1 src : Nat) : (raise s cls code unit part d0 d1 src).flagsNow = s.flagsNow := rfl
@[simp] theorem raise_mem (cls code unit part d0 d1 src : Nat) : (raise s cls code unit part d0 d1 src).mem = s.mem := rfl
@[simp] theorem raise_written (cls code unit part d0 d1 src : Nat) : (raise s cls code unit part d0 d1 src).written = s.written := rfl
@[simp] theorem raise_poison (cls code unit part d0 d1 src : Nat) : (raise s cls code unit part d0 d1 src).poison = s.poison := rfl
@[simp] theorem raise_corePoison (cls code unit part d0 d1 src : Nat) : (raise s cls code unit part d0 d1 src).corePoison = s.corePoison := rfl
@[simp] theorem raise_hostMem (cls code unit part d0 d1 src : Nat) : (raise s cls code unit part d0 d1 src).hostMem = s.hostMem := rfl
@[simp] theorem raise_out (cls code unit part d0 d1 src : Nat) : (raise s cls code unit part d0 d1 src).out = s.out := rfl
@[simp] theorem raise_time (cls code unit part d0 d1 src : Nat) : (raise s cls code unit part d0 d1 src).time = s.time := rfl
@[simp] theorem raise_clock (cls code unit part d0 d1 src : Nat) : (raise s cls code unit part d0 d1 src).clock = s.clock := rfl
@[simp] theorem raise_cross (cls code unit part d0 d1 src : Nat) : (raise s cls code unit part d0 d1 src).cross = s.cross := rfl
@[simp] theorem raise_cores (cls code unit part d0 d1 src : Nat) : (raise s cls code unit part d0 d1 src).cores = s.cores := rfl
@[simp] theorem raise_contexts (cls code unit part d0 d1 src : Nat) : (raise s cls code unit part d0 d1 src).contexts = s.contexts := rfl
@[simp] theorem raise_gens (cls code unit part d0 d1 src : Nat) : (raise s cls code unit part d0 d1 src).gens = s.gens := rfl
@[simp] theorem raise_startReqs (cls code unit part d0 d1 src : Nat) : (raise s cls code unit part d0 d1 src).startReqs = s.startReqs := rfl
@[simp] theorem raise_ended (cls code unit part d0 d1 src : Nat) : (raise s cls code unit part d0 d1 src).ended = s.ended := rfl
@[simp] theorem raise_parts (cls code unit part d0 d1 src : Nat) : (raise s cls code unit part d0 d1 src).parts = s.parts := rfl
@[simp] theorem raise_far (cls code unit part d0 d1 src : Nat) : (raise s cls code unit part d0 d1 src).far = s.far := rfl
@[simp] theorem raise_farPending (cls code unit part d0 d1 src : Nat) : (raise s cls code unit part d0 d1 src).farPending = s.farPending := rfl
@[simp] theorem raise_sites (cls code unit part d0 d1 src : Nat) : (raise s cls code unit part d0 d1 src).sites = s.sites := rfl
@[simp] theorem raise_links (cls code unit part d0 d1 src : Nat) : (raise s cls code unit part d0 d1 src).links = s.links := rfl
@[simp] theorem raise_fabric (cls code unit part d0 d1 src : Nat) : (raise s cls code unit part d0 d1 src).fabric = s.fabric := rfl
@[simp] theorem raise_qps (cls code unit part d0 d1 src : Nat) : (raise s cls code unit part d0 d1 src).qps = s.qps := rfl
@[simp] theorem raise_vfRanges (cls code unit part d0 d1 src : Nat) : (raise s cls code unit part d0 d1 src).vfRanges = s.vfRanges := rfl
@[simp] theorem raise_bme (cls code unit part d0 d1 src : Nat) : (raise s cls code unit part d0 d1 src).bme = s.bme := rfl
@[simp] theorem raise_d3hot (cls code unit part d0 d1 src : Nat) : (raise s cls code unit part d0 d1 src).d3hot = s.d3hot := rfl
@[simp] theorem raise_linkUp (cls code unit part d0 d1 src : Nat) : (raise s cls code unit part d0 d1 src).linkUp = s.linkUp := rfl
@[simp] theorem raise_vfsOn (cls code unit part d0 d1 src : Nat) : (raise s cls code unit part d0 d1 src).vfsOn = s.vfsOn := rfl
@[simp] theorem raise_dma (cls code unit part d0 d1 src : Nat) : (raise s cls code unit part d0 d1 src).dma = s.dma := rfl
@[simp] theorem raise_windows (cls code unit part d0 d1 src : Nat) : (raise s cls code unit part d0 d1 src).windows = s.windows := rfl
@[simp] theorem raise_mbReqs (cls code unit part d0 d1 src : Nat) : (raise s cls code unit part d0 d1 src).mbReqs = s.mbReqs := rfl
@[simp] theorem raise_taken (cls code unit part d0 d1 src : Nat) : (raise s cls code unit part d0 d1 src).taken = s.taken := rfl
@[simp] theorem raise_acts (cls code unit part d0 d1 src : Nat) : (raise s cls code unit part d0 d1 src).acts = s.acts := rfl
@[simp] theorem raise_nextAct (cls code unit part d0 d1 src : Nat) : (raise s cls code unit part d0 d1 src).nextAct = s.nextAct := rfl
@[simp] theorem raise_weir (cls code unit part d0 d1 src : Nat) : (raise s cls code unit part d0 d1 src).weir = s.weir := rfl
@[simp] theorem raise_record (cls code unit part d0 d1 src : Nat) : (raise s cls code unit part d0 d1 src).record = s.record := rfl
@[simp] theorem raise_island (cls code unit part d0 d1 src : Nat) : (raise s cls code unit part d0 d1 src).island = s.island := rfl
@[simp] theorem raise_power (cls code unit part d0 d1 src : Nat) : (raise s cls code unit part d0 d1 src).power = s.power := rfl
@[simp] theorem raise_house (cls code unit part d0 d1 src : Nat) : (raise s cls code unit part d0 d1 src).house = s.house := rfl
@[simp] theorem raise_springs (cls code unit part d0 d1 src : Nat) : (raise s cls code unit part d0 d1 src).springs = s.springs := rfl
@[simp] theorem raise_start (cls code unit part d0 d1 src : Nat) : (raise s cls code unit part d0 d1 src).start = s.start := rfl
@[simp] theorem raise_maint (cls code unit part d0 d1 src : Nat) : (raise s cls code unit part d0 d1 src).maint = s.maint := rfl
@[simp] theorem raise_flash (cls code unit part d0 d1 src : Nat) : (raise s cls code unit part d0 d1 src).flash = s.flash := rfl
@[simp] theorem raise_nextId (cls code unit part d0 d1 src : Nat) : (raise s cls code unit part d0 d1 src).nextId = s.nextId := rfl
@[simp] theorem raise_freeCount (cls code unit part d0 d1 src : Nat) : (raise s cls code unit part d0 d1 src).freeCount = s.freeCount := rfl

end Sys2Proof.Machine
end

