-- ==== Sys2Proof/Laws/Memory.lean ====
section
/-! SUPPORT. What a write to the memory tiers does to the byte at each address, and to the poison of each line. -/

namespace Sys2Proof.Machine

/-! ### Pages -/

theorem paged_iff (a : Nat) :
    paged a = true ↔ a < farBase ∨ (0x400_0000_0000 ≤ a ∧ a < 0x402_0000_0000) := by
  have hf : farBase = 1099511627776 := rfl
  unfold paged zoneOf
  by_cases h1 : a < farBase
  · rw [if_pos h1]; exact ⟨fun _ => Or.inl h1, fun _ => rfl⟩
  · rw [if_neg h1]
    by_cases h2 : a < 0x400_0000_0000
    · rw [if_pos h2]; exact ⟨fun h => (nomatch h), fun h => by exfalso; omega⟩
    · rw [if_neg h2]
      by_cases h3 : a < 0x402_0000_0000
      · rw [if_pos h3]; exact ⟨fun _ => Or.inr ⟨by omega, h3⟩, fun _ => rfl⟩
      · rw [if_neg h3]
        by_cases h4 : a < 0x402_8000_0000
        · rw [if_pos h4]; exact ⟨fun h => (nomatch h), fun h => by exfalso; omega⟩
        · rw [if_neg h4]; exact ⟨fun h => (nomatch h), fun h => by exfalso; omega⟩

/-- The addresses of one page are all paged, or none is. -/
theorem paged_page {a b : Nat} (h : a / 4096 = b / 4096) : paged a = paged b := by
  have hf : farBase = 0x100_0000_0000 := rfl
  have key : paged a = true ↔ paged b = true := by
    rw [paged_iff, paged_iff]; omega
  cases ha : paged a <;> cases hb : paged b <;> simp_all

theorem pageWritten_page (s : State) {a b : Nat} (h : a / 4096 = b / 4096) : pageWritten s a = pageWritten s b := by
  unfold pageWritten; rw [h, paged_page h]

/-! ### Poison leaves bytes alone -/

/-- A repair report changes no poison. -/
theorem rowReport_poison (s : State) (a : Nat) : (rowReport s a).poison = s.poison ∧ (rowReport s a).corePoison = s.corePoison := by
  unfold rowReport; split <;> exact ⟨rfl, rfl⟩

theorem setPoison_mem (s : State) (a : Nat) (b : Bool) : (setPoison s a b).mem = s.mem :=
  ((setPoison_only (m := parts [.regs, .poison, .corePoison, .faults]) (s0 := s) a b .refl ⟨by rfl⟩).out .mem rfl).symm

theorem setPoison_written (s : State) (a : Nat) (b : Bool) : (setPoison s a b).written = s.written :=
  ((setPoison_only (m := parts [.regs, .poison, .corePoison, .faults]) (s0 := s) a b .refl ⟨by rfl⟩).out .written rfl).symm

theorem byteAt_of {s t : State} (hm : t.mem = s.mem) (hw : t.written = s.written) (b : Nat) : byteAt t b = byteAt s b := by
  unfold byteAt pageWritten; rw [hm, hw]

theorem loadBytes_of {s t : State} (hm : t.mem = s.mem) (hw : t.written = s.written) (a n : Nat) :
    loadBytes t a n = loadBytes s a n := by
  unfold loadBytes; congr 1; funext i; exact byteAt_of hm hw _

theorem poisonedAt_of {s t : State} (hp : t.poison = s.poison) (hc : t.corePoison = s.corePoison) (hw : t.written = s.written)
    (a : Nat) : poisonedAt t a = poisonedAt s a := by
  unfold poisonedAt pageWritten; rw [hp, hc, hw]

theorem poisonUnits_of {s t : State} (hp : t.poison = s.poison) (hc : t.corePoison = s.corePoison)
    (hw : t.written = s.written) (a n : Nat) : poisonUnits t a n = poisonUnits s a n := by
  unfold poisonUnits; congr 2; funext i; exact poisonedAt_of hp hc hw _

theorem byteAt_setPoison (s : State) (a b : Nat) (p : Bool) : byteAt (setPoison s a p) b = byteAt s b :=
  byteAt_of (setPoison_mem s a p) (setPoison_written s a p) b

theorem pageWritten_setPoison (s : State) (a b : Nat) (p : Bool) : pageWritten (setPoison s a p) b = pageWritten s b := by
  unfold pageWritten; rw [setPoison_written]

theorem foldPoison_mem (p : Bool) (l : List Nat) (f : Nat → Nat) (s : State) :
    (l.foldl (fun s i => setPoison s (f i) p) s).mem = s.mem ∧
      (l.foldl (fun s i => setPoison s (f i) p) s).written = s.written := by
  induction l generalizing s with
  | nil => exact ⟨rfl, rfl⟩
  | cons i l ih => rw [List.foldl_cons, (ih _).1, (ih _).2]; exact ⟨setPoison_mem _ _ _, setPoison_written _ _ _⟩

/-! ### Opening a page -/

/-- Opening a page changes no byte that a reader sees (R245). -/
theorem byteAt_openPage (s : State) (a b : Nat) : byteAt (openPage s a) b = byteAt s b := by
  unfold openPage
  split
  · rfl
  · rename_i h
    have hp : paged a = true ∧ tget false s.written (a / 4096) = false := by
      unfold pageWritten at h; cases h1 : paged a <;> simp_all
    dsimp only
    rw [byteAt_of (foldPoison_mem false _ _ _).1 (foldPoison_mem false _ _ _).2]
    unfold byteAt pageWritten
    dsimp only
    rw [readByte_zeroRange, tget_tput]
    by_cases e : b / 4096 = a / 4096
    · have hb := paged_page e
      rw [hp.1] at hb
      rw [if_pos e, hb]
      have q : 4096 * (a / 4096) ≤ b ∧ b < 4096 * (a / 4096) + 4096 := by rw [← e]; omega
      rw [if_pos q, e, hp.2]; rfl
    · have q : ¬ (4096 * (a / 4096) ≤ b ∧ b < 4096 * (a / 4096) + 4096) := by
        intro ⟨q1, q2⟩; apply e; omega
      rw [if_neg e, if_neg q]

theorem pageWritten_openPage (s : State) (a b : Nat) (h : b / 4096 = a / 4096) : pageWritten (openPage s a) b = true := by
  rw [pageWritten_page _ h]
  unfold openPage
  split
  · assumption
  · dsimp only
    unfold pageWritten
    rw [(foldPoison_mem false _ _ _).2]
    dsimp only
    rw [tget_tput_self]; simp

/-! ### One piece -/

theorem lineSize_cases (a : Nat) : lineSize a = 32 ∨ lineSize a = 64 := by
  unfold lineSize; split
  · exact Or.inl rfl
  · exact Or.inr rfl

theorem byteAt_writeBytes (s : State) (a b : Nat) (bs : List Byte) (h : pageWritten s b = true ∨ ¬ (a ≤ b ∧ b < a + bs.length)) :
    byteAt { s with mem := writeBytes s.mem a bs } b =
      if a ≤ b ∧ b < a + bs.length then bs.getD (b - a) 0 else byteAt s b := by
  unfold byteAt
  show (if pageWritten s b = true then readByte (writeBytes s.mem a bs) b else 0) = _
  rw [readByte_writeBytes]
  by_cases e : a ≤ b ∧ b < a + bs.length
  · rw [if_pos e, if_pos e, if_pos (h.resolve_right fun q => q e)]
  · rw [if_neg e, if_neg e]

/-- A piece that is applied writes its bytes, and no other byte changes. -/
theorem byteAt_applyPiece (s : State) (a b : Nat) (bs : List Byte) (p : Bool) (h : bs.length ≤ lineSize a - a % lineSize a) :
    byteAt (applyPiece s a bs p).1 b =
      if (applyPiece s a bs p).2 = false ∧ a ≤ b ∧ b < a + bs.length then bs.getD (b - a) 0 else byteAt s b := by
  have hw : ∀ u : State, u = (if paged a then openPage s a else s) →
      (∀ b, byteAt u b = byteAt s b) ∧ (∀ b, a ≤ b ∧ b < a + bs.length → pageWritten u b = true) := by
    intro u hu
    subst hu
    by_cases hp : paged a = true
    · rw [if_pos hp]
      refine ⟨byteAt_openPage s a, fun b hb => pageWritten_openPage s a b ?_⟩
      rcases lineSize_cases a with e | e <;> rw [e] at h <;> omega
    · rw [if_neg hp]
      refine ⟨fun _ => rfl, fun b hb => ?_⟩
      have : b / 4096 = a / 4096 := by rcases lineSize_cases a with e | e <;> rw [e] at h <;> omega
      unfold pageWritten
      rw [paged_page this]; simp [hp]
  unfold applyPiece
  generalize hu : (if paged a = true then openPage s a else s) = u
  obtain ⟨h1, h2⟩ := hw u hu.symm
  dsimp only
  split
  · rw [if_neg (by simp), h1]
  · dsimp only
    have : ∀ v : State, v.mem = writeBytes u.mem a bs → v.written = u.written →
        byteAt v b = if false = false ∧ a ≤ b ∧ b < a + bs.length then bs.getD (b - a) 0 else byteAt s b := by
      intro v e1 e2
      rw [byteAt_of (s := { u with mem := writeBytes u.mem a bs }) e1 e2, byteAt_writeBytes _ _ _ _ (by
        by_cases e : a ≤ b ∧ b < a + bs.length
        · exact Or.inl (h2 b e)
        · exact Or.inr e), h1]
      simp
    split
    · exact this _ (setPoison_mem _ _ _) (setPoison_written _ _ _)
    · exact this _ rfl rfl

/-! ### Poison under a piece -/

theorem setPoison_poisonedAt (s : State) (a c : Nat) (p : Bool) (h : c / lineSize a ≠ a / lineSize a) :
    poisonedAt (setPoison s a p) c = poisonedAt s c := by
  have hw := fun b => pageWritten_setPoison s a b p
  unfold poisonedAt
  rw [hw]
  unfold setPoison lineSize at *
  cases hz : zoneOf a <;> simp only [hz] at h ⊢ <;> cases hc : zoneOf c <;> dsimp only
  all_goals first
    | rfl
    | rw [tget_tput_other _ _ _ _ _ h]
    | (split
       · first | rfl | (dsimp only; rw [tget_tput_other _ _ _ _ _ h])
       · split
         · show _ = _
           first
             | rw [(rowReport_poison _ _).1, putReg_poison, tget_tput_other _ _ _ _ _ h]
             | rw [(rowReport_poison _ _).2, putReg_corePoison]
         · show _ = _
           first | rw [putReg_poison, tget_tput_other _ _ _ _ _ h] | rw [putReg_corePoison])

theorem foldPoison_poisonedAt (s : State) (c : Nat) (l : List Nat) (f : Nat → Nat)
    (h : ∀ i ∈ l, c / lineSize (f i) ≠ f i / lineSize (f i)) :
    poisonedAt (l.foldl (fun s i => setPoison s (f i) false) s) c = poisonedAt s c := by
  induction l generalizing s with
  | nil => rfl
  | cons i l ih =>
    rw [List.foldl_cons, ih _ fun j hj => h j (List.mem_cons_of_mem _ hj)]
    exact setPoison_poisonedAt _ _ _ _ (h i List.mem_cons_self)

theorem lineSize_paged (a : Nat) (h : paged a = true) : lineSize a = 64 := by
  unfold paged lineSize at *; cases hz : zoneOf a <;> simp_all

theorem foldPoison_keeps (c : Nat) (l : List Nat) (f : Nat → Nat) (s : State) (h : tget false s.poison (c / 64) = false) :
    tget false (l.foldl (fun s i => setPoison s (f i) false) s).poison (c / 64) = false := by
  have one : ∀ (u : State) (a : Nat), tget false u.poison (c / 64) = false →
      tget false (setPoison u a false).poison (c / 64) = false := by
    intro u a hu
    have put : tget false (tput false u.poison (a / 64) false) (c / 64) = false := by
      rw [tget_tput]; split
      · rfl
      · exact hu
    unfold setPoison
    split
    · exact hu
    · dsimp only; split
      · exact put
      · rw [if_neg (by decide), putReg_poison]; exact put
    · dsimp only; split
      · exact put
      · rw [if_neg (by decide), putReg_poison]; exact put
    · exact hu
  induction l generalizing s with
  | nil => exact h
  | cons i l ih => rw [List.foldl_cons]; exact ih _ (one _ _ h)

theorem setPoison_clears (u : State) (d : Nat) (hz : paged d = true) :
    tget false (setPoison u d false).poison (d / 64) = false := by
  unfold paged at hz
  unfold setPoison
  cases hq : zoneOf d <;> rw [hq] at hz <;> dsimp only at hz ⊢
  all_goals first
    | exact Bool.noConfusion hz
    | (split
       · dsimp only; exact tget_tput_self false _ _ _
       · rw [if_neg Bool.false_ne_true, putReg_poison]; dsimp only; exact tget_tput_self false _ _ _)

/-- Poison reads as before on the lines that a page's opening does not reach, and as none on those it reaches. -/
theorem poisonedAt_openPage (s : State) (a c : Nat) : poisonedAt (openPage s a) c = poisonedAt s c := by
  by_cases hw : pageWritten s a = true
  · unfold openPage; rw [if_pos hw]
  have hp : paged a = true := by
    unfold pageWritten at hw; cases h1 : paged a <;> simp_all
  unfold openPage
  rw [if_neg hw]
  dsimp only
  by_cases e : c / 4096 = a / 4096
  · have hc := paged_page e
    rw [hp] at hc
    have old : poisonedAt s c = false := by
      have := pageWritten_page s e
      unfold poisonedAt; rw [this, (Bool.not_eq_true _).mp hw]
      unfold paged at hc
      cases hz : zoneOf c <;> simp_all
    rw [old]
    have k64 : c / 64 = (4096 * (a / 4096) + 64 * (c / 64 % 64)) / 64 := by omega
    have low : ∀ (l : List Nat) (u : State), c / 64 % 64 ∈ l ∨ tget false u.poison (c / 64) = false →
        tget false (l.foldl (fun s i => setPoison s (4096 * (a / 4096) + 64 * i) false) u).poison (c / 64) = false := by
      intro l
      induction l with
      | nil => intro u h; rcases h with h | h
               · cases h
               · exact h
      | cons i l ih =>
        intro u h
        rw [List.foldl_cons]
        by_cases hi : c / 64 % 64 = i
        · apply ih; right
          have k64' : c / 64 = (4096 * (a / 4096) + 64 * i) / 64 := by rw [← hi]; exact k64
          have hz : paged (4096 * (a / 4096) + 64 * i) = true := by
            rw [← hp]; apply paged_page; omega
          rw [k64']
          exact setPoison_clears _ _ hz
        · apply ih
          rcases h with h | h
          · left; rcases List.mem_cons.1 h with h | h
            · exact absurd h hi
            · exact h
          · right
            exact foldPoison_keeps c [i] (fun i => 4096 * (a / 4096) + 64 * i) u h
    generalize hr : List.range 64 = rs
    have lo := low rs { s with mem := zeroRange s.mem (4096 * (a / 4096)) 4096, written := tput false s.written (a / 4096) true }
      (Or.inl (by rw [← hr]; exact List.mem_range.2 (Nat.mod_lt _ (by decide))))
    unfold poisonedAt
    rw [lo, Bool.and_false]
    unfold paged at hc
    cases hz : zoneOf c <;> rw [hz] at hc <;> first | rfl | exact Bool.noConfusion hc
  · rw [foldPoison_poisonedAt]
    · unfold poisonedAt pageWritten
      dsimp only
      rw [tget_tput_other _ _ _ _ _ e]
    · intro i hi
      have hi := List.mem_range.1 hi
      have hz : paged (4096 * (a / 4096) + 64 * i) = true := by rw [← hp]; apply paged_page; omega
      rw [lineSize_paged _ hz]; omega

theorem poisonedAt_applyPiece (s : State) (a c : Nat) (bs : List Byte) (p : Bool) (h : c / lineSize a ≠ a / lineSize a) :
    poisonedAt (applyPiece s a bs p).1 c = poisonedAt s c := by
  have hu : poisonedAt (if paged a then openPage s a else s) c = poisonedAt s c := by
    split
    · exact poisonedAt_openPage s a c
    · rfl
  unfold applyPiece
  generalize (if paged a = true then openPage s a else s) = u at hu ⊢
  dsimp only
  split
  · exact hu
  · dsimp only; split
    · rw [setPoison_poisonedAt _ _ _ _ h, ← hu]; rfl
    · rw [← hu]; rfl

/-! ### A whole write -/

theorem lineSize_pos (a : Nat) : 0 < lineSize a := by rcases lineSize_cases a with e | e <;> omega

theorem pieces_outside (fuel : Nat) (s : State) (a off : Nat) (bs : List Byte) (pois : List Nat) (b : Nat)
    (h : ¬ (a ≤ b ∧ b < a + bs.length)) : byteAt (writePieces fuel s a off bs pois).1 b = byteAt s b := by
  induction fuel generalizing s a off bs with
  | zero => rfl
  | succ fuel ih =>
    unfold writePieces
    split
    · rfl
    · dsimp only
      have hn : minNat bs.length (lineSize a - a % lineSize a) ≤ bs.length ∧
          minNat bs.length (lineSize a - a % lineSize a) ≤ lineSize a - a % lineSize a := by
        unfold minNat; split <;> omega
      generalize minNat bs.length (lineSize a - a % lineSize a) = n at hn ⊢
      rw [ih, byteAt_applyPiece]
      · rw [if_neg]
        rintro ⟨_, q⟩
        rw [List.length_take] at q
        apply h; omega
      · rw [List.length_take]; omega
      · rw [List.length_drop]; omega

theorem pieces_inside (fuel : Nat) (s : State) (a off : Nat) (bs : List Byte) (pois : List Nat) (b : Nat)
    (hf : bs.length ≤ fuel) (hp : ∀ i, i < bs.length → poisonedAt s (a + i) = false)
    (h : a ≤ b ∧ b < a + bs.length) : byteAt (writePieces fuel s a off bs pois).1 b = bs.getD (b - a) 0 := by
  induction fuel generalizing s a off bs with
  | zero => omega
  | succ fuel ih =>
    unfold writePieces
    rw [if_neg (by cases bs with
      | nil => simp only [List.length_nil] at h; omega
      | cons x xs => simp)]
    dsimp only
    have hl := lineSize_pos a
    have hm := Nat.mod_lt a hl
    have hn : minNat bs.length (lineSize a - a % lineSize a) ≤ bs.length ∧
        minNat bs.length (lineSize a - a % lineSize a) ≤ lineSize a - a % lineSize a ∧
        (minNat bs.length (lineSize a - a % lineSize a) = bs.length ∨
          minNat bs.length (lineSize a - a % lineSize a) = lineSize a - a % lineSize a) ∧
        0 < minNat bs.length (lineSize a - a % lineSize a) := by
      unfold minNat; split <;> omega
    generalize minNat bs.length (lineSize a - a % lineSize a) = n at hn ⊢
    obtain ⟨h1, h2, h3, h4⟩ := hn
    have ok : ∀ p, (applyPiece s a (bs.take n) p).2 = false := by
      intro p
      have pa : poisonedAt (if paged a then openPage s a else s) a = false := by
        have := hp 0 (by omega)
        rw [Nat.add_zero] at this
        split
        · rw [poisonedAt_openPage]; exact this
        · exact this
      unfold applyPiece
      generalize (if paged a = true then openPage s a else s) = u at pa ⊢
      dsimp only
      rw [pa, Bool.and_false, if_neg (by decide)]
    by_cases hb : b < a + n
    · rw [pieces_outside _ _ _ _ _ _ _ (by omega), byteAt_applyPiece _ _ _ _ _ (by rw [List.length_take]; omega), if_pos ⟨ok _, by
        rw [List.length_take]; omega⟩]
      rw [List.getD_eq_getElem?_getD, List.getD_eq_getElem?_getD, List.getElem?_take_of_lt (by omega)]
    · rw [ih _ (a + n) _ (bs.drop n) (by rw [List.length_drop]; omega) ?_ (by rw [List.length_drop]; omega)]
      · rw [List.getD_eq_getElem?_getD, List.getD_eq_getElem?_getD, List.getElem?_drop]
        congr 2; omega
      · intro i hi
        rw [List.length_drop] at hi
        rw [poisonedAt_applyPiece]
        · have := hp (n + i) (by omega)
          rwa [← Nat.add_assoc] at this
        · have e3 : n = lineSize a - a % lineSize a := by rcases h3 with e | e
                                                          · omega
                                                          · exact e
          have : a / lineSize a + 1 ≤ (a + n + i) / lineSize a := by
            rw [Nat.le_div_iff_mul_le hl, Nat.add_mul, Nat.one_mul]
            have := Nat.div_add_mod a (lineSize a)
            rw [Nat.mul_comm] at this
            omega
          omega

/-- A write changes no byte outside its range. -/
theorem byteAt_writeMem_outside (s : State) (a : Nat) (bs : List Byte) (pois : List Nat) (b : Nat)
    (h : ¬ (a ≤ b ∧ b < a + bs.length)) : byteAt (writeMem s a bs pois).1 b = byteAt s b :=
  pieces_outside _ _ _ _ _ _ _ h

/-- A write to lines that are not poisoned writes each of its bytes. -/
theorem byteAt_writeMem_inside (s : State) (a : Nat) (bs : List Byte) (pois : List Nat) (b : Nat)
    (hp : ∀ i, i < bs.length → poisonedAt s (a + i) = false) (h : a ≤ b ∧ b < a + bs.length) :
    byteAt (writeMem s a bs pois).1 b = bs.getD (b - a) 0 :=
  pieces_inside _ _ _ _ _ _ _ (Nat.le_refl _) hp h

/-- What was written to lines that are not poisoned is read back. -/
theorem loadBytes_writeMem (s : State) (a : Nat) (bs : List Byte) (pois : List Nat)
    (hp : ∀ i, i < bs.length → poisonedAt s (a + i) = false) : loadBytes (writeMem s a bs pois).1 a bs.length = bs := by
  unfold loadBytes
  apply List.ext_getElem
  · simp
  · intro n h1 h2
    rw [List.getElem_map, List.getElem_range, byteAt_writeMem_inside _ _ _ _ _ hp (by omega), Nat.add_sub_cancel_left,
      List.getD_eq_getElem?_getD, List.getElem?_eq_getElem h2]; rfl

end Sys2Proof.Machine
end

