-- ==== Sys2Proof/Laws/Cores.lean ====
section
/-! SUPPORT. The running context of a core, and what a slot's operation does once its unit accepts it. -/

namespace Sys2Proof.Machine

/-! ### Contexts by handle -/

theorem handle_of_ctx {s : State} {h : Nat} {x : Context} (e : ctx? s h = some x) : x.handle = h := by
  have := List.find?_some e; simpa using this

/-- A change that keeps handles is found again under the same handle. -/
theorem ctx_modCtx (s : State) (h j : Nat) (f : Context → Context) (hf : ∀ x, (f x).handle = x.handle) :
    ctx? (modCtx s h f) j = if j = h then (ctx? s j).map f else ctx? s j := by
  unfold ctx? modCtx
  dsimp only
  induction s.contexts with
  | nil => simp
  | cons x xs ih =>
    rw [List.map_cons, List.find?_cons, List.find?_cons]
    have hh : (if (x.handle == h) = true then f x else x).handle = x.handle := by split <;> simp [hf]
    rw [hh]
    by_cases e : x.handle = j
    · subst e
      simp only [beq_self_eq_true]
      by_cases g : x.handle = h
      · simp [g]
      · simp [g]
    · have : (x.handle == j) = false := by simpa using e
      rw [this]; exact ih

theorem ctx_modCtx_self {s : State} {h : Nat} {x : Context} (f : Context → Context) (hf : ∀ x, (f x).handle = x.handle)
    (e : ctx? s h = some x) : ctx? (modCtx s h f) h = some (f x) := by
  rw [ctx_modCtx _ _ _ _ hf, if_pos rfl, e]; rfl

/-- A context's part on a core, after a change of that part that keeps its core. -/
theorem ctxCore_map (x : Context) (c d : Nat) (f : CtxCore → CtxCore) (hf : ∀ k, (f k).core = k.core) :
    ctxCore? { x with cores := x.cores.map fun k => if k.core == c then f k else k } d =
      if d = c then (ctxCore? x d).map f else ctxCore? x d := by
  unfold ctxCore?
  dsimp only
  induction x.cores with
  | nil => simp
  | cons k ks ih =>
    rw [List.map_cons, List.find?_cons, List.find?_cons]
    have hh : (if (k.core == c) = true then f k else k).core = k.core := by split <;> simp [hf]
    rw [hh]
    by_cases e : k.core = d
    · subst e
      simp only [beq_self_eq_true]
      by_cases g : k.core = c
      · simp [g]
      · simp [g]
    · have : (k.core == d) = false := by simpa using e
      rw [this]; exact ih

theorem core_of_ctxCore {x : Context} {c : Nat} {k : CtxCore} (e : ctxCore? x c = some k) : k.core = c := by
  have := List.find?_some e; simpa using this

/-! ### Operations of a slot (R87, R198) -/

/-- The operation that a unit accepts takes effect for the running context. -/
theorem runOp_eq {s : State} {c : Nat} {sl : Slot} {op : SlotOp} {ready : CoreState → Bool} {x : Context} {k : CtxCore}
    {y : CoreState} (f : Context → CtxCore → Nat → State → State) (hx : runCtx? s c = some x) (hk : ctxCore? x c = some k)
    (hr : ready (core s c) = true) (ht : takeOp (core s c) sl op = some y) :
    runOp s c sl op ready f = f x k (opNo y sl) (putCore s c y) := by
  unfold runOp; rw [hx]; dsimp only; rw [hk]; dsimp only; rw [hr, ht]; rfl

/-- A core that runs no context does nothing. -/
theorem runOp_idle {s : State} {c : Nat} {sl : Slot} {op : SlotOp} {ready : CoreState → Bool}
    (f : Context → CtxCore → Nat → State → State) (hx : runCtx? s c = none) : runOp s c sl op ready f = s := by
  unfold runOp; rw [hx]

/-- With no post waiting, applying posts leaves every core as it reads. -/
theorem runPosts_nil {s : State} {c : Nat} (h : (core s c).posts = []) : runPosts s c = s ∨ runPosts s c = putCore s c (core s c) := by
  unfold runPosts
  cases runCtx? s c with
  | none => exact Or.inl rfl
  | some x =>
    right; dsimp only; rw [h]; simp only [List.filter_nil, List.foldl_nil]
    congr 1; rw [← h]

theorem core_runPosts {s : State} {c : Nat} (h : (core s c).posts = []) (b : Nat) : core (runPosts s c) b = core s b := by
  rcases runPosts_nil h with e | e <;> rw [e]
  rw [core_putCore]; split
  · subst_vars; rfl
  · rfl

theorem core_modCore (s : State) (c : Nat) (f : CoreState → CoreState) (b : Nat) :
    core (modCore s c f) b = if b = c then f (core s c) else core s b := core_putCore s c _ b

/-- The unit's acceptance leaves the running context. -/
theorem popOp_running (y : CoreState) (sl : Slot) : (popOp y sl).running = y.running := by cases sl <;> rfl

theorem takeOp_running {y z : CoreState} {sl : Slot} {op : SlotOp} (h : takeOp y sl op = some z) : z.running = y.running := by
  unfold takeOp at h
  split at h
  · injection h with h; rw [← h]; exact popOp_running y sl
  · cases h

theorem runCtx_of {s t : State} (hc : t.contexts = s.contexts) {c : Nat} (hr : (core t c).running = (core s c).running) :
    runCtx? t c = runCtx? s c := by
  unfold runCtx?; rw [hr]; congr 1; funext h; exact ctxQ_of hc h

end Sys2Proof.Machine
end

