-- ==== Sys2Proof/Laws/FrameLinks.lean ====
section
/-! SUPPORT. Frame lemmas: queues, the dispatch engine, packets and links. -/

namespace Sys2Proof.Machine

variable {m : Nat} {s0 : State}

theorem raiseMb_only {s : State} (n : ℕ) (b : ℕ) (h : Only m s0 s) (hc : Sub 0x400000020 m) :
    Only m s0 (raiseMb s n b) := by
  unfold raiseMb
  repeat' first
    | with_reducible assumption
    | exact hc.mono rfl
    | intro _
    | lift_lets -underBinder
    | with_reducible apply modWin_only
    | with_reducible apply only_flagsNow


theorem evtWrite_only {s : State} (fn : ℕ) (ws : List ℕ) (h : Only m s0 s) (hc : Sub 0x400000c22 m) :
    Only m s0 (evtWrite s fn ws) := by
  unfold evtWrite
  repeat' first
    | with_reducible assumption
    | exact hc.mono rfl
    | intro _
    | lift_lets -underBinder
    | with_reducible (first | apply raiseMb_only | apply putWin_only | apply hostWrite_only | apply msix_only)
    | with_reducible apply onlySkip
    | split
    | (conv => arg 3; zeta)


theorem deliverEvent_only {s : State} (fn : ℕ) (ws : List ℕ) (h : Only m s0 s) (hc : Sub 0x400000c22 m) :
    Only m s0 (deliverEvent s fn ws) := by
  unfold deliverEvent
  repeat' first
    | with_reducible assumption
    | exact hc.mono rfl
    | intro _
    | lift_lets -underBinder
    | with_reducible (first | apply evtWrite_only | apply modWin_only)
    | with_reducible apply onlySkip
    | split
    | (conv => arg 3; zeta)


theorem event_only {s : State} (fn : ℕ) (type : ℕ) (part : ℕ) (words : List ℕ) (h : Only m s0 s) (hc : Sub 0x8400000c22 m) :
    Only m s0 (event s fn type part words) := by
  unfold event
  repeat' first
    | with_reducible assumption
    | exact hc.mono rfl
    | intro _
    | lift_lets -underBinder
    | with_reducible apply deliverEvent_only
    | with_reducible apply onlySkip
    | split
    | with_reducible apply only_weir


theorem writeOwed_only {s : State} (h : Only m s0 s) (hc : Sub 0x8400000c22 m) :
    Only m s0 (writeOwed s) := by
  unfold writeOwed
  repeat' first
    | with_reducible assumption
    | exact hc.mono rfl
    | intro t (ht : Only m s0 t)
    | intro _
    | lift_lets -underBinder
    | with_reducible apply deliverEvent_only
    | with_reducible apply onlyFold
    | with_reducible apply only_weir


theorem evtFlush_only {s : State} (fn : ℕ) (h : Only m s0 s) (hc : Sub 0x400000c22 m) :
    Only m s0 (evtFlush s fn) := by
  unfold evtFlush
  repeat' first
    | with_reducible assumption
    | exact hc.mono rfl
    | intro t (ht : Only m s0 t)
    | intro _
    | lift_lets -underBinder
    | with_reducible (first | apply evtWrite_only | apply modWin_only)
    | with_reducible apply onlyFold


theorem partEvent_only {s : State} (p : ℕ) (type : ℕ) (words : List ℕ) (h : Only m s0 s) (hc : Sub 0x8400000c22 m) :
    Only m s0 (partEvent s p type words) := by
  unfold partEvent
  repeat' first
    | with_reducible assumption
    | exact hc.mono rfl
    | with_reducible apply event_only


theorem poisonNotice_only {s : State} (h : Only m s0 s) (hc : Sub 0x8400008c22 m) :
    Only m s0 (poisonNotice s) := by
  unfold poisonNotice
  repeat' first
    | with_reducible assumption
    | exact hc.mono rfl
    | intro _
    | lift_lets -underBinder
    | with_reducible apply partEvent_only
    | with_reducible apply onlySkip
    | split
    | with_reducible apply only_faults
    | (conv => arg 3; zeta)


theorem qpErrorState_only {s : State} (n : ℕ) (h : Only m s0 s) (hc : Sub 0x8008022 m) :
    Only m s0 (qpErrorState s n) := by
  unfold qpErrorState
  repeat' first
    | with_reducible assumption
    | exact hc.mono rfl
    | intro _
    | lift_lets -underBinder
    | with_reducible (first | apply modQp_only | apply dbError_only | apply raiseFlag_only | apply raise_only)


theorem sqFetch_only (n : ℕ) (r : SqRead) {s : State} (h : Only m s0 s) (hc : Sub 0x8008022 m) :
    Only m s0 (sqFetch n r s) := by
  unfold sqFetch
  repeat' first
    | with_reducible assumption
    | exact hc.mono rfl
    | intro _
    | lift_lets -underBinder
    | with_reducible (first | apply putQp_only | apply dbError_only | apply qpErrorState_only)
    | with_reducible apply onlySkip
    | split
    | (conv => arg 3; zeta)


theorem dropHead_only {s : State} (n : ℕ) (h : Only m s0 s) (hc : Sub 0x8000000 m) :
    Only m s0 (dropHead s n) := by
  unfold dropHead
  repeat' first
    | with_reducible assumption
    | exact hc.mono rfl
    | intro _
    | lift_lets -underBinder
    | with_reducible (first | apply modQp_only | apply dbError_only)


theorem queueNop_only (n : ℕ) {s : State} (h : Only m s0 s) (hc : Sub 0x8100000 m) :
    Only m s0 (queueNop n s) := by
  unfold queueNop
  repeat' first
    | with_reducible assumption
    | exact hc.mono rfl
    | intro _
    | lift_lets -underBinder
    | with_reducible (first | apply complete_only | apply dropHead_only)
    | split
    | (conv => arg 3; zeta)


theorem dispatch_only (n : ℕ) {s : State} (h : Only m s0 s) (hc : Sub 0x8180000 m) :
    Only m s0 (dispatch n s) := by
  unfold dispatch
  repeat' first
    | with_reducible assumption
    | exact hc.mono rfl
    | intro _
    | lift_lets -underBinder
    | with_reducible (first | apply dropHead_only | apply complete_only)
    | with_reducible apply onlySkip
    | split
    | with_reducible apply only_startReqs
    | (conv => arg 3; zeta)


theorem copy_only (n : ℕ) {s : State} (h : Only m s0 s) (hc : Sub 0x1000208000002 m) :
    Only m s0 (copy n s) := by
  unfold copy
  repeat' first
    | with_reducible assumption
    | exact hc.mono rfl
    | intro _
    | lift_lets -underBinder
    | with_reducible (first | apply dropHead_only | apply dmaStat_only | apply putDma_only)
    | split
    | with_reducible apply only_nextId
    | (conv => arg 3; zeta)


theorem dmaRound_only {s : State} (toHost : Bool) (h : Only m s0 s) (hc : Sub 0x200000000 m) :
    Only m s0 (dmaRound s toHost) := by
  unfold dmaRound
  repeat' first
    | with_reducible assumption
    | exact hc.mono rfl
    | intro t (ht : Only m s0 t)
    | intro _
    | lift_lets -underBinder
    | with_reducible apply putDma_only
    | with_reducible (first | apply onlySkip | apply onlyFold)
    | split


theorem farBurst_only {s : State} (ch : ℕ) (r : CopyRec) (a : ℕ) (n : ℕ) (data : List Byte) (h : Only m s0 s)
  (hc : Sub 0x1000201118422 m) :
    Only m s0 (farBurst s ch r a n data) := by
  unfold farBurst
  repeat' first
    | with_reducible assumption
    | exact hc.mono rfl
    | intro t (ht : Only m s0 t)
    | intro _
    | lift_lets -underBinder
    | with_reducible (first | apply copy_only | apply modCopy_only | apply originate_only)
    | with_reducible (first | apply onlySkip | apply onlyFold)
    | split
    | (conv => arg 3; zeta)


theorem burstDevice_only {s : State} (ch : ℕ) (r : CopyRec) (n : ℕ) (host : List Byte) (ecc : EccList) (h : Only m s0 s)
  (hc : Sub 0x2012087c2 m) :
    Only m s0 (burstDevice s ch r n host ecc) := by
  unfold burstDevice
  repeat' first
    | with_reducible assumption
    | exact hc.mono rfl
    | intro _
    | lift_lets -underBinder
    | with_reducible (first | apply noteRead_only | apply decodeRange_only | apply hostWrite_only | apply modCopy_only | apply writeMem_only | apply holdWrite_only | apply copy_only)
    | with_reducible apply onlySkip
    | split
    | (conv => arg 3; zeta)


theorem moveBurst_only {s : State} (ch : ℕ) (r : CopyRec) (host : List Byte) (ecc : EccList) (h : Only m s0 s)
  (hc : Sub 0x10002013187e2 m) :
    Only m s0 (moveBurst s ch r host ecc) := by
  unfold moveBurst
  repeat' first
    | with_reducible assumption
    | exact hc.mono rfl
    | intro _
    | lift_lets -underBinder
    | with_reducible (first | apply modCopy_only | apply farBurst_only | apply burstDevice_only | apply addPairSat_only)
    | with_reducible apply onlySkip
    | split


theorem dmaBurstComplete_only (ch : ℕ) (host : List Byte) (ecc : EccList) {s : State} (h : Only m s0 s)
  (hc : Sub 0x10002013187e2 m) :
    Only m s0 (dmaBurstComplete ch host ecc s) := by
  unfold dmaBurstComplete
  repeat' first
    | with_reducible assumption
    | exact hc.mono rfl
    | intro _
    | lift_lets -underBinder
    | with_reducible (first | apply dmaRound_only | apply putDma_only | apply modCopy_only | apply copyProgress_only | apply moveBurst_only)
    | with_reducible apply onlySkip
    | split
    | (conv => arg 3; zeta)


theorem haltNotice_only {s : State} (ch : ℕ) (h : Only m s0 s) (hc : Sub 0x8400000c22 m) :
    Only m s0 (haltNotice s ch) := by
  unfold haltNotice
  repeat' first
    | with_reducible assumption
    | exact hc.mono rfl
    | with_reducible apply event_only


theorem dmaHalt_only (ch : ℕ) (cause : HostErr) {s : State} (h : Only m s0 s) (hc : Sub 0x8600108c22 m) :
    Only m s0 (dmaHalt ch cause s) := by
  unfold dmaHalt
  repeat' first
    | with_reducible assumption
    | exact hc.mono rfl
    | intro _
    | lift_lets -underBinder
    | with_reducible (first | apply addPairSat_only | apply raiseFlag_only | apply putReg_only | apply raise_only | apply modCopy_only | apply haltNotice_only | apply dmaStat_only | apply copyProgress_only)
    | with_reducible apply onlySkip
    | split
    | (conv => arg 3; zeta)


theorem coalescingTimeout_only (n : ℕ) {s : State} (h : Only m s0 s) (hc : Sub 0x8000802 m) :
    Only m s0 (coalescingTimeout n s) := by
  unfold coalescingTimeout
  repeat' first
    | with_reducible assumption
    | exact hc.mono rfl
    | intro _
    | lift_lets -underBinder
    | with_reducible apply cqInterrupt_only
    | with_reducible apply onlySkip
    | split
    | (conv => arg 3; zeta)


theorem respond_only {s : State} (r : MbReq) (a : Ans) (h : Only m s0 s) (hc : Sub 0xc00000802 m) :
    Only m s0 (respond s r a) := by
  unfold respond
  repeat' first
    | with_reducible assumption
    | exact hc.mono rfl
    | intro _
    | lift_lets -underBinder
    | with_reducible (first | apply modWin_only | apply commit_only | apply msix_only)
    | with_reducible apply onlySkip
    | split
    | with_reducible apply only_mbReqs


theorem respondUncommitted_only {s : State} (r : MbReq) (a : Ans) (h : Only m s0 s) (hc : Sub 0x2000c00000802 m) :
    Only m s0 (respondUncommitted s r a) := by
  unfold respondUncommitted
  repeat' first
    | with_reducible assumption
    | exact hc.mono rfl
    | intro _
    | lift_lets -underBinder
    | with_reducible apply respond_only
    | with_reducible apply only_freeCount


theorem waitAnswer_only {s : State} (r : MbReq) (arg : ℕ) (h : Only m s0 s) (hc : Sub 0x800000000 m) :
    Only m s0 (waitAnswer s r arg) := by
  unfold waitAnswer
  repeat' first
    | with_reducible assumption
    | exact hc.mono rfl
    | intro _
    | lift_lets -underBinder
    | with_reducible apply commit_only
    | with_reducible apply onlySkip
    | split
    | with_reducible apply only_mbReqs


theorem answerWaiting_only {s : State} (opcode : ℕ) (arg : ℕ) (a : Ans) (h : Only m s0 s) (hc : Sub 0xc00000802 m) :
    Only m s0 (answerWaiting s opcode arg a) := by
  unfold answerWaiting
  repeat' first
    | with_reducible assumption
    | exact hc.mono rfl
    | intro t (ht : Only m s0 t)
    | intro _
    | lift_lets -underBinder
    | with_reducible (first | apply respond_only | apply commit_only)
    | with_reducible (first | apply onlySkip | apply onlyFold)
    | split
    | with_reducible apply only_mbReqs


theorem answerEnded_only {s : State} (h : Only m s0 s) (hc : Sub 0xc00000802 m) :
    Only m s0 (answerEnded s) := by
  unfold answerEnded
  repeat' first
    | with_reducible assumption
    | exact hc.mono rfl
    | intro t (ht : Only m s0 t)
    | intro _
    | lift_lets -underBinder
    | with_reducible apply respond_only
    | with_reducible apply onlyFold
    | split
    | (conv => arg 3; zeta)


theorem settleHead_only {s : State} (n : Nat) (h : Only m s0 s) (hc : Sub 0x8c00000802 m) : Only m s0 (settleHead n s) := by
  induction n generalizing s with
  | zero => exact h
  | succ n ih =>
    unfold settleHead
    split
    · exact h
    · split
      · exact ih (respond_only _ _ (only_weir h (hc.mono rfl)) (hc.mono rfl))
      · exact h

theorem execReq_only {s : State} (opcode : Nat) (f : MbReq → State → State) (h : Only m s0 s)
    (hff : ∀ (r : MbReq) (t : State), Only m s0 t → Only m s0 (f r t)) (hc : Sub 0x8c00000802 m) :
    Only m s0 (execReq s opcode f) := by
  have k := settleHead_only 16 h hc
  unfold execReq
  split
  · exact h
  · dsimp only
    split
    · exact k
    · exact onlySkip2 k fun k => hff _ _ (only_weir k (hc.mono rfl))

theorem execNow_only {s : State} (opcode : ℕ) (f : MbReq → State → State × Ans) (h : Only m s0 s)
  (hff : ∀ (v0 : MbReq) (v1 : State), Only m s0 v1 → Only m s0 (f v0 v1).1) (hc : Sub 0x8c00000802 m) :
    Only m s0 (execNow s opcode f) := by
  unfold execNow
  repeat' first
    | with_reducible assumption
    | exact hc.mono rfl
    | intro t (ht : Only m s0 t)
    | intro _
    | with_reducible apply hff
    | lift_lets -underBinder
    | with_reducible (first | apply execReq_only | apply respond_only)


theorem take_only {s : State} (r : MbReq) (kind : ℕ) (h : Only m s0 s) (hc : Sub 0x1000000000 m) :
    Only m s0 (take s r kind) := by
  unfold take
  repeat' first
    | with_reducible assumption
    | exact hc.mono rfl
    | intro _
    | lift_lets -underBinder
    | with_reducible apply only_taken


theorem journalStep_only {s : State} (h : Only m s0 s) (hc : Sub 0x8000000000 m) :
    Only m s0 (journalStep s) := by
  unfold journalStep
  repeat' first
    | with_reducible assumption
    | exact hc.mono rfl
    | intro _
    | lift_lets -underBinder
    | with_reducible apply only_weir


theorem addActivity_only {s : State} (a : Activity) (h : Only m s0 s) (hc : Sub 0x6000000000 m) :
    Only m s0 (addActivity s a).1 := by
  unfold addActivity
  repeat' first
    | with_reducible assumption
    | exact hc.mono rfl
    | intro _
    | lift_lets -underBinder
    | split
    | with_reducible apply only_acts_nextAct
    | (conv => arg 3; zeta)


theorem endActivity_only {s : State} (n : ℕ) (status : ℕ) (detail : ℕ) (h : Only m s0 s) (hc : Sub 0xa400000c22 m) :
    Only m s0 (endActivity s n status detail) := by
  unfold endActivity
  repeat' first
    | with_reducible assumption
    | exact hc.mono rfl
    | intro _
    | lift_lets -underBinder
    | with_reducible (first | apply journalStep_only | apply event_only)
    | with_reducible apply onlySkip
    | split
    | with_reducible apply only_acts


theorem showUncore_only {s : State} (i : ℕ) (h : Only m s0 s) (hc : Sub 0x2 m) :
    Only m s0 (showUncore s i) := by
  unfold showUncore
  repeat' first
    | with_reducible assumption
    | exact hc.mono rfl
    | intro t (ht : Only m s0 t)
    | intro _
    | lift_lets -underBinder
    | with_reducible apply putField_only
    | with_reducible (first | apply onlySkip | apply onlyFold)
    | split
    | (conv => arg 3; zeta)


theorem rampCore_only {s : State} (c' : ℕ) (k : ℕ) (h : Only m s0 s) (hc : Sub 0x10002 m) :
    Only m s0 (rampCore s c' k) := by
  unfold rampCore
  repeat' first
    | with_reducible assumption
    | exact hc.mono rfl
    | intro _
    | lift_lets -underBinder
    | with_reducible (first | apply modCore_only | apply showUncore_only | apply putReg_only)
    | with_reducible apply onlySkip
    | split


theorem commandCore_only {s : State} (c' : ℕ) (k : ℕ) (h : Only m s0 s) (hc : Sub 0x10002 m) :
    Only m s0 (commandCore s c' k) := by
  unfold commandCore
  repeat' first
    | with_reducible assumption
    | exact hc.mono rfl
    | intro _
    | lift_lets -underBinder
    | with_reducible (first | apply modCore_only | apply rampCore_only)


theorem answerRamps_only {s : State} (h : Only m s0 s) (hc : Sub 0xc00000802 m) :
    Only m s0 (answerRamps s) := by
  unfold answerRamps
  repeat' first
    | with_reducible assumption
    | exact hc.mono rfl
    | intro t (ht : Only m s0 t)
    | intro _
    | lift_lets -underBinder
    | with_reducible apply answerWaiting_only
    | with_reducible apply onlyFold


theorem coreRampDone_only (c' : ℕ) {s : State} (h : Only m s0 s) (hc : Sub 0xc00010802 m) :
    Only m s0 (coreRampDone c' s) := by
  unfold coreRampDone
  repeat' first
    | with_reducible assumption
    | exact hc.mono rfl
    | intro _
    | lift_lets -underBinder
    | with_reducible (first | apply modCore_only | apply answerRamps_only | apply showUncore_only | apply putReg_only)
    | split
    | (conv => arg 3; zeta)


theorem coreOn_only {s : State} (c' : ℕ) (h : Only m s0 s) (hc : Sub 0x2 m) :
    Only m s0 (coreOn s c') := by
  unfold coreOn
  repeat' first
    | with_reducible assumption
    | exact hc.mono rfl
    | intro _
    | lift_lets -underBinder
    | with_reducible (first | apply rampDomain_only | apply putField_only)
    | with_reducible apply onlySkip
    | split


theorem coreOff_only {s : State} (c' : ℕ) (h : Only m s0 s) (hc : Sub 0x10002 m) :
    Only m s0 (coreOff s c') := by
  unfold coreOff
  repeat' first
    | with_reducible assumption
    | exact hc.mono rfl
    | intro _
    | lift_lets -underBinder
    | with_reducible (first | apply modCore_only | apply offDomain_only | apply showUncore_only)
    | with_reducible apply onlySkip
    | split
    | (conv => arg 3; zeta)


theorem saveStatus_only {s : State} (c' : ℕ) (h : Only m s0 s) (hc : Sub 0x20000 m) :
    Only m s0 (saveStatus s c') := by
  unfold saveStatus
  repeat' first
    | with_reducible assumption
    | exact hc.mono rfl
    | intro _
    | lift_lets -underBinder
    | with_reducible apply modCtxCore_only
    | split
    | (conv => arg 3; zeta)


theorem freeCore_only {s : State} (c' : ℕ) (h : Only m s0 s) (hc : Sub 0x10002 m) :
    Only m s0 (freeCore s c') := by
  unfold freeCore
  repeat' first
    | with_reducible assumption
    | exact hc.mono rfl
    | intro _
    | lift_lets -underBinder
    | with_reducible (first | apply modCore_only | apply putBit_only)


theorem releasePhase_only {s : State} (x : Context) (h : Only m s0 s) (hc : Sub 0x1010002 m) :
    Only m s0 (releasePhase s x) := by
  unfold releasePhase
  repeat' first
    | with_reducible assumption
    | exact hc.mono rfl
    | intro t (ht : Only m s0 t)
    | intro _
    | lift_lets -underBinder
    | with_reducible (first | apply releaseChannels_only | apply freeCore_only)
    | with_reducible (first | apply onlySkip | apply onlyFold)
    | split


theorem cutRequests_only {s : State} (c' : ℕ) (h : Only m s0 s) (hc : Sub 0x1000002 m) :
    Only m s0 (cutRequests s c') := by
  unfold cutRequests
  repeat' first
    | with_reducible assumption
    | exact hc.mono rfl
    | intro _
    | lift_lets -underBinder
    | with_reducible (first | apply putSite_only | apply addPairSat_only)
    | with_reducible apply onlySkip
    | split
    | (conv => arg 3; zeta)


theorem cutContext_only {s : State} (x : Context) (h : Only m s0 s) (hc : Sub 0x1030002 m) :
    Only m s0 (cutContext s x) := by
  unfold cutContext
  repeat' first
    | with_reducible assumption
    | exact hc.mono rfl
    | intro t (ht : Only m s0 t)
    | intro _
    | lift_lets -underBinder
    | with_reducible (first | apply modCore_only | apply cutRequests_only | apply saveStatus_only | apply parkRings_only | apply dropTransfers_only)
    | with_reducible (first | apply onlySkip | apply onlyFold)
    | split


theorem endRun_only {s : State} (h' : ℕ) (e : EndRec) (h : Only m s0 s) (hc : Sub 0x1130002 m) :
    Only m s0 (endRun s h' e) := by
  unfold endRun
  repeat' first
    | with_reducible assumption
    | exact hc.mono rfl
    | intro t (ht : Only m s0 t)
    | intro _
    | lift_lets -underBinder
    | with_reducible (first | apply saveStatus_only | apply parkRings_only | apply releasePhase_only | apply modCtx_only | apply complete_only)
    | with_reducible (first | apply onlySkip | apply onlyFold)
    | split
    | (conv => arg 3; zeta)


theorem setOutcome_only {s : State} (h' : ℕ) (e : EndRec) (h : Only m s0 s) (hc : Sub 0x20000 m) :
    Only m s0 (setOutcome s h' e) := by
  unfold setOutcome
  repeat' first
    | with_reducible assumption
    | exact hc.mono rfl
    | intro _
    | lift_lets -underBinder
    | with_reducible (first | apply modCtx_only | apply complete_only)
    | with_reducible apply onlySkip
    | split
    | (conv => arg 3; zeta)


theorem startAbort_only {s : State} (h' : ℕ) (status : ℕ) (h : Only m s0 s) (hc : Sub 0x1030002 m) :
    Only m s0 (startAbort s h' status) := by
  unfold startAbort
  repeat' first
    | with_reducible assumption
    | exact hc.mono rfl
    | intro _
    | lift_lets -underBinder
    | with_reducible (first | apply modCtx_only | apply cutContext_only | apply complete_only)
    | with_reducible apply onlySkip
    | split
    | (conv => arg 3; zeta)


theorem requestAbort_only {s : State} (h' : ℕ) (h : Only m s0 s) (hc : Sub 0x20000 m) :
    Only m s0 (requestAbort s h') := by
  unfold requestAbort
  repeat' first
    | with_reducible assumption
    | exact hc.mono rfl
    | intro _
    | lift_lets -underBinder
    | with_reducible (first | apply modCtx_only | apply complete_only)


theorem forgetQp_only {s : State} (q : ℕ) (h : Only m s0 s) (hc : Sub 0x8020000 m) :
    Only m s0 (forgetQp s q) := by
  unfold forgetQp
  repeat' first
    | with_reducible assumption
    | exact hc.mono rfl
    | intro _
    | lift_lets -underBinder
    | with_reducible apply putQp_only
    | with_reducible apply only_contexts


theorem settleDeletes_only {s : State} (h : Only m s0 s) (hc : Sub 0xc08020802 m) :
    Only m s0 (settleDeletes s) := by
  unfold settleDeletes
  repeat' first
    | with_reducible assumption
    | exact hc.mono rfl
    | intro t (ht : Only m s0 t)
    | intro _
    | with_reducible (first | apply answerWaiting_only | apply forgetQp_only)
    | with_reducible apply onlyFold


theorem abortComplete_only (h' : ℕ) {s : State} (h : Only m s0 s) (hc : Sub 0xc09130802 m) :
    Only m s0 (abortComplete h' s) := by
  unfold abortComplete
  repeat' first
    | with_reducible assumption
    | exact hc.mono rfl
    | intro _
    | lift_lets -underBinder
    | with_reducible (first | apply endRun_only | apply settleDeletes_only | apply answerWaiting_only)
    | split
    | (conv => arg 3; zeta)


theorem removeContext_only {s : State} (h' : ℕ) (h : Only m s0 s) (hc : Sub 0x1130002 m) :
    Only m s0 (removeContext s h') := by
  unfold removeContext
  repeat' first
    | with_reducible assumption
    | exact hc.mono rfl
    | intro t (ht : Only m s0 t)
    | intro _
    | lift_lets -underBinder
    | with_reducible (first | apply complete_only | apply parkRings_only | apply releasePhase_only)
    | with_reducible (first | apply onlySkip | apply onlyFold)
    | split
    | with_reducible apply only_contexts
    | (conv => arg 3; zeta)


theorem fenceCore_only {s : State} (c' : ℕ) (status : ℕ) (h : Only m s0 s) (hc : Sub 0x8401038c22 m) :
    Only m s0 (fenceCore s c' status) := by
  unfold fenceCore
  repeat' first
    | with_reducible assumption
    | exact hc.mono rfl
    | intro t (ht : Only m s0 t)
    | intro _
    | lift_lets -underBinder
    | with_reducible (first | apply modCore_only | apply raise_only | apply partEvent_only | apply setOutcome_only | apply cutContext_only | apply modCtx_only | apply coreOff_only)
    | with_reducible (first | apply onlySkip | apply onlyFold)
    | split


theorem operandParityFault_only (c' : ℕ) (unit : ℕ) {s : State} (h : Only m s0 s) (hc : Sub 0x8401038c22 m) :
    Only m s0 (operandParityFault c' unit s) := by
  unfold operandParityFault
  repeat' first
    | with_reducible assumption
    | exact hc.mono rfl
    | intro _
    | lift_lets -underBinder
    | with_reducible (first | apply raise_only | apply latch_only | apply modCore_only | apply fenceCore_only)
    | with_reducible apply onlySkip
    | split
    | (conv => arg 3; zeta)


theorem modRun_only {s : State} (h' : ℕ) (f : Run → Run) (h : Only m s0 s) (hc : Sub 0x20000 m) :
    Only m s0 (modRun s h' f) := by
  unfold modRun
  repeat' first
    | with_reducible assumption
    | exact hc.mono rfl
    | intro _
    | lift_lets -underBinder
    | with_reducible apply modCtx_only


theorem siteBarrier_only {s : State} (h' : ℕ) (i : ℕ) (h : Only m s0 s) (hc : Sub 0x38000 m) :
    Only m s0 (siteBarrier s h' i) := by
  unfold siteBarrier
  repeat' first
    | with_reducible assumption
    | exact hc.mono rfl
    | intro t (ht : Only m s0 t)
    | intro _
    | lift_lets -underBinder
    | with_reducible (first | apply latch_only | apply modRun_only | apply complete_only)
    | with_reducible apply onlyFold
    | split
    | (conv => arg 3; zeta)


theorem sendBarrier_only {s : State} (x : Context) (i : ℕ) (phase : ℕ) (f : Bool) (sel : Word) (h : Only m s0 s)
  (hc : Sub 0x1000001000800 m) :
    Only m s0 (sendBarrier s x i phase f sel) := by
  unfold sendBarrier
  repeat' first
    | with_reducible assumption
    | exact hc.mono rfl
    | intro _
    | lift_lets -underBinder
    | with_reducible apply queueTransfer_only
    | split
    | with_reducible apply only_nextId
    | (conv => arg 3; zeta)


theorem siteClosed_only {s : State} (h' : ℕ) (i : ℕ) (h : Only m s0 s) (hc : Sub 0x1000001038800 m) :
    Only m s0 (siteClosed s h' i) := by
  unfold siteClosed
  repeat' first
    | with_reducible assumption
    | exact hc.mono rfl
    | intro _
    | lift_lets -underBinder
    | with_reducible (first | apply sendBarrier_only | apply modRun_only | apply complete_only | apply siteBarrier_only)
    | with_reducible apply onlySkip
    | split
    | (conv => arg 3; zeta)


theorem closeReport_only (c' : ℕ) {s : State} (h : Only m s0 s) (hc : Sub 0x1000001038800 m) :
    Only m s0 (closeReport c' s) := by
  unfold closeReport
  repeat' first
    | with_reducible assumption
    | exact hc.mono rfl
    | intro _
    | lift_lets -underBinder
    | with_reducible (first | apply modCore_only | apply saveStatus_only | apply modRun_only | apply complete_only | apply siteClosed_only)
    | with_reducible apply onlySkip
    | split
    | (conv => arg 3; zeta)


theorem ctxDiscard_only {s : State} (d : ℕ) (h : Only m s0 s) (hc : Sub 0x8022 m) :
    Only m s0 (ctxDiscard s d) := by
  unfold ctxDiscard
  repeat' first
    | with_reducible assumption
    | exact hc.mono rfl
    | intro _
    | lift_lets -underBinder
    | with_reducible (first | apply raiseFlag_only | apply addPairSat_only | apply raise_only)


theorem barrierToken_only (src : ℕ) (dst : ℕ) (h' : ℕ) (phase : ℕ) (f : Bool) (sel : Word) {s : State} (h : Only m s0 s)
  (hc : Sub 0x1038022 m) :
    Only m s0 (barrierToken src dst h' phase f sel s) := by
  unfold barrierToken
  repeat' first
    | with_reducible assumption
    | exact hc.mono rfl
    | intro _
    | lift_lets -underBinder
    | with_reducible (first | apply ctxDiscard_only | apply modRun_only | apply takeTransfer_only | apply complete_only | apply siteBarrier_only)
    | with_reducible apply onlySkip
    | split
    | (conv => arg 3; zeta)


theorem resolveBarrier_only {s : State} (x : Context) (r : Run) (h : Only m s0 s) (hc : Sub 0x1038002 m) :
    Only m s0 (resolveBarrier s x r) := by
  unfold resolveBarrier
  repeat' first
    | with_reducible assumption
    | exact hc.mono rfl
    | intro _
    | lift_lets -underBinder
    | with_reducible (first | apply complete_only | apply setOutcome_only | apply raise_only | apply releasePhase_only | apply modRun_only)
    | with_reducible apply onlySkip
    | split
    | (conv => arg 3; zeta)


theorem barrierComplete_only (i : ℕ) (h' : ℕ) {s : State} (h : Only m s0 s) (hc : Sub 0x1038002 m) :
    Only m s0 (barrierComplete i h' s) := by
  unfold barrierComplete
  repeat' first
    | with_reducible assumption
    | exact hc.mono rfl
    | intro _
    | lift_lets -underBinder
    | with_reducible (first | apply complete_only | apply modRun_only | apply resolveBarrier_only)
    | with_reducible apply onlySkip
    | split
    | (conv => arg 3; zeta)


theorem startCore_only {s : State} (h' : ℕ) (k : CtxCore) (entry : ℕ) (hold : Bool) (h : Only m s0 s) (hc : Sub 0x10000 m) :
    Only m s0 (startCore s h' k entry hold) := by
  unfold startCore
  repeat' first
    | with_reducible assumption
    | exact hc.mono rfl
    | intro _
    | lift_lets -underBinder
    | with_reducible apply modCore_only
    | with_reducible apply onlySkip
    | split


theorem startDispatch_only {s : State} (x : Context) (d : Dispatch) (h : Only m s0 s) (hc : Sub 0x2283c2 m) :
    Only m s0 (startDispatch s x d) := by
  unfold startDispatch
  repeat' first
    | with_reducible assumption
    | exact hc.mono rfl
    | intro t (ht : Only m s0 t)
    | intro _
    | lift_lets -underBinder
    | with_reducible (first | apply modCtx_only | apply noteRead_only | apply writeMem_only)
    | with_reducible (first | apply onlySkip | apply onlyFold | apply onlyFold1)
    | split


theorem cadence_only {s : State} (x : Context) (c' : ℕ) (h : Only m s0 s) (hc : Sub 0x2 m) :
    Only m s0 (cadence s x c') := by
  unfold cadence
  repeat' first
    | with_reducible assumption
    | exact hc.mono rfl
    | intro _
    | lift_lets -underBinder
    | with_reducible apply putBit_only


theorem grantPhase_only {s : State} (h' : ℕ) (h : Only m s0 s) (hc : Sub 0x12383c2 m) :
    Only m s0 (grantPhase s h') := by
  unfold grantPhase
  repeat' first
    | with_reducible assumption
    | exact hc.mono rfl
    | intro t (ht : Only m s0 t)
    | intro _
    | lift_lets -underBinder
    | with_reducible (first | apply startDispatch_only | apply releaseChannels_only | apply grantSched_only | apply cadence_only | apply startCore_only | apply modRun_only | apply complete_only)
    | with_reducible (first | apply onlySkip | apply onlyFold)
    | split
    | (conv => arg 3; zeta)


theorem siteResetRuns_only {s : State} (i : ℕ) (h : Only m s0 s) (hc : Sub 0x1030002 m) :
    Only m s0 (siteResetRuns s i) := by
  unfold siteResetRuns
  repeat' first
    | with_reducible assumption
    | exact hc.mono rfl
    | intro t (ht : Only m s0 t)
    | intro _
    | with_reducible (first | apply setOutcome_only | apply cutContext_only)
    | with_reducible apply onlyFold


theorem resumeTx_only {s : State} (g : ℕ) (l : ℕ) (h : Only m s0 s) (hc : Sub 0x1000802 m) :
    Only m s0 (resumeTx s g l) := by
  unfold resumeTx
  repeat' first
    | with_reducible assumption
    | exact hc.mono rfl
    | intro t (ht : Only m s0 t)
    | intro _
    | lift_lets -underBinder
    | with_reducible (first | apply addPairSat_only | apply pauseTx_only | apply modSite_only | apply pumpTx_only | apply putOut_only)
    | with_reducible (first | apply onlySkip | apply onlyFold)
    | split
    | (conv => arg 3; zeta)


theorem ringSettled_only (d : ℕ) (ring : ℕ) {s : State} (h : Only m s0 s) (hc : Sub 0x1000802 m) :
    Only m s0 (ringSettled d ring s) := by
  unfold ringSettled
  repeat' first
    | with_reducible assumption
    | exact hc.mono rfl
    | intro _
    | lift_lets -underBinder
    | with_reducible (first | apply modSite_only | apply putReg_only | apply resumeTx_only)
    | with_reducible apply onlySkip
    | split
    | (conv => arg 3; zeta)


theorem retuneLate_only (d : ℕ) (ring : ℕ) {s : State} (h : Only m s0 s) (hc : Sub 0x1008022 m) :
    Only m s0 (retuneLate d ring s) := by
  unfold retuneLate
  repeat' first
    | with_reducible assumption
    | exact hc.mono rfl
    | intro _
    | lift_lets -underBinder
    | with_reducible (first | apply failRing_only | apply raiseFlag_only)
    | with_reducible apply onlySkip
    | split
    | (conv => arg 3; zeta)


theorem channelFailed_only (d : ℕ) (ring : ℕ) {s : State} (h : Only m s0 s) (hc : Sub 0x1008022 m) :
    Only m s0 (channelFailed d ring s) := by
  unfold channelFailed
  repeat' first
    | with_reducible assumption
    | exact hc.mono rfl
    | intro _
    | lift_lets -underBinder
    | with_reducible apply failChannel_only
    | with_reducible apply onlySkip
    | split
    | (conv => arg 3; zeta)


theorem receiptConfirmation_only (d : ℕ) (g : ℕ) (l : ℕ) (n : ℕ) {s : State} (h : Only m s0 s) (hc : Sub 0x1000800 m) :
    Only m s0 (receiptConfirmation d g l n s) := by
  unfold receiptConfirmation
  repeat' first
    | with_reducible assumption
    | exact hc.mono rfl
    | intro t (ht : Only m s0 t)
    | intro _
    | lift_lets -underBinder
    | with_reducible (first | apply modSite_only | apply pumpTx_only)
    | with_reducible apply onlyFold
    | split
    | (conv => arg 3; zeta)


theorem takeData_only {s : State} (x : Context) (k : CtxCore) (t : Transfer) (h : Only m s0 s) (hc : Sub 0x383c2 m) :
    Only m s0 (takeData s x k t) := by
  unfold takeData
  repeat' first
    | with_reducible assumption
    | exact hc.mono rfl
    | intro _
    | lift_lets -underBinder
    | with_reducible (first | apply writeMem_only | apply move_only | apply modMove_only | apply postCounter_only)
    | with_reducible apply onlySkip
    | split
    | (conv => arg 3; zeta)


theorem readTaken_only {s : State} (d : ℕ) (t : Transfer) (h : Only m s0 s) (hc : Sub 0x1010000 m) :
    Only m s0 (readTaken s d t) := by
  unfold readTaken
  repeat' first
    | with_reducible assumption
    | exact hc.mono rfl
    | intro _
    | lift_lets -underBinder
    | with_reducible (first | apply move_only | apply modSite_only | apply modMove_only)
    | with_reducible apply onlySkip
    | split
    | (conv => arg 3; zeta)


theorem takeNear_only {s : State} (x : Context) (t : Transfer) (h : Only m s0 s) (hc : Sub 0x10183c2 m) :
    Only m s0 (takeNear s x t) := by
  unfold takeNear
  repeat' first
    | with_reducible assumption
    | exact hc.mono rfl
    | intro _
    | lift_lets -underBinder
    | with_reducible (first | apply move_only | apply writeMem_only | apply modMove_only | apply holdWrite_only | apply move_only)
    | with_reducible apply onlySkip
    | split
    | (conv => arg 3; zeta)


theorem scheduledData_only (d : ℕ) (g : ℕ) (l : ℕ) (hdr : ChanHdr) (data : List Byte) {s : State} (h : Only m s0 s)
  (hc : Sub 0x10383e2 m) :
    Only m s0 (scheduledData d g l hdr data s) := by
  unfold scheduledData
  repeat' first
    | with_reducible assumption
    | exact hc.mono rfl
    | intro _
    | lift_lets -underBinder
    | with_reducible (first | apply ctxDiscard_only | apply readTaken_only | apply takeTransfer_only | apply takeNear_only | apply takeData_only)
    | with_reducible apply onlySkip
    | split
    | (conv => arg 3; zeta)


theorem confirmPost_only {s : State} (c' : ℕ) (id : ℕ) (dst : ℕ) (h : Only m s0 s) (hc : Sub 0x1010800 m) :
    Only m s0 (confirmPost s c' id dst) := by
  unfold confirmPost
  repeat' first
    | with_reducible assumption
    | exact hc.mono rfl
    | intro _
    | lift_lets -underBinder
    | with_reducible (first | apply sendPosts_only | apply modCore_only)


theorem postToken_only (path : TokenPath) (no : ℕ) (loc : ℕ) (ctr : ℕ) (amount : ℕ) {s : State} (h : Only m s0 s)
  (hc : Sub 0x1038822 m) :
    Only m s0 (postToken path no loc ctr amount s) := by
  unfold postToken
  repeat' first
    | with_reducible assumption
    | exact hc.mono rfl
    | intro _
    | lift_lets -underBinder
    | with_reducible (first | apply confirmPost_only | apply postCounter_only | apply ctxDiscard_only | apply takeTransfer_only)
    | with_reducible apply onlySkip
    | split
    | (conv => arg 3; zeta)


theorem creditMessage_only (src : ℕ) (dst : ℕ) (n : ℕ) {s : State} (h : Only m s0 s) (hc : Sub 0x1000002 m) :
    Only m s0 (creditMessage src dst n s) := by
  unfold creditMessage
  repeat' first
    | with_reducible assumption
    | exact hc.mono rfl
    | intro _
    | lift_lets -underBinder
    | with_reducible (first | apply putField_only | apply modSite_only)
    | with_reducible apply onlySkip
    | split


theorem setLinkState_only {s : State} (o : ℕ) (v : ℕ) (h : Only m s0 s) (hc : Sub 0x2 m) :
    Only m s0 (setLinkState s o v) := by
  unfold setLinkState
  repeat' first
    | with_reducible assumption
    | exact hc.mono rfl
    | intro _
    | lift_lets -underBinder
    | with_reducible apply putField_only


theorem loadRoutes_only {s : State} (h : Only m s0 s) (hc : Sub 0x4000022 m) :
    Only m s0 (loadRoutes s) := by
  unfold loadRoutes
  repeat' first
    | with_reducible assumption
    | exact hc.mono rfl
    | intro _
    | lift_lets -underBinder
    | with_reducible apply raiseFlag_only
    | with_reducible apply onlySkip
    | split
    | with_reducible apply only_fabric


theorem showTree_only {s : State} (h : Only m s0 s) (hc : Sub 0x2 m) :
    Only m s0 (showTree s) := by
  unfold showTree
  repeat' first
    | with_reducible assumption
    | exact hc.mono rfl
    | intro _
    | lift_lets -underBinder
    | with_reducible apply putField_only


theorem learn_only {s : State} (f : LinkStateF) (h : Only m s0 s) (hc : Sub 0x4000022 m) :
    Only m s0 (learn s f).1 := by
  unfold learn
  repeat' first
    | with_reducible assumption
    | exact hc.mono rfl
    | intro _
    | lift_lets -underBinder
    | with_reducible (first | apply showTree_only | apply loadRoutes_only)
    | with_reducible apply onlySkip
    | split
    | with_reducible apply only_fabric


theorem noteViolation_only {s : State} (o : ℕ) (code : ℕ) (d0 : ℕ) (h : Only m s0 s) (hc : Sub 0x2008022 m) :
    Only m s0 (noteViolation s o code d0) := by
  unfold noteViolation
  repeat' first
    | with_reducible assumption
    | exact hc.mono rfl
    | intro _
    | lift_lets -underBinder
    | with_reducible (first | apply addPairSat_only | apply raiseFlag_only | apply raise_only | apply modLink_only)


theorem discardReply_only {s : State} (h : Only m s0 s) (hc : Sub 0x22 m) :
    Only m s0 (discardReply s) := by
  unfold discardReply
  repeat' first
    | with_reducible assumption
    | exact hc.mono rfl
    | with_reducible (first | apply raiseFlag_only | apply addPairSat_only)


theorem rxLeave_only {s : State} (o : ℕ) (p : Packet) (h : Only m s0 s) (hc : Sub 0x2000800 m) :
    Only m s0 (rxLeave s o p) := by
  unfold rxLeave
  repeat' first
    | with_reducible assumption
    | exact hc.mono rfl
    | intro _
    | lift_lets -underBinder
    | with_reducible (first | apply emit_only | apply modLink_only)
    | with_reducible apply onlySkip
    | split


theorem takePaid_only {s : State} (o : ℕ) (p : Packet) (h : Only m s0 s) (hc : Sub 0x2000000 m) :
    Only m s0 (takePaid s o p).1 := by
  unfold takePaid
  repeat' first
    | with_reducible assumption
    | exact hc.mono rfl
    | intro _
    | lift_lets -underBinder
    | with_reducible apply modLink_only
    | split
    | (conv => arg 3; zeta)


theorem unpay_only {s : State} (paid : Bool) (o : ℕ) (p : Packet) (h : Only m s0 s) (hc : Sub 0x2000000 m) :
    Only m s0 (unpay s paid o p) := by
  unfold unpay
  repeat' first
    | with_reducible assumption
    | exact hc.mono rfl
    | intro _
    | with_reducible apply modLink_only
    | with_reducible apply onlySkip
    | split


theorem queueAtLink_only {s : State} (o : ℕ) (r : OpenReq) (h : Only m s0 s) (hc : Sub 0x2000000 m) :
    Only m s0 (queueAtLink s o r) := by
  unfold queueAtLink
  repeat' first
    | with_reducible assumption
    | exact hc.mono rfl
    | intro _
    | lift_lets -underBinder
    | with_reducible apply modLink_only


theorem exitReply_only {s : State} (o : ℕ) (p : Packet) (h : Only m s0 s) (hc : Sub 0x2008022 m) :
    Only m s0 (exitReply s o p) := by
  unfold exitReply
  repeat' first
    | with_reducible assumption
    | exact hc.mono rfl
    | intro _
    | lift_lets -underBinder
    | with_reducible (first | apply takePaid_only | apply keyRefused_only | apply unpay_only | apply queueAtLink_only | apply raise_only | apply discardReply_only)
    | with_reducible apply onlySkip
    | split


theorem answerOwn_only {s : State} (i : ℕ) (r : OpenReq) (code : ℕ) (data : List Byte) (fill : Bool) (reply : Packet)
  (h : Only m s0 s) (hc : Sub 0x201110c02 m) :
    Only m s0 (answerOwn s i r code data fill reply) := by
  unfold answerOwn
  repeat' first
    | with_reducible assumption
    | exact hc.mono rfl
    | intro _
    | lift_lets -underBinder
    | with_reducible (first | apply emit_only | apply finishReq_only)
    | split
    | (conv => arg 3; zeta)


theorem sendOn_only {s : State} (i : ℕ) (p : Packet) (deliver : State → State) (h : Only m s0 s)
  (hfdeliver : ∀ (v0 : State), Only m s0 v0 → Only m s0 (deliver v0)) (hc : Sub 0x3008022 m) :
    Only m s0 (sendOn s i p deliver) := by
  unfold sendOn
  repeat' first
    | with_reducible assumption
    | exact hc.mono rfl
    | intro t (ht : Only m s0 t)
    | intro _
    | with_reducible apply hfdeliver
    | lift_lets -underBinder
    | with_reducible (first | apply exitReply_only | apply submitOpen_only)
    | with_reducible apply onlySkip
    | split


theorem answerAttached_only {s : State} (i : ℕ) (q : OpenReq) (r : Packet) (rank : ℕ) (code : ℕ) (fill : Bool) (h : Only m s0 s)
  (hc : Sub 0x203118c22 m) :
    Only m s0 (answerAttached s i q r rank code fill) := by
  unfold answerAttached
  repeat' first
    | with_reducible assumption
    | exact hc.mono rfl
    | intro _
    | lift_lets -underBinder
    | with_reducible (first | apply sendOn_only | apply emit_only | apply finishReq_only)
    | split
    | (conv => arg 3; zeta)


theorem dropCombining_only {s : State} (i : ℕ) (p : Packet) (h : Only m s0 s) (hc : Sub 0x1000000 m) :
    Only m s0 (dropCombining s i p) := by
  unfold dropCombining
  repeat' first
    | with_reducible assumption
    | exact hc.mono rfl
    | intro _
    | lift_lets -underBinder
    | with_reducible apply modSite_only


theorem answerAll_only {s : State} (i : ℕ) (qs : List OpenReq) (r : Packet) (code : ℕ) (fill : Bool) (h : Only m s0 s)
  (hc : Sub 0x203118c22 m) :
    Only m s0 (answerAll s i qs r code fill) := by
  unfold answerAll
  repeat' first
    | with_reducible assumption
    | exact hc.mono rfl
    | intro t (ht : Only m s0 t)
    | intro _
    | with_reducible apply answerAttached_only
    | with_reducible apply onlyFold


theorem deliverReply_only {s : State} (i : ℕ) (r : Packet) (h : Only m s0 s) (hc : Sub 0x203118c22 m) :
    Only m s0 (deliverReply s i r) := by
  unfold deliverReply
  repeat' first
    | with_reducible assumption
    | exact hc.mono rfl
    | intro _
    | lift_lets -underBinder
    | with_reducible (first | apply addPairSat_only | apply noteViolation_only | apply discardReply_only | apply modSite_only | apply dropCombining_only | apply answerOwn_only | apply answerAll_only)
    | with_reducible apply onlySkip
    | split
    | (conv => arg 3; zeta)


theorem routeReply_only {s : State} (i : ℕ) (r : Packet) (h : Only m s0 s) (hc : Sub 0x203118c22 m) :
    Only m s0 (routeReply s i r) := by
  unfold routeReply
  repeat' first
    | with_reducible assumption
    | exact hc.mono rfl
    | intro t (ht : Only m s0 t)
    | intro _
    | lift_lets -underBinder
    | with_reducible (first | apply sendOn_only | apply deliverReply_only)
    | with_reducible (first | apply onlySkip | apply onlyFold | apply onlyFold1)
    | split
    | (conv => arg 3; zeta)


theorem copyTransit_only {s : State} (i : ℕ) (r : Packet) (h : Only m s0 s) (hc : Sub 0x203118c22 m) :
    Only m s0 (copyTransit s i r) := by
  unfold copyTransit
  repeat' first
    | with_reducible assumption
    | exact hc.mono rfl
    | intro _
    | lift_lets -underBinder
    | with_reducible (first | apply answerAll_only | apply dropCombining_only)
    | with_reducible apply onlySkip
    | split
    | (conv => arg 3; zeta)


theorem refuse_only {s : State} (i : ℕ) (q : Packet) (code : ℕ) (h : Only m s0 s) (hc : Sub 0x203118c22 m) :
    Only m s0 (refuse s i q code) := by
  unfold refuse
  repeat' first
    | with_reducible assumption
    | exact hc.mono rfl
    | intro _
    | lift_lets -underBinder
    | with_reducible (first | apply addPairSat_only | apply routeReply_only)
    | with_reducible apply onlySkip
    | split
    | (conv => arg 3; zeta)


theorem refuseForwarded_only {s : State} (i : ℕ) (q : Packet) (code : ℕ) (h : Only m s0 s) (hc : Sub 0x203118c22 m) :
    Only m s0 (refuseForwarded s i q code) := by
  unfold refuseForwarded
  repeat' first
    | with_reducible assumption
    | exact hc.mono rfl
    | with_reducible (first | apply refuse_only | apply copyTransit_only)


theorem exitRequest_only {s : State} (o : ℕ) (p : Packet) (h : Only m s0 s) (hc : Sub 0x203118c22 m) :
    Only m s0 (exitRequest s o p) := by
  unfold exitRequest
  repeat' first
    | with_reducible assumption
    | exact hc.mono rfl
    | (refine attachRead_only _ _ _ (by assumption) ?_ ?_)
    | intro _
    | lift_lets -underBinder
    | with_reducible (first | apply takePaid_only | apply refuse_only | apply unpay_only | apply keyRefused_only | apply queueAtLink_only | apply openEntry_only)
    | with_reducible apply onlySkip
    | split
    | (conv => arg 3; zeta)


theorem sendFirmware_only {s : State} (o : ℕ) (p : Packet) (h : Only m s0 s) (hc : Sub 0x2000000 m) :
    Only m s0 (sendFirmware s o p) := by
  unfold sendFirmware
  repeat' first
    | with_reducible assumption
    | exact hc.mono rfl
    | intro _
    | lift_lets -underBinder
    | with_reducible apply queueAtLink_only
    | with_reducible apply onlySkip
    | split


theorem flood_only {s : State} (f : LinkStateF) (except : Option ℕ) (h : Only m s0 s) (hc : Sub 0x2000000 m) :
    Only m s0 (flood s f except) := by
  unfold flood
  repeat' first
    | with_reducible assumption
    | exact hc.mono rfl
    | intro t (ht : Only m s0 t)
    | intro _
    | lift_lets -underBinder
    | with_reducible apply queueAtLink_only
    | with_reducible (first | apply onlySkip | apply onlyFold)
    | split


theorem floodOwn_only {s : State} (h : Only m s0 s) (hc : Sub 0x6000022 m) :
    Only m s0 (floodOwn s) := by
  unfold floodOwn
  repeat' first
    | with_reducible assumption
    | exact hc.mono rfl
    | intro _
    | lift_lets -underBinder
    | with_reducible (first | apply flood_only | apply loadRoutes_only | apply showTree_only)
    | with_reducible apply onlySkip
    | split
    | with_reducible apply only_fabric


theorem turnBack_only (o : ℕ) {s : State} (r : OpenReq) (h : Only m s0 s) (hc : Sub 0x203118c22 m) :
    Only m s0 (turnBack o s r) := by
  unfold turnBack
  repeat' first
    | with_reducible assumption
    | exact hc.mono rfl
    | intro _
    | lift_lets -underBinder
    | with_reducible (first | apply refuseForwarded_only | apply raise_only | apply discardReply_only)
    | with_reducible apply onlySkip
    | split


theorem linkGoesDown_only {s : State} (o : ℕ) (state : ℕ) (h : Only m s0 s) (hc : Sub 0x207118c22 m) :
    Only m s0 (linkGoesDown s o state) := by
  unfold linkGoesDown
  repeat' first
    | with_reducible assumption
    | exact hc.mono rfl
    | intro t (ht : Only m s0 t)
    | intro _
    | lift_lets -underBinder
    | with_reducible (first | apply setLinkState_only | apply modLink_only | apply modSite_only | apply putBit_only | apply turnBack_only | apply raiseFlag_only | apply floodOwn_only | apply raise_only)
    | with_reducible (first | apply onlySkip | apply onlyFold)
    | split


theorem quarantineLinks_only {s : State} (h : Only m s0 s) (hc : Sub 0x207118c22 m) :
    Only m s0 (quarantineLinks s) := by
  unfold quarantineLinks
  repeat' first
    | with_reducible assumption
    | exact hc.mono rfl
    | intro t (ht : Only m s0 t)
    | intro _
    | lift_lets -underBinder
    | with_reducible (first | apply linkGoesDown_only | apply raiseFlag_only | apply putBit_only | apply raise_only)
    | with_reducible (first | apply onlySkip | apply onlyFold)
    | split


theorem applyWrite_only {s : State} (i : ℕ) (p : Packet) (h : Only m s0 s) (hc : Sub 0x203118fe2 m) :
    Only m s0 (applyWrite s i p) := by
  unfold applyWrite
  repeat' first
    | with_reducible assumption
    | exact hc.mono rfl
    | intro _
    | lift_lets -underBinder
    | with_reducible (first | apply writeMem_only | apply refuse_only | apply routeReply_only)
    | with_reducible apply onlySkip
    | split


theorem applyAtomic_only {s : State} (i : ℕ) (p : Packet) (h : Only m s0 s) (hc : Sub 0x203318fe2 m) :
    Only m s0 (applyAtomic s i p) := by
  unfold applyAtomic
  repeat' first
    | with_reducible assumption
    | exact hc.mono rfl
    | intro _
    | lift_lets -underBinder
    | with_reducible (first | apply refuse_only | apply noteRead_only | apply writeMem_only | apply routeReply_only)
    | with_reducible apply onlySkip
    | split


theorem noteReadOf_only {s : State} (p : Packet) (h : Only m s0 s) (hc : Sub 0x200002 m) :
    Only m s0 (noteReadOf s p) := by
  unfold noteReadOf
  repeat' first
    | with_reducible assumption
    | exact hc.mono rfl
    | intro _
    | lift_lets -underBinder
    | with_reducible apply noteRead_only
    | with_reducible apply onlySkip
    | split
    | (conv => arg 3; zeta)


theorem serveOnChannel_only {s : State} (i : ℕ) (p : Packet) (h : Only m s0 s) (hc : Sub 0x1000001010800 m) :
    Only m s0 (serveOnChannel s i p) := by
  unfold serveOnChannel
  repeat' first
    | with_reducible assumption
    | exact hc.mono rfl
    | intro _
    | lift_lets -underBinder
    | with_reducible (first | apply modMove_only | apply queueTransfer_only)
    | with_reducible apply onlySkip
    | split
    | with_reducible apply only_nextId
    | (conv => arg 3; zeta)


theorem serve_only {s : State} (i : ℕ) (via : Arrival) (p : Packet) (ecc : EccList) (h : Only m s0 s)
  (hc : Sub 0x1000203318fe2 m) :
    Only m s0 (serve s i via p ecc) := by
  unfold serve
  repeat' first
    | with_reducible assumption
    | exact hc.mono rfl
    | intro _
    | lift_lets -underBinder
    | with_reducible (first | apply refuse_only | apply modSite_only | apply addPairSat_only | apply noteReadOf_only | apply decodeRange_only | apply serveOnChannel_only | apply addSharer_only | apply routeReply_only | apply holdWrite_only | apply applyWrite_only | apply applyAtomic_only)
    | with_reducible apply onlySkip
    | split
    | (conv => arg 3; zeta)


theorem wakeStack_only {s : State} (i : ℕ) (h : Only m s0 s) (hc : Sub 0x1000203318fe2 m) :
    Only m s0 (wakeStack s i) := by
  unfold wakeStack
  repeat' first
    | with_reducible assumption
    | exact hc.mono rfl
    | intro t (ht : Only m s0 t)
    | intro _
    | lift_lets -underBinder
    | with_reducible (first | apply serve_only | apply modSite_only)
    | with_reducible (first | apply onlySkip | apply onlyFold)
    | split


theorem applyHeld_only {s : State} (i : ℕ) (h' : HeldWrite) (h : Only m s0 s) (hc : Sub 0x203318fe2 m) :
    Only m s0 (applyHeld s i h') := by
  unfold applyHeld
  repeat' first
    | with_reducible assumption
    | exact hc.mono rfl
    | intro _
    | lift_lets -underBinder
    | with_reducible (first | apply reply_only | apply applyWrite_only | apply applyAtomic_only | apply writeMem_only | apply modMove_only | apply copyAnswered_only)
    | with_reducible apply onlySkip
    | split
    | (conv => arg 3; zeta)


theorem received_only {s : State} (src : ℕ) (dst : ℕ) (p : Packet) (h : Only m s0 s) (hc : Sub 0x1000000 m) :
    Only m s0 (received s src dst p) := by
  unfold received
  repeat' first
    | with_reducible assumption
    | exact hc.mono rfl
    | intro _
    | lift_lets -underBinder
    | with_reducible apply modSite_only


theorem inval_only (owner : ℕ) (sharer : ℕ) (region : ℕ) {s : State} (h : Only m s0 s) (hc : Sub 0x203118c22 m) :
    Only m s0 (inval owner sharer region s) := by
  unfold inval
  repeat' first
    | with_reducible assumption
    | exact hc.mono rfl
    | intro _
    | lift_lets -underBinder
    | with_reducible (first | apply received_only | apply refuse_only | apply keyRefused_only | apply cacheForget_only | apply addPairSat_only | apply submitOpen_only)
    | with_reducible apply onlySkip
    | split


theorem applyReady_only {s : State} (i : ℕ) (h : Only m s0 s) (hc : Sub 0x203318fe2 m) :
    Only m s0 (applyReady s i) := by
  unfold applyReady
  repeat' first
    | with_reducible assumption
    | exact hc.mono rfl
    | intro t (ht : Only m s0 t)
    | intro _
    | lift_lets -underBinder
    | with_reducible (first | apply modSite_only | apply applyHeld_only)
    | with_reducible apply onlyFold


theorem invalAck_only (owner : ℕ) (sharer : ℕ) (region : ℕ) {s : State} (h : Only m s0 s) (hc : Sub 0x203318fe2 m) :
    Only m s0 (invalAck owner sharer region s) := by
  unfold invalAck
  repeat' first
    | with_reducible assumption
    | exact hc.mono rfl
    | intro t (ht : Only m s0 t)
    | intro _
    | lift_lets -underBinder
    | with_reducible (first | apply received_only | apply keyRefused_only | apply modSite_only | apply applyReady_only)
    | with_reducible (first | apply onlySkip | apply onlyFold)
    | split


theorem arrive_only {s : State} (o : ℕ) (p : Packet) (act : State → State) (h : Only m s0 s)
  (hfact : ∀ (v0 : State), Only m s0 v0 → Only m s0 (act v0)) (hc : Sub 0x207118c22 m) :
    Only m s0 (arrive s o p act) := by
  unfold arrive
  repeat' first
    | with_reducible assumption
    | exact hc.mono rfl
    | intro t (ht : Only m s0 t)
    | intro _
    | with_reducible apply hfact
    | lift_lets -underBinder
    | with_reducible (first | apply noteViolation_only | apply quarantineLinks_only | apply refuse_only | apply putLink_only | apply rxLeave_only)
    | with_reducible apply onlySkip
    | split
    | (conv => arg 3; zeta)


theorem crossTo_only {s : State} (i : ℕ) (dst : ℕ) (outlet : Option ℕ) (p : Packet) (h : Only m s0 s) (hc : Sub 0x1000002 m) :
    Only m s0 (crossTo s i dst outlet p) := by
  unfold crossTo
  repeat' first
    | with_reducible assumption
    | exact hc.mono rfl
    | (refine attachRead_only _ _ _ (by assumption) ?_ ?_)
    | intro _
    | lift_lets -underBinder
    | with_reducible (first | apply submitOpen_only | apply openEntry_only)
    | split
    | (conv => arg 3; zeta)


theorem requestFate_only {s : State} (i : ℕ) (arrival : Option ℕ) (p : Packet) (ecc : EccList) (h : Only m s0 s)
  (hc : Sub 0x1000203318fe2 m) :
    Only m s0 (requestFate s i arrival p ecc) := by
  unfold requestFate
  repeat' first
    | with_reducible assumption
    | exact hc.mono rfl
    | intro _
    | lift_lets -underBinder
    | with_reducible (first | apply refuse_only | apply serve_only | apply crossTo_only | apply addPairSat_only | apply exitRequest_only)
    | with_reducible apply onlySkip
    | split
    | (conv => arg 3; zeta)


theorem checkArrived_only (o : ℕ) (p : Packet) (ecc : EccList) {s : State} (h : Only m s0 s) (hc : Sub 0x1000207318fe2 m) :
    Only m s0 (checkArrived o p ecc s) := by
  unfold checkArrived
  repeat' first
    | with_reducible assumption
    | exact hc.mono rfl
    | intro _
    | lift_lets -underBinder
    | with_reducible (first | apply quarantineLinks_only | apply refuse_only | apply noteViolation_only | apply keyRefused_only | apply egressRefused_only | apply requestFate_only)
    | with_reducible apply onlySkip
    | split


theorem requestByOutlet_only {s : State} (o : ℕ) (p0 : Packet) (ecc : EccList) (h : Only m s0 s) (hc : Sub 0x1000207318fe2 m) :
    Only m s0 (requestByOutlet s o p0 ecc) := by
  unfold requestByOutlet
  repeat' first
    | with_reducible assumption
    | exact hc.mono rfl
    | intro _
    | lift_lets -underBinder
    | with_reducible (first | apply arrive_only | apply checkArrived_only)
    | with_reducible apply onlySkip
    | split


theorem requestByBasin_only {s : State} (src : ℕ) (dst : ℕ) (p : Packet) (ecc : EccList) (h : Only m s0 s)
  (hc : Sub 0x1000203318fe2 m) :
    Only m s0 (requestByBasin s src dst p ecc) := by
  unfold requestByBasin
  repeat' first
    | with_reducible assumption
    | exact hc.mono rfl
    | intro _
    | lift_lets -underBinder
    | with_reducible (first | apply received_only | apply refuse_only | apply keyRefused_only | apply exitRequest_only | apply serve_only)
    | with_reducible apply onlySkip
    | split
    | (conv => arg 3; zeta)


theorem serveOwn_only {s : State} (i : ℕ) (r : OpenReq) (ecc : EccList) (h : Only m s0 s) (hc : Sub 0x1000203318fe2 m) :
    Only m s0 (serveOwn s i r ecc) := by
  unfold serveOwn
  repeat' first
    | with_reducible assumption
    | exact hc.mono rfl
    | (refine attachRead_only _ _ _ (by assumption) ?_ ?_)
    | intro _
    | lift_lets -underBinder
    | with_reducible (first | apply serve_only | apply modSite_only | apply openEntry_only)
    | split
    | (conv => arg 3; zeta)


theorem requestByOwn_only {s : State} (i : ℕ) (p0 : Packet) (ecc : EccList) (h : Only m s0 s) (hc : Sub 0x1000203318fe2 m) :
    Only m s0 (requestByOwn s i p0 ecc) := by
  unfold requestByOwn
  repeat' first
    | with_reducible assumption
    | exact hc.mono rfl
    | intro _
    | lift_lets -underBinder
    | with_reducible (first | apply emit_only | apply keyRefused_only | apply numberReq_only | apply sendReq_only | apply serveOwn_only | apply egressRefused_only)
    | with_reducible apply onlySkip
    | split
    | (conv => arg 3; zeta)


theorem request_only (via : Arrival) (p : Packet) (ecc : EccList) {s : State} (h : Only m s0 s) (hc : Sub 0x1000207318fe2 m) :
    Only m s0 (request via p ecc s) := by
  unfold request
  repeat' first
    | with_reducible assumption
    | exact hc.mono rfl
    | intro _
    | lift_lets -underBinder
    | with_reducible (first | apply requestByOutlet_only | apply requestByBasin_only | apply requestByOwn_only)
    | split
    | (conv => arg 3; zeta)


theorem readPacket_only (via : Arrival) (p : Packet) (ecc : EccList) {s : State} (h : Only m s0 s)
  (hc : Sub 0x1000207318fe2 m) :
    Only m s0 (readPacket via p ecc s) := by
  unfold readPacket
  repeat' first
    | with_reducible assumption
    | exact hc.mono rfl
    | intro _
    | lift_lets -underBinder
    | with_reducible apply request_only


theorem writePacket_only (via : Arrival) (p : Packet) {s : State} (h : Only m s0 s) (hc : Sub 0x1000207318fe2 m) :
    Only m s0 (writePacket via p s) := by
  unfold writePacket
  repeat' first
    | with_reducible assumption
    | exact hc.mono rfl
    | intro _
    | lift_lets -underBinder
    | with_reducible apply request_only


theorem atomicPacket_only (via : Arrival) (p : Packet) {s : State} (h : Only m s0 s) (hc : Sub 0x1000207318fe2 m) :
    Only m s0 (atomicPacket via p s) := by
  unfold atomicPacket
  repeat' first
    | with_reducible assumption
    | exact hc.mono rfl
    | intro _
    | lift_lets -underBinder
    | with_reducible apply request_only


theorem passReply_only (o : ℕ) (p : Packet) {s : State} (h : Only m s0 s) (hc : Sub 0x207118c22 m) :
    Only m s0 (passReply o p s) := by
  unfold passReply
  repeat' first
    | with_reducible assumption
    | exact hc.mono rfl
    | intro _
    | lift_lets -underBinder
    | with_reducible (first | apply quarantineLinks_only | apply noteViolation_only | apply keyRefused_only | apply copyTransit_only | apply discardReply_only | apply exitReply_only | apply crossTo_only | apply deliverReply_only | apply addPairSat_only)
    | with_reducible apply onlySkip
    | split
    | (conv => arg 3; zeta)


theorem replyByOutlet_only {s : State} (o : ℕ) (p0 : Packet) (h : Only m s0 s) (hc : Sub 0x207118c22 m) :
    Only m s0 (replyByOutlet s o p0) := by
  unfold replyByOutlet
  repeat' first
    | with_reducible assumption
    | exact hc.mono rfl
    | intro _
    | lift_lets -underBinder
    | with_reducible (first | apply arrive_only | apply passReply_only)
    | with_reducible apply onlySkip
    | split


theorem replyByBasin_only {s : State} (src : ℕ) (dst : ℕ) (p : Packet) (h : Only m s0 s) (hc : Sub 0x207118c22 m) :
    Only m s0 (replyByBasin s src dst p) := by
  unfold replyByBasin
  repeat' first
    | with_reducible assumption
    | exact hc.mono rfl
    | intro _
    | lift_lets -underBinder
    | with_reducible (first | apply received_only | apply keyRefused_only | apply exitReply_only | apply copyTransit_only | apply discardReply_only | apply quarantineLinks_only | apply deliverReply_only)
    | with_reducible apply onlySkip
    | split
    | (conv => arg 3; zeta)


theorem reply_only (via : Arrival) (p : Packet) {s : State} (h : Only m s0 s) (hc : Sub 0x207118c22 m) :
    Only m s0 (reply via p s) := by
  unfold reply
  repeat' first
    | with_reducible assumption
    | exact hc.mono rfl
    | intro _
    | lift_lets -underBinder
    | with_reducible (first | apply replyByOutlet_only | apply replyByBasin_only | apply deliverReply_only)
    | split
    | (conv => arg 3; zeta)


theorem readData_only (via : Arrival) (p : Packet) {s : State} (h : Only m s0 s) (hc : Sub 0x207118c22 m) :
    Only m s0 (readData via p s) := by
  unfold readData
  repeat' first
    | with_reducible assumption
    | exact hc.mono rfl
    | intro _
    | lift_lets -underBinder
    | with_reducible apply reply_only


theorem writeAck_only (via : Arrival) (p : Packet) {s : State} (h : Only m s0 s) (hc : Sub 0x207118c22 m) :
    Only m s0 (writeAck via p s) := by
  unfold writeAck
  repeat' first
    | with_reducible assumption
    | exact hc.mono rfl
    | intro _
    | lift_lets -underBinder
    | with_reducible apply reply_only


theorem atomicResult_only (via : Arrival) (p : Packet) {s : State} (h : Only m s0 s) (hc : Sub 0x207118c22 m) :
    Only m s0 (atomicResult via p s) := by
  unfold atomicResult
  repeat' first
    | with_reducible assumption
    | exact hc.mono rfl
    | intro _
    | lift_lets -underBinder
    | with_reducible apply reply_only


theorem refusal_only (via : Arrival) (p : Packet) {s : State} (h : Only m s0 s) (hc : Sub 0x207118c22 m) :
    Only m s0 (refusal via p s) := by
  unfold refusal
  repeat' first
    | with_reducible assumption
    | exact hc.mono rfl
    | intro _
    | lift_lets -underBinder
    | with_reducible apply reply_only


theorem weirMsgFrom_only {s : State} (i : ℕ) (arrival : Option ℕ) (p : Packet) (h : Only m s0 s) (hc : Sub 0x3008822 m) :
    Only m s0 (weirMsgFrom s i arrival p) := by
  unfold weirMsgFrom
  repeat' first
    | with_reducible assumption
    | exact hc.mono rfl
    | intro _
    | lift_lets -underBinder
    | with_reducible (first | apply emit_only | apply crossTo_only | apply addPairSat_only | apply exitReply_only)
    | with_reducible apply onlySkip
    | split
    | (conv => arg 3; zeta)


theorem passWeirMsg_only (o : ℕ) (p : Packet) {s : State} (h : Only m s0 s) (hc : Sub 0x207118c22 m) :
    Only m s0 (passWeirMsg o p s) := by
  unfold passWeirMsg
  repeat' first
    | with_reducible assumption
    | exact hc.mono rfl
    | intro _
    | with_reducible (first | apply quarantineLinks_only | apply noteViolation_only | apply refuse_only | apply keyRefused_only | apply weirMsgFrom_only)
    | with_reducible apply onlySkip
    | split


theorem weirMsg_only (via : Arrival) (p0 : Packet) {s : State} (h : Only m s0 s) (hc : Sub 0x207118c22 m) :
    Only m s0 (weirMsg via p0 s) := by
  unfold weirMsg
  repeat' first
    | with_reducible assumption
    | exact hc.mono rfl
    | intro _
    | lift_lets -underBinder
    | with_reducible (first | apply arrive_only | apply passWeirMsg_only | apply received_only | apply keyRefused_only | apply weirMsgFrom_only)
    | with_reducible apply onlySkip
    | split
    | (conv => arg 3; zeta)


theorem showSlew_only {s : State} (h : Only m s0 s) (hc : Sub 0x2 m) :
    Only m s0 (showSlew s) := by
  unfold showSlew
  repeat' first
    | with_reducible assumption
    | exact hc.mono rfl
    | with_reducible (first | apply putBit_only | apply putReg_only)


theorem beginSlew_only {s : State} (d : ℤ) (h : Only m s0 s) (hc : Sub 0x1002 m) :
    Only m s0 (beginSlew s d) := by
  unfold beginSlew
  repeat' first
    | with_reducible assumption
    | exact hc.mono rfl
    | intro _
    | lift_lets -underBinder
    | with_reducible (first | apply putReg_only | apply showSlew_only)
    | with_reducible apply only_time


theorem setAtBoundary_only {s : State} (t : ℕ) (h : Only m s0 s) (hc : Sub 0x1000 m) :
    Only m s0 (setAtBoundary s t) := by
  unfold setAtBoundary
  repeat' first
    | with_reducible assumption
    | exact hc.mono rfl
    | intro _
    | lift_lets -underBinder
    | with_reducible apply only_time


theorem applySetTime_only {s : State} (h : Only m s0 s) (hc : Sub 0x1022 m) :
    Only m s0 (applySetTime s) := by
  unfold applySetTime
  repeat' first
    | with_reducible assumption
    | exact hc.mono rfl
    | intro _
    | lift_lets -underBinder
    | with_reducible (first | apply putReg_only | apply showSlew_only)
    | split
    | with_reducible apply only_flagsNow_time
    | (conv => arg 3; zeta)


theorem linkFlit_only (o : ℕ) (number : ℕ) (good : Bool) {s : State} (h : Only m s0 s) (hc : Sub 0x2000802 m) :
    Only m s0 (linkFlit o number good s) := by
  unfold linkFlit
  repeat' first
    | with_reducible assumption
    | exact hc.mono rfl
    | intro _
    | lift_lets -underBinder
    | with_reducible (first | apply emit_only | apply addPairSat_only | apply modLink_only)
    | with_reducible apply onlySkip
    | split


theorem transmit_only {s : State} (o : ℕ) (p : Packet) (h : Only m s0 s) (hc : Sub 0x2000802 m) :
    Only m s0 (transmit s o p) := by
  unfold transmit
  repeat' first
    | with_reducible assumption
    | exact hc.mono rfl
    | intro _
    | lift_lets -underBinder
    | with_reducible (first | apply modLink_only | apply emit_only | apply addPairSat_only)
    | with_reducible apply onlySkip
    | split


theorem linkControlWord_only (o : ℕ) (ack : ℕ) (again : Option ℕ) (credits : ℕ) (reserved : List (ℕ × ℕ)) {s : State}
  (h : Only m s0 s) (hc : Sub 0x2000822 m) :
    Only m s0 (linkControlWord o ack again credits reserved s) := by
  unfold linkControlWord
  repeat' first
    | with_reducible assumption
    | exact hc.mono rfl
    | intro t (ht : Only m s0 t)
    | intro _
    | lift_lets -underBinder
    | with_reducible (first | apply modLink_only | apply emit_only | apply raiseFlag_only | apply addPairSat_only)
    | with_reducible (first | apply onlySkip | apply onlyFold)
    | split
    | (conv => arg 3; zeta)


theorem laneState_only {s : State} (o : ℕ) (h : Only m s0 s) (hc : Sub 0x207118c22 m) :
    Only m s0 (laneState s o) := by
  unfold laneState
  repeat' first
    | with_reducible assumption
    | exact hc.mono rfl
    | intro _
    | lift_lets -underBinder
    | with_reducible (first | apply linkGoesDown_only | apply setLinkState_only)
    | with_reducible apply onlySkip
    | split


theorem failLane_only {s : State} (o : ℕ) (lane : ℕ) (h : Only m s0 s) (hc : Sub 0x207118c22 m) :
    Only m s0 (failLane s o lane) := by
  unfold failLane
  repeat' first
    | with_reducible assumption
    | exact hc.mono rfl
    | intro _
    | lift_lets -underBinder
    | with_reducible (first | apply raiseFlag_only | apply putBit_only | apply raise_only | apply modLink_only | apply laneState_only)
    | with_reducible apply onlySkip
    | split


theorem fibreSwap_only (o : ℕ) (lane : ℕ) {s : State} (h : Only m s0 s) (hc : Sub 0x207118c22 m) :
    Only m s0 (fibreSwap o lane s) := by
  unfold fibreSwap
  repeat' first
    | with_reducible assumption
    | exact hc.mono rfl
    | intro _
    | lift_lets -underBinder
    | with_reducible (first | apply putField_only | apply raiseFlag_only | apply putBit_only | apply modLink_only | apply laneState_only | apply raise_only)
    | with_reducible apply onlySkip
    | split
    | (conv => arg 3; zeta)


theorem helloTimeout_only (o : ℕ) {s : State} (h : Only m s0 s) (hc : Sub 0x207118c22 m) :
    Only m s0 (helloTimeout o s) := by
  unfold helloTimeout
  repeat' first
    | with_reducible assumption
    | exact hc.mono rfl
    | intro _
    | with_reducible apply linkGoesDown_only
    | with_reducible apply onlySkip
    | split


theorem opticsSleep_only {s : State} (o : ℕ) (h : Only m s0 s) (hc : Sub 0x22 m) :
    Only m s0 (opticsSleep s o) := by
  unfold opticsSleep
  repeat' first
    | with_reducible assumption
    | exact hc.mono rfl
    | intro _
    | lift_lets -underBinder
    | with_reducible (first | apply putField_only | apply raiseFlag_only)


theorem opticsWake_only {s : State} (o : ℕ) (h : Only m s0 s) (hc : Sub 0x22 m) :
    Only m s0 (opticsWake s o) := by
  unfold opticsWake
  repeat' first
    | with_reducible assumption
    | exact hc.mono rfl
    | intro _
    | lift_lets -underBinder
    | with_reducible (first | apply raiseFlag_only | apply putField_only)
    | with_reducible apply onlySkip
    | split


theorem discoveryStart_only {s : State} (h : Only m s0 s) (hc : Sub 0x22 m) :
    Only m s0 (discoveryStart s) := by
  unfold discoveryStart
  repeat' first
    | with_reducible assumption
    | exact hc.mono rfl
    | intro t (ht : Only m s0 t)
    | intro _
    | lift_lets -underBinder
    | with_reducible (first | apply putField_only | apply opticsSleep_only | apply setLinkState_only)
    | with_reducible (first | apply onlySkip | apply onlyFold)
    | split
    | (conv => arg 3; zeta)


theorem endWake_only {s : State} (o : ℕ) (h : Only m s0 s) (hc : Sub 0xa402000c22 m) :
    Only m s0 (endWake s o) := by
  unfold endWake
  repeat' first
    | with_reducible assumption
    | exact hc.mono rfl
    | intro _
    | lift_lets -underBinder
    | with_reducible (first | apply endActivity_only | apply modLink_only)
    | with_reducible apply onlySkip
    | split
    | (conv => arg 3; zeta)


theorem linkTrained_only (o : ℕ) {s : State} (h : Only m s0 s) (hc : Sub 0xa607118c22 m) :
    Only m s0 (linkTrained o s) := by
  unfold linkTrained
  repeat' first
    | with_reducible assumption
    | exact hc.mono rfl
    | intro _
    | lift_lets -underBinder
    | with_reducible (first | apply putReg_only | apply modLink_only | apply endWake_only | apply sendFirmware_only | apply laneState_only | apply setLinkState_only)
    | with_reducible apply onlySkip
    | split
    | (conv => arg 3; zeta)


theorem messageTaken_only {s : State} (o : ℕ) (flits : ℕ) (h : Only m s0 s) (hc : Sub 0x800 m) :
    Only m s0 (messageTaken s o flits) := by
  unfold messageTaken
  repeat' first
    | with_reducible assumption
    | exact hc.mono rfl
    | with_reducible apply emit_only


theorem neighbourHello_only (o : ℕ) (f : NHello) {s0' : State} (hs0' : Only m s0 s0') (hc : Sub 0x207118c22 m) :
    Only m s0 (neighbourHello o f s0') := by
  unfold neighbourHello
  repeat' first
    | with_reducible assumption
    | exact hc.mono rfl
    | intro _
    | lift_lets -underBinder
    | with_reducible (first | apply messageTaken_only | apply raiseFlag_only | apply linkGoesDown_only | apply raise_only | apply modLink_only | apply putReg_only | apply putField_only | apply floodOwn_only)
    | with_reducible apply onlySkip
    | split
    | with_reducible apply only_fabric


theorem helloRepeat_only {s : State} (h : Only m s0 s) (hc : Sub 0x2000000 m) :
    Only m s0 (helloRepeat s) := by
  unfold helloRepeat
  repeat' first
    | with_reducible assumption
    | exact hc.mono rfl
    | intro t (ht : Only m s0 t)
    | intro _
    | with_reducible apply sendFirmware_only
    | with_reducible apply onlyFold


theorem learnAndFlood_only {s : State} (o : ℕ) (f : LinkStateF) (h : Only m s0 s) (hc : Sub 0x6000022 m) :
    Only m s0 (learnAndFlood s o f) := by
  unfold learnAndFlood
  repeat' first
    | with_reducible assumption
    | exact hc.mono rfl
    | intro _
    | lift_lets -underBinder
    | with_reducible (first | apply learn_only | apply flood_only)
    | with_reducible apply onlySkip
    | split


theorem resumeFabric_only {s : State} (h : Only m s0 s) (hc : Sub 0x6000022 m) :
    Only m s0 (resumeFabric s) := by
  unfold resumeFabric
  repeat' first
    | with_reducible assumption
    | exact hc.mono rfl
    | intro t (ht : Only m s0 t)
    | intro _
    | lift_lets -underBinder
    | with_reducible (first | apply learnAndFlood_only | apply floodOwn_only)
    | with_reducible (first | apply onlySkip | apply onlyFold)
    | split
    | with_reducible apply only_fabric


theorem linkStateMsg_only (o : ℕ) (f : LinkStateF) {s0' : State} (hs0' : Only m s0 s0') (hc : Sub 0x207118c22 m) :
    Only m s0 (linkStateMsg o f s0') := by
  unfold linkStateMsg
  repeat' first
    | with_reducible assumption
    | exact hc.mono rfl
    | intro _
    | lift_lets -underBinder
    | with_reducible (first | apply messageTaken_only | apply quarantineLinks_only | apply noteViolation_only | apply learnAndFlood_only)
    | with_reducible apply onlySkip
    | split
    | with_reducible apply only_fabric


theorem convergenceTimer_only {s : State} (h : Only m s0 s) (hc : Sub 0x4000022 m) :
    Only m s0 (convergenceTimer s) := by
  unfold convergenceTimer
  repeat' first
    | with_reducible assumption
    | exact hc.mono rfl
    | intro _
    | with_reducible (first | apply showTree_only | apply putField_only | apply loadRoutes_only)
    | with_reducible apply onlySkip
    | split


theorem timeSyncPeriod_only {s : State} (h : Only m s0 s) (hc : Sub 0x2000000 m) :
    Only m s0 (timeSyncPeriod s) := by
  unfold timeSyncPeriod
  repeat' first
    | with_reducible assumption
    | exact hc.mono rfl
    | intro _
    | lift_lets -underBinder
    | with_reducible apply sendFirmware_only
    | with_reducible apply onlySkip
    | split
    | (conv => arg 3; zeta)


theorem timeSync_only (o : ℕ) (t1 : ℕ) (t2 : ℕ) (t3 : ℕ) (t4 : ℕ) {s0' : State} (hs0' : Only m s0 s0')
  (hc : Sub 0x2000207119c22 m) :
    Only m s0 (timeSync o t1 t2 t3 t4 s0') := by
  unfold timeSync
  repeat' first
    | with_reducible assumption
    | exact hc.mono rfl
    | intro _
    | lift_lets -underBinder
    | with_reducible (first | apply messageTaken_only | apply quarantineLinks_only | apply noteViolation_only | apply putReg_only | apply putBit_only | apply raiseFlag_only | apply setAtBoundary_only | apply beginSlew_only)
    | with_reducible apply onlySkip
    | split
    | with_reducible (first | apply only_fabric | apply only_freeCount)
    | (conv => arg 3; zeta)


theorem linkSleepEnter_only (o : ℕ) {s : State} (h : Only m s0 s) (hc : Sub 0xa607118c22 m) :
    Only m s0 (linkSleepEnter o s) := by
  unfold linkSleepEnter
  repeat' first
    | with_reducible assumption
    | exact hc.mono rfl
    | intro _
    | lift_lets -underBinder
    | with_reducible (first | apply linkGoesDown_only | apply opticsSleep_only | apply modLink_only | apply endActivity_only)
    | with_reducible apply onlySkip
    | split
    | (conv => arg 3; zeta)


theorem discardStores_only {s : State} (o : ℕ) (h : Only m s0 s) (hc : Sub 0x203110402 m) :
    Only m s0 (discardStores s o) := by
  unfold discardStores
  repeat' first
    | with_reducible assumption
    | exact hc.mono rfl
    | intro t (ht : Only m s0 t)
    | intro _
    | lift_lets -underBinder
    | with_reducible (first | apply modSite_only | apply modLink_only | apply addPairSat_only | apply finishReq_only)
    | with_reducible (first | apply onlySkip | apply onlyFold)
    | split
    | (conv => arg 3; zeta)


theorem egressDrainTimeout_only (o : ℕ) {s : State} (h : Only m s0 s) (hc : Sub 0x207118c22 m) :
    Only m s0 (egressDrainTimeout o s) := by
  unfold egressDrainTimeout
  repeat' first
    | with_reducible assumption
    | exact hc.mono rfl
    | intro _
    | lift_lets -underBinder
    | with_reducible (first | apply modSite_only | apply discardStores_only | apply linkGoesDown_only)
    | with_reducible apply onlySkip
    | split
    | (conv => arg 3; zeta)


theorem showRefresh_only {s : State} (i : ℕ) (h : Only m s0 s) (hc : Sub 0x2 m) :
    Only m s0 (showRefresh s i) := by
  unfold showRefresh
  repeat' first
    | with_reducible assumption
    | exact hc.mono rfl
    | intro t (ht : Only m s0 t)
    | intro _
    | lift_lets -underBinder
    | with_reducible (first | apply putReg_only | apply putField_only)
    | with_reducible apply onlyFold


theorem hbmRefresh_only (i : ℕ) (bank : ℕ) {s : State} (h : Only m s0 s) (hc : Sub 0x1000002 m) :
    Only m s0 (hbmRefresh i bank s) := by
  unfold hbmRefresh
  repeat' first
    | with_reducible assumption
    | exact hc.mono rfl
    | intro _
    | lift_lets -underBinder
    | with_reducible (first | apply putSite_only | apply showRefresh_only)
    | with_reducible apply onlySkip
    | split
    | (conv => arg 3; zeta)


theorem refreshManagementRequest_only (i : ℕ) (bank : ℕ) {s : State} (h : Only m s0 s) (hc : Sub 0x1000000 m) :
    Only m s0 (refreshManagementRequest i bank s) := by
  unfold refreshManagementRequest
  repeat' first
    | with_reducible assumption
    | exact hc.mono rfl
    | intro _
    | lift_lets -underBinder
    | with_reducible apply modSite_only
    | with_reducible apply onlySkip
    | split


theorem scrubMoves_only {s : State} (i : ℕ) (pond : Bool) (line : ℕ) (h : Only m s0 s) (hc : Sub 0x2 m) :
    Only m s0 (scrubMoves s i pond line) := by
  unfold scrubMoves
  repeat' first
    | with_reducible assumption
    | exact hc.mono rfl
    | intro _
    | with_reducible (first | apply addPairSat_only | apply putReg_only)
    | with_reducible apply onlySkip
    | split


theorem scrubRuns_only {s : State} (i : ℕ) (a : ℕ) (h : Only m s0 s) (hc : Sub 0x1008000 m) :
    Only m s0 (scrubRuns s i a) := by
  unfold scrubRuns
  repeat' first
    | with_reducible assumption
    | exact hc.mono rfl
    | intro _
    | lift_lets -underBinder
    | with_reducible (first | apply modSite_only | apply repairReport_only)
    | with_reducible apply onlySkip
    | split


theorem scrub_only (i : ℕ) (pond : Bool) (line : ℕ) (outcome : EccOutcome) {s : State} (h : Only m s0 s)
  (hc : Sub 0x1008302 m) :
    Only m s0 (scrub i pond line outcome s) := by
  unfold scrub
  repeat' first
    | with_reducible assumption
    | exact hc.mono rfl
    | intro _
    | lift_lets -underBinder
    | with_reducible (first | apply scrubMoves_only | apply scrubRuns_only | apply modSite_only | apply lineDecoded_only)
    | with_reducible apply onlySkip
    | split
    | (conv => arg 3; zeta)


end Sys2Proof.Machine
end

