-- ==== Sys2Proof/Laws/FrameSites.lean ====
section
/-! SUPPORT. Frame lemmas: steps, crossings, Abango, activities, host registers and function resets. -/

namespace Sys2Proof.Machine

variable {m : Nat} {s0 : State}

theorem pondRails_only {s : State} (mv : ℕ) (h : Only m s0 s) (hc : Sub 0x2 m) :
    Only m s0 (pondRails s mv) := by
  unfold pondRails
  repeat' first
    | with_reducible assumption
    | exact hc.mono rfl
    | intro t (ht : Only m s0 t)
    | intro _
    | with_reducible apply putField_only
    | with_reducible (first | apply onlySkip | apply onlyFold)
    | split


theorem startChange_only {s : State} (target : ℕ) (c' : ℕ) (window : Option ℕ) (h : Only m s0 s) (hc : Sub 0x2802 m) :
    Only m s0 (startChange s target c' window) := by
  unfold startChange
  repeat' first
    | with_reducible assumption
    | exact hc.mono rfl
    | intro t (ht : Only m s0 t)
    | intro _
    | lift_lets -underBinder
    | with_reducible (first | apply pondRails_only | apply putReg_only | apply putBit_only | apply putField_only | apply emit_only)
    | with_reducible (first | apply onlySkip | apply onlyFold)
    | split
    | with_reducible apply only_clock


theorem endChange_only {s : State} (h : Only m s0 s) (hc : Sub 0x100020331afe2 m) :
    Only m s0 (endChange s) := by
  unfold endChange
  repeat' first
    | with_reducible assumption
    | exact hc.mono rfl
    | intro t (ht : Only m s0 t)
    | intro _
    | lift_lets -underBinder
    | with_reducible (first | apply wakeStack_only | apply putBit_only)
    | with_reducible (first | apply onlySkip | apply onlyFold)
    | split
    | with_reducible apply only_clock


theorem leaveReset_only {s : State} (i : ℕ) (h : Only m s0 s) (hc : Sub 0x2800 m) :
    Only m s0 (leaveReset s i) := by
  unfold leaveReset
  repeat' first
    | with_reducible assumption
    | exact hc.mono rfl
    | intro _
    | lift_lets -underBinder
    | with_reducible apply sideUp_only
    | with_reducible apply only_clock


theorem pondReturns_only {s : State} (i : ℕ) (h : Only m s0 s) (hc : Sub 0x2800 m) :
    Only m s0 (pondReturns s i) := by
  unfold pondReturns
  repeat' first
    | with_reducible assumption
    | exact hc.mono rfl
    | intro _
    | lift_lets -underBinder
    | with_reducible apply leaveReset_only
    | with_reducible apply onlySkip
    | split
    | with_reducible apply only_clock


theorem releaseExits_only {s : State} (h : Only m s0 s) (hc : Sub 0x2800 m) :
    Only m s0 (releaseExits s) := by
  unfold releaseExits
  repeat' first
    | with_reducible assumption
    | exact hc.mono rfl
    | intro t (ht : Only m s0 t)
    | intro _
    | with_reducible apply leaveReset_only
    | with_reducible (first | apply onlySkip | apply onlyFold)
    | split


theorem restoreStep_only {s : State} (h : Only m s0 s) (hc : Sub 0x2802 m) :
    Only m s0 (restoreStep s) := by
  unfold restoreStep
  repeat' first
    | with_reducible assumption
    | exact hc.mono rfl
    | intro _
    | lift_lets -underBinder
    | with_reducible apply startChange_only
    | with_reducible apply onlySkip
    | split
    | with_reducible apply only_clock
    | (conv => arg 3; zeta)


theorem abandonChange_only {s : State} (missing : ℕ) (h : Only m s0 s) (hc : Sub 0x1000e0331afe2 m) :
    Only m s0 (abandonChange s missing) := by
  unfold abandonChange
  repeat' first
    | with_reducible assumption
    | exact hc.mono rfl
    | intro t (ht : Only m s0 t)
    | intro _
    | lift_lets -underBinder
    | with_reducible (first | apply putField_only | apply endChange_only | apply raiseFlag_only | apply emit_only | apply commit_only | apply pondRails_only | apply raise_only | apply answerWaiting_only | apply restoreStep_only)
    | with_reducible (first | apply onlySkip | apply onlyFold)
    | split
    | (conv => arg 3; zeta)


theorem arm_only (i : ℕ) {s : State} (h : Only m s0 s) (hc : Sub 0x800 m) :
    Only m s0 (arm i s) := by
  unfold arm
  repeat' first
    | with_reducible assumption
    | exact hc.mono rfl
    | intro _
    | lift_lets -underBinder
    | with_reducible (first | apply emit_only | apply commit_only)
    | with_reducible apply onlySkip
    | split
    | (conv => arg 3; zeta)


theorem stepArmed_only (i : ℕ) {s : State} (h : Only m s0 s) (hc : Sub 0x2000 m) :
    Only m s0 (stepArmed i s) := by
  unfold stepArmed
  repeat' first
    | with_reducible assumption
    | exact hc.mono rfl
    | intro _
    | lift_lets -underBinder
    | with_reducible apply commit_only
    | with_reducible apply onlySkip
    | split
    | with_reducible apply only_clock
    | (conv => arg 3; zeta)


theorem stepDeadline_only {s : State} (h : Only m s0 s) (hc : Sub 0x1000e0331afe2 m) :
    Only m s0 (stepDeadline s) := by
  unfold stepDeadline
  repeat' first
    | with_reducible assumption
    | exact hc.mono rfl
    | intro t (ht : Only m s0 t)
    | intro _
    | lift_lets -underBinder
    | with_reducible (first | apply commit_only | apply abandonChange_only)
    | with_reducible (first | apply onlySkip | apply onlyFold)
    | split
    | with_reducible apply only_clock
    | (conv => arg 3; zeta)


theorem hbmStepQuiesce_only {s : State} (h : Only m s0 s) (hc : Sub 0x2 m) :
    Only m s0 (hbmStepQuiesce s) := by
  unfold hbmStepQuiesce
  repeat' first
    | with_reducible assumption
    | exact hc.mono rfl
    | intro t (ht : Only m s0 t)
    | intro _
    | lift_lets -underBinder
    | with_reducible (first | apply commit_only | apply putBit_only)
    | with_reducible (first | apply onlySkip | apply onlyFold)
    | split
    | (conv => arg 3; zeta)


theorem stepCommit_only {s : State} (h : Only m s0 s) (hc : Sub 0x1000e0331afe2 m) :
    Only m s0 (stepCommit s) := by
  unfold stepCommit
  repeat' first
    | with_reducible assumption
    | exact hc.mono rfl
    | intro _
    | lift_lets -underBinder
    | with_reducible (first | apply releaseExits_only | apply commit_only | apply endChange_only | apply putField_only | apply pondRails_only | apply answerWaiting_only)
    | with_reducible apply onlySkip
    | split
    | with_reducible apply only_clock
    | (conv => arg 3; zeta)


theorem holdover_only {s : State} (p : ℕ) (h : Only m s0 s) (hc : Sub 0x1000e0731afe2 m) :
    Only m s0 (holdover s p) := by
  unfold holdover
  repeat' first
    | with_reducible assumption
    | exact hc.mono rfl
    | intro t (ht : Only m s0 t)
    | intro _
    | lift_lets -underBinder
    | with_reducible (first | apply putBit_only | apply raise_only | apply linkGoesDown_only | apply putField_only | apply abandonChange_only)
    | with_reducible (first | apply onlySkip | apply onlyFold)
    | split
    | with_reducible apply only_clock


theorem loseRef_only {s : State} (r : ℕ) (h : Only m s0 s) (hc : Sub 0x1000e0731afe2 m) :
    Only m s0 (loseRef s r) := by
  unfold loseRef
  repeat' first
    | with_reducible assumption
    | exact hc.mono rfl
    | intro t (ht : Only m s0 t)
    | intro _
    | with_reducible apply holdover_only
    | with_reducible (first | apply onlySkip | apply onlyFold)
    | split


theorem refMonitorWindow_only (r : RefIn) (edges : ℕ) {s : State} (h : Only m s0 s) (hc : Sub 0x1000e0731afe2 m) :
    Only m s0 (refMonitorWindow r edges s) := by
  unfold refMonitorWindow
  repeat' first
    | with_reducible assumption
    | exact hc.mono rfl
    | intro _
    | lift_lets -underBinder
    | with_reducible (first | apply putField_only | apply raiseFlag_only | apply putBit_only | apply loseRef_only | apply raise_only)
    | with_reducible apply onlySkip
    | split
    | with_reducible apply only_clock


theorem correctCopy_only {s : State} (e : ℕ × ℤ) (h : Only m s0 s) (hc : Sub 0x9022 m) :
    Only m s0 (correctCopy s e) := by
  unfold correctCopy
  repeat' first
    | with_reducible assumption
    | exact hc.mono rfl
    | intro _
    | lift_lets -underBinder
    | with_reducible (first | apply raise_only | apply raiseFlag_only)
    | with_reducible apply onlySkip
    | split
    | with_reducible apply only_time


theorem bandSettings_only {s : State} (h : Only m s0 s) (hc : Sub 0x1000000 m) :
    Only m s0 (bandSettings s) := by
  unfold bandSettings
  repeat' first
    | with_reducible assumption
    | exact hc.mono rfl
    | intro t (ht : Only m s0 t)
    | intro _
    | lift_lets -underBinder
    | with_reducible (first | apply modSite_only | apply caps_only | apply offer_only | apply limit_only)
    | with_reducible (first | apply onlySkip | apply onlyFold)
    | split


theorem timeBeacon_only (extra : List (ℕ × ℤ)) {s : State} (h : Only m s0 s) (hc : Sub 0x1009822 m) :
    Only m s0 (timeBeacon extra s) := by
  unfold timeBeacon
  repeat' first
    | with_reducible assumption
    | exact hc.mono rfl
    | intro t (ht : Only m s0 t)
    | intro _
    | lift_lets -underBinder
    | with_reducible (first | apply putReg_only | apply emit_only | apply putBit_only | apply bandSettings_only | apply correctCopy_only)
    | with_reducible (first | apply onlySkip | apply onlyFold)
    | split
    | with_reducible apply only_time
    | (conv => arg 3; zeta)


theorem timeBackupCopy_only {s : State} (h : Only m s0 s) (hc : Sub 0x1000 m) :
    Only m s0 (timeBackupCopy s) := by
  unfold timeBackupCopy
  repeat' first
    | with_reducible assumption
    | exact hc.mono rfl
    | intro _
    | lift_lets -underBinder
    | with_reducible apply onlySkip
    | split
    | with_reducible apply only_time
    | (conv => arg 3; zeta)


theorem cutMove_only {s : State} (c' : ℕ) (id : ℕ) (h : Only m s0 s) (hc : Sub 0x1000002 m) :
    Only m s0 (cutMove s c' id) := by
  unfold cutMove
  repeat' first
    | with_reducible assumption
    | exact hc.mono rfl
    | intro _
    | lift_lets -underBinder
    | with_reducible (first | apply move_only | apply putSite_only | apply addPairSat_only)
    | with_reducible apply onlySkip
    | split


theorem resetMoves_only {s : State} (i : ℕ) (p : ℕ → MoveRec → Bool) (h : Only m s0 s) (hc : Sub 0x1000001038802 m) :
    Only m s0 (resetMoves s i p) := by
  unfold resetMoves
  repeat' first
    | with_reducible assumption
    | exact hc.mono rfl
    | intro t (ht : Only m s0 t)
    | intro _
    | lift_lets -underBinder
    | with_reducible (first | apply endMove_only | apply cutMove_only)
    | with_reducible apply onlyFold
    | split
    | (conv => arg 3; zeta)


theorem resetHeld_only {s : State} (i : ℕ) (h : Only m s0 s) (hc : Sub 0x203118c22 m) :
    Only m s0 (resetHeld s i) := by
  unfold resetHeld
  repeat' first
    | with_reducible assumption
    | exact hc.mono rfl
    | intro t (ht : Only m s0 t)
    | intro _
    | lift_lets -underBinder
    | with_reducible (first | apply modSite_only | apply refuse_only | apply reply_only | apply modMove_only | apply copyAnswered_only)
    | with_reducible apply onlyFold
    | split
    | (conv => arg 3; zeta)


theorem dropSharer_only {s : State} (t : ℕ) (h : Only m s0 s) (hc : Sub 0x203318fe2 m) :
    Only m s0 (dropSharer s t) := by
  unfold dropSharer
  repeat' first
    | with_reducible assumption
    | exact hc.mono rfl
    | intro t (ht : Only m s0 t)
    | intro _
    | lift_lets -underBinder
    | with_reducible (first | apply invalAck_only | apply modSite_only)
    | with_reducible apply onlyFold


theorem resetToward_only {s : State} (i : ℕ) (h : Only m s0 s) (hc : Sub 0x203118c22 m) :
    Only m s0 (resetToward s i) := by
  unfold resetToward
  repeat' first
    | with_reducible assumption
    | exact hc.mono rfl
    | intro t (ht : Only m s0 t)
    | intro _
    | with_reducible apply deliverReply_only
    | with_reducible (first | apply onlySkip | apply onlyFold)
    | split


theorem clearTxch_only {s : State} (i : ℕ) (h : Only m s0 s) (hc : Sub 0x6 m) :
    Only m s0 (clearTxch s i) := by
  unfold clearTxch
  repeat' first
    | with_reducible assumption
    | exact hc.mono rfl
    | intro t (ht : Only m s0 t)
    | intro _
    | lift_lets -underBinder
    | with_reducible (first | apply dropRegs_only | apply putField_only)
    | with_reducible (first | apply onlySkip | apply onlyFold)
    | split


theorem clearPort_only {s : State} (i : ℕ) (h : Only m s0 s) (hc : Sub 0x1000006 m) :
    Only m s0 (clearPort s i) := by
  unfold clearPort
  repeat' first
    | with_reducible assumption
    | exact hc.mono rfl
    | intro _
    | lift_lets -underBinder
    | with_reducible (first | apply putSite_only | apply clearTxch_only | apply addPairSat_only)
    | with_reducible apply onlySkip
    | split


theorem beginDrain_only {s : State} (o : ℕ) (h : Only m s0 s) (hc : Sub 0x1000000 m) :
    Only m s0 (beginDrain s o) := by
  unfold beginDrain
  repeat' first
    | with_reducible assumption
    | exact hc.mono rfl
    | intro _
    | lift_lets -underBinder
    | with_reducible apply modSite_only
    | with_reducible apply onlySkip
    | split


theorem restartNego_only {s : State} (i : ℕ) (h : Only m s0 s) (hc : Sub 0x1000002 m) :
    Only m s0 (restartNego s i) := by
  unfold restartNego
  repeat' first
    | with_reducible assumption
    | exact hc.mono rfl
    | intro _
    | lift_lets -underBinder
    | with_reducible (first | apply modAbango_only | apply caps_only | apply offer_only | apply limit_only | apply putBit_only)


theorem crossEffects_only {s : State} (kind : CrossKind) (i : ℕ) (d : Side) (h : Only m s0 s) (hc : Sub 0x100020333afe6 m) :
    Only m s0 (crossEffects s kind i d) := by
  unfold crossEffects
  repeat' first
    | with_reducible assumption
    | exact hc.mono rfl
    | intro _
    | lift_lets -underBinder
    | with_reducible (first | apply resetMoves_only | apply resetHeld_only | apply restartNego_only | apply siteResetRuns_only | apply resetToward_only | apply dropSharer_only | apply beginDrain_only | apply clearPort_only)
    | split
    | with_reducible apply only_clock
    | (conv => arg 3; zeta)


theorem crossingPartnerReset_only (x : Crossing) {s : State} (h : Only m s0 s) (hc : Sub 0x100020333efe6 m) :
    Only m s0 (crossingPartnerReset x s) := by
  unfold crossingPartnerReset
  repeat' first
    | with_reducible assumption
    | exact hc.mono rfl
    | intro _
    | lift_lets -underBinder
    | with_reducible (first | apply raise_only | apply crossEffects_only | apply refuseSide_only)


theorem acceptSide_only {s : State} (x : Crossing) (epoch : ℕ) (h : Only m s0 s) (hc : Sub 0x4000 m) :
    Only m s0 (acceptSide s x epoch) := by
  unfold acceptSide
  repeat' first
    | with_reducible assumption
    | exact hc.mono rfl
    | intro _
    | lift_lets -underBinder
    | with_reducible apply putCross_only


theorem partnerUp_only (x : Crossing) (epoch : ℕ) {s : State} (h : Only m s0 s) (hc : Sub 0x100e802 m) :
    Only m s0 (partnerUp x epoch s) := by
  unfold partnerUp
  repeat' first
    | with_reducible assumption
    | exact hc.mono rfl
    | intro _
    | lift_lets -underBinder
    | with_reducible (first | apply raise_only | apply acceptSide_only | apply pondReturns_only | apply reopenShare_only)
    | with_reducible apply onlySkip
    | split
    | with_reducible apply only_clock
    | (conv => arg 3; zeta)


theorem clearSiteRegs_only {s : State} (i : ℕ) (h : Only m s0 s) (hc : Sub 0x6 m) :
    Only m s0 (clearSiteRegs s i) := by
  unfold clearSiteRegs
  repeat' first
    | with_reducible assumption
    | exact hc.mono rfl
    | with_reducible apply dropRegs_only


theorem siteReset_only (i : ℕ) (cause : ℕ) {s : State} (h : Only m s0 s) (hc : Sub 0x100860733efe6 m) :
    Only m s0 (siteReset i cause s) := by
  unfold siteReset
  repeat' first
    | with_reducible assumption
    | exact hc.mono rfl
    | intro t (ht : Only m s0 t)
    | intro _
    | lift_lets -underBinder
    | with_reducible (first | apply putReg_only | apply putBit_only | apply modAbango_only | apply siteResetRuns_only | apply caps_only | apply offer_only | apply limit_only | apply crossEffects_only | apply refuseSide_only | apply fenceCore_only | apply offDomain_only | apply linkGoesDown_only | apply fwLog_only | apply clearSiteRegs_only)
    | with_reducible (first | apply onlySkip | apply onlyFold)
    | split
    | (conv => arg 3; zeta)


theorem putGroup_only {s : State} (i : ℕ) (d : Dir) (q : ℕ) (g : Group) (h : Only m s0 s) (hc : Sub 0x1000000 m) :
    Only m s0 (putGroup s i d q g) := by
  unfold putGroup
  repeat' first
    | with_reducible assumption
    | exact hc.mono rfl
    | intro _
    | lift_lets -underBinder
    | with_reducible (first | apply modAbango_only | apply caps_only | apply offer_only | apply limit_only)
    | split
    | (conv => arg 3; zeta)


theorem formMap_only {s : State} (i : ℕ) (d : Dir) (q : ℕ) (g : Group) (h : Only m s0 s) (hc : Sub 0x1008022 m) :
    Only m s0 (formMap s i d q g) := by
  unfold formMap
  repeat' first
    | with_reducible assumption
    | exact hc.mono rfl
    | intro _
    | lift_lets -underBinder
    | with_reducible (first | apply putGroup_only | apply putReg_only | apply putBit_only | apply raiseFlag_only | apply raise_only)
    | with_reducible apply onlySkip
    | split


theorem sendMsg_only {s : State} (i : ℕ) (type : ℕ) (payload : List ℕ) (h : Only m s0 s) (hc : Sub 0x1000800 m) :
    Only m s0 (sendMsg s i type payload) := by
  unfold sendMsg
  repeat' first
    | with_reducible assumption
    | exact hc.mono rfl
    | intro _
    | lift_lets -underBinder
    | with_reducible (first | apply modAbango_only | apply caps_only | apply offer_only | apply limit_only | apply emit_only | apply sideband_only)


theorem quarantineSite_only {s : State} (i : ℕ) (h : Only m s0 s) (hc : Sub 0x8002 m) :
    Only m s0 (quarantineSite s i) := by
  unfold quarantineSite
  repeat' first
    | with_reducible assumption
    | exact hc.mono rfl
    | intro _
    | with_reducible (first | apply raise_only | apply putBit_only)
    | with_reducible apply onlySkip
    | split


theorem sendRefuse_only {s : State} (i : ℕ) (code : ℕ) (type : ℕ) (seq : ℕ) (h : Only m s0 s) (hc : Sub 0x1008822 m) :
    Only m s0 (sendRefuse s i code type seq) := by
  unfold sendRefuse
  repeat' first
    | with_reducible assumption
    | exact hc.mono rfl
    | intro _
    | lift_lets -underBinder
    | with_reducible (first | apply emit_only | apply sideband_only | apply raiseFlag_only | apply addPairSat_only | apply modAbango_only | apply caps_only | apply offer_only | apply limit_only | apply quarantineSite_only)
    | with_reducible apply onlySkip
    | split


theorem violate_only {s : State} (i : ℕ) (code : ℕ) (type : ℕ) (seq : ℕ) (h : Only m s0 s) (hc : Sub 0x1008822 m) :
    Only m s0 (violate s i code type seq) := by
  unfold violate
  repeat' first
    | with_reducible assumption
    | exact hc.mono rfl
    | with_reducible (first | apply raise_only | apply sendRefuse_only)


theorem sideband_only {s : State} (i : ℕ) (h' : SbHead) (type : ℕ) (payload : List ℕ) (inOrder : Bool) (fits : Bool)
  (f : State → State) (h : Only m s0 s) (hff : ∀ (v0 : State), Only m s0 v0 → Only m s0 (f v0)) (hc : Sub 0x1008822 m) :
    Only m s0 (sideband s i h' type payload inOrder fits f) := by
  unfold sideband
  repeat' first
    | with_reducible assumption
    | exact hc.mono rfl
    | intro t (ht : Only m s0 t)
    | intro _
    | with_reducible apply hff
    | lift_lets -underBinder
    | with_reducible apply violate_only
    | with_reducible apply onlySkip
    | split
    | (conv => arg 3; zeta)


theorem sendHello_only {s : State} (i : ℕ) (h : Only m s0 s) (hc : Sub 0x1000800 m) :
    Only m s0 (sendHello s i) := by
  unfold sendHello
  repeat' first
    | with_reducible assumption
    | exact hc.mono rfl
    | intro _
    | lift_lets -underBinder
    | with_reducible apply sendMsg_only


theorem sendOffer_only {s : State} (i : ℕ) (h : Only m s0 s) (hc : Sub 0x1000800 m) :
    Only m s0 (sendOffer s i) := by
  unfold sendOffer
  repeat' first
    | with_reducible assumption
    | exact hc.mono rfl
    | with_reducible (first | apply sendMsg_only | apply offer_only)


theorem sendCommit_only {s : State} (i : ℕ) (h : Only m s0 s) (hc : Sub 0x1000800 m) :
    Only m s0 (sendCommit s i) := by
  unfold sendCommit
  repeat' first
    | with_reducible assumption
    | exact hc.mono rfl
    | with_reducible apply sendMsg_only


theorem sendLimit_only {s : State} (i : ℕ) (h : Only m s0 s) (hc : Sub 0x1000800 m) :
    Only m s0 (sendLimit s i) := by
  unfold sendLimit
  repeat' first
    | with_reducible assumption
    | exact hc.mono rfl
    | intro _
    | lift_lets -underBinder
    | with_reducible (first | apply sendMsg_only | apply modAbango_only | apply caps_only | apply offer_only | apply limit_only)


theorem sendLanes_only {s : State} (i : ℕ) (h : Only m s0 s) (hc : Sub 0x1000800 m) :
    Only m s0 (sendLanes s i) := by
  unfold sendLanes
  repeat' first
    | with_reducible assumption
    | exact hc.mono rfl
    | intro _
    | lift_lets -underBinder
    | with_reducible apply sendMsg_only


theorem bundleTraining_only (i : ℕ) (d : Dir) (q : ℕ) (tests : List (Fin 68 × LaneTest)) {s : State} (h : Only m s0 s)
  (hc : Sub 0x1008822 m) :
    Only m s0 (bundleTraining i d q tests s) := by
  unfold bundleTraining
  repeat' first
    | with_reducible assumption
    | exact hc.mono rfl
    | intro t (ht : Only m s0 t)
    | intro _
    | lift_lets -underBinder
    | with_reducible (first | apply formMap_only | apply sendLanes_only | apply putBit_only)
    | with_reducible (first | apply onlySkip | apply onlyFold)
    | split
    | (conv => arg 3; zeta)


theorem setNego_only {s : State} (i : ℕ) (n : Nego) (tries : ℕ) (h : Only m s0 s) (hc : Sub 0x1000000 m) :
    Only m s0 (setNego s i n tries) := by
  unfold setNego
  repeat' first
    | with_reducible assumption
    | exact hc.mono rfl
    | intro _
    | lift_lets -underBinder
    | with_reducible (first | apply modAbango_only | apply caps_only | apply offer_only | apply limit_only)


theorem endNego_only {s : State} (i : ℕ) (cause : ℕ) (h : Only m s0 s) (hc : Sub 0x1000000 m) :
    Only m s0 (endNego s i cause) := by
  unfold endNego
  repeat' first
    | with_reducible assumption
    | exact hc.mono rfl
    | intro _
    | lift_lets -underBinder
    | with_reducible (first | apply modAbango_only | apply caps_only | apply offer_only | apply limit_only)


theorem hello_only (i : ℕ) {s : State} (h : Only m s0 s) (hc : Sub 0x1000800 m) :
    Only m s0 (hello i s) := by
  unfold hello
  repeat' first
    | with_reducible assumption
    | exact hc.mono rfl
    | intro _
    | with_reducible (first | apply sendHello_only | apply setNego_only)
    | with_reducible apply onlySkip
    | split


theorem caps_only (i : ℕ) (h' : SbHead) (f : CapsF) {s : State} (h : Only m s0 s) (hc : Sub 0x1008822 m) :
    Only m s0 (caps i h' f s) := by
  unfold caps
  repeat' first
    | with_reducible assumption
    | exact hc.mono rfl
    | intro _
    | lift_lets -underBinder
    | with_reducible (first | apply sideband_only | apply endNego_only | apply violate_only | apply modAbango_only | apply putField_only | apply offer_only | apply limit_only)
    | with_reducible apply onlySkip
    | split
    | (conv => arg 3; zeta)


theorem offer_only (i : ℕ) {s : State} (h : Only m s0 s) (hc : Sub 0x1000800 m) :
    Only m s0 (offer i s) := by
  unfold offer
  repeat' first
    | with_reducible assumption
    | exact hc.mono rfl
    | intro _
    | lift_lets -underBinder
    | with_reducible (first | apply caps_only | apply sendOffer_only | apply setNego_only | apply modAbango_only | apply limit_only)
    | with_reducible apply onlySkip
    | split


theorem accept_only (i : ℕ) (h' : SbHead) (f : OfferF) {s : State} (h : Only m s0 s) (hc : Sub 0x1008822 m) :
    Only m s0 (accept i h' f s) := by
  unfold accept
  repeat' first
    | with_reducible assumption
    | exact hc.mono rfl
    | intro _
    | lift_lets -underBinder
    | with_reducible (first | apply sideband_only | apply offer_only | apply modAbango_only | apply caps_only)


theorem reject_only (i : ℕ) (h' : SbHead) (reason : Byte) {s : State} (h : Only m s0 s) (hc : Sub 0x1008822 m) :
    Only m s0 (reject i h' reason s) := by
  unfold reject
  repeat' first
    | with_reducible assumption
    | exact hc.mono rfl
    | intro t (ht : Only m s0 t)
    | intro _
    | lift_lets -underBinder
    | with_reducible (first | apply sideband_only | apply endNego_only)
    | with_reducible (first | apply onlySkip | apply onlyFold | apply onlyFold1)
    | split
    | (conv => arg 3; zeta)


theorem commit_only (i : ℕ) {s : State} (h : Only m s0 s) (hc : Sub 0x1004802 m) :
    Only m s0 (commit i s) := by
  unfold commit
  repeat' first
    | with_reducible assumption
    | exact hc.mono rfl
    | intro _
    | lift_lets -underBinder
    | with_reducible (first | apply offer_only | apply modAbango_only | apply caps_only | apply limit_only | apply putBit_only | apply putField_only | apply putCross_only | apply sendCommit_only)
    | with_reducible apply onlySkip
    | split


theorem lowerSite_only {s : State} (i : ℕ) (h : Only m s0 s) (hc : Sub 0x10002 m) :
    Only m s0 (lowerSite s i) := by
  unfold lowerSite
  repeat' first
    | with_reducible assumption
    | exact hc.mono rfl
    | intro t (ht : Only m s0 t)
    | intro _
    | lift_lets -underBinder
    | with_reducible apply rampCore_only
    | with_reducible (first | apply onlySkip | apply onlyFold)
    | split


theorem sidebandReplyTimeout_only (i : ℕ) {s : State} (h : Only m s0 s) (hc : Sub 0x1018822 m) :
    Only m s0 (sidebandReplyTimeout i s) := by
  unfold sidebandReplyTimeout
  repeat' first
    | with_reducible assumption
    | exact hc.mono rfl
    | intro _
    | lift_lets -underBinder
    | with_reducible (first | apply raise_only | apply endNego_only | apply sendHello_only | apply setNego_only | apply sendOffer_only | apply lowerSite_only | apply violate_only | apply modAbango_only | apply caps_only | apply offer_only | apply limit_only)
    | with_reducible apply onlySkip
    | split
    | (conv => arg 3; zeta)


theorem lanes_only (i : ℕ) (d : Dir) (h' : SbHead) (half : ℕ) (bad : List (Fin 32 × Fin 68)) {s : State} (h : Only m s0 s)
  (hc : Sub 0x1008822 m) :
    Only m s0 (lanes i d h' half bad s) := by
  unfold lanes
  repeat' first
    | with_reducible assumption
    | exact hc.mono rfl
    | intro t (ht : Only m s0 t)
    | intro _
    | lift_lets -underBinder
    | with_reducible (first | apply sideband_only | apply formMap_only | apply putGroup_only)
    | with_reducible (first | apply onlySkip | apply onlyFold)
    | split


theorem report_only (i : ℕ) (h' : SbHead) (f : ReportF) {s : State} (h : Only m s0 s) (hc : Sub 0x1018822 m) :
    Only m s0 (report i h' f s) := by
  unfold report
  repeat' first
    | with_reducible assumption
    | exact hc.mono rfl
    | intro _
    | lift_lets -underBinder
    | with_reducible (first | apply sideband_only | apply offer_only | apply limit_only | apply modAbango_only | apply caps_only | apply lowerSite_only | apply violate_only)
    | with_reducible apply onlySkip
    | split


theorem limit_only (i : ℕ) (watts : ℕ) {s : State} (h : Only m s0 s) (hc : Sub 0x1000800 m) :
    Only m s0 (limit i watts s) := by
  unfold limit
  repeat' first
    | with_reducible assumption
    | exact hc.mono rfl
    | intro _
    | lift_lets -underBinder
    | with_reducible (first | apply sendLimit_only | apply modAbango_only | apply caps_only | apply offer_only)
    | with_reducible apply onlySkip
    | split


theorem limitAck_only (i : ℕ) (h' : SbHead) (watts : ℕ) {s : State} (h : Only m s0 s) (hc : Sub 0x1018822 m) :
    Only m s0 (limitAck i h' watts s) := by
  unfold limitAck
  repeat' first
    | with_reducible assumption
    | exact hc.mono rfl
    | intro _
    | lift_lets -underBinder
    | with_reducible (first | apply sideband_only | apply modAbango_only | apply caps_only | apply offer_only | apply limit_only | apply lowerSite_only | apply violate_only)
    | with_reducible apply onlySkip
    | split


theorem refuseMsg_only (i : ℕ) (fromDie : Bool) (code : ℕ) (type : ℕ) (seq : ℕ) {s : State} (h : Only m s0 s)
  (hc : Sub 0x1008822 m) :
    Only m s0 (refuseMsg i fromDie code type seq s) := by
  unfold refuseMsg
  repeat' first
    | with_reducible assumption
    | exact hc.mono rfl
    | intro _
    | lift_lets -underBinder
    | with_reducible (first | apply violate_only | apply raiseFlag_only | apply emit_only | apply modAbango_only | apply caps_only | apply offer_only | apply limit_only | apply sideband_only)
    | with_reducible apply onlySkip
    | split


theorem reportLate_only (i : ℕ) {s : State} (h : Only m s0 s) (hc : Sub 0x1008822 m) :
    Only m s0 (reportLate i s) := by
  unfold reportLate
  repeat' first
    | with_reducible assumption
    | exact hc.mono rfl
    | intro _
    | lift_lets -underBinder
    | with_reducible (first | apply offer_only | apply modAbango_only | apply caps_only | apply limit_only | apply raiseFlag_only | apply violate_only | apply raise_only)
    | with_reducible apply onlySkip
    | split
    | (conv => arg 3; zeta)


theorem dieOff_only {s : State} (i : ℕ) (h : Only m s0 s) (hc : Sub 0x100860333efe6 m) :
    Only m s0 (dieOff s i) := by
  unfold dieOff
  repeat' first
    | with_reducible assumption
    | exact hc.mono rfl
    | intro t (ht : Only m s0 t)
    | intro _
    | lift_lets -underBinder
    | with_reducible (first | apply fenceCore_only | apply crossEffects_only | apply refuseSide_only | apply putBit_only | apply offDomain_only)
    | with_reducible apply onlyFold


theorem powerExcessTimeout_only (i : ℕ) {s : State} (h : Only m s0 s) (hc : Sub 0x100860333efe6 m) :
    Only m s0 (powerExcessTimeout i s) := by
  unfold powerExcessTimeout
  repeat' first
    | with_reducible assumption
    | exact hc.mono rfl
    | intro _
    | lift_lets -underBinder
    | with_reducible (first | apply dieOff_only | apply modAbango_only | apply caps_only | apply offer_only | apply limit_only)
    | with_reducible apply onlySkip
    | split
    | (conv => arg 3; zeta)


theorem abangoAlert_only (i : ℕ) {s : State} (h : Only m s0 s) (hc : Sub 0x1008800 m) :
    Only m s0 (abangoAlert i s) := by
  unfold abangoAlert
  repeat' first
    | with_reducible assumption
    | exact hc.mono rfl
    | intro _
    | lift_lets -underBinder
    | with_reducible (first | apply raise_only | apply modAbango_only | apply caps_only | apply offer_only | apply limit_only | apply sendLimit_only)
    | with_reducible apply onlySkip
    | split


theorem putFrame_only {s : State} (i : ℕ) (d : Dir) (q : ℕ) (f : FrameCtl) (payload : List Byte) (h : Only m s0 s)
  (hc : Sub 0x800 m) :
    Only m s0 (putFrame s i d q f payload) := by
  unfold putFrame
  repeat' first
    | with_reducible assumption
    | exact hc.mono rfl
    | with_reducible apply emit_only


theorem sendFrame_only {s : State} (i : ℕ) (d : Dir) (q : ℕ) (f : FrameCtl) (h : Only m s0 s) (hc : Sub 0x1000800 m) :
    Only m s0 (sendFrame s i d q f) := by
  unfold sendFrame
  repeat' first
    | with_reducible assumption
    | exact hc.mono rfl
    | intro _
    | lift_lets -underBinder
    | with_reducible (first | apply putFrame_only | apply putGroup_only)


theorem replayFrames_only {s : State} (i : ℕ) (d : Dir) (q : ℕ) (fs : List (FrameCtl × List Byte)) (h : Only m s0 s)
  (hc : Sub 0x1000802 m) :
    Only m s0 (replayFrames s i d q fs) := by
  unfold replayFrames
  repeat' first
    | with_reducible assumption
    | exact hc.mono rfl
    | intro t (ht : Only m s0 t)
    | intro _
    | lift_lets -underBinder
    | with_reducible (first | apply putFrame_only | apply putGroup_only | apply addPairSat_only)
    | with_reducible apply onlyFold


theorem answerPropose_only {s : State} (i : ℕ) (d : Dir) (q : ℕ) (h : Only m s0 s) (hc : Sub 0x1000800 m) :
    Only m s0 (answerPropose s i d q) := by
  unfold answerPropose
  repeat' first
    | with_reducible assumption
    | exact hc.mono rfl
    | intro _
    | lift_lets -underBinder
    | with_reducible (first | apply sendFrame_only | apply putGroup_only)
    | split
    | (conv => arg 3; zeta)


theorem propose_only (i : ℕ) (d : Dir) (q : ℕ) (lane : ℕ) {s : State} (h : Only m s0 s) (hc : Sub 0x1000800 m) :
    Only m s0 (propose i d q lane s) := by
  unfold propose
  repeat' first
    | with_reducible assumption
    | exact hc.mono rfl
    | intro _
    | lift_lets -underBinder
    | with_reducible (first | apply answerPropose_only | apply putGroup_only)
    | with_reducible apply onlySkip
    | split


theorem agree_only (i : ℕ) (d : Dir) (q : ℕ) (atSeq : ℕ) {s : State} (h : Only m s0 s) (hc : Sub 0x1008822 m) :
    Only m s0 (agree i d q atSeq s) := by
  unfold agree
  repeat' first
    | with_reducible assumption
    | exact hc.mono rfl
    | intro _
    | lift_lets -underBinder
    | with_reducible (first | apply putGroup_only | apply violate_only)
    | with_reducible apply onlySkip
    | split


theorem laneMapSwitch_only (i : ℕ) (d : Dir) (q : ℕ) {s : State} (h : Only m s0 s) (hc : Sub 0x1008822 m) :
    Only m s0 (laneMapSwitch i d q s) := by
  unfold laneMapSwitch
  repeat' first
    | with_reducible assumption
    | exact hc.mono rfl
    | intro _
    | lift_lets -underBinder
    | with_reducible (first | apply formMap_only | apply raiseFlag_only | apply addPairSat_only | apply raise_only | apply answerPropose_only)
    | with_reducible apply onlySkip
    | split
    | (conv => arg 3; zeta)


theorem proposeLanes_only {s : State} (i : ℕ) (d : Dir) (q : ℕ) (n : ℕ) (h : Only m s0 s) (hc : Sub 0x1000800 m) :
    Only m s0 (proposeLanes s i d q n) := by
  unfold proposeLanes
  repeat' first
    | with_reducible assumption
    | exact hc.mono rfl
    | intro t (ht : Only m s0 t)
    | intro _
    | lift_lets -underBinder
    | with_reducible (first | apply putGroup_only | apply sendFrame_only)
    | with_reducible apply onlyFold


theorem nakFrame_only {s : State} (i : ℕ) (d : Dir) (q : ℕ) (h : Only m s0 s) (hc : Sub 0x1000800 m) :
    Only m s0 (nakFrame s i d q) := by
  unfold nakFrame
  repeat' first
    | with_reducible assumption
    | exact hc.mono rfl
    | intro _
    | lift_lets -underBinder
    | with_reducible apply sendFrame_only


theorem takeControl_only {s : State} (i : ℕ) (d : Dir) (q : ℕ) (f : FrameCtl) (h : Only m s0 s) (hc : Sub 0x1008822 m) :
    Only m s0 (takeControl s i d q f) := by
  unfold takeControl
  repeat' first
    | with_reducible assumption
    | exact hc.mono rfl
    | intro _
    | lift_lets -underBinder
    | with_reducible (first | apply putGroup_only | apply replayFrames_only | apply propose_only | apply agree_only)
    | with_reducible apply onlySkip
    | split
    | (conv => arg 3; zeta)


theorem passFrame_only {s : State} (i : ℕ) (d : Dir) (q : ℕ) (f : FrameCtl) (payload : List Byte) (h : Only m s0 s)
  (hc : Sub 0x800 m) :
    Only m s0 (passFrame s i d q f payload) := by
  unfold passFrame
  repeat' first
    | with_reducible assumption
    | exact hc.mono rfl
    | intro _
    | lift_lets -underBinder
    | with_reducible apply emit_only
    | with_reducible apply onlySkip
    | split
    | (conv => arg 3; zeta)


theorem receiveFrame_only {s : State} (i : ℕ) (d : Dir) (q : ℕ) (f : FrameCtl) (payload : List Byte) (ns : List ℕ)
  (h : Only m s0 s) (hc : Sub 0x1008822 m) :
    Only m s0 (receiveFrame s i d q f payload ns) := by
  unfold receiveFrame
  repeat' first
    | with_reducible assumption
    | exact hc.mono rfl
    | intro _
    | lift_lets -underBinder
    | with_reducible (first | apply nakFrame_only | apply putGroup_only | apply passFrame_only | apply addPairSat_only | apply takeControl_only | apply proposeLanes_only | apply violate_only)
    | with_reducible apply onlySkip
    | split
    | (conv => arg 3; zeta)


theorem bundleFrame_only (i : ℕ) (d : Dir) (q : ℕ) (f : FrameCtl) (payload : List Byte) (wrong : List (Fin 68 × Fin 256))
  {s : State} (h : Only m s0 s) (hc : Sub 0x1008822 m) :
    Only m s0 (bundleFrame i d q f payload wrong s) := by
  unfold bundleFrame
  repeat' first
    | with_reducible assumption
    | exact hc.mono rfl
    | intro _
    | lift_lets -underBinder
    | with_reducible (first | apply putGroup_only | apply receiveFrame_only)
    | with_reducible apply onlySkip
    | split
    | (conv => arg 3; zeta)


theorem viaParityError_only (i : ℕ) (d : Dir) (q : ℕ) (failing : ℕ) {s : State} (h : Only m s0 s) (hc : Sub 0x1008022 m) :
    Only m s0 (viaParityError i d q failing s) := by
  unfold viaParityError
  repeat' first
    | with_reducible assumption
    | exact hc.mono rfl
    | intro _
    | lift_lets -underBinder
    | with_reducible (first | apply modAbango_only | apply caps_only | apply offer_only | apply limit_only | apply raiseFlag_only | apply addPairSat_only | apply putField_only | apply raise_only)
    | with_reducible apply onlySkip
    | split


theorem markMonitors_only {s : State} (g : ℕ) (l : ℕ) (b : Bool) (h : Only m s0 s) (hc : Sub 0x2 m) :
    Only m s0 (markMonitors s g l b) := by
  unfold markMonitors
  repeat' first
    | with_reducible assumption
    | exact hc.mono rfl
    | intro t (ht : Only m s0 t)
    | intro _
    | with_reducible apply putBit_only
    | with_reducible (first | apply onlySkip | apply onlyFold)
    | split


theorem markStale_only {s : State} (g : ℕ) (l : ℕ) (b : Bool) (h : Only m s0 s) (hc : Sub 0x2 m) :
    Only m s0 (markStale s g l b) := by
  unfold markStale
  repeat' first
    | with_reducible assumption
    | exact hc.mono rfl
    | intro t (ht : Only m s0 t)
    | intro _
    | lift_lets -underBinder
    | with_reducible (first | apply markMonitors_only | apply putBit_only)
    | with_reducible (first | apply onlySkip | apply onlyFold)
    | split


theorem showCalibrating_only {s : State} (g : ℕ) (l : ℕ) (b : Bool) (h : Only m s0 s) (hc : Sub 0x2 m) :
    Only m s0 (showCalibrating s g l b) := by
  unfold showCalibrating
  repeat' first
    | with_reducible assumption
    | exact hc.mono rfl
    | intro t (ht : Only m s0 t)
    | intro _
    | lift_lets -underBinder
    | with_reducible (first | apply putBit_only | apply putField_only)
    | with_reducible (first | apply onlySkip | apply onlyFold)
    | split


theorem flagSites_only {s : State} (b : ℕ) (h : Only m s0 s) (hc : Sub 0x22 m) :
    Only m s0 (flagSites s b) := by
  unfold flagSites
  repeat' first
    | with_reducible assumption
    | exact hc.mono rfl
    | intro t (ht : Only m s0 t)
    | intro _
    | with_reducible apply raiseFlag_only
    | with_reducible apply onlyFold


theorem countSites_only {s : State} (r : ℕ → ℕ) (h : Only m s0 s) (hc : Sub 0x2 m) :
    Only m s0 (countSites s r) := by
  unfold countSites
  repeat' first
    | with_reducible assumption
    | exact hc.mono rfl
    | intro t (ht : Only m s0 t)
    | intro _
    | with_reducible apply addPairSat_only
    | with_reducible apply onlyFold


theorem failIndex_only {s : State} (i : ℕ) (idx : ℕ) (h : Only m s0 s) (hc : Sub 0x1008822 m) :
    Only m s0 (failIndex s i idx) := by
  unfold failIndex
  repeat' first
    | with_reducible assumption
    | exact hc.mono rfl
    | intro t (ht : Only m s0 t)
    | intro _
    | lift_lets -underBinder
    | with_reducible (first | apply modSite_only | apply putField_only | apply placeIndex_only)
    | with_reducible (first | apply onlySkip | apply onlyFold)
    | split
    | (conv => arg 3; zeta)


theorem reviveIndex_only {s : State} (i : ℕ) (idx : ℕ) (h : Only m s0 s) (hc : Sub 0x1000002 m) :
    Only m s0 (reviveIndex s i idx) := by
  unfold reviveIndex
  repeat' first
    | with_reducible assumption
    | exact hc.mono rfl
    | intro t (ht : Only m s0 t)
    | intro _
    | lift_lets -underBinder
    | with_reducible (first | apply modSite_only | apply putField_only | apply tuneRing_only | apply lightMod_only)
    | with_reducible (first | apply onlySkip | apply onlyFold)
    | split
    | (conv => arg 3; zeta)


theorem reviveChannels_only {s : State} (h : Only m s0 s) (hc : Sub 0x1000002 m) :
    Only m s0 (reviveChannels s) := by
  unfold reviveChannels
  repeat' first
    | with_reducible assumption
    | exact hc.mono rfl
    | intro t (ht : Only m s0 t)
    | intro _
    | with_reducible apply reviveIndex_only
    | with_reducible (first | apply onlySkip | apply onlyFold)
    | split


theorem modAct_only {s : State} (n : ℕ) (f : Activity → Activity) (h : Only m s0 s) (hc : Sub 0x2000000000 m) :
    Only m s0 (modAct s n f) := by
  unfold modAct
  repeat' first
    | with_reducible assumption
    | exact hc.mono rfl
    | intro _
    | lift_lets -underBinder
    | with_reducible apply onlySkip
    | split
    | with_reducible apply only_acts


theorem pointCal_only {s : State} (n : ℕ) (c' : ℕ) (h : Only m s0 s) (hc : Sub 0x2000000002 m) :
    Only m s0 (pointCal s n c') := by
  unfold pointCal
  repeat' first
    | with_reducible assumption
    | exact hc.mono rfl
    | intro _
    | lift_lets -underBinder
    | with_reducible (first | apply modAct_only | apply markStale_only | apply showCalibrating_only)


theorem recoverPlls_only {s : State} (h : Only m s0 s) (hc : Sub 0x2000 m) :
    Only m s0 (recoverPlls s) := by
  unfold recoverPlls
  repeat' first
    | with_reducible assumption
    | exact hc.mono rfl
    | intro t (ht : Only m s0 t)
    | intro _
    | lift_lets -underBinder
    | with_reducible (first | apply onlySkip | apply onlyFold)
    | split
    | with_reducible apply only_clock


theorem beginWork_only {s : State} (a : Activity) (h : Only m s0 s) (hc : Sub 0x2001002002 m) :
    Only m s0 (beginWork s a) := by
  unfold beginWork
  repeat' first
    | with_reducible assumption
    | exact hc.mono rfl
    | intro _
    | lift_lets -underBinder
    | with_reducible (first | apply restartNego_only | apply modSite_only | apply showCalibrating_only | apply markStale_only | apply pointCal_only | apply recoverPlls_only)
    | with_reducible apply onlySkip
    | split


theorem showWeir_only {s : State} (h : Only m s0 s) (hc : Sub 0x2 m) :
    Only m s0 (showWeir s) := by
  unfold showWeir
  repeat' first
    | with_reducible assumption
    | exact hc.mono rfl
    | intro _
    | lift_lets -underBinder
    | with_reducible (first | apply putField_only | apply putBit_only)
    | with_reducible apply onlySkip
    | split
    | (conv => arg 3; zeta)


theorem abandonCal_only {s : State} (a : Activity) (forSpring : Bool) (h : Only m s0 s) (hc : Sub 0x2000000022 m) :
    Only m s0 (abandonCal s a forSpring) := by
  unfold abandonCal
  repeat' first
    | with_reducible assumption
    | exact hc.mono rfl
    | intro _
    | lift_lets -underBinder
    | with_reducible (first | apply modAct_only | apply flagSites_only | apply showCalibrating_only)
    | with_reducible apply onlySkip
    | split


theorem abandonCals_only {s : State} (forSpring : Bool) (clear : Bool) (p : Activity → Bool) (h : Only m s0 s)
  (hc : Sub 0x2000000022 m) :
    Only m s0 (abandonCals s forSpring clear p) := by
  unfold abandonCals
  repeat' first
    | with_reducible assumption
    | exact hc.mono rfl
    | intro t (ht : Only m s0 t)
    | intro _
    | lift_lets -underBinder
    | with_reducible (first | apply abandonCal_only | apply markStale_only)
    | with_reducible (first | apply onlySkip | apply onlyFold)
    | split
    | (conv => arg 3; zeta)


theorem clearStale_only {s : State} (h : Only m s0 s) (hc : Sub 0x2 m) :
    Only m s0 (clearStale s) := by
  unfold clearStale
  repeat' first
    | with_reducible assumption
    | exact hc.mono rfl
    | intro t (ht : Only m s0 t)
    | intro _
    | with_reducible apply markStale_only
    | with_reducible apply onlyFold
    | split


theorem beginGap_only {s : State} (g : Gap) (h : Only m s0 s) (hc : Sub 0xa400000022 m) :
    Only m s0 (beginGap s g) := by
  unfold beginGap
  repeat' first
    | with_reducible assumption
    | exact hc.mono rfl
    | intro t (ht : Only m s0 t)
    | intro _
    | lift_lets -underBinder
    | with_reducible (first | apply abandonCals_only | apply modWin_only)
    | with_reducible apply onlyFold
    | split
    | with_reducible apply only_weir
    | (conv => arg 3; zeta)


theorem declare_only {s : State} (g : Gap) (h : Only m s0 s) (hc : Sub 0xa400000022 m) :
    Only m s0 (declare s g) := by
  unfold declare
  repeat' first
    | with_reducible assumption
    | exact hc.mono rfl
    | intro _
    | lift_lets -underBinder
    | with_reducible (first | apply beginGap_only | apply offDomain_only | apply rampDomain_only)
    | with_reducible apply onlySkip
    | split


theorem startAct_only {s : State} (a : Activity) (h : Only m s0 s) (hc : Sub 0xa401002022 m) :
    Only m s0 (startAct s a) := by
  unfold startAct
  repeat' first
    | with_reducible assumption
    | exact hc.mono rfl
    | intro _
    | lift_lets -underBinder
    | with_reducible (first | apply journalStep_only | apply modAct_only | apply declare_only | apply beginWork_only)
    | with_reducible apply onlySkip
    | split
    | with_reducible apply only_weir


theorem startQueued_only {s : State} (h : Only m s0 s) (hc : Sub 0xa401002022 m) :
    Only m s0 (startQueued s) := by
  unfold startQueued
  repeat' first
    | with_reducible assumption
    | exact hc.mono rfl
    | intro t (ht : Only m s0 t)
    | intro _
    | with_reducible apply startAct_only
    | with_reducible (first | apply onlySkip | apply onlyFold)
    | split


theorem requestAct_only {s : State} (a : Activity) (h : Only m s0 s) (hc : Sub 0xe401002022 m) :
    Only m s0 (requestAct s a).1 := by
  unfold requestAct
  repeat' first
    | with_reducible assumption
    | exact hc.mono rfl
    | intro _
    | lift_lets -underBinder
    | with_reducible (first | apply addActivity_only | apply startAct_only)
    | with_reducible apply onlySkip
    | split


theorem putEntry_only {s : State} (r : ℕ) (v : ℕ) (h : Only m s0 s) (hc : Sub 0x2 m) :
    Only m s0 (putEntry s r v) := by
  unfold putEntry
  repeat' first
    | with_reducible assumption
    | exact hc.mono rfl
    | with_reducible apply putReg_only


theorem loadImage_only {s : State} (bs : List Byte) (sites : List ℕ) (h : Only m s0 s) (hc : Sub 0x2 m) :
    Only m s0 (loadImage s bs sites) := by
  unfold loadImage
  repeat' first
    | with_reducible assumption
    | exact hc.mono rfl
    | intro t (ht : Only m s0 t)
    | intro _
    | lift_lets -underBinder
    | with_reducible apply putEntry_only
    | with_reducible apply onlyFold


theorem putFlash_only {s : State} (w : ℕ) (t : Table Byte) (h : Only m s0 s) (hc : Sub 0x800000000000 m) :
    Only m s0 (putFlash s w t) := by
  unfold putFlash
  repeat' first
    | with_reducible assumption
    | exact hc.mono rfl
    | intro _
    | lift_lets -underBinder
    | with_reducible apply onlySkip
    | split
    | with_reducible apply only_flash


theorem flashErase_only {s : State} (w : ℕ) (o : ℕ) (n : ℕ) (h : Only m s0 s) (hc : Sub 0x800000000000 m) :
    Only m s0 (flashErase s w o n) := by
  unfold flashErase
  repeat' first
    | with_reducible assumption
    | exact hc.mono rfl
    | with_reducible apply putFlash_only


theorem flashPut_only {s : State} (w : ℕ) (o : ℕ) (bs : List Byte) (h : Only m s0 s) (hc : Sub 0x800000000000 m) :
    Only m s0 (flashPut s w o bs) := by
  unfold flashPut
  repeat' first
    | with_reducible assumption
    | exact hc.mono rfl
    | intro _
    | lift_lets -underBinder
    | with_reducible apply putFlash_only
    | with_reducible apply onlySkip
    | split


theorem writeCalImage_only {s : State} (h : Only m s0 s) (hc : Sub 0x800000000000 m) :
    Only m s0 (writeCalImage s) := by
  unfold writeCalImage
  repeat' first
    | with_reducible assumption
    | exact hc.mono rfl
    | intro t (ht : Only m s0 t)
    | intro _
    | lift_lets -underBinder
    | with_reducible (first | apply flashPut_only | apply flashErase_only)
    | with_reducible apply onlyFold
    | with_reducible apply only_flash


theorem finishWork_only {s : State} (a : Activity) (status : ℕ) (detail : ℕ) (m' : List Byte) (h : Only m s0 s)
  (hc : Sub 0x80000100abc2 m) :
    Only m s0 (finishWork s a status detail m').1 := by
  unfold finishWork
  repeat' first
    | with_reducible assumption
    | exact hc.mono rfl
    | intro t (ht : Only m s0 t)
    | intro _
    | lift_lets -underBinder
    | with_reducible (first | apply modSite_only | apply firmwareWrite_only | apply markStale_only | apply showCalibrating_only | apply writeCalImage_only | apply loadImage_only | apply putBit_only | apply restoreStep_only | apply flashErase_only | apply flashPut_only)
    | with_reducible (first | apply onlySkip | apply onlyFold | apply onlyFold1)
    | split
    | (conv => arg 3; zeta)


theorem activityDone_only (n : ℕ) (status : ℕ) (detail : ℕ) (m' : List Byte) {s : State} (h : Only m s0 s)
  (hc : Sub 0x80a40100afe2 m) :
    Only m s0 (activityDone n status detail m' s) := by
  unfold activityDone
  repeat' first
    | with_reducible assumption
    | exact hc.mono rfl
    | intro _
    | lift_lets -underBinder
    | with_reducible (first | apply finishWork_only | apply startQueued_only | apply endActivity_only)
    | with_reducible apply onlySkip
    | split
    | (conv => arg 3; zeta)


theorem relightMod_only {s : State} (i : ℕ) (m' : ℕ) (h : Only m s0 s) (hc : Sub 0x1000000 m) :
    Only m s0 (relightMod s i m') := by
  unfold relightMod
  repeat' first
    | with_reducible assumption
    | exact hc.mono rfl
    | intro _
    | lift_lets -underBinder
    | with_reducible apply modSite_only
    | with_reducible apply onlySkip
    | split


theorem acceptCal_only {s : State} (g : ℕ) (l : ℕ) (vs : List CalPair) (h : Only m s0 s) (hc : Sub 0x800001000012 m) :
    Only m s0 (acceptCal s g l vs) := by
  unfold acceptCal
  repeat' first
    | with_reducible assumption
    | exact hc.mono rfl
    | intro t (ht : Only m s0 t)
    | intro _
    | lift_lets -underBinder
    | with_reducible (first | apply endUpset_only | apply putEntry_only | apply countSites_only | apply markStale_only | apply relightMod_only | apply modSite_only)
    | with_reducible (first | apply onlySkip | apply onlyFold)
    | split
    | with_reducible apply only_flash


theorem rejectCal_only {s : State} (g : ℕ) (l : ℕ) (h : Only m s0 s) (hc : Sub 0x1008822 m) :
    Only m s0 (rejectCal s g l) := by
  unfold rejectCal
  repeat' first
    | with_reducible assumption
    | exact hc.mono rfl
    | intro _
    | lift_lets -underBinder
    | with_reducible (first | apply countSites_only | apply flagSites_only | apply markStale_only | apply raise_only | apply failIndex_only)


theorem calNext_only {s : State} (a : Activity) (g : ℕ) (l : ℕ) (status : ℕ) (h : Only m s0 s) (hc : Sub 0xa401002c22 m) :
    Only m s0 (calNext s a g l status) := by
  unfold calNext
  repeat' first
    | with_reducible assumption
    | exact hc.mono rfl
    | intro _
    | lift_lets -underBinder
    | with_reducible (first | apply startQueued_only | apply endActivity_only | apply showCalibrating_only | apply markStale_only | apply pointCal_only | apply modAct_only)
    | with_reducible apply onlySkip
    | split


theorem calibrationDone_only (n : ℕ) (vs : List CalPair) {s : State} (h : Only m s0 s) (hc : Sub 0x80a40100ac32 m) :
    Only m s0 (calibrationDone n vs s) := by
  unfold calibrationDone
  repeat' first
    | with_reducible assumption
    | exact hc.mono rfl
    | intro _
    | lift_lets -underBinder
    | with_reducible (first | apply journalStep_only | apply calNext_only | apply acceptCal_only | apply rejectCal_only | apply modAct_only | apply markStale_only | apply showCalibrating_only)
    | with_reducible apply onlySkip
    | split
    | (conv => arg 3; zeta)


theorem calImageWrite_only {s : State} (h : Only m s0 s) (hc : Sub 0x800000000000 m) :
    Only m s0 (calImageWrite s) := by
  unfold calImageWrite
  repeat' first
    | with_reducible assumption
    | exact hc.mono rfl
    | intro _
    | with_reducible apply writeCalImage_only
    | with_reducible apply onlySkip
    | split


theorem takeRole_only {s : State} (r : ℕ) (y1 : Option ℕ) (h : Only m s0 s) (hc : Sub 0x2 m) :
    Only m s0 (takeRole s r y1) := by
  unfold takeRole
  repeat' first
    | with_reducible assumption
    | exact hc.mono rfl
    | intro _
    | with_reducible apply putBit_only
    | with_reducible apply onlySkip
    | split


theorem combsGain_only {s : State} (p : ℕ) (h : Only m s0 s) (hc : Sub 0x2 m) :
    Only m s0 (combsGain s p) := by
  unfold combsGain
  repeat' first
    | with_reducible assumption
    | exact hc.mono rfl
    | intro t (ht : Only m s0 t)
    | intro _
    | lift_lets -underBinder
    | with_reducible apply putBit_only
    | with_reducible (first | apply onlySkip | apply onlyFold)
    | split


theorem feedFrom_only {s : State} (n p : Nat) (h : Only m s0 s) (hc : Sub 0x2 m) : Only m s0 (feedFrom s n p) :=
  takeRole_only _ _ (combsGain_only _ (putField_only _ _ _ _ (putField_only _ _ _ _ h hc) hc) hc) hc

theorem warmSpring_only {s : State} (n : ℕ) (h : Only m s0 s) (hc : Sub 0x100000000002 m) :
    Only m s0 (warmSpring s n) := by
  unfold warmSpring
  repeat' first
    | with_reducible assumption
    | exact hc.mono rfl
    | intro _
    | lift_lets -underBinder
    | with_reducible (first | apply rampDomain_only | apply putSpring_only | apply putField_only)


theorem springDown_only {s : State} (n : ℕ) (cause : SpringFault) (h : Only m s0 s) (hc : Sub 0x102000008022 m) :
    Only m s0 (springDown s n cause) := by
  unfold springDown
  repeat' first
    | with_reducible assumption
    | exact hc.mono rfl
    | intro _
    | lift_lets -underBinder
    | with_reducible (first | apply putSpring_only | apply putField_only | apply putBit_only | apply raiseFlag_only | apply offDomain_only | apply putReg_only | apply abandonCals_only | apply raise_only)
    | with_reducible apply onlySkip
    | split
    | (conv => arg 3; zeta)


theorem springFailed_only (n : ℕ) (cause : SpringFault) {s : State} (h : Only m s0 s) (hc : Sub 0x102000008022 m) :
    Only m s0 (springFailed n cause s) := by
  unfold springFailed
  repeat' first
    | with_reducible assumption
    | exact hc.mono rfl
    | intro _
    | with_reducible apply springDown_only
    | with_reducible apply onlySkip
    | split


theorem takeSpare_only {s : State} (ok : ℕ → Bool) (h : Only m s0 s) (hc : Sub 0x100000000002 m) :
    Only m s0 (takeSpare s ok) := by
  unfold takeSpare
  repeat' first
    | with_reducible assumption
    | exact hc.mono rfl
    | intro _
    | lift_lets -underBinder
    | with_reducible (first | apply warmSpring_only | apply putSpring_only)
    | split
    | (conv => arg 3; zeta)


theorem springRestore_only {s : State} (h : Only m s0 s) (hc : Sub 0x100000000002 m) :
    Only m s0 (springRestore s) := by
  unfold springRestore
  repeat' first
    | with_reducible assumption
    | exact hc.mono rfl
    | intro _
    | with_reducible apply takeSpare_only
    | with_reducible apply onlySkip
    | split


theorem switchIn_only {s : State} (n : ℕ) (p : ℕ) (h : Only m s0 s) (hc : Sub 0x110000000022 m) :
    Only m s0 (switchIn s n p) := by
  unfold switchIn
  repeat' first
    | with_reducible assumption
    | exact hc.mono rfl
    | intro t (ht : Only m s0 t)
    | intro _
    | lift_lets -underBinder
    | with_reducible (first | apply putField_only | apply putBit_only | apply raiseFlag_only | apply feedFrom_only | apply putSpring_only)
    | with_reducible (first | apply onlySkip | apply onlyFold)
    | split
    | with_reducible apply only_record
    | (conv => arg 3; zeta)


theorem switchWaiting_only {s : State} (h : Only m s0 s) (hc : Sub 0x110000000022 m) :
    Only m s0 (switchWaiting s) := by
  unfold switchWaiting
  repeat' first
    | with_reducible assumption
    | exact hc.mono rfl
    | intro t (ht : Only m s0 t)
    | intro _
    | lift_lets -underBinder
    | with_reducible apply switchIn_only
    | with_reducible (first | apply onlySkip | apply onlyFold)
    | split
    | (conv => arg 3; zeta)


theorem springLocked_only (n : ℕ) {s : State} (h : Only m s0 s) (hc : Sub 0x110000000022 m) :
    Only m s0 (springLocked n s) := by
  unfold springLocked
  repeat' first
    | with_reducible assumption
    | exact hc.mono rfl
    | intro _
    | lift_lets -underBinder
    | with_reducible (first | apply putField_only | apply putBit_only | apply switchIn_only | apply feedFrom_only)
    | with_reducible apply onlySkip
    | split
    | (conv => arg 3; zeta)


theorem combinerFeedLoss_only (c' : ℕ) (second : Bool) {s : State} (h : Only m s0 s) (hc : Sub 0x8002 m) :
    Only m s0 (combinerFeedLoss c' second s) := by
  unfold combinerFeedLoss
  repeat' first
    | with_reducible assumption
    | exact hc.mono rfl
    | intro _
    | lift_lets -underBinder
    | with_reducible (first | apply putBit_only | apply raise_only)
    | with_reducible apply onlySkip
    | split


theorem combinerResume_only (c' : ℕ) {s : State} (h : Only m s0 s) (hc : Sub 0x2 m) :
    Only m s0 (combinerResume c' s) := by
  unfold combinerResume
  repeat' first
    | with_reducible assumption
    | exact hc.mono rfl
    | intro _
    | lift_lets -underBinder
    | with_reducible apply putBit_only
    | with_reducible apply onlySkip
    | split
    | (conv => arg 3; zeta)


theorem loseChannel_only {s : State} (o : ℕ) (lane : ℕ) (l : ℕ) (h : Only m s0 s) (hc : Sub 0x207118c22 m) :
    Only m s0 (loseChannel s o lane l) := by
  unfold loseChannel
  repeat' first
    | with_reducible assumption
    | exact hc.mono rfl
    | intro _
    | lift_lets -underBinder
    | with_reducible (first | apply modLink_only | apply raiseFlag_only | apply raise_only | apply failLane_only)
    | with_reducible apply onlySkip
    | split
    | (conv => arg 3; zeta)


theorem detector_only (r : Receiver) (bit : ℕ) (code : ℕ) (count : ℕ → ℕ) {s : State} (h : Only m s0 s)
  (hc : Sub 0x207118c22 m) :
    Only m s0 (detector r bit code count s) := by
  unfold detector
  repeat' first
    | with_reducible assumption
    | exact hc.mono rfl
    | intro _
    | lift_lets -underBinder
    | with_reducible (first | apply raiseFlag_only | apply addPairSat_only | apply raise_only | apply failRing_only | apply loseChannel_only)
    | with_reducible apply onlySkip
    | split
    | (conv => arg 3; zeta)


theorem lossOfSignal_only (r : Receiver) (set : Bool) {s : State} (h : Only m s0 s) (hc : Sub 0x207118c22 m) :
    Only m s0 (lossOfSignal r set s) := by
  unfold lossOfSignal
  repeat' first
    | with_reducible assumption
    | exact hc.mono rfl
    | intro _
    | with_reducible apply detector_only
    | with_reducible apply onlySkip
    | split


theorem lossOfLock_only (r : Receiver) (set : Bool) {s : State} (h : Only m s0 s) (hc : Sub 0x207118c22 m) :
    Only m s0 (lossOfLock r set s) := by
  unfold lossOfLock
  repeat' first
    | with_reducible assumption
    | exact hc.mono rfl
    | intro _
    | with_reducible apply detector_only
    | with_reducible apply onlySkip
    | split


theorem countReseed_only {s : State} (f : LineFrame) (y1 : Receiver) (h : Only m s0 s) (hc : Sub 0x22 m) :
    Only m s0 (countReseed s f y1) := by
  unfold countReseed
  repeat' first
    | with_reducible assumption
    | exact hc.mono rfl
    | intro _
    | lift_lets -underBinder
    | with_reducible (first | apply raiseFlag_only | apply addPairSat_only)
    | with_reducible apply onlySkip
    | split
    | (conv => arg 3; zeta)


theorem passLine_only {s : State} (i : ℕ) (ring : ℕ) (f : LineFrame) (h : Only m s0 s) (hc : Sub 0x800 m) :
    Only m s0 (passLine s i ring f) := by
  unfold passLine
  repeat' first
    | with_reducible assumption
    | exact hc.mono rfl
    | intro _
    | with_reducible apply emit_only
    | with_reducible apply onlySkip
    | split


theorem channelFrame_only (r : Receiver) (f : LineFrame) (wrong : List (Fin 16384)) {s : State} (h : Only m s0 s)
  (hc : Sub 0x1008822 m) :
    Only m s0 (channelFrame r f wrong s) := by
  unfold channelFrame
  repeat' first
    | with_reducible assumption
    | exact hc.mono rfl
    | intro _
    | lift_lets -underBinder
    | with_reducible (first | apply countReseed_only | apply addPairSat_only | apply raiseFlag_only | apply emit_only | apply modSite_only | apply passLine_only | apply failRing_only)
    | with_reducible apply onlySkip
    | split
    | (conv => arg 3; zeta)


theorem clampTrip_only (o : ℕ) (fibres : BitVec 6) {s : State} (h : Only m s0 s) (hc : Sub 0x8022 m) :
    Only m s0 (clampTrip o fibres s) := by
  unfold clampTrip
  repeat' first
    | with_reducible assumption
    | exact hc.mono rfl
    | intro _
    | lift_lets -underBinder
    | with_reducible (first | apply putField_only | apply raiseFlag_only | apply addPairSat_only | apply putBit_only | apply raise_only)
    | split
    | (conv => arg 3; zeta)


theorem clampReopen_only (o : ℕ) (valid : Bool) {s : State} (h : Only m s0 s) (hc : Sub 0x2000002 m) :
    Only m s0 (clampReopen o valid s) := by
  unfold clampReopen
  repeat' first
    | with_reducible assumption
    | exact hc.mono rfl
    | intro _
    | lift_lets -underBinder
    | with_reducible (first | apply modLink_only | apply putBit_only | apply putField_only)
    | with_reducible apply onlySkip
    | split
    | (conv => arg 3; zeta)


theorem pairMismatch_only {s : State} (h : Only m s0 s) (hc : Sub 0x802a m) :
    Only m s0 (pairMismatch s) := by
  unfold pairMismatch
  repeat' first
    | with_reducible assumption
    | exact hc.mono rfl
    | intro _
    | lift_lets -underBinder
    | with_reducible (first | apply raise_only | apply raiseFlag_only)
    | split
    | with_reducible apply only_firstWrite
    | (conv => arg 3; zeta)


theorem pairFirstWrite_only (value : Word) {s : State} (h : Only m s0 s) (hc : Sub 0x802a m) :
    Only m s0 (pairFirstWrite value s) := by
  unfold pairFirstWrite
  repeat' first
    | with_reducible assumption
    | exact hc.mono rfl
    | intro _
    | lift_lets -underBinder
    | with_reducible apply pairMismatch_only
    | with_reducible apply onlySkip
    | split
    | with_reducible apply only_firstWrite
    | (conv => arg 3; zeta)


theorem globalResetGo_only (complement : Word) {s : State} (h : Only m s0 s) (hc : Sub 0x20000000802a m) :
    Only m s0 (globalResetGo complement s) := by
  unfold globalResetGo
  repeat' first
    | with_reducible assumption
    | exact hc.mono rfl
    | intro _
    | lift_lets -underBinder
    | with_reducible apply pairMismatch_only
    | with_reducible apply onlySkip
    | split
    | with_reducible (first | apply only_firstWrite | apply only_start)
    | (conv => arg 3; zeta)


theorem clearCperf_only {s : State} (c' : ℕ) (h : Only m s0 s) (hc : Sub 0x2 m) :
    Only m s0 (clearCperf s c') := by
  unfold clearCperf
  repeat' first
    | with_reducible assumption
    | exact hc.mono rfl
    | intro t (ht : Only m s0 t)
    | intro _
    | with_reducible apply putReg_only
    | with_reducible apply onlyFold


theorem writeCperf_only {s : State} (c' : ℕ) (clear : Bool) (freeze : Bool) (enable : Bool) (h : Only m s0 s)
  (hc : Sub 0x12 m) :
    Only m s0 (writeCperf s c' clear freeze enable) := by
  unfold writeCperf
  repeat' first
    | with_reducible assumption
    | exact hc.mono rfl
    | intro _
    | lift_lets -underBinder
    | with_reducible (first | apply clearCperf_only | apply putReg_only | apply putBit_only | apply endUpset_only)
    | with_reducible apply onlySkip
    | split
    | (conv => arg 3; zeta)


theorem cperfClear_only (c' : ℕ) (freeze : Bool) (enable : Bool) {s : State} (h : Only m s0 s) (hc : Sub 0x12 m) :
    Only m s0 (cperfClear c' freeze enable s) := by
  unfold cperfClear
  repeat' first
    | with_reducible assumption
    | exact hc.mono rfl
    | with_reducible apply writeCperf_only


theorem cperfFreeze_only (c' : ℕ) (on : Bool) {s : State} (h : Only m s0 s) (hc : Sub 0x12 m) :
    Only m s0 (cperfFreeze c' on s) := by
  unfold cperfFreeze
  repeat' first
    | with_reducible assumption
    | exact hc.mono rfl
    | with_reducible apply writeCperf_only


theorem cperfEnable_only (c' : ℕ) (on : Bool) {s : State} (h : Only m s0 s) (hc : Sub 0x12 m) :
    Only m s0 (cperfEnable c' on s) := by
  unfold cperfEnable
  repeat' first
    | with_reducible assumption
    | exact hc.mono rfl
    | with_reducible apply writeCperf_only


theorem writeDmaCtl_only {s : State} (ch : ℕ) (v : ℕ) (h : Only m s0 s) (hc : Sub 0x12 m) :
    Only m s0 (writeDmaCtl s ch v) := by
  unfold writeDmaCtl
  repeat' first
    | with_reducible assumption
    | exact hc.mono rfl
    | intro _
    | lift_lets -underBinder
    | with_reducible (first | apply endUpset_only | apply putReg_only | apply dmaStat_only)
    | with_reducible apply onlySkip
    | split
    | (conv => arg 3; zeta)


theorem dmaChannelDisable_only (ch : ℕ) (on : Bool) {s : State} (h : Only m s0 s) (hc : Sub 0x12 m) :
    Only m s0 (dmaChannelDisable ch on s) := by
  unfold dmaChannelDisable
  repeat' first
    | with_reducible assumption
    | exact hc.mono rfl
    | with_reducible apply writeDmaCtl_only


theorem dmaChannelPriority_only (ch : ℕ) (p : ℕ) {s : State} (h : Only m s0 s) (hc : Sub 0x12 m) :
    Only m s0 (dmaChannelPriority ch p s) := by
  unfold dmaChannelPriority
  repeat' first
    | with_reducible assumption
    | exact hc.mono rfl
    | with_reducible apply writeDmaCtl_only


theorem clearFlags_only {s : State} (off : ℕ) (v : ℕ) (h : Only m s0 s) (hc : Sub 0x2 m) :
    Only m s0 (clearFlags s off v) := by
  unfold clearFlags
  repeat' first
    | with_reducible assumption
    | exact hc.mono rfl
    | intro _
    | lift_lets -underBinder
    | with_reducible apply putReg_only


theorem writeDmaFlags_only {s : State} (ch : ℕ) (v : ℕ) (h : Only m s0 s) (hc : Sub 0x2 m) :
    Only m s0 (writeDmaFlags s ch v) := by
  unfold writeDmaFlags
  repeat' first
    | with_reducible assumption
    | exact hc.mono rfl
    | intro _
    | lift_lets -underBinder
    | with_reducible (first | apply clearFlags_only | apply putBit_only | apply dmaStat_only)
    | with_reducible apply onlySkip
    | split


theorem dmaHaltClear_only (ch : ℕ) {s : State} (h : Only m s0 s) (hc : Sub 0x2 m) :
    Only m s0 (dmaHaltClear ch s) := by
  unfold dmaHaltClear
  repeat' first
    | with_reducible assumption
    | exact hc.mono rfl
    | with_reducible apply writeDmaFlags_only


theorem houseTrigger_only (go : Bool) {s : State} (h : Only m s0 s) (hc : Sub 0x80000000002 m) :
    Only m s0 (houseTrigger go s) := by
  unfold houseTrigger
  repeat' first
    | with_reducible assumption
    | exact hc.mono rfl
    | intro _
    | with_reducible apply houseTrig_only
    | with_reducible apply onlySkip
    | split


theorem refaModeWrite_only (mode : Bool) {s : State} (h : Only m s0 s) (hc : Sub 0x32 m) :
    Only m s0 (refaModeWrite mode s) := by
  unfold refaModeWrite
  repeat' first
    | with_reducible assumption
    | exact hc.mono rfl
    | intro _
    | lift_lets -underBinder
    | with_reducible (first | apply raiseFlag_only | apply putReg_only)
    | with_reducible apply onlySkip
    | split
    | with_reducible apply only_upsets


theorem enableClock_only {s : State} (h : Only m s0 s) (hc : Sub 0x2002 m) :
    Only m s0 (enableClock s) := by
  unfold enableClock
  repeat' first
    | with_reducible assumption
    | exact hc.mono rfl
    | intro _
    | lift_lets -underBinder
    | with_reducible apply putBit_only
    | with_reducible apply onlySkip
    | split
    | with_reducible apply only_clock


theorem clockEnableWrite_only (value : Word) {s : State} (h : Only m s0 s) (hc : Sub 0x2002 m) :
    Only m s0 (clockEnableWrite value s) := by
  unfold clockEnableWrite
  repeat' first
    | with_reducible assumption
    | exact hc.mono rfl
    | intro _
    | with_reducible apply enableClock_only
    | with_reducible apply onlySkip
    | split


theorem calEntryWrite_only (r : CalReg) (value : Word) {s : State} (h : Only m s0 s) (hc : Sub 0x32 m) :
    Only m s0 (calEntryWrite r value s) := by
  unfold calEntryWrite
  repeat' first
    | with_reducible assumption
    | exact hc.mono rfl
    | intro _
    | lift_lets -underBinder
    | with_reducible (first | apply raiseFlag_only | apply endUpset_only | apply putEntry_only)
    | with_reducible apply onlySkip
    | split


theorem writeMsix_only {s : State} (fn : ℕ) (v : ℕ) (i : ℕ) (value : ℕ) (h : Only m s0 s) (hc : Sub 0x812 m) :
    Only m s0 (writeMsix s fn v i value) := by
  unfold writeMsix
  repeat' first
    | with_reducible assumption
    | exact hc.mono rfl
    | intro _
    | lift_lets -underBinder
    | with_reducible (first | apply putReg_only | apply endUpset_only | apply msixRelease_only)
    | with_reducible apply onlySkip
    | split
    | (conv => arg 3; zeta)


theorem msixReleaseAll_only {s : State} (fn : ℕ) (h : Only m s0 s) (hc : Sub 0x802 m) :
    Only m s0 (msixReleaseAll s fn) := by
  unfold msixReleaseAll
  repeat' first
    | with_reducible assumption
    | exact hc.mono rfl
    | intro t (ht : Only m s0 t)
    | intro _
    | with_reducible apply msixRelease_only
    | with_reducible (first | apply onlySkip | apply onlyFold)
    | split


theorem busMasterEnable_only (fn : ℕ) (on : Bool) {s : State} (h : Only m s0 s) (hc : Sub 0x428000c22 m) :
    Only m s0 (busMasterEnable fn on s) := by
  unfold busMasterEnable
  repeat' first
    | with_reducible assumption
    | exact hc.mono rfl
    | intro t (ht : Only m s0 t)
    | intro _
    | lift_lets -underBinder
    | with_reducible (first | apply cqFlush_only | apply msixReleaseAll_only | apply evtFlush_only)
    | with_reducible (first | apply onlySkip | apply onlyFold)
    | split
    | with_reducible apply only_bme
    | (conv => arg 3; zeta)


theorem foreign_only {s : State} (page : ℕ) (h : Only m s0 s) (hc : Sub 0x8022 m) :
    Only m s0 (foreign s page) := by
  unfold foreign
  repeat' first
    | with_reducible assumption
    | exact hc.mono rfl
    | intro _
    | lift_lets -underBinder
    | with_reducible (first | apply raise_only | apply raiseFlag_only)


theorem dbError_only {s : State} (q : ℕ) (h : Only m s0 s) (hc : Sub 0x8008022 m) :
    Only m s0 (dbError s q) := by
  unfold dbError
  repeat' first
    | with_reducible assumption
    | exact hc.mono rfl
    | intro _
    | lift_lets -underBinder
    | with_reducible (first | apply addPairSat_only | apply raiseFlag_only | apply modQp_only | apply raise_only)


theorem sqTailWrite_only (fn : ℕ) (page : ℕ) (value : Word) {s : State} (h : Only m s0 s) (hc : Sub 0x8008022 m) :
    Only m s0 (sqTailWrite fn page value s) := by
  unfold sqTailWrite
  repeat' first
    | with_reducible assumption
    | exact hc.mono rfl
    | intro _
    | lift_lets -underBinder
    | with_reducible (first | apply foreign_only | apply dbError_only | apply putQp_only)
    | with_reducible apply onlySkip
    | split
    | (conv => arg 3; zeta)


theorem cqHeadWrite_only (fn : ℕ) (page : ℕ) (value : Word) {s : State} (h : Only m s0 s) (hc : Sub 0x8008022 m) :
    Only m s0 (cqHeadWrite fn page value s) := by
  unfold cqHeadWrite
  repeat' first
    | with_reducible assumption
    | exact hc.mono rfl
    | intro _
    | lift_lets -underBinder
    | with_reducible (first | apply foreign_only | apply dbError_only | apply putQp_only)
    | with_reducible apply onlySkip
    | split
    | (conv => arg 3; zeta)


theorem mbDoorbell_only (fn : ℕ) (n : ℕ) (value : Word) {s : State} (h : Only m s0 s) (hc : Sub 0x400000020 m) :
    Only m s0 (mbDoorbell fn n value s) := by
  unfold mbDoorbell
  repeat' first
    | with_reducible assumption
    | exact hc.mono rfl
    | intro _
    | lift_lets -underBinder
    | with_reducible (first | apply modWin_only | apply raiseMb_only)
    | with_reducible apply onlySkip
    | split


theorem mbEvtHeadWrite_only (fn : ℕ) (n : ℕ) (value : Word) {s : State} (h : Only m s0 s) (hc : Sub 0x400000000 m) :
    Only m s0 (mbEvtHeadWrite fn n value s) := by
  unfold mbEvtHeadWrite
  repeat' first
    | with_reducible assumption
    | exact hc.mono rfl
    | intro _
    | lift_lets -underBinder
    | with_reducible apply modWin_only
    | with_reducible apply onlySkip
    | split


theorem writeWindow_only {s : State} (fn : ℕ) (n : ℕ) (x : ℕ) (value : Word) (h : Only m s0 s) (hc : Sub 0x400000020 m) :
    Only m s0 (writeWindow s fn n x value) := by
  unfold writeWindow
  repeat' first
    | with_reducible assumption
    | exact hc.mono rfl
    | intro _
    | lift_lets -underBinder
    | with_reducible (first | apply mbDoorbell_only | apply mbEvtHeadWrite_only | apply modWin_only)
    | with_reducible apply onlySkip
    | split


theorem readBar0_only {s : State} (fn : ℕ) (off : ℕ) (h : Only m s0 s) (hc : Sub 0x2000000000804 m) :
    Only m s0 (readBar0 s fn off) := by
  unfold readBar0
  repeat' first
    | with_reducible assumption
    | exact hc.mono rfl
    | intro _
    | lift_lets -underBinder
    | with_reducible apply emit_only
    | with_reducible apply onlySkip
    | split
    | with_reducible (first | apply only_latches | apply only_freeCount)
    | (conv => arg 3; zeta)


theorem l64LowRead_only (fn : ℕ) (bar : Bar) (off : ℕ) (size : ℕ) {s : State} (h : Only m s0 s) (hc : Sub 0x2000000000804 m) :
    Only m s0 (l64LowRead fn bar off size s) := by
  unfold l64LowRead
  repeat' first
    | with_reducible assumption
    | exact hc.mono rfl
    | intro _
    | lift_lets -underBinder
    | with_reducible (first | apply emit_only | apply readBar0_only)
    | with_reducible apply onlySkip
    | split
    | (conv => arg 3; zeta)


theorem writeBar0_only {s : State} (off : ℕ) (value : Word) (h : Only m s0 s) (hc : Sub 0x28000000a83a m) :
    Only m s0 (writeBar0 s off value) := by
  unfold writeBar0
  repeat' first
    | with_reducible assumption
    | exact hc.mono rfl
    | intro _
    | lift_lets -underBinder
    | with_reducible (first | apply pairFirstWrite_only | apply globalResetGo_only | apply pairMismatch_only | apply clearFlags_only | apply clockEnableWrite_only | apply refaModeWrite_only | apply houseTrigger_only | apply writeCperf_only | apply writeDmaCtl_only | apply writeDmaFlags_only | apply endUpset_only | apply putReg_only | apply writeMsix_only | apply calEntryWrite_only)
    | with_reducible apply onlySkip
    | split
    | (conv => arg 3; zeta)


theorem hostRegisterWrite_only (fn : ℕ) (bar : Bar) (off : ℕ) (size : ℕ) (value : Word) {s : State} (h : Only m s0 s)
  (hc : Sub 0x28040800a83a m) :
    Only m s0 (hostRegisterWrite fn bar off size value s) := by
  unfold hostRegisterWrite
  repeat' first
    | with_reducible assumption
    | exact hc.mono rfl
    | intro _
    | lift_lets -underBinder
    | with_reducible (first | apply writeBar0_only | apply writeMsix_only | apply sqTailWrite_only | apply cqHeadWrite_only | apply foreign_only | apply writeWindow_only)
    | with_reducible apply onlySkip
    | split
    | (conv => arg 3; zeta)


theorem unlinkQp_only {s : State} (q : ℕ) (h : Only m s0 s) (hc : Sub 0x81a0000 m) :
    Only m s0 (unlinkQp s q) := by
  unfold unlinkQp
  repeat' first
    | with_reducible assumption
    | exact hc.mono rfl
    | intro _
    | lift_lets -underBinder
    | with_reducible apply onlySkip
    | split
    | with_reducible apply only_contexts_startReqs_ended_qps


theorem stopCopies_only {s : State} (p : CopyRec → Bool) (h : Only m s0 s) (hc : Sub 0x200000002 m) :
    Only m s0 (stopCopies s p) := by
  unfold stopCopies
  repeat' first
    | with_reducible assumption
    | exact hc.mono rfl
    | intro t (ht : Only m s0 t)
    | intro _
    | lift_lets -underBinder
    | with_reducible (first | apply dmaStat_only | apply putDma_only)
    | with_reducible apply onlyFold


theorem abortRuns_only {s : State} (p : Dispatch → Bool) (h : Only m s0 s) (hc : Sub 0x20000 m) :
    Only m s0 (abortRuns s p) := by
  unfold abortRuns
  repeat' first
    | with_reducible assumption
    | exact hc.mono rfl
    | intro t (ht : Only m s0 t)
    | intro _
    | lift_lets -underBinder
    | with_reducible apply requestAbort_only
    | with_reducible apply onlyFold
    | split
    | (conv => arg 3; zeta)


theorem stopQp_only {s : State} (q : ℕ) (h : Only m s0 s) (hc : Sub 0x2081a0002 m) :
    Only m s0 (stopQp s q) := by
  unfold stopQp
  repeat' first
    | with_reducible assumption
    | exact hc.mono rfl
    | intro t (ht : Only m s0 t)
    | intro _
    | lift_lets -underBinder
    | with_reducible (first | apply modQp_only | apply dbError_only | apply abortRuns_only | apply unlinkQp_only | apply stopCopies_only)
    | with_reducible apply onlyFold
    | with_reducible apply only_dma


theorem deleteQp_only {s : State} (q : ℕ) (h : Only m s0 s) (hc : Sub 0x2081a0002 m) :
    Only m s0 (deleteQp s q) := by
  unfold deleteQp
  repeat' first
    | with_reducible assumption
    | exact hc.mono rfl
    | with_reducible (first | apply forgetQp_only | apply stopQp_only)


theorem resetWindow_only {s : State} (fn : ℕ) (h : Only m s0 s) (hc : Sub 0xc00802000 m) :
    Only m s0 (resetWindow s fn) := by
  unfold resetWindow
  repeat' first
    | with_reducible assumption
    | exact hc.mono rfl
    | intro _
    | lift_lets -underBinder
    | with_reducible apply modWin_only
    | with_reducible (first | apply only_clock | apply only_farPending_mbReqs)


theorem resetConfig_only {s : State} (fn : ℕ) (h : Only m s0 s) (hc : Sub 0x60000006 m) :
    Only m s0 (resetConfig s fn) := by
  unfold resetConfig
  repeat' first
    | with_reducible assumption
    | exact hc.mono rfl
    | intro _
    | lift_lets -underBinder
    | with_reducible apply dropRegs_only
    | with_reducible apply onlySkip
    | split
    | with_reducible apply only_bme_d3hot


theorem resetFunction_only {s : State} (fn : ℕ) (h : Only m s0 s) (hc : Sub 0xe689a2006 m) :
    Only m s0 (resetFunction s fn) := by
  unfold resetFunction
  repeat' first
    | with_reducible assumption
    | exact hc.mono rfl
    | intro t (ht : Only m s0 t)
    | intro _
    | lift_lets -underBinder
    | with_reducible (first | apply abortRuns_only | apply resetConfig_only | apply resetWindow_only | apply deleteQp_only)
    | with_reducible apply onlyFold


theorem resetAllFunctions_only {s : State} (h : Only m s0 s) (hc : Sub 0xf689a2006 m) :
    Only m s0 (resetAllFunctions s) := by
  unfold resetAllFunctions
  repeat' first
    | with_reducible assumption
    | exact hc.mono rfl
    | intro t (ht : Only m s0 t)
    | intro _
    | lift_lets -underBinder
    | with_reducible apply resetFunction_only
    | with_reducible apply onlyFold
    | with_reducible apply only_vfsOn


theorem functionLevelReset_only (fn : ℕ) {s : State} (h : Only m s0 s) (hc : Sub 0xf689a2006 m) :
    Only m s0 (functionLevelReset fn s) := by
  unfold functionLevelReset
  repeat' first
    | with_reducible assumption
    | exact hc.mono rfl
    | intro _
    | with_reducible (first | apply resetAllFunctions_only | apply resetFunction_only)
    | with_reducible apply onlySkip
    | split


theorem hotReset_only {s : State} (h : Only m s0 s) (hc : Sub 0xf689a2006 m) :
    Only m s0 (hotReset s) := by
  unfold hotReset
  repeat' first
    | with_reducible assumption
    | exact hc.mono rfl
    | intro _
    | with_reducible apply resetAllFunctions_only
    | with_reducible apply onlySkip
    | split


theorem hostLinkDown_only {s : State} (h : Only m s0 s) (hc : Sub 0xfe89aa006 m) :
    Only m s0 (hostLinkDown s) := by
  unfold hostLinkDown
  repeat' first
    | with_reducible assumption
    | exact hc.mono rfl
    | intro _
    | lift_lets -underBinder
    | with_reducible (first | apply raise_only | apply resetAllFunctions_only)
    | with_reducible apply onlySkip
    | split
    | with_reducible apply only_linkUp


theorem hostLinkUp_only {s : State} (h : Only m s0 s) (hc : Sub 0x80000000 m) :
    Only m s0 (hostLinkUp s) := by
  unfold hostLinkUp
  repeat' first
    | with_reducible assumption
    | exact hc.mono rfl
    | intro _
    | lift_lets -underBinder
    | with_reducible apply onlySkip
    | split
    | with_reducible apply only_linkUp


theorem d3hotEntry_only (fn : ℕ) {s : State} (h : Only m s0 s) (hc : Sub 0x40000000 m) :
    Only m s0 (d3hotEntry fn s) := by
  unfold d3hotEntry
  repeat' first
    | with_reducible assumption
    | exact hc.mono rfl
    | intro _
    | lift_lets -underBinder
    | with_reducible apply onlySkip
    | split
    | with_reducible apply only_d3hot


theorem d3hotExit_only (fn : ℕ) {s : State} (h : Only m s0 s) (hc : Sub 0xf689a2006 m) :
    Only m s0 (d3hotExit fn s) := by
  unfold d3hotExit
  repeat' first
    | with_reducible assumption
    | exact hc.mono rfl
    | intro _
    | with_reducible apply functionLevelReset_only
    | with_reducible apply onlySkip
    | split


theorem vfEnable_only (on : Bool) {s : State} (h : Only m s0 s) (hc : Sub 0xf689a2006 m) :
    Only m s0 (vfEnable on s) := by
  unfold vfEnable
  repeat' first
    | with_reducible assumption
    | exact hc.mono rfl
    | intro t (ht : Only m s0 t)
    | intro _
    | lift_lets -underBinder
    | with_reducible apply resetFunction_only
    | with_reducible (first | apply onlySkip | apply onlyFold)
    | split
    | with_reducible apply only_vfsOn


theorem flipBit_only {s : State} (u : ParityUnit) (b : ℕ) (h : Only m s0 s) (hc : Sub 0x2 m) :
    Only m s0 (flipBit s u b) := by
  unfold flipBit
  repeat' first
    | with_reducible assumption
    | exact hc.mono rfl
    | intro _
    | lift_lets -underBinder
    | with_reducible apply putBit_only
    | split
    | (conv => arg 3; zeta)


theorem disableUnit_only {s : State} (u : ParityUnit) (h : Only m s0 s) (hc : Sub 0x9008822 m) :
    Only m s0 (disableUnit s u) := by
  unfold disableUnit
  repeat' first
    | with_reducible assumption
    | exact hc.mono rfl
    | intro _
    | lift_lets -underBinder
    | with_reducible (first | apply putBit_only | apply failIndex_only | apply failChannel_only | apply failRing_only | apply raiseFlag_only | apply modQp_only | apply dbError_only)
    | with_reducible apply onlySkip
    | split
    | (conv => arg 3; zeta)


theorem parityMismatch_only (u : ParityUnit) (b : ℕ) {s : State} (h : Only m s0 s) (hc : Sub 0x9008832 m) :
    Only m s0 (parityMismatch u b s) := by
  unfold parityMismatch
  repeat' first
    | with_reducible assumption
    | exact hc.mono rfl
    | intro _
    | lift_lets -underBinder
    | with_reducible (first | apply raise_only | apply flipBit_only | apply raiseFlag_only | apply addReg_only | apply putReg_only | apply disableUnit_only)
    | with_reducible apply onlySkip
    | split
    | with_reducible apply only_upsets
    | (conv => arg 3; zeta)


theorem putBack_only {s : State} (u : ParityUnit) (h : Only m s0 s) (hc : Sub 0x12 m) :
    Only m s0 (putBack s u) := by
  unfold putBack
  repeat' first
    | with_reducible assumption
    | exact hc.mono rfl
    | intro t (ht : Only m s0 t)
    | intro _
    | with_reducible (first | apply endUpset_only | apply flipBit_only)
    | with_reducible apply onlyFold


theorem recalibrate_only {s : State} (g : ℕ) (l : ℕ) (h : Only m s0 s) (hc : Sub 0xe401002022 m) :
    Only m s0 (recalibrate s g l) := by
  unfold recalibrate
  repeat' first
    | with_reducible assumption
    | exact hc.mono rfl
    | intro _
    | lift_lets -underBinder
    | with_reducible apply requestAct_only
    | with_reducible apply onlySkip
    | split


theorem parityRestore_only (u : ParityUnit) {s : State} (h : Only m s0 s) (hc : Sub 0xe401002032 m) :
    Only m s0 (parityRestore u s) := by
  unfold parityRestore
  repeat' first
    | with_reducible assumption
    | exact hc.mono rfl
    | intro _
    | lift_lets -underBinder
    | with_reducible (first | apply putBack_only | apply putReg_only | apply enableClock_only | apply endUpset_only | apply putBit_only | apply recalibrate_only)
    | with_reducible apply onlySkip
    | split
    | (conv => arg 3; zeta)


end Sys2Proof.Machine
end

