-- ==== Sys2Proof/Laws/FrameFirmware.lean ====
section
/-! SUPPORT. Frame lemmas: mailbox commands, plans, Weirs, starts, power, housekeeping, the maintenance port and the tick end. -/

namespace Sys2Proof.Machine

variable {m : Nat} {s0 : State}

theorem prepareCore_only {s : State} (c' : ℕ) (h : Only m s0 s) (hc : Sub 0x10242 m) :
    Only m s0 (prepareCore s c') := by
  unfold prepareCore
  repeat' first
    | with_reducible assumption
    | exact hc.mono rfl
    | intro _
    | lift_lets -underBinder
    | with_reducible (first | apply coreOn_only | apply modCore_only)
    | with_reducible apply only_mem_corePoison


theorem pinAndAnswer_only {s : State} (r : MbReq) (p : ℕ) (cores : List ℕ) (v : ℕ) (h : Only m s0 s) (hc : Sub 0xc00210802 m) :
    Only m s0 (pinAndAnswer s r p cores v) := by
  unfold pinAndAnswer
  repeat' first
    | with_reducible assumption
    | exact hc.mono rfl
    | intro t (ht : Only m s0 t)
    | intro _
    | lift_lets -underBinder
    | with_reducible (first | apply modPart_only | apply commandCore_only | apply answerRamps_only | apply waitAnswer_only)
    | with_reducible (first | apply onlySkip | apply onlyFold)
    | split


theorem changeStrict_only (r : MbReq) {s : State} (p : ℕ) (v : ℕ) (cores : List ℕ) (h : Only m s0 s) (hc : Sub 0xc00210802 m) :
    Only m s0 (changeStrict r s p v cores) := by
  unfold changeStrict
  repeat' first
    | with_reducible assumption
    | exact hc.mono rfl
    | intro _
    | lift_lets -underBinder
    | with_reducible (first | apply respond_only | apply pinAndAnswer_only)
    | with_reducible apply onlySkip
    | split
    | (conv => arg 3; zeta)


theorem partCreate_only (r : MbReq) {s : State} (h : Only m s0 s) (hc : Sub 0xc00210a42 m) :
    Only m s0 (partCreate r s) := by
  unfold partCreate
  repeat' first
    | with_reducible assumption
    | exact hc.mono rfl
    | intro t (ht : Only m s0 t)
    | intro _
    | lift_lets -underBinder
    | with_reducible (first | apply respond_only | apply changeStrict_only | apply putPart_only | apply modPart_only | apply commandCore_only | apply pinAndAnswer_only | apply prepareCore_only)
    | with_reducible (first | apply onlySkip | apply onlyFold)
    | split
    | (conv => arg 3; zeta)


theorem bindVf_only {s : State} (p : ℕ) (v : ℕ) (h : Only m s0 s) (hc : Sub 0x200000 m) :
    Only m s0 (bindVf s p v).1 := by
  unfold bindVf
  repeat' first
    | with_reducible assumption
    | exact hc.mono rfl
    | intro _
    | lift_lets -underBinder
    | with_reducible apply putPart_only
    | with_reducible apply onlySkip
    | split
    | (conv => arg 3; zeta)


theorem unbindVf_only {s : State} (p : ℕ) (v : ℕ) (h : Only m s0 s) (hc : Sub 0x200000 m) :
    Only m s0 (unbindVf s p v).1 := by
  unfold unbindVf
  repeat' first
    | with_reducible assumption
    | exact hc.mono rfl
    | intro _
    | lift_lets -underBinder
    | with_reducible apply putPart_only
    | with_reducible apply onlySkip
    | split


theorem bindChannel_only {s : State} (p : ℕ) (v : ℕ) (h : Only m s0 s) (hc : Sub 0x200000 m) :
    Only m s0 (bindChannel s p v).1 := by
  unfold bindChannel
  repeat' first
    | with_reducible assumption
    | exact hc.mono rfl
    | intro _
    | lift_lets -underBinder
    | with_reducible apply modPart_only


theorem unbindChannel_only {s : State} (p : ℕ) (v : ℕ) (h : Only m s0 s) (hc : Sub 0x200000 m) :
    Only m s0 (unbindChannel s p v).1 := by
  unfold unbindChannel
  repeat' first
    | with_reducible assumption
    | exact hc.mono rfl
    | intro _
    | lift_lets -underBinder
    | with_reducible apply modPart_only
    | with_reducible apply onlySkip
    | split


theorem partBind_only (r : MbReq) {s : State} (h : Only m s0 s) (hc : Sub 0x200000 m) :
    Only m s0 (partBind r s).1 := by
  unfold partBind
  repeat' first
    | with_reducible assumption
    | exact hc.mono rfl
    | intro _
    | lift_lets -underBinder
    | with_reducible (first | apply unbindVf_only | apply bindVf_only | apply bindChannel_only | apply unbindChannel_only)
    | with_reducible apply onlySkip
    | split
    | (conv => arg 3; zeta)


theorem dropUnitLines_only {s : State} (u : ℕ) (h : Only m s0 s) (hc : Sub 0x1000000 m) :
    Only m s0 (dropUnitLines s u) := by
  unfold dropUnitLines
  repeat' first
    | with_reducible assumption
    | exact hc.mono rfl
    | intro t (ht : Only m s0 t)
    | intro _
    | lift_lets -underBinder
    | with_reducible (first | apply cacheForget_only | apply modSite_only)
    | with_reducible apply onlyFold


theorem giveUnit_only (p : ℕ) {s : State} (u : ℕ) (h : Only m s0 s) (hc : Sub 0x1200080 m) :
    Only m s0 (giveUnit p s u) := by
  unfold giveUnit
  repeat' first
    | with_reducible assumption
    | exact hc.mono rfl
    | intro _
    | lift_lets -underBinder
    | with_reducible (first | apply modPart_only | apply assignPages_only | apply dropUnitLines_only)
    | with_reducible apply onlySkip
    | split


theorem takeUnit_only (p : ℕ) {s : State} (u : ℕ) (h : Only m s0 s) (hc : Sub 0x1200000 m) :
    Only m s0 (takeUnit p s u) := by
  unfold takeUnit
  repeat' first
    | with_reducible assumption
    | exact hc.mono rfl
    | intro _
    | lift_lets -underBinder
    | with_reducible (first | apply dropUnitLines_only | apply modPart_only)
    | with_reducible apply onlySkip
    | split


theorem partMem_only (r : MbReq) {s : State} (h : Only m s0 s) (hc : Sub 0x1200080 m) :
    Only m s0 (partMem r s).1 := by
  unfold partMem
  repeat' first
    | with_reducible assumption
    | exact hc.mono rfl
    | intro t (ht : Only m s0 t)
    | intro _
    | lift_lets -underBinder
    | with_reducible (first | apply giveUnit_only | apply takeUnit_only)
    | with_reducible (first | apply onlySkip | apply onlyFold | apply onlyFold1)
    | split
    | (conv => arg 3; zeta)


theorem partKey_only (r : MbReq) {s : State} (h : Only m s0 s) (hc : Sub 0x1000200000 m) :
    Only m s0 (partKey r s).1 := by
  unfold partKey
  repeat' first
    | with_reducible assumption
    | exact hc.mono rfl
    | intro t (ht : Only m s0 t)
    | intro _
    | lift_lets -underBinder
    | with_reducible (first | apply take_only | apply putPart_only)
    | with_reducible (first | apply onlySkip | apply onlyFold | apply onlyFold1)
    | split
    | (conv => arg 3; zeta)


theorem putEgress_only {s : State} (i : ℕ) (e : Egress) (h : Only m s0 s) (hc : Sub 0x20000000000 m) :
    Only m s0 (putEgress s i e) := by
  unfold putEgress
  repeat' first
    | with_reducible assumption
    | exact hc.mono rfl
    | intro _
    | lift_lets -underBinder
    | with_reducible apply only_island


theorem partEgress_only (r : MbReq) {s : State} (h : Only m s0 s) (hc : Sub 0x21000000000 m) :
    Only m s0 (partEgress r s).1 := by
  unfold partEgress
  repeat' first
    | with_reducible assumption
    | exact hc.mono rfl
    | intro t (ht : Only m s0 t)
    | intro _
    | lift_lets -underBinder
    | with_reducible (first | apply putEgress_only | apply take_only)
    | with_reducible (first | apply onlySkip | apply onlyFold | apply onlyFold1)
    | split
    | (conv => arg 3; zeta)


theorem partSeal_only (r : MbReq) {s : State} (h : Only m s0 s) (hc : Sub 0xc00200802 m) :
    Only m s0 (partSeal r s) := by
  unfold partSeal
  repeat' first
    | with_reducible assumption
    | exact hc.mono rfl
    | intro _
    | lift_lets -underBinder
    | with_reducible (first | apply respond_only | apply waitAnswer_only | apply modPart_only)
    | with_reducible apply onlySkip
    | split


theorem writeKey_only {s : State} (k : KeyRec) (i : ℕ) (h : Only m s0 s) (hc : Sub 0x20000000012 m) :
    Only m s0 (writeKey s k i) := by
  unfold writeKey
  repeat' first
    | with_reducible assumption
    | exact hc.mono rfl
    | intro _
    | lift_lets -underBinder
    | with_reducible (first | apply endUpset_only | apply putReg_only)
    | split
    | with_reducible apply only_island
    | (conv => arg 3; zeta)


theorem applySeal_only {s : State} (p : ℕ) (h : Only m s0 s) (hc : Sub 0x20c00200812 m) :
    Only m s0 (applySeal s p) := by
  unfold applySeal
  repeat' first
    | with_reducible assumption
    | exact hc.mono rfl
    | intro t (ht : Only m s0 t)
    | intro _
    | lift_lets -underBinder
    | with_reducible (first | apply writeKey_only | apply answerWaiting_only | apply modPart_only)
    | with_reducible (first | apply onlySkip | apply onlyFold)
    | split
    | with_reducible apply only_island


theorem applySeals_only {s : State} (h : Only m s0 s) (hc : Sub 0x20c00200812 m) :
    Only m s0 (applySeals s) := by
  unfold applySeals
  repeat' first
    | with_reducible assumption
    | exact hc.mono rfl
    | intro t (ht : Only m s0 t)
    | intro _
    | with_reducible apply applySeal_only
    | with_reducible apply onlyFold


theorem partStatus_only (r : MbReq) {s : State} (h : Only m s0 s) (hc : Sub 0x0 m) :
    Only m s0 (partStatus r s).1 := by
  unfold partStatus
  repeat' first
    | with_reducible assumption
    | exact hc.mono rfl
    | intro _
    | lift_lets -underBinder
    | with_reducible apply onlySkip
    | split
    | (conv => arg 3; zeta)


theorem pondCache_only (r : MbReq) {s : State} (h : Only m s0 s) (hc : Sub 0x20000000002 m) :
    Only m s0 (pondCache r s).1 := by
  unfold pondCache
  repeat' first
    | with_reducible assumption
    | exact hc.mono rfl
    | intro _
    | lift_lets -underBinder
    | with_reducible apply putField_only
    | with_reducible apply onlySkip
    | split
    | with_reducible apply only_island
    | (conv => arg 3; zeta)


theorem pondArea_only (r : MbReq) {s : State} (h : Only m s0 s) (hc : Sub 0x1000200080 m) :
    Only m s0 (pondArea r s).1 := by
  unfold pondArea
  repeat' first
    | with_reducible assumption
    | exact hc.mono rfl
    | intro _
    | lift_lets -underBinder
    | with_reducible (first | apply putPart_only | apply assignPages_only | apply take_only)
    | with_reducible apply onlySkip
    | split
    | (conv => arg 3; zeta)


theorem cacheSlices_only (r : MbReq) {s : State} (h : Only m s0 s) (hc : Sub 0x1200000 m) :
    Only m s0 (cacheSlices r s).1 := by
  unfold cacheSlices
  repeat' first
    | with_reducible assumption
    | exact hc.mono rfl
    | intro _
    | lift_lets -underBinder
    | with_reducible (first | apply modPart_only | apply cacheForget_only)
    | with_reducible apply onlySkip
    | split


theorem dropSlotLines_only {s : State} (slot : ℕ) (h : Only m s0 s) (hc : Sub 0x1000000 m) :
    Only m s0 (dropSlotLines s slot) := by
  unfold dropSlotLines
  repeat' first
    | with_reducible assumption
    | exact hc.mono rfl
    | intro t (ht : Only m s0 t)
    | intro _
    | with_reducible apply cacheForget_only
    | with_reducible apply onlyFold


theorem cacheFlush_only (r : MbReq) {s : State} (h : Only m s0 s) (hc : Sub 0x1000000 m) :
    Only m s0 (cacheFlush r s).1 := by
  unfold cacheFlush
  repeat' first
    | with_reducible assumption
    | exact hc.mono rfl
    | intro _
    | lift_lets -underBinder
    | with_reducible apply dropSlotLines_only
    | with_reducible apply onlySkip
    | split


theorem farMap_only (r : MbReq) {s : State} (h : Only m s0 s) (hc : Sub 0xc00800802 m) :
    Only m s0 (farMap r s) := by
  unfold farMap
  repeat' first
    | with_reducible assumption
    | exact hc.mono rfl
    | intro _
    | lift_lets -underBinder
    | with_reducible (first | apply respond_only | apply waitAnswer_only)
    | with_reducible apply onlySkip
    | split
    | with_reducible apply only_farPending
    | (conv => arg 3; zeta)


theorem clearSlot_only {s : State} (n : ℕ) (h : Only m s0 s) (hc : Sub 0x5400000 m) :
    Only m s0 (clearSlot s n) := by
  unfold clearSlot
  repeat' first
    | with_reducible assumption
    | exact hc.mono rfl
    | intro _
    | lift_lets -underBinder
    | with_reducible apply dropSlotLines_only
    | with_reducible apply only_far_fabric


theorem farUnmap_only (r : MbReq) {s : State} (h : Only m s0 s) (hc : Sub 0xc05c00802 m) :
    Only m s0 (farUnmap r s) := by
  unfold farUnmap
  repeat' first
    | with_reducible assumption
    | exact hc.mono rfl
    | intro _
    | lift_lets -underBinder
    | with_reducible (first | apply respond_only | apply clearSlot_only | apply waitAnswer_only)
    | with_reducible apply onlySkip
    | split
    | with_reducible apply only_farPending


theorem farUnmapTimeout_only {s : State} (h : Only m s0 s) (hc : Sub 0xc00800802 m) :
    Only m s0 (farUnmapTimeout s) := by
  unfold farUnmapTimeout
  repeat' first
    | with_reducible assumption
    | exact hc.mono rfl
    | intro t (ht : Only m s0 t)
    | intro _
    | lift_lets -underBinder
    | with_reducible apply answerWaiting_only
    | with_reducible (first | apply onlySkip | apply onlyFold)
    | split
    | with_reducible apply only_farPending


theorem applyFar_only {s : State} (q : FarPending) (h : Only m s0 s) (hc : Sub 0xc05c00802 m) :
    Only m s0 (applyFar s q) := by
  unfold applyFar
  repeat' first
    | with_reducible assumption
    | exact hc.mono rfl
    | intro _
    | lift_lets -underBinder
    | with_reducible (first | apply clearSlot_only | apply answerWaiting_only)
    | with_reducible apply onlySkip
    | split
    | with_reducible (first | apply only_far | apply only_farPending | apply only_fabric)


theorem applyFars_only {s : State} (h : Only m s0 s) (hc : Sub 0xc05c00802 m) :
    Only m s0 (applyFars s) := by
  unfold applyFars
  repeat' first
    | with_reducible assumption
    | exact hc.mono rfl
    | intro t (ht : Only m s0 t)
    | intro _
    | lift_lets -underBinder
    | with_reducible apply applyFar_only
    | with_reducible apply onlyFold
    | with_reducible apply only_farPending


theorem cancelPending_only {s : State} (h' : ℕ) (h : Only m s0 s) (hc : Sub 0x120000 m) :
    Only m s0 (cancelPending s h') := by
  unfold cancelPending
  repeat' first
    | with_reducible assumption
    | exact hc.mono rfl
    | intro t (ht : Only m s0 t)
    | intro _
    | lift_lets -underBinder
    | with_reducible (first | apply modCtx_only | apply complete_only)
    | with_reducible (first | apply onlySkip | apply onlyFold)
    | split
    | (conv => arg 3; zeta)


theorem leaveContext_only (abort : State → ℕ → State) {s : State} (h' : ℕ)
  (hfabort : ∀ (v0 : State) (v1 : ℕ), Only m s0 v0 → Only m s0 (abort v0 v1)) (h : Only m s0 s) (hc : Sub 0x120000 m) :
    Only m s0 (leaveContext abort s h') := by
  unfold leaveContext
  repeat' first
    | with_reducible assumption
    | exact hc.mono rfl
    | intro t (ht : Only m s0 t)
    | intro _
    | with_reducible apply hfabort
    | lift_lets -underBinder
    | with_reducible (first | apply modCtx_only | apply cancelPending_only)


theorem unloadContext_only {s : State} (h' : Nat) (h : Only m s0 s) (hc : Sub 0x120000 m) :
    Only m s0 (unloadContext s h') :=
  leaveContext_only _ _ (fun _ _ hv => requestAbort_only _ hv (hc.mono rfl)) h (hc.mono rfl)

theorem settleRemoval_only {s : State} (h' : ℕ) (h : Only m s0 s) (hc : Sub 0xc01130802 m) :
    Only m s0 (settleRemoval s h') := by
  unfold settleRemoval
  repeat' first
    | with_reducible assumption
    | exact hc.mono rfl
    | intro _
    | lift_lets -underBinder
    | with_reducible (first | apply answerWaiting_only | apply removeContext_only)
    | with_reducible apply onlySkip
    | split
    | (conv => arg 3; zeta)


theorem settleRemovals_only {s : State} (h : Only m s0 s) (hc : Sub 0xc01130802 m) :
    Only m s0 (settleRemovals s) := by
  unfold settleRemovals
  repeat' first
    | with_reducible assumption
    | exact hc.mono rfl
    | intro t (ht : Only m s0 t)
    | intro _
    | with_reducible apply settleRemoval_only
    | with_reducible apply onlyFold


theorem partDestroy_only (r : MbReq) {s : State} (h : Only m s0 s) (hc : Sub 0x7000200000 m) :
    Only m s0 (partDestroy r s).1 := by
  unfold partDestroy
  repeat' first
    | with_reducible assumption
    | exact hc.mono rfl
    | intro _
    | lift_lets -underBinder
    | with_reducible (first | apply addActivity_only | apply take_only | apply modPart_only)
    | with_reducible apply onlySkip
    | split


theorem beginDestroy_only {s : State} (p : ℕ) (h : Only m s0 s) (hc : Sub 0xc01330802 m) :
    Only m s0 (beginDestroy s p) := by
  unfold beginDestroy
  repeat' first
    | with_reducible assumption
    | exact hc.mono rfl
    | intro t (ht : Only m s0 t)
    | intro _
    | lift_lets -underBinder
    | with_reducible (first | apply modPart_only | apply answerWaiting_only | apply leaveContext_only | apply startAbort_only)
    | with_reducible apply onlyFold


theorem beginDestroys_only {s : State} (h : Only m s0 s) (hc : Sub 0xc01330802 m) :
    Only m s0 (beginDestroys s) := by
  unfold beginDestroys
  repeat' first
    | with_reducible assumption
    | exact hc.mono rfl
    | intro t (ht : Only m s0 t)
    | intro _
    | with_reducible apply beginDestroy_only
    | with_reducible apply onlyFold


theorem clearKeys_only {s : State} (p : ℕ) (h : Only m s0 s) (hc : Sub 0x20000000002 m) :
    Only m s0 (clearKeys s p) := by
  unfold clearKeys
  repeat' first
    | with_reducible assumption
    | exact hc.mono rfl
    | intro t (ht : Only m s0 t)
    | intro _
    | lift_lets -underBinder
    | with_reducible apply putReg_only
    | with_reducible (first | apply onlySkip | apply onlyFold)
    | split
    | with_reducible apply only_island


theorem tearDown_only {s : State} (p : ℕ) (h : Only m s0 s) (hc : Sub 0x20001210002 m) :
    Only m s0 (tearDown s p) := by
  unfold tearDown
  repeat' first
    | with_reducible assumption
    | exact hc.mono rfl
    | intro t (ht : Only m s0 t)
    | intro _
    | lift_lets -underBinder
    | with_reducible (first | apply clearKeys_only | apply cacheForget_only | apply takeUnit_only | apply putPart_only | apply modCore_only)
    | with_reducible apply onlyFold


theorem stepDestroy_only {s : State} (p : ℕ) (h : Only m s0 s) (hc : Sub 0x2a60d7b0c22 m) :
    Only m s0 (stepDestroy s p) := by
  unfold stepDestroy
  repeat' first
    | with_reducible assumption
    | exact hc.mono rfl
    | intro t (ht : Only m s0 t)
    | intro _
    | lift_lets -underBinder
    | with_reducible (first | apply deleteQp_only | apply modPart_only | apply clearSlot_only | apply endActivity_only | apply tearDown_only)
    | with_reducible (first | apply onlySkip | apply onlyFold)
    | split
    | (conv => arg 3; zeta)


theorem stepDestroys_only {s : State} (h : Only m s0 s) (hc : Sub 0x2a60d7b0c22 m) :
    Only m s0 (stepDestroys s) := by
  unfold stepDestroys
  repeat' first
    | with_reducible assumption
    | exact hc.mono rfl
    | intro t (ht : Only m s0 t)
    | intro _
    | with_reducible apply stepDestroy_only
    | with_reducible (first | apply onlySkip | apply onlyFold)
    | split


theorem destroyTimeout_only {s : State} (h : Only m s0 s) (hc : Sub 0xa400200c22 m) :
    Only m s0 (destroyTimeout s) := by
  unfold destroyTimeout
  repeat' first
    | with_reducible assumption
    | exact hc.mono rfl
    | intro t (ht : Only m s0 t)
    | intro _
    | lift_lets -underBinder
    | with_reducible (first | apply endActivity_only | apply modPart_only)
    | with_reducible (first | apply onlySkip | apply onlyFold)
    | split
    | (conv => arg 3; zeta)


theorem info_only (r : MbReq) {s : State} (h : Only m s0 s) (hc : Sub 0x0 m) :
    Only m s0 (info r s).1 := by
  unfold info
  repeat' first
    | with_reducible assumption
    | exact hc.mono rfl
    | intro _
    | with_reducible apply onlySkip
    | split


theorem evtRingSet_only (r : MbReq) {s : State} (h : Only m s0 s) (hc : Sub 0x400000000 m) :
    Only m s0 (evtRingSet r s).1 := by
  unfold evtRingSet
  repeat' first
    | with_reducible assumption
    | exact hc.mono rfl
    | intro _
    | lift_lets -underBinder
    | with_reducible apply modWin_only
    | with_reducible apply onlySkip
    | split


theorem timeSet_only (r : MbReq) {s : State} (h : Only m s0 s) (hc : Sub 0xc00000802 m) :
    Only m s0 (timeSet r s) := by
  unfold timeSet
  repeat' first
    | with_reducible assumption
    | exact hc.mono rfl
    | intro _
    | with_reducible (first | apply respond_only | apply waitAnswer_only)
    | with_reducible apply onlySkip
    | split


theorem applyTimeSet_only {s : State} (r : MbReq) (h : Only m s0 s) (hc : Sub 0xc00001822 m) :
    Only m s0 (applyTimeSet s r) := by
  unfold applyTimeSet
  repeat' first
    | with_reducible assumption
    | exact hc.mono rfl
    | intro _
    | lift_lets -underBinder
    | with_reducible (first | apply respond_only | apply applySetTime_only | apply setAtBoundary_only | apply beginSlew_only)
    | with_reducible apply onlySkip
    | split


theorem applyTimeSets_only {s : State} (h : Only m s0 s) (hc : Sub 0xc00001822 m) :
    Only m s0 (applyTimeSets s) := by
  unfold applyTimeSets
  repeat' first
    | with_reducible assumption
    | exact hc.mono rfl
    | intro t (ht : Only m s0 t)
    | intro _
    | with_reducible apply applyTimeSet_only
    | with_reducible (first | apply onlySkip | apply onlyFold)
    | split


theorem fabricCoord_only (r : MbReq) {s : State} (h : Only m s0 s) (hc : Sub 0x10004000022 m) :
    Only m s0 (fabricCoord r s).1 := by
  unfold fabricCoord
  repeat' first
    | with_reducible assumption
    | exact hc.mono rfl
    | intro _
    | lift_lets -underBinder
    | with_reducible (first | apply putReg_only | apply discoveryStart_only)
    | with_reducible apply onlySkip
    | split
    | with_reducible apply only_fabric_record
    | (conv => arg 3; zeta)


theorem planUnload_only (r : MbReq) {s : State} (h : Only m s0 s) (hc : Sub 0xc01130802 m) :
    Only m s0 (planUnload r s) := by
  unfold planUnload
  repeat' first
    | with_reducible assumption
    | exact hc.mono rfl
    | intro _
    | lift_lets -underBinder
    | with_reducible (first | apply respond_only | apply settleRemoval_only | apply unloadContext_only | apply waitAnswer_only)
    | split
    | (conv => arg 3; zeta)


theorem ctxAbort_only (r : MbReq) {s : State} (h : Only m s0 s) (hc : Sub 0xc00020802 m) :
    Only m s0 (ctxAbort r s) := by
  unfold ctxAbort
  repeat' first
    | with_reducible assumption
    | exact hc.mono rfl
    | intro _
    | lift_lets -underBinder
    | with_reducible (first | apply respond_only | apply waitAnswer_only | apply requestAbort_only)
    | with_reducible apply onlySkip
    | split
    | (conv => arg 3; zeta)


theorem applyAborts_only {s : State} (h : Only m s0 s) (hc : Sub 0xc01030802 m) :
    Only m s0 (applyAborts s) := by
  unfold applyAborts
  repeat' first
    | with_reducible assumption
    | exact hc.mono rfl
    | intro t (ht : Only m s0 t)
    | intro _
    | lift_lets -underBinder
    | with_reducible (first | apply modRun_only | apply complete_only | apply startAbort_only | apply answerWaiting_only)
    | with_reducible (first | apply onlySkip | apply onlyFold)
    | split


theorem ctxQuery_only (r : MbReq) {s : State} (h : Only m s0 s) (hc : Sub 0x0 m) :
    Only m s0 (ctxQuery r s).1 := by
  unfold ctxQuery
  repeat' first
    | with_reducible assumption
    | exact hc.mono rfl
    | intro _
    | lift_lets -underBinder
    | with_reducible apply onlySkip
    | split
    | (conv => arg 3; zeta)


theorem qpCreate_only {s : State} (r : MbReq) (h : Only m s0 s) (hc : Sub 0x8000000 m) : Only m s0 (qpCreate r s).1 := by
  unfold qpCreate
  extract_lets q ch v
  clear_value q ch v
  iterate 11 refine onlyIte1 h ?_
  exact putQp_only _ _ h hc

theorem qpDelete_only (r : MbReq) {s : State} (h : Only m s0 s) (hc : Sub 0xe081a0802 m) :
    Only m s0 (qpDelete r s) := by
  unfold qpDelete
  repeat' first
    | with_reducible assumption
    | exact hc.mono rfl
    | intro _
    | lift_lets -underBinder
    | with_reducible (first | apply respond_only | apply modQp_only | apply stopQp_only | apply dbError_only | apply waitAnswer_only | apply forgetQp_only)
    | with_reducible apply onlySkip
    | split


theorem vfQpRange_only (r : MbReq) {s : State} (h : Only m s0 s) (hc : Sub 0x10000000 m) :
    Only m s0 (vfQpRange r s).1 := by
  unfold vfQpRange
  repeat' first
    | with_reducible assumption
    | exact hc.mono rfl
    | intro _
    | lift_lets -underBinder
    | with_reducible apply onlySkip
    | split
    | with_reducible apply only_vfRanges
    | (conv => arg 3; zeta)


theorem maintain_only (r : MbReq) {s : State} (a : Activity) (h : Only m s0 s) (hc : Sub 0xf401002022 m) :
    Only m s0 (maintain r s a).1 := by
  unfold maintain
  repeat' first
    | with_reducible assumption
    | exact hc.mono rfl
    | intro _
    | lift_lets -underBinder
    | with_reducible (first | apply requestAct_only | apply take_only)
    | with_reducible apply onlySkip
    | split


theorem stackSelftest_only (r : MbReq) {s : State} (h : Only m s0 s) (hc : Sub 0xf401002022 m) :
    Only m s0 (stackSelftest r s).1 := by
  unfold stackSelftest
  repeat' first
    | with_reducible assumption
    | exact hc.mono rfl
    | intro _
    | lift_lets -underBinder
    | with_reducible apply maintain_only
    | with_reducible apply onlySkip
    | split
    | (conv => arg 3; zeta)


theorem calChannel_only (r : MbReq) {s : State} (h : Only m s0 s) (hc : Sub 0xf401002022 m) :
    Only m s0 (calChannel r s).1 := by
  unfold calChannel
  repeat' first
    | with_reducible assumption
    | exact hc.mono rfl
    | intro _
    | lift_lets -underBinder
    | with_reducible apply maintain_only
    | with_reducible apply onlySkip
    | split


theorem calAll_only (r : MbReq) {s : State} (h : Only m s0 s) (hc : Sub 0xf401002022 m) :
    Only m s0 (calAll r s).1 := by
  unfold calAll
  repeat' first
    | with_reducible assumption
    | exact hc.mono rfl
    | with_reducible apply maintain_only


theorem calAt_only (op : ℕ) (r : MbReq) {s : State} (h : Only m s0 s) (hc : Sub 0xf401002022 m) :
    Only m s0 (calAt op r s).1 := by
  unfold calAt
  repeat' first
    | with_reducible assumption
    | exact hc.mono rfl
    | intro _
    | lift_lets -underBinder
    | with_reducible apply maintain_only
    | split
    | (conv => arg 3; zeta)


theorem calSave_only (r : MbReq) {s : State} (h : Only m s0 s) (hc : Sub 0xf401002022 m) :
    Only m s0 (calSave r s).1 := by
  unfold calSave
  repeat' first
    | with_reducible assumption
    | exact hc.mono rfl
    | with_reducible apply calAt_only


theorem calRestore_only (r : MbReq) {s : State} (h : Only m s0 s) (hc : Sub 0xf401002022 m) :
    Only m s0 (calRestore r s).1 := by
  unfold calRestore
  repeat' first
    | with_reducible assumption
    | exact hc.mono rfl
    | with_reducible apply calAt_only


theorem hbmRepair_only (r : MbReq) {s : State} (h : Only m s0 s) (hc : Sub 0xf401002022 m) :
    Only m s0 (hbmRepair r s).1 := by
  unfold hbmRepair
  repeat' first
    | with_reducible assumption
    | exact hc.mono rfl
    | intro _
    | lift_lets -underBinder
    | with_reducible apply maintain_only
    | with_reducible apply onlySkip
    | split


theorem refRecover_only (r : MbReq) {s : State} (h : Only m s0 s) (hc : Sub 0xf401002022 m) :
    Only m s0 (refRecover r s).1 := by
  unfold refRecover
  repeat' first
    | with_reducible assumption
    | exact hc.mono rfl
    | with_reducible apply maintain_only


theorem swapDrill_only (r : MbReq) {s : State} (h : Only m s0 s) (hc : Sub 0xf401002022 m) :
    Only m s0 (swapDrill r s).1 := by
  unfold swapDrill
  repeat' first
    | with_reducible assumption
    | exact hc.mono rfl
    | with_reducible apply maintain_only


theorem maintStatus_only (r : MbReq) {s : State} (h : Only m s0 s) (hc : Sub 0x0 m) :
    Only m s0 (maintStatus r s).1 := by
  unfold maintStatus
  repeat' first
    | with_reducible assumption
    | exact hc.mono rfl
    | intro _
    | lift_lets -underBinder
    | split
    | (conv => arg 3; zeta)


theorem maintCancel_only (r : MbReq) {s : State} (h : Only m s0 s) (hc : Sub 0xa401002c22 m) :
    Only m s0 (maintCancel r s).1 := by
  unfold maintCancel
  repeat' first
    | with_reducible assumption
    | exact hc.mono rfl
    | intro _
    | lift_lets -underBinder
    | with_reducible (first | apply startQueued_only | apply endActivity_only)
    | split
    | (conv => arg 3; zeta)


theorem stepCore_only (r : MbReq) {s : State} (h : Only m s0 s) (hc : Sub 0xc00010802 m) :
    Only m s0 (stepCore r s) := by
  unfold stepCore
  repeat' first
    | with_reducible assumption
    | exact hc.mono rfl
    | intro t (ht : Only m s0 t)
    | intro _
    | lift_lets -underBinder
    | with_reducible (first | apply respond_only | apply answerRamps_only | apply waitAnswer_only | apply commandCore_only)
    | with_reducible (first | apply onlySkip | apply onlyFold)
    | split


theorem stepModule_only (r : MbReq) {s : State} (h : Only m s0 s) (hc : Sub 0xc00002802 m) :
    Only m s0 (stepModule r s) := by
  unfold stepModule
  repeat' first
    | with_reducible assumption
    | exact hc.mono rfl
    | intro _
    | lift_lets -underBinder
    | with_reducible (first | apply respond_only | apply startChange_only | apply waitAnswer_only)
    | with_reducible apply onlySkip
    | split


theorem linkActivity_only (r : MbReq) {s : State} (op : ℕ) (o : ℕ) (h : Only m s0 s) (hc : Sub 0x7000000000 m) :
    Only m s0 (linkActivity r s op o).1 := by
  unfold linkActivity
  repeat' first
    | with_reducible assumption
    | exact hc.mono rfl
    | intro _
    | lift_lets -underBinder
    | with_reducible (first | apply addActivity_only | apply take_only)


theorem linkSleep_only (r : MbReq) {s : State} (h : Only m s0 s) (hc : Sub 0xfe07118c22 m) :
    Only m s0 (linkSleep r s) := by
  unfold linkSleep
  repeat' first
    | with_reducible assumption
    | exact hc.mono rfl
    | intro _
    | lift_lets -underBinder
    | with_reducible (first | apply respond_only | apply linkActivity_only | apply floodOwn_only | apply modLink_only | apply opticsSleep_only | apply linkGoesDown_only | apply endActivity_only)
    | with_reducible apply onlySkip
    | split


theorem linkWake_only (r : MbReq) {s : State} (h : Only m s0 s) (hc : Sub 0xf402000c22 m) :
    Only m s0 (linkWake r s).1 := by
  unfold linkWake
  repeat' first
    | with_reducible assumption
    | exact hc.mono rfl
    | intro _
    | lift_lets -underBinder
    | with_reducible (first | apply linkActivity_only | apply modLink_only | apply setLinkState_only | apply opticsWake_only | apply endActivity_only)
    | with_reducible apply onlySkip
    | split


theorem linkRelease_only (r : MbReq) {s : State} (h : Only m s0 s) (hc : Sub 0x2000002 m) :
    Only m s0 (linkRelease r s).1 := by
  unfold linkRelease
  repeat' first
    | with_reducible assumption
    | exact hc.mono rfl
    | intro _
    | lift_lets -underBinder
    | with_reducible (first | apply modLink_only | apply putBit_only | apply setLinkState_only)
    | with_reducible apply onlySkip
    | split


theorem markRead_only {s : State} (es : List LogEntry) (h : Only m s0 s) (hc : Sub 0x8000 m) :
    Only m s0 (markRead s es) := by
  unfold markRead
  repeat' first
    | with_reducible assumption
    | exact hc.mono rfl
    | intro _
    | lift_lets -underBinder
    | split
    | with_reducible apply only_faults
    | (conv => arg 3; zeta)


theorem logRead_only (r : MbReq) {s : State} (h : Only m s0 s) (hc : Sub 0x8000 m) :
    Only m s0 (logRead r s).1 := by
  unfold logRead
  repeat' first
    | with_reducible assumption
    | exact hc.mono rfl
    | intro _
    | lift_lets -underBinder
    | with_reducible apply markRead_only
    | with_reducible apply onlySkip
    | split
    | (conv => arg 3; zeta)


theorem logCounters_only (r : MbReq) {s : State} (h : Only m s0 s) (hc : Sub 0x0 m) :
    Only m s0 (logCounters r s).1 := by
  unfold logCounters
  repeat' first
    | with_reducible assumption
    | exact hc.mono rfl


theorem startFlash_only (r : MbReq) {s : State} (a : Activity) (h : Only m s0 s) (hc : Sub 0x7000000000 m) :
    Only m s0 (startFlash r s a).1 := by
  unfold startFlash
  repeat' first
    | with_reducible assumption
    | exact hc.mono rfl
    | intro _
    | lift_lets -underBinder
    | with_reducible (first | apply addActivity_only | apply take_only)
    | with_reducible apply onlySkip
    | split


theorem flashEraseCmd_only (r : MbReq) {s : State} (h : Only m s0 s) (hc : Sub 0x7000000000 m) :
    Only m s0 (flashEraseCmd r s).1 := by
  unfold flashEraseCmd
  repeat' first
    | with_reducible assumption
    | exact hc.mono rfl
    | intro _
    | lift_lets -underBinder
    | with_reducible apply startFlash_only
    | split
    | (conv => arg 3; zeta)


theorem flashProgramCmd_only (r : MbReq) {s : State} (h : Only m s0 s) (hc : Sub 0x7000000000 m) :
    Only m s0 (flashProgramCmd r s).1 := by
  unfold flashProgramCmd
  repeat' first
    | with_reducible assumption
    | exact hc.mono rfl
    | intro _
    | lift_lets -underBinder
    | with_reducible apply startFlash_only
    | with_reducible apply onlySkip
    | split
    | (conv => arg 3; zeta)


theorem fwSelect_only (r : MbReq) {s : State} (h : Only m s0 s) (hc : Sub 0x8000000000 m) :
    Only m s0 (fwSelect r s).1 := by
  unfold fwSelect
  repeat' first
    | with_reducible assumption
    | exact hc.mono rfl
    | intro _
    | lift_lets -underBinder
    | with_reducible apply onlySkip
    | split
    | with_reducible apply only_weir
    | (conv => arg 3; zeta)


theorem loadCore_only {s : State} (m' : Array Byte) (h' : PlanHead) (lc : ℕ) (core : ℕ) (region : ℕ) (stream : ℕ)
  (h : Only m s0 s) (hc : Sub 0x83c2 m) :
    Only m s0 (loadCore s m' h' lc core region stream).1 := by
  unfold loadCore
  repeat' first
    | with_reducible assumption
    | exact hc.mono rfl
    | intro _
    | lift_lets -underBinder
    | with_reducible apply writeMem_only
    | with_reducible apply only_mem_corePoison


theorem loadCores_only {s : State} (m' : Array Byte) (h' : PlanHead) (pl : Placement) (h : Only m s0 s) (hc : Sub 0x83c2 m) :
    Only m s0 (loadCores s m' h' pl).1 := by
  unfold loadCores
  repeat' first
    | with_reducible assumption
    | exact hc.mono rfl
    | intro t (ht : Only m s0 t)
    | intro _
    | lift_lets -underBinder
    | with_reducible apply loadCore_only
    | with_reducible (first | apply onlyFold | apply onlyFold1)


theorem takePlan_only {s : State} (r : MbReq) (p : ℕ) (plan : Plan) (pl : Placement) (h : Only m s0 s)
  (hc : Sub 0x10000683c2 m) :
    Only m s0 (takePlan s r p plan pl).1 := by
  unfold takePlan
  repeat' first
    | with_reducible assumption
    | exact hc.mono rfl
    | intro _
    | lift_lets -underBinder
    | with_reducible apply loadCores_only
    | with_reducible apply only_contexts_gens_taken


theorem checkPlan_only (r : MbReq) {s : State} (p : ℕ) (m' : Array Byte) (place : ℕ → ℕ) (h : Only m s0 s)
  (hc : Sub 0x10000683c2 m) :
    Only m s0 (checkPlan r s p m' place).1 := by
  unfold checkPlan
  repeat' first
    | with_reducible assumption
    | exact hc.mono rfl
    | intro _
    | lift_lets -underBinder
    | with_reducible apply takePlan_only
    | split
    | (conv => arg 3; zeta)


theorem planLoad_only (r : MbReq) {s : State} (h : Only m s0 s) (hc : Sub 0x10000683c2 m) :
    Only m s0 (planLoad r s).1 := by
  unfold planLoad
  repeat' first
    | with_reducible assumption
    | exact hc.mono rfl
    | intro _
    | lift_lets -underBinder
    | with_reducible apply checkPlan_only
    | with_reducible apply onlySkip
    | split
    | (conv => arg 3; zeta)


theorem markWeir_only {s : State} (w : Weir) (h : Only m s0 s) (hc : Sub 0x8000000002 m) :
    Only m s0 (markWeir s w) := by
  unfold markWeir
  repeat' first
    | with_reducible assumption
    | exact hc.mono rfl
    | intro _
    | lift_lets -underBinder
    | with_reducible apply showWeir_only
    | split
    | with_reducible apply only_weir
    | (conv => arg 3; zeta)


theorem loseMgmt_only {s : State} (h : Only m s0 s) (hc : Sub 0x8000000002 m) :
    Only m s0 (loseMgmt s) := by
  unfold loseMgmt
  repeat' first
    | with_reducible assumption
    | exact hc.mono rfl
    | intro _
    | lift_lets -underBinder
    | with_reducible apply showWeir_only
    | with_reducible apply only_weir


theorem raiseWeir_only {s : State} (code : ℕ) (w : Weir) (h : Only m s0 s) (hc : Sub 0x8000 m) :
    Only m s0 (raiseWeir s code w) := by
  unfold raiseWeir
  repeat' first
    | with_reducible assumption
    | exact hc.mono rfl
    | with_reducible apply raise_only


theorem declareFailed_only {s : State} (beatsOnly : Bool) (h : Only m s0 s) (hc : Sub 0xa400008022 m) :
    Only m s0 (declareFailed s beatsOnly) := by
  unfold declareFailed
  repeat' first
    | with_reducible assumption
    | exact hc.mono rfl
    | intro _
    | lift_lets -underBinder
    | with_reducible (first | apply raiseWeir_only | apply declare_only | apply loseMgmt_only | apply beginGap_only)
    | with_reducible apply onlySkip
    | split
    | (conv => arg 3; zeta)


theorem endActs_only {s : State} (p : Activity → Bool) (status : ℕ) (detail : ℕ) (h : Only m s0 s) (hc : Sub 0xa400000c22 m) :
    Only m s0 (endActs s p status detail) := by
  unfold endActs
  repeat' first
    | with_reducible assumption
    | exact hc.mono rfl
    | intro t (ht : Only m s0 t)
    | intro _
    | with_reducible apply endActivity_only
    | with_reducible apply onlyFold


theorem resumeFirmware_only {s : State} (h : Only m s0 s) (hc : Sub 0x11ac06000c22 m) :
    Only m s0 (resumeFirmware s) := by
  unfold resumeFirmware
  repeat' first
    | with_reducible assumption
    | exact hc.mono rfl
    | intro _
    | lift_lets -underBinder
    | with_reducible (first | apply putBit_only | apply endActs_only | apply answerEnded_only | apply resumeFabric_only | apply writeOwed_only | apply switchWaiting_only | apply clearStale_only)
    | split
    | with_reducible apply only_weir
    | (conv => arg 3; zeta)


theorem retryPending_only {s : State} (h : Only m s0 s) (hc : Sub 0x2000c00000802 m) :
    Only m s0 (retryPending s) := by
  unfold retryPending
  repeat' first
    | with_reducible assumption
    | exact hc.mono rfl
    | intro t (ht : Only m s0 t)
    | intro _
    | with_reducible apply respondUncommitted_only
    | with_reducible apply onlyFold


theorem gapFailed_only {s : State} (g : Gap) (h : Only m s0 s) (hc : Sub 0x11ac0700ac22 m) :
    Only m s0 (gapFailed s g) := by
  unfold gapFailed
  repeat' first
    | with_reducible assumption
    | exact hc.mono rfl
    | intro _
    | lift_lets -underBinder
    | with_reducible (first | apply raiseWeir_only | apply offDomain_only | apply markWeir_only | apply startQueued_only | apply endActs_only | apply resumeFirmware_only | apply rampDomain_only | apply loseMgmt_only)
    | with_reducible apply onlySkip
    | split
    | with_reducible apply only_weir
    | (conv => arg 3; zeta)


theorem takeOver_only {s : State} (g : Gap) (h : Only m s0 s) (hc : Sub 0x211ac0700ac22 m) :
    Only m s0 (takeOver s g) := by
  unfold takeOver
  repeat' first
    | with_reducible assumption
    | exact hc.mono rfl
    | intro t (ht : Only m s0 t)
    | intro _
    | lift_lets -underBinder
    | with_reducible (first | apply offDomain_only | apply markWeir_only | apply raiseFlag_only | apply putField_only | apply showWeir_only | apply retryPending_only | apply resumeFirmware_only | apply fwLogSev_only | apply event_only | apply startQueued_only | apply endActs_only)
    | with_reducible (first | apply onlySkip | apply onlyFold)
    | split
    | with_reducible apply only_weir


theorem switchoverComplete_only {s : State} (h : Only m s0 s) (hc : Sub 0x211ac0700ac22 m) :
    Only m s0 (switchoverComplete s) := by
  unfold switchoverComplete
  repeat' first
    | with_reducible assumption
    | exact hc.mono rfl
    | intro _
    | lift_lets -underBinder
    | with_reducible apply takeOver_only
    | with_reducible apply onlySkip
    | split
    | (conv => arg 3; zeta)


theorem gapBoundExpiry_only {s : State} (h : Only m s0 s) (hc : Sub 0x11ac0700ac22 m) :
    Only m s0 (gapBoundExpiry s) := by
  unfold gapBoundExpiry
  repeat' first
    | with_reducible assumption
    | exact hc.mono rfl
    | intro _
    | lift_lets -underBinder
    | with_reducible apply gapFailed_only
    | with_reducible apply onlySkip
    | split
    | (conv => arg 3; zeta)


theorem setMissed_only {s : State} (p : BeatPath) (n : ℕ) (h : Only m s0 s) (hc : Sub 0x8000000000 m) :
    Only m s0 (setMissed s p n) := by
  unfold setMissed
  repeat' first
    | with_reducible assumption
    | exact hc.mono rfl
    | intro _
    | lift_lets -underBinder
    | split
    | with_reducible apply only_weir
    | (conv => arg 3; zeta)


theorem awaitBeat_only {s : State} (p : BeatPath) (t : ℕ) (h : Only m s0 s) (hc : Sub 0x8000000000 m) :
    Only m s0 (awaitBeat s p t) := by
  unfold awaitBeat
  repeat' first
    | with_reducible assumption
    | exact hc.mono rfl
    | intro _
    | lift_lets -underBinder
    | split
    | with_reducible apply only_weir
    | (conv => arg 3; zeta)


theorem beat_only (p : BeatPath) (count : ℕ) {s : State} (h : Only m s0 s) (hc : Sub 0x8000000002 m) :
    Only m s0 (beat p count s) := by
  unfold beat
  repeat' first
    | with_reducible assumption
    | exact hc.mono rfl
    | intro _
    | lift_lets -underBinder
    | with_reducible (first | apply awaitBeat_only | apply setMissed_only | apply putBit_only)
    | with_reducible apply onlySkip
    | split
    | with_reducible apply only_weir
    | (conv => arg 3; zeta)


theorem beatMissed_only (p : BeatPath) {s : State} (h : Only m s0 s) (hc : Sub 0xa400008022 m) :
    Only m s0 (beatMissed p s) := by
  unfold beatMissed
  repeat' first
    | with_reducible assumption
    | exact hc.mono rfl
    | intro _
    | lift_lets -underBinder
    | with_reducible (first | apply awaitBeat_only | apply setMissed_only | apply declareFailed_only | apply raiseWeir_only | apply putBit_only)
    | with_reducible apply onlySkip
    | split
    | (conv => arg 3; zeta)


theorem explicitFault_only (p : BeatPath) (k : WeirFault) {s : State} (h : Only m s0 s) (hc : Sub 0x11ac0700ac22 m) :
    Only m s0 (explicitFault p k s) := by
  unfold explicitFault
  repeat' first
    | with_reducible assumption
    | exact hc.mono rfl
    | intro _
    | lift_lets -underBinder
    | with_reducible (first | apply gapFailed_only | apply declareFailed_only)
    | with_reducible apply onlySkip
    | split
    | (conv => arg 3; zeta)


theorem checkpointWrite_only {s : State} (h : Only m s0 s) (hc : Sub 0x8000000000 m) :
    Only m s0 (checkpointWrite s) := by
  unfold checkpointWrite
  repeat' first
    | with_reducible assumption
    | exact hc.mono rfl
    | intro _
    | lift_lets -underBinder
    | with_reducible apply onlySkip
    | split
    | with_reducible apply only_weir


theorem standbyImageCheck_only (good : Bool) {s : State} (h : Only m s0 s) (hc : Sub 0x8000008002 m) :
    Only m s0 (standbyImageCheck good s) := by
  unfold standbyImageCheck
  repeat' first
    | with_reducible assumption
    | exact hc.mono rfl
    | intro _
    | lift_lets -underBinder
    | with_reducible (first | apply putBit_only | apply fwLog_only)
    | with_reducible apply onlySkip
    | split
    | with_reducible apply only_weir
    | (conv => arg 3; zeta)


theorem showFeeds_only {s : State} (h : Only m s0 s) (hc : Sub 0x2 m) :
    Only m s0 (showFeeds s) := by
  unfold showFeeds
  repeat' first
    | with_reducible assumption
    | exact hc.mono rfl
    | with_reducible apply putBit_only


theorem allOff_only {s : State} (h : Only m s0 s) (hc : Sub 0x7effefbff3fe m) : Only m s0 (allOff s) := by
  refine showFeeds_only (showWeir_only (putField_only _ _ _ _ (h.trans ⟨fun p hp => ?_⟩) (hc.mono rfl)) (hc.mono rfl)) (hc.mono rfl)
  cases p <;> first
    | rfl
    | (rw [hc.bit (by rfl)] at hp; cases hp)

theorem loseIsland_only {s : State} (h : Only m s0 s) (hc : Sub 0x28010609006 m) :
    Only m s0 (loseIsland s) := by
  unfold loseIsland
  repeat' first
    | with_reducible assumption
    | exact hc.mono rfl
    | intro _
    | lift_lets -underBinder
    | with_reducible apply dropRegs_only
    | with_reducible apply only_time_faults_parts_far_vfRanges_weir_island


theorem drainEgress_only {s : State} (h : Only m s0 s) (hc : Sub 0x3000802 m) :
    Only m s0 (drainEgress s) := by
  unfold drainEgress
  repeat' first
    | with_reducible assumption
    | exact hc.mono rfl
    | intro t (ht : Only m s0 t)
    | intro _
    | lift_lets -underBinder
    | with_reducible (first | apply modLink_only | apply modSite_only | apply transmit_only)
    | with_reducible (first | apply onlySkip | apply onlyFold)
    | split


theorem rampAll_only {s : State} (ds : List ℕ) (h : Only m s0 s) (hc : Sub 0x2 m) :
    Only m s0 (rampAll s ds) := by
  unfold rampAll
  repeat' first
    | with_reducible assumption
    | exact hc.mono rfl
    | intro t (ht : Only m s0 t)
    | intro _
    | with_reducible apply rampDomain_only
    | with_reducible apply onlyFold


theorem beginStart_only (moduleReset : Bool) {s : State} (h : Only m s0 s) (hc : Sub 0x8000000002 m) :
    Only m s0 (beginStart moduleReset s) := by
  unfold beginStart
  repeat' first
    | with_reducible assumption
    | exact hc.mono rfl
    | intro _
    | lift_lets -underBinder
    | with_reducible (first | apply showWeir_only | apply putField_only | apply rampAll_only)
    | with_reducible apply onlySkip
    | split
    | with_reducible apply only_weir


theorem moduleReset_only {s : State} (h : Only m s0 s) (hc : Sub 0x7effefbffbfe m) :
    Only m s0 (moduleReset s) := by
  unfold moduleReset
  repeat' first
    | with_reducible assumption
    | exact hc.mono rfl
    | intro _
    | lift_lets -underBinder
    | with_reducible (first | apply beginStart_only | apply allOff_only | apply drainEgress_only)
    | with_reducible apply onlySkip
    | split
    | with_reducible apply only_start
    | (conv => arg 3; zeta)


theorem portUp_only {s : State} (i : ℕ) (h : Only m s0 s) (hc : Sub 0x1000002 m) :
    Only m s0 (portUp s i) := by
  unfold portUp
  repeat' first
    | with_reducible assumption
    | exact hc.mono rfl
    | intro t (ht : Only m s0 t)
    | intro _
    | lift_lets -underBinder
    | with_reducible (first | apply putReg_only | apply modAbango_only | apply caps_only | apply offer_only | apply limit_only | apply putField_only | apply putBit_only)
    | with_reducible apply onlyFold


theorem domainUp_only {s : State} (d : ℕ) (h : Only m s0 s) (hc : Sub 0xc01002802 m) :
    Only m s0 (domainUp s d) := by
  unfold domainUp
  repeat' first
    | with_reducible assumption
    | exact hc.mono rfl
    | intro _
    | lift_lets -underBinder
    | with_reducible (first | apply putField_only | apply answerRamps_only | apply showUncore_only | apply sideUp_only | apply pondReturns_only | apply portUp_only)
    | with_reducible apply onlySkip
    | split


theorem settleDomains_only {s : State} (ds : List ℕ) (h : Only m s0 s) (hc : Sub 0xc01002802 m) :
    Only m s0 (settleDomains s ds) := by
  unfold settleDomains
  repeat' first
    | with_reducible assumption
    | exact hc.mono rfl
    | intro t (ht : Only m s0 t)
    | intro _
    | with_reducible apply domainUp_only
    | with_reducible (first | apply onlySkip | apply onlyFold)
    | split


theorem lockPlls_only {s : State} (ref : ℕ → ℕ) (h : Only m s0 s) (hc : Sub 0x2002 m) :
    Only m s0 (lockPlls s ref) := by
  unfold lockPlls
  repeat' first
    | with_reducible assumption
    | exact hc.mono rfl
    | intro t (ht : Only m s0 t)
    | intro _
    | lift_lets -underBinder
    | with_reducible apply putBit_only
    | with_reducible apply onlyFold
    | with_reducible apply only_clock


theorem selectRefs_only {s : State} (h : Only m s0 s) (hc : Sub 0x2002 m) :
    Only m s0 (selectRefs s) := by
  unfold selectRefs
  repeat' first
    | with_reducible assumption
    | exact hc.mono rfl
    | intro _
    | with_reducible apply lockPlls_only
    | with_reducible apply onlySkip
    | split


theorem endStage3_only {s : State} (h : Only m s0 s) (hc : Sub 0x2 m) :
    Only m s0 (endStage3 s) := by
  unfold endStage3
  repeat' first
    | with_reducible assumption
    | exact hc.mono rfl
    | intro _
    | with_reducible (first | apply rampAll_only | apply putField_only)
    | with_reducible apply onlySkip
    | split


theorem enterStage5_only {s : State} (h : Only m s0 s) (hc : Sub 0x100000000002 m) :
    Only m s0 (enterStage5 s) := by
  unfold enterStage5
  repeat' first
    | with_reducible assumption
    | exact hc.mono rfl
    | intro t (ht : Only m s0 t)
    | intro _
    | lift_lets -underBinder
    | with_reducible (first | apply putField_only | apply warmSpring_only | apply rampDomain_only)
    | with_reducible (first | apply onlySkip | apply onlyFold)
    | split


theorem holdSites_only {s : State} (cause : State → ℕ → ℕ) (h : Only m s0 s) (hc : Sub 0x100860733efe6 m) :
    Only m s0 (holdSites s cause) := by
  unfold holdSites
  repeat' first
    | with_reducible assumption
    | exact hc.mono rfl
    | intro t (ht : Only m s0 t)
    | intro _
    | with_reducible apply siteReset_only
    | with_reducible (first | apply onlySkip | apply onlyFold)
    | split


theorem enterStage6_only {s : State} (h : Only m s0 s) (hc : Sub 0x100860733efe6 m) :
    Only m s0 (enterStage6 s) := by
  unfold enterStage6
  repeat' first
    | with_reducible assumption
    | exact hc.mono rfl
    | intro t (ht : Only m s0 t)
    | intro _
    | lift_lets -underBinder
    | with_reducible (first | apply holdSites_only | apply putField_only | apply rampDomain_only | apply modCore_only)
    | with_reducible apply onlyFold


theorem endStage5_only {s : State} (h : Only m s0 s) (hc : Sub 0x100860733efe6 m) :
    Only m s0 (endStage5 s) := by
  unfold endStage5
  repeat' first
    | with_reducible assumption
    | exact hc.mono rfl
    | intro _
    | with_reducible apply enterStage6_only
    | with_reducible apply onlySkip
    | split


theorem endStage8_only {s : State} (h : Only m s0 s) (hc : Sub 0x2 m) :
    Only m s0 (endStage8 s) := by
  unfold endStage8
  repeat' first
    | with_reducible assumption
    | exact hc.mono rfl
    | intro _
    | with_reducible apply putField_only
    | with_reducible apply onlySkip
    | split


theorem advanceStart_only {s : State} (h : Only m s0 s) (hc : Sub 0x100860733efe6 m) :
    Only m s0 (advanceStart s) := by
  unfold advanceStart
  repeat' first
    | with_reducible assumption
    | exact hc.mono rfl
    | intro _
    | lift_lets -underBinder
    | with_reducible (first | apply putField_only | apply endStage8_only | apply endStage5_only | apply endStage3_only)
    | with_reducible apply onlySkip
    | split


theorem domainReady_only (d : ℕ) {s : State} (h : Only m s0 s) (hc : Sub 0x1008e0733efe6 m) :
    Only m s0 (domainReady d s) := by
  unfold domainReady
  repeat' first
    | with_reducible assumption
    | exact hc.mono rfl
    | intro _
    | lift_lets -underBinder
    | with_reducible (first | apply rampAll_only | apply advanceStart_only | apply domainUp_only)
    | with_reducible apply onlySkip
    | split
    | (conv => arg 3; zeta)


theorem springFailedAt_only (n : ℕ) (cause : SpringFault) {s : State} (h : Only m s0 s) (hc : Sub 0x110a60733efe6 m) :
    Only m s0 (springFailedAt n cause s) := by
  unfold springFailedAt
  repeat' first
    | with_reducible assumption
    | exact hc.mono rfl
    | intro _
    | lift_lets -underBinder
    | with_reducible (first | apply springFailed_only | apply advanceStart_only | apply takeSpare_only)
    | with_reducible apply onlySkip
    | split


theorem setFeed_only {s : State} (f : Feed) (b : Bool) (h : Only m s0 s) (hc : Sub 0x40000000002 m) :
    Only m s0 (setFeed s f b) := by
  unfold setFeed
  repeat' first
    | with_reducible assumption
    | exact hc.mono rfl
    | intro _
    | lift_lets -underBinder
    | with_reducible apply showFeeds_only
    | split
    | with_reducible apply only_power
    | (conv => arg 3; zeta)


theorem raiseFeed_only {s : State} (code : ℕ) (f : Feed) (h : Only m s0 s) (hc : Sub 0x8000 m) :
    Only m s0 (raiseFeed s code f) := by
  unfold raiseFeed
  repeat' first
    | with_reducible assumption
    | exact hc.mono rfl
    | with_reducible apply raise_only


theorem feedBad_only (f : Feed) {s : State} (h : Only m s0 s) (hc : Sub 0x60000008022 m) :
    Only m s0 (feedBad f s) := by
  unfold feedBad
  repeat' first
    | with_reducible assumption
    | exact hc.mono rfl
    | intro _
    | lift_lets -underBinder
    | with_reducible (first | apply raiseFeed_only | apply raiseFlag_only | apply setFeed_only)
    | with_reducible apply onlySkip
    | split
    | with_reducible apply only_island


theorem feedGood_only (f : Feed) {s : State} (h : Only m s0 s) (hc : Sub 0x60000008002 m) :
    Only m s0 (feedGood f s) := by
  unfold feedGood
  repeat' first
    | with_reducible assumption
    | exact hc.mono rfl
    | intro _
    | lift_lets -underBinder
    | with_reducible (first | apply raiseFeed_only | apply setFeed_only)
    | with_reducible apply onlySkip
    | split
    | with_reducible apply only_island


theorem islandToVkeep_only {s : State} (h : Only m s0 s) (hc : Sub 0x7effefbff3fe m) :
    Only m s0 (islandToVkeep s) := by
  unfold islandToVkeep
  repeat' first
    | with_reducible assumption
    | exact hc.mono rfl
    | intro _
    | lift_lets -underBinder
    | with_reducible apply allOff_only
    | with_reducible apply onlySkip
    | split
    | with_reducible (first | apply only_time | apply only_island)
    | (conv => arg 3; zeta)


theorem islandReturn_only (sosc : ℕ) {s : State} (h : Only m s0 s) (hc : Sub 0x28000001002 m) :
    Only m s0 (islandReturn sosc s) := by
  unfold islandReturn
  repeat' first
    | with_reducible assumption
    | exact hc.mono rfl
    | intro _
    | lift_lets -underBinder
    | with_reducible apply beginStart_only
    | with_reducible apply onlySkip
    | split
    | with_reducible (first | apply only_time | apply only_island)
    | (conv => arg 3; zeta)


theorem vkeepLost_only {s : State} (h : Only m s0 s) (hc : Sub 0x28010609006 m) :
    Only m s0 (vkeepLost s) := by
  unfold vkeepLost
  repeat' first
    | with_reducible assumption
    | exact hc.mono rfl
    | intro _
    | with_reducible apply loseIsland_only
    | with_reducible apply onlySkip
    | split


theorem thermalTrip_only (unit : ℕ) (first : BitVec 16) (second : BitVec 16) {s : State} (h : Only m s0 s)
  (hc : Sub 0x7effefbffbfe m) :
    Only m s0 (thermalTrip unit first second s) := by
  unfold thermalTrip
  repeat' first
    | with_reducible assumption
    | exact hc.mono rfl
    | intro _
    | lift_lets -underBinder
    | with_reducible (first | apply allOff_only | apply drainEgress_only)
    | with_reducible apply onlySkip
    | split
    | with_reducible apply only_island
    | (conv => arg 3; zeta)


theorem tripClear_only {s : State} (h : Only m s0 s) (hc : Sub 0x20000000000 m) :
    Only m s0 (tripClear s) := by
  unfold tripClear
  repeat' first
    | with_reducible assumption
    | exact hc.mono rfl
    | intro _
    | lift_lets -underBinder
    | with_reducible apply onlySkip
    | split
    | with_reducible apply only_island
    | (conv => arg 3; zeta)


theorem failTarn_only {s : State} (i : ℕ) (cause : ℕ) (h : Only m s0 s) (hc : Sub 0x8401038c22 m) :
    Only m s0 (failTarn s i cause) := by
  unfold failTarn
  repeat' first
    | with_reducible assumption
    | exact hc.mono rfl
    | intro t (ht : Only m s0 t)
    | intro _
    | lift_lets -underBinder
    | with_reducible (first | apply fenceCore_only | apply putBit_only | apply fwLog_only | apply putReg_only)
    | with_reducible (first | apply onlySkip | apply onlyFold)
    | split


theorem loseUnit_only {s : State} (d : ℕ) (h : Only m s0 s) (hc : Sub 0x17fffefbffffe m) :
    Only m s0 (loseUnit s d) := by
  unfold loseUnit
  repeat' first
    | with_reducible assumption
    | exact hc.mono rfl
    | intro _
    | lift_lets -underBinder
    | with_reducible (first | apply fenceCore_only | apply failTarn_only | apply siteReset_only | apply linkGoesDown_only | apply springFailedAt_only | apply allOff_only | apply hostLinkDown_only | apply explicitFault_only)
    | with_reducible apply onlySkip
    | split
    | (conv => arg 3; zeta)


theorem domainVoltageFault_only (d : ℕ) {s : State} (h : Only m s0 s) (hc : Sub 0x17fffefbffffe m) :
    Only m s0 (domainVoltageFault d s) := by
  unfold domainVoltageFault
  repeat' first
    | with_reducible assumption
    | exact hc.mono rfl
    | intro _
    | lift_lets -underBinder
    | with_reducible (first | apply raise_only | apply raiseFlag_only | apply loseUnit_only | apply putReg_only)
    | with_reducible apply onlySkip
    | split


theorem coreIdlePowerOff_only (c' : ℕ) {s : State} (h : Only m s0 s) (hc : Sub 0x10002 m) :
    Only m s0 (coreIdlePowerOff c' s) := by
  unfold coreIdlePowerOff
  repeat' first
    | with_reducible assumption
    | exact hc.mono rfl
    | intro _
    | lift_lets -underBinder
    | with_reducible apply coreOff_only
    | with_reducible apply onlySkip
    | split
    | (conv => arg 3; zeta)


theorem showThrottle_only {s : State} (on : Bool) (k : ℕ) (h : Only m s0 s) (hc : Sub 0x40000000002 m) :
    Only m s0 (showThrottle s on k) := by
  unfold showThrottle
  repeat' first
    | with_reducible assumption
    | exact hc.mono rfl
    | intro _
    | lift_lets -underBinder
    | with_reducible (first | apply putField_only | apply putBit_only)
    | with_reducible apply only_power


theorem throttleStart_only (f : Feed) {s : State} (h : Only m s0 s) (hc : Sub 0x40000018022 m) :
    Only m s0 (throttleStart f s) := by
  unfold throttleStart
  repeat' first
    | with_reducible assumption
    | exact hc.mono rfl
    | intro t (ht : Only m s0 t)
    | intro _
    | lift_lets -underBinder
    | with_reducible (first | apply addPair_only | apply raiseFlag_only | apply showThrottle_only | apply raise_only | apply rampCore_only)
    | with_reducible (first | apply onlySkip | apply onlyFold)
    | split
    | with_reducible apply only_power
    | (conv => arg 3; zeta)


theorem throttleLast_only {s : State} (f : Feed) (h : Only m s0 s) (hc : Sub 0x48401038c22 m) :
    Only m s0 (throttleLast s f) := by
  unfold throttleLast
  repeat' first
    | with_reducible assumption
    | exact hc.mono rfl
    | intro t (ht : Only m s0 t)
    | intro _
    | lift_lets -underBinder
    | with_reducible (first | apply raise_only | apply showThrottle_only | apply fenceCore_only)
    | with_reducible apply onlyFold


theorem lowerCores_only {s : State} (cs : List ℕ) (h : Only m s0 s) (hc : Sub 0x40000010002 m) :
    Only m s0 (lowerCores s cs) := by
  unfold lowerCores
  repeat' first
    | with_reducible assumption
    | exact hc.mono rfl
    | intro t (ht : Only m s0 t)
    | intro _
    | lift_lets -underBinder
    | with_reducible apply rampCore_only
    | with_reducible apply onlyFold
    | with_reducible apply only_power


theorem throttleStep_only (f : Feed) {s : State} (h : Only m s0 s) (hc : Sub 0x48401038c22 m) :
    Only m s0 (throttleStep f s) := by
  unfold throttleStep
  repeat' first
    | with_reducible assumption
    | exact hc.mono rfl
    | intro t (ht : Only m s0 t)
    | intro _
    | lift_lets -underBinder
    | with_reducible (first | apply throttleLast_only | apply lowerCores_only | apply showThrottle_only | apply raise_only)
    | with_reducible (first | apply onlySkip | apply onlyFold)
    | split
    | (conv => arg 3; zeta)


theorem throttleEnd_only {s : State} (h : Only m s0 s) (hc : Sub 0x40000000002 m) :
    Only m s0 (throttleEnd s) := by
  unfold throttleEnd
  repeat' first
    | with_reducible assumption
    | exact hc.mono rfl
    | intro _
    | lift_lets -underBinder
    | with_reducible (first | apply addPair_only | apply showThrottle_only)
    | split
    | with_reducible apply only_power
    | (conv => arg 3; zeta)


theorem housekeepingPeriod_only {s : State} (h : Only m s0 s) (hc : Sub 0x80000000002 m) :
    Only m s0 (housekeepingPeriod s) := by
  unfold housekeepingPeriod
  repeat' first
    | with_reducible assumption
    | exact hc.mono rfl
    | intro _
    | with_reducible apply houseTrig_only
    | with_reducible apply onlySkip
    | split


theorem checkChan_only {s : State} (rs : List RoundReading) (c' : ℕ) (h : Only m s0 s) (hc : Sub 0x8002 m) :
    Only m s0 (checkChan s rs c') := by
  unfold checkChan
  repeat' first
    | with_reducible assumption
    | exact hc.mono rfl
    | intro _
    | lift_lets -underBinder
    | with_reducible (first | apply raise_only | apply putBit_only)
    | with_reducible apply onlySkip
    | split
    | (conv => arg 3; zeta)


theorem breakSensor_only {s : State} (i : ℕ) (k : ℕ) (h : Only m s0 s) (hc : Sub 0x1008000 m) :
    Only m s0 (breakSensor s i k) := by
  unfold breakSensor
  repeat' first
    | with_reducible assumption
    | exact hc.mono rfl
    | intro _
    | lift_lets -underBinder
    | with_reducible (first | apply raise_only | apply modSite_only)


theorem checkStack_only {s : State} (i : ℕ) (h : Only m s0 s) (hc : Sub 0x1008000 m) :
    Only m s0 (checkStack s i) := by
  unfold checkStack
  repeat' first
    | with_reducible assumption
    | exact hc.mono rfl
    | intro t (ht : Only m s0 t)
    | intro _
    | lift_lets -underBinder
    | with_reducible (first | apply breakSensor_only | apply modSite_only)
    | with_reducible (first | apply onlySkip | apply onlyFold)
    | split


theorem showStack_only {s : State} (i : ℕ) (h : Only m s0 s) (hc : Sub 0x8002 m) :
    Only m s0 (showStack s i) := by
  unfold showStack
  repeat' first
    | with_reducible assumption
    | exact hc.mono rfl
    | intro _
    | lift_lets -underBinder
    | with_reducible (first | apply putBit_only | apply putReg_only | apply raise_only)
    | with_reducible apply onlySkip
    | split


theorem raiseB3_only {s : State} (old : ℕ) (new : ℕ) (unit : ℕ) (src : ℕ) (h : Only m s0 s) (hc : Sub 0x8000 m) :
    Only m s0 (raiseB3 s old new unit src) := by
  unfold raiseB3
  repeat' first
    | with_reducible assumption
    | exact hc.mono rfl
    | intro _
    | with_reducible apply raise_only
    | with_reducible apply onlySkip
    | split


theorem putFall_only {s : State} (i : ℕ) (k : ℕ) (n : ℕ) (h : Only m s0 s) (hc : Sub 0x1000000 m) :
    Only m s0 (putFall s i k n) := by
  unfold putFall
  repeat' first
    | with_reducible assumption
    | exact hc.mono rfl
    | intro _
    | lift_lets -underBinder
    | with_reducible apply modSite_only


theorem stackBands_only {s : State} (i : ℕ) (h : Only m s0 s) (hc : Sub 0x1008002 m) :
    Only m s0 (stackBands s i) := by
  unfold stackBands
  repeat' first
    | with_reducible assumption
    | exact hc.mono rfl
    | intro _
    | lift_lets -underBinder
    | with_reducible (first | apply raiseB3_only | apply putField_only | apply putFall_only)
    | with_reducible apply onlySkip
    | split
    | (conv => arg 3; zeta)


theorem hbmBand_only {s : State} (rs : List RoundReading) (i : ℕ) (h : Only m s0 s) (hc : Sub 0x1008000 m) :
    Only m s0 (hbmBand s rs i) := by
  unfold hbmBand
  repeat' first
    | with_reducible assumption
    | exact hc.mono rfl
    | intro _
    | lift_lets -underBinder
    | with_reducible (first | apply modSite_only | apply putFall_only | apply raiseB3_only)
    | with_reducible apply onlySkip
    | split
    | (conv => arg 3; zeta)


theorem portBand_only {s : State} (rs : List RoundReading) (i : ℕ) (h : Only m s0 s) (hc : Sub 0x2001008022 m) :
    Only m s0 (portBand s rs i) := by
  unfold portBand
  repeat' first
    | with_reducible assumption
    | exact hc.mono rfl
    | intro _
    | lift_lets -underBinder
    | with_reducible (first | apply putFall_only | apply putField_only | apply raiseB3_only | apply abandonCals_only)
    | with_reducible apply onlySkip
    | split


theorem springBand_only {s : State} (rs : List RoundReading) (n : ℕ) (h : Only m s0 s) (hc : Sub 0x100000008002 m) :
    Only m s0 (springBand s rs n) := by
  unfold springBand
  repeat' first
    | with_reducible assumption
    | exact hc.mono rfl
    | intro _
    | lift_lets -underBinder
    | with_reducible (first | apply putSpring_only | apply putField_only | apply raiseB3_only)
    | with_reducible apply onlySkip
    | split
    | (conv => arg 3; zeta)


theorem putMonitor_only {s : State} (r : MonReading) (h : Only m s0 s) (hc : Sub 0x2 m) :
    Only m s0 (putMonitor s r) := by
  unfold putMonitor
  repeat' first
    | with_reducible assumption
    | exact hc.mono rfl
    | intro _
    | lift_lets -underBinder
    | with_reducible apply putReg_only
    | with_reducible apply onlySkip
    | split


theorem takeMonitors_only {s : State} (ms : List MonReading) (h : Only m s0 s) (hc : Sub 0x8002 m) :
    Only m s0 (takeMonitors s ms) := by
  unfold takeMonitors
  repeat' first
    | with_reducible assumption
    | exact hc.mono rfl
    | intro t (ht : Only m s0 t)
    | intro _
    | lift_lets -underBinder
    | with_reducible (first | apply putMonitor_only | apply fwLog_only)
    | with_reducible apply onlyFold


theorem publish_only {s : State} (rs : List RoundReading) (ms : List MonReading) (h : Only m s0 s) (hc : Sub 0x2 m) :
    Only m s0 (publish s rs ms) := by
  unfold publish
  repeat' first
    | with_reducible assumption
    | exact hc.mono rfl
    | intro t (ht : Only m s0 t)
    | intro _
    | with_reducible apply putReg_only
    | with_reducible apply onlyFold


theorem takeFeeds_only {s : State} (rs : List RoundReading) (h : Only m s0 s) (hc : Sub 0x40000000002 m) :
    Only m s0 (takeFeeds s rs) := by
  unfold takeFeeds
  repeat' first
    | with_reducible assumption
    | exact hc.mono rfl
    | intro _
    | lift_lets -underBinder
    | with_reducible apply putReg_only
    | with_reducible apply onlySkip
    | split
    | with_reducible apply only_power


theorem takeGrid_only {s : State} (rs : List RoundReading) (n : ℕ) (h : Only m s0 s) (hc : Sub 0x22 m) :
    Only m s0 (takeGrid s rs n) := by
  unfold takeGrid
  repeat' first
    | with_reducible assumption
    | exact hc.mono rfl
    | intro _
    | lift_lets -underBinder
    | with_reducible (first | apply putReg_only | apply raiseFlag_only | apply putBit_only)
    | with_reducible apply onlySkip
    | split
    | (conv => arg 3; zeta)


theorem lowerForBands_only {s : State} (h : Only m s0 s) (hc : Sub 0x10002 m) :
    Only m s0 (lowerForBands s) := by
  unfold lowerForBands
  repeat' first
    | with_reducible assumption
    | exact hc.mono rfl
    | intro t (ht : Only m s0 t)
    | intro _
    | with_reducible apply commandCore_only
    | with_reducible apply onlyFold


theorem lowerModule_only {s : State} (h : Only m s0 s) (hc : Sub 0x2802 m) :
    Only m s0 (lowerModule s) := by
  unfold lowerModule
  repeat' first
    | with_reducible assumption
    | exact hc.mono rfl
    | intro _
    | lift_lets -underBinder
    | with_reducible apply startChange_only
    | with_reducible apply onlySkip
    | split


theorem retryPins_only {s : State} (h : Only m s0 s) (hc : Sub 0x10002 m) :
    Only m s0 (retryPins s) := by
  unfold retryPins
  repeat' first
    | with_reducible assumption
    | exact hc.mono rfl
    | intro t (ht : Only m s0 t)
    | intro _
    | lift_lets -underBinder
    | with_reducible apply commandCore_only
    | with_reducible (first | apply onlySkip | apply onlyFold)
    | split
    | (conv => arg 3; zeta)


theorem restoreTarn_only {s : State} (h : Only m s0 s) (hc : Sub 0x40000010002 m) :
    Only m s0 (restoreTarn s) := by
  unfold restoreTarn
  repeat' first
    | with_reducible assumption
    | exact hc.mono rfl
    | intro t (ht : Only m s0 t)
    | intro _
    | lift_lets -underBinder
    | with_reducible apply rampCore_only
    | with_reducible (first | apply onlySkip | apply onlyFold)
    | split
    | with_reducible apply only_power
    | (conv => arg 3; zeta)


theorem firmwareRound_only {s : State} (h : Only m s0 s) (hc : Sub 0x40000012802 m) :
    Only m s0 (firmwareRound s) := by
  unfold firmwareRound
  repeat' first
    | with_reducible assumption
    | exact hc.mono rfl
    | intro _
    | lift_lets -underBinder
    | with_reducible (first | apply lowerModule_only | apply lowerForBands_only | apply restoreTarn_only | apply retryPins_only)
    | with_reducible apply onlySkip
    | split


theorem secondVia_only {s : State} (i : ℕ) (d : Dir) (g : ℕ) (h : Only m s0 s) (hc : Sub 0x8401038c22 m) :
    Only m s0 (secondVia s i d g) := by
  unfold secondVia
  repeat' first
    | with_reducible assumption
    | exact hc.mono rfl
    | intro _
    | lift_lets -underBinder
    | with_reducible (first | apply failTarn_only | apply raise_only)
    | with_reducible apply onlySkip
    | split


theorem endRound_only {s : State} (h : Only m s0 s) (hc : Sub 0x80000000002 m) :
    Only m s0 (endRound s) := by
  unfold endRound
  repeat' first
    | with_reducible assumption
    | exact hc.mono rfl
    | intro _
    | lift_lets -underBinder
    | with_reducible (first | apply putReg_only | apply putBit_only)
    | with_reducible apply onlySkip
    | split
    | with_reducible apply only_house


theorem housekeepingRoundEnd_only (rs : List RoundReading) (ms : List MonReading) (vias : List (SiteNo × Dir × Fin 1000))
  {s : State} (h : Only m s0 s) (hc : Sub 0x1ca40103ac22 m) :
    Only m s0 (housekeepingRoundEnd rs ms vias s) := by
  unfold housekeepingRoundEnd
  repeat' first
    | with_reducible assumption
    | exact hc.mono rfl
    | intro t (ht : Only m s0 t)
    | intro _
    | lift_lets -underBinder
    | with_reducible (first | apply addPair_only | apply checkStack_only | apply checkChan_only | apply showStack_only | apply takeMonitors_only | apply publish_only | apply springBand_only | apply takeGrid_only | apply takeFeeds_only | apply portBand_only | apply hbmBand_only | apply stackBands_only | apply secondVia_only | apply endRound_only | apply firmwareRound_only)
    | with_reducible (first | apply onlySkip | apply onlyFold)
    | split
    | (conv => arg 3; zeta)


theorem holdStart_only {s : State} (h : Only m s0 s) (hc : Sub 0x2 m) :
    Only m s0 (holdStart s) := by
  unfold holdStart
  repeat' first
    | with_reducible assumption
    | exact hc.mono rfl
    | with_reducible apply putBit_only


theorem failStart_only {s : State} (cls : ℕ) (code : ℕ) (unit : ℕ) (h : Only m s0 s) (hc : Sub 0x8002 m) :
    Only m s0 (failStart s cls code unit) := by
  unfold failStart
  repeat' first
    | with_reducible assumption
    | exact hc.mono rfl
    | with_reducible (first | apply fwLogSev_only | apply holdStart_only)


theorem moduleResetPin_only {s : State} (h : Only m s0 s) (hc : Sub 0x200000000000 m) :
    Only m s0 (moduleResetPin s) := by
  unfold moduleResetPin
  repeat' first
    | with_reducible assumption
    | exact hc.mono rfl
    | intro _
    | lift_lets -underBinder
    | with_reducible apply only_start


theorem moduleResetRelease_only {s : State} (h : Only m s0 s) (hc : Sub 0x200000000002 m) :
    Only m s0 (moduleResetRelease s) := by
  unfold moduleResetRelease
  repeat' first
    | with_reducible assumption
    | exact hc.mono rfl
    | intro _
    | lift_lets -underBinder
    | with_reducible (first | apply putField_only | apply rampAll_only)
    | with_reducible apply onlySkip
    | split
    | with_reducible apply only_start
    | (conv => arg 3; zeta)


theorem bootFailed_only {s : State} (w : Weir) (h : Only m s0 s) (hc : Sub 0x8000008002 m) :
    Only m s0 (bootFailed s w) := by
  unfold bootFailed
  repeat' first
    | with_reducible assumption
    | exact hc.mono rfl
    | intro _
    | lift_lets -underBinder
    | with_reducible (first | apply offDomain_only | apply raiseWeir_only | apply markWeir_only | apply holdStart_only | apply rampDomain_only | apply showWeir_only)
    | with_reducible apply onlySkip
    | split
    | with_reducible apply only_weir


theorem loadRecord_only {s : State} (w : Weir) (good : Bool) (h : Only m s0 s) (hc : Sub 0x1000400a002 m) :
    Only m s0 (loadRecord s w good) := by
  unfold loadRecord
  repeat' first
    | with_reducible assumption
    | exact hc.mono rfl
    | intro _
    | lift_lets -underBinder
    | with_reducible (first | apply fwLog_only | apply putBit_only | apply putReg_only | apply fabricCoord_only)
    | with_reducible apply onlySkip
    | split
    | with_reducible (first | apply only_clock_fabric | apply only_record)
    | (conv => arg 3; zeta)


theorem logOutages_only : ∀ (l : List Nat) {s : State}, Only m s0 s → Sub 0x8002 m → Only m s0 (logOutages l s)
  | [], _, h, _ => h
  | [_], _, h, hc => fwLog_only _ _ _ _ _ _ h (hc.mono rfl)
  | _ :: _ :: l, _, h, hc => logOutages_only l (fwLog_only _ _ _ _ _ _ h (hc.mono rfl)) hc

theorem logIsland_only {s : State} (h : Only m s0 s) (hc : Sub 0x20000008022 m) : Only m s0 (logIsland s) := by
  have k := logOutages_only s.island.outages h (hc.mono rfl)
  unfold logIsland
  refine only_island (onlySkip ?_ fun k => raiseFlag_only _ _ k (hc.mono rfl)) (hc.mono rfl)
  refine onlySkip ?_ fun k => raiseFlag_only _ _ k (hc.mono rfl)
  split
  · exact fwLog_only _ _ _ _ _ _ k (hc.mono rfl)
  · exact k

theorem bootDone_only {s : State} (w : Weir) (slot : ℕ) (record : Bool) (h : Only m s0 s) (hc : Sub 0x43800400a022 m) :
    Only m s0 (bootDone s w slot record) := by
  unfold bootDone
  repeat' first
    | with_reducible assumption
    | exact hc.mono rfl
    | intro _
    | lift_lets -underBinder
    | with_reducible (first | apply extest_only | apply putReg_only | apply putField_only | apply logIsland_only | apply loadRecord_only | apply putBit_only | apply selectRefs_only | apply rampAll_only)
    | with_reducible apply only_weir_maint


theorem weirBoot_only (w : Weir) (good0 : Bool) (good1 : Bool) (record : Bool) {s : State} (h : Only m s0 s)
  (hc : Sub 0x1438e0733efe6 m) :
    Only m s0 (weirBoot w good0 good1 record s) := by
  unfold weirBoot
  repeat' first
    | with_reducible assumption
    | exact hc.mono rfl
    | intro _
    | lift_lets -underBinder
    | with_reducible (first | apply advanceStart_only | apply settleDomains_only | apply bootFailed_only | apply bootDone_only)
    | with_reducible apply onlySkip
    | split
    | (conv => arg 3; zeta)


theorem refSelectTimeout_only (pll0Locks : Bool) {s : State} (h : Only m s0 s) (hc : Sub 0x1008e0733efe6 m) :
    Only m s0 (refSelectTimeout pll0Locks s) := by
  unfold refSelectTimeout
  repeat' first
    | with_reducible assumption
    | exact hc.mono rfl
    | intro _
    | lift_lets -underBinder
    | with_reducible (first | apply settleDomains_only | apply failStart_only | apply advanceStart_only | apply lockPlls_only | apply fwLog_only)
    | with_reducible apply onlySkip
    | split
    | (conv => arg 3; zeta)


theorem loadTime_only {s : State} (delays : List ℕ) (h : Only m s0 s) (hc : Sub 0x80000009022 m) :
    Only m s0 (loadTime s delays) := by
  unfold loadTime
  repeat' first
    | with_reducible assumption
    | exact hc.mono rfl
    | intro t (ht : Only m s0 t)
    | intro _
    | lift_lets -underBinder
    | with_reducible (first | apply raiseFlag_only | apply putReg_only)
    | with_reducible (first | apply onlySkip | apply onlyFold)
    | split
    | with_reducible (first | apply only_faults | apply only_time_house)


theorem tileAlignment_only (failed : BitVec 9) (delays : List ℕ) {s : State} (h : Only m s0 s) (hc : Sub 0x1188e0733ffe6 m) :
    Only m s0 (tileAlignment failed delays s) := by
  unfold tileAlignment
  repeat' first
    | with_reducible assumption
    | exact hc.mono rfl
    | intro t (ht : Only m s0 t)
    | intro _
    | lift_lets -underBinder
    | with_reducible (first | apply advanceStart_only | apply settleDomains_only | apply raise_only | apply holdStart_only | apply loadTime_only | apply enterStage5_only)
    | with_reducible (first | apply onlySkip | apply onlyFold)
    | split
    | (conv => arg 3; zeta)


theorem springLockTimeout_only (n : ℕ) {s : State} (h : Only m s0 s) (hc : Sub 0x110a60733efe6 m) :
    Only m s0 (springLockTimeout n s) := by
  unfold springLockTimeout
  repeat' first
    | with_reducible assumption
    | exact hc.mono rfl
    | intro _
    | with_reducible (first | apply advanceStart_only | apply takeSpare_only | apply springDown_only)
    | with_reducible apply onlySkip
    | split


theorem clearTracking_only {s : State} (i : ℕ) (h : Only m s0 s) (hc : Sub 0x1000080 m) :
    Only m s0 (clearTracking s i) := by
  unfold clearTracking
  repeat' first
    | with_reducible assumption
    | exact hc.mono rfl
    | intro _
    | lift_lets -underBinder
    | with_reducible apply modSite_only
    | with_reducible apply only_written


theorem trainDelays_only {s : State} (i : ℕ) (best : List (Dir × Fin 1000 × Fin 64)) (h : Only m s0 s) (hc : Sub 0x1000000 m) :
    Only m s0 (trainDelays s i best) := by
  unfold trainDelays
  repeat' first
    | with_reducible assumption
    | exact hc.mono rfl
    | intro t (ht : Only m s0 t)
    | intro _
    | lift_lets -underBinder
    | with_reducible (first | apply modAbango_only | apply caps_only | apply offer_only | apply limit_only)
    | with_reducible (first | apply onlySkip | apply onlyFold)
    | split


theorem memoryTraining_only (i : ℕ) (stackGood : Bool) (pondGood : Bool) (best : List (Dir × Fin 1000 × Fin 64)) {s : State}
  (h : Only m s0 s) (hc : Sub 0x1008e0733efe6 m) :
    Only m s0 (memoryTraining i stackGood pondGood best s) := by
  unfold memoryTraining
  repeat' first
    | with_reducible assumption
    | exact hc.mono rfl
    | intro _
    | lift_lets -underBinder
    | with_reducible (first | apply settleDomains_only | apply trainDelays_only | apply clearTracking_only | apply putBit_only | apply advanceStart_only | apply showRefresh_only | apply siteReset_only)
    | with_reducible apply onlySkip
    | split
    | (conv => arg 3; zeta)


theorem clearCores_only {s : State} (h : Only m s0 s) (hc : Sub 0x10240 m) :
    Only m s0 (clearCores s) := by
  unfold clearCores
  repeat' first
    | with_reducible assumption
    | exact hc.mono rfl
    | intro _
    | lift_lets -underBinder
    | with_reducible apply only_mem_corePoison_cores


theorem offerCores_only {s : State} (i : ℕ) (h : Only m s0 s) (hc : Sub 0x8002 m) :
    Only m s0 (offerCores s i) := by
  unfold offerCores
  repeat' first
    | with_reducible assumption
    | exact hc.mono rfl
    | intro _
    | with_reducible (first | apply putBit_only | apply fwLog_only | apply putReg_only)
    | with_reducible apply onlySkip
    | split


theorem setModuleStep_only {s : State} (h : Only m s0 s) (hc : Sub 0x2002 m) :
    Only m s0 (setModuleStep s) := by
  unfold setModuleStep
  repeat' first
    | with_reducible assumption
    | exact hc.mono rfl
    | intro _
    | lift_lets -underBinder
    | with_reducible (first | apply pondRails_only | apply putField_only)
    | with_reducible apply onlySkip
    | split
    | with_reducible apply only_clock


theorem settleCore_only {s : State} (c' : ℕ) (h : Only m s0 s) (hc : Sub 0x10002 m) :
    Only m s0 (settleCore s c') := by
  unfold settleCore
  repeat' first
    | with_reducible assumption
    | exact hc.mono rfl
    | intro _
    | lift_lets -underBinder
    | with_reducible (first | apply commandCore_only | apply modCore_only)
    | with_reducible apply onlySkip
    | split


theorem enterStage7_only {s : State} (h : Only m s0 s) (hc : Sub 0x6000000002 m) :
    Only m s0 (enterStage7 s) := by
  unfold enterStage7
  repeat' first
    | with_reducible assumption
    | exact hc.mono rfl
    | intro _
    | lift_lets -underBinder
    | with_reducible (first | apply putField_only | apply showCalibrating_only | apply addActivity_only | apply loadImage_only)
    | with_reducible apply onlySkip
    | split
    | (conv => arg 3; zeta)


theorem restorePin_only {s : State} (p : ℕ) (h : Only m s0 s) (hc : Sub 0x18002 m) :
    Only m s0 (restorePin s p) := by
  unfold restorePin
  repeat' first
    | with_reducible assumption
    | exact hc.mono rfl
    | intro t (ht : Only m s0 t)
    | intro _
    | lift_lets -underBinder
    | with_reducible (first | apply commandCore_only | apply fwLog_only)
    | with_reducible (first | apply onlySkip | apply onlyFold)
    | split
    | (conv => arg 3; zeta)


theorem endStage6_only {s : State} (failed : ℕ → Bool) (h : Only m s0 s) (hc : Sub 0x100e60733efe6 m) :
    Only m s0 (endStage6 s failed) := by
  unfold endStage6
  repeat' first
    | with_reducible assumption
    | exact hc.mono rfl
    | intro t (ht : Only m s0 t)
    | intro _
    | lift_lets -underBinder
    | with_reducible (first | apply fenceCore_only | apply siteReset_only | apply offerCores_only | apply clearCores_only | apply setModuleStep_only | apply settleCore_only | apply enterStage7_only | apply restorePin_only)
    | with_reducible (first | apply onlySkip | apply onlyFold)
    | split
    | (conv => arg 3; zeta)


theorem coreSelftest_only (failed : BitVec 64) {s : State} (h : Only m s0 s) (hc : Sub 0x100ee0733efe6 m) :
    Only m s0 (coreSelftest failed s) := by
  unfold coreSelftest
  repeat' first
    | with_reducible assumption
    | exact hc.mono rfl
    | intro _
    | with_reducible (first | apply endStage6_only | apply settleDomains_only)
    | with_reducible apply onlySkip
    | split


theorem endStage7_only (failing : List ℕ) (rejected : List ℕ) {s : State} (h : Only m s0 s) (hc : Sub 0x180a60733efe6 m) :
    Only m s0 (endStage7 failing rejected s) := by
  unfold endStage7
  repeat' first
    | with_reducible assumption
    | exact hc.mono rfl
    | intro t (ht : Only m s0 t)
    | intro _
    | lift_lets -underBinder
    | with_reducible (first | apply rejectCal_only | apply putBit_only | apply writeCalImage_only | apply showCalibrating_only | apply advanceStart_only | apply putField_only | apply openShareAt_only)
    | with_reducible (first | apply onlySkip | apply onlyFold)
    | split
    | with_reducible apply only_acts
    | (conv => arg 3; zeta)


theorem calStage_only (failing : List ℕ) (rejected : List ℕ) {s : State} (h : Only m s0 s) (hc : Sub 0x180a60733efe6 m) :
    Only m s0 (calStage failing rejected s) := by
  unfold calStage
  repeat' first
    | with_reducible assumption
    | exact hc.mono rfl
    | intro _
    | with_reducible apply endStage7_only
    | with_reducible apply onlySkip
    | split


theorem placeLanes_only {s : State} (o : ℕ) (h : Only m s0 s) (hc : Sub 0x2 m) :
    Only m s0 (placeLanes s o) := by
  unfold placeLanes
  repeat' first
    | with_reducible assumption
    | exact hc.mono rfl
    | with_reducible (first | apply putField_only | apply setLinkState_only)


theorem outletLight_only (o : ℕ) (cabled : Bool) {s : State} (h : Only m s0 s) (hc : Sub 0x100860733efe6 m) :
    Only m s0 (outletLight o cabled s) := by
  unfold outletLight
  repeat' first
    | with_reducible assumption
    | exact hc.mono rfl
    | intro _
    | lift_lets -underBinder
    | with_reducible (first | apply placeLanes_only | apply modLink_only | apply setLinkState_only | apply opticsSleep_only | apply putField_only | apply advanceStart_only)
    | with_reducible apply onlySkip
    | split
    | (conv => arg 3; zeta)


theorem bound5_only {s : State} (h : Only m s0 s) (hc : Sub 0x110a60733efe6 m) :
    Only m s0 (bound5 s) := by
  unfold bound5
  repeat' first
    | with_reducible assumption
    | exact hc.mono rfl
    | intro t (ht : Only m s0 t)
    | intro _
    | lift_lets -underBinder
    | with_reducible (first | apply springDown_only | apply enterStage6_only | apply holdSites_only)
    | with_reducible (first | apply onlySkip | apply onlyFold)
    | split
    | (conv => arg 3; zeta)


theorem bound7_only {s : State} (h : Only m s0 s) (hc : Sub 0x180a60733efe6 m) :
    Only m s0 (bound7 s) := by
  unfold bound7
  repeat' first
    | with_reducible assumption
    | exact hc.mono rfl
    | with_reducible apply endStage7_only


theorem bound8_only {s : State} (h : Only m s0 s) (hc : Sub 0x100860733efe6 m) :
    Only m s0 (bound8 s) := by
  unfold bound8
  repeat' first
    | with_reducible assumption
    | exact hc.mono rfl
    | intro t (ht : Only m s0 t)
    | intro _
    | with_reducible (first | apply advanceStart_only | apply setLinkState_only | apply placeLanes_only)
    | with_reducible (first | apply onlySkip | apply onlyFold)
    | split


theorem stageBoundExpiry_only (sites : BitVec 16) {s : State} (h : Only m s0 s) (hc : Sub 0x190ee0733efe6 m) :
    Only m s0 (stageBoundExpiry sites s) := by
  unfold stageBoundExpiry
  repeat' first
    | with_reducible assumption
    | exact hc.mono rfl
    | intro _
    | lift_lets -underBinder
    | with_reducible (first | apply bound5_only | apply endStage6_only | apply settleDomains_only | apply bound7_only | apply bound8_only)
    | with_reducible apply onlySkip
    | split
    | (conv => arg 3; zeta)


theorem restoreParts_only {s : State} (h : Only m s0 s) (hc : Sub 0x20001210002 m) :
    Only m s0 (restoreParts s) := by
  unfold restoreParts
  repeat' first
    | with_reducible assumption
    | exact hc.mono rfl
    | intro t (ht : Only m s0 t)
    | intro _
    | lift_lets -underBinder
    | with_reducible (first | apply tearDown_only | apply putField_only)
    | with_reducible apply onlyFold
    | with_reducible apply only_parts


theorem ready_only {s : State} (h : Only m s0 s) (hc : Sub 0x20001218022 m) :
    Only m s0 (ready s) := by
  unfold ready
  repeat' first
    | with_reducible assumption
    | exact hc.mono rfl
    | intro _
    | lift_lets -underBinder
    | with_reducible (first | apply restoreParts_only | apply failStart_only | apply raiseFlag_only | apply discoveryStart_only | apply putBit_only)
    | with_reducible apply onlySkip
    | split
    | with_reducible apply only_island
    | (conv => arg 3; zeta)


theorem mctp_only {s : State} (f : State → State × List Byte) (h : Only m s0 s)
  (hff : ∀ (v0 : State), Only m s0 v0 → Only m s0 (f v0).1) (hc : Sub 0x800 m) :
    Only m s0 (mctp s f) := by
  unfold mctp
  repeat' first
    | with_reducible assumption
    | exact hc.mono rfl
    | intro t (ht : Only m s0 t)
    | intro _
    | with_reducible apply hff
    | lift_lets -underBinder
    | with_reducible apply emit_only
    | with_reducible apply onlySkip
    | split


theorem getStatus_only {s : State} (h : Only m s0 s) (hc : Sub 0x800 m) :
    Only m s0 (getStatus s) := by
  unfold getStatus
  repeat' first
    | with_reducible assumption
    | exact hc.mono rfl
    | intro t (ht : Only m s0 t)
    | intro _
    | lift_lets -underBinder
    | with_reducible (first | apply mctp_only)
    | with_reducible (first | apply onlySkip | apply onlyFold | apply onlyFold1)
    | split
    | (conv => arg 3; zeta)


theorem getSensors_only (first : ℕ) (count : ℕ) {s : State} (h : Only m s0 s) (hc : Sub 0x800 m) :
    Only m s0 (getSensors first count s) := by
  unfold getSensors
  repeat' first
    | with_reducible assumption
    | exact hc.mono rfl
    | intro _
    | with_reducible apply mctp_only
    | with_reducible apply onlySkip
    | split


theorem mctpLogRead_only (first : ℕ) (max : ℕ) {s : State} (h : Only m s0 s) (hc : Sub 0x8800 m) :
    Only m s0 (mctpLogRead first max s) := by
  unfold mctpLogRead
  repeat' first
    | with_reducible assumption
    | exact hc.mono rfl
    | intro _
    | lift_lets -underBinder
    | with_reducible (first | apply mctp_only | apply markRead_only)
    | with_reducible apply onlySkip
    | split
    | (conv => arg 3; zeta)


theorem mctpLogCounters_only {s : State} (h : Only m s0 s) (hc : Sub 0x800 m) :
    Only m s0 (mctpLogCounters s) := by
  unfold mctpLogCounters
  repeat' first
    | with_reducible assumption
    | exact hc.mono rfl
    | intro t (ht : Only m s0 t)
    | intro _
    | lift_lets -underBinder
    | with_reducible (first | apply mctp_only)
    | with_reducible (first | apply onlySkip | apply onlyFold | apply onlyFold1)
    | split
    | (conv => arg 3; zeta)


theorem mctpModuleReset_only (confirm : Word) {s : State} (h : Only m s0 s) (hc : Sub 0x200000000800 m) :
    Only m s0 (mctpModuleReset confirm s) := by
  unfold mctpModuleReset
  repeat' first
    | with_reducible assumption
    | exact hc.mono rfl
    | intro _
    | lift_lets -underBinder
    | with_reducible apply mctp_only
    | with_reducible apply onlySkip
    | split
    | with_reducible apply only_start


theorem setEndpointId_only (eid : Byte) {s : State} (h : Only m s0 s) (hc : Sub 0x400000000800 m) :
    Only m s0 (setEndpointId eid s) := by
  unfold setEndpointId
  repeat' first
    | with_reducible assumption
    | exact hc.mono rfl
    | intro _
    | lift_lets -underBinder
    | with_reducible (first | apply mctp_only | apply extest_only)
    | with_reducible apply onlySkip
    | split
    | with_reducible apply only_maint
    | (conv => arg 3; zeta)


theorem getEndpointId_only {s : State} (h : Only m s0 s) (hc : Sub 0x800 m) :
    Only m s0 (getEndpointId s) := by
  unfold getEndpointId
  repeat' first
    | with_reducible assumption
    | exact hc.mono rfl
    | intro t (ht : Only m s0 t)
    | intro _
    | lift_lets -underBinder
    | with_reducible (first | apply mctp_only)
    | with_reducible (first | apply onlySkip | apply onlyFold | apply onlyFold1)
    | split
    | (conv => arg 3; zeta)


theorem getMctpVersionSupport_only {s : State} (h : Only m s0 s) (hc : Sub 0x800 m) :
    Only m s0 (getMctpVersionSupport s) := by
  unfold getMctpVersionSupport
  repeat' first
    | with_reducible assumption
    | exact hc.mono rfl
    | intro t (ht : Only m s0 t)
    | intro _
    | lift_lets -underBinder
    | with_reducible (first | apply mctp_only)
    | with_reducible (first | apply onlySkip | apply onlyFold | apply onlyFold1)
    | split
    | (conv => arg 3; zeta)


theorem getMessageTypeSupport_only {s : State} (h : Only m s0 s) (hc : Sub 0x800 m) :
    Only m s0 (getMessageTypeSupport s) := by
  unfold getMessageTypeSupport
  repeat' first
    | with_reducible assumption
    | exact hc.mono rfl
    | intro t (ht : Only m s0 t)
    | intro _
    | lift_lets -underBinder
    | with_reducible (first | apply mctp_only)
    | with_reducible (first | apply onlySkip | apply onlyFold | apply onlyFold1)
    | split
    | (conv => arg 3; zeta)


theorem getVendorSupport_only {s : State} (h : Only m s0 s) (hc : Sub 0x800 m) :
    Only m s0 (getVendorSupport s) := by
  unfold getVendorSupport
  repeat' first
    | with_reducible assumption
    | exact hc.mono rfl
    | intro t (ht : Only m s0 t)
    | intro _
    | lift_lets -underBinder
    | with_reducible (first | apply mctp_only)
    | with_reducible (first | apply onlySkip | apply onlyFold | apply onlyFold1)
    | split
    | (conv => arg 3; zeta)


theorem say_only {s : State} (line : List Char) (h : Only m s0 s) (hc : Sub 0x800 m) :
    Only m s0 (say s line) := by
  unfold say
  repeat' first
    | with_reducible assumption
    | exact hc.mono rfl
    | with_reducible (first | apply emit_only | apply console_only)


theorem sayOk_only {s : State} (h : Only m s0 s) (hc : Sub 0x800 m) :
    Only m s0 (sayOk s) := by
  unfold sayOk
  repeat' first
    | with_reducible assumption
    | exact hc.mono rfl
    | with_reducible apply say_only


theorem sayErr_only {s : State} (line : List ℕ) (h : Only m s0 s) (hc : Sub 0x800 m) :
    Only m s0 (sayErr s line) := by
  unfold sayErr
  repeat' first
    | with_reducible assumption
    | exact hc.mono rfl
    | intro _
    | with_reducible apply say_only
    | with_reducible apply onlySkip
    | split


theorem flushLines_only {s : State} (h : Only m s0 s) (hc : Sub 0x400000000800 m) :
    Only m s0 (flushLines s) := by
  unfold flushLines
  repeat' first
    | with_reducible assumption
    | exact hc.mono rfl
    | intro t (ht : Only m s0 t)
    | intro _
    | lift_lets -underBinder
    | with_reducible (first | apply sayErr_only | apply extest_only)
    | with_reducible apply onlyFold
    | with_reducible apply only_maint


theorem uartFrame_only (b : Byte) (bad : Bool) {s : State} (h : Only m s0 s) (hc : Sub 0x400000000800 m) :
    Only m s0 (uartFrame b bad s) := by
  unfold uartFrame
  repeat' first
    | with_reducible assumption
    | exact hc.mono rfl
    | intro _
    | lift_lets -underBinder
    | with_reducible (first | apply flushLines_only | apply extest_only)
    | with_reducible apply onlySkip
    | split
    | with_reducible apply only_maint
    | (conv => arg 3; zeta)


theorem uartBreak_only {s : State} (h : Only m s0 s) (hc : Sub 0x400000000000 m) :
    Only m s0 (uartBreak s) := by
  unfold uartBreak
  repeat' first
    | with_reducible assumption
    | exact hc.mono rfl
    | intro _
    | lift_lets -underBinder
    | with_reducible apply extest_only
    | with_reducible apply only_maint


theorem console_only {s : State} (cmd : ConCmd) (f : State → ℕ → ℕ → State) (h : Only m s0 s)
  (hff : ∀ (v0 : State) (v1 : ℕ) (v2 : ℕ), Only m s0 v0 → Only m s0 (f v0 v1 v2)) (hc : Sub 0x400000000800 m) :
    Only m s0 (console s cmd f) := by
  unfold console
  repeat' first
    | with_reducible assumption
    | exact hc.mono rfl
    | intro t (ht : Only m s0 t)
    | intro _
    | with_reducible apply hff
    | lift_lets -underBinder
    | with_reducible (first | apply flushLines_only | apply extest_only)
    | with_reducible apply onlySkip
    | split
    | with_reducible apply only_maint
    | (conv => arg 3; zeta)


theorem sayValues_only {s : State} (vs : List (List Char)) (h : Only m s0 s) (hc : Sub 0x800 m) :
    Only m s0 (sayValues s vs) := by
  unfold sayValues
  repeat' first
    | with_reducible assumption
    | exact hc.mono rfl
    | with_reducible (first | apply sayOk_only | apply say_only)


theorem sayLines_only {s : State} (ls : List (List (List Char))) (h : Only m s0 s) (hc : Sub 0x800 m) :
    Only m s0 (sayLines s ls) := by
  unfold sayLines
  repeat' first
    | with_reducible assumption
    | exact hc.mono rfl
    | intro t (ht : Only m s0 t)
    | intro _
    | with_reducible (first | apply sayOk_only | apply say_only)
    | with_reducible apply onlyFold


theorem consoleVer_only {s : State} (h : Only m s0 s) (hc : Sub 0x400000000800 m) :
    Only m s0 (consoleVer s) := by
  unfold consoleVer
  repeat' first
    | with_reducible assumption
    | exact hc.mono rfl
    | intro t (ht : Only m s0 t)
    | intro _
    | lift_lets -underBinder
    | with_reducible (first | apply console_only | apply sayValues_only)
    | with_reducible (first | apply onlySkip | apply onlyFold | apply onlyFold1)
    | split
    | (conv => arg 3; zeta)


theorem consoleStat_only {s : State} (h : Only m s0 s) (hc : Sub 0x400000000800 m) :
    Only m s0 (consoleStat s) := by
  unfold consoleStat
  repeat' first
    | with_reducible assumption
    | exact hc.mono rfl
    | intro t (ht : Only m s0 t)
    | intro _
    | lift_lets -underBinder
    | with_reducible (first | apply console_only | apply sayValues_only)
    | with_reducible (first | apply onlySkip | apply onlyFold | apply onlyFold1)
    | split
    | (conv => arg 3; zeta)


theorem consoleSensors_only {s : State} (h : Only m s0 s) (hc : Sub 0x400000000800 m) :
    Only m s0 (consoleSensors s) := by
  unfold consoleSensors
  repeat' first
    | with_reducible assumption
    | exact hc.mono rfl
    | intro t (ht : Only m s0 t)
    | intro _
    | lift_lets -underBinder
    | with_reducible (first | apply console_only | apply sayLines_only)
    | with_reducible (first | apply onlySkip | apply onlyFold | apply onlyFold1)
    | split
    | (conv => arg 3; zeta)


theorem consoleLog_only {s : State} (h : Only m s0 s) (hc : Sub 0x400000000800 m) :
    Only m s0 (consoleLog s) := by
  unfold consoleLog
  repeat' first
    | with_reducible assumption
    | exact hc.mono rfl
    | intro t (ht : Only m s0 t)
    | intro _
    | lift_lets -underBinder
    | with_reducible (first | apply console_only | apply sayLines_only)
    | with_reducible (first | apply onlySkip | apply onlyFold | apply onlyFold1)
    | split
    | (conv => arg 3; zeta)


theorem consoleCounters_only {s : State} (h : Only m s0 s) (hc : Sub 0x400000000800 m) :
    Only m s0 (consoleCounters s) := by
  unfold consoleCounters
  repeat' first
    | with_reducible assumption
    | exact hc.mono rfl
    | intro _
    | lift_lets -underBinder
    | with_reducible (first | apply console_only | apply sayValues_only)


theorem consoleBaud_only {s : State} (h : Only m s0 s) (hc : Sub 0x400000000800 m) :
    Only m s0 (consoleBaud s) := by
  unfold consoleBaud
  repeat' first
    | with_reducible assumption
    | exact hc.mono rfl
    | intro _
    | lift_lets -underBinder
    | with_reducible (first | apply console_only | apply sayOk_only | apply extest_only)
    | with_reducible apply only_maint


theorem jtagIr_only {s : State} (k : ℕ) (h : Only m s0 s) (hc : Sub 0x600000000000 m) :
    Only m s0 (jtagIr s k) := by
  unfold jtagIr
  repeat' first
    | with_reducible assumption
    | exact hc.mono rfl
    | intro _
    | lift_lets -underBinder
    | with_reducible apply extest_only
    | split
    | with_reducible apply only_start_maint
    | (conv => arg 3; zeta)


theorem bypass_only (tdi : List Bool) {s : State} (h : Only m s0 s) (hc : Sub 0x600000000800 m) :
    Only m s0 (bypass tdi s) := by
  unfold bypass
  repeat' first
    | with_reducible assumption
    | exact hc.mono rfl
    | with_reducible (first | apply emit_only | apply jtagIr_only)


theorem idcode_only {s : State} (h : Only m s0 s) (hc : Sub 0x600000000800 m) :
    Only m s0 (idcode s) := by
  unfold idcode
  repeat' first
    | with_reducible assumption
    | exact hc.mono rfl
    | with_reducible (first | apply emit_only | apply jtagIr_only)


theorem samplePreload_only (pins : BitVec 80) (shiftIn : BitVec 80) {s : State} (h : Only m s0 s) (hc : Sub 0x600000000800 m) :
    Only m s0 (samplePreload pins shiftIn s) := by
  unfold samplePreload
  repeat' first
    | with_reducible assumption
    | exact hc.mono rfl
    | intro _
    | lift_lets -underBinder
    | with_reducible (first | apply jtagIr_only | apply emit_only | apply extest_only)
    | with_reducible apply only_maint


theorem extest_only (drive : BitVec 80) (leave : Bool) {s : State} (h : Only m s0 s) (hc : Sub 0x600000000000 m) :
    Only m s0 (extest drive leave s) := by
  unfold extest
  repeat' first
    | with_reducible assumption
    | exact hc.mono rfl
    | intro _
    | lift_lets -underBinder
    | with_reducible apply jtagIr_only
    | split
    | with_reducible apply only_start_maint
    | (conv => arg 3; zeta)


theorem statusRd_only {s : State} (h : Only m s0 s) (hc : Sub 0x600000000800 m) :
    Only m s0 (statusRd s) := by
  unfold statusRd
  repeat' first
    | with_reducible assumption
    | exact hc.mono rfl
    | with_reducible (first | apply emit_only | apply jtagIr_only)


theorem logRd_only (n : ℕ) {s : State} (h : Only m s0 s) (hc : Sub 0x600000000800 m) :
    Only m s0 (logRd n s) := by
  unfold logRd
  repeat' first
    | with_reducible assumption
    | exact hc.mono rfl
    | intro _
    | lift_lets -underBinder
    | with_reducible (first | apply emit_only | apply jtagIr_only)
    | split
    | (conv => arg 3; zeta)


theorem endDispatches_only {s : State} (n : ℕ) (h : Only m s0 s) (hc : Sub 0x1130002 m) :
    Only m s0 (endDispatches s n) := by
  unfold endDispatches
  repeat' first
    | with_reducible assumption
    | exact hc.mono rfl
    | intro t (ht : Only m s0 t)
    | intro _
    | lift_lets -underBinder
    | with_reducible (first | apply modCtx_only | apply endRun_only)
    | with_reducible apply onlyFold


theorem grantSlot_only {s : State} (r : StartReq) (h : Only m s0 s) (hc : Sub 0x120000 m) :
    Only m s0 (grantSlot s r) := by
  unfold grantSlot
  repeat' first
    | with_reducible assumption
    | exact hc.mono rfl
    | intro _
    | lift_lets -underBinder
    | with_reducible (first | apply complete_only | apply modCtx_only)
    | with_reducible apply onlySkip
    | split


theorem grantSlots_only {s : State} (n : ℕ) (h : Only m s0 s) (hc : Sub 0x1a0000 m) :
    Only m s0 (grantSlots s n) := by
  unfold grantSlots
  repeat' first
    | with_reducible assumption
    | exact hc.mono rfl
    | intro t (ht : Only m s0 t)
    | intro _
    | lift_lets -underBinder
    | with_reducible apply grantSlot_only
    | with_reducible apply onlyFold
    | with_reducible apply only_startReqs


theorem readyDispatches_only {s : State} (h : Only m s0 s) (hc : Sub 0x20000 m) :
    Only m s0 (readyDispatches s) := by
  unfold readyDispatches
  repeat' first
    | with_reducible assumption
    | exact hc.mono rfl
    | intro _
    | lift_lets -underBinder
    | with_reducible apply only_contexts


theorem grantPhases_only {s : State} (hs : List Nat) (rs : List (Context × List ChanEntry)) (h : Only m s0 s) (hc : Sub 0x12383c2 m) :
    Only m s0 (grantPhases hs s rs) := by
  induction hs generalizing s rs with
  | nil => exact h
  | cons a l ih =>
    unfold grantPhases
    split
    · exact ih _ h
    · dsimp only
      split
      · exact ih _ h
      · exact ih _ (grantPhase_only _ h (hc.mono rfl))

theorem phaseGrants_only {s : State} (h : Only m s0 s) (hc : Sub 0x12383c2 m) : Only m s0 (phaseGrants s) := by
  have k := fun l => grantPhases_only l [] h (hc.mono rfl)
  exact onlySkip (k _) fun k => reviveChannels_only k (hc.mono rfl)

theorem acceptEntry_only {s : State} (n : ℕ) (h : Only m s0 s) (hc : Sub 0x8100002 m) :
    Only m s0 (acceptEntry s n).1 := by
  unfold acceptEntry
  repeat' first
    | with_reducible assumption
    | exact hc.mono rfl
    | intro _
    | lift_lets -underBinder
    | with_reducible (first | apply putQp_only | apply dbError_only | apply modQp_only | apply addPairSat_only | apply complete_only)
    | with_reducible apply onlySkip
    | split
    | (conv => arg 3; zeta)


theorem acceptFrom_only {s : State} (n k left : Nat) (h : Only m s0 s) (hc : Sub 0x8100002 m) :
    Only m s0 (acceptFrom n k s left).1 := by
  induction k generalizing s left with
  | zero => exact h
  | succ k ih =>
    unfold acceptFrom
    split
    · exact h
    · dsimp only
      split
      · exact ih _ (acceptEntry_only _ h (hc.mono rfl))
      · exact acceptEntry_only _ h (hc.mono rfl)

theorem acceptEntries_only {s : State} (n : Nat) (h : Only m s0 s) (hc : Sub 0x8100002 m) : Only m s0 (acceptEntries s n) :=
  onlyFold1 h fun _ ht _ => acceptFrom_only _ _ _ ht hc

theorem writeCompletions_only {s : State} (h : Only m s0 s) (hc : Sub 0x8100c02 m) :
    Only m s0 (writeCompletions s) := by
  unfold writeCompletions
  repeat' first
    | with_reducible assumption
    | exact hc.mono rfl
    | intro t (ht : Only m s0 t)
    | intro _
    | lift_lets -underBinder
    | with_reducible apply writeCompletion_only
    | with_reducible apply onlyFold
    | with_reducible apply only_ended


theorem grantDoorbell_only (n : ℕ) {s : State} (fn : ℕ) (h : Only m s0 s) (hc : Sub 0x2000c00000822 m) :
    Only m s0 (grantDoorbell n s fn) := by
  unfold grantDoorbell
  repeat' first
    | with_reducible assumption
    | exact hc.mono rfl
    | intro _
    | lift_lets -underBinder
    | with_reducible (first | apply putWin_only | apply raiseMb_only | apply respondUncommitted_only | apply modWin_only)
    | with_reducible apply onlySkip
    | split
    | with_reducible apply only_mbReqs
    | (conv => arg 3; zeta)


theorem grantDoorbells_only {s : State} (n : ℕ) (h : Only m s0 s) (hc : Sub 0x2000c00000822 m) :
    Only m s0 (grantDoorbells s n) := by
  unfold grantDoorbells
  repeat' first
    | with_reducible assumption
    | exact hc.mono rfl
    | intro t (ht : Only m s0 t)
    | intro _
    | with_reducible apply grantDoorbell_only
    | with_reducible apply onlyFold


theorem addOutstanding_only {s : State} (i : ℕ) (r : OpenReq) (h : Only m s0 s) (hc : Sub 0x1000000 m) :
    Only m s0 (addOutstanding s i r) := by
  unfold addOutstanding
  repeat' first
    | with_reducible assumption
    | exact hc.mono rfl
    | intro _
    | lift_lets -underBinder
    | with_reducible apply modSite_only
    | with_reducible apply onlySkip
    | split
    | (conv => arg 3; zeta)


theorem forwarded_only {s : State} (i : ℕ) (j : Joined) (h : Only m s0 s) (hc : Sub 0x1000000 m) :
    Only m s0 (forwarded s i j).1 := by
  unfold forwarded
  repeat' first
    | with_reducible assumption
    | exact hc.mono rfl
    | intro _
    | lift_lets -underBinder
    | with_reducible (first | apply modSite_only | apply addOutstanding_only)
    | with_reducible apply onlySkip
    | split
    | (conv => arg 3; zeta)


theorem takeCredits_only {s : State} (i : ℕ) (d : ℕ) (f : ℕ) (h : Only m s0 s) (hc : Sub 0x2 m) :
    Only m s0 (takeCredits s i d f) := by
  unfold takeCredits
  repeat' first
    | with_reducible assumption
    | exact hc.mono rfl
    | with_reducible apply putField_only


theorem refuseOpen_only (i : ℕ) {s : State} (r : OpenReq) (h : Only m s0 s) (hc : Sub 0x203118c22 m) :
    Only m s0 (refuseOpen i s r) := by
  unfold refuseOpen
  repeat' first
    | with_reducible assumption
    | exact hc.mono rfl
    | intro _
    | lift_lets -underBinder
    | with_reducible (first | apply discardReply_only | apply refuseForwarded_only | apply deliverReply_only | apply addOutstanding_only)
    | with_reducible apply onlySkip
    | split
    | (conv => arg 3; zeta)


theorem leavePair_only (p : Packet) (last : ℕ) {s : State} (h' : ℕ × ℕ) (h : Only m s0 s) (hc : Sub 0x1000800 m) :
    Only m s0 (leavePair p last s h') := by
  unfold leavePair
  repeat' first
    | with_reducible assumption
    | exact hc.mono rfl
    | intro _
    | lift_lets -underBinder
    | with_reducible (first | apply modSite_only | apply emit_only)
    | with_reducible apply onlySkip
    | split


theorem leaveBasin_only {s : State} (i : ℕ) (d : ℕ) (p : Packet) (h : Only m s0 s) (hc : Sub 0x1000800 m) :
    Only m s0 (leaveBasin s i d p) := by
  unfold leaveBasin
  repeat' first
    | with_reducible assumption
    | exact hc.mono rfl
    | intro t (ht : Only m s0 t)
    | intro _
    | with_reducible apply leavePair_only
    | with_reducible apply onlyFold


theorem takenFrom_only (i : ℕ) {s : State} (r : OpenReq) (h : Only m s0 s) (hc : Sub 0x2000800 m) :
    Only m s0 (takenFrom i s r) := by
  unfold takenFrom
  repeat' first
    | with_reducible assumption
    | exact hc.mono rfl
    | intro _
    | lift_lets -underBinder
    | with_reducible apply rxLeave_only
    | with_reducible apply onlySkip
    | split


theorem leaveGroup_only (i : ℕ) (d : ℕ) {s : State} (j : Joined) (h : Only m s0 s) (hc : Sub 0x3000800 m) :
    Only m s0 (leaveGroup i d s j) := by
  unfold leaveGroup
  repeat' first
    | with_reducible assumption
    | exact hc.mono rfl
    | intro t (ht : Only m s0 t)
    | intro _
    | lift_lets -underBinder
    | with_reducible (first | apply takenFrom_only | apply forwarded_only | apply modLink_only | apply leaveBasin_only)
    | with_reducible (first | apply onlySkip | apply onlyFold | apply onlyFold1)
    | split


theorem openFold {l : List OpenReq} {a : OpenPass} {f : OpenPass → OpenReq → OpenPass} (h : Only m s0 a.s)
    (k : ∀ b : OpenPass, Only m s0 b.s → ∀ r, Only m s0 (f b r).s) : Only m s0 (l.foldl f a).s := by
  induction l generalizing a with
  | nil => exact h
  | cons r l ih => exact ih (k a h r)

theorem onwardQ_only {s t : State} (i d : Nat) (r : OpenReq) (e : onward? s i d r = some t) (h : Only m s0 s)
    (hc : Sub 0x2000000 m) : Only m s0 t := by
  unfold onward? at e
  split at e
  · cases e; exact h
  · split at e
    · split at e
      · cases x : exitCredits? (link s _) r.p with
        | none => rw [x] at e; cases e
        | some l => rw [x] at e; cases e; exact putLink_only _ _ h (hc.mono rfl)
      · cases e; exact h
    · dsimp only at e
      split at e
      · cases e; exact h
      · cases e

theorem openOne_only (i d : Nat) (held : Bool) {a : OpenPass} (r : OpenReq) (h : Only m s0 a.s) (hc : Sub 0x3000002 m) :
    Only m s0 (openOne i d held a r).s := by
  unfold openOne
  extract_lets room rep hops fits
  clear_value room hops fits
  split
  · exact addPairSat_only _ _ h (hc.mono rfl)
  · split
    · exact h
    · split
      · exact addPairSat_only _ _ h (hc.mono rfl)
      · rename_i t e
        have ht : Only m s0 t := by
          split at e
          · exact onwardQ_only _ _ _ e h (hc.mono rfl)
          · cases e
        exact addPairSat_only _ _ (addOutstanding_only _ _ (onlyFold ht fun t ht x => takeCredits_only _ _ _ ht (hc.mono rfl))
          (hc.mono rfl)) (hc.mono rfl)

theorem openPass_only {s : State} (n i d : Nat) (h : Only m s0 s) (hc : Sub 0x203118c22 m) : Only m s0 (openPass n i d s) := by
  unfold openPass
  extract_lets due rs s1 a s2
  have h1 : Only m s0 s1 := modSite_only _ _ h (hc.mono rfl)
  clear_value s1
  refine onlySkip2 h fun _ => onlyIte ?_ (onlyIte ?_ ?_)
  · exact onlyFold h1 fun t ht r => onlyIte (modSite_only _ _ ht (hc.mono rfl)) (modSite_only _ _ ht (hc.mono rfl))
  · exact onlyFold h1 fun t ht r => refuseOpen_only _ _ (takenFrom_only _ _ ht (hc.mono rfl)) (hc.mono rfl)
  · have ha : Only m s0 a.s := openFold (a := ⟨s1, [], [], false, false⟩) h1 fun b hb r => openOne_only _ _ _ _ hb (hc.mono rfl)
    clear_value a
    exact onlyFold (modSite_only _ _ ha (hc.mono rfl)) fun t ht j => leaveGroup_only _ _ _ ht (hc.mono rfl)

theorem openGrants_only {s : State} (n : ℕ) (h : Only m s0 s) (hc : Sub 0x203118c22 m) :
    Only m s0 (openGrants s n) := by
  unfold openGrants
  repeat' first
    | with_reducible assumption
    | exact hc.mono rfl
    | intro t (ht : Only m s0 t)
    | intro _
    | with_reducible apply openPass_only
    | with_reducible apply onlyFold


theorem exitFold {l : List OpenReq} {a : ExitPass} {f : ExitPass → OpenReq → ExitPass} (h : Only m s0 a.s)
    (k : ∀ b : ExitPass, Only m s0 b.s → ∀ r, Only m s0 (f b r).s) : Only m s0 (l.foldl f a).s := by
  induction l generalizing a with
  | nil => exact h
  | cons r l ih => exact ih (k a h r)

theorem exitOne_only (o : Nat) {a : ExitPass} (r : OpenReq) (h : Only m s0 a.s) (hc : Sub 0x2000002 m) :
    Only m s0 (exitOne o a r).s := by
  unfold exitOne
  extract_lets room
  split
  · exact addPairSat_only _ _ (unpay_only _ _ _ h (hc.mono rfl)) (hc.mono rfl)
  · split
    · exact h
    · split
      · exact putLink_only _ _ h (hc.mono rfl)
      · exact h

theorem exitPass_only {s : State} (n o : Nat) (h : Only m s0 s) (hc : Sub 0x203118c22 m) : Only m s0 (exitPass n o s) := by
  unfold exitPass
  extract_lets due rs later s1 go s2 a s3
  have h1 : Only m s0 s1 := modLink_only _ _ (modSite_only _ _ h (hc.mono rfl)) (hc.mono rfl)
  clear_value s1
  have h2 : Only m s0 s2 := onlyFold h1 fun t ht r => turnBack_only _ _ ht (hc.mono rfl)
  clear_value s2
  have ha : Only m s0 a.s := exitFold (a := ⟨s2, [], []⟩) h2 fun b hb r => exitOne_only _ _ hb (hc.mono rfl)
  clear_value a
  have h3 : Only m s0 s3 :=
    onlyFold ha fun t ht j => transmit_only _ _ (forwarded_only _ _ ht (hc.mono rfl)) (hc.mono rfl)
  exact onlySkip2 h fun _ => onlySkip2 h3 fun h3 => addPairSat_only _ _ (modLink_only _ _ h3 (hc.mono rfl)) (hc.mono rfl)

theorem exitGrants_only {s : State} (n : ℕ) (h : Only m s0 s) (hc : Sub 0x203118c22 m) :
    Only m s0 (exitGrants s n) := by
  unfold exitGrants
  repeat' first
    | with_reducible assumption
    | exact hc.mono rfl
    | intro t (ht : Only m s0 t)
    | intro _
    | with_reducible apply exitPass_only
    | with_reducible apply onlyFold


theorem slewStep_only (n : ℕ) {s : State} (h : Only m s0 s) (hc : Sub 0x1002 m) :
    Only m s0 (slewStep n s) := by
  unfold slewStep
  repeat' first
    | with_reducible assumption
    | exact hc.mono rfl
    | intro _
    | lift_lets -underBinder
    | with_reducible apply showSlew_only
    | with_reducible apply onlySkip
    | split
    | with_reducible apply only_time
    | (conv => arg 3; zeta)


theorem toBoundary_only {s : State} (h : Only m s0 s) (hc : Sub 0x1000 m) :
    Only m s0 (toBoundary s) := by
  unfold toBoundary
  repeat' first
    | with_reducible assumption
    | exact hc.mono rfl
    | intro _
    | lift_lets -underBinder
    | with_reducible apply passTime_only
    | with_reducible apply only_time


theorem grantTick_only (n : ℕ) {s : State} (h : Only m s0 s) (hc : Sub 0x2020e0b3b8ff2 m) :
    Only m s0 (grantTick n s) := by
  unfold grantTick
  repeat' first
    | with_reducible assumption
    | exact hc.mono rfl
    | intro _
    | lift_lets -underBinder
    | with_reducible (first | apply endDispatches_only | apply applyAborts_only | apply beginDestroys_only | apply applySeals_only | apply settleRemovals_only | apply readyDispatches_only | apply grantSlots_only | apply grantDoorbells_only | apply acceptEntries_only | apply phaseGrants_only | apply exitGrants_only | apply openGrants_only)


theorem settleTick_only {s : State} (h : Only m s0 s) (hc : Sub 0x2ae0dfb2c22 m) :
    Only m s0 (settleTick s) := by
  unfold settleTick
  repeat' first
    | with_reducible assumption
    | exact hc.mono rfl
    | intro _
    | lift_lets -underBinder
    | with_reducible (first | apply stepDestroys_only | apply applyFars_only | apply startQueued_only | apply settleDeletes_only | apply settleRemovals_only)
    | with_reducible apply onlySkip
    | split


theorem takeTaps_only {s : State} (h : Only m s0 s) (hc : Sub 0x1000000 m) :
    Only m s0 (takeTaps s) := by
  unfold takeTaps
  repeat' first
    | with_reducible assumption
    | exact hc.mono rfl
    | intro t (ht : Only m s0 t)
    | intro _
    | lift_lets -underBinder
    | with_reducible apply modSite_only
    | with_reducible apply onlyFold
    | split
    | (conv => arg 3; zeta)


theorem atBoundary_only (n : ℕ) {s : State} (h : Only m s0 s) (hc : Sub 0x37effeffffffe m) :
    Only m s0 (atBoundary n s) := by
  unfold atBoundary
  repeat' first
    | with_reducible assumption
    | exact hc.mono rfl
    | intro _
    | lift_lets -underBinder
    | with_reducible (first | apply writeCompletions_only | apply settleTick_only | apply grantTick_only | apply takeSpares_only | apply releaseExits_only | apply takeTaps_only | apply slewStep_only | apply applyTimeSets_only | apply applySetTime_only | apply moduleReset_only | apply advanceStart_only)
    | with_reducible apply onlySkip
    | split
    | with_reducible apply only_flagsNow


theorem tickEnd_only {s : State} (h : Only m s0 s) (hc : Sub 0x37effeffffffe m) :
    Only m s0 (tickEnd s) := by
  unfold tickEnd
  repeat' first
    | with_reducible assumption
    | exact hc.mono rfl
    | with_reducible (first | apply atBoundary_only | apply toBoundary_only)


theorem idleCycle_only {s : State} (h : Only m s0 s) (hc : Sub 0x37effeffffffe m) :
    Only m s0 (idleCycle s) := by
  unfold idleCycle
  repeat' first
    | with_reducible assumption
    | exact hc.mono rfl
    | intro _
    | lift_lets -underBinder
    | with_reducible (first | apply backboneCycle_only | apply atBoundary_only)
    | with_reducible apply onlySkip
    | split


end Sys2Proof.Machine
end

