-- ==== Sys2Proof/Laws/MemOk.lean ====
section
/-! SUPPORT. Every operation keeps the canonical form of the memories and of their marks. -/

namespace Sys2Proof.Machine

/-- States with the same memories. -/
structure SameMem (s t : State) : Prop where
  mem : t.mem = s.mem
  hostMem : t.hostMem = s.hostMem
  written : t.written = s.written
  poison : t.poison = s.poison
  corePoison : t.corePoison = s.corePoison

theorem memOk_of {s t : State} (h : MemOk s) (e : SameMem s t) : MemOk t :=
  ⟨e.mem ▸ h.mem, e.hostMem ▸ h.hostMem, e.written ▸ h.written, e.poison ▸ h.poison, e.corePoison ▸ h.corePoison⟩

/-- What leaves the five memory parts alone keeps their form. -/
theorem Only.memOk {k : Nat} {s t : State} (h : Only k s t)
    (c : k &&& 0x7c0 = 0) (o : MemOk s) : MemOk t := by
  have a (p : StatePart) (hp : (0x7c0 : Nat).testBit p.ix = true) : Agree s t p := by
    refine h.out p ?_
    have e : (k &&& 0x7c0).testBit p.ix = false := by rw [c, Nat.zero_testBit]
    rw [Nat.testBit_and, hp, Bool.and_true] at e; exact e
  exact memOk_of o ⟨(a .mem (by decide)).symm, (a .hostMem (by decide)).symm, (a .written (by decide)).symm,
    (a .poison (by decide)).symm, (a .corePoison (by decide)).symm⟩

theorem okIte {c : Prop} [Decidable c] {a b : State} (h1 : MemOk a) (h2 : MemOk b) : MemOk (if c then a else b) := by
  split <;> assumption

theorem okIte1 {α : Type} {c : Prop} [Decidable c] {a b : State × α} (h1 : MemOk a.1) (h2 : MemOk b.1) :
    MemOk (if c then a else b).1 := by
  split <;> assumption

theorem okSkip {c : Prop} [Decidable c] {a b : State} (h : MemOk b) (k : MemOk b → MemOk a) :
    MemOk (if c then a else b) := okIte (k h) h

theorem okFold {α : Type} {l : List α} {s : State} {f : State → α → State} (h : MemOk s)
    (k : ∀ t, MemOk t → ∀ a, MemOk (f t a)) : MemOk (l.foldl f s) := by
  induction l generalizing s with
  | nil => exact h
  | cons a l ih => exact ih (k s h a)

theorem okFold1 {α β : Type} {l : List α} {s : State × β} {f : State × β → α → State × β} (h : MemOk s.1)
    (k : ∀ t, MemOk t.1 → ∀ a, MemOk (f t a).1) : MemOk (l.foldl f s).1 := by
  induction l generalizing s with
  | nil => exact h
  | cons a l ih => exact ih (k s h a)

theorem memOk_flagsNow {s : State} {x0} (h : MemOk s) :
    MemOk { s with flagsNow := x0 } := ⟨h.mem, h.hostMem, h.written, h.poison, h.corePoison⟩

theorem memOk_time {s : State} {x0} (h : MemOk s) :
    MemOk { s with time := x0 } := ⟨h.mem, h.hostMem, h.written, h.poison, h.corePoison⟩

theorem memOk_clock {s : State} {x0} (h : MemOk s) :
    MemOk { s with clock := x0 } := ⟨h.mem, h.hostMem, h.written, h.poison, h.corePoison⟩

theorem memOk_faults {s : State} {x0} (h : MemOk s) :
    MemOk { s with faults := x0 } := ⟨h.mem, h.hostMem, h.written, h.poison, h.corePoison⟩

theorem memOk_ended {s : State} {x0} (h : MemOk s) :
    MemOk { s with ended := x0 } := ⟨h.mem, h.hostMem, h.written, h.poison, h.corePoison⟩

theorem memOk_fabric {s : State} {x0} (h : MemOk s) :
    MemOk { s with fabric := x0 } := ⟨h.mem, h.hostMem, h.written, h.poison, h.corePoison⟩

theorem memOk_bme {s : State} {x0} (h : MemOk s) :
    MemOk { s with bme := x0 } := ⟨h.mem, h.hostMem, h.written, h.poison, h.corePoison⟩

theorem memOk_contexts_gens_taken {s : State} {x0} {x1} {x2} (h : MemOk s) :
    MemOk { s with contexts := x0, gens := x1, taken := x2 } := ⟨h.mem, h.hostMem, h.written, h.poison, h.corePoison⟩

theorem memOk_acts {s : State} {x0} (h : MemOk s) :
    MemOk { s with acts := x0 } := ⟨h.mem, h.hostMem, h.written, h.poison, h.corePoison⟩

theorem memOk_weir {s : State} {x0} (h : MemOk s) :
    MemOk { s with weir := x0 } := ⟨h.mem, h.hostMem, h.written, h.poison, h.corePoison⟩

theorem memOk_island {s : State} {x0} (h : MemOk s) :
    MemOk { s with island := x0 } := ⟨h.mem, h.hostMem, h.written, h.poison, h.corePoison⟩

theorem memOk_start {s : State} {x0} (h : MemOk s) :
    MemOk { s with start := x0 } := ⟨h.mem, h.hostMem, h.written, h.poison, h.corePoison⟩

theorem memOk_maint {s : State} {x0} (h : MemOk s) :
    MemOk { s with maint := x0 } := ⟨h.mem, h.hostMem, h.written, h.poison, h.corePoison⟩

theorem memOk_nextId {s : State} {x0} (h : MemOk s) :
    MemOk { s with nextId := x0 } := ⟨h.mem, h.hostMem, h.written, h.poison, h.corePoison⟩

theorem memOk_freeCount {s : State} {x0} (h : MemOk s) :
    MemOk { s with freeCount := x0 } := ⟨h.mem, h.hostMem, h.written, h.poison, h.corePoison⟩

theorem putReg_memOk {s : State} (off : ℕ) (v : ℕ) (h : MemOk s) :
    MemOk (putReg s off v) :=
  Only.memOk (putReg_only (m := 0x2) _ _ .refl ⟨rfl⟩) rfl h

theorem putField_memOk {s : State} (off : ℕ) (hi : ℕ) (lo : ℕ) (v : ℕ) (h : MemOk s) :
    MemOk (putField s off hi lo v) :=
  Only.memOk (putField_only (m := 0x2) _ _ _ _ .refl ⟨rfl⟩) rfl h

theorem putBit_memOk {s : State} (off : ℕ) (i : ℕ) (b : Bool) (h : MemOk s) :
    MemOk (putBit s off i b) :=
  Only.memOk (putBit_only (m := 0x2) _ _ _ .refl ⟨rfl⟩) rfl h

theorem raiseFlag_memOk {s : State} (off : ℕ) (i : ℕ) (h : MemOk s) :
    MemOk (raiseFlag s off i) :=
  Only.memOk (raiseFlag_only (m := 0x22) _ _ .refl ⟨rfl⟩) rfl h

theorem addPair_memOk {s : State} (off : ℕ) (n : ℕ) (h : MemOk s) :
    MemOk (addPair s off n) :=
  Only.memOk (addPair_only (m := 0x2) _ _ .refl ⟨rfl⟩) rfl h

theorem addPairSat_memOk {s : State} (off : ℕ) (n : ℕ) (h : MemOk s) :
    MemOk (addPairSat s off n) :=
  Only.memOk (addPairSat_only (m := 0x2) _ _ .refl ⟨rfl⟩) rfl h

theorem backboneCycle_memOk {s : State} (h : MemOk s) :
    MemOk (backboneCycle s) :=
  Only.memOk (backboneCycle_only (m := 0x1000) .refl ⟨rfl⟩) rfl h

theorem emit_memOk {s : State} (o : Output) (h : MemOk s) :
    MemOk (emit s o) :=
  Only.memOk (emit_only (m := 0x800) _ .refl ⟨rfl⟩) rfl h

theorem putCore_memOk {s : State} (c' : ℕ) (x : CoreState) (h : MemOk s) :
    MemOk (putCore s c' x) :=
  Only.memOk (putCore_only (m := 0x10000) _ _ .refl ⟨rfl⟩) rfl h

theorem modCore_memOk {s : State} (c' : ℕ) (f : CoreState → CoreState) (h : MemOk s) :
    MemOk (modCore s c' f) :=
  Only.memOk (modCore_only (m := 0x10000) _ _ .refl ⟨rfl⟩) rfl h

theorem modSite_memOk {s : State} (i : ℕ) (f : SiteState → SiteState) (h : MemOk s) :
    MemOk (modSite s i f) :=
  Only.memOk (modSite_only (m := 0x1000000) _ _ .refl ⟨rfl⟩) rfl h

theorem modAbango_memOk {s : State} (i : ℕ) (f : Abango → Abango) (h : MemOk s) :
    MemOk (modAbango s i f) :=
  Only.memOk (modAbango_only (m := 0x1000000) _ _ .refl ⟨rfl⟩) rfl h

theorem putLink_memOk {s : State} (o : ℕ) (x : LinkState) (h : MemOk s) :
    MemOk (putLink s o x) :=
  Only.memOk (putLink_only (m := 0x2000000) _ _ .refl ⟨rfl⟩) rfl h

theorem modLink_memOk {s : State} (o : ℕ) (f : LinkState → LinkState) (h : MemOk s) :
    MemOk (modLink s o f) :=
  Only.memOk (modLink_only (m := 0x2000000) _ _ .refl ⟨rfl⟩) rfl h

theorem putQp_memOk {s : State} (q : ℕ) (x : QpState) (h : MemOk s) :
    MemOk (putQp s q x) :=
  Only.memOk (putQp_only (m := 0x8000000) _ _ .refl ⟨rfl⟩) rfl h

theorem modQp_memOk {s : State} (q : ℕ) (f : QpState → QpState) (h : MemOk s) :
    MemOk (modQp s q f) :=
  Only.memOk (modQp_only (m := 0x8000000) _ _ .refl ⟨rfl⟩) rfl h

theorem putDma_memOk {s : State} (c' : ℕ) (x : DmaState) (h : MemOk s) :
    MemOk (putDma s c' x) :=
  Only.memOk (putDma_only (m := 0x200000000) _ _ .refl ⟨rfl⟩) rfl h

theorem putWin_memOk {s : State} (w : ℕ) (x : MbWindow) (h : MemOk s) :
    MemOk (putWin s w x) :=
  Only.memOk (putWin_only (m := 0x400000000) _ _ .refl ⟨rfl⟩) rfl h

theorem modWin_memOk {s : State} (w : ℕ) (f : MbWindow → MbWindow) (h : MemOk s) :
    MemOk (modWin s w f) :=
  Only.memOk (modWin_only (m := 0x400000000) _ _ .refl ⟨rfl⟩) rfl h

theorem putPart_memOk {s : State} (p : ℕ) (x : Partition) (h : MemOk s) :
    MemOk (putPart s p x) :=
  Only.memOk (putPart_only (m := 0x200000) _ _ .refl ⟨rfl⟩) rfl h

theorem modPart_memOk {s : State} (p : ℕ) (f : Partition → Partition) (h : MemOk s) :
    MemOk (modPart s p f) :=
  Only.memOk (modPart_only (m := 0x200000) _ _ .refl ⟨rfl⟩) rfl h

theorem refuseSide_memOk {s : State} (kind : CrossKind) (i : ℕ) (d : Side) (h : MemOk s) :
    MemOk (refuseSide s kind i d) :=
  Only.memOk (refuseSide_only (m := 0x4000) _ _ _ .refl ⟨rfl⟩) rfl h

theorem modCtx_memOk {s : State} (h' : ℕ) (f : Context → Context) (h : MemOk s) :
    MemOk (modCtx s h' f) :=
  Only.memOk (modCtx_only (m := 0x20000) _ _ .refl ⟨rfl⟩) rfl h

theorem rampDomain_memOk {s : State} (d : ℕ) (mv : ℕ) (h : MemOk s) :
    MemOk (rampDomain s d mv) :=
  Only.memOk (rampDomain_only (m := 0x2) _ _ .refl ⟨rfl⟩) rfl h

theorem offDomain_memOk {s : State} (d : ℕ) (h : MemOk s) :
    MemOk (offDomain s d) :=
  Only.memOk (offDomain_only (m := 0x2) _ .refl ⟨rfl⟩) rfl h

theorem raise_memOk {s : State} (cls : ℕ) (code : ℕ) (unit : ℕ) (part : ℕ) (d0 : ℕ) (d1 : ℕ) (src : ℕ) (h : MemOk s) :
    MemOk (raise s cls code unit part d0 d1 src) :=
  Only.memOk (raise_only (m := 0x8000) _ _ _ _ _ _ _ .refl ⟨rfl⟩) rfl h

theorem fwLogSev_memOk {s : State} (cls : ℕ) (code : ℕ) (sev : ℕ) (unit : ℕ) (part : ℕ) (d0 : ℕ) (d1 : ℕ) (h : MemOk s) :
    MemOk (fwLogSev s cls code sev unit part d0 d1) :=
  Only.memOk (fwLogSev_only (m := 0x8002) _ _ _ _ _ _ _ .refl ⟨rfl⟩) rfl h

theorem fwLog_memOk {s : State} (cls : ℕ) (code : ℕ) (unit : ℕ) (part : ℕ) (d0 : ℕ) (d1 : ℕ) (h : MemOk s) :
    MemOk (fwLog s cls code unit part d0 d1) :=
  Only.memOk (fwLog_only (m := 0x8002) _ _ _ _ _ _ .refl ⟨rfl⟩) rfl h

theorem msix_memOk {s : State} (fn : ℕ) (v : ℕ) (h : MemOk s) :
    MemOk (msix s fn v) :=
  Only.memOk (msix_only (m := 0x802) _ _ .refl ⟨rfl⟩) rfl h

theorem noteRead_memOk {s : State} (a : ℕ) (n : ℕ) (h : MemOk s) :
    MemOk (noteRead s a n) :=
  Only.memOk (noteRead_only (m := 0x200002) _ _ .refl ⟨rfl⟩) rfl h

theorem oweNotice_memOk {s : State} (a : ℕ) (h : MemOk s) :
    MemOk (oweNotice s a) :=
  Only.memOk (oweNotice_only (m := 0x8000) _ .refl ⟨rfl⟩) rfl h

theorem lineCorrected_memOk {s : State} (a : ℕ) (h : MemOk s) :
    MemOk (lineCorrected s a) :=
  Only.memOk (lineCorrected_only (m := 0x8002) _ .refl ⟨rfl⟩) rfl h

theorem submitOpen_memOk {s : State} (i : ℕ) (r : OpenReq) (h : MemOk s) :
    MemOk (submitOpen s i r) :=
  Only.memOk (submitOpen_only (m := 0x1000000) _ _ .refl ⟨rfl⟩) rfl h

theorem cacheTouch_memOk {s : State} (i : ℕ) (line : ℕ) (h : MemOk s) :
    MemOk (cacheTouch s i line) :=
  Only.memOk (cacheTouch_only (m := 0x1000000) _ _ .refl ⟨rfl⟩) rfl h

theorem cacheFill_memOk {s : State} (p : ℕ) (i : ℕ) (line : ℕ) (bs : List Byte) (h : MemOk s) :
    MemOk (cacheFill s p i line bs) :=
  Only.memOk (cacheFill_only (m := 0x1000000) _ _ _ _ .refl ⟨rfl⟩) rfl h

theorem addSharer_memOk {s : State} (a : ℕ) (t : ℕ) (h : MemOk s) :
    MemOk (addSharer s a t) :=
  Only.memOk (addSharer_only (m := 0x1000000) _ _ .refl ⟨rfl⟩) rfl h

theorem holdWrite_memOk {s : State} (h' : HeldWrite) (fn : ℕ) (q : ℕ) (c' : ℕ) (h : MemOk s) :
    MemOk (holdWrite s h' fn q c') :=
  Only.memOk (holdWrite_only (m := 0x1000000) _ _ _ _ .refl ⟨rfl⟩) rfl h

theorem cacheForget_memOk {s : State} (i : ℕ) (p : ℕ → Bool) (h : MemOk s) :
    MemOk (cacheForget s i p) :=
  Only.memOk (cacheForget_only (m := 0x1000000) _ _ .refl ⟨rfl⟩) rfl h

theorem latch_memOk {s : State} (c' : ℕ) (x : Context) (cause : ℕ) (d0 : ℕ) (h : MemOk s) :
    MemOk (latch s c' x cause d0) :=
  Only.memOk (latch_only (m := 0x18000) _ _ _ _ .refl ⟨rfl⟩) rfl h

theorem loadRegion_memOk {s : State} (x : Context) (k : CtxCore) (off : ℕ) (n : ℕ) (h : MemOk s) :
    MemOk (loadRegion s x k off n).1 :=
  Only.memOk (loadRegion_only (m := 0x18000) _ _ _ _ .refl ⟨rfl⟩) rfl h

theorem postCounter_memOk {s : State} (x : Context) (c' : ℕ) (n : ℕ) (amount : ℕ) (h : MemOk s) :
    MemOk (postCounter s x c' n amount) :=
  Only.memOk (postCounter_only (m := 0x38000) _ _ _ _ .refl ⟨rfl⟩) rfl h

theorem readVregs_memOk {s : State} (x : Context) (c' : ℕ) (rs : List ℕ) (h : MemOk s) :
    MemOk (readVregs s x c' rs) :=
  Only.memOk (readVregs_only (m := 0x18000) _ _ _ .refl ⟨rfl⟩) rfl h

theorem releaseChannels_memOk {s : State} (x : Context) (es : List ChanEntry) (h : MemOk s) :
    MemOk (releaseChannels s x es) :=
  Only.memOk (releaseChannels_only (m := 0x1000002) _ _ .refl ⟨rfl⟩) rfl h

theorem grantSched_memOk {s : State} (x : Context) (es : List ChanEntry) (h : MemOk s) :
    MemOk (grantSched s x es) :=
  Only.memOk (grantSched_only (m := 0x1000002) _ _ .refl ⟨rfl⟩) rfl h

theorem queueTransfer_memOk {s : State} (i : ℕ) (idx : ℕ) (t : Transfer) (h : MemOk s) :
    MemOk (queueTransfer s i idx t) :=
  Only.memOk (queueTransfer_only (m := 0x1000800) _ _ _ .refl ⟨rfl⟩) rfl h

theorem takeSpares_memOk {s : State} (h : MemOk s) :
    MemOk (takeSpares s) :=
  Only.memOk (takeSpares_only (m := 0x1008822) .refl ⟨rfl⟩) rfl h

theorem failRing_memOk {s : State} (d : ℕ) (ring : ℕ) (h : MemOk s) :
    MemOk (failRing s d ring) :=
  Only.memOk (failRing_only (m := 0x1008022) _ _ .refl ⟨rfl⟩) rfl h

theorem openShareAt_memOk {s : State} (d : ℕ) (h : MemOk s) :
    MemOk (openShareAt s d) :=
  Only.memOk (openShareAt_only (m := 0x1000002) _ .refl ⟨rfl⟩) rfl h

theorem sendPosts_memOk {s : State} (c' : ℕ) (h : MemOk s) :
    MemOk (sendPosts s c') :=
  Only.memOk (sendPosts_only (m := 0x1010800) _ .refl ⟨rfl⟩) rfl h

theorem runPosts_memOk {s : State} (c' : ℕ) (h : MemOk s) :
    MemOk (runPosts s c') :=
  Only.memOk (runPosts_only (m := 0x1000001038800) _ .refl ⟨rfl⟩) rfl h

theorem takeTransfer_memOk {s : State} (i : ℕ) (idx : ℕ) (d : ℕ) (t : Transfer) (h : MemOk s) :
    MemOk (takeTransfer s i idx d t) :=
  Only.memOk (takeTransfer_only (m := 0x1000000) _ _ _ _ .refl ⟨rfl⟩) rfl h

theorem perfAdd_memOk {s : State} (c' : ℕ) (off : ℕ) (n : ℕ) (h : MemOk s) :
    MemOk (perfAdd s c' off n) :=
  Only.memOk (perfAdd_only (m := 0x2) _ _ _ .refl ⟨rfl⟩) rfl h

theorem cqInterrupt_memOk {s : State} (n : ℕ) (h : MemOk s) :
    MemOk (cqInterrupt s n) :=
  Only.memOk (cqInterrupt_only (m := 0x8000802) _ .refl ⟨rfl⟩) rfl h

theorem complete_memOk {s : State} (seq : ℕ) (cq : ℕ) (c' : Cpl) (h : MemOk s) :
    MemOk (complete s seq cq c') :=
  Only.memOk (complete_only (m := 0x100000) _ _ _ .refl ⟨rfl⟩) rfl h

theorem dmaStat_memOk {s : State} (ch : ℕ) (h : MemOk s) :
    MemOk (dmaStat s ch) :=
  Only.memOk (dmaStat_only (m := 0x2) _ .refl ⟨rfl⟩) rfl h

theorem copyProgress_memOk {s : State} (ch : ℕ) (h : MemOk s) :
    MemOk (copyProgress s ch) :=
  Only.memOk (copyProgress_only (m := 0x200100002) _ .refl ⟨rfl⟩) rfl h

theorem modCopy_memOk {s : State} (ch : ℕ) (f : CopyRec → CopyRec) (h : MemOk s) :
    MemOk (modCopy s ch f) :=
  Only.memOk (modCopy_only (m := 0x200000000) _ _ .refl ⟨rfl⟩) rfl h

theorem copyAnswered_memOk {s : State} (ch : ℕ) (id : ℕ) (f : CopyRec → CopyRec) (h : MemOk s) :
    MemOk (copyAnswered s ch id f) :=
  Only.memOk (copyAnswered_only (m := 0x200100002) _ _ _ .refl ⟨rfl⟩) rfl h

theorem keyRefused_memOk {s : State} (i : ℕ) (p : Packet) (h : MemOk s) :
    MemOk (keyRefused s i p) :=
  Only.memOk (keyRefused_only (m := 0x8022) _ _ .refl ⟨rfl⟩) rfl h

theorem egressRefused_memOk {s : State} (i : ℕ) (part : ℕ) (p : Packet) (h : MemOk s) :
    MemOk (egressRefused s i part p) :=
  Only.memOk (egressRefused_only (m := 0x8022) _ _ _ .refl ⟨rfl⟩) rfl h

theorem modMove_memOk {s : State} (c' : ℕ) (id : ℕ) (f : MoveRec → MoveRec) (h : MemOk s) :
    MemOk (modMove s c' id f) :=
  Only.memOk (modMove_only (m := 0x10000) _ _ _ .refl ⟨rfl⟩) rfl h

theorem failFlagged_memOk {s : State} (i : ℕ) (r : OpenReq) (code : ℕ) (h : MemOk s) :
    MemOk (failFlagged s i r code) :=
  Only.memOk (failFlagged_only (m := 0x1000000) _ _ _ .refl ⟨rfl⟩) rfl h

theorem numberReq_memOk {s : State} (i : ℕ) (r : OpenReq) (h : MemOk s) :
    MemOk (numberReq s i r).1 :=
  Only.memOk (numberReq_only (m := 0x1000001000000) _ _ .refl ⟨rfl⟩) rfl h

theorem openEntry_memOk {s : State} (i : ℕ) (p : Packet) (h : MemOk s) :
    MemOk (openEntry s i p) :=
  Only.memOk (openEntry_only (m := 0x1000000) _ _ .refl ⟨rfl⟩) rfl h

theorem sendReq_memOk {s : State} (i : ℕ) (r : OpenReq) (h : MemOk s) :
    MemOk (sendReq s i r) :=
  Only.memOk (sendReq_only (m := 0x1000002) _ _ .refl ⟨rfl⟩) rfl h

theorem cacheDecoded_memOk (ecc : EccList) (i : ℕ) (line : ℕ) {s : State} (h : MemOk s) :
    MemOk (cacheDecoded ecc i line s) :=
  Only.memOk (cacheDecoded_only (m := 0x1008002) _ _ _ .refl ⟨rfl⟩) rfl h

theorem endMove_memOk {s : State} (x : Context) (c' : ℕ) (m' : MoveRec) (st : XferStatus) (h : MemOk s) :
    MemOk (endMove s x c' m' st) :=
  Only.memOk (endMove_only (m := 0x1000001038800) _ _ _ _ .refl ⟨rfl⟩) rfl h

theorem mmaArray_memOk {s : State} (x : Context) (k : CtxCore) (ta : Td) (f : MmaF) (cols : List (List OpBlock))
  (poisonB : Bool) (arr : ℕ × ℕ) (h : MemOk s) :
    MemOk (mmaArray s x k ta f cols poisonB arr) :=
  Only.memOk (mmaArray_only (m := 0x18000) _ _ _ _ _ _ _ .refl ⟨rfl⟩) rfl h

theorem countArray_memOk {s : State} (k : CtxCore) (ta : Td) (cols : List (List OpBlock)) (arr : ℕ × ℕ) (h : MemOk s) :
    MemOk (countArray s k ta cols arr) :=
  Only.memOk (countArray_only (m := 0x2) _ _ _ _ .refl ⟨rfl⟩) rfl h

theorem mergeArray_memOk {s : State} (x : Context) (k : CtxCore) (t : Td) (f : MergeF) (arr : ℕ × ℕ) (h : MemOk s) :
    MemOk (mergeArray s x k t f arr) :=
  Only.memOk (mergeArray_only (m := 0x18000) _ _ _ _ _ .refl ⟨rfl⟩) rfl h

theorem raiseMb_memOk {s : State} (n : ℕ) (b : ℕ) (h : MemOk s) :
    MemOk (raiseMb s n b) :=
  Only.memOk (raiseMb_only (m := 0x400000020) _ _ .refl ⟨rfl⟩) rfl h

theorem copy_memOk (n : ℕ) {s : State} (h : MemOk s) :
    MemOk (copy n s) :=
  Only.memOk (copy_only (m := 0x1000208000002) _ .refl ⟨rfl⟩) rfl h

theorem dmaRound_memOk {s : State} (toHost : Bool) (h : MemOk s) :
    MemOk (dmaRound s toHost) :=
  Only.memOk (dmaRound_only (m := 0x200000000) _ .refl ⟨rfl⟩) rfl h

theorem respond_memOk {s : State} (r : MbReq) (a : Ans) (h : MemOk s) :
    MemOk (respond s r a) :=
  Only.memOk (respond_only (m := 0xc00000802) _ _ .refl ⟨rfl⟩) rfl h

theorem answerWaiting_memOk {s : State} (opcode : ℕ) (arg : ℕ) (a : Ans) (h : MemOk s) :
    MemOk (answerWaiting s opcode arg a) :=
  Only.memOk (answerWaiting_only (m := 0xc00000802) _ _ _ .refl ⟨rfl⟩) rfl h

theorem answerEnded_memOk {s : State} (h : MemOk s) :
    MemOk (answerEnded s) :=
  Only.memOk (answerEnded_only (m := 0xc00000802) .refl ⟨rfl⟩) rfl h

theorem take_memOk {s : State} (r : MbReq) (kind : ℕ) (h : MemOk s) :
    MemOk (take s r kind) :=
  Only.memOk (take_only (m := 0x1000000000) _ _ .refl ⟨rfl⟩) rfl h

theorem journalStep_memOk {s : State} (h : MemOk s) :
    MemOk (journalStep s) :=
  Only.memOk (journalStep_only (m := 0x8000000000) .refl ⟨rfl⟩) rfl h

theorem commandCore_memOk {s : State} (c' : ℕ) (k : ℕ) (h : MemOk s) :
    MemOk (commandCore s c' k) :=
  Only.memOk (commandCore_only (m := 0x10002) _ _ .refl ⟨rfl⟩) rfl h

theorem coreOff_memOk {s : State} (c' : ℕ) (h : MemOk s) :
    MemOk (coreOff s c') :=
  Only.memOk (coreOff_only (m := 0x10002) _ .refl ⟨rfl⟩) rfl h

theorem cutContext_memOk {s : State} (x : Context) (h : MemOk s) :
    MemOk (cutContext s x) :=
  Only.memOk (cutContext_only (m := 0x1030002) _ .refl ⟨rfl⟩) rfl h

theorem setOutcome_memOk {s : State} (h' : ℕ) (e : EndRec) (h : MemOk s) :
    MemOk (setOutcome s h' e) :=
  Only.memOk (setOutcome_only (m := 0x20000) _ _ .refl ⟨rfl⟩) rfl h

theorem settleDeletes_memOk {s : State} (h : MemOk s) :
    MemOk (settleDeletes s) :=
  Only.memOk (settleDeletes_only (m := 0xc08020802) .refl ⟨rfl⟩) rfl h

theorem modRun_memOk {s : State} (h' : ℕ) (f : Run → Run) (h : MemOk s) :
    MemOk (modRun s h' f) :=
  Only.memOk (modRun_only (m := 0x20000) _ _ .refl ⟨rfl⟩) rfl h

theorem ctxDiscard_memOk {s : State} (d : ℕ) (h : MemOk s) :
    MemOk (ctxDiscard s d) :=
  Only.memOk (ctxDiscard_only (m := 0x8022) _ .refl ⟨rfl⟩) rfl h

theorem startCore_memOk {s : State} (h' : ℕ) (k : CtxCore) (entry : ℕ) (hold : Bool) (h : MemOk s) :
    MemOk (startCore s h' k entry hold) :=
  Only.memOk (startCore_only (m := 0x10000) _ _ _ _ .refl ⟨rfl⟩) rfl h

theorem cadence_memOk {s : State} (x : Context) (c' : ℕ) (h : MemOk s) :
    MemOk (cadence s x c') :=
  Only.memOk (cadence_only (m := 0x2) _ _ .refl ⟨rfl⟩) rfl h

theorem siteResetRuns_memOk {s : State} (i : ℕ) (h : MemOk s) :
    MemOk (siteResetRuns s i) :=
  Only.memOk (siteResetRuns_only (m := 0x1030002) _ .refl ⟨rfl⟩) rfl h

theorem readTaken_memOk {s : State} (d : ℕ) (t : Transfer) (h : MemOk s) :
    MemOk (readTaken s d t) :=
  Only.memOk (readTaken_only (m := 0x1010000) _ _ .refl ⟨rfl⟩) rfl h

theorem setLinkState_memOk {s : State} (o : ℕ) (v : ℕ) (h : MemOk s) :
    MemOk (setLinkState s o v) :=
  Only.memOk (setLinkState_only (m := 0x2) _ _ .refl ⟨rfl⟩) rfl h

theorem noteViolation_memOk {s : State} (o : ℕ) (code : ℕ) (d0 : ℕ) (h : MemOk s) :
    MemOk (noteViolation s o code d0) :=
  Only.memOk (noteViolation_only (m := 0x2008022) _ _ _ .refl ⟨rfl⟩) rfl h

theorem discardReply_memOk {s : State} (h : MemOk s) :
    MemOk (discardReply s) :=
  Only.memOk (discardReply_only (m := 0x22) .refl ⟨rfl⟩) rfl h

theorem rxLeave_memOk {s : State} (o : ℕ) (p : Packet) (h : MemOk s) :
    MemOk (rxLeave s o p) :=
  Only.memOk (rxLeave_only (m := 0x2000800) _ _ .refl ⟨rfl⟩) rfl h

theorem takePaid_memOk {s : State} (o : ℕ) (p : Packet) (h : MemOk s) :
    MemOk (takePaid s o p).1 :=
  Only.memOk (takePaid_only (m := 0x2000000) _ _ .refl ⟨rfl⟩) rfl h

theorem unpay_memOk {s : State} (paid : Bool) (o : ℕ) (p : Packet) (h : MemOk s) :
    MemOk (unpay s paid o p) :=
  Only.memOk (unpay_only (m := 0x2000000) _ _ _ .refl ⟨rfl⟩) rfl h

theorem queueAtLink_memOk {s : State} (o : ℕ) (r : OpenReq) (h : MemOk s) :
    MemOk (queueAtLink s o r) :=
  Only.memOk (queueAtLink_only (m := 0x2000000) _ _ .refl ⟨rfl⟩) rfl h

theorem exitReply_memOk {s : State} (o : ℕ) (p : Packet) (h : MemOk s) :
    MemOk (exitReply s o p) :=
  Only.memOk (exitReply_only (m := 0x2008022) _ _ .refl ⟨rfl⟩) rfl h

theorem dropCombining_memOk {s : State} (i : ℕ) (p : Packet) (h : MemOk s) :
    MemOk (dropCombining s i p) :=
  Only.memOk (dropCombining_only (m := 0x1000000) _ _ .refl ⟨rfl⟩) rfl h

theorem sendFirmware_memOk {s : State} (o : ℕ) (p : Packet) (h : MemOk s) :
    MemOk (sendFirmware s o p) :=
  Only.memOk (sendFirmware_only (m := 0x2000000) _ _ .refl ⟨rfl⟩) rfl h

theorem floodOwn_memOk {s : State} (h : MemOk s) :
    MemOk (floodOwn s) :=
  Only.memOk (floodOwn_only (m := 0x6000022) .refl ⟨rfl⟩) rfl h

theorem noteReadOf_memOk {s : State} (p : Packet) (h : MemOk s) :
    MemOk (noteReadOf s p) :=
  Only.memOk (noteReadOf_only (m := 0x200002) _ .refl ⟨rfl⟩) rfl h

theorem serveOnChannel_memOk {s : State} (i : ℕ) (p : Packet) (h : MemOk s) :
    MemOk (serveOnChannel s i p) :=
  Only.memOk (serveOnChannel_only (m := 0x1000001010800) _ _ .refl ⟨rfl⟩) rfl h

theorem received_memOk {s : State} (src : ℕ) (dst : ℕ) (p : Packet) (h : MemOk s) :
    MemOk (received s src dst p) :=
  Only.memOk (received_only (m := 0x1000000) _ _ _ .refl ⟨rfl⟩) rfl h

theorem crossTo_memOk {s : State} (i : ℕ) (dst : ℕ) (outlet : Option ℕ) (p : Packet) (h : MemOk s) :
    MemOk (crossTo s i dst outlet p) :=
  Only.memOk (crossTo_only (m := 0x1000002) _ _ _ _ .refl ⟨rfl⟩) rfl h

theorem weirMsgFrom_memOk {s : State} (i : ℕ) (arrival : Option ℕ) (p : Packet) (h : MemOk s) :
    MemOk (weirMsgFrom s i arrival p) :=
  Only.memOk (weirMsgFrom_only (m := 0x3008822) _ _ _ .refl ⟨rfl⟩) rfl h

theorem beginSlew_memOk {s : State} (d : ℤ) (h : MemOk s) :
    MemOk (beginSlew s d) :=
  Only.memOk (beginSlew_only (m := 0x1002) _ .refl ⟨rfl⟩) rfl h

theorem setAtBoundary_memOk {s : State} (t : ℕ) (h : MemOk s) :
    MemOk (setAtBoundary s t) :=
  Only.memOk (setAtBoundary_only (m := 0x1000) _ .refl ⟨rfl⟩) rfl h

theorem applySetTime_memOk {s : State} (h : MemOk s) :
    MemOk (applySetTime s) :=
  Only.memOk (applySetTime_only (m := 0x1022) .refl ⟨rfl⟩) rfl h

theorem opticsSleep_memOk {s : State} (o : ℕ) (h : MemOk s) :
    MemOk (opticsSleep s o) :=
  Only.memOk (opticsSleep_only (m := 0x22) _ .refl ⟨rfl⟩) rfl h

theorem opticsWake_memOk {s : State} (o : ℕ) (h : MemOk s) :
    MemOk (opticsWake s o) :=
  Only.memOk (opticsWake_only (m := 0x22) _ .refl ⟨rfl⟩) rfl h

theorem messageTaken_memOk {s : State} (o : ℕ) (flits : ℕ) (h : MemOk s) :
    MemOk (messageTaken s o flits) :=
  Only.memOk (messageTaken_only (m := 0x800) _ _ .refl ⟨rfl⟩) rfl h

theorem learnAndFlood_memOk {s : State} (o : ℕ) (f : LinkStateF) (h : MemOk s) :
    MemOk (learnAndFlood s o f) :=
  Only.memOk (learnAndFlood_only (m := 0x6000022) _ _ .refl ⟨rfl⟩) rfl h

theorem resumeFabric_memOk {s : State} (h : MemOk s) :
    MemOk (resumeFabric s) :=
  Only.memOk (resumeFabric_only (m := 0x6000022) .refl ⟨rfl⟩) rfl h

theorem showRefresh_memOk {s : State} (i : ℕ) (h : MemOk s) :
    MemOk (showRefresh s i) :=
  Only.memOk (showRefresh_only (m := 0x2) _ .refl ⟨rfl⟩) rfl h

theorem scrubMoves_memOk {s : State} (i : ℕ) (pond : Bool) (line : ℕ) (h : MemOk s) :
    MemOk (scrubMoves s i pond line) :=
  Only.memOk (scrubMoves_only (m := 0x2) _ _ _ .refl ⟨rfl⟩) rfl h

theorem scrubRuns_memOk {s : State} (i : ℕ) (a : ℕ) (h : MemOk s) :
    MemOk (scrubRuns s i a) :=
  Only.memOk (scrubRuns_only (m := 0x1008000) _ _ .refl ⟨rfl⟩) rfl h

theorem pondRails_memOk {s : State} (mv : ℕ) (h : MemOk s) :
    MemOk (pondRails s mv) :=
  Only.memOk (pondRails_only (m := 0x2) _ .refl ⟨rfl⟩) rfl h

theorem releaseExits_memOk {s : State} (h : MemOk s) :
    MemOk (releaseExits s) :=
  Only.memOk (releaseExits_only (m := 0x2800) .refl ⟨rfl⟩) rfl h

theorem restoreStep_memOk {s : State} (h : MemOk s) :
    MemOk (restoreStep s) :=
  Only.memOk (restoreStep_only (m := 0x2802) .refl ⟨rfl⟩) rfl h

theorem resetMoves_memOk {s : State} (i : ℕ) (p : ℕ → MoveRec → Bool) (h : MemOk s) :
    MemOk (resetMoves s i p) :=
  Only.memOk (resetMoves_only (m := 0x1000001038802) _ _ .refl ⟨rfl⟩) rfl h

theorem clearPort_memOk {s : State} (i : ℕ) (h : MemOk s) :
    MemOk (clearPort s i) :=
  Only.memOk (clearPort_only (m := 0x1000006) _ .refl ⟨rfl⟩) rfl h

theorem beginDrain_memOk {s : State} (o : ℕ) (h : MemOk s) :
    MemOk (beginDrain s o) :=
  Only.memOk (beginDrain_only (m := 0x1000000) _ .refl ⟨rfl⟩) rfl h

theorem restartNego_memOk {s : State} (i : ℕ) (h : MemOk s) :
    MemOk (restartNego s i) :=
  Only.memOk (restartNego_only (m := 0x1000002) _ .refl ⟨rfl⟩) rfl h

theorem clearSiteRegs_memOk {s : State} (i : ℕ) (h : MemOk s) :
    MemOk (clearSiteRegs s i) :=
  Only.memOk (clearSiteRegs_only (m := 0x6) _ .refl ⟨rfl⟩) rfl h

theorem violate_memOk {s : State} (i : ℕ) (code : ℕ) (type : ℕ) (seq : ℕ) (h : MemOk s) :
    MemOk (violate s i code type seq) :=
  Only.memOk (violate_only (m := 0x1008822) _ _ _ _ .refl ⟨rfl⟩) rfl h

theorem caps_memOk (i : ℕ) (h' : SbHead) (f : CapsF) {s : State} (h : MemOk s) :
    MemOk (caps i h' f s) :=
  Only.memOk (caps_only (m := 0x1008822) _ _ _ .refl ⟨rfl⟩) rfl h

theorem offer_memOk (i : ℕ) {s : State} (h : MemOk s) :
    MemOk (offer i s) :=
  Only.memOk (offer_only (m := 0x1000800) _ .refl ⟨rfl⟩) rfl h

theorem commit_memOk (i : ℕ) {s : State} (h : MemOk s) :
    MemOk (commit i s) :=
  Only.memOk (commit_only (m := 0x1004802) _ .refl ⟨rfl⟩) rfl h

theorem limit_memOk (i : ℕ) (watts : ℕ) {s : State} (h : MemOk s) :
    MemOk (limit i watts s) :=
  Only.memOk (limit_only (m := 0x1000800) _ _ .refl ⟨rfl⟩) rfl h

theorem markStale_memOk {s : State} (g : ℕ) (l : ℕ) (b : Bool) (h : MemOk s) :
    MemOk (markStale s g l b) :=
  Only.memOk (markStale_only (m := 0x2) _ _ _ .refl ⟨rfl⟩) rfl h

theorem showCalibrating_memOk {s : State} (g : ℕ) (l : ℕ) (b : Bool) (h : MemOk s) :
    MemOk (showCalibrating s g l b) :=
  Only.memOk (showCalibrating_only (m := 0x2) _ _ _ .refl ⟨rfl⟩) rfl h

theorem modAct_memOk {s : State} (n : ℕ) (f : Activity → Activity) (h : MemOk s) :
    MemOk (modAct s n f) :=
  Only.memOk (modAct_only (m := 0x2000000000) _ _ .refl ⟨rfl⟩) rfl h

theorem pointCal_memOk {s : State} (n : ℕ) (c' : ℕ) (h : MemOk s) :
    MemOk (pointCal s n c') :=
  Only.memOk (pointCal_only (m := 0x2000000002) _ _ .refl ⟨rfl⟩) rfl h

theorem showWeir_memOk {s : State} (h : MemOk s) :
    MemOk (showWeir s) :=
  Only.memOk (showWeir_only (m := 0x2) .refl ⟨rfl⟩) rfl h

theorem clearStale_memOk {s : State} (h : MemOk s) :
    MemOk (clearStale s) :=
  Only.memOk (clearStale_only (m := 0x2) .refl ⟨rfl⟩) rfl h

theorem startQueued_memOk {s : State} (h : MemOk s) :
    MemOk (startQueued s) :=
  Only.memOk (startQueued_only (m := 0xa401002022) .refl ⟨rfl⟩) rfl h

theorem loadImage_memOk {s : State} (bs : List Byte) (sites : List ℕ) (h : MemOk s) :
    MemOk (loadImage s bs sites) :=
  Only.memOk (loadImage_only (m := 0x2) _ _ .refl ⟨rfl⟩) rfl h

theorem flashErase_memOk {s : State} (w : ℕ) (o : ℕ) (n : ℕ) (h : MemOk s) :
    MemOk (flashErase s w o n) :=
  Only.memOk (flashErase_only (m := 0x800000000000) _ _ _ .refl ⟨rfl⟩) rfl h

theorem flashPut_memOk {s : State} (w : ℕ) (o : ℕ) (bs : List Byte) (h : MemOk s) :
    MemOk (flashPut s w o bs) :=
  Only.memOk (flashPut_only (m := 0x800000000000) _ _ _ .refl ⟨rfl⟩) rfl h

theorem writeCalImage_memOk {s : State} (h : MemOk s) :
    MemOk (writeCalImage s) :=
  Only.memOk (writeCalImage_only (m := 0x800000000000) .refl ⟨rfl⟩) rfl h

theorem acceptCal_memOk {s : State} (g : ℕ) (l : ℕ) (vs : List CalPair) (h : MemOk s) :
    MemOk (acceptCal s g l vs) :=
  Only.memOk (acceptCal_only (m := 0x800001000012) _ _ _ .refl ⟨rfl⟩) rfl h

theorem rejectCal_memOk {s : State} (g : ℕ) (l : ℕ) (h : MemOk s) :
    MemOk (rejectCal s g l) :=
  Only.memOk (rejectCal_only (m := 0x1008822) _ _ .refl ⟨rfl⟩) rfl h

theorem springDown_memOk {s : State} (n : ℕ) (cause : SpringFault) (h : MemOk s) :
    MemOk (springDown s n cause) :=
  Only.memOk (springDown_only (m := 0x102000008022) _ _ .refl ⟨rfl⟩) rfl h

theorem springFailed_memOk (n : ℕ) (cause : SpringFault) {s : State} (h : MemOk s) :
    MemOk (springFailed n cause s) :=
  Only.memOk (springFailed_only (m := 0x102000008022) _ _ .refl ⟨rfl⟩) rfl h

theorem takeSpare_memOk {s : State} (ok : ℕ → Bool) (h : MemOk s) :
    MemOk (takeSpare s ok) :=
  Only.memOk (takeSpare_only (m := 0x100000000002) _ .refl ⟨rfl⟩) rfl h

theorem switchWaiting_memOk {s : State} (h : MemOk s) :
    MemOk (switchWaiting s) :=
  Only.memOk (switchWaiting_only (m := 0x110000000022) .refl ⟨rfl⟩) rfl h

theorem msixReleaseAll_memOk {s : State} (fn : ℕ) (h : MemOk s) :
    MemOk (msixReleaseAll s fn) :=
  Only.memOk (msixReleaseAll_only (m := 0x802) _ .refl ⟨rfl⟩) rfl h

theorem dbError_memOk {s : State} (q : ℕ) (h : MemOk s) :
    MemOk (dbError s q) :=
  Only.memOk (dbError_only (m := 0x8008022) _ .refl ⟨rfl⟩) rfl h

theorem deleteQp_memOk {s : State} (q : ℕ) (h : MemOk s) :
    MemOk (deleteQp s q) :=
  Only.memOk (deleteQp_only (m := 0x2081a0002) _ .refl ⟨rfl⟩) rfl h

theorem hostLinkDown_memOk {s : State} (h : MemOk s) :
    MemOk (hostLinkDown s) :=
  Only.memOk (hostLinkDown_only (m := 0xfe89aa006) .refl ⟨rfl⟩) rfl h

theorem pinAndAnswer_memOk {s : State} (r : MbReq) (p : ℕ) (cores : List ℕ) (v : ℕ) (h : MemOk s) :
    MemOk (pinAndAnswer s r p cores v) :=
  Only.memOk (pinAndAnswer_only (m := 0xc00210802) _ _ _ _ .refl ⟨rfl⟩) rfl h

theorem changeStrict_memOk (r : MbReq) {s : State} (p : ℕ) (v : ℕ) (cores : List ℕ) (h : MemOk s) :
    MemOk (changeStrict r s p v cores) :=
  Only.memOk (changeStrict_only (m := 0xc00210802) _ _ _ _ .refl ⟨rfl⟩) rfl h

theorem dropUnitLines_memOk {s : State} (u : ℕ) (h : MemOk s) :
    MemOk (dropUnitLines s u) :=
  Only.memOk (dropUnitLines_only (m := 0x1000000) _ .refl ⟨rfl⟩) rfl h

theorem takeUnit_memOk (p : ℕ) {s : State} (u : ℕ) (h : MemOk s) :
    MemOk (takeUnit p s u) :=
  Only.memOk (takeUnit_only (m := 0x1200000) _ _ .refl ⟨rfl⟩) rfl h

theorem applySeals_memOk {s : State} (h : MemOk s) :
    MemOk (applySeals s) :=
  Only.memOk (applySeals_only (m := 0x20c00200812) .refl ⟨rfl⟩) rfl h

theorem clearSlot_memOk {s : State} (n : ℕ) (h : MemOk s) :
    MemOk (clearSlot s n) :=
  Only.memOk (clearSlot_only (m := 0x5400000) _ .refl ⟨rfl⟩) rfl h

theorem applyFars_memOk {s : State} (h : MemOk s) :
    MemOk (applyFars s) :=
  Only.memOk (applyFars_only (m := 0xc05c00802) .refl ⟨rfl⟩) rfl h

theorem cancelPending_memOk {s : State} (h' : ℕ) (h : MemOk s) :
    MemOk (cancelPending s h') :=
  Only.memOk (cancelPending_only (m := 0x120000) _ .refl ⟨rfl⟩) rfl h

theorem settleRemovals_memOk {s : State} (h : MemOk s) :
    MemOk (settleRemovals s) :=
  Only.memOk (settleRemovals_only (m := 0xc01130802) .refl ⟨rfl⟩) rfl h

theorem beginDestroys_memOk {s : State} (h : MemOk s) :
    MemOk (beginDestroys s) :=
  Only.memOk (beginDestroys_only (m := 0xc01330802) .refl ⟨rfl⟩) rfl h

theorem tearDown_memOk {s : State} (p : ℕ) (h : MemOk s) :
    MemOk (tearDown s p) :=
  Only.memOk (tearDown_only (m := 0x20001210002) _ .refl ⟨rfl⟩) rfl h

theorem applyTimeSets_memOk {s : State} (h : MemOk s) :
    MemOk (applyTimeSets s) :=
  Only.memOk (applyTimeSets_only (m := 0xc00001822) .refl ⟨rfl⟩) rfl h

theorem applyAborts_memOk {s : State} (h : MemOk s) :
    MemOk (applyAborts s) :=
  Only.memOk (applyAborts_only (m := 0xc01030802) .refl ⟨rfl⟩) rfl h

theorem linkActivity_memOk (r : MbReq) {s : State} (op : ℕ) (o : ℕ) (h : MemOk s) :
    MemOk (linkActivity r s op o).1 :=
  Only.memOk (linkActivity_only (m := 0x7000000000) _ _ _ .refl ⟨rfl⟩) rfl h

theorem markWeir_memOk {s : State} (w : Weir) (h : MemOk s) :
    MemOk (markWeir s w) :=
  Only.memOk (markWeir_only (m := 0x8000000002) _ .refl ⟨rfl⟩) rfl h

theorem loseMgmt_memOk {s : State} (h : MemOk s) :
    MemOk (loseMgmt s) :=
  Only.memOk (loseMgmt_only (m := 0x8000000002) .refl ⟨rfl⟩) rfl h

theorem raiseWeir_memOk {s : State} (code : ℕ) (w : Weir) (h : MemOk s) :
    MemOk (raiseWeir s code w) :=
  Only.memOk (raiseWeir_only (m := 0x8000) _ _ .refl ⟨rfl⟩) rfl h

theorem declareFailed_memOk {s : State} (beatsOnly : Bool) (h : MemOk s) :
    MemOk (declareFailed s beatsOnly) :=
  Only.memOk (declareFailed_only (m := 0xa400008022) _ .refl ⟨rfl⟩) rfl h

theorem retryPending_memOk {s : State} (h : MemOk s) :
    MemOk (retryPending s) :=
  Only.memOk (retryPending_only (m := 0x2000c00000802) .refl ⟨rfl⟩) rfl h

theorem drainEgress_memOk {s : State} (h : MemOk s) :
    MemOk (drainEgress s) :=
  Only.memOk (drainEgress_only (m := 0x3000802) .refl ⟨rfl⟩) rfl h

theorem rampAll_memOk {s : State} (ds : List ℕ) (h : MemOk s) :
    MemOk (rampAll s ds) :=
  Only.memOk (rampAll_only (m := 0x2) _ .refl ⟨rfl⟩) rfl h

theorem beginStart_memOk (moduleReset : Bool) {s : State} (h : MemOk s) :
    MemOk (beginStart moduleReset s) :=
  Only.memOk (beginStart_only (m := 0x8000000002) _ .refl ⟨rfl⟩) rfl h

theorem domainUp_memOk {s : State} (d : ℕ) (h : MemOk s) :
    MemOk (domainUp s d) :=
  Only.memOk (domainUp_only (m := 0xc01002802) _ .refl ⟨rfl⟩) rfl h

theorem settleDomains_memOk {s : State} (ds : List ℕ) (h : MemOk s) :
    MemOk (settleDomains s ds) :=
  Only.memOk (settleDomains_only (m := 0xc01002802) _ .refl ⟨rfl⟩) rfl h

theorem lockPlls_memOk {s : State} (ref : ℕ → ℕ) (h : MemOk s) :
    MemOk (lockPlls s ref) :=
  Only.memOk (lockPlls_only (m := 0x2002) _ .refl ⟨rfl⟩) rfl h

theorem endStage3_memOk {s : State} (h : MemOk s) :
    MemOk (endStage3 s) :=
  Only.memOk (endStage3_only (m := 0x2) .refl ⟨rfl⟩) rfl h

theorem enterStage5_memOk {s : State} (h : MemOk s) :
    MemOk (enterStage5 s) :=
  Only.memOk (enterStage5_only (m := 0x100000000002) .refl ⟨rfl⟩) rfl h

theorem endStage8_memOk {s : State} (h : MemOk s) :
    MemOk (endStage8 s) :=
  Only.memOk (endStage8_only (m := 0x2) .refl ⟨rfl⟩) rfl h

theorem showThrottle_memOk {s : State} (on : Bool) (k : ℕ) (h : MemOk s) :
    MemOk (showThrottle s on k) :=
  Only.memOk (showThrottle_only (m := 0x40000000002) _ _ .refl ⟨rfl⟩) rfl h

theorem lowerCores_memOk {s : State} (cs : List ℕ) (h : MemOk s) :
    MemOk (lowerCores s cs) :=
  Only.memOk (lowerCores_only (m := 0x40000010002) _ .refl ⟨rfl⟩) rfl h

theorem checkChan_memOk {s : State} (rs : List RoundReading) (c' : ℕ) (h : MemOk s) :
    MemOk (checkChan s rs c') :=
  Only.memOk (checkChan_only (m := 0x8002) _ _ .refl ⟨rfl⟩) rfl h

theorem checkStack_memOk {s : State} (i : ℕ) (h : MemOk s) :
    MemOk (checkStack s i) :=
  Only.memOk (checkStack_only (m := 0x1008000) _ .refl ⟨rfl⟩) rfl h

theorem showStack_memOk {s : State} (i : ℕ) (h : MemOk s) :
    MemOk (showStack s i) :=
  Only.memOk (showStack_only (m := 0x8002) _ .refl ⟨rfl⟩) rfl h

theorem stackBands_memOk {s : State} (i : ℕ) (h : MemOk s) :
    MemOk (stackBands s i) :=
  Only.memOk (stackBands_only (m := 0x1008002) _ .refl ⟨rfl⟩) rfl h

theorem hbmBand_memOk {s : State} (rs : List RoundReading) (i : ℕ) (h : MemOk s) :
    MemOk (hbmBand s rs i) :=
  Only.memOk (hbmBand_only (m := 0x1008000) _ _ .refl ⟨rfl⟩) rfl h

theorem portBand_memOk {s : State} (rs : List RoundReading) (i : ℕ) (h : MemOk s) :
    MemOk (portBand s rs i) :=
  Only.memOk (portBand_only (m := 0x2001008022) _ _ .refl ⟨rfl⟩) rfl h

theorem springBand_memOk {s : State} (rs : List RoundReading) (n : ℕ) (h : MemOk s) :
    MemOk (springBand s rs n) :=
  Only.memOk (springBand_only (m := 0x100000008002) _ _ .refl ⟨rfl⟩) rfl h

theorem takeMonitors_memOk {s : State} (ms : List MonReading) (h : MemOk s) :
    MemOk (takeMonitors s ms) :=
  Only.memOk (takeMonitors_only (m := 0x8002) _ .refl ⟨rfl⟩) rfl h

theorem publish_memOk {s : State} (rs : List RoundReading) (ms : List MonReading) (h : MemOk s) :
    MemOk (publish s rs ms) :=
  Only.memOk (publish_only (m := 0x2) _ _ .refl ⟨rfl⟩) rfl h

theorem takeFeeds_memOk {s : State} (rs : List RoundReading) (h : MemOk s) :
    MemOk (takeFeeds s rs) :=
  Only.memOk (takeFeeds_only (m := 0x40000000002) _ .refl ⟨rfl⟩) rfl h

theorem takeGrid_memOk {s : State} (rs : List RoundReading) (n : ℕ) (h : MemOk s) :
    MemOk (takeGrid s rs n) :=
  Only.memOk (takeGrid_only (m := 0x22) _ _ .refl ⟨rfl⟩) rfl h

theorem firmwareRound_memOk {s : State} (h : MemOk s) :
    MemOk (firmwareRound s) :=
  Only.memOk (firmwareRound_only (m := 0x40000012802) .refl ⟨rfl⟩) rfl h

theorem endRound_memOk {s : State} (h : MemOk s) :
    MemOk (endRound s) :=
  Only.memOk (endRound_only (m := 0x80000000002) .refl ⟨rfl⟩) rfl h

theorem holdStart_memOk {s : State} (h : MemOk s) :
    MemOk (holdStart s) :=
  Only.memOk (holdStart_only (m := 0x2) .refl ⟨rfl⟩) rfl h

theorem failStart_memOk {s : State} (cls : ℕ) (code : ℕ) (unit : ℕ) (h : MemOk s) :
    MemOk (failStart s cls code unit) :=
  Only.memOk (failStart_only (m := 0x8002) _ _ _ .refl ⟨rfl⟩) rfl h

theorem bootFailed_memOk {s : State} (w : Weir) (h : MemOk s) :
    MemOk (bootFailed s w) :=
  Only.memOk (bootFailed_only (m := 0x8000008002) _ .refl ⟨rfl⟩) rfl h

theorem bootDone_memOk {s : State} (w : Weir) (slot : ℕ) (record : Bool) (h : MemOk s) :
    MemOk (bootDone s w slot record) :=
  Only.memOk (bootDone_only (m := 0x43800400a022) _ _ _ .refl ⟨rfl⟩) rfl h

theorem loadTime_memOk {s : State} (delays : List ℕ) (h : MemOk s) :
    MemOk (loadTime s delays) :=
  Only.memOk (loadTime_only (m := 0x80000009022) _ .refl ⟨rfl⟩) rfl h

theorem trainDelays_memOk {s : State} (i : ℕ) (best : List (Dir × Fin 1000 × Fin 64)) (h : MemOk s) :
    MemOk (trainDelays s i best) :=
  Only.memOk (trainDelays_only (m := 0x1000000) _ _ .refl ⟨rfl⟩) rfl h

theorem offerCores_memOk {s : State} (i : ℕ) (h : MemOk s) :
    MemOk (offerCores s i) :=
  Only.memOk (offerCores_only (m := 0x8002) _ .refl ⟨rfl⟩) rfl h

theorem setModuleStep_memOk {s : State} (h : MemOk s) :
    MemOk (setModuleStep s) :=
  Only.memOk (setModuleStep_only (m := 0x2002) .refl ⟨rfl⟩) rfl h

theorem settleCore_memOk {s : State} (c' : ℕ) (h : MemOk s) :
    MemOk (settleCore s c') :=
  Only.memOk (settleCore_only (m := 0x10002) _ .refl ⟨rfl⟩) rfl h

theorem enterStage7_memOk {s : State} (h : MemOk s) :
    MemOk (enterStage7 s) :=
  Only.memOk (enterStage7_only (m := 0x6000000002) .refl ⟨rfl⟩) rfl h

theorem restorePin_memOk {s : State} (p : ℕ) (h : MemOk s) :
    MemOk (restorePin s p) :=
  Only.memOk (restorePin_only (m := 0x18002) _ .refl ⟨rfl⟩) rfl h

theorem placeLanes_memOk {s : State} (o : ℕ) (h : MemOk s) :
    MemOk (placeLanes s o) :=
  Only.memOk (placeLanes_only (m := 0x2) _ .refl ⟨rfl⟩) rfl h

theorem flushLines_memOk {s : State} (h : MemOk s) :
    MemOk (flushLines s) :=
  Only.memOk (flushLines_only (m := 0x400000000800) .refl ⟨rfl⟩) rfl h

theorem extest_memOk (drive : BitVec 80) (leave : Bool) {s : State} (h : MemOk s) :
    MemOk (extest drive leave s) :=
  Only.memOk (extest_only (m := 0x600000000000) _ _ .refl ⟨rfl⟩) rfl h

theorem endDispatches_memOk {s : State} (n : ℕ) (h : MemOk s) :
    MemOk (endDispatches s n) :=
  Only.memOk (endDispatches_only (m := 0x1130002) _ .refl ⟨rfl⟩) rfl h

theorem grantSlots_memOk {s : State} (n : ℕ) (h : MemOk s) :
    MemOk (grantSlots s n) :=
  Only.memOk (grantSlots_only (m := 0x1a0000) _ .refl ⟨rfl⟩) rfl h

theorem readyDispatches_memOk {s : State} (h : MemOk s) :
    MemOk (readyDispatches s) :=
  Only.memOk (readyDispatches_only (m := 0x20000) .refl ⟨rfl⟩) rfl h

theorem acceptEntries_memOk {s : State} (n : ℕ) (h : MemOk s) :
    MemOk (acceptEntries s n) :=
  Only.memOk (acceptEntries_only (m := 0x8100002) _ .refl ⟨rfl⟩) rfl h

theorem grantDoorbells_memOk {s : State} (n : ℕ) (h : MemOk s) :
    MemOk (grantDoorbells s n) :=
  Only.memOk (grantDoorbells_only (m := 0x2000c00000822) _ .refl ⟨rfl⟩) rfl h

theorem addOutstanding_memOk {s : State} (i : ℕ) (r : OpenReq) (h : MemOk s) :
    MemOk (addOutstanding s i r) :=
  Only.memOk (addOutstanding_only (m := 0x1000000) _ _ .refl ⟨rfl⟩) rfl h

theorem slewStep_memOk (n : ℕ) {s : State} (h : MemOk s) :
    MemOk (slewStep n s) :=
  Only.memOk (slewStep_only (m := 0x1002) _ .refl ⟨rfl⟩) rfl h

theorem toBoundary_memOk {s : State} (h : MemOk s) :
    MemOk (toBoundary s) :=
  Only.memOk (toBoundary_only (m := 0x1000) .refl ⟨rfl⟩) rfl h

theorem takeTaps_memOk {s : State} (h : MemOk s) :
    MemOk (takeTaps s) :=
  Only.memOk (takeTaps_only (m := 0x1000000) .refl ⟨rfl⟩) rfl h

theorem attachRead_memOk {s t : State} (i reg : Nat) (r : OpenReq) (e : attachRead s i reg r = some t) (h : MemOk s) : MemOk t :=
  Only.memOk (attachRead_only (m := 0x1000002) _ _ _ e .refl ⟨rfl⟩) rfl h

theorem assignPages_memOk {s : State} (a n : Nat) (h : MemOk s) : MemOk (assignPages s a n) := by
  have w := twf_tdrop (fun _ => false) s.written (fun k => a ≤ 4096 * k && 4096 * k < a + n) h.written
  exact ⟨h.mem, h.hostMem, w, h.poison, h.corePoison⟩

theorem setPoison_memOk {s : State} (a : Nat) (b : Bool) (h : MemOk s) : MemOk (setPoison s a b) := by
  have k : MemOk { s with poison := tput false s.poison (a / 64) b } :=
    ⟨h.mem, h.hostMem, h.written, twf_tput (fun _ => false) _ _ _ h.poison, h.corePoison⟩
  have c : MemOk { s with corePoison := tput false s.corePoison (a / 32) b } :=
    ⟨h.mem, h.hostMem, h.written, h.poison, twf_tput (fun _ => false) _ _ _ h.corePoison⟩
  unfold setPoison
  split <;> first
    | exact c
    | exact h
    | exact okIte k (okIte (Only.memOk (rowReport_only (m := 0x8000) _ .refl ⟨rfl⟩) rfl (Only.memOk (putReg_only (m := 0x2) _ _ .refl ⟨rfl⟩) rfl k)) (Only.memOk (putReg_only (m := 0x2) _ _ .refl ⟨rfl⟩) rfl k))

theorem openPage_memOk {s : State} (a : Nat) (h : MemOk s) : MemOk (openPage s a) := by
  have w := twf_tput (fun _ => false) s.written (a / 4096) true h.written
  exact okIte h (okFold ⟨wf_zeroRange h.mem _ _, h.hostMem, w, h.poison, h.corePoison⟩
    fun _ ht _ => setPoison_memOk _ _ ht)

theorem applyPiece_memOk {s : State} (a : Nat) (bs : List Byte) (p : Bool) (h : MemOk s) : MemOk (applyPiece s a bs p).1 := by
  have k : MemOk (if paged a then openPage s a else s) := okIte (openPage_memOk _ h) h
  have w (t : State) (o : MemOk t) : MemOk { t with mem := writeBytes t.mem a bs } :=
    ⟨wf_writeBytes o.mem _ _, o.hostMem, o.written, o.poison, o.corePoison⟩
  unfold applyPiece
  exact okIte1 k (okIte (setPoison_memOk _ _ (w _ k)) (w _ k))

theorem writePieces_memOk {s : State} (n a off : Nat) (bs : List Byte) (pois : List Nat) (h : MemOk s) :
    MemOk (writePieces n s a off bs pois).1 := by
  induction n generalizing s a off bs with
  | zero => exact h
  | succ n ih =>
    unfold writePieces
    split
    · exact h
    · exact ih _ _ _ (applyPiece_memOk _ _ _ h)

theorem writeMem_memOk {s : State} (a : Nat) (bs : List Byte) (pois : List Nat) (h : MemOk s) :
    MemOk (writeMem s a bs pois).1 := writePieces_memOk _ _ _ _ _ h

theorem lineUncorrectable_memOk {s : State} (a : ℕ) (h : MemOk s) :
    MemOk (lineUncorrectable s a) := by
  unfold lineUncorrectable
  repeat' first
    | with_reducible assumption
    | intro _
    | lift_lets -underBinder
    | with_reducible apply setPoison_memOk
    | with_reducible (first | apply addPairSat_memOk | apply oweNotice_memOk | apply raise_memOk)
    | split
    | (conv => arg 1; zeta)

theorem lineDecoded_memOk {s : State} (a : ℕ) (o : EccOutcome) (h : MemOk s) :
    MemOk (lineDecoded s a o) := by
  unfold lineDecoded
  repeat' first
    | with_reducible assumption
    | intro _
    | lift_lets -underBinder
    | with_reducible apply lineUncorrectable_memOk
    | with_reducible apply lineCorrected_memOk
    | with_reducible apply okSkip
    | split
    | (conv => arg 1; zeta)

theorem decodeRange_memOk {s : State} (ecc : EccList) (a : ℕ) (n : ℕ) (h : MemOk s) :
    MemOk (decodeRange s ecc a n) := by
  unfold decodeRange
  repeat' first
    | with_reducible assumption
    | intro t (ht : MemOk t)
    | intro _
    | lift_lets -underBinder
    | with_reducible apply lineDecoded_memOk
    | with_reducible (first | apply okSkip | apply okFold)
    | split

theorem firmwareWrite_memOk {s : State} (a : ℕ) (bs : List Byte) (h : MemOk s) :
    MemOk (firmwareWrite s a bs) := by
  unfold firmwareWrite
  repeat' first
    | with_reducible assumption
    | intro _
    | lift_lets -underBinder
    | with_reducible apply writeMem_memOk
    | with_reducible apply holdWrite_memOk
    | with_reducible apply okSkip
    | split

theorem storeRegion_memOk {s : State} (k : CtxCore) (off : ℕ) (bs : List Byte) (pois : List ℕ) (h : MemOk s) :
    MemOk (storeRegion s k off bs pois) := by
  unfold storeRegion
  repeat' first
    | with_reducible assumption
    | with_reducible apply writeMem_memOk

theorem decodeRegion_memOk {s : State} (k : CtxCore) (ecc : EccList) (off : ℕ) (n : ℕ) (h : MemOk s) :
    MemOk (decodeRegion s k ecc off n) := by
  unfold decodeRegion
  repeat' first
    | with_reducible assumption
    | with_reducible apply decodeRange_memOk

theorem runOp_memOk {s : State} (c' : ℕ) (sl : Slot) (op : SlotOp) (ready : CoreState → Bool)
  (f : Context → CtxCore → ℕ → State → State) (h : MemOk s)
  (hff : ∀ (v0 : Context) (v1 : CtxCore) (v2 : ℕ) (v3 : State), MemOk v3 → MemOk (f v0 v1 v2 v3)) :
    MemOk (runOp s c' sl op ready f) := by
  unfold runOp
  repeat' first
    | with_reducible assumption
    | intro t (ht : MemOk t)
    | intro _
    | with_reducible (first | apply hff)
    | lift_lets -underBinder
    | with_reducible apply putCore_memOk
    | with_reducible apply okSkip
    | split
    | (conv => arg 1; zeta)

theorem vld_memOk (c' : ℕ) (f : VMemF) (ecc : EccList) {s : State} (h : MemOk s) :
    MemOk (vld c' f ecc s) := by
  unfold vld
  repeat' first
    | with_reducible assumption
    | intro t (ht : MemOk t)
    | intro _
    | lift_lets -underBinder
    | with_reducible (first | apply runOp_memOk | apply decodeRegion_memOk)
    | with_reducible (first | apply loadRegion_memOk | apply putCore_memOk | apply runPosts_memOk | apply perfAdd_memOk)
    | with_reducible (first | apply okSkip | apply okFold | apply okFold1)
    | split
    | (conv => arg 1; zeta)

theorem vst_memOk (c' : ℕ) (f : VMemF) {s : State} (h : MemOk s) :
    MemOk (vst c' f s) := by
  unfold vst
  repeat' first
    | with_reducible assumption
    | intro t (ht : MemOk t)
    | intro _
    | lift_lets -underBinder
    | with_reducible (first | apply runOp_memOk | apply storeRegion_memOk)
    | with_reducible (first | apply readVregs_memOk | apply runPosts_memOk | apply perfAdd_memOk)
    | with_reducible (first | apply okSkip | apply okFold)
    | split
    | (conv => arg 1; zeta)

theorem hostWrite_memOk {s : State} (fn a : Nat) (bs : List Byte) (h : MemOk s) : MemOk (hostWrite s fn a bs) :=
  ⟨h.mem, wf_writeBytes h.hostMem _ _, h.written, h.poison, h.corePoison⟩

theorem cqWrite_memOk {s : State} (n : ℕ) (ws : List ℕ) (h : MemOk s) :
    MemOk (cqWrite s n ws) := by
  unfold cqWrite
  repeat' first
    | with_reducible assumption
    | intro _
    | lift_lets -underBinder
    | with_reducible apply hostWrite_memOk
    | with_reducible (first | apply dbError_memOk | apply putQp_memOk | apply cqInterrupt_memOk)
    | with_reducible apply okSkip
    | split

theorem writeCompletion_memOk {s : State} (e : Ended) (h : MemOk s) :
    MemOk (writeCompletion s e) := by
  unfold writeCompletion
  repeat' first
    | with_reducible assumption
    | intro _
    | lift_lets -underBinder
    | with_reducible apply cqWrite_memOk
    | with_reducible (first | apply modQp_memOk | apply dbError_memOk | apply addPairSat_memOk | apply putQp_memOk)
    | with_reducible apply okSkip
    | split

theorem cqFlush_memOk {s : State} (n : ℕ) (h : MemOk s) :
    MemOk (cqFlush s n) := by
  unfold cqFlush
  repeat' first
    | with_reducible assumption
    | intro t (ht : MemOk t)
    | intro _
    | lift_lets -underBinder
    | with_reducible apply cqWrite_memOk
    | with_reducible (first | apply modQp_memOk | apply dbError_memOk)
    | with_reducible apply okFold

theorem answerCopy_memOk {s : State} (ch : ℕ) (id : ℕ) (a : ℕ) (n : ℕ) (code : ℕ) (data : List Byte) (h : MemOk s) :
    MemOk (answerCopy s ch id a n code data) := by
  unfold answerCopy
  repeat' first
    | with_reducible assumption
    | intro _
    | lift_lets -underBinder
    | with_reducible apply hostWrite_memOk
    | with_reducible apply copyAnswered_memOk
    | with_reducible apply okSkip
    | split
    | (conv => arg 1; zeta)

theorem finishReq_memOk {s : State} (i : ℕ) (r : OpenReq) (code : ℕ) (data : List Byte) (fill : Bool) (h : MemOk s) :
    MemOk (finishReq s i r code data fill) := by
  unfold finishReq
  repeat' first
    | with_reducible assumption
    | intro _
    | lift_lets -underBinder
    | with_reducible apply answerCopy_memOk
    | with_reducible (first | apply failFlagged_memOk | apply modMove_memOk | apply cacheFill_memOk)
    | with_reducible apply okSkip
    | split
    | (conv => arg 1; zeta)

theorem refuseLocal_memOk {s : State} (i : ℕ) (r : OpenReq) (code : ℕ) (h : MemOk s) :
    MemOk (refuseLocal s i r code) := by
  unfold refuseLocal
  repeat' first
    | with_reducible assumption
    | with_reducible apply finishReq_memOk

theorem checkAndSend_memOk {s : State} (i : ℕ) (part : ℕ) (r : OpenReq) (h : MemOk s) :
    MemOk (checkAndSend s i part r) := by
  unfold checkAndSend
  repeat' first
    | with_reducible assumption
    | intro _
    | lift_lets -underBinder
    | with_reducible apply refuseLocal_memOk
    | with_reducible (first | apply sendReq_memOk | apply keyRefused_memOk | apply egressRefused_memOk)
    | split
    | (conv => arg 1; zeta)

theorem originate_memOk {s : State} (i : ℕ) (part : ℕ) (r : OpenReq) (h : MemOk s) :
    MemOk (originate s i part r) := by
  unfold originate
  repeat' first
    | with_reducible assumption
    | intro _
    | lift_lets -underBinder
    | with_reducible apply checkAndSend_memOk
    | with_reducible (first | apply numberReq_memOk | apply addPairSat_memOk | apply modSite_memOk)
    | with_reducible apply okSkip
    | split

theorem flaggedStoreRelease_memOk (i : ℕ) (tag : ℕ) {s : State} (h : MemOk s) :
    MemOk (flaggedStoreRelease i tag s) := by
  unfold flaggedStoreRelease
  repeat' first
    | with_reducible assumption
    | intro _
    | lift_lets -underBinder
    | with_reducible (first | apply finishReq_memOk | apply checkAndSend_memOk)
    | with_reducible apply modSite_memOk
    | with_reducible apply okSkip
    | split
    | (conv => arg 1; zeta)

theorem issueReq_memOk {s : State} (x : Context) (c' : ℕ) (id : ℕ) (r : OpenReq) (h : MemOk s) :
    MemOk (issueReq s x c' id r) := by
  unfold issueReq
  repeat' first
    | with_reducible assumption
    | intro _
    | lift_lets -underBinder
    | with_reducible apply originate_memOk
    | with_reducible apply modMove_memOk

theorem readLine_memOk (x : Context) (c' : ℕ) (id : ℕ) (ecc : EccList) {s : State} (line : ℕ) (h : MemOk s) :
    MemOk (readLine x c' id ecc s line) := by
  unfold readLine
  repeat' first
    | with_reducible assumption
    | intro _
    | lift_lets -underBinder
    | with_reducible apply issueReq_memOk
    | with_reducible (first | apply cacheDecoded_memOk | apply cacheTouch_memOk | apply addPairSat_memOk | apply modMove_memOk)
    | split
    | (conv => arg 1; zeta)

theorem sendReads_memOk {s : State} (x : Context) (c' : ℕ) (id : ℕ) (a : ℕ) (n : ℕ) (chan : ℕ) (ecc : EccList) (h : MemOk s) :
    MemOk (sendReads s x c' id a n chan ecc) := by
  unfold sendReads
  repeat' first
    | with_reducible assumption
    | intro t (ht : MemOk t)
    | intro _
    | with_reducible (first | apply readLine_memOk | apply issueReq_memOk)
    | with_reducible (first | apply okSkip | apply okFold)
    | split

theorem sendWrites_memOk {s : State} (x : Context) (c' : ℕ) (id : ℕ) (m' : MoveRec) (h : MemOk s) :
    MemOk (sendWrites s x c' id m') := by
  unfold sendWrites
  repeat' first
    | with_reducible assumption
    | intro t (ht : MemOk t)
    | intro _
    | lift_lets -underBinder
    | with_reducible (first | apply refuseLocal_memOk | apply issueReq_memOk)
    | with_reducible (first | apply modMove_memOk | apply numberReq_memOk)
    | with_reducible (first | apply okSkip | apply okFold | apply okFold1)
    | split

theorem decodeArgs_memOk {s : State} (k : CtxCore) (d : MoveDesc) (drained : Bool) (ecc : EccList) (h : MemOk s) :
    MemOk (decodeArgs s k d drained ecc) := by
  unfold decodeArgs
  repeat' first
    | with_reducible assumption
    | intro _
    | lift_lets -underBinder
    | with_reducible apply decodeRegion_memOk
    | with_reducible apply okSkip
    | split
    | (conv => arg 1; zeta)

theorem issueMove_memOk {s : State} (x : Context) (k : CtxCore) (no : ℕ) (d : MoveDesc) (drained : Option (List Byte × Bool))
  (ecc : EccList) (h : MemOk s) :
    MemOk (issueMove s x k no d drained ecc) := by
  unfold issueMove
  repeat' first
    | with_reducible assumption
    | intro _
    | lift_lets -underBinder
    | with_reducible (first | apply decodeArgs_memOk | apply sendReads_memOk | apply decodeRange_memOk)
    | with_reducible (first | apply latch_memOk | apply modCore_memOk)
    | with_reducible apply okSkip
    | split
    | with_reducible apply memOk_nextId
    | (conv => arg 1; zeta)

theorem move_memOk (c' : ℕ) (index : BitVec 16) (ecc : EccList) {s : State} (h : MemOk s) :
    MemOk (move c' index ecc s) := by
  unfold move
  repeat' first
    | with_reducible assumption
    | intro _
    | with_reducible (first | apply runOp_memOk | apply issueMove_memOk)
    | with_reducible apply okSkip
    | split

theorem leaveMove_memOk {s : State} (x : Context) (k : CtxCore) (m' : MoveRec) (h : MemOk s) :
    MemOk (leaveMove s x k m') := by
  unfold leaveMove
  repeat' first
    | with_reducible assumption
    | intro _
    | lift_lets -underBinder
    | with_reducible apply sendWrites_memOk
    | with_reducible (first | apply noteRead_memOk | apply latch_memOk | apply modMove_memOk | apply postCounter_memOk | apply queueTransfer_memOk | apply sendPosts_memOk)
    | with_reducible apply okSkip
    | split
    | (conv => arg 1; zeta)

theorem moveLastByteLeftSource_memOk (c' : ℕ) (id : ℕ) {s : State} (h : MemOk s) :
    MemOk (moveLastByteLeftSource c' id s) := by
  unfold moveLastByteLeftSource
  repeat' first
    | with_reducible assumption
    | intro _
    | lift_lets -underBinder
    | with_reducible apply leaveMove_memOk
    | with_reducible apply okSkip
    | split
    | (conv => arg 1; zeta)

theorem writeDsts_memOk {s : State} (m' : MoveRec) (h : MemOk s) :
    MemOk (writeDsts s m').1 := by
  unfold writeDsts
  repeat' first
    | with_reducible assumption
    | intro t (ht : MemOk t)
    | intro _
    | lift_lets -underBinder
    | with_reducible apply writeMem_memOk
    | with_reducible (first | apply okFold | apply okFold1)
    | split
    | (conv => arg 1; zeta)

theorem moveComplete_memOk (c' : ℕ) (id : ℕ) (status : XferStatus) {s : State} (h : MemOk s) :
    MemOk (moveComplete c' id status s) := by
  unfold moveComplete
  repeat' first
    | with_reducible assumption
    | intro _
    | lift_lets -underBinder
    | with_reducible (first | apply leaveMove_memOk | apply move_memOk | apply writeDsts_memOk)
    | with_reducible (first | apply endMove_memOk | apply holdWrite_memOk | apply modMove_memOk)
    | with_reducible apply okSkip
    | split
    | (conv => arg 1; zeta)

theorem decodeRanges_memOk {s : State} (k : CtxCore) (ecc : EccList) (rs : List (ℕ × ℕ)) (h : MemOk s) :
    MemOk (decodeRanges s k ecc rs) := by
  unfold decodeRanges
  repeat' first
    | with_reducible assumption
    | intro t (ht : MemOk t)
    | intro _
    | with_reducible apply decodeRegion_memOk
    | with_reducible (first | apply okSkip | apply okFold)
    | split

theorem mma_memOk (c' : ℕ) (f : MmaF) (ecc : EccList) {s : State} (h : MemOk s) :
    MemOk (mma c' f ecc s) := by
  unfold mma
  repeat' first
    | with_reducible assumption
    | intro t (ht : MemOk t)
    | intro _
    | lift_lets -underBinder
    | with_reducible (first | apply runOp_memOk | apply decodeRanges_memOk)
    | with_reducible (first | apply latch_memOk | apply countArray_memOk | apply mmaArray_memOk | apply runPosts_memOk | apply modCore_memOk)
    | with_reducible (first | apply okSkip | apply okFold)
    | split
    | (conv => arg 1; zeta)

theorem merge_memOk (c' : ℕ) (f : MergeF) (ecc : EccList) {s : State} (h : MemOk s) :
    MemOk (merge c' f ecc s) := by
  unfold merge
  repeat' first
    | with_reducible assumption
    | intro t (ht : MemOk t)
    | intro _
    | lift_lets -underBinder
    | with_reducible (first | apply runOp_memOk | apply decodeRanges_memOk)
    | with_reducible (first | apply mergeArray_memOk | apply runPosts_memOk | apply modCore_memOk)
    | with_reducible (first | apply okSkip | apply okFold)
    | split

theorem storeDrain_memOk {s : State} (k : CtxCore) (t : Td) (rank : ℕ) (rows : List DrainRow) (p : Bool) (h : MemOk s) :
    MemOk (storeDrain s k t rank rows p) := by
  unfold storeDrain
  repeat' first
    | with_reducible assumption
    | intro t (ht : MemOk t)
    | intro _
    | lift_lets -underBinder
    | with_reducible apply storeRegion_memOk
    | with_reducible (first | apply okSkip | apply okFold)
    | split

theorem drain_memOk (c' : ℕ) (f : DrainF) {s : State} (h : MemOk s) :
    MemOk (drain c' f s) := by
  unfold drain
  repeat' first
    | with_reducible assumption
    | intro t (ht : MemOk t)
    | intro _
    | lift_lets -underBinder
    | with_reducible (first | apply runOp_memOk | apply issueMove_memOk | apply move_memOk | apply storeDrain_memOk)
    | with_reducible (first | apply latch_memOk | apply modCore_memOk | apply runPosts_memOk)
    | with_reducible (first | apply okSkip | apply okFold)
    | split

theorem setsel_memOk (c' : ℕ) (word : BitVec 23) (ecc : EccList) {s : State} (h : MemOk s) :
    MemOk (setsel c' word ecc s) := by
  unfold setsel
  repeat' first
    | with_reducible assumption
    | intro _
    | lift_lets -underBinder
    | with_reducible (first | apply runOp_memOk | apply decodeRegion_memOk)
    | with_reducible (first | apply loadRegion_memOk | apply modCore_memOk)
    | with_reducible apply okSkip
    | split

theorem rdstat_memOk (c' : ℕ) (off : BitVec 20) {s : State} (h : MemOk s) :
    MemOk (rdstat c' off s) := by
  unfold rdstat
  repeat' first
    | with_reducible assumption
    | intro _
    | with_reducible (first | apply runOp_memOk | apply storeRegion_memOk)
    | with_reducible apply okSkip
    | split

theorem evtWrite_memOk {s : State} (fn : ℕ) (ws : List ℕ) (h : MemOk s) :
    MemOk (evtWrite s fn ws) := by
  unfold evtWrite
  repeat' first
    | with_reducible assumption
    | intro _
    | lift_lets -underBinder
    | with_reducible apply hostWrite_memOk
    | with_reducible (first | apply raiseMb_memOk | apply putWin_memOk | apply msix_memOk)
    | with_reducible apply okSkip
    | split
    | (conv => arg 1; zeta)

theorem deliverEvent_memOk {s : State} (fn : ℕ) (ws : List ℕ) (h : MemOk s) :
    MemOk (deliverEvent s fn ws) := by
  unfold deliverEvent
  repeat' first
    | with_reducible assumption
    | intro _
    | lift_lets -underBinder
    | with_reducible apply evtWrite_memOk
    | with_reducible apply modWin_memOk
    | with_reducible apply okSkip
    | split
    | (conv => arg 1; zeta)

theorem event_memOk {s : State} (fn : ℕ) (type : ℕ) (part : ℕ) (words : List ℕ) (h : MemOk s) :
    MemOk (event s fn type part words) := by
  unfold event
  repeat' first
    | with_reducible assumption
    | intro _
    | lift_lets -underBinder
    | with_reducible apply deliverEvent_memOk
    | with_reducible apply okSkip
    | split
    | with_reducible apply memOk_weir

theorem writeOwed_memOk {s : State} (h : MemOk s) :
    MemOk (writeOwed s) := by
  unfold writeOwed
  repeat' first
    | with_reducible assumption
    | intro t (ht : MemOk t)
    | intro _
    | lift_lets -underBinder
    | with_reducible apply deliverEvent_memOk
    | with_reducible apply okFold
    | with_reducible apply memOk_weir

theorem evtFlush_memOk {s : State} (fn : ℕ) (h : MemOk s) :
    MemOk (evtFlush s fn) := by
  unfold evtFlush
  repeat' first
    | with_reducible assumption
    | intro t (ht : MemOk t)
    | intro _
    | lift_lets -underBinder
    | with_reducible apply evtWrite_memOk
    | with_reducible apply modWin_memOk
    | with_reducible apply okFold

theorem partEvent_memOk {s : State} (p : ℕ) (type : ℕ) (words : List ℕ) (h : MemOk s) :
    MemOk (partEvent s p type words) := by
  unfold partEvent
  repeat' first
    | with_reducible assumption
    | with_reducible apply event_memOk

theorem poisonNotice_memOk {s : State} (h : MemOk s) :
    MemOk (poisonNotice s) := by
  unfold poisonNotice
  repeat' first
    | with_reducible assumption
    | intro _
    | lift_lets -underBinder
    | with_reducible apply partEvent_memOk
    | with_reducible apply okSkip
    | split
    | with_reducible apply memOk_faults
    | (conv => arg 1; zeta)

theorem farBurst_memOk {s : State} (ch : ℕ) (r : CopyRec) (a : ℕ) (n : ℕ) (data : List Byte) (h : MemOk s) :
    MemOk (farBurst s ch r a n data) := by
  unfold farBurst
  repeat' first
    | with_reducible assumption
    | intro t (ht : MemOk t)
    | intro _
    | lift_lets -underBinder
    | with_reducible apply originate_memOk
    | with_reducible (first | apply copy_memOk | apply modCopy_memOk)
    | with_reducible (first | apply okSkip | apply okFold)
    | split
    | (conv => arg 1; zeta)

theorem burstDevice_memOk {s : State} (ch : ℕ) (r : CopyRec) (n : ℕ) (host : List Byte) (ecc : EccList) (h : MemOk s) :
    MemOk (burstDevice s ch r n host ecc) := by
  unfold burstDevice
  repeat' first
    | with_reducible assumption
    | intro _
    | lift_lets -underBinder
    | with_reducible (first | apply decodeRange_memOk | apply hostWrite_memOk | apply writeMem_memOk)
    | with_reducible (first | apply noteRead_memOk | apply modCopy_memOk | apply holdWrite_memOk | apply copy_memOk)
    | with_reducible apply okSkip
    | split
    | (conv => arg 1; zeta)

theorem moveBurst_memOk {s : State} (ch : ℕ) (r : CopyRec) (host : List Byte) (ecc : EccList) (h : MemOk s) :
    MemOk (moveBurst s ch r host ecc) := by
  unfold moveBurst
  repeat' first
    | with_reducible assumption
    | intro _
    | lift_lets -underBinder
    | with_reducible (first | apply farBurst_memOk | apply burstDevice_memOk)
    | with_reducible (first | apply modCopy_memOk | apply addPairSat_memOk)
    | with_reducible apply okSkip
    | split

theorem dmaBurstComplete_memOk (ch : ℕ) (host : List Byte) (ecc : EccList) {s : State} (h : MemOk s) :
    MemOk (dmaBurstComplete ch host ecc s) := by
  unfold dmaBurstComplete
  repeat' first
    | with_reducible assumption
    | intro _
    | lift_lets -underBinder
    | with_reducible apply moveBurst_memOk
    | with_reducible (first | apply dmaRound_memOk | apply putDma_memOk | apply modCopy_memOk | apply copyProgress_memOk)
    | with_reducible apply okSkip
    | split
    | (conv => arg 1; zeta)

theorem haltNotice_memOk {s : State} (ch : ℕ) (h : MemOk s) :
    MemOk (haltNotice s ch) := by
  unfold haltNotice
  repeat' first
    | with_reducible assumption
    | with_reducible apply event_memOk

theorem dmaHalt_memOk (ch : ℕ) (cause : HostErr) {s : State} (h : MemOk s) :
    MemOk (dmaHalt ch cause s) := by
  unfold dmaHalt
  repeat' first
    | with_reducible assumption
    | intro _
    | lift_lets -underBinder
    | with_reducible apply haltNotice_memOk
    | with_reducible (first | apply addPairSat_memOk | apply raiseFlag_memOk | apply putReg_memOk | apply raise_memOk | apply modCopy_memOk | apply dmaStat_memOk | apply copyProgress_memOk)
    | with_reducible apply okSkip
    | split
    | (conv => arg 1; zeta)

theorem execReq_memOk {s : State} (opcode : Nat) (f : MbReq → State → State) (h : MemOk s)
    (hff : ∀ (r : MbReq) (t : State), MemOk t → MemOk (f r t)) : MemOk (execReq s opcode f) := by
  have k : MemOk (settleHead 16 s) := Only.memOk (settleHead_only (m := 0x8c00000802) 16 .refl ⟨rfl⟩) rfl h
  unfold execReq
  split
  · exact h
  · dsimp only
    split
    · exact k
    · exact okIte k (hff _ _ (memOk_of k ⟨rfl, rfl, rfl, rfl, rfl⟩))

theorem execNow_memOk {s : State} (opcode : ℕ) (f : MbReq → State → State × Ans) (h : MemOk s)
  (hff : ∀ (v0 : MbReq) (v1 : State), MemOk v1 → MemOk (f v0 v1).1) :
    MemOk (execNow s opcode f) := by
  unfold execNow
  repeat' first
    | with_reducible assumption
    | intro t (ht : MemOk t)
    | intro _
    | with_reducible (first | apply hff)
    | lift_lets -underBinder
    | with_reducible apply execReq_memOk
    | with_reducible apply respond_memOk

theorem endActivity_memOk {s : State} (n : ℕ) (status : ℕ) (detail : ℕ) (h : MemOk s) :
    MemOk (endActivity s n status detail) := by
  unfold endActivity
  repeat' first
    | with_reducible assumption
    | intro _
    | lift_lets -underBinder
    | with_reducible apply event_memOk
    | with_reducible apply journalStep_memOk
    | with_reducible apply okSkip
    | split
    | with_reducible apply memOk_acts

theorem fenceCore_memOk {s : State} (c' : ℕ) (status : ℕ) (h : MemOk s) :
    MemOk (fenceCore s c' status) := by
  unfold fenceCore
  repeat' first
    | with_reducible assumption
    | intro t (ht : MemOk t)
    | intro _
    | lift_lets -underBinder
    | with_reducible apply partEvent_memOk
    | with_reducible (first | apply modCore_memOk | apply raise_memOk | apply setOutcome_memOk | apply cutContext_memOk | apply modCtx_memOk | apply coreOff_memOk)
    | with_reducible (first | apply okSkip | apply okFold)
    | split

theorem operandParityFault_memOk (c' : ℕ) (unit : ℕ) {s : State} (h : MemOk s) :
    MemOk (operandParityFault c' unit s) := by
  unfold operandParityFault
  repeat' first
    | with_reducible assumption
    | intro _
    | lift_lets -underBinder
    | with_reducible apply fenceCore_memOk
    | with_reducible (first | apply raise_memOk | apply latch_memOk | apply modCore_memOk)
    | with_reducible apply okSkip
    | split
    | (conv => arg 1; zeta)

theorem startDispatch_memOk {s : State} (x : Context) (d : Dispatch) (h : MemOk s) :
    MemOk (startDispatch s x d) := by
  unfold startDispatch
  repeat' first
    | with_reducible assumption
    | intro t (ht : MemOk t)
    | intro _
    | lift_lets -underBinder
    | with_reducible apply writeMem_memOk
    | with_reducible (first | apply modCtx_memOk | apply noteRead_memOk)
    | with_reducible (first | apply okSkip | apply okFold | apply okFold1)
    | split

theorem grantPhase_memOk {s : State} (h' : ℕ) (h : MemOk s) :
    MemOk (grantPhase s h') := by
  unfold grantPhase
  repeat' first
    | with_reducible assumption
    | intro t (ht : MemOk t)
    | intro _
    | lift_lets -underBinder
    | with_reducible apply startDispatch_memOk
    | with_reducible (first | apply releaseChannels_memOk | apply grantSched_memOk | apply cadence_memOk | apply startCore_memOk | apply modRun_memOk | apply complete_memOk)
    | with_reducible (first | apply okSkip | apply okFold)
    | split
    | (conv => arg 1; zeta)

theorem takeData_memOk {s : State} (x : Context) (k : CtxCore) (t : Transfer) (h : MemOk s) :
    MemOk (takeData s x k t) := by
  unfold takeData
  repeat' first
    | with_reducible assumption
    | intro _
    | lift_lets -underBinder
    | with_reducible (first | apply writeMem_memOk | apply move_memOk)
    | with_reducible (first | apply modMove_memOk | apply postCounter_memOk)
    | with_reducible apply okSkip
    | split
    | (conv => arg 1; zeta)

theorem takeNear_memOk {s : State} (x : Context) (t : Transfer) (h : MemOk s) :
    MemOk (takeNear s x t) := by
  unfold takeNear
  repeat' first
    | with_reducible assumption
    | intro _
    | lift_lets -underBinder
    | with_reducible (first | apply move_memOk | apply writeMem_memOk | apply move_memOk)
    | with_reducible (first | apply modMove_memOk | apply holdWrite_memOk)
    | with_reducible apply okSkip
    | split
    | (conv => arg 1; zeta)

theorem scheduledData_memOk (d : ℕ) (g : ℕ) (l : ℕ) (hdr : ChanHdr) (data : List Byte) {s : State} (h : MemOk s) :
    MemOk (scheduledData d g l hdr data s) := by
  unfold scheduledData
  repeat' first
    | with_reducible assumption
    | intro _
    | lift_lets -underBinder
    | with_reducible (first | apply takeNear_memOk | apply takeData_memOk)
    | with_reducible (first | apply ctxDiscard_memOk | apply readTaken_memOk | apply takeTransfer_memOk)
    | with_reducible apply okSkip
    | split
    | (conv => arg 1; zeta)

theorem answerOwn_memOk {s : State} (i : ℕ) (r : OpenReq) (code : ℕ) (data : List Byte) (fill : Bool) (reply : Packet)
  (h : MemOk s) :
    MemOk (answerOwn s i r code data fill reply) := by
  unfold answerOwn
  repeat' first
    | with_reducible assumption
    | intro _
    | lift_lets -underBinder
    | with_reducible apply finishReq_memOk
    | with_reducible apply emit_memOk
    | split
    | (conv => arg 1; zeta)

theorem sendOn_memOk {s : State} (i : ℕ) (p : Packet) (deliver : State → State) (h : MemOk s)
  (hfdeliver : ∀ (v0 : State), MemOk v0 → MemOk (deliver v0)) :
    MemOk (sendOn s i p deliver) := by
  unfold sendOn
  repeat' first
    | with_reducible assumption
    | intro t (ht : MemOk t)
    | intro _
    | with_reducible (first | apply hfdeliver)
    | lift_lets -underBinder
    | with_reducible (first | apply exitReply_memOk | apply submitOpen_memOk)
    | with_reducible apply okSkip
    | split

theorem answerAttached_memOk {s : State} (i : ℕ) (q : OpenReq) (r : Packet) (rank : ℕ) (code : ℕ) (fill : Bool) (h : MemOk s) :
    MemOk (answerAttached s i q r rank code fill) := by
  unfold answerAttached
  repeat' first
    | with_reducible assumption
    | intro _
    | lift_lets -underBinder
    | with_reducible (first | apply sendOn_memOk | apply finishReq_memOk)
    | with_reducible apply emit_memOk
    | split
    | (conv => arg 1; zeta)

theorem answerAll_memOk {s : State} (i : ℕ) (qs : List OpenReq) (r : Packet) (code : ℕ) (fill : Bool) (h : MemOk s) :
    MemOk (answerAll s i qs r code fill) := by
  unfold answerAll
  repeat' first
    | with_reducible assumption
    | intro t (ht : MemOk t)
    | intro _
    | with_reducible apply answerAttached_memOk
    | with_reducible apply okFold

theorem deliverReply_memOk {s : State} (i : ℕ) (r : Packet) (h : MemOk s) :
    MemOk (deliverReply s i r) := by
  unfold deliverReply
  repeat' first
    | with_reducible assumption
    | intro _
    | lift_lets -underBinder
    | with_reducible (first | apply answerOwn_memOk | apply answerAll_memOk)
    | with_reducible (first | apply addPairSat_memOk | apply noteViolation_memOk | apply discardReply_memOk | apply modSite_memOk | apply dropCombining_memOk)
    | with_reducible apply okSkip
    | split
    | (conv => arg 1; zeta)

theorem routeReply_memOk {s : State} (i : ℕ) (r : Packet) (h : MemOk s) :
    MemOk (routeReply s i r) := by
  unfold routeReply
  repeat' first
    | with_reducible assumption
    | intro t (ht : MemOk t)
    | intro _
    | lift_lets -underBinder
    | with_reducible (first | apply sendOn_memOk | apply deliverReply_memOk)
    | with_reducible (first | apply okSkip | apply okFold)
    | split
    | (conv => arg 1; zeta)

theorem copyTransit_memOk {s : State} (i : ℕ) (r : Packet) (h : MemOk s) :
    MemOk (copyTransit s i r) := by
  unfold copyTransit
  repeat' first
    | with_reducible assumption
    | intro _
    | lift_lets -underBinder
    | with_reducible apply answerAll_memOk
    | with_reducible apply dropCombining_memOk
    | with_reducible apply okSkip
    | split
    | (conv => arg 1; zeta)

theorem refuse_memOk {s : State} (i : ℕ) (q : Packet) (code : ℕ) (h : MemOk s) :
    MemOk (refuse s i q code) := by
  unfold refuse
  repeat' first
    | with_reducible assumption
    | intro _
    | lift_lets -underBinder
    | with_reducible apply routeReply_memOk
    | with_reducible apply addPairSat_memOk
    | with_reducible apply okSkip
    | split
    | (conv => arg 1; zeta)

theorem refuseForwarded_memOk {s : State} (i : ℕ) (q : Packet) (code : ℕ) (h : MemOk s) :
    MemOk (refuseForwarded s i q code) := by
  unfold refuseForwarded
  repeat' first
    | with_reducible assumption
    | with_reducible (first | apply refuse_memOk | apply copyTransit_memOk)

theorem exitRequest_memOk {s : State} (o : ℕ) (p : Packet) (h : MemOk s) :
    MemOk (exitRequest s o p) := by
  unfold exitRequest
  repeat' first
    | with_reducible assumption
    | (refine attachRead_memOk _ _ _ (by assumption) ?_)
    | intro _
    | lift_lets -underBinder
    | with_reducible apply refuse_memOk
    | with_reducible (first | apply takePaid_memOk | apply unpay_memOk | apply keyRefused_memOk | apply queueAtLink_memOk | apply openEntry_memOk)
    | with_reducible apply okSkip
    | split
    | (conv => arg 1; zeta)

theorem turnBack_memOk (o : ℕ) {s : State} (r : OpenReq) (h : MemOk s) :
    MemOk (turnBack o s r) := by
  unfold turnBack
  repeat' first
    | with_reducible assumption
    | intro _
    | lift_lets -underBinder
    | with_reducible apply refuseForwarded_memOk
    | with_reducible (first | apply raise_memOk | apply discardReply_memOk)
    | with_reducible apply okSkip
    | split

theorem linkGoesDown_memOk {s : State} (o : ℕ) (state : ℕ) (h : MemOk s) :
    MemOk (linkGoesDown s o state) := by
  unfold linkGoesDown
  repeat' first
    | with_reducible assumption
    | intro t (ht : MemOk t)
    | intro _
    | lift_lets -underBinder
    | with_reducible apply turnBack_memOk
    | with_reducible (first | apply setLinkState_memOk | apply modLink_memOk | apply modSite_memOk | apply putBit_memOk | apply raiseFlag_memOk | apply floodOwn_memOk | apply raise_memOk)
    | with_reducible (first | apply okSkip | apply okFold)
    | split

theorem quarantineLinks_memOk {s : State} (h : MemOk s) :
    MemOk (quarantineLinks s) := by
  unfold quarantineLinks
  repeat' first
    | with_reducible assumption
    | intro t (ht : MemOk t)
    | intro _
    | lift_lets -underBinder
    | with_reducible apply linkGoesDown_memOk
    | with_reducible (first | apply raiseFlag_memOk | apply putBit_memOk | apply raise_memOk)
    | with_reducible (first | apply okSkip | apply okFold)
    | split

theorem applyWrite_memOk {s : State} (i : ℕ) (p : Packet) (h : MemOk s) :
    MemOk (applyWrite s i p) := by
  unfold applyWrite
  repeat' first
    | with_reducible assumption
    | intro _
    | lift_lets -underBinder
    | with_reducible (first | apply writeMem_memOk | apply refuse_memOk | apply routeReply_memOk)
    | with_reducible apply okSkip
    | split

theorem applyAtomic_memOk {s : State} (i : ℕ) (p : Packet) (h : MemOk s) :
    MemOk (applyAtomic s i p) := by
  unfold applyAtomic
  repeat' first
    | with_reducible assumption
    | intro _
    | lift_lets -underBinder
    | with_reducible (first | apply refuse_memOk | apply writeMem_memOk | apply routeReply_memOk)
    | with_reducible apply noteRead_memOk
    | with_reducible apply okSkip
    | split

theorem serve_memOk {s : State} (i : ℕ) (via : Arrival) (p : Packet) (ecc : EccList) (h : MemOk s) :
    MemOk (serve s i via p ecc) := by
  unfold serve
  repeat' first
    | with_reducible assumption
    | intro _
    | lift_lets -underBinder
    | with_reducible (first | apply refuse_memOk | apply decodeRange_memOk | apply routeReply_memOk | apply applyWrite_memOk | apply applyAtomic_memOk)
    | with_reducible (first | apply modSite_memOk | apply addPairSat_memOk | apply noteReadOf_memOk | apply serveOnChannel_memOk | apply addSharer_memOk | apply holdWrite_memOk)
    | with_reducible apply okSkip
    | split
    | (conv => arg 1; zeta)

theorem wakeStack_memOk {s : State} (i : ℕ) (h : MemOk s) :
    MemOk (wakeStack s i) := by
  unfold wakeStack
  repeat' first
    | with_reducible assumption
    | intro t (ht : MemOk t)
    | intro _
    | lift_lets -underBinder
    | with_reducible apply serve_memOk
    | with_reducible apply modSite_memOk
    | with_reducible (first | apply okSkip | apply okFold)
    | split

theorem applyHeld_memOk {s : State} (i : ℕ) (h' : HeldWrite) (h : MemOk s) :
    MemOk (applyHeld s i h') := by
  unfold applyHeld
  repeat' first
    | with_reducible assumption
    | intro _
    | lift_lets -underBinder
    | with_reducible (first | apply reply_memOk | apply applyWrite_memOk | apply applyAtomic_memOk | apply writeMem_memOk)
    | with_reducible (first | apply modMove_memOk | apply copyAnswered_memOk)
    | with_reducible apply okSkip
    | split
    | (conv => arg 1; zeta)

theorem inval_memOk (owner : ℕ) (sharer : ℕ) (region : ℕ) {s : State} (h : MemOk s) :
    MemOk (inval owner sharer region s) := by
  unfold inval
  repeat' first
    | with_reducible assumption
    | intro _
    | lift_lets -underBinder
    | with_reducible apply refuse_memOk
    | with_reducible (first | apply received_memOk | apply keyRefused_memOk | apply cacheForget_memOk | apply addPairSat_memOk | apply submitOpen_memOk)
    | with_reducible apply okSkip
    | split

theorem applyReady_memOk {s : State} (i : ℕ) (h : MemOk s) :
    MemOk (applyReady s i) := by
  unfold applyReady
  repeat' first
    | with_reducible assumption
    | intro t (ht : MemOk t)
    | intro _
    | lift_lets -underBinder
    | with_reducible apply applyHeld_memOk
    | with_reducible apply modSite_memOk
    | with_reducible apply okFold

theorem invalAck_memOk (owner : ℕ) (sharer : ℕ) (region : ℕ) {s : State} (h : MemOk s) :
    MemOk (invalAck owner sharer region s) := by
  unfold invalAck
  repeat' first
    | with_reducible assumption
    | intro t (ht : MemOk t)
    | intro _
    | lift_lets -underBinder
    | with_reducible apply applyReady_memOk
    | with_reducible (first | apply received_memOk | apply keyRefused_memOk | apply modSite_memOk)
    | with_reducible (first | apply okSkip | apply okFold)
    | split

theorem arrive_memOk {s : State} (o : ℕ) (p : Packet) (act : State → State) (h : MemOk s)
  (hfact : ∀ (v0 : State), MemOk v0 → MemOk (act v0)) :
    MemOk (arrive s o p act) := by
  unfold arrive
  repeat' first
    | with_reducible assumption
    | intro t (ht : MemOk t)
    | intro _
    | with_reducible (first | apply hfact)
    | lift_lets -underBinder
    | with_reducible (first | apply quarantineLinks_memOk | apply refuse_memOk)
    | with_reducible (first | apply noteViolation_memOk | apply putLink_memOk | apply rxLeave_memOk)
    | with_reducible apply okSkip
    | split
    | (conv => arg 1; zeta)

theorem requestFate_memOk {s : State} (i : ℕ) (arrival : Option ℕ) (p : Packet) (ecc : EccList) (h : MemOk s) :
    MemOk (requestFate s i arrival p ecc) := by
  unfold requestFate
  repeat' first
    | with_reducible assumption
    | intro _
    | lift_lets -underBinder
    | with_reducible (first | apply refuse_memOk | apply serve_memOk | apply exitRequest_memOk)
    | with_reducible (first | apply crossTo_memOk | apply addPairSat_memOk)
    | with_reducible apply okSkip
    | split
    | (conv => arg 1; zeta)

theorem checkArrived_memOk (o : ℕ) (p : Packet) (ecc : EccList) {s : State} (h : MemOk s) :
    MemOk (checkArrived o p ecc s) := by
  unfold checkArrived
  repeat' first
    | with_reducible assumption
    | intro _
    | lift_lets -underBinder
    | with_reducible (first | apply quarantineLinks_memOk | apply refuse_memOk | apply requestFate_memOk)
    | with_reducible (first | apply noteViolation_memOk | apply keyRefused_memOk | apply egressRefused_memOk)
    | with_reducible apply okSkip
    | split

theorem requestByOutlet_memOk {s : State} (o : ℕ) (p0 : Packet) (ecc : EccList) (h : MemOk s) :
    MemOk (requestByOutlet s o p0 ecc) := by
  unfold requestByOutlet
  repeat' first
    | with_reducible assumption
    | intro _
    | lift_lets -underBinder
    | with_reducible (first | apply arrive_memOk | apply checkArrived_memOk)
    | with_reducible apply okSkip
    | split

theorem requestByBasin_memOk {s : State} (src : ℕ) (dst : ℕ) (p : Packet) (ecc : EccList) (h : MemOk s) :
    MemOk (requestByBasin s src dst p ecc) := by
  unfold requestByBasin
  repeat' first
    | with_reducible assumption
    | intro _
    | lift_lets -underBinder
    | with_reducible (first | apply refuse_memOk | apply exitRequest_memOk | apply serve_memOk)
    | with_reducible (first | apply received_memOk | apply keyRefused_memOk)
    | with_reducible apply okSkip
    | split
    | (conv => arg 1; zeta)

theorem serveOwn_memOk {s : State} (i : ℕ) (r : OpenReq) (ecc : EccList) (h : MemOk s) :
    MemOk (serveOwn s i r ecc) := by
  unfold serveOwn
  repeat' first
    | with_reducible assumption
    | (refine attachRead_memOk _ _ _ (by assumption) ?_)
    | intro _
    | lift_lets -underBinder
    | with_reducible apply serve_memOk
    | with_reducible (first | apply modSite_memOk | apply openEntry_memOk)
    | split
    | (conv => arg 1; zeta)

theorem requestByOwn_memOk {s : State} (i : ℕ) (p0 : Packet) (ecc : EccList) (h : MemOk s) :
    MemOk (requestByOwn s i p0 ecc) := by
  unfold requestByOwn
  repeat' first
    | with_reducible assumption
    | intro _
    | lift_lets -underBinder
    | with_reducible apply serveOwn_memOk
    | with_reducible (first | apply emit_memOk | apply keyRefused_memOk | apply numberReq_memOk | apply sendReq_memOk | apply egressRefused_memOk)
    | with_reducible apply okSkip
    | split
    | (conv => arg 1; zeta)

theorem request_memOk (via : Arrival) (p : Packet) (ecc : EccList) {s : State} (h : MemOk s) :
    MemOk (request via p ecc s) := by
  unfold request
  repeat' first
    | with_reducible assumption
    | intro _
    | lift_lets -underBinder
    | with_reducible (first | apply requestByOutlet_memOk | apply requestByBasin_memOk | apply requestByOwn_memOk)
    | split
    | (conv => arg 1; zeta)

theorem readPacket_memOk (via : Arrival) (p : Packet) (ecc : EccList) {s : State} (h : MemOk s) :
    MemOk (readPacket via p ecc s) := by
  unfold readPacket
  repeat' first
    | with_reducible assumption
    | intro _
    | lift_lets -underBinder
    | with_reducible apply request_memOk

theorem writePacket_memOk (via : Arrival) (p : Packet) {s : State} (h : MemOk s) :
    MemOk (writePacket via p s) := by
  unfold writePacket
  repeat' first
    | with_reducible assumption
    | intro _
    | lift_lets -underBinder
    | with_reducible apply request_memOk

theorem atomicPacket_memOk (via : Arrival) (p : Packet) {s : State} (h : MemOk s) :
    MemOk (atomicPacket via p s) := by
  unfold atomicPacket
  repeat' first
    | with_reducible assumption
    | intro _
    | lift_lets -underBinder
    | with_reducible apply request_memOk

theorem passReply_memOk (o : ℕ) (p : Packet) {s : State} (h : MemOk s) :
    MemOk (passReply o p s) := by
  unfold passReply
  repeat' first
    | with_reducible assumption
    | intro _
    | lift_lets -underBinder
    | with_reducible (first | apply quarantineLinks_memOk | apply copyTransit_memOk | apply deliverReply_memOk)
    | with_reducible (first | apply noteViolation_memOk | apply keyRefused_memOk | apply discardReply_memOk | apply exitReply_memOk | apply crossTo_memOk | apply addPairSat_memOk)
    | with_reducible apply okSkip
    | split
    | (conv => arg 1; zeta)

theorem replyByOutlet_memOk {s : State} (o : ℕ) (p0 : Packet) (h : MemOk s) :
    MemOk (replyByOutlet s o p0) := by
  unfold replyByOutlet
  repeat' first
    | with_reducible assumption
    | intro _
    | lift_lets -underBinder
    | with_reducible (first | apply arrive_memOk | apply passReply_memOk)
    | with_reducible apply okSkip
    | split

theorem replyByBasin_memOk {s : State} (src : ℕ) (dst : ℕ) (p : Packet) (h : MemOk s) :
    MemOk (replyByBasin s src dst p) := by
  unfold replyByBasin
  repeat' first
    | with_reducible assumption
    | intro _
    | lift_lets -underBinder
    | with_reducible (first | apply copyTransit_memOk | apply quarantineLinks_memOk | apply deliverReply_memOk)
    | with_reducible (first | apply received_memOk | apply keyRefused_memOk | apply exitReply_memOk | apply discardReply_memOk)
    | with_reducible apply okSkip
    | split
    | (conv => arg 1; zeta)

theorem reply_memOk (via : Arrival) (p : Packet) {s : State} (h : MemOk s) :
    MemOk (reply via p s) := by
  unfold reply
  repeat' first
    | with_reducible assumption
    | intro _
    | lift_lets -underBinder
    | with_reducible (first | apply replyByOutlet_memOk | apply replyByBasin_memOk | apply deliverReply_memOk)
    | split
    | (conv => arg 1; zeta)

theorem readData_memOk (via : Arrival) (p : Packet) {s : State} (h : MemOk s) :
    MemOk (readData via p s) := by
  unfold readData
  repeat' first
    | with_reducible assumption
    | intro _
    | lift_lets -underBinder
    | with_reducible apply reply_memOk

theorem writeAck_memOk (via : Arrival) (p : Packet) {s : State} (h : MemOk s) :
    MemOk (writeAck via p s) := by
  unfold writeAck
  repeat' first
    | with_reducible assumption
    | intro _
    | lift_lets -underBinder
    | with_reducible apply reply_memOk

theorem atomicResult_memOk (via : Arrival) (p : Packet) {s : State} (h : MemOk s) :
    MemOk (atomicResult via p s) := by
  unfold atomicResult
  repeat' first
    | with_reducible assumption
    | intro _
    | lift_lets -underBinder
    | with_reducible apply reply_memOk

theorem refusal_memOk (via : Arrival) (p : Packet) {s : State} (h : MemOk s) :
    MemOk (refusal via p s) := by
  unfold refusal
  repeat' first
    | with_reducible assumption
    | intro _
    | lift_lets -underBinder
    | with_reducible apply reply_memOk

theorem passWeirMsg_memOk (o : ℕ) (p : Packet) {s : State} (h : MemOk s) :
    MemOk (passWeirMsg o p s) := by
  unfold passWeirMsg
  repeat' first
    | with_reducible assumption
    | intro _
    | with_reducible (first | apply quarantineLinks_memOk | apply refuse_memOk)
    | with_reducible (first | apply noteViolation_memOk | apply keyRefused_memOk | apply weirMsgFrom_memOk)
    | with_reducible apply okSkip
    | split

theorem weirMsg_memOk (via : Arrival) (p0 : Packet) {s : State} (h : MemOk s) :
    MemOk (weirMsg via p0 s) := by
  unfold weirMsg
  repeat' first
    | with_reducible assumption
    | intro _
    | lift_lets -underBinder
    | with_reducible (first | apply arrive_memOk | apply passWeirMsg_memOk)
    | with_reducible (first | apply received_memOk | apply keyRefused_memOk | apply weirMsgFrom_memOk)
    | with_reducible apply okSkip
    | split
    | (conv => arg 1; zeta)

theorem laneState_memOk {s : State} (o : ℕ) (h : MemOk s) :
    MemOk (laneState s o) := by
  unfold laneState
  repeat' first
    | with_reducible assumption
    | intro _
    | lift_lets -underBinder
    | with_reducible apply linkGoesDown_memOk
    | with_reducible apply setLinkState_memOk
    | with_reducible apply okSkip
    | split

theorem failLane_memOk {s : State} (o : ℕ) (lane : ℕ) (h : MemOk s) :
    MemOk (failLane s o lane) := by
  unfold failLane
  repeat' first
    | with_reducible assumption
    | intro _
    | lift_lets -underBinder
    | with_reducible apply laneState_memOk
    | with_reducible (first | apply raiseFlag_memOk | apply putBit_memOk | apply raise_memOk | apply modLink_memOk)
    | with_reducible apply okSkip
    | split

theorem fibreSwap_memOk (o : ℕ) (lane : ℕ) {s : State} (h : MemOk s) :
    MemOk (fibreSwap o lane s) := by
  unfold fibreSwap
  repeat' first
    | with_reducible assumption
    | intro _
    | lift_lets -underBinder
    | with_reducible apply laneState_memOk
    | with_reducible (first | apply putField_memOk | apply raiseFlag_memOk | apply putBit_memOk | apply modLink_memOk | apply raise_memOk)
    | with_reducible apply okSkip
    | split
    | (conv => arg 1; zeta)

theorem helloTimeout_memOk (o : ℕ) {s : State} (h : MemOk s) :
    MemOk (helloTimeout o s) := by
  unfold helloTimeout
  repeat' first
    | with_reducible assumption
    | intro _
    | with_reducible apply linkGoesDown_memOk
    | with_reducible apply okSkip
    | split

theorem endWake_memOk {s : State} (o : ℕ) (h : MemOk s) :
    MemOk (endWake s o) := by
  unfold endWake
  repeat' first
    | with_reducible assumption
    | intro _
    | lift_lets -underBinder
    | with_reducible apply endActivity_memOk
    | with_reducible apply modLink_memOk
    | with_reducible apply okSkip
    | split
    | (conv => arg 1; zeta)

theorem linkTrained_memOk (o : ℕ) {s : State} (h : MemOk s) :
    MemOk (linkTrained o s) := by
  unfold linkTrained
  repeat' first
    | with_reducible assumption
    | intro _
    | lift_lets -underBinder
    | with_reducible (first | apply endWake_memOk | apply laneState_memOk)
    | with_reducible (first | apply putReg_memOk | apply modLink_memOk | apply sendFirmware_memOk | apply setLinkState_memOk)
    | with_reducible apply okSkip
    | split
    | (conv => arg 1; zeta)

theorem neighbourHello_memOk (o : ℕ) (f : NHello) {s0' : State} (hs0' : MemOk s0') :
    MemOk (neighbourHello o f s0') := by
  unfold neighbourHello
  repeat' first
    | with_reducible assumption
    | intro _
    | lift_lets -underBinder
    | with_reducible apply linkGoesDown_memOk
    | with_reducible (first | apply messageTaken_memOk | apply raiseFlag_memOk | apply raise_memOk | apply modLink_memOk | apply putReg_memOk | apply putField_memOk | apply floodOwn_memOk)
    | with_reducible apply okSkip
    | split
    | with_reducible apply memOk_fabric

theorem linkStateMsg_memOk (o : ℕ) (f : LinkStateF) {s0' : State} (hs0' : MemOk s0') :
    MemOk (linkStateMsg o f s0') := by
  unfold linkStateMsg
  repeat' first
    | with_reducible assumption
    | intro _
    | lift_lets -underBinder
    | with_reducible apply quarantineLinks_memOk
    | with_reducible (first | apply messageTaken_memOk | apply noteViolation_memOk | apply learnAndFlood_memOk)
    | with_reducible apply okSkip
    | split
    | with_reducible apply memOk_fabric

theorem timeSync_memOk (o : ℕ) (t1 : ℕ) (t2 : ℕ) (t3 : ℕ) (t4 : ℕ) {s0' : State} (hs0' : MemOk s0') :
    MemOk (timeSync o t1 t2 t3 t4 s0') := by
  unfold timeSync
  repeat' first
    | with_reducible assumption
    | intro _
    | lift_lets -underBinder
    | with_reducible apply quarantineLinks_memOk
    | with_reducible (first | apply messageTaken_memOk | apply noteViolation_memOk | apply putReg_memOk | apply putBit_memOk | apply raiseFlag_memOk | apply setAtBoundary_memOk | apply beginSlew_memOk)
    | with_reducible apply okSkip
    | split
    | with_reducible (first | apply memOk_fabric | apply memOk_freeCount)
    | (conv => arg 1; zeta)

theorem linkSleepEnter_memOk (o : ℕ) {s : State} (h : MemOk s) :
    MemOk (linkSleepEnter o s) := by
  unfold linkSleepEnter
  repeat' first
    | with_reducible assumption
    | intro _
    | lift_lets -underBinder
    | with_reducible (first | apply linkGoesDown_memOk | apply endActivity_memOk)
    | with_reducible (first | apply opticsSleep_memOk | apply modLink_memOk)
    | with_reducible apply okSkip
    | split
    | (conv => arg 1; zeta)

theorem discardStores_memOk {s : State} (o : ℕ) (h : MemOk s) :
    MemOk (discardStores s o) := by
  unfold discardStores
  repeat' first
    | with_reducible assumption
    | intro t (ht : MemOk t)
    | intro _
    | lift_lets -underBinder
    | with_reducible apply finishReq_memOk
    | with_reducible (first | apply modSite_memOk | apply modLink_memOk | apply addPairSat_memOk)
    | with_reducible (first | apply okSkip | apply okFold)
    | split
    | (conv => arg 1; zeta)

theorem egressDrainTimeout_memOk (o : ℕ) {s : State} (h : MemOk s) :
    MemOk (egressDrainTimeout o s) := by
  unfold egressDrainTimeout
  repeat' first
    | with_reducible assumption
    | intro _
    | lift_lets -underBinder
    | with_reducible (first | apply discardStores_memOk | apply linkGoesDown_memOk)
    | with_reducible apply modSite_memOk
    | with_reducible apply okSkip
    | split
    | (conv => arg 1; zeta)

theorem scrub_memOk (i : ℕ) (pond : Bool) (line : ℕ) (outcome : EccOutcome) {s : State} (h : MemOk s) :
    MemOk (scrub i pond line outcome s) := by
  unfold scrub
  repeat' first
    | with_reducible assumption
    | intro _
    | lift_lets -underBinder
    | with_reducible apply lineDecoded_memOk
    | with_reducible (first | apply scrubMoves_memOk | apply scrubRuns_memOk | apply modSite_memOk)
    | with_reducible apply okSkip
    | split
    | (conv => arg 1; zeta)

theorem endChange_memOk {s : State} (h : MemOk s) :
    MemOk (endChange s) := by
  unfold endChange
  repeat' first
    | with_reducible assumption
    | intro t (ht : MemOk t)
    | intro _
    | lift_lets -underBinder
    | with_reducible apply wakeStack_memOk
    | with_reducible apply putBit_memOk
    | with_reducible (first | apply okSkip | apply okFold)
    | split
    | with_reducible apply memOk_clock

theorem abandonChange_memOk {s : State} (missing : ℕ) (h : MemOk s) :
    MemOk (abandonChange s missing) := by
  unfold abandonChange
  repeat' first
    | with_reducible assumption
    | intro t (ht : MemOk t)
    | intro _
    | lift_lets -underBinder
    | with_reducible apply endChange_memOk
    | with_reducible (first | apply putField_memOk | apply raiseFlag_memOk | apply emit_memOk | apply commit_memOk | apply pondRails_memOk | apply raise_memOk | apply answerWaiting_memOk | apply restoreStep_memOk)
    | with_reducible (first | apply okSkip | apply okFold)
    | split
    | (conv => arg 1; zeta)

theorem stepDeadline_memOk {s : State} (h : MemOk s) :
    MemOk (stepDeadline s) := by
  unfold stepDeadline
  repeat' first
    | with_reducible assumption
    | intro t (ht : MemOk t)
    | intro _
    | lift_lets -underBinder
    | with_reducible apply abandonChange_memOk
    | with_reducible apply commit_memOk
    | with_reducible (first | apply okSkip | apply okFold)
    | split
    | with_reducible apply memOk_clock
    | (conv => arg 1; zeta)

theorem stepCommit_memOk {s : State} (h : MemOk s) :
    MemOk (stepCommit s) := by
  unfold stepCommit
  repeat' first
    | with_reducible assumption
    | intro _
    | lift_lets -underBinder
    | with_reducible apply endChange_memOk
    | with_reducible (first | apply releaseExits_memOk | apply commit_memOk | apply putField_memOk | apply pondRails_memOk | apply answerWaiting_memOk)
    | with_reducible apply okSkip
    | split
    | with_reducible apply memOk_clock
    | (conv => arg 1; zeta)

theorem holdover_memOk {s : State} (p : ℕ) (h : MemOk s) :
    MemOk (holdover s p) := by
  unfold holdover
  repeat' first
    | with_reducible assumption
    | intro t (ht : MemOk t)
    | intro _
    | lift_lets -underBinder
    | with_reducible (first | apply linkGoesDown_memOk | apply abandonChange_memOk)
    | with_reducible (first | apply putBit_memOk | apply raise_memOk | apply putField_memOk)
    | with_reducible (first | apply okSkip | apply okFold)
    | split
    | with_reducible apply memOk_clock

theorem loseRef_memOk {s : State} (r : ℕ) (h : MemOk s) :
    MemOk (loseRef s r) := by
  unfold loseRef
  repeat' first
    | with_reducible assumption
    | intro t (ht : MemOk t)
    | intro _
    | with_reducible apply holdover_memOk
    | with_reducible (first | apply okSkip | apply okFold)
    | split

theorem refMonitorWindow_memOk (r : RefIn) (edges : ℕ) {s : State} (h : MemOk s) :
    MemOk (refMonitorWindow r edges s) := by
  unfold refMonitorWindow
  repeat' first
    | with_reducible assumption
    | intro _
    | lift_lets -underBinder
    | with_reducible apply loseRef_memOk
    | with_reducible (first | apply putField_memOk | apply raiseFlag_memOk | apply putBit_memOk | apply raise_memOk)
    | with_reducible apply okSkip
    | split
    | with_reducible apply memOk_clock

theorem resetHeld_memOk {s : State} (i : ℕ) (h : MemOk s) :
    MemOk (resetHeld s i) := by
  unfold resetHeld
  repeat' first
    | with_reducible assumption
    | intro t (ht : MemOk t)
    | intro _
    | lift_lets -underBinder
    | with_reducible (first | apply refuse_memOk | apply reply_memOk)
    | with_reducible (first | apply modSite_memOk | apply modMove_memOk | apply copyAnswered_memOk)
    | with_reducible apply okFold
    | split
    | (conv => arg 1; zeta)

theorem dropSharer_memOk {s : State} (t : ℕ) (h : MemOk s) :
    MemOk (dropSharer s t) := by
  unfold dropSharer
  repeat' first
    | with_reducible assumption
    | intro t (ht : MemOk t)
    | intro _
    | lift_lets -underBinder
    | with_reducible apply invalAck_memOk
    | with_reducible apply modSite_memOk
    | with_reducible apply okFold

theorem resetToward_memOk {s : State} (i : ℕ) (h : MemOk s) :
    MemOk (resetToward s i) := by
  unfold resetToward
  repeat' first
    | with_reducible assumption
    | intro t (ht : MemOk t)
    | intro _
    | with_reducible apply deliverReply_memOk
    | with_reducible (first | apply okSkip | apply okFold)
    | split

theorem crossEffects_memOk {s : State} (kind : CrossKind) (i : ℕ) (d : Side) (h : MemOk s) :
    MemOk (crossEffects s kind i d) := by
  unfold crossEffects
  repeat' first
    | with_reducible assumption
    | intro _
    | lift_lets -underBinder
    | with_reducible (first | apply resetHeld_memOk | apply resetToward_memOk | apply dropSharer_memOk)
    | with_reducible (first | apply resetMoves_memOk | apply restartNego_memOk | apply siteResetRuns_memOk | apply beginDrain_memOk | apply clearPort_memOk)
    | split
    | with_reducible apply memOk_clock
    | (conv => arg 1; zeta)

theorem crossingPartnerReset_memOk (x : Crossing) {s : State} (h : MemOk s) :
    MemOk (crossingPartnerReset x s) := by
  unfold crossingPartnerReset
  repeat' first
    | with_reducible assumption
    | intro _
    | lift_lets -underBinder
    | with_reducible apply crossEffects_memOk
    | with_reducible (first | apply raise_memOk | apply refuseSide_memOk)

theorem siteReset_memOk (i : ℕ) (cause : ℕ) {s : State} (h : MemOk s) :
    MemOk (siteReset i cause s) := by
  unfold siteReset
  repeat' first
    | with_reducible assumption
    | intro t (ht : MemOk t)
    | intro _
    | lift_lets -underBinder
    | with_reducible (first | apply crossEffects_memOk | apply fenceCore_memOk | apply linkGoesDown_memOk)
    | with_reducible (first | apply putReg_memOk | apply putBit_memOk | apply modAbango_memOk | apply siteResetRuns_memOk | apply caps_memOk | apply offer_memOk | apply limit_memOk | apply refuseSide_memOk | apply offDomain_memOk | apply fwLog_memOk | apply clearSiteRegs_memOk)
    | with_reducible (first | apply okSkip | apply okFold)
    | split
    | (conv => arg 1; zeta)

theorem sideband_memOk {s : State} (i : ℕ) (h' : SbHead) (type : ℕ) (payload : List ℕ) (inOrder : Bool) (fits : Bool)
  (f : State → State) (h : MemOk s) (hff : ∀ (v0 : State), MemOk v0 → MemOk (f v0)) :
    MemOk (sideband s i h' type payload inOrder fits f) := by
  unfold sideband
  repeat' first
    | with_reducible assumption
    | intro t (ht : MemOk t)
    | intro _
    | with_reducible (first | apply hff)
    | lift_lets -underBinder
    | with_reducible apply violate_memOk
    | with_reducible apply okSkip
    | split
    | (conv => arg 1; zeta)

theorem dieOff_memOk {s : State} (i : ℕ) (h : MemOk s) :
    MemOk (dieOff s i) := by
  unfold dieOff
  repeat' first
    | with_reducible assumption
    | intro t (ht : MemOk t)
    | intro _
    | lift_lets -underBinder
    | with_reducible (first | apply fenceCore_memOk | apply crossEffects_memOk)
    | with_reducible (first | apply refuseSide_memOk | apply putBit_memOk | apply offDomain_memOk)
    | with_reducible apply okFold

theorem powerExcessTimeout_memOk (i : ℕ) {s : State} (h : MemOk s) :
    MemOk (powerExcessTimeout i s) := by
  unfold powerExcessTimeout
  repeat' first
    | with_reducible assumption
    | intro _
    | lift_lets -underBinder
    | with_reducible apply dieOff_memOk
    | with_reducible (first | apply modAbango_memOk | apply caps_memOk | apply offer_memOk | apply limit_memOk)
    | with_reducible apply okSkip
    | split
    | (conv => arg 1; zeta)

theorem finishWork_memOk {s : State} (a : Activity) (status : ℕ) (detail : ℕ) (m' : List Byte) (h : MemOk s) :
    MemOk (finishWork s a status detail m').1 := by
  unfold finishWork
  repeat' first
    | with_reducible assumption
    | intro t (ht : MemOk t)
    | intro _
    | lift_lets -underBinder
    | with_reducible apply firmwareWrite_memOk
    | with_reducible (first | apply modSite_memOk | apply markStale_memOk | apply showCalibrating_memOk | apply writeCalImage_memOk | apply loadImage_memOk | apply putBit_memOk | apply restoreStep_memOk | apply flashErase_memOk | apply flashPut_memOk)
    | with_reducible (first | apply okSkip | apply okFold | apply okFold1)
    | split
    | (conv => arg 1; zeta)

theorem activityDone_memOk (n : ℕ) (status : ℕ) (detail : ℕ) (m' : List Byte) {s : State} (h : MemOk s) :
    MemOk (activityDone n status detail m' s) := by
  unfold activityDone
  repeat' first
    | with_reducible assumption
    | intro _
    | lift_lets -underBinder
    | with_reducible (first | apply finishWork_memOk | apply endActivity_memOk)
    | with_reducible apply startQueued_memOk
    | with_reducible apply okSkip
    | split
    | (conv => arg 1; zeta)

theorem calNext_memOk {s : State} (a : Activity) (g : ℕ) (l : ℕ) (status : ℕ) (h : MemOk s) :
    MemOk (calNext s a g l status) := by
  unfold calNext
  repeat' first
    | with_reducible assumption
    | intro _
    | lift_lets -underBinder
    | with_reducible apply endActivity_memOk
    | with_reducible (first | apply startQueued_memOk | apply showCalibrating_memOk | apply markStale_memOk | apply pointCal_memOk | apply modAct_memOk)
    | with_reducible apply okSkip
    | split

theorem calibrationDone_memOk (n : ℕ) (vs : List CalPair) {s : State} (h : MemOk s) :
    MemOk (calibrationDone n vs s) := by
  unfold calibrationDone
  repeat' first
    | with_reducible assumption
    | intro _
    | lift_lets -underBinder
    | with_reducible apply calNext_memOk
    | with_reducible (first | apply journalStep_memOk | apply acceptCal_memOk | apply rejectCal_memOk | apply modAct_memOk | apply markStale_memOk | apply showCalibrating_memOk)
    | with_reducible apply okSkip
    | split
    | (conv => arg 1; zeta)

theorem loseChannel_memOk {s : State} (o : ℕ) (lane : ℕ) (l : ℕ) (h : MemOk s) :
    MemOk (loseChannel s o lane l) := by
  unfold loseChannel
  repeat' first
    | with_reducible assumption
    | intro _
    | lift_lets -underBinder
    | with_reducible apply failLane_memOk
    | with_reducible (first | apply modLink_memOk | apply raiseFlag_memOk | apply raise_memOk)
    | with_reducible apply okSkip
    | split
    | (conv => arg 1; zeta)

theorem detector_memOk (r : Receiver) (bit : ℕ) (code : ℕ) (count : ℕ → ℕ) {s : State} (h : MemOk s) :
    MemOk (detector r bit code count s) := by
  unfold detector
  repeat' first
    | with_reducible assumption
    | intro _
    | lift_lets -underBinder
    | with_reducible apply loseChannel_memOk
    | with_reducible (first | apply raiseFlag_memOk | apply addPairSat_memOk | apply raise_memOk | apply failRing_memOk)
    | with_reducible apply okSkip
    | split
    | (conv => arg 1; zeta)

theorem lossOfSignal_memOk (r : Receiver) (set : Bool) {s : State} (h : MemOk s) :
    MemOk (lossOfSignal r set s) := by
  unfold lossOfSignal
  repeat' first
    | with_reducible assumption
    | intro _
    | with_reducible apply detector_memOk
    | with_reducible apply okSkip
    | split

theorem lossOfLock_memOk (r : Receiver) (set : Bool) {s : State} (h : MemOk s) :
    MemOk (lossOfLock r set s) := by
  unfold lossOfLock
  repeat' first
    | with_reducible assumption
    | intro _
    | with_reducible apply detector_memOk
    | with_reducible apply okSkip
    | split

theorem busMasterEnable_memOk (fn : ℕ) (on : Bool) {s : State} (h : MemOk s) :
    MemOk (busMasterEnable fn on s) := by
  unfold busMasterEnable
  repeat' first
    | with_reducible assumption
    | intro t (ht : MemOk t)
    | intro _
    | lift_lets -underBinder
    | with_reducible (first | apply cqFlush_memOk | apply evtFlush_memOk)
    | with_reducible apply msixReleaseAll_memOk
    | with_reducible (first | apply okSkip | apply okFold)
    | split
    | with_reducible apply memOk_bme
    | (conv => arg 1; zeta)

theorem prepareCore_memOk {s : State} (c : Nat) (h : MemOk s) : MemOk (prepareCore s c) := by
  refine Only.memOk (coreOn_only (m := 0x2) _ .refl ⟨rfl⟩) rfl ?_
  refine Only.memOk (modCore_only (m := 0x10000) _ _ .refl ⟨rfl⟩) rfl ?_
  have w := twf_tdrop (fun _ => false) s.corePoison
    (fun k => coreBase c ≤ 32 * k && 32 * k < coreBase c + 2 ^ 25) h.corePoison
  exact ⟨wf_zeroRange h.mem _ _, h.hostMem, h.written, h.poison, w⟩

theorem partCreate_memOk (r : MbReq) {s : State} (h : MemOk s) :
    MemOk (partCreate r s) := by
  unfold partCreate
  repeat' first
    | with_reducible assumption
    | intro t (ht : MemOk t)
    | intro _
    | lift_lets -underBinder
    | with_reducible apply prepareCore_memOk
    | with_reducible (first | apply respond_memOk | apply changeStrict_memOk | apply putPart_memOk | apply modPart_memOk | apply commandCore_memOk | apply pinAndAnswer_memOk)
    | with_reducible (first | apply okSkip | apply okFold)
    | split
    | (conv => arg 1; zeta)

theorem giveUnit_memOk (p : ℕ) {s : State} (u : ℕ) (h : MemOk s) :
    MemOk (giveUnit p s u) := by
  unfold giveUnit
  repeat' first
    | with_reducible assumption
    | intro _
    | lift_lets -underBinder
    | with_reducible apply assignPages_memOk
    | with_reducible (first | apply modPart_memOk | apply dropUnitLines_memOk)
    | with_reducible apply okSkip
    | split

theorem partMem_memOk (r : MbReq) {s : State} (h : MemOk s) :
    MemOk (partMem r s).1 := by
  unfold partMem
  repeat' first
    | with_reducible assumption
    | intro t (ht : MemOk t)
    | intro _
    | lift_lets -underBinder
    | with_reducible apply giveUnit_memOk
    | with_reducible apply takeUnit_memOk
    | with_reducible (first | apply okSkip | apply okFold | apply okFold1)
    | split
    | (conv => arg 1; zeta)

theorem pondArea_memOk (r : MbReq) {s : State} (h : MemOk s) :
    MemOk (pondArea r s).1 := by
  unfold pondArea
  repeat' first
    | with_reducible assumption
    | intro _
    | lift_lets -underBinder
    | with_reducible apply assignPages_memOk
    | with_reducible (first | apply putPart_memOk | apply take_memOk)
    | with_reducible apply okSkip
    | split
    | (conv => arg 1; zeta)

theorem leaveContext_memOk (abort : State → ℕ → State) {s : State} (h' : ℕ)
  (hfabort : ∀ (v0 : State) (v1 : ℕ), MemOk v0 → MemOk (abort v0 v1)) (h : MemOk s) :
    MemOk (leaveContext abort s h') := by
  unfold leaveContext
  repeat' first
    | with_reducible assumption
    | intro t (ht : MemOk t)
    | intro _
    | with_reducible (first | apply hfabort)
    | lift_lets -underBinder
    | with_reducible (first | apply modCtx_memOk | apply cancelPending_memOk)

theorem stepDestroy_memOk {s : State} (p : ℕ) (h : MemOk s) :
    MemOk (stepDestroy s p) := by
  unfold stepDestroy
  repeat' first
    | with_reducible assumption
    | intro t (ht : MemOk t)
    | intro _
    | lift_lets -underBinder
    | with_reducible apply endActivity_memOk
    | with_reducible (first | apply deleteQp_memOk | apply modPart_memOk | apply clearSlot_memOk | apply tearDown_memOk)
    | with_reducible (first | apply okSkip | apply okFold)
    | split
    | (conv => arg 1; zeta)

theorem stepDestroys_memOk {s : State} (h : MemOk s) :
    MemOk (stepDestroys s) := by
  unfold stepDestroys
  repeat' first
    | with_reducible assumption
    | intro t (ht : MemOk t)
    | intro _
    | with_reducible apply stepDestroy_memOk
    | with_reducible (first | apply okSkip | apply okFold)
    | split

theorem destroyTimeout_memOk {s : State} (h : MemOk s) :
    MemOk (destroyTimeout s) := by
  unfold destroyTimeout
  repeat' first
    | with_reducible assumption
    | intro t (ht : MemOk t)
    | intro _
    | lift_lets -underBinder
    | with_reducible apply endActivity_memOk
    | with_reducible apply modPart_memOk
    | with_reducible (first | apply okSkip | apply okFold)
    | split
    | (conv => arg 1; zeta)

theorem maintCancel_memOk (r : MbReq) {s : State} (h : MemOk s) :
    MemOk (maintCancel r s).1 := by
  unfold maintCancel
  repeat' first
    | with_reducible assumption
    | intro _
    | lift_lets -underBinder
    | with_reducible apply endActivity_memOk
    | with_reducible apply startQueued_memOk
    | split
    | (conv => arg 1; zeta)

theorem linkSleep_memOk (r : MbReq) {s : State} (h : MemOk s) :
    MemOk (linkSleep r s) := by
  unfold linkSleep
  repeat' first
    | with_reducible assumption
    | intro _
    | lift_lets -underBinder
    | with_reducible (first | apply linkGoesDown_memOk | apply endActivity_memOk)
    | with_reducible (first | apply respond_memOk | apply linkActivity_memOk | apply floodOwn_memOk | apply modLink_memOk | apply opticsSleep_memOk)
    | with_reducible apply okSkip
    | split

theorem linkWake_memOk (r : MbReq) {s : State} (h : MemOk s) :
    MemOk (linkWake r s).1 := by
  unfold linkWake
  repeat' first
    | with_reducible assumption
    | intro _
    | lift_lets -underBinder
    | with_reducible apply endActivity_memOk
    | with_reducible (first | apply linkActivity_memOk | apply modLink_memOk | apply setLinkState_memOk | apply opticsWake_memOk)
    | with_reducible apply okSkip
    | split

theorem loadCore_memOk {s : State} (m' : Array Byte) (h' : PlanHead) (lc core region stream : Nat) (h : MemOk s) :
    MemOk (loadCore s m' h' lc core region stream).1 := by
  unfold loadCore
  extract_lets e t k bytes a s1
  have w := twf_tdrop (fun _ => false) s.corePoison (fun w => a ≤ 32 * w && 32 * w < a + h'.region) h.corePoison
  have z := wf_writeBytes (wf_zeroRange h.mem a h'.region) (a + 4096) (bytes e.constOff e.constSize)
  clear_value a bytes
  have k1 : MemOk s1 := ⟨z, h.hostMem, h.written, h.poison, w⟩
  clear_value s1
  exact writeMem_memOk _ _ _ k1

theorem loadCores_memOk {s : State} (m' : Array Byte) (h' : PlanHead) (pl : Placement) (h : MemOk s) :
    MemOk (loadCores s m' h' pl).1 := by
  unfold loadCores
  repeat' first
    | with_reducible assumption
    | intro t (ht : MemOk t)
    | intro _
    | lift_lets -underBinder
    | with_reducible apply loadCore_memOk
    | with_reducible (first | apply okFold | apply okFold1)

theorem takePlan_memOk {s : State} (r : MbReq) (p : ℕ) (plan : Plan) (pl : Placement) (h : MemOk s) :
    MemOk (takePlan s r p plan pl).1 := by
  unfold takePlan
  repeat' first
    | with_reducible assumption
    | intro _
    | lift_lets -underBinder
    | with_reducible apply loadCores_memOk
    | with_reducible apply memOk_contexts_gens_taken

theorem checkPlan_memOk (r : MbReq) {s : State} (p : ℕ) (m' : Array Byte) (place : ℕ → ℕ) (h : MemOk s) :
    MemOk (checkPlan r s p m' place).1 := by
  unfold checkPlan
  repeat' first
    | with_reducible assumption
    | intro _
    | lift_lets -underBinder
    | with_reducible apply takePlan_memOk
    | split
    | (conv => arg 1; zeta)

theorem planLoad_memOk (r : MbReq) {s : State} (h : MemOk s) :
    MemOk (planLoad r s).1 := by
  unfold planLoad
  repeat' first
    | with_reducible assumption
    | intro _
    | lift_lets -underBinder
    | with_reducible apply checkPlan_memOk
    | with_reducible apply okSkip
    | split
    | (conv => arg 1; zeta)

theorem endActs_memOk {s : State} (p : Activity → Bool) (status : ℕ) (detail : ℕ) (h : MemOk s) :
    MemOk (endActs s p status detail) := by
  unfold endActs
  repeat' first
    | with_reducible assumption
    | intro t (ht : MemOk t)
    | intro _
    | with_reducible apply endActivity_memOk
    | with_reducible apply okFold

theorem resumeFirmware_memOk {s : State} (h : MemOk s) :
    MemOk (resumeFirmware s) := by
  unfold resumeFirmware
  repeat' first
    | with_reducible assumption
    | intro _
    | lift_lets -underBinder
    | with_reducible (first | apply endActs_memOk | apply writeOwed_memOk)
    | with_reducible (first | apply putBit_memOk | apply answerEnded_memOk | apply resumeFabric_memOk | apply switchWaiting_memOk | apply clearStale_memOk)
    | split
    | with_reducible apply memOk_weir
    | (conv => arg 1; zeta)

theorem gapFailed_memOk {s : State} (g : Gap) (h : MemOk s) :
    MemOk (gapFailed s g) := by
  unfold gapFailed
  repeat' first
    | with_reducible assumption
    | intro _
    | lift_lets -underBinder
    | with_reducible (first | apply endActs_memOk | apply resumeFirmware_memOk)
    | with_reducible (first | apply raiseWeir_memOk | apply offDomain_memOk | apply markWeir_memOk | apply startQueued_memOk | apply rampDomain_memOk | apply loseMgmt_memOk)
    | with_reducible apply okSkip
    | split
    | with_reducible apply memOk_weir
    | (conv => arg 1; zeta)

theorem takeOver_memOk {s : State} (g : Gap) (h : MemOk s) :
    MemOk (takeOver s g) := by
  unfold takeOver
  repeat' first
    | with_reducible assumption
    | intro t (ht : MemOk t)
    | intro _
    | lift_lets -underBinder
    | with_reducible (first | apply resumeFirmware_memOk | apply event_memOk | apply endActs_memOk)
    | with_reducible (first | apply offDomain_memOk | apply markWeir_memOk | apply raiseFlag_memOk | apply putField_memOk | apply showWeir_memOk | apply retryPending_memOk | apply fwLogSev_memOk | apply startQueued_memOk)
    | with_reducible (first | apply okSkip | apply okFold)
    | split
    | with_reducible apply memOk_weir

theorem switchoverComplete_memOk {s : State} (h : MemOk s) :
    MemOk (switchoverComplete s) := by
  unfold switchoverComplete
  repeat' first
    | with_reducible assumption
    | intro _
    | lift_lets -underBinder
    | with_reducible apply takeOver_memOk
    | with_reducible apply okSkip
    | split
    | (conv => arg 1; zeta)

theorem gapBoundExpiry_memOk {s : State} (h : MemOk s) :
    MemOk (gapBoundExpiry s) := by
  unfold gapBoundExpiry
  repeat' first
    | with_reducible assumption
    | intro _
    | lift_lets -underBinder
    | with_reducible apply gapFailed_memOk
    | with_reducible apply okSkip
    | split
    | (conv => arg 1; zeta)

theorem explicitFault_memOk (p : BeatPath) (k : WeirFault) {s : State} (h : MemOk s) :
    MemOk (explicitFault p k s) := by
  unfold explicitFault
  repeat' first
    | with_reducible assumption
    | intro _
    | lift_lets -underBinder
    | with_reducible apply gapFailed_memOk
    | with_reducible apply declareFailed_memOk
    | with_reducible apply okSkip
    | split
    | (conv => arg 1; zeta)

theorem allOff_memOk {s : State} (h : MemOk s) : MemOk (allOff s) := by
  refine Only.memOk (showFeeds_only (m := 2) .refl ⟨rfl⟩) rfl ?_
  refine Only.memOk (showWeir_only (m := 2) .refl ⟨rfl⟩) rfl ?_
  refine Only.memOk (putField_only (m := 2) _ _ _ _ .refl ⟨rfl⟩) rfl ?_
  exact ⟨rfl, h.hostMem, rfl, rfl, rfl⟩

theorem moduleReset_memOk {s : State} (h : MemOk s) :
    MemOk (moduleReset s) := by
  unfold moduleReset
  repeat' first
    | with_reducible assumption
    | intro _
    | lift_lets -underBinder
    | with_reducible apply allOff_memOk
    | with_reducible (first | apply beginStart_memOk | apply drainEgress_memOk)
    | with_reducible apply okSkip
    | split
    | with_reducible apply memOk_start
    | (conv => arg 1; zeta)

theorem holdSites_memOk {s : State} (cause : State → ℕ → ℕ) (h : MemOk s) :
    MemOk (holdSites s cause) := by
  unfold holdSites
  repeat' first
    | with_reducible assumption
    | intro t (ht : MemOk t)
    | intro _
    | with_reducible apply siteReset_memOk
    | with_reducible (first | apply okSkip | apply okFold)
    | split

theorem enterStage6_memOk {s : State} (h : MemOk s) :
    MemOk (enterStage6 s) := by
  unfold enterStage6
  repeat' first
    | with_reducible assumption
    | intro t (ht : MemOk t)
    | intro _
    | lift_lets -underBinder
    | with_reducible apply holdSites_memOk
    | with_reducible (first | apply putField_memOk | apply rampDomain_memOk | apply modCore_memOk)
    | with_reducible apply okFold

theorem endStage5_memOk {s : State} (h : MemOk s) :
    MemOk (endStage5 s) := by
  unfold endStage5
  repeat' first
    | with_reducible assumption
    | intro _
    | with_reducible apply enterStage6_memOk
    | with_reducible apply okSkip
    | split

theorem advanceStart_memOk {s : State} (h : MemOk s) :
    MemOk (advanceStart s) := by
  unfold advanceStart
  repeat' first
    | with_reducible assumption
    | intro _
    | lift_lets -underBinder
    | with_reducible apply endStage5_memOk
    | with_reducible (first | apply putField_memOk | apply endStage8_memOk | apply endStage3_memOk)
    | with_reducible apply okSkip
    | split

theorem domainReady_memOk (d : ℕ) {s : State} (h : MemOk s) :
    MemOk (domainReady d s) := by
  unfold domainReady
  repeat' first
    | with_reducible assumption
    | intro _
    | lift_lets -underBinder
    | with_reducible apply advanceStart_memOk
    | with_reducible (first | apply rampAll_memOk | apply domainUp_memOk)
    | with_reducible apply okSkip
    | split
    | (conv => arg 1; zeta)

theorem springFailedAt_memOk (n : ℕ) (cause : SpringFault) {s : State} (h : MemOk s) :
    MemOk (springFailedAt n cause s) := by
  unfold springFailedAt
  repeat' first
    | with_reducible assumption
    | intro _
    | lift_lets -underBinder
    | with_reducible apply advanceStart_memOk
    | with_reducible (first | apply springFailed_memOk | apply takeSpare_memOk)
    | with_reducible apply okSkip
    | split

theorem islandToVkeep_memOk {s : State} (h : MemOk s) :
    MemOk (islandToVkeep s) := by
  unfold islandToVkeep
  repeat' first
    | with_reducible assumption
    | intro _
    | lift_lets -underBinder
    | with_reducible apply allOff_memOk
    | with_reducible apply okSkip
    | split
    | with_reducible (first | apply memOk_time | apply memOk_island)
    | (conv => arg 1; zeta)

theorem thermalTrip_memOk (unit : ℕ) (first : BitVec 16) (second : BitVec 16) {s : State} (h : MemOk s) :
    MemOk (thermalTrip unit first second s) := by
  unfold thermalTrip
  repeat' first
    | with_reducible assumption
    | intro _
    | lift_lets -underBinder
    | with_reducible apply allOff_memOk
    | with_reducible apply drainEgress_memOk
    | with_reducible apply okSkip
    | split
    | with_reducible apply memOk_island
    | (conv => arg 1; zeta)

theorem failTarn_memOk {s : State} (i : ℕ) (cause : ℕ) (h : MemOk s) :
    MemOk (failTarn s i cause) := by
  unfold failTarn
  repeat' first
    | with_reducible assumption
    | intro t (ht : MemOk t)
    | intro _
    | lift_lets -underBinder
    | with_reducible apply fenceCore_memOk
    | with_reducible (first | apply putBit_memOk | apply fwLog_memOk | apply putReg_memOk)
    | with_reducible (first | apply okSkip | apply okFold)
    | split

theorem loseUnit_memOk {s : State} (d : ℕ) (h : MemOk s) :
    MemOk (loseUnit s d) := by
  unfold loseUnit
  repeat' first
    | with_reducible assumption
    | intro _
    | lift_lets -underBinder
    | with_reducible (first | apply fenceCore_memOk | apply failTarn_memOk | apply siteReset_memOk | apply linkGoesDown_memOk | apply springFailedAt_memOk | apply allOff_memOk | apply explicitFault_memOk)
    | with_reducible apply hostLinkDown_memOk
    | with_reducible apply okSkip
    | split
    | (conv => arg 1; zeta)

theorem domainVoltageFault_memOk (d : ℕ) {s : State} (h : MemOk s) :
    MemOk (domainVoltageFault d s) := by
  unfold domainVoltageFault
  repeat' first
    | with_reducible assumption
    | intro _
    | lift_lets -underBinder
    | with_reducible apply loseUnit_memOk
    | with_reducible (first | apply raise_memOk | apply raiseFlag_memOk | apply putReg_memOk)
    | with_reducible apply okSkip
    | split

theorem throttleLast_memOk {s : State} (f : Feed) (h : MemOk s) :
    MemOk (throttleLast s f) := by
  unfold throttleLast
  repeat' first
    | with_reducible assumption
    | intro t (ht : MemOk t)
    | intro _
    | lift_lets -underBinder
    | with_reducible apply fenceCore_memOk
    | with_reducible (first | apply raise_memOk | apply showThrottle_memOk)
    | with_reducible apply okFold

theorem throttleStep_memOk (f : Feed) {s : State} (h : MemOk s) :
    MemOk (throttleStep f s) := by
  unfold throttleStep
  repeat' first
    | with_reducible assumption
    | intro t (ht : MemOk t)
    | intro _
    | lift_lets -underBinder
    | with_reducible apply throttleLast_memOk
    | with_reducible (first | apply lowerCores_memOk | apply showThrottle_memOk | apply raise_memOk)
    | with_reducible (first | apply okSkip | apply okFold)
    | split
    | (conv => arg 1; zeta)

theorem secondVia_memOk {s : State} (i : ℕ) (d : Dir) (g : ℕ) (h : MemOk s) :
    MemOk (secondVia s i d g) := by
  unfold secondVia
  repeat' first
    | with_reducible assumption
    | intro _
    | lift_lets -underBinder
    | with_reducible apply failTarn_memOk
    | with_reducible apply raise_memOk
    | with_reducible apply okSkip
    | split

theorem housekeepingRoundEnd_memOk (rs : List RoundReading) (ms : List MonReading) (vias : List (SiteNo × Dir × Fin 1000))
  {s : State} (h : MemOk s) :
    MemOk (housekeepingRoundEnd rs ms vias s) := by
  unfold housekeepingRoundEnd
  repeat' first
    | with_reducible assumption
    | intro t (ht : MemOk t)
    | intro _
    | lift_lets -underBinder
    | with_reducible apply secondVia_memOk
    | with_reducible (first | apply addPair_memOk | apply checkStack_memOk | apply checkChan_memOk | apply showStack_memOk | apply takeMonitors_memOk | apply publish_memOk | apply springBand_memOk | apply takeGrid_memOk | apply takeFeeds_memOk | apply portBand_memOk | apply hbmBand_memOk | apply stackBands_memOk | apply endRound_memOk | apply firmwareRound_memOk)
    | with_reducible (first | apply okSkip | apply okFold)
    | split
    | (conv => arg 1; zeta)

theorem weirBoot_memOk (w : Weir) (good0 : Bool) (good1 : Bool) (record : Bool) {s : State} (h : MemOk s) :
    MemOk (weirBoot w good0 good1 record s) := by
  unfold weirBoot
  repeat' first
    | with_reducible assumption
    | intro _
    | lift_lets -underBinder
    | with_reducible apply advanceStart_memOk
    | with_reducible (first | apply settleDomains_memOk | apply bootFailed_memOk | apply bootDone_memOk)
    | with_reducible apply okSkip
    | split
    | (conv => arg 1; zeta)

theorem refSelectTimeout_memOk (pll0Locks : Bool) {s : State} (h : MemOk s) :
    MemOk (refSelectTimeout pll0Locks s) := by
  unfold refSelectTimeout
  repeat' first
    | with_reducible assumption
    | intro _
    | lift_lets -underBinder
    | with_reducible apply advanceStart_memOk
    | with_reducible (first | apply settleDomains_memOk | apply failStart_memOk | apply lockPlls_memOk | apply fwLog_memOk)
    | with_reducible apply okSkip
    | split
    | (conv => arg 1; zeta)

theorem tileAlignment_memOk (failed : BitVec 9) (delays : List ℕ) {s : State} (h : MemOk s) :
    MemOk (tileAlignment failed delays s) := by
  unfold tileAlignment
  repeat' first
    | with_reducible assumption
    | intro t (ht : MemOk t)
    | intro _
    | lift_lets -underBinder
    | with_reducible apply advanceStart_memOk
    | with_reducible (first | apply settleDomains_memOk | apply raise_memOk | apply holdStart_memOk | apply loadTime_memOk | apply enterStage5_memOk)
    | with_reducible (first | apply okSkip | apply okFold)
    | split
    | (conv => arg 1; zeta)

theorem springLockTimeout_memOk (n : ℕ) {s : State} (h : MemOk s) :
    MemOk (springLockTimeout n s) := by
  unfold springLockTimeout
  repeat' first
    | with_reducible assumption
    | intro _
    | with_reducible apply advanceStart_memOk
    | with_reducible (first | apply takeSpare_memOk | apply springDown_memOk)
    | with_reducible apply okSkip
    | split

theorem clearTracking_memOk {s : State} (i : Nat) (h : MemOk s) : MemOk (clearTracking s i) := by
  have w := twf_tdrop (fun _ => false) s.written (fun k => ownerSite (4096 * k) == i) h.written
  exact
  Only.memOk (modSite_only (m := 0x1000000) _ _ .refl ⟨rfl⟩) rfl
    ⟨h.mem, h.hostMem, w, h.poison, h.corePoison⟩

theorem memoryTraining_memOk (i : ℕ) (stackGood : Bool) (pondGood : Bool) (best : List (Dir × Fin 1000 × Fin 64)) {s : State}
  (h : MemOk s) :
    MemOk (memoryTraining i stackGood pondGood best s) := by
  unfold memoryTraining
  repeat' first
    | with_reducible assumption
    | intro _
    | lift_lets -underBinder
    | with_reducible (first | apply clearTracking_memOk | apply advanceStart_memOk | apply siteReset_memOk)
    | with_reducible (first | apply settleDomains_memOk | apply trainDelays_memOk | apply putBit_memOk | apply showRefresh_memOk)
    | with_reducible apply okSkip
    | split
    | (conv => arg 1; zeta)

theorem clearCores_memOk {s : State} (h : MemOk s) : MemOk (clearCores s) :=
  ⟨wf_zeroRange h.mem _ _, h.hostMem, h.written, h.poison, rfl⟩

theorem endStage6_memOk {s : State} (failed : ℕ → Bool) (h : MemOk s) :
    MemOk (endStage6 s failed) := by
  unfold endStage6
  repeat' first
    | with_reducible assumption
    | intro t (ht : MemOk t)
    | intro _
    | lift_lets -underBinder
    | with_reducible (first | apply fenceCore_memOk | apply siteReset_memOk | apply clearCores_memOk)
    | with_reducible (first | apply offerCores_memOk | apply setModuleStep_memOk | apply settleCore_memOk | apply enterStage7_memOk | apply restorePin_memOk)
    | with_reducible (first | apply okSkip | apply okFold)
    | split
    | (conv => arg 1; zeta)

theorem coreSelftest_memOk (failed : BitVec 64) {s : State} (h : MemOk s) :
    MemOk (coreSelftest failed s) := by
  unfold coreSelftest
  repeat' first
    | with_reducible assumption
    | intro _
    | with_reducible apply endStage6_memOk
    | with_reducible apply settleDomains_memOk
    | with_reducible apply okSkip
    | split

theorem endStage7_memOk (failing : List ℕ) (rejected : List ℕ) {s : State} (h : MemOk s) :
    MemOk (endStage7 failing rejected s) := by
  unfold endStage7
  repeat' first
    | with_reducible assumption
    | intro t (ht : MemOk t)
    | intro _
    | lift_lets -underBinder
    | with_reducible apply advanceStart_memOk
    | with_reducible (first | apply rejectCal_memOk | apply putBit_memOk | apply writeCalImage_memOk | apply showCalibrating_memOk | apply putField_memOk | apply openShareAt_memOk)
    | with_reducible (first | apply okSkip | apply okFold)
    | split
    | with_reducible apply memOk_acts
    | (conv => arg 1; zeta)

theorem calStage_memOk (failing : List ℕ) (rejected : List ℕ) {s : State} (h : MemOk s) :
    MemOk (calStage failing rejected s) := by
  unfold calStage
  repeat' first
    | with_reducible assumption
    | intro _
    | with_reducible apply endStage7_memOk
    | with_reducible apply okSkip
    | split

theorem outletLight_memOk (o : ℕ) (cabled : Bool) {s : State} (h : MemOk s) :
    MemOk (outletLight o cabled s) := by
  unfold outletLight
  repeat' first
    | with_reducible assumption
    | intro _
    | lift_lets -underBinder
    | with_reducible apply advanceStart_memOk
    | with_reducible (first | apply placeLanes_memOk | apply modLink_memOk | apply setLinkState_memOk | apply opticsSleep_memOk | apply putField_memOk)
    | with_reducible apply okSkip
    | split
    | (conv => arg 1; zeta)

theorem bound5_memOk {s : State} (h : MemOk s) :
    MemOk (bound5 s) := by
  unfold bound5
  repeat' first
    | with_reducible assumption
    | intro t (ht : MemOk t)
    | intro _
    | lift_lets -underBinder
    | with_reducible (first | apply enterStage6_memOk | apply holdSites_memOk)
    | with_reducible apply springDown_memOk
    | with_reducible (first | apply okSkip | apply okFold)
    | split
    | (conv => arg 1; zeta)

theorem bound7_memOk {s : State} (h : MemOk s) :
    MemOk (bound7 s) := by
  unfold bound7
  repeat' first
    | with_reducible assumption
    | with_reducible apply endStage7_memOk

theorem bound8_memOk {s : State} (h : MemOk s) :
    MemOk (bound8 s) := by
  unfold bound8
  repeat' first
    | with_reducible assumption
    | intro t (ht : MemOk t)
    | intro _
    | with_reducible apply advanceStart_memOk
    | with_reducible (first | apply setLinkState_memOk | apply placeLanes_memOk)
    | with_reducible (first | apply okSkip | apply okFold)
    | split

theorem stageBoundExpiry_memOk (sites : BitVec 16) {s : State} (h : MemOk s) :
    MemOk (stageBoundExpiry sites s) := by
  unfold stageBoundExpiry
  repeat' first
    | with_reducible assumption
    | intro _
    | lift_lets -underBinder
    | with_reducible (first | apply bound5_memOk | apply endStage6_memOk | apply bound7_memOk | apply bound8_memOk)
    | with_reducible apply settleDomains_memOk
    | with_reducible apply okSkip
    | split
    | (conv => arg 1; zeta)

theorem mctp_memOk {s : State} (f : State → State × List Byte) (h : MemOk s) (hff : ∀ (v0 : State), MemOk v0 → MemOk (f v0).1) :
    MemOk (mctp s f) := by
  unfold mctp
  repeat' first
    | with_reducible assumption
    | intro t (ht : MemOk t)
    | intro _
    | with_reducible (first | apply hff)
    | lift_lets -underBinder
    | with_reducible apply emit_memOk
    | with_reducible apply okSkip
    | split

theorem console_memOk {s : State} (cmd : ConCmd) (f : State → ℕ → ℕ → State) (h : MemOk s)
  (hff : ∀ (v0 : State) (v1 : ℕ) (v2 : ℕ), MemOk v0 → MemOk (f v0 v1 v2)) :
    MemOk (console s cmd f) := by
  unfold console
  repeat' first
    | with_reducible assumption
    | intro t (ht : MemOk t)
    | intro _
    | with_reducible (first | apply hff)
    | lift_lets -underBinder
    | with_reducible (first | apply flushLines_memOk | apply extest_memOk)
    | with_reducible apply okSkip
    | split
    | with_reducible apply memOk_maint
    | (conv => arg 1; zeta)

theorem grantPhases_memOk {s : State} (hs : List Nat) (rs : List (Context × List ChanEntry)) (h : MemOk s) :
    MemOk (grantPhases hs s rs) := by
  induction hs generalizing s rs with
  | nil => exact h
  | cons a l ih =>
    unfold grantPhases
    split
    · exact ih _ h
    · dsimp only
      split
      · exact ih _ h
      · exact ih _ (grantPhase_memOk _ h)

theorem phaseGrants_memOk {s : State} (h : MemOk s) : MemOk (phaseGrants s) := by
  have k := fun l => grantPhases_memOk l [] h
  exact okIte (Only.memOk (reviveChannels_only (m := 0x1000002) .refl ⟨rfl⟩) rfl (k _)) (k _)

theorem writeCompletions_memOk {s : State} (h : MemOk s) :
    MemOk (writeCompletions s) := by
  unfold writeCompletions
  repeat' first
    | with_reducible assumption
    | intro t (ht : MemOk t)
    | intro _
    | lift_lets -underBinder
    | with_reducible apply writeCompletion_memOk
    | with_reducible apply okFold
    | with_reducible apply memOk_ended

theorem refuseOpen_memOk (i : ℕ) {s : State} (r : OpenReq) (h : MemOk s) :
    MemOk (refuseOpen i s r) := by
  unfold refuseOpen
  repeat' first
    | with_reducible assumption
    | intro _
    | lift_lets -underBinder
    | with_reducible (first | apply refuseForwarded_memOk | apply deliverReply_memOk)
    | with_reducible (first | apply discardReply_memOk | apply addOutstanding_memOk)
    | with_reducible apply okSkip
    | split
    | (conv => arg 1; zeta)

theorem okOpenFold {l : List OpenReq} {a : OpenPass} {f : OpenPass → OpenReq → OpenPass} (h : MemOk a.s)
    (k : ∀ b : OpenPass, MemOk b.s → ∀ r, MemOk (f b r).s) : MemOk (l.foldl f a).s := by
  induction l generalizing a with
  | nil => exact h
  | cons r l ih => exact ih (k a h r)

theorem openOne_memOk (i d : Nat) (held : Bool) {a : OpenPass} (r : OpenReq) (h : MemOk a.s) :
    MemOk (openOne i d held a r).s :=
  Only.memOk (openOne_only (m := 0x3000002) _ _ _ _ .refl ⟨rfl⟩) rfl h

theorem openPass_memOk {s : State} (n i d : Nat) (h : MemOk s) : MemOk (openPass n i d s) := by
  unfold openPass
  extract_lets due rs s1 a s2
  have h1 : MemOk s1 := Only.memOk (modSite_only (m := 0x1000000) _ _ .refl ⟨rfl⟩) rfl h
  clear_value s1
  refine okIte h (okIte ?_ (okIte ?_ ?_))
  · exact okFold h1 fun t ht r => okIte (Only.memOk (modSite_only (m := 0x1000000) _ _ .refl ⟨rfl⟩) rfl ht)
      (Only.memOk (modSite_only (m := 0x1000000) _ _ .refl ⟨rfl⟩) rfl ht)
  · exact okFold h1 fun t ht r => refuseOpen_memOk _ _ (Only.memOk (takenFrom_only (m := 0x2000800) _ _ .refl ⟨rfl⟩) rfl ht)
  · have ha : MemOk a.s := okOpenFold (a := ⟨s1, [], [], false, false⟩) h1 fun b hb r => openOne_memOk _ _ _ _ hb
    clear_value a
    have h2 : MemOk s2 := Only.memOk (modSite_only (m := 0x1000000) _ _ .refl ⟨rfl⟩) rfl ha
    exact okFold h2 fun t ht j => Only.memOk (leaveGroup_only (m := 0x3000800) _ _ _ .refl ⟨rfl⟩) rfl ht

theorem openGrants_memOk {s : State} (n : ℕ) (h : MemOk s) :
    MemOk (openGrants s n) := by
  unfold openGrants
  repeat' first
    | with_reducible assumption
    | intro t (ht : MemOk t)
    | intro _
    | with_reducible apply openPass_memOk
    | with_reducible apply okFold

theorem okExitFold {l : List OpenReq} {a : ExitPass} {f : ExitPass → OpenReq → ExitPass} (h : MemOk a.s)
    (k : ∀ b : ExitPass, MemOk b.s → ∀ r, MemOk (f b r).s) : MemOk (l.foldl f a).s := by
  induction l generalizing a with
  | nil => exact h
  | cons r l ih => exact ih (k a h r)

theorem exitPass_memOk {s : State} (n o : Nat) (h : MemOk s) : MemOk (exitPass n o s) := by
  unfold exitPass
  extract_lets due rs later s1 go s2 a s3
  have h1 : MemOk s1 := Only.memOk (modLink_only (m := 0x3000002) _ _ (modSite_only _ _ .refl ⟨rfl⟩) ⟨rfl⟩) rfl h
  clear_value s1
  have h2 : MemOk s2 := okFold h1 fun t ht r => turnBack_memOk _ _ ht
  clear_value s2
  have ha : MemOk a.s := okExitFold (a := ⟨s2, [], []⟩) h2 fun b hb r =>
    Only.memOk (exitOne_only (m := 0x2000002) _ _ .refl ⟨rfl⟩) rfl hb
  clear_value a
  have h3 : MemOk s3 := okFold ha fun t ht j =>
    Only.memOk (transmit_only (m := 0x3000802) _ _ (forwarded_only _ _ .refl ⟨rfl⟩) ⟨rfl⟩) rfl ht
  exact okIte h (okIte h3 (Only.memOk (addPairSat_only (m := 0x3000002) _ _ (modLink_only _ _ .refl ⟨rfl⟩) ⟨rfl⟩) rfl h3))

theorem exitGrants_memOk {s : State} (n : ℕ) (h : MemOk s) :
    MemOk (exitGrants s n) := by
  unfold exitGrants
  repeat' first
    | with_reducible assumption
    | intro t (ht : MemOk t)
    | intro _
    | with_reducible apply exitPass_memOk
    | with_reducible apply okFold

theorem grantTick_memOk (n : ℕ) {s : State} (h : MemOk s) :
    MemOk (grantTick n s) := by
  unfold grantTick
  repeat' first
    | with_reducible assumption
    | intro _
    | lift_lets -underBinder
    | with_reducible (first | apply phaseGrants_memOk | apply exitGrants_memOk | apply openGrants_memOk)
    | with_reducible (first | apply endDispatches_memOk | apply applyAborts_memOk | apply beginDestroys_memOk | apply applySeals_memOk | apply settleRemovals_memOk | apply readyDispatches_memOk | apply grantSlots_memOk | apply grantDoorbells_memOk | apply acceptEntries_memOk)

theorem settleTick_memOk {s : State} (h : MemOk s) :
    MemOk (settleTick s) := by
  unfold settleTick
  repeat' first
    | with_reducible assumption
    | intro _
    | lift_lets -underBinder
    | with_reducible apply stepDestroys_memOk
    | with_reducible (first | apply applyFars_memOk | apply startQueued_memOk | apply settleDeletes_memOk | apply settleRemovals_memOk)
    | with_reducible apply okSkip
    | split

theorem atBoundary_memOk (n : ℕ) {s : State} (h : MemOk s) :
    MemOk (atBoundary n s) := by
  unfold atBoundary
  repeat' first
    | with_reducible assumption
    | intro _
    | lift_lets -underBinder
    | with_reducible (first | apply writeCompletions_memOk | apply settleTick_memOk | apply grantTick_memOk | apply moduleReset_memOk | apply advanceStart_memOk)
    | with_reducible (first | apply takeSpares_memOk | apply releaseExits_memOk | apply takeTaps_memOk | apply slewStep_memOk | apply applyTimeSets_memOk | apply applySetTime_memOk)
    | with_reducible apply okSkip
    | split
    | with_reducible apply memOk_flagsNow

theorem tickEnd_memOk {s : State} (h : MemOk s) :
    MemOk (tickEnd s) := by
  unfold tickEnd
  repeat' first
    | with_reducible assumption
    | with_reducible apply atBoundary_memOk
    | with_reducible apply toBoundary_memOk

theorem idleCycle_memOk {s : State} (h : MemOk s) :
    MemOk (idleCycle s) := by
  unfold idleCycle
  repeat' first
    | with_reducible assumption
    | intro _
    | lift_lets -underBinder
    | with_reducible apply atBoundary_memOk
    | with_reducible apply backboneCycle_memOk
    | with_reducible apply okSkip
    | split

end Sys2Proof.Machine
end

