-- ==== Sys2Proof/WellFormed.lean ====
section
/-! DEFINITION. Which commands are well formed: what a conforming sender's operands keep to beyond their types. The machine
gives every command an effect, well formed or not; the checks name what the spec fixes about lengths and ranges. -/

namespace Sys2Proof

/-- Why a command is ill formed. -/
inductive IllFormed where
  /-- A host access that is not 1, 2, 4 or 8 bytes (R15, R433, R470). -/
  | accessSize
  /-- A BAR offset outside its BAR (R432). -/
  | barOffset
  /-- An SQ entry that is not eight words (R444). -/
  | entryWords
  /-- A packet whose data is longer than 256 bytes or whose route is longer than 16 hops (R383, R387). -/
  | packetShape
  /-- A LINK_STATE message that does not name 16 links (R416). -/
  | linkCount
  /-- A bundle frame whose payload is neither 960 bytes, nor none for an idle one (R301, R303). -/
  | framePayload
  /-- A line frame whose payload is not 1,920 bytes (R357). -/
  | linePayload
  /-- A REPORT with other than 1 to 16 temperatures, or core powers other than none or four (R320). -/
  | reportShape
  /-- A tile alignment that does not give nine delays (R59). -/
  | delayCount
  /-- A scheduled transfer longer than one move (R265). -/
  | transferLength
  /-- A calibration entry measured out of range (R341, R348). -/
  | calibration
deriving DecidableEq, Repr

/-- The sizes of the BARs of R432. -/
def barSize (fn : Fn) : Bar → Nat
  | .bar0 => if fn.val = 0 then 0x400_0000 else 0
  | .bar2 => if fn.val = 0 then 0x4000_0000 else 0x80_0000
  | .bar4 => if fn.val = 0 then 0x10_0000 else 0x1000

/-- A packet within the shapes of R387. -/
def packetShape (p : Packet) : Bool := p.data.length ≤ 256 && p.rlen ≤ 16

def calShape (m : CalMeas) : Bool := m.code0 ≤ 3200 && m.code1 ≤ 3200 && m.code2 ≤ 3200 && m.aux < 256

/-- The first check that a command fails, if any. -/
def illFormed : Instr → Option IllFormed
  | .hostRegisterWrite fn bar off size _ =>
    if !(size == 1 || size == 2 || size == 4 || size == 8) then some .accessSize
    else if barSize fn bar < off + size then some .barOffset else none
  | .l64LowRead fn r =>
    if !(r.size == 1 || r.size == 2 || r.size == 4 || r.size == 8) then some .accessSize
    else if barSize fn r.bar < r.off + r.size then some .barOffset else none
  | .sqFetch _ (.entry ws) => if ws.length = 8 then none else some .entryWords
  | .read _ ⟨p, _⟩ | .write _ p | .atomic _ p | .readData _ p | .writeAck _ p | .atomicResult _ p | .refusal _ p
  | .weirMsg _ p => if packetShape p then none else some .packetShape
  | .linkState _ f => if f.links.length = 16 then none else some .linkCount
  | .report _ _ f =>
    if 1 ≤ f.temps.length && f.temps.length ≤ 16 && (f.corePower.length = 0 || f.corePower.length = 4) then none
    else some .reportShape
  | .bundleFrame _ _ _ f x => if x.payload.length = (if f.type.val = 1 then 0 else 960) then none else some .framePayload
  | .channelFrame _ _ _ f _ => if f.payload.length = 1920 then none else some .linePayload
  | .tileAlignment _ d => if d.length = 9 then none else some .delayCount
  | .scheduledData _ _ _ _ d => if d.length < 2 ^ 32 then none else some .transferLength
  | .calibrationDone _ vs =>
    if vs.all fun v => calShape v.first && calShape v.second then none else some .calibration
  | _ => none

/-- A well-formed command. -/
def wellFormed (i : Instr) : Bool := (illFormed i).isNone

end Sys2Proof
end

