-- ==== Sys2Proof/Tests/Slice0.lean ====
section
/-! SUPPORT. Tests of the model: the checks of WellFormed, the encodings of the spec's own worked example, and for every statement
that assumes something a witness (`wit_` and the statement's name) that its assumptions can be met. The states are small ones,
built by the helpers below. -/

open Sys2Proof Sys2Proof.Machine

set_option linter.unusedVariables false
set_option maxRecDepth 20000

/-! ### Well-formedness: a term that each check refuses -/

theorem test_access_size : illFormed (.hostRegisterWrite 0 .bar0 0 3 0) = some .accessSize := by decide
theorem test_bar_offset : illFormed (.hostRegisterWrite 0 .bar4 0x10_0000 4 0) = some .barOffset := by decide
theorem test_entry_words : illFormed (.sqFetch 0 (.entry [1, 2])) = some .entryWords := by decide
theorem test_packet_shape : illFormed (.weirMsg (.own 0) { blankPacket 0x23 with rlen := 17 }) = some .packetShape := by decide
theorem test_link_count : illFormed (.linkState 0 ⟨0, 0, []⟩) = some .linkCount := by decide
theorem test_report_shape : illFormed (.report 0 ⟨0x10, 0, 0, 0, 0⟩ { temps := [], power := 0, flags := 0, corePower := [] }) =
    some .reportShape := by decide
theorem test_read_size : illFormed (.l64LowRead 0 ⟨.bar0, 0, 3⟩) = some .accessSize := by decide
theorem test_frame_payload : illFormed (.bundleFrame 0 .up 0
    { seq := 0, ack := 0, nak := false, type := 1, cmd := 0, lane := 0, dir := .up, atSeq := 0, reserved := 0 } ⟨[0], []⟩) =
    some .framePayload := by decide
theorem test_line_payload : illFormed (.channelFrame (.basin 0 0) 0 0 ⟨0, 0, 0, []⟩ []) = some .linePayload := by decide
theorem test_delay_count : illFormed (.tileAlignment 0 []) = some .delayCount := by decide
theorem test_calibration : illFormed (.calibrationDone 0 [⟨.tx 0 0, ⟨0, 3201, 0, 0, 45⟩, ⟨0, 0, 0, 0, 45⟩⟩]) = some .calibration := by
  decide
theorem test_well_formed : wellFormed (.hostRegisterWrite 0 .bar0 0x3FF_FFF8 8 0) = true := by decide

/-- A list of 2^32 bytes is longer than one move. -/
theorem test_transfer_length (d : SiteNo) (g : Fin 128) (l : Fin 32) (h : ChanHdr) (bs : List Byte) (k : bs.length = 2 ^ 32) :
    illFormed (.scheduledData d g l h bs) = some .transferLength := by
  unfold illFormed
  simp [k]

/-! ### Encodings: the example bundle of R214, and words written out from R195 to R212 -/

theorem test_example_bundle :
    bundleOf (0x0800_3C8D_FF40_0000 + 2 ^ 128 * 0x0400_4400_0000_0000 + 2 ^ 192 * 0x0460_2000_0000_0000) =
      (.mma { arrays := 0xF, ta := 2, tb := 3, acc := 0, zero := true, wlo := 0x3FD, h := 0 }, .nop, .move 17, .wait 3 1) := by
  decide +kernel

/-! ### The helpers' states -/

/-- A module that is up: every domain on, the host linked, a Weir running, start at stage 11. -/
def wUp : State :=
  { State.reset with
    regs := (Reg.globalStat, 0x2B) :: (List.range 166).map fun d => (Reg.powerDomain d, 0x8000_0000),
    linkUp := true, vfsOn := true, weir := { WeirState.reset with running := true } }

/-- The module with some registers set. -/
def wRegs (s : State) (rs : List (Nat × Nat)) : State := rs.foldl (fun s r => putReg s r.1 r.2) s

/-- The module with Basin time at a count. -/
def wAt (s : State) (n : Nat) : State := { s with time := { s.time with now := n, running := true } }

/-- A context's part on core 0: one tile descriptor, one move descriptor, one bundle, three tokens in counter 0. -/
def wCore : CtxCore :=
  { core := 0, region := 0, stream := coreBase 0 + 0x10_0000, entryOff := 0, tdOff := 0, tdCount := 1, moveOff := 16,
    moveCount := 1, bundleOff := 64, bundleCount := 1, streamSize := 4096, counters := [(0, 3)], tds := [], below := 0,
    invalid := 0, sat := 0 }

/-- A context of one core with one phase that ends the activation. -/
def wCtx : Context :=
  { handle := 0x40, part := 0, planId := 1, sites := [0], skipDisable := false, regionSize := 0x10_0000,
    phases := [{ sched := 0, ending := 0, hold := false, selector := 0, visits := 1, target := 0 }], scheds := [[]],
    selects := [], cores := [wCore], waiting := [], run := none, idleTick := 0, removing := false, visitor := 0 }

/-- The context running on core 0, whose state is given. -/
def wRun (y : CoreState) : State :=
  { wUp with cores := [(0, { y with running := some 0x40 })], contexts := [wCtx] }

/-- A core that has issued nothing. -/
def wY : CoreState := { CoreState.reset with running := some 0x40 }

/-- What `Obligations.GuardedPairRequestsModuleReset` assumes is met. -/
theorem wit_GuardedPairRequestsModuleReset :
  (∃ s : State, pf0Reg s Reg.globalReset = true ∧ s.firstWrite = none) ∧
  (∃ s : State, ∃ n : Nat, pf0Reg s Reg.globalReset = true ∧ s.firstWrite = some n) ∧
  (∃ s : State, ∃ v : Word, pf0Reg s Reg.globalReset = true ∧ s.firstWrite = some v.toNat ∧ v.getLsbD 0 = true) ∧
  (∃ s : State, ∃ v : Word, pf0Reg s Reg.globalReset = true ∧ s.firstWrite = some v.toNat ∧ v.getLsbD 0 = false) ∧
  (∃ s : State, ∃ c : Word, pf0Reg s Reg.globalReset = true ∧ s.firstWrite ≠ some (~~~c).toNat ∧ ((∀ n ∈ s.firstWrite, n < 2 ^ 32))) ∧
  (∃ s : State, ∃ c : Word, pf0Reg s Reg.globalReset = true ∧ s.firstWrite ≠ some (~~~c).toNat ∧ ((∀ n ∈ s.firstWrite, n < 2 ^ 32))) ∧
  (∃ s : State, pf0Reg s Reg.globalReset = false) := by
  refine ⟨⟨wUp, ?_⟩,
     ⟨{ wUp with firstWrite := some 0 }, 0, ?_⟩,
     ⟨{ wUp with firstWrite := some 1 }, 1, ?_⟩,
     ⟨{ wUp with firstWrite := some 0xFFFF_FFFE }, 0xFFFF_FFFE, ?_⟩,
     ⟨wUp, 0, ?_⟩,
     ⟨{ wUp with firstWrite := some 0xFFFF_FFFF }, 1, ?_⟩,
     ⟨State.reset, ?_⟩⟩ <;> decide +kernel

/-- What `Obligations.HostAccessTakesEffectByAccessCode` assumes is met. -/
theorem wit_HostAccessTakesEffectByAccessCode :
  (∃ off : Nat, ∃ size : Nat, (size ≠ 4 ∨ off % 4 ≠ 0)) ∧
  (∃ off : Nat, ∃ size : Nat, (size ≠ 4 ∨ off % 4 ≠ 0)) ∧
  (∃ s : State, ∃ fn : Fn, ∃ bar : Bar, ∃ off : Nat, ∃ size : Nat, fnReach s fn = true ∧ (fn = 0 ∨ bar ≠ .bar0) ∧ (size ≠ 4 ∨ off % 4 ≠ 0)) ∧
  (∃ s : State, ∃ fn : Fn, ∃ bar : Bar, ∃ off : Nat, ∃ size : Nat, fnReach s fn = true ∧ (fn = 0 ∨ bar ≠ .bar0) ∧ (size ≠ 4 ∨ off % 4 ≠ 0)) ∧
  (∃ s : State, ∃ fn : Fn, ∃ bar : Bar, ∃ off : Nat, ∃ size : Nat, fnReach s fn = true ∧ (fn = 0 ∨ bar ≠ .bar0) ∧ (size ≠ 4 ∨ off % 4 ≠ 0)) ∧
  (∃ s : State, ∃ n : Fin 16, ∃ off : Nat, pf0Reg s off = true ∧ off ∈ [Reg.basinFlags n, Reg.abangoFlags n, Reg.linkFlags n, Reg.optFlags n]) ∧
  (∃ s : State, ∃ n : Fin 16, ∃ off : Nat, pf0Reg s off = true ∧ off ∈ [Reg.basinFlags n, Reg.abangoFlags n, Reg.linkFlags n, Reg.optFlags n]) ∧
  (∃ s : State, ∃ n : Fin 16, ∃ off : Nat, pf0Reg s off = true ∧ off ∈ [Reg.basinStat n, Reg.abangoStat n, Reg.linkStat n, Reg.optStat n, Reg.linkLanes n]) ∧
  (∃ s : State, ∃ n : Fin 16, ∃ off : Nat, pf0Reg s off = true ∧ off ∈ [Reg.basinStat n, Reg.abangoStat n, Reg.linkStat n, Reg.optStat n, Reg.linkLanes n]) ∧
  (∃ s : State, ∃ off : Nat, pf0Reg s off = true ∧ off % 4 = 0 ∧ Reg.pairLow off = true) ∧
  (∃ s : State, ∃ off : Nat, pf0Reg s off = true ∧ off % 4 = 0 ∧ Reg.pairLow off = true) ∧
  (∃ s : State, ∃ n : Fin 16, pf0Reg s (Reg.linkTxFlits n + 4) = true) ∧
  (∃ s : State, ∃ off : Nat, fnReach s 0 = true ∧ blockHeld s off = false ∧ off % 4 = 0 ∧ Reg.pairLow off = false) ∧
  (∃ s : State, ∃ fn : Fn, ∃ off : Nat, fnReach s fn = true ∧ off % 4 = 0) ∧
  (∃ s : State, ∃ fn : Fn, ∃ off : Nat, fnReach s fn = true ∧ off % 4 = 0) := by
  refine ⟨⟨0, 8, ?_⟩,
     ⟨3, 4, ?_⟩,
     ⟨wUp, 0, .bar0, 0, 8, ?_⟩,
     ⟨wUp, 0, .bar4, 2, 4, ?_⟩,
     ⟨wUp, 31, .bar2, 1, 4, ?_⟩,
     ⟨{ wUp with regs := wUp.regs ++ [(Reg.basinFlags 0, 3)] }, 0, Reg.basinFlags 0, ?_⟩,
     ⟨wUp, 15, Reg.optFlags 15, ?_⟩,
     ⟨wUp, 0, Reg.basinStat 0, ?_⟩,
     ⟨wUp, 15, Reg.linkLanes 15, ?_⟩,
     ⟨wUp, Reg.linkTxFlits 0, ?_⟩,
     ⟨wUp, Reg.houseRound, ?_⟩,
     ⟨wUp, 15, ?_⟩,
     ⟨wRegs wUp [(Reg.powerDomain (domPort 15), 0)], Reg.basinStat 15, ?_⟩,
     ⟨wUp, 0, 0, ?_⟩,
     ⟨wUp, 31, 4, ?_⟩⟩ <;> decide +kernel

/-- What `Obligations.CounterAndChannelControlWrites` assumes is met. -/
theorem wit_CounterAndChannelControlWrites :
  (∃ s : State, ∃ c : CoreNo, pf0Reg s (Reg.cperfCtl c) = true) ∧
  (∃ s : State, ∃ c : CoreNo, pf0Reg s (Reg.cperfCtl c) = true) ∧
  (∃ s : State, ∃ c : CoreNo, pf0Reg s (Reg.cperfCtl c) = true) ∧
  (∃ s : State, ∃ ch : ChanNo, pf0Reg s (Reg.dmaCtl ch) = true) ∧
  (∃ s : State, ∃ ch : ChanNo, pf0Reg s (Reg.dmaCtl ch) = true) ∧
  (∃ s : State, ∃ ch : ChanNo, pf0Reg s (Reg.dmaFlags ch) = true ∧ bit (tget 0 s.flagsNow (Reg.dmaFlags ch)) 0 = false) ∧
  (∃ s : State, pf0Reg s Reg.houseTrigger = true ∧ s.house.running = false ∧ s.house.trigTick ≠ some (tickOf s)) := by
  refine ⟨⟨wUp, 63, ?_⟩,
     ⟨wUp, 0, ?_⟩,
     ⟨wUp, 63, ?_⟩,
     ⟨wUp, 31, ?_⟩,
     ⟨wUp, 0, ?_⟩,
     ⟨wUp, 31, ?_⟩,
     ⟨wUp, ?_⟩⟩ <;> decide +kernel

/-- Queue pair 0 of function 0: 16 entries, five fetched of ten. -/
def wQp : State :=
  { wUp with qps := [(0, { QpState.reset with mode := 1, sqLog := 4, cqLog := 4, tail := 10, head := 5, cqHead := 14, cqTail := 2 })] }

/-- Function 0's mailbox window with request number 7 in its request area. -/
def wBox (m : Nat) (last : Option Nat) : State :=
  { wUp with windows := [(0, { MbWindow.reset with mode := m, lastSeq := last, req := [(0, 7 * 65536 + 1)] })] }

/-- What `Obligations.ClockAndCalibrationWrites` assumes is met. -/
theorem wit_ClockAndCalibrationWrites :
  (∃ s : State, pf0Reg s Reg.clockRefcfg = true ∧ regBit s Reg.clockCtrl 0 = false) ∧
  (∃ s : State, pf0Reg s Reg.clockRefcfg = true ∧ regBit s Reg.clockCtrl 0 = true) ∧
  (∃ s : State, pf0Reg s Reg.clockCtrl = true ∧ ((∀ u ∈ s.upsets, u.1 ≠ .clock))) ∧
  (∃ s : State, ∃ b : Nat, pf0Reg s Reg.clockCtrl = true ∧ (.clock, b) ∈ s.upsets) ∧
  (∃ s : State, ∃ i : SiteNo, ∃ c : Fin 256, pf0Reg s (Reg.lightTxcal i c) = true ∧ regBit s (Reg.lightStat i) 0 = false) ∧
  (∃ s : State, ∃ i : SiteNo, ∃ r : Fin 1024, ∃ l : Fin 32, pf0Reg s (Reg.lightRxcal i r l) = true ∧ regBit s (Reg.lightStat i) 0 = true) := by
  refine ⟨⟨wRegs wUp [(Reg.clockCtrl, 0)], ?_⟩,
     ⟨wRegs wUp [(Reg.clockCtrl, 1)], ?_⟩,
     ⟨wUp, ?_⟩,
     ⟨{ wUp with upsets := [(.clock, 0)] }, 0, ?_⟩,
     ⟨wUp, 15, 255, ?_⟩,
     ⟨wRegs wUp [(Reg.lightStat 15, 1)], 15, 1023, 31, ?_⟩⟩ <;> decide +kernel

/-- What `Obligations.ParityMismatchDisablesAndRestores` assumes is met. -/
theorem wit_ParityMismatchDisablesAndRestores :
  (∃ s : State, ∃ ch : ChanNo, ∃ b : Nat, domOn s domHost = true ∧ b < 3 ∧ ((∀ u ∈ s.upsets, u.1 ≠ .dmaCtl ch))) ∧
  (∃ s : State, ∃ i : SiteNo, ∃ e : Fin 16, ∃ b : Nat, b < 32 ∧ s.upsets = [(.key i e, b)]) ∧
  (∃ s : State, ∃ u : ParityUnit, ((∀ e ∈ s.upsets, e.1 ≠ u))) := by
  refine ⟨⟨wUp, 31, 2, ?_⟩,
     ⟨{ wUp with upsets := [(.key 15 15, 31)] }, 15, 15, 31, ?_⟩,
     ⟨wUp, .clock, ?_⟩⟩ <;> decide +kernel

/-- What `Obligations.DoorbellsAreCheckedAndTaken` assumes is met. -/
theorem wit_DoorbellsAreCheckedAndTaken :
  (∃ s : State, ∃ f : Fn, ∃ v : Word, fnReach s f = true ∧ (win s f).mode ≠ 1 ∧ tget 0 (win s f).req 0 / 65536 = v.toNat % 65536 ∧ (win s f).lastSeq ≠ some (v.toNat % 65536) ∧ s.weir.gap = none ∧ s.weir.mgmtLost = false) ∧
  (∃ s : State, ∃ f : Fn, ∃ v : Word, fnReach s f = true ∧ (win s f).mode ≠ 1 ∧ tget 0 (win s f).req 0 / 65536 = v.toNat % 65536 ∧ (win s f).lastSeq ≠ some (v.toNat % 65536) ∧ s.weir.gap ≠ none) ∧
  (∃ s : State, ∃ f : Fn, fnReach s f = true ∧ (win s f).mode = 1) ∧
  (∃ s : State, ∃ f : Fn, fnReach s f = true) ∧
  (∃ s : State, ∃ f : Fn, fnReach s f = false) := by
  refine ⟨⟨wBox 0 none, 0, 7, ?_⟩,
     ⟨{ wBox 3 (some 6) with weir := { WeirState.reset with gap := some { starting := .b, from_ := 0, former := .a, beatsOnly := true, drill := false, retry := false, since := 0 } } }, 0, 7, ?_⟩,
     ⟨wBox 1 none, 0, ?_⟩,
     ⟨wUp, 255, ?_⟩,
     ⟨State.reset, 0, ?_⟩⟩ <;> decide +kernel

/-- What `Obligations.BasinTimeIsSentCopiedLoadedAndTicked` assumes is met. -/
theorem wit_BasinTimeIsSentCopiedLoadedAndTicked :
  (∃ s : State, s.time.running = true ∧ regBit s Reg.timeCtrl 0 = true) ∧
  (∃ s : State, ∃ k : Nat, ∃ e : Int, s.time.running = true ∧ regBit s Reg.timeCtrl 0 = true ∧ s.time.copyErr = [(k, e)] ∧ tget 0 s.time.copyFix k ≠ 3 ∧ nsUnits 2 < e ∧ e ≤ nsUnits 16) ∧
  (∃ s : State, ∃ k : Nat, ∃ e : Int, s.time.running = true ∧ regBit s Reg.timeCtrl 0 = true ∧ s.time.copyErr = [(k, e)] ∧ tget 0 s.time.copyFix k ≠ 3 ∧ nsUnits 16 < e) ∧
  (∃ s : State, ∃ k : Nat, ∃ e : Int, s.time.running = true ∧ regBit s Reg.timeCtrl 0 = true ∧ s.time.copyErr = [(k, e)] ∧ tget 0 s.time.copyFix k ≠ 3 ∧ e < nsUnits (-16)) ∧
  (∃ s : State, ∃ k : Nat, ∃ e : Int, s.time.running = true ∧ regBit s Reg.timeCtrl 0 = true ∧ s.time.copyErr = [(k, e)] ∧ tget 0 s.time.copyFix k ≠ 3 ∧ nsUnits (-2) ≤ e ∧ e ≤ nsUnits 2) ∧
  (∃ s : State, ∃ k : Nat, ∃ e : Int, s.time.running = true ∧ regBit s Reg.timeCtrl 0 = true ∧ s.time.copyErr = [(k, e)] ∧ tget 0 s.time.copyFix k ≠ 3 ∧ e < nsUnits (-2) ∧ nsUnits (-16) ≤ e) ∧
  (∃ s : State, ∃ k : Nat, k < 28 ∧ k ≠ 4 ∧ regBit s Reg.timeCtrl 0 = false) ∧
  (∃ s : State, s.time.running = true ∧ s.island.onVkeep = false) ∧
  (∃ s : State, stage s = 4 ∧ startFailed s = false ∧ weirServes s = true ∧ s.time.running = false) ∧
  (∃ s : State, s.start.resetReq = false ∧ weirServes s = false) := by
  refine ⟨⟨wRegs (wAt wUp 0) [(Reg.timeCtrl, 1)], ?_⟩,
     ⟨wRegs (wAt { wUp with time := { wUp.time with copyErr := [(3, nsUnits 16)] } } 0) [(Reg.timeCtrl, 1)], 3, nsUnits 16, ?_⟩,
     ⟨wRegs (wAt { wUp with time := { wUp.time with copyErr := [(3, nsUnits 17)] } } 0) [(Reg.timeCtrl, 1)], 3, nsUnits 17, ?_⟩,
     ⟨wRegs (wAt { wUp with time := { wUp.time with copyErr := [(3, nsUnits (-17))] } } 0) [(Reg.timeCtrl, 1)], 3, nsUnits (-17), ?_⟩,
     ⟨wRegs (wAt { wUp with time := { wUp.time with copyErr := [(3, nsUnits (-2))] } } 0) [(Reg.timeCtrl, 1)], 3, nsUnits (-2), ?_⟩,
     ⟨wRegs (wAt { wUp with time := { wUp.time with copyErr := [(3, nsUnits (-16))] } } 0) [(Reg.timeCtrl, 1)], 3, nsUnits (-16), ?_⟩,
     ⟨State.reset, 3, ?_⟩,
     ⟨wAt wUp 1000, ?_⟩,
     ⟨wRegs wUp [(Reg.globalStat, 4)], ?_⟩,
     ⟨State.reset, ?_⟩⟩ <;> decide +kernel

/-- A report of class 2 from a source at a tick. -/
def wRep (src stamp : Nat) : Report :=
  { cls := 2, code := 1, unit := unitNo 0x0F 0, part := 0xFF, d0 := src, d1 := 0, src := src, stamp := stamp }

/-- A record of that report. -/
def wLog : LogRec := recOf (wRep 5 0) false

/-- Basin time at the start of tick 3 and some reports in the combiner. -/
def wComb (a : List Arrived) : State := { wAt wUp 768 with faults := { FaultState.reset with arrived := a } }

/-- A change to step S7 armed by some sites of 0 and 1. -/
def wCh (armed : List Nat) (passed : Bool) : StepChange :=
  { target := 7, commit := 16384, participants := [0, 1], armed := armed, passed := passed, window := none }

/-- The module with that change under way at a count of Basin time. -/
def wStep (armed : List Nat) (passed : Bool) (n : Nat) : State :=
  wRegs { wAt wUp n with clock := { ClockState.reset with change := some (wCh armed passed) } }
    [(Reg.powerDomain (domPond 1), 0x8000_0000 + 800)]

/-- What `Obligations.CombinerMergesAndLogsReports` assumes is met. -/
theorem wit_CombinerMergesAndLogsReports :
  (∃ s : State, ∃ r : Report, r.cls ∉ ([0, 1, 4] : List (Fin 16)) ∧ s.time.running = true ∧ s.faults.nextTick ≤ r.stamp) ∧
  (∃ s : State, ∃ r : Report, r.cls ∉ ([0, 1, 4] : List (Fin 16)) ∧ s.time.running = true ∧ r.stamp < s.faults.nextTick) ∧
  (∃ s : State, ∃ r : Report, ∃ n : Nat, s.time.running = true ∧ s.faults.nextTick ≤ n ∧ n + 3 ≤ tickOf s ∧ s.faults.arrived = [⟨r, n, false⟩] ∧ s.faults.windows = [] ∧ s.faults.queue = []) ∧
  (∃ s : State, ∃ r : Report, ∃ q : Report, ∃ n : Nat, s.time.running = true ∧ s.faults.nextTick ≤ n ∧ n + 3 ≤ tickOf s ∧ s.faults.arrived = [⟨r, n, false⟩, ⟨q, n, false⟩] ∧ s.faults.windows = [] ∧ s.faults.queue = [] ∧ sameSig (recOf q false) (recOf r false) = true ∧ q.src < r.src) ∧
  (∃ s : State, ∃ w : RepWindow, ∃ ws : List RepWindow, s.faults.windows = w :: ws ∧ w.opened + 4096 ≤ s.faults.nextTick ∧ w.count ≠ 0 ∧ s.faults.queue.length < 512) ∧
  (∃ s : State, ∃ r : LogRec, ∃ rs : List LogRec, s.faults.queue = r :: rs ∧ weirServes s = true ∧ s.faults.log.length < 4096) := by
  refine ⟨⟨wAt wUp 256, wRep 5 0, ?_⟩,
     ⟨{ wAt wUp 256 with faults := { FaultState.reset with nextTick := 1 } }, wRep 5 0, ?_⟩,
     ⟨wComb [⟨wRep 5 0, 0, false⟩], wRep 5 0, 0, ?_⟩,
     ⟨wComb [⟨wRep 5 0, 0, false⟩, ⟨wRep 4 0, 0, false⟩], wRep 5 0, wRep 4 0, 0, ?_⟩,
     ⟨{ wUp with faults := { FaultState.reset with nextTick := 4096, windows := [{ first := wLog, opened := 0, count := 1, firstStamp := 0, lastStamp := 0, late := false }] } }, { first := wLog, opened := 0, count := 1, firstStamp := 0, lastStamp := 0, late := false }, [], ?_⟩,
     ⟨{ wUp with faults := { FaultState.reset with queue := [wLog] } }, wLog, [], ?_⟩⟩ <;> decide +kernel

/-- What `Obligations.ModuleStepChangeArmsAndCommits` assumes is met. -/
theorem wit_ModuleStepChangeArmsAndCommits :
  (∃ s : State, ∃ i : SiteNo, ∃ ch : StepChange, s.clock.change = some ch ∧ i.val ∈ ch.participants ∧ pondRuns s i = true ∧ pondMv ch.target ≤ field s (Reg.powerDomain (domPond i)) 15 0) ∧
  (∃ s : State, ∃ i : SiteNo, ∃ ch : StepChange, s.clock.change = some ch ∧ i.val ∈ ch.participants ∧ ch.passed = false) ∧
  (∃ s : State, ∃ ch : StepChange, s.clock.change = some ch ∧ ch.passed = false ∧ ch.commit ≤ s.time.now + 8000 ∧ (∀ i ∈ ch.participants, i ∈ ch.armed) ∧ ch.target ≤ bandStep (hottestPond s ch.participants)) ∧
  (∃ s : State, ∃ ch : StepChange, s.clock.change = some ch ∧ ch.passed = false ∧ ch.commit ≤ s.time.now + 8000 ∧ (∃ i ∈ ch.participants, i ∉ ch.armed)) ∧
  (∃ s : State, ∃ ch : StepChange, ∃ i : Nat, s.clock.change = some ch ∧ ch.passed = true ∧ ch.commit ≤ s.time.now + 2000 ∧ i ∈ ch.participants) ∧
  (∃ s : State, ∃ ch : StepChange, s.clock.change = some ch ∧ ch.passed = true ∧ ch.commit ≤ s.time.now ∧ stepPllCoasts s = true ∧ ((∀ i < 16, (site s i).asleep = []))) ∧
  (∃ s : State, ∃ ch : StepChange, s.clock.change = some ch ∧ ch.passed = true ∧ ch.commit ≤ s.time.now ∧ stepPllCoasts s = false ∧ ((∀ i < 16, (site s i).asleep = []))) ∧
  (∃ s : State, s.clock.change = none ∧ s.clock.waitExit = []) ∧
  (∃ s : State, ∃ i : Nat, s.clock.change = none ∧ s.clock.waitExit = [(i, s.time.now)]) := by
  refine ⟨⟨wStep [] false 0, 1, wCh [] false, ?_⟩,
     ⟨wStep [1] false 0, 0, wCh [1] false, ?_⟩,
     ⟨wStep [1, 0] false 8384, wCh [1, 0] false, ?_⟩,
     ⟨wStep [1] false 8384, wCh [1] false, ?_⟩,
     ⟨wStep [0, 1] true 14384, wCh [0, 1] true, 1, ?_⟩,
     ⟨wRegs (wStep [0, 1] true 16384) [(Reg.clockPllstat, 2)], wCh [0, 1] true, ?_⟩,
     ⟨wStep [0, 1] true 16384, wCh [0, 1] true, ?_⟩,
     ⟨wUp, ?_⟩,
     ⟨{ wAt wUp 300 with clock := { ClockState.reset with waitExit := [(3, 300)], inReset := [(3, true)] } }, 3, ?_⟩⟩ <;> decide +kernel

/-- What `Obligations.ReferencesAndCrossings` assumes is met. -/
theorem wit_ReferencesAndCrossings :
  (∃ s : State, ∃ edges : Nat, stage s = 9 ∧ s.clock.badB = 0 ∧ (edges < 994 ∨ 1054 < edges)) ∧
  (∃ s : State, ∃ edges : Nat, stage s = 9 ∧ s.clock.badB = 0 ∧ (edges < 994 ∨ 1054 < edges)) ∧
  (∃ s : State, ∃ edges : Nat, stage s = 9 ∧ s.clock.badB = 1 ∧ (edges < 994 ∨ 1054 < edges) ∧ ((∀ p, p < 9 → tget 0 s.clock.pllRef p ≠ 1)) ∧ tget 0 s.clock.pllRef 9 = 1 ∧ regBit s Reg.clockPllstat 25 = true ∧ s.clock.change = none) ∧
  (∃ s : State, ∃ edges : Nat, stage s = 9 ∧ 63 ≤ s.clock.goodA ∧ s.clock.refaMode = false ∧ 994 ≤ edges ∧ edges ≤ 1054) ∧
  (∃ s : State, ∃ x : Crossing, ∃ e : Nat, e ≤ ((crossAt s x.kind x.site).view x.side).epoch) ∧
  (∃ s : State, ∃ x : Crossing, ∃ e : Nat, ((crossAt s x.kind x.site).view x.side).epoch < e ∧ ((siteCrossing x.kind = true → siteFailed s x.site = false)) ∧ ((x.kind = .bundle → regBit s (Reg.abangoStat x.site) 2 = true)) ∧ ((x.kind = .pondTile → x.side = .upper → tget false s.clock.inReset x.site = true → exitHeld s = false))) ∧
  (∃ s : State, ∃ x : Crossing, ∃ e : Nat, ((crossAt s x.kind x.site).view x.side).epoch < e ∧ ((siteCrossing x.kind = true → siteFailed s x.site = false)) ∧ ((x.kind = .bundle → regBit s (Reg.abangoStat x.site) 2 = true)) ∧ ((x.kind = .pondTile → x.side = .upper → tget false s.clock.inReset x.site = true → exitHeld s = false))) ∧
  (∃ s : State, ∃ x : Crossing, ∃ e : Nat, ((crossAt s x.kind x.site).view x.side).epoch < e ∧ ((siteCrossing x.kind = true → siteFailed s x.site = false)) ∧ ((x.kind = .bundle → regBit s (Reg.abangoStat x.site) 2 = true)) ∧ ((x.kind = .pondTile → x.side = .upper → tget false s.clock.inReset x.site = true → exitHeld s = false))) ∧
  (∃ s : State, ∃ i : SiteNo, ∃ e : Nat, (crossAt s .pondTile i).upper.epoch < e ∧ siteFailed s i = false ∧ tget false s.clock.inReset i = true ∧ exitHeld s = true) ∧
  (∃ s : State, ∃ c : CoreNo, ∃ k : Nat, (core s c).rampTo = some k) ∧
  (∃ s : State, ∃ c : CoreNo, (core s c).rampTo = none) ∧
  (∃ s : State, ∃ i : SiteNo, ∃ k : CrossKind, siteFailed s i = false ∧ weirServes s = true ∧ siteCrossing k = true) ∧
  (∃ s : State, ∃ i : SiteNo, stage s = 9 ∧ siteFailed s i = true) := by
  refine ⟨⟨wRegs wUp [(Reg.globalStat, 9)], 993, ?_⟩,
     ⟨wRegs wUp [(Reg.globalStat, 9)], 1055, ?_⟩,
     ⟨wRegs { wUp with clock := { ClockState.reset with badB := 1, pllRef := [(9, 1)] } } [(Reg.globalStat, 9), (Reg.clockPllstat, 2 ^ 25)], 1055, ?_⟩,
     ⟨wRegs { wUp with clock := { ClockState.reset with goodA := 63 } } [(Reg.globalStat, 9)], 1054, ?_⟩,
     ⟨wUp, ⟨.portTile, 0, .lower⟩, 0, ?_⟩,
     ⟨wRegs wUp [(Reg.abangoStat 15, 4)], ⟨.bundle, 15, .upper⟩, 1, ?_⟩,
     ⟨wUp, ⟨.hostTile, 0, .upper⟩, 1, ?_⟩,
     ⟨{ wUp with clock := { ClockState.reset with inReset := [(15, true)] } }, ⟨.pondTile, 15, .upper⟩, 1, ?_⟩,
     ⟨wRegs { wUp with clock := { ClockState.reset with inReset := [(15, true)] } } [(Reg.clockCommit, 1000)], 15, 1, ?_⟩,
     ⟨{ wUp with cores := [(63, { CoreState.reset with rampTo := some 7 })] }, 63, 7, ?_⟩,
     ⟨wUp, 63, ?_⟩,
     ⟨wUp, 15, .pondTile, ?_⟩,
     ⟨wRegs wUp [(Reg.globalStat, 9), (Reg.siteStat 0, 2)], 0, ?_⟩⟩ <;> decide +kernel

/-- A post of one token to counter 0 of its own core after some units. -/
def wPost (after : BitVec 3) (amount : Fin 256) : PostF :=
  { counter := 0, amount := amount, after := after, target := 0, chan := 0, dstCore := 0 }

/-- The context with the given tokens in counter 0. -/
def wTok (y : CoreState) (n : Nat) : State :=
  { wRun y with contexts := [{ wCtx with cores := [{ wCore with counters := [(0, n)] }] }] }

/-- A core whose C slot holds an operation, issued after some operations of the A slot. -/
def wC (y : CoreState) (o : SlotOp) (a : Nat) : CoreState := { y with cQ := [{ op := o, needA := a, needV := 0, needM := 0 }] }

/-- What `Obligations.BundlesAndTheCSlot` assumes is met. -/
theorem wit_BundlesAndTheCSlot :
  (∃ s : State, ∃ c : CoreNo, ∃ x : Context, ∃ k : CtxCore, Runs s c x k ∧ canIssue (core s c) = true ∧ (core s c).pc < k.bundleCount) ∧
  (∃ s : State, ∃ c : CoreNo, ∃ x : Context, ∃ k : CtxCore, ∃ y : CoreState, ∃ n : Fin 32, ∃ a : Fin 256, Runs s c x k ∧ (core s c).stalled = none ∧ Accepts s c .c (.wait n a) y ∧ a.val ≤ counter k n) ∧
  (∃ s : State, ∃ c : CoreNo, ∃ x : Context, ∃ k : CtxCore, ∃ y : CoreState, ∃ n : Fin 32, ∃ a : Fin 256, Runs s c x k ∧ (core s c).stalled = none ∧ Accepts s c .c (.wait n a) y ∧ counter k n < a.val) ∧
  (∃ s : State, ∃ c : CoreNo, ∃ x : Context, ∃ k : CtxCore, ∃ n : Nat, ∃ a : Nat, Runs s c x k ∧ (core s c).stalled = some (n, a) ∧ a ≤ counter k n) ∧
  (∃ s : State, ∃ c : CoreNo, ∃ x : Context, ∃ k : CtxCore, ∃ n : Nat, ∃ a : Nat, Runs s c x k ∧ (core s c).stalled = some (n, a) ∧ counter k n < a) ∧
  (∃ s : State, ∃ c : CoreNo, ∃ x : Context, ∃ k : CtxCore, ∃ y : CoreState, ∃ f : PostF, Runs s c x k ∧ (core s c).stalled = none ∧ Accepts s c .c (.post f) y ∧ y.posts = [] ∧ f.after = 0 ∧ f.target = 0 ∧ counter k f.counter + f.amount ≤ 65535) ∧
  (∃ s : State, ∃ c : CoreNo, ∃ x : Context, ∃ k : CtxCore, ∃ y : CoreState, ∃ f : PostF, Runs s c x k ∧ (core s c).stalled = none ∧ Accepts s c .c (.post f) y ∧ y.posts = [] ∧ f.after = 0 ∧ f.target = 0 ∧ 65535 < counter k f.counter + f.amount) ∧
  (∃ s : State, ∃ c : CoreNo, ∃ x : Context, ∃ k : CtxCore, ∃ y : CoreState, ∃ f : PostF, Runs s c x k ∧ (core s c).stalled = none ∧ Accepts s c .c (.post f) y ∧ y.posts = [] ∧ f.after.getLsbD 2 = true ∧ ((∀ o ∈ (core s c).cQ.head?, y.aStarted < o.needA))) ∧
  (∃ s : State, ∃ c : CoreNo, ∃ x : Context, ∃ k : CtxCore, ∃ y : CoreState, Runs s c x k ∧ (core s c).stalled = none ∧ Accepts s c .c .close y) ∧
  (∃ s : State, ∃ c : CoreNo, ∃ x : Context, ∃ k : CtxCore, ∃ y : CoreState, ∃ w : BitVec 23, Runs s c x k ∧ (core s c).stalled = none ∧ Accepts s c .c (.setsel w) y ∧ 4 * w.toNat + 4 ≤ x.regionSize) ∧
  (∃ s : State, ∃ c : CoreNo, ∃ x : Context, ∃ k : CtxCore, ∃ y : CoreState, ∃ code : BitVec 16, Runs s c x k ∧ (core s c).stalled = none ∧ Accepts s c .c (.fault code) y) ∧
  (∃ s : State, ∃ c : CoreNo, ∃ x : Context, ∃ k : CtxCore, ∃ y : CoreState, ∃ off : BitVec 20, Runs s c x k ∧ (core s c).stalled = none ∧ Accepts s c .c (.rdstat off) y ∧ 32 * off.toNat + 32 ≤ x.regionSize ∧ ((∀ i, i < 32 → poisonedAt s (regionAddr k (32 * off.toNat) + i) = false))) :=
  ⟨⟨wRun wY, 0, wCtx, wCore, by (try unfold Runs); decide +kernel⟩,
   ⟨wRun (wC wY (.wait 0 3) 0), 0, wCtx, wCore, wY, 0, 3, by (try unfold Runs); (try unfold Accepts); decide +kernel⟩,
   ⟨wRun (wC wY (.wait 0 4) 0), 0, wCtx, wCore, wY, 0, 4, by (try unfold Runs); (try unfold Accepts); decide +kernel⟩,
   ⟨wRun { wY with stalled := some (0, 3) }, 0, wCtx, wCore, 0, 3, by (try unfold Runs); decide +kernel⟩,
   ⟨wRun { wY with stalled := some (0, 4) }, 0, wCtx, wCore, 0, 4, by (try unfold Runs); decide +kernel⟩,
   ⟨wTok (wC wY (.post (wPost 0 1)) 0) 65534, 0, { wCtx with cores := [{ wCore with counters := [(0, 65534)] }] }, { wCore with counters := [(0, 65534)] }, wY, wPost 0 1, by (try unfold Runs); (try unfold Accepts); decide +kernel⟩,
   ⟨wTok (wC wY (.post (wPost 0 1)) 0) 65535, 0, { wCtx with cores := [{ wCore with counters := [(0, 65535)] }] }, { wCore with counters := [(0, 65535)] }, wY, wPost 0 1, by (try unfold Runs); (try unfold Accepts); decide +kernel⟩,
   ⟨wRun (wC { wY with aIssued := 1 } (.post (wPost 4 1)) 1), 0, wCtx, wCore, { wY with aIssued := 1 }, wPost 4 1, by (try unfold Runs); (try unfold Accepts); decide +kernel⟩,
   ⟨wRun (wC wY .close 0), 0, wCtx, wCore, wY, by (try unfold Runs); (try unfold Accepts); decide +kernel⟩,
   ⟨wRun (wC wY (.setsel 0x3_FFFF) 0), 0, wCtx, wCore, wY, 0x3_FFFF, by (try unfold Runs); (try unfold Accepts); decide +kernel⟩,
   ⟨wRun (wC wY (.fault 0xFFFF) 0), 0, wCtx, wCore, wY, 0xFFFF, by (try unfold Runs); (try unfold Accepts); decide +kernel⟩,
   ⟨wRun (wC wY (.rdstat 0x7FFF) 0), 0, wCtx, wCore, wY, 0x7FFF, by (try unfold Runs); (try unfold Accepts); decide +kernel⟩⟩

/-- What `Obligations.ContributionsAreFlooredToTheWindow` assumes is met. -/
theorem wit_ContributionsAreFlooredToTheWindow :
  ∃ w : Int, ∃ n : Int, ∃ e : Int, ∃ h : Nat, ∃ cnt : Nat, ∃ c : CellRun, cnt ≤ 1024 * 2 ^ h ∧ c.a ≠ accInvalid ∧ (⌊((n : ℚ) * 2 ^ e) / 2 ^ w⌋).natAbs ≤ 2 ^ (149 - h) - 1 ∧ (c.a + ⌊((n : ℚ) * 2 ^ e) / 2 ^ w⌋).natAbs ≤ 2 ^ 159 - 1 :=
  ⟨0, 2 ^ 149 - 1, 0, 0, 0, { a := 0, below := 0 }, by rw [show ⌊(((2 ^ 149 - 1 : Int) : ℚ) * 2 ^ (0 : Int)) / 2 ^ (0 : Int)⌋ = 2 ^ 149 - 1 by norm_num]; decide +kernel⟩

/-- What `Obligations.AccumulationIsExactAndOrderFree` assumes is met. -/
theorem wit_AccumulationIsExactAndOrderFree :
  (∃ w : Int, ∃ h : Nat, ∃ xs : List (Int × Int), h ≤ 9 ∧ xs.length ≤ 1024 * 2 ^ h ∧ ((∀ x ∈ xs, (floorWindow x.1 x.2 w).1.natAbs ≤ 2 ^ (149 - h) - 1))) ∧
  (∃ w : Int, ∃ h : Nat, ∃ xs : List (Int × Int), ∃ ys : List (Int × Int), h ≤ 9 ∧ xs.length ≤ 1024 * 2 ^ h ∧ xs.Perm ys ∧ ((∀ x ∈ xs, (floorWindow x.1 x.2 w).1.natAbs ≤ 2 ^ (149 - h) - 1))) ∧
  (∃ c : CellRun, c.a = accInvalid) ∧
  (∃ w : Int, ∃ h : Nat, ∃ n : Nat, ∃ xs : List Contribution, ∃ x : Contribution, ((x = .invalid ∨ (∃ m e, x = .value m e ∧ 2 ^ (149 - h) - 1 < (floorWindow m e w).1.natAbs) ∨ 1024 * 2 ^ h ≤ n + xs.length))) := by
  refine ⟨⟨-100, 9, [(2 ^ 20, 0), (-3, -520)], ?_⟩,
     ⟨0, 0, [(1, 0), (2, 3)], [(2, 3), (1, 0)], ?_⟩,
     ⟨{ a := accInvalid, below := 0 }, ?_⟩,
     ⟨0, 0, 1024, [], .value 1 0, Or.inr (Or.inr (by decide +kernel))⟩⟩ <;> decide +kernel

/-- A tile descriptor of one block of FP16 rows, at an offset of the region. -/
def wTd (fmt base blocks : Nat) : Nat := fmt * 2 ^ 124 + base / 32 * 2 ^ 100 + blocks * 2 ^ 64

/-- The context's part with two tile descriptors loaded. -/
def wTds (t0 t1 : Nat) : CtxCore := { wCore with tds := [(0, t0), (1, t1)] }

/-- The context running with them. -/
def wArr (y : CoreState) (t0 t1 : Nat) : State := { wRun y with contexts := [{ wCtx with cores := [wTds t0 t1] }] }

/-- One array's MMA, MERGE and DRAIN. -/
def wMma (zero : Bool) : MmaF := { arrays := 0x8000, ta := 0, tb := 1, acc := 1, zero := zero, wlo := 0x3FD, h := 9 }
def wMerge : MergeF := { arrays := 1, ta := 0, acc := 0, wlo := 0x3FD, h := 0 }
def wDrain : DrainF := { arrays := 1, td := 0, acc := 1, port := false, move := 0 }

/-- What `Obligations.ArrayOperationsTakeEffect` assumes is met. -/
theorem wit_ArrayOperationsTakeEffect :
  (∃ s : State, ∃ c : CoreNo, ∃ x : Context, ∃ k : CtxCore, ∃ y : CoreState, ∃ r : Fin 16, ∃ i : BitVec 12, Runs s c x k ∧ Accepts s c .a (.ldtd r i) y ∧ y.posts = [] ∧ i.toNat < k.tdCount) ∧
  (∃ s : State, ∃ c : CoreNo, ∃ x : Context, ∃ k : CtxCore, ∃ y : CoreState, ∃ f : MmaF, ∃ a : Nat, ∃ ta : Td, ∃ tb : Td, Runs s c x k ∧ Accepts s c .a (.mma f) y ∧ y.posts = [] ∧ notDraining f.arrays f.acc (core s c) = true ∧ ta = tdOf (tget 0 k.tds f.ta) ∧ tb = tdOf (tget 0 k.tds f.tb) ∧ mmaLegal x ta tb f = true ∧ maskList f.arrays.toNat 16 = [a] ∧ f.zero = true) ∧
  (∃ s : State, ∃ c : CoreNo, ∃ x : Context, ∃ k : CtxCore, ∃ y : CoreState, ∃ f : MmaF, ∃ a : Nat, ∃ ta : Td, ∃ tb : Td, Runs s c x k ∧ Accepts s c .a (.mma f) y ∧ y.posts = [] ∧ notDraining f.arrays f.acc (core s c) = true ∧ ta = tdOf (tget 0 k.tds f.ta) ∧ tb = tdOf (tget 0 k.tds f.tb) ∧ mmaLegal x ta tb f = true ∧ maskList f.arrays.toNat 16 = [a] ∧ f.zero = false ∧ acc? (core s c) (2 * a + f.acc) = none) ∧
  (∃ s : State, ∃ c : CoreNo, ∃ x : Context, ∃ k : CtxCore, ∃ y : CoreState, ∃ f : MergeF, ∃ a : Nat, ∃ ta : Td, ∃ a0 : Acc, Runs s c x k ∧ Accepts s c .a (.merge f) y ∧ y.posts = [] ∧ notDraining f.arrays f.acc (core s c) = true ∧ ta = tdOf (tget 0 k.tds f.ta) ∧ mergeLegal x ta f = true ∧ maskList f.arrays.toNat 16 = [a] ∧ acc? (core s c) (2 * a + f.acc) = some a0 ∧ a0.wlo = wloOf f.wlo ∧ a0.h = f.h.val) ∧
  (∃ s : State, ∃ c : CoreNo, ∃ x : Context, ∃ k : CtxCore, ∃ y : CoreState, ∃ f : DrainF, ∃ a : Nat, ∃ td : Td, Runs s c x k ∧ Accepts s c .a (.drain f) y ∧ y.posts = [] ∧ notDraining f.arrays f.acc (core s c) = true ∧ td = tdOf (tget 0 k.tds f.td) ∧ drainLegal x td f = true ∧ f.port = false ∧ maskList f.arrays.toNat 16 = [a]) ∧
  (∃ s : State, ∃ c : CoreNo, (core s c).posts = []) ∧
  (∃ s : State, ∃ c : CoreNo, (core s c).posts = []) := by
  refine ⟨⟨wRun { wY with aQ := [.ldtd 15 0], aIssued := 1 }, 0, wCtx, wCore, { wY with aIssued := 1, aStarted := 1 }, 15, 0, by (try unfold Runs); (try unfold Accepts); decide +kernel⟩,
     ⟨wArr { wY with aQ := [.mma (wMma true)], aIssued := 1 } (wTd 0 0 1) (wTd 0 0x8000 1), 0, {wCtx with cores := [wTds (wTd 0 0 1) (wTd 0 0x8000 1)] }, wTds (wTd 0 0 1) (wTd 0 0x8000 1), { wY with aIssued := 1, aStarted := 1 }, wMma true, 15, tdOf (wTd 0 0 1), tdOf (wTd 0 0x8000 1), by (try unfold Runs); (try unfold Accepts); decide +kernel⟩,
     ⟨wArr { wY with aQ := [.mma (wMma false)], aIssued := 1 } (wTd 0 0 1) (wTd 0 0x8000 1), 0, {wCtx with cores := [wTds (wTd 0 0 1) (wTd 0 0x8000 1)] }, wTds (wTd 0 0 1) (wTd 0 0x8000 1), { wY with aIssued := 1, aStarted := 1 }, wMma false, 15, tdOf (wTd 0 0 1), tdOf (wTd 0 0x8000 1), by (try unfold Runs); (try unfold Accepts); decide +kernel⟩,
     ⟨wArr { { wY with accs := [(0, { Acc.zero with wlo := -3 })] } with aQ := [.merge wMerge], aIssued := 1 } (wTd 11 0 0) (wTd 0 0x8000 1), 0, {wCtx with cores := [wTds (wTd 11 0 0) (wTd 0 0x8000 1)] }, wTds (wTd 11 0 0) (wTd 0 0x8000 1), { { wY with accs := [(0, { Acc.zero with wlo := -3 })] } with aIssued := 1, aStarted := 1 }, wMerge, 0, tdOf (wTd 11 0 0), { Acc.zero with wlo := -3 }, by (try unfold Runs); (try unfold Accepts); decide +kernel⟩,
     ⟨wArr { wY with aQ := [.drain wDrain], aIssued := 1 } (wTd 10 0 0) (wTd 0 0x8000 1), 0, {wCtx with cores := [wTds (wTd 10 0 0) (wTd 0 0x8000 1)] }, wTds (wTd 10 0 0) (wTd 0 0x8000 1), { wY with aIssued := 1, aStarted := 1 }, wDrain, 0, tdOf (wTd 10 0 0), by (try unfold Runs); (try unfold Accepts); decide +kernel⟩,
     ⟨{ wUp with cores := [(0, { CoreState.reset with aOpen := [(0, 15)] })] }, 0, ?_⟩,
     ⟨{ wUp with cores := [(0, { CoreState.reset with dOpen := [(0, 31)] })] }, 0, ?_⟩⟩ <;> decide +kernel

/-- A vector operation on FP32 lanes over one register. -/
def wVec : VecF := { lfmt := 0, span := 0, dst := 63, src1 := 0, src2 := 1, src3 := 2, xfmt := 0 }
def wVmem : VMemF := { lfmt := 0, span := 15, dst := 48, addr := 2032 }

/-- What `Obligations.VectorOperationsTakeEffect` assumes is met. -/
theorem wit_VectorOperationsTakeEffect :
  (∃ s : State, ∃ c : CoreNo, ∃ x : Context, ∃ k : CtxCore, ∃ y : CoreState, ∃ op : VecOp, ∃ f : VecF, Runs s c x k ∧ Accepts s c .v (.vec op f) y ∧ y.posts = [] ∧ vecLegal op f = true ∧ awaits (core s c) (vecReads op f) = false ∧ awaits (core s c) (vecWrites op f) = false) ∧
  (∃ s : State, ∃ c : CoreNo, ∃ x : Context, ∃ k : CtxCore, ∃ y : CoreState, ∃ f : VMemF, Runs s c x k ∧ Accepts s c .v (.vld f) y ∧ y.posts = [] ∧ vmemLegal x f = true ∧ awaits (core s c) (regSpan f.dst.val (f.span.val + 1)) = false) ∧
  (∃ s : State, ∃ c : CoreNo, ∃ x : Context, ∃ k : CtxCore, ∃ y : CoreState, ∃ f : VMemF, Runs s c x k ∧ Accepts s c .v (.vst f) y ∧ y.posts = [] ∧ vmemLegal x f = true ∧ awaits (core s c) (regSpan f.dst.val (f.span.val + 1)) = false) ∧
  (∃ s : State, ∃ c : CoreNo, (core s c).posts = []) := by
  refine ⟨⟨wRun { wY with vQ := [.vec .fma wVec], vIssued := 1 }, 0, wCtx, wCore, { wY with vIssued := 1, vStarted := 1 }, .fma, wVec, by (try unfold Runs); (try unfold Accepts); decide +kernel⟩,
     ⟨wRun { wY with vQ := [.vld wVmem], vIssued := 1 }, 0, wCtx, wCore, { wY with vIssued := 1, vStarted := 1 }, wVmem, by (try unfold Runs); (try unfold Accepts); decide +kernel⟩,
     ⟨wRun { wY with vQ := [.vst wVmem], vIssued := 1 }, 0, wCtx, wCore, { wY with vIssued := 1, vStarted := 1 }, wVmem, by (try unfold Runs); (try unfold Accepts); decide +kernel⟩,
     ⟨wUp, 63, ?_⟩⟩ <;> decide +kernel

/-- What `Obligations.ConversionKeepsWhatTheFormatHolds` assumes is met. -/
theorem wit_ConversionKeepsWhatTheFormatHolds :
  (∃ l : Nat, ∃ a : Nat, l < 3 ∧ a < 2 ^ laneBits l ∧ ((laneFmt l).decode a).isNan = false) ∧
  (∃ l : Nat, ∃ a : Nat, l < 3 ∧ a < 2 ^ laneBits l ∧ ((laneFmt l).decode a).isNan = false) ∧
  (∃ a : Nat, a < 2 ^ 16 ∧ (fBF16.decode a).isNan = false) := by
  refine ⟨⟨0, 0x7F80_0000, ?_⟩,
     ⟨2, 0x7C00, ?_⟩,
     ⟨0x7F80, ?_⟩⟩ <;> decide +kernel

/-- What `Obligations.VectorNaNsAreCanonical` assumes is met. -/
theorem wit_VectorNaNsAreCanonical :
  (∃ op : VecOp, ∃ l : Nat, ∃ a : Nat, ∃ b : Nat, ∃ c : Nat, l < 3 ∧ a < 2 ^ laneBits l ∧ b < 2 ^ laneBits l ∧ c < 2 ^ laneBits l ∧ ((op = .add ∨ op = .sub ∨ op = .mul ∨ op = .fma ∨ op = .min ∨ op = .max ∨ op = .abs ∨ op = .neg ∨ (isTrans op = true ∧ l = 0))) ∧ ((laneFmt l).decode (elemOp op l a b c).bits).isNan = true ∧ ((laneFmt l).decode (elemOp op l a b c).bits).isNan = true) ∧
  (∃ op : VecOp, ∃ l : Nat, ∃ a : Nat, ∃ b : Nat, ∃ c : Nat, l < 3 ∧ (((op = .fma ∧ (((laneFmt l).decode a).isNan || ((laneFmt l).decode b).isNan || ((laneFmt l).decode c).isNan) = true) ∨ ((op = .add ∨ op = .sub ∨ op = .mul ∨ op = .min ∨ op = .max) ∧ (((laneFmt l).decode a).isNan || ((laneFmt l).decode b).isNan) = true) ∨ ((op = .abs ∨ op = .neg ∨ (isTrans op = true ∧ l = 0)) ∧ ((laneFmt l).decode a).isNan = true)))) ∧
  (∃ op : VecOp, ∃ l : Nat, ∃ a : Nat, ∃ b : Nat, ∃ c : Nat, l < 3 ∧ (((op = .fma ∧ (((laneFmt l).decode a).isNan || ((laneFmt l).decode b).isNan || ((laneFmt l).decode c).isNan) = true) ∨ ((op = .add ∨ op = .sub ∨ op = .mul ∨ op = .min ∨ op = .max) ∧ (((laneFmt l).decode a).isNan || ((laneFmt l).decode b).isNan) = true) ∨ ((op = .abs ∨ op = .neg ∨ (isTrans op = true ∧ l = 0)) ∧ ((laneFmt l).decode a).isNan = true)))) ∧
  (∃ op : VecOp, ∃ l : Nat, ∃ a : Nat, ∃ b : Nat, ∃ c : Nat, l < 3 ∧ (((op = .fma ∧ (((laneFmt l).decode a).isNan || ((laneFmt l).decode b).isNan || ((laneFmt l).decode c).isNan) = true) ∨ ((op = .add ∨ op = .sub ∨ op = .mul ∨ op = .min ∨ op = .max) ∧ (((laneFmt l).decode a).isNan || ((laneFmt l).decode b).isNan) = true) ∨ ((op = .abs ∨ op = .neg ∨ (isTrans op = true ∧ l = 0)) ∧ ((laneFmt l).decode a).isNan = true)))) := by
  refine ⟨⟨.min, 2, 0x7E00, 0xFFFF, 0, ?_⟩,
     ⟨.fma, 0, 0, 0, 0x7F80_0001, ?_⟩,
     ⟨.tanh, 0, 0x7F80_0001, 0, 0, ?_⟩,
     ⟨.max, 1, 0, 0x7F81, 0, ?_⟩⟩ <;> decide +kernel

/-- A move of 32 bytes within core 0, from offset 0 to offset 64. -/
def wMove (left : Bool) : MoveRec :=
  { id := 5, kind := 0, src := coreBase 0, dst := [coreBase 0 + 64], dstCores := [0], len := 32, srcCtr := some 0,
    dstCtr := some 1, flagged := false, chan := 0xFFF, bounds := false, left := left, data := List.replicate 32 0x5A,
    poison := [], storePoison := false, no := 0, fromA := false, stored := false, open_ := 0, bad := .ok }

/-- What `Obligations.MovesIssueLeaveAndComplete` assumes is met. -/
theorem wit_MovesIssueLeaveAndComplete :
  (∃ s : State, ∃ c : CoreNo, ∃ x : Context, ∃ k : CtxCore, ∃ y : CoreState, ∃ i : BitVec 16, ∃ d : MoveDesc, Runs s c x k ∧ Accepts s c .m (.move i) y ∧ i.toNat < k.moveCount ∧ d = moveDescAt s k i.toNat ∧ argPoisoned s k d false = false ∧ movePlace s x k d false = none) ∧
  (∃ s : State, ∃ c : CoreNo, ∃ x : Context, ∃ k : CtxCore, ∃ y : CoreState, ∃ i : BitVec 16, ∃ d : MoveDesc, Runs s c x k ∧ Accepts s c .m (.move i) y ∧ i.toNat < k.moveCount ∧ d = moveDescAt s k i.toNat ∧ argPoisoned s k d false = false ∧ d.kind ≤ 4 ∧ movePlace s x k d false = some (coreBase 0, [coreBase 0], [0])) ∧
  (∃ s : State, ∃ c : CoreNo, ∃ x : Context, ∃ k : CtxCore, ∃ m : MoveRec, ∃ id : Nat, Runs s c x k ∧ findMove? s c id = some m ∧ m.kind ≤ 3 ∧ m.bounds = false ∧ m.left = false ∧ m.fromA = false ∧ poisonUnits s m.src m.len = [] ∧ ((∀ l, linkOut m.kind = some l → ahead (core s c) l id = false)) ∧ ((∀ n, m.srcCtr = some n → counter k n < 65535))) ∧
  (∃ s : State, ∃ c : CoreNo, ∃ x : Context, ∃ k : CtxCore, ∃ q : CtxCore, ∃ m : MoveRec, ∃ id : Nat, ∃ b : Nat, ∃ d : Nat, Runs s c x k ∧ (core s c).posts = [] ∧ findMove? s c id = some m ∧ m.kind ≤ 3 ∧ m.bounds = false ∧ m.left = true ∧ m.bad = .ok ∧ m.open_ = 0 ∧ m.stored = false ∧ behindOther (core s c) c m = false ∧ m.poison = [] ∧ m.dst = [b] ∧ m.dstCores = [d] ∧ ctxCore? x d = some q ∧ ((∀ n, m.dstCtr = some n → counter q n < 65535)) ∧ ((∀ i, i < m.data.length → poisonedAt s (b + i) = false))) := by
  refine ⟨⟨wRun { wY with mQ := [.move 0], mIssued := 1 }, 0, wCtx, wCore, { wY with mIssued := 1, mStarted := 1 }, 0, moveDescAt (wRun { wY with mQ := [.move 0], mIssued := 1 }) wCore 0, by (try unfold Runs); (try unfold Accepts); decide +kernel⟩,
     ⟨{ wRun { wY with mQ := [.move 0], mIssued := 1 } with mem := [(coreBase 0 + 0x10_0020, 0x20)] }, 0, wCtx, wCore, { wY with mIssued := 1, mStarted := 1 }, 0, moveDescAt ({ wRun { wY with mQ := [.move 0], mIssued := 1 } with mem := [(coreBase 0 + 0x10_0020, 0x20)] }) wCore 0, by (try unfold Runs); (try unfold Accepts); decide +kernel⟩,
     ⟨wRun { wY with moves := [wMove false] }, 0, wCtx, wCore, wMove false, 5, by unfold Runs; refine ⟨by decide +kernel, by decide +kernel, by decide +kernel, by decide +kernel, by decide +kernel, by decide +kernel, by decide +kernel, fun l h => (by cases h), fun n h => ?_⟩; cases h; decide +kernel⟩,
     ⟨wRun { wY with moves := [wMove true] }, 0, wCtx, wCore, wCore, wMove true, 5, coreBase 0 + 64, 0, by
      unfold Runs
      refine ⟨by decide +kernel, by decide +kernel, by decide +kernel, by decide +kernel, by decide +kernel, by decide +kernel, by decide +kernel,
        by decide +kernel, by decide +kernel, by decide +kernel, by decide +kernel, by decide +kernel, by decide +kernel, by decide +kernel, fun n h => ?_, by decide +kernel⟩
      cases h; decide +kernel⟩⟩ <;> decide +kernel

/-- A run of that context, in its only phase. -/
def wGo : Machine.Run :=
  { d := { qp := 0, seq := 0, fn := 0, tag := 1, cq := 0, argDpa := 0, argLen := 0, granted := 0 }, phase := 0, prev := 0,
    granted := true, readyTick := 0, hold := false, phases := 0, visits := [(0, 1)], tStart := 0, closedCores := [],
    siteFault := [], tokens := [], tokenFault := false, selector := 0, reports := [], complete := [], faults := [],
    outcome := none, abortReq := false, aborting := none }

/-- The same context with a second phase, to which the first jumps. -/
def wCtx2 : Context :=
  { wCtx with phases := [{ sched := 0, ending := 1, hold := true, selector := 0, visits := 1, target := 1 },
                         { sched := 0, ending := 0, hold := false, selector := 0, visits := 1, target := 0 }] }

/-- The state of a run of a context on core 0. -/
def wRunning (x : Context) (r : Machine.Run) (y : CoreState) : State := { wRun y with contexts := [{ x with run := some r }] }

/-- That context on sites 0 and 15, with a barrier channel from site 0 to site 15. -/
def wCtxB : Context := { wCtx with sites := [0, 15], scheds := [[{ barrier := true, src := 0, chan := 0, dst := 2 }]] }

/-- The barrier token of site 0 on that channel, sent. -/
def wTok15 : Transfer :=
  { id := 3, core := 0, move := none, handle := 0x40, hdr := barrierHdr 0x40 0 true 7, data := [], poison := [], sites := [15],
    dsts := [15], sent := true, upTo := 3, near := false, req := none }

/-- Site 15's ring on it, settled. -/
def wRing : Ring :=
  { lambda := 0, handle := some 0x40, settled := true, failed := false, since := 0, good := 0, replacement := false, part := 1, coupler := 0,
    sel := 0, heater := 0 }

/-- The module with the token on its way. -/
def wBar : State :=
  putSite (putSite (wRunning wCtxB wGo wY) 0 { SiteState.reset with txQ := [(0, [wTok15])] }) 15
    { SiteState.reset with rings := [(0, wRing)] }

/-- The report of site 0 that completes its barrier. -/
def wSiteRep : SiteReport := { site := 0, faultBit := false, selector := 0, stamp := 0 }

/-- What `Obligations.PhasesCloseThroughBarriers` assumes is met. -/
theorem wit_PhasesCloseThroughBarriers :
  (∃ s : State, ∃ c : CoreNo, ∃ ts : List Nat, ts = (core s c).parityTimes.filter (fun t => s.time.now < t + 1000000000) ∧ ts.length < 16) ∧
  (∃ s : State, ∃ c : CoreNo, ∃ ts : List Nat, ts = (core s c).parityTimes.filter (fun t => s.time.now < t + 1000000000) ∧ 16 ≤ ts.length) ∧
  (∃ s : State, ∃ c : CoreNo, ∃ x : Context, ∃ k : CtxCore, ∃ r : Run, Runs s c x k ∧ x.run = some r ∧ mayReport (core s c) = true) ∧
  (∃ s : State, ∃ c : CoreNo, mayReport (core s c) = false) ∧
  (∃ s : State, ∃ i : SiteNo, ∃ j : SiteNo, ∃ h : Nat, ∃ x : Context, ∃ r : Run, ∃ f : Bool, ∃ v : Word, ∃ n : Nat, ∃ tr : Transfer, ctx? s h = some x ∧ x.run = some r ∧ r.granted = true ∧ i.val ∈ x.sites ∧ j.val ∈ x.sites ∧ tokenThere? s x i j (barrierHdr h r.phase f v) = some (n, tr)) ∧
  (∃ s : State, ∃ h : Nat, ctx? s h = none) ∧
  (∃ s : State, ∃ i : SiteNo, ∃ h : Nat, ∃ x : Context, ∃ r : Run, ∃ q : SiteReport, ∃ p : Phase, ∃ k : CtxCore, ctx? s h = some x ∧ x.run = some r ∧ x.sites = [i.val] ∧ r.reports = [q] ∧ q.site = i ∧ q.faultBit = false ∧ r.complete = [] ∧ r.outcome = none ∧ r.aborting = none ∧ x.phases[r.phase]? = some p ∧ x.cores[p.selector]? = some k ∧ k.core / 4 = i ∧ nextPhase x p q.selector = none) ∧
  (∃ s : State, ∃ i : SiteNo, ∃ h : Nat, ∃ x : Context, ∃ r : Run, ∃ q : SiteReport, ∃ p : Phase, ∃ k : CtxCore, ctx? s h = some x ∧ x.run = some r ∧ x.sites = [i.val] ∧ r.reports = [q] ∧ q.site = i ∧ q.faultBit = false ∧ r.complete = [] ∧ r.outcome = none ∧ r.aborting = none ∧ x.phases[r.phase]? = some p ∧ x.cores[p.selector]? = some k ∧ k.core / 4 = i ∧ nextPhase x p q.selector = some 1 ∧ tget 0 r.visits 1 < 1) ∧
  (∃ s : State, ∃ h : Nat, ∃ x : Context, ∃ r : Run, ∃ st : Nat, ctx? s h = some x ∧ x.run = some r ∧ r.aborting = some st) ∧
  (∃ s : State, ∃ h : Nat, ∃ x : Context, ctx? s h = some x ∧ x.run.bind (·.aborting) = none) := by
  refine ⟨⟨wRun wY, 0, [], ?_⟩,
     ⟨wRun { wY with parityTimes := List.replicate 16 0 }, 0, List.replicate 16 0, ?_⟩,
     ⟨wRunning wCtx wGo { wY with closed := true }, 0, { wCtx with run := some wGo }, wCore, wGo, by (try unfold Runs); decide +kernel⟩,
     ⟨wUp, 0, ?_⟩,
     ⟨wBar, 0, 15, 0x40, { wCtxB with run := some wGo }, wGo, true, 7, 0, wTok15, ?_⟩,
     ⟨wUp, 0x40, ?_⟩,
     ⟨wRunning wCtx {wGo with reports := [wSiteRep]} wY, 0, 0x40, { wCtx with run := some {wGo with reports := [wSiteRep]} }, {wGo with reports := [wSiteRep]}, wSiteRep, { sched := 0, ending := 0, hold := false, selector := 0, visits := 1, target := 0 }, wCore, ?_⟩,
     ⟨wRunning wCtx2 {wGo with reports := [wSiteRep]} wY, 0, 0x40, { wCtx2 with run := some {wGo with reports := [wSiteRep]} }, {wGo with reports := [wSiteRep]}, wSiteRep, { sched := 0, ending := 1, hold := true, selector := 0, visits := 1, target := 1 }, wCore, ?_⟩,
     ⟨wRunning wCtx {wGo with aborting := some 4} wY, 0x40, { wCtx with run := some {wGo with aborting := some 4} }, {wGo with aborting := some 4}, 4, ?_⟩,
     ⟨wRunning wCtx wGo wY, 0x40, { wCtx with run := some wGo }, ?_⟩⟩ <;> decide +kernel

/-- A request of 32 bytes that arrived over Outlet 1 and ends here, at near-tier address A of site 1. -/
def wReq (a : Nat) : Packet :=
  { blankPacket 0x01 with hop := 2, rlen := 2, key := 7, tag := 9, route := 0x11, dst := 0x123, src := 0x124, len := 1, dpa := a,
                          aop := 1, op0 := 3, data := List.replicate 32 0xA5 }

/-- Outlet 1 serves, the module is 0x123, and key 7 is open both ways. -/
def wFab : State :=
  wRegs wUp [(Reg.linkStat 1, 2), (Reg.linkPartner 1, 2 ^ 31), (Reg.fabricCoord, 2 ^ 31 + 0x123), (Reg.basinKey 1 0, 0xFFFF_0007)]

/-- A move waiting for one answer, its request and the request's record. -/
def wAsk : MoveRec := { wMove false with kind := 7, open_ := 1, src := 2 ^ 36, data := List.replicate 32 0 }
def wOpen : OpenReq :=
  { issuer := .move 0 5, dst := 1, outlet := none, stamp := 0, fn := 0, qp := 0, core := 0, addr := 2 ^ 36, cached := false,
    seq := 3, fail := 0, retry := false, paid := false, p := { blankPacket 0x01 with tag := 9, len := 1, dpa := 2 ^ 36, dst := 0x123 } }
def wAsks : State :=
  { wRun { wY with moves := [wAsk] } with sites := [(0, { SiteState.reset with outstanding := [wOpen] })] }

/-- Sites 0, 1 and 15 accept the key of memory that no partition owns. -/
def wKeys : State := wRegs wUp [(Reg.basinKey 0 0, 0x8007_0000), (Reg.basinKey 1 0, 0x8007_0000), (Reg.basinKey 15 0, 0x8007_0000)]

/-- A write of 32 bytes held at site 1 for site 15. -/
def wHeld : HeldWrite :=
  { addr := 2 ^ 36, data := List.replicate 32 0xA5, poison := [], waiting := [(2 ^ 20, 15)], reply := none, issuer := .transit }

/-- What `Obligations.RequestsAreServedAndAnswered` assumes is met. -/
theorem wit_RequestsAreServedAndAnswered :
  (∃ s : State, ∃ o : Fin 16, linkServes s o = false) ∧
  (∃ s : State, ∃ o : Fin 16, ∃ p : Packet, ∃ ecc : EccList, linkServes s o = true ∧ p.key ≠ 0 ∧ keyOk s o p.key dirOutlet = true ∧ keyOk s o p.key dirEgress = true ∧ auxOutlet o = false ∧ 0 < p.hop ∧ p.hop = p.rlen ∧ p.dst = ownCoord s ∧ ownerSite p.dpa = o ∧ stackRefuses s o = false ∧ stackHeld s o = false ∧ (rxTake? (link s o) (recordHop o { p with type := 0x01 })).isSome = true ∧ requestFormed (recordHop o { p with type := 0x01 }) = true ∧ p.dpa + 32 * p.len ≤ farBase ∧ poisonUnits (decodeRange s ecc p.dpa (32 * p.len)) p.dpa (32 * p.len) = []) ∧
  (∃ s : State, ∃ o : Fin 16, ∃ p : Packet, linkServes s o = true ∧ requestFormed (recordHop o { p with type := 0x02 }) = true ∧ p.dpa + 32 * p.len ≤ farBase ∧ ((∀ i, i < 32 * p.len → poisonedAt s (p.dpa + i) = false)) ∧ sharersOf s p.dpa (32 * p.len) = []) ∧
  (∃ s : State, ∃ o : Fin 16, ∃ p : Packet, linkServes s o = true ∧ requestFormed (recordHop o { p with type := 0x03 }) = true ∧ atomicWidth p / 8 = 4 ∧ poisonUnits s p.dpa 4 = [] ∧ sharersOf s p.dpa 4 = []) := by
  refine ⟨⟨wUp, 1, ?_⟩,
     ⟨wFab, 1, wReq (2 ^ 37 - 32), [], ?_⟩,
     ⟨wFab, 1, wReq (2 ^ 36), ?_⟩,
     ⟨wFab, 1, wReq (2 ^ 36), ?_⟩⟩ <;> decide +kernel

/-- What `Obligations.RepliesCompleteRequests` assumes is met. -/
theorem wit_RepliesCompleteRequests :
  (∃ s : State, ∃ i : SiteNo, ∃ p : Packet, ∃ q : OpenReq, ∃ m : MoveRec, ∃ c : Nat, ∃ id : Nat, ∃ T : Nat, ∃ e : Instr, (((T = 0x10 ∧ e = .readData (.own i) p) ∨ (T = 0x11 ∧ e = .writeAck (.own i) p) ∨ (T = 0x12 ∧ e = .atomicResult (.own i) p) ∨ (T = 0x13 ∧ e = .refusal (.own i) p))) ∧ p.hop = 0 ∧ (site s i).outstanding.find? (fun r => r.p.tag == p.tag) = some q ∧ q.issuer = .move c id ∧ attachedTo (site s i) q.p = [] ∧ findMove? s c id = some m) ∧
  (∃ s : State, ∃ i : SiteNo, ∃ p : Packet, ∃ q : OpenReq, ∃ m : MoveRec, ∃ c : Nat, ∃ id : Nat, ∃ T : Nat, ∃ e : Instr, (((T = 0x10 ∧ e = .readData (.own i) p) ∨ (T = 0x11 ∧ e = .writeAck (.own i) p) ∨ (T = 0x12 ∧ e = .atomicResult (.own i) p) ∨ (T = 0x13 ∧ e = .refusal (.own i) p))) ∧ p.hop = 0 ∧ (site s i).outstanding.find? (fun r => r.p.tag == p.tag) = some q ∧ q.issuer = .move c id ∧ attachedTo (site s i) q.p = [] ∧ findMove? s c id = some m) ∧
  (∃ s : State, ∃ i : SiteNo, ∃ p : Packet, ∃ e : Instr, ((e = .readData (.own i) p ∨ e = .writeAck (.own i) p ∨ e = .atomicResult (.own i) p ∨ e = .refusal (.own i) p)) ∧ p.hop = 0 ∧ ((∀ r ∈ (site s i).outstanding, r.p.tag ≠ p.tag))) ∧
  (∃ s : State, ∃ h : SiteNo, ∃ region : Nat, keyOk s h (regionKey s region) dirBasin = true) ∧
  (∃ s : State, ∃ h : SiteNo, ∃ region : Nat, keyOk s h (regionKey s region) dirBasin = false) ∧
  (∃ s : State, ∃ o : SiteNo, ∃ region : Nat, keyOk s o (regionKey s region) dirBasin = true ∧ ((∀ i < 16, (site s i).heldWrites = []))) ∧
  (∃ s : State, ∃ o : SiteNo, ∃ h : SiteNo, ∃ region : Nat, ∃ w : HeldWrite, keyOk s o (regionKey s region) dirBasin = true ∧ (site s o).heldWrites = [w] ∧ ((∀ i < 16, i ≠ o.val → (site s i).heldWrites = [])) ∧ w.waiting = [(region, h.val)] ∧ w.reply = none ∧ w.issuer = .transit ∧ w.poison = [] ∧ ((∀ i, i < w.data.length → poisonedAt s (w.addr + i) = false))) ∧
  (∃ p : Packet, ((p.key ≠ 0 ∨ ¬ (p.srcAgent = 0x41 ∨ p.srcAgent = 0x42)))) ∧
  (∃ s : State, ∃ i : SiteNo, ∃ p : Packet, p.key = 0 ∧ ((p.srcAgent = 0x41 ∨ p.srcAgent = 0x42)) ∧ p.rlen = 0 ∧ p.dst = ownCoord s ∧ p.dstSite = i) := by
  refine ⟨⟨wAsks, 0, { blankPacket 0x10 with tag := 9, len := 1, dpa := 2 ^ 36, data := List.replicate 32 0x77 }, wOpen, wAsk, 0, 5, 0x10, .readData (.own 0) { blankPacket 0x10 with tag := 9, len := 1, dpa := 2 ^ 36, data := List.replicate 32 0x77 }, by
      refine ⟨?_, by decide +kernel, by decide +kernel, by decide +kernel, by decide +kernel, by decide +kernel⟩
      simp⟩,
     ⟨wAsks, 0, { blankPacket 0x10 with tag := 9, len := 1, dpa := 2 ^ 36, data := List.replicate 32 0x77 }, wOpen, wAsk, 0, 5, 0x13, .refusal (.own 0) { blankPacket 0x10 with tag := 9, len := 1, dpa := 2 ^ 36, data := List.replicate 32 0x77 }, by
      refine ⟨?_, by decide +kernel, by decide +kernel, by decide +kernel, by decide +kernel, by decide +kernel⟩
      simp⟩,
     ⟨wUp, 15, blankPacket 0x11, .writeAck (.own 15) (blankPacket 0x11), ⟨by simp, ?_, ?_⟩⟩,
     ⟨wKeys, 1, 3, ?_⟩,
     ⟨wUp, 1, 3, ?_⟩,
     ⟨{ wKeys with sites := [(0, { SiteState.reset with sharers := [(3, 0x8002)] })] }, 0, 3, ?_⟩,
     ⟨{ wKeys with sites := [(1, { SiteState.reset with heldWrites := [wHeld], sharers := [(2 ^ 20, 0x8000)] })] }, 1, 15, 2 ^ 20, wHeld, ?_⟩,
     ⟨{ blankPacket 0x23 with key := 1 }, ?_⟩,
     ⟨wRegs wUp [(Reg.fabricCoord, 2 ^ 31 + 0x123)], 15, { blankPacket 0x23 with srcAgent := 0x42, dst := 0x123, dstSite := 15 }, ?_⟩⟩ <;> decide +kernel

/-- A flagged store of core 0 to its own site's Outlet, waiting. -/
def wStore (fail : Nat) : OpenReq :=
  { wOpen with
    dst := 0, outlet := none, seq := 4, fail := fail, addr := farBase
    p := { blankPacket 0x02 with
           tag := 9, key := 7, len := 1, route := 0, dst := 0x123, flagged := true, data := List.replicate 32 0xA5 } }
def wFlag (fail : Nat) : State :=
  { wRegs (wRun { wY with moves := [{ wAsk with kind := 10 }] }) [(Reg.fabricCoord, 2 ^ 31 + 0x123), (Reg.basinKey 0 0, 0xFFFF_0007)] with
      sites := [(0, { SiteState.reset with flagged := [wStore fail] })],
      parts := [(0, { Partition.reset with mode := .opened, cores := 1, keys := [{ key := 7, egress := 1, inBasin := 1, inOutlet := 1 }] })] }

/-- What `Obligations.RefreshScrubAndFlaggedStores` assumes is met. -/
theorem wit_RefreshScrubAndFlaggedStores :
  (∃ s : State, ∃ i : SiteNo, ∃ b : Nat, ∃ up : Bool, regBit s (Reg.memCfg i) 3 = false ∧ b < Config.hbmBanks ∧ up = (decide (refreshRate (tget 0 (site s i).bankBand b) ≤ refreshRate (site s i).wantBand) || (List.range Config.hbmBanks).all fun j => tget false (site s i).refreshed j)) ∧
  (∃ s : State, ∃ i : SiteNo, ∃ b : Nat, ((regBit s (Reg.memCfg i) 3 = true ∨ Config.hbmBanks ≤ b))) ∧
  (∃ s : State, ∃ i : SiteNo, ∃ b : Nat, ((regBit s (Reg.memCfg i) 3 = true ∨ Config.hbmBanks ≤ b))) ∧
  (∃ b : Nat, b < Config.hbmBanks) ∧
  (∃ s : State, ∃ i : SiteNo, ∃ n : Nat, regBit s (Reg.memCfg i) 4 = true ∧ regBit s (Reg.memCfg i) 3 = false ∧ n < 2 ^ 30 ∧ pageWritten s (i * 2 ^ 36 + 64 * n) = true ∧ poisonedAt s (i * 2 ^ 36 + 64 * n) = false) ∧
  (∃ s : State, ∃ i : SiteNo, ∃ n : Nat, pageWritten s (i * 2 ^ 36 + 64 * n) = false) ∧
  (∃ s : State, ∃ i : SiteNo, ∃ g : Nat, ∃ r : OpenReq, (site s i).flagged.find? (fun r => r.p.tag == g) = some r ∧ earlierStore s i r = true) ∧
  (∃ s : State, ∃ i : SiteNo, ∃ g : Nat, ∃ r : OpenReq, (site s i).flagged.find? (fun r => r.p.tag == g) = some r ∧ earlierStore s i r = false ∧ r.fail ≠ 0 ∧ r.issuer = .move 0 5 ∧ findMove? s 0 5 = some { wAsk with kind := 10 }) ∧
  (∃ s : State, ∃ i : SiteNo, ∃ g : Nat, ∃ r : OpenReq, (site s i).flagged.find? (fun r => r.p.tag == g) = some r ∧ earlierStore s i r = false ∧ r.fail = 0 ∧ r.issuer = .move 0 5 ∧ r.p.type = 0x02 ∧ r.dst = i ∧ roomFor (site s i) = true ∧ checkReq s i (partOfCore s r.core) r = 0) := by
  refine ⟨⟨wUp, 15, 0, _, ⟨?_, Nat.succ_pos _, rfl⟩⟩,
     ⟨wRegs wUp [(Reg.memCfg 15, 8)], 15, 0, Or.inl (by decide +kernel)⟩,
     ⟨wUp, 15, Config.hbmBanks, Or.inr (Nat.le_refl _)⟩,
     ⟨0, Nat.succ_pos _⟩,
     ⟨{ wRegs wUp [(Reg.memCfg 15, 16)] with written := [(2 ^ 28 - 1, true)] }, 15, 2 ^ 30 - 1, ?_⟩,
     ⟨wUp, 0, 0, ?_⟩,
     ⟨{ wFlag 0 with sites := [(0, { SiteState.reset with flagged := [wStore 0], outstanding := [{ wStore 0 with seq := 3 }] })] }, 0, 9, wStore 0, ?_⟩,
     ⟨wFlag 4, 0, 9, wStore 4, ?_⟩,
     ⟨wFlag 0, 0, 9, wStore 0, ?_⟩⟩ <;> decide +kernel

/-- Queue pair 0 with an accepted entry whose word 0 is given, and queue pair 1 as its completion queue. -/
def wEntry (w0 : Nat) : SqEntry :=
  { words := [BitVec.ofNat 64 w0, 77, 0x1000, 2 ^ 36, 8192, 0, 0, 0], seq := 3, stamp := 0, status := 0, cq := 1 }
def wSq (w0 : Nat) : State :=
  { wUp with
    bme := [(0, true)], contexts := [wCtx], parts := [(0, { Partition.reset with mode := .sealed })],
    qps := [(0, { QpState.reset with mode := 1, sqLog := 4, cqLog := 4, head := 1, tail := 0, fetchPos := 15,
                                        accepted := [wEntry w0], open_ := [3] }),
            (1, { QpState.reset with mode := 1, sqLog := 4, cqLog := 4, cqBase := 2 ^ 40, cqTail := 15, channel := 31 })] }

/-- A copy of two pages between host memory and the near tier, with so much moved, at the head of channel 31. -/
def wCopy (toHost : Bool) (moved : Nat) : CopyRec :=
  { qp := 0, seq := 3, fn := 0, cq := 1, tag := 77, toHost := toHost, host := 2 ^ 40, dpa := 2 ^ 36, len := 8192,
    moved := moved, tStart := none, crossing := false, refused := none, poison := false, bounds := false, held := 0, err := none, id := 9 }
/-- A resolved entry of queue pair 0 for the completion queue 1. -/
def wEnded : Ended := { seq := 3, cq := 1, cpl := Cpl.plain 77 0 0 }
def wDma (r : CopyRec) : State := { wUp with dma := [(31, { copies := [r], inRound := 0 })] }
/-- The same with slot 0 of the far window usable. -/
def wFar (r : CopyRec) : State :=
  { wDma r with far := [(0, { FarSlot.reset with valid := true, writable := true })] }

/-- What `Obligations.QueueEntriesAreFetchedAndCompleted` assumes is met. -/
theorem wit_QueueEntriesAreFetchedAndCompleted :
  (∃ s : State, ∃ n : QpNo, (qp s n).mode = 1 ∧ mayMaster s (qp s n).owner = true ∧ (qp s n).fetchPos ≠ (qp s n).tail) ∧
  (∃ s : State, ∃ n : QpNo, ∃ r : SqRead, (qp s n).mode = 1 ∧ mayMaster s (qp s n).owner = true ∧ (qp s n).fetchPos ≠ (qp s n).tail ∧ ((∀ ws, r ≠ .entry ws))) ∧
  (∃ s : State, ∃ n : QpNo, (((qp s n).mode ≠ 1 ∨ mayMaster s (qp s n).owner = false ∨ (qp s n).fetchPos = (qp s n).tail))) ∧
  (∃ s : State, ∃ n : QpNo, ∃ e : SqEntry, headOf s n 3 = some e) ∧
  (∃ s : State, ∃ n : QpNo, ∃ e : SqEntry, headOf s n 1 = some e ∧ contextFor s (qp s n).owner (eContext e) = true) ∧
  (∃ s : State, ∃ n : QpNo, ∃ e : SqEntry, headOf s n 1 = some e ∧ contextFor s (qp s n).owner (eContext e) = false) ∧
  (∃ s : State, ∃ n : QpNo, ∃ e : SqEntry, headOf s n 2 = some e) ∧
  (∃ s : State, ∃ n : QpNo, headOf s n 1 = none ∧ headOf s n 2 = none ∧ headOf s n 3 = none) ∧
  (∃ s : State, ∃ x : Ended, (qp s x.cq).mode ≠ 0 ∧ mayMaster s (qp s x.cq).owner = true) ∧
  (∃ s : State, ∃ x : Ended, (qp s x.cq).mode ≠ 0 ∧ mayMaster s (qp s x.cq).owner = false) ∧
  (∃ s : State, ∃ x : Ended, (qp s x.cq).mode = 0) ∧
  (∃ s : State, ∃ n : QpNo, ∃ a : Nat, (qp s n).oldest = some a ∧ (qp s n).mode ≠ 0 ∧ a + 1000 * (qp s n).coalTime < s.time.now) ∧
  (∃ s : State, ∃ n : QpNo, ∃ a : Nat, (qp s n).oldest = some a ∧ (qp s n).mode ≠ 0 ∧ s.time.now ≤ a + 1000 * (qp s n).coalTime) ∧
  (∃ s : State, ∃ n : QpNo, (((qp s n).oldest = none ∨ (qp s n).mode = 0))) ∧
  (∃ s : State, ∃ w : Notice, ∃ ws : List Notice, s.faults.notices = w :: ws ∧ w.tick < s.faults.nextTick ∧ weirServes s = true) ∧
  (∃ s : State, ∃ w : Notice, ∃ ws : List Notice, s.faults.notices = w :: ws ∧ ((s.faults.nextTick ≤ w.tick ∨ weirServes s = false))) ∧
  (∃ s : State, s.faults.notices = []) := by
  refine ⟨⟨wSq 3, 0, ?_⟩,
     ⟨wSq 3, 0, .cto, ⟨?_, ?_, ?_,  by simp⟩⟩,
     ⟨wSq 3, 2, ?_⟩,
     ⟨wSq 3, 0, wEntry 3, ?_⟩,
     ⟨wSq (0x40 * 2 ^ 48 + 1), 0, wEntry (0x40 * 2 ^ 48 + 1), ?_⟩,
     ⟨wSq (0x41 * 2 ^ 48 + 1), 0, wEntry (0x41 * 2 ^ 48 + 1), ?_⟩,
     ⟨wSq 2, 0, wEntry 2, ?_⟩,
     ⟨wUp, 0, ?_⟩,
     ⟨wSq 3, wEnded, ?_⟩,
     ⟨{ wSq 3 with bme := [] }, wEnded, ?_⟩,
     ⟨{ wSq 3 with qps := [] }, wEnded, ?_⟩,
     ⟨{ wUp with qps := [(0, { QpState.reset with mode := 2, coalTime := 1, oldest := some 0, unreported := 3 })], time := { TimeState.reset with now := 1001 } }, 0, 0, ?_⟩,
     ⟨{ wUp with qps := [(0, { QpState.reset with mode := 2, coalTime := 1, oldest := some 0, unreported := 3 })], time := { TimeState.reset with now := 1000 } }, 0, 0, ?_⟩,
     ⟨wUp, 31, ?_⟩,
     ⟨{ wUp with faults := { FaultState.reset with notices := [⟨0, 0, 4, [64, 0]⟩], nextTick := 1 } }, ⟨0, 0, 4, [64, 0]⟩, [], ?_⟩,
     ⟨{ wUp with faults := { FaultState.reset with notices := [⟨0, 0, 4, [64, 0]⟩], nextTick := 0 } }, ⟨0, 0, 4, [64, 0]⟩, [], ?_⟩,
     ⟨wUp, ?_⟩⟩ <;> decide +kernel

/-- What `Obligations.DmaBurstsMoveBytesAndHalt` assumes is met. -/
theorem wit_DmaBurstsMoveBytesAndHalt :
  (∃ s : State, ∃ ch : ChanNo, ∃ r : CopyRec, ∃ rs : List CopyRec, ∃ a : Nat, ∃ n : Nat, (dmaCh s ch).copies = r :: rs ∧ dmaRuns s ch = true ∧ (dmaTurn s ch r.toHost).1 = true ∧ r.moved < r.len ∧ r.bounds = false ∧ r.held = 0 ∧ r.err = none ∧ a = r.dpa + r.moved ∧ n = burstLen r ∧ ((a < farBase ∨ 0x400_0000_0000 ≤ a)) ∧ a < 0x402_8000_0000 ∧ burstRefused s a = false ∧ burstSleeps s a = false ∧ r.toHost = false ∧ sharersOf s a n = [] ∧ ((a % 64 = 0 ∧ n % 64 = 0 ∨ ∀ i, i < n → poisonedAt s (a + i) = false)) ∧ ((r.toHost = true ∨ sharersOf s a n = [])) ∧ r.moved + n < r.len) ∧
  (∃ s : State, ∃ ch : ChanNo, ∃ r : CopyRec, ∃ rs : List CopyRec, ∃ ls : EccList, ∃ ws : EccList, ∃ a : Nat, ∃ n : Nat, (dmaCh s ch).copies = r :: rs ∧ dmaRuns s ch = true ∧ (dmaTurn s ch r.toHost).1 = true ∧ r.moved < r.len ∧ r.bounds = false ∧ r.held = 0 ∧ r.err = none ∧ a = r.dpa + r.moved ∧ n = burstLen r ∧ ((a < farBase ∨ 0x400_0000_0000 ≤ a)) ∧ a < 0x402_8000_0000 ∧ burstRefused s a = false ∧ burstSleeps s a = false ∧ r.toHost = true ∧ ls = [] ∧ ws = [] ∧ poisonUnits s a n = [] ∧ r.moved + n = r.len) ∧
  (∃ s : State, ∃ ch : ChanNo, ∃ r : CopyRec, ∃ rs : List CopyRec, ∃ a : Nat, ∃ n : Nat, (dmaCh s ch).copies = r :: rs ∧ dmaRuns s ch = true ∧ (dmaTurn s ch r.toHost).1 = true ∧ r.moved < r.len ∧ r.bounds = false ∧ r.held = 0 ∧ r.err = none ∧ a = r.dpa + r.moved ∧ n = burstLen r ∧ ((a < farBase ∨ 0x400_0000_0000 ≤ a)) ∧ a < 0x402_8000_0000 ∧ burstRefused s a = false ∧ burstSleeps s a = false ∧ r.toHost = true ∧ poisonUnits s a n = [] ∧ r.moved + n < r.len) ∧
  (∃ s : State, ∃ ch : ChanNo, ∃ r : CopyRec, ∃ rs : List CopyRec, ∃ a : Nat, ∃ n : Nat, (dmaCh s ch).copies = r :: rs ∧ dmaRuns s ch = true ∧ (dmaTurn s ch r.toHost).1 = true ∧ r.moved < r.len ∧ r.bounds = false ∧ r.held = 0 ∧ r.err = none ∧ a = r.dpa + r.moved ∧ n = burstLen r ∧ ((a < farBase ∨ 0x400_0000_0000 ≤ a)) ∧ a < 0x402_8000_0000 ∧ burstRefused s a = false ∧ burstSleeps s a = false) ∧
  (∃ s : State, ∃ ch : ChanNo, ∃ r : CopyRec, ∃ rs : List CopyRec, ∃ a : Nat, ∃ n : Nat, (dmaCh s ch).copies = r :: rs ∧ dmaRuns s ch = true ∧ (dmaTurn s ch r.toHost).1 = true ∧ r.moved < r.len ∧ r.bounds = false ∧ r.held = 0 ∧ r.err = none ∧ a = r.dpa + r.moved ∧ n = burstLen r ∧ ((a < farBase ∨ 0x400_0000_0000 ≤ a)) ∧ a < 0x402_8000_0000 ∧ burstRefused s a = false ∧ burstSleeps s a = false) ∧
  (∃ s : State, ∃ ch : ChanNo, ∃ r : CopyRec, ∃ rs : List CopyRec, ∃ a : Nat, ∃ n : Nat, (dmaCh s ch).copies = r :: rs ∧ dmaRuns s ch = true ∧ (dmaTurn s ch r.toHost).1 = true ∧ r.moved < r.len ∧ r.bounds = false ∧ r.held = 0 ∧ r.err = none ∧ a = r.dpa + r.moved ∧ n = burstLen r ∧ ((a < farBase ∨ 0x400_0000_0000 ≤ a)) ∧ a < 0x402_8000_0000 ∧ burstRefused s a = false ∧ burstSleeps s a = false) ∧
  (∃ s : State, ∃ ch : ChanNo, ∃ r : CopyRec, ∃ rs : List CopyRec, ∃ a : Nat, ∃ n : Nat, (dmaCh s ch).copies = r :: rs ∧ dmaRuns s ch = true ∧ (dmaTurn s ch r.toHost).1 = true ∧ r.moved < r.len ∧ r.bounds = false ∧ r.held = 0 ∧ r.err = none ∧ a = r.dpa + r.moved ∧ n = burstLen r ∧ ((a < farBase ∨ 0x400_0000_0000 ≤ a)) ∧ a < 0x402_8000_0000 ∧ burstRefused s a = false ∧ burstSleeps s a = false ∧ r.toHost = false ∧ sharersOf s a n ≠ []) ∧
  (∃ s : State, ∃ ch : ChanNo, ∃ r : CopyRec, ∃ rs : List CopyRec, ∃ a : Nat, (dmaCh s ch).copies = r :: rs ∧ dmaRuns s ch = true ∧ (dmaTurn s ch r.toHost).1 = true ∧ r.moved < r.len ∧ r.bounds = false ∧ r.held = 0 ∧ r.err = none ∧ a = r.dpa + r.moved ∧ burstSleeps s a = false ∧ burstRefused s a = true ∧ r.moved + burstLen r < r.len) ∧
  (∃ s : State, ∃ ch : ChanNo, ∃ r : CopyRec, ∃ rs : List CopyRec, ∃ a : Nat, (dmaCh s ch).copies = r :: rs ∧ dmaRuns s ch = true ∧ (dmaTurn s ch r.toHost).1 = true ∧ r.moved < r.len ∧ r.bounds = false ∧ r.held = 0 ∧ r.err = none ∧ a = r.dpa + r.moved ∧ burstSleeps s a = false ∧ burstRefused s a = true ∧ r.moved + burstLen r = r.len) ∧
  (∃ s : State, ∃ ch : ChanNo, ∃ r : CopyRec, ∃ rs : List CopyRec, ∃ a : Nat, (dmaCh s ch).copies = r :: rs ∧ dmaRuns s ch = true ∧ (dmaTurn s ch r.toHost).1 = true ∧ r.moved < r.len ∧ r.bounds = false ∧ r.held = 0 ∧ r.err = none ∧ a = r.dpa + r.moved ∧ burstSleeps s a = false ∧ farBase ≤ a ∧ a < 0x400_0000_0000 ∧ farRange s r.fn a (burstLen r) (!r.toHost) = false) ∧
  (∃ s : State, ∃ ch : ChanNo, ∃ r : CopyRec, ∃ rs : List CopyRec, ∃ a : Nat, (dmaCh s ch).copies = r :: rs ∧ dmaRuns s ch = true ∧ (dmaTurn s ch r.toHost).1 = true ∧ r.moved < r.len ∧ r.bounds = false ∧ r.held = 0 ∧ r.err = none ∧ a = r.dpa + r.moved ∧ burstSleeps s a = false ∧ farRange s r.fn a (burstLen r) (!r.toHost) = true ∧ burstRefused s a = false ∧ hasCoord s = false ∧ r.moved + burstLen r < r.len) ∧
  (∃ s : State, ∃ ch : ChanNo, ∃ r : CopyRec, ∃ rs : List CopyRec, (dmaCh s ch).copies = r :: rs ∧ ((dmaRuns s ch = false ∨ (dmaTurn s ch r.toHost).1 = false ∨ r.moved = r.len ∨ r.bounds = true ∨ r.err.isSome = true ∨ burstSleeps s (r.dpa + r.moved) = true))) ∧
  (∃ s : State, ∃ ch : ChanNo, ∃ r : CopyRec, ∃ rs : List CopyRec, (dmaCh s ch).copies = r :: rs ∧ dmaRuns s ch = true ∧ r.moved ≠ r.len ∧ r.bounds = false ∧ r.err = none ∧ r.held = 0) ∧
  (∃ s : State, ∃ ch : ChanNo, ∃ r : CopyRec, ∃ rs : List CopyRec, (dmaCh s ch).copies = r :: rs ∧ dmaRuns s ch = true ∧ r.moved ≠ r.len ∧ r.bounds = false ∧ r.err = none ∧ r.held ≠ 0) ∧
  (∃ s : State, ∃ ch : ChanNo, ∃ r : CopyRec, ∃ rs : List CopyRec, (dmaCh s ch).copies = r :: rs ∧ dmaRuns s ch = true ∧ r.moved ≠ r.len ∧ r.bounds = false ∧ r.err = none) ∧
  (∃ s : State, ∃ ch : ChanNo, (((dmaCh s ch).copies = [] ∨ dmaRuns s ch = false))) ∧
  (∃ s : State, ∃ ch : ChanNo, ∃ r : CopyRec, ∃ rs : List CopyRec, (dmaCh s ch).copies = r :: rs ∧ ((r.moved = r.len ∨ r.bounds = true ∨ r.err.isSome = true))) ∧
  (∃ s : State, ∃ ch : ChanNo, (dmaCh s ch).copies = []) := by
  refine ⟨⟨wDma ({ wCopy false 0 with host := 2 ^ 40 + 4064 }), 31, { wCopy false 0 with host := 2 ^ 40 + 4064 }, [], 2 ^ 36, 32, ?_⟩,
     ⟨wDma (wCopy true 4096), 31, wCopy true 4096, [], [], [], 2 ^ 36 + 4096, 4096, ?_⟩,
     ⟨wDma ({ wCopy true 0 with host := 2 ^ 40 + 4064 }), 31, { wCopy true 0 with host := 2 ^ 40 + 4064 }, [], 2 ^ 36, 32, ?_⟩,
     ⟨wDma ({ wCopy false 0 with host := 2 ^ 40 + 4064 }), 31, { wCopy false 0 with host := 2 ^ 40 + 4064 }, [], 2 ^ 36, 32, ?_⟩,
     ⟨wDma ({ wCopy false 0 with len := 32 }), 31, { wCopy false 0 with len := 32 }, [], 2 ^ 36, 32, ?_⟩,
     ⟨wDma ({ wCopy false 0 with len := 32, dpa := 0x402_0000_0000 }), 31, { wCopy false 0 with len := 32, dpa := 0x402_0000_0000 }, [], 0x402_0000_0000, 32, ?_⟩,
     ⟨{ wDma ({ wCopy false 0 with host := 2 ^ 40 + 4064 }) with sites := [(1, { SiteState.reset with sharers := [(2 ^ 20, 1)] })] }, 31, { wCopy false 0 with host := 2 ^ 40 + 4064 }, [], 2 ^ 36, 32, ?_⟩,
     ⟨putCross (wDma ({ wCopy true 0 with host := 2 ^ 40 + 4064 })) .hostTile 0 { CrossState.reset with upper := { epoch := 0, refusing := true } }, 31, { wCopy true 0 with host := 2 ^ 40 + 4064 }, [], 2 ^ 36, ?_⟩,
     ⟨putCross (wDma ({ wCopy true 0 with len := 32 })) .hostTile 0 { CrossState.reset with upper := { epoch := 0, refusing := true } }, 31, { wCopy true 0 with len := 32 }, [], 2 ^ 36, ?_⟩,
     ⟨wDma ({ wCopy true 0 with host := 2 ^ 40 + 4064, dpa := farBase }), 31, { wCopy true 0 with host := 2 ^ 40 + 4064, dpa := farBase }, [], farBase, ?_⟩,
     ⟨wFar ({ wCopy true 0 with host := 2 ^ 40 + 4064, dpa := farBase }), 31, { wCopy true 0 with host := 2 ^ 40 + 4064, dpa := farBase }, [], farBase, ?_⟩,
     ⟨wRegs (wDma (wCopy true 0)) [(Reg.dmaCtl 31, 1)], 31, wCopy true 0, [], ?_⟩,
     ⟨wDma (wCopy true 4096), 31, wCopy true 4096, [], ?_⟩,
     ⟨wDma { wCopy true 4096 with held := 2 }, 31, { wCopy true 4096 with held := 2 }, [], ?_⟩,
     ⟨wRegs (wDma (wCopy true 4096)) [(Reg.dmaErrinfo 31, 2 ^ 31)], 31, wCopy true 4096, [], ?_⟩,
     ⟨wUp, 31, ?_⟩,
     ⟨wDma (wCopy true 8192), 31, wCopy true 8192, [], ?_⟩,
     ⟨wUp, 31, ?_⟩⟩ <;> decide +kernel

/-- A ring of site 0 on guide 9, for wavelength 0. -/
def wRing9 : Ring :=
  { lambda := 0, handle := some 0x40, settled := false, failed := false, since := 0, good := 5, replacement := false, part := 1,
    coupler := 0, sel := 0, heater := 0 }
def wRings (n : Nat) (r : Ring) : State := { wAt wUp n with sites := [(0, { SiteState.reset with rings := [(72, r)] })] }

/-- The header of a transfer to core 0 of context 1 at offset 96, posting two tokens to counter 31. -/
def wHdr : ChanHdr := { blankHdr 0 0x40 with context := 1, dstOff := 3, ctr := 31, ctrEn := true, amount := 2 }

/-- A transfer sent by core 4 to site 0. -/
def wTrans (h : ChanHdr) : Transfer :=
  { id := 7, core := 4, move := none, handle := 0x40, hdr := h, data := List.replicate 32 0xA5, poison := [], sites := [0], dsts := [0],
    sent := true, upTo := 3, near := false, req := none }

/-- The context running on core 0, and the transfer next on transmit index 32 of site 1, which site 0 receives for the context of handle h. -/
def wChan (u : Transfer) (h : Nat) (cores : Table CoreState) : State :=
  { wRun wY with
    cores := cores,
    sites := [(0, { SiteState.reset with rings := [(72, { wRing9 with settled := true, handle := some h })] }),
              (1, { SiteState.reset with txQ := [(32, [u])], txCount := [(32, 3)] })] }
def wRem : RemotePost := { dst := 0, ctr := 0, amount := 255, id := 7, via := 2, chan := 0, sent := true }
def wOn0 : Table CoreState := [(0, wY)]
def wNear : Transfer := { wTrans (blankHdr 0 0x40) with core := 0, move := some 5, near := true, hdr := { blankHdr 0 0x40 with dstLocal := 3 } }

/-- What `Obligations.BasinEventsTakeEffect` assumes is met. -/
theorem wit_BasinEventsTakeEffect :
  (∃ s : State, ∃ d : SiteNo, ∃ n : Fin 1024, ∃ r : Ring, tfind (site s d).rings n = some r ∧ ((r.settled = true ∨ r.failed = true))) ∧
  (∃ s : State, ∃ d : SiteNo, ∃ n : Fin 1024, ∃ r : Ring, tfind (site s d).rings n = some r ∧ r.settled = false ∧ r.failed = false ∧ r.replacement = false) ∧
  (∃ s : State, ∃ d : SiteNo, ∃ n : Fin 1024, tfind (site s d).rings n = none) ∧
  (∃ s : State, ∃ d : SiteNo, ∃ n : Fin 1024, ∃ r : Ring, tfind (site s d).rings n = some r ∧ r.settled = false ∧ r.failed = false ∧ r.replacement = false ∧ s.time.now < r.since + 4000) ∧
  (∃ s : State, ∃ d : SiteNo, ∃ n : Fin 1024, ∃ r : Ring, tfind (site s d).rings n = some r ∧ r.settled = false ∧ r.failed = false ∧ r.replacement = false ∧ r.since + 4000 ≤ s.time.now ∧ freeRing? s d (n / 8) = some 1) ∧
  (∃ s : State, ∃ d : SiteNo, ∃ n : Fin 1024, ∃ r : Ring, tfind (site s d).rings n = some r ∧ r.settled = false ∧ r.failed = false ∧ r.replacement = false ∧ r.since + 4000 ≤ s.time.now ∧ freeRing? s d (n / 8) = none) ∧
  (∃ s : State, ∃ d : SiteNo, ∃ n : Fin 1024, ∃ r : Ring, ∃ i : Nat, tfind (site s d).rings n = some r ∧ r.settled = false ∧ r.failed = false ∧ r.replacement = true ∧ i = n / 8 / 8 ∧ s.time.now < r.since + 4000) ∧
  (∃ s : State, ∃ d : SiteNo, ∃ n : Fin 1024, ∃ r : Ring, ∃ i : Nat, tfind (site s d).rings n = some r ∧ r.settled = false ∧ r.failed = false ∧ r.replacement = true ∧ i = n / 8 / 8 ∧ r.since + 4000 ≤ s.time.now) ∧
  (∃ s : State, ∃ i : SiteNo, ∃ ds : List (Nat × Nat × Nat), spareOk s i false (ds.map (·.1)) = true) ∧
  (∃ s : State, ∃ i : SiteNo, ∃ ds : List (Nat × Nat × Nat), spareOk s i false (ds.map (·.1)) = false ∧ spareOk s i true (ds.map (·.1)) = true) ∧
  (∃ s : State, ∃ i : SiteNo, ∃ idx : Nat, ∃ ds : List (Nat × Nat × Nat), spareOk s i false (ds.map (·.1)) = false ∧ spareOk s i true (ds.map (·.1)) = false ∧ openIndex idx = false) ∧
  (∃ s : State, ∃ d : SiteNo, ∃ g : Fin 128, ∃ l : Fin 32, ∃ e : Nat × Ring, (site s d).rings.find? (fun e => e.1 / 8 == g.val && e.2.lambda == l.val && !e.2.failed) = some e) ∧
  (∃ s : State, ∃ d : SiteNo, ∃ g : Fin 128, ∃ l : Fin 32, ∃ e : Nat × Ring, (site s d).rings.find? (fun e => e.1 / 8 == g.val && e.2.lambda == l.val && !e.2.failed) = some e) ∧
  (∃ s : State, ∃ d : SiteNo, ∃ g : Fin 128, ∃ l : Fin 32, (site s d).rings.find? (fun e => e.1 / 8 == g.val && e.2.lambda == l.val && !e.2.failed) = none) ∧
  (∃ s : State, ∃ d : SiteNo, ∃ g : Fin 128, ∃ l : Fin 32, ∃ u : Transfer, ∃ x : Context, ∃ k : CtxCore, ∃ a : Nat, chanTo s d g l u.hdr.context u.hdr.dstLocal = .core x k ∧ ctx? s x.handle = some x ∧ ctxCore? x k.core = some k ∧ nextTransfer? s (g / 8) (carried s g l) d = some u ∧ u.handle = x.handle ∧ u.near = false ∧ u.poison = [] ∧ a = regionAddr k (32 * u.hdr.dstOff) ∧ regionOk x (32 * u.hdr.dstOff) u.data.length = true ∧ ((∀ i, i < u.data.length → poisonedAt s (a + i) = false)) ∧ counter k u.hdr.ctr + u.hdr.amount ≤ 65535) ∧
  (∃ s : State, ∃ d : SiteNo, ∃ g : Fin 128, ∃ l : Fin 32, ∃ u : Transfer, ∃ x : Context, ∃ m : MoveRec, ∃ id : Nat, chanTo s d g l u.hdr.context u.hdr.dstLocal = .noCore ∧ ctx? s u.handle = some x ∧ nextTransfer? s (g / 8) (carried s g l) d = some u ∧ u.near = true ∧ u.poison = [] ∧ stackAsleep s d = false ∧ u.req = none ∧ u.move = some id ∧ findMove? s u.core id = some m ∧ sharersOf s (m.dst.headD 0) u.data.length = [] ∧ ((∀ i, i < u.data.length → poisonedAt s (m.dst.headD 0 + i) = false))) ∧
  (∃ s : State, ∃ d : SiteNo, ∃ g : Fin 128, ∃ l : Fin 32, ∃ u : Transfer, nextTransfer? s (g / 8) (carried s g l) d = some u ∧ u.near = true ∧ stackAsleep s d = true ∧ chanTo s d g l u.hdr.context u.hdr.dstLocal ≠ .mismatch) ∧
  (∃ s : State, ∃ d : SiteNo, ∃ g : Fin 128, ∃ l : Fin 32, ∃ u : Transfer, nextTransfer? s (g / 8) (carried s g l) d = some u ∧ u.near = false ∧ chanTo s d g l u.hdr.context u.hdr.dstLocal = .noCore) ∧
  (∃ s : State, ∃ d : SiteNo, ∃ g : Fin 128, ∃ l : Fin 32, ∃ h : ChanHdr, chanTo s d g l h.context h.dstLocal = .mismatch) ∧
  (∃ s : State, ∃ d : SiteNo, ∃ g : Fin 128, ∃ l : Fin 32, ∃ h : ChanHdr, chanTo s d g l h.context h.dstLocal = .nothing) ∧
  (∃ s : State, ∃ d : SiteNo, ∃ g : Fin 128, ∃ l : Fin 32, ∃ h : ChanHdr, ∃ bs : List Byte, chanTo s d g l h.context h.dstLocal ≠ .mismatch ∧ ((nextTransfer? s (g / 8) (carried s g l) d).filter fun t => t.hdr == h && t.data == bs) = none) ∧
  (∃ s : State, ∃ a : CoreNo, ∃ b : CoreNo, ∃ no : Fin 16, ∃ n : Fin 32, ∃ v : Fin 256, ∃ x : Context, ∃ k : CtxCore, ∃ p : RemotePost, Runs s b x k ∧ runCtx? s a = some x ∧ ctxNo x.handle = no ∧ nextPost? s a b = some p ∧ p.ctr = n ∧ p.amount = v ∧ counter k n + v ≤ 65535) ∧
  (∃ s : State, ∃ d : SiteNo, ∃ g : Fin 128, ∃ l : Fin 32, ∃ no : Fin 16, ∃ loc : Fin 4, ∃ n : Fin 32, ∃ v : Fin 256, ∃ u : Transfer, ∃ x : Context, ∃ k : CtxCore, chanTo s d g l no loc = .core x k ∧ ctx? s x.handle = some x ∧ ctxCore? x k.core = some k ∧ nextTransfer? s (g / 8) (carried s g l) d = some u ∧ u.handle = x.handle ∧ u.hdr = postHdr u.handle loc n v ∧ counter k n + v ≤ 65535) ∧
  (∃ s : State, ∃ a : CoreNo, ∃ b : CoreNo, nextPost? s a b = none) ∧
  (∃ s : State, ∃ d : SiteNo, ∃ g : Fin 128, ∃ l : Fin 32, ∃ no : Fin 16, ∃ loc : Fin 4, chanTo s d g l no loc = .mismatch) ∧
  (∃ i : SiteNo, ∃ j : SiteNo, i ≠ j) := by
  refine ⟨⟨wRings 3999 { wRing9 with settled := true }, 0, 72, { wRing9 with settled := true }, ?_⟩,
     ⟨wRings 3999 wRing9, 0, 72, wRing9, ?_⟩,
     ⟨wUp, 0, 72, ?_⟩,
     ⟨wRings 3999 wRing9, 0, 72, wRing9, ?_⟩,
     ⟨wRings 4000 wRing9, 0, 72, wRing9, ?_⟩,
     ⟨{ wAt wUp 4000 with sites := [(0, { SiteState.reset with rings := (List.range 8).map fun k => (72 + k, wRing9) })] }, 0, 72, wRing9, ?_⟩,
     ⟨wRings 3999 { wRing9 with replacement := true }, 0, 72, { wRing9 with replacement := true }, 1, ?_⟩,
     ⟨wRings 4000 { wRing9 with replacement := true }, 0, 72, { wRing9 with replacement := true }, 1, ?_⟩,
     ⟨wUp, 1, [(0, 1, 5)], ?_⟩,
     ⟨{ wUp with sites := [(1, { SiteState.reset with slot30 := some 3 })] }, 1, [(0, 1, 5)], ?_⟩,
     ⟨{ wUp with sites := [(1, { SiteState.reset with slot30 := some 3, slot31 := some 4 })] }, 1, 32, [(0, 1, 5)], ?_⟩,
     ⟨{ wRings 0 wRing9 with sites := [(0, { SiteState.reset with rings := [(72, wRing9)] }), (1, { SiteState.reset with txCount := [(32, 9)] })] }, 0, 9, 0, (72, wRing9), ?_⟩,
     ⟨wRings 0 wRing9, 0, 9, 0, (72, wRing9), ?_⟩,
     ⟨wUp, 0, 9, 0, ?_⟩,
     ⟨wChan (wTrans wHdr) 0x40 wOn0, 0, 9, 0, wTrans wHdr, wCtx, wCore, coreBase 0 + 96, ?_⟩,
     ⟨wChan wNear 0x40 [(0, { wY with moves := [{ wMove false with dst := [2 ^ 36 - 64] }] })], 0, 9, 0, wNear, wCtx, { wMove false with dst := [2 ^ 36 - 64] }, 5, ?_⟩,
     ⟨wRegs (wChan wNear 0x40 wOn0) [(Reg.memCfg 0, 8)], 0, 9, 0, wNear, ?_⟩,
     ⟨wChan { wNear with near := false } 0x40 wOn0, 0, 9, 0, { wNear with near := false }, ?_⟩,
     ⟨wChan (wTrans wHdr) 0x41 wOn0, 0, 9, 0, wHdr, ?_⟩,
     ⟨wUp, 0, 9, 0, wHdr, ?_⟩,
     ⟨wChan (wTrans wHdr) 0x40 wOn0, 0, 9, 0, wHdr, [1], ?_⟩,
     ⟨{ wRun wY with cores := [(0, wY), (4, { wY with remote := [wRem] })] }, 4, 0, 1, 0, 255, wCtx, wCore, wRem, by (try unfold Runs); decide +kernel⟩,
     ⟨wChan (wTrans (postHdr 0x40 0 0 255)) 0x40 [(0, wY), (4, { wY with remote := [wRem] })], 0, 9, 0, 1, 0, 0, 255, wTrans (postHdr 0x40 0 0 255), wCtx, wCore, ?_⟩,
     ⟨wUp, 0, 1, ?_⟩,
     ⟨wChan (wTrans wHdr) 0x41 wOn0, 0, 9, 0, 1, 0, ?_⟩,
     ⟨0, 15, ?_⟩⟩ <;> decide +kernel

/-- Springs 0 and 1 on the grid at positions 0 and 1. -/
def wLit : State :=
  wRegs wUp ([(Reg.springStat 0, 0x302), (Reg.springStat 1, 0x10_0300)] ++ (List.range 8).map fun n => (Reg.springStat (n + 2), 0xF0_0000))

/-- Spring 1 failed, its domain off; Spring 8 spare. -/
def wDark : State :=
  { wRegs wLit [(Reg.springStat 1, 0x10_0400), (Reg.powerDomain (domSpring 1), 0), (Reg.powerDomain (domSpring 8), 0)] with
    springs := [(1, { SpringState.reset with failed := true })] }

/-- A data frame. -/
def wLine : LineFrame := { seed := 7, seed2 := 9, type := 0, fseq := 65535, reserved := 0, payload := [] }

/-- What `Obligations.LightEventsTakeEffect` assumes is met. -/
theorem wit_LightEventsTakeEffect :
  (∃ s : State, ∃ i : SiteNo, ∃ n : Fin 1024, ∃ q : Ring, tfind (site s i).rings n = some q) ∧
  (∃ s : State, ∃ i : SiteNo, ∃ n : Fin 1024, tfind (site s i).rings n = none) ∧
  (∃ s : State, ∃ c : Fin 192, ((feeding? s (combPos c false)).isNone || (feeding? s (combPos c true)).isNone) = true) ∧
  (∃ s : State, ∃ c : Fin 192, (feeding? s (combPos c false)).isSome = true ∧ (feeding? s (combPos c true)).isSome = true) ∧
  (∃ s : State, weirServes s = false) ∧
  (∃ s : State, ∃ p : Nat, ∃ n : Nat, weirServes s = true ∧ (List.range 8).find? (fun p => positionLost s p && (positionResolved s p && (feeding? s (pairMate p)).isSome)) = some p ∧ spareSpring? s = some n) ∧
  (∃ s : State, weirServes s = true ∧ (((List.range 8).find? (fun p => positionLost s p && (positionResolved s p && (feeding? s (pairMate p)).isSome)) = none ∨ spareSpring? s = none))) ∧
  (∃ s : State, weirServes s = true ∧ (((List.range 8).find? (fun p => positionLost s p && (positionResolved s p && (feeding? s (pairMate p)).isSome)) = none ∨ spareSpring? s = none))) ∧
  (∃ s : State, ∃ o : OutletNo, ((linkStateOf s o = 5 ∨ regBit s (Reg.optStat o) 4 = true))) ∧
  (∃ s : State, ∃ o : OutletNo, linkStateOf s o ≠ 5 ∧ regBit s (Reg.optStat o) 4 = false) ∧
  (∃ s : State, ∃ f : LineFrame, ∃ wrong : List (Fin 16384), ∃ x : LineFindings, x = receiveLine (slotFrame f).1 (slotFrame f).2 wrong ∧ tfind (site s 0).rings 72 = some wRing9) ∧
  (∃ f : LineFrame, ∃ wrong : List (Fin 16384), ∃ x : LineFindings, x = receiveLine (slotFrame f).1 (slotFrame f).2 wrong) ∧
  (∃ s : State, ∃ o : OutletNo, weirServes s = true ∧ regBit s (Reg.optStat o) 2 = true ∧ ((∀ a, (link s o).lastReopen = some a → a + 1000000000 ≤ s.time.now))) ∧
  (∃ s : State, ∃ o : OutletNo, ∃ a : Nat, ((weirServes s = false ∨ regBit s (Reg.optStat o) 2 = false ∨ ((link s o).lastReopen = some a ∧ s.time.now < a + 1000000000)))) ∧
  (∃ s : State, ∃ o : OutletNo, ∃ a : Nat, ((weirServes s = false ∨ regBit s (Reg.optStat o) 2 = false ∨ ((link s o).lastReopen = some a ∧ s.time.now < a + 1000000000)))) := by
  refine ⟨⟨wRings 0 wRing9, 0, 72, wRing9, ?_⟩,
     ⟨wUp, 15, 1023, ?_⟩,
     ⟨wUp, 191, ?_⟩,
     ⟨wLit, 0, ?_⟩,
     ⟨State.reset, ?_⟩,
     ⟨wDark, 1, 8, ?_⟩,
     ⟨wUp, ?_⟩,
     ⟨wLit, ?_⟩,
     ⟨wRegs wUp [(Reg.linkStat 15, 5)], 15, ?_⟩,
     ⟨wUp, 15, ?_⟩,
     ⟨wRings 0 wRing9, wLine, [], receiveLine (slotFrame wLine).1 (slotFrame wLine).2 [], ⟨rfl, ?_⟩⟩,
     ⟨wLine, [], receiveLine (slotFrame wLine).1 (slotFrame wLine).2 [], rfl⟩,
     ⟨{ wRegs (wAt wUp 1000000000) [(Reg.optStat 15, 4)] with links := [(15, { LinkState.reset with lastReopen := some 0 })] }, 15, ⟨?_, ?_, fun a h => by cases h; decide +kernel⟩⟩,
     ⟨wUp, 0, 0, ?_⟩,
     ⟨{ wRegs (wAt wUp 999999999) [(Reg.optStat 15, 4)] with links := [(15, { LinkState.reset with lastReopen := some 0 })] }, 15, 0, ?_⟩⟩ <;> decide +kernel

/-- Site 0 with a die in a state of its sideband, its bundle trained. -/
def wDie (x : Abango) : State := { wRegs wUp [(Reg.abangoStat 0, 3)] with sites := [(0, { SiteState.reset with abango := x })] }
def wNego (n : Nego) : Abango := { Abango.reset with nego := n }

/-- A group of its lanes, and the die with it as group 31 down. -/
def wGroup (g : Group) : State := wDie { Abango.reset with groupsDn := [(31, g)] }

/-- A frame of a number, and a group whose last frame was 4095. -/
def wFrame (n : Fin 4096) : FrameCtl :=
  { seq := n, ack := 0, nak := false, type := 1, cmd := 0, lane := 0, dir := .down, atSeq := 0, reserved := 0 }
def wG95 : Group := { Group.reset with seq := 4095, frames := 9, acked := 4000, sent := 4000 }

/-- Capabilities of one sensor, and a report that fits them. -/
def wCaps (vMax : Nat) : CapsF :=
  { cls := 1, maker := 2, stepping := 3, verMin := 0x0100, verMax := vMax, powerMax := 100, sensors := 1, features := 7 }
def wReport (p : Nat) : ReportF := { temps := [0x0190], power := p, flags := 0, corePower := [] }

/-- A header with its CRC. -/
def wHead (type : Nat) (p : List Nat) : SbHead :=
  { type := BitVec.ofNat 8 type, len := BitVec.ofNat 8 p.length, seq := 0, reserved := 0, crc := BitVec.ofNat 16 (crc16 ([type, p.length, 0, 0] ++ p)) }
def wCom : Abango := { wNego .committed with caps := wCaps 0x0100, limit := 100 }

/-- A CRC is 16 bits wide. -/
theorem crc16_lt (bs : List Nat) : crc16 bs < 65536 := by
  have bit (c : Nat) : crc16Bit c < 65536 := by unfold crc16Bit; split <;> omega
  have rep (l : List Nat) : ∀ c, c < 65536 → l.foldl (fun c _ => crc16Bit c) c < 65536 := by
    induction l with
    | nil => exact fun _ h => h
    | cons _ l ih => exact fun c _ => ih _ (bit c)
  unfold crc16
  generalize h : 0xFFFF = c
  have hc : c < 65536 := by omega
  clear h
  generalize List.range 8 = r
  induction bs generalizing c with
  | nil => exact hc
  | cons b l ih =>
    have x : c ^^^ (b % 256 * 256) < 2 ^ 16 := Nat.xor_lt_two_pow (by omega) (by omega)
    rw [List.foldl_cons]
    exact ih _ (rep r _ (by omega))

/-- A LANES message with its length and CRC. -/
theorem wLanes_ok (bad : List (Fin 32 × Fin 68)) :
    sbFault ⟨0x13, 32, 0, 0, BitVec.ofNat 16 (crc16 ([0x13, 32, 0, 0] ++ lanesPayload 0 bad))⟩ sbLanes (lanesPayload 0 bad)
      true true = 0 := by
  have h : (BitVec.ofNat 16 (crc16 ([0x13, 32, 0, 0] ++ lanesPayload 0 bad))).toNat = crc16 ([0x13, 32, 0, 0] ++ lanesPayload 0 bad) := by
    rw [BitVec.toNat_ofNat, Nat.mod_eq_of_lt (crc16_lt _)]
  have l : (lanesPayload 0 bad).length = 32 := by simp [lanesPayload, lanesBytes]
  unfold sbFault
  rw [if_neg (by simpa using h), if_neg (by simp [sbKnown]), if_neg (by simp [sbLanes]), if_neg (by simp [l])]

/-- What `Obligations.AbangoFramesLanesAndVias` assumes is met. -/
theorem wit_AbangoFramesLanesAndVias :
  (∃ s : State, ∃ i : SiteNo, siteFailed s i = false ∧ domOn s (domPort i) = true) ∧
  (∃ s : State, ∃ i : SiteNo, siteFailed s i = false ∧ domOn s (domPort i) = true) ∧
  (∃ s : State, ∃ i : SiteNo, ((siteFailed s i = true ∨ domOn s (domPort i) = false))) ∧
  (∃ s : State, ∃ i : SiteNo, ∃ d : Dir, ∃ q : Fin 32, ∃ f : FrameCtl, ((regBit s (Reg.abangoStat i) 1 = false ∨ (groupOf s i d q).mode = 2 ∨ (d = .up ∧ f.type = 0 ∧ regBit s (Reg.abangoStat i) 4 = true) ∨ (d = .down ∧ 64 ≤ ((groupOf s i d q).sent + 4096 - (groupOf s i d q).acked) % 4096 ∧ f.seq.val = ((groupOf s i d q).sent + 1) % 4096)))) ∧
  (∃ s : State, ∃ i : SiteNo, ∃ d : Dir, ∃ q : Fin 32, ∃ f : FrameCtl, ((regBit s (Reg.abangoStat i) 1 = false ∨ (groupOf s i d q).mode = 2 ∨ (d = .up ∧ f.type = 0 ∧ regBit s (Reg.abangoStat i) 4 = true) ∨ (d = .down ∧ 64 ≤ ((groupOf s i d q).sent + 4096 - (groupOf s i d q).acked) % 4096 ∧ f.seq.val = ((groupOf s i d q).sent + 1) % 4096)))) ∧
  (∃ s : State, ∃ i : SiteNo, ∃ d : Dir, ∃ q : Fin 32, ∃ f : FrameCtl, ∃ wr : List (Fin 68 × Fin 256), ∃ g : Group, ∃ new : Bool, g = groupOf s i d q ∧ new = (g.kept.isEmpty || f.seq.val == (g.sent + 1) % 4096) ∧ regBit s (Reg.abangoStat i) 1 = true ∧ regBit s (Reg.abangoStat i) 4 = false ∧ g.mode ≠ 2 ∧ frameHeld s i d g f new = false ∧ (14 < (wrongSymbols g wr).length ∨ frameFault s i d q f ≠ 0)) ∧
  (∃ s : State, ∃ i : SiteNo, ∃ d : Dir, ∃ q : Fin 32, ∃ f : FrameCtl, ∃ wr : List (Fin 68 × Fin 256), ∃ g : Group, ∃ new : Bool, g = groupOf s i d q ∧ new = (g.kept.isEmpty || f.seq.val == (g.sent + 1) % 4096) ∧ regBit s (Reg.abangoStat i) 1 = true ∧ regBit s (Reg.abangoStat i) 4 = false ∧ g.mode ≠ 2 ∧ frameHeld s i d g f new = false ∧ (wrongSymbols g wr).length ≤ 14 ∧ frameFault s i d q f ≠ 0 ∧ d = .down) ∧
  (∃ s : State, ∃ i : SiteNo, ∃ d : Dir, ∃ q : Fin 32, ∃ f : FrameCtl, ∃ wr : List (Fin 68 × Fin 256), ∃ g : Group, ∃ new : Bool, g = groupOf s i d q ∧ new = (g.kept.isEmpty || f.seq.val == (g.sent + 1) % 4096) ∧ regBit s (Reg.abangoStat i) 1 = true ∧ regBit s (Reg.abangoStat i) 4 = false ∧ g.mode ≠ 2 ∧ frameHeld s i d g f new = false ∧ (wrongSymbols g wr).length ≤ 14 ∧ frameFault s i d q f = 0 ∧ ((g.frames = 0 ∨ f.seq.val = (g.seq + 1) % 4096))) ∧
  (∃ s : State, ∃ i : SiteNo, ∃ d : Dir, ∃ q : Fin 32, ∃ f : FrameCtl, ∃ wr : List (Fin 68 × Fin 256), ∃ g : Group, ∃ new : Bool, g = groupOf s i d q ∧ new = (g.kept.isEmpty || f.seq.val == (g.sent + 1) % 4096) ∧ regBit s (Reg.abangoStat i) 1 = true ∧ regBit s (Reg.abangoStat i) 4 = false ∧ g.mode ≠ 2 ∧ frameHeld s i d g f new = false ∧ (wrongSymbols g wr).length ≤ 14 ∧ frameFault s i d q f = 0 ∧ g.frames ≠ 0 ∧ f.seq.val ≠ (g.seq + 1) % 4096) ∧
  (∃ s : State, ∃ i : SiteNo, ∃ d : Dir, ∃ q : Fin 32, ∃ l : Fin 68, l.val ∉ badLanes (groupOf s i d q)) ∧
  (∃ s : State, ∃ i : SiteNo, ∃ d : Dir, ∃ q : Fin 32, ∃ l : Fin 68, l.val ∉ badLanes (groupOf s i d q) ∧ (groupOf s i d q).answered ≠ none) ∧
  (∃ s : State, ∃ i : SiteNo, ∃ d : Dir, ∃ q : Fin 32, ∃ l : Fin 68, l.val ∈ badLanes (groupOf s i d q)) ∧
  (∃ s : State, ∃ i : SiteNo, ∃ d : Dir, ∃ q : Fin 32, agreeDue (groupOf s i d q) = true) ∧
  (∃ s : State, ∃ i : SiteNo, ∃ q : Fin 32, agreeDue (groupOf s i .down q) = false) ∧
  (∃ s : State, ∃ i : SiteNo, ∃ q : Fin 32, agreeDue (groupOf s i .up q) = false) ∧
  (∃ s : State, ∃ i : SiteNo, ∃ d : Dir, ∃ q : Fin 32, ∃ l : Nat, ∃ n : Nat, (groupOf s i d q).switchAt = some (l, n) ∧ ((groupOf s i d q).sent + 1) % 4096 = n) ∧
  (∃ s : State, ∃ i : SiteNo, ∃ d : Dir, ∃ q : Fin 32, (((groupOf s i d q).switchAt = none ∨ ((groupOf s i d q).switchAt.any fun x => ((groupOf s i d q).sent + 1) % 4096 != x.2) = true))) ∧
  (∃ s : State, ∃ i : SiteNo, ∃ d : Dir, ∃ q : Fin 1000, ∃ ts : List Nat, ts = (viaErrors (aba s i) d q).filter (fun t => s.time.now < t + 1000000) ∧ viaSpare (aba s i) d q ≠ 0) ∧
  (∃ s : State, ∃ i : SiteNo, ∃ d : Dir, ∃ q : Fin 1000, ∃ ts : List Nat, ts = (viaErrors (aba s i) d q).filter (fun t => s.time.now < t + 1000000) ∧ viaSpare (aba s i) d q = 0 ∧ ts.length < 15) ∧
  (∃ s : State, ∃ i : SiteNo, ∃ d : Dir, ∃ q : Fin 1000, ∃ ts : List Nat, ts = (viaErrors (aba s i) d q).filter (fun t => s.time.now < t + 1000000) ∧ viaSpare (aba s i) d q = 0 ∧ 15 ≤ ts.length) := by
  refine ⟨⟨wUp, 15, ?_⟩,
     ⟨wUp, 15, ?_⟩,
     ⟨wRegs wUp [(Reg.siteStat 15, 2)], 15, ?_⟩,
     ⟨wUp, 15, .up, 31, wFrame 0, ?_⟩,
     ⟨wGroup { wG95 with acked := 4031, sent := 4095 }, 0, .down, 31, wFrame 0, ?_⟩,
     ⟨wGroup wG95, 0, .down, 31, wFrame 0, (List.range 15).map fun k => (Fin.ofNat 68 k, 0), wG95, true, ?_⟩,
     ⟨wGroup wG95, 0, .down, 31, { wFrame 0 with cmd := 2 }, [], wG95, true, ?_⟩,
     ⟨wGroup wG95, 0, .down, 31, wFrame 0, [], wG95, true, ?_⟩,
     ⟨wGroup wG95, 0, .down, 31, wFrame 1, [], wG95, true, ?_⟩,
     ⟨wGroup { Group.reset with proposals := [9], sent := 4000 }, 0, .down, 31, 67, ?_⟩,
     ⟨wGroup { Group.reset with proposals := [9], answered := some (9, 5) }, 0, .down, 31, 3, ?_⟩,
     ⟨wGroup { Group.reset with startBad := [(67, true)] }, 0, .down, 31, 67, ?_⟩,
     ⟨wGroup { Group.reset with proposals := [9] }, 0, .down, 31, ?_⟩,
     ⟨wGroup Group.reset, 0, 31, ?_⟩,
     ⟨wGroup Group.reset, 0, 31, ?_⟩,
     ⟨wGroup { Group.reset with proposals := [67], switchAt := some (67, 0), sent := 4095 }, 0, .down, 31, 67, 0, ?_⟩,
     ⟨wGroup { Group.reset with switchAt := some (67, 5) }, 0, .down, 31, ?_⟩,
     ⟨wDie { Abango.reset with viaSpareDn := [(999, 32)] }, 0, .down, 999, [], ?_⟩,
     ⟨wDie { Abango.reset with viaErrUp := [(999, List.replicate 14 0)] }, 0, .up, 999, List.replicate 14 0, ?_⟩,
     ⟨wDie { Abango.reset with viaErrDn := [(999, List.replicate 15 0)] }, 0, .down, 999, List.replicate 15 0, ?_⟩⟩ <;> decide +kernel

/-- What `Obligations.SidebandMessagesAreChecked` assumes is met. -/
theorem wit_SidebandMessagesAreChecked :
  (∃ h : SbHead, ∃ p : List Nat, ∃ crc : Nat, crc = crc16 ([h.type.toNat, h.len.toNat, h.seq.toNat, h.reserved.toNat] ++ p) ∧ h.crc.toNat ≠ crc) ∧
  (∃ h : SbHead, ∃ p : List Nat, ∃ crc : Nat, crc = crc16 ([h.type.toNat, h.len.toNat, h.seq.toNat, h.reserved.toNat] ++ p) ∧ sbKnown h.type.toNat = false) ∧
  (∃ h : SbHead, ∃ type : Nat, ∃ p : List Nat, ∃ o : Bool, ∃ crc : Nat, crc = crc16 ([h.type.toNat, h.len.toNat, h.seq.toNat, h.reserved.toNat] ++ p) ∧ ((h.type.toNat ≠ type ∨ o = false))) ∧
  (∃ h : SbHead, ∃ p : List Nat, ∃ fit : Bool, ∃ crc : Nat, crc = crc16 ([h.type.toNat, h.len.toNat, h.seq.toNat, h.reserved.toNat] ++ p) ∧ ((h.reserved ≠ 0 ∨ h.len.toNat ≠ p.length ∨ fit = false))) ∧
  (∃ h : SbHead, ∃ p : List Nat, ∃ fit : Bool, ∃ crc : Nat, crc = crc16 ([h.type.toNat, h.len.toNat, h.seq.toNat, h.reserved.toNat] ++ p) ∧ h.crc.toNat = crc ∧ fit = true) ∧
  (∃ s : State, ∃ i : SiteNo, ∃ h : SbHead, ∃ type : Nat, ∃ p : List Nat, ∃ o : Bool, ∃ fit : Bool, ∃ f : State → State, ∃ c : Nat, ∃ t : State, t = sideband s i h type p o fit f ∧ c = sbFault h type p o fit ∧ regBit s (Reg.abangoStat i) 0 = true ∧ c ≠ 0) ∧
  (∃ s : State, ∃ i : SiteNo, ∃ h : SbHead, ∃ type : Nat, ∃ p : List Nat, ∃ o : Bool, ∃ fit : Bool, ∃ f : State → State, ∃ c : Nat, ∃ t : State, t = sideband s i h type p o fit f ∧ c = sbFault h type p o fit ∧ regBit s (Reg.abangoStat i) 0 = true ∧ c = 0) ∧
  (∃ s : State, ∃ i : SiteNo, regBit s (Reg.abangoStat i) 0 = false) ∧
  (∃ s : State, ∃ i : SiteNo, regBit s (Reg.abangoStat i) 0 = false) := by
  refine ⟨⟨{ wHead 0x12 [] with crc := 0 }, [], crc16 [0x12, 0, 0, 0], ?_⟩,
     ⟨wHead 0x33 [], [], crc16 [0x33, 0, 0, 0], ?_⟩,
     ⟨wHead 0x12 [], 0x12, [], false, crc16 [0x12, 0, 0, 0], ?_⟩,
     ⟨wHead 0x12 [], [], false, crc16 [0x12, 0, 0, 0], ?_⟩,
     ⟨wHead 0x12 [], [], true, crc16 [0x12, 0, 0, 0], ?_⟩,
     ⟨wDie wCom, 0, wHead 0x33 [], 0x12, [], true, true, id, 2, sideband (wDie wCom) 0 (wHead 0x33 []) 0x12 [] true true id, ⟨rfl, ?_⟩⟩,
     ⟨wDie wCom, 0, wHead 0x12 [], 0x12, [], true, true, id, 0, wDie wCom, ⟨rfl, ?_⟩⟩,
     ⟨wUp, 0, ?_⟩,
     ⟨wUp, 0, ?_⟩⟩ <;> decide +kernel

/-- What `Obligations.AbangoNegotiationAndReports` assumes is met. -/
theorem wit_AbangoNegotiationAndReports :
  (∃ s : State, ∃ i : SiteNo, (aba s i).nego = .idle ∧ regBit s (Reg.abangoStat i) 1 = true ∧ regBit s (Reg.abangoStat i) 0 = true) ∧
  (∃ s : State, ∃ i : SiteNo, (((aba s i).nego ≠ .idle ∨ regBit s (Reg.abangoStat i) 1 = false ∨ regBit s (Reg.abangoStat i) 0 = false))) ∧
  (∃ s : State, ∃ i : SiteNo, ∃ h : SbHead, ∃ f : CapsF, ∃ t : State, t = caps i h f s ∧ regBit s (Reg.abangoStat i) 0 = true ∧ sbFault h sbCaps (capsBytes f) ((aba s i).nego == .helloSent) (capsFit f && answersMsg s i sbHello h) = 0 ∧ commonVersion f ≠ 0 ∧ (commonFeatures f (commonVersion f)).toNat % 4 = 3) ∧
  (∃ s : State, ∃ i : SiteNo, ∃ h : SbHead, ∃ f : CapsF, ∃ t : State, t = caps i h f s ∧ regBit s (Reg.abangoStat i) 0 = true ∧ sbFault h sbCaps (capsBytes f) ((aba s i).nego == .helloSent) (capsFit f && answersMsg s i sbHello h) = 0 ∧ ((commonVersion f = 0 ∨ (commonFeatures f (commonVersion f)).toNat % 4 ≠ 3))) ∧
  (∃ s : State, ∃ i : SiteNo, ∃ h : SbHead, ∃ n : Byte, ∃ t : State, t = reject i h n s ∧ regBit s (Reg.abangoStat i) 0 = true ∧ sbFault h sbReject [n.toNat] (offerOut s i) (answersMsg s i sbOffer h) = 0) ∧
  (∃ s : State, ∃ i : SiteNo, ∃ o : OfferF, o = ⟨commonVersion (aba s i).caps, commonFeatures (aba s i).caps (commonVersion (aba s i).caps), (aba s i).caps.powerMax, 1000⟩ ∧ (aba s i).nego = .capsSeen) ∧
  (∃ s : State, ∃ i : SiteNo, ∃ o : OfferF, o = ⟨commonVersion (aba s i).caps, commonFeatures (aba s i).caps (commonVersion (aba s i).caps), (aba s i).caps.powerMax, 1000⟩ ∧ (aba s i).nego ≠ .capsSeen) ∧
  (∃ s : State, ∃ i : SiteNo, ∃ h : SbHead, regBit s (Reg.abangoStat i) 0 = true ∧ sbFault h sbAccept (offerBytes (aba s i).offer) (offerOut s i) (answersMsg s i sbOffer h) = 0) ∧
  (∃ s : State, ∃ i : SiteNo, ∃ t : State, t = commit i s ∧ (aba s i).nego = .accepted) ∧
  (∃ s : State, ∃ i : SiteNo, ∃ t : State, t = commit i s ∧ (aba s i).nego ≠ .accepted) ∧
  (∃ s : State, ∃ i : SiteNo, ∃ t : State, t = sidebandReplyTimeout i s ∧ (aba s i).nego = .helloSent ∧ replyDue s i sbHello = true ∧ (aba s i).tries < 3) ∧
  (∃ s : State, ∃ i : SiteNo, ∃ t : State, t = sidebandReplyTimeout i s ∧ (aba s i).nego = .offerSent ∧ replyDue s i sbOffer = true ∧ (aba s i).tries < 3) ∧
  (∃ s : State, ∃ i : SiteNo, ∃ t : State, t = sidebandReplyTimeout i s ∧ (((aba s i).nego = .helloSent ∧ replyDue s i sbHello = true ∨ (aba s i).nego = .offerSent ∧ replyDue s i sbOffer = true)) ∧ 3 ≤ (aba s i).tries) ∧
  (∃ s : State, ∃ i : SiteNo, ∃ t : State, t = sidebandReplyTimeout i s ∧ (aba s i).nego = .committed ∧ (aba s i).limitAcked = false ∧ replyDue s i sbLimit = true) ∧
  (∃ s : State, ∃ i : SiteNo, ∃ t : State, t = sidebandReplyTimeout i s ∧ (((aba s i).nego ≠ .helloSent ∨ replyDue s i sbHello = false)) ∧ (((aba s i).nego ≠ .offerSent ∨ replyDue s i sbOffer = false)) ∧ (((aba s i).nego ≠ .committed ∨ (aba s i).limitAcked = true ∨ replyDue s i sbLimit = false))) ∧
  (∃ s : State, ∃ i : SiteNo, ∃ h : SbHead, ∃ f : ReportF, regBit s (Reg.abangoStat i) 0 = true ∧ sbFault h sbReport (reportBytes f) ((aba s i).nego == .committed) (reportFits (aba s i) f) = 0 ∧ f.power ≤ 4 * (aba s i).limit) ∧
  (∃ s : State, ∃ i : SiteNo, ∃ h : SbHead, ∃ f : ReportF, regBit s (Reg.abangoStat i) 0 = true ∧ sbFault h sbReport (reportBytes f) ((aba s i).nego == .committed) (reportFits (aba s i) f) = 0 ∧ 4 * (aba s i).limit < f.power ∧ ((aba s i).excess + 1) % 3 = 0) ∧
  (∃ s : State, ∃ i : SiteNo, (aba s i).nego = .committed) ∧
  (∃ s : State, ∃ i : SiteNo, (aba s i).nego ≠ .committed) ∧
  (∃ s : State, ∃ i : SiteNo, ∃ h : SbHead, ∃ w : Nat, regBit s (Reg.abangoStat i) 0 = true ∧ sbFault h sbLimitAck (le 2 w) ((aba s i).nego == .committed && !(aba s i).limitAcked) true = 0 ∧ w = (aba s i).limit ∧ answersMsg s i sbLimit h = true) ∧
  (∃ s : State, ∃ i : SiteNo, ∃ h : SbHead, ∃ w : Nat, regBit s (Reg.abangoStat i) 0 = true ∧ sbFault h sbLimitAck (le 2 w) ((aba s i).nego == .committed && !(aba s i).limitAcked) true = 0 ∧ ((w ≠ (aba s i).limit ∨ answersMsg s i sbLimit h = false))) ∧
  (∃ s : State, ∃ i : SiteNo, ∃ h : SbHead, ∃ hf : Fin 2, ∃ bad : List (Fin 32 × Fin 68), regBit s (Reg.abangoStat i) 0 = true ∧ sbFault h sbLanes (lanesPayload hf bad) ((aba s i).nego == .idle) true = 0) ∧
  (∃ s : State, ∃ i : SiteNo, regBit s (Reg.abangoStat i) 0 = true) ∧
  (∃ s : State, ∃ i : SiteNo, ∃ ty : Byte, regBit s (Reg.abangoStat i) 0 = true ∧ tfind (aba s i).sbSent ty.toNat = some { seq := 0, payload := [5], at_ := 0, resends := 2 }) ∧
  (∃ s : State, ∃ i : SiteNo, ∃ ty : Byte, regBit s (Reg.abangoStat i) 0 = true ∧ tfind (aba s i).sbSent ty.toNat = some { seq := 0, payload := [5], at_ := 0, resends := 3 }) ∧
  (∃ s : State, ∃ i : SiteNo, regBit s (Reg.abangoStat i) 0 = false) ∧
  (∃ s : State, ∃ i : SiteNo, (aba s i).nego = .committed ∧ (aba s i).late = false ∧ (aba s i).reportAt + 3000 * (aba s i).offer.reportUs < s.time.now) ∧
  (∃ s : State, ∃ i : SiteNo, (((aba s i).nego ≠ .committed ∨ (aba s i).late = true ∨ s.time.now ≤ (aba s i).reportAt + 3000 * (aba s i).offer.reportUs))) ∧
  (∃ s : State, ∃ i : SiteNo, (((aba s i).nego ≠ .committed ∨ (aba s i).late = true ∨ s.time.now ≤ (aba s i).reportAt + 3000 * (aba s i).offer.reportUs))) ∧
  (∃ s : State, ∃ i : SiteNo, ∃ a : Nat, (aba s i).excessFrom = some a ∧ 3 ≤ (aba s i).excess ∧ a + 10000000 ≤ s.time.now) ∧
  (∃ s : State, ∃ i : SiteNo, ∃ a : Nat, (aba s i).excessFrom = some a ∧ ((s.time.now < a + 10000000 ∨ (aba s i).excess < 3))) ∧
  (∃ s : State, ∃ i : SiteNo, (aba s i).excessFrom = none) ∧
  (∃ s : State, ∃ i : SiteNo, regBit s (Reg.abangoStat i) 0 = true ∧ (aba s i).nego = .committed) ∧
  (∃ s : State, ∃ i : SiteNo, regBit s (Reg.abangoStat i) 0 = true ∧ (aba s i).nego ≠ .committed) := by
  refine ⟨⟨wDie (wNego .idle), 0, ?_⟩,
     ⟨wDie (wNego .ended), 0, ?_⟩,
     ⟨wAt (wDie (wNego .helloSent)) 0, 0, wHead 2 (capsBytes (wCaps 0x0101)), wCaps 0x0101, caps 0 (wHead 2 (capsBytes (wCaps 0x0101))) (wCaps 0x0101) (wAt (wDie (wNego .helloSent)) 0), ⟨rfl, ?_⟩⟩,
     ⟨wAt (wDie (wNego .helloSent)) 0, 0, wHead 2 (capsBytes (wCaps 0xFF)), wCaps 0xFF, caps 0 (wHead 2 (capsBytes (wCaps 0xFF))) (wCaps 0xFF) (wAt (wDie (wNego .helloSent)) 0), ⟨rfl, ?_⟩⟩,
     ⟨wAt (wDie (wNego .offerSent)) 0, 0, wHead 5 [3], 3, reject 0 (wHead 5 [3]) 3 (wAt (wDie (wNego .offerSent)) 0), ⟨rfl, ?_⟩⟩,
     ⟨wDie { wNego .capsSeen with caps := wCaps 0x0100 }, 0, ⟨0x0100, 3, 100, 1000⟩, ?_⟩,
     ⟨wDie (wNego .idle), 0, ⟨0, 0, 0, 1000⟩, ?_⟩,
     ⟨wDie (wNego .offerSent), 0, wHead 4 (offerBytes offerReset), ?_⟩,
     ⟨wAt (wDie (wNego .accepted)) 0, 0, commit 0 (wAt (wDie (wNego .accepted)) 0), ⟨rfl, ?_⟩⟩,
     ⟨wAt (wDie (wNego .offerSent)) 0, 0, commit 0 (wAt (wDie (wNego .offerSent)) 0), ⟨rfl, ?_⟩⟩,
     ⟨wAt (wDie { wNego .helloSent with tries := 2 }) 2000000, 0, sidebandReplyTimeout 0 (wAt (wDie { wNego .helloSent with tries := 2 }) 2000000), ⟨rfl, ?_⟩⟩,
     ⟨wAt (wDie { wNego .offerSent with tries := 2 }) 2000000, 0, sidebandReplyTimeout 0 (wAt (wDie { wNego .offerSent with tries := 2 }) 2000000), ⟨rfl, ?_⟩⟩,
     ⟨wAt (wDie { wNego .offerSent with tries := 3 }) 2000000, 0, sidebandReplyTimeout 0 (wAt (wDie { wNego .offerSent with tries := 3 }) 2000000), ⟨rfl, ?_⟩⟩,
     ⟨wAt (wDie { wNego .committed with limitAcked := false }) 2000000, 0, sidebandReplyTimeout 0 (wAt (wDie { wNego .committed with limitAcked := false }) 2000000), ⟨rfl, ?_⟩⟩,
     ⟨wAt (wDie { wNego .helloSent with tries := 3 }) 1999999, 0, sidebandReplyTimeout 0 (wAt (wDie { wNego .helloSent with tries := 3 }) 1999999), ⟨rfl, ?_⟩⟩,
     ⟨wDie wCom, 0, wHead 0x10 (reportBytes (wReport 400)), wReport 400, ?_⟩,
     ⟨wDie { wCom with excess := 2, excessFrom := some 0 }, 0, wHead 0x10 (reportBytes (wReport 401)), wReport 401, ?_⟩,
     ⟨wDie (wNego .committed), 0, ?_⟩,
     ⟨wDie (wNego .accepted), 0, ?_⟩,
     ⟨wDie { wCom with limitAcked := false }, 0, wHead 0x12 (le 2 100), 100, ?_⟩,
     ⟨wDie { wCom with limitAcked := false }, 0, wHead 0x12 (le 2 99), 99, ?_⟩,
     ⟨wDie (wNego .idle), 0, { wHead 0x13 [] with len := 32, crc := BitVec.ofNat 16 (crc16 ([0x13, 32, 0, 0] ++ lanesPayload 0 [(31, 67), (0, 0)])) }, 0, [(31, 67), (0, 0)], ⟨?_, wLanes_ok _⟩⟩,
     ⟨wDie wCom, 0, ?_⟩,
     ⟨wDie { wCom with sbSent := [(0x11, { seq := 0, payload := [5], at_ := 0, resends := 2 })] }, 0, 0x11, ?_⟩,
     ⟨wDie { wCom with sbSent := [(0x11, { seq := 0, payload := [5], at_ := 0, resends := 3 })] }, 0, 0x11, ?_⟩,
     ⟨wUp, 0, ?_⟩,
     ⟨wAt (wDie { wNego .committed with offer := ⟨0, 0, 0, 1⟩ }) 3001, 0, ?_⟩,
     ⟨wDie (wNego .idle), 0, ?_⟩,
     ⟨wAt (wDie { wNego .committed with offer := ⟨0, 0, 0, 1⟩ }) 3000, 0, ?_⟩,
     ⟨wAt (wDie { Abango.reset with excess := 3, excessFrom := some 0 }) 10000000, 0, 0, ?_⟩,
     ⟨wAt (wDie { Abango.reset with excess := 3, excessFrom := some 0 }) 9999999, 0, 0, ?_⟩,
     ⟨wUp, 15, ?_⟩,
     ⟨wDie wCom, 0, ?_⟩,
     ⟨wDie (wNego .idle), 0, ?_⟩⟩ <;> decide +kernel

/-- Outlet 1's link up, lane 3 lost, spare fibres 4 and 5. -/
def wLink (l : LinkState) : State :=
  { wRegs wUp [(Reg.linkStat 1, 2), (Reg.linkLanes 1, 0x7_3210), (Reg.fabricCoord, 2 ^ 31 + 0x123), (Reg.fabricStat, 2)] with links := [(1, l)] }

/-- A module at 0x000 whose Outlet 1 leads to its partner in dimension 1. -/
def wMap (m : List LinkStateF) : State :=
  { wRegs wUp [(Reg.linkStat 1, 2), (Reg.linkPartner 1, 2 ^ 31), (Reg.fabricCoord, 2 ^ 31 + 0x010), (Reg.fabricStat, 2)] with
      fabric := { FabricState.reset with map := m } }
def wLinks (o c : Nat) : List (Nat × Nat) := (List.range 16).map fun i => if i == o then (2, c) else (4, 0)
def wTwo : List LinkStateF := [{ src := 0, seq := 1, links := wLinks 13 0x010 }, { src := 0x010, seq := 1, links := wLinks 1 0 }]

/-- What `Obligations.FabricLinksTrainServeAndSleep` assumes is met. -/
theorem wit_FabricLinksTrainServeAndSleep :
  (∃ s : State, ∃ o : OutletNo, linkUp s o = false) ∧
  (∃ s : State, ∃ o : OutletNo, ∃ n : Nat, linkUp s o = true ∧ n = (link s o).rxNext) ∧
  (∃ s : State, ∃ o : OutletNo, ∃ n : Nat, linkUp s o = true ∧ n < (link s o).rxNext) ∧
  (∃ s : State, ∃ o : OutletNo, ∃ n : Nat, ∃ g : Bool, linkUp s o = true ∧ ((g = false ∨ (link s o).rxNext < n))) ∧
  (∃ s : State, ∃ o : OutletNo, linkUp s o = true) ∧
  (∃ s : State, ∃ o : OutletNo, ∃ a : Nat, linkUp s o = true ∧ ∃ n : Nat, ∃ k : Nat, ∃ ps : List (Nat × Packet), ps = ((link s o).unacked.filter (fun u => a < u.1 + flitsOf u.2 - 1)).filter (fun u => n < u.1 + flitsOf u.2) ∧ k = (ps.map fun u => flitsOf u.2 - (n - u.1)).foldl (· + ·) 0 ∧ k ≠ 0) ∧
  (∃ s : State, ∃ o : OutletNo, linkUp s o = false) ∧
  (∃ s : State, ∃ o : OutletNo, ∃ l : Fin 4, ((linkUp s o = false ∨ laneUp s o l = true))) ∧
  (∃ s : State, ∃ o : OutletNo, ∃ l : Fin 4, ((linkUp s o = false ∨ laneUp s o l = true))) ∧
  (∃ s : State, ∃ o : OutletNo, ∃ l : Fin 4, linkUp s o = true ∧ laneUp s o l = false ∧ ∃ f : Nat, spareFibre? s o = some f) ∧
  (∃ s : State, ∃ o : OutletNo, ∃ l : Fin 4, linkUp s o = true ∧ laneUp s o l = false ∧ spareFibre? s o = none) ∧
  (∃ s : State, ∃ o : OutletNo, linkUp s o = true ∧ (link s o).lastHello + 10000000 ≤ s.time.now) ∧
  (∃ s : State, ∃ o : OutletNo, linkUp s o = true ∧ s.time.now < (link s o).lastHello + 10000000) ∧
  (∃ s : State, ∃ o : OutletNo, linkUp s o = false) ∧
  (∃ s : State, ∃ o : OutletNo, ((linkStateOf s o = 1 ∨ linkStateOf s o = 4)) ∧ field s Reg.fabricStat 1 0 ≠ 0 ∧ (link s o).cabled = true ∧ regBit s (Reg.linkStat o) 3 = false) ∧
  (∃ s : State, ∃ o : OutletNo, (((linkStateOf s o ≠ 1 ∧ linkStateOf s o ≠ 4) ∨ field s Reg.fabricStat 1 0 = 0 ∨ (link s o).cabled = false ∨ regBit s (Reg.linkStat o) 3 = true))) ∧
  (∃ s : State, ∃ o : OutletNo, linkUp s o = false) ∧
  (∃ s : State, ∃ o : OutletNo, ∃ f : NHello, linkUp s o = true ∧ helloFits s o f = true ∧ windowClash s o f = false) ∧
  (∃ s : State, ∃ o : OutletNo, ∃ f : NHello, linkUp s o = true ∧ helloFits s o f = true ∧ windowClash s o f = true) ∧
  (∃ s : State, ∃ o : OutletNo, ∃ f : NHello, linkUp s o = true ∧ helloFits s o f = false) ∧
  (∃ s : State, ∃ o : OutletNo, ∃ a : Nat, (link s o).sleepFrom = some a ∧ a + 2000000000 ≤ s.time.now ∧ egressEmpty s o = true) ∧
  (∃ s : State, ∃ o : OutletNo, ∃ a : Nat, (link s o).sleepFrom = some a ∧ ((s.time.now < a + 2000000000 ∨ egressEmpty s o = false))) ∧
  (∃ s : State, ∃ o : OutletNo, (link s o).sleepFrom = none) ∧
  (∃ s : State, ∃ o : SiteNo, ∃ a : Nat, (site s o).drainFrom = some a ∧ a + 100000 ≤ s.time.now) ∧
  (∃ s : State, ∃ o : SiteNo, ∃ a : Nat, (site s o).drainFrom = some a ∧ s.time.now < a + 100000) ∧
  (∃ s : State, ∃ o : SiteNo, (site s o).drainFrom = none) := by
  refine ⟨⟨wUp, 1, ?_⟩,
     ⟨wLink { LinkState.reset with rxNext := 9 }, 1, 9, ?_⟩,
     ⟨wLink { LinkState.reset with rxNext := 9 }, 1, 8, ?_⟩,
     ⟨wLink { LinkState.reset with rxNext := 9 }, 1, 10, true, ?_⟩,
     ⟨wLink { LinkState.reset with unacked := [(0, wReq 0), (2, { wReq 0 with type := 0x02 }), (4, wReq 64)] }, 1, ?_⟩,
     ⟨wLink { LinkState.reset with unacked := [(0, wReq 0), (2, { wReq 0 with type := 0x02 }), (4, wReq 64)] }, ⟨1, ⟨0, ⟨?_, ⟨3, ⟨2, ⟨[(2, { wReq 0 with type := 0x02 }), (4, wReq 64)], ?_⟩⟩⟩⟩⟩⟩⟩,
     ⟨wUp, 1, ?_⟩,
     ⟨wUp, 1, 3, ?_⟩,
     ⟨wLink LinkState.reset, 1, 0, ?_⟩,
     ⟨wLink LinkState.reset, ⟨1, ⟨3, ⟨?_, ⟨?_, ⟨4, ?_⟩⟩⟩⟩⟩⟩,
     ⟨wLink { LinkState.reset with badFibres := 0x30 }, 1, 3, ?_⟩,
     ⟨wAt (wLink LinkState.reset) 10000000, 1, ?_⟩,
     ⟨wAt (wLink LinkState.reset) 9999999, 1, ?_⟩,
     ⟨wUp, 1, ?_⟩,
     ⟨wRegs (wLink { LinkState.reset with cabled := true, rxNext := 7 }) [(Reg.linkStat 1, 4)], 1, ?_⟩,
     ⟨wUp, 1, ?_⟩,
     ⟨wUp, 1, ?_⟩,
     ⟨wRegs (wLink LinkState.reset) [(Reg.fabricCoord, 2 ^ 31 + 0x44_4123)], 1, ⟨partnerCoord (wRegs (wLink LinkState.reset) [(Reg.fabricCoord, 2 ^ 31 + 0x44_4123)]) 1, 5, 5, 5, 13, 0, 0, 0⟩, ?_⟩,
     ⟨{ wRegs wUp [(Reg.linkStat 9, 2), (Reg.fabricCoord, 2 ^ 31 + 0x123)] with fabric := { FabricState.reset with nodes := [(5, 5, 4)] } }, 9, ⟨0x123, 0, 0, 0, 0, 1, 8, 1⟩, ?_⟩,
     ⟨wAt (wLink LinkState.reset) 0, 1, ⟨0xFFF, 0, 0, 0, 0, 1, 0, 0⟩, ?_⟩,
     ⟨wAt (wLink { LinkState.reset with sleepFrom := some 0 }) 2000000000, 1, 0, ?_⟩,
     ⟨wAt (wLink { LinkState.reset with sleepFrom := some 0 }) 1999999999, 1, 0, ?_⟩,
     ⟨wUp, 1, ?_⟩,
     ⟨{ wAt wUp 100000 with sites := [(0, { SiteState.reset with drainFrom := some 0, egressQ := [wStore 0] })] }, 0, 0, ?_⟩,
     ⟨{ wAt wUp 99999 with sites := [(0, { SiteState.reset with drainFrom := some 0, egressQ := [wStore 0] })] }, 0, 0, ?_⟩,
     ⟨wUp, 15, ?_⟩⟩ <;> decide +kernel

/-- What `Obligations.FabricFirmwareMapsAndKeepsTime` assumes is met. -/
theorem wit_FabricFirmwareMapsAndKeepsTime :
  (∃ s : State, ∃ o : OutletNo, linkUp s o = false) ∧
  (∃ s : State, ∃ o : OutletNo, ∃ f : LinkStateF, linkServes s o = true ∧ weirServes s = true ∧ (mergeMap s.fabric.map f).2 = false) ∧
  (∃ s : State, ∃ o : OutletNo, ∃ f : LinkStateF, linkServes s o = true ∧ weirServes s = true ∧ (mergeMap s.fabric.map f).2 = true) ∧
  (∃ s : State, ∃ o : OutletNo, linkServes s o = true ∧ weirServes s = false) ∧
  (∃ s : State, ∃ o : OutletNo, linkUp s o = true ∧ regBit s (Reg.linkPartner o) 31 = false) ∧
  (∃ s : State, weirServes s = true ∧ ((field s Reg.fabricStat 1 0 = 2 ∨ field s Reg.fabricStat 1 0 = 3)) ∧ hasCoord s = true ∧ mapWhole s = true ∧ s.fabric.mapChanged + 10000000000 ≤ s.time.now) ∧
  (∃ s : State, weirServes s = true ∧ ((field s Reg.fabricStat 1 0 = 2 ∨ field s Reg.fabricStat 1 0 = 3)) ∧ hasCoord s = true ∧ mapWhole s = true ∧ s.time.now < s.fabric.mapChanged + 10000000000) ∧
  (∃ s : State, ((weirServes s = false ∨ field s Reg.fabricStat 1 0 < 2 ∨ hasCoord s = false ∨ mapWhole s = false))) ∧
  (∃ s : State, ((weirServes s = false ∨ parentOutlet? s = none))) ∧
  (∃ s : State, ∃ o : Nat, weirServes s = true ∧ parentOutlet? s = some o ∧ linkUp s o = true) ∧
  (∃ s : State, ∃ o : OutletNo, ∃ t1 : Nat, ∃ t2 : Nat, ∃ t3 : Nat, ∃ t4 : Nat, ∃ d : Int, linkServes s o = true ∧ d = syncOffset t1 t2 t3 t4 ∧ ((weirServes s = false ∨ parentOutlet? s ≠ some o.val))) ∧
  (∃ s : State, ∃ o : OutletNo, ∃ t1 : Nat, ∃ t2 : Nat, ∃ t3 : Nat, ∃ t4 : Nat, ∃ d : Int, linkServes s o = true ∧ d = syncOffset t1 t2 t3 t4 ∧ weirServes s = true ∧ parentOutlet? s = some o.val ∧ regBit s Reg.globalStat 5 = true) ∧
  (∃ s : State, ∃ o : OutletNo, ∃ t1 : Nat, ∃ t2 : Nat, ∃ t3 : Nat, ∃ t4 : Nat, ∃ d : Int, linkServes s o = true ∧ d = syncOffset t1 t2 t3 t4 ∧ weirServes s = true ∧ parentOutlet? s = some o.val ∧ regBit s Reg.globalStat 5 = true) ∧
  (∃ s : State, ∃ o : OutletNo, ∃ t1 : Nat, ∃ t2 : Nat, ∃ t3 : Nat, ∃ t4 : Nat, ∃ d : Int, linkServes s o = true ∧ d = syncOffset t1 t2 t3 t4 ∧ weirServes s = true ∧ parentOutlet? s = some o.val ∧ regBit s Reg.globalStat 5 = true) ∧
  (∃ s : State, ∃ o : OutletNo, ∃ t1 : Nat, ∃ t2 : Nat, ∃ t3 : Nat, ∃ t4 : Nat, ∃ d : Int, linkServes s o = true ∧ d = syncOffset t1 t2 t3 t4 ∧ weirServes s = true ∧ parentOutlet? s = some o.val ∧ regBit s Reg.globalStat 5 = true) ∧
  (∃ s : State, ∃ o : OutletNo, linkUp s o = false) := by
  refine ⟨⟨wUp, 1, ?_⟩,
     ⟨wMap wTwo, 1, ⟨0, 1, []⟩, ?_⟩,
     ⟨wMap wTwo, 1, ⟨0, 2, []⟩, ?_⟩,
     ⟨{ wMap wTwo with weir := { (wMap wTwo).weir with running := false } }, 1, ?_⟩,
     ⟨wLink LinkState.reset, 1, ?_⟩,
     ⟨wAt (wMap wTwo) 10000000000, ?_⟩,
     ⟨wAt (wMap wTwo) 9999999999, ?_⟩,
     ⟨wUp, ?_⟩,
     ⟨wUp, ?_⟩,
     ⟨wMap wTwo, 1, ?_⟩,
     ⟨wRegs (wMap wTwo) [(Reg.linkStat 15, 2), (Reg.linkPartner 15, 2 ^ 31)], 15, 0, 0, 0, 0, 0, ?_⟩,
     ⟨wMap wTwo, 1, 0, 2000, 2000, 0, -2000, ?_⟩,
     ⟨wMap wTwo, 1, 0, 0, 0, 50, 25, ?_⟩,
     ⟨wMap wTwo, 1, 0, 1000, 1000, 0, -1000, ?_⟩,
     ⟨wMap wTwo, 1, 0, 0, 0, 0, 0, ?_⟩,
     ⟨wUp, 1, ?_⟩⟩ <;> decide +kernel

/-- Functions 0 and 255 with bus mastering, requests and queue pairs. -/
def wFns : State :=
  { wUp with
    bme := [(0, true), (255, true)], d3hot := [(255, true)],
    qps := [(0, { QpState.reset with mode := 1 }), (7, { QpState.reset with mode := 1, owner := 255 })],
    windows := [(0, { MbWindow.reset with mode := 3 }), (255, { MbWindow.reset with mode := 1, seq := 9, ringSize := 2 })],
    mbReqs := [{ fn := 255, seq := 9, opcode := 1, paramLen := 0, badAt := 0, params := [], tick := 0, commit := 0, executed := false, arg := 0 }] }

/-- What `Obligations.FunctionAndLinkResets` assumes is met. -/
theorem wit_FunctionAndLinkResets :
  (∃ s : State, ∃ n : Fn, n ≠ 0 ∧ fnExists s n = true) ∧
  (∃ s : State, ∃ n : Fn, fnExists s n = false) ∧
  (∃ s : State, domOn s domHost = true) ∧
  (∃ s : State, domOn s domHost = false) ∧
  (∃ s : State, s.linkUp = false) ∧
  (∃ s : State, s.linkUp = true) ∧
  (∃ s : State, domOn s domHost = true) ∧
  (∃ s : State, domOn s domHost = false) ∧
  (∃ s : State, ∃ n : Fn, fnExists s n = true) ∧
  (∃ s : State, ∃ n : Fn, fnExists s n = false) ∧
  (∃ s : State, ∃ n : Fn, tget false s.d3hot n = true) ∧
  (∃ s : State, ∃ n : Fn, tget false s.d3hot n = false) ∧
  (∃ s : State, domOn s domHost = true ∧ s.linkUp = true) ∧
  (∃ s : State, ((domOn s domHost = false ∨ s.linkUp = false))) := by
  refine ⟨⟨wFns, 255, ?_⟩,
     ⟨State.reset, 0, ?_⟩,
     ⟨wFns, ?_⟩,
     ⟨State.reset, ?_⟩,
     ⟨State.reset, ?_⟩,
     ⟨wFns, ?_⟩,
     ⟨wUp, ?_⟩,
     ⟨State.reset, ?_⟩,
     ⟨wFns, 0, ?_⟩,
     ⟨State.reset, 255, ?_⟩,
     ⟨wFns, 255, ?_⟩,
     ⟨wFns, 0, ?_⟩,
     ⟨wFns, ?_⟩,
     ⟨State.reset, ?_⟩⟩ <;> decide +kernel

/-- A request of function 0 for a command with its parameters, accepted and waiting for firmware. -/
def wMb (op : Nat) (ps : List Byte) : MbReq :=
  { fn := 0, seq := 7, opcode := op, paramLen := ps.length, badAt := 0, params := ps, tick := 0, commit := 0, executed := false, arg := 0 }
def wMail (s : State) (op : Nat) (ps : List Byte) : State := { s with mbReqs := [wMb op ps] }

/-- The module ready, at step S4 with its CLOCK block enabled. -/
def wOn : State := wRegs wUp [(Reg.clockCtrl, 1), (Reg.clockStep, 4)]

/-- A running activity. -/
def wAct (op : Nat) (mode : ActMode) : Activity :=
  { num := 5, opcode := op, maint := true, mode := mode, status := 0, detail := 0, site := 0, guide := 7, lambda := 31, addr := 65536,
    src := 2 ^ 36, len := 256, from_ := 0 }

/-- What `Obligations.MailboxQueriesAreAnswered` assumes is met. -/
theorem wit_MailboxQueriesAreAnswered :
  (∃ s : State, weirServes s = false) ∧
  (∃ s : State, ∃ r : MbReq, Served s 0x01 r) ∧
  (∃ s : State, ∃ r : MbReq, Served s 0x02 r ∧ param r 0 8 % 4096 = 0 ∧ param r 8 4 ∈ ringSizes) ∧
  (∃ s : State, ∃ r : MbReq, Served s 0x02 r ∧ param r 8 4 ≠ 0 ∧ param r 0 8 % 4096 ≠ 0) ∧
  (∃ s : State, ∃ r : MbReq, Served s 0x03 r ∧ s.time.running = false) ∧
  (∃ s : State, ∃ r : MbReq, Served s 0x03 r ∧ s.time.running = true ∧ hasCoord s = false) ∧
  (∃ s : State, ∃ r : MbReq, ∃ v : Nat → Nat, Served s 0x04 r ∧ ((∀ i, v i = param r i 1)) ∧ badCoord? r = none ∧ field s Reg.fabricStat 1 0 = 0) ∧
  (∃ s : State, ∃ r : MbReq, Served s 0x48 r ∧ ∃ x : _, s.acts.find? (fun a => a.num == param r 0 2) = some x) ∧
  (∃ s : State, ∃ r : MbReq, Served s 0x48 r ∧ ((∀ x ∈ s.acts, x.num ≠ param r 0 2))) ∧
  (∃ s : State, ∃ r : MbReq, ∃ es : List LogEntry, Served s 0x60 r ∧ 1 ≤ param r 4 1 ∧ param r 4 1 ≤ 15 ∧ es = logFrom s (param r 0 4) (param r 4 1)) ∧
  (∃ s : State, ∃ r : MbReq, Served s 0x61 r) ∧
  (∃ s : State, ∃ r : MbReq, ∃ x : Context, Served s 0x33 r ∧ namedContext s r = .inl x ∧ x.run = none) ∧
  (∃ s : State, ∃ r : MbReq, ∃ k : Nat, Served s 0x72 r ∧ param r 0 1 = 0 ∧ param r 1 1 = k ∧ k ≤ 1) := by
  refine ⟨⟨State.reset, ?_⟩,
     ⟨wMail (wOn) 0x1 ([]), wMb 0x1 ([]), by (try unfold Served); decide +kernel⟩,
     ⟨wMail (wOn) 0x2 (leBytes 8 4096 ++ leBytes 4 16), wMb 0x2 (leBytes 8 4096 ++ leBytes 4 16), by (try unfold Served); decide +kernel⟩,
     ⟨wMail (wOn) 0x2 (leBytes 8 4095 ++ leBytes 4 16), wMb 0x2 (leBytes 8 4095 ++ leBytes 4 16), by (try unfold Served); decide +kernel⟩,
     ⟨wMail (wOn) 0x3 (leBytes 8 77), wMb 0x3 (leBytes 8 77), by (try unfold Served); decide +kernel⟩,
     ⟨wMail (wAt wOn 512) 0x3 (leBytes 8 77), wMb 0x3 (leBytes 8 77), by (try unfold Served); decide +kernel⟩,
     ⟨wMail (wOn) 0x4 (leBytes 1 3 ++ leBytes 1 15 ++ leBytes 1 0 ++ leBytes 1 4 ++ leBytes 1 16 ++ leBytes 1 1 ++ leBytes 1 2), wMb 0x4 (leBytes 1 3 ++ leBytes 1 15 ++ leBytes 1 0 ++ leBytes 1 4 ++ leBytes 1 16 ++ leBytes 1 1 ++ leBytes 1 2), fun i => param (wMb 4 (leBytes 1 3 ++ leBytes 1 15 ++ leBytes 1 0 ++ leBytes 1 4 ++ leBytes 1 16 ++ leBytes 1 1 ++ leBytes 1 2)) i 1, ⟨by unfold Served; decide +kernel, fun _ => rfl, ?_, ?_⟩⟩,
     ⟨wMail ({ wOn with acts := [wAct 0x41 .running] }) 0x48 (leBytes 2 5), ⟨wMb 0x48 (leBytes 2 5), ⟨by (try unfold Served); decide +kernel, ⟨wAct 0x41 .running, by (try unfold Served); decide +kernel⟩⟩⟩⟩,
     ⟨wMail ({ wOn with acts := [wAct 0x41 .running] }) 0x48 (leBytes 2 4), wMb 0x48 (leBytes 2 4), by (try unfold Served); decide +kernel⟩,
     ⟨wMail ({ wRegs wOn [(Reg.faultLogOldest, 1), (Reg.faultLogNext, 2)] with faults := { FaultState.reset with log := [⟨1, wLog, false⟩] } }) 0x60 (leBytes 4 1 ++ leBytes 1 15), wMb 0x60 (leBytes 4 1 ++ leBytes 1 15), [⟨1, wLog, false⟩], by (try unfold Served); decide +kernel⟩,
     ⟨wMail (wOn) 0x61 ([]), wMb 0x61 ([]), by (try unfold Served); decide +kernel⟩,
     ⟨wMail ({ wOn with contexts := [wCtx] }) 0x33 (leBytes 2 0x40), wMb 0x33 (leBytes 2 0x40), wCtx, by (try unfold Served); decide +kernel⟩,
     ⟨wMail (wOn) 0x72 (leBytes 1 0 ++ leBytes 1 1), wMb 0x72 (leBytes 1 0 ++ leBytes 1 1), 1, by (try unfold Served); decide +kernel⟩⟩ <;> decide +kernel

/-- What `Obligations.MailboxContextQueueStepAndLinkCommands` assumes is met. -/
theorem wit_MailboxContextQueueStepAndLinkCommands :
  (∃ s : State, ∃ r : MbReq, ∃ x : Context, Served s 0x31 r ∧ namedContext s r = .inl x ∧ x.run = none) ∧
  (∃ s : State, ∃ r : MbReq, ∃ x : Context, Served s 0x31 r ∧ namedContext s r = .inl x ∧ ∃ q : _, x.run = some q ∧ 0 < q.phases) ∧
  (∃ s : State, ∃ r : MbReq, ∃ x : Context, Served s 0x32 r ∧ namedContext s r = .inl x ∧ dispatchRuns x = true) ∧
  (∃ s : State, ∃ r : MbReq, ∃ x : Context, Served s 0x32 r ∧ namedContext s r = .inl x ∧ dispatchRuns x = false) ∧
  (∃ s : State, ∃ r : MbReq, ∃ q : Nat, Served s 0x38 r ∧ r.fn = 0 ∧ q = param r 0 4 ∧ q < 262144 ∧ param r 4 8 % 4096 = 0 ∧ param r 12 8 % 4096 = 0 ∧ param r 20 1 ≤ 12 ∧ param r 21 1 ≤ 12 ∧ param r 22 1 ≤ 31 ∧ param r 23 2 ≠ 0 ∧ param r 23 2 ≤ 2047 ∧ rangeOwner s q = 0 ∧ (qp s q).mode = 0) ∧
  (∃ s : State, ∃ r : MbReq, ∃ q : Nat, Served s 0x38 r ∧ r.fn = 0 ∧ q = param r 0 4 ∧ q < 262144 ∧ param r 4 8 % 4096 = 0 ∧ param r 12 8 % 4096 = 0 ∧ param r 20 1 ≤ 12 ∧ param r 21 1 ≤ 12 ∧ param r 22 1 ≤ 31 ∧ param r 23 2 ≠ 0 ∧ param r 23 2 ≤ 2047 ∧ rangeOwner s q = 0 ∧ (qp s q).mode ≠ 0) ∧
  (∃ s : State, ∃ r : MbReq, ∃ q : Nat, Served s 0x39 r ∧ q = param r 0 4 ∧ q < 262144 ∧ (qp s q).owner = r.fn ∧ (qp s q).mode = 1 ∧ qpRuns s q = false) ∧
  (∃ s : State, ∃ r : MbReq, ∃ v : Nat, ∃ b : Nat, ∃ n : Nat, Served s 0x3A r ∧ v = param r 0 1 ∧ b = param r 1 4 ∧ n = param r 5 2 ∧ v ≠ 0 ∧ b % 16 = 0 ∧ 16 ≤ n ∧ n ≤ 1024 ∧ b + n ≤ 262144 ∧ s.qps = [] ∧ s.vfRanges = []) ∧
  (∃ s : State, ∃ r : MbReq, ∃ cs : List Nat, ∃ k : Nat, Served s 0x50 r ∧ cs = maskList (param r 0 8) 64 ∧ k = param r 8 1 ∧ k ≤ 7 ∧ stepRefused s cs k = 0) ∧
  (∃ s : State, ∃ r : MbReq, ∃ cs : List Nat, ∃ k : Nat, Served s 0x50 r ∧ cs = maskList (param r 0 8) 64 ∧ k = param r 8 1 ∧ k ≤ 7 ∧ stepRefused s cs k ≠ 0) ∧
  (∃ s : State, ∃ r : MbReq, ∃ k : Nat, Served s 0x51 r ∧ k = param r 0 1 ∧ k ≤ 7 ∧ stepFree s = true) ∧
  (∃ s : State, ∃ r : MbReq, ∃ k : Nat, Served s 0x51 r ∧ k = param r 0 1 ∧ k ≤ 7 ∧ stepFree s = false) ∧
  (∃ s : State, ∃ r : MbReq, ∃ o : Nat, Served s 0x58 r ∧ o = param r 0 1 ∧ o ≤ 15 ∧ (link s o).activity = 0 ∧ (liveActs s).length < 64 ∧ linkUp s o = true) ∧
  (∃ s : State, ∃ r : MbReq, ∃ o : Nat, Served s 0x59 r ∧ o = param r 0 1 ∧ o ≤ 15 ∧ (link s o).activity = 0 ∧ (liveActs s).length < 64 ∧ linkStateOf s o = 5) ∧
  (∃ s : State, ∃ r : MbReq, ∃ o : Nat, Served s 0x5A r ∧ o = param r 0 1 ∧ o ≤ 15) := by
  refine ⟨⟨wMail ({ wOn with contexts := [wCtx] }) 0x31 (leBytes 2 0x40), wMb 0x31 (leBytes 2 0x40), wCtx, by (try unfold Served); decide +kernel⟩,
     ⟨wMail ({ wOn with contexts := [{ wCtx with run := some { wGo with phases := 1 } }] }) 0x31 (leBytes 2 0x40), ⟨wMb 0x31 (leBytes 2 0x40), ⟨{ wCtx with run := some { wGo with phases := 1 } }, ⟨by (try unfold Served); decide +kernel, ⟨?_, ⟨{ wGo with phases := 1 }, by (try unfold Served); decide +kernel⟩⟩⟩⟩⟩⟩,
     ⟨wMail ({ wOn with contexts := [{ wCtx with run := some { wGo with phases := 1 } }] }) 0x32 (leBytes 2 0x40), wMb 0x32 (leBytes 2 0x40), { wCtx with run := some { wGo with phases := 1 } }, by (try unfold Served); decide +kernel⟩,
     ⟨wMail ({ wOn with contexts := [wCtx] }) 0x32 (leBytes 2 0x40), wMb 0x32 (leBytes 2 0x40), wCtx, by (try unfold Served); decide +kernel⟩,
     ⟨wMail (wOn) 0x38 (leBytes 4 262143 ++ leBytes 8 4096 ++ leBytes 8 8192 ++ leBytes 1 12 ++ leBytes 1 0 ++ leBytes 1 31 ++ leBytes 2 2047 ++ leBytes 1 4 ++ leBytes 1 9), wMb 0x38 (leBytes 4 262143 ++ leBytes 8 4096 ++ leBytes 8 8192 ++ leBytes 1 12 ++ leBytes 1 0 ++ leBytes 1 31 ++ leBytes 2 2047 ++ leBytes 1 4 ++ leBytes 1 9), 262143, by (try unfold Served); decide +kernel⟩,
     ⟨wMail ({ wOn with qps := [(262143, { QpState.reset with mode := 1 })] }) 0x38 (leBytes 4 262143 ++ leBytes 8 4096 ++ leBytes 8 8192 ++ leBytes 1 12 ++ leBytes 1 0 ++ leBytes 1 31 ++ leBytes 2 2047 ++ leBytes 1 4 ++ leBytes 1 9), wMb 0x38 (leBytes 4 262143 ++ leBytes 8 4096 ++ leBytes 8 8192 ++ leBytes 1 12 ++ leBytes 1 0 ++ leBytes 1 31 ++ leBytes 2 2047 ++ leBytes 1 4 ++ leBytes 1 9), 262143, by (try unfold Served); decide +kernel⟩,
     ⟨wMail ({ wOn with qps := [(0, { QpState.reset with mode := 1 })] }) 0x39 (leBytes 4 0), wMb 0x39 (leBytes 4 0), 0, by (try unfold Served); decide +kernel⟩,
     ⟨wMail (wOn) 0x3a (leBytes 1 255 ++ leBytes 4 16 ++ leBytes 2 1024), wMb 0x3a (leBytes 1 255 ++ leBytes 4 16 ++ leBytes 2 1024), 255, 16, 1024, by (try unfold Served); decide +kernel⟩,
     ⟨wMail (wOn) 0x50 (leBytes 8 0x8000_0000_0000_0001 ++ leBytes 1 7), wMb 0x50 (leBytes 8 0x8000_0000_0000_0001 ++ leBytes 1 7), [0, 63], 7, by (try unfold Served); decide +kernel⟩,
     ⟨wMail ({ wOn with power := { PowerState.reset with throttleFrom := some 0 } }) 0x50 (leBytes 8 1 ++ leBytes 1 7), wMb 0x50 (leBytes 8 1 ++ leBytes 1 7), [0], 7, by (try unfold Served); decide +kernel⟩,
     ⟨wMail (wOn) 0x51 (leBytes 1 7), wMb 0x51 (leBytes 1 7), 7, by (try unfold Served); decide +kernel⟩,
     ⟨wMail (wUp) 0x51 (leBytes 1 7), wMb 0x51 (leBytes 1 7), 7, by (try unfold Served); decide +kernel⟩,
     ⟨wMail (wLink LinkState.reset) 0x58 (leBytes 1 1), wMb 0x58 (leBytes 1 1), 1, by (try unfold Served); decide +kernel⟩,
     ⟨wMail (wRegs wOn [(Reg.linkStat 15, 5)]) 0x59 (leBytes 1 15), wMb 0x59 (leBytes 1 15), 15, by (try unfold Served); decide +kernel⟩,
     ⟨wMail (wRegs wOn [(Reg.linkStat 15, 9)]) 0x5a (leBytes 1 15), wMb 0x5a (leBytes 1 15), 15, by (try unfold Served); decide +kernel⟩⟩ <;> decide +kernel

/-- What `Obligations.MailboxMaintenanceCommands` assumes is met. -/
theorem wit_MailboxMaintenanceCommands :
  (∃ s : State, ∃ r : MbReq, Served s 0x40 r ∧ (liveActs s).length < 64 ∧ param r 0 1 ≤ 15 ∧ param r 1 8 % 4096 = 0 ∧ param r 1 8 + 4096 ≤ farBase ∧ ((∀ x ∈ s.contexts, ∀ k ∈ x.cores, k.core / 4 ≠ param r 0 1))) ∧
  (∃ s : State, ∃ r : MbReq, Served s 0x41 r ∧ (liveActs s).length < 64 ∧ param r 0 1 ≤ 127 ∧ param r 1 1 ≤ 31) ∧
  (∃ s : State, ∃ r : MbReq, Served s 0x42 r ∧ (liveActs s).length < 64) ∧
  (∃ s : State, ∃ r : MbReq, Served s 0x43 r ∧ (liveActs s).length < 64 ∧ param r 0 8 % 4096 = 0 ∧ param r 0 8 + imageSize ≤ farBase) ∧
  (∃ s : State, ∃ r : MbReq, Served s 0x44 r ∧ (liveActs s).length < 64 ∧ param r 0 8 % 4096 = 0 ∧ param r 0 8 + imageSize ≤ farBase) ∧
  (∃ s : State, ∃ r : MbReq, Served s 0x45 r ∧ (liveActs s).length < 64 ∧ param r 0 8 < farBase) ∧
  (∃ s : State, ∃ r : MbReq, Served s 0x46 r ∧ (liveActs s).length < 64) ∧
  (∃ s : State, ∃ r : MbReq, Served s 0x47 r ∧ (liveActs s).length < 64) ∧
  (∃ s : State, ∃ r : MbReq, ∃ x : Activity, Served s 0x49 r ∧ s.acts.find? (fun a => a.num == param r 0 2) = some x ∧ x.mode = .queued) ∧
  (∃ s : State, ∃ r : MbReq, ∃ x : Activity, Served s 0x49 r ∧ s.acts.find? (fun a => a.num == param r 0 2) = some x ∧ x.mode = .running) ∧
  (∃ s : State, ∃ r : MbReq, Served s 0x70 r ∧ (liveActs s).length < 64 ∧ badFlash? s (param r 0 1) (param r 1 4) (param r 5 4) 65536 1 5 = none) ∧
  (∃ s : State, ∃ r : MbReq, Served s 0x71 r ∧ (liveActs s).length < 64 ∧ param r 5 8 + param r 13 4 ≤ farBase ∧ badFlash? s (param r 0 1) (param r 1 4) (param r 13 4) 256 1 13 = none) ∧
  (∃ s : State, ∃ n : Nat, ∃ x : Activity, weirServes s = true ∧ s.acts.find? (fun a => a.num == n && a.mode == .running) = some x ∧ x.opcode = 0x70) ∧
  (∃ s : State, ∃ n : Nat, ∃ x : Activity, weirServes s = true ∧ s.acts.find? (fun a => a.num == n && a.mode == .running) = some x ∧ x.opcode = 0x71 ∧ notBlank? s x.site x.addr x.len = none) ∧
  (∃ s : State, ∃ n : Nat, ∃ x : Activity, ∃ v : CalPair, ∃ i : SiteNo, ∃ c : Fin 256, weirServes s = true ∧ s.acts.find? (fun a => a.num == n && a.mode == .running) = some x ∧ x.opcode = opCc ∧ v.reg = .tx i c ∧ x.guide = 8 * i + c / 32 ∧ x.lambda = c % 32 ∧ ∃ e : Nat × Nat, measAgree v = true ∧ selectRing v.second = some e) ∧
  (∃ s : State, ∃ n : Nat, ∃ x : Activity, ∃ v : CalPair, ∃ i : SiteNo, ∃ c : Fin 256, weirServes s = true ∧ s.acts.find? (fun a => a.num == n && a.mode == .running) = some x ∧ x.opcode = opCc ∧ v.reg = .tx i c ∧ x.guide = 8 * i + c / 32 ∧ x.lambda = c % 32 ∧ measAgree v = false ∧ x.len = 0) ∧
  (∃ s : State, ∃ n : Nat, ∃ x : Activity, ∃ v : CalPair, ∃ i : SiteNo, ∃ c : Fin 256, weirServes s = true ∧ s.acts.find? (fun a => a.num == n && a.mode == .running) = some x ∧ x.opcode = opCc ∧ v.reg = .tx i c ∧ x.guide = 8 * i + c / 32 ∧ x.lambda = c % 32 ∧ measAgree v = false ∧ x.len = 32 * x.guide + x.lambda + 1) ∧
  (∃ s : State, ∃ n : Nat, ((weirServes s = false ∨ s.acts.find? (fun a => a.num == n && a.mode == .running) = none))) ∧
  (∃ s : State, ∃ n : Nat, ∃ x : Activity, weirServes s = true ∧ s.acts.find? (fun a => a.num == n && a.mode == .running) = some x ∧ ((x.opcode = 0x41 ∨ x.opcode = 0x47 ∨ x.opcode = 0x11 ∨ x.opcode = 0x58 ∨ bundleBack s x = false))) ∧
  (∃ s : State, ∃ n : Nat, ∃ x : Activity, weirServes s = true ∧ s.acts.find? (fun a => a.num == n && a.mode == .running) = some x ∧ x.opcode = 0x40 ∧ bundleBack s x = true ∧ ((∀ y ∈ s.acts, y.mode ≠ .queued))) ∧
  (∃ s : State, weirServes s = true ∧ s.flash.calChanged = true ∧ s.flash.calWritten + 86400000000000 ≤ s.time.now) ∧
  (∃ s : State, ((weirServes s = false ∨ s.flash.calChanged = false ∨ s.time.now < s.flash.calWritten + 86400000000000))) := by
  refine ⟨⟨wMail (wOn) 0x40 (leBytes 1 15 ++ leBytes 8 4096), wMb 0x40 (leBytes 1 15 ++ leBytes 8 4096), by (try unfold Served); decide +kernel⟩,
     ⟨wMail (wOn) 0x41 (leBytes 1 127 ++ leBytes 1 31), wMb 0x41 (leBytes 1 127 ++ leBytes 1 31), by (try unfold Served); decide +kernel⟩,
     ⟨wMail (wOn) 0x42 ([]), wMb 0x42 ([]), by (try unfold Served); decide +kernel⟩,
     ⟨wMail (wOn) 0x43 (leBytes 8 4096), wMb 0x43 (leBytes 8 4096), by (try unfold Served); decide +kernel⟩,
     ⟨wMail (wOn) 0x44 (leBytes 8 4096), wMb 0x44 (leBytes 8 4096), by (try unfold Served); decide +kernel⟩,
     ⟨wMail (wOn) 0x45 (leBytes 8 0xFF_FFFF_FFFF), wMb 0x45 (leBytes 8 0xFF_FFFF_FFFF), by (try unfold Served); decide +kernel⟩,
     ⟨wMail (wOn) 0x46 ([]), wMb 0x46 ([]), by (try unfold Served); decide +kernel⟩,
     ⟨wMail (wOn) 0x47 ([]), wMb 0x47 ([]), by (try unfold Served); decide +kernel⟩,
     ⟨wMail ({ wOn with acts := [wAct 0x41 .queued] }) 0x49 (leBytes 2 5), wMb 0x49 (leBytes 2 5), wAct 0x41 .queued, by (try unfold Served); decide +kernel⟩,
     ⟨wMail ({ wOn with acts := [wAct 0x41 .running] }) 0x49 (leBytes 2 5), wMb 0x49 (leBytes 2 5), wAct 0x41 .running, by (try unfold Served); decide +kernel⟩,
     ⟨wMail (wOn) 0x70 (leBytes 1 1 ++ leBytes 4 0 ++ leBytes 4 65536), wMb 0x70 (leBytes 1 1 ++ leBytes 4 0 ++ leBytes 4 65536), by (try unfold Served); decide +kernel⟩,
     ⟨wMail (wOn) 0x71 (leBytes 1 1 ++ leBytes 4 0x100 ++ leBytes 8 4096 ++ leBytes 4 256), wMb 0x71 (leBytes 1 1 ++ leBytes 4 0x100 ++ leBytes 8 4096 ++ leBytes 4 256), by (try unfold Served); decide +kernel⟩,
     ⟨{ wOn with acts := [wAct 0x70 .running] }, 5, wAct 0x70 .running, ?_⟩,
     ⟨{ wOn with acts := [wAct 0x71 .running] }, 5, wAct 0x71 .running, ?_⟩,
     ⟨{ wOn with acts := [{ wAct opCc .running with len := 0 }] }, ⟨5, ⟨{ wAct opCc .running with len := 0 }, ⟨⟨.tx 0 255, ⟨359, 2493, 2492, 5, 45⟩, ⟨0, 2492, 2489, 7, 45⟩⟩, ⟨0, ⟨255, ⟨?_, ⟨?_, ⟨?_, ⟨?_, ⟨?_, ⟨?_, ⟨(2, 2489), ?_⟩⟩⟩⟩⟩⟩⟩⟩⟩⟩⟩⟩⟩,
     ⟨{ wOn with acts := [{ wAct opCc .running with len := 0 }] }, 5, { wAct opCc .running with len := 0 }, ⟨.tx 0 255, ⟨359, 2493, 2492, 5, 45⟩, ⟨0, 2492, 2488, 7, 45⟩⟩, 0, 255, ?_⟩,
     ⟨{ wOn with acts := [{ wAct opCc .running with len := 256 }] }, 5, { wAct opCc .running with len := 256 }, ⟨.tx 0 255, ⟨359, 2493, 2492, 5, 45⟩, ⟨0, 2492, 2488, 7, 45⟩⟩, 0, 255, ?_⟩,
     ⟨wUp, 5, ?_⟩,
     ⟨{ wOn with acts := [wAct 0x41 .running] }, 5, wAct 0x41 .running, ?_⟩,
     ⟨{ wRegs wOn [(Reg.abangoStat 0, 2)] with acts := [wAct 0x40 .running], sites := [(0, { SiteState.reset with creditsHeld := true, abango := { Abango.reset with nego := .committed } })] }, 5, wAct 0x40 .running, ?_⟩,
     ⟨{ wAt wOn 86400000000000 with flash := { FlashState.reset with calChanged := true } }, ?_⟩,
     ⟨wUp, ?_⟩⟩ <;> decide +kernel

/-- Partition 63, open, with core 0, key 7 and one unit of site 0's stack. -/
def wPart : Partition :=
  { Partition.reset with mode := .opened, cores := 1, keys := [⟨7, 1, 1, 0⟩], units := [(0, true)] }
def wParts (x : Partition) : State := { wOn with parts := [(63, x)] }

/-- An egress entry of partition 63 for key 7, any coordinate, the first 2^30 bytes; reads and stores. -/
def wEg (sealed : Bool) : Egress :=
  { w0 := BitVec.ofNat 64 (2 ^ 63 + 63 * 2 ^ 56 + 2 ^ 48 + 2 ^ 49 + 2 ^ 50), w1 := BitVec.ofNat 64 (7 * 2 ^ 48 + 0x3FFFF), sealed := sealed }

/-- A mapped far-window slot of partition 63. -/
def wSlot : FarSlot := { valid := true, part := 63, cacheable := true, writable := true, kind := 0, coord := 0x123, key := 7, base := 0 }

/-- A request of a move into the last far-window slot. -/
def wFarReq : OpenReq := { wOpen with outlet := some 0, addr := farBase + 3071 * 2 ^ 30 }

/-- A container's header (R188) of one core and one phase, with its size, the offsets of its sections and its check. -/
def wPlanHead (size po so d crc : Nat) : List Byte :=
  leBytes 4 0x4E4C5054 ++ leBytes 2 0x0100 ++ leBytes 2 256 ++ leBytes 8 1 ++ leBytes 8 size ++ leBytes 2 0x0101 ++ leBytes 2 0 ++
    leBytes 4 65536 ++ leBytes 4 0xFFFF_FF00 ++ leBytes 2 1 ++ leBytes 2 1 ++ leBytes 8 0 ++ leBytes 8 po ++ leBytes 8 so ++
    leBytes 8 0 ++ leBytes 8 d ++ List.replicate 0xAC 0 ++ leBytes 4 crc

/-- Partition 63 sealed, with a stream area at site 0 or none, and at address 4096 a container: its header and its other bytes
that are not zero. -/
def wLoad (area : Bool) (head : List Byte) (rest : List (Nat × Byte)) : State :=
  { wParts { wPart with mode := .sealed, areas := if area then [(0, { base := 0, data := 0, stream := 1 })] else [] } with
    mem := (((List.range 256).zip head).filter fun e => e.2 != 0).map (fun e => (4096 + e.1, e.2)) ++ rest
    written := (List.range 5).map fun i => (i + 1, true) }

def wPlanBytes : Array Byte := (wPlanHead 256 0 0 0 1390625755).toArray
theorem wPlanBytes_check : headRule2 wPlanBytes = true := by decide +kernel

/-- No place of the egress table is free in a module whose 1,024 entries are valid. -/
theorem freeEgress_full (s : State) (h : s.island.egress = List.replicate 1024 (wEg true)) : freeEgress s = [] := by
  unfold freeEgress
  rw [h, List.filter_eq_nil_iff]
  intro i hi
  rw [List.mem_range] at hi
  have e : bit (wEg true).w0.toNat 63 = true := by decide
  have g : (List.replicate 1024 (wEg true))[i]? = some (wEg true) := by rw [List.getElem?_replicate, if_pos hi]
  rw [g, Option.getD_some, e]
  decide

def wLoadReq (n : Nat) : List Byte := leBytes 1 63 ++ leBytes 8 4096 ++ leBytes 8 n ++ List.replicate 16 0xFF

/-- What `Obligations.PartitionsAreBuiltSealedAndDestroyed` assumes is met. -/
theorem wit_PartitionsAreBuiltSealedAndDestroyed :
  (∃ s : State, ∃ r : MbReq, ∃ p : Nat, ∃ cs : List Nat, Served s 0x10 r ∧ p = param r 0 1 ∧ p < 64 ∧ param r 9 1 = 0 ∧ (part s p).mode = .absent ∧ cs = maskList (param r 1 8) 64 ∧ s.power.throttleFrom = none ∧ ((∀ c ∈ cs, partOfCore s c = 0xFF ∧ (core s c).fenced = false))) ∧
  (∃ s : State, ∃ r : MbReq, ∃ p : Nat, ∃ cs : List Nat, Served s 0x10 r ∧ p = param r 0 1 ∧ p < 64 ∧ param r 9 1 = 0 ∧ (part s p).mode = .absent ∧ cs = maskList (param r 1 8) 64 ∧ ((∃ c ∈ cs, partOfCore s c ≠ 0xFF ∨ (core s c).fenced = true))) ∧
  (∃ s : State, ∃ r : MbReq, ∃ p : Nat, ∃ v : Nat, Served s 0x12 r ∧ p = param r 0 1 ∧ v = param r 1 1 ∧ p < 64 ∧ partLive s p = true ∧ param r 2 1 = 1 ∧ v ≠ 0 ∧ (part s p).vf = none ∧ heldByOther s p (fun y => y.vf == some v) = false) ∧
  (∃ s : State, ∃ r : MbReq, ∃ p : Nat, ∃ v : Nat, Served s 0x12 r ∧ p = param r 0 1 ∧ v = param r 1 1 ∧ p < 64 ∧ partLive s p = true ∧ param r 2 1 = 0 ∧ v ≠ 0 ∧ (part s p).vf = some v ∧ ((∀ q ∈ s.qps, q.2.mode ≠ 0 → q.2.owner ≠ v))) ∧
  (∃ s : State, ∃ r : MbReq, ∃ p : Nat, ∃ v : Nat, Served s 0x12 r ∧ p = param r 0 1 ∧ v = param r 1 1 ∧ p < 64 ∧ partLive s p = true ∧ param r 2 1 = 2 ∧ v ≤ 31) ∧
  (∃ s : State, ∃ r : MbReq, ∃ p : Nat, ∃ v : Nat, Served s 0x12 r ∧ p = param r 0 1 ∧ v = param r 1 1 ∧ p < 64 ∧ partLive s p = true ∧ param r 2 1 = 3 ∧ v ≤ 31) ∧
  (∃ s : State, ∃ r : MbReq, ∃ p : Nat, ∃ a : Nat, ∃ n : Nat, Served s 0x13 r ∧ p = param r 0 1 ∧ a = param r 1 8 ∧ n = param r 9 8 ∧ p < 64 ∧ a % 2 ^ 26 = 0 ∧ n % 2 ^ 26 = 0 ∧ n ≠ 0 ∧ a + n ≤ farBase ∧ partLive s p = true ∧ ((∀ u, a / 2 ^ 26 ≤ u → u < (a + n) / 2 ^ 26 → heldByOther s p (fun y => tget false y.units u) = false)) ∧ param r 17 1 = 1) ∧
  (∃ s : State, ∃ r : MbReq, ∃ p : Nat, ∃ a : Nat, ∃ n : Nat, Served s 0x13 r ∧ p = param r 0 1 ∧ a = param r 1 8 ∧ n = param r 9 8 ∧ p < 64 ∧ a % 2 ^ 26 = 0 ∧ n % 2 ^ 26 = 0 ∧ n ≠ 0 ∧ a + n ≤ farBase ∧ partLive s p = true ∧ ((∀ u, a / 2 ^ 26 ≤ u → u < (a + n) / 2 ^ 26 → heldByOther s p (fun y => tget false y.units u) = false)) ∧ param r 17 1 = 0 ∧ partSealed s p = false) ∧
  (∃ s : State, ∃ r : MbReq, ∃ p : Nat, ∃ k : KeyRec, Served s 0x14 r ∧ p = param r 0 1 ∧ p < 64 ∧ k.key = param r 1 2 ∧ k.key ≠ 0 ∧ k.egress = BitVec.ofNat 16 (param r 3 2) ∧ k.inBasin = BitVec.ofNat 16 (param r 5 2) ∧ k.inOutlet = BitVec.ofNat 16 (param r 7 2) ∧ partLive s p = true ∧ partSealed s p = false ∧ heldByOther s p (fun y => y.keys.any fun j => j.key == k.key) = false ∧ ((∀ j ∈ (part s p).keys, j.key ≠ k.key)) ∧ k.egress ≠ 0 ∧ ((∀ i, i < 16 → bit (keyMask k) i = true → keyUse s p ((part s p).keys ++ [k]) i ≤ 16))) ∧
  (∃ s : State, ∃ r : MbReq, ∃ p : Nat, ∃ k : KeyRec, Served s 0x14 r ∧ p = param r 0 1 ∧ p < 64 ∧ k.key = param r 1 2 ∧ k.key ≠ 0 ∧ k.egress = BitVec.ofNat 16 (param r 3 2) ∧ k.inBasin = BitVec.ofNat 16 (param r 5 2) ∧ k.inOutlet = BitVec.ofNat 16 (param r 7 2) ∧ partLive s p = true ∧ partSealed s p = false ∧ heldByOther s p (fun y => y.keys.any fun j => j.key == k.key) = false ∧ ((∀ j ∈ (part s p).keys, j.key ≠ k.key)) ∧ k.egress ≠ 0 ∧ ((∃ i, i < 16 ∧ bit (keyMask k) i = true ∧ 16 < keyUse s p ((part s p).keys ++ [k]) i))) ∧
  (∃ s : State, ∃ r : MbReq, ∃ p : Nat, ∃ n : Nat, Served s 0x15 r ∧ p = param r 0 1 ∧ n = param r 1 1 ∧ p < 64 ∧ 1 ≤ n ∧ n ≤ 16 ∧ ((∀ j, j < n → egressFormed (param r (2 + 16 * j) 8) (param r (10 + 16 * j) 8) = true ∧ ∃ k ∈ (part s p).keys, k.key = param r (10 + 16 * j) 8 / 2 ^ 48 ∧ k.egress ≠ 0)) ∧ partLive s p = true ∧ partSealed s p = false ∧ n ≤ (freeEgress s).length) ∧
  (∃ s : State, ∃ r : MbReq, ∃ p : Nat, ∃ n : Nat, Served s 0x15 r ∧ p = param r 0 1 ∧ n = param r 1 1 ∧ p < 64 ∧ 1 ≤ n ∧ n ≤ 16 ∧ ((∀ j, j < n → egressFormed (param r (2 + 16 * j) 8) (param r (10 + 16 * j) 8) = true ∧ ∃ k ∈ (part s p).keys, k.key = param r (10 + 16 * j) 8 / 2 ^ 48 ∧ k.egress ≠ 0)) ∧ partLive s p = true ∧ partSealed s p = false ∧ (freeEgress s).length < n) ∧
  (∃ s : State, ∃ r : MbReq, ∃ p : Nat, Served s 0x16 r ∧ p = param r 0 1 ∧ p < 64 ∧ partLive s p = true ∧ partSealed s p = false ∧ sealAllowed (part s p) = true) ∧
  (∃ s : State, ∃ r : MbReq, ∃ p : Nat, Served s 0x16 r ∧ p = param r 0 1 ∧ p < 64 ∧ partLive s p = true ∧ partSealed s p = false ∧ sealAllowed (part s p) = false) ∧
  (∃ s : State, ∃ r : MbReq, ∃ p : Nat, Served s 0x17 r ∧ p = paramPart s r 0 ∧ p < 64) ∧
  (∃ s : State, ∃ r : MbReq, ∃ p : Nat, Served s 0x11 r ∧ p = param r 0 1 ∧ p < 64 ∧ (part s p).mode = .absent) ∧
  (∃ s : State, ∃ r : MbReq, ∃ p : Nat, Served s 0x11 r ∧ p = param r 0 1 ∧ p < 64 ∧ (part s p).mode ≠ .absent ∧ (part s p).activity = 0 ∧ (liveActs s).length < 64) ∧
  (∃ s : State, weirServes s = false) ∧
  (∃ s : State, ∃ p : Nat, ∃ a : Nat, ∃ x : Partition, weirServes s = true ∧ tfind s.parts p = some x ∧ x.mode = .destroying ∧ x.activity ≠ 0 ∧ partSlots s p ≠ [] ∧ x.destroyFrom = some a ∧ a + 1000000000 ≤ s.time.now) := by
  refine ⟨⟨wMail (wOn) 0x10 (leBytes 1 63 ++ leBytes 8 (2 ^ 63 + 1) ++ leBytes 1 0), wMb 0x10 (leBytes 1 63 ++ leBytes 8 (2 ^ 63 + 1) ++ leBytes 1 0), 63, [0, 63], by (try unfold Served); decide +kernel⟩,
     ⟨wMail (wParts wPart) 0x10 (leBytes 1 62 ++ leBytes 8 1 ++ leBytes 1 0), wMb 0x10 (leBytes 1 62 ++ leBytes 8 1 ++ leBytes 1 0), 62, [0], by (try unfold Served); decide +kernel⟩,
     ⟨wMail (wParts wPart) 0x12 (leBytes 1 63 ++ leBytes 1 255 ++ leBytes 1 1), wMb 0x12 (leBytes 1 63 ++ leBytes 1 255 ++ leBytes 1 1), 63, 255, by (try unfold Served); decide +kernel⟩,
     ⟨wMail (wParts { wPart with vf := some 255 }) 0x12 (leBytes 1 63 ++ leBytes 1 255 ++ leBytes 1 0), wMb 0x12 (leBytes 1 63 ++ leBytes 1 255 ++ leBytes 1 0), 63, 255, by (try unfold Served); decide +kernel⟩,
     ⟨wMail (wParts wPart) 0x12 (leBytes 1 63 ++ leBytes 1 31 ++ leBytes 1 2), wMb 0x12 (leBytes 1 63 ++ leBytes 1 31 ++ leBytes 1 2), 63, 31, by (try unfold Served); decide +kernel⟩,
     ⟨wMail (wParts { wPart with channels := 0x8000_0001 }) 0x12 (leBytes 1 63 ++ leBytes 1 31 ++ leBytes 1 3), wMb 0x12 (leBytes 1 63 ++ leBytes 1 31 ++ leBytes 1 3), 63, 31, by (try unfold Served); decide +kernel⟩,
     ⟨wMail (wParts wPart) 0x13 (leBytes 1 63 ++ leBytes 8 0 ++ leBytes 8 (2 ^ 27) ++ leBytes 1 1), wMb 0x13 (leBytes 1 63 ++ leBytes 8 0 ++ leBytes 8 (2 ^ 27) ++ leBytes 1 1), 63, 0, 2 ^ 27, ⟨by unfold Served; decide +kernel, ?_, ?_, ?_, ?_, ?_, ?_, ?_, ?_, ?_, fun u _ h => by interval_cases u <;> decide +kernel, ?_⟩⟩,
     ⟨wMail (wParts wPart) 0x13 (leBytes 1 63 ++ leBytes 8 0 ++ leBytes 8 (2 ^ 26) ++ leBytes 1 0), wMb 0x13 (leBytes 1 63 ++ leBytes 8 0 ++ leBytes 8 (2 ^ 26) ++ leBytes 1 0), 63, 0, 2 ^ 26, ⟨by unfold Served; decide +kernel, ?_, ?_, ?_, ?_, ?_, ?_, ?_, ?_, ?_, fun u _ h => by interval_cases u <;> decide +kernel, ?_, ?_⟩⟩,
     ⟨wMail (wParts wPart) 0x14 (leBytes 1 63 ++ leBytes 2 8 ++ leBytes 2 1 ++ leBytes 2 1 ++ leBytes 2 0), wMb 0x14 (leBytes 1 63 ++ leBytes 2 8 ++ leBytes 2 1 ++ leBytes 2 1 ++ leBytes 2 0), 63, ⟨8, 1, 1, 0⟩, by (try unfold Served); decide +kernel⟩,
     ⟨wMail (wParts { wPart with keys := (List.range 16).map fun i => ⟨i + 1, 1, 1, 0⟩ }) 0x14 (leBytes 1 63 ++ leBytes 2 99 ++ leBytes 2 1 ++ leBytes 2 0 ++ leBytes 2 0), wMb 0x14 (leBytes 1 63 ++ leBytes 2 99 ++ leBytes 2 1 ++ leBytes 2 0 ++ leBytes 2 0), 63, ⟨99, 1, 0, 0⟩, by (try unfold Served); decide +kernel⟩,
     ⟨wMail (wParts wPart) 0x15 (leBytes 1 63 ++ leBytes 1 1 ++ leBytes 8 ((wEg false).w0.toNat) ++ leBytes 8 ((wEg false).w1.toNat)), wMb 0x15 (leBytes 1 63 ++ leBytes 1 1 ++ leBytes 8 ((wEg false).w0.toNat) ++ leBytes 8 ((wEg false).w1.toNat)), 63, 1, by (try unfold Served); decide +kernel⟩,
     ⟨wMail ({ wParts wPart with island := { Island.reset with egress := List.replicate 1024 (wEg true) } }) 0x15 (leBytes 1 63 ++ leBytes 1 1 ++ leBytes 8 ((wEg false).w0.toNat) ++ leBytes 8 ((wEg false).w1.toNat)), wMb 0x15 (leBytes 1 63 ++ leBytes 1 1 ++ leBytes 8 ((wEg false).w0.toNat) ++ leBytes 8 ((wEg false).w1.toNat)), 63, 1, ⟨by unfold Served; decide +kernel, ?_, ?_, ?_, ?_, ?_, ?_, ?_, ?_,  by rw [freeEgress_full _ rfl]; decide⟩⟩,
     ⟨wMail (wParts wPart) 0x16 (leBytes 1 63), wMb 0x16 (leBytes 1 63), 63, by (try unfold Served); decide +kernel⟩,
     ⟨wMail (wParts { wPart with keys := [] }) 0x16 (leBytes 1 63), wMb 0x16 (leBytes 1 63), 63, by (try unfold Served); decide +kernel⟩,
     ⟨wMail (wParts wPart) 0x17 (leBytes 1 63), wMb 0x17 (leBytes 1 63), 63, by (try unfold Served); decide +kernel⟩,
     ⟨wMail (wOn) 0x11 (leBytes 1 63), wMb 0x11 (leBytes 1 63), 63, by (try unfold Served); decide +kernel⟩,
     ⟨wMail (wParts wPart) 0x11 (leBytes 1 63), wMb 0x11 (leBytes 1 63), 63, by (try unfold Served); decide +kernel⟩,
     ⟨State.reset, ?_⟩,
     ⟨{ wAt (wParts { wPart with mode := .destroying, activity := 5, destroyFrom := some 0 }) 1000000000 with far := [(3071, wSlot)], acts := [wAct 0x11 .running] }, 63, 0, { wPart with mode := .destroying, activity := 5, destroyFrom := some 0 }, ?_⟩⟩ <;> decide +kernel

/-- What `Obligations.PondCacheFarWindowAndPlanCommands` assumes is met. -/
theorem wit_PondCacheFarWindowAndPlanCommands :
  (∃ s : State, ∃ r : MbReq, ∃ i : Nat, ∃ k : Nat, Served s 0x20 r ∧ i = param r 0 1 ∧ k = param r 1 1 ∧ i ≤ 15 ∧ k ≤ 3 ∧ ((∀ e ∈ livingParts s, tfind e.2.areas i = none ∧ tget 0 e.2.slices i = 0)) ∧ ((∀ x ∈ s.contexts, ∀ c ∈ x.cores, c.core / 4 ≠ i))) ∧
  (∃ s : State, ∃ r : MbReq, ∃ i : Nat, ∃ k : Nat, Served s 0x20 r ∧ i = param r 0 1 ∧ k = param r 1 1 ∧ i ≤ 15 ∧ k ≤ 3 ∧ ((∃ e ∈ livingParts s, (tfind e.2.areas i).isSome = true ∨ tget 0 e.2.slices i ≠ 0))) ∧
  (∃ s : State, ∃ r : MbReq, ∃ p : Nat, ∃ i : Nat, ∃ d : Nat, ∃ m : Nat, Served s 0x21 r ∧ p = param r 0 1 ∧ i = param r 1 1 ∧ d = param r 2 2 ∧ m = param r 4 2 ∧ p < 64 ∧ i ≤ 15 ∧ d + m ≠ 0 ∧ partLive s p = true ∧ ((∃ c ∈ maskList (part s p).cores.toNat 64, c / 4 = i)) ∧ tfind (part s p).areas i = none ∧ ∃ o : _, areaPlace? s p i (d + m) = some o) ∧
  (∃ s : State, ∃ r : MbReq, ∃ p : Nat, ∃ i : Nat, ∃ d : Nat, ∃ m : Nat, Served s 0x21 r ∧ p = param r 0 1 ∧ i = param r 1 1 ∧ d = param r 2 2 ∧ m = param r 4 2 ∧ p < 64 ∧ i ≤ 15 ∧ d + m ≠ 0 ∧ partLive s p = true ∧ ((∃ c ∈ maskList (part s p).cores.toNat 64, c / 4 = i)) ∧ tfind (part s p).areas i = none ∧ areaPlace? s p i (d + m) = none) ∧
  (∃ s : State, ∃ r : MbReq, ∃ i : Nat, ∃ p : Nat, ∃ m : Nat, Served s 0x22 r ∧ i = param r 0 1 ∧ p = param r 1 1 ∧ m = param r 2 2 ∧ i ≤ 15 ∧ p < 64 ∧ m < 2 ^ (pondCacheBytes s i / 2 ^ 24) ∧ partLive s p = true ∧ heldByOther s p (fun y => (tget 0 y.slices i &&& m) != 0) = false ∧ ((tget 0 (part s p).slices i = 0 ∨ partSealed s p = false ∨ m = tget 0 (part s p).slices i))) ∧
  (∃ s : State, ∃ r : MbReq, ∃ i : Nat, ∃ p : Nat, ∃ m : Nat, Served s 0x22 r ∧ i = param r 0 1 ∧ p = param r 1 1 ∧ m = param r 2 2 ∧ i ≤ 15 ∧ p < 64 ∧ m < 2 ^ (pondCacheBytes s i / 2 ^ 24) ∧ partLive s p = true ∧ heldByOther s p (fun y => (tget 0 y.slices i &&& m) != 0) = true) ∧
  (∃ s : State, ∃ r : MbReq, ∃ n : Nat, Served s 0x23 r ∧ n = param r 0 2 ∧ n < 3072 ∧ (farSlot s n).valid = true) ∧
  (∃ s : State, ∃ r : MbReq, ∃ n : Nat, Served s 0x23 r ∧ n = param r 0 2 ∧ n < 3072 ∧ (farSlot s n).valid = false) ∧
  (∃ s : State, ∃ r : MbReq, ∃ f : FarSlot, Served s 0x24 r ∧ f = farSlotOf r ∧ param r 0 2 < 3072 ∧ f.part < 64 ∧ param r 3 1 ≤ 2 ∧ f.kind ≤ 1 ∧ param r 5 1 ≤ 15 ∧ param r 6 1 ≤ 15 ∧ param r 7 1 ≤ 15 ∧ f.base < 2 ^ 18 ∧ ((f.kind = 1 → f.base * 2 ^ 30 < farBase)) ∧ partLive s f.part = true ∧ windowAllowed s f.part f.key f.coord (f.base * 2 ^ 30) 49 = true ∧ ((f.writable = true → windowAllowed s f.part f.key f.coord (f.base * 2 ^ 30) 50 = true))) ∧
  (∃ s : State, ∃ r : MbReq, ∃ f : FarSlot, Served s 0x24 r ∧ f = farSlotOf r ∧ param r 0 2 < 3072 ∧ f.part < 64 ∧ param r 3 1 ≤ 2 ∧ f.kind ≤ 1 ∧ param r 5 1 ≤ 15 ∧ param r 6 1 ≤ 15 ∧ param r 7 1 ≤ 15 ∧ f.base < 2 ^ 18 ∧ ((f.kind = 1 → f.base * 2 ^ 30 < farBase)) ∧ partLive s f.part = true ∧ windowAllowed s f.part f.key f.coord (f.base * 2 ^ 30) 49 = false) ∧
  (∃ s : State, ∃ r : MbReq, ∃ n : Nat, Served s 0x25 r ∧ n = param r 0 2 ∧ n < 3072 ∧ (farSlot s n).valid = true ∧ slotRequests s n = 0) ∧
  (∃ s : State, ∃ r : MbReq, ∃ n : Nat, Served s 0x25 r ∧ n = param r 0 2 ∧ n < 3072 ∧ (farSlot s n).valid = true ∧ slotRequests s n ≠ 0) ∧
  (∃ s : State, weirServes s = false) ∧
  (∃ s : State, weirServes s = true ∧ ((∃ q ∈ s.farPending, q.entry.valid = false ∧ q.since + 100000000 ≤ s.time.now ∧ slotRequests s q.slot ≠ 0))) ∧
  (∃ s : State, ∃ r : MbReq, ∃ p : Nat, ∃ a : Nat, ∃ n : Nat, ∃ m : Array Byte, Served s 0x30 r ∧ p = paramPart s r 0 ∧ a = param r 1 8 ∧ n = param r 9 8 ∧ p < 64 ∧ a % 4096 = 0 ∧ a < farBase ∧ reach s r.fn a n false = true ∧ badPlace? (fun j => param r (17 + j) 1) = none ∧ (part s p).mode = .sealed ∧ (part s p).cores ≠ 0 ∧ m = (loadBytes s a n).toArray ∧ headRule1 m n = true ∧ headRule2 m = true ∧ headCountsOk (planHead m) = true ∧ ((∀ j, j < 16 → (planHead m).sites ≤ j → param r (17 + j) 1 = 0xFF)) ∧ ∃ c : _, placePlan s.contexts (part s p) m (planHead m) (fun j => param r (17 + j) 1) = .inl c) ∧
  (∃ s : State, ∃ r : MbReq, ∃ p : Nat, ∃ a : Nat, ∃ n : Nat, ∃ m : Array Byte, Served s 0x30 r ∧ p = paramPart s r 0 ∧ a = param r 1 8 ∧ n = param r 9 8 ∧ p < 64 ∧ a % 4096 = 0 ∧ a < farBase ∧ reach s r.fn a n false = true ∧ badPlace? (fun j => param r (17 + j) 1) = none ∧ (part s p).mode = .sealed ∧ (part s p).cores ≠ 0 ∧ m = (loadBytes s a n).toArray ∧ headRule1 m n = true ∧ headRule2 m = true ∧ headCountsOk (planHead m) = true ∧ ((∀ j, j < 16 → (planHead m).sites ≤ j → param r (17 + j) 1 = 0xFF)) ∧ ∃ pl : _, ∃ d : _, placePlan s.contexts (part s p) m (planHead m) (fun j => param r (17 + j) 1) = .inr pl ∧ d = firstFinding (planFindings (planOf m) pl.sites (fun i => match tfind (part s p).areas i with | some x => x.data * 2 ^ 20 | none => 0) (fun c => bit (part s p).cores.toNat c))) := by
  refine ⟨⟨wMail (wOn) 0x20 (leBytes 1 15 ++ leBytes 1 3), wMb 0x20 (leBytes 1 15 ++ leBytes 1 3), 15, 3, by (try unfold Served); decide +kernel⟩,
     ⟨wMail (wParts { wPart with slices := [(0, 1)] }) 0x20 (leBytes 1 0 ++ leBytes 1 0), wMb 0x20 (leBytes 1 0 ++ leBytes 1 0), 0, 0, by (try unfold Served); decide +kernel⟩,
     ⟨wMail (wRegs (wParts wPart) [(Reg.memCfg 0, 0x3_0000)]) 0x21 (leBytes 1 63 ++ leBytes 1 0 ++ leBytes 2 255 ++ leBytes 2 1), ⟨wMb 0x21 (leBytes 1 63 ++ leBytes 1 0 ++ leBytes 2 255 ++ leBytes 2 1), ⟨63, ⟨0, ⟨255, ⟨1, ⟨by (try unfold Served); decide +kernel, ⟨?_, ⟨?_, ⟨?_, ⟨?_, ⟨?_, ⟨?_, ⟨?_, ⟨?_, ⟨?_, ⟨?_, ⟨0, by (try unfold Served); decide +kernel⟩⟩⟩⟩⟩⟩⟩⟩⟩⟩⟩⟩⟩⟩⟩⟩⟩⟩,
     ⟨wMail (wRegs (wParts wPart) [(Reg.memCfg 0, 0x3_0000)]) 0x21 (leBytes 1 63 ++ leBytes 1 0 ++ leBytes 2 256 ++ leBytes 2 1), wMb 0x21 (leBytes 1 63 ++ leBytes 1 0 ++ leBytes 2 256 ++ leBytes 2 1), 63, 0, 256, 1, by (try unfold Served); decide +kernel⟩,
     ⟨wMail (wRegs (wParts wPart) [(Reg.memCfg 0, 0x1_0000)]) 0x22 (leBytes 1 0 ++ leBytes 1 63 ++ leBytes 2 15), wMb 0x22 (leBytes 1 0 ++ leBytes 1 63 ++ leBytes 2 15), 0, 63, 15, by (try unfold Served); decide +kernel⟩,
     ⟨wMail ({ wRegs (wParts wPart) [(Reg.memCfg 0, 0x1_0000)] with parts := [(1, { wPart with slices := [(0, 8)] }), (63, wPart)] }) 0x22 (leBytes 1 0 ++ leBytes 1 63 ++ leBytes 2 15), wMb 0x22 (leBytes 1 0 ++ leBytes 1 63 ++ leBytes 2 15), 0, 63, 15, by (try unfold Served); decide +kernel⟩,
     ⟨wMail ({ wParts wPart with far := [(3071, wSlot)] }) 0x23 (leBytes 2 3071), wMb 0x23 (leBytes 2 3071), 3071, by (try unfold Served); decide +kernel⟩,
     ⟨wMail (wOn) 0x23 (leBytes 2 3071), wMb 0x23 (leBytes 2 3071), 3071, by (try unfold Served); decide +kernel⟩,
     ⟨wMail ({ wParts { wPart with mode := .sealed } with island := { Island.reset with egress := [wEg true] } }) 0x24 (leBytes 2 3071 ++ leBytes 1 63 ++ leBytes 1 2 ++ leBytes 1 0 ++ leBytes 1 3 ++ leBytes 1 2 ++ leBytes 1 1 ++ leBytes 2 7 ++ leBytes 4 0), wMb 0x24 (leBytes 2 3071 ++ leBytes 1 63 ++ leBytes 1 2 ++ leBytes 1 0 ++ leBytes 1 3 ++ leBytes 1 2 ++ leBytes 1 1 ++ leBytes 2 7 ++ leBytes 4 0), farSlotOf (wMb 0x24 (leBytes 2 3071 ++ leBytes 1 63 ++ leBytes 1 2 ++ leBytes 1 0 ++ leBytes 1 3 ++ leBytes 1 2 ++ leBytes 1 1 ++ leBytes 2 7 ++ leBytes 4 0)), by (try unfold Served); decide +kernel⟩,
     ⟨wMail ({ wParts { wPart with mode := .sealed } with island := { Island.reset with egress := [wEg true] } }) 0x24 (leBytes 2 0 ++ leBytes 1 63 ++ leBytes 1 0 ++ leBytes 1 0 ++ leBytes 1 3 ++ leBytes 1 2 ++ leBytes 1 1 ++ leBytes 2 7 ++ leBytes 4 1), wMb 0x24 (leBytes 2 0 ++ leBytes 1 63 ++ leBytes 1 0 ++ leBytes 1 0 ++ leBytes 1 3 ++ leBytes 1 2 ++ leBytes 1 1 ++ leBytes 2 7 ++ leBytes 4 1), farSlotOf (wMb 0x24 (leBytes 2 0 ++ leBytes 1 63 ++ leBytes 1 0 ++ leBytes 1 0 ++ leBytes 1 3 ++ leBytes 1 2 ++ leBytes 1 1 ++ leBytes 2 7 ++ leBytes 4 1)), by (try unfold Served); decide +kernel⟩,
     ⟨wMail ({ wParts wPart with far := [(3071, wSlot)] }) 0x25 (leBytes 2 3071), wMb 0x25 (leBytes 2 3071), 3071, by (try unfold Served); decide +kernel⟩,
     ⟨wMail ({ wParts wPart with far := [(3071, wSlot)], sites := [(0, { SiteState.reset with outstanding := [wFarReq] })] }) 0x25 (leBytes 2 3071), wMb 0x25 (leBytes 2 3071), 3071, by (try unfold Served); decide +kernel⟩,
     ⟨State.reset, ?_⟩,
     ⟨{ wAt wOn 100000000 with farPending := [{ slot := 3071, entry := FarSlot.reset, since := 0, window := none }], sites := [(0, { SiteState.reset with outstanding := [wFarReq] })] }, ?_⟩,
     ⟨wMail (wLoad false (wPlanHead 256 0 0 0 1390625755) []) 0x30 (wLoadReq 256), ⟨wMb 0x30 (wLoadReq 256), ⟨63, ⟨4096, ⟨256, ⟨wPlanBytes, ⟨by unfold Served; decide +kernel, ⟨?_, ⟨?_, ⟨?_, ⟨?_, ⟨?_, ⟨?_, ⟨?_, ⟨?_, ⟨?_, ⟨?_, ⟨congrArg List.toArray (by decide +kernel : wPlanHead 256 0 0 0 1390625755 = loadBytes _ 4096 256), ⟨?_, ⟨wPlanBytes_check, ⟨?_, ⟨?_, ⟨4, ?_⟩⟩⟩⟩⟩⟩⟩⟩⟩⟩⟩⟩⟩⟩⟩⟩⟩⟩⟩⟩⟩⟩⟩,
     ⟨wMail (wLoad true (wPlanHead 256 0 0 0 1390625755) []) 0x30 (wLoadReq 256), ⟨wMb 0x30 (wLoadReq 256), ⟨63, ⟨4096, ⟨256, ⟨wPlanBytes, ⟨by unfold Served; decide +kernel, ⟨?_, ⟨?_, ⟨?_, ⟨?_, ⟨?_, ⟨?_, ⟨?_, ⟨?_, ⟨?_, ⟨?_, ⟨congrArg List.toArray (by decide +kernel : wPlanHead 256 0 0 0 1390625755 = loadBytes _ 4096 256), ⟨?_, ⟨wPlanBytes_check, ⟨?_, ⟨?_, ⟨{ sites := [0], cores := [0], number := 0, regions := [0], streams := [4398046511104] }, ⟨11 + 256 * 3, ?_⟩⟩⟩⟩⟩⟩⟩⟩⟩⟩⟩⟩⟩⟩⟩⟩⟩⟩⟩⟩⟩⟩⟩⟩⟩ <;> decide +kernel

/-- A Weir state with Weir A serving; a switchover under way. -/
def wW (x : WeirState) : State := { wUp with weir := x }
def wWeir : WeirState := { WeirState.reset with running := true }
def wGap (drill beats retry : Bool) : Gap :=
  { starting := .b, former := .a, beatsOnly := beats, drill := drill, retry := retry, since := 0, from_ := 0 }
def wSwap (drill beats retry : Bool) : State := wW { wWeir with gap := some (wGap drill beats retry) }

/-- Feeds: both good, or none; the island on VKEEP. -/
def wFeeds (a b : Bool) : State := { wUp with power := { PowerState.reset with goodA := a, goodB := b } }
def wKeep (a : Bool) (t : Option TripRecord) : State := { wFeeds a false with island := { Island.reset with onVkeep := true, trip := t } }

/-- The throttle running since 0: core 0 ramps up, core 63 stands at S5; or strict cores alone are left. -/
def wThr (n : Nat) : State :=
  { wAt (wFeeds true true) n with
      power := { PowerState.reset with goodA := true, goodB := true, throttleFrom := some 0, lowerAt := 20000 },
      parts := [(0, { Partition.reset with mode := .opened, cores := 0x8000_0000_0000_0001 })],
      cores := [(0, { CoreState.reset with step := 3, rampTo := some 7 }), (63, { CoreState.reset with step := 5 })] }
def wThrS (n : Nat) : State :=
  { wThr n with parts := [(0, { Partition.reset with mode := .opened, cores := 0x8000_0000_0000_0001, strict := 0x87 })] }

/-- What `Obligations.WeirBeatsFaultsAndSwitchovers` assumes is met. -/
theorem wit_WeirBeatsFaultsAndSwitchovers :
  (∃ s : State, weirServes s = false) ∧
  (∃ s : State, weirServes s = true) ∧
  (∃ s : State, ∃ p : BeatPath, beatLate s p = false) ∧
  (∃ s : State, ∃ p : BeatPath, weirServes s = true ∧ ((s.time.running = false ∨ awaitedFrom s p + 1100000 ≤ s.time.now)) ∧ 3 ≤ missed s p + 1 ∧ 3 ≤ missed s (otherPath p)) ∧
  (∃ s : State, ∃ p : BeatPath, weirServes s = true ∧ ((s.time.running = false ∨ awaitedFrom s p + 1100000 ≤ s.time.now))) ∧
  (∃ s : State, ∃ p : BeatPath, weirServes s = true ∧ ((s.time.running = false ∨ awaitedFrom s p + 1100000 ≤ s.time.now)) ∧ 3 ≤ missed s p + 1 ∧ missed s (otherPath p) = 0 ∧ regBit s Reg.faultWeir 3 = false) ∧
  (∃ s : State, ((s.weir.mgmtLost = true ∨ s.weir.running = false))) ∧
  (∃ s : State, s.weir.mgmtLost = false ∧ s.weir.running = true ∧ s.weir.gap = none ∧ hasStandby s = true) ∧
  (∃ s : State, s.weir.mgmtLost = false ∧ s.weir.running = true ∧ s.weir.gap = none ∧ hasStandby s = false) ∧
  (∃ s : State, s.weir.gap = none) ∧
  (∃ s : State, ∃ g : Gap, s.weir.gap = some g ∧ g.drill = true ∧ weirFailed s g.starting = true) ∧
  (∃ s : State, ∃ g : Gap, s.weir.gap = some g ∧ s.time.running = true ∧ s.time.now < g.from_ + 12500000) ∧
  (∃ s : State, ∃ g : Gap, s.weir.gap = some g ∧ ((g.drill = false ∨ weirFailed s g.starting = false))) ∧
  (∃ s : State, ∃ g : Gap, ∃ c : Instr, s.weir.gap = some g ∧ (((c = .gapBoundExpiry ∧ (s.time.running = false ∨ g.from_ + 12500000 ≤ s.time.now)) ∨ (s.weir.mgmtLost = false ∧ s.weir.running = true ∧ ∃ p k, c = .explicitFault p k))) ∧ g.drill = true) ∧
  (∃ s : State, ∃ g : Gap, ∃ c : Instr, s.weir.gap = some g ∧ (((c = .gapBoundExpiry ∧ (s.time.running = false ∨ g.from_ + 12500000 ≤ s.time.now)) ∨ (s.weir.mgmtLost = false ∧ s.weir.running = true ∧ ∃ p k, c = .explicitFault p k))) ∧ g.drill = false ∧ g.beatsOnly = true ∧ g.retry = false) ∧
  (∃ s : State, ∃ g : Gap, ∃ c : Instr, s.weir.gap = some g ∧ (((c = .gapBoundExpiry ∧ (s.time.running = false ∨ g.from_ + 12500000 ≤ s.time.now)) ∨ (s.weir.mgmtLost = false ∧ s.weir.running = true ∧ ∃ p k, c = .explicitFault p k))) ∧ g.drill = false ∧ ((g.beatsOnly = false ∨ g.retry = true))) ∧
  (∃ s : State, weirServes s = true) ∧
  (∃ s : State, ((hasStandby s = false ∨ regBit s Reg.globalStat 5 = false ∨ ∃ a, s.weir.standbyChecked = some a ∧ s.time.now < a + 86400000000000))) ∧
  (∃ s : State, ((hasStandby s = false ∨ regBit s Reg.globalStat 5 = false ∨ ∃ a, s.weir.standbyChecked = some a ∧ s.time.now < a + 86400000000000))) ∧
  (∃ s : State, weirServes s = true ∧ hasStandby s = true ∧ regBit s Reg.globalStat 5 = true ∧ ((∀ a, s.weir.standbyChecked = some a → a + 86400000000000 ≤ s.time.now))) := by
  refine ⟨⟨State.reset, ?_⟩,
     ⟨wAt (wW { wWeir with missMsg := 3, missWire := 2 }) 5, ?_⟩,
     ⟨wAt (wW wWeir) 1099999, .wire, ?_⟩,
     ⟨wAt (wW { wWeir with missMsg := 2, missWire := 3 }) 1100000, .message, ?_⟩,
     ⟨wW { wWeir with missMsg := 2, missWire := 3, failedB := true }, .message, ?_⟩,
     ⟨wAt (wW { wWeir with missMsg := 2 }) 1100000, .message, ?_⟩,
     ⟨State.reset, ?_⟩,
     ⟨wW wWeir, ?_⟩,
     ⟨wW { wWeir with failedB := true }, ?_⟩,
     ⟨wUp, ?_⟩,
     ⟨wW { wWeir with failedB := true, gap := some (wGap true false false) }, wGap true false false, ?_⟩,
     ⟨wAt (wSwap false true false) 12499999, wGap false true false, ?_⟩,
     ⟨wW { wWeir with switchovers := 65535, gap := some (wGap false true false) }, wGap false true false, ?_⟩,
     ⟨wAt (wSwap true false false) 12500000, wGap true false false, .gapBoundExpiry, ⟨rfl, Or.inl ⟨rfl, by decide +kernel⟩, rfl⟩⟩,
     ⟨wAt (wSwap false true false) 5, wGap false true false, .explicitFault .wire .checkpoint, ⟨rfl, Or.inr ⟨rfl, rfl, .wire, .checkpoint, rfl⟩, rfl, rfl, rfl⟩⟩,
     ⟨wAt (wSwap false true true) 12500000, wGap false true true, .gapBoundExpiry, ⟨rfl, Or.inl ⟨rfl, by decide +kernel⟩, rfl, Or.inr rfl⟩⟩,
     ⟨wUp, ?_⟩,
     ⟨wW { wWeir with failedB := true }, Or.inl (by decide +kernel)⟩,
     ⟨wAt (wW { wWeir with standbyChecked := some 0 }) 86399999999999, Or.inr (Or.inr ⟨0, by decide +kernel⟩)⟩,
     ⟨wAt (wW { wWeir with standbyChecked := some 0 }) 86400000000000, ⟨?_, ?_, ?_, fun a h => by cases h; decide +kernel⟩⟩⟩ <;> decide +kernel

/-- What `Obligations.FeedsIslandAndTrip` assumes is met. -/
theorem wit_FeedsIslandAndTrip :
  (∃ s : State, ∃ f : Feed, feedIsGood s f = false) ∧
  (∃ s : State, ∃ f : Feed, feedIsGood s f = true) ∧
  (∃ s : State, ∃ f : Feed, feedIsGood s f = true) ∧
  (∃ s : State, ∃ f : Feed, feedIsGood s f = true) ∧
  (∃ s : State, ∃ f : Feed, feedIsGood s f = false) ∧
  (∃ s : State, ((noFeed s = false ∨ s.island.onVkeep = true))) ∧
  (∃ s : State, noFeed s = true ∧ s.island.onVkeep = false) ∧
  (∃ s : State, ((s.island.onVkeep = false ∨ noFeed s = true))) ∧
  (∃ s : State, s.island.onVkeep = true ∧ noFeed s = false) ∧
  (∃ s : State, s.island.onVkeep = true ∧ noFeed s = false) ∧
  (∃ s : State, s.island.onVkeep = false) ∧
  (∃ s : State, s.island.onVkeep = true) ∧
  (∃ s : State, ∃ u : Nat, ∃ x : BitVec 16, ∃ y : BitVec 16, ((s.island.trip ≠ none ∨ (s.island.onVkeep = true ∧ switchedNow s = false) ∨ sensorBroken s u = true ∨ x.toInt < 1840 ∨ y.toInt < 1840))) ∧
  (∃ s : State, ∃ u : Nat, ∃ x : BitVec 16, ∃ y : BitVec 16, ((s.island.trip ≠ none ∨ (s.island.onVkeep = true ∧ switchedNow s = false) ∨ sensorBroken s u = true ∨ x.toInt < 1840 ∨ y.toInt < 1840))) ∧
  (∃ s : State, ∃ u : Nat, ∃ x : BitVec 16, ∃ y : BitVec 16, s.island.trip = none ∧ ((s.island.onVkeep = false ∨ switchedNow s = true)) ∧ sensorBroken s u = false ∧ 1840 ≤ x.toInt ∧ 1840 ≤ y.toInt) ∧
  (∃ s : State, ∃ r : _, s.island.trip = some r ∧ s.island.onVkeep = true ∧ noFeed s = true) ∧
  (∃ s : State, ((s.island.trip = none ∨ s.island.onVkeep = false ∨ noFeed s = false))) := by
  refine ⟨⟨wUp, .b, ?_⟩,
     ⟨wFeeds true false, .a, ?_⟩,
     ⟨wFeeds true true, .a, ?_⟩,
     ⟨wFeeds true false, .a, ?_⟩,
     ⟨wFeeds true false, .b, ?_⟩,
     ⟨wFeeds true false, ?_⟩,
     ⟨{ wAt (wFeeds false false) 10000 with island := { Island.reset with egress := [wEg true] } }, ?_⟩,
     ⟨wFeeds true false, ?_⟩,
     ⟨{ wKeep true none with time := { TimeState.reset with backup := 100 } }, ?_⟩,
     ⟨wKeep true (some ⟨0, 0, 0x0730, 0x0730⟩), ?_⟩,
     ⟨wUp, ?_⟩,
     ⟨wKeep false none, ?_⟩,
     ⟨wUp, 0, 1839, 1840, ?_⟩,
     ⟨wAt { wUp with island := { Island.reset with onVkeep := true, outages := [255] } } 256, 0x1300_0000, 1840, 1840, ?_⟩,
     ⟨wAt { wUp with island := { Island.reset with onVkeep := true, outages := [255] } } 5, 0x1300_0000, 1840, 1840, ?_⟩,
     ⟨wKeep false (some ⟨0, 0, 0x0730, 0x0730⟩), ⟨0, 0, 0x0730, 0x0730⟩, ?_⟩,
     ⟨wKeep true (some ⟨0, 0, 0x0730, 0x0730⟩), ?_⟩⟩ <;> decide +kernel

/-- What `Obligations.DomainsFailAndTheThrottleLowersCores` assumes is met. -/
theorem wit_DomainsFailAndTheThrottleLowersCores :
  (∃ s : State, ∃ d : Fin 166, domOn s d = false) ∧
  (∃ s : State, ∃ d : Fin 166, domOn s d = true) ∧
  (∃ s : State, ∃ d : Fin 166, domOn s d = true) ∧
  (∃ s : State, ∃ d : Fin 166, domOn s d = true) ∧
  (∃ s : State, ∃ c : CoreNo, ((∀ a, (core s c).idleSince = some a → partOfCore s c ≠ 0xFF ∨ s.time.now < a + 1000000000 ∨ weirServes s = false ∨ domState s (domCore c) = 0 ∨ domState s (domCore c) = 3))) ∧
  (∃ s : State, ∃ c : CoreNo, ∃ a : _, (core s c).idleSince = some a ∧ partOfCore s c = 0xFF ∧ a + 1000000000 ≤ s.time.now ∧ weirServes s = true ∧ domState s (domCore c) ≠ 0 ∧ domState s (domCore c) ≠ 3) ∧
  (∃ s : State, ∃ f : Feed, ((feedIsGood s f = false ∨ s.power.throttleFrom ≠ none))) ∧
  (∃ s : State, ∃ f : Feed, ((feedIsGood s f = false ∨ s.power.throttleFrom ≠ none))) ∧
  (∃ s : State, ∃ f : Feed, feedIsGood s f = true ∧ s.power.throttleFrom = none) ∧
  (∃ s : State, ∃ f : Feed, feedIsGood s f = true ∧ s.power.throttleFrom = none) ∧
  (∃ s : State, s.power.throttleFrom = none) ∧
  (∃ s : State, ∃ f : Feed, ∃ a : Nat, s.power.throttleFrom = some a ∧ ((feedIsGood s f = false ∨ s.power.stage = 4 ∨ (s.time.now < a + 500000 ∧ s.time.now < s.power.lowerAt)))) ∧
  (∃ s : State, ∃ f : Feed, ∃ a : Nat, s.power.throttleFrom = some a ∧ feedIsGood s f = true ∧ s.power.stage ≠ 4 ∧ a + 500000 ≤ s.time.now) ∧
  (∃ s : State, ∃ f : Feed, ∃ a : Nat, s.power.throttleFrom = some a ∧ feedIsGood s f = true ∧ s.power.stage ≠ 4 ∧ s.time.now < a + 500000 ∧ s.power.lowerAt ≤ s.time.now ∧ ((∃ c, c < 64 ∧ corePowered s c = true ∧ isFree s c = true ∧ 0 < heading (core s c)))) ∧
  (∃ s : State, ∃ f : Feed, ∃ a : Nat, s.power.throttleFrom = some a ∧ feedIsGood s f = true ∧ s.power.stage ≠ 4 ∧ s.time.now < a + 500000 ∧ s.power.lowerAt ≤ s.time.now ∧ ((∃ c, c < 64 ∧ corePowered s c = true ∧ isFree s c = true ∧ 0 < heading (core s c)))) ∧
  (∃ s : State, ∃ f : Feed, ∃ a : Nat, s.power.throttleFrom = some a ∧ feedIsGood s f = true ∧ s.power.stage ≠ 4 ∧ s.time.now < a + 500000 ∧ s.power.lowerAt ≤ s.time.now ∧ ((∀ c, c < 64 → corePowered s c = true → isFree s c = true → heading (core s c) = 0))) ∧
  (∃ s : State, ∃ a : Nat, s.power.throttleFrom = some a) := by
  refine ⟨⟨State.reset, 165, ?_⟩,
     ⟨wUp, 63, ?_⟩,
     ⟨wUp, 154, ?_⟩,
     ⟨wUp, 165, ?_⟩,
     ⟨wAt { wUp with cores := [(63, { CoreState.reset with idleSince := some 0 })] } 999999999, 63, fun a h => by cases h; exact Or.inr (Or.inl (by decide +kernel))⟩,
     ⟨wAt { wUp with cores := [(63, { CoreState.reset with idleSince := some 0 })] } 1000000000, 63, 0, ?_⟩,
     ⟨wUp, .a, ?_⟩,
     ⟨wThr 0, .a, ?_⟩,
     ⟨wAt (wFeeds true true) 5, .a, ?_⟩,
     ⟨{ wThr 5 with power := { PowerState.reset with goodA := true } }, .a, ?_⟩,
     ⟨wUp, ?_⟩,
     ⟨wThr 19999, .a, 0, ?_⟩,
     ⟨wThr 500000, .b, 0, ?_⟩,
     ⟨wThr 20000, .b, 0, ?_⟩,
     ⟨wThr 499999, .b, 0, ?_⟩,
     ⟨wThrS 20000, .b, 0, ?_⟩,
     ⟨wThr 500000, 0, ?_⟩⟩ <;> decide +kernel

/-- A start held in a stage, with Spring 8 warming for position 1. -/
def wStage (n : Nat) : State := wRegs wDark [(Reg.globalStat, n)]
def wWarm (n : Nat) : State :=
  { wRegs (wStage n) [(Reg.springStat 8, 0xF0_0100)] with
    springs := [(1, { SpringState.reset with failed := true }), (8, { SpringState.reset with restoring := some 1 })] }
/-- A start in a stage whose sites are all held and whose Springs feed; Spring 1 lost with Spring 8 spare. -/
def wAllSites (n : Nat) : State := wRegs (wStage n) ((List.range 16).map fun i => (Reg.siteStat i, 2))
def wLost : State :=
  { wRegs wLit [(Reg.springStat 1, 0x10_0400), (Reg.powerDomain (domSpring 1), 0), (Reg.powerDomain (domSpring 8), 0)] with
    springs := [(1, { SpringState.reset with failed := true })] }

/-- What `Obligations.SpringsDomainsAndTheResetPin` assumes is met. -/
theorem wit_SpringsDomainsAndTheResetPin :
  (∃ s : State, stage s = 1 ∧ ((∀ d ∈ firstDomains s, domState s d = 2))) ∧
  (∃ s : State, InStage s 5 ∧ (List.range 8).all (positionDone s) = true ∧ (List.range 16).all (siteTrained s) = true) ∧
  (∃ s : State, stage s = 8 ∧ startFailed s = false ∧ ((∀ o, o < 16 → outletLit s o = true))) ∧
  (∃ s : State, stage s = 3 ∧ startFailed s = false ∧ pllsLocked s = true ∧ ((∀ k, k < 9 → domState s (domTile k) = 2))) ∧
  (∃ s : State, stage s ≠ 1 ∧ stage s ≠ 3 ∧ stage s ≠ 5 ∧ stage s ≠ 8) ∧
  (∃ s : State, stage s = 1 ∧ ((∃ d ∈ firstDomains s, domState s d ≠ 2))) ∧
  (∃ s : State, stage s = 3 ∧ ((startFailed s = true ∨ pllsLocked s = false ∨ ∃ k, k < 9 ∧ domState s (domTile k) ≠ 2)) ∧ pllsLocked s = false) ∧
  (∃ s : State, stage s = 8 ∧ ((startFailed s = true ∨ ∃ o, o < 16 ∧ outletLit s o = false))) ∧
  (∃ s : State, stage s = 5 ∧ ((List.range 8).all (positionDone s) && (List.range 16).all (siteTrained s)) = false) ∧
  (∃ s : State, ∃ n : SpringNo, springState s n ≠ 1) ∧
  (∃ s : State, ∃ n : SpringNo, springState s n = 1 ∧ (spring s n).restoring = none) ∧
  (∃ s : State, ∃ n : SpringNo, ∃ p : _, springState s n = 1 ∧ (spring s n).restoring = some p ∧ p < 8 ∧ weirServes s = true) ∧
  (∃ s : State, ∃ n : SpringNo, ∃ p : _, springState s n = 1 ∧ (spring s n).restoring = some p ∧ p < 8 ∧ weirServes s = false) ∧
  (∃ s : State, ∃ n : SpringNo, springState s n ≠ 0 ∧ (spring s n).failed = false) ∧
  (∃ s : State, ∃ n : SpringNo, springState s n ≠ 0 ∧ (spring s n).failed = false) ∧
  (∃ s : State, ∃ n : SpringNo, ((springState s n = 0 ∨ (spring s n).failed = true))) ∧
  (∃ s : State, (((List.range 8).find? (positionLost s) = none ∨ spareSpring? s = none))) ∧
  (∃ s : State, ∃ p : _, ∃ n : _, (List.range 8).find? (positionLost s) = some p ∧ spareSpring? s = some n) ∧
  (∃ s : State, ∃ n : SpringNo, ((stage s ≠ 5 ∨ springState s n ≠ 1))) ∧
  (∃ s : State, ∃ n : SpringNo, stage s = 5 ∧ springState s n = 1) ∧
  (∃ s : State, ∃ d : Fin 166, ∃ p : Prop, (p = (domState s d = 1 ∨ (domState s d = 0 ∧ stage s = 1 ∧ d.val ∈ firstDomains s))) ∧ ((¬ p ∨ (144 ≤ d.val ∧ d.val < 154) ∨ (d.val < 64 ∧ (core s d).rampTo ≠ none)))) ∧
  (∃ s : State, ∃ d : Fin 166, ∃ p : Prop, (p = (domState s d = 1 ∨ (domState s d = 0 ∧ stage s = 1 ∧ d.val ∈ firstDomains s))) ∧ p ∧ ¬ (144 ≤ d.val ∧ d.val < 154) ∧ ((d.val < 64 → (core s d).rampTo = none))) ∧
  (∃ s : State, ∃ d : Fin 166, ∃ p : Prop, (p = (domState s d = 1 ∨ (domState s d = 0 ∧ stage s = 1 ∧ d.val ∈ firstDomains s))) ∧ p ∧ ¬ (144 ≤ d.val ∧ d.val < 154) ∧ ((d.val < 64 → (core s d).rampTo = none))) ∧
  (∃ s : State, s.start.held = false) ∧
  (∃ s : State, s.start.held = true ∧ s.start.resetReq = false ∧ stage s = 0 ∧ s.island.onVkeep = false ∧ s.island.trip = none ∧ noFeed s = false) ∧
  (∃ s : State, s.start.held = true) := by
  refine ⟨⟨wStage 1, ?_⟩,
     ⟨wAllSites 5, by (try unfold InStage); decide +kernel⟩,
     ⟨wAllSites 8, ?_⟩,
     ⟨wRegs (wStage 3) ([(Reg.clockPllstat, 0x3FF_0000)] ++ (List.range 16).map fun i => (Reg.powerDomain (domPort i), 0)), ?_⟩,
     ⟨wUp, ?_⟩,
     ⟨{ wStage 1 with weir := WeirState.reset, regs := [(Reg.globalStat, 1)] }, ?_⟩,
     ⟨wStage 3, ?_⟩,
     ⟨wRegs (wStage 8) [(Reg.linkLanes 15, 0x7777)], ⟨?_, Or.inr ⟨15, by decide, by decide +kernel⟩⟩⟩,
     ⟨wStage 5, ?_⟩,
     ⟨wLit, 0, ?_⟩,
     ⟨wRegs wLit [(Reg.springStat 0, 0x102)], 0, ?_⟩,
     ⟨wWarm 0xB, 8, 1, ?_⟩,
     ⟨{ wWarm 0xB with weir := WeirState.reset }, 8, 1, ?_⟩,
     ⟨wLit, 0, ?_⟩,
     ⟨wLit, 1, ?_⟩,
     ⟨wUp, 9, ?_⟩,
     ⟨wUp, ?_⟩,
     ⟨wLost, 1, 8, ?_⟩,
     ⟨wLit, 0, ?_⟩,
     ⟨wRegs wLit [(Reg.globalStat, 5), (Reg.springStat 9, 0x50_0100)], 9, ?_⟩,
     ⟨wUp, 165, False, ⟨propext ⟨False.elim, fun h => absurd h (by decide +kernel)⟩, Or.inl id⟩⟩,
     ⟨{ wRegs wUp [(Reg.powerDomain (domPort 15), 0x4000_0000 + 750)] with island := { Island.reset with keys := [(255, 0x8001_0007)] } }, 127, True, ⟨propext ⟨fun _ => by decide +kernel, fun _ => trivial⟩, trivial, ?_⟩⟩,
     ⟨{ wRegs State.reset [(Reg.powerDomain 163, 0)] with pending := [] }, 163, True, ⟨propext ⟨fun _ => by decide +kernel, fun _ => trivial⟩, trivial, ?_⟩⟩,
     ⟨wUp, ?_⟩,
     ⟨wRegs { State.reset with start := { held := true, resetReq := false }, power := { PowerState.reset with goodB := true } } [(Reg.globalStat, 0)], ?_⟩,
     ⟨{ wUp with start := { held := true, resetReq := false } }, ?_⟩⟩ <;> decide +kernel

/-- What `Obligations.StartStagesTakeEffect` assumes is met. -/
theorem wit_StartStagesTakeEffect :
  (∃ s : State, ∃ u : State, ∃ w : Weir, (u = (if stage s = 1 ∨ stage s = 2 then advanceStart (settleDomains s (firstDomains s)) else s)) ∧ ((stage u ≠ 2 ∨ startFailed u = true ∨ u.weir.running = true ∨ w ≠ u.weir.active ∨ domState u (domWeir w) ≠ 2))) ∧
  (∃ s : State, ∃ u : State, ∃ w : Weir, ∃ g0 : Bool, ∃ g1 : Bool, ∃ slot : Nat, (u = (if stage s = 1 ∨ stage s = 2 then advanceStart (settleDomains s (firstDomains s)) else s)) ∧ stage u = 2 ∧ startFailed u = false ∧ u.weir.running = false ∧ w = u.weir.active ∧ domState u (domWeir w) = 2 ∧ slot = (if w = .a then u.weir.slotA else u.weir.slotB) ∧ ∃ k : _, bootFrom slot g0 g1 = some k) ∧
  (∃ s : State, ∃ u : State, ∃ w : Weir, ∃ g0 : Bool, ∃ g1 : Bool, ∃ slot : Nat, (u = (if stage s = 1 ∨ stage s = 2 then advanceStart (settleDomains s (firstDomains s)) else s)) ∧ stage u = 2 ∧ startFailed u = false ∧ u.weir.running = false ∧ w = u.weir.active ∧ domState u (domWeir w) = 2 ∧ slot = (if w = .a then u.weir.slotA else u.weir.slotB) ∧ ∃ k : _, bootFrom slot g0 g1 = some k) ∧
  (∃ s : State, ∃ u : State, ∃ w : Weir, ∃ g0 : Bool, ∃ g1 : Bool, ∃ slot : Nat, (u = (if stage s = 1 ∨ stage s = 2 then advanceStart (settleDomains s (firstDomains s)) else s)) ∧ stage u = 2 ∧ startFailed u = false ∧ u.weir.running = false ∧ w = u.weir.active ∧ domState u (domWeir w) = 2 ∧ slot = (if w = .a then u.weir.slotA else u.weir.slotB) ∧ bootFrom slot g0 g1 = none) ∧
  (∃ s : State, ∃ u : State, ∃ w : Weir, ∃ g0 : Bool, ∃ g1 : Bool, ∃ slot : Nat, (u = (if stage s = 1 ∨ stage s = 2 then advanceStart (settleDomains s (firstDomains s)) else s)) ∧ stage u = 2 ∧ startFailed u = false ∧ u.weir.running = false ∧ w = u.weir.active ∧ domState u (domWeir w) = 2 ∧ slot = (if w = .a then u.weir.slotA else u.weir.slotB) ∧ bootFrom slot g0 g1 = none) ∧
  (∃ s : State, ¬ InStage s 3) ∧
  (∃ s : State, ∃ a : Bool, ∃ b : Bool, InStage s 3 ∧ a = regBit s Reg.clockRefstat 2 ∧ b = regBit s Reg.clockRefstat 3 ∧ a = false ∧ b = false) ∧
  (∃ s : State, ∃ l : Bool, ∃ a : Bool, ∃ b : Bool, InStage s 3 ∧ a = regBit s Reg.clockRefstat 2 ∧ b = regBit s Reg.clockRefstat 3 ∧ (a || b) = true ∧ l = false) ∧
  (∃ s : State, ∃ l : Bool, ∃ a : Bool, ∃ b : Bool, InStage s 3 ∧ a = regBit s Reg.clockRefstat 2 ∧ b = regBit s Reg.clockRefstat 3 ∧ (a || b) = true ∧ l = true) ∧
  (∃ s : State, ∃ l : Bool, ∃ a : Bool, ∃ b : Bool, InStage s 3 ∧ a = regBit s Reg.clockRefstat 2 ∧ b = regBit s Reg.clockRefstat 3 ∧ (a || b) = true ∧ l = true) ∧
  (∃ s : State, ((¬ (InStage s 3 ∨ InStage s 4) ∨ s.time.running = true))) ∧
  (∃ s : State, ((¬ (InStage s 3 ∨ InStage s 4) ∨ s.time.running = true)) ∧ s.time.running = true) ∧
  (∃ s : State, ∃ u : State, ((InStage s 3 ∨ InStage s 4)) ∧ s.time.running = false ∧ u = advanceStart (settleDomains s tiles) ∧ stage u ≠ 4) ∧
  (∃ s : State, ∃ u : State, ∃ f : BitVec 9, ((InStage s 3 ∨ InStage s 4)) ∧ s.time.running = false ∧ u = advanceStart (settleDomains s tiles) ∧ stage u = 4 ∧ f ≠ 0) ∧
  (∃ s : State, ∃ u : State, ∃ f : BitVec 9, ((InStage s 3 ∨ InStage s 4)) ∧ s.time.running = false ∧ u = advanceStart (settleDomains s tiles) ∧ stage u = 4 ∧ f = 0) ∧
  (∃ s : State, ∃ i : SiteNo, ((¬ InStage s 5 ∨ siteFailed s i = true ∨ field s (Reg.memCfg i) 1 0 = 3))) ∧
  (∃ s : State, ∃ i : SiteNo, InStage s 5 ∧ siteFailed s i = false ∧ field s (Reg.memCfg i) 1 0 ≠ 3) ∧
  (∃ s : State, ∃ i : SiteNo, InStage s 5 ∧ siteFailed s i = false ∧ field s (Reg.memCfg i) 1 0 ≠ 3) ∧
  (∃ s : State, ¬ InStage s 6) ∧
  (∃ s : State, InStage s 6) ∧
  (∃ s : State, ((¬ InStage s 7 ∨ s.acts.find? (fun a => a.opcode == opCa && a.mode == .running) = none))) ∧
  (∃ s : State, ((¬ InStage s 7 ∨ s.acts.find? (fun a => a.opcode == opCa && a.mode == .running) = none)) ∧ InStage s 7) ∧
  (∃ s : State, ∃ a : Activity, InStage s 7 ∧ s.acts.find? (fun a => a.opcode == opCa && a.mode == .running) = some a) ∧
  (∃ s : State, ∃ o : OutletNo, ((stage s ≠ 8 ∨ startFailed s = true ∨ outletLit s o = true))) ∧
  (∃ s : State, ∃ o : OutletNo, stage s = 8 ∧ startFailed s = false ∧ outletLit s o = false) ∧
  (∃ s : State, ∃ o : OutletNo, stage s = 8 ∧ startFailed s = false ∧ outletLit s o = false) ∧
  (∃ s : State, ((startFailed s = true ∨ weirServes s = false ∨ stage s < 5 ∨ 8 < stage s))) ∧
  (∃ s : State, InStage s 5) ∧
  (∃ s : State, InStage s 6) ∧
  (∃ s : State, InStage s 7 ∧ ((∃ a ∈ s.acts, a.opcode = opCa ∧ a.mode = .running))) ∧
  (∃ s : State, InStage s 7 ∧ ((∀ a ∈ s.acts, ¬ (a.opcode = opCa ∧ a.mode = .running)))) ∧
  (∃ s : State, InStage s 8) ∧
  (∃ s : State, ((¬ InStage s 9 ∨ regBit s Reg.globalStat 5 = true))) ∧
  (∃ s : State, InStage s 9 ∧ regBit s Reg.globalStat 5 = false ∧ someUsable (restoreParts s) = true) ∧
  (∃ s : State, InStage s 9 ∧ regBit s Reg.globalStat 5 = false ∧ someUsable (restoreParts s) = false) := by
  refine ⟨⟨wUp, wUp, .a, ⟨by rw [if_neg (by decide +kernel)], ?_⟩⟩,
     ⟨{ wStage 2 with weir := { WeirState.reset with slotA := 1 } }, ⟨advanceStart (settleDomains ({ wStage 2 with weir := { WeirState.reset with slotA := 1 } }) (firstDomains ({ wStage 2 with weir := { WeirState.reset with slotA := 1 } }))), ⟨.a, ⟨true, ⟨false, ⟨1, ⟨by rw [if_pos (Or.inr (by decide +kernel))], ⟨?_, ⟨?_, ⟨?_, ⟨?_, ⟨?_, ⟨?_, ⟨0, ?_⟩⟩⟩⟩⟩⟩⟩⟩⟩⟩⟩⟩⟩⟩,
     ⟨{ wStage 2 with weir := WeirState.reset }, ⟨advanceStart (settleDomains ({ wStage 2 with weir := WeirState.reset }) (firstDomains ({ wStage 2 with weir := WeirState.reset }))), ⟨.a, ⟨true, ⟨false, ⟨0, ⟨by rw [if_pos (Or.inr (by decide +kernel))], ⟨?_, ⟨?_, ⟨?_, ⟨?_, ⟨?_, ⟨?_, ⟨0, ?_⟩⟩⟩⟩⟩⟩⟩⟩⟩⟩⟩⟩⟩⟩,
     ⟨{ wStage 2 with weir := WeirState.reset }, advanceStart (settleDomains ({ wStage 2 with weir := WeirState.reset }) (firstDomains ({ wStage 2 with weir := WeirState.reset }))), .a, false, false, 0, ⟨by rw [if_pos (Or.inr (by decide +kernel))], ?_⟩⟩,
     ⟨{ wStage 2 with weir := { WeirState.reset with failedB := true } }, advanceStart (settleDomains ({ wStage 2 with weir := { WeirState.reset with failedB := true } }) (firstDomains ({ wStage 2 with weir := { WeirState.reset with failedB := true } }))), .a, false, false, 0, ⟨by rw [if_pos (Or.inr (by decide +kernel))], ?_⟩⟩,
     ⟨wUp, by (try unfold InStage); decide +kernel⟩,
     ⟨wStage 3, false, false, by (try unfold InStage); decide +kernel⟩,
     ⟨wRegs (wStage 3) [(Reg.clockRefstat, 4)], false, true, false, by (try unfold InStage); decide +kernel⟩,
     ⟨wRegs (wStage 3) [(Reg.clockRefstat, 12)], true, true, true, by (try unfold InStage); decide +kernel⟩,
     ⟨wRegs (wStage 3) [(Reg.clockRefstat, 8)], true, false, true, by (try unfold InStage); decide +kernel⟩,
     ⟨wUp, by (try unfold InStage); decide +kernel⟩,
     ⟨wAt (wStage 4) 0, by (try unfold InStage); decide +kernel⟩,
     ⟨wStage 3, advanceStart (settleDomains (wStage 3) tiles), ⟨Or.inl (by unfold InStage; decide +kernel), ?_, rfl, ?_⟩⟩,
     ⟨wStage 4, advanceStart (settleDomains (wStage 4) tiles), 256, ⟨Or.inr (by unfold InStage; decide +kernel), ?_, rfl, ?_⟩⟩,
     ⟨{ wStage 4 with time := { TimeState.reset with backupValid := true, backup := 9 } }, advanceStart (settleDomains ({ wStage 4 with time := { TimeState.reset with backupValid := true, backup := 9 } }) tiles), 0, ⟨Or.inr (by unfold InStage; decide +kernel), ?_, rfl, ?_⟩⟩,
     ⟨wUp, 15, by (try unfold InStage); decide +kernel⟩,
     ⟨wStage 5, 15, by (try unfold InStage); decide +kernel⟩,
     ⟨wStage 5, 15, by (try unfold InStage); decide +kernel⟩,
     ⟨wUp, by (try unfold InStage); decide +kernel⟩,
     ⟨wStage 6, by (try unfold InStage); decide +kernel⟩,
     ⟨wUp, by (try unfold InStage); decide +kernel⟩,
     ⟨wStage 7, by (try unfold InStage); decide +kernel⟩,
     ⟨{ wAllSites 7 with acts := [wAct opCa .running] }, wAct opCa .running, by (try unfold InStage); decide +kernel⟩,
     ⟨wUp, 15, ?_⟩,
     ⟨wRegs (wStage 8) [(Reg.linkLanes 15, 0x7777)], 15, ?_⟩,
     ⟨wRegs (wStage 8) [(Reg.linkLanes 15, 0x7777)], 15, ?_⟩,
     ⟨wUp, ?_⟩,
     ⟨wStage 5, by (try unfold InStage); decide +kernel⟩,
     ⟨wStage 6, by (try unfold InStage); decide +kernel⟩,
     ⟨{ wStage 7 with acts := [wAct opCa .running] }, by (try unfold InStage); decide +kernel⟩,
     ⟨wStage 7, by (try unfold InStage); decide +kernel⟩,
     ⟨wStage 8, by (try unfold InStage); decide +kernel⟩,
     ⟨wUp, by (try unfold InStage); decide +kernel⟩,
     ⟨wRegs (wStage 9) [(Reg.siteStat 0, 4)], by (try unfold InStage); decide +kernel⟩,
     ⟨wStage 9, by (try unfold InStage); decide +kernel⟩⟩ <;> decide +kernel

/-- A housekeeping round that is running, with one feed good and Spring 9's domain on. -/
def wHouse : State :=
  { wAt wUp 2048000 with house := { HouseState.reset with running := true, latched := true }, power := { PowerState.reset with goodA := true } }
def wRead (c : Fin 512) (v : BitVec 32) : RoundReading := ⟨c, v, 0⟩

/-- What `Obligations.HousekeepingRoundsPublishAndDecide` assumes is met. -/
theorem wit_HousekeepingRoundsPublishAndDecide :
  (∃ s : State, ((domOn s (domTile 4) = false ∨ s.time.now < s.house.started + 2048000 ∨ s.house.trigTick = some (tickOf s)))) ∧
  (∃ s : State, ((domOn s (domTile 4) = false ∨ s.time.now < s.house.started + 2048000 ∨ s.house.trigTick = some (tickOf s)))) ∧
  (∃ s : State, domOn s (domTile 4) = true ∧ s.house.started + 2048000 ≤ s.time.now ∧ s.house.trigTick ≠ some (tickOf s) ∧ s.house.running = false) ∧
  (∃ s : State, domOn s (domTile 4) = true ∧ s.house.started + 2048000 ≤ s.time.now ∧ s.house.trigTick ≠ some (tickOf s) ∧ s.house.running = true ∧ s.house.latched = false) ∧
  (∃ s : State, domOn s (domTile 4) = true ∧ s.house.started + 2048000 ≤ s.time.now ∧ s.house.trigTick ≠ some (tickOf s) ∧ s.house.running = true ∧ s.house.latched = true) ∧
  (∃ s : State, ((s.house.running = false ∨ s.time.now < s.house.started + 2048000))) ∧
  (∃ s : State, ((s.house.running = false ∨ s.time.now < s.house.started + 2048000))) ∧
  (∃ s : State, s.house.running = true ∧ s.house.started + 2048000 ≤ s.time.now) := by
  refine ⟨⟨wAt wUp 2047999, ?_⟩,
     ⟨{ wAt wUp 2048000 with house := { HouseState.reset with trigTick := some 8000 } }, ?_⟩,
     ⟨wAt wUp 2048000, ?_⟩,
     ⟨{ wAt wUp 2048000 with house := { HouseState.reset with running := true } }, ?_⟩,
     ⟨wHouse, ?_⟩,
     ⟨wUp, ?_⟩,
     ⟨{ wHouse with house := { HouseState.reset with running := true, started := 1 } }, ?_⟩,
     ⟨wHouse, ?_⟩⟩ <;> decide +kernel

/-- Weir A serving with one log entry, and the console's buffers. -/
def wLogged : State :=
  { wRegs wUp [(Reg.faultLogOldest, 1), (Reg.faultLogNext, 2)] with faults := { FaultState.reset with log := [⟨1, wLog, false⟩] } }
def wCon (line : List Nat) (ls : List (List Nat)) : State :=
  { wUp with maint := { MaintPort.reset with line := line, lines := ls } }
def wText (cs : List Char) : List Nat := cs.map Char.toNat

/-- What `Obligations.ManagementBusAndJtagAnswer` assumes is met. -/
theorem wit_ManagementBusAndJtagAnswer :
  (∃ s : State, weirServes s = false) ∧
  (∃ s : State, weirServes s = true) ∧
  (∃ s : State, weirServes s = true ∧ ∃ f : _, ∃ n : _, 1 ≤ n ∧ n ≤ 32 ∧ f + n ≤ 512) ∧
  (∃ s : State, weirServes s = true ∧ ∃ f : _, ∃ n : _, 1 ≤ n ∧ n ≤ 32 ∧ f + n ≤ 512) ∧
  (∃ s : State, weirServes s = true ∧ ∃ f : _, ∃ n : _, ((n = 0 ∨ 32 < n ∨ 512 < f + n))) ∧
  (∃ s : State, weirServes s = true ∧ ∃ f : _, ∃ n : _, ∃ es : _, 1 ≤ n ∧ n ≤ 4 ∧ es = logFrom s (f % 2 ^ 32) n) ∧
  (∃ s : State, weirServes s = true ∧ ∃ n : _, ((n = 0 ∨ 4 < n))) ∧
  (∃ s : State, weirServes s = true ∧ ∃ c : Word, c.toNat = Config.serial.toNat % 2 ^ 32) ∧
  (∃ s : State, weirServes s = true ∧ ∃ c : Word, c.toNat ≠ Config.serial.toNat % 2 ^ 32) ∧
  (∃ s : State, weirServes s = true ∧ ∃ e : Byte, e ≠ 0 ∧ e ≠ 0xFF) ∧
  (∃ s : State, weirServes s = true ∧ ∃ e : Byte, ((e = 0 ∨ e = 0xFF))) ∧
  (∃ s : State, s.maint.extest = true) ∧
  (∃ s : State, ∃ n : Nat, ∃ e : LogEntry, s.faults.log.find? (fun e => e.number == n) = some e) ∧
  (∃ s : State, ∃ n : Nat, ((∀ e ∈ s.faults.log, e.number ≠ n))) := by
  refine ⟨⟨State.reset, ?_⟩,
     ⟨wLogged, ?_⟩,
     ⟨wUp, ⟨?_, ⟨511, ⟨1, ?_⟩⟩⟩⟩,
     ⟨wUp, ⟨?_, ⟨480, ⟨32, ?_⟩⟩⟩⟩,
     ⟨wUp, ⟨?_, ⟨480, ⟨33, ?_⟩⟩⟩⟩,
     ⟨wLogged, ⟨?_, ⟨1, ⟨4, ⟨[⟨1, wLog, false⟩], ?_⟩⟩⟩⟩⟩,
     ⟨wUp, ⟨?_, ⟨5, ?_⟩⟩⟩,
     ⟨wUp, ⟨?_, ⟨Config.serial.setWidth 32, BitVec.toNat_setWidth ..⟩⟩⟩,
     ⟨wUp, ⟨?_, ⟨~~~(Config.serial.setWidth 32), by rw [BitVec.toNat_not, BitVec.toNat_setWidth]; omega⟩⟩⟩,
     ⟨wUp, ⟨?_, ⟨0xFE, ?_⟩⟩⟩,
     ⟨wUp, ⟨?_, ⟨0xFF, ?_⟩⟩⟩,
     ⟨{ wUp with maint := { MaintPort.reset with extest := true } }, ?_⟩,
     ⟨wLogged, 1, ⟨1, wLog, false⟩, ?_⟩,
     ⟨wLogged, 2, ?_⟩⟩ <;> decide +kernel

/-- What `Obligations.ConsoleTakesLinesAndAnswersThem` assumes is met. -/
theorem wit_ConsoleTakesLinesAndAnswersThem :
  (∃ s : State, weirServes s = false) ∧
  (∃ s : State, ∃ b : Byte, ∃ e : Bool, weirServes s = true ∧ ((e = true ∨ (b ≠ 13 ∧ b ≠ 10))) ∧ s.maint.line.length < 129) ∧
  (∃ s : State, ∃ b : Byte, ∃ e : Bool, weirServes s = true ∧ ((e = true ∨ (b ≠ 13 ∧ b ≠ 10))) ∧ 129 ≤ s.maint.line.length) ∧
  (∃ s : State, ∃ b : Byte, ∃ l : List Nat, weirServes s = true ∧ ((b = 13 ∨ b = 10)) ∧ s.maint.line = l ∧ l = []) ∧
  (∃ s : State, ∃ b : Byte, ∃ l : List Nat, weirServes s = true ∧ ((b = 13 ∨ b = 10)) ∧ s.maint.line = l ∧ l ≠ [] ∧ s.maint.lines = []) ∧
  (∃ s : State, ∃ b : Byte, ∃ l : List Nat, weirServes s = true ∧ ((b = 13 ∨ b = 10)) ∧ s.maint.line = l ∧ l ≠ [] ∧ s.maint.lines = []) ∧
  (∃ s : State, ∃ l : List Nat, ∃ ls : List (List Nat), ∃ c : ConCmd, ∃ f : Nat, ∃ n : Nat, weirServes s = true ∧ s.maint.lines = l :: ls ∧ parseLine? l = some (c, f, n) ∧ ((∀ m, ls.head? = some m → (parseLine? m).isSome = true)) ∧ c = .ver) ∧
  (∃ s : State, ∃ l : List Nat, ∃ ls : List (List Nat), ∃ c : ConCmd, ∃ f : Nat, ∃ n : Nat, weirServes s = true ∧ s.maint.lines = l :: ls ∧ parseLine? l = some (c, f, n) ∧ ((∀ m, ls.head? = some m → (parseLine? m).isSome = true)) ∧ c = .stat) ∧
  (∃ s : State, ∃ l : List Nat, ∃ ls : List (List Nat), ∃ c : ConCmd, ∃ f : Nat, ∃ n : Nat, weirServes s = true ∧ s.maint.lines = l :: ls ∧ parseLine? l = some (c, f, n) ∧ ((∀ m, ls.head? = some m → (parseLine? m).isSome = true)) ∧ c = .sensors) ∧
  (∃ s : State, ∃ l : List Nat, ∃ ls : List (List Nat), ∃ c : ConCmd, ∃ f : Nat, ∃ n : Nat, weirServes s = true ∧ s.maint.lines = l :: ls ∧ parseLine? l = some (c, f, n) ∧ ((∀ m, ls.head? = some m → (parseLine? m).isSome = true)) ∧ c = .log) ∧
  (∃ s : State, ∃ l : List Nat, ∃ ls : List (List Nat), ∃ c : ConCmd, ∃ f : Nat, ∃ n : Nat, weirServes s = true ∧ s.maint.lines = l :: ls ∧ parseLine? l = some (c, f, n) ∧ ((∀ m, ls.head? = some m → (parseLine? m).isSome = true)) ∧ c = .counters) ∧
  (∃ s : State, ∃ l : List Nat, ∃ ls : List (List Nat), ∃ c : ConCmd, ∃ f : Nat, ∃ n : Nat, weirServes s = true ∧ s.maint.lines = l :: ls ∧ parseLine? l = some (c, f, n) ∧ ((∀ m, ls.head? = some m → (parseLine? m).isSome = true)) ∧ c = .baud) ∧
  (∃ s : State, ∃ l : List Nat, ∃ ls : List (List Nat), ∃ c : ConCmd, ∃ f : Nat, ∃ n : Nat, weirServes s = true ∧ s.maint.lines = l :: ls ∧ parseLine? l = some (c, f, n) ∧ ((∀ m, ls.head? = some m → (parseLine? m).isSome = true)) ∧ c ≠ .baud) ∧
  (∃ s : State, ∃ l : List Nat, ∃ ls : List (List Nat), ∃ c : ConCmd, ∃ f : Nat, ∃ n : Nat, weirServes s = true ∧ s.maint.lines = l :: ls ∧ parseLine? l = some (c, f, n) ∧ ((∀ m, ls.head? = some m → (parseLine? m).isSome = true)) ∧ c ≠ .ver) := by
  refine ⟨⟨State.reset, ?_⟩,
     ⟨wCon (List.replicate 128 65) [], 13, true, ?_⟩,
     ⟨wCon (List.replicate 129 65) [], 65, false, ?_⟩,
     ⟨wCon [] [], 10, [], ?_⟩,
     ⟨wCon (wText ['v', 'e', 'r']) [], 13, wText ['v', 'e', 'r'], ?_⟩,
     ⟨wCon (86 :: 300 :: wText ['R']) [], 13, 86 :: 300 :: wText ['R'], ?_⟩,
     ⟨wCon [] [wText ['v', 'e', 'r']], wText ['v', 'e', 'r'], [], .ver, 0, 0, ⟨?_, ?_, ?_, fun m h => (by cases h), ?_⟩⟩,
     ⟨wCon [] [wText ['s', 't', 'a', 't']], wText ['s', 't', 'a', 't'], [], .stat, 0, 0, ⟨?_, ?_, ?_, fun m h => (by cases h), ?_⟩⟩,
     ⟨wCon [] [wText ['s', 'e', 'n', 's', 'o', 'r', 's', ' ', '5', '0', '0', ' ', '1', '2']], wText ['s', 'e', 'n', 's', 'o', 'r', 's', ' ', '5', '0', '0', ' ', '1', '2'], [], .sensors, 500, 12, ⟨?_, ?_, ?_, fun m h => (by cases h), ?_⟩⟩,
     ⟨wCon [] [wText ['l', 'o', 'g', ' ', '1', ' ', '4']], wText ['l', 'o', 'g', ' ', '1', ' ', '4'], [], .log, 1, 4, ⟨?_, ?_, ?_, fun m h => (by cases h), ?_⟩⟩,
     ⟨wCon [] [wText ['c', 'o', 'u', 'n', 't', 'e', 'r', 's']], wText ['c', 'o', 'u', 'n', 't', 'e', 'r', 's'], [], .counters, 0, 0, ⟨?_, ?_, ?_, fun m h => (by cases h), ?_⟩⟩,
     ⟨wCon [] [wText ['b', 'a', 'u', 'd', ' ', '3', '0', '0', '0', '0', '0', '0']], wText ['b', 'a', 'u', 'd', ' ', '3', '0', '0', '0', '0', '0', '0'], [], .baud, 3000000, 0, ⟨?_, ?_, ?_, fun m h => (by cases h), ?_⟩⟩,
     ⟨wCon [] [wText ['v', 'e', 'r']], wText ['v', 'e', 'r'], [], .ver, 0, 0, ⟨?_, ?_, ?_, fun m h => (by cases h), ?_⟩⟩,
     ⟨wCon [] [wText ['s', 't', 'a', 't']], wText ['s', 't', 'a', 't'], [], .stat, 0, 0, ⟨?_, ?_, ?_, fun m h => (by cases h), ?_⟩⟩⟩ <;> decide +kernel

theorem wit_FrontCommandRuns : ∃ (s : State) (c : Instr) (rest : List Instr), s.pending = c :: rest :=
  ⟨{ State.reset with pending := [.queueNop 0] }, .queueNop 0, [], rfl⟩

theorem wit_EmptyQueueRunsBackboneCycle : (∃ s : State, s.pending = [] ∧ tickOf (backboneCycle s) = tickOf s ∧ s.time.hold = false) ∧
    (∃ s : State, s.pending = [] ∧ tickOf (backboneCycle s) ≠ tickOf s) ∧ ∃ s : State, s.pending = [] ∧ s.time.hold = true :=
  ⟨⟨State.reset, by decide +kernel⟩, ⟨{ State.reset with time := { TimeState.reset with now := 255 } }, by decide +kernel⟩,
    { State.reset with time := { TimeState.reset with hold := true } }, by decide +kernel⟩

theorem wit_EveryStepKeepsTheMemoriesCanonical : ∃ s t : State, MemOk s ∧ step s = .next t :=
  ⟨State.reset, _, ⟨rfl, rfl, rfl, rfl, rfl⟩, rfl⟩

theorem wit_NearTierIsNotInterleaved : zoneOf 0 = .near 0 ∧ zoneOf 0xF_FFFF_FFFF = .near 0 ∧ zoneOf 0x10_0000_0000 = .near 1 ∧
    zoneOf 0xFF_FFFF_FFFF = .near 15 := by decide

theorem wit_PairsAreNotWritable : Reg.pairLow (Reg.linkTxFlits 3) = true ∧ State.reset.firstWrite = none := by decide

theorem wit_BandsRiseAtOnceAndFallSlowly : nextBand 0 2 1520 = (3, 0) ∧ nextBand 2 0 1360 = (2, 0) ∧ nextBand 2 3 1312 = (1, 0) ∧
    nextBand 2 3 1313 = (2, 0) := by decide

theorem wit_RequestsStandInTheOrderOfTheirTick : fnRank 7 8 = 1 ∧ fnRank 7 7 = 255 ∧ fnRank 255 1 = 1 ∧ fnRank 7 0 = 0 := by decide

/-- What `Obligations.CommandsChangeOnlyTheirFootprint` assumes is met. -/
theorem wit_CommandsChangeOnlyTheirFootprint :
    ∃ (c : Instr) (s t : State) (p : StatePart), exec c s = .next t ∧ p ∉ footprint c :=
  ⟨.abangoAlert 15, State.reset, _, .mem, rfl, by decide⟩

/-- What `Obligations.CommandsThatStoreNothingKeepEveryByte` assumes is met. -/
theorem wit_CommandsThatStoreNothingKeepEveryByte :
    ∃ (c : Instr) (s t : State), StatePart.mem ∉ footprint c ∧ StatePart.written ∉ footprint c ∧ exec c s = .next t :=
  ⟨.abangoAlert 15, State.reset, _, by decide, by decide, rfl⟩
end

/-! PROOFS. The family 00_scope: host accesses by access code (R15 to R20, R620 to R623), the guarded pair GLOBAL_RESET (R18,
R632), and the writes of the CLOCK block and of the calibration entries (R17, R353, R368, R624, R628, R635).

A lemma about a register's place takes its offset as a variable with an equation: `Reg.place` of a written-out offset makes the
kernel unfold the comparisons of large numerals. -/

namespace Sys2Proof.Machine

/-! ### Bits of a host's word, and the update that ends parity mismatches -/

theorem bit_toNat (v : Word) (i : Nat) : bit v.toNat i = v.getLsbD i := bit_testBit _ _

@[simp] theorem reg_endUpset (s : State) (p : ParityUnit → Bool) (k : Nat) : reg (endUpset s p) k = reg s k := rfl

theorem pf0Reg_iff (s : State) (off : Nat) : pf0Reg s off = true ↔ fnReach s 0 = true ∧ blockHeld s off = true := by
  rw [pf0Reg, Bool.and_eq_true]

/-! ### Where the registers of a transport, Abango, link and optics block lie (R618, R619) -/

section
variable {off n x : Nat}

/-- The sub-blocks of a site from its memory block upward. -/
theorem place_of_site (hlo : 0x100_0000 ≤ off) (hhi : off < 0x200_0000) (hx : 0x5_0000 ≤ off % 0x10_0000) :
    Reg.place off =
      (if off % 0x10_0000 < 0x6_0000 then (.mem ((off - 0x100_0000) / 0x10_0000), off % 0x10_0000 - 0x5_0000)
      else if off % 0x10_0000 < 0x7_0000 then (.basin ((off - 0x100_0000) / 0x10_0000), off % 0x10_0000 - 0x6_0000)
      else if off % 0x10_0000 < 0x8_0000 then (.abango ((off - 0x100_0000) / 0x10_0000), off % 0x10_0000 - 0x7_0000)
      else if off % 0x10_0000 < 0xC_0000 then (.light ((off - 0x100_0000) / 0x10_0000), off % 0x10_0000 - 0x8_0000)
      else (.gap, off)) := by
  unfold Reg.place
  rw [if_neg (by omega), if_neg (by omega), if_neg (by omega), if_neg (by omega), if_neg (by omega), if_neg (by omega),
    if_neg (by omega), if_neg (by omega), if_neg (by omega), if_neg (by omega), if_pos hhi]
  dsimp only
  rw [if_neg (by omega), if_neg (by omega), if_neg (by omega)]

theorem place_of_outlet (hlo : 0x200_0000 ≤ off) (hhi : off < 0x300_0000) :
    Reg.place off =
      (if off % 0x10_0000 < 0x8_0000 then (.link ((off - 0x200_0000) / 0x10_0000), off % 0x10_0000)
      else (.optics ((off - 0x200_0000) / 0x10_0000), off % 0x10_0000 - 0x8_0000)) := by
  unfold Reg.place
  rw [if_neg (by omega), if_neg (by omega), if_neg (by omega), if_neg (by omega), if_neg (by omega), if_neg (by omega),
    if_neg (by omega), if_neg (by omega), if_neg (by omega), if_neg (by omega), if_neg (by omega), if_pos hhi]

theorem place_basin (hn : n < 16) (hx : x < 0x1_0000) (h : off = 0x0100_0000 + n * 0x10_0000 + 0x6_0000 + x) :
    Reg.place off = (.basin n, x) := by
  have hs : (off - 0x100_0000) / 0x10_0000 = n := by omega
  have hl : off % 0x10_0000 - 0x6_0000 = x := by omega
  rw [place_of_site (by omega) (by omega) (by omega), if_neg (by omega), if_pos (by omega), hs, hl]

theorem place_abango (hn : n < 16) (hx : x < 0x1_0000) (h : off = 0x0100_0000 + n * 0x10_0000 + 0x7_0000 + x) :
    Reg.place off = (.abango n, x) := by
  have hs : (off - 0x100_0000) / 0x10_0000 = n := by omega
  have hl : off % 0x10_0000 - 0x7_0000 = x := by omega
  rw [place_of_site (by omega) (by omega) (by omega), if_neg (by omega), if_neg (by omega), if_pos (by omega), hs, hl]

theorem place_link (hn : n < 16) (hx : x < 0x8_0000) (h : off = 0x0200_0000 + n * 0x10_0000 + x) :
    Reg.place off = (.link n, x) := by
  have ho : (off - 0x200_0000) / 0x10_0000 = n := by omega
  have hl : off % 0x10_0000 = x := by omega
  rw [place_of_outlet (by omega) (by omega), if_pos (by omega), ho, hl]

theorem place_optics (hn : n < 16) (hx : x < 0x8_0000) (h : off = 0x0200_0000 + n * 0x10_0000 + 0x8_0000 + x) :
    Reg.place off = (.optics n, x) := by
  have ho : (off - 0x200_0000) / 0x10_0000 = n := by omega
  have hl : off % 0x10_0000 - 0x8_0000 = x := by omega
  rw [place_of_outlet (by omega) (by omega), if_neg (by omega), ho, hl]

end

/-! ### Blocks whose registers are written by their access code alone (R17) -/

/-- The blocks in which no register has a row of its own: a write takes effect by the register's W1C bits alone. -/
def writesByW1c : Reg.Place → Bool
  | .basin _ | .abango _ | .link _ | .optics _ => true
  | _ => false

theorem writesByW1c_cases {p : Reg.Place} (h : writesByW1c p = true) :
    (∃ n, p = .basin n) ∨ (∃ n, p = .abango n) ∨ (∃ n, p = .link n) ∨ ∃ n, p = .optics n := by
  cases p <;> simp [writesByW1c] at h ⊢

theorem writeBar0_of_writesByW1c (s : State) {off : Nat} (v : Word) (h : writesByW1c (Reg.place off).1 = true) :
    writeBar0 s off v = if Reg.w1cBits off != 0 then clearFlags s off v.toNat else s := by
  rcases hp : Reg.place off with ⟨p, x⟩
  rw [hp] at h
  obtain ⟨n, rfl⟩ | ⟨n, rfl⟩ | ⟨n, rfl⟩ | ⟨n, rfl⟩ := writesByW1c_cases h <;> simp only [writeBar0, hp]

/-- In these blocks the register at 4 is the flag register, and the only one with W1C bits. -/
theorem w1cBits_ne_zero_iff {off : Nat} (h : writesByW1c (Reg.place off).1 = true) :
    Reg.w1cBits off ≠ 0 ↔ (Reg.place off).2 = 4 := by
  rcases hp : Reg.place off with ⟨p, x⟩
  rw [hp] at h
  by_cases hx : x = 4
  · subst hx
    obtain ⟨n, rfl⟩ | ⟨n, rfl⟩ | ⟨n, rfl⟩ | ⟨n, rfl⟩ := writesByW1c_cases h <;> simp [Reg.w1cBits, hp]
  · obtain ⟨n, rfl⟩ | ⟨n, rfl⟩ | ⟨n, rfl⟩ | ⟨n, rfl⟩ := writesByW1c_cases h <;> simp [Reg.w1cBits, hp, hx]

section
variable {n : Fin 16} {off : Nat}

theorem flagRegister_place (h : off ∈ [Reg.basinFlags n, Reg.abangoFlags n, Reg.linkFlags n, Reg.optFlags n]) :
    writesByW1c (Reg.place off).1 = true ∧ (Reg.place off).2 = 4 ∧ off % 4 = 0 := by
  simp only [List.mem_cons, List.not_mem_nil, or_false, Reg.basinFlags, Reg.abangoFlags, Reg.linkFlags, Reg.optFlags] at h
  obtain h | h | h | h := h
  · rw [place_basin n.isLt (x := 4) (by omega) (by omega)]; exact ⟨rfl, rfl, by omega⟩
  · rw [place_abango n.isLt (x := 4) (by omega) (by omega)]; exact ⟨rfl, rfl, by omega⟩
  · rw [place_link n.isLt (x := 4) (by omega) (by omega)]; exact ⟨rfl, rfl, by omega⟩
  · rw [place_optics n.isLt (x := 4) (by omega) (by omega)]; exact ⟨rfl, rfl, by omega⟩

theorem readOnlyRegister_place
    (h : off ∈ [Reg.basinStat n, Reg.abangoStat n, Reg.linkStat n, Reg.optStat n, Reg.linkLanes n]) :
    writesByW1c (Reg.place off).1 = true ∧ (Reg.place off).2 ≠ 4 ∧ off % 4 = 0 := by
  simp only [List.mem_cons, List.not_mem_nil, or_false, Reg.basinStat, Reg.abangoStat, Reg.linkStat, Reg.optStat,
    Reg.linkLanes] at h
  obtain h | h | h | h | h := h
  · rw [place_basin n.isLt (x := 0) (by omega) (by omega)]; exact ⟨rfl, by simp, by omega⟩
  · rw [place_abango n.isLt (x := 0) (by omega) (by omega)]; exact ⟨rfl, by simp, by omega⟩
  · rw [place_link n.isLt (x := 0) (by omega) (by omega)]; exact ⟨rfl, by simp, by omega⟩
  · rw [place_optics n.isLt (x := 0) (by omega) (by omega)]; exact ⟨rfl, by simp, by omega⟩
  · rw [place_link n.isLt (x := 12) (by omega) (by omega)]; exact ⟨rfl, by simp, by omega⟩

theorem linkTxFlits_pair (h : off = Reg.linkTxFlits n) :
    Reg.pairLow off = true ∧ Reg.pairLow (off + 4) = false ∧ (off + 4) % 4 = 0 := by
  unfold Reg.linkTxFlits at h
  have hlo : Reg.place off = (.link n, 0x10) := place_link n.isLt (by omega) (by omega)
  have hhi : Reg.place (off + 4) = (.link n, 0x14) := place_link n.isLt (by omega) (by omega)
  refine ⟨?_, ?_, by omega⟩
  · simp [Reg.pairLow, hlo]
  · simp [Reg.pairLow, hhi]

end

/-! ### A write-1-to-clear write (R17, R19) -/

theorem xor_cleared (r v w n : Bool) : (r ^^ ((r && v && w) ^^ (r && v && w && n))) = (r && !(v && w && !n)) := by
  cases r
  · rfl
  · rw [Bool.true_and]
    cases v && w
    · rfl
    · cases n <;> rfl

theorem regBit_clearFlags (s : State) (off v i : Nat) :
    regBit (clearFlags s off v) off i =
      (regBit s off i && !(bit v i && bit (Reg.w1cBits off) i && !bit (tget 0 s.flagsNow off) i)) := by
  simp only [regBit, clearFlags, reg_putReg_self, bit_testBit, Nat.testBit_xor, Nat.testBit_and, xor_cleared]

theorem reg_clearFlags_other (s : State) (off v : Nat) {k : Nat} (h : k ≠ off) : reg (clearFlags s off v) k = reg s k :=
  reg_putReg_other s _ _ _ h

@[simp] theorem clearFlags_out (s : State) (off v : Nat) : (clearFlags s off v).out = s.out := rfl

/-! ### Host writes (R15, R17) -/

theorem hostRegisterWrite_malformed (s : State) (fn : Nat) (bar : Bar) {off size : Nat} (v : Word)
    (h : size ≠ 4 ∨ off % 4 ≠ 0) : hostRegisterWrite fn bar off size v s = s := by
  obtain h | h := h <;> simp [hostRegisterWrite, h]

theorem hostRegisterWrite_bar0 (s : State) {off : Nat} (v : Word) (h : pf0Reg s off = true) (ha : off % 4 = 0) :
    hostRegisterWrite 0 .bar0 off 4 v s = writeBar0 s off v := by
  obtain ⟨hr, hb⟩ := (pf0Reg_iff s off).1 h
  simp [hostRegisterWrite, hr, hb, ha]

/-! ### Host reads (R15, R20, R620, R623) -/

theorem l64LowRead_malformed (s : State) {fn : Nat} {bar : Bar} {off size : Nat} (hr : fnReach s fn = true)
    (hv : fn = 0 ∨ bar ≠ .bar0) (h : size ≠ 4 ∨ off % 4 ≠ 0) :
    l64LowRead fn bar off size s = emit s (.readValue fn 0) := by
  have hg : (!fnReach s fn || (fn != 0 && bar == .bar0)) = false := by
    obtain rfl | hv := hv <;> simp_all
  unfold l64LowRead
  rw [hg, if_neg Bool.false_ne_true, if_pos]
  obtain h | h := h <;> simp [h]

theorem l64LowRead_bar0 (s : State) {off : Nat} (hr : fnReach s 0 = true) (ha : off % 4 = 0) :
    l64LowRead 0 .bar0 off 4 s = readBar0 s 0 off := by
  simp [l64LowRead, hr, ha]

theorem l64LowRead_bar2 (s : State) {fn off : Nat} (hr : fnReach s fn = true) (ha : off % 4 = 0) :
    l64LowRead fn .bar2 off 4 s = emit s (.readValue fn (BitVec.ofNat 32 (bar2View s fn off))) := by
  simp [l64LowRead, hr, ha]

theorem l64LowRead_bar4 (s : State) {fn off : Nat} (hr : fnReach s fn = true) (ha : off % 4 = 0) :
    l64LowRead fn .bar4 off 4 s = emit s (.readValue fn (BitVec.ofNat 32 (bar4View s fn off))) := by
  simp [l64LowRead, hr, ha]

theorem readBar0_pairLow (s : State) {off : Nat} (fn : Nat) (hb : blockHeld s off = true) (hp : Reg.pairLow off = true) :
    readBar0 s fn off =
      emit { s with latches := tput 0 s.latches (latchKey fn off) (regView s off / 2 ^ 32 % 2 ^ 32) }
        (.readValue fn (BitVec.ofNat 32 (regView s off))) := by
  simp [readBar0, hb, hp]

theorem readBar0_pairHigh (s : State) {off : Nat} (fn : Nat) (hb : blockHeld s (off + 4) = true)
    (hp : Reg.pairLow off = true) (hh : Reg.pairLow (off + 4) = false) :
    readBar0 s fn (off + 4) = emit s (.readValue fn (BitVec.ofNat 32 (tget 0 s.latches (latchKey fn off)))) := by
  simp [readBar0, hb, hp, hh]

theorem readBar0_blockOff (s : State) {off : Nat} (fn : Nat) (hb : blockHeld s off = false) (hp : Reg.pairLow off = false) :
    readBar0 s fn off = emit s (.readValue fn 0) := by
  simp [readBar0, hb, hp]

@[simp] theorem latchKey_pf0 (off : Nat) : latchKey 0 off = off := by simp [latchKey]

/-! ### The guarded pair (R18, R632) -/

@[simp] theorem pairMismatch_firstWrite (s : State) : (pairMismatch s).firstWrite = none := rfl
@[simp] theorem pairMismatch_start (s : State) : (pairMismatch s).start = s.start := rfl

theorem regBit_pairMismatch (s : State) : regBit (pairMismatch s) Reg.globalFlags 0 = true :=
  regBit_raiseFlag_self { s with firstWrite := none } _ _

theorem pairFirstWrite_of_none {s : State} (v : Word) (h : pf0Reg s Reg.globalReset = true) (hf : s.firstWrite = none) :
    pairFirstWrite v s = { s with firstWrite := some v.toNat } := by
  simp [pairFirstWrite, h, hf]

theorem pairFirstWrite_of_pending {s : State} {n : Nat} (v : Word) (h : pf0Reg s Reg.globalReset = true)
    (hf : s.firstWrite = some n) : pairFirstWrite v s = { pairMismatch s with firstWrite := some v.toNat } := by
  simp [pairFirstWrite, h, hf]

theorem globalResetGo_of_match {s : State} {v : Word} (h : pf0Reg s Reg.globalReset = true)
    (hf : s.firstWrite = some v.toNat) :
    globalResetGo (~~~v) s =
      if v.getLsbD 0 then { s with firstWrite := none, start := { s.start with resetReq := true } }
      else { s with firstWrite := none } := by
  simp [globalResetGo, h, hf, bit_toNat]

/-- A stored first write is a word of 32 bits; one that is not the complement's complement does not match it. -/
theorem globalResetGo_of_mismatch {s : State} {c : Word} (h : pf0Reg s Reg.globalReset = true)
    (hf : s.firstWrite ≠ some (~~~c).toNat) (hw : ∀ n ∈ s.firstWrite, n < 2 ^ 32) :
    globalResetGo c s = pairMismatch s := by
  rcases hs : s.firstWrite with _ | n
  · simp [globalResetGo, h, hs]
  · have hn : n < 2 ^ 32 := hw n (by simp [hs])
    have hne : BitVec.ofNat 32 n ≠ ~~~c := by
      intro he
      apply hf
      rw [hs, ← he, BitVec.toNat_ofNat, Nat.mod_eq_of_lt hn]
    simp [globalResetGo, h, hs, hne]

theorem pair_commands_of_unreached {s : State} (v : Word) (h : pf0Reg s Reg.globalReset = false) :
    pairFirstWrite v s = s ∧ globalResetGo v s = s := by
  simp [pairFirstWrite, globalResetGo, h]

/-! ### The CLOCK block (R17, R624, R628, R635) -/

theorem refaModeWrite_of_disabled {s : State} (m : Bool) (h : pf0Reg s Reg.clockRefcfg = true)
    (he : regBit s Reg.clockCtrl 0 = false) :
    refaModeWrite m s = { putReg s Reg.clockRefcfg (if m then 1 else 0) with
      upsets := s.upsets.filter fun u => !(u.1 == .clock && u.2 < 32) } := by
  unfold refaModeWrite
  rw [h, he, if_neg (by decide), if_neg (by decide)]

theorem reg_refaModeWrite_of_disabled {s : State} (m : Bool) (h : pf0Reg s Reg.clockRefcfg = true)
    (he : regBit s Reg.clockCtrl 0 = false) (k : Nat) :
    reg (refaModeWrite m s) k = reg (putReg s Reg.clockRefcfg (if m then 1 else 0)) k := by
  rw [refaModeWrite_of_disabled m h he]
  exact reg_of rfl k
theorem refaModeWrite_of_enabled {s : State} (m : Bool) (h : pf0Reg s Reg.clockRefcfg = true)
    (he : regBit s Reg.clockCtrl 0 = true) : refaModeWrite m s = raiseFlag s Reg.clockFlags 0 := by
  unfold refaModeWrite
  rw [h, he, if_neg (by decide), if_pos rfl]

theorem clockUpset_eq_true_iff (s : State) : clockUpset s = true ↔ ∃ b, (.clock, b) ∈ s.upsets := by
  simp [clockUpset]

theorem clockEnableWrite_of_upset {s : State} (v : Word) (hu : clockUpset s = true) : clockEnableWrite v s = s := by
  simp [clockEnableWrite, enableClock, hu]

theorem clockEnableWrite_of_reached {s : State} (v : Word) (h : pf0Reg s Reg.clockCtrl = true)
    (hu : clockUpset s = false) :
    clockEnableWrite v s =
      { putBit s Reg.clockCtrl 0 true with clock := { s.clock with refaMode := regBit s Reg.clockRefcfg 0 } } := by
  simp [clockEnableWrite, enableClock, h, hu]

/-! ### Calibration entries (R353, R368) -/

section
variable (old v : Nat)

/-- The parts of a written entry stay within their fields. -/
theorem calEntry_parts :
    ∃ valid stale sel aux code, calEntry old v = valid * 2 ^ 31 + stale * 2 ^ 30 + sel * 2 ^ 28 + aux * 2 ^ 20 + code ∧
      valid = bits v 31 31 ∧ sel = minNat 2 (bits v 29 28) ∧ code = minNat 3200 (bits v 11 0) ∧
      valid < 2 ∧ stale < 2 ∧ sel < 3 ∧ aux < 256 ∧ code < 3201 := by
  have hmin (a b : Nat) : minNat a b < a + 1 := by unfold minNat; split <;> omega
  exact ⟨_, _, _, _, _, rfl, rfl, rfl, rfl, bits_lt v 31 31, bits_lt old 30 30, hmin 2 _, bits_lt v 27 20, hmin 3200 _⟩

theorem code_calEntry : bits (calEntry old v) 11 0 = minNat 3200 (bits v 11 0) := by
  obtain ⟨valid, stale, sel, aux, code, he, -, -, hcode, hb⟩ := calEntry_parts old v
  rw [he, ← hcode, bits]; omega

theorem sel_calEntry : bits (calEntry old v) 29 28 = minNat 2 (bits v 29 28) := by
  obtain ⟨valid, stale, sel, aux, code, he, -, hsel, -, hb⟩ := calEntry_parts old v
  rw [he, ← hsel, bits]; omega

theorem valid_calEntry : bit (calEntry old v) 31 = bit v 31 := by
  obtain ⟨valid, stale, sel, aux, code, he, hvalid, -, -, hb⟩ := calEntry_parts old v
  rw [bit_eq_bits, bit_eq_bits, he, ← hvalid]
  congr 1
  rw [bits]; omega

end

section
variable {s : State} {r : CalReg} (v : Word)

theorem calEntryWrite_of_disabled (h : pf0Reg s (calRegAt r) = true)
    (he : regBit s (Reg.lightStat (calSite r)) 0 = false) :
    calEntryWrite r v s = endUpset (putEntry s (calRegAt r) v.toNat) (· == calUnit r) := by
  unfold calEntryWrite
  dsimp only
  rw [h, he, if_neg (by decide), if_neg (by decide)]

theorem reg_calEntryWrite_of_disabled (h : pf0Reg s (calRegAt r) = true)
    (he : regBit s (Reg.lightStat (calSite r)) 0 = false) :
    reg (calEntryWrite r v s) (calRegAt r) = calEntry (reg s (calRegAt r)) v.toNat := by
  rw [calEntryWrite_of_disabled v h he, reg_endUpset, putEntry, reg_putReg_self]

theorem calEntryWrite_of_enabled (h : pf0Reg s (calRegAt r) = true)
    (he : regBit s (Reg.lightStat (calSite r)) 0 = true) :
    calEntryWrite r v s = raiseFlag s (Reg.lightFlags (calSite r)) 6 := by
  unfold calEntryWrite
  dsimp only
  rw [h, he, if_neg (by decide), if_pos rfl]

end

/-! ### The commands of this family as updates of the state -/

section
variable (s : State)

theorem exec_hostRegisterWrite (fn : Fn) (bar : Bar) (off size : Nat) (v : Word) :
    exec (.hostRegisterWrite fn bar off size v) s = .next (hostRegisterWrite fn bar off size v s) := rfl
theorem exec_l64LowRead (fn : Fn) (bar : Bar) (off size : Nat) :
    exec (.l64LowRead fn ⟨bar, off, size⟩) s = .next (l64LowRead fn bar off size s) := rfl
theorem exec_pairFirstWrite (v : Word) : exec (.pairFirstWrite v) s = .next (pairFirstWrite v s) := rfl
theorem exec_globalResetGo (c : Word) : exec (.globalResetGo c) s = .next (globalResetGo c s) := rfl
theorem exec_refaModeWrite (m : Bool) : exec (.refaModeWrite m) s = .next (refaModeWrite m s) := rfl
theorem exec_clockEnableWrite (v : Word) : exec (.clockEnableWrite v) s = .next (clockEnableWrite v s) := rfl
theorem exec_calEntryWrite (r : CalReg) (v : Word) : exec (.calEntryWrite r v) s = .next (calEntryWrite r v s) := rfl

end

/-! ### The obligations -/

/-- Settles O2: a malformed access is discarded; in the blocks written by their W1C bits alone a write clears flags or does
nothing; a read of BAR0 is one of the low half of a pair, of its high half, or of a block that is off. -/
theorem hostAccessTakesEffectByAccessCode : Obligations.HostAccessTakesEffectByAccessCode := by
  refine ⟨fun s fn bar off size v h => ?_, fun s fn bar off size hr hv h => ?_, fun s v n off hp hm => ?_,
    fun s v n off hp hm => ?_, fun s off hp ha hl => ?_, fun s n => ?_, fun s off hr hb ha hl => ?_,
    fun s fn off hr ha => ⟨?_, ?_⟩⟩
  · rw [exec_hostRegisterWrite, hostRegisterWrite_malformed s fn bar v h]
  · rw [exec_l64LowRead, l64LowRead_malformed s hr (hv.imp_left (congrArg Fin.val)) h]; rfl
  · obtain ⟨hw, h4, ha⟩ := flagRegister_place hm
    have hf : writeBar0 s off v = clearFlags s off v.toNat := by
      rw [writeBar0_of_writesByW1c s v hw, if_pos (by simpa using (w1cBits_ne_zero_iff hw).2 h4)]
    refine ⟨clearFlags s off v.toNat, ?_, fun i => ?_, fun k hk => reg_clearFlags_other s off _ hk, clearFlags_out s off _⟩
    · rw [exec_hostRegisterWrite, Fin.val_zero, hostRegisterWrite_bar0 s v hp ha, hf]
    · rw [regBit_clearFlags, bit_toNat]
  · obtain ⟨hw, h4, ha⟩ := readOnlyRegister_place hm
    have hz : Reg.w1cBits off = 0 := not_ne_iff.1 fun hne => h4 ((w1cBits_ne_zero_iff hw).1 hne)
    rw [exec_hostRegisterWrite, Fin.val_zero, hostRegisterWrite_bar0 s v hp ha, writeBar0_of_writesByW1c s v hw, hz]; rfl
  · obtain ⟨hr, hb⟩ := (pf0Reg_iff s off).1 hp
    rw [exec_l64LowRead, Fin.val_zero, l64LowRead_bar0 s hr ha, readBar0_pairLow s 0 hb hl, latchKey_pf0]; rfl
  · generalize hoff : Reg.linkTxFlits n = off
    intro hp
    obtain ⟨hr, hb⟩ := (pf0Reg_iff s _).1 hp
    obtain ⟨hlo, hhi, ha⟩ := linkTxFlits_pair hoff.symm
    rw [exec_l64LowRead, Fin.val_zero, l64LowRead_bar0 s hr ha, readBar0_pairHigh s 0 hb hlo hhi, latchKey_pf0]; rfl
  · rw [exec_l64LowRead, Fin.val_zero, l64LowRead_bar0 s hr ha, readBar0_blockOff s 0 hb hl]; rfl
  · rw [exec_l64LowRead, l64LowRead_bar2 s hr ha]; rfl
  · rw [exec_l64LowRead, l64LowRead_bar4 s hr ha]; rfl

/-- Settles O1: a first write with and without a pending one, a matching complement by its GO bit, a mismatch, and the register
out of PF0's reach. -/
theorem guardedPairRequestsModuleReset : Obligations.GuardedPairRequestsModuleReset := by
  refine ⟨fun s v h hf => ?_, fun s v n h hf => ?_, fun s v h hf hgo => ?_, fun s v h hf hgo => ?_, fun s c h hf hw => ?_,
    fun s v h => ?_⟩
  · rw [exec_pairFirstWrite, pairFirstWrite_of_none v h hf]
  · refine ⟨{ pairMismatch s with firstWrite := some v.toNat }, ?_, rfl, ?_⟩
    · rw [exec_pairFirstWrite, pairFirstWrite_of_pending v h hf]
    · exact (regBit_of rfl _ _).trans (regBit_pairMismatch s)
  · rw [exec_globalResetGo, globalResetGo_of_match h hf, if_pos hgo]
  · rw [exec_globalResetGo, globalResetGo_of_match h hf, if_neg (Bool.eq_false_iff.1 hgo)]
  · refine ⟨pairMismatch s, ?_, pairMismatch_firstWrite s, pairMismatch_start s, regBit_pairMismatch s⟩
    rw [exec_globalResetGo, globalResetGo_of_mismatch h hf hw]
  · obtain ⟨hfirst, hgo⟩ := pair_commands_of_unreached v h
    rw [exec_pairFirstWrite, exec_globalResetGo, hfirst, hgo]
    exact ⟨rfl, rfl⟩

/-- Settles O4: each of the three writes, with its block enabled and disabled or with a mismatch in it. -/
theorem clockAndCalibrationWrites : Obligations.ClockAndCalibrationWrites := by
  refine ⟨fun s m h he => ?_, fun s m h he => ?_, fun s v h hu => ?_, fun s v b h hu => ?_, fun s i c v h he => ?_,
    fun s i r l v h he => ?_⟩
  · have hregs := reg_refaModeWrite_of_disabled m h he
    refine ⟨refaModeWrite m s, exec_refaModeWrite s m, ?_, fun k hk => ?_⟩
    · rw [hregs, reg_putReg_self]
    · rw [hregs, reg_putReg_other s _ _ _ hk]
  · refine ⟨raiseFlag s Reg.clockFlags 0, ?_, regBit_raiseFlag_self s _ _, fun k hk => reg_raiseFlag_other s _ _ _ hk⟩
    rw [exec_refaModeWrite, refaModeWrite_of_enabled m h he]
  · have hu' : clockUpset s = false :=
      Bool.eq_false_iff.2 fun hb => let ⟨b, hm⟩ := (clockUpset_eq_true_iff s).1 hb; hu _ hm rfl
    refine ⟨{ putBit s Reg.clockCtrl 0 true with clock := { s.clock with refaMode := regBit s Reg.clockRefcfg 0 } },
      ?_, ?_, rfl⟩
    · rw [exec_clockEnableWrite, clockEnableWrite_of_reached v h hu']
    · exact (regBit_of rfl _ _).trans (regBit_putBit_self s _ _ _)
  · rw [exec_clockEnableWrite, clockEnableWrite_of_upset v ((clockUpset_eq_true_iff s).2 ⟨b, hu⟩)]
  · have hreg : reg (calEntryWrite (.tx i c) v s) (Reg.lightTxcal i c) = calEntry (reg s (Reg.lightTxcal i c)) v.toNat :=
      reg_calEntryWrite_of_disabled (r := .tx i c) v h he
    refine ⟨calEntryWrite (.tx i c) v s, exec_calEntryWrite s _ v, ?_, ?_, ?_⟩
    · rw [field, hreg, code_calEntry]
    · rw [field, hreg, sel_calEntry]
    · rw [regBit, hreg, valid_calEntry, bit_toNat]
  · refine ⟨raiseFlag s (Reg.lightFlags i) 6, ?_, regBit_raiseFlag_self s _ _, fun k hk => reg_raiseFlag_other s _ _ _ hk⟩
    rw [exec_calEntryWrite, calEntryWrite_of_enabled (r := .rx i r l) v h he]; rfl

end Sys2Proof.Machine

/-! PROOFS. The family 01_module: the frame of every command (R42, R623), Springs, domains and the reset pin (R336, R337, R574,
R594, R598, R603, R606, R653).

The frame of a command is the frame of its meaning: `exec_within_footprint` takes from the `_only` lemma of each operation that
it changes no part beyond the command's footprint. -/

namespace Sys2Proof.Machine

/-! ### The mask of a list of parts -/

theorem StatePart.ix_injective : Function.Injective StatePart.ix :=
  Function.LeftInverse.injective StatePart.ofNat_ctorIdx

theorem testBit_parts (ps : List StatePart) (p : StatePart) : (parts ps).testBit p.ix = decide (p ∈ ps) := by
  induction ps with
  | nil => simp [parts]
  | cons q ps ih => simp [parts, ih, Nat.testBit_two_pow, StatePart.ix_injective.eq_iff, eq_comm]

theorem Only.agree {ps : List StatePart} {s t : State} {p : StatePart} (h : Only (parts ps) s t) (hp : p ∉ ps) : Agree s t p :=
  h.out p (by rw [testBit_parts, decide_eq_false hp])

/-! ### Every command keeps to its footprint -/

/-- One arm for each command, in the order of `exec`, the vector operations together. The footprint is opened in every arm, so that the masks to compare are
closed numerals. -/
theorem exec_within_footprint (c : Instr) (s : State) : ∃ t, exec c s = .next t ∧ Only (parts (footprint c)) s t := by
  cases c with dsimp only [footprint]
  | hostRegisterWrite => exact ⟨_, rfl, hostRegisterWrite_only _ _ _ _ _ .refl ⟨rfl⟩⟩
  | l64LowRead => exact ⟨_, rfl, l64LowRead_only _ _ _ _ .refl ⟨rfl⟩⟩
  | pairFirstWrite => exact ⟨_, rfl, pairFirstWrite_only _ .refl ⟨rfl⟩⟩
  | globalResetGo => exact ⟨_, rfl, globalResetGo_only _ .refl ⟨rfl⟩⟩
  | cperfClear => exact ⟨_, rfl, cperfClear_only _ _ _ .refl ⟨rfl⟩⟩
  | cperfFreeze => exact ⟨_, rfl, cperfFreeze_only _ _ .refl ⟨rfl⟩⟩
  | cperfEnable => exact ⟨_, rfl, cperfEnable_only _ _ .refl ⟨rfl⟩⟩
  | dmaChannelDisable => exact ⟨_, rfl, dmaChannelDisable_only _ _ .refl ⟨rfl⟩⟩
  | dmaChannelPriority => exact ⟨_, rfl, dmaChannelPriority_only _ _ .refl ⟨rfl⟩⟩
  | dmaHaltClear => exact ⟨_, rfl, dmaHaltClear_only _ .refl ⟨rfl⟩⟩
  | houseTrigger => exact ⟨_, rfl, houseTrigger_only _ .refl ⟨rfl⟩⟩
  | refaModeWrite => exact ⟨_, rfl, refaModeWrite_only _ .refl ⟨rfl⟩⟩
  | clockEnableWrite => exact ⟨_, rfl, clockEnableWrite_only _ .refl ⟨rfl⟩⟩
  | calEntryWrite => exact ⟨_, rfl, calEntryWrite_only _ _ .refl ⟨rfl⟩⟩
  | sqTailWrite => exact ⟨_, rfl, sqTailWrite_only _ _ _ .refl ⟨rfl⟩⟩
  | cqHeadWrite => exact ⟨_, rfl, cqHeadWrite_only _ _ _ .refl ⟨rfl⟩⟩
  | mbDoorbell => exact ⟨_, rfl, mbDoorbell_only _ _ _ .refl ⟨rfl⟩⟩
  | mbEvtHeadWrite => exact ⟨_, rfl, mbEvtHeadWrite_only _ _ _ .refl ⟨rfl⟩⟩
  | busMasterEnable => exact ⟨_, rfl, busMasterEnable_only _ _ .refl ⟨rfl⟩⟩
  | parityMismatch => exact ⟨_, rfl, parityMismatch_only _ _ .refl ⟨rfl⟩⟩
  | parityRestore => exact ⟨_, rfl, parityRestore_only _ .refl ⟨rfl⟩⟩
  | refMonitorWindow =>
    exact ⟨_, rfl, advanceStart_only (selectRefs_only (refMonitorWindow_only _ _ .refl ⟨rfl⟩) ⟨rfl⟩) ⟨rfl⟩⟩
  | tileAlignment => exact ⟨_, rfl, tileAlignment_only _ _ .refl ⟨rfl⟩⟩
  | timeBeacon => exact ⟨_, rfl, timeBeacon_only _ .refl ⟨rfl⟩⟩
  | timeBackupCopy => exact ⟨_, rfl, timeBackupCopy_only .refl ⟨rfl⟩⟩
  | tickEnd => exact ⟨_, rfl, tickEnd_only .refl ⟨rfl⟩⟩
  | combinerResolveTick => exact ⟨_, rfl, combinerResolveTick_only .refl ⟨rfl⟩⟩
  | faultReport => exact ⟨_, rfl, faultReport_only _ .refl ⟨rfl⟩⟩
  | repeatWindowClose => exact ⟨_, rfl, repeatWindowClose_only .refl ⟨rfl⟩⟩
  | logWrite => exact ⟨_, rfl, logWrite_only .refl ⟨rfl⟩⟩
  | stepArmed => exact ⟨_, rfl, stepArmed_only _ .refl ⟨rfl⟩⟩
  | stepDeadline => exact ⟨_, rfl, stepDeadline_only .refl ⟨rfl⟩⟩
  | stepCommit => exact ⟨_, rfl, stepCommit_only .refl ⟨rfl⟩⟩
  | hbmStepQuiesce => exact ⟨_, rfl, hbmStepQuiesce_only .refl ⟨rfl⟩⟩
  | coreRampDone => exact ⟨_, rfl, coreRampDone_only _ .refl ⟨rfl⟩⟩
  | crossingPartnerReset => exact ⟨_, rfl, crossingPartnerReset_only _ .refl ⟨rfl⟩⟩
  | partnerUp => exact ⟨_, rfl, partnerUp_only _ _ .refl ⟨rfl⟩⟩
  | bundleIssue => exact ⟨_, rfl, bundleIssue_only _ .refl ⟨rfl⟩⟩
  | nop => exact ⟨_, rfl, .refl⟩
  | ldtd => exact ⟨_, rfl, ldtd_only _ _ _ .refl ⟨rfl⟩⟩
  | mma => exact ⟨_, rfl, mma_only _ _ _ .refl ⟨rfl⟩⟩
  | merge => exact ⟨_, rfl, merge_only _ _ _ .refl ⟨rfl⟩⟩
  | drain => exact ⟨_, rfl, drain_only _ _ .refl ⟨rfl⟩⟩
  | arrayOpComplete => exact ⟨_, rfl, arrayOpComplete_only _ _ .refl ⟨rfl⟩⟩
  | drainComplete => exact ⟨_, rfl, drainComplete_only _ _ _ .refl ⟨rfl⟩⟩
  | vld => exact ⟨_, rfl, vld_only _ _ _ .refl ⟨rfl⟩⟩
  | vst => exact ⟨_, rfl, vst_only _ _ .refl ⟨rfl⟩⟩
  | add | sub | mul | fma | min | max | abs | neg | cvt | cvtmx | unpkmx | exp2 | log2 | rcp | rsq | tanh | rmax | rsum | bcast =>
    exact ⟨_, rfl, vecRun_only _ _ _ .refl ⟨rfl⟩⟩
  | transcendentalResult => exact ⟨_, rfl, transcendentalResult_only _ .refl ⟨rfl⟩⟩
  | move => exact ⟨_, rfl, move_only _ _ _ .refl ⟨rfl⟩⟩
  | moveComplete => exact ⟨_, rfl, moveComplete_only _ _ _ .refl ⟨rfl⟩⟩
  | wait => exact ⟨_, rfl, wait_only _ _ _ .refl ⟨rfl⟩⟩
  | waitRelease => exact ⟨_, rfl, waitRelease_only _ .refl ⟨rfl⟩⟩
  | post => exact ⟨_, rfl, post_only _ _ .refl ⟨rfl⟩⟩
  | close => exact ⟨_, rfl, close_only _ .refl ⟨rfl⟩⟩
  | setsel => exact ⟨_, rfl, setsel_only _ _ _ .refl ⟨rfl⟩⟩
  | fault => exact ⟨_, rfl, faultOp_only _ _ .refl ⟨rfl⟩⟩
  | rdstat => exact ⟨_, rfl, rdstat_only _ _ .refl ⟨rfl⟩⟩
  | operandParityFault => exact ⟨_, rfl, operandParityFault_only _ _ .refl ⟨rfl⟩⟩
  | tokrateWindow => exact ⟨_, rfl, tokrateWindow_only _ _ .refl ⟨rfl⟩⟩
  | closeReport => exact ⟨_, rfl, closeReport_only _ .refl ⟨rfl⟩⟩
  | barrierToken => exact ⟨_, rfl, barrierToken_only _ _ _ _ _ _ .refl ⟨rfl⟩⟩
  | barrierComplete => exact ⟨_, rfl, barrierComplete_only _ _ .refl ⟨rfl⟩⟩
  | abortComplete => exact ⟨_, rfl, abortComplete_only _ .refl ⟨rfl⟩⟩
  | siteReset => exact ⟨_, rfl, advanceStart_only (siteReset_only _ _ .refl ⟨rfl⟩) ⟨rfl⟩⟩
  | inval => exact ⟨_, rfl, inval_only _ _ _ .refl ⟨rfl⟩⟩
  | invalAck => exact ⟨_, rfl, invalAck_only _ _ _ .refl ⟨rfl⟩⟩
  | hbmRefresh => exact ⟨_, rfl, hbmRefresh_only _ _ .refl ⟨rfl⟩⟩
  | scrub => exact ⟨_, rfl, scrub_only _ _ _ _ .refl ⟨rfl⟩⟩
  | poisonNotice => exact ⟨_, rfl, poisonNotice_only .refl ⟨rfl⟩⟩
  | ringSettled => exact ⟨_, rfl, ringSettled_only _ _ .refl ⟨rfl⟩⟩
  | retuneLate => exact ⟨_, rfl, retuneLate_only _ _ .refl ⟨rfl⟩⟩
  | scheduledData => exact ⟨_, rfl, scheduledData_only _ _ _ _ _ .refl ⟨rfl⟩⟩
  | postToken => exact ⟨_, rfl, postToken_only _ _ _ _ _ .refl ⟨rfl⟩⟩
  | creditMessage => exact ⟨_, rfl, creditMessage_only _ _ _ .refl ⟨rfl⟩⟩
  | receiptConfirmation => exact ⟨_, rfl, receiptConfirmation_only _ _ _ _ .refl ⟨rfl⟩⟩
  | lossOfSignal => exact ⟨_, rfl, lossOfSignal_only _ _ .refl ⟨rfl⟩⟩
  | lossOfLock => exact ⟨_, rfl, lossOfLock_only _ _ .refl ⟨rfl⟩⟩
  | channelFailed => exact ⟨_, rfl, channelFailed_only _ _ .refl ⟨rfl⟩⟩
  | bundleFrame => exact ⟨_, rfl, bundleFrame_only _ _ _ _ _ _ .refl ⟨rfl⟩⟩
  | bundleTraining => exact ⟨_, rfl, bundleTraining_only _ _ _ _ .refl ⟨rfl⟩⟩
  | propose => exact ⟨_, rfl, propose_only _ _ _ _ .refl ⟨rfl⟩⟩
  | agree => exact ⟨_, rfl, agree_only _ _ _ _ .refl ⟨rfl⟩⟩
  | laneMapSwitch => exact ⟨_, rfl, laneMapSwitch_only _ _ _ .refl ⟨rfl⟩⟩
  | hello => exact ⟨_, rfl, hello_only _ .refl ⟨rfl⟩⟩
  | caps => exact ⟨_, rfl, advanceStart_only (caps_only _ _ _ .refl ⟨rfl⟩) ⟨rfl⟩⟩
  | offer => exact ⟨_, rfl, offer_only _ .refl ⟨rfl⟩⟩
  | accept => exact ⟨_, rfl, accept_only _ _ _ .refl ⟨rfl⟩⟩
  | reject => exact ⟨_, rfl, advanceStart_only (reject_only _ _ _ .refl ⟨rfl⟩) ⟨rfl⟩⟩
  | commit => exact ⟨_, rfl, advanceStart_only (commit_only _ .refl ⟨rfl⟩) ⟨rfl⟩⟩
  | report => exact ⟨_, rfl, report_only _ _ _ .refl ⟨rfl⟩⟩
  | limit => exact ⟨_, rfl, limit_only _ _ .refl ⟨rfl⟩⟩
  | limitAck => exact ⟨_, rfl, limitAck_only _ _ _ .refl ⟨rfl⟩⟩
  | lanes => exact ⟨_, rfl, lanes_only _ _ _ _ _ .refl ⟨rfl⟩⟩
  | refuse => exact ⟨_, rfl, refuseMsg_only _ _ _ _ _ .refl ⟨rfl⟩⟩
  | sidebandReplyTimeout => exact ⟨_, rfl, advanceStart_only (sidebandReplyTimeout_only _ .refl ⟨rfl⟩) ⟨rfl⟩⟩
  | reportLate => exact ⟨_, rfl, reportLate_only _ .refl ⟨rfl⟩⟩
  | powerExcessTimeout => exact ⟨_, rfl, powerExcessTimeout_only _ .refl ⟨rfl⟩⟩
  | abangoAlert => exact ⟨_, rfl, abangoAlert_only _ .refl ⟨rfl⟩⟩
  | viaParityError => exact ⟨_, rfl, viaParityError_only _ _ _ _ .refl ⟨rfl⟩⟩
  | combinerFeedLoss => exact ⟨_, rfl, combinerFeedLoss_only _ _ .refl ⟨rfl⟩⟩
  | combinerResume => exact ⟨_, rfl, combinerResume_only _ .refl ⟨rfl⟩⟩
  | springFailed => exact ⟨_, rfl, springFailedAt_only _ _ .refl ⟨rfl⟩⟩
  | springRestore => exact ⟨_, rfl, springRestore_only .refl ⟨rfl⟩⟩
  | springLocked => exact ⟨_, rfl, advanceStart_only (springLocked_only _ .refl ⟨rfl⟩) ⟨rfl⟩⟩
  | calibrationDone => exact ⟨_, rfl, calibrationDone_only _ _ .refl ⟨rfl⟩⟩
  | channelFrame => exact ⟨_, rfl, channelFrame_only _ _ _ .refl ⟨rfl⟩⟩
  | clampTrip => exact ⟨_, rfl, clampTrip_only _ _ .refl ⟨rfl⟩⟩
  | clampReopen => exact ⟨_, rfl, clampReopen_only _ _ .refl ⟨rfl⟩⟩
  | linkFlit => exact ⟨_, rfl, linkFlit_only _ _ _ .refl ⟨rfl⟩⟩
  | fibreSwap => exact ⟨_, rfl, fibreSwap_only _ _ .refl ⟨rfl⟩⟩
  | helloTimeout => exact ⟨_, rfl, helloTimeout_only _ .refl ⟨rfl⟩⟩
  | linkTrained => exact ⟨_, rfl, linkTrained_only _ .refl ⟨rfl⟩⟩
  | linkSleepEnter => exact ⟨_, rfl, linkSleepEnter_only _ .refl ⟨rfl⟩⟩
  | read => exact ⟨_, rfl, readPacket_only _ _ _ .refl ⟨rfl⟩⟩
  | write => exact ⟨_, rfl, writePacket_only _ _ .refl ⟨rfl⟩⟩
  | atomic => exact ⟨_, rfl, atomicPacket_only _ _ .refl ⟨rfl⟩⟩
  | readData => exact ⟨_, rfl, readData_only _ _ .refl ⟨rfl⟩⟩
  | writeAck => exact ⟨_, rfl, writeAck_only _ _ .refl ⟨rfl⟩⟩
  | atomicResult => exact ⟨_, rfl, atomicResult_only _ _ .refl ⟨rfl⟩⟩
  | refusal => exact ⟨_, rfl, refusal_only _ _ .refl ⟨rfl⟩⟩
  | neighbourHello => exact ⟨_, rfl, neighbourHello_only _ _ .refl ⟨rfl⟩⟩
  | helloRepeat => exact ⟨_, rfl, helloRepeat_only .refl ⟨rfl⟩⟩
  | timeSync => exact ⟨_, rfl, timeSync_only _ _ _ _ _ .refl ⟨rfl⟩⟩
  | timeSyncPeriod => exact ⟨_, rfl, timeSyncPeriod_only .refl ⟨rfl⟩⟩
  | linkState => exact ⟨_, rfl, linkStateMsg_only _ _ .refl ⟨rfl⟩⟩
  | weirMsg => exact ⟨_, rfl, weirMsg_only _ _ .refl ⟨rfl⟩⟩
  | convergenceTimer => exact ⟨_, rfl, convergenceTimer_only .refl ⟨rfl⟩⟩
  | flaggedStoreRelease => exact ⟨_, rfl, flaggedStoreRelease_only _ _ .refl ⟨rfl⟩⟩
  | egressDrainTimeout => exact ⟨_, rfl, egressDrainTimeout_only _ .refl ⟨rfl⟩⟩
  | sqFetch => exact ⟨_, rfl, sqFetch_only _ _ .refl ⟨rfl⟩⟩
  | dispatch => exact ⟨_, rfl, dispatch_only _ .refl ⟨rfl⟩⟩
  | copy => exact ⟨_, rfl, copy_only _ .refl ⟨rfl⟩⟩
  | queueNop => exact ⟨_, rfl, queueNop_only _ .refl ⟨rfl⟩⟩
  | dmaBurstComplete => exact ⟨_, rfl, dmaBurstComplete_only _ _ _ .refl ⟨rfl⟩⟩
  | dmaHalt => exact ⟨_, rfl, dmaHalt_only _ _ .refl ⟨rfl⟩⟩
  | coalescingTimeout => exact ⟨_, rfl, coalescingTimeout_only _ .refl ⟨rfl⟩⟩
  | functionLevelReset => exact ⟨_, rfl, functionLevelReset_only _ .refl ⟨rfl⟩⟩
  | hotReset => exact ⟨_, rfl, hotReset_only .refl ⟨rfl⟩⟩
  | hostLinkDown => exact ⟨_, rfl, hostLinkDown_only .refl ⟨rfl⟩⟩
  | d3hotExit => exact ⟨_, rfl, d3hotExit_only _ .refl ⟨rfl⟩⟩
  | info => exact ⟨_, rfl, execNow_only _ _ .refl (fun _ _ h => info_only _ h ⟨rfl⟩) ⟨rfl⟩⟩
  | evtRingSet => exact ⟨_, rfl, execNow_only _ _ .refl (fun _ _ h => evtRingSet_only _ h ⟨rfl⟩) ⟨rfl⟩⟩
  | timeSet => exact ⟨_, rfl, execReq_only _ _ .refl (fun _ _ h => timeSet_only _ h ⟨rfl⟩) ⟨rfl⟩⟩
  | fabricCoord => exact ⟨_, rfl, execNow_only _ _ .refl (fun _ _ h => fabricCoord_only _ h ⟨rfl⟩) ⟨rfl⟩⟩
  | partCreate => exact ⟨_, rfl, execReq_only _ _ .refl (fun _ _ h => partCreate_only _ h ⟨rfl⟩) ⟨rfl⟩⟩
  | partDestroy => exact ⟨_, rfl, execNow_only _ _ .refl (fun _ _ h => partDestroy_only _ h ⟨rfl⟩) ⟨rfl⟩⟩
  | destroyTimeout => exact ⟨_, rfl, destroyTimeout_only .refl ⟨rfl⟩⟩
  | partBind => exact ⟨_, rfl, execNow_only _ _ .refl (fun _ _ h => partBind_only _ h ⟨rfl⟩) ⟨rfl⟩⟩
  | partMem => exact ⟨_, rfl, execNow_only _ _ .refl (fun _ _ h => partMem_only _ h ⟨rfl⟩) ⟨rfl⟩⟩
  | partKey => exact ⟨_, rfl, execNow_only _ _ .refl (fun _ _ h => partKey_only _ h ⟨rfl⟩) ⟨rfl⟩⟩
  | partEgress => exact ⟨_, rfl, execNow_only _ _ .refl (fun _ _ h => partEgress_only _ h ⟨rfl⟩) ⟨rfl⟩⟩
  | partSeal => exact ⟨_, rfl, execReq_only _ _ .refl (fun _ _ h => partSeal_only _ h ⟨rfl⟩) ⟨rfl⟩⟩
  | partStatus => exact ⟨_, rfl, execNow_only _ _ .refl (fun _ _ h => partStatus_only _ h ⟨rfl⟩) ⟨rfl⟩⟩
  | pondCache => exact ⟨_, rfl, execNow_only _ _ .refl (fun _ _ h => pondCache_only _ h ⟨rfl⟩) ⟨rfl⟩⟩
  | pondArea => exact ⟨_, rfl, execNow_only _ _ .refl (fun _ _ h => pondArea_only _ h ⟨rfl⟩) ⟨rfl⟩⟩
  | cacheSlices => exact ⟨_, rfl, execNow_only _ _ .refl (fun _ _ h => cacheSlices_only _ h ⟨rfl⟩) ⟨rfl⟩⟩
  | cacheFlush => exact ⟨_, rfl, execNow_only _ _ .refl (fun _ _ h => cacheFlush_only _ h ⟨rfl⟩) ⟨rfl⟩⟩
  | farMap => exact ⟨_, rfl, execReq_only _ _ .refl (fun _ _ h => farMap_only _ h ⟨rfl⟩) ⟨rfl⟩⟩
  | farUnmap => exact ⟨_, rfl, execReq_only _ _ .refl (fun _ _ h => farUnmap_only _ h ⟨rfl⟩) ⟨rfl⟩⟩
  | farUnmapTimeout => exact ⟨_, rfl, farUnmapTimeout_only .refl ⟨rfl⟩⟩
  | planLoad => exact ⟨_, rfl, execNow_only _ _ .refl (fun _ _ h => planLoad_only _ h ⟨rfl⟩) ⟨rfl⟩⟩
  | planUnload => exact ⟨_, rfl, execReq_only _ _ .refl (fun _ _ h => planUnload_only _ h ⟨rfl⟩) ⟨rfl⟩⟩
  | ctxAbort => exact ⟨_, rfl, execReq_only _ _ .refl (fun _ _ h => ctxAbort_only _ h ⟨rfl⟩) ⟨rfl⟩⟩
  | ctxQuery => exact ⟨_, rfl, execNow_only _ _ .refl (fun _ _ h => ctxQuery_only _ h ⟨rfl⟩) ⟨rfl⟩⟩
  | qpCreate => exact ⟨_, rfl, execNow_only _ _ .refl (fun _ _ h => qpCreate_only _ h ⟨rfl⟩) ⟨rfl⟩⟩
  | qpDelete => exact ⟨_, rfl, execReq_only _ _ .refl (fun _ _ h => qpDelete_only _ h ⟨rfl⟩) ⟨rfl⟩⟩
  | vfQpRange => exact ⟨_, rfl, execNow_only _ _ .refl (fun _ _ h => vfQpRange_only _ h ⟨rfl⟩) ⟨rfl⟩⟩
  | stackSelftest => exact ⟨_, rfl, execNow_only _ _ .refl (fun _ _ h => stackSelftest_only _ h ⟨rfl⟩) ⟨rfl⟩⟩
  | calChannel => exact ⟨_, rfl, execNow_only _ _ .refl (fun _ _ h => calChannel_only _ h ⟨rfl⟩) ⟨rfl⟩⟩
  | calAll => exact ⟨_, rfl, execNow_only _ _ .refl (fun _ _ h => calAll_only _ h ⟨rfl⟩) ⟨rfl⟩⟩
  | calSave => exact ⟨_, rfl, execNow_only _ _ .refl (fun _ _ h => calSave_only _ h ⟨rfl⟩) ⟨rfl⟩⟩
  | calRestore => exact ⟨_, rfl, execNow_only _ _ .refl (fun _ _ h => calRestore_only _ h ⟨rfl⟩) ⟨rfl⟩⟩
  | hbmRepair => exact ⟨_, rfl, execNow_only _ _ .refl (fun _ _ h => hbmRepair_only _ h ⟨rfl⟩) ⟨rfl⟩⟩
  | refRecover => exact ⟨_, rfl, execNow_only _ _ .refl (fun _ _ h => refRecover_only _ h ⟨rfl⟩) ⟨rfl⟩⟩
  | swapDrill => exact ⟨_, rfl, execNow_only _ _ .refl (fun _ _ h => swapDrill_only _ h ⟨rfl⟩) ⟨rfl⟩⟩
  | maintStatus => exact ⟨_, rfl, execNow_only _ _ .refl (fun _ _ h => maintStatus_only _ h ⟨rfl⟩) ⟨rfl⟩⟩
  | maintCancel => exact ⟨_, rfl, execNow_only _ _ .refl (fun _ _ h => maintCancel_only _ h ⟨rfl⟩) ⟨rfl⟩⟩
  | activityDone => exact ⟨_, rfl, activityDone_only _ _ _ _ .refl ⟨rfl⟩⟩
  | stepCore => exact ⟨_, rfl, execReq_only _ _ .refl (fun _ _ h => stepCore_only _ h ⟨rfl⟩) ⟨rfl⟩⟩
  | stepModule => exact ⟨_, rfl, execReq_only _ _ .refl (fun _ _ h => stepModule_only _ h ⟨rfl⟩) ⟨rfl⟩⟩
  | linkSleep => exact ⟨_, rfl, execReq_only _ _ .refl (fun _ _ h => linkSleep_only _ h ⟨rfl⟩) ⟨rfl⟩⟩
  | linkWake => exact ⟨_, rfl, execNow_only _ _ .refl (fun _ _ h => linkWake_only _ h ⟨rfl⟩) ⟨rfl⟩⟩
  | linkRelease => exact ⟨_, rfl, execNow_only _ _ .refl (fun _ _ h => linkRelease_only _ h ⟨rfl⟩) ⟨rfl⟩⟩
  | logRead => exact ⟨_, rfl, execNow_only _ _ .refl (fun _ _ h => logRead_only _ h ⟨rfl⟩) ⟨rfl⟩⟩
  | logCounters => exact ⟨_, rfl, execNow_only _ _ .refl (fun _ _ h => logCounters_only _ h ⟨rfl⟩) ⟨rfl⟩⟩
  | flashErase => exact ⟨_, rfl, execNow_only _ _ .refl (fun _ _ h => flashEraseCmd_only _ h ⟨rfl⟩) ⟨rfl⟩⟩
  | flashProgram => exact ⟨_, rfl, execNow_only _ _ .refl (fun _ _ h => flashProgramCmd_only _ h ⟨rfl⟩) ⟨rfl⟩⟩
  | fwSelect => exact ⟨_, rfl, execNow_only _ _ .refl (fun _ _ h => fwSelect_only _ h ⟨rfl⟩) ⟨rfl⟩⟩
  | beat => exact ⟨_, rfl, beat_only _ _ .refl ⟨rfl⟩⟩
  | beatMissed => exact ⟨_, rfl, beatMissed_only _ .refl ⟨rfl⟩⟩
  | explicitFault => exact ⟨_, rfl, explicitFault_only _ _ .refl ⟨rfl⟩⟩
  | switchoverComplete => exact ⟨_, rfl, switchoverComplete_only .refl ⟨rfl⟩⟩
  | gapBoundExpiry => exact ⟨_, rfl, gapBoundExpiry_only .refl ⟨rfl⟩⟩
  | checkpointWrite => exact ⟨_, rfl, checkpointWrite_only .refl ⟨rfl⟩⟩
  | standbyImageCheck => exact ⟨_, rfl, standbyImageCheck_only _ .refl ⟨rfl⟩⟩
  | feedBad => exact ⟨_, rfl, feedBad_only _ .refl ⟨rfl⟩⟩
  | feedGood => exact ⟨_, rfl, feedGood_only _ .refl ⟨rfl⟩⟩
  | islandToVkeep => exact ⟨_, rfl, islandToVkeep_only .refl ⟨rfl⟩⟩
  | islandReturn => exact ⟨_, rfl, islandReturn_only _ .refl ⟨rfl⟩⟩
  | domainReady => exact ⟨_, rfl, domainReady_only _ .refl ⟨rfl⟩⟩
  | domainVoltageFault => exact ⟨_, rfl, domainVoltageFault_only _ .refl ⟨rfl⟩⟩
  | coreIdlePowerOff => exact ⟨_, rfl, coreIdlePowerOff_only _ .refl ⟨rfl⟩⟩
  | throttleStart => exact ⟨_, rfl, throttleStart_only _ .refl ⟨rfl⟩⟩
  | throttleStep => exact ⟨_, rfl, throttleStep_only _ .refl ⟨rfl⟩⟩
  | throttleEnd => exact ⟨_, rfl, throttleEnd_only .refl ⟨rfl⟩⟩
  | housekeepingPeriod => exact ⟨_, rfl, housekeepingPeriod_only .refl ⟨rfl⟩⟩
  | housekeepingRoundEnd => exact ⟨_, rfl, housekeepingRoundEnd_only _ _ _ .refl ⟨rfl⟩⟩
  | thermalTrip => exact ⟨_, rfl, thermalTrip_only _ _ _ .refl ⟨rfl⟩⟩
  | tripClear => exact ⟨_, rfl, tripClear_only .refl ⟨rfl⟩⟩
  | moduleResetPin => exact ⟨_, rfl, moduleResetPin_only .refl ⟨rfl⟩⟩
  | weirBoot => exact ⟨_, rfl, weirBoot_only _ _ _ _ .refl ⟨rfl⟩⟩
  | refSelectTimeout => exact ⟨_, rfl, refSelectTimeout_only _ .refl ⟨rfl⟩⟩
  | springLockTimeout => exact ⟨_, rfl, springLockTimeout_only _ .refl ⟨rfl⟩⟩
  | memoryTraining => exact ⟨_, rfl, memoryTraining_only _ _ _ _ .refl ⟨rfl⟩⟩
  | coreSelftest => exact ⟨_, rfl, coreSelftest_only _ .refl ⟨rfl⟩⟩
  | calStage => exact ⟨_, rfl, calStage_only _ _ .refl ⟨rfl⟩⟩
  | outletLight => exact ⟨_, rfl, outletLight_only _ _ .refl ⟨rfl⟩⟩
  | stageBoundExpiry => exact ⟨_, rfl, stageBoundExpiry_only _ .refl ⟨rfl⟩⟩
  | ready => exact ⟨_, rfl, ready_only .refl ⟨rfl⟩⟩
  | calImageWrite => exact ⟨_, rfl, calImageWrite_only .refl ⟨rfl⟩⟩
  | getStatus => exact ⟨_, rfl, getStatus_only .refl ⟨rfl⟩⟩
  | getSensors => exact ⟨_, rfl, getSensors_only _ _ .refl ⟨rfl⟩⟩
  | mctpLogRead => exact ⟨_, rfl, mctpLogRead_only _ _ .refl ⟨rfl⟩⟩
  | mctpLogCounters => exact ⟨_, rfl, mctpLogCounters_only .refl ⟨rfl⟩⟩
  | mctpModuleReset => exact ⟨_, rfl, mctpModuleReset_only _ .refl ⟨rfl⟩⟩
  | setEndpointId => exact ⟨_, rfl, setEndpointId_only _ .refl ⟨rfl⟩⟩
  | getEndpointId => exact ⟨_, rfl, getEndpointId_only .refl ⟨rfl⟩⟩
  | getMctpVersionSupport => exact ⟨_, rfl, getMctpVersionSupport_only .refl ⟨rfl⟩⟩
  | getMessageTypeSupport => exact ⟨_, rfl, getMessageTypeSupport_only .refl ⟨rfl⟩⟩
  | getVendorDefinedMessageSupport => exact ⟨_, rfl, getVendorSupport_only .refl ⟨rfl⟩⟩
  | uartFrame => exact ⟨_, rfl, uartFrame_only _ _ .refl ⟨rfl⟩⟩
  | uartBreak => exact ⟨_, rfl, uartBreak_only .refl ⟨rfl⟩⟩
  | consoleVer => exact ⟨_, rfl, consoleVer_only .refl ⟨rfl⟩⟩
  | consoleStat => exact ⟨_, rfl, consoleStat_only .refl ⟨rfl⟩⟩
  | consoleSensors => exact ⟨_, rfl, consoleSensors_only .refl ⟨rfl⟩⟩
  | consoleLog => exact ⟨_, rfl, consoleLog_only .refl ⟨rfl⟩⟩
  | consoleCounters => exact ⟨_, rfl, consoleCounters_only .refl ⟨rfl⟩⟩
  | consoleBaud => exact ⟨_, rfl, consoleBaud_only .refl ⟨rfl⟩⟩
  | bypass => exact ⟨_, rfl, bypass_only _ .refl ⟨rfl⟩⟩
  | idcode => exact ⟨_, rfl, idcode_only .refl ⟨rfl⟩⟩
  | samplePreload => exact ⟨_, rfl, samplePreload_only _ _ .refl ⟨rfl⟩⟩
  | extest => exact ⟨_, rfl, extest_only _ _ .refl ⟨rfl⟩⟩
  | statusRd => exact ⟨_, rfl, statusRd_only .refl ⟨rfl⟩⟩
  | logRd => exact ⟨_, rfl, logRd_only _ .refl ⟨rfl⟩⟩
  | arm => exact ⟨_, rfl, arm_only _ .refl ⟨rfl⟩⟩
  | moveLastByteLeftSource => exact ⟨_, rfl, moveLastByteLeftSource_only _ _ .refl ⟨rfl⟩⟩
  | refreshManagementRequest => exact ⟨_, rfl, refreshManagementRequest_only _ _ .refl ⟨rfl⟩⟩
  | linkControlWord => exact ⟨_, rfl, linkControlWord_only _ _ _ _ _ .refl ⟨rfl⟩⟩
  | vkeepLost => exact ⟨_, rfl, vkeepLost_only .refl ⟨rfl⟩⟩
  | moduleResetRelease => exact ⟨_, rfl, moduleResetRelease_only .refl ⟨rfl⟩⟩
  | d3hotEntry => exact ⟨_, rfl, d3hotEntry_only _ .refl ⟨rfl⟩⟩
  | vfEnable => exact ⟨_, rfl, vfEnable_only _ .refl ⟨rfl⟩⟩
  | hostLinkUp => exact ⟨_, rfl, hostLinkUp_only .refl ⟨rfl⟩⟩

/-- Settles O52: a command's next state differs from its state in the parts of its footprint only. -/
theorem commandsChangeOnlyTheirFootprint : Obligations.CommandsChangeOnlyTheirFootprint := by
  intro c s t p h hp
  obtain ⟨u, hu, honly⟩ := exec_within_footprint c s
  cases hu.symm.trans h
  exact honly.agree hp

/-! ### Where a start stands still (R603) -/

/-- Stages other than 1, 3, 5 and 8 end with commands of their own. -/
theorem advanceStart_of_no_open_stage {s : State} (h1 : stage s ≠ 1) (h3 : stage s ≠ 3) (h5 : stage s ≠ 5) (h8 : stage s ≠ 8) :
    advanceStart s = s := by
  have hstage1 : (if stage s == 1 && (firstDomains s).all (domOn s) then putField s Reg.globalStat 3 0 2 else s) = s :=
    if_neg (by simp [h1])
  have hstage3 : endStage3 s = s := if_neg (by simp [h3])
  have hstage5 : endStage5 s = s := if_neg (by simp [h5])
  have hstage8 : endStage8 s = s := if_neg (by simp [h8])
  rw [advanceStart, hstage1, hstage3, hstage5, hstage8]

theorem advanceStart_of_stage_nine {s : State} (h : reg s Reg.globalStat = 9) : advanceStart s = s := by
  have hstage : stage s = 9 := by rw [stage, field, h]; rfl
  apply advanceStart_of_no_open_stage <;> omega

theorem exec_springLocked (s : State) (n : SpringNo) : exec (.springLocked n) s = .next (advanceStart (springLocked n s)) := rfl

/-! ### A Spring that locks feeds the combs of its pair (R335) -/

/-- Stage 9, with Spring 0 warming in position 0 and every combiner register at its reset value. -/
def readyWithSpringWarming : State :=
  { State.reset with regs := [(Reg.globalStat, 9), (Reg.springStat 0, 0x100)] }

/-- The first comb of site 0 has no even feed before Spring 0 locks, and has it afterwards. -/
theorem springLocked_feeds_comb :
    regBit readyWithSpringWarming (Reg.lightComb 0 0) 28 = false ∧
      regBit (springLocked 0 readyWithSpringWarming) (Reg.lightComb 0 0) 28 = true := by
  decide +kernel

/-- Refutes O42: in stage 9, Spring 0 warms in position 0 and locks. The statement lets SPRING_LOCKED change no register but
SPRING_STAT and POWER_DOMAIN of that Spring, yet the Spring feeds its position, so the combiners of its pair's sites show the
new feed (R335, R365): bit 28 of LIGHT_COMB 0 of site 0 goes from 0 to 1. -/
theorem not_springsDomainsAndTheResetPin : ¬ Obligations.SpringsDomainsAndTheResetPin := by
  rintro ⟨-, hlocked, -⟩
  obtain ⟨-, hfeeds, -⟩ := hlocked readyWithSpringWarming 0
  obtain ⟨t, hexec, -, -, -, -, -, hframe⟩ := hfeeds (by decide) rfl
  have ht : advanceStart t = t :=
    advanceStart_of_stage_nine (hframe Reg.globalStat (by decide) (by decide))
  have hu : advanceStart (springLocked 0 readyWithSpringWarming) = springLocked 0 readyWithSpringWarming :=
    advanceStart_of_stage_nine (by decide +kernel)
  have hnext : springLocked 0 readyWithSpringWarming = t := by
    rw [exec_springLocked, ht] at hexec
    exact hu ▸ Host.Outcome.next.inj hexec
  obtain ⟨hbefore, hafter⟩ := springLocked_feeds_comb
  have hcomb : reg t (Reg.lightComb 0 0) = reg readyWithSpringWarming (Reg.lightComb 0 0) :=
    hframe (Reg.lightComb 0 0) (by decide) (by decide)
  rw [hnext, regBit, hcomb] at hafter
  exact Bool.false_ne_true (hbefore.symm.trans hafter)

end Sys2Proof.Machine

/-! PROOFS. The family 02_time_and_clocks: the step and the order within a tick (R61, R64, R70, R71, R73, R623). -/

namespace Sys2Proof.Machine

/-! ### The step (R70, R476) -/

theorem step_of_pending {s : State} {c : Instr} {rest : List Instr} (h : s.pending = c :: rest) :
    step s = exec c { s with pending := rest } := by
  rw [step, h]

theorem step_of_idle {s : State} (h : s.pending = []) : step s = .next (idleCycle s) := by
  rw [step, h]

/-- Settles O47: the step reads the front of the queue. -/
theorem frontCommandRuns : Obligations.FrontCommandRuns :=
  fun _ _ _ h => step_of_pending h

/-! ### A cycle of the backbone clock (R61, R64) -/

theorem idleCycle_within_tick {s : State} (h : tickOf (backboneCycle s) = tickOf s) : idleCycle s = backboneCycle s :=
  if_pos (by simpa using h)

theorem idleCycle_past_boundary {s : State} (h : tickOf (backboneCycle s) ≠ tickOf s) :
    idleCycle s = atBoundary (tickOf s) (backboneCycle s) :=
  if_neg (by simpa using h)

theorem backboneCycle_of_hold {s : State} (h : s.time.hold = true) :
    backboneCycle s = { s with time := { s.time with hold := false } } := if_pos h

theorem backboneCycle_of_count {s : State} (h : s.time.hold = false) : backboneCycle s = passTime s (backbonePeriod s) :=
  if_neg (by simp [h])

theorem backboneCycle_changes_time_only (s : State) : { backboneCycle s with time := s.time } = s := by
  cases h : s.time.hold
  · rw [backboneCycle_of_count h]; rfl
  · rw [backboneCycle_of_hold h]

/-- The count and its fraction together gain what has passed. -/
theorem masterUnits_passTime (s : State) (d : Nat) :
    65536 * (passTime s d).time.now + (passTime s d).time.frac = masterUnits s + d :=
  Nat.div_add_mod (masterUnits s + d) 65536

theorem frac_passTime_lt (s : State) (d : Nat) : (passTime s d).time.frac < 65536 := Nat.mod_lt _ (by decide)

@[simp] theorem hold_passTime (s : State) (d : Nat) : (passTime s d).time.hold = s.time.hold := rfl

/-- Settles O48: an idle cycle within its tick or past its boundary, TICK_END, and the cycle that is withheld or counted. -/
theorem emptyQueueRunsBackboneCycle : Obligations.EmptyQueueRunsBackboneCycle := by
  refine ⟨fun s hs => ⟨fun htick => ?_, fun htick => ?_⟩, fun _ => rfl,
    fun s => ⟨backboneCycle_changes_time_only s, fun hhold => ?_, fun hhold => ⟨?_, ?_, ?_⟩⟩⟩
  · rw [step_of_idle hs, idleCycle_within_tick htick]
  · rw [step_of_idle hs, idleCycle_past_boundary htick]
  · rw [backboneCycle_of_hold hhold]
  · rw [backboneCycle_of_count hhold, hold_passTime, hhold]
  · rw [backboneCycle_of_count hhold]; exact frac_passTime_lt s _
  · rw [backboneCycle_of_count hhold, masterUnits_passTime, masterUnits, backbonePeriod]; omega

/-! From here on the theorems are elaborated one after the other: side by side, their tasks outgrow the memory that a check of the
whole text has. -/

set_option Elab.async false

/-! ### Every command answers a next state (R623) -/

/-- No command's footprint holds the queue. -/
theorem pending_not_mem_footprint (c : Instr) : StatePart.pending ∉ footprint c := by
  cases c <;> exact of_decide_eq_false rfl

theorem exec_keeps_pending (c : Instr) (s : State) : ∃ t : State, exec c s = .next t ∧ t.pending = s.pending := by
  obtain ⟨t, ht, honly⟩ := exec_within_footprint c s
  exact ⟨t, ht, (honly.agree (pending_not_mem_footprint c)).symm⟩

theorem stepCompletes (s : State) : StepCompletes s := by
  rcases hs : s.pending with _ | ⟨c, rest⟩
  · exact ⟨idleCycle s, step_of_idle hs⟩
  · obtain ⟨t, ht, -⟩ := exec_keeps_pending c { s with pending := rest }
    exact ⟨t, (step_of_pending hs).trans ht⟩

/-- Settles O51: by the footprints of the commands, and of the step by the queue. -/
theorem everyCommandCompletes : Obligations.EveryCommandCompletes := ⟨exec_keeps_pending, stepCompletes⟩

/-! ### The order of the functions within a tick (R70, R71) -/

theorem fnRank_pf0 (n : Nat) : fnRank n 0 = 0 := rfl

theorem fnRank_vf (n : Nat) {v : Nat} (h : 1 ≤ v) : fnRank n v = 1 + (v + 254 - n % 255) % 255 :=
  if_neg (by simp; omega)

theorem fnRank_vf_bounds (n : Nat) {v : Nat} (h : 1 ≤ v) : 1 ≤ fnRank n v ∧ fnRank n v ≤ 255 := by
  rw [fnRank_vf n h]; omega

/-- A VF stands first in the ticks whose number, less one for the VF's own, is a multiple of 255. -/
theorem fnRank_eq_one_iff (n : Nat) {v : Nat} (h : 1 ≤ v) (hv : v ≤ 255) : fnRank n v = 1 ↔ n % 255 = v - 1 := by
  rw [fnRank_vf n h]; omega

theorem fnRank_succ (n : Nat) {v : Nat} (h : 1 ≤ v) (hv : v ≤ 255) (hfirst : v % 255 + 1 ≠ 1 + n % 255) :
    fnRank n (v % 255 + 1) = fnRank n v + 1 := by
  rw [fnRank_vf n h, fnRank_vf n (by omega)]; omega

theorem fnRank_injective (n : Nat) {v w : Nat} (h : 1 ≤ v) (hv : v ≤ 255) (h' : 1 ≤ w) (hw : w ≤ 255)
    (he : fnRank n v = fnRank n w) : v = w := by
  rw [fnRank_vf n h, fnRank_vf n h'] at he; omega

/-- Settles O58: by the arithmetic of the rotation; within 255 ticks in a row each residue of the tick's number occurs once. -/
theorem requestsStandInTheOrderOfTheirTick : Obligations.RequestsStandInTheOrderOfTheirTick := by
  refine ⟨fun n v h _ => ?_, fun n => (fnRank_eq_one_iff n (by omega) (by omega)).2 (by omega), fun n _ => fnRank_succ n,
    fun n _ _ => fnRank_injective n, fun n v h hv => ⟨(v + 254 - n % 255) % 255, by omega, ?_, fun j hj hfirst => ?_⟩⟩
  · exact ⟨by rw [fnRank_pf0]; exact (fnRank_vf_bounds n h).1, fnRank_vf_bounds n h⟩
  · rw [fnRank_eq_one_iff _ h hv]; omega
  · rw [fnRank_eq_one_iff _ h hv] at hfirst; omega

/-! PROOFS. The family 02_time_and_clocks: the event combiner and the fault log (R68, R69, R533, R537 to R542). -/

/-! ### Reports that reach the combiner (R69, R533) -/

section
variable {s : State} {r : Report}

/-- What a report of a class that triggers no housekeeping round has changed before it is placed. -/
def countReport (r : Report) (s : State) : State :=
  addPair { s with faults := { s.faults with inTransit := dropReport r s.faults.inTransit } } (Reg.faultClass r.cls.val) 1

theorem reg_countReport_class (r : Report) (s : State) :
    reg (countReport r s) (Reg.faultClass r.cls) = (reg s (Reg.faultClass r.cls) + 1) % 2 ^ 64 :=
  reg_addPair_self _ _ _

@[simp] theorem countReport_faults (r : Report) (s : State) :
    (countReport r s).faults = { s.faults with inTransit := dropReport r s.faults.inTransit } := rfl

@[simp] theorem countReport_time (r : Report) (s : State) : (countReport r s).time = s.time := rfl

/-- A report that comes after its tick has been resolved is counted and flagged. -/
def noteLate (s : State) : State := raiseFlag (addPair s Reg.faultLateEvents 1) Reg.faultFlags 2

@[simp] theorem noteLate_faults (s : State) : (noteLate s).faults = s.faults := rfl

theorem reg_noteLate_other (s : State) {off : Nat} (hflags : off ≠ Reg.faultFlags) (hlate : off ≠ Reg.faultLateEvents) :
    reg (noteLate s) off = reg s off :=
  (reg_raiseFlag_other _ _ _ _ hflags).trans (reg_putReg_other _ _ _ _ hlate)

theorem regBit_noteLate (s : State) : regBit (noteLate s) Reg.faultFlags 2 = true := regBit_raiseFlag_self _ _ _

/-- A report takes its place among those that have arrived. -/
def placeReport (a : Arrived) (s : State) : State :=
  { s with faults := { s.faults with arrived := s.faults.arrived ++ [a] } }

@[simp] theorem placeReport_faults (a : Arrived) (s : State) :
    (placeReport a s).faults = { s.faults with arrived := s.faults.arrived ++ [a] } := rfl
@[simp] theorem reg_placeReport (a : Arrived) (s : State) (off : Nat) : reg (placeReport a s) off = reg s off := rfl
@[simp] theorem regBit_placeReport (a : Arrived) (s : State) (off i : Nat) :
    regBit (placeReport a s) off i = regBit s off i := rfl

theorem faultReport_eq (hcls : r.cls ∉ ([0, 1, 4] : List (Fin 16))) (hrun : s.time.running = true) :
    faultReport r s = if r.stamp < s.faults.nextTick then placeReport ⟨r, s.faults.nextTick, true⟩ (noteLate (countReport r s))
      else placeReport ⟨r, r.stamp, false⟩ (countReport r s) := by
  have hnone : (r.cls.val == 0 || r.cls.val == 1 || r.cls.val == 4) = false := by
    generalize r.cls = c at hcls
    revert c
    decide
  have hgo : (!(countReport r s).time.running) = false := by simp [hrun]
  unfold faultReport
  rw [hnone]
  exact if_neg (ne_of_eq_of_ne hgo Bool.false_ne_true)

theorem faultReport_late (hcls : r.cls ∉ ([0, 1, 4] : List (Fin 16))) (hrun : s.time.running = true)
    (hstamp : r.stamp < s.faults.nextTick) :
    faultReport r s = placeReport ⟨r, s.faults.nextTick, true⟩ (noteLate (countReport r s)) := by
  rw [faultReport_eq hcls hrun, if_pos hstamp]

theorem faultReport_in_time (hcls : r.cls ∉ ([0, 1, 4] : List (Fin 16))) (hrun : s.time.running = true)
    (hstamp : s.faults.nextTick ≤ r.stamp) : faultReport r s = placeReport ⟨r, r.stamp, false⟩ (countReport r s) := by
  rw [faultReport_eq hcls hrun, if_neg (by omega)]

theorem faultClass_ne (c : Fin 16) : Reg.faultClass c ≠ Reg.faultFlags ∧ Reg.faultClass c ≠ Reg.faultLateEvents := by
  unfold Reg.faultClass Reg.faultFlags Reg.faultLateEvents; omega

end

/-! ### Records that leave the combiner (R539) -/

/-- With room in the queue for all of them, the records are queued. -/
theorem emitRecs_of_room {s : State} {rs : List LogRec} (h : rs.length + s.faults.queue.length ≤ 512) :
    emitRecs s rs = { s with faults := { s.faults with queue := s.faults.queue ++ rs } } := by
  have hlost : rs.length - (512 - s.faults.queue.length) = 0 := by omega
  have htake : rs.take (512 - s.faults.queue.length) = rs := List.take_of_length_le (by omega)
  unfold emitRecs
  dsimp only
  rw [hlost, htake, if_pos (by decide)]

/-! ### The resolution of a tick (R69, R537) -/

/-- Before the first report of a tick is taken. -/
def Resolved.none : Resolved := { recs := [], windows := [], early := [], merged := 0, lost := 0 }

/-- The first report of a tick forms a record and opens a window. -/
def Resolved.one (n : Nat) (r : LogRec) : Resolved :=
  { Resolved.none with recs := [r], windows := [⟨r, n, 0, r.tick, r.tick, false⟩] }

theorem takeReport_first (n : Nat) (r : Report) (late : Bool) :
    takeReport n .none ⟨r, n, late⟩ = .one n (recOf r late) := rfl

/-- A further report of the same signature merges into the one record. -/
theorem takeReport_merges {n : Nat} {x : Resolved} {a : LogRec} {q : Report} {late : Bool} (hrecs : x.recs = [a])
    (hsig : sameSig (recOf q late) a = true) :
    takeReport n x ⟨q, n, late⟩ = { x with recs := [mergeRec a (recOf q late)], merged := x.merged + 1 } := by
  simp [takeReport, hrecs, hsig]

section
variable {s : State} {n : Nat}

/-- All that has arrived is of one tick that is due: that tick resolves. -/
theorem resolveTick_of_one_tick (hdue : n + 3 ≤ tickOf s) (hne : s.faults.arrived ≠ [])
    (hall : ∀ a ∈ s.faults.arrived, a.tick = n) : resolveTick s = n := by
  have hfold : ∀ (l : List Arrived) (m : Nat), (∀ a ∈ l, a.tick = n) → n ≤ m → (l ≠ [] ∨ m = n) →
      l.foldl (fun m a => if a.tick < m then a.tick else m) m = n := by
    intro l
    induction l with
    | nil => intro m _ _ h; exact h.resolve_left fun h => h rfl
    | cons a l ih =>
      intro m hl hm _
      have ha : a.tick = n := hl a List.mem_cons_self
      have hnext : (if a.tick < m then a.tick else m) = n := by rw [ha]; split <;> omega
      rw [List.foldl_cons, hnext]
      exact ih n (fun b hb => hl b (List.mem_cons_of_mem a hb)) (Nat.le_refl n) (Or.inr rfl)
  exact hfold _ _ hall (by omega) (Or.inl hne)

/-- Tick `n` has been resolved to `x`, with no report left. -/
def noteResolved (n : Nat) (x : Resolved) (s : State) : State :=
  addPair { s with faults := { s.faults with arrived := [], nextTick := n + 1, windows := x.windows } } Reg.faultMerged x.merged

@[simp] theorem noteResolved_faults (n : Nat) (x : Resolved) (s : State) :
    (noteResolved n x s).faults = { s.faults with arrived := [], nextTick := n + 1, windows := x.windows } := rfl

theorem reg_noteResolved (n : Nat) (x : Resolved) (s : State) :
    reg (noteResolved n x s) Reg.faultMerged = (reg s Reg.faultMerged + x.merged) % 2 ^ 64 := reg_addPair_self _ _ _

/-- Such a tick resolves to what its reports come to. -/
theorem combinerResolveTick_of_one_tick {x : Resolved} (hrun : s.time.running = true) (hnext : s.faults.nextTick ≤ n)
    (hdue : n + 3 ≤ tickOf s) (hne : s.faults.arrived ≠ []) (hall : ∀ a ∈ s.faults.arrived, a.tick = n)
    (hwin : s.faults.windows = []) (hx : s.faults.arrived.foldl (takeReport n) .none = x) (hlost : x.lost = 0) :
    combinerResolveTick s = emitRecs (noteResolved n x s) (sortRecs x.recs ++ x.early) := by
  have hgo : (!s.time.running || decide (tickOf s < s.faults.nextTick + 3)) = false := by
    rw [hrun, decide_eq_false (by omega)]; rfl
  have hmine : (s.faults.arrived.filter fun a => a.tick == n) = s.faults.arrived :=
    List.filter_eq_self.2 fun a ha => by simpa using hall a ha
  have hrest : (s.faults.arrived.filter fun a => a.tick != n) = [] :=
    List.filter_eq_nil_iff.2 fun a ha => by simpa using hall a ha
  unfold combinerResolveTick
  rw [hgo, if_neg Bool.false_ne_true, resolveTick_of_one_tick hdue hne hall]
  dsimp only
  rw [hmine, hrest, hwin, show s.faults.arrived.foldl (takeReport n) ⟨[], [], [], 0, 0⟩ = x from hx, hlost]
  rfl

end

section
variable {s : State} {r q : Report} {n : Nat}

/-- A single report becomes the one record. -/
theorem combinerResolveTick_single (hrun : s.time.running = true) (hnext : s.faults.nextTick ≤ n) (hdue : n + 3 ≤ tickOf s)
    (harr : s.faults.arrived = [⟨r, n, false⟩]) (hwin : s.faults.windows = []) (hq : s.faults.queue = []) :
    (combinerResolveTick s).faults.queue = [recOf r false] ∧ (combinerResolveTick s).faults.arrived = [] ∧
      (combinerResolveTick s).faults.nextTick = n + 1 := by
  have hx : s.faults.arrived.foldl (takeReport n) .none = Resolved.one n (recOf r false) := by
    rw [harr]; exact takeReport_first n r false
  rw [combinerResolveTick_of_one_tick hrun hnext hdue (by simp [harr]) (by simp [harr]) hwin hx rfl,
    emitRecs_of_room (by simp [hq, Resolved.one, Resolved.none, sortRecs, insertRec])]
  simp [hq, Resolved.one, Resolved.none, sortRecs, insertRec]

/-- Two reports of one signature become one record, and one of them counts as merged. -/
theorem combinerResolveTick_pair (hrun : s.time.running = true) (hnext : s.faults.nextTick ≤ n) (hdue : n + 3 ≤ tickOf s)
    (harr : s.faults.arrived = [⟨r, n, false⟩, ⟨q, n, false⟩]) (hwin : s.faults.windows = []) (hq : s.faults.queue = [])
    (hsig : sameSig (recOf q false) (recOf r false) = true) :
    (combinerResolveTick s).faults.queue = [mergeRec (recOf r false) (recOf q false)] ∧
      reg (combinerResolveTick s) Reg.faultMerged = (reg s Reg.faultMerged + 1) % 2 ^ 64 := by
  have hx : s.faults.arrived.foldl (takeReport n) .none =
      { Resolved.one n (recOf r false) with recs := [mergeRec (recOf r false) (recOf q false)], merged := 1 } := by
    rw [harr]; exact takeReport_merges rfl hsig
  rw [combinerResolveTick_of_one_tick hrun hnext hdue (by simp [harr]) (by simp [harr]) hwin hx rfl,
    emitRecs_of_room (by simp [hq, Resolved.one, Resolved.none, sortRecs, insertRec])]
  exact ⟨by simp [hq, Resolved.one, Resolved.none, sortRecs, insertRec], reg_noteResolved _ _ _⟩

/-- The record of two reports takes the source and the details of the lower source. -/
theorem mergeRec_of_lower (h : q.src < r.src) :
    (mergeRec (recOf r false) (recOf q false)).count = 2 ∧ (mergeRec (recOf r false) (recOf q false)).firstSrc = q.src ∧
      (mergeRec (recOf r false) (recOf q false)).d0 = q.d0 := by
  have hsrc : (recOf q false).firstSrc < (recOf r false).firstSrc := h
  simp [mergeRec, recOf, h, satAdd, minNat]

end

/-! ### Repeat windows and the log (R538, R541) -/

theorem repeatWindowClose_of_due {s : State} {w : RepWindow} {ws : List RepWindow} (hw : s.faults.windows = w :: ws)
    (hdue : w.opened + 4096 ≤ s.faults.nextTick) (hcount : w.count ≠ 0) (hroom : s.faults.queue.length < 512) :
    repeatWindowClose s =
      { s with faults := { s.faults with windows := ws, queue := s.faults.queue ++ [repeatRec w] } } := by
  have hclose : closeWindow w = [repeatRec w] := if_neg (by simpa using hcount)
  unfold repeatWindowClose
  rw [hw]
  dsimp only
  rw [if_neg (by omega), hclose, emitRecs_of_room (by simp; omega)]

/-- With room in the log an entry is added under the next number, and the number advances. -/
theorem appendLog_of_room {s : State} (r : LogRec) (h : s.faults.log.length < 4096) :
    (appendLog s r).faults = { s.faults with log := s.faults.log ++ [⟨reg s Reg.faultLogNext, r, false⟩] } ∧
      reg (appendLog s r) Reg.faultLogNext = (reg s Reg.faultLogNext + 1) % 2 ^ 32 := by
  have hfull : ¬ 4096 ≤ s.faults.log.length := by omega
  unfold appendLog
  dsimp only
  rw [decide_eq_false hfull, if_neg hfull]
  refine ⟨rfl, ?_⟩
  rw [reg_putReg_other _ _ _ _ (by decide), reg_putReg_self]

theorem logWrite_of_serving {s : State} {r : LogRec} {rs : List LogRec} (hq : s.faults.queue = r :: rs)
    (hserve : weirServes s = true) : logWrite s = appendLog { s with faults := { s.faults with queue := rs } } r := by
  unfold logWrite
  rw [hq]
  exact if_pos hserve

/-! ### The obligation -/

section
variable (s : State)

theorem exec_faultReport (r : Report) : exec (.faultReport r) s = .next (faultReport r s) := rfl
theorem exec_combinerResolveTick : exec .combinerResolveTick s = .next (combinerResolveTick s) := rfl
theorem exec_repeatWindowClose : exec .repeatWindowClose s = .next (repeatWindowClose s) := rfl
theorem exec_logWrite : exec .logWrite s = .next (logWrite s) := rfl

end

/-- Settles O8: a report in time or late, a tick of one report or of two that merge, the close of a window and a log entry. -/
theorem combinerMergesAndLogsReports : Obligations.CombinerMergesAndLogsReports := by
  refine ⟨fun s r hcls hrun => ⟨_, exec_faultReport s r, ?_⟩, fun s r n hrun hnext hdue harr hwin hq => ?_,
    fun s r q n hrun hnext hdue harr hwin hq hsig hsrc => ?_, fun s w ws hw hdue hcount hroom => ?_,
    fun s r rs hq hserve hroom => ?_⟩
  · obtain ⟨hflags, hlate⟩ := faultClass_ne r.cls
    rcases Nat.lt_or_ge r.stamp s.faults.nextTick with hstamp | hstamp
    · rw [faultReport_late hcls hrun hstamp, reg_placeReport, reg_noteLate_other _ hflags hlate, regBit_placeReport,
        regBit_noteLate]
      exact ⟨reg_countReport_class r s, rfl, fun h => absurd h (by omega), fun _ => ⟨rfl, rfl⟩⟩
    · rw [faultReport_in_time hcls hrun hstamp, reg_placeReport]
      exact ⟨reg_countReport_class r s, rfl, fun _ => rfl, fun h => absurd h (by omega)⟩
  · exact ⟨_, exec_combinerResolveTick s, combinerResolveTick_single hrun hnext hdue harr hwin hq⟩
  · obtain ⟨hqueue, hmerged⟩ := combinerResolveTick_pair hrun hnext hdue harr hwin hq hsig
    obtain ⟨hcount, hfirst, hd0⟩ := mergeRec_of_lower hsrc
    exact ⟨_, _, exec_combinerResolveTick s, hqueue, hcount, hfirst, hd0, hmerged⟩
  · rw [exec_repeatWindowClose, repeatWindowClose_of_due hw hdue hcount hroom]
  · obtain ⟨hfaults, hnext⟩ := appendLog_of_room (s := { s with faults := { s.faults with queue := rs } }) r hroom
    refine ⟨_, (exec_logWrite s).trans (congrArg _ (logWrite_of_serving hq hserve)), ?_, ?_, hnext⟩
    · rw [hfaults]
    · rw [hfaults]; rfl

/-! PROOFS. The family 02_time_and_clocks: feeds, the island on VKEEP and the thermal trip (R65, R569 to R573, R593, R594, R598). -/

/-! ### Feeds (R569, R570) -/

theorem feedIsGood_of {s t : State} (h : t.power = s.power) (f : Feed) : feedIsGood t f = feedIsGood s f := by
  cases f <;> simp only [feedIsGood, h]

theorem noFeed_of {s t : State} (h : t.power = s.power) : noFeed t = noFeed s := by
  rw [noFeed, noFeed, h]

theorem feedIsGood_setFeed (s : State) (f g : Feed) (b : Bool) :
    feedIsGood (setFeed s f b) g = if g = f then b else feedIsGood s g := by
  cases f <;> cases g <;> rfl

theorem regBit_setFeed (s : State) (f : Feed) (b : Bool) : regBit (setFeed s f b) Reg.powerStat (feedNo f) = b := by
  cases f <;> simp only [setFeed, showFeeds, regBit_putBit, feedNo] <;> rfl

@[simp] theorem setFeed_faults (s : State) (f : Feed) (b : Bool) : (setFeed s f b).faults = s.faults := rfl
@[simp] theorem setFeed_mem (s : State) (f : Feed) (b : Bool) : (setFeed s f b).mem = s.mem := rfl
@[simp] theorem setFeed_time (s : State) (f : Feed) (b : Bool) : (setFeed s f b).time = s.time := rfl

/-- A feed as the power stage reports it: connected or not, with its flag in the one case. -/
def feedShown (s : State) (f : Feed) : Bool → State
  | true => setFeed s f true
  | false => raiseFlag (setFeed s f false) Reg.powerFlags (feedNo f)

theorem feedIsGood_feedShown (s : State) (f g : Feed) (b : Bool) :
    feedIsGood (feedShown s f b) g = if g = f then b else feedIsGood s g := by
  cases b
  · exact (feedIsGood_of (raiseFlag_power _ _ _) g).trans (feedIsGood_setFeed s f g _)
  · exact feedIsGood_setFeed s f g _

theorem regBit_feedShown (s : State) (f : Feed) (b : Bool) : regBit (feedShown s f b) Reg.powerStat (feedNo f) = b := by
  cases b
  · exact (congrArg (bit · _) (reg_raiseFlag_other _ _ _ _ (by decide))).trans (regBit_setFeed s f _)
  · exact regBit_setFeed s f _

@[simp] theorem feedShown_faults (s : State) (f : Feed) (b : Bool) : (feedShown s f b).faults = s.faults := by cases b <;> rfl
@[simp] theorem feedShown_mem (s : State) (f : Feed) (b : Bool) : (feedShown s f b).mem = s.mem := by cases b <;> rfl
@[simp] theorem feedShown_time (s : State) (f : Feed) (b : Bool) : (feedShown s f b).time = s.time := by cases b <;> rfl

/-- The report on a feed and the time since which both are bad leave everything else. -/
def feedReported (s : State) (f : Feed) (code : Nat) (bothBad : Option Nat) : State :=
  { raiseFeed s code f with island := { s.island with bothBadAt := bothBad } }

section
variable (s : State) (f : Feed) (code : Nat) (bothBad : Option Nat)

@[simp] theorem feedReported_power : (feedReported s f code bothBad).power = s.power := rfl
@[simp] theorem feedReported_regs : (feedReported s f code bothBad).regs = s.regs := rfl
@[simp] theorem feedReported_mem : (feedReported s f code bothBad).mem = s.mem := rfl

theorem feedReported_inTransit :
    ∃ r : Report, (feedReported s f code bothBad).faults.inTransit = s.faults.inTransit ++ [r] ∧ r.cls = 1 ∧ r.code = code ∧
      r.unit = unitNo 0x11 (feedNo f) :=
  ⟨_, rfl, rfl, rfl, rfl⟩

end

theorem feedBad_of_bad {s : State} {f : Feed} (h : feedIsGood s f = false) : feedBad f s = s := by
  simp [feedBad, h]

theorem feedBad_of_good {s : State} {f : Feed} (h : feedIsGood s f = true) :
    feedBad f s = feedReported (feedShown s f false) f 1
      (if noFeed (feedShown s f false) then some s.time.now else s.island.bothBadAt) := by
  have hgo : (!feedIsGood s f) = false := by rw [h]; rfl
  have hnone : noFeed (raiseFeed (feedShown s f false) 1 f) = noFeed (feedShown s f false) := noFeed_of rfl
  unfold feedBad
  rw [hgo, if_neg Bool.false_ne_true]
  change (if noFeed (raiseFeed (feedShown s f false) 1 f) = true then _ else _) = _
  rw [hnone]
  split <;> rfl

theorem feedGood_of_good {s : State} {f : Feed} (h : feedIsGood s f = true) : feedGood f s = s := if_pos h

theorem feedGood_of_bad {s : State} {f : Feed} (h : feedIsGood s f = false) :
    feedGood f s = feedReported (feedShown s f true) f 2 none := if_neg (by simp [h])

/-! ### Everything off (R29, R571, R593) -/

theorem tget_filter_of_dropped {α : Type} (d : α) (t : Table α) (p : Nat → Bool) {k : Nat} (h : p k = false) :
    tget d (t.filter fun e => p e.1) k = d := by
  have hdrop : (t.filter fun e => p e.1) = tdrop t fun k => !p k := by simp [tdrop]
  rw [hdrop, tget_tdrop, h]; rfl

theorem reg_showWeir_other (s : State) {off : Nat} (h : off ≠ Reg.faultWeir) : reg (showWeir s) off = reg s off := by
  unfold showWeir
  dsimp only
  rw [reg_putField_other _ _ _ _ _ _ h, reg_putBit_other _ _ _ _ _ h, reg_putField_other _ _ _ _ _ _ h]

theorem reg_showFeeds_other (s : State) {off : Nat} (h : off ≠ Reg.powerStat) : reg (showFeeds s) off = reg s off := by
  rw [showFeeds, reg_putBit_other _ _ _ _ _ h, reg_putBit_other _ _ _ _ _ h]

/-- A register that the island does not keep reads its reset value once everything is off. -/
theorem reg_allOff (s : State) {off : Nat} (hkept : keptReg off = false) (hstat : off ≠ Reg.globalStat)
    (hweir : off ≠ Reg.faultWeir) (hfeed : off ≠ Reg.powerStat) : reg (allOff s) off = Reg.resetVal off := by
  unfold allOff
  dsimp only
  rw [reg_showFeeds_other _ hfeed, reg_showWeir_other _ hweir, reg_putField_other _ _ _ _ _ _ hstat]
  exact tget_filter_of_dropped _ _ _ hkept

theorem stage_allOff (s : State) : stage (allOff s) = 0 := by
  unfold stage allOff
  dsimp only
  rw [field, reg_showFeeds_other _ (by decide), reg_showWeir_other _ (by decide)]
  exact field_putField _ _ _ _ _ (by decide)

theorem place_power {off x : Nat} (hx : x < 0x10_0000) (h : off = 0x40_0000 + x) : Reg.place off = (.power, x) := by
  unfold Reg.place
  rw [if_neg (by omega), if_neg (by omega), if_neg (by omega), if_neg (by omega), if_pos (by omega),
    show off - 0x40_0000 = x by omega]

theorem powerDomain_place {off d : Nat} (hd : d < 166) (h : off = Reg.powerDomain d) :
    keptReg off = false ∧ Reg.resetVal off = 0 := by
  unfold Reg.powerDomain at h
  have hplace : Reg.place off = (.power, 0x100 + 4 * d) := place_power (by omega) (by omega)
  refine ⟨by simp only [keptReg, hplace], ?_⟩
  rw [Reg.resetVal, if_neg (by omega)]
  simp only [hplace]

theorem domState_allOff (s : State) {d : Nat} (hd : d < 166) : domState (allOff s) d = 0 := by
  obtain ⟨hkept, hreset⟩ := powerDomain_place hd rfl
  rw [domState, field, reg_allOff s hkept (by unfold Reg.powerDomain Reg.globalStat; omega)
    (by unfold Reg.powerDomain Reg.faultWeir; omega) (by unfold Reg.powerDomain Reg.powerStat; omega), hreset]
  rfl

section
variable (s : State)

@[simp] theorem allOff_log : (allOff s).faults.log = s.faults.log := rfl
@[simp] theorem allOff_running : (allOff s).time.running = false := rfl
@[simp] theorem allOff_weir_running : (allOff s).weir.running = false := rfl

theorem allOff_island : (allOff s).island =
    { s.island with egress := s.island.egress.map fun e => if e.sealed then e else noEgress } := rfl

/-- The sealed egress entries of the partitions outlast it. -/
theorem mem_egress_allOff {e : Egress} (he : e ∈ s.island.egress) (hsealed : e.sealed = true) :
    e ∈ (allOff s).island.egress := by
  rw [allOff_island]
  exact List.mem_map.2 ⟨e, he, if_pos hsealed⟩

end

/-! ### The island (R65, R571 to R573) -/

/-- The island has switched to VKEEP at time `t` of its clock; `lost` says whether egress was. -/
def onVkeepAt (t : Nat) (lost : Bool) (s : State) : State :=
  { s with time := { s.time with backup := t, shift := 0, now := t },
           island := { s.island with onVkeep := true, vkeepUsed := true, outages := s.island.outages ++ [t],
                                     egressLost := s.island.egressLost || lost } }

section
variable (t : Nat) (lost : Bool) (s : State)

@[simp] theorem onVkeepAt_regs : (onVkeepAt t lost s).regs = s.regs := rfl
@[simp] theorem onVkeepAt_faults : (onVkeepAt t lost s).faults = s.faults := rfl
@[simp] theorem onVkeepAt_weir : (onVkeepAt t lost s).weir = s.weir := rfl
@[simp] theorem onVkeepAt_time : (onVkeepAt t lost s).time = { s.time with backup := t, shift := 0, now := t } := rfl
@[simp] theorem onVkeepAt_island : (onVkeepAt t lost s).island =
    { s.island with onVkeep := true, vkeepUsed := true, outages := s.island.outages ++ [t],
                    egressLost := s.island.egressLost || lost } := rfl

end

theorem islandToVkeep_of_feed {s : State} (h : noFeed s = false ∨ s.island.onVkeep = true) : islandToVkeep s = s :=
  if_pos (by obtain h | h := h <;> simp [h])

theorem islandToVkeep_of_no_feed {s : State} (h : noFeed s = true) (hv : s.island.onVkeep = false) :
    islandToVkeep s = onVkeepAt (islandTime s) (egressWaits s) (allOff s) := by
  unfold islandToVkeep onVkeepAt
  rw [h, hv, if_neg (by decide)]

/-- The feeds are back at time `t` of the island's clock. -/
def offVkeepAt (t : Nat) (s : State) : State :=
  { s with time := { s.time with backup := t, now := t },
           island := { s.island with onVkeep := false, outages := s.island.outages ++ [t] } }

section
variable (t : Nat) (s : State)

@[simp] theorem offVkeepAt_regs : (offVkeepAt t s).regs = s.regs := rfl
@[simp] theorem offVkeepAt_weir : (offVkeepAt t s).weir = s.weir := rfl
@[simp] theorem offVkeepAt_start : (offVkeepAt t s).start = s.start := rfl
@[simp] theorem offVkeepAt_time : (offVkeepAt t s).time = { s.time with backup := t, now := t } := rfl
@[simp] theorem offVkeepAt_island : (offVkeepAt t s).island =
    { s.island with onVkeep := false, outages := s.island.outages ++ [t] } := rfl

end

theorem islandReturn_of_stays {s : State} (n : Nat) (h : s.island.onVkeep = false ∨ noFeed s = true) :
    islandReturn n s = s := if_pos (by obtain h | h := h <;> simp [h])

theorem islandReturn_of_feed {s : State} {n t : Nat} (hv : s.island.onVkeep = true) (h : noFeed s = false)
    (ht : t = s.time.backup + soscNs n) :
    islandReturn n s = if s.island.trip.isSome then offVkeepAt t s else beginStart false (offVkeepAt t s) := by
  unfold islandReturn
  rw [hv, h, if_neg (by decide), ← ht]
  rfl

/-! ### Beginning a start (R598, R600, R603) -/

/-- A start that is no module reset begins with Weir A, with neither Weir marked. -/
theorem weir_beginStart (s : State) :
    (beginStart false s).weir = { s.weir with active := .a, failedA := false, failedB := false } := by
  have honly := rampAll_only (m := 0x2) (s0 := putField (showWeir { s with weir := startMarks false s.weir }) Reg.globalStat 3 0 1)
    (firstDomains (putField (showWeir { s with weir := startMarks false s.weir }) Reg.globalStat 3 0 1)) .refl ⟨rfl⟩
  unfold beginStart
  dsimp only
  split
  · rfl
  · exact (honly.out .weir rfl).symm

@[simp] theorem beginStart_time (b : Bool) (s : State) : (beginStart b s).time = s.time :=
  ((beginStart_only (m := 0x8000000002) (s0 := s) b .refl ⟨rfl⟩).out .time rfl).symm

@[simp] theorem beginStart_island (b : Bool) (s : State) : (beginStart b s).island = s.island :=
  ((beginStart_only (m := 0x8000000002) (s0 := s) b .refl ⟨rfl⟩).out .island rfl).symm

theorem powerDomain_injective {d e : Nat} (h : d ≠ e) : Reg.powerDomain d ≠ Reg.powerDomain e := by
  unfold Reg.powerDomain; omega

theorem powerDomain_ge (d : Nat) : 0x40_0100 ≤ Reg.powerDomain d := by unfold Reg.powerDomain; omega

theorem reg_rampDomain_other (s : State) (d mv : Nat) {off : Nat} (h : off ≠ Reg.powerDomain d) :
    reg (rampDomain s d mv) off = reg s off := by
  unfold rampDomain; split
  · exact reg_putReg_other _ _ _ _ h
  · rfl

/-- Domains that are commanded on change no register but their own. -/
theorem reg_rampAll_other (s : State) (ds : List Nat) {off : Nat} (h : ∀ d ∈ ds, off ≠ Reg.powerDomain d) :
    reg (rampAll s ds) off = reg s off := by
  unfold rampAll
  induction ds generalizing s with
  | nil => rfl
  | cons d ds ih =>
    rw [List.foldl_cons, ih _ fun e he => h e (List.mem_cons_of_mem d he), reg_rampDomain_other _ _ _ (h d List.mem_cons_self)]

theorem domState_rampDomain_self {s : State} {d mv : Nat} (h : domState s d = 0) (hmv : mv < 2 ^ 30) :
    domState (rampDomain s d mv) d = 1 := by
  rw [rampDomain, h, if_pos (by decide), domState, field, reg_putReg_self, bits]; omega

theorem domState_rampDomain_other (s : State) {d e : Nat} (mv : Nat) (h : e ≠ d) :
    domState (rampDomain s d mv) e = domState s e := by
  rw [domState, field, reg_rampDomain_other _ _ _ (powerDomain_injective h)]; rfl

theorem railMv_lt (d : Nat) : railMv d < 2 ^ 30 := by
  unfold railMv
  repeat' split
  all_goals omega

/-- Each domain that is off among those commanded on begins to ramp. -/
theorem domState_rampAll {s : State} {ds : List Nat} {d : Nat} (hd : d ∈ ds) (h : domState s d = 0) :
    domState (rampAll s ds) d = 1 := by
  have hramped : ∀ (l : List Nat) (u : State), domState u d = 1 ∨ domState u d = 0 ∧ d ∈ l → domState (rampAll u l) d = 1 := by
    intro l
    induction l with
    | nil => rintro u (h | ⟨-, h⟩); exacts [h, absurd h List.not_mem_nil]
    | cons e l ih =>
      intro u hu
      refine ih (rampDomain u e (railMv e)) ?_
      by_cases he : d = e
      · subst he
        left
        obtain h1 | ⟨h0, -⟩ := hu
        · rw [rampDomain, h1]; exact h1
        · exact domState_rampDomain_self h0 (railMv_lt d)
      · rw [domState_rampDomain_other _ _ he]
        exact hu.imp_right fun ⟨h0, hm⟩ => ⟨h0, (List.mem_cons.1 hm).resolve_left he⟩
  exact hramped ds s (Or.inr ⟨h, hd⟩)

/-- A start runs from stage 1 and commands the first domains on, unless the module is held in reset. -/
theorem beginStart_runs {s : State} (hheld : s.start.held = false) :
    stage (beginStart false s) = 1 ∧
      ∀ d ∈ [domTile 4, domHost, domWeir .a], domState s d = 0 → domState (beginStart false s) d = 1 := by
  have hrun : beginStart false s =
      rampAll (putField (showWeir { s with weir := startMarks false s.weir }) Reg.globalStat 3 0 1)
        [domTile 4, domHost, domWeir .a] := by
    unfold beginStart
    exact if_neg (by rw [show (showWeir { s with weir := startMarks false s.weir }).start.held = s.start.held from rfl, hheld]
                     exact Bool.false_ne_true)
  rw [hrun]
  refine ⟨?_, fun d hd h => domState_rampAll hd ?_⟩
  · rw [stage, field, reg_rampAll_other _ _ fun d _ => ?_]
    · exact field_putField _ _ _ _ _ (by decide)
    · have := powerDomain_ge d; unfold Reg.globalStat; omega
  · have hge := powerDomain_ge d
    have hne : Reg.powerDomain d ≠ Reg.faultWeir := by
      simp only [List.mem_cons, List.not_mem_nil, or_false, domTile, domHost, domWeir] at hd
      unfold Reg.powerDomain Reg.faultWeir; omega
    rw [domState, field, reg_putField_other _ _ _ _ _ _ (by unfold Reg.globalStat; omega), reg_showWeir_other _ hne]
    exact h

/-! ### VKEEP and the thermal trip (R65, R592 to R595) -/

/-- The record of a trip is latched. -/
def latchTrip (r : TripRecord) (s : State) : State := { s with island := { s.island with trip := some r } }

@[simp] theorem latchTrip_regs (r : TripRecord) (s : State) : (latchTrip r s).regs = s.regs := rfl
@[simp] theorem latchTrip_faults (r : TripRecord) (s : State) : (latchTrip r s).faults = s.faults := rfl

theorem thermalTrip_of_no_trip {s : State} {u : Nat} {x y : BitVec 16}
    (h : s.island.trip ≠ none ∨ (s.island.onVkeep = true ∧ switchedNow s = false) ∨ sensorBroken s u = true ∨
      x.toInt < 1840 ∨ y.toInt < 1840) : thermalTrip u x y s = s := by
  refine if_pos ?_
  obtain h | ⟨hv, hn⟩ | h | h | h := h
  · simp [Option.isSome_iff_ne_none.2 h]
  · simp [hv, hn]
  · simp [h]
  · simp [tripPoint, h]
  · simp [tripPoint, h]

theorem thermalTrip_of_trip {s : State} {u : Nat} {x y : BitVec 16} (htrip : s.island.trip = none)
    (hv : s.island.onVkeep = false ∨ switchedNow s = true) (hb : sensorBroken s u = false) (hx : 1840 ≤ x.toInt)
    (hy : 1840 ≤ y.toInt) :
    thermalTrip u x y s =
      latchTrip ⟨if s.time.running || s.island.onVkeep then tickOf s else 0, u, x, y⟩
        (allOff (if s.island.onVkeep then s else drainEgress s)) := by
  refine if_neg ?_
  have hx' : ¬ x.toInt < 1840 := by omega
  have hy' : ¬ y.toInt < 1840 := by omega
  obtain hv | hv := hv <;> simp [htrip, hv, hb, tripPoint, hx', hy']

theorem drainEgress_faults (s : State) : (drainEgress s).faults = s.faults :=
  ((drainEgress_only (m := 0x3000802) (s0 := s) .refl ⟨rfl⟩).out .faults rfl).symm

theorem tripClear_of_stays {s : State} (h : s.island.trip = none ∨ s.island.onVkeep = false ∨ noFeed s = false) :
    tripClear s = s := if_pos (by obtain h | h | h := h <;> simp [h])

theorem tripClear_of_trip {s : State} {r : TripRecord} (h : s.island.trip = some r) (hv : s.island.onVkeep = true)
    (hf : noFeed s = true) : tripClear s = { s with island := { s.island with trip := none, tripped := s.island.trip } } :=
  if_neg (by simp [h, hv, hf])

/-! ### The obligation -/

section
variable (s : State)

theorem exec_feedBad (f : Feed) : exec (.feedBad f) s = .next (feedBad f s) := rfl
theorem exec_feedGood (f : Feed) : exec (.feedGood f) s = .next (feedGood f s) := rfl
theorem exec_islandToVkeep : exec .islandToVkeep s = .next (islandToVkeep s) := rfl
theorem exec_islandReturn (n : Nat) : exec (.islandReturn n) s = .next (islandReturn n s) := rfl
theorem exec_vkeepLost : exec .vkeepLost s = .next (vkeepLost s) := rfl
theorem exec_thermalTrip (u : Nat) (x y : BitVec 16) : exec (.thermalTrip u x y) s = .next (thermalTrip u x y s) := rfl
theorem exec_tripClear : exec .tripClear s = .next (tripClear s) := rfl

end

/-- Settles O40: each command where it has no effect, and where it has one. -/
theorem feedsIslandAndTrip : Obligations.FeedsIslandAndTrip := by
  refine ⟨fun s f => ⟨fun h => ?_, fun h => ?_⟩, fun s f => ⟨fun h => ?_, fun h => ?_⟩, fun s h => ?_, fun s h hv => ?_,
    fun s n h => ?_, fun s n hv h => ?_, fun s => ⟨fun hv => ?_, fun hv => ?_⟩, fun s u x y h => ?_,
    fun s u x y htrip hv hb hx hy => ?_, fun s => ⟨fun r htrip hv hf => ?_, fun h => ?_⟩⟩
  · rw [exec_feedBad, feedBad_of_bad h]
  · obtain ⟨r, hr, hcls, hcode, hunit⟩ := feedReported_inTransit (feedShown s f false) f 1
      (if noFeed (feedShown s f false) then some s.time.now else s.island.bothBadAt)
    rw [exec_feedBad, feedBad_of_good h]
    refine ⟨_, r, rfl, ?_, ?_, ?_, ?_, hcls, hcode, hunit, fun hf => ?_,
      ?_, fun g hg => ?_⟩
    · rw [feedIsGood_of (feedReported_power _ _ _ _), feedIsGood_feedShown, if_pos rfl]
    · rw [regBit_of (feedReported_regs _ _ _ _), regBit_feedShown]
    · exact (regBit_of (feedReported_regs _ _ _ _) _ _).trans (regBit_raiseFlag_self _ _ _)
    · rw [hr, feedShown_faults]
    · rw [noFeed_of (feedReported_power _ _ _ _)] at hf
      rw [if_pos hf]; rfl
    · rw [feedReported_mem, feedShown_mem]
    · rw [feedIsGood_of (feedReported_power _ _ _ _), feedIsGood_feedShown, if_neg hg]
  · rw [exec_feedGood, feedGood_of_good h]
  · obtain ⟨r, hr, hcls, hcode, hunit⟩ := feedReported_inTransit (feedShown s f true) f 2 none
    rw [exec_feedGood, feedGood_of_bad h]
    refine ⟨_, r, rfl, ?_, ?_, ?_, hcls, hcode, hunit, rfl,
      ?_, fun g hg => ?_⟩
    · rw [feedIsGood_of (feedReported_power _ _ _ _), feedIsGood_feedShown, if_pos rfl]
    · rw [regBit_of (feedReported_regs _ _ _ _), regBit_feedShown]
    · rw [hr, feedShown_faults]
    · rw [feedReported_mem, feedShown_mem]
    · rw [feedIsGood_of (feedReported_power _ _ _ _), feedIsGood_feedShown, if_neg hg]
  · rw [exec_islandToVkeep, islandToVkeep_of_feed h]
  · generalize ht : islandTime s = t
    rw [exec_islandToVkeep, islandToVkeep_of_no_feed h hv, ht]
    refine ⟨_, rfl, rfl, rfl, ?_, ?_, rfl, ?_, ?_, ?_,
      ?_, fun d hd => ?_, fun e he hs => ?_⟩
    · rw [onVkeepAt_island, allOff_island]
    · rw [onVkeepAt_time, allOff_running]
    · rw [onVkeepAt_weir, allOff_weir_running]
    · rw [onVkeepAt_faults, allOff_log]
    · exact (field_of (onVkeepAt_regs _ _ _) _ _ _).trans (stage_allOff s)
    · rw [onVkeepAt_island, allOff_island]
    · exact (field_of (onVkeepAt_regs _ _ _) _ _ _).trans (domState_allOff s hd)
    · rw [onVkeepAt_island]; exact mem_egress_allOff s he hs
  · rw [exec_islandReturn, islandReturn_of_stays n h]
  · generalize ht : s.time.backup + soscNs n = t
    rw [exec_islandReturn, islandReturn_of_feed hv h ht.symm]
    rcases htrip : s.island.trip with _ | r
    · rw [if_neg (by decide)]
      refine ⟨_, rfl, ?_, ?_, ?_, fun hne => absurd rfl hne, fun _ => ?_⟩
      · rw [beginStart_island, offVkeepAt_island]
      · rw [beginStart_time, offVkeepAt_time]
      · rw [beginStart_island, offVkeepAt_island]
      · rw [weir_beginStart]
        refine ⟨rfl, rfl, rfl, fun hheld => ?_⟩
        have hheld' : (offVkeepAt t s).start.held = false := by rw [offVkeepAt_start, hheld]
        obtain ⟨hstage, hdoms⟩ := beginStart_runs hheld'
        have hoff (d : Nat) : domState (offVkeepAt t s) d = domState s d := field_of (offVkeepAt_regs t s) _ _ _
        exact ⟨hstage, fun h0 => hdoms (domTile 4) List.mem_cons_self ((hoff _).trans h0),
          fun h0 => hdoms (domWeir .a) (List.mem_cons_of_mem _ (List.mem_cons_of_mem _ List.mem_cons_self))
            ((hoff _).trans h0)⟩
    · rw [if_pos (Option.isSome_some ..)]
      exact ⟨_, rfl, by rw [offVkeepAt_island], by rw [offVkeepAt_time], by rw [offVkeepAt_island],
        fun _ => ⟨offVkeepAt_regs t s, offVkeepAt_weir t s⟩, fun hnone => nomatch hnone⟩
  · rw [exec_vkeepLost, vkeepLost, hv]; rfl
  · rw [exec_vkeepLost, vkeepLost, if_pos hv]
    exact ⟨_, rfl, rfl, rfl, rfl, rfl, rfl, rfl, rfl, hv, rfl, rfl, rfl⟩
  · rw [exec_thermalTrip, thermalTrip_of_no_trip h]
  · rw [exec_thermalTrip, thermalTrip_of_trip htrip hv hb hx hy]
    refine ⟨_, _, rfl, rfl, rfl, rfl, rfl,
      ?_, ?_, fun d hd => ?_⟩
    · exact (field_of (latchTrip_regs _ _) _ _ _).trans (stage_allOff _)
    · rw [latchTrip_faults, allOff_log]
      split
      · rfl
      · rw [drainEgress_faults]
    · exact (field_of (latchTrip_regs _ _) _ _ _).trans (domState_allOff _ hd)
  · rw [exec_tripClear, tripClear_of_trip htrip hv hf]
    exact ⟨_, rfl, rfl, htrip, rfl, rfl⟩
  · rw [exec_tripClear, tripClear_of_stays h]

/-! PROOFS. The family 02_time_and_clocks: reference monitors, crossings, core ramps and the reset of a site (R56, R57, R76, R83 to
R85, R599). -/

/-! ### Refusals that stay (R83) -/

/-- Every crossing whose upper side is refused stays so. -/
def KeepsRefusals (s t : State) : Prop :=
  ∀ k i, (crossAt s k i).upper.refusing = true → (crossAt t k i).upper.refusing = true

theorem KeepsRefusals.of_cross {s t : State} (h : t.cross = s.cross) : KeepsRefusals s t :=
  fun k i hs => by rw [crossAt_of h, hs]

theorem KeepsRefusals.trans {s t u : State} (h : KeepsRefusals s t) (h' : KeepsRefusals t u) : KeepsRefusals s u :=
  fun k i hs => h' k i (h k i hs)

theorem KeepsRefusals.foldl {α : Type} {f : State → α → State} (hf : ∀ s a, KeepsRefusals s (f s a)) (s : State) (l : List α) :
    KeepsRefusals s (l.foldl f s) :=
  List.foldlRecOn l f (motive := KeepsRefusals s) (.of_cross rfl) fun _ ht a _ => ht.trans (hf _ a)

/-! ### Reference monitors (R56, R57) -/

/-- The number of bad windows in a row, with the one that has ended. -/
def badRow (r : RefIn) (edges : Nat) (s : State) : Nat :=
  if refBad (refExpected s r) edges then (if refNo r == 0 then s.clock.badA else s.clock.badB) + 1 else 0

/-- The number of good windows in a row, up to 64, with the one that has ended. -/
def goodRow (r : RefIn) (edges : Nat) (s : State) : Nat :=
  if refBad (refExpected s r) edges then 0 else minNat 64 ((if refNo r == 0 then s.clock.goodA else s.clock.goodB) + 1)

/-- The count of one monitor window is noted, with the numbers of bad and of good windows in a row. -/
def noteWindow (r : RefIn) (edges bad good : Nat) (s : State) : State :=
  let n := refNo r
  let s := putField s Reg.clockRefcount (16 * n + 12) (16 * n) (minNat edges 8191)
  { s with clock := (if n == 0 then { s.clock with badA := bad, goodA := good } else { s.clock with badB := bad, goodB := good }) }

theorem noteWindow_regs (r : RefIn) (edges bad good : Nat) (s : State) :
    (noteWindow r edges bad good s).regs =
      (putField s Reg.clockRefcount (16 * refNo r + 12) (16 * refNo r) (minNat edges 8191)).regs := rfl

theorem noteWindow_clock (r : RefIn) (edges bad good : Nat) (s : State) :
    (noteWindow r edges bad good s).clock =
      if refNo r == 0 then { s.clock with badA := bad, goodA := good } else { s.clock with badB := bad, goodB := good } := by
  unfold noteWindow
  simp only [putField_clock]

theorem noteWindow_clock_refB (edges bad good : Nat) (s : State) :
    (noteWindow .refB edges bad good s).clock = { s.clock with badB := bad, goodB := good } := by
  rw [noteWindow_clock]; rfl

theorem noteWindow_clock_refA (edges bad good : Nat) (s : State) :
    (noteWindow .refA edges bad good s).clock = { s.clock with badA := bad, goodA := good } := by
  rw [noteWindow_clock]; rfl

theorem reg_noteWindow_other (r : RefIn) (edges bad good : Nat) (s : State) {off : Nat} (h : off ≠ Reg.clockRefcount) :
    reg (noteWindow r edges bad good s) off = reg s off := by
  rw [reg_of (noteWindow_regs r edges bad good s), reg_putField_other _ _ _ _ _ _ h]

/-- The reference is lost: its flag is raised, GOOD is cleared, and the loss is reported. -/
def refLost (r : RefIn) (s : State) : State :=
  let s := raiseFlag (putBit s Reg.clockRefstat (2 + refNo r) false) Reg.clockRefstat (refNo r)
  raise s 2 1 (unitNo 0x0F (refNo r)) 0xFF 0 0 (srcTile 4)

theorem refLost_regs (r : RefIn) (s : State) : (refLost r s).regs =
    (putBit (putBit s Reg.clockRefstat (2 + refNo r) false) Reg.clockRefstat (refNo r) true).regs := rfl

@[simp] theorem refLost_clock (r : RefIn) (s : State) : (refLost r s).clock = s.clock := rfl

theorem reg_refLost_other (r : RefIn) (s : State) {off : Nat} (h : off ≠ Reg.clockRefstat) : reg (refLost r s) off = reg s off := by
  rw [reg_of (refLost_regs r s), reg_putBit_other _ _ _ _ _ h, reg_putBit_other _ _ _ _ _ h]

theorem regBit_refLost_lost (r : RefIn) (s : State) : regBit (refLost r s) Reg.clockRefstat (refNo r) = true := by
  rw [regBit_of (refLost_regs r s), regBit_putBit_self]

theorem regBit_refLost_good (r : RefIn) (s : State) : regBit (refLost r s) Reg.clockRefstat (2 + refNo r) = false := by
  rw [regBit_of (refLost_regs r s), regBit_putBit, if_neg (by omega), regBit_putBit_self]

theorem refMonitorWindow_eq (r : RefIn) (edges : Nat) (s : State) :
    refMonitorWindow r edges s =
      if badRow r edges s == 2 then
        loseRef (refLost r (noteWindow r edges (badRow r edges s) (goodRow r edges s) s)) (refNo r)
      else if goodRow r edges s == 64 then
        putBit (noteWindow r edges (badRow r edges s) (goodRow r edges s) s) Reg.clockRefstat (2 + refNo r) true
      else noteWindow r edges (badRow r edges s) (goodRow r edges s) s := rfl

theorem refBad_1024 (edges : Nat) : refBad 1024 edges = decide (edges < 994 ∨ 1054 < edges) := by
  rw [refBad, decide_eq_decide]
  omega

theorem refExpected_refB (s : State) : refExpected s .refB = 1024 :=
  if_neg (by simp [show (RefIn.refB == RefIn.refA) = false by decide])

theorem refBad_refB (s : State) (h : edges < 994 ∨ 1054 < edges) : refBad (refExpected s .refB) edges = true := by
  rw [refExpected_refB, refBad_1024, decide_eq_true h]

theorem badRow_refB (h : edges < 994 ∨ 1054 < edges) : badRow .refB edges s = s.clock.badB + 1 := by
  rw [badRow, if_pos (refBad_refB s h)]; rfl

theorem goodRow_refB (h : edges < 994 ∨ 1054 < edges) : goodRow .refB edges s = 0 := if_pos (refBad_refB s h)

theorem refMonitorWindow_first_bad (h : edges < 994 ∨ 1054 < edges) (hbad : s.clock.badB = 0) :
    refMonitorWindow .refB edges s = noteWindow .refB edges 1 0 s := by
  rw [refMonitorWindow_eq, badRow_refB h, goodRow_refB h, hbad, if_neg (by decide), if_neg (by decide)]

theorem refMonitorWindow_second_bad (h : edges < 994 ∨ 1054 < edges) (hbad : s.clock.badB = 1) :
    refMonitorWindow .refB edges s = loseRef (refLost .refB (noteWindow .refB edges 2 0 s)) (refNo .refB) := by
  rw [refMonitorWindow_eq, badRow_refB h, goodRow_refB h, hbad, if_pos (by decide)]

theorem refMonitorWindow_last_good (hmode : s.clock.refaMode = false) (hlo : 994 ≤ edges) (hhi : edges ≤ 1054)
    (hgood : 63 ≤ s.clock.goodA) :
    refMonitorWindow .refA edges s = putBit (noteWindow .refA edges 0 64 s) Reg.clockRefstat (2 + refNo .refA) true := by
  have hexp : refExpected s .refA = 1024 := by simp [refExpected, hmode]
  have hb : ¬ refBad (refExpected s .refA) edges = true := by
    rw [hexp, refBad_1024, decide_eq_true_iff]; omega
  have hbad : badRow .refA edges s = 0 := if_neg hb
  have hrow : goodRow .refA edges s = 64 := by
    have hmin : minNat 64 (s.clock.goodA + 1) = 64 := by unfold minNat; split <;> omega
    rw [goodRow, if_neg hb]; exact hmin
  rw [refMonitorWindow_eq, hbad, hrow, if_neg (by decide), if_pos (by decide)]

/-- PLL `p` runs on FOSC, and the reference it lost is noted. -/
def takeFosc (p : Nat) (s : State) : State :=
  { s with clock := { s.clock with pllRef := tput 0 s.clock.pllRef p 2,
                                   pllLost := tput 0 s.clock.pllLost p (1 + tget 0 s.clock.pllRef p) } }

@[simp] theorem takeFosc_regs (p : Nat) (s : State) : (takeFosc p s).regs = s.regs := rfl

/-- PLL `p`, which makes no stepped clock and no backbone, coasts: it is noted and reported. -/
def coasts (p : Nat) (s : State) : State :=
  raise (putBit (takeFosc p s) Reg.clockPllstat p true) 2 2 (unitNo 0x0F (16 + p)) 0xFF 0 0 (srcTile 4)

theorem pllRef_coasts (p : Nat) (s : State) : tget 0 (coasts p s).clock.pllRef p = 2 := by
  rw [coasts, raise_clock, putBit_clock]
  exact tget_tput_self 0 s.clock.pllRef p 2

theorem regBit_coasts (p : Nat) (s : State) : regBit (coasts p s) Reg.clockPllstat p = true := by
  rw [coasts, regBit_of (raise_regs _ _ _ _ _ _ _ _), regBit_putBit_self]

theorem reg_coasts_other (p : Nat) (s : State) {off : Nat} (h : off ≠ Reg.clockPllstat) : reg (coasts p s) off = reg s off := by
  rw [coasts, reg_of (raise_regs _ _ _ _ _ _ _ _), reg_putBit_other _ _ _ _ _ h, reg_of (takeFosc_regs p s)]

theorem holdover_nine (h : s.clock.change = none) : holdover s 9 = coasts 9 s := by
  have hstep : holdover s 9 = abandonChange (coasts 9 s) 0xFE := rfl
  have hchange : (coasts 9 s).clock.change = none := h
  rw [hstep, abandonChange, hchange]

/-- The PLLs whose reference is lost are those that are locked to it: here the last of them. -/
theorem loseRef_nine (hothers : ∀ p, p < 9 → tget 0 s.clock.pllRef p ≠ r) (hnine : tget 0 s.clock.pllRef 9 = r)
    (hlocked : regBit s Reg.clockPllstat 25 = true) (hchange : s.clock.change = none) : loseRef s r = coasts 9 s := by
  have hkeep : (List.range 9).foldl (fun s p =>
      if tget 0 s.clock.pllRef p == r && regBit s Reg.clockPllstat (16 + p) then holdover s p else s) s = s := by
    refine List.foldlRecOn (motive := fun t => t = s) _ _ rfl fun t ht p hp => ?_
    subst ht
    exact if_neg (by simp [hothers p (List.mem_range.1 hp)])
  rw [loseRef, List.range_succ, List.foldl_append, hkeep]
  simp only [List.foldl_cons, List.foldl_nil, hnine, hlocked, BEq.rfl, Bool.and_self, if_true, holdover_nine hchange]

theorem exec_refMonitorWindow_of_stage_nine {t : State} (ht : refMonitorWindow r edges s = t) (h : stage t = 9) :
    exec (.refMonitorWindow r edges) s = .next t := by
  have hexec : exec (.refMonitorWindow r edges) s = .next (advanceStart (selectRefs (refMonitorWindow r edges s))) := rfl
  have hselect : selectRefs t = t := if_neg (by simp [h])
  rw [hexec, ht, hselect, advanceStart_of_no_open_stage] <;> omega

theorem stage_noteWindow (r : RefIn) (edges bad good : Nat) (s : State) : stage (noteWindow r edges bad good s) = stage s := by
  rw [stage, field, reg_noteWindow_other _ _ _ _ _ (by decide)]; rfl

/-! ### Crossings (R83 to R85) -/

theorem crossKey_injective {k k' : CrossKind} {i i' : Nat} (h : crossKey k i = crossKey k' i') : (k, i) = (k', i') := by
  have hnum : 8 * i = 8 * i' ∧ crossKey k 0 = crossKey k' 0 := by
    have hlt (k : CrossKind) : crossKey k 0 < 8 := by rcases k with _ | _ | _ | _ | _ | (_ | _) <;> decide
    have hadd (k : CrossKind) (i : Nat) : crossKey k i = 8 * i + crossKey k 0 := by simp [crossKey]
    have := hadd k i; have := hadd k' i'; have := hlt k; have := hlt k'
    omega
  have hkind : k = k' := by
    rcases k with _ | _ | _ | _ | _ | (_ | _) <;> rcases k' with _ | _ | _ | _ | _ | (_ | _) <;>
      first | rfl | exact absurd hnum.2 (by decide)
  rw [hkind, Nat.eq_of_mul_eq_mul_left (by decide) hnum.1]

theorem crossAt_putCross_other (s : State) {k k' : CrossKind} {i i' : Nat} (x : CrossState) (h : (k', i') ≠ (k, i)) :
    crossAt (putCross s k i x) k' i' = crossAt s k' i' :=
  tget_tput_other _ _ _ _ _ fun e => h (crossKey_injective e)

theorem crossEffects_cross (s : State) (k : CrossKind) (i : Nat) (d : Side) : (crossEffects s k i d).cross = s.cross :=
  ((crossEffects_only (m := 0x100020333afe6) (s0 := s) k i d .refl ⟨rfl⟩).out .cross rfl).symm

theorem crossAt_crossingPartnerReset (s : State) (x : Crossing) (k : CrossKind) (i : Nat) :
    crossAt (crossingPartnerReset x s) k i = crossAt (refuseSide s x.kind x.site.val x.side) k i :=
  crossAt_of ((raise_cross _ _ _ _ _ _ _ _).trans (crossEffects_cross _ _ _ _)) k i

theorem reopenShare_cross (s : State) (i : Nat) : (reopenShare s i).cross = s.cross :=
  ((reopenShare_only (m := 0x1000002) (s0 := s) i .refl ⟨rfl⟩).out .cross rfl).symm

/-- An old epoch is reported, and nothing else. -/
theorem partnerUp_of_old (s : State) {x : Crossing} {e : Nat} (h : e ≤ ((crossAt s x.kind x.site).view x.side).epoch) :
    partnerUp x e s = raise s 5 9 (unitNo 0x02 x.site.val) 0xFF (crossKey x.kind x.site.val) e (crossSrc x) := if_pos h

/-- A newer epoch of a crossing that may resume is taken. -/
theorem partnerUp_cross (s : State) {x : Crossing} {e : Nat} (h : ((crossAt s x.kind x.site).view x.side).epoch < e)
    (hsite : siteCrossing x.kind = true → siteFailed s x.site = false)
    (hbundle : x.kind = .bundle → regBit s (Reg.abangoStat x.site) 2 = true)
    (hpond : x.kind = .pondTile → x.side = .upper → tget false s.clock.inReset x.site = true → exitHeld s = false) :
    (partnerUp x e s).cross = (acceptSide s x e).cross := by
  have hserves : ¬ (siteCrossing x.kind && siteFailed s x.site.val) = true := by
    cases hk : siteCrossing x.kind
    · exact Bool.false_ne_true
    · simp [hsite hk]
  obtain ⟨kind, i, side⟩ := x
  rw [partnerUp, if_neg (Nat.not_le.2 h), if_neg hserves]
  cases kind with
  | bundle => exact if_pos (hbundle rfl) ▸ rfl
  | pondTile =>
    cases side with
    | upper =>
      have hleaves : ¬ (tget false s.clock.inReset i && exitHeld s) = true := by
        cases hin : tget false s.clock.inReset i
        · exact Bool.false_ne_true
        · simp [hpond rfl rfl hin]
      exact if_neg hleaves ▸ rfl
    | lower => rfl
  | portTile =>
    cases side with
    | upper => exact reopenShare_cross _ _
    | lower => rfl
  | tarnPond => rfl
  | hostTile => rfl
  | weirTile w => rfl

/-- A Pond region that may not leave reset yet waits for the commit count (R79, R84). -/
theorem partnerUp_of_held {s : State} {i : SiteNo} {e : Nat} (h : (crossAt s .pondTile i).upper.epoch < e)
    (hsite : siteFailed s i = false) (hin : tget false s.clock.inReset i = true) (hheld : exitHeld s = true) :
    partnerUp ⟨.pondTile, i, .upper⟩ e s =
      { s with clock := { s.clock with inReset := tput false s.clock.inReset i true,
                                       waitExit := tput 0 s.clock.waitExit i (reg s Reg.clockCommit) } } := by
  have hnew : ¬ e ≤ ((crossAt s .pondTile i).view .upper).epoch := Nat.not_le.2 h
  have hwaits : (tget false s.clock.inReset i && exitHeld s) = true := by rw [hin, hheld]; rfl
  rw [partnerUp, if_neg hnew, if_neg (by simp [hsite])]
  exact (if_pos hwaits).trans (if_pos hheld)

/-! ### Core ramps (R76) -/

theorem coreRampDone_of_none {s : State} {c : Nat} (h : (core s c).rampTo = none) : coreRampDone c s = s := by
  rw [coreRampDone, h]

theorem coreRampDone_cores {s : State} {c k : Nat} (h : (core s c).rampTo = some k) :
    (coreRampDone c s).cores = (modCore s c fun y => { y with step := k, rampTo := none }).cores := by
  rw [coreRampDone, h]
  exact ((answerRamps_only (m := 0xc00000802) (s0 := _) .refl ⟨rfl⟩).out .cores rfl).symm.trans
    ((showUncore_only (m := 0x2) (s0 := _) _ .refl ⟨rfl⟩).out .cores rfl).symm

/-! ### The reset of a site (R549, R599) -/

theorem refusing_refuseSide (s : State) (k : CrossKind) (i : Nat) :
    (crossAt (refuseSide s k i .upper) k i).upper.refusing = true := by
  rw [refuseSide, crossAt_putCross_self]; rfl

theorem refuseSide_keepsRefusals (s : State) (k : CrossKind) (i : Nat) : KeepsRefusals s (refuseSide s k i .upper) := by
  intro k' i' hs
  by_cases h : (k', i') = (k, i)
  · obtain ⟨rfl, rfl⟩ := Prod.mk.inj h
    exact refusing_refuseSide s _ _
  · rw [refuseSide, crossAt_putCross_other _ _ h, hs]

/-- A site reset begins: the site is shown failed for its cause, and its runs and its bundle end. -/
def beginSiteReset (i cause : Nat) (s : State) : State :=
  let s := if reg s (Reg.siteFailCause i) == 0 then putReg s (Reg.siteFailCause i) cause else s
  let s := putBit (putBit s (Reg.siteStat i) 1 true) (Reg.siteStat i) 2 false
  modAbango (siteResetRuns s i) i fun a => { a with resetN := false }

/-- The upper side of some crossings of a site resets. -/
def resetCrossings (i : Nat) (ks : List CrossKind) (s : State) : State :=
  ks.foldl (fun s k => crossEffects (refuseSide s k i .upper) k i .upper) s

/-- The cores of a site in reset are fenced, its domains are switched off, and its registers are cleared. -/
def endSiteReset (i cause : Nat) (s : State) : State :=
  let s := (List.range 4).foldl (fun s k => fenceCore s (4 * i + k) 0x04) s
  let s := offDomain (offDomain s (domPond i)) (domHbm i)
  let s := if egressEmpty s i then linkGoesDown s i 4 else s
  let s := if cause == 5 || cause == 6 || cause == 9 then offDomain (offDomain s (domPort i)) (domOutlet i) else s
  fwLog (clearSiteRegs s i) 5 10 (unitNo 0x02 i) 0xFF cause 0

theorem siteReset_of_stays {i cause : Nat} {s : State} (h : siteFailed s i = true ∨ weirServes s = false) :
    siteReset i cause s = s := if_pos (by rcases h with h | h <;> simp [h])

theorem siteReset_of_working {i cause : Nat} {s : State} (h : siteFailed s i = false) (hserves : weirServes s = true) :
    siteReset i cause s =
      endSiteReset i cause (resetCrossings i [.tarnPond, .pondTile, .bundle, .portTile] (beginSiteReset i cause s)) :=
  if_neg (by simp [h, hserves])

theorem resetCrossings_keepsRefusals (i : Nat) (ks : List CrossKind) (s : State) : KeepsRefusals s (resetCrossings i ks s) :=
  .foldl (fun s k => (refuseSide_keepsRefusals s k i).trans (.of_cross (crossEffects_cross _ _ _ _))) s ks

theorem refusing_resetCrossings {ks : List CrossKind} {k : CrossKind} (h : k ∈ ks) (i : Nat) (s : State) :
    (crossAt (resetCrossings i ks s) k i).upper.refusing = true := by
  induction ks generalizing s with
  | nil => cases h
  | cons k' ks ih =>
    rcases List.mem_cons.1 h with rfl | h
    · refine (resetCrossings_keepsRefusals i ks _) k i ?_
      rw [crossAt_of (crossEffects_cross _ _ _ _), refusing_refuseSide]
    · exact ih h _

theorem beginSiteReset_only (i cause : Nat) (s : State) : Only 0x1030002 s (beginSiteReset i cause s) := by
  have hcause := onlySkip (c := (reg s (Reg.siteFailCause i) == 0) = true) (m := 0x1030002) (.refl (s0 := s))
    fun h => putReg_only (Reg.siteFailCause i) cause h ⟨rfl⟩
  have hstat := putBit_only (Reg.siteStat i) 2 false (putBit_only (Reg.siteStat i) 1 true hcause ⟨rfl⟩) ⟨rfl⟩
  exact modAbango_only i (fun a => { a with resetN := false }) (siteResetRuns_only i hstat ⟨rfl⟩) ⟨rfl⟩

theorem endSiteReset_only (i cause : Nat) (s : State) : Only 0x8607138c26 s (endSiteReset i cause s) := by
  have hfence : Only 0x8607138c26 s ((List.range 4).foldl (fun s k => fenceCore s (4 * i + k) 0x04) s) :=
    onlyFold .refl fun _ ht _ => fenceCore_only _ _ ht ⟨rfl⟩
  have hoff := offDomain_only (domHbm i) (offDomain_only (domPond i) hfence ⟨rfl⟩) ⟨rfl⟩
  exact fwLog_only _ _ _ _ _ _ (clearSiteRegs_only _ (onlySkip (onlySkip hoff fun h => linkGoesDown_only _ _ h ⟨rfl⟩)
    fun h => offDomain_only _ (offDomain_only _ h ⟨rfl⟩) ⟨rfl⟩) ⟨rfl⟩) ⟨rfl⟩

theorem siteReset_keepsRefusals (i cause : Nat) (s : State) : KeepsRefusals s (siteReset i cause s) := by
  by_cases h : siteFailed s i = true ∨ weirServes s = false
  · rw [siteReset_of_stays h]; exact .of_cross rfl
  · simp only [not_or, Bool.not_eq_true, Bool.not_eq_false] at h
    rw [siteReset_of_working h.1 h.2]
    exact .trans (.of_cross ((beginSiteReset_only i cause s).out .cross rfl).symm)
      (.trans (resetCrossings_keepsRefusals i _ _) (.of_cross ((endSiteReset_only i cause _).out .cross rfl).symm))

theorem refusing_siteReset {i cause : Nat} {s : State} {k : CrossKind} (h : siteFailed s i = false) (hserves : weirServes s = true)
    (hk : siteCrossing k = true) : (crossAt (siteReset i cause s) k i).upper.refusing = true := by
  have hmem : k ∈ [CrossKind.tarnPond, .pondTile, .bundle, .portTile] := by
    cases k with
    | hostTile => cases hk
    | weirTile w => cases hk
    | _ => decide
  rw [siteReset_of_working h hserves, crossAt_of ((endSiteReset_only i cause _).out .cross rfl).symm]
  exact refusing_resetCrossings hmem i _

theorem holdSites_keepsRefusals (s : State) (cause : State → Nat → Nat) : KeepsRefusals s (holdSites s cause) := by
  refine .foldl (fun s i => ?_) s _
  split
  · exact .of_cross rfl
  · exact siteReset_keepsRefusals _ _ _

/-- The cores of the working sites are switched on at S5 for their self-test. -/
def rampCores (s : State) : State :=
  ((liveSites s).flatMap siteCores).foldl (fun s c =>
    rampDomain (modCore s c fun y => { y with step := 5, cmdStep := 5 }) (domCore c) (stepMv 5)) s

theorem enterStage6_eq (s : State) : enterStage6 s = rampCores (putField (holdSites s holdCause) Reg.globalStat 3 0 6) := rfl

theorem rampCores_only (s : State) : Only 0x10002 s (rampCores s) :=
  onlyFold .refl fun _ ht _ => rampDomain_only _ _ (modCore_only _ _ ht ⟨rfl⟩) ⟨rfl⟩

theorem enterStage6_keepsRefusals (s : State) : KeepsRefusals s (enterStage6 s) := by
  rw [enterStage6_eq]
  exact .trans (holdSites_keepsRefusals s _) (.trans (.of_cross (putField_cross _ _ _ _ _))
    (.of_cross ((rampCores_only _).out .cross rfl).symm))

theorem endStage5_keepsRefusals (s : State) : KeepsRefusals s (endStage5 s) := by
  rw [endStage5]
  split
  · exact enterStage6_keepsRefusals s
  · exact .of_cross rfl

theorem advanceStart_keepsRefusals (s : State) : KeepsRefusals s (advanceStart s) := by
  have hfirst := onlySkip (c := (stage s == 1 && (firstDomains s).all (domOn s)) = true) (m := 0x2) (.refl (s0 := s))
    fun h => putField_only Reg.globalStat 3 0 2 h ⟨rfl⟩
  have hthird := endStage3_only hfirst ⟨rfl⟩
  exact .trans (.of_cross (hthird.out .cross rfl).symm) ((endStage5_keepsRefusals _).trans
    (.of_cross ((endStage8_only (m := 0x2) .refl ⟨rfl⟩).out .cross rfl).symm))

/-! ### The commands -/

theorem exec_crossingPartnerReset (s : State) (x : Crossing) :
    exec (.crossingPartnerReset x) s = .next (crossingPartnerReset x s) := rfl
theorem exec_partnerUp (s : State) (x : Crossing) (e : Nat) : exec (.partnerUp x e) s = .next (partnerUp x e s) := rfl
theorem exec_coreRampDone (s : State) (c : CoreNo) : exec (.coreRampDone c) s = .next (coreRampDone c s) := rfl
theorem exec_siteReset (s : State) (i : SiteNo) (cause : Fin 11) :
    exec (.siteReset i cause) s = .next (advanceStart (siteReset i cause s)) := rfl

/-- Settles O10: a monitor window is counted by `refMonitorWindow_eq`, and at stage 9 nothing follows it; the crossings are changed
by `refuseSide` and `acceptSide` alone, and no part of a site reset or of the start that follows ends a refusal. -/
theorem referencesAndCrossings : Obligations.ReferencesAndCrossings := by
  unfold Obligations.ReferencesAndCrossings
  refine ⟨?_, ?_, ?_, ?_, ?_, ?_, ?_, ?_, ?_, ?_, ?_⟩
  · intro s edges hstage hbad hedges
    refine ⟨_, exec_refMonitorWindow_of_stage_nine (refMonitorWindow_first_bad hedges hbad)
      ((stage_noteWindow _ _ _ _ _).trans hstage), ?_, ?_, ?_⟩
    · rw [noteWindow_clock_refB]
    · rw [noteWindow_clock_refB]
    · rw [regBit, reg_noteWindow_other _ _ _ _ _ (by decide), regBit]
  · intro s edges hstage hbad hedges hothers hnine hlocked hchange
    obtain ⟨t, ht⟩ : ∃ t, t = refLost .refB (noteWindow .refB edges 2 0 s) := ⟨_, rfl⟩
    have hclock : t.clock = { s.clock with badB := 2, goodB := 0 } := by rw [ht, refLost_clock, noteWindow_clock_refB]
    have hregs (off : Nat) (h : off ≠ Reg.clockRefstat) (h' : off ≠ Reg.clockRefcount) : reg t off = reg s off := by
      rw [ht, reg_refLost_other _ _ h, reg_noteWindow_other _ _ _ _ _ h']
    have hstep : refMonitorWindow .refB edges s = coasts 9 t := by
      rw [refMonitorWindow_second_bad hedges hbad, ← ht]
      refine loseRef_nine (fun p hp => ?_) ?_ ?_ ?_
      · rw [hclock]; exact hothers p hp
      · rw [hclock]; exact hnine
      · rw [regBit, hregs _ (by decide) (by decide)]; exact hlocked
      · rw [hclock]; exact hchange
    refine ⟨_, exec_refMonitorWindow_of_stage_nine hstep ?_, ?_, ?_, pllRef_coasts 9 t, regBit_coasts 9 t⟩
    · rw [stage, field, reg_coasts_other _ _ (by decide), hregs _ (by decide) (by decide)]; exact hstage
    · rw [regBit, reg_coasts_other _ _ (by decide), ← regBit, ht]; exact regBit_refLost_lost .refB _
    · rw [regBit, reg_coasts_other _ _ (by decide), ← regBit, ht]; exact regBit_refLost_good .refB _
  · intro s edges hstage hgood hmode hlo hhi
    refine ⟨_, exec_refMonitorWindow_of_stage_nine (refMonitorWindow_last_good hmode hlo hhi hgood) ?_, ?_, ?_, ?_⟩
    · rw [stage, field, reg_putBit_other _ _ _ _ _ (by decide), ← field, ← stage, stage_noteWindow, hstage]
    · exact regBit_putBit_self _ _ _ _
    · rw [putBit_clock, noteWindow_clock_refA]
    · rw [regBit_putBit, if_neg (by decide), regBit, reg_noteWindow_other _ _ _ _ _ (by decide), regBit]
  · intro s x
    refine ⟨_, exec_crossingPartnerReset s x, ?_, ?_, fun k i h => ?_⟩
    · rw [crossAt_crossingPartnerReset, refuseSide, crossAt_putCross_self]
    · rw [crossRefuses, crossAt_crossingPartnerReset, refuseSide, crossAt_putCross_self]
      cases x.side <;> simp [CrossState.withView]
    · rw [crossAt_crossingPartnerReset, refuseSide, crossAt_putCross_other _ _ h]
  · intro s x e hold
    exact ⟨_, exec_partnerUp s x e, by rw [partnerUp_of_old s hold, raise_cross]⟩
  · intro s x e hnew hsite hbundle hpond
    have hcross := partnerUp_cross s hnew hsite hbundle hpond
    refine ⟨_, exec_partnerUp s x e, ?_, fun k i h => ?_⟩
    · rw [crossAt_of hcross, acceptSide, crossAt_putCross_self]
    · rw [crossAt_of hcross, acceptSide, crossAt_putCross_other _ _ h]
  · intro s i e hnew hsite hin hheld
    rw [exec_partnerUp, partnerUp_of_held hnew hsite hin hheld]
    exact ⟨_, rfl, rfl, tget_tput_self _ _ _ _⟩
  · intro s c k hramp
    refine ⟨_, exec_coreRampDone s c, ?_, fun j h => ?_⟩
    · rw [core_of (coreRampDone_cores hramp), core_modCore_self]
    · rw [core_of (coreRampDone_cores hramp), core_modCore, if_neg h]
  · intro s c hramp
    rw [exec_coreRampDone, coreRampDone_of_none hramp]
  · intro s i cause k hworks hserves hk
    exact ⟨_, exec_siteReset s i cause, (advanceStart_keepsRefusals _) k i (refusing_siteReset hworks hserves hk)⟩
  · intro s i cause hstage hfailed
    rw [exec_siteReset, siteReset_of_stays (.inl hfailed), advanceStart_of_no_open_stage] <;> omega

/-! PROOFS. The family 02_time_and_clocks: what a start rests on, and what leaves it (R599, R603, R614). -/

/-! ### What a start rests on -/

/-- GLOBAL_STAT, TIME_STAT, CLOCK_CTRL and CLOCK_REFSTAT, and each site's SITE_STAT and MEM_CFG. -/
def Pillar (off : Nat) : Prop :=
  off = Reg.globalStat ∨ off = Reg.timeStat ∨ off = Reg.clockCtrl ∨ off = Reg.clockRefstat ∨
    (0x100_0000 ≤ off ∧ off < 0x200_0000 ∧ (off % 0x10_0000 = 0 ∨ off % 0x10_0000 = 0x5_0000))

/-- What a start rests on stands in `t` as in `s`: the Weir that serves, the bits of its registers below the flags of calibration
entries, and the fences. -/
structure Calm (s t : State) : Prop where
  serves : weirServes t = weirServes s
  bits : ∀ off, Pillar off → ∀ i, i < 30 → regBit t off i = regBit s off i
  fenced : ∀ c, (core s c).fenced = true → (core t c).fenced = true

theorem Calm.refl {s : State} : Calm s s := ⟨rfl, fun _ _ _ _ => rfl, fun _ h => h⟩

theorem Calm.trans {s t u : State} (h : Calm s t) (h' : Calm t u) : Calm s u :=
  ⟨h'.serves.trans h.serves, fun off hp i hi => (h'.bits off hp i hi).trans (h.bits off hp i hi),
    fun c hc => h'.fenced c (h.fenced c hc)⟩

/-! ### Registers that a start does not rest on -/

theorem not_pillar_of_low {off : Nat} (h : 0x20_000C < off ∧ off < 0x100_0000) : ¬ Pillar off := by
  unfold Pillar Reg.globalStat Reg.timeStat Reg.clockCtrl Reg.clockRefstat; omega
theorem not_pillar_of_high {off : Nat} (h : 0x200_0000 ≤ off) : ¬ Pillar off := by
  unfold Pillar Reg.globalStat Reg.timeStat Reg.clockCtrl Reg.clockRefstat; omega
theorem not_pillar_of_site {off : Nat} (h : 0x100_0000 ≤ off ∧ off % 0x10_0000 ≠ 0 ∧ off % 0x10_0000 ≠ 0x5_0000) :
    ¬ Pillar off := by
  unfold Pillar Reg.globalStat Reg.timeStat Reg.clockCtrl Reg.clockRefstat; omega

@[simp] theorem not_pillar_clockRefcfg : ¬ Pillar Reg.clockRefcfg := by
  unfold Pillar Reg.globalStat Reg.timeStat Reg.clockCtrl Reg.clockRefstat Reg.clockRefcfg; omega
@[simp] theorem not_pillar_clockPllstat : ¬ Pillar Reg.clockPllstat := not_pillar_of_low (by decide)
@[simp] theorem not_pillar_faultFlags : ¬ Pillar Reg.faultFlags := not_pillar_of_low (by decide)
@[simp] theorem not_pillar_faultWeir : ¬ Pillar Reg.faultWeir := not_pillar_of_low (by decide)
@[simp] theorem not_pillar_faultLost : ¬ Pillar Reg.faultLost := not_pillar_of_low (by decide)
@[simp] theorem not_pillar_faultLogNext : ¬ Pillar Reg.faultLogNext := not_pillar_of_low (by decide)
@[simp] theorem not_pillar_faultLogOldest : ¬ Pillar Reg.faultLogOldest := not_pillar_of_low (by decide)
@[simp] theorem not_pillar_fabricStoresDiscarded : ¬ Pillar Reg.fabricStoresDiscarded := not_pillar_of_high (by decide)
@[simp] theorem not_pillar_fabricRepliesDiscarded : ¬ Pillar Reg.fabricRepliesDiscarded := not_pillar_of_high (by decide)
@[simp] theorem not_pillar_fabricRefusalsRx : ¬ Pillar Reg.fabricRefusalsRx := not_pillar_of_high (by decide)
@[simp] theorem not_pillar_fabricRefusalsTx : ¬ Pillar Reg.fabricRefusalsTx := not_pillar_of_high (by decide)
@[simp] theorem not_pillar_fabricFlags : ¬ Pillar Reg.fabricFlags := not_pillar_of_high (by decide)
@[simp] theorem not_pillar_fabricStat : ¬ Pillar Reg.fabricStat := not_pillar_of_high (by decide)
@[simp] theorem not_pillar_linkStat (o : Nat) : ¬ Pillar (Reg.linkStat o) := not_pillar_of_high (by unfold Reg.linkStat; omega)
@[simp] theorem not_pillar_linkFlags (o : Nat) : ¬ Pillar (Reg.linkFlags o) := not_pillar_of_high (by unfold Reg.linkFlags; omega)
@[simp] theorem not_pillar_linkPartner (o : Nat) : ¬ Pillar (Reg.linkPartner o) :=
  not_pillar_of_high (by unfold Reg.linkPartner; omega)
@[simp] theorem not_pillar_linkViolations (o : Nat) : ¬ Pillar (Reg.linkViolations o) :=
  not_pillar_of_high (by unfold Reg.linkViolations; omega)
@[simp] theorem not_pillar_springStat (n : Nat) : ¬ Pillar (Reg.springStat n) :=
  not_pillar_of_high (by unfold Reg.springStat; omega)
@[simp] theorem not_pillar_springFlags (n : Nat) : ¬ Pillar (Reg.springFlags n) :=
  not_pillar_of_high (by unfold Reg.springFlags; omega)
@[simp] theorem not_pillar_springBias (n : Nat) : ¬ Pillar (Reg.springBias n) :=
  not_pillar_of_high (by unfold Reg.springBias; omega)
@[simp] theorem not_pillar_dmaStat (ch : Nat) : ¬ Pillar (Reg.dmaStat ch) := by
  unfold Pillar Reg.globalStat Reg.timeStat Reg.clockCtrl Reg.clockRefstat Reg.dmaStat; omega
@[simp] theorem not_pillar_siteFailCause (i : Nat) : ¬ Pillar (Reg.siteFailCause i) :=
  not_pillar_of_site (by unfold Reg.siteFailCause; omega)
@[simp] theorem not_pillar_memPoisoned (i : Nat) : ¬ Pillar (Reg.memPoisoned i) :=
  not_pillar_of_site (by unfold Reg.memPoisoned; omega)
@[simp] theorem not_pillar_memRefresh (i : Nat) : ¬ Pillar (Reg.memRefresh i) :=
  not_pillar_of_site (by unfold Reg.memRefresh; omega)
@[simp] theorem not_pillar_memUnwrittenRd (i : Nat) : ¬ Pillar (Reg.memUnwrittenRd i) :=
  not_pillar_of_site (by unfold Reg.memUnwrittenRd; omega)
@[simp] theorem not_pillar_basinFlags (i : Nat) : ¬ Pillar (Reg.basinFlags i) :=
  not_pillar_of_site (by unfold Reg.basinFlags; omega)
@[simp] theorem not_pillar_basinKeyRefused (i : Nat) : ¬ Pillar (Reg.basinKeyRefused i) :=
  not_pillar_of_site (by unfold Reg.basinKeyRefused; omega)
@[simp] theorem not_pillar_basinStat (i : Nat) : ¬ Pillar (Reg.basinStat i) := not_pillar_of_site (by unfold Reg.basinStat; omega)
@[simp] theorem not_pillar_abangoStat (i : Nat) : ¬ Pillar (Reg.abangoStat i) :=
  not_pillar_of_site (by unfold Reg.abangoStat; omega)
@[simp] theorem not_pillar_abangoVia (i : Nat) : ¬ Pillar (Reg.abangoVia i) := not_pillar_of_site (by unfold Reg.abangoVia; omega)
@[simp] theorem not_pillar_lightStat (i : Nat) : ¬ Pillar (Reg.lightStat i) := not_pillar_of_site (by unfold Reg.lightStat; omega)
@[simp] theorem not_pillar_lightFlags (i : Nat) : ¬ Pillar (Reg.lightFlags i) :=
  not_pillar_of_site (by unfold Reg.lightFlags; omega)
@[simp] theorem not_pillar_lightCalRejects (i : Nat) : ¬ Pillar (Reg.lightCalRejects i) :=
  not_pillar_of_site (by unfold Reg.lightCalRejects; omega)

theorem not_pillar_powerDomain {d : Nat} (h : d < 166) : ¬ Pillar (Reg.powerDomain d) :=
  not_pillar_of_low (by unfold Reg.powerDomain; omega)
theorem not_pillar_basinKey (i : Nat) {e : Nat} (h : e < 16) : ¬ Pillar (Reg.basinKey i e) :=
  not_pillar_of_site (by unfold Reg.basinKey; omega)
theorem not_pillar_basinTxch (i : Nat) {idx : Nat} (h : idx < 256) : ¬ Pillar (Reg.basinTxch i idx) :=
  not_pillar_of_site (by unfold Reg.basinTxch; omega)

/-! ### One update of the state -/

section
variable {s0 s t : State}

/-- Every part but the registers, the cores and the Weirs. -/
def quietParts : Nat := 0xFFFFFF7FFFFEFFFD

theorem quiet_calm (ht : Only quietParts s t) (h : Calm s0 s) : Calm s0 t := by
  have hregs : t.regs = s.regs := (ht.out .regs rfl).symm
  have hcores : t.cores = s.cores := (ht.out .cores rfl).symm
  have hweir : t.weir = s.weir := (ht.out .weir rfl).symm
  refine h.trans ⟨by rw [weirServes, hweir, weirServes], fun off _ i _ => regBit_of hregs off i, fun c hc => ?_⟩
  rwa [core_of hcores]

/-- An update of the state that leaves the registers, the cores and the Weirs. -/
theorem same_calm (h : Calm s0 s) (hregs : t.regs = s.regs) (hcores : t.cores = s.cores) (hweir : t.weir = s.weir) : Calm s0 t := by
  refine h.trans ⟨by rw [weirServes, hweir, weirServes], fun off _ i _ => regBit_of hregs off i, fun c hc => ?_⟩
  rwa [core_of hcores]

theorem ite_calm {c : Prop} [Decidable c] (h : Calm s0 s) (h' : Calm s0 t) : Calm s0 (if c then s else t) := by
  split
  · exact h
  · exact h'

theorem skip_calm {c : Prop} [Decidable c] (h : Calm s0 s) (ht : Calm s0 s → Calm s0 t) : Calm s0 (if c then t else s) :=
  ite_calm (ht h) h

theorem foldl_calm {α : Type} {f : State → α → State} {l : List α}
    (hf : ∀ t, Calm s0 t → ∀ a ∈ l, Calm s0 (f t a)) (h : Calm s0 s) : Calm s0 (l.foldl f s) :=
  List.foldlRecOn l f (motive := Calm s0) h hf

variable {off hi lo i v n c : Nat}

theorem putReg_calm (hp : ¬ Pillar off) (h : Calm s0 s) : Calm s0 (putReg s off v) := by
  refine h.trans ⟨rfl, fun off' hp' i _ => ?_, fun _ hc => hc⟩
  have hne : off' ≠ off := fun e => hp (e ▸ hp')
  rw [regBit, reg_putReg_other _ _ _ _ hne, regBit]

theorem putField_calm (hp : ¬ Pillar off) (h : Calm s0 s) : Calm s0 (putField s off hi lo v) := putReg_calm hp h
theorem putBit_calm {b : Bool} (hp : ¬ Pillar off) (h : Calm s0 s) : Calm s0 (putBit s off i b) := putReg_calm hp h
theorem addPair_calm (hp : ¬ Pillar off) (h : Calm s0 s) : Calm s0 (addPair s off n) := putReg_calm hp h
theorem addPairSat_calm (hp : ¬ Pillar off) (h : Calm s0 s) : Calm s0 (addPairSat s off n) := putReg_calm hp h

theorem raiseFlag_calm (hp : ¬ Pillar off) (h : Calm s0 s) : Calm s0 (raiseFlag s off i) :=
  same_calm (putBit_calm (i := i) (b := true) hp h) rfl rfl rfl

/-- The flags of calibration entries stand above the bits that a start rests on. -/
theorem putBit_high_calm {b : Bool} (h : Calm s0 s) (hi : 30 ≤ i) : Calm s0 (putBit s off i b) := by
  refine h.trans ⟨rfl, fun off' _ j hj => ?_, fun _ hc => hc⟩
  rw [regBit_putBit, if_neg (by omega)]

theorem dropRegs_calm {p : Nat → Bool} (h : Calm s0 s) (hp : ∀ off, Pillar off → p off = false) : Calm s0 (dropRegs s p) := by
  refine h.trans ⟨rfl, fun off ho i _ => ?_, fun _ hc => hc⟩
  have hreg : reg (dropRegs s p) off = reg s off := by
    rw [reg, dropRegs, tget_tdrop, if_neg (by simp [hp off ho]), reg]
  rw [regBit, hreg, regBit]

theorem putCore_calm {x : CoreState} (h : Calm s0 s) (hx : (core s c).fenced = true → x.fenced = true) :
    Calm s0 (putCore s c x) := by
  refine h.trans ⟨rfl, fun _ _ _ _ => rfl, fun c' hc => ?_⟩
  rw [core_putCore]
  split
  · subst c'; exact hx hc
  · exact hc

theorem modCore_calm {f : CoreState → CoreState} (hf : ∀ y, y.fenced = true → (f y).fenced = true) (h : Calm s0 s) :
    Calm s0 (modCore s c f) :=
  putCore_calm h (hf _)

/-! ### Reports and the log -/

theorem raise_calm {cls code unit part d0 d1 src : Nat} (h : Calm s0 s) : Calm s0 (raise s cls code unit part d0 d1 src) :=
  same_calm h rfl rfl rfl

theorem emit_calm {o : Output} (h : Calm s0 s) : Calm s0 (emit s o) := same_calm h rfl rfl rfl

theorem appendLog_calm {r : LogRec} (h : Calm s0 s) : Calm s0 (appendLog s r) := by
  have hlost := ite_calm (c := (4096 ≤ s.faults.log.length && !(s.faults.log.head?.map (·.read)).getD true) = true)
    (addPair_calm (off := Reg.faultLost) (n := 1) (by simp) h) h
  exact putReg_calm (by simp) (putReg_calm (by simp) (same_calm hlost rfl rfl rfl))

theorem fwLogSev_calm {cls code sev unit part d0 d1 : Nat} (h : Calm s0 s) : Calm s0 (fwLogSev s cls code sev unit part d0 d1) :=
  ite_calm (appendLog_calm h) (same_calm h rfl rfl rfl)

theorem fwLog_calm {cls code unit part d0 d1 : Nat} (h : Calm s0 s) : Calm s0 (fwLog s cls code unit part d0 d1) := fwLogSev_calm h

/-! ### Memory -/

theorem noteUnwritten_calm {page : Nat} (h : Calm s0 s) : Calm s0 (noteUnwritten s page) := by
  have hcount := addPairSat_calm (off := Reg.memUnwrittenRd (ownerSite (4096 * page))) (n := 1) (by simp) h
  exact ite_calm h (ite_calm hcount (quiet_calm (modPart_only _ _ .refl ⟨rfl⟩) hcount))

theorem noteRead_calm {a : Nat} (h : Calm s0 s) : Calm s0 (noteRead s a n) :=
  foldl_calm (fun _ ht _ _ => noteUnwritten_calm ht) h

theorem setPoison_calm {a : Nat} {b : Bool} (h : Calm s0 s) : Calm s0 (setPoison s a b) := by
  have hmark : Calm s0 { s with poison := tput false s.poison (a / 64) b } := same_calm h rfl rfl rfl
  unfold setPoison
  split
  · exact same_calm h rfl rfl rfl
  · exact ite_calm hmark (ite_calm (quiet_calm (rowReport_only _ .refl ⟨rfl⟩) (putReg_calm (by simp) hmark))
      (putReg_calm (by simp) hmark))
  · exact ite_calm hmark (ite_calm (quiet_calm (rowReport_only _ .refl ⟨rfl⟩) (putReg_calm (by simp) hmark))
      (putReg_calm (by simp) hmark))
  · exact h

theorem openPage_calm {a : Nat} (h : Calm s0 s) : Calm s0 (openPage s a) :=
  ite_calm h (foldl_calm (fun _ ht _ _ => setPoison_calm ht) (same_calm h rfl rfl rfl))

theorem applyPiece_calm {a : Nat} {bs : List Byte} {p : Bool} (h : Calm s0 s) : Calm s0 (applyPiece s a bs p).1 := by
  unfold applyPiece
  extract_lets u full
  have hu : Calm s0 u := ite_calm (openPage_calm h) h
  split
  · exact hu
  · exact ite_calm (setPoison_calm (same_calm hu rfl rfl rfl)) (same_calm hu rfl rfl rfl)

theorem writePieces_calm {fuel a off : Nat} {bs : List Byte} {pois : List Nat} (h : Calm s0 s) :
    Calm s0 (writePieces fuel s a off bs pois).1 := by
  induction fuel generalizing s a off bs with
  | zero => exact h
  | succ fuel ih =>
    unfold writePieces
    split
    · exact h
    · exact ih (applyPiece_calm h)

theorem writeMem_calm {a : Nat} {bs : List Byte} {pois : List Nat} (h : Calm s0 s) : Calm s0 (writeMem s a bs pois).1 :=
  writePieces_calm h

/-! ### Posts and moves of a core -/

theorem modCtxCore_calm {x : Nat} {f : CtxCore → CtxCore} (h : Calm s0 s) : Calm s0 (modCtxCore s x c f) :=
  quiet_calm (modCtxCore_only _ _ _ .refl ⟨rfl⟩) h

theorem latch_calm {x : Context} {cause d0 : Nat} (h : Calm s0 s) : Calm s0 (latch s c x cause d0) :=
  quiet_calm (raiseCtx_only _ _ _ _ .refl ⟨rfl⟩) (modCore_calm (fun _ hf => hf) h)

theorem postCounter_calm {x : Context} {amount : Nat} (h : Calm s0 s) : Calm s0 (postCounter s x c n amount) := by
  unfold postCounter
  split
  · exact h
  · exact ite_calm (latch_calm (modCtxCore_calm h)) (modCtxCore_calm h)

theorem sendPost_calm {x : Context} {p : RemotePost} (h : Calm s0 s) : Calm s0 (sendPost x c s p) := by
  unfold sendPost
  extract_lets y
  split
  · exact h
  · refine ite_calm h (ite_calm (emit_calm (modCore_calm (fun _ hf => hf) h)) ?_)
    split
    · exact modCore_calm (fun _ hf => hf) h
    · exact quiet_calm (queueTransfer_only _ _ _ .refl ⟨rfl⟩) (modCore_calm (fun _ hf => hf) h)

theorem sendPosts_calm (h : Calm s0 s) : Calm s0 (sendPosts s c) := by
  unfold sendPosts
  split
  · exact h
  · exact foldl_calm (fun _ ht _ _ => sendPost_calm ht) h

theorem applyPost_calm {x : Context} {f : PostF} (h : Calm s0 s) : Calm s0 (applyPost s c x f) := by
  have hsend {y : CoreState → CoreState} (hy : ∀ z, z.fenced = true → (y z).fenced = true) :
      Calm s0 (sendPosts (modCore { s with nextId := s.nextId + 1 } c y) c) :=
    sendPosts_calm (modCore_calm hy (same_calm h rfl rfl rfl))
  unfold applyPost
  split
  · exact postCounter_calm h
  · exact hsend fun _ hz => hz
  · exact hsend fun _ hz => hz
  · split
    · exact hsend fun _ hz => hz
    · exact h
  · split
    · exact h
    · exact hsend fun _ hz => hz
  · exact h

theorem runPosts_calm (h : Calm s0 s) : Calm s0 (runPosts s c) := by
  unfold runPosts
  split
  · exact h
  · exact foldl_calm (fun _ ht _ _ => applyPost_calm ht) (putCore_calm h fun hf => hf)

theorem modMove_calm {id : Nat} {f : MoveRec → MoveRec} (h : Calm s0 s) : Calm s0 (modMove s c id f) :=
  modCore_calm (fun _ hf => hf) h

theorem postDst_calm {x : Context} {m : MoveRec} (h : Calm s0 s) : Calm s0 (postDst s x c m) := by
  unfold postDst
  split
  · exact h
  · exact ite_calm (postCounter_calm h) (foldl_calm (fun _ ht _ _ => postCounter_calm ht) h)

theorem endMove_calm {x : Context} {m : MoveRec} {st : XferStatus} (h : Calm s0 s) : Calm s0 (endMove s x c m st) := by
  unfold endMove
  refine sendPosts_calm (runPosts_calm (modCore_calm (fun _ hf => hf) ?_))
  have hsrc : Calm s0 (match if m.left then none else m.srcCtr with
      | some n => postCounter s x c n 1
      | none => s) := by
    split
    · exact postCounter_calm h
    · exact h
  have hdst := quiet_calm (dropMoveTransfers_only c m .refl ⟨rfl⟩) (postDst_calm (x := x) (m := m) (c := c) hsrc)
  split
  · exact ite_calm hdst (latch_calm hdst)
  · exact hdst

/-! ### Copies of a DMA channel -/

variable {ch fn id code : Nat}

theorem dmaStat_calm (h : Calm s0 s) : Calm s0 (dmaStat s ch) :=
  putBit_calm (by simp) (putBit_calm (by simp) (putBit_calm (by simp) (putField_calm (by simp) h)))

theorem endCopy_calm {r : CopyRec} {status cause : Nat} (h : Calm s0 s) : Calm s0 (endCopy s ch r status cause) :=
  quiet_calm (complete_only _ _ _ .refl ⟨rfl⟩) (dmaStat_calm (quiet_calm (putDma_only _ _ .refl ⟨rfl⟩) h))

theorem copyProgress_calm (h : Calm s0 s) : Calm s0 (copyProgress s ch) := by
  unfold copyProgress
  split
  · exact h
  · refine ite_calm h ?_
    split
    · exact endCopy_calm h
    · exact ite_calm (endCopy_calm h) h

theorem copyAnswered_calm {f : CopyRec → CopyRec} (h : Calm s0 s) : Calm s0 (copyAnswered s ch id f) := by
  unfold copyAnswered
  split
  · exact ite_calm (copyProgress_calm (quiet_calm (modCopy_only _ _ .refl ⟨rfl⟩) h)) h
  · exact h

theorem answerCopy_calm {a : Nat} {data : List Byte} (h : Calm s0 s) : Calm s0 (answerCopy s ch id a n code data) := by
  unfold answerCopy
  refine copyAnswered_calm ?_
  split
  · exact ite_calm (quiet_calm (hostWrite_only _ _ _ .refl ⟨rfl⟩) h) h
  · exact h

/-! ### Events and mailboxes -/

theorem not_pillar_pbaAt (fn : Nat) : ¬ Pillar (pbaAt fn 0) := by
  unfold pbaAt
  split
  · exact not_pillar_of_low (by decide)
  · exact not_pillar_of_high (by omega)

theorem msix_calm (h : Calm s0 s) : Calm s0 (msix s fn 0) := ite_calm (putBit_calm (not_pillar_pbaAt fn) h) (emit_calm h)

theorem evtWrite_calm {ws : List Nat} (h : Calm s0 s) : Calm s0 (evtWrite s fn ws) :=
  ite_calm (quiet_calm (raiseMb_only _ _ (putWin_only _ _ .refl ⟨rfl⟩) ⟨rfl⟩) h)
    (msix_calm (quiet_calm (putWin_only _ _ (hostWrite_only _ _ _ .refl ⟨rfl⟩) ⟨rfl⟩) h))

theorem deliverEvent_calm {ws : List Nat} (h : Calm s0 s) : Calm s0 (deliverEvent s fn ws) :=
  ite_calm (evtWrite_calm h) (quiet_calm (modWin_only _ _ .refl ⟨rfl⟩) h)

/-- An event that waits for the standby is only noted with the Weirs. -/
theorem partEvent_calm {p type : Nat} {words : List Nat} (h : Calm s0 s) : Calm s0 (partEvent s p type words) :=
  ite_calm (h.trans ⟨rfl, fun _ _ _ _ => rfl, fun _ hc => hc⟩) (ite_calm (deliverEvent_calm h) h)

theorem respond_calm {r : MbReq} {a : Ans} (h : Calm s0 s) : Calm s0 (respond s r a) :=
  msix_calm (quiet_calm (modWin_only _ _ .refl ⟨rfl⟩) (same_calm h rfl rfl rfl))

theorem answerWaiting_calm {opcode arg : Nat} {a : Ans} (h : Calm s0 s) : Calm s0 (answerWaiting s opcode arg a) :=
  ite_calm (foldl_calm (fun _ ht _ _ => respond_calm ht) h) (same_calm h rfl rfl rfl)

theorem answerRamps_calm (h : Calm s0 s) : Calm s0 (answerRamps s) :=
  foldl_calm (fun _ ht _ _ => answerWaiting_calm ht) (foldl_calm (fun _ ht _ _ => answerWaiting_calm ht) h)

/-! ### Domains -/

variable {d : Nat}

theorem offDomain_calm (h : Calm s0 s) (hd : d < 166) : Calm s0 (offDomain s d) := putReg_calm (not_pillar_powerDomain hd) h

theorem rampDomain_calm {mv : Nat} (h : Calm s0 s) (hd : d < 166) : Calm s0 (rampDomain s d mv) :=
  ite_calm (putReg_calm (not_pillar_powerDomain hd) h) h

theorem showUncore_calm (h : Calm s0 s) (hi : i < 16) : Calm s0 (showUncore s i) :=
  ite_calm h (putField_calm (not_pillar_powerDomain (by unfold domUncore; omega)) h)

theorem coreOff_calm (h : Calm s0 s) (hc : c < 64) : Calm s0 (coreOff s c) := by
  have hoff := modCore_calm (c := c) (f := fun y => { y with rampTo := none }) (fun _ hf => hf)
    (offDomain_calm (d := domCore c) h (by unfold domCore; omega))
  exact ite_calm (showUncore_calm hoff (by omega)) (offDomain_calm hoff (by unfold domUncore; omega))

/-! ### Contexts and the fence of a core -/

theorem cutRequests_calm (h : Calm s0 s) : Calm s0 (cutRequests s c) := by
  unfold cutRequests
  extract_lets i x comb shared keep lost gone u
  have hu : Calm s0 u := same_calm h rfl rfl rfl
  exact ite_calm hu (addPairSat_calm (by simp) hu)

theorem cutContext_calm {x : Context} (h : Calm s0 s) : Calm s0 (cutContext s x) := by
  refine quiet_calm (parkRings_only _ (dropTransfers_only _ .refl ⟨rfl⟩) ⟨rfl⟩) (foldl_calm (fun t ht k _ => ?_) h)
  exact ite_calm (modCore_calm (fun _ hf => hf) (cutRequests_calm (quiet_calm (saveStatus_only _ .refl ⟨rfl⟩) ht))) ht

theorem endContext_calm {x : Context} {e : EndRec} {hd : Nat} (h : Calm s0 s) : Calm s0 (setOutcome (cutContext s x) hd e) :=
  quiet_calm (setOutcome_only _ _ .refl ⟨rfl⟩) (cutContext_calm h)

theorem siteResetRuns_calm (h : Calm s0 s) : Calm s0 (siteResetRuns s i) :=
  foldl_calm (fun _ ht _ _ => endContext_calm ht) h

/-- What follows the fence leaves what a start rests on. -/
theorem fence_calm {status : Nat} (hnot : (core s c).fenced = false) (h : Calm s0 (modCore s c fun y => { y with fenced := true }))
    (hc : c < 64) : Calm s0 (fenceCore s c status) := by
  unfold fenceCore
  rw [hnot, if_neg Bool.false_ne_true]
  refine coreOff_calm (foldl_calm (fun t ht x _ => ?_) (partEvent_calm (raise_calm h))) hc
  have hended := ite_calm (c := 0 < (x.run.map (·.phases)).getD 0)
    (endContext_calm (x := x) (hd := x.handle) (e := { status := status, cause := 0, lcore := 0, phase := 0,
                                                             time := t.time.now }) ht) ht
  exact quiet_calm (modCtx_only _ _ .refl ⟨rfl⟩) (ite_calm hended (partEvent_calm hended))

theorem fenceCore_calm {status : Nat} (h : Calm s0 s) (hc : c < 64) : Calm s0 (fenceCore s c status) := by
  cases hf : (core s c).fenced with
  | true => rwa [fenceCore, if_pos hf]
  | false => exact fence_calm hf (modCore_calm (fun _ _ => rfl) h) hc

/-! ### Links and their trees -/

variable {o : Nat}

theorem setLinkState_calm (h : Calm s0 s) : Calm s0 (setLinkState s o v) :=
  putField_calm (by simp) (putField_calm (by simp) (putField_calm (by simp) h))

theorem loadRoutes_calm (h : Calm s0 s) : Calm s0 (loadRoutes s) := ite_calm h (raiseFlag_calm (by simp) (same_calm h rfl rfl rfl))

theorem showTree_calm (h : Calm s0 s) : Calm s0 (showTree s) := putField_calm (by simp) (putField_calm (by simp) h)

theorem noteViolation_calm {d0 : Nat} (h : Calm s0 s) : Calm s0 (noteViolation s o code d0) := by
  unfold noteViolation
  exact quiet_calm (modLink_only _ _ .refl ⟨rfl⟩) (raise_calm (raiseFlag_calm (by simp) (raiseFlag_calm (by simp)
    (addPairSat_calm (by simp) h))))

theorem discardReply_calm (h : Calm s0 s) : Calm s0 (discardReply s) := raiseFlag_calm (by simp) (addPairSat_calm (by simp) h)

theorem floodOwn_calm (h : Calm s0 s) : Calm s0 (floodOwn s) := by
  refine ite_calm h (ite_calm (same_calm h rfl rfl rfl) (ite_calm (loadRoutes_calm (showTree_calm ?_)) ?_)) <;>
    exact quiet_calm (flood_only _ _ .refl ⟨rfl⟩) (same_calm h rfl rfl rfl)

/-! ### Requests and replies -/

theorem keyRefused_calm {p : Packet} (h : Calm s0 s) : Calm s0 (keyRefused s i p) :=
  raise_calm (raiseFlag_calm (by simp) (addPairSat_calm (by simp) h))

theorem finishReq_calm {r : OpenReq} {data : List Byte} {fill : Bool} (h : Calm s0 s) :
    Calm s0 (finishReq s i r code data fill) := by
  have hfail := quiet_calm (failFlagged_only i r code .refl ⟨rfl⟩) h
  unfold finishReq
  split
  · exact ite_calm (quiet_calm (cacheFill_only _ _ _ _ .refl ⟨rfl⟩) (modMove_calm hfail)) (modMove_calm hfail)
  · exact answerCopy_calm hfail
  · exact hfail

theorem exitReply_calm {p : Packet} (h : Calm s0 s) : Calm s0 (exitReply s o p) := by
  have hpaid := quiet_calm (takePaid_only o p .refl ⟨rfl⟩) h
  have hunpay := quiet_calm (unpay_only (takePaid s o p).2 o p .refl ⟨rfl⟩) hpaid
  exact ite_calm (keyRefused_calm hunpay)
    (ite_calm (quiet_calm (queueAtLink_only _ _ .refl ⟨rfl⟩) hpaid) (raise_calm (discardReply_calm hunpay)))

theorem sendOn_calm {p : Packet} {deliver : State → State} (h : Calm s0 s) (hd : Calm s0 (deliver s)) :
    Calm s0 (sendOn s i p deliver) := by
  have hsubmit (r : OpenReq) := quiet_calm (submitOpen_only i r .refl ⟨rfl⟩) h
  exact ite_calm (ite_calm (exitReply_calm h) (hsubmit _))
    (ite_calm (ite_calm (exitReply_calm h) (hsubmit _)) (ite_calm hd (hsubmit _)))

theorem answerOwn_calm {r : OpenReq} {data : List Byte} {fill : Bool} {reply : Packet} (h : Calm s0 s) :
    Calm s0 (answerOwn s i r code data fill reply) := by
  unfold answerOwn
  split
  · exact emit_calm h
  · exact finishReq_calm h

theorem answerAttached_calm {q : OpenReq} {r : Packet} {rank : Nat} {fill : Bool} (h : Calm s0 s) :
    Calm s0 (answerAttached s i q r rank code fill) := by
  unfold answerAttached
  split
  · exact sendOn_calm h (emit_calm h)
  · exact finishReq_calm h

theorem answerAll_calm {qs : List OpenReq} {r : Packet} {fill : Bool} (h : Calm s0 s) : Calm s0 (answerAll s i qs r code fill) :=
  foldl_calm (fun _ ht _ _ => answerAttached_calm ht) h

theorem deliverReply_calm {r : Packet} (h : Calm s0 s) : Calm s0 (deliverReply s i r) := by
  have hrefused := ite_calm (c := (r.type == 0x13 && 0 < r.hop) = true)
    (addPairSat_calm (off := Reg.fabricRefusalsRx) (n := 1) (by simp) h) h
  unfold deliverReply
  extract_lets link x u
  split
  · exact ite_calm (noteViolation_calm (discardReply_calm hrefused)) (discardReply_calm hrefused)
  · exact answerAll_calm (answerOwn_calm (quiet_calm (modSite_only _ _ (dropCombining_only _ _ .refl ⟨rfl⟩) ⟨rfl⟩)
      (ite_calm (noteViolation_calm hrefused) hrefused)))

theorem routeReply_calm {r : Packet} (h : Calm s0 s) : Calm s0 (routeReply s i r) := sendOn_calm h (deliverReply_calm h)

theorem copyTransit_calm {r : Packet} (h : Calm s0 s) : Calm s0 (copyTransit s i r) := by
  unfold copyTransit
  extract_lets mine here
  split
  · exact ite_calm h (answerAll_calm (quiet_calm (dropCombining_only _ _ .refl ⟨rfl⟩) h))
  · exact h

theorem refuse_calm {q : Packet} (h : Calm s0 s) : Calm s0 (refuse s i q code) :=
  routeReply_calm (ite_calm (addPairSat_calm (by simp) h) h)

theorem turnBack_calm {r : OpenReq} (h : Calm s0 s) : Calm s0 (turnBack o s r) :=
  ite_calm (refuse_calm (copyTransit_calm h)) (ite_calm (raise_calm (discardReply_calm h)) h)

theorem linkGoesDown_calm {st : Nat} (h : Calm s0 s) : Calm s0 (linkGoesDown s o st) := by
  have hdown (f : LinkState → LinkState) (ws : List OpenReq) : Calm s0 (ws.foldl (turnBack o)
      (putBit (modSite (modLink (setLinkState s o st) o f) o fun x => { x with egressQ := [] }) (Reg.linkPartner o) 31 false)) :=
    foldl_calm (fun _ ht _ _ => turnBack_calm ht) (putBit_calm (by simp)
      (quiet_calm (modSite_only _ _ (modLink_only _ _ .refl ⟨rfl⟩) ⟨rfl⟩) (setLinkState_calm h)))
  exact ite_calm (floodOwn_calm (raise_calm (raiseFlag_calm (by simp) (raiseFlag_calm (by simp) (hdown _ _))))) (hdown _ _)

/-! ### Writes that a site holds -/

theorem applyWrite_calm {p : Packet} (h : Calm s0 s) : Calm s0 (applyWrite s i p) :=
  ite_calm (refuse_calm (writeMem_calm h)) (routeReply_calm (writeMem_calm h))

theorem applyAtomic_calm {p : Packet} (h : Calm s0 s) : Calm s0 (applyAtomic s i p) :=
  ite_calm (refuse_calm h) (routeReply_calm (writeMem_calm (noteRead_calm h)))

theorem applyHeld_calm {w : HeldWrite} (h : Calm s0 s) : Calm s0 (applyHeld s i w) := by
  unfold applyHeld
  split
  · exact ite_calm (applyWrite_calm h) (applyAtomic_calm h)
  · extract_lets r
    have hwrite : Calm s0 r.1 := writeMem_calm h
    split
    · exact modMove_calm hwrite
    · exact copyAnswered_calm hwrite
    · exact hwrite

theorem modSite_calm {f : SiteState → SiteState} (h : Calm s0 s) : Calm s0 (modSite s i f) :=
  quiet_calm (modSite_only _ _ .refl ⟨rfl⟩) h

theorem applyReady_calm (h : Calm s0 s) : Calm s0 (applyReady s i) :=
  foldl_calm (fun _ ht _ _ => applyHeld_calm ht) (modSite_calm h)

theorem invalAck_calm {owner sharer region : Nat} (h : Calm s0 s) : Calm s0 (invalAck owner sharer region s) := by
  have hreceived := quiet_calm (received_only sharer owner (invalPacket s 0x14 sharer owner region) .refl ⟨rfl⟩) h
  exact ite_calm (keyRefused_calm hreceived)
    (foldl_calm (fun _ ht _ _ => applyReady_calm (modSite_calm ht)) (modSite_calm hreceived))

/-! ### What the reset of a crossing ends -/

theorem cutMove_calm (h : Calm s0 s) : Calm s0 (cutMove s c id) := by
  unfold cutMove
  extract_lets i x mine lost u
  have hu : Calm s0 u := same_calm h rfl rfl rfl
  exact ite_calm hu (addPairSat_calm (by simp) hu)

theorem resetMoves_calm {p : Nat → MoveRec → Bool} (h : Calm s0 s) : Calm s0 (resetMoves s i p) := by
  refine foldl_calm (fun t ht k _ => foldl_calm (fun t ht m _ => ?_) ht) h
  split
  · exact endMove_calm (cutMove_calm ht)
  · exact ht

theorem resetHeld_calm (h : Calm s0 s) : Calm s0 (resetHeld s i) := by
  refine foldl_calm (fun t ht w _ => ?_) (foldl_calm (fun _ ht _ _ => refuse_calm ht) (modSite_calm h))
  split
  · exact refuse_calm ht
  · split
    · exact modMove_calm ht
    · exact copyAnswered_calm ht
    · exact ht

theorem dropSharer_calm {sharer : Nat} (h : Calm s0 s) : Calm s0 (dropSharer s sharer) :=
  foldl_calm (fun _ ht _ _ => modSite_calm (foldl_calm (fun _ ht _ _ => invalAck_calm ht) ht)) h

theorem resetToward_calm (h : Calm s0 s) : Calm s0 (resetToward s i) :=
  foldl_calm (fun _ ht _ _ => ite_calm ht (foldl_calm (fun _ ht _ _ => deliverReply_calm ht) ht)) h

theorem openPair_lt (i d : Nat) : (openPair i d).1 < 256 ∧ (openPair i d).2 < 256 := by
  simp only [openPair]
  omega

theorem clearTxch_calm (h : Calm s0 s) : Calm s0 (clearTxch s i) := by
  have hdrop : Calm s0 (dropRegs s fun off => Reg.basinTxch i 0 ≤ off && off < Reg.basinTxch i 256) := by
    refine dropRegs_calm h fun off hp => Bool.eq_false_iff.2 fun hin => ?_
    have hrange : Reg.basinTxch i 0 ≤ off ∧ off < Reg.basinTxch i 256 := by simpa using hin
    unfold Reg.basinTxch at hrange
    unfold Pillar Reg.globalStat Reg.timeStat Reg.clockCtrl Reg.clockRefstat at hp
    omega
  exact ite_calm hdrop (foldl_calm (fun _ ht d _ => putField_calm (not_pillar_basinTxch i (openPair_lt i d).2)
    (putField_calm (not_pillar_basinTxch i (openPair_lt i d).1) ht)) hdrop)

theorem clearPort_calm (h : Calm s0 s) : Calm s0 (clearPort s i) :=
  ite_calm (clearTxch_calm (same_calm h rfl rfl rfl)) (addPairSat_calm (by simp) (clearTxch_calm (same_calm h rfl rfl rfl)))

theorem restartNego_calm (h : Calm s0 s) : Calm s0 (restartNego s i) :=
  putBit_calm (by simp) (putBit_calm (by simp) (modSite_calm h))

theorem crossEffects_calm {k : CrossKind} {d : Side} (h : Calm s0 s) : Calm s0 (crossEffects s k i d) := by
  unfold crossEffects
  split
  · exact resetMoves_calm h
  · exact resetHeld_calm (resetMoves_calm (same_calm h rfl rfl rfl))
  · exact resetHeld_calm (resetMoves_calm h)
  · exact restartNego_calm (resetMoves_calm h)
  · exact quiet_calm (beginDrain_only _ .refl ⟨rfl⟩) (clearPort_calm (resetToward_calm (dropSharer_calm
      (resetHeld_calm (resetMoves_calm (siteResetRuns_calm h))))))
  · exact resetToward_calm (resetMoves_calm h)
  · exact h
  · exact h

/-! ### Calibration -/

variable {g l : Nat} {b : Bool}

theorem markMonitors_calm (h : Calm s0 s) : Calm s0 (markMonitors s g l b) :=
  ite_calm (foldl_calm (fun _ ht _ _ => putBit_high_calm ht (by decide)) h)
    (foldl_calm (fun _ ht _ _ => putBit_high_calm ht (by decide)) h)

theorem markStale_calm (h : Calm s0 s) : Calm s0 (markStale s g l b) := by
  refine foldl_calm (fun t ht i _ => ite_calm ht (foldl_calm (fun t ht k _ => ?_) ht))
    (putBit_high_calm (markMonitors_calm h) (by decide))
  have hmark {b : Bool} := putBit_high_calm (off := Reg.lightRxcal i (8 * g + k) l) (i := 30) (b := b) ht (by decide)
  exact ite_calm (ite_calm hmark ht) (ite_calm hmark ht)

theorem showCalibrating_calm (h : Calm s0 s) : Calm s0 (showCalibrating s g l b) :=
  foldl_calm (fun _ ht _ _ => ite_calm (putField_calm (by simp) (putField_calm (by simp) (putBit_calm (by simp) ht)))
    (putBit_calm (by simp) ht)) h

theorem flagSites_calm (h : Calm s0 s) : Calm s0 (flagSites s i) :=
  foldl_calm (fun _ ht _ _ => raiseFlag_calm (by simp) ht) h

theorem abandonCal_calm {a : Activity} {forSpring : Bool} (h : Calm s0 s) : Calm s0 (abandonCal s a forSpring) :=
  flagSites_calm (showCalibrating_calm (quiet_calm (modAct_only _ _ .refl ⟨rfl⟩) h))

theorem abandonCals_calm {forSpring clear : Bool} {p : Activity → Bool} (h : Calm s0 s) :
    Calm s0 (abandonCals s forSpring clear p) :=
  foldl_calm (fun _ ht _ _ => ite_calm (markStale_calm (abandonCal_calm ht)) (abandonCal_calm ht)) h

theorem springDown_calm {cause : SpringFault} (h : Calm s0 s) (hn : n < 10) : Calm s0 (springDown s n cause) := by
  have hlost : Calm s0 (putSpring s n
      { springUnpowered s (spring s n) with failed := true, failedAt := tickOf s, restoring := none }) :=
    quiet_calm (putSpring_only _ _ .refl ⟨rfl⟩) h
  refine ite_calm h (raise_calm (skip_calm (skip_calm (offDomain_calm (putReg_calm (by simp) ?_)
    (by unfold domSpring; omega)) fun hoff => ?_)
    fun hmate => abandonCals_calm hmate))
  · have hdown := raiseFlag_calm (off := Reg.springFlags n) (i := 2) (by simp) (putField_calm (hi := 10) (lo := 8) (v := 4)
      (not_pillar_springStat n) (putBit_calm (i := 1) (b := false) (not_pillar_springStat n)
        (putBit_calm (i := 0) (b := false) (not_pillar_springStat n) hlost)))
    cases cause with
    | powerLow => exact raiseFlag_calm (by simp) hdown
    | offGrid => exact raiseFlag_calm (by simp) hdown
    | domain => exact hdown
  · split
    · exact putBit_calm (by simp) hoff
    · exact hoff

/-! ### Entries of the calibration image and channels that fail -/

theorem putEntry_calm {r : Nat} (hr : ¬ Pillar r) (h : Calm s0 s) : Calm s0 (putEntry s r v) := putReg_calm hr h

theorem countSites_calm {r : Nat → Nat} (hr : ∀ i, ¬ Pillar (r i)) (h : Calm s0 s) : Calm s0 (countSites s r) :=
  foldl_calm (fun _ ht i _ => addPairSat_calm (hr i) ht) h

theorem foldIndex_calm {idx : Nat} (h : Calm s0 s) : Calm s0 (foldIndex s i idx) :=
  quiet_calm (pumpTx_only _ _ (onlyFold .refl fun _ ht _ => putOut_only _ _ _ ht ⟨rfl⟩) ⟨rfl⟩)
    (modSite_calm (raiseFlag_calm (by simp) h))

theorem placeIndex_calm {idx : Nat} {hd : Option Nat} {ds : List (Nat × Nat × Nat)} (h : Calm s0 s) :
    Calm s0 (placeIndex s i idx hd ds) :=
  ite_calm (quiet_calm (takeSlot_only _ _ _ _ _ .refl ⟨rfl⟩) h) (ite_calm (quiet_calm (takeSlot_only _ _ _ _ _ .refl ⟨rfl⟩) h)
    (ite_calm (ite_calm (raiseFlag_calm (by simp) h) h) (foldIndex_calm (raise_calm h))))

/-- The state of a transmit channel stands above the bits that a start rests on. -/
theorem putField_high_calm (hlo : 30 ≤ lo) (hhi : lo ≤ hi + 1) (h : Calm s0 s) : Calm s0 (putField s off hi lo v) := by
  refine h.trans ⟨rfl, fun off' hp j hj => ?_, fun _ hc => hc⟩
  by_cases he : off' = off
  · rw [he, regBit, putField, reg_putReg_self, bit_setBits_other _ _ _ _ _ hhi (.inl (by omega)), regBit]
  · rw [regBit, reg_putField_other _ _ _ _ _ _ he, regBit]

theorem failIndex_calm {idx : Nat} (h : Calm s0 s) : Calm s0 (failIndex s i idx) := by
  refine ite_calm h ?_
  extract_lets g l load rs hd u1 u2 u
  have hu : Calm s0 u := putField_high_calm (by decide) (by decide) (modSite_calm (foldl_calm (fun _ ht _ _ => modSite_calm ht) h))
  clear_value load
  cases load with
  | some k => exact placeIndex_calm hu
  | none => exact hu

theorem rejectCal_calm (h : Calm s0 s) : Calm s0 (rejectCal s g l) :=
  failIndex_calm (raise_calm (countSites_calm not_pillar_lightCalRejects (flagSites_calm (markStale_calm h))))

theorem loadImage_calm {bs : List Byte} {sites : List Nat} (h : Calm s0 s) : Calm s0 (loadImage s bs sites) := by
  refine foldl_calm (fun t ht i _ => foldl_calm (fun t ht e he => putEntry_calm ?_ ht) ht) h
  have hmem := (List.of_mem_zip he).1
  simp only [List.mem_append, List.mem_map, List.mem_flatMap, List.mem_range] at hmem
  obtain ⟨k, hk, he⟩ | ⟨r, hr, k, hk, he⟩ := hmem <;> rw [← he]
  · exact not_pillar_of_site (by unfold Reg.lightTxcal; omega)
  · exact not_pillar_of_site (by unfold Reg.lightRxcal; omega)

/-! ### Domains that become ready -/

theorem portUp_calm (h : Calm s0 s) : Calm s0 (portUp s i) :=
  putBit_calm (by simp) (putField_calm (by simp) (modSite_calm (foldl_calm (fun _ ht e _ =>
    putReg_calm (not_pillar_basinKey i (Nat.mod_lt _ (by decide))) ht) h)))

theorem domainUp_calm (h : Calm s0 s) (hd : d < 166) : Calm s0 (domainUp s d) := by
  have hon := putField_calm (hi := 31) (lo := 30) (v := 2) (not_pillar_powerDomain hd) h
  have hside {t : State} (ht : Calm s0 t) (k : CrossKind) (i : Nat) (x : Side) : Calm s0 (sideUp t k i x) :=
    quiet_calm (sideUp_only _ _ _ .refl ⟨rfl⟩) ht
  unfold domainUp
  split
  · next hcore => exact answerRamps_calm (showUncore_calm hon (by omega))
  · exact ite_calm (hside hon _ _ _) (ite_calm (quiet_calm (pondReturns_only _ .refl ⟨rfl⟩) hon)
      (ite_calm (portUp_calm (hside (hside hon _ _ _) _ _ _)) (ite_calm (hside hon _ _ _) (ite_calm (hside hon _ _ _)
        (ite_calm (hside hon _ _ _) hon)))))

theorem settleDomains_calm {ds : List Nat} (h : Calm s0 s) (hds : ∀ d ∈ ds, d < 166) : Calm s0 (settleDomains s ds) :=
  foldl_calm (fun _ ht d hd => ite_calm (domainUp_calm ht (hds d hd)) ht) h

theorem rampAll_calm {ds : List Nat} (h : Calm s0 s) (hds : ∀ d ∈ ds, d < 166) : Calm s0 (rampAll s ds) :=
  foldl_calm (fun _ ht d hd => rampDomain_calm ht (hds d hd)) h


/-! ### The PLLs lock -/

theorem lockPlls_calm {ref : Nat → Nat} (h : Calm s0 s) : Calm s0 (lockPlls s ref) :=
  foldl_calm (fun _ ht _ _ => putBit_calm (by simp) (same_calm ht rfl rfl rfl)) h

theorem selectRefs_calm (h : Calm s0 s) : Calm s0 (selectRefs s) := skip_calm h lockPlls_calm

end

/-! PROOFS. The family 02_time_and_clocks: the stages of a start (R59, R604 to R615). -/

/-! ### What stands while nothing of a start changes -/

section
variable {s t u : State}

theorem field_of_bits {off hi lo : Nat} (h : ∀ j, lo ≤ j → j ≤ hi → regBit t off j = regBit s off j) :
    field t off hi lo = field s off hi lo := by
  refine Nat.eq_of_testBit_eq fun j => ?_
  rw [field, field, testBit_bits, testBit_bits]
  by_cases hj : lo + j ≤ hi
  · have hbit := h (lo + j) (by omega) hj
    simp only [regBit, bit_testBit] at hbit
    rw [hbit]
  · rw [decide_eq_false (by omega), Bool.false_and, Bool.false_and]

theorem pillar_globalStat : Pillar Reg.globalStat := .inl rfl
theorem pillar_timeStat : Pillar Reg.timeStat := .inr (.inl rfl)
theorem pillar_clockCtrl : Pillar Reg.clockCtrl := .inr (.inr (.inl rfl))
theorem pillar_clockRefstat : Pillar Reg.clockRefstat := .inr (.inr (.inr (.inl rfl)))

theorem pillar_siteStat {i : Nat} (hi : i < 16) : Pillar (Reg.siteStat i) := by
  refine .inr (.inr (.inr (.inr ?_)))
  unfold Reg.siteStat
  omega

theorem pillar_memCfg {i : Nat} (hi : i < 16) : Pillar (Reg.memCfg i) := by
  refine .inr (.inr (.inr (.inr ?_)))
  unfold Reg.memCfg
  omega

theorem field_of_calm (h : Calm s t) {off hi lo : Nat} (hp : Pillar off) (hhi : hi < 30) : field t off hi lo = field s off hi lo :=
  field_of_bits fun j _ hj => h.bits off hp j (by omega)

theorem stage_of_calm (h : Calm s t) : stage t = stage s := field_of_calm h pillar_globalStat (by decide)

theorem startFailed_of_calm (h : Calm s t) : startFailed t = startFailed s := h.bits _ pillar_globalStat 7 (by decide)

theorem siteFailed_of_calm (h : Calm s t) {i : Nat} (hi : i < 16) : siteFailed t i = siteFailed s i :=
  h.bits _ (pillar_siteStat hi) 1 (by decide)

theorem trained_of_calm (h : Calm s t) {i : Nat} (hi : i < 16) : field t (Reg.memCfg i) 1 0 = field s (Reg.memCfg i) 1 0 :=
  field_of_calm h (pillar_memCfg hi) (by decide)

theorem inStage_of_calm (h : Calm s t) {n : Nat} (hs : InStage s n) : InStage t n := by
  obtain ⟨hstage, hfailed, hserves⟩ := hs
  exact ⟨(stage_of_calm h).trans hstage, (startFailed_of_calm h).trans hfailed, h.serves.trans hserves⟩

theorem mem_liveSites {i : Nat} : i ∈ liveSites s ↔ i < 16 ∧ siteFailed s i = false := by
  simp [liveSites]

theorem lt_of_mem_siteCores {c : Nat} (h : c ∈ (liveSites s).flatMap siteCores) : c < 64 := by
  simp only [List.mem_flatMap, mem_liveSites, siteCores, List.mem_map, List.mem_range] at h
  omega

theorem mem_siteCores_of_live {c : Nat} (hc : c < 64) (h : siteFailed s (c / 4) = false) : c ∈ (liveSites s).flatMap siteCores := by
  simp only [List.mem_flatMap, mem_liveSites, siteCores, List.mem_map, List.mem_range]
  exact ⟨c / 4, ⟨by omega, h⟩, c % 4, by omega, by omega⟩

theorem rampCores_calm {s0 : State} (h : Calm s0 s) : Calm s0 (rampCores s) :=
  foldl_calm (fun _ ht _ hc => rampDomain_calm (modCore_calm (fun _ hf => hf) ht)
    (Nat.lt_trans (lt_of_mem_siteCores hc) (by decide))) h

/-! ### What stands through site resets (R599) -/

/-- A site that has failed stays failed, and one that has not keeps its training; the rest of what a start rests on stands. -/
structure Steady (s t : State) : Prop where
  serves : weirServes t = weirServes s
  global : ∀ i, i < 30 → regBit t Reg.globalStat i = regBit s Reg.globalStat i
  failed : ∀ i, i < 16 → siteFailed s i = true → siteFailed t i = true
  trained : ∀ i, i < 16 → siteFailed t i = false → field t (Reg.memCfg i) 1 0 = field s (Reg.memCfg i) 1 0
  fenced : ∀ c, (core s c).fenced = true → (core t c).fenced = true

theorem steady_of_calm (h : Calm s t) : Steady s t :=
  ⟨h.serves, h.bits _ pillar_globalStat, fun _ hi hf => (siteFailed_of_calm h hi).trans hf, fun _ hi _ => trained_of_calm h hi,
    h.fenced⟩

theorem Steady.trans (h : Steady s t) (h' : Steady t u) : Steady s u := by
  refine ⟨h'.serves.trans h.serves, fun i hi => (h'.global i hi).trans (h.global i hi),
    fun i hi hf => h'.failed i hi (h.failed i hi hf),
    fun i hi hf => (h'.trained i hi hf).trans (h.trained i hi ?_), fun c hc => h'.fenced c (h.fenced c hc)⟩
  cases ht : siteFailed t i with
  | false => rfl
  | true => exact absurd (h'.failed i hi ht) (by simp [hf])

theorem foldl_steady {α : Type} {f : State → α → State} {l : List α} (hf : ∀ t, ∀ a ∈ l, Steady t (f t a)) (s : State) :
    Steady s (l.foldl f s) :=
  List.foldlRecOn l f (motive := Steady s) (steady_of_calm .refl) fun _ ht a ha => ht.trans (hf _ a ha)

theorem stage_of_steady (h : Steady s t) : stage t = stage s := field_of_bits fun j _ hj => h.global j (by omega)

theorem startFailed_of_steady (h : Steady s t) : startFailed t = startFailed s := h.global 7 (by decide)

theorem siteStat_injective {i j : Nat} (h : Reg.siteStat j = Reg.siteStat i) : j = i := by unfold Reg.siteStat at h; omega

/-- The bits of SITE_STAT change no training, and end no failure while bit 1 is not cleared. -/
theorem putBit_siteStat_steady {i n : Nat} {b : Bool} (hi : i < 16) (hn : n = 1 → b = true) (s : State) :
    Steady s (putBit s (Reg.siteStat i) n b) := by
  have hother (off : Nat) (h : off ≠ Reg.siteStat i) (j : Nat) : regBit (putBit s (Reg.siteStat i) n b) off j = regBit s off j := by
    rw [regBit_putBit, if_neg (by simp [h])]
  refine ⟨rfl, fun j _ => hother _ ?_ j, fun j hj hf => ?_, fun j hj _ => field_of_bits fun k _ _ => hother _ ?_ k, fun _ hc => hc⟩
  · unfold Reg.globalStat Reg.siteStat; omega
  · rw [siteFailed, regBit_putBit]
    split
    · next h => exact hn h.2.symm
    · exact hf
  · unfold Reg.memCfg Reg.siteStat; omega

/-- Of a failed site the registers may go. -/
theorem clearSiteRegs_steady {i : Nat} (hfailed : siteFailed s i = true) : Steady s (clearSiteRegs s i) := by
  have hother (off : Nat) (h : ¬ (0x104_0000 + i * 0x10_0000 ≤ off ∧ off < 0x110_0000 + i * 0x10_0000)) (j : Nat) :
      regBit (clearSiteRegs s i) off j = regBit s off j := by
    have hreg : reg (clearSiteRegs s i) off = reg s off := by
      rw [reg, clearSiteRegs, dropRegs, tget_tdrop, if_neg (by simpa using h), reg]
    rw [regBit, hreg, regBit]
  have hstat (j : Nat) (k : Nat) : regBit (clearSiteRegs s i) (Reg.siteStat j) k = regBit s (Reg.siteStat j) k :=
    hother _ (by unfold Reg.siteStat; omega) k
  refine ⟨rfl, fun j _ => hother _ (by unfold Reg.globalStat; omega) j, fun j _ hf => (hstat j 1).trans hf, fun j _ hf => ?_,
    fun _ hc => hc⟩
  have hne : j ≠ i := by
    rintro rfl
    rw [siteFailed, hstat, ← siteFailed, hfailed] at hf
    cases hf
  exact field_of_bits fun k _ _ => hother _ (by unfold Reg.memCfg; omega) k

theorem resetRuns_calm (i : Nat) (s : State) : Calm s (modAbango (siteResetRuns s i) i fun a => { a with resetN := false }) :=
  modSite_calm (siteResetRuns_calm .refl)

theorem beginSiteReset_steady {i : Nat} (hi : i < 16) (cause : Nat) (s : State) : Steady s (beginSiteReset i cause s) := by
  have hcause := steady_of_calm (skip_calm (c := (reg s (Reg.siteFailCause i) == 0) = true) (.refl (s := s))
    fun h => putReg_calm (v := cause) (not_pillar_siteFailCause i) h)
  have hstat := hcause.trans ((putBit_siteStat_steady hi (n := 1) (b := true) (fun _ => rfl) _).trans
    (putBit_siteStat_steady hi (n := 2) (b := false) (by decide) _))
  exact hstat.trans (steady_of_calm (resetRuns_calm i _))

theorem siteFailed_beginSiteReset {i : Nat} (hi : i < 16) (cause : Nat) (s : State) :
    siteFailed (beginSiteReset i cause s) i = true := by
  refine (siteFailed_of_calm (resetRuns_calm i _) hi).trans ?_
  rw [siteFailed, regBit_putBit, if_neg (by simp), regBit_putBit_self]

theorem resetCrossings_calm (i : Nat) (ks : List CrossKind) (s : State) : Calm s (resetCrossings i ks s) :=
  foldl_calm (fun _ ht _ _ => crossEffects_calm (quiet_calm (refuseSide_only _ _ _ .refl ⟨rfl⟩) ht)) .refl

theorem endSiteReset_steady {i : Nat} (hi : i < 16) (cause : Nat) (hfailed : siteFailed s i = true) :
    Steady s (endSiteReset i cause s) := by
  unfold endSiteReset
  extract_lets u1 u2 u3 u4
  have hcores : Calm s u1 := foldl_calm (fun _ ht k hk => fenceCore_calm ht (by have := List.mem_range.1 hk; omega)) .refl
  have hpond : Calm s u2 := offDomain_calm (offDomain_calm hcores (by unfold domPond; omega)) (by unfold domHbm; omega)
  have hlink : Calm s u3 := skip_calm hpond linkGoesDown_calm
  have hport : Calm s u4 := skip_calm hlink fun h =>
    offDomain_calm (offDomain_calm h (by unfold domPort; omega)) (by unfold domOutlet; omega)
  have hregs := clearSiteRegs_steady ((siteFailed_of_calm hport hi).trans hfailed)
  exact (steady_of_calm hport).trans (hregs.trans (steady_of_calm (fwLog_calm .refl)))

theorem siteReset_steady {i : Nat} (hi : i < 16) (cause : Nat) (s : State) : Steady s (siteReset i cause s) := by
  by_cases h : siteFailed s i = true ∨ weirServes s = false
  · rw [siteReset_of_stays h]; exact steady_of_calm .refl
  · simp only [not_or, Bool.not_eq_true, Bool.not_eq_false] at h
    rw [siteReset_of_working h.1 h.2]
    have hcross := resetCrossings_calm i [.tarnPond, .pondTile, .bundle, .portTile] (beginSiteReset i cause s)
    exact (beginSiteReset_steady hi cause s).trans ((steady_of_calm hcross).trans (endSiteReset_steady hi cause
      ((siteFailed_of_calm hcross hi).trans (siteFailed_beginSiteReset hi cause s))))

theorem siteFailed_siteReset {i : Nat} (hi : i < 16) (cause : Nat) (hserves : weirServes s = true) :
    siteFailed (siteReset i cause s) i = true := by
  by_cases h : siteFailed s i = true
  · rw [siteReset_of_stays (.inl h), h]
  · rw [siteReset_of_working (by simpa using h) hserves]
    have hcross := resetCrossings_calm i [.tarnPond, .pondTile, .bundle, .portTile] (beginSiteReset i cause s)
    have hfailed := (siteFailed_of_calm hcross hi).trans (siteFailed_beginSiteReset hi cause s)
    exact (endSiteReset_steady hi cause hfailed).failed i hi hfailed

theorem holdSites_steady (s : State) (cause : State → Nat → Nat) : Steady s (holdSites s cause) := by
  refine foldl_steady (fun t i hi => ?_) s
  split
  · exact steady_of_calm .refl
  · exact siteReset_steady (List.mem_range.1 hi) _ t

/-- A site for which a cause stands, until it has failed, fails. -/
theorem siteFailed_holdSites {cause : State → Nat → Nat} {i : Nat} (hi : i < 16) (hserves : weirServes s = true)
    (hcause : ∀ t, Steady s t → siteFailed t i = false → cause t i ≠ 0) : siteFailed (holdSites s cause) i = true := by
  have hstep (t : State) (j : Nat) (hj : j < 16) : Steady t (if siteFailed t j || cause t j == 0 then t
      else siteReset j (cause t j) t) := by
    split
    · exact steady_of_calm .refl
    · exact siteReset_steady hj _ t
  have hfold : ∀ (l : List Nat) (t : State), (∀ j ∈ l, j < 16) → Steady s t → i ∈ l → siteFailed (l.foldl (fun s i =>
      if siteFailed s i || cause s i == 0 then s else siteReset i (cause s i) s) t) i = true := by
    intro l
    induction l with
    | nil => intro t _ _ h; cases h
    | cons j l ih =>
      intro t hl ht h
      have hlt := hl j (List.mem_cons_self ..)
      have hl' : ∀ k ∈ l, k < 16 := fun k hk => hl k (List.mem_cons_of_mem j hk)
      by_cases hij : i = j
      · subst hij
        have hrest := foldl_steady (l := l) (fun t k hk => hstep t k (hl' k hk))
          (if siteFailed t i || cause t i == 0 then t else siteReset i (cause t i) t)
        refine hrest.failed i hi ?_
        cases hf : siteFailed t i with
        | true => rw [if_pos (by simp), hf]
        | false =>
          rw [if_neg (by simp [hcause t ht hf])]
          exact siteFailed_siteReset hi _ (ht.serves.trans hserves)
      · exact ih _ hl' (ht.trans (hstep t j hlt)) ((List.mem_cons.1 h).resolve_left hij)
  exact hfold (List.range 16) s (fun j hj => List.mem_range.1 hj) (steady_of_calm .refl) (List.mem_range.2 hi)

/-- GLOBAL_STAT shows another stage. -/
theorem stage_putStage (s : State) {n : Nat} (hn : n < 16) : stage (putField s Reg.globalStat 3 0 n) = n := by
  rw [stage, field_putField _ _ _ _ _ (by decide)]
  exact Nat.mod_eq_of_lt hn

theorem regBit_putStage (s : State) (n off : Nat) {j : Nat} (h : off ≠ Reg.globalStat ∨ 3 < j) :
    regBit (putField s Reg.globalStat 3 0 n) off j = regBit s off j := by
  by_cases he : off = Reg.globalStat
  · subst he
    have hj := h.resolve_left (by simp)
    rw [regBit, putField, reg_putReg_self, bit_setBits_other _ _ _ _ _ (by decide) (.inr hj), regBit]
  · rw [regBit, reg_putField_other _ _ _ _ _ _ he, regBit]

theorem siteStat_ne_globalStat (i : Nat) : Reg.siteStat i ≠ Reg.globalStat := by unfold Reg.siteStat Reg.globalStat; omega
theorem memCfg_ne_globalStat (i : Nat) : Reg.memCfg i ≠ Reg.globalStat := by unfold Reg.memCfg Reg.globalStat; omega

theorem siteFailed_putStage (s : State) (n i : Nat) : siteFailed (putField s Reg.globalStat 3 0 n) i = siteFailed s i :=
  regBit_putStage s n _ (.inl (siteStat_ne_globalStat i))

theorem startFailed_putStage (s : State) (n : Nat) : startFailed (putField s Reg.globalStat 3 0 n) = startFailed s :=
  regBit_putStage s n _ (.inr (by decide))

theorem stage_enterStage6 (s : State) : stage (enterStage6 s) = 6 := by
  rw [enterStage6_eq, stage_of_calm (rampCores_calm .refl), stage_putStage _ (by decide)]

theorem siteFailed_enterStage6 {i : Nat} (hi : i < 16) (h : siteFailed s i = true) : siteFailed (enterStage6 s) i = true := by
  rw [enterStage6_eq, siteFailed_of_calm (rampCores_calm .refl) hi, siteFailed_putStage]
  exact (holdSites_steady s holdCause).failed i hi h

end

/-! PROOFS. The family 02_time_and_clocks: stages 1 to 4 of a start (R59, R604, R605). -/

/-! ### The boot of a Weir (R604) -/

section
variable {s u : State} {w : Weir} {g0 g1 good : Bool}

/-- The state in which WEIR_BOOT finds stage 2: the first domains that still ramp are ready. -/
def firstReady (s : State) : State := if stage s = 1 ∨ stage s = 2 then advanceStart (settleDomains s (firstDomains s)) else s

theorem weirBoot_eq (w : Weir) (g0 g1 good : Bool) (s : State) :
    weirBoot w g0 g1 good s =
      if stage (firstReady s) != 2 || startFailed (firstReady s) || (firstReady s).weir.running ||
          w != (firstReady s).weir.active ||
          !domOn (firstReady s) (domWeir w) then firstReady s
      else match bootFrom (if w = .a then (firstReady s).weir.slotA else (firstReady s).weir.slotB) g0 g1 with
        | none => bootFailed (firstReady s) w
        | some k => bootDone (firstReady s) w k good := by
  have hready : (if stage s == 1 || stage s == 2 then advanceStart (settleDomains s (firstDomains s)) else s) = firstReady s :=
    if_congr (by simp) rfl rfl
  unfold weirBoot
  rw [hready]
  cases w <;> rfl

theorem weirBoot_stays (hu : u = firstReady s)
    (h : stage u ≠ 2 ∨ startFailed u = true ∨ u.weir.running = true ∨ w ≠ u.weir.active ∨ domState u (domWeir w) ≠ 2) :
    weirBoot w g0 g1 good s = u := by
  subst hu
  rw [weirBoot_eq, if_pos]
  simp only [domOn, Bool.or_eq_true, bne_iff_ne, Bool.not_eq_true', beq_eq_false_iff_ne]
  tauto

theorem weirBoot_runs {slot : Nat} (hu : u = firstReady s) (hstage : stage u = 2) (hfailed : startFailed u = false)
    (hrun : u.weir.running = false) (hw : w = u.weir.active) (hon : domState u (domWeir w) = 2)
    (hslot : slot = if w = .a then u.weir.slotA else u.weir.slotB) :
    weirBoot w g0 g1 good s = match bootFrom slot g0 g1 with
      | none => bootFailed u w
      | some k => bootDone u w k good := by
  rw [weirBoot_eq, ← hu, if_neg (by simp [hstage, hfailed, hrun, ← hw, domOn, hon]), hslot]

end

/-! ### A Weir that cannot boot -/

section
variable {s : State} {w : Weir}

/-- The Weir whose slots both fail is marked, reported and switched off. -/
def weirDown (s : State) (w : Weir) : State := offDomain (raiseWeir (markWeir s w) 4 w) (domWeir w)

theorem weirDown_weir (s : State) (w : Weir) : (weirDown s w).weir = match w with
    | .a => { s.weir with failedA := true }
    | .b => { s.weir with failedB := true } := by cases w <;> rfl

theorem domWeir_lt (w : Weir) : domWeir w < 166 := by cases w <;> decide

theorem showWeir_calm {s0 : State} (h : Calm s0 s) : Calm s0 (showWeir s) :=
  putField_calm (by simp) (putBit_calm (by simp) (putField_calm (by simp) h))

theorem weirDown_calm (s : State) (w : Weir) : Calm s (weirDown s w) := by
  have hmark : Calm s (markWeir s w) := showWeir_calm ⟨by cases w <;> rfl, fun _ _ _ _ => rfl, fun _ hc => hc⟩
  exact offDomain_calm (raise_calm hmark) (domWeir_lt w)

theorem domState_weirDown (s : State) (w : Weir) : domState (weirDown s w) (domWeir w) = 0 := by
  rw [domState, field, weirDown, offDomain, reg_putReg_self]; rfl

/-- The other Weir starts in the place of the one that failed. -/
def otherStarts (w : Weir) (s : State) : State :=
  rampDomain (showWeir { s with weir := { s.weir with active := otherWeir w } }) (domWeir (otherWeir w))
    (railMv (domWeir (otherWeir w)))

theorem bootFailed_eq (s : State) (w : Weir) :
    bootFailed s w = if weirFailed (weirDown s w) (otherWeir w) then holdStart (weirDown s w)
      else otherStarts w (weirDown s w) := rfl

theorem otherStarts_weir (w : Weir) (s : State) : (otherStarts w s).weir = { s.weir with active := otherWeir w } :=
  ((rampDomain_only (m := 0x2) _ _ .refl ⟨rfl⟩).out .weir rfl).symm

theorem otherStarts_calm (w : Weir) (s : State) : Calm s (otherStarts w s) :=
  rampDomain_calm (showWeir_calm ⟨rfl, fun _ _ _ _ => rfl, fun _ hc => hc⟩) (domWeir_lt _)

theorem powerDomain_ne_faultWeir (d : Nat) (h : d < 166) : Reg.powerDomain d ≠ Reg.faultWeir := by
  unfold Reg.powerDomain Reg.faultWeir; omega

theorem domState_otherStarts (w : Weir) (s : State) : domState (otherStarts w s) (domWeir w) = domState s (domWeir w) := by
  rw [otherStarts, domState_rampDomain_other _ _ (by cases w <;> decide), domState, field,
    reg_showWeir_other _ (powerDomain_ne_faultWeir _ (domWeir_lt w))]
  rfl

theorem weirFailed_otherStarts (w v : Weir) (s : State) : weirFailed (otherStarts w s) v = weirFailed s v := by
  unfold weirFailed
  rw [otherStarts_weir]

theorem weirFailed_weirDown_other (s : State) (w : Weir) :
    weirFailed (weirDown s w) (otherWeir w) = weirFailed s (otherWeir w) := by
  cases w <;> rfl

theorem weirFailed_weirDown_self (s : State) (w : Weir) : weirFailed (weirDown s w) w = true := by
  cases w <;> rfl

theorem running_weirDown (s : State) (w : Weir) : (weirDown s w).weir.running = s.weir.running := by
  rw [weirDown_weir]
  cases w <;> rfl

theorem regBit_holdStart_other (s : State) {off i : Nat} (h : off ≠ Reg.globalStat ∨ i ≠ 7) :
    regBit (holdStart s) off i = regBit s off i := by
  rw [holdStart, regBit_putBit, if_neg (by tauto)]

theorem startFailed_holdStart (s : State) : startFailed (holdStart s) = true := regBit_putBit_self _ _ _ _

theorem stage_holdStart (s : State) : stage (holdStart s) = stage s :=
  field_of_bits fun j _ hj => regBit_holdStart_other s (.inr (by omega))

theorem domState_holdStart (s : State) {d : Nat} : domState (holdStart s) d = domState s d :=
  field_of_bits fun j _ _ => regBit_holdStart_other s (.inl (by unfold Reg.powerDomain Reg.globalStat; omega))

/-- With no good slot the Weir is marked and switched off, and the other starts where it can. -/
theorem bootFailed_spec (hstage : stage s = 2) (hfailed : startFailed s = false) (hrun : s.weir.running = false) :
    weirFailed (bootFailed s w) w = true ∧ stage (bootFailed s w) = 2 ∧ (bootFailed s w).weir.running = false ∧
      domState (bootFailed s w) (domWeir w) = 0 ∧ (weirFailed s (otherWeir w) = true → startFailed (bootFailed s w) = true) ∧
      (weirFailed s (otherWeir w) = false → startFailed (bootFailed s w) = false ∧ (bootFailed s w).weir.active = otherWeir w) := by
  have hdown := weirDown_calm s w
  rw [bootFailed_eq, weirFailed_weirDown_other]
  cases hother : weirFailed s (otherWeir w) with
  | true =>
    rw [if_pos rfl]
    exact ⟨weirFailed_weirDown_self s w, by rw [stage_holdStart, stage_of_calm hdown, hstage], (running_weirDown s w).trans hrun,
      (domState_holdStart _).trans (domState_weirDown s w), fun _ => startFailed_holdStart _, (nomatch ·)⟩
  | false =>
    have hstart := otherStarts_calm w (weirDown s w)
    rw [if_neg Bool.false_ne_true]
    refine ⟨?_, ?_, ?_, ?_, (nomatch ·), fun _ => ⟨?_, ?_⟩⟩
    · rw [weirFailed_otherStarts, weirFailed_weirDown_self]
    · rw [stage_of_calm hstart, stage_of_calm hdown, hstage]
    · rw [otherStarts_weir]; exact (running_weirDown s w).trans hrun
    · rw [domState_otherStarts, domState_weirDown]
    · rw [startFailed_of_calm hstart, startFailed_of_calm hdown, hfailed]
    · rw [otherStarts_weir]

end

/-! ### A Weir that runs (R605, R653, R656) -/

section
variable {s : State}

/-- The Weir runs from a slot, the GA straps are sampled, and the firmware is shown. -/
def bootBegin (k : Nat) (s : State) : State :=
  let s := { s with weir := { s.weir with running := true, runSlot := k },
                    maint := { s.maint with smbAddr := some (0x60 + Config.gaPins.toNat) } }
  let s := putReg s Reg.globalFw (3 * 2 ^ 24 + 2 * 2 ^ 16 + Config.fwPatch.toNat * 2 ^ 8)
  putField s Reg.faultWeir 23 8 s.weir.switchovers

/-- The record is in force, and what the island recorded is logged. -/
def bootLogged (w : Weir) (k : Nat) (good : Bool) (s : State) : State := logIsland (loadRecord (bootBegin k s) w good)

/-- Stage 3 begins, with the CLOCK block enabled. -/
def bootStage (s : State) : State := putBit (putField s Reg.globalStat 3 0 3) Reg.clockCtrl 0 true

theorem bootDone_eq (s : State) (w : Weir) (k : Nat) (good : Bool) :
    bootDone s w k good = selectRefs (rampAll (bootStage (bootLogged w k good s)) tiles) := rfl

theorem lt_of_mem_tiles {d : Nat} (h : d ∈ tiles) : 154 ≤ d ∧ d < 163 := by
  simp only [tiles, List.mem_map, List.mem_range, domTile] at h
  omega

theorem bootDone_calm (s : State) (w : Weir) (k : Nat) (good : Bool) :
    Calm (bootStage (bootLogged w k good s)) (bootDone s w k good) :=
  selectRefs_calm (rampAll_calm .refl fun _ hd => by have := lt_of_mem_tiles hd; omega)

theorem bootDone_keeps (s : State) (w : Weir) (k : Nat) (good : Bool) :
    Only 0x2002 (bootLogged w k good s) (bootDone s w k good) :=
  selectRefs_only (rampAll_only _ (putBit_only _ _ _ (putField_only _ _ _ _ .refl ⟨rfl⟩) ⟨rfl⟩) ⟨rfl⟩) ⟨rfl⟩

theorem bootLogged_only (w : Weir) (k : Nat) (good : Bool) (s : State) :
    Only 0x3000400A022 (bootBegin k s) (bootLogged w k good s) :=
  logIsland_only (loadRecord_only w good .refl ⟨rfl⟩) ⟨rfl⟩

theorem bootLogged_weir (w : Weir) (k : Nat) (good : Bool) (s : State) :
    (bootLogged w k good s).weir = { s.weir with running := true, runSlot := k } :=
  ((bootLogged_only w k good s).out .weir rfl).symm

theorem bootLogged_maint (w : Weir) (k : Nat) (good : Bool) (s : State) :
    (bootLogged w k good s).maint = { s.maint with smbAddr := some (0x60 + Config.gaPins.toNat) } :=
  ((bootLogged_only w k good s).out .maint rfl).symm

theorem fwLog_record (s : State) (cls code unit part d0 d1 : Nat) : (fwLog s cls code unit part d0 d1).record = s.record :=
  ((fwLog_only (m := 0x8002) _ _ _ _ _ _ .refl ⟨rfl⟩).out .record rfl).symm

/-- A record that fails its check is replaced, and that is logged. -/
def checkRecord (s : State) (w : Weir) (good : Bool) : State :=
  if good then s else fwLog { s with record := .reset } 15 1 (unitNo 0x10 (weirNo w)) 0xFF 0 0

/-- The record is in force, but for the module's coordinate. -/
def takeRecord (s : State) : State :=
  let s := { s with clock := { s.clock with refaMode := s.record.refaMode, trimmed := true },
                    fabric := { s.fabric with hold := s.record.hold } }
  putBit s Reg.clockRefcfg 0 s.record.refaMode

theorem loadRecord_eq (s : State) (w : Weir) (good : Bool) : loadRecord s w good =
    match (takeRecord (checkRecord s w good)).record.coord with
    | some c => putReg (takeRecord (checkRecord s w good)) Reg.fabricCoord (3 * 2 ^ 30 + c % 2 ^ 24)
    | none => takeRecord (checkRecord s w good) := rfl

theorem checkRecord_record (s : State) (w : Weir) (good : Bool) :
    (checkRecord s w good).record = if good then s.record else .reset := by
  cases good
  · exact fwLog_record _ _ _ _ _ _ _
  · rfl

theorem loadRecord_record (s : State) (w : Weir) (good : Bool) :
    (loadRecord s w good).record = if good then s.record else .reset := by
  rw [loadRecord_eq, ← checkRecord_record s w good]
  split <;> rfl

theorem bootLogged_record (w : Weir) (k : Nat) (good : Bool) (s : State) :
    (bootLogged w k good s).record = if good then s.record else .reset := by
  have hlog : (bootLogged w k good s).record = (loadRecord (bootBegin k s) w good).record :=
    ((logIsland_only (m := 0x20000008022) .refl ⟨rfl⟩).out .record rfl).symm
  have hbegin : (bootBegin k s).record = s.record := by
    rw [bootBegin, putField_record, putReg_record]
  rw [hlog, loadRecord_record, hbegin]

theorem bootLogged_island (w : Weir) (k : Nat) (good : Bool) (s : State) :
    (bootLogged w k good s).island.outages = [] ∧ (bootLogged w k good s).island.lost = false := ⟨rfl, rfl⟩

/-! The firmware's version, which the boot shows, is shown by nothing else. -/

theorem reg_appendLog_of_lt (s : State) (r : LogRec) {off : Nat} (h : off < 0x50_0000) : reg (appendLog s r) off = reg s off := by
  have hne {x : Nat} (hx : 0x50_0000 ≤ x) : off ≠ x := by omega
  unfold appendLog
  extract_lets n old full u log v w
  have hu : reg u off = reg s off := by
    simp only [u]
    split
    · exact reg_putReg_other _ _ _ _ (hne (by decide))
    · rfl
  rw [reg_putReg_other _ _ _ _ (hne (by decide)), reg_putReg_other _ _ _ _ (hne (by decide))]
  exact hu

theorem reg_fwLog_of_lt (s : State) (cls code unit part d0 d1 : Nat) {off : Nat} (h : off < 0x50_0000) :
    reg (fwLog s cls code unit part d0 d1) off = reg s off := by
  unfold fwLog fwLogSev
  split
  · exact reg_appendLog_of_lt s _ h
  · rfl

theorem reg_logOutages_of_lt {off : Nat} (h : off < 0x50_0000) : ∀ (l : List Nat) (s : State), reg (logOutages l s) off = reg s off
  | [], _ => rfl
  | [_], s => reg_fwLog_of_lt s _ _ _ _ _ _ h
  | _ :: _ :: l, s => (reg_logOutages_of_lt h l _).trans (reg_fwLog_of_lt s _ _ _ _ _ _ h)

theorem reg_takeRecord_other (s : State) {off : Nat} (h : off ≠ Reg.clockRefcfg) : reg (takeRecord s) off = reg s off :=
  reg_putBit_other _ _ _ _ _ h

theorem reg_checkRecord_of_lt (s : State) (w : Weir) (good : Bool) {off : Nat} (h : off < 0x50_0000) :
    reg (checkRecord s w good) off = reg s off := by
  cases good
  · exact reg_fwLog_of_lt _ _ _ _ _ _ _ h
  · rfl

theorem reg_loadRecord_of_lt (s : State) (w : Weir) (good : Bool) {off : Nat} (h : off < 0x20_0000) :
    reg (loadRecord s w good) off = reg s off := by
  have htake : reg (takeRecord (checkRecord s w good)) off = reg s off := by
    rw [reg_takeRecord_other _ (by unfold Reg.clockRefcfg; omega), reg_checkRecord_of_lt s w good (by omega)]
  rw [loadRecord_eq, ← htake]
  split
  · exact reg_putReg_other _ _ _ _ (by unfold Reg.fabricCoord; omega)
  · rfl

theorem reg_logIsland_of_lt (s : State) {off : Nat} (h : off < 0x50_0000) : reg (logIsland s) off = reg s off := by
  have hflag {c : Prop} [Decidable c] (t : State) {x i : Nat} (hx : 0x50_0000 ≤ x) :
      reg (if c then raiseFlag t x i else t) off = reg t off := by
    split
    · exact reg_raiseFlag_other _ _ _ _ (by omega)
    · rfl
  unfold logIsland
  extract_lets a b c d
  have htrip : reg b off = reg s off := by
    rw [← reg_logOutages_of_lt h s.island.outages s]
    simp only [b]
    split
    · exact reg_fwLog_of_lt _ _ _ _ _ _ _ h
    · rfl
  have hlost : reg c off = reg b off := hflag b (by decide)
  have hegress : reg d off = reg c off := hflag c (by decide)
  exact hegress.trans (hlost.trans htrip)

theorem reg_lockPlls_other (s : State) (ref : Nat → Nat) {off : Nat} (h : off ≠ Reg.clockPllstat) :
    reg (lockPlls s ref) off = reg s off :=
  List.foldlRecOn (motive := fun t => reg t off = reg s off) _ _ rfl fun _ ht _ _ => (reg_putBit_other _ _ _ _ _ h).trans ht

theorem reg_selectRefs_other (s : State) {off : Nat} (h : off ≠ Reg.clockPllstat) : reg (selectRefs s) off = reg s off := by
  unfold selectRefs
  split
  · exact reg_lockPlls_other s _ h
  · rfl

theorem reg_bootDone_globalFw (s : State) (w : Weir) (k : Nat) (good : Bool) :
    reg (bootDone s w k good) Reg.globalFw = 3 * 2 ^ 24 + 2 * 2 ^ 16 + Config.fwPatch.toNat * 2 ^ 8 := by
  rw [bootDone_eq, reg_selectRefs_other _ (by decide), reg_rampAll_other _ _ fun d hd => by
    unfold Reg.globalFw Reg.powerDomain; omega]
  rw [bootStage, reg_putBit_other _ _ _ _ _ (by decide), reg_putField_other _ _ _ _ _ _ (by decide), bootLogged,
    reg_logIsland_of_lt _ (by decide), reg_loadRecord_of_lt _ _ _ (by decide), bootBegin,
    reg_putField_other _ _ _ _ _ _ (by decide), reg_putReg_self]

/-- A Weir that has booted runs, and begins stage 3. -/
theorem bootDone_spec (s : State) (w : Weir) (k : Nat) (good : Bool) :
    (bootDone s w k good).weir.running = true ∧ (bootDone s w k good).weir.runSlot = k ∧ stage (bootDone s w k good) = 3 ∧
      regBit (bootDone s w k good) Reg.clockCtrl 0 = true ∧ (bootDone s w k good).island.outages = [] ∧
      (bootDone s w k good).island.lost = false ∧ (bootDone s w k good).record = (if good then s.record else .reset) ∧
      (bootDone s w k good).maint.smbAddr = some (0x60 + Config.gaPins.toNat) ∧
      reg (bootDone s w k good) Reg.globalFw = 3 * 2 ^ 24 + 2 * 2 ^ 16 + Config.fwPatch.toNat * 2 ^ 8 := by
  have hkeeps := bootDone_keeps s w k good
  have hweir : (bootDone s w k good).weir = _ := (hkeeps.out .weir rfl).symm.trans (bootLogged_weir w k good s)
  have hisland : (bootDone s w k good).island = _ := (hkeeps.out .island rfl).symm
  have hmaint : (bootDone s w k good).maint = _ := (hkeeps.out .maint rfl).symm.trans (bootLogged_maint w k good s)
  have hcalm := bootDone_calm s w k good
  refine ⟨by rw [hweir], by rw [hweir], ?_, ?_, ?_, ?_, (hkeeps.out .record rfl).symm.trans (bootLogged_record w k good s),
    by rw [hmaint], reg_bootDone_globalFw s w k good⟩
  · rw [stage_of_calm hcalm, bootStage, stage, field_of_bits (s := putField (bootLogged w k good s) Reg.globalStat 3 0 3)
      (fun j _ _ => by rw [regBit_putBit, if_neg (by simp [Reg.globalStat, Reg.clockCtrl])])]
    exact stage_putStage _ (by decide)
  · rw [hcalm.bits _ pillar_clockCtrl 0 (by decide), bootStage, regBit_putBit_self]
  · rw [hisland]; exact (bootLogged_island w k good s).1
  · rw [hisland]; exact (bootLogged_island w k good s).2

end

/-! ### The references (R605) -/

section
variable {s : State}

theorem inStage_test (s : State) (n : Nat) : (stage s != n || startFailed s || !weirServes s) = true ↔ ¬ InStage s n := by
  simp only [InStage, Bool.or_eq_true, bne_iff_ne, Bool.not_eq_true']
  cases startFailed s <;> cases weirServes s <;> simp

theorem failStart_spec (s : State) (cls code unit : Nat) :
    startFailed (failStart s cls code unit) = true ∧ stage (failStart s cls code unit) = stage s := by
  have hcalm : Calm (holdStart s) (failStart s cls code unit) := fwLogSev_calm .refl
  exact ⟨(startFailed_of_calm hcalm).trans (startFailed_holdStart s), (stage_of_calm hcalm).trans (stage_holdStart s)⟩

theorem settleTiles_calm (s : State) : Calm s (settleDomains s tiles) :=
  settleDomains_calm .refl fun _ hd => by have := lt_of_mem_tiles hd; omega

theorem lockPlls_spec (s : State) (ref : Nat → Nat) {p : Nat} (hp : p < 10) :
    regBit (lockPlls s ref) Reg.clockPllstat (16 + p) = true ∧ tget 0 (lockPlls s ref).clock.pllRef p = ref p := by
  have hfold : ∀ (l : List Nat) (t : State), (p ∈ l ∨ regBit t Reg.clockPllstat (16 + p) = true ∧ tget 0 t.clock.pllRef p = ref p) →
      regBit (l.foldl (fun s p => putBit { s with clock := { s.clock with pllRef := tput 0 s.clock.pllRef p (ref p) } }
        Reg.clockPllstat (16 + p) true) t) Reg.clockPllstat (16 + p) = true ∧
      tget 0 (l.foldl (fun s p => putBit { s with clock := { s.clock with pllRef := tput 0 s.clock.pllRef p (ref p) } }
        Reg.clockPllstat (16 + p) true) t).clock.pllRef p = ref p := by
    intro l
    induction l with
    | nil => exact fun t h => h.resolve_left List.not_mem_nil
    | cons q l ih =>
      intro t h
      refine ih _ ?_
      by_cases hq : p = q
      · subst hq
        exact .inr ⟨regBit_putBit_self _ _ _ _, tget_tput_self _ _ _ _⟩
      · refine (List.mem_cons.1 |> h.imp_left).imp (fun h => h.resolve_left hq) fun ⟨hbit, href⟩ => ⟨?_, ?_⟩
        · rw [regBit_putBit, if_neg (by omega)]; exact hbit
        · exact (tget_tput_other _ _ _ _ _ hq).trans href
  exact hfold (List.range 10) s (.inl (List.mem_range.2 hp))

theorem mem_ports {d : Nat} (h : d ∈ (List.range 16).map domPort ++ (List.range 16).map domOutlet) : 112 ≤ d ∧ d < 144 := by
  simp only [List.mem_append, List.mem_map, List.mem_range, domPort, domOutlet] at h
  obtain ⟨i, hi, rfl⟩ | ⟨i, hi, rfl⟩ := h <;> omega

theorem advanceStart_of_stage_three (h : stage s = 3) : advanceStart s = endStage3 s := by
  have hend : stage (endStage3 s) = 3 ∨ stage (endStage3 s) = 4 := by
    unfold endStage3
    split
    · exact .inr ((stage_of_calm (rampAll_calm .refl fun _ hd => by have := mem_ports hd; omega)).trans
        (stage_putStage _ (by decide)))
    · exact .inl h
  have hfirst : (if stage s == 1 && (firstDomains s).all (domOn s) then putField s Reg.globalStat 3 0 2 else s) = s :=
    if_neg (by simp [h])
  have hfive : endStage5 (endStage3 s) = endStage3 s := if_neg (by rcases hend with h | h <;> simp [h])
  have height : endStage8 (endStage3 s) = endStage3 s := if_neg (by rcases hend with h | h <;> simp [h])
  rw [advanceStart, hfirst, hfive, height]

theorem startFailed_endStage3 (s : State) : startFailed (endStage3 s) = startFailed s := by
  unfold endStage3
  split
  · rw [startFailed_of_calm (rampAll_calm .refl fun _ hd => by have := mem_ports hd; omega), startFailed_putStage]
  · rfl

theorem reg_endStage3_pllstat (s : State) : reg (endStage3 s) Reg.clockPllstat = reg s Reg.clockPllstat := by
  unfold endStage3
  split
  · rw [reg_rampAll_other _ _ fun d _ => by unfold Reg.clockPllstat Reg.powerDomain; omega,
      reg_putField_other _ _ _ _ _ _ (by decide)]
  · rfl

theorem endStage3_clock (s : State) : (endStage3 s).clock = s.clock :=
  ((endStage3_only (m := 0x2) .refl ⟨rfl⟩).out .clock rfl).symm

/-- The PLLs that have locked stay so through the end of stage 3. -/
theorem locked_advanceStart {v x : State} {ref : Nat → Nat} (hv : InStage v 3) (hx : Calm v x)
    (hpll : reg x Reg.clockPllstat = reg (lockPlls v ref) Reg.clockPllstat) (hclock : x.clock = (lockPlls v ref).clock) :
    startFailed (advanceStart x) = false ∧ ∀ p, p < 10 → regBit (advanceStart x) Reg.clockPllstat (16 + p) = true ∧
      tget 0 (advanceStart x).clock.pllRef p = ref p := by
  obtain ⟨hstage, hfailed, -⟩ := inStage_of_calm hx hv
  rw [advanceStart_of_stage_three hstage]
  refine ⟨(startFailed_endStage3 x).trans hfailed, fun p hp => ?_⟩
  rw [regBit, reg_endStage3_pllstat, hpll, ← regBit, endStage3_clock, hclock]
  exact lockPlls_spec v ref hp

theorem refSelectTimeout_stays (l : Bool) (h : ¬ InStage s 3) : refSelectTimeout l s = s := if_pos ((inStage_test s 3).2 h)

theorem refSelectTimeout_runs {l a b : Bool} (h : InStage s 3) (ha : a = regBit s Reg.clockRefstat 2)
    (hb : b = regBit s Reg.clockRefstat 3) : refSelectTimeout l s =
      if !a && !b then failStart (settleDomains s tiles) 2 1 (unitNo 0x0F 0)
      else if !l then failStart (settleDomains s tiles) 2 2 (unitNo 0x0F 16)
      else if a && b then advanceStart (lockPlls (settleDomains s tiles) ownRef)
      else advanceStart (fwLog (lockPlls (settleDomains s tiles) fun _ => if a then 0 else 1) 2 1
        (unitNo 0x0F (1 - if a then 0 else 1)) 0xFF 0 0) := by
  have hrefs := fun i hi => (settleTiles_calm s).bits _ pillar_clockRefstat i hi
  rw [refSelectTimeout, if_neg fun hn => (inStage_test s 3).1 hn h]
  simp only [hrefs 2 (by decide), hrefs 3 (by decide), ← ha, ← hb]

/-- Stage 3 has lasted 10 ms: the PLLs lock to what is good, or the start holds. -/
theorem refSelectTimeout_spec {l a b : Bool} (h : InStage s 3) (ha : a = regBit s Reg.clockRefstat 2)
    (hb : b = regBit s Reg.clockRefstat 3) :
    (a = false → b = false → startFailed (refSelectTimeout l s) = true ∧ stage (refSelectTimeout l s) = 3) ∧
    ((a || b) = true → l = false → startFailed (refSelectTimeout l s) = true ∧ stage (refSelectTimeout l s) = 3) ∧
    ((a || b) = true → l = true → startFailed (refSelectTimeout l s) = false ∧
      ∀ p, p < 10 → regBit (refSelectTimeout l s) Reg.clockPllstat (16 + p) = true ∧
        tget 0 (refSelectTimeout l s).clock.pllRef p = if a && b then (if p = 9 then 1 else 0) else if a then 0 else 1) := by
  have hin := inStage_of_calm (settleTiles_calm s) h
  have hheld (code unit : Nat) : startFailed (failStart (settleDomains s tiles) 2 code unit) = true ∧
      stage (failStart (settleDomains s tiles) 2 code unit) = 3 := by
    have hspec := failStart_spec (settleDomains s tiles) 2 code unit
    exact ⟨hspec.1, hspec.2.trans hin.1⟩
  rw [refSelectTimeout_runs h ha hb]
  refine ⟨?_, ?_, ?_⟩
  · rintro rfl rfl
    exact hheld 1 _
  · rintro hgood rfl
    cases a <;> cases b
    · exact absurd hgood Bool.false_ne_true
    all_goals exact hheld 2 _
  · rintro hgood rfl
    have hone (r : Nat) := locked_advanceStart (x := fwLog (lockPlls (settleDomains s tiles) fun _ => r) 2 1
      (unitNo 0x0F (1 - r)) 0xFF 0 0)
      hin (fwLog_calm (lockPlls_calm .refl)) (reg_fwLog_of_lt _ _ _ _ _ _ _ (by decide))
      ((fwLog_only (m := 0x8002) _ _ _ _ _ _ .refl ⟨rfl⟩).out .clock rfl).symm
    cases a <;> cases b
    · exact absurd hgood Bool.false_ne_true
    · exact hone 1
    · exact hone 0
    · have hboth := locked_advanceStart (x := lockPlls (settleDomains s tiles) ownRef) hin (lockPlls_calm .refl) rfl rfl
      rw [if_neg (by decide), if_neg (by decide), if_pos (by decide)]
      exact ⟨hboth.1, fun p hp => ⟨(hboth.2 p hp).1, (hboth.2 p hp).2.trans (by simp [ownRef])⟩⟩

end

/-! PROOFS. The family 02_time_and_clocks: the alignment of the tiles and the training of a site's memories (R607, R608). -/

/-! ### The alignment of the tiles (R607) -/

section
variable {s u : State} {f : BitVec 9} {ds : List Nat}

theorem maskList_isEmpty_of_zero (h : f = 0) : (maskList f.toNat 9).isEmpty = true := by
  subst h
  simp [maskList, bit_testBit]

theorem exists_mem_maskList (h : f ≠ 0) : ∃ k l, maskList f.toNat 9 = k :: l := by
  cases hl : maskList f.toNat 9 with
  | cons k l => exact ⟨k, l, rfl⟩
  | nil =>
    refine absurd (BitVec.eq_of_getLsbD_eq fun i hi => ?_) h
    have hbit := List.filter_eq_nil_iff.1 hl i (List.mem_range.2 hi)
    simpa [bit_testBit, BitVec.getLsbD] using hbit

/-- Each tile that does not align is reported. -/
def reportTiles (l : List Nat) (s : State) : State := l.foldl (fun s t => raise s 2 4 (unitNo 0x0E t) 0xFF 0 0 (srcTile t)) s

theorem reportTiles_only (l : List Nat) (s : State) : Only 0x8000 s (reportTiles l s) :=
  onlyFold .refl fun _ ht _ => raise_only _ _ _ _ _ _ _ ht ⟨rfl⟩

theorem inTransit_reportTiles {r : Report} (l : List Nat) (h : r ∈ s.faults.inTransit) : r ∈ (reportTiles l s).faults.inTransit :=
  List.foldlRecOn l _ (motive := fun t : State => r ∈ t.faults.inTransit) h fun _ ht _ _ => List.mem_append_left _ ht

theorem report_of_reportTiles (k : Nat) (l : List Nat) (s : State) :
    ∃ r : Report, r ∈ (reportTiles (k :: l) s).faults.inTransit ∧ r.cls = 2 ∧ r.code = 4 :=
  ⟨_, inTransit_reportTiles l (List.mem_append_right _ (List.mem_singleton_self _)), rfl, rfl⟩

theorem mem_ports_lt {d : Nat} (h : d ∈ (List.range 16).map domPort ++ (List.range 16).map domOutlet) : d < 166 := by
  have := mem_ports h; omega

/-- Basin time begins and stage 5 with it. -/
def alignedStart (ds : List Nat) (s : State) : State :=
  enterStage5 (settleDomains (loadTime s ds) ((List.range 16).map domPort ++ (List.range 16).map domOutlet))

theorem tileAlignment_stays (h : ¬ (InStage s 3 ∨ InStage s 4) ∨ s.time.running = true) : tileAlignment f ds s = s := by
  refine if_pos ?_
  simp only [InStage] at h
  cases hfailed : startFailed s <;> cases hserves : weirServes s <;> cases hrun : s.time.running <;> simp_all

theorem tileAlignment_runs (h : InStage s 3 ∨ InStage s 4) (hrun : s.time.running = false)
    (hu : u = advanceStart (settleDomains s tiles)) : tileAlignment f ds s =
      if stage u != 4 then u else if !(maskList f.toNat 9).isEmpty then reportTiles (maskList f.toNat 9) (holdStart u)
      else alignedStart ds u := by
  subst hu
  refine if_neg ?_
  obtain ⟨hstage, hfailed, hserves⟩ | ⟨hstage, hfailed, hserves⟩ := h <;> simp [hstage, hfailed, hserves, hrun]

theorem time_tilesReady (hu : u = advanceStart (settleDomains s tiles)) : u.time = s.time := by
  subst hu
  exact ((advanceStart_only (m := 0x1008e0733efe6) (settleDomains_only _ .refl ⟨rfl⟩) ⟨rfl⟩).out .time rfl).symm

theorem islandTime_of (h : u.time = s.time) : islandTime u = islandTime s := by
  rw [islandTime, islandTime, h]

/-- A tile that does not align holds the start. -/
theorem reportTiles_spec (k : Nat) (l : List Nat) (hstage : stage u = 4) :
    ∃ r : Report, startFailed (reportTiles (k :: l) (holdStart u)) = true ∧ stage (reportTiles (k :: l) (holdStart u)) = 4 ∧
      (reportTiles (k :: l) (holdStart u)).time = u.time ∧ r ∈ (reportTiles (k :: l) (holdStart u)).faults.inTransit ∧
      r.cls = 2 ∧ r.code = 4 := by
  have honly := reportTiles_only (k :: l) (holdStart u)
  have hcalm : Calm (holdStart u) (reportTiles (k :: l) (holdStart u)) := foldl_calm (fun _ ht _ _ => raise_calm ht) .refl
  obtain ⟨r, hr, hcls, hcode⟩ := report_of_reportTiles k l (holdStart u)
  exact ⟨r, (startFailed_of_calm hcalm).trans (startFailed_holdStart u),
    (stage_of_calm hcalm).trans ((stage_holdStart u).trans hstage),
    (honly.out .time rfl).symm, hr, hcls, hcode⟩

/-! ### Basin time begins -/

theorem warmSpring_calm {s0 : State} {n : Nat} (h : Calm s0 s) (hn : n < 10) : Calm s0 (warmSpring s n) :=
  putField_calm (not_pillar_springBias n) (putField_calm (not_pillar_springStat n) (quiet_calm (putSpring_only _ _ .refl ⟨rfl⟩)
    (rampDomain_calm h (by unfold domSpring; omega))))

theorem enterStage5_calm (s : State) : Calm (putField s Reg.globalStat 3 0 5) (enterStage5 s) := by
  refine foldl_calm (fun t ht i hi => ?_) (foldl_calm (fun t ht p _ => ?_) .refl)
  · have hlt := List.mem_range.1 hi
    exact rampDomain_calm (rampDomain_calm (rampDomain_calm ht (by unfold domPond; omega)) (by unfold domHbm; omega))
      (by unfold domUncore; omega)
  · dsimp only
    split
    · next hn => exact warmSpring_calm (putField_calm (not_pillar_springStat _) ht) hn
    · exact ht

/-- The island's clock has lost its time, and that is flagged. -/
def flagUnset (s : State) : State := if s.time.backupValid then s else raiseFlag s Reg.timeStat 2

theorem loadTime_regs (s : State) (ds : List Nat) : (loadTime s ds).regs = (putReg (flagUnset s) Reg.timeCtrl 5).regs := rfl
theorem loadTime_running (s : State) (ds : List Nat) : (loadTime s ds).time.running = true := rfl
theorem loadTime_now (s : State) (ds : List Nat) :
    (loadTime s ds).time.now = if s.time.backupValid then islandTime s else 0 := rfl

theorem reg_loadTime_globalStat (s : State) (ds : List Nat) : reg (loadTime s ds) Reg.globalStat = reg s Reg.globalStat := by
  rw [reg_of (loadTime_regs s ds), reg_putReg_other _ _ _ _ (by decide), flagUnset]
  split
  · rfl
  · exact reg_raiseFlag_other _ _ _ _ (by decide)

theorem startFailed_enterStage6 (s : State) : startFailed (enterStage6 s) = startFailed s := by
  rw [enterStage6_eq, startFailed_of_calm (rampCores_calm .refl), startFailed_putStage,
    startFailed_of_steady (holdSites_steady s holdCause)]

/-- No stage that ends holds or releases a start. -/
theorem startFailed_advanceStart (s : State) : startFailed (advanceStart s) = startFailed s := by
  have hskip {c : Prop} [Decidable c] {t v : State} (h : startFailed t = startFailed v) :
      startFailed (if c then t else v) = startFailed v := by
    split
    · exact h
    · rfl
  exact (hskip (startFailed_putStage _ _)).trans ((hskip (startFailed_enterStage6 _)).trans
    ((startFailed_endStage3 _).trans (hskip (startFailed_putStage _ _))))

theorem startFailed_tilesReady (h : InStage s 3 ∨ InStage s 4) (hu : u = advanceStart (settleDomains s tiles)) :
    startFailed u = false := by
  rw [hu, startFailed_advanceStart, startFailed_of_calm (settleTiles_calm s)]
  obtain ⟨-, hfailed, -⟩ | ⟨-, hfailed, -⟩ := h <;> exact hfailed

theorem alignedStart_time (ds : List Nat) (s : State) : (alignedStart ds s).time = (loadTime s ds).time :=
  ((enterStage5_only (m := 0x100c01002802) (settleDomains_only _ .refl ⟨rfl⟩) ⟨rfl⟩).out .time rfl).symm

theorem alignedStart_spec (ds : List Nat) (hfailed : startFailed s = false) :
    stage (alignedStart ds s) = 5 ∧ startFailed (alignedStart ds s) = false ∧ (alignedStart ds s).time.running = true ∧
      (alignedStart ds s).time.now = (if s.time.backupValid then islandTime s else 0) ∧
      (s.time.backupValid = false → regBit (alignedStart ds s) Reg.timeStat 2 = true) := by
  have hports : Calm (loadTime s ds) (settleDomains (loadTime s ds)
      ((List.range 16).map domPort ++ (List.range 16).map domOutlet)) :=
    settleDomains_calm .refl fun _ hd => mem_ports_lt hd
  have hfive := enterStage5_calm (settleDomains (loadTime s ds) ((List.range 16).map domPort ++ (List.range 16).map domOutlet))
  refine ⟨(stage_of_calm hfive).trans (stage_putStage _ (by decide)), ?_, ?_, ?_, fun hvalid => ?_⟩
  · rw [alignedStart, startFailed_of_calm hfive, startFailed_putStage, startFailed_of_calm hports, startFailed, regBit,
      reg_loadTime_globalStat]
    exact hfailed
  · rw [alignedStart_time, loadTime_running]
  · rw [alignedStart_time, loadTime_now]
  · rw [alignedStart, hfive.bits _ pillar_timeStat 2 (by decide), regBit_putStage _ _ _ (.inl (by decide)),
      hports.bits _ pillar_timeStat 2 (by decide), regBit_of (loadTime_regs s ds), regBit, reg_putReg_other _ _ _ _ (by decide),
      flagUnset, hvalid, if_neg Bool.false_ne_true]
    exact regBit_raiseFlag_self _ _ _

end

/-! ### The training of a site's memories (R608) -/

section
variable {s : State} {i j off : Nat} {x y : Bool} {ls : List (Dir × Fin 1000 × Fin 64)}

theorem field_eq_three {s : State} {off : Nat} (h0 : regBit s off 0 = true) (h1 : regBit s off 1 = true) : field s off 1 0 = 3 := by
  refine Nat.eq_of_testBit_eq fun j => ?_
  rw [field, testBit_bits]
  simp only [regBit, bit_testBit] at h0 h1
  match j with
  | 0 => simpa using h0
  | 1 => simpa using h1.trans (by decide : true = Nat.testBit 3 1)
  | j + 2 => rw [decide_eq_false (by omega), Bool.false_and,
    Nat.testBit_lt_two_pow (Nat.lt_of_lt_of_le (by decide : 3 < 2 ^ 2) (Nat.pow_le_pow_right (by decide) (by omega)))]

/-- The stack and the Pond are trained: what each found is shown, and nothing that they held is. -/
def siteTried (i : Nat) (x y : Bool) (ls : List (Dir × Fin 1000 × Fin 64)) (s : State) : State :=
  clearTracking (putBit (putBit (trainDelays (settleDomains s [domPond i, domHbm i, domUncore i]) i ls) (Reg.memCfg i) 0 x)
    (Reg.memCfg i) 1 y) i

/-- The site's memories are in use. -/
def memoryInUse (i : Nat) (s : State) : State := showRefresh (putBit s (Reg.memCfg i) 4 true) i

theorem memoryTraining_stays (h : ¬ InStage s 5 ∨ siteFailed s i = true ∨ field s (Reg.memCfg i) 1 0 = 3) :
    memoryTraining i x y ls s = s := by
  refine if_pos ?_
  simp only [InStage] at h
  cases hfailed : startFailed s <;> cases hserves : weirServes s <;> cases hsite : siteFailed s i <;> simp_all

theorem memoryTraining_runs (hstage : InStage s 5) (hsite : siteFailed s i = false) (htrained : field s (Reg.memCfg i) 1 0 ≠ 3) :
    memoryTraining i x y ls s =
      if x && y then advanceStart (memoryInUse i (siteTried i x y ls s))
      else advanceStart (siteReset i 4 (siteTried i x y ls s)) := by
  obtain ⟨hfive, hfailed, hserves⟩ := hstage
  exact if_neg (by simp [hfive, hfailed, hserves, hsite, htrained])

theorem trainDelays_calm {s0 : State} (h : Calm s0 s) : Calm s0 (trainDelays s i ls) :=
  foldl_calm (fun _ ht _ _ => ite_calm ht (modSite_calm ht)) (modSite_calm h)

theorem delaysTrained_calm (hi : i < 16) : Calm s (trainDelays (settleDomains s [domPond i, domHbm i, domUncore i]) i ls) := by
  refine trainDelays_calm (settleDomains_calm .refl fun d hd => ?_)
  simp only [List.mem_cons, List.not_mem_nil, or_false, domPond, domHbm, domUncore] at hd
  omega

theorem clearTracking_regs (s : State) (i : Nat) : (clearTracking s i).regs = s.regs := rfl
theorem clearTracking_weir (s : State) (i : Nat) : (clearTracking s i).weir = s.weir := rfl

theorem regBit_siteTried_other (hi : i < 16) (hp : Pillar off) (hj : j < 30) (h : off ≠ Reg.memCfg i ∨ 1 < j) :
    regBit (siteTried i x y ls s) off j = regBit s off j := by
  rw [siteTried, regBit_of (clearTracking_regs _ _), regBit_putBit, if_neg (by omega), regBit_putBit,
    if_neg (by omega)]
  exact (delaysTrained_calm hi).bits off hp j hj

theorem field_siteTried (h : (x && y) = true) : field (siteTried i x y ls s) (Reg.memCfg i) 1 0 = 3 := by
  obtain ⟨rfl, rfl⟩ : x = true ∧ y = true := by simpa using h
  refine field_eq_three ?_ ?_
  · rw [siteTried, regBit_of (clearTracking_regs _ _), regBit_putBit, if_neg (by omega), regBit_putBit_self]
  · rw [siteTried, regBit_of (clearTracking_regs _ _), regBit_putBit_self]

theorem stage_siteTried (hi : i < 16) : stage (siteTried i x y ls s) = stage s :=
  field_of_bits fun _ _ hj => regBit_siteTried_other hi pillar_globalStat (by omega) (.inl (memCfg_ne_globalStat i).symm)

theorem siteFailed_siteTried (hi : i < 16) : siteFailed (siteTried i x y ls s) i = siteFailed s i :=
  regBit_siteTried_other hi (pillar_siteStat hi) (by decide) (.inl (by unfold Reg.siteStat Reg.memCfg; omega))

theorem weirServes_siteTried (hi : i < 16) : weirServes (siteTried i x y ls s) = weirServes s := by
  rw [← (delaysTrained_calm (s := s) (ls := ls) hi).serves, weirServes, siteTried, clearTracking_weir]
  rfl

/-- The bits of registers below the refresh band of MEM_CFG. -/
theorem regBit_memoryInUse (hoff : off ≠ Reg.memRefresh i) (hj : j < 12) (h : off ≠ Reg.memCfg i ∨ j ≠ 4) :
    regBit (memoryInUse i s) off j = regBit s off j := by
  rw [memoryInUse, showRefresh, regBit, reg_putReg_other _ _ _ _ hoff]
  by_cases he : off = Reg.memCfg i
  · subst he
    rw [putField, reg_putReg_self, bit_setBits_other _ _ _ _ _ (by decide) (.inl hj), ← regBit, regBit_putBit, if_neg (by tauto)]
  · rw [reg_putField_other _ _ _ _ _ _ he, ← regBit, regBit_putBit, if_neg (by tauto)]

theorem regBit_memoryInUse_self : regBit (memoryInUse i s) (Reg.memCfg i) 4 = true := by
  rw [memoryInUse, showRefresh, regBit, reg_putReg_other _ _ _ _ (by unfold Reg.memCfg Reg.memRefresh; omega),
    putField, reg_putReg_self, bit_setBits_other _ _ _ _ _ (by decide) (.inl (by decide)), ← regBit, regBit_putBit_self]

/-! What the memories of the site held is gone (R608). -/

theorem ownerSite_page {a : Nat} (h : paged a = true) : ownerSite (4096 * (a / 4096)) = ownerSite a := by
  have hfar : farBase = 0x100_0000_0000 := rfl
  unfold ownerSite zoneOf
  obtain hnear | ⟨hlow, hpond⟩ := (paged_iff a).1 h
  · rw [if_pos hnear, if_pos (by omega)]
    dsimp only
    omega
  · rw [if_neg (by omega), if_neg (by omega), if_pos (by omega), if_neg (by omega), if_neg (by omega), if_pos hpond]
    dsimp only
    omega

theorem pageWritten_siteTried {a : Nat} (hp : paged a = true) (ha : ownerSite a = i) :
    pageWritten (siteTried i x y ls s) a = false := by
  have hwritten (t : State) : (clearTracking t i).written = tdrop t.written fun k => ownerSite (4096 * k) == i := rfl
  rw [pageWritten, hp, siteTried, hwritten, tget_tdrop, if_pos (by rw [ownerSite_page hp, ha, beq_self_eq_true])]
  rfl

theorem memoryInUse_written (i : Nat) (s : State) : (memoryInUse i s).written = s.written := rfl

theorem byteAt_memoryInUse {a : Nat} (hp : paged a = true) (ha : ownerSite a = i) :
    byteAt (memoryInUse i (siteTried i x y ls s)) a = 0 := by
  have h := pageWritten_siteTried (s := s) (x := x) (y := y) (ls := ls) hp ha
  rw [byteAt, pageWritten, memoryInUse_written, ← pageWritten, h, if_neg Bool.false_ne_true]

/-! The delay steps of the Pond's via groups (R324). -/

/-- The stored step of a group, with its via band and the frequency band. -/
theorem storedDelay_of {t u : State} {d : Dir} {g : Nat} (hband : (site t i).abango.viaBand = (site u i).abango.viaBand)
    (hstep : reg t Reg.clockStep = reg u Reg.clockStep) : storedDelay t i d g = storedDelay u i d g := by
  rw [storedDelay, storedDelay, hband, pondFreq, pondFreq, moduleStep, moduleStep, field, field, hstep]

theorem memoryInUse_abango {t : State} (ht : t = trainDelays (settleDomains s [domPond i, domHbm i, domUncore i]) i ls) :
    (site (memoryInUse i (siteTried i x y ls s)) i).abango = (site t i).abango := by
  subst ht
  have huse (v : State) : site (memoryInUse i v) i = site v i := rfl
  have hclear (v : State) : (site (clearTracking v i) i).abango = (site v i).abango := by
    rw [clearTracking, site_modSite_self]; rfl
  rw [huse, siteTried, hclear, putBit, putBit, site_putReg, site_putReg]

theorem reg_memoryInUse_clockStep {t : State} (ht : t = trainDelays (settleDomains s [domPond i, domHbm i, domUncore i]) i ls) :
    reg (memoryInUse i (siteTried i x y ls s)) Reg.clockStep = reg t Reg.clockStep := by
  have hcfg : Reg.clockStep ≠ Reg.memCfg i := by unfold Reg.clockStep Reg.memCfg; omega
  have hrefresh : Reg.clockStep ≠ Reg.memRefresh i := by unfold Reg.clockStep Reg.memRefresh; omega
  subst ht
  rw [memoryInUse, showRefresh, reg_putReg_other _ _ _ _ hrefresh, reg_putField_other _ _ _ _ _ _ hcfg,
    reg_putBit_other _ _ _ _ _ hcfg, siteTried, reg_of (clearTracking_regs _ _), reg_putBit_other _ _ _ _ _ hcfg,
    reg_putBit_other _ _ _ _ _ hcfg]

/-- No group of the site has a step of its own. -/
def bandShown (i : Nat) (s : State) : State := modAbango s i fun a => { a with viaBand := hotterBand s i, viaTrained := [] }

theorem bandShown_trained (s : State) (i : Nat) : (site (bandShown i s) i).abango.viaTrained = [] := by
  rw [bandShown, modAbango, site_modSite_self]

/-- A group takes the best step of its own. -/
def ownStep (i : Nat) (d : Dir) (g v : Nat) (s : State) : State :=
  modAbango s i fun a => { a with viaTrained := tput 0 a.viaTrained (viaKey d g) (v + 1) }

theorem ownStep_trained (i : Nat) (d : Dir) (g v : Nat) (s : State) :
    tget 0 (site (ownStep i d g v s) i).abango.viaTrained (viaKey d g) = v + 1 := by
  rw [ownStep, modAbango, site_modSite_self]
  exact tget_tput_self 0 (site s i).abango.viaTrained (viaKey d g) (v + 1)

theorem ownStep_viaBand (i : Nat) (d : Dir) (g v : Nat) (s : State) :
    (site (ownStep i d g v s) i).abango.viaBand = (site s i).abango.viaBand := by
  rw [ownStep, modAbango, site_modSite_self]

theorem trainDelays_single (s : State) (i : Nat) (d : Dir) (g : Fin 1000) (v : Fin 64) : trainDelays s i [(d, g, v)] =
    if v.val ≤ storedDelay (bandShown i s) i d g.val + 2 ∧ storedDelay (bandShown i s) i d g.val ≤ v.val + 2 then bandShown i s
    else ownStep i d g.val v.val (bandShown i s) :=
  if_congr (by simp [bandShown]) rfl rfl

theorem delayStep_trainDelays {t w : State} {d : Dir} {g : Fin 1000} {v : Fin 64} (hw : w = trainDelays s i [(d, g, v)])
    (haba : (site t i).abango = (site w i).abango) (hstep : reg t Reg.clockStep = reg w Reg.clockStep) :
    delayStep t i d g.val =
      if v.val ≤ storedDelay t i d g.val + 2 ∧ storedDelay t i d g.val ≤ v.val + 2 then storedDelay t i d g.val else v.val := by
  rw [trainDelays_single] at hw
  split at hw
  · next hnear =>
    have hstored : storedDelay t i d g.val = storedDelay w i d g.val := storedDelay_of (by rw [haba]) hstep
    rw [if_pos (by rwa [hstored, hw]), delayStep, haba, hw, bandShown_trained]
    rfl
  · next hfar =>
    have hstored : storedDelay t i d g.val = storedDelay (bandShown i s) i d g.val :=
      storedDelay_of (by rw [haba, hw, ownStep_viaBand]) (by rw [hstep, hw]; rfl)
    rw [if_neg (by rwa [hstored]), delayStep, haba, hw, ownStep_trained]

/-- A site whose memories trained is in use, with nothing written and its delay steps stored or trained. -/
theorem memoryInUse_spec (hi : i < 16) (hstage : stage s = 5) (hsite : siteFailed s i = false) (h : (x && y) = true) :
    stage (memoryInUse i (siteTried i x y ls s)) = 5 ∧ siteFailed (memoryInUse i (siteTried i x y ls s)) i = false ∧
      field (memoryInUse i (siteTried i x y ls s)) (Reg.memCfg i) 1 0 = 3 ∧
      regBit (memoryInUse i (siteTried i x y ls s)) (Reg.memCfg i) 4 = true := by
  have hstat : Reg.siteStat i ≠ Reg.memRefresh i ∧ Reg.siteStat i ≠ Reg.memCfg i := by
    unfold Reg.siteStat Reg.memRefresh Reg.memCfg; omega
  have hglobal : Reg.globalStat ≠ Reg.memRefresh i ∧ Reg.globalStat ≠ Reg.memCfg i := by
    unfold Reg.globalStat Reg.memRefresh Reg.memCfg; omega
  refine ⟨?_, ?_, ?_, regBit_memoryInUse_self⟩
  · exact (field_of_bits fun j _ hj => regBit_memoryInUse hglobal.1 (by omega) (.inl hglobal.2)).trans
      ((stage_siteTried hi).trans hstage)
  · exact (regBit_memoryInUse hstat.1 (by decide) (.inl hstat.2)).trans ((siteFailed_siteTried hi).trans hsite)
  · exact (field_of_bits fun j _ hj => regBit_memoryInUse (by unfold Reg.memCfg Reg.memRefresh; omega) (by omega)
      (.inr (by omega))).trans
      (field_siteTried h)

theorem delayStep_memoryInUse {d : Dir} {g : Fin 1000} {v : Fin 64} {t : State}
    (ht : t = memoryInUse i (siteTried i x y [(d, g, v)] s)) : delayStep t i d g.val =
      if v.val ≤ storedDelay t i d g.val + 2 ∧ storedDelay t i d g.val ≤ v.val + 2 then storedDelay t i d g.val else v.val := by
  subst ht
  exact delayStep_trainDelays rfl (memoryInUse_abango rfl) (reg_memoryInUse_clockStep rfl)

/-- A site whose stack or Pond did not train fails. -/
theorem trainingFailed_spec (hi : i < 16) (hstage : InStage s 5) :
    stage (siteReset i 4 (siteTried i x y ls s)) = 5 ∧ siteFailed (siteReset i 4 (siteTried i x y ls s)) i = true := by
  obtain ⟨hfive, -, hserves⟩ := hstage
  refine ⟨?_, siteFailed_siteReset hi 4 ((weirServes_siteTried hi).trans hserves)⟩
  rw [stage_of_steady (siteReset_steady hi 4 _), stage_siteTried hi, hfive]

end

/-! PROOFS. The family 02_time_and_clocks: the self-test of the cores (R608, R609). -/

/-! ### The parts of the end of stage 6 -/

section
variable {s t : State} {failed : Nat → Bool} {c : Nat}

/-- The cores that failed, and those that are not on, are fenced. -/
def fenceFailed (failed : Nat → Bool) (l : List Nat) (s : State) : State :=
  l.foldl (fun s c => if failed c || !domOn s (domCore c) then fenceCore s c 0x03 else s) s

/-- A site without a core fails. -/
def dropCoreless (s : State) : State :=
  (liveSites s).foldl (fun s i => if (siteCores i).all fun c => (core s c).fenced then siteReset i 7 s else s) s

/-- The core stores are cleared and the sites that place plans are offered. -/
def offerSites (s : State) : State := (liveSites s).foldl offerCores (clearCores s)

def settleCores (s : State) : State := (((liveSites s).flatMap siteCores).filter fun c => !(core s c).fenced).foldl settleCore s

def restorePins (s : State) : State := (s.parts.map (·.1)).foldl restorePin s

theorem endStage6_eq (s : State) (failed : Nat → Bool) : endStage6 s failed =
    enterStage7 (restorePins (settleCores (setModuleStep (offerSites
      (dropCoreless (fenceFailed failed ((liveSites s).flatMap siteCores) s)))))) := rfl

theorem fenceFailed_calm {l : List Nat} (hl : ∀ c ∈ l, c < 64) (s : State) : Calm s (fenceFailed failed l s) :=
  foldl_calm (fun _ ht c hc => skip_calm ht fun h => fenceCore_calm h (hl c hc)) .refl

theorem fenced_fenceCore {status : Nat} (hc : c < 64) (s : State) : (core (fenceCore s c status) c).fenced = true := by
  cases hf : (core s c).fenced with
  | true => rwa [fenceCore, if_pos hf]
  | false =>
    exact (fence_calm (s0 := modCore s c fun y => { y with fenced := true }) hf .refl hc).fenced c (by rw [core_modCore_self])

theorem fenced_fenceFailed {l : List Nat} (hl : ∀ c ∈ l, c < 64) (hc : c ∈ l) (hfailed : failed c = true) (s : State) :
    (core (fenceFailed failed l s) c).fenced = true := by
  induction l generalizing s with
  | nil => cases hc
  | cons d l ih =>
    have hrest : ∀ k ∈ l, k < 64 := fun k hk => hl k (List.mem_cons_of_mem d hk)
    obtain rfl | hmem := List.mem_cons.1 hc
    · refine (fenceFailed_calm hrest _).fenced c ?_
      dsimp only
      rw [hfailed, Bool.true_or, if_pos rfl]
      exact fenced_fenceCore (hl c hc) s
    · exact ih hrest hmem _

theorem dropCoreless_steady (s : State) : Steady s (dropCoreless s) := by
  refine foldl_steady (fun t i hi => ?_) s
  split
  · exact siteReset_steady (mem_liveSites.1 hi).1 7 t
  · exact steady_of_calm .refl

theorem tfind_map {α : Type} (f : α → α) (t : Table α) (k : Nat) : tfind (t.map fun e => (e.1, f e.2)) k = (tfind t k).map f := by
  induction t with
  | nil => rfl
  | cons e t ih =>
    rw [List.map_cons, tfind, tfind, ih]
    split <;> rfl

theorem fenced_clearCores (s : State) (c : Nat) : (core (clearCores s) c).fenced = (core s c).fenced := by
  have hcores : (clearCores s).cores =
      s.cores.map fun e => (e.1, { e.2 with accs := [], vregs := [], vpoison := [], vflags := 0, sel := 0 }) := rfl
  rw [core, hcores, tget, tfind_map fun y : CoreState => { y with accs := [], vregs := [], vpoison := [], vflags := 0, sel := 0 },
    core, tget]
  cases tfind s.cores c <;> rfl

/-- What is offered after the cores are cleared is shown in registers and logged. -/
theorem offerSites_only (s : State) : Only 0x8002 (clearCores s) (offerSites s) :=
  onlyFold .refl fun _ ht _ => offerCores_only _ ht ⟨rfl⟩

theorem commandCore_calm {k : Nat} {s0 : State} (h : Calm s0 s) (hc : c < 64) : Calm s0 (commandCore s c k) := by
  refine modCore_calm (fun _ hf => hf) (ite_calm (modCore_calm (fun _ hf => hf) h) (ite_calm h ?_))
  exact showUncore_calm (putReg_calm (not_pillar_powerDomain (by unfold domCore; omega)) (modCore_calm (fun _ hf => hf) h))
    (by omega)

theorem settleCores_calm (s : State) : Calm s (settleCores s) := by
  refine foldl_calm (fun t ht c hc => ?_) .refl
  have hlt := lt_of_mem_siteCores (List.mem_filter.1 hc).1
  exact ite_calm (modCore_calm (fun _ hf => hf) (commandCore_calm ht hlt)) (commandCore_calm ht hlt)

theorem lt_of_mem_maskList {v n k : Nat} (h : k ∈ maskList v n) : k < n := List.mem_range.1 (List.mem_filter.1 h).1

theorem restorePin_calm {s0 : State} (p : Nat) (h : Calm s0 s) : Calm s0 (restorePin s p) := by
  unfold restorePin
  extract_lets x cs pin k u
  have hu : Calm s0 u := foldl_calm (fun _ ht c hc => commandCore_calm ht (lt_of_mem_maskList (List.mem_filter.1 hc).1)) h
  exact ite_calm h (ite_calm (fwLog_calm hu) hu)

theorem restorePins_calm (s : State) : Calm s (restorePins s) := foldl_calm (fun _ ht p _ => restorePin_calm p ht) .refl

/-! ### Stage 7 begins -/

theorem beginCalibration_calm {s0 : State} (a : Activity) (h : Calm s0 s) :
    Calm s0 (showCalibrating (addActivity s a).1 0 0 true) :=
  showCalibrating_calm (quiet_calm (addActivity_only a .refl ⟨rfl⟩) h)

theorem enterStage7_calm (s : State) : Calm (putField s Reg.globalStat 3 0 7) (enterStage7 s) := by
  unfold enterStage7
  extract_lets u live start
  split
  · exact beginCalibration_calm _ (loadImage_calm .refl)
  · exact beginCalibration_calm _ .refl

theorem running_beginCalibration (s : State) (n : Nat) :
    ∃ x : Activity, x ∈ (showCalibrating (addActivity s { blankActivity opCa true with addr := n }).1 0 0 true).acts ∧
      x.opcode = opCa ∧ x.mode = .running := by
  have hacts : (showCalibrating (addActivity s { blankActivity opCa true with addr := n }).1 0 0 true).acts =
      (addActivity s { blankActivity opCa true with addr := n }).1.acts :=
    ((showCalibrating_only (m := 0x2) 0 0 true .refl ⟨rfl⟩).out .acts rfl).symm
  rw [hacts]
  exact ⟨_, List.mem_append_right _ (List.mem_singleton_self _), rfl, rfl⟩

theorem running_enterStage7 (s : State) :
    ∃ x : Activity, x ∈ (enterStage7 s).acts ∧ x.opcode = opCa ∧ x.mode = .running := by
  unfold enterStage7
  extract_lets u live start
  split
  · exact running_beginCalibration _ 1
  · exact running_beginCalibration _ _

/-! ### The end of stage 6 -/

theorem endStage6_after_clearCores (s : State) (failed : Nat → Bool) :
    Only 0x600001a002 (clearCores (dropCoreless (fenceFailed failed ((liveSites s).flatMap siteCores) s)))
      (endStage6 s failed) := by
  rw [endStage6_eq]
  refine enterStage7_only (onlyFold (onlyFold (setModuleStep_only (Only.mono (offerSites_only _) ⟨rfl⟩) ⟨rfl⟩) fun _ ht _ => ?_)
    fun _ ht _ => ?_) ⟨rfl⟩
  · exact settleCore_only _ ht ⟨rfl⟩
  · exact restorePin_only _ ht ⟨rfl⟩

theorem byteAt_clearCores (s : State) {a : Nat} (hlo : coreBase 0 ≤ a) (hhi : a < coreBase 64) : byteAt (clearCores s) a = 0 := by
  have hmem : (clearCores s).mem = zeroRange s.mem (coreBase 0) (64 * 2 ^ 25) := rfl
  have hin : coreBase 0 ≤ a ∧ a < coreBase 0 + 64 * 2 ^ 25 := by unfold coreBase at *; omega
  rw [byteAt, hmem, readByte_zeroRange, if_pos hin, ite_self]

theorem byteAt_endStage6 (s : State) (failed : Nat → Bool) {a : Nat} (hlo : coreBase 0 ≤ a) (hhi : a < coreBase 64) :
    byteAt (endStage6 s failed) a = 0 := by
  have honly := endStage6_after_clearCores s failed
  rw [byteAt_of (honly.out .mem rfl).symm (honly.out .written rfl).symm, byteAt_clearCores _ hlo hhi]

/-- A core that a live site has and that failed is fenced. -/
theorem fenced_endStage6 (hc : c < 64) (hsite : siteFailed s (c / 4) = false) (hfailed : failed c = true) :
    (core (endStage6 s failed) c).fenced = true := by
  have hcores : (offerSites (dropCoreless (fenceFailed failed ((liveSites s).flatMap siteCores) s))).cores =
      (clearCores (dropCoreless (fenceFailed failed ((liveSites s).flatMap siteCores) s))).cores :=
    ((offerSites_only _).out .cores rfl).symm
  have hstep (u : State) : (setModuleStep u).cores = u.cores := ((setModuleStep_only (m := 0x2002) .refl ⟨rfl⟩).out .cores rfl).symm
  have hseven (u : State) : (enterStage7 u).cores = u.cores :=
    ((enterStage7_only (m := 0x6000000002) .refl ⟨rfl⟩).out .cores rfl).symm
  rw [endStage6_eq, core_of (hseven _)]
  refine (restorePins_calm _).fenced c ((settleCores_calm _).fenced c ?_)
  rw [core_of (hstep _), core_of hcores, fenced_clearCores]
  exact (dropCoreless_steady _).fenced c (fenced_fenceFailed (fun _ hk => lt_of_mem_siteCores hk) (mem_siteCores_of_live hc hsite)
    hfailed s)

theorem stage_endStage6 (s : State) (failed : Nat → Bool) : stage (endStage6 s failed) = 7 := by
  rw [endStage6_eq, stage_of_calm (enterStage7_calm _), stage_putStage _ (by decide)]

theorem running_endStage6 (s : State) (failed : Nat → Bool) :
    ∃ x : Activity, x ∈ (endStage6 s failed).acts ∧ x.opcode = opCa ∧ x.mode = .running := by
  rw [endStage6_eq]
  exact running_enterStage7 _

theorem coreSelftest_stays {f : BitVec 64} (h : ¬ InStage s 6) : coreSelftest f s = s := if_pos ((inStage_test s 6).2 h)

/-- The cores of live sites, once they are ready. -/
theorem settleCoreDomains_calm {l : List Nat} (hl : ∀ c ∈ l, c < 64) : Calm s (settleDomains s (l.map domCore)) := by
  refine settleDomains_calm .refl fun d hd => ?_
  obtain ⟨c, hc, rfl⟩ := List.mem_map.1 hd
  have hlt := hl c hc
  unfold domCore
  omega

theorem coreSelftest_runs {f : BitVec 64} (h : InStage s 6) : coreSelftest f s =
    endStage6 (settleDomains s (((liveSites s).flatMap siteCores).map domCore)) (bit f.toNat) :=
  if_neg fun hn => (inStage_test s 6).1 hn h

theorem siteFailed_coresReady (hc : c < 64) {l : List Nat} (hl : ∀ c ∈ l, c < 64) :
    siteFailed (settleDomains s (l.map domCore)) (c / 4) = siteFailed s (c / 4) :=
  siteFailed_of_calm (settleCoreDomains_calm hl) (by omega)

end

/-! PROOFS. The family 02_time_and_clocks: calibration, the open share and the light of the Outlets (R609 to R613). -/

/-! ### The open share of a site (R611) -/

section
variable {s t : State} {d i : Nat}

/-- The ring toward a site that carries an index of its open share is tuned. -/
def carryRing (d i idx : Nat) (s : State) : State :=
  if openDown s i idx then s else match carrier s i idx with
    | some (g, l) => openRing (lightMod s i idx) d g l
    | none => s

/-- An index of the open share is tuned, and its channel shown unless it failed. -/
def tuneIndex (d i : Nat) (s : State) (idx : Nat) : State :=
  if tget false (site (carryRing d i idx s) i).failedTx idx then carryRing d i idx s
  else putField (carryRing d i idx s) (Reg.basinTxch i idx) 31 30 2

/-- The two indices from a site toward the one whose share opens. -/
def tunePair (d : Nat) (s : State) (i : Nat) : State :=
  if i == d then s else [(openPair i d).1, (openPair i d).2].foldl (tuneIndex d i) s

/-- A sender has its credit at the site whose share opens. -/
def grantCredit (d : Nat) (s : State) (i : Nat) : State := if i == d then s else putField s (Reg.basinCredit d i) 9 0 512

theorem openShareAt_eq (s : State) (d : Nat) : openShareAt s d =
    putBit (putBit ((List.range 16).foldl (grantCredit d) ((List.range 16).foldl (tunePair d) s)) (Reg.basinStat d) 1 true)
      (Reg.lightStat d) 0 true := rfl

theorem carryRing_only (d i idx : Nat) (s : State) : Only 0x1000000 s (carryRing d i idx s) := by
  unfold carryRing
  split
  · exact .refl
  · split
    · exact openRing_only _ _ _ (lightMod_only _ _ .refl ⟨rfl⟩) ⟨rfl⟩
    · exact .refl

/-- What the sites, BASIN_TXCH and BASIN_CREDIT may do leaves what the opening of a share leaves, but for the site's own state. -/
theorem openShareAt_induct {P : State → Prop} (hsite : ∀ t u, Only 0x1000000 t u → P t → P u)
    (htx : ∀ t i idx, idx < 256 → P t → P (putField t (Reg.basinTxch i idx) 31 30 2))
    (hcredit : ∀ t d i, i < 16 → P t → P (putField t (Reg.basinCredit d i) 9 0 512)) (h : P s) :
    ∃ u : State, P u ∧ openShareAt s d = putBit (putBit u (Reg.basinStat d) 1 true) (Reg.lightStat d) 0 true := by
  have hindex (t : State) (ht : P t) (i idx : Nat) (hidx : idx < 256) : P (tuneIndex d i t idx) := by
    have hring := hsite t _ (carryRing_only d i idx t) ht
    unfold tuneIndex
    split
    · exact hring
    · exact htx _ _ _ hidx hring
  have hpair (t : State) (ht : P t) (i : Nat) : P (tunePair d t i) := by
    unfold tunePair
    split
    · exact ht
    · have hfirst := hindex t ht i _ (openPair_lt i d).1
      rw [List.foldl_cons, List.foldl_cons, List.foldl_nil]
      exact hindex _ hfirst i _ (openPair_lt i d).2
  have hgrant (t : State) (ht : P t) (i : Nat) (hi : i ∈ List.range 16) : P (grantCredit d t i) := by
    unfold grantCredit
    split
    · exact ht
    · exact hcredit _ _ _ (List.mem_range.1 hi) ht
  have htuned : P ((List.range 16).foldl (tunePair d) s) := List.foldlRecOn _ _ (motive := P) h fun t ht i _ => hpair t ht i
  have hgranted : P ((List.range 16).foldl (grantCredit d) ((List.range 16).foldl (tunePair d) s)) :=
    List.foldlRecOn _ _ (motive := P) htuned hgrant
  exact ⟨_, hgranted, openShareAt_eq s d⟩

theorem not_pillar_basinCredit (d : Nat) {i : Nat} (h : i < 16) : ¬ Pillar (Reg.basinCredit d i) :=
  not_pillar_of_site (by unfold Reg.basinCredit; omega)

theorem openShareAt_calm {s0 : State} (h : Calm s0 s) : Calm s0 (openShareAt s d) := by
  obtain ⟨u, hu, he⟩ := openShareAt_induct (d := d) (P := Calm s0)
    (fun t u ht hcalm => quiet_calm (Only.mono ht ⟨by decide⟩) hcalm)
    (fun t i idx hidx ht => putField_calm (not_pillar_basinTxch i hidx) ht)
    (fun t d i hi ht => putField_calm (not_pillar_basinCredit d hi) ht) h
  rw [he]
  exact putBit_calm (by simp) (putBit_calm (by simp) hu)

/-- A share that is in service stays so, and the site's own comes into service. -/
theorem regBit_openShareAt (h : i = d ∨ regBit s (Reg.basinStat i) 1 = true) :
    regBit (openShareAt s d) (Reg.basinStat i) 1 = true := by
  obtain ⟨u, hu, he⟩ := openShareAt_induct (s := s) (d := d) (P := fun t => reg t (Reg.basinStat i) = reg s (Reg.basinStat i))
    (fun t u honly ht => (reg_of (honly.out .regs rfl).symm _).trans ht)
    (fun t j idx hidx ht => (reg_putField_other _ _ _ _ _ _ (by unfold Reg.basinStat Reg.basinTxch; omega)).trans ht)
    (fun t d j hj ht => (reg_putField_other _ _ _ _ _ _ (by unfold Reg.basinStat Reg.basinCredit; omega)).trans ht) rfl
  rw [he, regBit_putBit, if_neg (by unfold Reg.basinStat Reg.lightStat; omega), regBit_putBit]
  split
  · rfl
  · next hne =>
    rw [regBit, hu, ← regBit]
    exact h.resolve_left fun hid => hne (by simp [hid])

theorem openShares_calm {s0 : State} (l : List Nat) (h : Calm s0 s) : Calm s0 (l.foldl openShareAt s) :=
  foldl_calm (fun _ ht _ _ => openShareAt_calm ht) h

theorem regBit_openShares {l : List Nat} (h : i ∈ l ∨ regBit s (Reg.basinStat i) 1 = true) :
    regBit (l.foldl openShareAt s) (Reg.basinStat i) 1 = true := by
  induction l generalizing s with
  | nil => exact h.resolve_left List.not_mem_nil
  | cons d l ih =>
    refine ih ?_
    obtain hmem | hbit := h
    · obtain rfl | hmem := List.mem_cons.1 hmem
      · exact .inr (regBit_openShareAt (.inl rfl))
      · exact .inl hmem
    · exact .inr (regBit_openShareAt (.inr hbit))

end

/-! ### The end of stage 7 (R610, R611) -/

section
variable {s u : State} {a : Activity} {fs rs : List Nat}

/-- The values of the image that were rejected are measured anew. -/
def rejectCals (rs : List Nat) (s : State) : State :=
  ((rs.filter (· < 4096)).eraseDups).foldl (fun s c =>
    if tget false (site s (c / 256)).failedTx (c % 256) then s else rejectCal s (c / 32) (c % 32)) s

/-- Whether a calibration takes every position: from the design values, or after 256 channels failed. -/
def fullCal (a : Activity) (fs : List Nat) : Bool := a.addr == 0 || decide (256 < ((fs.filter (· < 4096)).eraseDups).length)

/-- The image in flash is replaced where the calibration calls for it. -/
def keepImage (full : Bool) (a : Activity) (s : State) : State := if full || a.addr == 2 then writeCalImage s else s

/-- The calibration ends, with its source shown. -/
def endCal (a : Activity) (full : Bool) (s : State) : State :=
  let s := showCalibrating (putBit s Reg.globalStat 8 (!full)) a.guide a.lambda false
  { s with acts := s.acts.filter fun b => b.num != a.num }

/-- The open shares of the live sites come into service, and stage 8 begins. -/
def openShares (s : State) : State := putField ((liveSites s).foldl openShareAt s) Reg.globalStat 3 0 8

theorem endStage7_eq (h : s.acts.find? (fun a => a.opcode == opCa && a.mode == .running) = some a) :
    endStage7 fs rs s =
      advanceStart (openShares (endCal a (fullCal a fs) (keepImage (fullCal a fs) a (rejectCals rs s)))) := by
  unfold endStage7
  rw [h]
  rfl

theorem calStage_stays (h : ¬ InStage s 7 ∨ s.acts.find? (fun a => a.opcode == opCa && a.mode == .running) = none) :
    calStage fs rs s = s := by
  by_cases hs : InStage s 7
  · rw [calStage, if_neg fun hn => (inStage_test s 7).1 hn hs, endStage7, h.resolve_left fun hn => hn hs]
  · exact if_pos ((inStage_test s 7).2 hs)

theorem calStage_runs (h : InStage s 7) : calStage fs rs s = endStage7 fs rs s := if_neg fun hn => (inStage_test s 7).1 hn h

theorem rejectCals_calm {s0 : State} (h : Calm s0 s) : Calm s0 (rejectCals rs s) :=
  foldl_calm (fun _ ht _ _ => ite_calm ht (rejectCal_calm ht)) h

theorem keepImage_calm {s0 : State} {full : Bool} (h : Calm s0 s) : Calm s0 (keepImage full a s) :=
  ite_calm (quiet_calm (writeCalImage_only .refl ⟨rfl⟩) h) h

theorem endCal_calm (a : Activity) (full : Bool) (s : State) : Calm (putBit s Reg.globalStat 8 (!full)) (endCal a full s) :=
  same_calm (showCalibrating_calm .refl) rfl rfl rfl

theorem siteFailed_endCal {i : Nat} (hi : i < 16) (a : Activity) (full : Bool) (s : State) :
    siteFailed (endCal a full s) i = siteFailed s i := by
  rw [siteFailed_of_calm (endCal_calm a full s) hi, siteFailed, regBit_putBit, if_neg (by simp [siteStat_ne_globalStat])]
  rfl

theorem advanceStart_of_stage_eight (h : stage s = 8) : advanceStart s = endStage8 s := by
  have hfirst : (if stage s == 1 && (firstDomains s).all (domOn s) then putField s Reg.globalStat 3 0 2 else s) = s :=
    if_neg (by simp [h])
  have hthree : endStage3 s = s := if_neg (by simp [h])
  have hfive : endStage5 s = s := if_neg (by simp [h])
  rw [advanceStart, hfirst, hthree, hfive]

theorem stage_endStage8 (h : stage s = 8) : stage (endStage8 s) = 8 ∨ stage (endStage8 s) = 9 := by
  unfold endStage8
  split
  · exact .inr (stage_putStage _ (by decide))
  · exact .inl h

theorem regBit_endStage8 {off j : Nat} (h : off ≠ Reg.globalStat ∨ 3 < j) : regBit (endStage8 s) off j = regBit s off j := by
  unfold endStage8
  split
  · exact regBit_putStage s 9 off h
  · rfl

theorem stage_openShares (s : State) : stage (openShares s) = 8 := stage_putStage _ (by decide)

theorem endStage8_acts (s : State) : (endStage8 s).acts = s.acts := ((endStage8_only (m := 0x2) .refl ⟨rfl⟩).out .acts rfl).symm

theorem openShares_acts (s : State) : (openShares s).acts = s.acts :=
  ((putField_only _ _ _ _ (m := 0x1000002) (onlyFold .refl fun _ ht _ => openShareAt_only _ ht ⟨rfl⟩) ⟨rfl⟩).out .acts rfl).symm

theorem endCal_acts {full : Bool} {y : Activity} (hy : y ∈ (endCal a full s).acts) : y.num ≠ a.num := by
  have hmem := (List.mem_filter.1 hy).2
  simpa using hmem

/-- The calibration that ran has ended, its source is shown, and the open share of every live site is in service. -/
theorem endStage7_spec (h : s.acts.find? (fun a => a.opcode == opCa && a.mode == .running) = some a) :
    (stage (endStage7 fs rs s) = 8 ∨ stage (endStage7 fs rs s) = 9) ∧
      (∀ y : Activity, y ∈ (endStage7 fs rs s).acts → y.num ≠ a.num) ∧
      regBit (endStage7 fs rs s) Reg.globalStat 8 = !fullCal a fs ∧
      ∀ i, i < 16 → siteFailed s i = false → regBit (endStage7 fs rs s) (Reg.basinStat i) 1 = true := by
  have hbefore : Calm s (keepImage (fullCal a fs) a (rejectCals rs s)) := keepImage_calm (rejectCals_calm .refl)
  rw [endStage7_eq h, advanceStart_of_stage_eight (stage_openShares _)]
  generalize keepImage (fullCal a fs) a (rejectCals rs s) = v at hbefore ⊢
  refine ⟨stage_endStage8 (stage_openShares _), fun y hy => ?_, ?_, fun i hi hsite => ?_⟩
  · rw [endStage8_acts, openShares_acts] at hy
    exact endCal_acts hy
  · rw [regBit_endStage8 (.inr (by decide)), openShares, regBit_putStage _ _ _ (.inr (by decide)),
      (openShares_calm _ .refl).bits _ pillar_globalStat 8 (by decide), (endCal_calm _ _ v).bits _ pillar_globalStat 8 (by decide),
      regBit_putBit_self]
  · have hne : Reg.basinStat i ≠ Reg.globalStat := by unfold Reg.basinStat Reg.globalStat; omega
    rw [regBit_endStage8 (.inl hne), openShares, regBit_putStage _ _ _ (.inl hne)]
    refine regBit_openShares (.inl (mem_liveSites.2 ⟨hi, ?_⟩))
    rw [siteFailed_endCal hi, siteFailed_of_calm hbefore hi, hsite]

end

/-! PROOFS. The family 02_time_and_clocks: the light of the Outlets and the bounds of the stages (R612, R614). -/

/-! ### Links that are placed (R612) -/

section
variable {s t : State} {o v off : Nat} {c : Bool}

theorem reg_setLinkState_other (s : State) (o v : Nat) (hstat : off ≠ Reg.linkStat o) (hfabric : off ≠ Reg.fabricStat) :
    reg (setLinkState s o v) off = reg s off := by
  unfold setLinkState
  dsimp only
  rw [reg_putField_other _ _ _ _ _ _ hfabric, reg_putField_other _ _ _ _ _ _ hstat, reg_putField_other _ _ _ _ _ _ hstat]

theorem linkStateOf_setLinkState (s : State) (o : Nat) (hv : v < 8) : linkStateOf (setLinkState s o v) o = v := by
  have hfabric : Reg.linkStat o ≠ Reg.fabricStat := by unfold Reg.linkStat Reg.fabricStat; omega
  have hlow : linkStateOf (setLinkState s o v) o = field (putField s (Reg.linkStat o) 2 0 v) (Reg.linkStat o) 2 0 := by
    unfold setLinkState
    dsimp only
    refine field_of_bits fun j _ hj => ?_
    rw [regBit, reg_putField_other _ _ _ _ _ _ hfabric, putField, reg_putReg_self, bit_setBits_other _ _ _ _ _ (by decide)
      (.inl (by omega)), ← regBit]
  rw [hlow, field_putField _ _ _ _ _ (by decide)]
  exact Nat.mod_eq_of_lt hv

theorem linkLanes_ne (o p : Nat) : Reg.linkLanes o ≠ Reg.linkStat p ∧ Reg.linkLanes o ≠ Reg.fabricStat := by
  unfold Reg.linkLanes Reg.linkStat Reg.fabricStat; omega

theorem reg_placeLanes_other (s : State) (o : Nat) (hstat : off ≠ Reg.linkStat o) (hfabric : off ≠ Reg.fabricStat)
    (hlanes : off ≠ Reg.linkLanes o) : reg (placeLanes s o) off = reg s off := by
  rw [placeLanes, reg_putField_other _ _ _ _ _ _ hlanes, reg_setLinkState_other _ _ _ hstat hfabric]

theorem field_placeLanes (s : State) (o : Nat) : field (placeLanes s o) (Reg.linkLanes o) 14 0 = 0x3210 := by
  rw [placeLanes, field_putField _ _ _ _ _ (by decide)]
  rfl

theorem not_pillar_linkLanes (o : Nat) : ¬ Pillar (Reg.linkLanes o) := not_pillar_of_high (by unfold Reg.linkLanes; omega)
theorem not_pillar_optStat (o : Nat) : ¬ Pillar (Reg.optStat o) := not_pillar_of_high (by unfold Reg.optStat; omega)
theorem not_pillar_optFlags (o : Nat) : ¬ Pillar (Reg.optFlags o) := not_pillar_of_high (by unfold Reg.optFlags; omega)

theorem placeLanes_calm {s0 : State} (h : Calm s0 s) : Calm s0 (placeLanes s o) :=
  putField_calm (not_pillar_linkLanes o) (setLinkState_calm h)

theorem opticsSleep_calm {s0 : State} (h : Calm s0 s) : Calm s0 (opticsSleep s o) :=
  raiseFlag_calm (not_pillar_optFlags o) (putField_calm (not_pillar_optStat o) (putField_calm (not_pillar_optStat o) h))

/-! ### OUTLET_LIGHT (R612) -/

/-- The fibre of an Outlet is found or not, and its lanes are placed. -/
def lightPlaced (o : Nat) (c : Bool) (s : State) : State := placeLanes (modLink s o fun l => { l with cabled := c }) o

/-- The Outlet's optics sleep, or its shutters open. -/
def lightSet (o : Nat) (asleep : Bool) (s : State) : State :=
  if asleep then opticsSleep s o else putField s (Reg.optStat o) 13 8 (openShutters s o)

theorem outletLight_stays (h : stage s ≠ 8 ∨ startFailed s = true ∨ outletLit s o = true) : outletLight o c s = s := by
  refine if_pos ?_
  simp only [Bool.or_eq_true, bne_iff_ne]
  tauto

theorem outletLight_eq {asleep : Bool} (hstage : stage s = 8) (hfailed : startFailed s = false) (hlit : outletLit s o = false)
    (ha : asleep = (!c || (hasCoord (lightPlaced o c s) && flatLink (lightPlaced o c s) o))) :
    outletLight o c s = advanceStart (setLinkState (lightSet o asleep (lightPlaced o c s)) o (if asleep then 5 else 1)) := by
  have hgo : ¬ (stage s != 8 || startFailed s || outletLit s o) = true := by simp [hstage, hfailed, hlit]
  unfold outletLight
  rw [if_neg hgo]
  extract_lets u b v
  have hu : u = lightPlaced o c s := rfl
  have hb : b = (!c || (hasCoord u && flatLink u o)) := rfl
  have hv : v = if b then setLinkState (opticsSleep u o) o 5
      else setLinkState (putField u (Reg.optStat o) 13 8 (openShutters u o)) o 1 := rfl
  clear_value v b u
  rw [hv, hb, hu, ← ha, lightSet]
  cases asleep
  · rw [if_neg Bool.false_ne_true, if_neg Bool.false_ne_true, if_neg Bool.false_ne_true]
  · rw [if_pos rfl, if_pos rfl, if_pos rfl]

theorem regs_lightPlaced (o : Nat) (c : Bool) (s : State) : (lightPlaced o c s).regs = (placeLanes s o).regs := rfl

theorem reg_lightPlaced_coord (ho : o < 16) (c : Bool) (s : State) :
    reg (lightPlaced o c s) Reg.fabricCoord = reg s Reg.fabricCoord := by
  rw [reg_of (regs_lightPlaced o c s)]
  exact reg_placeLanes_other s o (by unfold Reg.fabricCoord Reg.linkStat; omega) (by decide)
    (by unfold Reg.fabricCoord Reg.linkLanes; omega)

theorem lightSet_calm (o : Nat) (b : Bool) {s0 : State} (h : Calm s0 s) : Calm s0 (lightSet o b s) :=
  ite_calm (opticsSleep_calm h) (putField_calm (not_pillar_optStat o) h)

theorem reg_lightSet_other (o : Nat) (b : Bool) (s : State) (hstat : off ≠ Reg.optStat o) (hflags : off ≠ Reg.optFlags o) :
    reg (lightSet o b s) off = reg s off := by
  cases b
  · exact reg_putField_other _ _ _ _ _ _ hstat
  · exact (reg_raiseFlag_other _ _ _ _ hflags).trans
      ((reg_putField_other _ _ _ _ _ _ hstat).trans (reg_putField_other _ _ _ _ _ _ hstat))

theorem links_lightSet (o : Nat) (b : Bool) (s : State) : (lightSet o b s).links = s.links := by
  cases b <;> rfl

theorem cabled_lightPlaced (o : Nat) (c : Bool) (s : State) : (link (lightPlaced o c s) o).cabled = c := by
  have hlinks : (lightPlaced o c s).links = (modLink s o fun l => { l with cabled := c }).links := rfl
  rw [link_of hlinks, link_modLink_self]

theorem reg_endStage8_other (h : off ≠ Reg.globalStat) : reg (endStage8 s) off = reg s off := by
  unfold endStage8
  split
  · exact reg_putField_other _ _ _ _ _ _ h
  · rfl

theorem link_endStage8 (s : State) (o : Nat) : link (endStage8 s) o = link s o := by
  have hlinks : (endStage8 s).links = s.links := ((endStage8_only (m := 0x2) .refl ⟨rfl⟩).out .links rfl).symm
  exact link_of hlinks o

theorem reg_linkLanes_lightDone (o v : Nat) (c b : Bool) (s : State) :
    reg (endStage8 (setLinkState (lightSet o b (lightPlaced o c s)) o v)) (Reg.linkLanes o) =
      reg (placeLanes s o) (Reg.linkLanes o) := by
  have hlanes := linkLanes_ne o o
  rw [reg_endStage8_other (by unfold Reg.linkLanes Reg.globalStat; omega), reg_setLinkState_other _ _ _ hlanes.1 hlanes.2,
    reg_lightSet_other _ _ _ (by unfold Reg.linkLanes Reg.optStat; omega) (by unfold Reg.linkLanes Reg.optFlags; omega),
    reg_of (regs_lightPlaced o c s)]

theorem field_linkLanes_lightDone (o v : Nat) (c b : Bool) (s : State) :
    field (endStage8 (setLinkState (lightSet o b (lightPlaced o c s)) o v)) (Reg.linkLanes o) 14 0 = 0x3210 := by
  rw [field, reg_linkLanes_lightDone]
  exact field_placeLanes s o

theorem setLinkState_links (s : State) (o v : Nat) : (setLinkState s o v).links = s.links :=
  ((setLinkState_only (m := 0x2) o v .refl ⟨rfl⟩).out .links rfl).symm

theorem cabled_lightDone (o v : Nat) (c b : Bool) (s : State) :
    (link (endStage8 (setLinkState (lightSet o b (lightPlaced o c s)) o v)) o).cabled = c := by
  rw [link_endStage8, link_of (setLinkState_links _ _ _), link_of (links_lightSet _ _ _), cabled_lightPlaced]

theorem linkStateOf_lightDone (o : Nat) (s : State) (hv : v < 8) : linkStateOf (endStage8 (setLinkState s o v)) o = v := by
  rw [linkStateOf, field, reg_endStage8_other (by unfold Reg.linkStat Reg.globalStat; omega), ← field, ← linkStateOf]
  exact linkStateOf_setLinkState _ _ hv

theorem hasCoord_lightPlaced (ho : o < 16) (c : Bool) (s : State) : hasCoord (lightPlaced o c s) = hasCoord s := by
  rw [hasCoord, regBit, reg_lightPlaced_coord ho c s, ← regBit, hasCoord]

theorem flatLink_lightPlaced (ho : o < 16) (c : Bool) (s : State) : flatLink (lightPlaced o c s) o = flatLink s o := by
  rw [flatLink, sizeOf, field, reg_lightPlaced_coord ho c s, ← field, ← sizeOf, flatLink]

/-- An Outlet's link trains, or sleeps without a fibre and where the torus is flat. -/
theorem outletLight_runs {asleep : Bool} (ho : o < 16) (hstage : stage s = 8) (hfailed : startFailed s = false)
    (hlit : outletLit s o = false) (ha : asleep = (!c || (hasCoord s && flatLink s o))) :
    outletLight o c s = endStage8 (setLinkState (lightSet o asleep (lightPlaced o c s)) o (if asleep then 5 else 1)) := by
  have hset : Calm s (setLinkState (lightSet o asleep (lightPlaced o c s)) o (if asleep then 5 else 1)) :=
    setLinkState_calm (lightSet_calm o asleep (placeLanes_calm (quiet_calm (modLink_only _ _ .refl ⟨rfl⟩) .refl)))
  rw [outletLight_eq (asleep := asleep) hstage hfailed hlit (by rw [hasCoord_lightPlaced ho, flatLink_lightPlaced ho, ha]),
    advanceStart_of_stage_eight ((stage_of_calm hset).trans hstage)]

theorem outletLight_spec (ho : o < 16) (hstage : stage s = 8) (hfailed : startFailed s = false) (hlit : outletLit s o = false) :
    field (outletLight o c s) (Reg.linkLanes o) 14 0 = 0x3210 ∧ (link (outletLight o c s) o).cabled = c ∧
      linkStateOf (outletLight o c s) o = if !c || (hasCoord s && flatLink s o) then 5 else 1 := by
  rw [outletLight_runs ho hstage hfailed hlit rfl]
  exact ⟨field_linkLanes_lightDone _ _ _ _ _, cabled_lightDone _ _ _ _ _, linkStateOf_lightDone _ _ (by split <;> decide)⟩

/-! ### The bound of stage 8 (R614) -/

/-- A link whose Outlet has no light yet is taken as down. -/
def darkLink (s : State) (o : Nat) : State := if outletLit s o then s else setLinkState (placeLanes s o) o 4

theorem bound8_eq (s : State) : bound8 s = advanceStart ((List.range 16).foldl darkLink s) := rfl

theorem darkLink_calm {s0 : State} (h : Calm s0 s) (o : Nat) : Calm s0 (darkLink s o) :=
  ite_calm h (setLinkState_calm (placeLanes_calm h))

theorem outletLit_of {p : Nat} (hsite : reg t (Reg.siteStat p) = reg s (Reg.siteStat p))
    (hport : reg t (Reg.powerDomain (domPort p)) = reg s (Reg.powerDomain (domPort p)))
    (houtlet : reg t (Reg.powerDomain (domOutlet p)) = reg s (Reg.powerDomain (domOutlet p)))
    (hlanes : reg t (Reg.linkLanes p) = reg s (Reg.linkLanes p)) : outletLit t p = outletLit s p := by
  simp only [outletLit, siteFailed, regBit, domOn, domState, field, hsite, hport, houtlet, hlanes]

theorem outletLit_darkLink_self (s : State) (o : Nat) : outletLit (darkLink s o) o = true := by
  unfold darkLink
  split
  · next h => exact h
  · have hlanes := linkLanes_ne o o
    have hreg := reg_setLinkState_other (placeLanes s o) o 4 hlanes.1 hlanes.2
    have hfield : field (setLinkState (placeLanes s o) o 4) (Reg.linkLanes o) 14 0 = 0x3210 := by
      rw [field, hreg]
      exact field_placeLanes s o
    rw [outletLit, hfield, Bool.or_eq_true]
    exact .inr (by decide)

theorem outletLit_darkLink_other {p : Nat} (hp : p < 16) (hne : p ≠ o) : outletLit (darkLink s o) p = outletLit s p := by
  have hlow {off : Nat} (h : off < 0x200_0000) : reg (setLinkState (placeLanes s o) o 4) off = reg s off := by
    have hregs : off ≠ Reg.linkStat o ∧ off ≠ Reg.fabricStat ∧ off ≠ Reg.linkLanes o := by
      unfold Reg.linkStat Reg.fabricStat Reg.linkLanes; omega
    rw [reg_setLinkState_other _ _ _ hregs.1 hregs.2.1, reg_placeLanes_other _ _ hregs.1 hregs.2.1 hregs.2.2]
  unfold darkLink
  split
  · rfl
  · refine outletLit_of (hlow ?_) (hlow ?_) (hlow ?_) ?_
    · unfold Reg.siteStat; omega
    · unfold Reg.powerDomain domPort; omega
    · unfold Reg.powerDomain domOutlet; omega
    · rw [reg_setLinkState_other _ _ _ (linkLanes_ne p o).1 (linkLanes_ne p o).2, reg_placeLanes_other _ _ (linkLanes_ne p o).1
        (linkLanes_ne p o).2 (by unfold Reg.linkLanes; omega)]

theorem outletLit_darkLinks {p : Nat} (hp : p < 16) {l : List Nat} (h : p ∈ l ∨ outletLit s p = true) :
    outletLit (l.foldl darkLink s) p = true := by
  induction l generalizing s with
  | nil => exact h.resolve_left List.not_mem_nil
  | cons o l ih =>
    rw [List.foldl_cons]
    refine ih ?_
    by_cases hpo : p = o
    · subst hpo
      exact .inr (outletLit_darkLink_self s p)
    · refine h.imp (fun hmem => (List.mem_cons.1 hmem).resolve_left hpo) fun hlit => ?_
      exact (outletLit_darkLink_other hp hpo).trans hlit

theorem stage_bound8 (h : InStage s 8) : stage (bound8 s) = 9 := by
  obtain ⟨hstage, hfailed, -⟩ := inStage_of_calm (foldl_calm (s0 := s) (l := List.range 16)
    (fun _ ht o _ => darkLink_calm ht o) .refl) h
  have hlit : (List.range 16).all (outletLit ((List.range 16).foldl darkLink s)) = true :=
    List.all_eq_true.2 fun o ho => outletLit_darkLinks (List.mem_range.1 ho) (.inl ho)
  rw [bound8_eq, advanceStart_of_stage_eight hstage, endStage8, if_pos (by simp only [hstage, hfailed, hlit]; rfl),
    stage_putStage _ (by decide)]

/-! ### The bounds of stages 5 to 7 (R614) -/

/-- The cause for which a site fails at the bound of stage 5: its training, or its negotiation. -/
def boundCause (s : State) (i : Nat) : Nat :=
  if field s (Reg.memCfg i) 1 0 != 3 then 4 else if (aba s i).nego == .committed || (aba s i).nego == .ended then 0 else 2

/-- A Spring that still ramps at the bound has failed. -/
def dropSprings (s : State) : State :=
  (List.range 10).foldl (fun s n => if springState s n == 1 then springDown s n .domain else s) s

theorem bound5_eq (s : State) : bound5 s = enterStage6 (holdSites (dropSprings s) boundCause) := rfl

theorem dropSprings_calm (s : State) : Calm s (dropSprings s) :=
  foldl_calm (fun _ ht _ hn => skip_calm ht fun h => springDown_calm h (List.mem_range.1 hn)) .refl

theorem siteFailed_bound5 {i : Nat} (hi : i < 16) (hserves : weirServes s = true) (h : field s (Reg.memCfg i) 1 0 ≠ 3) :
    siteFailed (bound5 s) i = true := by
  have hsprings := dropSprings_calm s
  rw [bound5_eq]
  refine siteFailed_enterStage6 hi (siteFailed_holdSites hi (hsprings.serves.trans hserves) fun t ht hsite => ?_)
  have htrained : field t (Reg.memCfg i) 1 0 ≠ 3 := by rwa [ht.trained i hi hsite, trained_of_calm hsprings hi]
  rw [boundCause, if_pos (by simpa using htrained)]
  decide

theorem stage_bound5 (s : State) : stage (bound5 s) = 6 := stage_enterStage6 _

variable {m : BitVec 16}

theorem stageBoundExpiry_stays (h : startFailed s = true ∨ weirServes s = false ∨ stage s < 5 ∨ 8 < stage s) :
    stageBoundExpiry m s = s := by
  unfold stageBoundExpiry
  split
  · rfl
  · next hgo =>
    simp only [Bool.or_eq_true, Bool.not_eq_true', not_or] at hgo
    have hstage : stage s < 5 ∨ 8 < stage s := (h.resolve_left hgo.1).resolve_left hgo.2
    rw [if_neg (by simp; omega), if_neg (by simp; omega), if_neg (by simp; omega), if_neg (by simp; omega)]

theorem stageBoundExpiry_runs {n : Nat} (h : InStage s n) : stageBoundExpiry m s =
    if n = 5 then bound5 s
    else if n = 6 then
      endStage6 (settleDomains s ((((liveSites s).flatMap siteCores).filter fun c => !bit m.toNat (c / 4)).map domCore))
        fun c => bit m.toNat (c / 4)
    else if n = 7 then bound7 s
    else if n = 8 then bound8 s
    else s := by
  obtain ⟨rfl, hfailed, hserves⟩ := h
  unfold stageBoundExpiry
  rw [if_neg (by simp [hfailed, hserves])]
  simp only [beq_iff_eq]

theorem lt_of_mem_onTime {k : Nat} (h : k ∈ ((liveSites s).flatMap siteCores).filter fun c => !bit m.toNat (c / 4)) : k < 64 :=
  lt_of_mem_siteCores (List.mem_filter.1 h).1

/-- At the bound of stage 6 the cores of the late sites are fenced. -/
theorem bound6_spec (h : InStage s 6) : stage (stageBoundExpiry m s) = 7 ∧
    ∀ k, k < 64 → siteFailed s (k / 4) = false → bit m.toNat (k / 4) = true → (core (stageBoundExpiry m s) k).fenced = true := by
  rw [stageBoundExpiry_runs h, if_neg (by decide), if_pos rfl]
  refine ⟨stage_endStage6 _ _, fun k hk hsite hlate => fenced_endStage6 hk ?_ hlate⟩
  rw [siteFailed_coresReady hk fun _ hmem => lt_of_mem_onTime hmem, hsite]

theorem bound7_eq (s : State) : bound7 s = endStage7 []
    ((List.range 4096).filter fun c => !siteFailed s (c / 256) && !regBit s (Reg.lightTxcal (c / 256) (c % 256)) 31) s := rfl

theorem stage_bound7 (h : InStage s 7) (hacts : ∃ a : Activity, a ∈ s.acts ∧ a.opcode = opCa ∧ a.mode = .running) :
    stage (stageBoundExpiry m s) = 8 ∨ stage (stageBoundExpiry m s) = 9 := by
  rw [stageBoundExpiry_runs h, if_neg (by decide), if_neg (by decide), if_pos rfl, bound7_eq]
  cases hfind : s.acts.find? fun a => a.opcode == opCa && a.mode == .running with
  | some a => exact (endStage7_spec hfind).1
  | none =>
    obtain ⟨a, ha, hop, hmode⟩ := hacts
    exact absurd (List.find?_eq_none.1 hfind a ha) (by simp [hop, hmode])

theorem bound7_stays (h : InStage s 7) (hacts : ∀ a : Activity, a ∈ s.acts → ¬ (a.opcode = opCa ∧ a.mode = .running)) :
    stageBoundExpiry m s = s := by
  have hfind : s.acts.find? (fun a => a.opcode == opCa && a.mode == .running) = none :=
    List.find?_eq_none.2 fun a ha => by simpa using hacts a ha
  rw [stageBoundExpiry_runs h, if_neg (by decide), if_neg (by decide), if_pos rfl, bound7_eq, endStage7, hfind]

end

/-! PROOFS. The family 02_time_and_clocks: the module becomes ready (R59, R615). -/

/-! ### Partitions that are destroyed (R615) -/

section
variable {s : State} {p q : Nat}

theorem tfind_tput_other {t : Table Partition} {x : Partition} (h : p ≠ q) : tfind (tput .reset t q x) p = tfind t p := by
  unfold tput
  split
  · rw [tfind_tdel, if_neg h]
  · rw [tfind_tins, if_neg h]

theorem tfind_tput_reset (t : Table Partition) (p : Nat) : tfind (tput .reset t p .reset) p = none := by
  rw [tput, if_pos rfl, tfind_tdel, if_pos rfl]

theorem mem_of_tfind {α : Type} {t : Table α} {k : Nat} {v : α} (h : tfind t k = some v) : (k, v) ∈ t := by
  induction t with
  | nil => cases h
  | cons e t ih =>
    rw [tfind] at h
    split at h
    · next hk =>
      cases h
      exact List.mem_cons.2 (.inl (by rw [← hk]))
    · exact List.mem_cons_of_mem e (ih h)

theorem ne_of_tfind_none {α : Type} {t : Table α} {k : Nat} (h : tfind t k = none) : ∀ e : Nat × α, e ∈ t → e.1 ≠ k := by
  induction t with
  | nil => exact fun e he => absurd he List.not_mem_nil
  | cons a t ih =>
    rw [tfind] at h
    split at h
    · cases h
    · next hk =>
      intro e he
      obtain rfl | hmem := List.mem_cons.1 he
      · exact hk
      · exact ih h e hmem

/-- What a partition holds is taken from it. -/
def takeUnits (p : Nat) (s : State) : State :=
  let x := part s p
  let s := clearKeys s p
  let s := x.slices.foldl (fun s e => cacheForget s e.1 fun l => partOfAddr s (256 * l) == p) s
  (x.units.map (·.1)).foldl (takeUnit p) s

/-- Cores that no partition has any more are idle from now on. -/
def idleCores (l : List Nat) (s : State) : State :=
  l.foldl (fun s c => modCore s c fun y => { y with idleSince := some s.time.now }) s

theorem tearDown_eq (s : State) (p : Nat) :
    tearDown s p = idleCores (maskList (part s p).cores.toNat 64) (putPart (takeUnits p s) p .reset) := rfl

theorem clearKeys_calm {s0 : State} (p : Nat) (h : Calm s0 s) : Calm s0 (clearKeys s p) := by
  unfold clearKeys
  extract_lets ks mine u es
  have hu : Calm s0 u := foldl_calm (fun _ ht n _ =>
    ite_calm (putReg_calm (not_pillar_basinKey (n / 16) (Nat.mod_lt n (by decide))) ht) ht) h
  exact same_calm hu rfl rfl rfl

theorem takeUnit_keeps_others (hpq : p ≠ q) (s : State) (u : Nat) : tfind (takeUnit q s u).parts p = tfind s.parts p := by
  unfold takeUnit
  split
  · rfl
  · have hlines (t : State) : (dropUnitLines t u).parts = t.parts :=
      ((dropUnitLines_only (m := 0x1000000) u .refl ⟨rfl⟩).out .parts rfl).symm
    rw [hlines]
    exact tfind_tput_other hpq

theorem takeUnits_keeps_others (hpq : p ≠ q) (s : State) : tfind (takeUnits q s).parts p = tfind s.parts p := by
  have hkeys : Only 0x20001000002 s ((part s q).slices.foldl (fun s e => cacheForget s e.1 fun l => partOfAddr s (256 * l) == q)
      (clearKeys s q)) := onlyFold (clearKeys_only q .refl ⟨rfl⟩) fun _ ht _ => cacheForget_only _ _ ht ⟨rfl⟩
  have hparts := (hkeys.out .parts rfl).symm
  exact List.foldlRecOn _ _ (motive := fun t : State => tfind t.parts p = tfind s.parts p) (by rw [hparts]) fun t ht u _ =>
    (takeUnit_keeps_others hpq t u).trans ht

theorem takeUnits_calm {s0 : State} (p : Nat) (h : Calm s0 s) : Calm s0 (takeUnits p s) :=
  foldl_calm (fun _ ht _ _ => quiet_calm (takeUnit_only _ _ .refl ⟨rfl⟩) ht)
    (foldl_calm (fun _ ht _ _ => quiet_calm (cacheForget_only _ _ .refl ⟨rfl⟩) ht) (clearKeys_calm p h))

theorem tearDown_calm {s0 : State} (h : Calm s0 s) (p : Nat) : Calm s0 (tearDown s p) := by
  rw [tearDown_eq]
  exact foldl_calm (fun _ ht _ _ => modCore_calm (fun _ hf => hf) ht)
    (quiet_calm (putPart_only _ _ .refl ⟨rfl⟩) (takeUnits_calm p h))

theorem tearDown_parts (s : State) (q : Nat) : (tearDown s q).parts = tput .reset (takeUnits q s).parts q .reset :=
  have hcores : Only 0x10000 (putPart (takeUnits q s) q .reset) (tearDown s q) :=
    onlyFold .refl fun _ ht _ => modCore_only _ _ ht ⟨rfl⟩
  (hcores.out .parts rfl).symm

/-- A partition that is gone stays so while others are destroyed. -/
theorem gone_tearDown (h : p = q ∨ tfind s.parts p = none) : tfind (tearDown s q).parts p = none := by
  rw [tearDown_parts]
  by_cases hpq : p = q
  · rw [hpq]; exact tfind_tput_reset _ q
  · rw [tfind_tput_other hpq, takeUnits_keeps_others hpq]
    exact h.resolve_left hpq

theorem gone_tearDowns {l : List Nat} (h : p ∈ l ∨ tfind s.parts p = none) : tfind (l.foldl tearDown s).parts p = none := by
  induction l generalizing s with
  | nil => exact h.resolve_left List.not_mem_nil
  | cons q l ih =>
    rw [List.foldl_cons]
    refine ih ?_
    by_cases hpq : p = q
    · exact .inr (gone_tearDown (.inl hpq))
    · exact h.imp (fun hmem => (List.mem_cons.1 hmem).resolve_left hpq) fun hgone => gone_tearDown (.inr hgone)

/-- The partitions that were being destroyed. -/
def doomed (s : State) : List Nat := (s.parts.filter fun e => e.2.mode == .destroying).map (·.1)

theorem mem_doomed (h : (part s p).mode = .destroying) : p ∈ doomed s := by
  rw [part, tget] at h
  cases hfind : tfind s.parts p with
  | none => rw [hfind] at h; cases h
  | some x =>
    rw [hfind] at h
    exact List.mem_map.2 ⟨(p, x), List.mem_filter.2 ⟨mem_of_tfind hfind, by simpa using h⟩, rfl⟩

/-- A partition's fenced cores leave it. -/
def dropFencedAll (s : State) : State :=
  { s with parts := s.parts.foldl (fun u e => tput .reset u e.1 (dropFenced s e.2)) [] }

/-- Each live site has its split of the island's record. -/
def restoreSplits (s : State) : State :=
  (liveSites s).foldl (fun s i => putField s (Reg.memCfg i) 17 16 (tget 2 s.island.split i)) s

theorem restoreParts_eq (s : State) : restoreParts s = restoreSplits (dropFencedAll ((doomed s).foldl tearDown s)) := rfl

theorem gone_dropFencedAll (h : tfind s.parts p = none) : tfind (dropFencedAll s).parts p = none :=
  List.foldlRecOn (motive := fun u : Table Partition => tfind u p = none) _ _ rfl fun _ hu e he =>
    (tfind_tput_other (ne_of_tfind_none h e he).symm).trans hu

theorem restoreSplits_only (s : State) : Only 0x2 s (restoreSplits s) := onlyFold .refl fun _ ht _ => putField_only _ _ _ _ ht ⟨rfl⟩

theorem absent_restoreParts (h : (part s p).mode = .destroying) : (part (restoreParts s) p).mode = .absent := by
  have hgone := gone_dropFencedAll (gone_tearDowns (s := s) (.inl (mem_doomed h)))
  rw [restoreParts_eq, part_of ((restoreSplits_only _).out .parts rfl).symm, part, tget, hgone]
  rfl

theorem regBit_restoreSplits (s : State) (i : Nat) : regBit (restoreSplits s) Reg.globalStat i = regBit s Reg.globalStat i := by
  have hreg : reg (restoreSplits s) Reg.globalStat = reg s Reg.globalStat :=
    List.foldlRecOn _ _ (motive := fun t : State => reg t Reg.globalStat = reg s Reg.globalStat) rfl fun t ht i _ =>
      (reg_putField_other _ _ _ _ _ _ (memCfg_ne_globalStat i).symm).trans ht
  rw [regBit, hreg, regBit]

theorem regBit_restoreParts (s : State) {i : Nat} (hi : i < 30) :
    regBit (restoreParts s) Reg.globalStat i = regBit s Reg.globalStat i := by
  have hcalm : Calm s (dropFencedAll ((doomed s).foldl tearDown s)) :=
    same_calm (foldl_calm (l := doomed s) (fun _ ht p _ => tearDown_calm ht p) .refl) rfl rfl rfl
  rw [restoreParts_eq, regBit_restoreSplits, hcalm.bits _ pillar_globalStat i hi]

/-! ### READY (R59, R615) -/

theorem ready_stays (h : ¬ InStage s 9 ∨ regBit s Reg.globalStat 5 = true) : ready s = s := by
  refine if_pos ?_
  rw [Bool.or_eq_true, inStage_test]
  exact h

/-- That the island used VKEEP is flagged, once. -/
def noteVkeep (s : State) : State :=
  let s := if s.island.vkeepUsed then raiseFlag s Reg.powerFlags 4 else s
  { s with island := { s.island with vkeepUsed := false } }

/-- READY and DEGRADED are shown. -/
def readyShown (s : State) : State :=
  putBit (putBit (noteVkeep s) Reg.globalStat 5 true) Reg.globalStat 6 (anyFailed (noteVkeep s))

theorem ready_runs {u : State} (hu : u = restoreParts s) (hstage : InStage s 9) (hready : regBit s Reg.globalStat 5 = false) :
    ready s = if someUsable u then discoveryStart (readyShown u) else failStart u 5 10 (unitNo 0x00 0) := by
  have hgo : ¬ (stage s != 9 || startFailed s || !weirServes s || regBit s Reg.globalStat 5) = true := by
    rw [Bool.or_eq_true, inStage_test, hready]
    simp [hstage]
  unfold ready
  rw [if_neg hgo, ← hu]
  change (if (!someUsable u) = true then failStart u 5 10 (unitNo 0x00 0) else discoveryStart (readyShown u)) = _
  cases someUsable u <;> rfl

theorem discoveryStart_calm {s0 : State} (h : Calm s0 s) : Calm s0 (discoveryStart s) := by
  refine ite_calm h (foldl_calm (fun t ht o _ => ite_calm ht (ite_calm (ite_calm ht ?_) (ite_calm ht (setLinkState_calm ht))))
    (putField_calm (by simp) h))
  exact opticsSleep_calm (setLinkState_calm ht)

theorem noteVkeep_sites (s : State) : (noteVkeep s).sites = s.sites := by unfold noteVkeep; split <;> rfl
theorem noteVkeep_cores (s : State) : (noteVkeep s).cores = s.cores := by unfold noteVkeep; split <;> rfl
theorem noteVkeep_springs (s : State) : (noteVkeep s).springs = s.springs := by unfold noteVkeep; split <;> rfl
theorem noteVkeep_parts (s : State) : (noteVkeep s).parts = s.parts := by unfold noteVkeep; split <;> rfl

theorem reg_noteVkeep_other {off : Nat} (h : off ≠ Reg.powerFlags) : reg (noteVkeep s) off = reg s off := by
  have hregs : (noteVkeep s).regs = (if s.island.vkeepUsed then raiseFlag s Reg.powerFlags 4 else s).regs := rfl
  rw [reg_of hregs]
  split
  · exact reg_raiseFlag_other _ _ _ _ h
  · rfl

theorem anyFailed_noteVkeep (s : State) : anyFailed (noteVkeep s) = anyFailed s := by
  have hstat (i : Nat) : reg (noteVkeep s) (Reg.siteStat i) = reg s (Reg.siteStat i) :=
    reg_noteVkeep_other (by unfold Reg.siteStat Reg.powerFlags; omega)
  have hcause (i : Nat) : reg (noteVkeep s) (Reg.siteFailCause i) = reg s (Reg.siteFailCause i) :=
    reg_noteVkeep_other (by unfold Reg.siteFailCause Reg.powerFlags; omega)
  simp only [anyFailed, siteFailed, regBit, hstat, hcause, site_of (noteVkeep_sites s), core_of (noteVkeep_cores s),
    spring_of (noteVkeep_springs s)]

theorem readyShown_spec (u : State) :
    regBit (discoveryStart (readyShown u)) Reg.globalStat 5 = true ∧
      regBit (discoveryStart (readyShown u)) Reg.globalStat 6 = anyFailed u ∧
      (discoveryStart (readyShown u)).island.vkeepUsed = false ∧ (discoveryStart (readyShown u)).parts = u.parts := by
  have hcalm : Calm (readyShown u) (discoveryStart (readyShown u)) := discoveryStart_calm .refl
  have honly := discoveryStart_only (m := 0x22) (s0 := readyShown u) .refl ⟨rfl⟩
  have hisland : (discoveryStart (readyShown u)).island = (readyShown u).island := (honly.out .island rfl).symm
  have hparts : (discoveryStart (readyShown u)).parts = (readyShown u).parts := (honly.out .parts rfl).symm
  refine ⟨?_, ?_, ?_, ?_⟩
  · rw [hcalm.bits _ pillar_globalStat 5 (by decide), readyShown, regBit_putBit, if_neg (by decide), regBit_putBit_self]
  · rw [hcalm.bits _ pillar_globalStat 6 (by decide), readyShown, regBit_putBit_self, anyFailed_noteVkeep]
  · rw [hisland]; rfl
  · rw [hparts]; exact noteVkeep_parts u

/-- With no usable site the start holds in stage 9. -/
theorem readyHeld_spec (hstage : InStage s 9) (hready : regBit s Reg.globalStat 5 = false) :
    startFailed (failStart (restoreParts s) 5 10 (unitNo 0x00 0)) = true ∧
      stage (failStart (restoreParts s) 5 10 (unitNo 0x00 0)) = 9 ∧
      regBit (failStart (restoreParts s) 5 10 (unitNo 0x00 0)) Reg.globalStat 5 = false := by
  obtain ⟨hheld, hkept⟩ := failStart_spec (restoreParts s) 5 10 (unitNo 0x00 0)
  have hcalm : Calm (holdStart (restoreParts s)) (failStart (restoreParts s) 5 10 (unitNo 0x00 0)) := fwLogSev_calm .refl
  have hnine : stage (restoreParts s) = 9 := (field_of_bits fun j _ hj => regBit_restoreParts s (by omega)).trans hstage.1
  refine ⟨hheld, hkept.trans hnine, ?_⟩
  rw [hcalm.bits _ pillar_globalStat 5 (by decide), regBit_holdStart_other _ (.inr (by decide)),
    regBit_restoreParts s (by decide), hready]

end

/-! PROOFS. The family 02_time_and_clocks: each stage's command (R59, R604 to R615). -/

section
variable (s : State)

theorem exec_weirBoot (w : Weir) (g0 g1 good : Bool) : exec (.weirBoot w g0 g1 good) s = .next (weirBoot w g0 g1 good s) := rfl
theorem exec_refSelectTimeout (l : Bool) : exec (.refSelectTimeout l) s = .next (refSelectTimeout l s) := rfl
theorem exec_tileAlignment (f : BitVec 9) (ds : List Nat) : exec (.tileAlignment f ds) s = .next (tileAlignment f ds s) := rfl
theorem exec_memoryTraining (i : SiteNo) (x y : Bool) (ls : List (Dir × Fin 1000 × Fin 64)) :
    exec (.memoryTraining i x ⟨y, ls⟩) s = .next (memoryTraining i x y ls s) := rfl
theorem exec_coreSelftest (f : BitVec 64) : exec (.coreSelftest f) s = .next (coreSelftest f s) := rfl
theorem exec_calStage (fs rs : List Nat) : exec (.calStage fs rs) s = .next (calStage fs rs s) := rfl
theorem exec_outletLight (o : OutletNo) (c : Bool) : exec (.outletLight o c) s = .next (outletLight o c s) := rfl
theorem exec_stageBoundExpiry (m : BitVec 16) : exec (.stageBoundExpiry m) s = .next (stageBoundExpiry m s) := rfl
theorem exec_ready : exec .ready s = .next (ready s) := rfl

end

/-- Settles O43: for each stage's command, where it changes nothing and what its stage ends with. -/
theorem startStagesTakeEffect : Obligations.StartStagesTakeEffect := by
  refine ⟨fun s u w g0 g1 good hu h => ?_, fun s u w g0 g1 good slot hu hstage hfailed hrun hw hon hslot => ?_, fun s l h => ?_,
    fun s l a b h ha hb => ?_, fun s f ds h => ?_, fun s u f ds h hrun hu => ?_, fun s i x y ls h => ?_,
    fun s i x y ls hstage hsite htrained => ?_, fun s f => ⟨fun h => ?_, fun h => ?_⟩, fun s fs rs h => ?_,
    fun s fs rs a h ha => ?_, fun s o c h => ?_, fun s o c hstage hfailed hlit => ?_,
    fun s m => ⟨fun h => ?_, fun h => ?_, fun h => ?_, fun h hacts => ?_, fun h hacts => ?_, fun h => ?_⟩, fun s h => ?_,
    fun s h hready => ?_⟩
  · rw [exec_weirBoot, weirBoot_stays hu h]
  · have hboot := weirBoot_runs (g0 := g0) (g1 := g1) (good := good) hu hstage hfailed hrun hw hon hslot
    refine ⟨fun k hk => ?_, fun hnone => ?_⟩
    · rw [hk] at hboot
      exact ⟨bootDone u w k good, by rw [exec_weirBoot, hboot], bootDone_spec u w k good⟩
    · rw [hnone] at hboot
      exact ⟨bootFailed u w, by rw [exec_weirBoot, hboot], bootFailed_spec hstage hfailed hrun⟩
  · rw [exec_refSelectTimeout, refSelectTimeout_stays l h]
  · obtain ⟨hnone, hunlocked, hlocked⟩ := refSelectTimeout_spec (l := l) h ha hb
    exact ⟨fun h1 h2 => ⟨_, exec_refSelectTimeout s l, hnone h1 h2⟩, fun h1 h2 => ⟨_, exec_refSelectTimeout s l, hunlocked h1 h2⟩,
      fun h1 h2 => ⟨_, exec_refSelectTimeout s l, hlocked h1 h2⟩⟩
  · rw [exec_tileAlignment, tileAlignment_stays h]
  · have hruns := tileAlignment_runs (f := f) (ds := ds) h hrun hu
    have htime := time_tilesReady hu
    refine ⟨fun hstage => ?_, fun hstage hf => ?_, fun hstage hf => ?_⟩
    · rw [exec_tileAlignment, hruns, if_pos (by simpa using hstage)]
    · obtain ⟨k, l, hmask⟩ := exists_mem_maskList hf
      obtain ⟨r, hfailed, hfour, hkept, hr⟩ := reportTiles_spec k l hstage
      refine ⟨_, r, ?_, hfailed, hfour, hkept.trans htime, hr⟩
      rw [exec_tileAlignment, hruns, if_neg (by simp [hstage]), hmask]
      rfl
    · obtain ⟨hfive, hfailed, hrunning, hnow, hflag⟩ := alignedStart_spec ds (startFailed_tilesReady h hu)
      rw [htime] at hnow hflag
      refine ⟨alignedStart ds u, ?_, hfive, hfailed, hrunning, ?_, hflag⟩
      · rw [exec_tileAlignment, hruns, if_neg (by simp [hstage]), if_neg (by simp [maskList_isEmpty_of_zero hf])]
      · rw [hnow, islandTime_of htime]
  · rw [exec_memoryTraining, memoryTraining_stays h]
  · have hruns := memoryTraining_runs (x := x) (y := y) (ls := ls) hstage hsite htrained
    cases hgood : x && y with
    | true =>
      rw [if_pos hgood] at hruns
      obtain ⟨hfive, hworks, hfield, huse⟩ := memoryInUse_spec (ls := ls) i.isLt hstage.1 hsite hgood
      refine ⟨_, by rw [exec_memoryTraining, hruns], hfive, fun _ => ⟨hworks, hfield, huse, fun a hp ha => byteAt_memoryInUse hp ha,
        fun d g v hls => ?_⟩, fun hbad => absurd hbad Bool.noConfusion⟩
      subst hls
      exact delayStep_memoryInUse rfl
    | false =>
      rw [if_neg (by rw [hgood]; exact Bool.false_ne_true)] at hruns
      obtain ⟨hfive, hfails⟩ := trainingFailed_spec (x := x) (y := y) (ls := ls) i.isLt hstage
      exact ⟨_, by rw [exec_memoryTraining, hruns], hfive, fun hbad => absurd hbad Bool.noConfusion, fun _ => hfails⟩
  · rw [exec_coreSelftest, coreSelftest_stays h]
  · rw [exec_coreSelftest, coreSelftest_runs h]
    refine ⟨_, rfl, stage_endStage6 _ _, fun c hc hsite hf => fenced_endStage6 hc ?_ hf,
      fun a hlo hhi => byteAt_endStage6 _ _ hlo hhi,
      running_endStage6 _ _⟩
    rw [siteFailed_coresReady hc fun _ hk => lt_of_mem_siteCores hk, hsite]
  · rw [exec_calStage, calStage_stays h]
  · rw [exec_calStage, calStage_runs h]
    exact ⟨_, rfl, endStage7_spec ha⟩
  · rw [exec_outletLight, outletLight_stays h]
  · exact ⟨_, exec_outletLight s o c, outletLight_spec o.isLt hstage hfailed hlit⟩
  · rw [exec_stageBoundExpiry, stageBoundExpiry_stays h]
  · have hruns := stageBoundExpiry_runs (m := m) h
    rw [if_pos rfl] at hruns
    exact ⟨_, by rw [exec_stageBoundExpiry, hruns], stage_bound5 s, fun i hi hfield => siteFailed_bound5 hi h.2.2 hfield⟩
  · exact ⟨_, exec_stageBoundExpiry s m, bound6_spec h⟩
  · exact ⟨_, exec_stageBoundExpiry s m, stage_bound7 h hacts⟩
  · rw [exec_stageBoundExpiry, bound7_stays h hacts]
  · have hruns := stageBoundExpiry_runs (m := m) h
    rw [if_neg (by decide), if_neg (by decide), if_neg (by decide), if_pos rfl] at hruns
    exact ⟨_, by rw [exec_stageBoundExpiry, hruns], stage_bound8 h⟩
  · rw [exec_ready, ready_stays h]
  · have hruns := ready_runs rfl h hready
    refine ⟨fun husable => ?_, fun hnone => ?_⟩
    · obtain ⟨hshown, hdegraded, hvkeep, hparts⟩ := readyShown_spec (restoreParts s)
      rw [husable, if_pos rfl] at hruns
      refine ⟨_, by rw [exec_ready, hruns], hshown, hdegraded, hvkeep, fun p hp => ?_⟩
      rw [part_of hparts]
      exact absent_restoreParts hp
    · obtain ⟨hheld, hkept, hnot⟩ := readyHeld_spec h hready
      rw [hnone, if_neg Bool.false_ne_true] at hruns
      exact ⟨_, by rw [exec_ready, hruns], hheld, hkept, hnot⟩

end Sys2Proof.Machine

/-! PROOFS. The family 03_tarn_cores: PF0's writes of SITE_CPERF_CTL, DMA_CH_CTL, DMA_CH_FLAGS and HOUSE_TRIGGER (R117 to R119, R451,
R454, R455, R465, R586, R638). -/

namespace Sys2Proof.Machine

set_option Elab.async false

section
variable (s : State) (c ch : Nat)

/-! ### The counters of a core (R116 to R119) -/

/-- The nine performance counters of a core. -/
def cperfCounters : List Nat :=
  [Reg.cperfReplica c, Reg.cperfIssue c, Reg.cperfStallToken c, Reg.cperfStallBank c, Reg.cperfStallLink c,
    Reg.cperfArrayActive c, Reg.cperfArraySkipped c, Reg.cperfVector c, Reg.cperfCadenceOverrun c]

theorem ne_control_of_counter {r : Nat} (h : r ∈ cperfCounters c) : r ≠ Reg.cperfCtl c ∧ r ≠ Reg.cperfStat c := by
  simp only [cperfCounters, Reg.cperfReplica, Reg.cperfIssue, Reg.cperfStallToken, Reg.cperfStallBank, Reg.cperfStallLink,
    Reg.cperfArrayActive, Reg.cperfArraySkipped, Reg.cperfVector, Reg.cperfCadenceOverrun, List.mem_cons, List.not_mem_nil,
    or_false] at h
  unfold Reg.cperfCtl Reg.cperfStat
  omega

theorem cperfCtl_ne_cperfStat : Reg.cperfCtl c ≠ Reg.cperfStat c := by unfold Reg.cperfCtl Reg.cperfStat; omega

theorem reg_zeroed {l : List Nat} {r : Nat} (h : r ∈ l ∨ reg s r = 0) : reg (l.foldl (fun s r => putReg s r 0) s) r = 0 := by
  induction l generalizing s with
  | nil => exact h.resolve_left List.not_mem_nil
  | cons k l ih =>
    refine ih _ ?_
    rw [reg_putReg]
    by_cases hk : r = k
    · exact .inr (if_pos hk)
    · rw [if_neg hk]
      exact h.imp_left fun hm => (List.mem_cons.1 hm).resolve_left hk

theorem reg_clearCperf {r : Nat} (h : r ∈ cperfCounters c) : reg (clearCperf s c) r = 0 := reg_zeroed s (.inl h)

variable {s c ch}

theorem reg_writeCperf_other {clear freeze enable : Bool} {k : Nat} (h : pf0Reg s (Reg.cperfCtl c) = true)
    (hctl : k ≠ Reg.cperfCtl c) (hstat : k ≠ Reg.cperfStat c) :
    reg (writeCperf s c clear freeze enable) k = reg (if clear then clearCperf s c else s) k := by
  unfold writeCperf
  rw [h, if_neg (by decide), reg_endUpset, reg_putBit_other _ _ _ _ _ hstat, reg_putReg_other _ _ _ _ hctl]

theorem reg_writeCperf_ctl {clear freeze enable : Bool} (h : pf0Reg s (Reg.cperfCtl c) = true) :
    reg (writeCperf s c clear freeze enable) (Reg.cperfCtl c) = (if freeze then 2 else 0) + if enable then 1 else 0 := by
  unfold writeCperf
  rw [h, if_neg (by decide), reg_endUpset, reg_putBit_other _ _ _ _ _ (cperfCtl_ne_cperfStat c), reg_putReg_self]

/-- FREEZE and ENABLE are bits 1 and 0 of what is written. -/
theorem regBit_writeCperf {clear freeze enable : Bool} (h : pf0Reg s (Reg.cperfCtl c) = true) :
    regBit (writeCperf s c clear freeze enable) (Reg.cperfCtl c) 1 = freeze ∧
      regBit (writeCperf s c clear freeze enable) (Reg.cperfCtl c) 0 = enable := by
  rw [regBit, regBit, reg_writeCperf_ctl h]
  revert freeze enable
  decide

/-! ### The registers of a DMA channel (R464 to R466) -/

theorem dmaRegs_ne (n : Nat) : Reg.dmaCtl n ≠ Reg.dmaStat n ∧ Reg.dmaFlags n ≠ Reg.dmaStat n ∧ Reg.dmaErrinfo n ≠ Reg.dmaStat n ∧
    Reg.dmaFlags n ≠ Reg.dmaErrinfo n := by
  unfold Reg.dmaCtl Reg.dmaStat Reg.dmaFlags Reg.dmaErrinfo
  omega

theorem place_dma {off n x : Nat} (hn : n < 32) (hx : x < 0x100) (h : off = 0x0060_0000 + n * 0x100 + x) :
    Reg.place off = (.dma n, x) := by
  have hch : (off - 0x60_0000) / 0x100 = n := by omega
  have hlow : off % 0x100 = x := by omega
  unfold Reg.place
  rw [if_neg (by omega), if_neg (by omega), if_neg (by omega), if_neg (by omega), if_neg (by omega), if_neg (by omega),
    if_pos (by omega), hch, hlow]

theorem w1cBits_dmaFlags {off : Nat} (hch : ch < 32) (h : off = Reg.dmaFlags ch) : Reg.w1cBits off = 3 := by
  have hp : Reg.place off = (.dma ch, 8) := place_dma hch (by omega) (by rw [h]; rfl)
  simp [Reg.w1cBits, hp]

theorem reg_dmaStat_other {k : Nat} (h : k ≠ Reg.dmaStat ch) : reg (dmaStat s ch) k = reg s k := by
  unfold dmaStat
  extract_lets cs active
  rw [reg_putBit_other _ _ _ _ _ h, reg_putBit_other _ _ _ _ _ h, reg_putBit_other _ _ _ _ _ h, reg_putField_other _ _ _ _ _ _ h]

theorem reg_writeDmaCtl {v : Nat} (h : pf0Reg s (Reg.dmaCtl ch) = true) : reg (writeDmaCtl s ch v) (Reg.dmaCtl ch) = v % 8 := by
  unfold writeDmaCtl
  rw [h, if_neg (by decide), reg_dmaStat_other (dmaRegs_ne ch).1, reg_endUpset, reg_putReg_self]

/-- The three bits that DMA_CH_CTL holds are those of the value written. -/
theorem bits_mod_eight (v : Nat) : bit (v % 8) 0 = bit v 0 ∧ bits (v % 8) 2 1 = bits v 2 1 := by
  unfold bit bits
  constructor
  · congr 1; omega
  · omega

theorem writeDmaFlags_halted (hch : ch < 32) (h : pf0Reg s (Reg.dmaFlags ch) = true)
    (hnow : bit (tget 0 s.flagsNow (Reg.dmaFlags ch)) 0 = false) :
    writeDmaFlags s ch 1 = dmaStat (putBit (clearFlags s (Reg.dmaFlags ch) 1) (Reg.dmaErrinfo ch) 31 false) ch ∧
      regBit (clearFlags s (Reg.dmaFlags ch) 1) (Reg.dmaFlags ch) 0 = false := by
  have hclear : regBit (clearFlags s (Reg.dmaFlags ch) 1) (Reg.dmaFlags ch) 0 = false := by
    rw [regBit_clearFlags, hnow, w1cBits_dmaFlags hch rfl]
    simp [bit]
  refine ⟨?_, hclear⟩
  unfold writeDmaFlags
  rw [h, if_neg (by decide)]
  dsimp only
  rw [hclear, if_pos (by decide)]

/-! ### Housekeeping triggers (R586) -/

theorem houseTrig_starts (hrun : s.house.running = false) (htrig : s.house.trigTick ≠ some (tickOf s)) :
    houseTrig s = putBit { s with house := { s.house with trigTick := some (tickOf s), lostNow := false, running := true,
                                                          started := s.time.now } } Reg.houseStat 0 true := by
  unfold houseTrig
  rw [if_neg (by simpa using htrig)]
  dsimp only
  rw [hrun, if_pos (by decide)]

theorem houseTrigger_of_go (h : pf0Reg s Reg.houseTrigger = true) : houseTrigger true s = houseTrig s := by
  unfold houseTrigger
  rw [h, if_pos (by decide)]

end

/-! ### The commands -/

section
variable (s : State)

theorem exec_cperfClear (c : CoreNo) (f e : Bool) : exec (.cperfClear c f e) s = .next (writeCperf s c true f e) := rfl
theorem exec_cperfFreeze (c : CoreNo) (b : Bool) :
    exec (.cperfFreeze c b) s = .next (writeCperf s c false b (regBit s (Reg.cperfCtl c) 0)) := rfl
theorem exec_cperfEnable (c : CoreNo) (b : Bool) :
    exec (.cperfEnable c b) s = .next (writeCperf s c false (regBit s (Reg.cperfCtl c) 1) b) := rfl
theorem exec_dmaChannelDisable (ch : ChanNo) (b : Bool) :
    exec (.dmaChannelDisable ch b) s = .next (writeDmaCtl s ch (setBit (reg s (Reg.dmaCtl ch)) 0 b)) := rfl
theorem exec_dmaChannelPriority (ch : ChanNo) (p : Fin 4) :
    exec (.dmaChannelPriority ch p) s = .next (writeDmaCtl s ch (setBits (reg s (Reg.dmaCtl ch)) 2 1 p)) := rfl
theorem exec_dmaHaltClear (ch : ChanNo) : exec (.dmaHaltClear ch) s = .next (writeDmaFlags s ch 1) := rfl
theorem exec_houseTrigger (go : Bool) : exec (.houseTrigger go) s = .next (houseTrigger go s) := rfl

end

/-- Settles O3: each write through its own operation; what it keeps stands in the other bits of its register and in the other
registers. -/
theorem counterAndChannelControlWrites : Obligations.CounterAndChannelControlWrites := by
  refine ⟨fun s c f e h => ?_, fun s c b h => ?_, fun s c b h => ?_, fun s ch b h => ?_, fun s ch p h => ?_,
    fun s ch h hnow => ?_, fun s h hrun htrig => ?_, fun s => rfl⟩
  · refine ⟨_, exec_cperfClear s c f e, fun r hr => ?_, reg_writeCperf_ctl h⟩
    obtain ⟨hctl, hstat⟩ := ne_control_of_counter c hr
    rw [reg_writeCperf_other h hctl hstat, if_pos rfl, reg_clearCperf s c hr]
  · obtain ⟨hfreeze, henable⟩ := regBit_writeCperf (clear := false) (freeze := b) (enable := regBit s (Reg.cperfCtl c) 0) h
    exact ⟨_, exec_cperfFreeze s c b, hfreeze, henable, fun k hctl hstat => reg_writeCperf_other h hctl hstat⟩
  · obtain ⟨hfreeze, henable⟩ := regBit_writeCperf (clear := false) (freeze := regBit s (Reg.cperfCtl c) 1) (enable := b) h
    exact ⟨_, exec_cperfEnable s c b, henable, hfreeze, fun k hctl hstat => reg_writeCperf_other h hctl hstat⟩
  · obtain ⟨hdisable, hpriority⟩ := bits_mod_eight (setBit (reg s (Reg.dmaCtl ch)) 0 b)
    refine ⟨_, exec_dmaChannelDisable s ch b, ?_, ?_⟩
    · rw [regBit, reg_writeDmaCtl h, hdisable, bit_setBit_self]
    · rw [field, reg_writeDmaCtl h, hpriority, setBit, bits_setBits_other _ _ _ _ _ _ (by omega) (by omega), field]
  · obtain ⟨hdisable, hpriority⟩ := bits_mod_eight (setBits (reg s (Reg.dmaCtl ch)) 2 1 p)
    refine ⟨_, exec_dmaChannelPriority s ch p, ?_, ?_⟩
    · rw [field, reg_writeDmaCtl h, hpriority, bits_setBits _ _ _ _ (by omega)]
      exact Nat.mod_eq_of_lt p.isLt
    · rw [regBit, reg_writeDmaCtl h, hdisable, bit_setBits_other _ _ _ _ _ (by omega) (by omega), regBit]
  · obtain ⟨hwrite, hhalted⟩ := writeDmaFlags_halted ch.isLt h hnow
    obtain ⟨-, hflags, herrinfo, hne⟩ := dmaRegs_ne ch
    refine ⟨_, exec_dmaHaltClear s ch, ?_, ?_⟩
    · rw [hwrite, regBit, reg_dmaStat_other hflags, reg_putBit_other _ _ _ _ _ hne]
      exact hhalted
    · rw [hwrite, regBit, reg_dmaStat_other herrinfo]
      exact regBit_putBit_self _ _ _ _
  · refine ⟨_, exec_houseTrigger s true, ?_⟩
    rw [houseTrigger_of_go h, houseTrig_starts hrun htrig]
    exact ⟨rfl, rfl, regBit_putBit_self _ _ _ _⟩

end Sys2Proof.Machine

/-! PROOFS. The family 03_tarn_cores: a MOVE that issues requests (R209, R210, R238). -/

namespace Sys2Proof.Machine

set_option Elab.async false

/-! ### A MOVE from the far window -/

/-- The part of a context on core 0 whose one move descriptor stands at address 0. -/
def farReadCore : CtxCore :=
  { core := 0, region := 0, stream := 0, entryOff := 0, tdOff := 0, tdCount := 0, moveOff := 0, moveCount := 1, bundleOff := 0,
    bundleCount := 0, streamSize := 32, counters := [], tds := [], below := 0, invalid := 0, sat := 0 }

/-- A context of partition 0 on core 0, with a region of 64 bytes. -/
def farReadContext : Context :=
  { handle := 0, part := 0, planId := 0, sites := [0], skipDisable := false, regionSize := 64, phases := [], scheds := [],
    selects := [], cores := [farReadCore], waiting := [], run := none, idleTick := 0, removing := false, visitor := 0 }

/-- Core 0 runs that context and has issued a MOVE whose descriptor reads 32 bytes at the far window's first address: KIND 9,
SRC 2^40 and LEN 32. Partition 0 may use far-window slot 0. -/
def farReadState : State :=
  { State.reset with
    mem := [(5, 0x01), (7, 0x90), (16, 0x20)]
    written := [(0, true)]
    cores := [(0, { CoreState.reset with running := some 0, mQ := [.move 0] })]
    contexts := [farReadContext]
    far := [(0, { FarSlot.reset with valid := true })] }

theorem moveDescAt_farReadState : (moveDescAt farReadState farReadCore 0).kind = 9 ∧
    (moveDescAt farReadState farReadCore 0).src = farBase ∧ (moveDescAt farReadState farReadCore 0).len = 32 := by decide

/-- The move takes number 0, and the request that it issues to the far tier takes number 1. -/
theorem nextId_move_farReadState : (move 0 0 [] farReadState).nextId = 2 := by decide

theorem exec_move (s : State) (c : CoreNo) (i : BitVec 16) (ecc : EccList) : exec (.move c ⟨i, ecc⟩) s = .next (move c i ecc s) := rfl

/-- Refutes O18: a MOVE of KIND 9 issues its read at once, and the read takes a number of its own: the next number rises by 2 where
the statement has it rise by 1 for a move of any kind. -/
theorem not_movesIssueLeaveAndComplete : ¬ Obligations.MovesIssueLeaveAndComplete := by
  rintro ⟨hissue, -, -⟩
  obtain ⟨t, ht, hnext, -⟩ := hissue farReadState 0 farReadContext farReadCore _ 0 [] _ ⟨rfl, rfl⟩ rfl (by decide) rfl (by decide)
  rw [exec_move] at ht
  injection ht with ht
  rw [← ht] at hnext
  exact absurd (nextId_move_farReadState.symm.trans hnext) (by decide)

end Sys2Proof.Machine

/-! PROOFS. The family 03_tarn_cores: what the operations of a core do to it, to its context and to the memory (R87, R100 to R103,
R182, R194, R198, R213). -/

namespace Sys2Proof.Machine

set_option Elab.async false

/-! ### The context that a core runs -/

section
variable {s t : State} {c : Nat} {x : Context} {k : CtxCore}

theorem Runs.ctx (h : Runs s c x k) : ctx? s x.handle = some x := by
  obtain ⟨hd, -, hx⟩ := Option.bind_eq_some_iff.1 h.1
  rwa [handle_of_ctx hx]

theorem Runs.running (h : Runs s c x k) : (core s c).running = some x.handle := by
  obtain ⟨hd, hrun, hx⟩ := Option.bind_eq_some_iff.1 h.1
  rw [hrun, handle_of_ctx hx]

theorem Runs.core (h : Runs s c x k) : k.core = c := core_of_ctxCore h.2

/-- The part of a running context on its core, by the context's handle. -/
theorem Runs.part (h : Runs s c x k) : (ctx? s x.handle).bind (ctxCore? · c) = some k := by rw [h.ctx]; exact h.2

/-- What leaves the contexts and what a core runs leaves the context that it runs. -/
theorem Runs.of_same (h : Runs s c x k) (hc : t.contexts = s.contexts) (hr : (Machine.core t c).running = (Machine.core s c).running) :
    Runs t c x k := ⟨(runCtx_of hc hr).trans h.1, h.2⟩

theorem Runs.putCore {y : CoreState} (h : Runs s c x k) (hy : y.running = (Machine.core s c).running) : Runs (putCore s c y) c x k :=
  h.of_same rfl (by rw [core_putCore_self, hy])

end

/-! ### The unit of a slot accepts an operation (R87, R198) -/

section
variable {s : State} {c : Nat} {sl : Slot} {op : SlotOp} {x : Context} {k : CtxCore} {y : CoreState}

theorem Accepts.eq_popOp (h : Accepts s c sl op y) : y = popOp (core s c) sl := by
  unfold Accepts takeOp at h
  split at h
  · exact (Option.some.inj h).symm
  · cases h

theorem Accepts.head (h : Accepts s c sl op y) : (queueOf (core s c) sl).head? = some op := by
  unfold Accepts takeOp at h
  split at h
  · assumption
  · cases h

theorem Accepts.running (h : Accepts s c sl op y) : y.running = (core s c).running := takeOp_running h

/-- An operation that its unit accepts takes effect on the core as it then stands, for the context that still runs there. -/
theorem runOp_accepted {ready : CoreState → Bool} (f : Context → CtxCore → Nat → State → State) (hx : Runs s c x k)
    (ha : Accepts s c sl op y) (hr : ready (core s c) = true) :
    runOp s c sl op ready f = f x k (opNo y sl) (putCore s c y) ∧ Runs (putCore s c y) c x k :=
  ⟨runOp_eq f hx.1 hx.2 hr ha, hx.putCore ha.running⟩

end

/-! ### A context's counters on a core (R100 to R103) -/

/-- A context's part on a core with one counter set. -/
def setCounter (k : CtxCore) (n v : Nat) : CtxCore := { k with counters := tput 0 k.counters n v }

theorem counter_setCounter (k : CtxCore) (n v m : Nat) : counter (setCounter k n v) m = if m = n then v else counter k m :=
  tget_tput 0 k.counters n m v

section
variable {s : State} {c h : Nat} {x : Context} {k : CtxCore}

theorem part_modCtxCore {f : CtxCore → CtxCore} (hf : ∀ k, (f k).core = k.core) (hk : (ctx? s h).bind (ctxCore? · c) = some k) :
    (ctx? (modCtxCore s h c f) h).bind (ctxCore? · c) = some (f k) := by
  obtain ⟨x, hx, hk⟩ := Option.bind_eq_some_iff.1 hk
  have hmod : ctx? (modCtxCore s h c f) h = some { x with cores := x.cores.map fun k => if k.core == c then f k else k } :=
    ctx_modCtx_self (fun x => { x with cores := x.cores.map fun k => if k.core == c then f k else k }) (fun _ => rfl) hx
  rw [hmod, Option.bind_some, ctxCore_map _ _ _ _ hf, if_pos rfl, hk]
  rfl

theorem copyTick_of {s t : State} (h : t.time = s.time) (r : Nat) : copyTick t r = copyTick s r := by
  unfold copyTick copyUnits masterUnits; rw [h]

theorem core_latch (s : State) (c : Nat) (x : Context) (cause d0 : Nat) : core (latch s c x cause d0) c =
    { core s c with latched := (core s c).latched ++ [{ cause := cause, stamp := copyTick s (copyPond (c / 4)) }] } :=
  core_modCore_self s c fun k => { k with latched := k.latched ++ [{ cause := cause, stamp := copyTick s (copyPond (c / 4)) }] }

@[simp] theorem latch_contexts (s : State) (c : Nat) (x : Context) (cause d0 : Nat) :
    (latch s c x cause d0).contexts = s.contexts := by rw [latch, raiseCtx, raise_contexts, modCore_contexts]

theorem core_latch_other {j : Nat} (s : State) (x : Context) (cause d0 : Nat) (h : j ≠ c) : core (latch s c x cause d0) j = core s j :=
  core_putCore_other s c _ j h

/-- A post within the counter's range adds its amount, and changes only the context's part on that core. -/
theorem postCounter_fits {n a : Nat} (hk : (ctx? s x.handle).bind (ctxCore? · c) = some k) (h : counter k n + a ≤ 65535) :
    postCounter s x c n a = modCtxCore s x.handle c (setCounter · n (counter k n + a)) := by
  unfold postCounter
  rw [hk]
  dsimp only
  rw [if_neg (by omega), minNat, if_pos h]
  rfl

/-- A post beyond the counter's range leaves it at its largest value and latches COUNTER_OVERFLOW. -/
theorem postCounter_overflows {n a : Nat} (hk : (ctx? s x.handle).bind (ctxCore? · c) = some k) (h : 65535 < counter k n + a) :
    postCounter s x c n a = latch (modCtxCore s x.handle c (setCounter · n 65535)) c x causeOverflow n := by
  unfold postCounter
  rw [hk]
  dsimp only
  rw [if_pos h, minNat, if_neg (by omega)]
  rfl

theorem part_postCounter {n a : Nat} (hk : (ctx? s x.handle).bind (ctxCore? · c) = some k) :
    (ctx? (postCounter s x c n a) x.handle).bind (ctxCore? · c) = some (setCounter k n (minNat (counter k n + a) 65535)) := by
  by_cases h : counter k n + a ≤ 65535
  · rw [postCounter_fits hk h, minNat, if_pos h]
    exact part_modCtxCore (fun _ => rfl) hk
  · rw [postCounter_overflows hk (by omega), minNat, if_neg h]
    exact part_modCtxCore (f := (setCounter · n 65535)) (fun _ => rfl) hk

end

/-! ### Operations handed to their units (R87, R196) -/

section
variable (y : CoreState) {op : SlotOp}

/-- The operations of one slot of a bundle that are to be issued: none for a NOP. -/
def issued (op : SlotOp) : List SlotOp := [op].filter (· != .nop)

theorem issued_nop : issued .nop = [] := rfl
theorem issued_of_ne (h : op ≠ .nop) : issued op = [op] := by simp [issued, h]

theorem enqueue_a (h : op = .nop ∨ slotOf op = .a) :
    enqueue y op = { y with aQ := y.aQ ++ issued op, aIssued := y.aIssued + (issued op).length } := by
  by_cases hn : op = .nop
  · simp [enqueue, hn, issued_nop]
  · simp [enqueue, hn, issued_of_ne, h.resolve_left hn]

theorem enqueue_v (h : op = .nop ∨ slotOf op = .v) :
    enqueue y op = { y with vQ := y.vQ ++ issued op, vIssued := y.vIssued + (issued op).length } := by
  by_cases hn : op = .nop
  · simp [enqueue, hn, issued_nop]
  · simp [enqueue, hn, issued_of_ne, h.resolve_left hn]

theorem enqueue_m (h : op = .nop ∨ slotOf op = .m) :
    enqueue y op = { y with mQ := y.mQ ++ issued op, mIssued := y.mIssued + (issued op).length } := by
  by_cases hn : op = .nop
  · simp [enqueue, hn, issued_nop]
  · simp [enqueue, hn, issued_of_ne, h.resolve_left hn]

theorem enqueue_c (h : op = .nop ∨ slotOf op = .c) :
    enqueue y op = { y with cQ := y.cQ ++ if op = .nop then [] else [⟨op, y.aIssued, y.vIssued, y.mIssued⟩] } := by
  by_cases hn : op = .nop
  · simp [enqueue, hn]
  · simp [enqueue, hn, h.resolve_left hn]

theorem stalled_enqueue (op : SlotOp) : (enqueue y op).stalled = y.stalled := by
  unfold enqueue
  split
  · rfl
  · split <;> rfl

theorem stalled_foldl_enqueue (l : List SlotOp) : (l.foldl enqueue y).stalled = y.stalled := by
  induction l generalizing y with
  | nil => rfl
  | cons op l ih => rw [List.foldl_cons, ih, stalled_enqueue]

end

/-- Each slot of a bundle holds operations of its own unit. -/
theorem slotOf_bundleOf (w : Nat) : ((bundleOf w).1 = .nop ∨ slotOf (bundleOf w).1 = .a) ∧
    ((bundleOf w).2.1 = .nop ∨ slotOf (bundleOf w).2.1 = .v) ∧ ((bundleOf w).2.2.1 = .nop ∨ slotOf (bundleOf w).2.2.1 = .m) ∧
    ((bundleOf w).2.2.2 = .nop ∨ slotOf (bundleOf w).2.2.2 = .c) := by
  refine ⟨?_, ?_, ?_, ?_⟩
  · dsimp only [bundleOf]; unfold slotA; split <;> simp [slotOf]
  · dsimp only [bundleOf, slotV]
    split
    · exact .inr rfl
    · exact .inr rfl
    · split
      · exact .inr rfl
      · exact .inl rfl
  · dsimp only [bundleOf]; unfold slotM; split <;> simp [slotOf]
  · dsimp only [bundleOf]; unfold slotC; split <;> simp [slotOf]

/-! ### Posts that wait (R213) -/

section
variable {s : State} {c : Nat} {x : Context}

/-- Where no post is ready, nothing is applied. -/
theorem runPosts_waiting (hx : runCtx? s c = some x) (h : ∀ p ∈ (core s c).posts, postReady (core s c) p = false) :
    runPosts s c = putCore s c (core s c) := by
  have hready : (core s c).posts.filter (postReady (core s c)) = [] := List.filter_eq_nil_iff.2 (by simpa using h)
  have hwait : ((core s c).posts.filter fun p => !postReady (core s c) p) = (core s c).posts := List.filter_eq_self.2 (by simpa using h)
  unfold runPosts
  rw [hx]
  dsimp only
  rw [hready, hwait]
  rfl

/-- The one post of a core that is ready is applied. -/
theorem runPosts_ready {p : PostWait} (hx : runCtx? s c = some x) (hctx : ctx? s x.handle = some x) (hp : (core s c).posts = [p])
    (h : postReady (core s c) p = true) :
    runPosts s c = applyPost (putCore s c { core s c with posts := [] }) c x p.f := by
  have hready : (core s c).posts.filter (postReady (core s c)) = [p] := by simp [hp, h]
  have hwait : ((core s c).posts.filter fun p => !postReady (core s c) p) = [] := by simp [hp, h]
  unfold runPosts
  rw [hx]
  dsimp only
  rw [hready, hwait, List.foldl_cons, List.foldl_nil, ctxQ_putCore, hctx]
  rfl

/-- With no post waiting, only the table of the cores can change its form. -/
theorem runPosts_nil_only (h : (core s c).posts = []) : Only 0x10000 s (runPosts s c) := by
  obtain e | e := runPosts_nil h <;> rw [e]
  · exact .refl
  · exact putCore_only _ _ .refl ⟨rfl⟩

theorem perfAdd_cores (s : State) (c off n : Nat) : (perfAdd s c off n).cores = s.cores :=
  ((perfAdd_only (m := 0x2) _ _ _ .refl ⟨rfl⟩).out .cores rfl).symm

end

/-! ### Reads and writes of the region (R99, R194) -/

section
variable (s : State)

/-- What the decoders report of a read changes no byte. -/
theorem loadBytes_decodeRegion (k : CtxCore) (ecc : EccList) (off n a m : Nat) :
    loadBytes (decodeRegion s k ecc off n) a m = loadBytes s a m :=
  have hd := decodeRegion_only (m := 0x8302) (s0 := s) k ecc off n .refl ⟨rfl⟩
  loadBytes_of (hd.out .mem rfl).symm (hd.out .written rfl).symm a m

theorem core_decodeRegion (k : CtxCore) (ecc : EccList) (off n b : Nat) : core (decodeRegion s k ecc off n) b = core s b :=
  core_of ((decodeRegion_only (m := 0x8302) (s0 := s) k ecc off n .refl ⟨rfl⟩).out .cores rfl).symm b

theorem loadRegion_bytes (x : Context) (k : CtxCore) (off n : Nat) :
    (loadRegion s x k off n).2.1 = loadBytes s (regionAddr k off) n := rfl

theorem byteAt_putCore (c : Nat) (y : CoreState) (a : Nat) : byteAt (putCore s c y) a = byteAt s a := byteAt_of rfl rfl a
theorem loadBytes_putCore (c : Nat) (y : CoreState) (a n : Nat) : loadBytes (putCore s c y) a n = loadBytes s a n :=
  loadBytes_of rfl rfl a n
theorem poisonedAt_putCore (c : Nat) (y : CoreState) (a : Nat) : poisonedAt (putCore s c y) a = poisonedAt s a :=
  poisonedAt_of rfl rfl rfl a

theorem length_leBytes (n v : Nat) : (leBytes n v).length = n := by
  induction n generalizing v with
  | zero => rfl
  | succ n ih => rw [leBytes, List.length_cons, ih]

end

end Sys2Proof.Machine

/-! PROOFS. The family 03_tarn_cores: bundles and the C slot (R87, R102, R103, R161, R167, R196, R197, R212, R213). -/

namespace Sys2Proof.Machine

set_option Elab.async false

/-! ### The issue of a bundle (R87, R196, R197) -/

section
variable {s : State} {c : Nat} {x : Context} {k : CtxCore}

/-- The core after the issue of a bundle's operations: a WAIT holds the A, V and M operations back, and the C operation carries the
numbers issued to each unit up to it. -/
def issueBundle (y : CoreState) (b : SlotOp × SlotOp × SlotOp × SlotOp) : CoreState :=
  enqueue (if isWait b.2.2.2 then { y with pc := y.pc + 1, held := [b.1, b.2.1, b.2.2.1] }
    else enqueue (enqueue (enqueue { y with pc := y.pc + 1 } b.1) b.2.1) b.2.2.1) b.2.2.2

/-- The bundle at an index of a core's stream. -/
def bundleAt (s : State) (k : CtxCore) (i : Nat) : SlotOp × SlotOp × SlotOp × SlotOp :=
  bundleOf (leNat (loadBytes s (k.stream + k.bundleOff + 32 * i) 32))

/-- Each slot of a bundle holds operations of its own unit. -/
theorem slotOf_bundleAt (s : State) (k : CtxCore) (i : Nat) :
    ((bundleAt s k i).1 = .nop ∨ slotOf (bundleAt s k i).1 = .a) ∧
      ((bundleAt s k i).2.1 = .nop ∨ slotOf (bundleAt s k i).2.1 = .v) ∧
      ((bundleAt s k i).2.2.1 = .nop ∨ slotOf (bundleAt s k i).2.2.1 = .m) ∧
      ((bundleAt s k i).2.2.2 = .nop ∨ slotOf (bundleAt s k i).2.2.2 = .c) := slotOf_bundleOf _

theorem core_bundleIssue (hx : Runs s c x k) (hi : canIssue (core s c) = true) (hpc : (core s c).pc < k.bundleCount) :
    core (bundleIssue c s) c = issueBundle (core s c) (bundleAt s k (core s c).pc) := by
  unfold bundleIssue
  rw [hx.1]
  dsimp only
  rw [hx.2]
  dsimp only
  rw [hi, if_neg (by simpa using hpc), core_of (perfAdd_cores _ _ _ _), core_putCore_self]
  rfl

variable {y : CoreState} {b : SlotOp × SlotOp × SlotOp × SlotOp}

theorem issueBundle_wait (hc : b.2.2.2 = .nop ∨ slotOf b.2.2.2 = .c) (hw : isWait b.2.2.2 = true) : issueBundle y b =
    { y with
      pc := y.pc + 1
      held := [b.1, b.2.1, b.2.2.1]
      cQ := y.cQ ++ if b.2.2.2 = .nop then [] else [⟨b.2.2.2, y.aIssued, y.vIssued, y.mIssued⟩] } := by
  rw [issueBundle, if_pos hw, enqueue_c _ hc]

theorem issueBundle_no_wait (ha : b.1 = .nop ∨ slotOf b.1 = .a) (hv : b.2.1 = .nop ∨ slotOf b.2.1 = .v)
    (hm : b.2.2.1 = .nop ∨ slotOf b.2.2.1 = .m) (hc : b.2.2.2 = .nop ∨ slotOf b.2.2.2 = .c) (hw : isWait b.2.2.2 = false) :
    issueBundle y b =
      { y with
        pc := y.pc + 1
        aQ := y.aQ ++ issued b.1
        aIssued := y.aIssued + (issued b.1).length
        vQ := y.vQ ++ issued b.2.1
        vIssued := y.vIssued + (issued b.2.1).length
        mQ := y.mQ ++ issued b.2.2.1
        mIssued := y.mIssued + (issued b.2.2.1).length
        cQ := y.cQ ++ if b.2.2.2 = .nop then [] else [⟨b.2.2.2, y.aIssued + (issued b.1).length,
          y.vIssued + (issued b.2.1).length, y.mIssued + (issued b.2.2.1).length⟩] } := by
  rw [issueBundle, hw, if_neg Bool.false_ne_true, enqueue_a _ ha, enqueue_v _ hv, enqueue_m _ hm, enqueue_c _ hc]

end

/-! ### The operations of the C slot, once the unit accepts them (R212) -/

section
variable {s : State} {c : Nat} {x : Context} {k : CtxCore} {y : CoreState}

/-- A wait that passes takes its amount, and hands over what its bundle held (R102, R197). -/
theorem passWait_spec {n a : Nat} (hk : (ctx? s x.handle).bind (ctxCore? · c) = some k) :
    (ctx? (passWait s x c n a) x.handle).bind (ctxCore? · c) = some (setCounter k n (counter k n - a)) ∧
      core (passWait s x c n a) c = (core s c).held.foldl enqueue { core s c with stalled := none, held := [] } :=
  ⟨part_modCtxCore (f := fun k => setCounter k n (counter k n - a)) (fun _ => rfl) hk, core_modCore_self _ _ _⟩

section
variable (hx : Runs s c x k) (hready : (core s c).stalled = none)
include hx hready

theorem wait_passes {n : Fin 32} {a : Fin 256} (ha : Accepts s c .c (.wait n a) y) (h : a.val ≤ counter k n) :
    wait c n a s = passWait (putCore s c y) x c n a :=
  (runOp_accepted _ hx ha (by rw [hready]; rfl)).1.trans (if_pos h)

theorem wait_stalls {n : Fin 32} {a : Fin 256} (ha : Accepts s c .c (.wait n a) y) (h : counter k n < a.val) :
    wait c n a s = modCore (putCore s c y) c fun y => { y with stalled := some (n.val, a.val) } :=
  (runOp_accepted _ hx ha (by rw [hready]; rfl)).1.trans (if_neg (by omega))

theorem close_eq (ha : Accepts s c .c .close y) :
    close c s = modCore (putCore s c y) c fun y => { y with closed := true } :=
  (runOp_accepted _ hx ha (by rw [hready]; rfl)).1

theorem faultOp_eq {code : BitVec 16} (ha : Accepts s c .c (.fault code) y) :
    faultOp c code s = latch (putCore s c y) c x causeRaised code.toNat :=
  (runOp_accepted _ hx ha (by rw [hready]; rfl)).1

theorem sel_setsel {w : BitVec 23} {ecc : EccList} (ha : Accepts s c .c (.setsel w) y) (h : 4 * w.toNat + 4 ≤ x.regionSize) :
    (core (setsel c w ecc s) c).sel = BitVec.ofNat 32 (leNat (loadBytes s (regionAddr k (4 * w.toNat)) 4)) := by
  unfold setsel
  rw [(runOp_accepted _ hx ha (by rw [hready]; rfl)).1, if_pos (by simpa [regionOk] using h)]
  dsimp only
  rw [core_modCore_self, loadRegion_bytes, loadBytes_decodeRegion, loadBytes_putCore]

theorem rdstat_eq {off : BitVec 20} (ha : Accepts s c .c (.rdstat off) y) (h : 32 * off.toNat + 32 ≤ x.regionSize) :
    rdstat c off s =
      (writeMem (putCore s c y) (regionAddr k (32 * off.toNat)) ((statWords y).flatMap (leBytes 4)) []).1 := by
  unfold rdstat
  rw [(runOp_accepted _ hx ha (by rw [hready]; rfl)).1, if_pos (by simpa [regionOk] using h), core_putCore_self, storeRegion]

/-- A post that its unit accepts, with the numbers of operations that it waits for. -/
def postOf (s : State) (c : Nat) (f : PostF) : PostWait :=
  let o := (core s c).cQ.head?
  { f := f, needA := (o.map (·.needA)).getD 0, needV := (o.map (·.needV)).getD 0, needM := (o.map (·.needM)).getD 0 }

/-- A post that its unit accepts joins the posts that wait, and those that are ready are applied. -/
theorem post_eq {f : PostF} (ha : Accepts s c .c (.post f) y) (hposts : y.posts = []) :
    post c f s = runPosts (putCore (putCore s c y) c { y with posts := [postOf s c f] }) c := by
  unfold post
  rw [(runOp_accepted _ hx ha (by rw [hready]; rfl)).1, modCore, core_putCore_self, hposts]
  rfl

end

theorem waitRelease_passes {n a : Nat} (hx : Runs s c x k) (hs : (core s c).stalled = some (n, a)) (h : a ≤ counter k n) :
    waitRelease c s = passWait s x c n a := by
  unfold waitRelease
  rw [hx.1, hs]
  dsimp only
  rw [hx.2]
  exact if_pos h

theorem waitRelease_stays {n a : Nat} (hx : Runs s c x k) (hs : (core s c).stalled = some (n, a)) (h : counter k n < a) :
    waitRelease c s = s := by
  unfold waitRelease
  rw [hx.1, hs]
  dsimp only
  rw [hx.2]
  exact if_neg (by omega)

theorem statWords_bytes (y : CoreState) : (statWords y).flatMap (leBytes 4) =
    leBytes 4 y.below ++ leBytes 4 y.invalid ++ leBytes 4 y.sat ++ leBytes 4 y.vflags.toNat ++ leBytes 16 0 := by
  have hzeros : leBytes 16 0 = leBytes 4 0 ++ (leBytes 4 0 ++ (leBytes 4 0 ++ leBytes 4 0)) := by decide
  simp [statWords, hzeros]

/-- Nothing holds up a post whose AFTER names no slot. -/
theorem postReady_of_after_zero {p : PostWait} (h : p.f.after = 0) (y : CoreState) : postReady y p = true := by
  simp [postReady, h]

/-- A post that waits for an A-slot operation that its unit has not accepted is not ready. -/
theorem postReady_of_a_unfinished {p : PostWait} (h : p.f.after.getLsbD 2 = true) (hneed : y.aStarted < p.needA) :
    postReady y p = false := by
  simp only [postReady, h, Nat.not_le.2 hneed, decide_false, Bool.not_true, Bool.false_or, Bool.false_and]

end

/-! ### POST (R103, R213) -/

section
variable {s : State} {c : Nat} {x : Context} {k : CtxCore} {y : CoreState} {f : PostF}

theorem post_at_once (hx : Runs s c x k) (hready : (core s c).stalled = none) (ha : Accepts s c .c (.post f) y)
    (hposts : y.posts = []) (hafter : f.after = 0) (htarget : f.target = 0) :
    ∃ u : State, Runs u c x k ∧ core u c = y ∧ u.time = s.time ∧ post c f s = postCounter u x c f.counter f.amount := by
  have hw : Runs (putCore (putCore s c y) c { y with posts := [postOf s c f] }) c x k :=
    (hx.putCore ha.running).putCore (by rw [core_putCore_self])
  refine ⟨putCore (putCore (putCore s c y) c { y with posts := [postOf s c f] }) c y, hw.putCore (by rw [core_putCore_self]),
    core_putCore_self _ _ _, by simp only [putCore_time], ?_⟩
  · rw [post_eq hx hready ha hposts, runPosts_ready hw.1 hw.ctx (by rw [core_putCore_self]) (postReady_of_after_zero hafter _),
      core_putCore_self]
    unfold applyPost
    have : (postOf s c f).f.target.val = 0 := by rw [postOf, htarget]; rfl
    rw [this, ← hposts]
    rfl

theorem post_waits (hx : Runs s c x k) (hready : (core s c).stalled = none) (ha : Accepts s c .c (.post f) y)
    (hposts : y.posts = []) (hafter : f.after.getLsbD 2 = true) (hneed : ∀ o ∈ (core s c).cQ.head?, y.aStarted < o.needA) :
    post c f s = putCore (putCore (putCore s c y) c { y with posts := [postOf s c f] }) c { y with posts := [postOf s c f] } := by
  have hw : Runs (putCore (putCore s c y) c { y with posts := [postOf s c f] }) c x k :=
    (hx.putCore ha.running).putCore (by rw [core_putCore_self])
  obtain ⟨o, ho⟩ : ∃ o, (core s c).cQ.head? = some o := by
    have hhead := ha.head
    rw [queueOf, List.head?_map] at hhead
    obtain ⟨o, ho, -⟩ := Option.map_eq_some_iff.1 hhead
    exact ⟨o, ho⟩
  rw [post_eq hx hready ha hposts, runPosts_waiting hw.1 fun p hp => ?_, core_putCore_self]
  rw [core_putCore_self] at hp ⊢
  obtain rfl := List.mem_singleton.1 hp
  refine postReady_of_a_unfinished hafter ?_
  rw [postOf, ho]
  exact hneed o ho

end

/-! ### RDSTAT (R87) -/

section
variable {s : State} {c : Nat} {x : Context} {k : CtxCore} {y : CoreState} {off : BitVec 20}

/-- RDSTAT writes the status words of the core into the region, and no other byte. -/
theorem rdstat_spec (hx : Runs s c x k) (hs : (core s c).stalled = none) (ha : Accepts s c .c (.rdstat off) y)
    (h : 32 * off.toNat + 32 ≤ x.regionSize) (hclean : ∀ i, i < 32 → poisonedAt s (regionAddr k (32 * off.toNat) + i) = false) :
    loadBytes (rdstat c off s) (regionAddr k (32 * off.toNat)) 32 =
        leBytes 4 y.below ++ leBytes 4 y.invalid ++ leBytes 4 y.sat ++ leBytes 4 y.vflags.toNat ++ leBytes 16 0 ∧
      ∀ a, ¬ (regionAddr k (32 * off.toNat) ≤ a ∧ a < regionAddr k (32 * off.toNat) + 32) →
        byteAt (rdstat c off s) a = byteAt s a := by
  have hlen : ((statWords y).flatMap (leBytes 4)).length = 32 := by simp [statWords, length_leBytes]
  have hclean' : ∀ i, i < ((statWords y).flatMap (leBytes 4)).length →
      poisonedAt (putCore s c y) (regionAddr k (32 * off.toNat) + i) = false := by
    rw [hlen]
    exact fun i hi => (poisonedAt_putCore s c y _).trans (hclean i hi)
  have hload := loadBytes_writeMem (putCore s c y) _ _ [] hclean'
  rw [hlen] at hload
  rw [rdstat_eq hx hs ha h]
  refine ⟨hload.trans (statWords_bytes y), fun a hout => ?_⟩
  rw [byteAt_writeMem_outside _ _ _ _ _ (by rw [hlen]; exact hout), byteAt_putCore]

end

/-! ### The commands -/

section
variable (s : State) (c : CoreNo)

theorem exec_bundleIssue : exec (.bundleIssue c) s = .next (bundleIssue c s) := rfl
theorem exec_wait (n : Fin 32) (a : Fin 256) : exec (.wait c n a) s = .next (wait c n a s) := rfl
theorem exec_waitRelease : exec (.waitRelease c) s = .next (waitRelease c s) := rfl
theorem exec_post (f : PostF) : exec (.post c f) s = .next (post c f s) := rfl
theorem exec_close : exec (.close c) s = .next (close c s) := rfl
theorem exec_setsel (w : BitVec 23) (ecc : EccList) : exec (.setsel c ⟨w, ecc⟩) s = .next (setsel c w ecc s) := rfl
theorem exec_fault (code : BitVec 16) : exec (.fault c code) s = .next (faultOp c code s) := rfl
theorem exec_rdstat (off : BitVec 20) : exec (.rdstat c off) s = .next (rdstat c off s) := rfl

end

/-- Settles O11: the issue of a bundle with and without a WAIT, and each operation of the C slot as its unit accepts it. -/
theorem bundlesAndTheCSlot : Obligations.BundlesAndTheCSlot := by
  refine ⟨fun s c x k hx hi hpc => ?_, fun s c sl => rfl, fun s c x k y n a hx hs ha h => ?_, fun s c x k y n a hx hs ha h => ?_,
    fun s c x k n a hx hs => ⟨fun h => ?_, fun h => ?_⟩, fun s c x k y f hx hs ha hposts hafter htarget => ?_,
    fun s c x k y f hx hs ha hposts hafter hneed => ?_, fun s c x k y hx hs ha => ?_, fun s c x k y w ecc hx hs ha h => ?_,
    fun s c x k y code hx hs ha => ?_, fun s c x k y off hx hs ha h hclean => ?_⟩
  · obtain ⟨ha, hv, hm, hc⟩ := slotOf_bundleAt s k (core s c).pc
    refine ⟨_, bundleAt s k (core s c).pc, exec_bundleIssue s c, rfl, ?_⟩
    rw [core_bundleIssue hx hi hpc]
    cases hw : isWait (bundleAt s k (core s c).pc).2.2.2 with
    | true =>
      rw [issueBundle_wait hc hw]
      exact ⟨rfl, fun h => Bool.noConfusion h, fun _ => ⟨rfl, rfl, rfl, rfl⟩, rfl⟩
    | false =>
      rw [issueBundle_no_wait ha hv hm hc hw]
      exact ⟨rfl, fun _ => ⟨rfl, rfl, rfl⟩, fun h => Bool.noConfusion h, rfl⟩
  · obtain ⟨hpart, hcore⟩ := passWait_spec (n := n) (a := a) (hx.putCore ha.running).part
    refine ⟨_, setCounter k n (counter k n - a), exec_wait s c n a, ?_, ?_, fun m hm => ?_, ?_⟩
    · rw [wait_passes hx hs ha h]; exact hpart
    · rw [counter_setCounter, if_pos rfl]
    · rw [counter_setCounter, if_neg hm]
    · rw [wait_passes hx hs ha h, hcore, core_putCore_self]
  · refine ⟨_, exec_wait s c n a, ?_⟩
    rw [wait_stalls hx hs ha h]
    refine ⟨by rw [core_modCore_self, core_putCore_self], rfl, fun j hj => ?_⟩
    rw [core_modCore, if_neg hj, core_putCore_other _ _ _ _ hj]
  · obtain ⟨hpart, hcore⟩ := passWait_spec (n := n) (a := a) hx.part
    refine ⟨_, setCounter k n (counter k n - a), exec_waitRelease s c, ?_, ?_, ?_⟩
    · rw [waitRelease_passes hx hs h]; exact hpart
    · rw [counter_setCounter, if_pos rfl]
    · rw [waitRelease_passes hx hs h, hcore, stalled_foldl_enqueue]
  · rw [exec_waitRelease, waitRelease_stays hx hs h]
  · obtain ⟨u, hu, hcore, htime, hpost⟩ := post_at_once hx hs ha hposts hafter htarget
    refine ⟨_, setCounter k f.counter (minNat (counter k f.counter + f.amount) 65535), exec_post s c f, ?_, fun h => ⟨?_, ?_⟩, fun h => ⟨?_, ?_⟩⟩
    · rw [hpost]; exact part_postCounter hu.part
    · rw [counter_setCounter, if_pos rfl, minNat, if_pos h]
    · rw [hpost, postCounter_fits hu.part h, ← hcore]; rfl
    · rw [counter_setCounter, if_pos rfl, minNat, if_neg (by omega)]
    · rw [hpost, postCounter_overflows hu.part h, core_latch, ← hcore, ← copyTick_of htime]; rfl
  · refine ⟨_, exec_post s c f, ?_⟩
    rw [post_waits hx hs ha hposts hafter hneed, core_putCore_self]
    exact ⟨rfl, by simp only [putCore_contexts], by simp only [putCore_out]⟩
  · refine ⟨_, exec_close s c, ?_⟩
    rw [close_eq hx hs ha]
    refine ⟨by rw [core_modCore_self, core_putCore_self], fun j hj => ?_⟩
    rw [core_modCore, if_neg hj, core_putCore_other _ _ _ _ hj]
  · exact ⟨_, exec_setsel s c w ecc, sel_setsel hx hs ha h⟩
  · refine ⟨_, exec_fault s c code, ?_⟩
    rw [faultOp_eq hx hs ha, core_latch, core_putCore_self, latch_contexts, putCore_contexts,
      copyTick_of (putCore_time s c y)]
    exact ⟨rfl, rfl⟩
  · exact ⟨_, exec_rdstat s c off, rdstat_spec hx hs ha h hclean⟩

end Sys2Proof.Machine

/-! PROOFS. The family 03_tarn_cores: the V slot (R95, R96, R183, R205 to R208). -/

namespace Sys2Proof.Machine

set_option Elab.async false

/-! ### Results depend on the vector registers alone (R206 to R208) -/

section
variable {y z : CoreState} (h : y.vregs = z.vregs) (f : VecF)
include h

theorem vreg_of (r : Nat) : vreg y r = vreg z r := by unfold vreg; rw [h]

theorem regElems_of (l r : Nat) : regElems y l r = regElems z l r := by unfold regElems; rw [vreg_of h]

theorem vecOut_of (op : VecOp) : vecOut y op f = vecOut z op f := by
  have hreg := vreg_of h
  have helems := regElems_of h
  have helementwise : vecElementwise y op f = vecElementwise z op f := by simp only [vecElementwise, helems]
  have hreduce : vecReduce y op f = vecReduce z op f := by simp only [vecReduce, helems]
  have hcvt : vecCvt y f = vecCvt z f := by simp only [vecCvt, helems]
  have hcvtmx : vecCvtmx y f = vecCvtmx z f := by simp only [vecCvtmx, helems]
  have hunpkmx : vecUnpkmx y f = vecUnpkmx z f := by simp only [vecUnpkmx, hreg]
  have hbcast : vecBcast y f = vecBcast z f := by simp only [vecBcast, hreg]
  unfold vecOut
  rw [helementwise, hreduce, hcvt, hcvtmx, hunpkmx, hbcast]

end

/-- Each register that an operation writes has its mask of poisoned units. -/
theorem length_vecMasks (y z : CoreState) (op : VecOp) (f : VecF) : (vecMasks y op f).length = (vecOut z op f).regs.length := by
  have helementwise : (vecElementwise z op f).regs.length = spanN f := by simp [vecElementwise]
  cases op
  case cvt =>
    simp only [vecMasks, vecOut, vecCvt]
    split
    · simp
    · split <;> simp
  case cvtmx => simp [vecMasks, vecOut, vecCvtmx]
  case unpkmx => simp [vecMasks, vecOut, vecUnpkmx]
  case rmax => simp [vecMasks, vecOut, vecReduce]
  case rsum => simp [vecMasks, vecOut, vecReduce]
  case bcast => simp [vecMasks, vecOut, vecBcast]
  all_goals simp [vecMasks, vecOut, helementwise]

/-! ### Writing registers (R174, R183) -/

/-- Write registers, each with its value and the mask of its poisoned units, in order. -/
def writeVregs (y : CoreState) (l : List ((Nat × Nat) × Nat)) : CoreState :=
  l.foldl (fun y r => putVreg y r.1.1 r.1.2 r.2) y

theorem vreg_putVreg (y : CoreState) (r v p q : Nat) : vreg (putVreg y r v p) q = if q = r then v % 2 ^ 4096 else vreg y q := by
  unfold vreg putVreg
  rw [tfind_tins]
  split <;> rfl

/-- Only the vector registers and their poison change. -/
theorem writeVregs_eq (y : CoreState) (l : List ((Nat × Nat) × Nat)) :
    ∃ v p, writeVregs y l = { y with vregs := v, vpoison := p } := by
  unfold writeVregs
  induction l generalizing y with
  | nil => exact ⟨y.vregs, y.vpoison, rfl⟩
  | cons r l ih =>
    obtain ⟨v, p, h⟩ := ih (putVreg y r.1.1 r.1.2 r.2)
    exact ⟨v, p, h⟩

theorem vreg_writeVregs_other {l : List ((Nat × Nat) × Nat)} {q : Nat} (y : CoreState) (h : ∀ r ∈ l, r.1.1 ≠ q) :
    vreg (writeVregs y l) q = vreg y q := by
  unfold writeVregs
  induction l generalizing y with
  | nil => rfl
  | cons r l ih =>
    rw [List.foldl_cons, ih _ fun a ha => h a (List.mem_cons_of_mem r ha), vreg_putVreg,
      if_neg fun e => h r List.mem_cons_self e.symm]

theorem vreg_writeVregs_of_mem {l : List ((Nat × Nat) × Nat)} {q v p : Nat} (y : CoreState) (hnd : (l.map (·.1.1)).Nodup)
    (hm : ((q, v), p) ∈ l) : vreg (writeVregs y l) q = v % 2 ^ 4096 := by
  induction l generalizing y with
  | nil => exact absurd hm List.not_mem_nil
  | cons r l ih =>
    rw [List.map_cons, List.nodup_cons] at hnd
    obtain rfl | hm := List.mem_cons.1 hm
    · have hrest := vreg_writeVregs_other (l := l) (q := q) (putVreg y q v p)
        fun a ha e => hnd.1 (List.mem_map.2 ⟨a, ha, e⟩)
      rw [vreg_putVreg, if_pos rfl] at hrest
      exact hrest
    · exact ih (putVreg y r.1.1 r.1.2 r.2) hnd.2 hm

/-! ### Reading registers (R174) -/

section
variable (s : State) (x : Context) (c : Nat) (rs : List Nat)

/-- Reading registers latches at most a fault. -/
theorem core_readVregs : ∃ l, core (readVregs s x c rs) c = { core s c with latched := l } := by
  unfold readVregs
  split
  · exact ⟨(core s c).latched, rfl⟩
  · exact ⟨_, core_latch s c x causeUnwritten 0⟩

theorem core_readVregs_other {j : Nat} (h : j ≠ c) : core (readVregs s x c rs) j = core s j := by
  unfold readVregs
  split
  · rfl
  · exact core_latch_other s x _ _ h

end

/-! ### An operation over vector registers (R95, R206) -/

/-- The core after an operation's results, their masks, its flags and its saturations. -/
def withResults (z : CoreState) (o : VecOut) (ms : List Nat) : CoreState := addSat (stick (writeVregs z (o.regs.zip ms)) o.fl) o.sat

/-- A transcendental operation opens a result (R95). -/
def openResult (y : CoreState) (op : VecOp) (f : VecF) (no : Nat) : CoreState :=
  if isTrans op then { y with tOpen := y.tOpen ++ [(no, f.dst.val, spanN f)] } else y

/-- The core after an operation over vector registers. -/
def afterVec (z : CoreState) (op : VecOp) (f : VecF) (no : Nat) : CoreState :=
  openResult (withResults z (vecOut z op f) (vecMasks z op f)) op f no

theorem openResult_eq (y : CoreState) (op : VecOp) (f : VecF) (no : Nat) :
    openResult y op f no = { y with tOpen := y.tOpen ++ if isTrans op then [(no, f.dst.val, spanN f)] else [] } := by
  unfold openResult
  split
  · rfl
  · rw [List.append_nil]

theorem withResults_eq (z : CoreState) (o : VecOut) (ms : List Nat) :
    ∃ p, withResults z o ms = { z with vregs := (writeVregs z (o.regs.zip ms)).vregs, vpoison := p, vflags := z.vflags ||| o.fl,
                                       sat := satAdd 32 z.sat o.sat } := by
  obtain ⟨v, p, h⟩ := writeVregs_eq z (o.regs.zip ms)
  refine ⟨p, ?_⟩
  rw [withResults, h]
  rfl

section
variable (z : CoreState) (op : VecOp) (f : VecF) (no : Nat)

theorem afterVec_eq : ∃ p, afterVec z op f no =
    { z with
      vregs := (writeVregs z ((vecOut z op f).regs.zip (vecMasks z op f))).vregs
      vpoison := p
      vflags := z.vflags ||| (vecOut z op f).fl
      sat := satAdd 32 z.sat (vecOut z op f).sat
      tOpen := z.tOpen ++ if isTrans op then [(no, f.dst.val, spanN f)] else [] } := by
  obtain ⟨p, h⟩ := withResults_eq z (vecOut z op f) (vecMasks z op f)
  exact ⟨p, by rw [afterVec, openResult_eq, h]⟩

theorem vreg_afterVec (q : Nat) :
    vreg (afterVec z op f no) q = vreg (writeVregs z ((vecOut z op f).regs.zip (vecMasks z op f))) q := by
  obtain ⟨p, h⟩ := afterVec_eq z op f no
  rw [h]
  exact vreg_of rfl q

theorem afterVec_fields : (afterVec z op f no).posts = z.posts ∧ (afterVec z op f no).vflags = z.vflags ||| (vecOut z op f).fl ∧
    (afterVec z op f no).sat = satAdd 32 z.sat (vecOut z op f).sat ∧
    (afterVec z op f no).tOpen = z.tOpen ++ if isTrans op then [(no, f.dst.val, spanN f)] else [] := by
  obtain ⟨p, h⟩ := afterVec_eq z op f no
  rw [h]
  exact ⟨rfl, rfl, rfl, rfl⟩

theorem map_fst_results : ((vecOut z op f).regs.zip (vecMasks z op f)).map (·.1) = (vecOut z op f).regs :=
  List.map_fst_zip (length_vecMasks z z op f).ge

theorem vreg_afterVec_of_mem {r v : Nat} (hnd : ((vecOut z op f).regs.map (·.1)).Nodup) (hm : (r, v) ∈ (vecOut z op f).regs) :
    vreg (afterVec z op f no) r = v % 2 ^ 4096 := by
  rw [vreg_afterVec]
  obtain ⟨⟨w, p⟩, hp, rfl⟩ := List.mem_map.1 (map_fst_results z op f ▸ hm)
  refine vreg_writeVregs_of_mem z ?_ hp
  rwa [← map_fst_results z op f, List.map_map] at hnd

theorem vreg_afterVec_other {r : Nat} (h : ∀ w ∈ (vecOut z op f).regs, w.1 ≠ r) : vreg (afterVec z op f no) r = vreg z r := by
  rw [vreg_afterVec, vreg_writeVregs_other]
  exact fun w hw => h w.1 (map_fst_results z op f ▸ List.mem_map_of_mem hw)

end

section
variable {s : State} {c : Nat} {x : Context} {k : CtxCore} {y : CoreState} {op : VecOp} {f : VecF}

/-- An operation that its unit accepts reads its registers, writes its results, and applies the posts that are ready. -/
theorem vecRun_eq (hx : Runs s c x k) (ha : Accepts s c .v (.vec op f) y) (hlegal : vecLegal op f = true)
    (hreads : awaits (core s c) (vecReads op f) = false) (hwrites : awaits (core s c) (vecWrites op f) = false) :
    ∃ u n, u = readVregs (putCore s c y) x c (vecReads op f) ∧
      vecRun op c f s = runPosts (perfAdd (putCore u c (afterVec (core u c) op f (opNo y .v))) c (Reg.cperfVector c) n) c := by
  unfold vecRun
  rw [hlegal, if_neg (by decide), (runOp_accepted _ hx ha (by rw [hreads, hwrites]; rfl)).1]
  exact ⟨_, _, rfl, rfl⟩

theorem vecRun_spec (hx : Runs s c x k) (ha : Accepts s c .v (.vec op f) y) (hposts : y.posts = []) (hlegal : vecLegal op f = true)
    (hreads : awaits (core s c) (vecReads op f) = false) (hwrites : awaits (core s c) (vecWrites op f) = false) :
    (∃ l, core (vecRun op c f s) c = afterVec { y with latched := l } op f (opNo y .v)) ∧
      (∀ j, j ≠ c → core (vecRun op c f s) j = core s j) ∧ (vecRun op c f s).mem = s.mem := by
  obtain ⟨u, n, hu, hrun⟩ := vecRun_eq hx ha hlegal hreads hwrites
  obtain ⟨l, hl⟩ := core_readVregs (putCore s c y) x c (vecReads op f)
  rw [← hu, core_putCore_self] at hl
  generalize hv : perfAdd (putCore u c (afterVec (core u c) op f (opNo y .v))) c (Reg.cperfVector c) n = v at hrun
  have hz : core v c = afterVec { y with latched := l } op f (opNo y .v) := by
    rw [← hv, core_of (perfAdd_cores _ _ _ _), core_putCore_self, hl]
  have hnone : (core v c).posts = [] := by
    rw [hz, (afterVec_fields _ op f _).1]
    exact hposts
  have hv_only : Only 0x18002 s v :=
    hv ▸ perfAdd_only _ _ _ (putCore_only _ _ (hu ▸ readVregs_only _ _ _ (putCore_only _ _ .refl ⟨rfl⟩) ⟨rfl⟩) ⟨rfl⟩) ⟨rfl⟩
  have hmem := (hv_only.trans ((runPosts_nil_only hnone).mono ⟨rfl⟩)).out .mem rfl
  rw [hrun]
  refine ⟨⟨l, (core_runPosts hnone c).trans hz⟩, fun j hj => (core_runPosts hnone j).trans ?_, hmem.symm⟩
  rw [← hv, core_of (perfAdd_cores _ _ _ _), core_putCore_other _ _ _ _ hj, hu, core_readVregs_other _ _ _ _ hj,
    core_putCore_other _ _ _ _ hj]

end

end Sys2Proof.Machine

/-! PROOFS. The family 03_tarn_cores: VLD, VST and the arrival of a transcendental result (R95, R183, R205, R206). -/

namespace Sys2Proof.Machine

set_option Elab.async false

/-! ### The registers and ranges of a span (R205) -/

section
variable (f : VMemF)

theorem mem_vmemSpan {e : Nat × Nat} :
    e ∈ vmemSpan f ↔ ∃ i, i ≤ f.span.val ∧ e = (f.dst.val + i, 512 * (f.addr.toNat + i)) := by
  simp only [vmemSpan, List.mem_map, List.mem_range, Nat.lt_succ_iff]
  exact exists_congr fun i => and_congr_right fun _ => eq_comm

theorem forall_vmemSpan {p : Nat × Nat → Prop} :
    (∀ e ∈ vmemSpan f, p e) ↔ ∀ i, i ≤ f.span.val → p (f.dst.val + i, 512 * (f.addr.toNat + i)) :=
  ⟨fun h i hi => h _ ((mem_vmemSpan f).2 ⟨i, hi, rfl⟩), fun h _ he =>
    have ⟨i, hi, heq⟩ := (mem_vmemSpan f).1 he
    heq ▸ h i hi⟩

theorem nodup_vmemSpan : ((vmemSpan f).map (·.1)).Nodup := by
  rw [vmemSpan, List.map_map]
  exact List.nodup_range.map fun i j h => Nat.add_left_cancel h

/-- The ranges of a span follow one another. -/
theorem pairwise_vmemSpan : (vmemSpan f).Pairwise fun d e => d.2 + 512 ≤ e.2 := by
  rw [vmemSpan, List.pairwise_map]
  exact List.pairwise_lt_range.imp fun h => by omega

end

/-! ### VLD (R206) -/

/-- VLD loads one register from the region. -/
def loadVreg (x : Context) (k : CtxCore) (c : Nat) (ecc : EccList) (s : State) (e : Nat × Nat) : State :=
  let r := loadRegion (decodeRegion s k ecc e.2 512) x k e.2 512
  putCore r.1 c (putVreg (core r.1 c) e.1 (leNat r.2.1) (maskOf (r.2.2.map (· / 32))))

section
variable {x : Context} {k : CtxCore} {c : Nat} {ecc : EccList} {s0 s : State} {l : List (Nat × Nat)}

theorem loadVreg_only {m : Nat} (e : Nat × Nat) (h : Only m s0 s) (hm : Sub 0x18302 m) : Only m s0 (loadVreg x k c ecc s e) :=
  putCore_only _ _ (loadRegion_only _ _ _ _ (decodeRegion_only _ _ _ _ h (hm.mono rfl)) (hm.mono rfl)) (hm.mono rfl)

theorem core_loadRegion (x : Context) (off n : Nat) (s : State) :
    (∃ l, core (loadRegion s x k off n).1 k.core = { core s k.core with latched := l }) ∧
      ∀ j, j ≠ k.core → core (loadRegion s x k off n).1 j = core s j := by
  unfold loadRegion
  dsimp only
  split
  · exact ⟨⟨(core s k.core).latched, rfl⟩, fun _ _ => rfl⟩
  · exact ⟨⟨_, core_latch s k.core x causeStorePoison 0⟩, fun j hj => core_latch_other s x _ _ hj⟩

theorem core_loadVreg (hk : k.core = c) (e : Nat × Nat) :
    (∃ l p, core (loadVreg x k c ecc s e) c =
      putVreg { core s c with latched := l } e.1 (leNat (loadBytes s (regionAddr k e.2) 512)) p) ∧
      ∀ j, j ≠ c → core (loadVreg x k c ecc s e) j = core s j := by
  subst hk
  obtain ⟨⟨l, hl⟩, hother⟩ := core_loadRegion (k := k) x e.2 512 (decodeRegion s k ecc e.2 512)
  unfold loadVreg
  dsimp only
  refine ⟨⟨l, maskOf ((loadRegion (decodeRegion s k ecc e.2 512) x k e.2 512).2.2.map (· / 32)), ?_⟩, fun j hj => ?_⟩
  · rw [core_putCore_self, hl, core_decodeRegion, loadRegion_bytes, loadBytes_decodeRegion]
  · rw [core_putCore_other _ _ _ _ hj, hother j hj, core_decodeRegion]

theorem vreg_loadVreg (hk : k.core = c) (e : Nat × Nat) (q : Nat) : vreg (core (loadVreg x k c ecc s e) c) q =
    if q = e.1 then leNat (loadBytes s (regionAddr k e.2) 512) % 2 ^ 4096 else vreg (core s c) q := by
  obtain ⟨⟨l, p, h⟩, -⟩ := core_loadVreg (x := x) (ecc := ecc) (s := s) hk e
  rw [h, vreg_putVreg]
  split
  · rfl
  · exact vreg_of rfl q

theorem loadBytes_loadVreg (e : Nat × Nat) (a n : Nat) : loadBytes (loadVreg x k c ecc s e) a n = loadBytes s a n :=
  have h := loadVreg_only (x := x) (k := k) (c := c) (ecc := ecc) (m := 0x18302) e (.refl (s0 := s)) ⟨rfl⟩
  loadBytes_of (h.out .mem rfl).symm (h.out .written rfl).symm a n

/-- Loading registers leaves the waiting posts and the other cores. -/
theorem core_loadVregs (hk : k.core = c) (s : State) : (core (l.foldl (loadVreg x k c ecc) s) c).posts = (core s c).posts ∧
    ∀ j, j ≠ c → core (l.foldl (loadVreg x k c ecc) s) j = core s j := by
  induction l generalizing s with
  | nil => exact ⟨rfl, fun _ _ => rfl⟩
  | cons e l ih =>
    obtain ⟨⟨w, p, hw⟩, hother⟩ := core_loadVreg (x := x) (ecc := ecc) (s := s) hk e
    obtain ⟨hposts, hrest⟩ := ih (loadVreg x k c ecc s e)
    rw [List.foldl_cons]
    refine ⟨hposts.trans (by rw [hw]; rfl), fun j hj => (hrest j hj).trans (hother j hj)⟩

theorem vreg_loadVregs_other (hk : k.core = c) {q : Nat} (h : ∀ e ∈ l, e.1 ≠ q) (s : State) :
    vreg (core (l.foldl (loadVreg x k c ecc) s) c) q = vreg (core s c) q := by
  induction l generalizing s with
  | nil => rfl
  | cons e l ih =>
    rw [List.foldl_cons, ih fun d hd => h d (List.mem_cons_of_mem e hd), vreg_loadVreg hk, if_neg fun hq => h e List.mem_cons_self hq.symm]

theorem vreg_loadVregs_of_mem (hk : k.core = c) (hnd : (l.map (·.1)).Nodup) {e : Nat × Nat} (he : e ∈ l) (s : State) :
    vreg (core (l.foldl (loadVreg x k c ecc) s) c) e.1 = leNat (loadBytes s (regionAddr k e.2) 512) % 2 ^ 4096 := by
  induction l generalizing s with
  | nil => exact absurd he List.not_mem_nil
  | cons d l ih =>
    rw [List.map_cons, List.nodup_cons] at hnd
    rw [List.foldl_cons]
    obtain rfl | he := List.mem_cons.1 he
    · rw [vreg_loadVregs_other hk fun d hd hq => hnd.1 (List.mem_map.2 ⟨d, hd, hq⟩), vreg_loadVreg hk, if_pos rfl]
    · rw [ih hnd.2 he, loadBytes_loadVreg]

variable {y : CoreState} {f : VMemF}

theorem vld_eq (hx : Runs s c x k) (ha : Accepts s c .v (.vld f) y) (hlegal : vmemLegal x f = true)
    (hawaits : awaits (core s c) (regSpan f.dst.val (f.span.val + 1)) = false) :
    vld c f ecc s =
      runPosts (perfAdd ((vmemSpan f).foldl (loadVreg x k c ecc) (putCore s c y)) c (Reg.cperfVector c) 1) c := by
  unfold vld
  rw [hx.1]
  dsimp only
  rw [hlegal, if_neg (by decide), (runOp_accepted _ hx ha (by rw [hawaits]; rfl)).1]
  rfl

theorem vld_spec (hx : Runs s c x k) (ha : Accepts s c .v (.vld f) y) (hposts : y.posts = []) (hlegal : vmemLegal x f = true)
    (hawaits : awaits (core s c) (regSpan f.dst.val (f.span.val + 1)) = false) :
    (vld c f ecc s).mem = s.mem ∧
      (∀ j, core (vld c f ecc s) j = core ((vmemSpan f).foldl (loadVreg x k c ecc) (putCore s c y)) j) := by
  rw [vld_eq hx ha hlegal hawaits]
  generalize hu : (vmemSpan f).foldl (loadVreg x k c ecc) (putCore s c y) = u
  have hcore : ∀ j, core (perfAdd u c (Reg.cperfVector c) 1) j = core u j := core_of (perfAdd_cores _ _ _ _)
  have hnone : (core (perfAdd u c (Reg.cperfVector c) 1) c).posts = [] := by
    rw [hcore, ← hu, (core_loadVregs hx.core _).1, core_putCore_self, hposts]
  have honly : Only 0x18302 s u :=
    hu ▸ onlyFold (putCore_only _ _ .refl ⟨rfl⟩) fun t ht e => loadVreg_only e ht ⟨rfl⟩
  have hmem := ((perfAdd_only c (Reg.cperfVector c) 1 honly ⟨rfl⟩).trans ((runPosts_nil_only hnone).mono ⟨rfl⟩)).out .mem rfl
  exact ⟨hmem.symm, fun j => (core_runPosts hnone j).trans (hcore j)⟩

end

/-! ### A write of data that is not poisoned poisons nothing (R183, R249) -/

section
variable {s t : State} {a c : Nat}

theorem and_eq_false_of_imp {a b d : Bool} (h : (a && b) = false) (hd : d = true → b = true) : (a && d) = false := by
  cases a with
  | false => rfl
  | true => exact Bool.eq_false_iff.2 fun ht => Bool.false_ne_true (h.symm.trans (hd ht))

/-- What marks no further line or word as poisoned leaves what reads as no poison. -/
theorem clean_of_le (hw : t.written = s.written) (hp : ∀ i, tget false t.poison i = true → tget false s.poison i = true)
    (hc : ∀ i, tget false t.corePoison i = true → tget false s.corePoison i = true) (h : poisonedAt s a = false) :
    poisonedAt t a = false := by
  have hpage : pageWritten t a = pageWritten s a := by unfold pageWritten; rw [hw]
  unfold poisonedAt at h ⊢
  rw [hpage]
  cases hz : zoneOf a <;> rw [hz] at h
  case core => exact Bool.eq_false_iff.2 fun hb => Bool.false_ne_true (h.symm.trans (hc _ hb))
  case near => exact and_eq_false_of_imp h (hp _)
  case pond => exact and_eq_false_of_imp h (hp _)

theorem tget_tput_false {p : Table Bool} {i j : Nat} (h : tget false (tput false p i false) j = true) : tget false p j = true := by
  rw [tget_tput] at h
  split at h
  · cases h
  · exact h

theorem clean_setPoison_false (b : Nat) (h : poisonedAt s a = false) : poisonedAt (setPoison s b false) a = false := by
  unfold setPoison
  split
  · exact clean_of_le (s := s) rfl (fun _ hi => hi) (fun _ hi => tget_tput_false hi) h
  · dsimp only
    split
    · exact clean_of_le (s := s) rfl (fun _ hi => tget_tput_false hi) (fun _ hi => hi) h
    · rw [if_neg Bool.false_ne_true]
      exact clean_of_le (s := s) rfl (fun _ hi => tget_tput_false hi) (fun _ hi => hi) h
  · dsimp only
    split
    · exact clean_of_le (s := s) rfl (fun _ hi => tget_tput_false hi) (fun _ hi => hi) h
    · rw [if_neg Bool.false_ne_true]
      exact clean_of_le (s := s) rfl (fun _ hi => tget_tput_false hi) (fun _ hi => hi) h
  · exact h

theorem clean_applyPiece (b : Nat) (bs : List Byte) (h : poisonedAt s a = false) : poisonedAt (applyPiece s b bs false).1 a = false := by
  have hu : poisonedAt (if paged b then openPage s b else s) a = false := by
    split
    · rw [poisonedAt_openPage]; exact h
    · exact h
  unfold applyPiece
  generalize (if paged b = true then openPage s b else s) = u at hu ⊢
  have hmem : poisonedAt { u with mem := writeBytes u.mem b bs } a = false := (poisonedAt_of rfl rfl rfl a).trans hu
  dsimp only
  split
  · exact hu
  · dsimp only
    split
    · exact clean_setPoison_false b hmem
    · exact hmem

theorem clean_writePieces (fuel : Nat) (s : State) (b off : Nat) (bs : List Byte) (h : poisonedAt s a = false) :
    poisonedAt (writePieces fuel s b off bs []).1 a = false := by
  induction fuel generalizing s b off bs with
  | zero => exact h
  | succ fuel ih =>
    unfold writePieces
    split
    · exact h
    · exact ih _ _ _ _ (clean_applyPiece b _ h)

theorem clean_writeMem (b : Nat) (bs : List Byte) (h : poisonedAt s a = false) : poisonedAt (writeMem s b bs []).1 a = false :=
  clean_writePieces _ s b 0 bs h

theorem loadBytes_congr {n : Nat} (h : ∀ i, i < n → byteAt t (a + i) = byteAt s (a + i)) : loadBytes t a n = loadBytes s a n :=
  List.map_congr_left fun i hi => h i (List.mem_range.1 hi)

end

/-! ### VST (R183, R206) -/

/-- VST stores one register in the region. -/
def storeVreg (k : CtxCore) (y : CoreState) (s : State) (e : Nat × Nat) : State :=
  storeRegion s k e.2 (leBytes 512 (vreg y e.1)) ((maskList (vmask y e.1) 16).map (32 * ·))

section
variable {x : Context} {k : CtxCore} {c : Nat} {s : State} {y z : CoreState} {l : List (Nat × Nat)}

theorem byteAt_storeVreg_outside (e : Nat × Nat) {b : Nat} (h : ¬ (regionAddr k e.2 ≤ b ∧ b < regionAddr k e.2 + 512)) :
    byteAt (storeVreg k z s e) b = byteAt s b := by
  rw [storeVreg, storeRegion]
  exact byteAt_writeMem_outside _ _ _ _ _ (by rw [length_leBytes]; exact h)

/-- A register that holds no poison is stored without any. -/
theorem storeVreg_of_clean (e : Nat × Nat) (h : vmask z e.1 = 0) :
    storeVreg k z s e = (writeMem s (regionAddr k e.2) (leBytes 512 (vreg z e.1)) []).1 := by
  have hmask : maskList 0 16 = [] := by decide
  rw [storeVreg, storeRegion, h, hmask, List.map_nil]

theorem byteAt_storeVregs_outside {b : Nat} (h : ∀ e ∈ l, ¬ (regionAddr k e.2 ≤ b ∧ b < regionAddr k e.2 + 512)) (s : State) :
    byteAt (l.foldl (storeVreg k z) s) b = byteAt s b := by
  induction l generalizing s with
  | nil => rfl
  | cons e l ih =>
    rw [List.foldl_cons, ih fun d hd => h d (List.mem_cons_of_mem e hd), byteAt_storeVreg_outside e (h e List.mem_cons_self)]

/-- Registers without poison, stored one behind the other in lines that are not poisoned, are read back. -/
theorem loadBytes_storeVregs (hl : l.Pairwise fun d e => d.2 + 512 ≤ e.2) (hz : ∀ e ∈ l, vmask z e.1 = 0) (s : State)
    (hs : ∀ e ∈ l, ∀ i, i < 512 → poisonedAt s (regionAddr k e.2 + i) = false) {e : Nat × Nat} (he : e ∈ l) :
    loadBytes (l.foldl (storeVreg k z) s) (regionAddr k e.2) 512 = leBytes 512 (vreg z e.1) := by
  induction l generalizing s with
  | nil => exact absurd he List.not_mem_nil
  | cons d l ih =>
    rw [List.pairwise_cons] at hl
    rw [List.foldl_cons, storeVreg_of_clean d (hz d List.mem_cons_self)]
    obtain rfl | he := List.mem_cons.1 he
    · have hout : ∀ i, i < 512 → ∀ d ∈ l, ¬ (regionAddr k d.2 ≤ regionAddr k e.2 + i ∧ regionAddr k e.2 + i < regionAddr k d.2 + 512) := by
        intro i hi d hd
        have := hl.1 d hd
        unfold regionAddr
        omega
      have hload := loadBytes_writeMem s (regionAddr k e.2) (leBytes 512 (vreg z e.1)) []
        (by rw [length_leBytes]; exact hs e List.mem_cons_self)
      rw [length_leBytes] at hload
      rw [loadBytes_congr fun i hi => byteAt_storeVregs_outside (hout i hi) _, hload]
    · exact ih hl.2 (fun e he => hz e (List.mem_cons_of_mem d he)) _
        (fun e he i hi => clean_writeMem _ _ (hs e (List.mem_cons_of_mem d he) i hi)) he

/-- The same of a span whose range is not poisoned. -/
theorem loadBytes_storeSpan (f : VMemF) (hz : ∀ n, n ≤ f.span.val → vmask z (f.dst.val + n) = 0)
    (hs : ∀ b, regionAddr k (512 * f.addr.toNat) ≤ b → b < regionAddr k (512 * (f.addr.toNat + f.span.val + 1)) →
      poisonedAt s b = false) {i : Nat} (hi : i ≤ f.span.val) :
    loadBytes ((vmemSpan f).foldl (storeVreg k z) s) (regionAddr k (512 * (f.addr.toNat + i))) 512 =
      leBytes 512 (vreg z (f.dst.val + i)) := by
  have hclean : ∀ e ∈ vmemSpan f, ∀ j, j < 512 → poisonedAt s (regionAddr k e.2 + j) = false :=
    (forall_vmemSpan f).2 fun n hn j hj => hs _ (by unfold regionAddr; omega) (by unfold regionAddr; omega)
  have hzero : ∀ e ∈ vmemSpan f, vmask z e.1 = 0 := (forall_vmemSpan f).2 hz
  have hread : ∀ e ∈ vmemSpan f, loadBytes ((vmemSpan f).foldl (storeVreg k z) s) (regionAddr k e.2) 512 = leBytes 512 (vreg z e.1) :=
    fun e he => loadBytes_storeVregs (pairwise_vmemSpan f) hzero s hclean he
  exact (forall_vmemSpan f).1 hread i hi

variable {f : VMemF}

theorem vst_eq (hx : Runs s c x k) (ha : Accepts s c .v (.vst f) y) (hlegal : vmemLegal x f = true)
    (hawaits : awaits (core s c) (regSpan f.dst.val (f.span.val + 1)) = false) :
    ∃ u, u = readVregs (putCore s c y) x c (regSpan f.dst.val (f.span.val + 1)) ∧
      vst c f s = runPosts (perfAdd ((vmemSpan f).foldl (storeVreg k (core u c)) u) c (Reg.cperfVector c) 1) c := by
  unfold vst
  rw [hx.1]
  dsimp only
  rw [hlegal, if_neg (by decide), (runOp_accepted _ hx ha (by rw [hawaits]; rfl)).1]
  exact ⟨_, rfl, rfl⟩

/-- VST stores registers that read as before, from a state whose bytes and poison read as before. -/
theorem vst_spec (hx : Runs s c x k) (ha : Accepts s c .v (.vst f) y) (hposts : y.posts = []) (hlegal : vmemLegal x f = true)
    (hawaits : awaits (core s c) (regSpan f.dst.val (f.span.val + 1)) = false) :
    ∃ u z, z.vregs = (core s c).vregs ∧ z.vpoison = (core s c).vpoison ∧ (∀ b, byteAt u b = byteAt s b) ∧
      (∀ b, poisonedAt u b = poisonedAt s b) ∧
      ∀ b, byteAt (vst c f s) b = byteAt ((vmemSpan f).foldl (storeVreg k z) u) b := by
  obtain ⟨u, hu, hvst⟩ := vst_eq hx ha hlegal hawaits
  obtain ⟨l, hl⟩ := core_readVregs (putCore s c y) x c (regSpan f.dst.val (f.span.val + 1))
  rw [← hu, core_putCore_self] at hl
  have honly : Only 0x18000 s u := hu ▸ readVregs_only _ _ _ (putCore_only _ _ .refl ⟨rfl⟩) ⟨rfl⟩
  refine ⟨u, core u c, ?_, ?_, fun b => byteAt_of (honly.out .mem rfl).symm (honly.out .written rfl).symm b,
    fun b => poisonedAt_of (honly.out .poison rfl).symm (honly.out .corePoison rfl).symm (honly.out .written rfl).symm b, fun b => ?_⟩
  · rw [hl, ha.eq_popOp]; rfl
  · rw [hl, ha.eq_popOp]; rfl
  · generalize hv : (vmemSpan f).foldl (storeVreg k (core u c)) u = v at hvst ⊢
    have hv_cores : v.cores = u.cores :=
      ((hv ▸ onlyFold .refl fun t ht e => storeRegion_only _ _ _ _ ht ⟨rfl⟩ : Only 0x83c2 u v).out .cores rfl).symm
    have hnone : (core (perfAdd v c (Reg.cperfVector c) 1) c).posts = [] := by
      rw [core_of (perfAdd_cores _ _ _ _), core_of hv_cores, hl]
      exact hposts
    have hend := (perfAdd_only c (Reg.cperfVector c) 1 (.refl (m := 0x10002) (s0 := v)) ⟨rfl⟩).trans
      ((runPosts_nil_only hnone).mono ⟨rfl⟩)
    rw [hvst]
    exact byteAt_of (hend.out .mem rfl).symm (hend.out .written rfl).symm b

end

/-! ### The commands -/

section
variable (s : State) (c : CoreNo)

theorem exec_vecInstr (op : VecOp) (f : VecF) : exec (vecInstr op c f) s = .next (vecRun op c f s) := by cases op <;> rfl
theorem exec_vld (f : VMemF) (ecc : EccList) : exec (.vld c ⟨f, ecc⟩) s = .next (vld c f ecc s) := rfl
theorem exec_vst (f : VMemF) : exec (.vst c f) s = .next (vst c f s) := rfl
theorem exec_transcendentalResult : exec (.transcendentalResult c) s = .next (transcendentalResult c s) := rfl

end

/-- Settles O15: an operation over registers by its results, VLD and VST register by register, and the oldest open result. -/
theorem vectorOperationsTakeEffect : Obligations.VectorOperationsTakeEffect := by
  refine ⟨fun s c x k y op f hx ha hposts hlegal hreads hwrites => ?_, fun s c x k y f ecc hx ha hposts hlegal hawaits => ?_,
    fun s c x k y f hx ha hposts hlegal hawaits => ?_, fun s c hposts => ?_⟩
  · obtain ⟨⟨l, hcore⟩, hother, hmem⟩ := vecRun_spec hx ha hposts hlegal hreads hwrites
    have hvregs : ({ y with latched := l } : CoreState).vregs = (core s c).vregs := by rw [ha.eq_popOp]; rfl
    obtain ⟨-, hflags, hsat, hopen⟩ := afterVec_fields { y with latched := l } op f (opNo y .v)
    have hout := vecOut_of hvregs f op
    refine ⟨_, exec_vecInstr s c op f, hmem, fun r v hnd hm => ?_, fun r hr => ?_, ?_, ?_, ?_, hother⟩
    · rw [hcore, vreg_afterVec_of_mem _ _ _ _ (by rwa [hout]) (by rwa [hout])]
    · rw [hcore, vreg_afterVec_other _ _ _ _ (by rwa [hout]), vreg_of hvregs]
    · rw [hcore, hflags, hout, ha.eq_popOp]; rfl
    · rw [hcore, hsat, hout, ha.eq_popOp]; rfl
    · rw [hcore, hopen, ha.eq_popOp]; rfl
  · obtain ⟨hmem, hcore⟩ := vld_spec (ecc := ecc) hx ha hposts hlegal hawaits
    refine ⟨_, exec_vld s c f ecc, hmem, fun i hi => ?_, fun r hr => ?_, fun j hj => ?_⟩
    · rw [hcore]
      refine (vreg_loadVregs_of_mem hx.core (nodup_vmemSpan f) ((mem_vmemSpan f).2 ⟨i, hi, rfl⟩) _).trans ?_
      rw [loadBytes_putCore]
    · rw [hcore, vreg_loadVregs_other hx.core, core_putCore_self, ha.eq_popOp]
      · exact vreg_of rfl r
      · rintro e he rfl
        obtain ⟨i, hi, rfl⟩ := (mem_vmemSpan f).1 he
        dsimp only at hr
        omega
    · rw [hcore, (core_loadVregs hx.core _).2 j hj, core_putCore_other _ _ _ _ hj]
  · obtain ⟨u, z, hvregs, hvpoison, hbytes, hpoison, hvst⟩ := vst_spec hx ha hposts hlegal hawaits
    refine ⟨_, exec_vst s c f, fun b hb => ?_, fun hclean hmasks i hi => ?_⟩
    · rw [hvst, byteAt_storeVregs_outside, hbytes]
      intro e he hin
      obtain ⟨i, hi, rfl⟩ := (mem_vmemSpan f).1 he
      unfold regionAddr at hb hin
      dsimp only at hin
      omega
    · have hstored := loadBytes_storeSpan (k := k) (z := z) (s := u) f (fun n hn => ?_) (fun b hlo hhi => ?_) hi
      rw [loadBytes_congr fun j _ => hvst _, hstored, vreg_of hvregs]
      · exact (congrArg (fun p => tget 0 p (f.dst.val + n)) hvpoison).trans (hmasks n hn)
      · exact (hpoison b).trans (hclean b hlo hhi)
  · have hnone : (core (modCore s c fun y => { y with tOpen := y.tOpen.drop 1 }) c).posts = [] := by
      rw [core_modCore_self]; exact hposts
    refine ⟨_, exec_transcendentalResult s c, ?_, fun j hj => ?_⟩
    · rw [transcendentalResult, core_runPosts hnone, core_modCore_self]
    · rw [transcendentalResult, core_runPosts hnone, core_modCore, if_neg hj]

end Sys2Proof.Machine

/-! PROOFS. The family 03_tarn_cores: contexts and their dispatches, operand parity, close reports, barriers and aborts
(R120, R161 to R168, R180, R182, R184, R268). -/

namespace Sys2Proof.Machine

set_option Elab.async false

/-! ### A dispatch by its context's handle -/

/-- The dispatch that the context of a handle runs. -/
def runOf? (s : State) (h : Nat) : Option Run := (ctx? s h).bind (·.run)

section
variable {s t : State} {h j : Nat} {x : Context} {r : Run}

theorem runOf_of_ctx (hx : ctx? s h = some x) (hr : x.run = some r) : runOf? s h = some r := by rw [runOf?, hx]; exact hr

theorem ctx_of_runOf (hr : runOf? s h = some r) : ∃ x, ctx? s h = some x ∧ x.run = some r := Option.bind_eq_some_iff.1 hr

theorem runOf_of (e : t.contexts = s.contexts) (h : Nat) : runOf? t h = runOf? s h := by unfold runOf?; rw [ctxQ_of e]

/-- A change of a context that keeps what `g` reads of it. -/
theorem map_ctx_modCtx {α : Type} {g : Context → α} {f : Context → Context} (hf : ∀ x, (f x).handle = x.handle)
    (hg : ∀ x, g (f x) = g x) : (ctx? (modCtx s j f) h).map g = (ctx? s h).map g := by
  rw [ctx_modCtx _ _ _ _ hf]
  split
  · rw [Option.map_map, show g ∘ f = g from funext hg]
  · rfl

theorem runOf_modRun (f : Run → Run) (hr : runOf? s h = some r) : runOf? (modRun s h f) h = some (f r) := by
  obtain ⟨x, hx, hrun⟩ := ctx_of_runOf hr
  have hmod := ctx_modCtx_self (fun x => { x with run := x.run.map f }) (fun _ => rfl) hx
  exact runOf_of_ctx hmod (by rw [hrun]; rfl)

theorem runOf_setOutcome {e : EndRec} (hr : runOf? s h = some r) (hnone : r.outcome = none) :
    runOf? (setOutcome s h e) h = some { r with outcome := some e } := by
  refine (runOf_modRun _ hr).trans ?_
  rw [hnone]

end

/-! ### Status kept with the context (R135) -/

section
variable {s : State}

/-- What the status that a core keeps with its context leaves of a context: its run and its cores. -/
def runAndCores (x : Context) : Option Run × List Nat := (x.run, x.cores.map (·.core))

theorem map_core_modCores (l : List CtxCore) (c : Nat) (f : CtxCore → CtxCore) (hf : ∀ k, (f k).core = k.core) :
    (l.map fun k => if k.core == c then f k else k).map (·.core) = l.map (·.core) := by
  rw [List.map_map]
  refine List.map_congr_left fun k _ => ?_
  rw [Function.comp_apply]
  split
  · exact hf k
  · rfl

theorem map_runAndCores_saveStatus (s : State) (c h : Nat) :
    (ctx? (saveStatus s c) h).map runAndCores = (ctx? s h).map runAndCores := by
  unfold saveStatus
  dsimp only
  split
  · exact map_ctx_modCtx (fun _ => rfl) fun x => congrArg (Prod.mk x.run) (map_core_modCores _ _ _ fun _ => rfl)
  · rfl

theorem runOf_eq_map (s : State) (h : Nat) : runOf? s h = ((ctx? s h).map runAndCores).bind (·.1) := by
  unfold runOf?
  cases ctx? s h <;> rfl

theorem runOf_saveStatus (s : State) (c h : Nat) : runOf? (saveStatus s c) h = runOf? s h := by
  rw [runOf_eq_map, map_runAndCores_saveStatus, ← runOf_eq_map]

end

/-! ### Folds over a list of cores or contexts -/

/-- What each element's step gives, and every step keeps, holds of all elements once they are done. -/
theorem foldl_forall_mem {α : Type} {f : State → α → State} {P : α → State → Prop} (hstep : ∀ s a, P a (f s a))
    (hkeep : ∀ s a b, P b s → P b (f s a)) (l : List α) (s : State) : ∀ a ∈ l, P a (l.foldl f s) := by
  induction l generalizing s with
  | nil => exact fun a ha => absurd ha List.not_mem_nil
  | cons d l ih =>
    intro a ha
    obtain rfl | ha := List.mem_cons.1 ha
    · exact List.foldlRecOn l f (motive := fun t => P a t) (hstep s a) fun t ht b _ => hkeep t b a ht
    · exact ih _ a ha

/-! ### The contexts that stay, and what stays of them -/

/-- A context after a change that keeps its handle, its cores and that it is being removed. -/
def KeptCtx (x y : Context) : Prop :=
  y.handle = x.handle ∧ y.cores.map (·.core) = x.cores.map (·.core) ∧ (x.removing = true → y.removing = true)

/-- Every context comes of one before, which it keeps. -/
def KeptContexts (s t : State) : Prop := ∀ y ∈ t.contexts, ∃ x ∈ s.contexts, KeptCtx x y

theorem KeptCtx.refl (x : Context) : KeptCtx x x := ⟨rfl, rfl, id⟩

section
variable {s t u : State} {x : Context}

theorem KeptContexts.refl (s : State) : KeptContexts s s := fun y hy => ⟨y, hy, .refl y⟩

theorem KeptContexts.trans (h : KeptContexts s t) (h' : KeptContexts t u) : KeptContexts s u := by
  intro z hz
  obtain ⟨y, hy, hhandle, hcores, hremoving⟩ := h' z hz
  obtain ⟨x, hx, hhandle', hcores', hremoving'⟩ := h y hy
  exact ⟨x, hx, hhandle.trans hhandle', hcores.trans hcores', fun hr => hremoving (hremoving' hr)⟩

theorem keptContexts_of (e : t.contexts = s.contexts) : KeptContexts s t := fun y hy => ⟨y, e ▸ hy, .refl y⟩

theorem keptContexts_ite {c : Prop} [Decidable c] (ht : KeptContexts s t) (hu : KeptContexts s u) :
    KeptContexts s (if c then t else u) := by
  split
  · exact ht
  · exact hu

theorem keptContexts_modCtx (s : State) (h : Nat) (f : Context → Context) (hf : ∀ x, KeptCtx x (f x)) :
    KeptContexts s (modCtx s h f) := by
  intro y hy
  obtain ⟨x, hx, rfl⟩ := List.mem_map.1 hy
  refine ⟨x, hx, ?_⟩
  split
  · exact hf x
  · exact .refl x

theorem keptContexts_foldl {α : Type} {f : State → α → State} (hf : ∀ s a, KeptContexts s (f s a)) (l : List α) (s : State) :
    KeptContexts s (l.foldl f s) :=
  List.foldlRecOn l f (motive := fun t => KeptContexts s t) (.refl s) fun t ht a _ => ht.trans (hf t a)

theorem keptContexts_saveStatus (s : State) (c : Nat) : KeptContexts s (saveStatus s c) := by
  unfold saveStatus
  dsimp only
  split
  · exact keptContexts_modCtx _ _ _ fun x => ⟨rfl, map_core_modCores _ _ _ fun _ => rfl, id⟩
  · exact .refl s

theorem keptContexts_cutContext (s : State) (x : Context) : KeptContexts s (cutContext s x) := by
  have hrings : ∀ v : State, (parkRings (dropTransfers v x.handle) x).contexts = v.contexts := fun v =>
    ((parkRings_only (m := 0x1000000) x (dropTransfers_only _ .refl ⟨rfl⟩) ⟨rfl⟩).out .contexts rfl).symm
  refine (keptContexts_foldl (fun t k => ?_) x.cores s).trans (keptContexts_of (hrings _))
  split
  · refine (keptContexts_saveStatus t k.core).trans (keptContexts_of ?_)
    exact ((cutRequests_only (m := 0x1000002) k.core .refl ⟨rfl⟩).out .contexts rfl).symm
  · exact .refl t

theorem keptContexts_setOutcome (s : State) (h : Nat) (e : EndRec) : KeptContexts s (setOutcome s h e) :=
  keptContexts_modCtx _ _ _ fun _ => ⟨rfl, rfl, id⟩

theorem partEvent_contexts (s : State) (p type : Nat) (ws : List Nat) : (partEvent s p type ws).contexts = s.contexts :=
  ((partEvent_only (m := 0x8400000c22) p type ws .refl ⟨rfl⟩).out .contexts rfl).symm

end

/-! ### The contexts of a fenced core leave (R121, R186) -/

/-- A context of a fenced core ends its dispatch and leaves at the end of the tick. -/
def fenceContext (status : Nat) (s : State) (x : Context) : State :=
  let s := if 0 < (x.run.map (·.phases)).getD 0 then
      setOutcome (cutContext s x) x.handle { status := status, cause := 0, lcore := 0, phase := 0, time := s.time.now }
    else s
  let s := if x.removing then s else partEvent s x.part 6 [x.handle]
  modCtx s x.handle fun y => { y with removing := true }

/-- The report and the notice of a fenced core. -/
def fenceNoted (s : State) (c : Nat) : State :=
  let s := modCore s c fun y => { y with fenced := true }
  let s := raise s 8 2 (unitNo 0x01 c) (partOfCore s c) 0 0 (srcCore c)
  partEvent s (partOfCore s c) 5 [c]

/-- The contexts that have a core. -/
def contextsOn (s : State) (c : Nat) : List Context := s.contexts.filter fun x => x.cores.any fun k => k.core == c

section
variable {s : State} {c status : Nat} {x : Context}

theorem fenceCore_eq (hf : (core s c).fenced = false) :
    fenceCore s c status = coreOff ((contextsOn (fenceNoted s c) c).foldl (fenceContext status) (fenceNoted s c)) c := by
  unfold fenceCore
  rw [hf]
  rfl

theorem fenceContext_only {m : Nat} {s0 : State} (x : Context) (h : Only m s0 s) (hm : Sub 0x8401030c22 m) :
    Only m s0 (fenceContext status s x) := by
  have hended := onlyIte (c := 0 < (x.run.map (·.phases)).getD 0)
    (setOutcome_only x.handle { status := status, cause := 0, lcore := 0, phase := 0, time := s.time.now }
      (cutContext_only x h (hm.mono rfl)) (hm.mono rfl)) h
  exact modCtx_only _ _ (onlyIte hended (partEvent_only _ _ _ hended (hm.mono rfl))) (hm.mono rfl)

theorem keptContexts_fenceContext (status : Nat) (s : State) (x : Context) : KeptContexts s (fenceContext status s x) := by
  have hended := keptContexts_ite (c := 0 < (x.run.map (·.phases)).getD 0)
    ((keptContexts_cutContext s x).trans (keptContexts_setOutcome _ x.handle
      { status := status, cause := 0, lcore := 0, phase := 0, time := s.time.now })) (.refl s)
  have hnoticed := keptContexts_ite (c := x.removing = true) hended
    (hended.trans (keptContexts_of (partEvent_contexts _ x.part 6 [x.handle])))
  exact hnoticed.trans (keptContexts_modCtx _ _ (fun y => { y with removing := true }) fun _ => ⟨rfl, rfl, fun _ => rfl⟩)

/-- The contexts of a handle are being removed. -/
def Removing (h : Nat) (s : State) : Prop := ∀ y ∈ s.contexts, y.handle = h → y.removing = true

theorem Removing.kept {t : State} {h : Nat} (hr : Removing h s) (hk : KeptContexts s t) : Removing h t := by
  intro y hy hh
  obtain ⟨x, hx, hhandle, -, hremoving⟩ := hk y hy
  exact hremoving (hr x hx (hhandle.symm.trans hh))

theorem removing_fenceContext (status : Nat) (s : State) (x : Context) : Removing x.handle (fenceContext status s x) := by
  intro y hy hh
  obtain ⟨z, -, rfl⟩ := List.mem_map.1 hy
  split
  · rfl
  · rename_i hne
    rw [if_neg hne] at hh
    exact absurd (beq_iff_eq.2 hh) hne

theorem contexts_coreOff (s : State) (c : Nat) : (coreOff s c).contexts = s.contexts :=
  ((coreOff_only (m := 0x10002) c .refl ⟨rfl⟩).out .contexts rfl).symm

/-- Every context on a core that is fenced leaves. -/
theorem removing_fenceCore (hf : (core s c).fenced = false) :
    ∀ x ∈ (fenceCore s c status).contexts, (∃ k ∈ x.cores, k.core = c) → x.removing = true := by
  rw [fenceCore_eq hf, contexts_coreOff]
  generalize fenceNoted s c = u
  rintro y hy ⟨k, hk, hkc⟩
  obtain ⟨x, hx, hhandle, hcores, -⟩ := keptContexts_foldl (keptContexts_fenceContext status) (contextsOn u c) u y hy
  have hcore : c ∈ x.cores.map (·.core) := hcores ▸ List.mem_map.2 ⟨k, hk, hkc⟩
  obtain ⟨q, hq, hqc⟩ := List.mem_map.1 hcore
  have hon : x ∈ contextsOn u c := List.mem_filter.2 ⟨hx, List.any_eq_true.2 ⟨q, hq, beq_iff_eq.2 hqc⟩⟩
  exact foldl_forall_mem (f := fenceContext status) (P := fun x t => Removing x.handle t) (removing_fenceContext status)
    (fun t a b hb => hb.kept (keptContexts_fenceContext status t a)) _ u x hon y hy hhandle

/-- A report on its way stays on its way. -/
theorem inTransit_fenceCore {r : Report} (h : r ∈ s.faults.inTransit) : r ∈ (fenceCore s c status).faults.inTransit := by
  cases hf : (core s c).fenced with
  | true => rwa [fenceCore, if_pos hf]
  | false =>
    have hnoted : r ∈ (fenceNoted s c).faults.inTransit := by
      have hevent := (partEvent_only (m := 0x8400000c22) (partOfCore (modCore s c fun y => { y with fenced := true }) c) 5 [c]
        (.refl (s0 := raise (modCore s c fun y => { y with fenced := true }) 8 2 (unitNo 0x01 c)
          (partOfCore (modCore s c fun y => { y with fenced := true }) c) 0 0 (srcCore c))) ⟨rfl⟩).out .faults rfl
      unfold fenceNoted
      exact hevent ▸ List.mem_append_left _ h
    have honly : Only 0x8401030c22 (fenceNoted s c)
        (coreOff ((contextsOn (fenceNoted s c) c).foldl (fenceContext status) (fenceNoted s c)) c) :=
      coreOff_only c (onlyFold .refl fun t ht x => fenceContext_only x ht ⟨rfl⟩) ⟨rfl⟩
    have hfaults : (fenceNoted s c).faults = _ := honly.out .faults rfl
    rw [fenceCore_eq hf, ← hfaults]
    exact hnoted

end

/-! ### OPERAND_PARITY_FAULT (R120, R121) -/

/-- The report of an operand parity fault, which the running context latches. -/
def parityNoted (c unit : Nat) (s : State) : State :=
  let s := raise s 8 1 (unitNo 0x01 c) (partOfCore s c) unit 0 (srcCore c)
  match runCtx? s c with
  | some x => latch s c x causeParity unit
  | none => s

section
variable {s : State} {c u : Nat}

theorem parityNoted_reports (s : State) (c u : Nat) : ∃ r ∈ (parityNoted c u s).faults.inTransit,
    r.cls = 8 ∧ r.code = 1 ∧ r.unit = unitNo 0x01 c ∧ r.d0 = u := by
  unfold parityNoted
  dsimp only
  split
  · exact ⟨_, List.mem_append_left _ (List.mem_append_right _ (List.mem_singleton_self _)), rfl, rfl, rfl, rfl⟩
  · exact ⟨_, List.mem_append_right _ (List.mem_singleton_self _), rfl, rfl, rfl, rfl⟩

/-- Of the core, only what is latched changes. -/
theorem core_parityNoted (s : State) (c u : Nat) : ∃ l, core (parityNoted c u s) c = { core s c with latched := l } := by
  unfold parityNoted
  dsimp only
  split
  · rw [core_latch]
    exact ⟨_, rfl⟩
  · exact ⟨_, rfl⟩

theorem latched_parityNoted {x : Context} {k : CtxCore} (hx : Runs s c x k) :
    ∃ l ∈ (core (parityNoted c u s) c).latched, l.cause = causeParity := by
  have hsame : runCtx? (raise s 8 1 (unitNo 0x01 c) (partOfCore s c) u 0 (srcCore c)) c = some x :=
    (runCtx_of (raise_contexts s _ _ _ _ _ _ _) (congrArg _ (core_of (raise_cores s _ _ _ _ _ _ _) c))).trans hx.1
  unfold parityNoted
  dsimp only
  rw [hsame]
  dsimp only
  rw [core_latch]
  exact ⟨_, List.mem_append_right _ (List.mem_singleton_self _), rfl⟩

theorem parityNoted_time (s : State) (c u : Nat) : (parityNoted c u s).time = s.time := by
  unfold parityNoted
  dsimp only
  split
  · exact ((latch_only (m := 0x18000) c _ causeParity u (raise_only 8 1 (unitNo 0x01 c) (partOfCore s c) u 0 (srcCore c) .refl ⟨rfl⟩)
      ⟨rfl⟩).out .time rfl).symm
  · rfl

/-- The fault is noted with its time, and one that 16 others precede within 1 s fences the core. -/
theorem operandParityFault_eq {ts : List Nat} (hts : ts = (core s c).parityTimes.filter fun t => s.time.now < t + 1000000000) :
    operandParityFault c u s =
      let t := modCore (parityNoted c u s) c fun y => { y with parityTimes := ts ++ [s.time.now] }
      if 16 ≤ ts.length then fenceCore t c 0x03 else t := by
  obtain ⟨l, hl⟩ := core_parityNoted s c u
  have htimes : (core (parityNoted c u s) c).parityTimes = (core s c).parityTimes := by rw [hl]
  have heq : operandParityFault c u s =
      let ts := (core (parityNoted c u s) c).parityTimes.filter
        (fun t => (parityNoted c u s).time.now < t + 1000000000) ++ [(parityNoted c u s).time.now]
      let t := modCore (parityNoted c u s) c fun y => { y with parityTimes := ts }
      if 16 < ts.length then fenceCore t c 0x03 else t := rfl
  rw [heq, htimes, parityNoted_time, ← hts]
  dsimp only
  rw [List.length_append, List.length_singleton]
  simp only [Nat.lt_succ_iff]

/-- The fault is reported; up to the sixteenth within 1 s the core keeps its time, and the next one fences it. -/
theorem operandParityFault_spec {ts : List Nat} (hc : c < 64)
    (hts : ts = (core s c).parityTimes.filter fun t => s.time.now < t + 1000000000) :
    (∃ r ∈ (operandParityFault c u s).faults.inTransit, r.cls = 8 ∧ r.code = 1 ∧ r.unit = unitNo 0x01 c ∧ r.d0 = u) ∧
      (ts.length < 16 → (core (operandParityFault c u s) c).parityTimes = ts ++ [s.time.now] ∧
        (core (operandParityFault c u s) c).fenced = (core s c).fenced ∧
        ∀ x k, Runs s c x k → ∃ l ∈ (core (operandParityFault c u s) c).latched, l.cause = causeParity) ∧
      (16 ≤ ts.length → (core (operandParityFault c u s) c).fenced = true ∧
        ((core s c).fenced = false → ∀ x ∈ (operandParityFault c u s).contexts, (∃ k ∈ x.cores, k.core = c) → x.removing = true)) := by
  obtain ⟨r, hr, hfields⟩ := parityNoted_reports s c u
  obtain ⟨l, hl⟩ := core_parityNoted s c u
  rw [operandParityFault_eq hts]
  dsimp only
  by_cases hmany : 16 ≤ ts.length
  · rw [if_pos hmany]
    refine ⟨⟨r, inTransit_fenceCore hr, hfields⟩, fun hfew => absurd hmany (by omega),
      fun _ => ⟨fenced_fenceCore hc _, fun hf => removing_fenceCore ?_⟩⟩
    rw [core_modCore_self, hl]
    exact hf
  · rw [if_neg hmany, core_modCore_self]
    refine ⟨⟨r, hr, hfields⟩, fun _ => ⟨rfl, by rw [hl], fun x k hx => latched_parityNoted hx⟩, fun h => absurd h hmany⟩

end

/-! ### Reports of a site's barrier (R161, R164, R182) -/

section
variable {s : State} {h i : Nat} {r : Run}

theorem contexts_latches (l : List CtxCore) (x : Context) (cause d0 : Nat) (s : State) :
    (l.foldl (fun s k => latch s k.core x cause d0) s).contexts = s.contexts :=
  List.foldlRecOn l _ (motive := fun t => t.contexts = s.contexts) rfl fun t ht k _ => (latch_contexts t k.core x cause d0).trans ht

theorem reported_latches (l : List CtxCore) (x : Context) (cause d0 c : Nat) (s : State) :
    (core (l.foldl (fun s k => latch s k.core x cause d0) s) c).reported = (core s c).reported := by
  refine List.foldlRecOn l _ (motive := fun t => (core t c).reported = (core s c).reported) rfl fun t ht k _ => ?_
  by_cases hk : c = k.core
  · subst hk
    rw [core_latch]
    exact ht
  · rw [core_latch_other _ _ _ _ hk]
    exact ht

/-- A dispatch that holds the tokens and the closed cores of another. -/
def SameTokens (r q : Run) : Prop := q.tokens = r.tokens ∧ q.tokenFault = r.tokenFault ∧ q.closedCores = r.closedCores

/-- A site's report leaves the dispatch's tokens, and which cores have reported. -/
theorem siteBarrier_spec (hr : runOf? s h = some r) (i : Nat) : (∃ q, runOf? (siteBarrier s h i) h = some q ∧ SameTokens r q) ∧
    ∀ c, (core (siteBarrier s h i) c).reported = (core s c).reported := by
  obtain ⟨x, hx, -⟩ := ctx_of_runOf hr
  unfold siteBarrier
  rw [hx]
  dsimp only
  exact ⟨⟨_, runOf_modRun _ ((runOf_of (contexts_latches _ _ _ _ _) _).trans hr), rfl, rfl, rfl⟩,
    fun c => reported_latches _ _ _ _ c s⟩

/-- The report of a site port that has taken a token, if it holds all of them now. -/
def afterToken (s : State) (h i : Nat) : State :=
  match (ctx? s h).bind fun y => y.run.map fun q => allTokens y q i with
  | some true => siteBarrier s h i
  | _ => s

theorem afterToken_spec (hr : runOf? s h = some r) (i : Nat) : (∃ q, runOf? (afterToken s h i) h = some q ∧ SameTokens r q) ∧
    ∀ c, (core (afterToken s h i) c).reported = (core s c).reported := by
  unfold afterToken
  split
  · exact siteBarrier_spec hr i
  · exact ⟨⟨r, hr, rfl, rfl, rfl⟩, fun _ => rfl⟩

theorem core_modRun (s : State) (h : Nat) (f : Run → Run) (b : Nat) : core (modRun s h f) b = core s b :=
  core_of ((modRun_only (m := 0x20000) h f .refl ⟨rfl⟩).out .cores rfl).symm b

end

/-! ### CLOSE_REPORT (R162, R163) -/

/-- What a core's close report adds to its dispatch, with the selector where the core is the selector core. -/
def closeRun (y : CoreState) (c : Nat) (sel : Bool) (r : Run) : Run :=
  { r with closedCores := r.closedCores ++ [c], selector := if sel then y.sel else r.selector,
           siteFault := tmod false r.siteFault (c / 4) fun b => b || !y.latched.isEmpty }

/-- The core has reported: its status is kept, and its report reaches the dispatch of a handle. -/
def reportClosed (s : State) (h c : Nat) (sel : Bool) : State :=
  modRun (modCore (saveStatus s c) c fun y => { y with reported := true }) h (closeRun (core s c) c sel)

section
variable {s : State} {h c i : Nat} {r : Run} {x : Context}

theorem closeReport_of_not_mayReport (hnot : mayReport (core s c) = false) : closeReport c s = s := by
  unfold closeReport
  split
  · rfl
  · dsimp only
    rw [hnot, if_pos (by decide)]

theorem runOf_reportClosed (sel : Bool) (hr : runOf? s h = some r) :
    runOf? (reportClosed s h c sel) h = some (closeRun (core s c) c sel r) := by
  refine runOf_modRun _ ?_
  rw [runOf_of (modCore_contexts _ _ _), runOf_saveStatus, hr]

theorem reported_reportClosed (sel : Bool) : (core (reportClosed s h c sel) c).reported = true := by
  unfold reportClosed
  rw [core_modRun, core_modCore_self]

/-- Whether a core is the selector core of the dispatch's phase. -/
def isSelector (x : Context) (r : Run) (c : Nat) : Bool :=
  ((x.phases[r.phase]?).map fun p => p.selector == lcoreOf x c).getD false

/-- Whether the cores of a context at a site have closed. -/
def siteHasClosed (s : State) (x : Context) (i : Nat) : Bool :=
  match (ctx? s x.handle).bind (·.run) with
  | some r => (x.cores.filter fun k => k.core / 4 == i).all fun k => r.closedCores.any (· == k.core)
  | none => false

theorem siteHasClosed_of (hr : runOf? s x.handle = some r) (hall : ∀ k ∈ x.cores, k.core / 4 = i → k.core ∈ r.closedCores) :
    siteHasClosed s x i = true := by
  have hrun : (ctx? s x.handle).bind (·.run) = some r := hr
  unfold siteHasClosed
  rw [hrun]
  refine List.all_eq_true.2 fun k hk => ?_
  obtain ⟨hk, hi⟩ := List.mem_filter.1 hk
  exact List.any_eq_true.2 ⟨k.core, hall k hk (beq_iff_eq.1 hi), beq_self_eq_true _⟩

/-- A report that may leave counts its core, and closes the site once it is the last there. -/
theorem closeReport_eq (hx : runCtx? s c = some x) (hr : x.run = some r) (hmay : mayReport (core s c) = true) :
    closeReport c s =
      let t := reportClosed s x.handle c (isSelector x r c)
      if siteHasClosed t x (c / 4) then siteClosed t x.handle (c / 4) else t := by
  unfold closeReport
  rw [hx]
  dsimp only
  rw [hmay, if_neg (by decide), hr]
  rfl

/-- A site port holds its own token. -/
def ownToken (i : Nat) (f : Bool) (r : Run) : Run := { r with tokens := r.tokens ++ [(i, i)], tokenFault := r.tokenFault || f }

/-- The tokens that a closed site sends to the other sites of its context. -/
def sendTokens (s : State) (x : Context) (r : Run) (i : Nat) : State :=
  if x.sites.any (· != i) then sendBarrier s x i r.phase (tget false r.siteFault i) r.selector else s

theorem sendTokens_only {m : Nat} {s0 : State} (x : Context) (r : Run) (i : Nat) (hs : Only m s0 s) (hm : Sub 0x1000001000800 m) :
    Only m s0 (sendTokens s x r i) := onlyIte (sendBarrier_only _ _ _ _ _ hs hm) hs

theorem siteClosed_eq (hx : ctx? s h = some x) (hr : x.run = some r) (i : Nat) :
    siteClosed s h i = afterToken (modRun (sendTokens s x r i) h (ownToken i (tget false r.siteFault i))) h i := by
  unfold siteClosed
  rw [hx]
  dsimp only
  rw [hr]
  rfl

/-- A closed site holds its own token. -/
theorem siteClosed_spec (hr : runOf? s h = some r) (i : Nat) :
    (∃ q, runOf? (siteClosed s h i) h = some q ∧ q.closedCores = r.closedCores ∧ (i, i) ∈ q.tokens) ∧
      ∀ c, (core (siteClosed s h i) c).reported = (core s c).reported := by
  obtain ⟨x, hx, hrun⟩ := ctx_of_runOf hr
  have hsent := sendTokens_only (m := 0x1000001000800) x r i (.refl (s0 := s)) ⟨rfl⟩
  have htoken := runOf_modRun (ownToken i (tget false r.siteFault i)) ((runOf_of (hsent.out .contexts rfl).symm h).trans hr)
  obtain ⟨⟨q, hq, htokens, -, hclosed⟩, hreported⟩ := afterToken_spec htoken i
  rw [siteClosed_eq hx hrun]
  refine ⟨⟨q, hq, hclosed, htokens ▸ List.mem_append_right _ (List.mem_singleton_self _)⟩, fun c => ?_⟩
  rw [hreported, core_modRun, core_of (hsent.out .cores rfl).symm]

/-- A core's close report, and its site's token once the context's cores there have all closed. -/
theorem closeReport_spec {k : CtxCore} (hx : Runs s c x k) (hr : x.run = some r) (hmay : mayReport (core s c) = true) :
    (core (closeReport c s) c).reported = true ∧ ∃ q, runOf? (closeReport c s) x.handle = some q ∧
      q.closedCores = r.closedCores ++ [c] ∧
      ((∀ p ∈ x.cores, p.core / 4 = c / 4 → p.core ∈ r.closedCores ++ [c]) → (c / 4, c / 4) ∈ q.tokens) := by
  have hrun := runOf_reportClosed (c := c) (isSelector x r c) (runOf_of_ctx hx.ctx hr)
  have hreported := reported_reportClosed (s := s) (h := x.handle) (c := c) (isSelector x r c)
  rw [closeReport_eq hx.1 hr hmay]
  dsimp only
  split
  · obtain ⟨⟨q, hq, hclosed, htoken⟩, hcores⟩ := siteClosed_spec hrun (c / 4)
    exact ⟨(hcores c).trans hreported, q, hq, hclosed, fun _ => htoken⟩
  · rename_i hopen
    exact ⟨hreported, _, hrun, rfl, fun hall => absurd (siteHasClosed_of hrun hall) hopen⟩

end

/-! ### BARRIER_TOKEN (R163, R164, R268) -/

/-- A port takes another site's token, with its selector where that site has the selector core. -/
def portToken (dst src : Nat) (f sel : Bool) (v : Word) (r : Run) : Run :=
  { r with tokens := r.tokens ++ [(dst, src)], tokenFault := r.tokenFault || f, selector := if sel then v else r.selector }

/-- The site of the selector core of a dispatch's phase. -/
def selectorSite (x : Context) (r : Run) : Option Nat :=
  (x.phases[r.phase]?).bind fun p => (x.cores[p.selector]?).map fun k => k.core / 4

section
variable {s : State} {h src dst phase n : Nat} {x : Context} {r : Run} {f : Bool} {v : Word} {tr : Transfer}

theorem barrierToken_eq (hx : ctx? s h = some x) (hr : x.run = some r) (hgranted : r.granted = true) (hsrc : src ∈ x.sites)
    (hdst : dst ∈ x.sites) (ht : tokenThere? s x src dst (barrierHdr h r.phase f v) = some (n, tr)) :
    barrierToken src dst h r.phase f v s = afterToken (modRun (takeTransfer s src n dst tr) h
      (portToken dst src f (selectorSite x r == some src) v)) h dst := by
  have hsites : (!r.granted || r.phase != r.phase || !x.sites.any (· == src) || !x.sites.any (· == dst)) = false := by
    simp [hgranted, hsrc, hdst]
  unfold barrierToken
  rw [hx]
  dsimp only
  rw [hr]
  dsimp only
  rw [hsites, if_neg (by decide), ht]
  rfl

theorem barrierToken_spec (hx : ctx? s h = some x) (hr : x.run = some r) (hgranted : r.granted = true) (hsrc : src ∈ x.sites)
    (hdst : dst ∈ x.sites) (ht : tokenThere? s x src dst (barrierHdr h r.phase f v) = some (n, tr)) :
    ∃ q, runOf? (barrierToken src dst h r.phase f v s) h = some q ∧ q.tokens = r.tokens ++ [(dst, src)] ∧
      q.tokenFault = (r.tokenFault || f) ∧ q.closedCores = r.closedCores := by
  have htake : (takeTransfer s src n dst tr).contexts = s.contexts :=
    ((takeTransfer_only (m := 0x1000000) src n dst tr .refl ⟨rfl⟩).out .contexts rfl).symm
  have htoken := runOf_modRun (portToken dst src f (selectorSite x r == some src) v)
    ((runOf_of htake h).trans (runOf_of_ctx hx hr))
  rw [barrierToken_eq hx hr hgranted hsrc hdst ht]
  exact (afterToken_spec htoken dst).1

theorem barrierToken_of_no_context (hx : ctx? s h = none) : barrierToken src dst h phase f v s = ctxDiscard s dst := by
  unfold barrierToken
  rw [hx]

/-- A discarded transfer is flagged and reported. -/
theorem ctxDiscard_spec (s : State) (d : Nat) : regBit (ctxDiscard s d) (Reg.basinFlags d) 5 = true ∧
    (ctxDiscard s d).contexts = s.contexts ∧
    ∃ e, (ctxDiscard s d).faults.inTransit = s.faults.inTransit ++ [e] ∧ e.cls = 12 ∧ e.code = 3 ∧ e.unit = unitNo 0x02 d := by
  unfold ctxDiscard
  dsimp only
  refine ⟨?_, ?_, ⟨_, rfl, rfl, rfl, rfl⟩⟩
  · rw [regBit_of (raise_regs _ _ _ _ _ _ _ _), regBit_raiseFlag_self]
  · rw [raise_contexts, raiseFlag_contexts, addPairSat, putReg_contexts]

end

/-! ### BARRIER_COMPLETE (R164 to R168, R170) -/

/-- The selector that the reports of a completed barrier bring: that of the selector core's site. -/
def barrierSelector (x : Context) (p : Phase) (r : Run) : Word :=
  ((r.complete.find? fun q => ((x.cores[p.selector]?).map fun k => k.core / 4) == some q.site).map (·.selector)).getD r.selector

/-- The next phase of a dispatch waits for its grant. -/
def waitPhase (n : Nat) (hold : Bool) (r : Run) : Run :=
  { r with prev := r.phase, phase := n, granted := false, readyTick := barrierTick r, hold := hold, closedCores := [],
           siteFault := [], tokens := [], tokenFault := false, selector := 0, reports := [], complete := [], faults := [] }

/-- A site's report reaches the engine. -/
def reportReaches (q : SiteReport) (i : Nat) (r : Run) : Run :=
  { r with reports := r.reports.filter fun p => p.site != i, complete := r.complete ++ [q] }

section
variable {s : State} {h i n : Nat} {x : Context} {r : Run} {q : SiteReport} {p : Phase} {e : Phase}

/-- The report of a context's one site completes the barrier. -/
theorem barrierComplete_eq (hx : ctx? s h = some x) (hr : x.run = some r) (hsites : x.sites = [i]) (hreports : r.reports = [q])
    (hq : q.site = i) (hcomplete : r.complete = []) (houtcome : r.outcome = none) (habort : r.aborting = none) :
    barrierComplete i h s = resolveBarrier (modRun s h fun _ => reportReaches q i r) { x with run := some (reportReaches q i r) }
      (reportReaches q i r) := by
  have hfind : (r.reports.find? fun q => q.site == i) = some q := by simp [hreports, hq]
  have hended : (r.outcome.isSome || r.aborting.isSome) = false := by rw [houtcome, habort]; rfl
  have hall : (x.sites.all fun j => (r.complete ++ [q]).any fun p => p.site == j) = true := by simp [hsites, hcomplete, hq]
  unfold barrierComplete
  rw [hx]
  dsimp only
  rw [hr]
  dsimp only
  rw [hfind]
  dsimp only
  rw [hended, if_neg (by decide), hall, if_pos rfl]
  rfl

variable (hfault : r.complete.any (·.faultBit) = false) (hp : x.phases[r.phase]? = some p)
include hfault hp

/-- A barrier without a fault ends the dispatch at END. -/
theorem resolveBarrier_end (hnext : nextPhase x p (barrierSelector x p r) = none) :
    resolveBarrier s x r = setOutcome s x.handle { status := 0, cause := 0, lcore := 0, phase := 0, time := s.time.now } := by
  unfold resolveBarrier
  dsimp only
  rw [hfault, if_neg (by decide), hp]
  dsimp only
  unfold barrierSelector at hnext
  rw [hnext]

/-- Beyond the budget of the next phase the dispatch ends. -/
theorem resolveBarrier_budget (hnext : nextPhase x p (barrierSelector x p r) = some n)
    (hbudget : ((x.phases[n]?).map (·.visits)).getD 0 < tget 0 r.visits n + 1) :
    resolveBarrier s x r = setOutcome (raise s 9 causeBudget (unitNo 0x17 x.handle) x.part n 0 srcHost) x.handle
      { status := 1, cause := causeBudget, lcore := 0, phase := n, time := s.time.now } := by
  unfold resolveBarrier
  dsimp only
  rw [hfault, if_neg (by decide), hp]
  dsimp only
  unfold barrierSelector at hnext
  rw [hnext]
  dsimp only
  rw [if_pos hbudget]

/-- Within its budget the next phase waits. -/
theorem resolveBarrier_next (hnext : nextPhase x p (barrierSelector x p r) = some n)
    (hbudget : ¬ ((x.phases[n]?).map (·.visits)).getD 0 < tget 0 r.visits n + 1) :
    resolveBarrier s x r = modRun (if p.hold then s else releasePhase s x) x.handle (waitPhase n p.hold) := by
  unfold resolveBarrier
  dsimp only
  rw [hfault, if_neg (by decide), hp]
  dsimp only
  unfold barrierSelector at hnext
  rw [hnext]
  dsimp only
  rw [if_neg hbudget]
  rfl

omit hfault hp

/-- The report of the selector core's site brings the selector. -/
theorem barrierSelector_reportReaches {k : CtxCore} (hcomplete : r.complete = []) (hk : x.cores[p.selector]? = some k)
    (hq : q.site = k.core / 4) : barrierSelector x p (reportReaches q i r) = q.selector := by
  unfold barrierSelector reportReaches
  rw [hcomplete, hk, List.nil_append, List.find?_singleton, hq]
  simp

/-- The barrier of a context on one site without a fault: the end at END, or the next phase, which waits for its grant. -/
theorem barrierComplete_spec {k : CtxCore} (hx : ctx? s h = some x) (hr : x.run = some r) (hsites : x.sites = [i])
    (hreports : r.reports = [q]) (hq : q.site = i) (hfault : q.faultBit = false) (hcomplete : r.complete = [])
    (houtcome : r.outcome = none) (habort : r.aborting = none) (hp : x.phases[r.phase]? = some p)
    (hk : x.cores[p.selector]? = some k) (hki : k.core / 4 = i) :
    ∃ r', runOf? (barrierComplete i h s) h = some r' ∧
      (nextPhase x p q.selector = none →
        r'.outcome = some { status := 0, cause := 0, lcore := 0, phase := 0, time := s.time.now }) ∧
      (∀ n e, nextPhase x p q.selector = some n → x.phases[n]? = some e → tget 0 r.visits n < e.visits →
        r'.phase = n ∧ r'.granted = false ∧ r'.prev = r.phase ∧ r'.outcome = none ∧ r'.hold = p.hold) := by
  obtain rfl : x.handle = h := handle_of_ctx hx
  have hsel := barrierSelector_reportReaches (i := i) (x := x) (r := r) hcomplete hk (hq.trans hki.symm)
  have hrun := runOf_modRun (fun _ => reportReaches q i r) (runOf_of_ctx hx hr)
  have hclear : (reportReaches q i r).complete.any (·.faultBit) = false := by simp [reportReaches, hcomplete, hfault]
  rw [barrierComplete_eq hx hr hsites hreports hq hcomplete houtcome habort]
  generalize hu : modRun s x.handle (fun _ => reportReaches q i r) = u at hrun ⊢
  have htime : u.time = s.time := hu ▸ modCtx_time s x.handle _
  cases hnext : nextPhase x p q.selector with
  | none =>
    rw [resolveBarrier_end (x := { x with run := some (reportReaches q i r) }) hclear hp (hsel ▸ hnext)]
    refine ⟨_, runOf_setOutcome hrun houtcome, fun _ => ?_, fun n e hn => absurd hn (by simp)⟩
    rw [htime]
  | some n =>
    by_cases hbudget : ((x.phases[n]?).map (·.visits)).getD 0 < tget 0 r.visits n + 1
    · rw [resolveBarrier_budget (x := { x with run := some (reportReaches q i r) }) hclear hp (hsel ▸ hnext) hbudget]
      refine ⟨_, runOf_setOutcome ((runOf_of (raise_contexts _ _ _ _ _ _ _ _) x.handle).trans hrun) houtcome,
        fun hn => absurd hn (by simp), fun m e hm he hvisits => ?_⟩
      cases hm
      rw [he, Option.map_some, Option.getD_some] at hbudget
      omega
    · rw [resolveBarrier_next (x := { x with run := some (reportReaches q i r) }) hclear hp (hsel ▸ hnext) hbudget]
      have hreleased : Only 0x1010002 u (if p.hold = true then u else releasePhase u { x with run := some (reportReaches q i r) }) :=
        onlyIte .refl (releasePhase_only _ .refl ⟨rfl⟩)
      refine ⟨_, runOf_modRun _ ((runOf_of (hreleased.out .contexts rfl).symm x.handle).trans hrun), fun hn => absurd hn (by simp),
        fun m e hm he hvisits => ?_⟩
      cases hm
      exact ⟨rfl, rfl, rfl, houtcome, rfl⟩

end

/-! ### The end of a dispatch (R171, R180, R184) -/

/-- A context of a handle between dispatches, since a tick. -/
def Idle (h tick : Nat) (s : State) : Prop := ∃ x, ctx? s h = some x ∧ x.run = none ∧ x.idleTick = tick

/-- The cores of a context keep its status. -/
def keepStatuses (s : State) (h : Nat) (x : Context) : State :=
  x.cores.foldl (fun s k => if (core s k.core).running == some h then saveStatus s k.core else s) s

/-- A core is released if it runs the context of a handle. -/
def releaseCore (h : Nat) (s : State) (k : CtxCore) : State :=
  if (core s k.core).running == some h then freeCore s k.core else s

section
variable {s t : State} {h tick c : Nat} {x : Context} {r : Run} {e : EndRec}

theorem Idle.of_contexts (hi : Idle h tick s) (hc : t.contexts = s.contexts) : Idle h tick t := by
  obtain ⟨x, hx, hi⟩ := hi
  exact ⟨x, (ctxQ_of hc h).trans hx, hi⟩

theorem running_freeCore (s : State) (c : Nat) : (core (freeCore s c) c).running = none := by
  unfold freeCore
  dsimp only
  rw [core_of (putBit_cores _ _ _ _), core_of (putBit_cores _ _ _ _), core_modCore_self]

theorem core_freeCore_other {b : Nat} (hb : b ≠ c) : core (freeCore s c) b = core s b := by
  unfold freeCore
  dsimp only
  rw [core_of (putBit_cores _ _ _ _), core_of (putBit_cores _ _ _ _), core_modCore, if_neg hb]

theorem released_releaseCore (h : Nat) (s : State) (k : CtxCore) : (core (releaseCore h s k) k.core).running ≠ some h := by
  unfold releaseCore
  split
  · rw [running_freeCore]
    nofun
  · rename_i hne
    exact fun heq => hne (beq_iff_eq.2 heq)

theorem released_releaseCore_of (k : CtxCore) (hc : (core s c).running ≠ some h) : (core (releaseCore h s k) c).running ≠ some h := by
  by_cases hk : c = k.core
  · exact hk ▸ released_releaseCore h s k
  · unfold releaseCore
    split
    · rwa [core_freeCore_other hk]
    · exact hc

/-- What a context releases no core of it runs on. -/
theorem released_releasePhase (s : State) (x : Context) : ∀ k ∈ x.cores, (core (releasePhase s x) k.core).running ≠ some x.handle :=
  foldl_forall_mem (f := releaseCore x.handle) (P := fun k t => (core t k.core).running ≠ some x.handle)
    (released_releaseCore x.handle) (fun _ k _ hb => released_releaseCore_of k hb) x.cores _

theorem keepStatuses_only {m : Nat} {s0 : State} (h : Nat) (x : Context) (hs : Only m s0 s) (hm : Sub 0x20000 m) :
    Only m s0 (keepStatuses s h x) := onlyFold hs fun _ ht k => onlyIte (saveStatus_only k.core ht hm) ht

theorem map_runAndCores_keepStatuses (s : State) (h : Nat) (x : Context) :
    (ctx? (keepStatuses s h x) h).map runAndCores = (ctx? s h).map runAndCores := by
  refine List.foldlRecOn x.cores _ (motive := fun t => (ctx? t h).map runAndCores = (ctx? s h).map runAndCores) rfl fun t ht k _ => ?_
  split
  · exact (map_runAndCores_saveStatus t k.core h).trans ht
  · exact ht

/-- The end of a dispatch: the status is kept, what the context holds is released, and it is between dispatches. -/
theorem endRun_eq (hx : ctx? s h = some x) (hr : x.run = some r) :
    ∃ y u c, ctx? (keepStatuses s h x) h = some y ∧ y.cores.map (·.core) = x.cores.map (·.core) ∧
      u = parkRings (releasePhase (keepStatuses s h x) y) y ∧
      endRun s h e = complete (modCtx u h fun z => { z with run := none, idleTick := tickOf u }) r.d.seq r.d.cq c := by
  have hkept := map_runAndCores_keepStatuses s h x
  rw [hx] at hkept
  obtain ⟨y, hy, hsame⟩ := Option.map_eq_some_iff.1 hkept
  have hgetD : (ctx? (keepStatuses s h x) h).getD x = y := by rw [hy]; rfl
  unfold keepStatuses at hgetD
  unfold endRun
  rw [hx]
  dsimp only
  rw [hr]
  dsimp only
  rw [hgetD]
  exact ⟨y, _, _, hy, congrArg Prod.snd hsame, rfl, rfl⟩

theorem endRun_spec (hx : ctx? s h = some x) (hr : x.run = some r) :
    Idle h (tickOf s) (endRun s h e) ∧ ∀ k ∈ x.cores, (core (endRun s h e) k.core).running ≠ some h := by
  obtain ⟨y, u, c, hy, hcores, hu, heq⟩ := endRun_eq (e := e) hx hr
  have hrings := parkRings_only (m := 0x1000000) y (.refl (s0 := releasePhase (keepStatuses s h x) y)) ⟨rfl⟩
  have honly : Only 0x1010002 (keepStatuses s h x) u :=
    hu ▸ parkRings_only y (releasePhase_only y .refl ⟨rfl⟩) ⟨rfl⟩
  have htime : u.time = s.time :=
    (((keepStatuses_only (m := 0x20000) h x .refl ⟨rfl⟩).out .time rfl).trans (honly.out .time rfl)).symm
  have hidle : Idle h (tickOf s) (modCtx u h fun z => { z with run := none, idleTick := tickOf u }) :=
    ⟨_, ctx_modCtx_self (fun z => { z with run := none, idleTick := tickOf u }) (fun _ => rfl)
      ((ctxQ_of (honly.out .contexts rfl).symm h).trans hy), rfl, tickOf_of htime⟩
  rw [heq]
  refine ⟨hidle.of_contexts rfl, fun k hk => ?_⟩
  have hk' : k.core ∈ y.cores.map (·.core) := hcores ▸ List.mem_map.2 ⟨k, hk, rfl⟩
  obtain ⟨q, hq, hqk⟩ := List.mem_map.1 hk'
  have hreleased := released_releasePhase (keepStatuses s h x) y q hq
  have hsame : core u k.core = core (releasePhase (keepStatuses s h x) y) k.core :=
    core_of (hu ▸ (hrings.out .cores rfl).symm) _
  rw [handle_of_ctx hy, hqk, ← hsame] at hreleased
  exact hreleased

theorem answerWaiting_same (s : State) (opcode arg : Nat) (a : Ans) :
    (answerWaiting s opcode arg a).contexts = s.contexts ∧ (answerWaiting s opcode arg a).cores = s.cores :=
  have h := answerWaiting_only (m := 0xc00000802) opcode arg a (.refl (s0 := s)) ⟨rfl⟩
  ⟨(h.out .contexts rfl).symm, (h.out .cores rfl).symm⟩

theorem Idle.forgetQp (hi : Idle h tick s) (q : Nat) : Idle h tick (forgetQp s q) := by
  obtain ⟨x, hx, hrun, htick⟩ := hi
  refine ⟨renameContext q x, ?_, ?_, htick⟩
  · unfold ctx? Machine.forgetQp at *
    dsimp only
    rw [List.find?_map]
    exact congrArg (Option.map (renameContext q)) hx
  · unfold renameContext
    dsimp only
    rw [hrun]
    rfl

theorem Idle.settleDeletes (hi : Idle h tick s) : Idle h tick (settleDeletes s) :=
  List.foldlRecOn _ _ (motive := Idle h tick) hi fun _ ht e _ => (ht.forgetQp e.1).of_contexts (answerWaiting_same _ _ _ _).1

theorem abortComplete_spec {st : Nat} (hx : ctx? s h = some x) (hr : x.run = some r) (habort : r.aborting = some st) :
    Idle h (tickOf s) (abortComplete h s) ∧ ∀ k ∈ x.cores, (core (abortComplete h s) k.core).running ≠ some h := by
  have hst : x.run.bind (·.aborting) = some st := by rw [hr]; exact habort
  unfold abortComplete
  rw [hx]
  dsimp only
  rw [hst]
  dsimp only
  generalize hw : answerWaiting (endRun s h _) 0x32 h (.of stOk) = w
  obtain ⟨hidle, hcores⟩ := endRun_spec (e := { status := st, cause := 0, lcore := 0, phase := 0, time := s.time.now }) hx hr
  obtain ⟨hcontexts, hsame⟩ := answerWaiting_same (endRun s h { status := st, cause := 0, lcore := 0, phase := 0, time := s.time.now })
    0x32 h (.of stOk)
  rw [hw] at hcontexts hsame
  refine ⟨(hidle.of_contexts hcontexts).settleDeletes, fun k hk => ?_⟩
  rw [core_of ((settleDeletes_only (m := 0xc08020802) .refl ⟨rfl⟩).out .cores rfl).symm, core_of hsame]
  exact hcores k hk

theorem abortComplete_of_not_aborting (hx : ctx? s h = some x) (hnone : x.run.bind (·.aborting) = none) : abortComplete h s = s := by
  unfold abortComplete
  rw [hx]
  dsimp only
  rw [hnone]

end

/-! ### The commands -/

section
variable (s : State)

theorem exec_operandParityFault (c : CoreNo) (u : Nat) : exec (.operandParityFault c u) s = .next (operandParityFault c u s) := rfl
theorem exec_closeReport (c : CoreNo) : exec (.closeReport c) s = .next (closeReport c s) := rfl
theorem exec_barrierToken (i j : SiteNo) (h p : Nat) (f : Bool) (v : Word) :
    exec (.barrierToken i j h p f v) s = .next (barrierToken i j h p f v s) := rfl
theorem exec_barrierComplete (i : SiteNo) (h : Nat) : exec (.barrierComplete i h) s = .next (barrierComplete i h s) := rfl
theorem exec_abortComplete (h : Nat) : exec (.abortComplete h) s = .next (abortComplete h s) := rfl

end

/-- Settles O19: a fence by the contexts that it leaves, the close of a site by its own token, a barrier by the dispatch it resolves,
and an abort by the cores that it frees. -/
theorem phasesCloseThroughBarriers : Obligations.PhasesCloseThroughBarriers := by
  refine ⟨fun s c u ts hts => ?_, fun s c x k r hx hr hmay => ?_, fun s c hnot => ?_,
    fun s i j h x r f v n tr hx hr hgranted hi hj ht => ?_, fun s i j h p f v hx => ?_,
    fun s i h x r q p k hx hr hsites hreports hq hfault hcomplete houtcome habort hp hk hki => ?_,
    fun s h x r st hx hr habort => ?_, fun s h x hx hnone => ?_⟩
  · exact ⟨_, exec_operandParityFault s c u, operandParityFault_spec c.isLt hts⟩
  · obtain ⟨hreported, q, hq, hclosed, htoken⟩ := closeReport_spec hx hr hmay
    obtain ⟨y, hy, hrun⟩ := ctx_of_runOf hq
    exact ⟨_, y, q, exec_closeReport s c, hreported, hy, hrun, hclosed, htoken⟩
  · rw [exec_closeReport, closeReport_of_not_mayReport hnot]
  · obtain ⟨q, hq, htokens⟩ := barrierToken_spec hx hr hgranted hi hj ht
    obtain ⟨y, hy, hrun⟩ := ctx_of_runOf hq
    exact ⟨_, y, q, exec_barrierToken s i j h r.phase f v, hy, hrun, htokens⟩
  · refine ⟨_, exec_barrierToken s i j h p f v, ?_⟩
    rw [barrierToken_of_no_context hx]
    exact ctxDiscard_spec s j
  · obtain ⟨r', hr', hends⟩ := barrierComplete_spec hx hr hsites hreports hq hfault hcomplete houtcome habort hp hk hki
    obtain ⟨y, hy, hrun⟩ := ctx_of_runOf hr'
    exact ⟨_, y, r', exec_barrierComplete s i h, hy, hrun, hends⟩
  · obtain ⟨⟨y, hy, hidle⟩, hcores⟩ := abortComplete_spec hx hr habort
    exact ⟨_, y, exec_abortComplete s h, hy, hidle.1, hidle.2, hcores⟩
  · rw [exec_abortComplete, abortComplete_of_not_aborting hx hnone]

end Sys2Proof.Machine

/-! PROOFS. The family 04_arithmetic: the floor of a contribution to the window and the sum of a pass (R132 to R134). -/

namespace Sys2Proof.Machine

set_option Elab.async false

/-! ### The floor to the window (R132) -/

theorem floorWindow_floor (n e w : Int) : (floorWindow n e w).1 = ⌊((n : ℚ) * 2 ^ e) / 2 ^ w⌋ := by
  have hquot : ((n : ℚ) * 2 ^ e) / 2 ^ w = n * 2 ^ (e - w) := by rw [zpow_sub₀ two_ne_zero, mul_div_assoc]
  rw [hquot]
  by_cases hle : 0 ≤ e - w
  · have hpow : (n : ℚ) * 2 ^ (e - w) = ((n * 2 ^ (e - w).toNat : Int) : ℚ) := by
      push_cast
      rw [← zpow_natCast, Int.toNat_of_nonneg hle]
    rw [hpow, Int.floor_intCast, floorWindow, if_pos hle]
  · have hpow : (n : ℚ) * 2 ^ (e - w) = (n : ℚ) / ((2 ^ (w - e).toNat : Nat) : ℚ) := by
      push_cast
      rw [← zpow_natCast, Int.toNat_of_nonneg (by omega), div_eq_mul_inv, ← zpow_neg, neg_sub]
    rw [hpow, Rat.floor_intCast_div_natCast, floorWindow, if_neg hle]
    push_cast
    rfl

/-! ### One addition to a cell (R130, R133, R134) -/

theorem accAdd_of_inRange {a n : Int} (ha : a ≠ accInvalid) (hr : (a + n).natAbs ≤ 2 ^ 159 - 1) : accAdd a n = a + n := by
  rw [accAdd, if_neg (by simpa using ha)]
  exact if_neg (by simp only [Bool.or_eq_true, decide_eq_true_eq]; omega)

theorem accAdd_invalid (n : Int) : accAdd accInvalid n = accInvalid := by
  rw [accAdd, if_pos (by simp)]

section
variable {w : Int} {h cnt : Nat} {c : CellRun}

/-- A contribution that fits is added as the integer of its floor. -/
theorem addContribution_value {n e : Int} (hcnt : cnt ≤ 1024 * 2 ^ h) (ha : c.a ≠ accInvalid)
    (hfit : (floorWindow n e w).1.natAbs ≤ 2 ^ (149 - h) - 1) (hr : (c.a + (floorWindow n e w).1).natAbs ≤ 2 ^ 159 - 1) :
    addContribution w h cnt c (.value n e) =
      { a := c.a + (floorWindow n e w).1, below := c.below + if (floorWindow n e w).2 then 1 else 0 } := by
  simp only [addContribution, hfit, Nat.not_lt.2 hcnt, decide_true, decide_false, Bool.not_true, Bool.or_self,
    accAdd_of_inRange ha hr, Bool.false_eq_true, if_false]

/-- An invalid cell stays invalid. -/
theorem addContribution_of_invalid (x : Contribution) (ha : c.a = accInvalid) : (addContribution w h cnt c x).a = accInvalid := by
  cases x with
  | zero => simp only [addContribution]; split <;> simp [ha]
  | invalid => rfl
  | value n e => simp [addContribution, ha, accAdd_invalid]

/-- Past the limit every contribution makes the cell invalid. -/
theorem addContribution_of_beyond (x : Contribution) (hcnt : 1024 * 2 ^ h < cnt) :
    (addContribution w h cnt c x).a = accInvalid := by
  cases x with
  | zero => simp only [addContribution, if_pos hcnt]
  | invalid => rfl
  | value n e => simp [addContribution, hcnt]

theorem addContribution_of_not_fits {n e : Int} (hfit : 2 ^ (149 - h) - 1 < (floorWindow n e w).1.natAbs) :
    (addContribution w h cnt c (.value n e)).a = accInvalid := by
  simp [addContribution, Nat.not_le.2 hfit]

end

/-- Settles O12: the window's floor is the greatest integer below the quotient, and the cell adds it. -/
theorem contributionsAreFlooredToTheWindow : Obligations.ContributionsAreFlooredToTheWindow := by
  refine ⟨floorWindow_floor, fun w n e h cnt c hcnt ha hfit hr => ?_⟩
  rw [← floorWindow_floor] at hfit hr ⊢
  rw [addContribution_value hcnt ha hfit hr]

/-! ### A pass -/

section
variable {w : Int} {h n : Nat} {c : CellRun}

@[simp] theorem addAll_nil : addAll w h n c [] = c := rfl

@[simp] theorem addAll_cons (x : Contribution) (xs : List Contribution) :
    addAll w h n c (x :: xs) = addAll w h (n + 1) (addContribution w h (n + 1) c x) xs := rfl

theorem addAll_append (xs ys : List Contribution) :
    addAll w h n c (xs ++ ys) = addAll w h (n + xs.length) (addAll w h n c xs) ys := by
  induction xs generalizing n c with
  | nil => rfl
  | cons x xs ih => rw [List.cons_append, addAll_cons, ih, addAll_cons, List.length_cons, Nat.add_right_comm, Nat.add_assoc]

/-- INVALID absorbs every addition (R133). -/
theorem addAll_of_invalid (xs : List Contribution) (ha : c.a = accInvalid) : (addAll w h n c xs).a = accInvalid := by
  induction xs generalizing n c with
  | nil => exact ha
  | cons x xs ih => exact ih (addContribution_of_invalid x ha)

end

/-- The floored values of a pass, summed. -/
def floorSum (w : Int) (xs : List (Int × Int)) : Int := (xs.map fun x => (floorWindow x.1 x.2 w).1).sum

/-- The contributions of a pass that were floored with loss. -/
def lossCount (w : Int) (xs : List (Int × Int)) : Nat := (xs.map fun x => if (floorWindow x.1 x.2 w).2 then 1 else 0).sum

@[simp] theorem floorSum_cons (w : Int) (x : Int × Int) (xs : List (Int × Int)) :
    floorSum w (x :: xs) = (floorWindow x.1 x.2 w).1 + floorSum w xs := by simp [floorSum]

@[simp] theorem lossCount_cons (w : Int) (x : Int × Int) (xs : List (Int × Int)) :
    lossCount w (x :: xs) = (if (floorWindow x.1 x.2 w).2 then 1 else 0) + lossCount w xs := by simp [lossCount]

theorem floorSum_perm {xs ys : List (Int × Int)} (w : Int) (hp : xs.Perm ys) : floorSum w xs = floorSum w ys :=
  (hp.map _).sum_eq

theorem lossCount_perm {xs ys : List (Int × Int)} (w : Int) (hp : xs.Perm ys) : lossCount w xs = lossCount w ys :=
  (hp.map _).sum_eq

/-- The headroom is as large as the limit of contributions needs: what the limit's number of fitting floors can reach lies in the
accumulator's range (R134). -/
theorem limit_mul_fit_le {h : Nat} (hh : h ≤ 9) : 1024 * 2 ^ h * (2 ^ (149 - h) - 1) ≤ 2 ^ 159 - 1 := by
  rw [Nat.mul_sub_one, Nat.mul_assoc, ← pow_add, Nat.add_sub_of_le (hh.trans (by decide))]
  exact Nat.sub_le_sub_left (Nat.mul_pos (by decide) (Nat.two_pow_pos h)) _

/-- A sum of `k` fitting floors is no INVALID and lies in the accumulator's range. -/
theorem inRange_of_fits {h k : Nat} {a : Int} (hh : h ≤ 9) (hk : k ≤ 1024 * 2 ^ h) (ha : a.natAbs ≤ k * (2 ^ (149 - h) - 1)) :
    a.natAbs ≤ 2 ^ 159 - 1 :=
  ha.trans ((Nat.mul_le_mul_right _ hk).trans (limit_mul_fit_le hh))

theorem ne_accInvalid_of_inRange {a : Int} (ha : a.natAbs ≤ 2 ^ 159 - 1) : a ≠ accInvalid := by
  rintro rfl
  exact absurd ha (by decide)

/-- A pass within the limit whose contributions fit adds the sum of its floors to a cell that holds at most as much as the
contributions counted so far can give. -/
theorem addAll_values {w : Int} {h n : Nat} {c : CellRun} {xs : List (Int × Int)} (hh : h ≤ 9)
    (ha : c.a.natAbs ≤ n * (2 ^ (149 - h) - 1)) (hn : n + xs.length ≤ 1024 * 2 ^ h)
    (hfit : ∀ x ∈ xs, (floorWindow x.1 x.2 w).1.natAbs ≤ 2 ^ (149 - h) - 1) :
    addAll w h n c (xs.map fun x => .value x.1 x.2) = { a := c.a + floorSum w xs, below := c.below + lossCount w xs } := by
  induction xs generalizing n c with
  | nil => simp [floorSum, lossCount]
  | cons x xs ih =>
    obtain ⟨hx, hxs⟩ := List.forall_mem_cons.1 hfit
    rw [List.length_cons] at hn
    have hsum : (c.a + (floorWindow x.1 x.2 w).1).natAbs ≤ (n + 1) * (2 ^ (149 - h) - 1) := by
      rw [Nat.succ_mul]
      exact (Int.natAbs_add_le _ _).trans (Nat.add_le_add ha hx)
    rw [List.map_cons, addAll_cons, addContribution_value (by omega) (ne_accInvalid_of_inRange (inRange_of_fits hh (by omega) ha)) hx
      (inRange_of_fits hh (by omega) hsum), ih hsum (by omega) hxs, floorSum_cons, lossCount_cons, add_assoc, add_assoc]

/-- A pass that starts from zero. -/
theorem addAll_values_of_zero {w : Int} {h : Nat} {xs : List (Int × Int)} (hh : h ≤ 9) (hn : xs.length ≤ 1024 * 2 ^ h)
    (hfit : ∀ x ∈ xs, (floorWindow x.1 x.2 w).1.natAbs ≤ 2 ^ (149 - h) - 1) :
    addAll w h 0 { a := 0, below := 0 } (xs.map fun x => .value x.1 x.2) = { a := floorSum w xs, below := lossCount w xs } := by
  rw [addAll_values hh (by simp) (by omega) hfit, zero_add, zero_add]

/-- Settles O13: the sum by induction on the pass, its bound growing with the count, and INVALID by what the one contribution does. -/
theorem accumulationIsExactAndOrderFree : Obligations.AccumulationIsExactAndOrderFree := by
  refine ⟨fun w h xs hh hn hfit => by rw [addAll_values_of_zero hh hn hfit, floorSum], fun w h xs ys hh hn hp hfit => ?_,
    fun w h n c xs ha => addAll_of_invalid xs ha, fun w h n c xs ys x hx => ?_⟩
  · rw [addAll_values_of_zero hh hn hfit,
      addAll_values_of_zero hh (hp.length_eq ▸ hn) fun y hy => hfit y (hp.mem_iff.2 hy), floorSum_perm w hp, lossCount_perm w hp]
  · rw [addAll_append, addAll_cons]
    refine addAll_of_invalid ys ?_
    obtain rfl | ⟨m, e, rfl, hbig⟩ | hlimit := hx
    · rfl
    · exact addContribution_of_not_fits hbig
    · exact addContribution_of_beyond x (by omega)

end Sys2Proof.Machine

/-! PROOFS. The family 04_arithmetic: what rounding and conversion keep of a value that a format holds (R147, R148, R206, R207). -/

namespace Sys2Proof.Machine

set_option Elab.async false

/-! ### The number of bits of a magnitude -/

/-- The model's count of bits is the library's. -/
theorem bitLen_eq_size (m : Nat) : bitLen m = m.size := by
  refine eq_of_forall_ge_iff fun k => ?_
  rw [Nat.size_le]
  by_cases hm : m = 0
  · simp [bitLen, hm]
  · rw [bitLen, if_neg hm, Nat.succ_le_iff, Nat.log2_lt hm]

theorem bitLen_mul_two_pow {m : Nat} (hm : m ≠ 0) (j : Nat) : bitLen (m * 2 ^ j) = bitLen m + j := by
  rw [bitLen_eq_size, bitLen_eq_size, ← Nat.shiftLeft_eq, Nat.size_shiftLeft hm]

theorem bitLen_le {m k : Nat} (h : m < 2 ^ k) : bitLen m ≤ k := by rwa [bitLen_eq_size, Nat.size_le]

theorem bitLen_eq_succ {m k : Nat} (hlow : 2 ^ k ≤ m) (hhigh : m < 2 ^ (k + 1)) : bitLen m = k + 1 := by
  refine le_antisymm (bitLen_le hhigh) ?_
  rwa [bitLen_eq_size, Nat.succ_le_iff, Nat.lt_size]

/-! ### Rounding depends on the value alone, not on how it is written as a multiple of a power of two (R147) -/

/-- A quotient in lowest and in higher terms is rounded alike. -/
theorem roundEven_mul_right (k r d : Nat) {c : Nat} (hc : 0 < c) : roundEven (k, r * c, d * c) = roundEven (k, r, d) := by
  simp only [roundEven, ← Nat.mul_assoc, Nat.mul_lt_mul_right hc, Nat.mul_left_inj hc.ne']

/-- The two cases of a unit below and above the exponent in one. -/
theorem quantise_eq (m : Nat) (e q : Int) : quantise m e q =
    (m * 2 ^ (e - q).toNat / 2 ^ (q - e).toNat, m * 2 ^ (e - q).toNat % 2 ^ (q - e).toNat, 2 ^ (q - e).toNat) := by
  by_cases hq : q ≤ e
  · rw [quantise, if_pos hq, show (q - e).toNat = 0 by omega, pow_zero, Nat.div_one, Nat.mod_one]
  · rw [quantise, if_neg hq, show (e - q).toNat = 0 by omega, pow_zero, Nat.mul_one]

section
variable (e : Int) (j m : Nat)

/-- With `j` more zeros the quotient is the same, and the remainder and the divisor grow alike. -/
theorem quantise_mul_two_pow (q : Int) : ∃ i, quantise (m * 2 ^ j) (e - j) q =
    ((quantise m e q).1, (quantise m e q).2.1 * 2 ^ i, (quantise m e q).2.2 * 2 ^ i) := by
  obtain ⟨i, hnum, hden⟩ : ∃ i, j + (e - j - q).toNat = (e - q).toNat + i ∧ (q - (e - j)).toNat = (q - e).toNat + i :=
    ⟨j + (e - j - q).toNat - (e - q).toNat, by omega, by omega⟩
  refine ⟨i, ?_⟩
  rw [quantise_eq, quantise_eq m e, Nat.mul_assoc, ← pow_add, hnum, hden, pow_add, pow_add, ← Nat.mul_assoc,
    Nat.mul_div_mul_right _ _ (Nat.two_pow_pos i), Nat.mul_mod_mul_right]

theorem roundEven_quantise_mul_two_pow (q : Int) :
    roundEven (quantise (m * 2 ^ j) (e - j) q) = roundEven (quantise m e q) := by
  obtain ⟨i, hi⟩ := quantise_mul_two_pow e j m q
  rw [hi, roundEven_mul_right _ _ _ (Nat.two_pow_pos i)]

theorem quantise_inexact_mul_two_pow (q : Int) :
    ((quantise (m * 2 ^ j) (e - j) q).2.1 != 0) = ((quantise m e q).2.1 != 0) := by
  obtain ⟨i, hi⟩ := quantise_mul_two_pow e j m q
  simp [hi, bne]

theorem lead_mul_two_pow {m : Nat} (hm : m ≠ 0) : e - j + bitLen (m * 2 ^ j) = e + bitLen m := by
  rw [bitLen_mul_two_pow hm]
  push_cast
  ring

theorem ulp_mul_two_pow (f : FFmt) {m : Nat} (hm : m ≠ 0) : f.ulp (m * 2 ^ j) (e - j) = f.ulp m e := by
  rw [FFmt.ulp, FFmt.ulp, lead_mul_two_pow e j hm]

theorem round_mul_two_pow (f : FFmt) (neg : Bool) : f.round neg (m * 2 ^ j) (e - j) = f.round neg m e := by
  by_cases hm : m = 0
  · simp [FFmt.round, hm]
  · have hzero : (m * 2 ^ j == 0) = (m == 0) := by simp [hm]
    simp only [FFmt.round, ulp_mul_two_pow e j f hm, lead_mul_two_pow e j hm, roundEven_quantise_mul_two_pow,
      quantise_inexact_mul_two_pow, hzero]

end

/-- A value that is a whole number of its units, and not too large, is packed as it is. -/
theorem round_of_ulp {f : FFmt} {m : Nat} {e : Int} (neg : Bool) (hm : m ≠ 0) (hulp : f.ulp m e = e)
    (hfits : f.overflows m e = false) : f.round neg m e = .exact (f.pack neg m e) := by
  have hquantise : quantise m e e = (m, 0, 1) := by simp [quantise]
  have hround : roundEven (m, 0, 1) = m := by simp [roundEven]
  simp [FFmt.round, hm, hulp, hquantise, hround, hfits, Res.exact]

/-! ### An encoding by its fields (R123, R124) -/

/-- The encoding of a sign, an exponent field and a fraction field. -/
def FFmt.enc (f : FFmt) (s : Bool) (x m : Nat) : Nat := f.signBit s + (x * 2 ^ f.mb + m)

/-- A format with infinities and NaNs whose exponent field has a value between its least and its greatest. -/
def FFmt.IsIeee (f : FFmt) : Prop := f.special = .ieee ∧ 2 ≤ f.eb

theorem signBit_eq (f : FFmt) (s : Bool) : f.signBit s = 2 ^ (f.eb + f.mb) * s.toNat := by cases s <;> simp [FFmt.signBit]

theorem exists_enc (f : FFmt) {a : Nat} (ha : a < 2 ^ (f.eb + f.mb + 1)) :
    ∃ s x m, x < 2 ^ f.eb ∧ m < 2 ^ f.mb ∧ a = f.enc s x m := by
  obtain ⟨s, hs⟩ : ∃ s : Bool, s.toNat = a / 2 ^ (f.eb + f.mb) := by
    have hlt : a / 2 ^ (f.eb + f.mb) < 2 := Nat.div_lt_of_lt_mul (by rwa [← pow_succ])
    generalize a / 2 ^ (f.eb + f.mb) = t at hlt ⊢
    interval_cases t
    exacts [⟨false, rfl⟩, ⟨true, rfl⟩]
  refine ⟨s, a % 2 ^ (f.eb + f.mb) / 2 ^ f.mb, a % 2 ^ (f.eb + f.mb) % 2 ^ f.mb,
    Nat.div_lt_of_lt_mul ?_, Nat.mod_lt _ (Nat.two_pow_pos _), ?_⟩
  · rw [← pow_add, Nat.add_comm f.mb]
    exact Nat.mod_lt _ (Nat.two_pow_pos _)
  · rw [FFmt.enc, signBit_eq, hs, Nat.div_add_mod', Nat.div_add_mod]

/-- A number below the least normal one keeps its fraction: no subnormal is flushed. -/
theorem round_subnormal {f : FFmt} {m : Nat} (s : Bool) (hm : m < 2 ^ f.mb) (hf : f.IsIeee) :
    f.round s m (1 - (f.bias : Int) - f.mb) = .exact (f.enc s 0 m) := by
  by_cases hzero : m = 0
  · simp [FFmt.round, FFmt.enc, hzero]
  · have hlen : bitLen m ≤ f.mb := bitLen_le hm
    have hrange : (2 ^ 2 : Int) ≤ 2 ^ f.eb := pow_le_pow_right₀ (by norm_num) hf.2
    have hulp : f.ulp m (1 - (f.bias : Int) - f.mb) = 1 - (f.bias : Int) - f.mb := by
      simp only [FFmt.ulp]
      rw [if_pos (by omega)]
    have hfits : f.overflows m (1 - (f.bias : Int) - f.mb) = false := by
      simp only [FFmt.overflows, decide_eq_false_iff_not]
      omega
    rw [round_of_ulp s hzero hulp hfits]
    have hcarry : m ≠ 2 ^ (f.mb + 1) := by rw [pow_succ]; omega
    simp [FFmt.pack, FFmt.enc, hcarry, hm]

section
variable {f : FFmt} {s : Bool} {x m : Nat} (hx : x < 2 ^ f.eb) (hm : m < 2 ^ f.mb)
include hx hm

theorem magnitude_lt : x * 2 ^ f.mb + m < 2 ^ (f.eb + f.mb) := by
  have hstep : (x + 1) * 2 ^ f.mb ≤ 2 ^ f.eb * 2 ^ f.mb := Nat.mul_le_mul_right _ hx
  rw [Nat.succ_mul] at hstep
  rw [pow_add]
  omega

theorem enc_mod_sign : f.enc s x m % 2 ^ (f.eb + f.mb) = x * 2 ^ f.mb + m := by
  rw [FFmt.enc, signBit_eq, Nat.mul_add_mod, Nat.mod_eq_of_lt (magnitude_lt hx hm)]

theorem bit_enc_sign : bit (f.enc s x m) (f.eb + f.mb) = s := by
  rw [bit, FFmt.enc, signBit_eq, Nat.mul_add_div (Nat.two_pow_pos _), Nat.div_eq_of_lt (magnitude_lt hx hm)]
  cases s <;> rfl

theorem enc_mod_fraction : f.enc s x m % 2 ^ f.mb = m := by
  rw [← Nat.mod_mod_of_dvd _ (pow_dvd_pow 2 (Nat.le_add_left f.mb f.eb)), enc_mod_sign hx hm, Nat.mul_comm, Nat.mul_add_mod,
    Nat.mod_eq_of_lt hm]

theorem bits_enc_exponent (heb : f.eb ≠ 0) : bits (f.enc s x m) (f.eb + f.mb - 1) f.mb = x := by
  rw [bits, show f.eb + f.mb - 1 + 1 - f.mb = f.eb by omega, ← Nat.mod_mul_right_div_self, ← pow_add, Nat.add_comm f.mb,
    enc_mod_sign hx hm, Nat.mul_comm, Nat.mul_add_div (Nat.two_pow_pos _), Nat.div_eq_of_lt hm, Nat.add_zero]

/-- What an encoding of an IEEE format means. -/
theorem decode_enc (hf : f.IsIeee) : f.decode (f.enc s x m) =
    if x = 2 ^ f.eb - 1 then (if m = 0 then .inf s else .nan (m < 2 ^ (f.mb - 1)))
    else if x = 0 then .num s m (1 - (f.bias : Int) - f.mb) else .num s (2 ^ f.mb + m) ((x : Int) - f.bias - f.mb) := by
  obtain ⟨hspecial, heb⟩ := hf
  simp only [FFmt.decode, bit_enc_sign hx hm, bits_enc_exponent hx hm (by omega), enc_mod_fraction hx hm, hspecial]
  by_cases htop : x = 2 ^ f.eb - 1 <;> simp [htop]

/-- The sign of what an encoding means is its top bit, as long as that is no NaN. -/
theorem neg?_decode_enc (hf : f.IsIeee) (hnan : (f.decode (f.enc s x m)).isNan = false) :
    (f.decode (f.enc s x m)).neg? = s := by
  rw [decode_enc hx hm hf] at hnan ⊢
  split_ifs at hnan ⊢ with htop hinf hzero
  · rfl
  · exact absurd hnan (by simp [Val.isNan])
  · rfl
  · rfl

/-- A normal number keeps its exponent and its fraction. -/
theorem round_normal (hzero : x ≠ 0) (htop : x ≠ 2 ^ f.eb - 1) :
    f.round s (2 ^ f.mb + m) ((x : Int) - f.bias - f.mb) = .exact (f.enc s x m) := by
  have hlen : bitLen (2 ^ f.mb + m) = f.mb + 1 := bitLen_eq_succ (by omega) (by rw [pow_succ]; omega)
  have hulp : f.ulp (2 ^ f.mb + m) ((x : Int) - f.bias - f.mb) = (x : Int) - f.bias - f.mb := by
    simp only [FFmt.ulp, hlen]
    rw [if_neg (by push_cast; omega)]
    push_cast
    ring
  have hfits : f.overflows (2 ^ f.mb + m) ((x : Int) - f.bias - f.mb) = false := by
    simp only [FFmt.overflows, hlen, decide_eq_false_iff_not]
    have hrange : (x : Int) + 1 < 2 ^ f.eb := by exact_mod_cast (show x + 1 < 2 ^ f.eb by omega)
    omega
  rw [round_of_ulp s (by positivity) hulp hfits]
  have hcarry : 2 ^ f.mb + m ≠ 2 ^ (f.mb + 1) := by rw [pow_succ]; omega
  simp [FFmt.pack, FFmt.enc, hcarry, Nat.add_assoc]

theorem ofVal_decode_enc (hf : f.IsIeee) (hnan : (f.decode (f.enc s x m)).isNan = false) :
    f.ofVal (f.decode (f.enc s x m)) = .exact (f.enc s x m) := by
  rw [decode_enc hx hm hf] at hnan ⊢
  split_ifs at hnan ⊢ with htop hinf hzero
  · simp [FFmt.ofVal, FFmt.infBits, FFmt.enc, htop, hinf]
  · exact absurd hnan (by simp [Val.isNan])
  · rw [hzero]
    exact round_subnormal s hm hf
  · exact round_normal hx hm hzero htop

end

/-! ### One value as a multiple of a smaller power of two -/

/-- The same value with `j` more zeros. -/
def Val.finer (j : Nat) : Val → Val
  | .num n m e => .num n (m * 2 ^ j) (e - j)
  | v => v

theorem ofVal_finer (f : FFmt) (j : Nat) (v : Val) : f.ofVal (v.finer j) = f.ofVal v := by
  cases v with
  | num n m e => exact round_mul_two_pow e j m f n
  | inf n => rfl
  | nan s => rfl

theorem isNan_finer (j : Nat) (v : Val) : (v.finer j).isNan = v.isNan := by cases v <;> rfl

/-- Multiplication by 1.0 converts the other factor. -/
theorem mul_one_eq_ofVal (f : FFmt) (v : Val) : f.mul v (.num false (2 ^ f.mb) (-(f.mb : Int))) = f.ofVal v := by
  cases v with
  | num n m e => rw [← ofVal_finer f f.mb, Val.finer, FFmt.mul, FFmt.ofVal, Bool.bne_false, sub_eq_add_neg]
  | inf n => simp [FFmt.mul, FFmt.ofVal]
  | nan s => cases s <;> rfl

/-- The encoding of 1.0. -/
theorem decode_one {f : FFmt} (hf : f.IsIeee) (hpos : 0 < f.bias) (hlt : f.bias < 2 ^ f.eb - 1) :
    f.decode (f.bias * 2 ^ f.mb) = .num false (2 ^ f.mb) (-(f.mb : Int)) := by
  have henc : f.bias * 2 ^ f.mb = f.enc false f.bias 0 := by simp [FFmt.enc, FFmt.signBit]
  rw [henc, decode_enc (by omega) (Nat.two_pow_pos _) hf, if_neg (by omega), if_neg (by omega)]
  simp

/-- A format with `j` more bits of fraction. -/
def FFmt.widen (f : FFmt) (j : Nat) : FFmt := { f with mb := f.mb + j }

theorem enc_widen (f : FFmt) (j : Nat) (s : Bool) (x m : Nat) : (f.widen j).enc s x (m * 2 ^ j) = f.enc s x m * 2 ^ j := by
  simp only [FFmt.enc, signBit_eq, FFmt.widen, pow_add]
  ring

/-- An encoding followed by `j` zeros means the same in the wider format. -/
theorem decode_widen {f : FFmt} (hf : f.IsIeee) {a : Nat} (ha : a < 2 ^ (f.eb + f.mb + 1)) (j : Nat)
    (hnan : (f.decode a).isNan = false) : (f.widen j).decode (a * 2 ^ j) = (f.decode a).finer j := by
  obtain ⟨s, x, m, hx, hm, rfl⟩ := exists_enc f ha
  have hm' : m * 2 ^ j < 2 ^ (f.widen j).mb := by
    rw [FFmt.widen, pow_add]
    exact Nat.mul_lt_mul_of_pos_right hm (Nat.two_pow_pos j)
  rw [← enc_widen, decode_enc (f := f.widen j) hx hm' hf]
  rw [decode_enc hx hm hf] at hnan ⊢
  by_cases htop : x = 2 ^ f.eb - 1
  · have hinf : m = 0 := by
      by_contra hne
      simp [htop, hne, Val.isNan] at hnan
    simp [FFmt.widen, htop, hinf, Val.finer]
  · by_cases hzero : x = 0
    · simp only [FFmt.widen, if_neg htop, if_pos hzero, Val.finer, Nat.cast_add, sub_add_eq_sub_sub]
    · simp only [FFmt.widen, if_neg htop, if_neg hzero, Val.finer, Nat.cast_add, sub_add_eq_sub_sub, pow_add, add_mul]

/-! ### The lane formats (R205) -/

theorem laneFmt_isIeee {l : Nat} (hl : l < 3) : (laneFmt l).IsIeee := by
  unfold FFmt.IsIeee
  interval_cases l <;> decide

theorem laneBits_eq {l : Nat} (hl : l < 3) : laneBits l = (laneFmt l).eb + (laneFmt l).mb + 1 := by interval_cases l <;> rfl

theorem laneFmt_bias {l : Nat} (hl : l < 3) : 0 < (laneFmt l).bias ∧ (laneFmt l).bias < 2 ^ (laneFmt l).eb - 1 := by
  interval_cases l <;> decide

theorem fFP32_eq_widen : fFP32 = fBF16.widen 16 := rfl

/-! ### The operations on an element that is no NaN -/

/-- Conversion to its own format keeps every encoding that is no NaN (R148). -/
theorem ofVal_decode {f : FFmt} (hf : f.IsIeee) {a : Nat} (ha : a < 2 ^ (f.eb + f.mb + 1))
    (hnan : (f.decode a).isNan = false) : f.ofVal (f.decode a) = .exact a := by
  obtain ⟨s, x, m, hx, hm, rfl⟩ := exists_enc f ha
  exact ofVal_decode_enc hx hm hf hnan

/-- The absolute value is the encoding without its sign. -/
theorem signOp_abs {f : FFmt} {a : Nat} (hnan : (f.decode a).isNan = false) :
    f.signOp false a = .exact (a % 2 ^ (f.eb + f.mb)) := by
  simp [FFmt.signOp, hnan]

/-- Negation inverts the sign bit. -/
theorem signOp_neg {f : FFmt} (hf : f.IsIeee) {a : Nat} (ha : a < 2 ^ (f.eb + f.mb + 1)) (hnan : (f.decode a).isNan = false) :
    f.signOp true a = .exact ((a + 2 ^ (f.eb + f.mb)) % 2 ^ (f.eb + f.mb + 1)) := by
  obtain ⟨s, x, m, hx, hm, rfl⟩ := exists_enc f ha
  have hlt := magnitude_lt hx hm
  simp only [FFmt.signOp, hnan, neg?_decode_enc hx hm hf hnan, enc_mod_sign hx hm]
  cases s with
  | false =>
    rw [Nat.mod_eq_of_lt (by rw [FFmt.enc, signBit_eq, Bool.toNat_false, pow_succ]; omega)]
    simp [FFmt.enc, FFmt.signBit, Nat.add_comm]
  | true =>
    have hwrap : f.enc true x m + 2 ^ (f.eb + f.mb) = 2 ^ (f.eb + f.mb + 1) + (x * 2 ^ f.mb + m) := by
      rw [FFmt.enc, signBit_eq, pow_succ, Bool.toNat_true]
      ring
    rw [hwrap, Nat.add_mod_left, Nat.mod_eq_of_lt (hlt.trans (Nat.pow_lt_pow_right Nat.one_lt_two (Nat.lt_succ_self _)))]
    simp [FFmt.signBit]

/-- Settles O16: what an encoding means is rounded to that encoding, multiplication by 1.0 and widening keep its value, and the sign
operations change its sign bit alone. -/
theorem conversionKeepsWhatTheFormatHolds : Obligations.ConversionKeepsWhatTheFormatHolds := by
  refine ⟨fun l a hl ha hnan => ?_, fun a ha hnan => ?_⟩
  · have hf := laneFmt_isIeee hl
    obtain ⟨hpos, hlt⟩ := laneFmt_bias hl
    rw [laneBits_eq hl] at ha ⊢
    refine ⟨ofVal_decode hf ha hnan, ?_, signOp_abs hnan, signOp_neg hf ha hnan⟩
    rw [elemOp, decode_one hf hpos hlt, mul_one_eq_ofVal, ofVal_decode hf ha hnan, Res.exact]
  · have hf : fBF16.IsIeee := laneFmt_isIeee (l := 1) (by decide)
    have hwide := decode_widen hf ha 16 hnan
    rw [fFP32_eq_widen, ← ofVal_finer _ 16, ← hwide]
    exact ofVal_decode (f := fBF16.widen 16) hf (Nat.mul_lt_mul_of_pos_right ha (Nat.two_pow_pos 16))
      (by rw [hwide, isNan_finer, hnan])

end Sys2Proof.Machine

/-! PROOFS. The family 05_plans: the mailbox commands of contexts, queue pairs, steps and links (R184, R382, R413, R436, R458, R476,
R477, R491, R494 to R496, R579). -/

namespace Sys2Proof.Machine

set_option Elab.async false

/-! ### A request that firmware serves (R476, R477) -/

/-- A request as firmware commits it: in the present tick. -/
def committed (s : State) (r : MbReq) : MbReq := { r with commit := tickOf s }

/-- Requests that stand or fall together: an answer takes away every request of its function, number and tick. -/
def SameReq (q r : MbReq) : Prop := q.fn = r.fn ∧ q.seq = r.seq ∧ q.tick = r.tick

section
variable {s t u : State} {r w : MbReq} {a : Ans} {op arg off : Nat}

theorem Served.mem (h : Served s op r) : r ∈ s.mbReqs := List.mem_of_find?_eq_some h.2.1

/-- No request stands before the one that is served. -/
theorem settleHead_of_served (h : Served s op r) (n : Nat) : settleHead n s = s := by
  obtain ⟨-, hfind, -, hchecks⟩ := h
  cases n with
  | zero => rfl
  | succ n =>
    unfold settleHead
    rw [hfind]
    dsimp only
    rw [hchecks]

theorem execReq_of_served (h : Served s op r) (f : MbReq → State → State) :
    execReq s op f = f (committed s r) (journalStep s) := by
  have hhead := settleHead_of_served h 16
  obtain ⟨hserves, hfind, hop, -⟩ := h
  unfold execReq
  rw [if_neg (by simp [hserves]), hhead]
  dsimp only
  rw [hfind]
  dsimp only
  rw [if_neg (by simp [hop])]
  rfl

theorem execNow_of_served (h : Served s op r) (f : MbReq → State → State × Ans) :
    execNow s op f =
      respond (f (committed s r) (journalStep s)).1 (committed s r) (f (committed s r) (journalStep s)).2 :=
  execReq_of_served h _

/-! ### Answers (R477) -/

theorem respond_mbReqs (s : State) (r : MbReq) (a : Ans) :
    (respond s r a).mbReqs = s.mbReqs.filter fun q => !(q.fn == r.fn && q.seq == r.seq && q.tick == r.tick) :=
  ((msix_only (m := 0x802) r.fn 0 .refl ⟨rfl⟩).out .mbReqs rfl).symm

theorem not_sameReq_of_mem_respond (s : State) (r : MbReq) : ∀ q ∈ (respond s r a).mbReqs, ¬ SameReq q r := by
  rintro q hq ⟨hfn, hseq, htick⟩
  rw [respond_mbReqs] at hq
  have hkept := (List.mem_filter.1 hq).2
  simp [hfn, hseq, htick] at hkept

theorem mem_of_mem_respond (h : w ∈ (respond s r a).mbReqs) : w ∈ s.mbReqs := by
  rw [respond_mbReqs] at h
  exact (List.mem_filter.1 h).1

theorem win_respond (s : State) (r : MbReq) (a : Ans) :
    win (respond s r a) r.fn =
      { win s r.fn with resp := respArea r.seq a r.commit, mode := if a.status == stRetry then 3 else 2, seq := r.seq } :=
  (win_of ((msix_only (m := 0x802) r.fn 0 .refl ⟨rfl⟩).out .windows rfl).symm _).trans (win_modWin_self _ _ _)

theorem answered_respond (s u : State) (r : MbReq) (a : Ans) : Answered s (respond u (committed s r) a) r a := by
  have hwin := win_respond u (committed s r) a
  have hmode : (win (respond u (committed s r) a) r.fn).mode = if a.status == stRetry then 3 else 2 :=
    congrArg MbWindow.mode hwin
  refine ⟨congrArg MbWindow.resp hwin, congrArg MbWindow.seq hwin, ?_, not_sameReq_of_mem_respond u (committed s r)⟩
  simpa using hmode

theorem Answered.of_same (h : Answered s t r a) (hwindows : u.windows = t.windows) (hreqs : u.mbReqs = t.mbReqs) :
    Answered s u r a := by
  unfold Answered
  rw [win_of hwindows, hreqs]
  exact h

/-- What an answer may change: registers, where vectors are pending, what is sent, windows and requests. -/
theorem respond_same (s : State) (r : MbReq) (a : Ans) : Only 0xc00000802 s (respond s r a) := respond_only r a .refl ⟨rfl⟩

theorem reg_msix (s : State) (fn : Nat) (hlow : off < 2 ^ 40) (hpba : off ≠ 0x84_8000) : reg (msix s fn 0) off = reg s off := by
  have hne : off ≠ pbaAt fn 0 := by unfold pbaAt; split <;> omega
  unfold msix
  split
  · exact reg_putBit_other _ _ _ _ _ hne
  · rfl

/-- An answer leaves every register but the pending bits. -/
theorem reg_respond (s : State) (r : MbReq) (a : Ans) (hlow : off < 2 ^ 40) (hpba : off ≠ 0x84_8000) :
    reg (respond s r a) off = reg s off := reg_msix _ r.fn hlow hpba

/-! ### Requests that wait for their answer (R477) -/

theorem mem_waitAnswer (h : r ∈ s.mbReqs) (v : State) (arg : Nat) :
    ∃ w ∈ (waitAnswer s (committed v r) arg).mbReqs, SameReq w r ∧ w.executed = true ∧ w.opcode = r.opcode ∧ w.arg = arg :=
  ⟨{ r with commit := tickOf v, executed := true, arg := arg }, List.mem_map.2 ⟨r, h, by simp [committed]⟩,
    ⟨rfl, rfl, rfl⟩, rfl, rfl, rfl⟩

/-- A request that waits for an event is gone once the event answers it. -/
theorem not_sameReq_of_mem_answerWaiting (hserves : weirServes s = true) (hw : w ∈ s.mbReqs) (hexecuted : w.executed = true)
    (hop : w.opcode = op) (harg : w.arg = arg) : ∀ q ∈ (answerWaiting s op arg a).mbReqs, ¬ SameReq q w := by
  unfold answerWaiting
  dsimp only
  rw [if_pos hserves]
  refine foldl_forall_mem (f := fun s q => respond s q a) (P := fun w t => ∀ q ∈ t.mbReqs, ¬ SameReq q w)
    not_sameReq_of_mem_respond (fun _ _ _ h q hq => h q (mem_of_mem_respond hq)) _ s w (List.mem_filter.2 ⟨hw, ?_⟩)
  simp [hexecuted, hop, harg]

end

/-! ### The context that a request names, and its removal (R158, R491) -/

/-- A context whose dispatch, if it runs one, is to be aborted. -/
def abortAsked (x : Context) : Context := { x with run := x.run.map fun r => { r with abortReq := true } }

/-- A context that is to leave: nothing waits at it, and its dispatch is to be aborted. -/
def unloading (x : Context) : Context := { abortAsked x with waiting := [], removing := true }

section
variable {s : State} {r : MbReq} {x y : Context} {q : Run} {h : Nat}

theorem ctx_of_namedContext (hx : namedContext s r = .inl x) : ctx? s x.handle = some x := by
  unfold namedContext at hx
  split at hx
  · cases hx
  · rename_i y hy
    split at hx
    · cases hx
    · split at hx
      · cases hx
      · cases hx
        rwa [handle_of_ctx hy]

/-- Cancelling what waits at a context leaves its dispatch, if that has started. -/
theorem contexts_cancelPending (hx : ctx? s h = some x) (hstarted : ∀ q, x.run = some q → 0 < q.phases) :
    (cancelPending s h).contexts = (modCtx s h fun y => { y with waiting := [] }).contexts := by
  have hcancel : ∀ (v : State) (ds : List Dispatch),
      (ds.foldl (fun s d => complete s d.seq d.cq (Cpl.plain d.tag 0x07 d.qp)) v).contexts = v.contexts := fun v ds =>
    ((onlyFold (m := 0x100000) .refl fun _ ht d => complete_only d.seq d.cq _ ht ⟨rfl⟩).out .contexts rfl).symm
  unfold cancelPending
  rw [hx]
  dsimp only
  rw [hcancel]
  cases hr : x.run with
  | none => rfl
  | some q =>
    have hphases : (q.phases == 0) = false := by simpa using (hstarted q hr).ne'
    simp only [hphases, Bool.false_eq_true, if_false]
    rfl

theorem ctx_requestAbort (s : State) (h j : Nat) :
    ctx? (requestAbort s h) j = if j = h then (ctx? s j).map abortAsked else ctx? s j := ctx_modCtx _ _ _ _ fun _ => rfl

theorem ctx_unloadContext (hx : ctx? s h = some x) (hstarted : ∀ q, x.run = some q → 0 < q.phases) (j : Nat) :
    ctx? (unloadContext s h) j = if j = h then some (unloading x) else ctx? s j := by
  have hleave : ctx? (unloadContext s h) j =
      if j = h then (ctx? (requestAbort (cancelPending s h) h) j).map fun x => { x with removing := true }
      else ctx? (requestAbort (cancelPending s h) h) j := ctx_modCtx _ _ _ _ fun _ => rfl
  have hcancel : ctx? (cancelPending s h) j = if j = h then (ctx? s j).map fun y => { y with waiting := [] } else ctx? s j :=
    (ctxQ_of (contexts_cancelPending hx hstarted) j).trans (ctx_modCtx _ _ _ _ fun _ => rfl)
  rw [hleave, ctx_requestAbort, hcancel]
  by_cases hj : j = h
  · subst hj
    simp only [if_true, hx]
    rfl
  · simp only [if_neg hj]

theorem contexts_removeContext (hx : ctx? s h = some x) :
    (removeContext s h).contexts = s.contexts.filter fun y => y.handle != h := by
  have hcancel : ∀ v : State, Only 0x1110002 v (parkRings (releasePhase
      (x.waiting.foldl (fun s d => complete s d.seq d.cq (Cpl.plain d.tag 0x07 d.qp)) v) x) x) := fun v =>
    parkRings_only x (releasePhase_only x (onlyFold .refl fun _ ht d => complete_only d.seq d.cq _ ht ⟨rfl⟩) ⟨rfl⟩) ⟨rfl⟩
  unfold removeContext
  rw [hx]
  dsimp only
  rw [← (hcancel _).out .contexts rfl]
  split
  · split <;> rfl
  · rfl

theorem ctx_removeContext (hx : ctx? s h = some x) (j : Nat) :
    ctx? (removeContext s h) j = if j = h then none else ctx? s j := by
  unfold ctx?
  rw [contexts_removeContext hx, List.find?_filter]
  split
  · subst j
    simp
  · rename_i hj
    refine congrArg (fun p => s.contexts.find? p) (funext fun y => ?_)
    by_cases hy : y.handle = j
    · simp [hy, hj]
    · simp [hy]

theorem settleRemoval_of_running (hy : ctx? s h = some y) (hr : y.run = some q) (hq : 0 < q.phases) : settleRemoval s h = s := by
  unfold settleRemoval
  rw [hy]
  dsimp only
  rw [hr]
  dsimp only
  rw [if_pos (by simp [hq])]

theorem settleRemoval_of_idle (hy : ctx? s h = some y) (hremoving : y.removing = true) (hr : y.run = none) :
    settleRemoval s h = answerWaiting (removeContext s h) 0x31 h (.of stOk) := by
  unfold settleRemoval
  rw [hy]
  dsimp only
  rw [hr]
  dsimp only
  rw [if_neg (by simp [hremoving])]

theorem planUnload_of_named (hx : namedContext s r = .inl x) :
    planUnload r s = settleRemoval (unloadContext (waitAnswer s r x.handle) x.handle) x.handle := by
  unfold planUnload
  rw [hx]

/-! ### PLAN_UNLOAD and CTX_ABORT (R184, R491) -/

/-- A context between dispatches leaves at once, and its unload is answered. -/
theorem planUnload_idle (hserves : weirServes s = true) (hmem : r ∈ s.mbReqs) (hop : r.opcode = 0x31)
    (hx : namedContext s (committed s r) = .inl x) (hr : x.run = none) :
    (∀ j, ctx? (planUnload (committed s r) s) j = if j = x.handle then none else ctx? s j) ∧
      ∀ q ∈ (planUnload (committed s r) s).mbReqs, ¬ SameReq q r := by
  obtain ⟨w, hw, ⟨hfn, hseq, htick⟩, hexecuted, hwop, harg⟩ := mem_waitAnswer hmem s x.handle
  rw [planUnload_of_named hx]
  generalize hu : waitAnswer s (committed s r) x.handle = u at hw
  have hwait : Only 0x800000000 s u := hu ▸ waitAnswer_only _ _ .refl ⟨rfl⟩
  have hxu : ctx? u x.handle = some x := (ctxQ_of (hwait.out .contexts rfl).symm _).trans (ctx_of_namedContext hx)
  have hunload := ctx_unloadContext hxu (fun q hq => by rw [hr] at hq; cases hq)
  have hself : ctx? (unloadContext u x.handle) x.handle = some (unloading x) := by rw [hunload, if_pos rfl]
  have honly : Only 0x1130002 u (removeContext (unloadContext u x.handle) x.handle) :=
    removeContext_only _ (unloadContext_only _ .refl ⟨rfl⟩) ⟨rfl⟩
  rw [settleRemoval_of_idle hself rfl (by rw [unloading, abortAsked, hr]; rfl)]
  constructor
  · intro j
    rw [ctxQ_of (answerWaiting_same _ _ _ _).1, ctx_removeContext hself]
    split
    · rfl
    · rename_i hj
      rw [hunload, if_neg hj, ctxQ_of (hwait.out .contexts rfl).symm]
  · have hserves' : weirServes (removeContext (unloadContext u x.handle) x.handle) = true := by
      rw [weirServes, ← honly.out .weir rfl, ← hwait.out .weir rfl]
      exact hserves
    have hgone := not_sameReq_of_mem_answerWaiting (a := .of stOk) hserves' (honly.out .mbReqs rfl ▸ hw) hexecuted
      (hwop.trans hop) harg
    unfold SameReq at hgone ⊢
    rwa [hfn, hseq, htick] at hgone

/-- A running dispatch keeps its context until it has ended, and the unload waits. -/
theorem planUnload_running (hmem : r ∈ s.mbReqs) (hx : namedContext s (committed s r) = .inl x) (hr : x.run = some q)
    (hq : 0 < q.phases) :
    ctx? (planUnload (committed s r) s) x.handle = some (unloading x) ∧
      ∃ w ∈ (planUnload (committed s r) s).mbReqs, SameReq w r ∧ w.executed = true := by
  obtain ⟨w, hw, hsame, hexecuted, -, -⟩ := mem_waitAnswer hmem s x.handle
  rw [planUnload_of_named hx]
  generalize hu : waitAnswer s (committed s r) x.handle = u at hw
  have hwait : Only 0x800000000 s u := hu ▸ waitAnswer_only _ _ .refl ⟨rfl⟩
  have hxu : ctx? u x.handle = some x := (ctxQ_of (hwait.out .contexts rfl).symm _).trans (ctx_of_namedContext hx)
  have hself : ctx? (unloadContext u x.handle) x.handle = some (unloading x) := by
    rw [ctx_unloadContext hxu (fun p hp => by rw [hr] at hp; cases hp; exact hq), if_pos rfl]
  rw [settleRemoval_of_running hself (q := { q with abortReq := true }) (by rw [unloading, abortAsked, hr]; rfl) hq]
  exact ⟨hself, w, (unloadContext_only (m := 0x120000) x.handle (.refl (s0 := u)) ⟨rfl⟩).out .mbReqs rfl ▸ hw, hsame, hexecuted⟩

theorem ctxAbort_of_running (hx : namedContext s r = .inl x) (hruns : dispatchRuns x = true) :
    ctxAbort r s = waitAnswer (requestAbort s x.handle) r x.handle := by
  unfold ctxAbort
  rw [hx]
  dsimp only
  rw [if_neg (by simp [hruns])]

theorem ctxAbort_of_not_running (hx : namedContext s r = .inl x) (hruns : dispatchRuns x = false) :
    ctxAbort r s = respond s r (.of stNotRunning) := by
  unfold ctxAbort
  rw [hx]
  dsimp only
  rw [if_pos (by simp [hruns])]

theorem exists_run_of_dispatchRuns (h : dispatchRuns x = true) : ∃ q, x.run = some q := by
  unfold dispatchRuns at h
  split at h
  · exact ⟨_, ‹_›⟩
  · cases h

theorem ctxAbort_running (hmem : r ∈ s.mbReqs) (hx : namedContext s (committed s r) = .inl x) (hruns : dispatchRuns x = true) :
    (∃ y q, ctx? (ctxAbort (committed s r) s) x.handle = some y ∧ y.run = some q ∧ q.abortReq = true) ∧
      ∃ w ∈ (ctxAbort (committed s r) s).mbReqs, SameReq w r ∧ w.executed = true := by
  obtain ⟨q, hq⟩ := exists_run_of_dispatchRuns hruns
  have hself : ctx? (requestAbort s x.handle) x.handle = some (abortAsked x) :=
    ctx_modCtx_self abortAsked (fun _ => rfl) (ctx_of_namedContext hx)
  obtain ⟨w, hw, hsame, hexecuted, -, -⟩ := mem_waitAnswer (s := requestAbort s x.handle) hmem s x.handle
  rw [ctxAbort_of_running hx hruns]
  exact ⟨⟨_, { q with abortReq := true }, hself, by rw [abortAsked, hq]; rfl, rfl⟩, w, hw, hsame, hexecuted⟩

end

/-! ### Queue pairs (R436, R458, R494) -/

/-- The queue pair that QP_CREATE makes. -/
def createdQp (r : MbReq) : QpState :=
  { QpState.reset with
    mode := 1, owner := r.fn, sqBase := param r 4 8, cqBase := param r 12 8, sqLog := param r 20 1, cqLog := param r 21 1,
    channel := param r 22 1, vector := param r 23 2, coalCount := param r 25 1, coalTime := param r 26 1 }

section
variable {s : State} {r : MbReq}

section
variable (hfn : r.fn = 0) (hq : param r 0 4 < 262144) (hsq : param r 4 8 % 4096 = 0) (hcq : param r 12 8 % 4096 = 0)
  (hsqLog : param r 20 1 ≤ 12) (hcqLog : param r 21 1 ≤ 12) (hchannel : param r 22 1 ≤ 31) (hvector : param r 23 2 ≠ 0)
  (hvectors : param r 23 2 ≤ 2047) (howner : rangeOwner s (param r 0 4) = 0)
include hfn hq hsq hcq hsqLog hcqLog hchannel hvector hvectors howner

/-- A request that meets every check but the last. -/
theorem qpCreate_of_checks :
    qpCreate r s = if (qp s (param r 0 4)).mode != 0 then (s, .of stInUse)
      else (putQp s (param r 0 4) (createdQp r), .of stOk) := by
  have hbad : ¬ (param r 23 2 == 0 || decide ((if r.fn == 0 then 2047 else 63) < param r 23 2)) = true := by
    simp [hfn, hvector, hvectors]
  unfold qpCreate
  dsimp only
  rw [if_neg (by omega), if_neg (by simp [hsq]), if_neg (by simp [hcq]), if_neg (by omega), if_neg (by omega), if_neg (by omega),
    if_neg hbad, if_neg (by simp [hfn]), if_neg (by simp [howner, hfn]), if_neg (by simp [hfn])]
  rfl

theorem qpCreate_of_free (hfree : (qp s (param r 0 4)).mode = 0) :
    qpCreate r s = (putQp s (param r 0 4) (createdQp r), .of stOk) := by
  rw [qpCreate_of_checks hfn hq hsq hcq hsqLog hcqLog hchannel hvector hvectors howner, if_neg (by simp [hfree])]

theorem qpCreate_of_used (hused : (qp s (param r 0 4)).mode ≠ 0) : qpCreate r s = (s, .of stInUse) := by
  rw [qpCreate_of_checks hfn hq hsq hcq hsqLog hcqLog hchannel hvector hvectors howner, if_pos (by simpa using hused)]

end

/-- Whether a context runs a dispatch of a queue pair. -/
def runsFor (q : Nat) (x : Context) : Bool :=
  match x.run with
  | some r => r.d.qp == q && 0 < r.phases
  | none => false

theorem qpRuns_eq_any (s : State) (q : Nat) : qpRuns s q = s.contexts.any (runsFor q) := rfl

theorem any_map_of_same {f : Context → Context} {q : Nat} (hf : ∀ x, runsFor q (f x) = runsFor q x) (l : List Context) :
    (l.map f).any (runsFor q) = l.any (runsFor q) := by
  rw [List.any_map]
  exact congrArg l.any (funext hf)

theorem runsFor_abortAsked (q : Nat) (x : Context) : runsFor q (abortAsked x) = runsFor q x := by
  unfold runsFor abortAsked
  dsimp only
  cases x.run <;> rfl

theorem qpRuns_requestAbort (s : State) (h q : Nat) : qpRuns (requestAbort s h) q = qpRuns s q := by
  refine any_map_of_same (f := fun x => if x.handle == h then abortAsked x else x) (fun x => ?_) s.contexts
  split
  · exact runsFor_abortAsked q x
  · rfl

theorem runsFor_unlinkContext (q p : Nat) (x : Context) : runsFor q (unlinkContext p x) = runsFor q x := by
  have hqp : ∀ d : Dispatch, (unlinkDispatch p d).qp = d.qp := fun d => by unfold unlinkDispatch; split <;> rfl
  unfold runsFor unlinkContext
  dsimp only
  cases x.run with
  | none => rfl
  | some r => exact congrArg (fun k => k == q && decide (0 < r.phases)) (hqp r.d)

/-- Stopping a queue pair ends no dispatch at once, and starts none. -/
theorem qpRuns_stopQp (s : State) (q : Nat) : qpRuns (stopQp s q) q = qpRuns s q := by
  have hreserved : ∀ (v : State) (l : List Nat),
      (l.foldl (fun s c => modQp s c fun x => { x with reserved := x.reserved - 1 }) v).contexts = v.contexts := fun v l =>
    ((onlyFold (m := 0x8000000) .refl fun _ ht c => modQp_only c _ ht ⟨rfl⟩).out .contexts rfl).symm
  have habort : ∀ (v : State) (p : Dispatch → Bool), qpRuns (abortRuns v p) q = qpRuns v q := fun v p =>
    List.foldlRecOn _ _ (motive := fun t => qpRuns t q = qpRuns v q) rfl fun t ht x _ => (qpRuns_requestAbort t x.handle q).trans ht
  have hcopies : ∀ (v : State) (p : CopyRec → Bool), (stopCopies v p).contexts = v.contexts := fun v p =>
    ((stopCopies_only (m := 0x200000002) p .refl ⟨rfl⟩).out .contexts rfl).symm
  refine (any_map_of_same (runsFor_unlinkContext q q) _).trans ?_
  rw [hcopies, ← qpRuns_eq_any, habort, qpRuns_eq_any, hreserved, ← qpRuns_eq_any]

theorem qpDelete_of_checks {q : Nat} (hq : q = param r 0 4) (hlt : q < 262144) (howner : (qp s q).owner = r.fn)
    (hmode : (qp s q).mode = 1) (hidle : qpRuns s q = false) :
    qpDelete r s = respond (forgetQp (modQp (stopQp s q) q fun y => { y with mode := 3 }) q) r (.of stOk) := by
  have hstopped : qpRuns (modQp (stopQp s q) q fun y => { y with mode := 3 }) q = false := by
    rw [qpRuns_eq_any, modQp_contexts, ← qpRuns_eq_any, qpRuns_stopQp, hidle]
  unfold qpDelete
  dsimp only
  rw [← hq, if_neg (by omega), if_neg (by simp [hmode]), if_neg (by simp [howner]), if_neg (by simp [hmode]), hstopped,
    if_neg Bool.false_ne_true]

theorem qp_forgetQp (s : State) (q : Nat) : qp (forgetQp s q) q = .reset :=
  (qp_of (s := putQp s q .reset) (t := forgetQp s q) rfl q).trans (qp_putQp_self s q _)

theorem vfQpRange_of_checks {v b n : Nat} (hv : v = param r 0 1) (hb : b = param r 1 4) (hn : n = param r 5 2) (hvf : v ≠ 0)
    (halign : b % 16 = 0) (hmin : 16 ≤ n) (hmax : n ≤ 1024) (hend : b + n ≤ 262144) (hqps : s.qps = []) (hranges : s.vfRanges = []) :
    vfQpRange r s = ({ s with vfRanges := tput .reset s.vfRanges v { base := b, count := n } }, .of stOk) := by
  unfold vfQpRange
  dsimp only
  rw [← hv, ← hb, ← hn, if_neg (by simpa using hvf), if_neg (by simp [halign]; omega), if_neg (by simp; omega),
    if_neg (by simp [hqps]), if_neg (by simp [hranges])]

end

/-! ### Steps (R76, R77, R495, R496, R579) -/

section
variable {s t : State} {r : MbReq} {k c b off hi lo i v o : Nat}

theorem regBit_putField_outside (s : State) (v : Nat) (h : lo ≤ hi + 1) (hout : off ≠ b ∨ i < lo ∨ hi < i) :
    regBit (putField s b hi lo v) off i = regBit s off i := by
  by_cases hoff : off = b
  · subst hoff
    rw [regBit, putField, reg_putReg_self, bit_setBits_other _ _ _ _ _ h (hout.resolve_left (absurd rfl)), regBit]
  · rw [regBit, reg_putField_other _ _ _ _ _ _ hoff, regBit]

theorem cmdStep_modCore (s : State) (c b : Nat) {f : CoreState → CoreState} (hf : ∀ y, (f y).cmdStep = y.cmdStep) :
    (core (modCore s c f) b).cmdStep = (core s b).cmdStep := by
  rw [core_modCore]
  split
  · subst b; exact hf _
  · rfl

/-- A ramp changes no commanded step. -/
theorem cmdStep_rampCore (s : State) (c k b : Nat) : (core (rampCore s c k) b).cmdStep = (core s b).cmdStep := by
  unfold rampCore
  dsimp only
  split
  · exact cmdStep_modCore s c b (by intro _; rfl)
  · split
    · rfl
    · rw [core_of ((showUncore_only (m := 0x2) _ .refl ⟨rfl⟩).out .cores rfl).symm, core_putReg]
      exact cmdStep_modCore s c b (by intro _; rfl)

theorem cmdStep_commandCore (s : State) (c k b : Nat) :
    (core (commandCore s c k) b).cmdStep = if b = c then k else (core s b).cmdStep := by
  unfold commandCore
  rw [core_modCore]
  split
  · rfl
  · exact cmdStep_rampCore s c k b

/-- Every named core is commanded, and no other. -/
theorem cmdStep_commandCores (cs : List Nat) (s : State) (k b : Nat) :
    (core (cs.foldl (fun s c => commandCore s c k) s) b).cmdStep = if b ∈ cs then k else (core s b).cmdStep := by
  induction cs generalizing s with
  | nil => rfl
  | cons c cs ih =>
    rw [List.foldl_cons, ih, cmdStep_commandCore]
    by_cases hmem : b ∈ cs
    · rw [if_pos hmem, if_pos (List.mem_cons_of_mem c hmem)]
    · rw [if_neg hmem]
      by_cases hb : b = c
      · rw [if_pos hb, if_pos (hb ▸ List.mem_cons_self)]
      · rw [if_neg hb, if_neg (by simp [hb, hmem])]

theorem stepCore_admitted (hk : param r 8 1 ≤ 7) (hadmit : stepRefused s (maskList (param r 0 8) 64) (param r 8 1) = 0) :
    stepCore r s = answerRamps (waitAnswer
      ((maskList (param r 0 8) 64).foldl (fun s c => commandCore s c (param r 8 1)) s) r 0) := by
  unfold stepCore
  dsimp only
  rw [if_neg (by omega), hadmit, if_neg (by decide)]

theorem stepCore_refused (hk : param r 8 1 ≤ 7) (hrefused : stepRefused s (maskList (param r 0 8) 64) (param r 8 1) ≠ 0) :
    stepCore r s = respond s r (.det stCap (stepRefused s (maskList (param r 0 8) 64) (param r 8 1))) := by
  unfold stepCore
  dsimp only
  rw [if_neg (by omega), if_pos (by simpa using hrefused)]

theorem stepModule_free (hk : param r 0 1 ≤ 7) (hfree : stepFree s = true) :
    stepModule r s = startChange (waitAnswer s r (commitCount s (256 * (r.tick + 1)))) (param r 0 1)
      (commitCount s (256 * (r.tick + 1))) (some r.fn) := by
  unfold stepModule
  dsimp only
  rw [if_neg (by omega), if_neg (by simp [hfree])]

theorem stepModule_busy (hk : param r 0 1 ≤ 7) (hbusy : stepFree s = false) : stepModule r s = respond s r (.of stBusy) := by
  unfold stepModule
  dsimp only
  rw [if_neg (by omega), if_pos (by simp [hbusy])]

/-- The Pond rails are setpoints of power domains. -/
theorem regBit_pondRails (s : State) (v : Nat) (h : (∀ d, off ≠ Reg.powerDomain d) ∨ 15 < i) :
    regBit (pondRails s v) off i = regBit s off i := by
  refine List.foldlRecOn _ _ (motive := fun t => regBit t off i = regBit s off i) rfl fun t ht j _ => ?_
  split
  · exact (regBit_putField_outside t v (by decide) (h.imp (fun h => h _) .inr)).trans ht
  · exact ht

theorem clockStep_ne_powerDomain (d : Nat) : Reg.clockStep ≠ Reg.powerDomain d := by unfold Reg.clockStep Reg.powerDomain; omega

theorem moduleStep_pondRails (s : State) (v : Nat) : moduleStep (pondRails s v) = moduleStep s :=
  field_of_bits fun _ _ _ => regBit_pondRails s v (.inl clockStep_ne_powerDomain)

theorem pondRuns_pondRails (s : State) (v : Nat) : pondRuns (pondRails s v) = pondRuns s := by
  have hclock : (pondRails s v).clock = s.clock := ((pondRails_only (m := 0x2) v .refl ⟨rfl⟩).out .clock rfl).symm
  have hstate : ∀ d, domState (pondRails s v) d = domState s d := fun d =>
    field_of_bits fun j hj _ => regBit_pondRails s v (.inr (by omega))
  refine funext fun i => ?_
  rw [pondRuns, domOn, hstate, hclock, pondRuns, domOn]

/-- The rails rise before a step that rises. -/
def railsFor (s : State) (k : Nat) : State := if moduleStep s < k then pondRails s (pondMv k) else s

theorem railsFor_same (s : State) (k : Nat) :
    moduleStep (railsFor s k) = moduleStep s ∧ pondRuns (railsFor s k) = pondRuns s := by
  unfold railsFor
  split
  · exact ⟨moduleStep_pondRails _ _, pondRuns_pondRails _ _⟩
  · exact ⟨rfl, rfl⟩

/-- A change that waits for its participants, as the controller holds it and the registers of CLOCK show it. -/
def changeArmed (s : State) (ch : StepChange) : State :=
  putReg (putBit (putField { s with clock := { s.clock with change := some ch } } Reg.clockStep 22 20 ch.target) Reg.clockStep 23 true)
    Reg.clockCommit ch.commit

/-- A change to a target that the Ponds that run take part in. -/
def changeTo (s : State) (k c : Nat) (w : Option Nat) : StepChange :=
  { target := k, commit := c, participants := (List.range 16).filter (pondRuns s), armed := [], passed := false, window := w }

theorem moduleStep_changeArmed (s : State) (ch : StepChange) : moduleStep (changeArmed s ch) = moduleStep s := by
  refine field_of_bits fun j _ hj => ?_
  rw [changeArmed, regBit, reg_putReg_other _ _ _ _ (by decide), ← regBit, regBit_putBit, if_neg (by omega),
    regBit_putField_outside _ _ (by decide) (.inr (.inl (by omega)))]
  rfl

theorem startChange_eq (s : State) (k c : Nat) (w : Option Nat) :
    startChange s k c w = (changeTo (railsFor s k) k c w).participants.foldl (fun s i => emit s (.stepMsg i msgArm k c))
      (changeArmed (railsFor s k) (changeTo (railsFor s k) k c w)) := rfl

/-- A change begins: it is armed for the Ponds that run, and the step that stands is kept until it commits. -/
theorem startChange_spec (s : State) (k c : Nat) (w : Option Nat) :
    (startChange s k c w).clock.change = some (changeTo s k c w) ∧ moduleStep (startChange s k c w) = moduleStep s := by
  obtain ⟨hstep, hruns⟩ := railsFor_same s k
  have hsame : changeTo (railsFor s k) k c w = changeTo s k c w := by rw [changeTo, hruns, changeTo]
  have hemit : Only 0x800 (changeArmed (railsFor s k) (changeTo s k c w)) (startChange s k c w) := by
    rw [startChange_eq, hsame]
    exact onlyFold .refl fun _ ht i => emit_only _ ht ⟨rfl⟩
  constructor
  · rw [← hemit.out .clock rfl]
    rfl
  · exact (field_of (hemit.out .regs rfl).symm _ _ _).trans ((moduleStep_changeArmed _ _).trans hstep)

end

/-! ### Links (R382, R413, R416) -/

section
variable {s t : State} {r : MbReq} {o off : Nat}

theorem sleepFrom_queueAtLink (s : State) (p : Nat) (q : OpenReq) (o : Nat) :
    (link (queueAtLink s p q) o).sleepFrom = (link s o).sleepFrom := by
  by_cases hp : o = p
  · subst hp
    rw [queueAtLink, link_modLink_self]
  · rw [queueAtLink, modLink, link_putLink_other _ _ _ _ hp]

theorem sleepFrom_flood (s : State) (f : LinkStateF) (e : Option Nat) (o : Nat) :
    (link (flood s f e) o).sleepFrom = (link s o).sleepFrom := by
  refine List.foldlRecOn _ _ (motive := fun t => (link t o).sleepFrom = (link s o).sleepFrom) rfl fun t ht p _ => ?_
  split
  · exact ht
  · split
    · exact (sleepFrom_queueAtLink t p _ o).trans ht
    · exact ht

theorem links_loadRoutes_showTree (s : State) : (loadRoutes (showTree s)).links = s.links :=
  ((loadRoutes_only (m := 0x4000022) (showTree_only .refl ⟨rfl⟩) ⟨rfl⟩).out .links rfl).symm

/-- What a flood of the module's own links does: nothing beyond a mark, the flood alone, or the flood and new routes. -/
theorem floodOwn_cases (s : State) :
    ∃ v f, v.regs = s.regs ∧ v.links = s.links ∧
      (floodOwn s = v ∨ floodOwn s = flood v f none ∨ floodOwn s = loadRoutes (showTree (flood v f none))) := by
  unfold floodOwn
  split
  · exact ⟨s, ownLinkState s, rfl, rfl, .inl rfl⟩
  · split
    · refine ⟨_, ownLinkState s, ?_, ?_, .inl rfl⟩ <;> rfl
    · dsimp only
      split
      · refine ⟨_, _, ?_, ?_, .inr (.inr rfl)⟩ <;> rfl
      · refine ⟨_, _, ?_, ?_, .inr (.inl rfl)⟩ <;> rfl

/-- Flooding the module's links keeps since when one is to sleep. -/
theorem sleepFrom_floodOwn (s : State) (o : Nat) : (link (floodOwn s) o).sleepFrom = (link s o).sleepFrom := by
  obtain ⟨v, f, -, hlinks, h | h | h⟩ := floodOwn_cases s <;> rw [h]
  · rw [link_of hlinks]
  · rw [sleepFrom_flood, link_of hlinks]
  · rw [link_of (links_loadRoutes_showTree _), sleepFrom_flood, link_of hlinks]

theorem reg_showTree_other (s : State) (hstat : off ≠ Reg.fabricStat) : reg (showTree s) off = reg s off := by
  unfold showTree
  dsimp only
  rw [reg_putField_other _ _ _ _ _ _ hstat, reg_putField_other _ _ _ _ _ _ hstat]

theorem reg_loadRoutes_other (s : State) (hflags : off ≠ Reg.fabricFlags) : reg (loadRoutes s) off = reg s off := by
  unfold loadRoutes
  dsimp only
  split
  · rfl
  · exact reg_raiseFlag_other _ _ _ _ hflags

theorem reg_floodOwn_other (s : State) (hstat : off ≠ Reg.fabricStat) (hflags : off ≠ Reg.fabricFlags) :
    reg (floodOwn s) off = reg s off := by
  obtain ⟨v, f, hregs, -, h | h | h⟩ := floodOwn_cases s
  · rw [h, reg_of hregs]
  all_goals
    have hflood : reg (flood v f none) off = reg s off :=
      (reg_of ((flood_only (m := 0x2000000) f none .refl ⟨rfl⟩).out .regs rfl).symm off).trans (reg_of hregs off)
    rw [h]
  · exact hflood
  · rw [reg_loadRoutes_other _ hflags, reg_showTree_other _ hstat, hflood]

theorem linkStat_low (ho : o ≤ 15) : Reg.linkStat o < 2 ^ 40 ∧ Reg.linkStat o ≠ 0x84_8000 := by unfold Reg.linkStat; omega
theorem optStat_low (ho : o ≤ 15) : Reg.optStat o < 2 ^ 40 ∧ Reg.optStat o ≠ 0x84_8000 := by unfold Reg.optStat; omega

theorem linkStat_ne_fabric (ho : o ≤ 15) : Reg.linkStat o ≠ Reg.fabricStat ∧ Reg.linkStat o ≠ Reg.fabricFlags := by
  unfold Reg.linkStat Reg.fabricStat Reg.fabricFlags; omega

theorem optStat_ne (o : Nat) :
    Reg.optStat o ≠ Reg.linkStat o ∧ Reg.optStat o ≠ Reg.fabricStat ∧ Reg.optStat o ≠ Reg.optFlags o := by
  unfold Reg.optStat Reg.linkStat Reg.fabricStat Reg.optFlags; omega

theorem linkStateOf_of_reg (h : reg t (Reg.linkStat o) = reg s (Reg.linkStat o)) : linkStateOf t o = linkStateOf s o := by
  unfold linkStateOf field; rw [h]

theorem linkUp_of_reg (h : reg t (Reg.linkStat o) = reg s (Reg.linkStat o)) : linkUp t o = linkUp s o := by
  unfold linkUp; rw [linkStateOf_of_reg h]

theorem linkStateOf_respond (s : State) (r : MbReq) (a : Ans) (ho : o ≤ 15) : linkStateOf (respond s r a) o = linkStateOf s o :=
  linkStateOf_of_reg (reg_respond s r a (linkStat_low ho).1 (linkStat_low ho).2)

theorem field_opticsWake (s : State) (o : Nat) : field (opticsWake s o) (Reg.optStat o) 4 3 = 0 := by
  have hopen : field (raiseFlag (putField s (Reg.optStat o) 4 3 0) (Reg.optFlags o) 1) (Reg.optStat o) 4 3 = 0 := by
    rw [field, reg_raiseFlag_other _ _ _ _ (optStat_ne o).2.2, ← field, field_putField _ _ _ _ _ (by decide)]
    rfl
  unfold opticsWake
  dsimp only
  split
  · exact hopen
  · refine (field_of_bits fun j _ hj => ?_).trans hopen
    exact regBit_putField_outside _ _ (by decide) (.inr (.inl (by omega)))

theorem field_setLinkState_optStat (s : State) (o v hi lo : Nat) :
    field (setLinkState s o v) (Reg.optStat o) hi lo = field s (Reg.optStat o) hi lo := by
  unfold field; rw [reg_setLinkState_other s o v (optStat_ne o).1 (optStat_ne o).2.1]

/-- The state of a link after LINK_SLEEP of one that is up. -/
def sleepRequested (r : MbReq) (o : Nat) (s : State) : State :=
  let q := linkActivity r s 0x58 o
  modLink (respond q.1 r (accepted q.2)) o fun l => { l with sleepFrom := some s.time.now, activity := q.2 }

theorem linkSleep_of_up (ho : o = param r 0 1) (hle : o ≤ 15) (hfree : (link s o).activity = 0) (hroom : (liveActs s).length < 64)
    (hup : linkUp s o = true) : linkSleep r s = floodOwn (sleepRequested r o s) := by
  have hact := linkActivity_only (m := 0x7000000000) r 0x58 o (.refl (s0 := s)) ⟨rfl⟩
  unfold linkSleep
  rw [← ho]
  dsimp only
  have hup' : linkUp (respond (linkActivity r s 0x58 o).1 r (accepted (linkActivity r s 0x58 o).2)) o = true := by
    rw [linkUp_of_reg (reg_respond _ r _ (linkStat_low hle).1 (linkStat_low hle).2),
      linkUp_of_reg (reg_of (hact.out .regs rfl).symm _), hup]
  have htime : (respond (linkActivity r s 0x58 o).1 r (accepted (linkActivity r s 0x58 o).2)).time = s.time :=
    ((hact.out .time rfl).trans ((respond_same _ _ _).out .time rfl)).symm
  rw [if_neg (by omega), if_neg (by simp [hfree]), if_neg (by omega), if_pos hup', htime]
  rfl

theorem linkWake_of_asleep (ho : o = param r 0 1) (hle : o ≤ 15) (hfree : (link s o).activity = 0)
    (hroom : (liveActs s).length < 64) (hasleep : linkStateOf s o = 5) :
    linkWake r s = (modLink (setLinkState (opticsWake (linkActivity r s 0x59 o).1 o) o 1) o
      fun l => { l with activity := (linkActivity r s 0x59 o).2 }, accepted (linkActivity r s 0x59 o).2) := by
  have hact := linkActivity_only (m := 0x7000000000) r 0x59 o (.refl (s0 := s)) ⟨rfl⟩
  have hasleep' : linkStateOf (linkActivity r s 0x59 o).1 o = 5 := by
    rw [linkStateOf_of_reg (reg_of (hact.out .regs rfl).symm _), hasleep]
  unfold linkWake
  rw [← ho]
  dsimp only
  rw [if_neg (by omega), if_neg (by simp [hfree]), if_neg (by omega), if_pos (by rw [hasleep']; rfl)]

theorem linkRelease_of_free (ho : o = param r 0 1) (hle : o ≤ 15) (hfree : regBit s (Reg.linkStat o) 3 = false) :
    linkRelease r s = (s, .of stOk) := by
  unfold linkRelease
  rw [← ho]
  dsimp only
  rw [if_neg (by omega), if_pos (by simp [hfree])]

/-- A link whose quarantine ends, with its violations forgotten. -/
def released (o : Nat) (s : State) : State :=
  setLinkState (modLink (putBit s (Reg.linkStat o) 3 false) o fun l => { l with violations := [] }) o 1

theorem linkRelease_of_quarantined (ho : o = param r 0 1) (hle : o ≤ 15) (hquarantined : regBit s (Reg.linkStat o) 3 = true) :
    linkRelease r s = (released o s, .of stOk) := by
  unfold linkRelease
  rw [← ho]
  dsimp only
  rw [if_neg (by omega), if_neg (by simp [hquarantined])]
  rfl

theorem regBit_setLinkState_quarantine (s : State) (v : Nat) (ho : o ≤ 15) :
    regBit (setLinkState s o v) (Reg.linkStat o) 3 = regBit s (Reg.linkStat o) 3 := by
  unfold setLinkState
  dsimp only
  rw [regBit_putField_outside _ _ (by decide) (.inl (linkStat_ne_fabric ho).1),
    regBit_putField_outside _ _ (by decide) (.inr (.inl (by decide))),
    regBit_putField_outside _ _ (by decide) (.inr (.inr (by decide)))]

theorem released_spec (s : State) (ho : o ≤ 15) :
    regBit (released o s) (Reg.linkStat o) 3 = false ∧ linkStateOf (released o s) o = 1 ∧ (link (released o s) o).violations = [] := by
  refine ⟨?_, linkStateOf_setLinkState _ o (by decide), ?_⟩
  · rw [released, regBit_setLinkState_quarantine _ _ ho, regBit_of (modLink_regs _ _ _), regBit_putBit_self]
  · rw [released, link_of (setLinkState_links _ _ _), link_modLink_self]

end

/-! ### The commands -/

section
variable {s : State} {r : MbReq} {x : Context} {q : Run} {p v b n k o : Nat} {cs : List Nat}

theorem exec_planUnload_spec (h : Served s 0x31 r) (hx : namedContext s r = .inl x) :
    (x.run = none → ∃ t, exec .planUnload s = .next t ∧ ctx? t x.handle = none ∧
      (∀ h, h ≠ x.handle → (ctx? t h).map (·.handle) = (ctx? s h).map (·.handle)) ∧
      ∀ q ∈ t.mbReqs, ¬ (q.fn = r.fn ∧ q.seq = r.seq ∧ q.tick = r.tick)) ∧
    (∀ q, x.run = some q → 0 < q.phases → ∃ t y, exec .planUnload s = .next t ∧ ctx? t x.handle = some y ∧ y.removing = true ∧
      ∃ w ∈ t.mbReqs, w.fn = r.fn ∧ w.seq = r.seq ∧ w.executed = true) := by
  have hexec : exec .planUnload s = .next (planUnload (committed s r) (journalStep s)) :=
    congrArg Host.Outcome.next (execReq_of_served h planUnload)
  constructor
  · intro hr
    obtain ⟨hctx, hgone⟩ := planUnload_idle (s := journalStep s) (x := x) h.1 h.mem h.2.2.1 hx hr
    refine ⟨_, hexec, (hctx _).trans (if_pos rfl), fun j hj => ?_, hgone⟩
    exact congrArg (Option.map (·.handle)) ((hctx j).trans (if_neg hj))
  · intro q hr hq
    obtain ⟨hctx, w, hw, ⟨hfn, hseq, -⟩, hexecuted⟩ := planUnload_running (s := journalStep s) (x := x) h.mem hx hr hq
    exact ⟨_, _, hexec, hctx, rfl, w, hw, hfn, hseq, hexecuted⟩

theorem exec_ctxAbort_spec (h : Served s 0x32 r) (hx : namedContext s r = .inl x) :
    (dispatchRuns x = true → ∃ t y q, exec .ctxAbort s = .next t ∧ ctx? t x.handle = some y ∧ y.run = some q ∧
      q.abortReq = true ∧ ∃ w ∈ t.mbReqs, w.fn = r.fn ∧ w.seq = r.seq ∧ w.executed = true) ∧
    (dispatchRuns x = false → ∃ t, exec .ctxAbort s = .next t ∧ Answered s t r (.of stNotRunning) ∧ t.contexts = s.contexts) := by
  have hexec : exec .ctxAbort s = .next (ctxAbort (committed s r) (journalStep s)) :=
    congrArg Host.Outcome.next (execReq_of_served h ctxAbort)
  constructor
  · intro hruns
    obtain ⟨⟨y, q, hy, hq, habort⟩, w, hw, ⟨hfn, hseq, -⟩, hexecuted⟩ :=
      ctxAbort_running (s := journalStep s) (x := x) h.mem hx hruns
    exact ⟨_, y, q, hexec, hy, hq, habort, w, hw, hfn, hseq, hexecuted⟩
  · intro hruns
    rw [ctxAbort_of_not_running (s := journalStep s) (r := committed s r) (x := x) hx hruns] at hexec
    exact ⟨_, hexec, answered_respond _ _ _ _, ((respond_same _ _ _).out .contexts rfl).symm⟩

section
variable (h : Served s 0x38 r) (hfn : r.fn = 0) (hq : param r 0 4 < 262144) (hsq : param r 4 8 % 4096 = 0)
  (hcq : param r 12 8 % 4096 = 0) (hsqLog : param r 20 1 ≤ 12) (hcqLog : param r 21 1 ≤ 12) (hchannel : param r 22 1 ≤ 31)
  (hvector : param r 23 2 ≠ 0) (hvectors : param r 23 2 ≤ 2047) (howner : rangeOwner s (param r 0 4) = 0)
include h hfn hq hsq hcq hsqLog hcqLog hchannel hvector hvectors howner

theorem exec_qpCreate_free (hfree : (qp s (param r 0 4)).mode = 0) :
    ∃ t, exec .qpCreate s = .next t ∧ Answered s t r (.of stOk) ∧
      ∀ k, qp t k = if k = param r 0 4 then createdQp r else qp s k := by
  have hexec : exec .qpCreate s = .next _ := congrArg Host.Outcome.next (execNow_of_served h qpCreate)
  rw [qpCreate_of_free (s := journalStep s) (r := committed s r) hfn hq hsq hcq hsqLog hcqLog hchannel hvector hvectors howner hfree]
    at hexec
  exact ⟨_, hexec, answered_respond _ _ _ _, fun k =>
    (qp_of ((respond_same _ _ _).out .qps rfl).symm k).trans (qp_putQp (journalStep s) _ _ k)⟩

theorem exec_qpCreate_used (hused : (qp s (param r 0 4)).mode ≠ 0) :
    ∃ t, exec .qpCreate s = .next t ∧ Answered s t r (.of stInUse) ∧ t.qps = s.qps := by
  have hexec : exec .qpCreate s = .next _ := congrArg Host.Outcome.next (execNow_of_served h qpCreate)
  rw [qpCreate_of_used (s := journalStep s) (r := committed s r) hfn hq hsq hcq hsqLog hcqLog hchannel hvector hvectors howner hused]
    at hexec
  exact ⟨_, hexec, answered_respond _ _ _ _, ((respond_same _ _ _).out .qps rfl).symm⟩

end

theorem exec_qpDelete_spec (h : Served s 0x39 r) (hp : p = param r 0 4) (hlt : p < 262144) (howner : (qp s p).owner = r.fn)
    (hmode : (qp s p).mode = 1) (hidle : qpRuns s p = false) :
    ∃ t, exec .qpDelete s = .next t ∧ Answered s t r (.of stOk) ∧ (qp t p).mode = 0 := by
  have hexec : exec .qpDelete s = .next (qpDelete (committed s r) (journalStep s)) :=
    congrArg Host.Outcome.next (execReq_of_served h qpDelete)
  rw [qpDelete_of_checks (s := journalStep s) (r := committed s r) hp hlt howner hmode hidle] at hexec
  refine ⟨_, hexec, answered_respond _ _ _ _, ?_⟩
  rw [qp_of ((respond_same _ _ _).out .qps rfl).symm, qp_forgetQp]
  rfl

theorem exec_vfQpRange_spec (h : Served s 0x3A r) (hv : v = param r 0 1) (hb : b = param r 1 4) (hn : n = param r 5 2) (hvf : v ≠ 0)
    (halign : b % 16 = 0) (hmin : 16 ≤ n) (hmax : n ≤ 1024) (hend : b + n ≤ 262144) (hqps : s.qps = []) (hranges : s.vfRanges = []) :
    ∃ t, exec .vfQpRange s = .next t ∧ Answered s t r (.of stOk) ∧ tget .reset t.vfRanges v = ⟨b, n⟩ := by
  have hexec : exec .vfQpRange s = .next _ := congrArg Host.Outcome.next (execNow_of_served h vfQpRange)
  rw [vfQpRange_of_checks (s := journalStep s) (r := committed s r) hv hb hn hvf halign hmin hmax hend hqps hranges] at hexec
  refine ⟨_, hexec, answered_respond _ _ _ _, ?_⟩
  rw [← (respond_same _ _ _).out .vfRanges rfl, tget_tput_self]

theorem exec_stepCore_spec (h : Served s 0x50 r) (hcs : cs = maskList (param r 0 8) 64) (hk : k = param r 8 1) (hle : k ≤ 7) :
    (stepRefused s cs k = 0 → ∃ t, exec .stepCore s = .next t ∧ t.mem = s.mem ∧
      ∀ c, (core t c).cmdStep = if c ∈ cs then k else (core s c).cmdStep) ∧
    (stepRefused s cs k ≠ 0 → ∃ t, exec .stepCore s = .next t ∧ Answered s t r (.det stCap (stepRefused s cs k)) ∧
      t.cores = s.cores) := by
  subst hcs hk
  have hexec : exec .stepCore s = .next (stepCore (committed s r) (journalStep s)) :=
    congrArg Host.Outcome.next (execReq_of_served h stepCore)
  constructor
  · intro hadmit
    rw [stepCore_admitted (s := journalStep s) (r := committed s r) hle hadmit] at hexec
    refine ⟨_, hexec, ?_, fun c => ?_⟩
    · exact ((answerRamps_only (m := 0xc00010802) (waitAnswer_only _ _ (onlyFold .refl fun _ ht c => commandCore_only c _ ht ⟨rfl⟩)
        ⟨rfl⟩) ⟨rfl⟩).out .mem rfl).symm
    · rw [core_of ((answerRamps_only (m := 0xc00000802) (waitAnswer_only _ _ .refl ⟨rfl⟩) ⟨rfl⟩).out .cores rfl).symm]
      exact cmdStep_commandCores _ (journalStep s) _ c
  · intro hrefused
    rw [stepCore_refused (s := journalStep s) (r := committed s r) hle hrefused] at hexec
    exact ⟨_, hexec, answered_respond _ _ _ _, ((respond_same _ _ _).out .cores rfl).symm⟩

theorem exec_stepModule_spec (h : Served s 0x51 r) (hk : k = param r 0 1) (hle : k ≤ 7) :
    (stepFree s = true → ∃ t ch, exec .stepModule s = .next t ∧ t.clock.change = some ch ∧ ch.target = k ∧ ch.armed = [] ∧
      ch.passed = false ∧ ch.commit = commitCount s (256 * (r.tick + 1)) ∧ ch.participants = (List.range 16).filter (pondRuns s) ∧
      moduleStep t = moduleStep s) ∧
    (stepFree s = false → ∃ t, exec .stepModule s = .next t ∧ Answered s t r (.of stBusy) ∧ t.clock = s.clock) := by
  subst hk
  have hexec : exec .stepModule s = .next (stepModule (committed s r) (journalStep s)) :=
    congrArg Host.Outcome.next (execReq_of_served h stepModule)
  constructor
  · intro hfree
    rw [stepModule_free (s := journalStep s) (r := committed s r) hle hfree] at hexec
    obtain ⟨hchange, hstep⟩ := startChange_spec (waitAnswer (journalStep s) (committed s r) (commitCount s (256 * (r.tick + 1))))
      (param r 0 1) (commitCount s (256 * (r.tick + 1))) (some r.fn)
    exact ⟨_, _, hexec, hchange, rfl, rfl, rfl, rfl, rfl, hstep⟩
  · intro hbusy
    rw [stepModule_busy (s := journalStep s) (r := committed s r) hle hbusy] at hexec
    exact ⟨_, hexec, answered_respond _ _ _ _, ((respond_same _ _ _).out .clock rfl).symm⟩

theorem exec_linkSleep_spec (h : Served s 0x58 r) (ho : o = param r 0 1) (hle : o ≤ 15) (hfree : (link s o).activity = 0)
    (hroom : (liveActs s).length < 64) (hup : linkUp s o = true) :
    ∃ t a, exec .linkSleep s = .next t ∧ Answered s t r a ∧ a.status = stAccepted ∧ a.detail = nextActNum s ∧
      (link t o).sleepFrom = some s.time.now ∧ linkUp t o = true := by
  have hexec : exec .linkSleep s = .next (linkSleep (committed s r) (journalStep s)) :=
    congrArg Host.Outcome.next (execReq_of_served h linkSleep)
  rw [linkSleep_of_up (s := journalStep s) (r := committed s r) ho hle hfree hroom hup] at hexec
  have hflood : Only 0x6000022 (sleepRequested (committed s r) o (journalStep s))
      (floodOwn (sleepRequested (committed s r) o (journalStep s))) := floodOwn_only .refl ⟨rfl⟩
  refine ⟨_, accepted (nextActNum s), hexec, ?_, rfl, rfl, ?_, ?_⟩
  · exact (answered_respond s (linkActivity (committed s r) (journalStep s) 0x58 o).1 r _).of_same (hflood.out .windows rfl).symm
      (hflood.out .mbReqs rfl).symm
  · rw [sleepFrom_floodOwn, sleepRequested, link_modLink_self]
    rfl
  · rw [linkUp_of_reg (reg_floodOwn_other _ (linkStat_ne_fabric hle).1 (linkStat_ne_fabric hle).2), ← hup]
    refine linkUp_of_reg ((reg_respond _ _ _ (linkStat_low hle).1 (linkStat_low hle).2).trans (reg_of ?_ _))
    exact ((linkActivity_only (m := 0x7000000000) (committed s r) 0x58 o (.refl (s0 := journalStep s)) ⟨rfl⟩).out .regs rfl).symm

theorem exec_linkWake_spec (h : Served s 0x59 r) (ho : o = param r 0 1) (hle : o ≤ 15) (hfree : (link s o).activity = 0)
    (hroom : (liveActs s).length < 64) (hasleep : linkStateOf s o = 5) :
    ∃ t a, exec .linkWake s = .next t ∧ Answered s t r a ∧ a.status = stAccepted ∧ linkStateOf t o = 1 ∧
      field t (Reg.optStat o) 4 3 = 0 := by
  have hexec : exec .linkWake s = .next _ := congrArg Host.Outcome.next (execNow_of_served h linkWake)
  rw [linkWake_of_asleep (s := journalStep s) (r := committed s r) ho hle hfree hroom hasleep] at hexec
  refine ⟨_, _, hexec, answered_respond _ _ _ _, rfl, ?_, ?_⟩
  · rw [linkStateOf_respond _ _ _ hle, linkStateOf_of_reg (reg_of (modLink_regs _ _ _) _),
      linkStateOf_setLinkState _ _ (by decide)]
  · rw [field, reg_respond _ _ _ (optStat_low hle).1 (optStat_low hle).2, reg_of (modLink_regs _ _ _), ← field,
      field_setLinkState_optStat, field_opticsWake]

theorem exec_linkRelease_spec (h : Served s 0x5A r) (ho : o = param r 0 1) (hle : o ≤ 15) :
    ∃ t, exec .linkRelease s = .next t ∧ Answered s t r (.of stOk) ∧ regBit t (Reg.linkStat o) 3 = false ∧
      (regBit s (Reg.linkStat o) 3 = true → linkStateOf t o = 1 ∧ (link t o).violations = []) ∧
      (regBit s (Reg.linkStat o) 3 = false → t.links = s.links) := by
  have hexec : exec .linkRelease s = .next _ := congrArg Host.Outcome.next (execNow_of_served h linkRelease)
  have hbit : ∀ (v : State) (a : Ans), regBit (respond v (committed s r) a) (Reg.linkStat o) 3 = regBit v (Reg.linkStat o) 3 :=
    fun v a => congrArg (bit · 3) (reg_respond v _ a (linkStat_low hle).1 (linkStat_low hle).2)
  cases hquarantined : regBit s (Reg.linkStat o) 3 with
  | false =>
    rw [linkRelease_of_free (s := journalStep s) (r := committed s r) ho hle hquarantined] at hexec
    exact ⟨_, hexec, answered_respond _ _ _ _, (hbit _ _).trans hquarantined, nofun,
      fun _ => ((respond_same _ _ _).out .links rfl).symm⟩
  | true =>
    rw [linkRelease_of_quarantined (s := journalStep s) (r := committed s r) ho hle hquarantined] at hexec
    obtain ⟨hfree, hstate, hviolations⟩ := released_spec (journalStep s) hle
    refine ⟨_, hexec, answered_respond _ _ _ _, (hbit _ _).trans hfree, fun _ => ⟨?_, ?_⟩, nofun⟩
    · rw [linkStateOf_respond _ _ _ hle, hstate]
    · rw [link_of ((respond_same _ _ _).out .links rfl).symm, hviolations]

end

/-- Settles O35: a served request is committed and its command runs on the state as it stands, so that each command is read off its own
equation; an unload of an idle context answers itself, and an answer leaves all but windows, requests and pending bits. -/
theorem mailboxContextQueueStepAndLinkCommands : Obligations.MailboxContextQueueStepAndLinkCommands := by
  refine ⟨fun s r x h hx => exec_planUnload_spec h hx, fun s r x h hx => exec_ctxAbort_spec h hx,
    fun s r q h hfn hq hlt hsq hcq hsqLog hcqLog hchannel hvector hvectors howner => ?_,
    fun s r q h hq hlt howner hmode hidle => exec_qpDelete_spec h hq hlt howner hmode hidle,
    fun s r v b n h hv hb hn hvf halign hmin hmax hend hqps hranges =>
      exec_vfQpRange_spec h hv hb hn hvf halign hmin hmax hend hqps hranges,
    fun s r cs k h hcs hk hle => exec_stepCore_spec h hcs hk hle, fun s r k h hk hle => exec_stepModule_spec h hk hle,
    fun s r o h ho hle hfree hroom hup => exec_linkSleep_spec h ho hle hfree hroom hup,
    fun s r o h ho hle hfree hroom hasleep => exec_linkWake_spec h ho hle hfree hroom hasleep,
    fun s r o h ho hle => exec_linkRelease_spec h ho hle⟩
  subst hq
  constructor
  · intro hfree
    obtain ⟨t, hexec, hanswered, hqp⟩ :=
      exec_qpCreate_free h hfn hlt hsq hcq hsqLog hcqLog hchannel hvector hvectors howner hfree
    have hself : qp t (param r 0 4) = createdQp r := (hqp _).trans (if_pos rfl)
    refine ⟨t, hexec, hanswered, ?_⟩
    rw [hself]
    exact ⟨rfl, hfn, rfl, rfl, rfl, rfl, rfl, rfl, rfl, rfl, rfl, rfl, fun k hk => (hqp k).trans (if_neg hk)⟩
  · exact exec_qpCreate_used h hfn hlt hsq hcq hsqLog hcqLog hchannel hvector hvectors howner

end Sys2Proof.Machine

/-! PROOFS. The family 06_plan_encoding: rings that settle, are late or fail over, failed channels that take a spare or are folded, and
receipts (R263, R264, R282 to R287). -/

namespace Sys2Proof.Machine

set_option Elab.async false

/-! ### What an update of one site leaves of the sites -/

section
variable {s t : State} {d g l i idx : Nat}

theorem site_modSite (s : State) (i : Nat) (f : SiteState → SiteState) (b : Nat) :
    site (modSite s i f) b = if b = i then f (site s i) else site s b := site_putSite s i _ b

/-- A reading of a site that the update of a site keeps. -/
theorem site_modSite_keeps {α : Type} (g : SiteState → α) {f : SiteState → SiteState} (s : State) (i b : Nat)
    (hf : ∀ x, g (f x) = g x := by exact fun _ => rfl) : g (site (modSite s i f) b) = g (site s b) := by
  rw [site_modSite]
  split
  · next h => rw [h, hf]
  · rfl

theorem carried_of (h30 : (site t (g / 8)).slot30 = (site s (g / 8)).slot30) (h31 : (site t (g / 8)).slot31 = (site s (g / 8)).slot31) :
    carried t g l = carried s g l := by
  unfold carried
  dsimp only
  rw [h30, h31]

theorem ringsOn_of (h : ∀ d, (site t d).rings = (site s d).rings) (g l : Nat) : ringsOn t g l = ringsOn s g l := by
  unfold ringsOn
  simp only [h]

theorem mem_ringsOn {o : Nat × Nat × Ring} :
    o ∈ ringsOn s g l ↔ o.1 < 16 ∧ (o.2.1, o.2.2) ∈ (site s o.1).rings ∧ o.2.1 / 8 = g ∧ o.2.2.lambda = l := by
  simp only [ringsOn, List.mem_flatMap, List.mem_range, List.mem_filterMap, Option.ite_none_right_eq_some, Bool.and_eq_true,
    beq_iff_eq, Option.some.injEq]
  constructor
  · rintro ⟨b, hb, e, he, ⟨hg, hl⟩, rfl⟩
    exact ⟨hb, he, hg, hl⟩
  · rintro ⟨hb, he, hg, hl⟩
    exact ⟨o.1, hb, (o.2.1, o.2.2), he, ⟨hg, hl⟩, rfl⟩

theorem mem_tins_self {α : Type} (t : Table α) (k : Nat) (v : α) : (k, v) ∈ tins t k v :=
  mem_of_tfind (by rw [tfind_tins, if_pos rfl])

end

/-! ### Transfers that go out (R266, R285) -/

/-- A site without what the sending of transfers changes of it. -/
def exceptSends (x : SiteState) : SiteState := { x with txQ := [], txCount := [], openReqs := [] }

/-- Two states whose sites differ in transfers sent and requests submitted only. -/
def SendsOnly (s t : State) : Prop := ∀ i, exceptSends (site t i) = exceptSends (site s i)

section
variable {s t u : State} {i idx : Nat}

theorem SendsOnly.trans (h : SendsOnly s t) (h' : SendsOnly t u) : SendsOnly s u := fun i => (h' i).trans (h i)

theorem SendsOnly.reads {α : Type} {g : SiteState → α} (hg : ∀ x, g (exceptSends x) = g x) (h : SendsOnly s t) (d : Nat) :
    g (site t d) = g (site s d) := by rw [← hg, h d, hg]

theorem SendsOnly.rings (h : SendsOnly s t) (d : Nat) : (site t d).rings = (site s d).rings :=
  h.reads (g := SiteState.rings) (fun _ => rfl) d
theorem SendsOnly.paused (h : SendsOnly s t) (d : Nat) : (site t d).paused = (site s d).paused :=
  h.reads (g := SiteState.paused) (fun _ => rfl) d
theorem SendsOnly.folded (h : SendsOnly s t) (d : Nat) : (site t d).folded = (site s d).folded :=
  h.reads (g := SiteState.folded) (fun _ => rfl) d
theorem SendsOnly.confirmed (h : SendsOnly s t) (d : Nat) : (site t d).confirmed = (site s d).confirmed :=
  h.reads (g := SiteState.confirmed) (fun _ => rfl) d

theorem SendsOnly.foldl {α : Type} {f : State → α → State} (hf : ∀ v a, SendsOnly v (f v a)) (l : List α) (s : State) :
    SendsOnly s (l.foldl f s) :=
  List.foldlRecOn l _ (motive := SendsOnly s) (fun _ => rfl) fun v hv a _ => hv.trans (hf v a)

theorem modSite_sendsOnly {f : SiteState → SiteState} (s : State) (i : Nat)
    (hf : ∀ x, exceptSends (f x) = exceptSends x := by exact fun _ => rfl) : SendsOnly s (modSite s i f) :=
  fun b => site_modSite_keeps exceptSends s i b hf

theorem sendFolded_sendsOnly (i : Nat) (t : Transfer) (s : State) (d : Nat) : SendsOnly s (sendFolded i t s d) := by
  unfold sendFolded
  exact SendsOnly.foldl (fun v _ => modSite_sendsOnly v i) _ s

theorem putOut_sendsOnly (s : State) (i idx : Nat) (t : Transfer) : SendsOnly s (putOut s i idx t) := by
  unfold putOut
  split
  · exact fun _ => rfl
  · exact SendsOnly.foldl (sendFolded_sendsOnly i t) _ s

theorem sendWaiting_sendsOnly (i idx : Nat) (s : State) (t : Transfer) : SendsOnly s (sendWaiting i idx s t) := by
  unfold sendWaiting
  split
  · exact fun _ => rfl
  · exact (modSite_sendsOnly s i).trans (putOut_sendsOnly _ i idx _)

theorem pumpTx_sendsOnly (s : State) (i idx : Nat) : SendsOnly s (pumpTx s i idx) :=
  SendsOnly.foldl (sendWaiting_sendsOnly i idx) _ s

theorem pumpTx_regs (s : State) (i idx : Nat) : (pumpTx s i idx).regs = s.regs :=
  ((pumpTx_only (m := 0x1000800) i idx .refl ⟨rfl⟩).out .regs rfl).symm

theorem putOuts_regs (i idx : Nat) (l : List Transfer) (s : State) : (l.foldl (fun s t => putOut s i idx t) s).regs = s.regs :=
  ((onlyFold (m := 0x1000800) .refl fun _ ht t => putOut_only i idx t ht ⟨rfl⟩).out .regs rfl).symm

end

/-! ### RING_SETTLED (R263, R283) -/

section
variable {s : State} {d n g l : Nat} {r : Ring}

theorem carried_modSite {f : SiteState → SiteState} (s : State) (i g l : Nat)
    (h30 : ∀ x, (f x).slot30 = x.slot30 := by exact fun _ => rfl) (h31 : ∀ x, (f x).slot31 = x.slot31 := by exact fun _ => rfl) :
    carried (modSite s i f) g l = carried s g l :=
  carried_of (site_modSite_keeps SiteState.slot30 s i _ h30) (site_modSite_keeps SiteState.slot31 s i _ h31)

theorem paused_pauseTx (s : State) (g l : Nat) (b : Bool) : tget false (site (pauseTx s g l b) (g / 8)).paused (carried s g l) = b := by
  unfold pauseTx
  rw [site_modSite_self]
  exact tget_tput_self _ _ _ _

theorem pauseTx_regs (s : State) (g l : Nat) (b : Bool) : (pauseTx s g l b).regs = s.regs := by
  unfold pauseTx
  exact modSite_regs _ _ _

theorem rings_pauseTx (s : State) (g l : Nat) (b : Bool) (d : Nat) : (site (pauseTx s g l b) d).rings = (site s d).rings := by
  unfold pauseTx
  exact site_modSite_keeps SiteState.rings s _ d

/-- Every ring on a channel has settled, or has failed. -/
def AllSettled (s : State) (g l : Nat) : Prop := ∀ o ∈ ringsOn s g l, o.2.2.settled = true ∨ o.2.2.failed = true

/-- The codewords from which a paused channel replays: the last good count, of those sent. -/
def replayFrom (s : State) (g l : Nat) : Nat :=
  minNat (tget 0 (site s (g / 8)).txCount (carried s g l)) ((tfind (site s (g / 8)).lastGood (carried s g l)).getD 0)

/-- The state in which a paused channel replays: no longer paused, the bytes counted, its last good count forgotten. -/
def replaying (s : State) (g l : Nat) : State :=
  modSite (addPairSat (pauseTx s g l false) (Reg.basinReplayBytes (g / 8))
    (minNat 16384 (codeBytes * (tget 0 (site s (g / 8)).txCount (carried s g l) - replayFrom s g l)))) (g / 8)
    fun x => { x with lastGood := tdel x.lastGood (carried s g l) }

/-- The transfers that a replaying channel puts out again. -/
def replayed (s : State) (g l : Nat) : List Transfer :=
  (txTransfers (replaying s g l) (g / 8) (carried s g l)).filter fun t => t.sent && replayFrom s g l < t.upTo

theorem resumeTx_eq (s : State) (g l : Nat) : resumeTx s g l =
    if (tget false (site s (g / 8)).paused (carried s g l) && (ringsOn s g l).all fun o => o.2.2.settled || o.2.2.failed) = true then
      pumpTx ((replayed s g l).foldl (fun v t => putOut v (g / 8) (carried s g l) t) (replaying s g l)) (g / 8) (carried s g l)
    else pumpTx s (g / 8) (carried s g l) := rfl

/-- The test with which a channel resumes. -/
theorem resumes_iff : (tget false (site s (g / 8)).paused (carried s g l) &&
    (ringsOn s g l).all fun o => o.2.2.settled || o.2.2.failed) = true ↔
      tget false (site s (g / 8)).paused (carried s g l) = true ∧ AllSettled s g l := by
  simp [AllSettled]

theorem replay_sendsOnly (s : State) (g l : Nat) : SendsOnly (replaying s g l)
    (pumpTx ((replayed s g l).foldl (fun v t => putOut v (g / 8) (carried s g l) t) (replaying s g l)) (g / 8) (carried s g l)) :=
  (SendsOnly.foldl (fun v t => putOut_sendsOnly v _ _ t) _ _).trans (pumpTx_sendsOnly _ _ _)

theorem rings_resumeTx (s : State) (g l d : Nat) : (site (resumeTx s g l) d).rings = (site s d).rings := by
  rw [resumeTx_eq]
  split
  · rw [(replay_sendsOnly s g l).rings, replaying, site_modSite_keeps SiteState.rings]
    exact rings_pauseTx s g l false d
  · exact (pumpTx_sendsOnly s _ _).rings d

/-- A channel all of whose rings have settled is not paused once it has resumed. -/
theorem paused_resumeTx (h : AllSettled s g l) : tget false (site (resumeTx s g l) (g / 8)).paused (carried s g l) = false := by
  rw [resumeTx_eq]
  split
  · rw [(replay_sendsOnly s g l).paused, replaying, site_modSite_keeps SiteState.paused]
    exact paused_pauseTx s g l false
  · next hnot =>
    rw [(pumpTx_sendsOnly s _ _).paused]
    exact Bool.eq_false_iff.2 fun hp => hnot (resumes_iff.2 ⟨hp, h⟩)

theorem reg_resumeTx {off : Nat} (h : off ≠ Reg.basinReplayBytes (g / 8)) (s : State) (l : Nat) :
    reg (resumeTx s g l) off = reg s off := by
  rw [resumeTx_eq]
  split
  · rw [reg_of (pumpTx_regs _ _ _), reg_of (putOuts_regs _ _ _ _), replaying, reg_of (modSite_regs _ _ _), addPairSat,
      reg_putReg_other _ _ _ _ h, reg_of (pauseTx_regs _ _ _ _)]
  · rw [reg_of (pumpTx_regs _ _ _)]

/-- An unsettled ring has settled: where it belongs to a grant, the longest settle time of its site is kept. -/
def settledRing (s : State) (d n : Nat) (r : Ring) : State :=
  let u := modSite s d fun x => { x with rings := tins x.rings n { r with settled := true } }
  if r.replacement then u
  else putReg u (Reg.basinRetuneMax d) (maxNat (reg u (Reg.basinRetuneMax d)) (minNat (s.time.now - r.since) (2 ^ 32 - 1)))

theorem ringSettled_done (hr : tfind (site s d).rings n = some r) (h : r.settled = true ∨ r.failed = true) : ringSettled d n s = s := by
  unfold ringSettled
  rw [hr]
  exact if_pos (by simpa using h)

theorem ringSettled_eq (hr : tfind (site s d).rings n = some r) (hs : r.settled = false) (hf : r.failed = false) :
    ringSettled d n s = resumeTx (settledRing s d n r) (n / 8) r.lambda := by
  unfold ringSettled
  rw [hr]
  exact if_neg (by rw [hs, hf]; decide)

theorem site_settledRing (s : State) (d n : Nat) (r : Ring) (b : Nat) : site (settledRing s d n r) b =
    site (modSite s d fun x => { x with rings := tins x.rings n { r with settled := true } }) b := by
  unfold settledRing
  dsimp only
  split
  · rfl
  · exact site_putReg _ _ _ _

theorem ringSettled_spec (hr : tfind (site s d).rings n = some r) (hs : r.settled = false) (hf : r.failed = false) :
    tfind (site (ringSettled d n s) d).rings n = some { r with settled := true } ∧
      (r.replacement = false → reg (ringSettled d n s) (Reg.basinRetuneMax d) =
        maxNat (reg s (Reg.basinRetuneMax d)) (minNat (s.time.now - r.since) (2 ^ 32 - 1))) ∧
      (AllSettled (ringSettled d n s) (n / 8) r.lambda →
        tget false (site (ringSettled d n s) (n / 8 / 8)).paused (carried s (n / 8) r.lambda) = false) := by
  rw [ringSettled_eq hr hs hf]
  refine ⟨?_, fun hrep => ?_, fun hall => ?_⟩
  · rw [rings_resumeTx, site_settledRing, site_modSite_self, tfind_tins, if_pos rfl]
  · rw [reg_resumeTx (by unfold Reg.basinRetuneMax Reg.basinReplayBytes; omega), settledRing, hrep]
    exact reg_putReg_self _ _ _
  · have hsame : carried (settledRing s d n r) (n / 8) r.lambda = carried s (n / 8) r.lambda :=
      (carried_of (congrArg SiteState.slot30 (site_settledRing s d n r _)) (congrArg SiteState.slot31 (site_settledRing s d n r _))).trans
        (carried_modSite s d _ _)
    rw [← hsame]
    refine paused_resumeTx ?_
    unfold AllSettled at hall ⊢
    rwa [ringsOn_of (rings_resumeTx _ _ _)] at hall

end

/-! ### A channel that fails (R284) -/

/-- One failed ring of a channel is released. -/
def releaseRing (s : State) (o : Nat × Nat × Ring) : State :=
  modSite s o.1 fun x => { x with rings := x.rings.filter fun e => e.1 != o.2.1 }

/-- The failure of a channel is counted, flagged and reported. -/
def chanReported (s : State) (d g l : Nat) : State :=
  raise (raiseFlag (addPairSat s (Reg.basinFailovers d) 1) (Reg.basinFlags d) 2) 4 8 (unitNo 0x0A (32 * g + l))
    (channelPart (raiseFlag (addPairSat s (Reg.basinFailovers d) 1) (Reg.basinFlags d) 2) (g / 8) (32 * (g % 8) + l)) 0 0 (srcPort d)

/-- What a failed channel owes at the end of its tick. -/
def chanDue (s : State) (g l : Nat) : SpareDue :=
  { idx := carried s g l, handle := (ringsOn s g l).head?.bind fun o => o.2.2.handle, dsts := receiversOf s g l }

/-- The transmitting site once its channel at a physical index, which carries an index, has failed. -/
def failMark (phys idx : Nat) (u : SpareDue) (x : SiteState) : SiteState :=
  { x with failedTx := tput false x.failedTx phys true, mods := tdel x.mods phys,
           slot30 := if phys == 223 then none else x.slot30, slot31 := if phys == 255 then none else x.slot31,
           paused := tput false x.paused idx true, spareDue := x.spareDue ++ [u] }

/-- The sites and reports once a channel has failed. -/
def chanFailed (s : State) (d g l : Nat) : State :=
  modSite ((ringsOn s g l).foldl releaseRing (chanReported s d g l)) (g / 8) (failMark (32 * (g % 8) + l) (carried s g l) (chanDue s g l))

section
variable {s t : State} {d g l n k : Nat} {r : Ring}

theorem failChannel_eq (s : State) (d g l : Nat) : failChannel s d g l =
    if (32 * (g % 8) + l == carried s g l && !openIndex (carried s g l)) = true then chanFailed s d g l
    else putField (chanFailed s d g l) (Reg.basinTxch (g / 8) (32 * (g % 8) + l)) 31 30 3 := rfl

theorem site_failChannel (s : State) (d g l b : Nat) : site (failChannel s d g l) b = site (chanFailed s d g l) b := by
  rw [failChannel_eq]
  split
  · rfl
  · exact site_putReg _ _ _ _

/-- The releases of rings leave what does not read a site's rings. -/
theorem releaseRings_keeps {α : Type} (f : SiteState → α) (os : List (Nat × Nat × Ring)) (s : State) (b : Nat)
    (hf : ∀ x rs, f { x with rings := rs } = f x := by exact fun _ _ => rfl) :
    f (site (os.foldl releaseRing s) b) = f (site s b) :=
  List.foldlRecOn os _ (motive := fun t => f (site t b) = f (site s b)) rfl fun t ht o _ =>
    (site_modSite_keeps f t o.1 b fun x => hf x _).trans ht

/-- A ring that is left after releases was there before, and is none of those released. -/
theorem mem_rings_of_release {os : List (Nat × Nat × Ring)} {s : State} {b : Nat} {e : Nat × Ring}
    (h : e ∈ (site (os.foldl releaseRing s) b).rings) : e ∈ (site s b).rings ∧ ∀ o ∈ os, o.1 = b → e.1 ≠ o.2.1 := by
  induction os generalizing s with
  | nil => exact ⟨h, nofun⟩
  | cons o os ih =>
    obtain ⟨hmem, hos⟩ := ih h
    unfold releaseRing at hmem
    rw [site_modSite] at hmem
    by_cases hb : b = o.1
    · rw [if_pos hb, List.mem_filter] at hmem
      exact ⟨hb ▸ hmem.1, List.forall_mem_cons.2 ⟨fun _ => by simpa using hmem.2, hos⟩⟩
    · rw [if_neg hb] at hmem
      exact ⟨hmem, List.forall_mem_cons.2 ⟨fun he => absurd he.symm hb, hos⟩⟩

/-- No ring is left on a failed channel. -/
theorem ringsOn_failChannel (s : State) (d g l : Nat) : ringsOn (failChannel s d g l) g l = [] := by
  refine List.eq_nil_iff_forall_not_mem.2 fun o ho => ?_
  obtain ⟨hsite, hmem, hguide, hlambda⟩ := mem_ringsOn.1 ho
  rw [site_failChannel, chanFailed, site_modSite_keeps SiteState.rings] at hmem
  obtain ⟨hmem, hnot⟩ := mem_rings_of_release hmem
  exact hnot o (mem_ringsOn.2 ⟨hsite, hmem, hguide, hlambda⟩) rfl rfl

theorem site_failChannel_transmitter (s : State) (d g l : Nat) : site (failChannel s d g l) (g / 8) =
    failMark (32 * (g % 8) + l) (carried s g l) (chanDue s g l)
      (site ((ringsOn s g l).foldl releaseRing (chanReported s d g l)) (g / 8)) := by
  rw [site_failChannel, chanFailed, site_modSite_self]

theorem failedTx_failChannel (s : State) (d g l : Nat) :
    tget false (site (failChannel s d g l) (g / 8)).failedTx (32 * (g % 8) + l) = true := by
  simp only [site_failChannel_transmitter, failMark, tget_tput_self]

theorem paused_failChannel (s : State) (d g l : Nat) :
    tget false (site (failChannel s d g l) (g / 8)).paused (carried s g l) = true := by
  simp only [site_failChannel_transmitter, failMark, tget_tput_self]

theorem spareDue_failChannel (s : State) (d g l : Nat) :
    (site (failChannel s d g l) (g / 8)).spareDue = (site s (g / 8)).spareDue ++ [chanDue s g l] := by
  rw [site_failChannel_transmitter]
  exact congrArg (· ++ [chanDue s g l]) (releaseRings_keeps SiteState.spareDue _ (chanReported s d g l) _)

theorem regBit_raiseFlag (s : State) (off i b j : Nat) :
    regBit (raiseFlag s off i) b j = if b = off ∧ j = i then true else regBit s b j := regBit_putBit s off i b j true

/-- A failure that a site counts sets its flag, and no other. -/
theorem regBit_counted (s : State) (d i j : Nat) : regBit (raiseFlag (addPairSat s (Reg.basinFailovers d) 1) (Reg.basinFlags d) i)
    (Reg.basinFlags d) j = if j = i then true else regBit s (Reg.basinFlags d) j := by
  have hother : Reg.basinFlags d ≠ Reg.basinFailovers d := by unfold Reg.basinFlags Reg.basinFailovers; omega
  rw [regBit_raiseFlag, addPairSat, regBit, reg_putReg_other _ _ _ _ hother]
  simp only [true_and, regBit]

theorem regBit_chanFailed (s : State) (d g l j : Nat) : regBit (chanFailed s d g l) (Reg.basinFlags d) j =
    if j = 2 then true else regBit s (Reg.basinFlags d) j := by
  have hrelease : ((ringsOn s g l).foldl releaseRing (chanReported s d g l)).regs = (chanReported s d g l).regs :=
    ((onlyFold (m := 0x1000000) .refl fun _ ht _ => modSite_only _ _ ht ⟨rfl⟩).out .regs rfl).symm
  rw [chanFailed, regBit_of (modSite_regs _ _ _), regBit_of hrelease, chanReported, regBit_of (raise_regs _ _ _ _ _ _ _ _), regBit_counted]

/-- A channel's failure sets its own flag, and leaves the other flags of its receiver. -/
theorem regBit_failChannel (s : State) (d g l : Nat) {j : Nat} (hj : j < 30) : regBit (failChannel s d g l) (Reg.basinFlags d) j =
    if j = 2 then true else regBit s (Reg.basinFlags d) j := by
  rw [failChannel_eq]
  split
  · exact regBit_chanFailed s d g l j
  · rw [regBit_putField_outside _ _ (by decide) (.inr (.inl hj))]
    exact regBit_chanFailed s d g l j

/-! ### CHANNEL_FAILED and RETUNE_LATE (R264, R282 to R284) -/

theorem channelFailed_early (hr : tfind (site s d).rings n = some r) (h : s.time.now < r.since + 4000) : channelFailed d n s = s := by
  unfold channelFailed
  rw [hr]
  exact if_pos (by simp [h])

theorem channelFailed_due (hr : tfind (site s d).rings n = some r) (hs : r.settled = false) (hf : r.failed = false)
    (hrep : r.replacement = true) (h : r.since + 4000 ≤ s.time.now) : channelFailed d n s = failChannel s d (n / 8) r.lambda := by
  unfold channelFailed
  rw [hr]
  exact if_neg (by simp [hs, hf, hrep, h])

theorem retuneLate_early (hr : tfind (site s d).rings n = some r) (h : s.time.now < r.since + 4000) : retuneLate d n s = s := by
  unfold retuneLate
  rw [hr]
  exact if_pos (by simp [h])

theorem retuneLate_due (hr : tfind (site s d).rings n = some r) (hs : r.settled = false) (hf : r.failed = false)
    (hrep : r.replacement = false) (h : r.since + 4000 ≤ s.time.now) :
    retuneLate d n s = failRing (raiseFlag s (Reg.basinFlags d) 0) d n := by
  unfold retuneLate
  rw [hr]
  exact if_neg (by simp [hs, hf, hrep, h])

/-- A site keeps the lowest last good count of a channel. -/
def keepGood (idx good : Nat) (x : SiteState) : SiteState :=
  { x with lastGood := tput 0 x.lastGood idx (match tfind x.lastGood idx with
    | some m => minNat m good
    | none => good) }

/-- A ring is shown as failed. -/
def showFailed (n : Nat) (r : Ring) (x : SiteState) : SiteState := { x with rings := tins x.rings n { r with failed := true } }

/-- A ring that fails is reported, counted and shown as failed, and its transmitter keeps the lowest last good count (R282, R283). -/
def ringOut (s : State) (d n : Nat) (r : Ring) : State :=
  raiseFlag (addPairSat
    (modSite (modSite (raise s 4 7 (unitNo 0x0B (1024 * d + n)) (ringOwner s r) 0 0 (srcPort d)) d (showFailed n r)) (n / 8 / 8)
      (keepGood (carried s (n / 8) r.lambda) r.good)) (Reg.basinFailovers d) 1) (Reg.basinFlags d) 1

/-- A reading of a site that is neither of its rings nor of its last good counts stands when a ring fails. -/
theorem ringOut_keeps {α : Type} (f : SiteState → α) (s : State) (d n : Nat) (r : Ring) (b : Nat)
    (hrings : ∀ x rs, f { x with rings := rs } = f x := by exact fun _ _ => rfl)
    (hgood : ∀ x gs, f { x with lastGood := gs } = f x := by exact fun _ _ => rfl) : f (site (ringOut s d n r) b) = f (site s b) :=
  (site_modSite_keeps f (modSite s d (showFailed n r)) (n / 8 / 8) b fun x => hgood x _).trans
    (site_modSite_keeps f s d b fun x => hrings x _)

theorem rings_ringOut (s : State) (d n : Nat) (r : Ring) :
    (site (ringOut s d n r) d).rings = tins (site s d).rings n { r with failed := true } :=
  (site_modSite_keeps SiteState.rings (f := keepGood (carried s (n / 8) r.lambda) r.good) (modSite s d (showFailed n r)) _ d).trans
    (congrArg SiteState.rings (site_modSite_self s d (showFailed n r)))

theorem carried_ringOut (s : State) (d n : Nat) (r : Ring) (g l : Nat) : carried (ringOut s d n r) g l = carried s g l :=
  carried_of (ringOut_keeps SiteState.slot30 s d n r _) (ringOut_keeps SiteState.slot31 s d n r _)

theorem regBit_ringOut (s : State) (d n : Nat) (r : Ring) (j : Nat) : regBit (ringOut s d n r) (Reg.basinFlags d) j =
    if j = 1 then true else regBit s (Reg.basinFlags d) j := by
  rw [ringOut, regBit_counted]
  rfl

theorem tfind_of_freeRing (h : freeRing? s d g = some k) : tfind (site s d).rings (8 * g + k) = none := by
  simpa using List.find?_some h

/-- A ring that fails stays in its place: the same rings of its guide are free. -/
theorem freeRing_ringOut (hr : tfind (site s d).rings n = some r) (g : Nat) : freeRing? (ringOut s d n r) d g = freeRing? s d g := by
  unfold freeRing?
  rw [rings_ringOut]
  refine List.find?_congr fun k _ => ?_
  rw [tfind_tins]
  split
  · next h => rw [h, hr]; rfl
  · rfl

/-- Tuning a ring leaves what does not read a site's rings. -/
theorem tuneRing_keeps {α : Type} (g : SiteState → α) (s : State) (d e l : Nat) (h : Option Nat) (part : Nat) (f : Ring → Ring)
    (b : Nat) (hg : ∀ x rs, g { x with rings := rs } = g x := by exact fun _ _ => rfl) :
    g (site (tuneRing s d e l h part f) b) = g (site s b) := by
  unfold tuneRing
  split
  · rfl
  · exact site_modSite_keeps g s d b fun x => hg x _

/-- The ring that takes the channel of one that fails. -/
def replacementRing (s : State) (d g k : Nat) (r : Ring) : Ring :=
  { ringAt s d g k r.lambda r.handle r.part with good := r.good, replacement := true }

/-- A ring that fails, and ring k of its guide tuned in its place. -/
def retuned (s : State) (d n k : Nat) (r : Ring) : State :=
  modSite (ringOut s d n r) d fun x =>
    { x with rings := tins x.rings (8 * (n / 8) + k) (replacementRing (ringOut s d n r) d (n / 8) k r) }

theorem failRing_unfold (hr : tfind (site s d).rings n = some r) (hf : r.failed = false) (hrep : r.replacement = false) :
    failRing s d n = if (freeRing? (ringOut s d n r) d (n / 8)).isNone = true then failChannel (ringOut s d n r) d (n / 8) r.lambda
      else pauseTx (tuneRing (ringOut s d n r) d (n / 8) r.lambda r.handle r.part fun q => { q with good := r.good, replacement := true })
        (n / 8) r.lambda true := by
  unfold failRing
  rw [hr]
  dsimp only
  rw [if_neg (by rw [hf]; decide), if_neg (by rw [hrep]; exact Bool.false_ne_true)]
  rfl

theorem failRing_of_free (hr : tfind (site s d).rings n = some r) (hf : r.failed = false) (hrep : r.replacement = false)
    (hk : freeRing? s d (n / 8) = some k) : failRing s d n = pauseTx (retuned s d n k r) (n / 8) r.lambda true := by
  have hfree := (freeRing_ringOut hr (n / 8)).trans hk
  rw [failRing_unfold hr hf hrep, if_neg (by rw [hfree]; exact Bool.false_ne_true), tuneRing, hfree]
  rfl

theorem failRing_of_full (hr : tfind (site s d).rings n = some r) (hf : r.failed = false) (hrep : r.replacement = false)
    (hk : freeRing? s d (n / 8) = none) : failRing s d n = failChannel (ringOut s d n r) d (n / 8) r.lambda := by
  rw [failRing_unfold hr hf hrep, if_pos (by rw [freeRing_ringOut hr, hk]; rfl)]

/-- The flags of a site whose ring fails: the ring's own, and the channel's where no ring of the guide is free. -/
theorem regBit_failRing (hr : tfind (site s d).rings n = some r) (hf : r.failed = false) (hrep : r.replacement = false) {j : Nat}
    (hj : j < 30) : regBit (failRing s d n) (Reg.basinFlags d) j =
      if j = 1 ∨ (j = 2 ∧ freeRing? s d (n / 8) = none) then true else regBit s (Reg.basinFlags d) j := by
  cases hk : freeRing? s d (n / 8) with
  | none =>
    rw [failRing_of_full hr hf hrep hk, regBit_failChannel _ _ _ _ hj, regBit_ringOut]
    split <;> simp_all
  | some k =>
    rw [failRing_of_free hr hf hrep hk, regBit_of (pauseTx_regs _ _ _ _), retuned, regBit_of (modSite_regs _ _ _), regBit_ringOut]
    simp

theorem paused_failRing (hr : tfind (site s d).rings n = some r) (hf : r.failed = false) (hrep : r.replacement = false) :
    tget false (site (failRing s d n) (n / 8 / 8)).paused (carried s (n / 8) r.lambda) = true := by
  rw [← carried_ringOut s d n r]
  cases hk : freeRing? s d (n / 8) with
  | none =>
    rw [failRing_of_full hr hf hrep hk]
    exact paused_failChannel _ _ _ _
  | some k =>
    have hretuned : carried (retuned s d n k r) (n / 8) r.lambda = carried (ringOut s d n r) (n / 8) r.lambda := carried_modSite _ _ _ _
    rw [failRing_of_free hr hf hrep hk, ← hretuned]
    exact paused_pauseTx _ _ _ _

/-- A free ring of the guide takes the channel of a ring that fails. -/
theorem rings_failRing (hr : tfind (site s d).rings n = some r) (hf : r.failed = false) (hrep : r.replacement = false)
    (hk : freeRing? s d (n / 8) = some k) : tfind (site (failRing s d n) d).rings n = some { r with failed := true } ∧
      tfind (site (failRing s d n) d).rings (8 * (n / 8) + k) = some (replacementRing (ringOut s d n r) d (n / 8) k r) := by
  have hne : n ≠ 8 * (n / 8) + k := fun h => by
    have hnone := tfind_of_freeRing hk
    rw [← h, hr] at hnone
    cases hnone
  rw [failRing_of_free hr hf hrep hk, rings_pauseTx, retuned, site_modSite_self, rings_ringOut]
  constructor
  · rw [tfind_tins, if_neg hne, tfind_tins, if_pos rfl]
  · rw [tfind_tins, if_pos rfl]

end

/-! ### A failed channel takes its place (R284, R285, R287) -/

section
variable {s : State} {i idx : Nat} {h : Option Nat} {ds : List (Nat × Nat × Nat)}

/-- Lighting a modulator leaves what does not read a site's modulators. -/
theorem lightMod_keeps {α : Type} (f : SiteState → α) (s : State) (i idx b : Nat)
    (hf : ∀ x ms, f { x with mods := ms } = f x := by exact fun _ _ => rfl) : f (site (lightMod s i idx) b) = f (site s b) := by
  unfold lightMod
  split
  · rfl
  · refine site_modSite_keeps f s i b fun x => ?_
    split
    · rfl
    · exact hf x _

/-- A spare slot carries an index. -/
def fillSlot (idx : Nat) (slot31 : Bool) (x : SiteState) : SiteState :=
  { x with slot30 := if slot31 then x.slot30 else some idx, slot31 := if slot31 then some idx else x.slot31 }

/-- An index that takes a spare slot changes that slot, and beyond it only modulators and rings. -/
theorem takeSlot_keeps {α : Type} (f : SiteState → α) (s : State) (i idx : Nat) (slot31 : Bool) (h : Option Nat)
    (ds : List (Nat × Nat × Nat)) (b : Nat) (hrings : ∀ x rs, f { x with rings := rs } = f x := by exact fun _ _ => rfl)
    (hmods : ∀ x ms, f { x with mods := ms } = f x := by exact fun _ _ => rfl) :
    f (site (takeSlot s i idx slot31 h ds) b) = f (site (modSite s i (fillSlot idx slot31)) b) :=
  List.foldlRecOn ds _ (motive := fun t => f (site t b) = f (site (modSite s i (fillSlot idx slot31)) b)) (lightMod_keeps f _ i idx b hmods)
    fun t ht _ _ => (tuneRing_keeps f t _ _ _ _ _ _ b hrings).trans ht

theorem slot30_placeIndex (h30 : spareOk s i false (ds.map (·.1)) = true) : (site (placeIndex s i idx h ds) i).slot30 = some idx := by
  unfold placeIndex
  rw [if_pos h30, takeSlot_keeps SiteState.slot30, site_modSite_self]
  rfl

theorem slot31_placeIndex (h30 : spareOk s i false (ds.map (·.1)) = false) (h31 : spareOk s i true (ds.map (·.1)) = true) :
    (site (placeIndex s i idx h ds) i).slot31 = some idx := by
  unfold placeIndex
  rw [if_neg (Bool.eq_false_iff.1 h30), if_pos h31, takeSlot_keeps SiteState.slot31, site_modSite_self]
  rfl

/-- A channel without a spare is shown as folded, and flagged. -/
def showFolded (s : State) (i idx : Nat) : State :=
  modSite (raiseFlag s (Reg.basinFlags i) 3) i fun x =>
    { x with folded := tput false x.folded idx true, paused := tput false x.paused idx false }

theorem foldIndex_sendsOnly (s : State) (i idx : Nat) : SendsOnly (showFolded s i idx) (foldIndex s i idx) :=
  (SendsOnly.foldl (fun v t => putOut_sendsOnly v i idx t) _ _).trans (pumpTx_sendsOnly _ i idx)

theorem foldIndex_spec (s : State) (i idx : Nat) :
    tget false (site (foldIndex s i idx) i).folded idx = true ∧ regBit (foldIndex s i idx) (Reg.basinFlags i) 3 = true := by
  constructor
  · rw [(foldIndex_sendsOnly s i idx).folded, showFolded, site_modSite_self, tget_tput_self]
  · have hregs : (foldIndex s i idx).regs = (showFolded s i idx).regs := (pumpTx_regs _ _ _).trans (putOuts_regs _ _ _ _)
    rw [regBit_of hregs, showFolded, regBit_of (modSite_regs _ _ _), regBit_raiseFlag_self]

theorem placeIndex_folds (h30 : spareOk s i false (ds.map (·.1)) = false) (h31 : spareOk s i true (ds.map (·.1)) = false)
    (hopen : openIndex idx = false) : placeIndex s i idx h ds =
      foldIndex (raise s 4 9 (unitNo 0x0A (256 * i + idx)) (channelPart s i idx) 0 0 (srcPort i)) i idx := by
  unfold placeIndex
  rw [if_neg (Bool.eq_false_iff.1 h30), if_neg (Bool.eq_false_iff.1 h31), if_neg (Bool.eq_false_iff.1 hopen)]

end

/-! ### RECEIPT_CONFIRMATION (R282) -/

theorem minNat_eq_min (a b : Nat) : minNat a b = min a b := by
  unfold minNat; split <;> omega

/-- The lowest of a number and of what a list's members have: at most each of them, and one of them. -/
theorem foldl_minNat {α : Type} (f : α → Nat) (l : List α) (m : Nat) :
    l.foldl (fun m o => minNat m (f o)) m ≤ m ∧ (∀ o ∈ l, l.foldl (fun m o => minNat m (f o)) m ≤ f o) ∧
      (l.foldl (fun m o => minNat m (f o)) m = m ∨ ∃ o ∈ l, l.foldl (fun m o => minNat m (f o)) m = f o) := by
  induction l generalizing m with
  | nil => exact ⟨Nat.le_refl m, nofun, .inl rfl⟩
  | cons a l ih =>
    obtain ⟨hle, hall, hex⟩ := ih (minNat m (f a))
    rw [List.foldl_cons]
    generalize l.foldl (fun m o => minNat m (f o)) (minNat m (f a)) = v at hle hall hex ⊢
    rw [minNat_eq_min] at hle hex
    refine ⟨by omega, List.forall_mem_cons.2 ⟨by omega, hall⟩, ?_⟩
    obtain hv | ⟨o, ho, hv⟩ := hex
    · rcases Nat.le_total m (f a) with hm | hm
      · exact .inl (by omega)
      · exact .inr ⟨a, List.mem_cons_self, by omega⟩
    · exact .inr ⟨o, List.mem_cons_of_mem _ ho, hv⟩

section
variable {s : State} {d g l n : Nat} {e : Nat × Ring}

/-- A receiver's ring with the good codewords that a confirmation names, of those sent. -/
def confirmedRing (s : State) (g l n : Nat) (r : Ring) : Ring :=
  { r with good := maxNat r.good (minNat n (tget 0 (site s (g / 8)).txCount (carried s g l))) }

/-- A receiver's count is taken. -/
def countTaken (s : State) (d g l n : Nat) (e : Nat × Ring) : State :=
  modSite s d fun x => { x with rings := tins x.rings e.1 (confirmedRing s g l n e.2) }

/-- The lowest count of the receivers of a channel. -/
def lowestGood (s : State) (d g l n : Nat) (e : Nat × Ring) : Nat :=
  ((ringsOn (countTaken s d g l n e) g l).filter fun o => !o.2.2.failed).foldl (fun m o => minNat m o.2.2.good)
    (confirmedRing s g l n e.2).good

theorem receiptConfirmation_of_no_ring
    (h : (site s d).rings.find? (fun e => e.1 / 8 == g && e.2.lambda == l && !e.2.failed) = none) : receiptConfirmation d g l n s = s := by
  unfold receiptConfirmation
  rw [h]

theorem receiptConfirmation_eq
    (h : (site s d).rings.find? (fun e => e.1 / 8 == g && e.2.lambda == l && !e.2.failed) = some e) : receiptConfirmation d g l n s =
      pumpTx (modSite (countTaken s d g l n e) (g / 8) fun x =>
        { x with confirmed := tput 0 x.confirmed (carried s g l) (lowestGood s d g l n e) }) (g / 8) (carried s g l) := by
  unfold receiptConfirmation
  rw [h]
  rfl

theorem receiptConfirmation_spec (hd : d < 16)
    (h : (site s d).rings.find? (fun e => e.1 / 8 == g && e.2.lambda == l && !e.2.failed) = some e) :
    (d, e.1, confirmedRing s g l n e.2) ∈ ringsOn (receiptConfirmation d g l n s) g l ∧
      (∀ o ∈ ringsOn (receiptConfirmation d g l n s) g l, o.2.2.failed = false →
        tget 0 (site (receiptConfirmation d g l n s) (g / 8)).confirmed (carried s g l) ≤ o.2.2.good) ∧
      ∃ o ∈ ringsOn (receiptConfirmation d g l n s) g l, o.2.2.failed = false ∧
        tget 0 (site (receiptConfirmation d g l n s) (g / 8)).confirmed (carried s g l) = o.2.2.good := by
  have hring := List.find?_some h
  simp only [Bool.and_eq_true, beq_iff_eq, Bool.not_eq_true'] at hring
  obtain ⟨⟨hguide, hlambda⟩, hfailed⟩ := hring
  have hrings : ringsOn (receiptConfirmation d g l n s) g l = ringsOn (countTaken s d g l n e) g l := by
    refine ringsOn_of (fun b => ?_) g l
    rw [receiptConfirmation_eq h, (pumpTx_sendsOnly _ _ _).rings, site_modSite_keeps SiteState.rings]
  have hconfirmed : tget 0 (site (receiptConfirmation d g l n s) (g / 8)).confirmed (carried s g l) = lowestGood s d g l n e := by
    rw [receiptConfirmation_eq h, (pumpTx_sendsOnly _ _ _).confirmed, site_modSite_self, tget_tput_self]
  have hself : (d, e.1, confirmedRing s g l n e.2) ∈ ringsOn (countTaken s d g l n e) g l := by
    refine mem_ringsOn.2 ⟨hd, ?_, hguide, hlambda⟩
    rw [countTaken, site_modSite_self]
    exact mem_tins_self _ _ _
  obtain ⟨-, hall, hex⟩ := foldl_minNat (fun o : Nat × Nat × Ring => o.2.2.good)
    ((ringsOn (countTaken s d g l n e) g l).filter fun o => !o.2.2.failed) (confirmedRing s g l n e.2).good
  rw [hrings, hconfirmed]
  refine ⟨hself, fun o ho hof => hall o (List.mem_filter.2 ⟨ho, by rw [hof]; rfl⟩), ?_⟩
  obtain hlow | ⟨o, ho, hlow⟩ := hex
  · exact ⟨_, hself, hfailed, hlow⟩
  · obtain ⟨ho, hof⟩ := List.mem_filter.1 ho
    exact ⟨o, ho, by simpa using hof, hlow⟩

end

end Sys2Proof.Machine

/-! PROOFS. The family 06_plan_encoding: transfers, post tokens and credits that arrive at a site (R213, R265 to R268, R271, R285,
R294). -/

namespace Sys2Proof.Machine

set_option Elab.async false

/-! ### A transfer is taken (R266, R271, R282) -/

section
variable {s t : State} {d g l i idx : Nat} {u : Transfer}

theorem sharersOf_of (h : ∀ b, (site t b).sharers = (site s b).sharers) (a n : Nat) : sharersOf t a n = sharersOf s a n := by
  unfold sharersOf
  simp only [h]

theorem sharers_takeTransfer (s : State) (i idx d : Nat) (u : Transfer) (b : Nat) :
    (site (takeTransfer s i idx d u) b).sharers = (site s b).sharers := by
  unfold takeTransfer
  dsimp only
  split
  · rw [site_modSite_keeps SiteState.sharers, putTransfers, site_modSite_keeps SiteState.sharers]
  · rw [site_modSite_keeps SiteState.sharers, putTransfers, site_modSite_keeps SiteState.sharers]

theorem takeTransfer_sites (s : State) (i idx d : Nat) (u : Transfer) : Only 0x1000000 s (takeTransfer s i idx d u) :=
  takeTransfer_only i idx d u .refl ⟨rfl⟩

theorem takeTransfer_contexts (s : State) (i idx d : Nat) (u : Transfer) : (takeTransfer s i idx d u).contexts = s.contexts :=
  ((takeTransfer_sites s i idx d u).out .contexts rfl).symm

/-- The state once a site has taken a transfer, and the read that it answers has been told. -/
def transferTaken (s : State) (d g l : Nat) (u : Transfer) : State := readTaken (takeTransfer s (g / 8) (carried s g l) d u) d u

theorem transferTaken_only (s : State) (d g l : Nat) (u : Transfer) : Only 0x1010000 s (transferTaken s d g l u) :=
  readTaken_only d u ((takeTransfer_sites _ _ _ d u).mono ⟨rfl⟩) ⟨rfl⟩

theorem transferTaken_contexts (s : State) (d g l : Nat) (u : Transfer) : (transferTaken s d g l u).contexts = s.contexts :=
  ((transferTaken_only s d g l u).out .contexts rfl).symm

theorem byteAt_transferTaken (s : State) (d g l : Nat) (u : Transfer) (z : Nat) : byteAt (transferTaken s d g l u) z = byteAt s z :=
  byteAt_of ((transferTaken_only s d g l u).out .mem rfl).symm ((transferTaken_only s d g l u).out .written rfl).symm z

theorem poisonedAt_transferTaken (s : State) (d g l : Nat) (u : Transfer) (z : Nat) :
    poisonedAt (transferTaken s d g l u) z = poisonedAt s z :=
  poisonedAt_of ((transferTaken_only s d g l u).out .poison rfl).symm ((transferTaken_only s d g l u).out .corePoison rfl).symm
    ((transferTaken_only s d g l u).out .written rfl).symm z

/-- A transfer that answers no read changes sites only. -/
theorem transferTaken_of_no_read (hreq : u.req = none) :
    transferTaken s d g l u = takeTransfer s (g / 8) (carried s g l) d u := by
  unfold transferTaken readTaken
  rw [hreq]

end

/-! ### What becomes of an arrival on a channel (R230, R266 to R268) -/

section
variable {s : State} {d g l : Nat} {u : Transfer} {x y : Context} {k : CtxCore}

/-- What arrives as the next transfer of its channel is that transfer. -/
theorem next_matches (hnext : nextTransfer? s (g / 8) (carried s g l) d = some u) :
    (nextTransfer? s (g / 8) (carried s g l) d).filter (fun t => t.hdr == u.hdr && t.data == u.data) = some u := by
  simp [hnext, Option.filter]

theorem scheduledData_mismatch {h : ChanHdr} {bs : List Byte} (hto : chanTo s d g l h.context.val h.dstLocal.val = .mismatch) :
    scheduledData d g l h bs s = ctxDiscard s d := by
  unfold scheduledData
  simp only [hto]

theorem scheduledData_nothing {h : ChanHdr} {bs : List Byte} (hto : chanTo s d g l h.context.val h.dstLocal.val = .nothing) :
    scheduledData d g l h bs s = s := by
  unfold scheduledData
  simp only [hto]

/-- What is not the channel's next transfer changes nothing. -/
theorem scheduledData_not_next {h : ChanHdr} {bs : List Byte} (hto : chanTo s d g l h.context.val h.dstLocal.val ≠ .mismatch)
    (hnext : ((nextTransfer? s (g / 8) (carried s g l) d).filter fun t => t.hdr == h && t.data == bs) = none) :
    scheduledData d g l h bs s = s := by
  unfold scheduledData
  cases hc : chanTo s d g l h.context.val h.dstLocal.val with
  | mismatch => exact absurd hc hto
  | nothing => rfl
  | noCore => simp only [hnext]
  | core x k => simp only [hnext]

/-- A stack in self refresh takes none (R230). -/
theorem scheduledData_asleep (hto : chanTo s d g l u.hdr.context.val u.hdr.dstLocal.val ≠ .mismatch)
    (hnext : nextTransfer? s (g / 8) (carried s g l) d = some u) (hnear : u.near = true) (hsleep : stackAsleep s d = true) :
    scheduledData d g l u.hdr u.data s = s := by
  unfold scheduledData
  cases hc : chanTo s d g l u.hdr.context.val u.hdr.dstLocal.val with
  | mismatch => exact absurd hc hto
  | nothing => rfl
  | noCore => simp only [next_matches hnext, hnear, hsleep, Bool.and_self, if_true]
  | core x k => simp only [next_matches hnext, hnear, hsleep, Bool.and_self, if_true]

theorem scheduledData_core (hto : chanTo s d g l u.hdr.context.val u.hdr.dstLocal.val = .core x k)
    (hnext : nextTransfer? s (g / 8) (carried s g l) d = some u) (hnear : u.near = false) (hy : ctx? s u.handle = some y) :
    scheduledData d g l u.hdr u.data s = takeData (transferTaken s d g l u) y k u := by
  have hctx := (ctxQ_of (transferTaken_contexts s d g l u) u.handle).trans hy
  unfold transferTaken at hctx
  unfold scheduledData
  simp only [hto, next_matches hnext, hnear, Bool.false_and, Bool.false_eq_true, if_false, hctx, transferTaken]

theorem scheduledData_near (hto : chanTo s d g l u.hdr.context.val u.hdr.dstLocal.val = .noCore)
    (hnext : nextTransfer? s (g / 8) (carried s g l) d = some u) (hnear : u.near = true) (hawake : stackAsleep s d = false)
    (hy : ctx? s u.handle = some y) : scheduledData d g l u.hdr u.data s = takeNear (transferTaken s d g l u) y u := by
  have hctx := (ctxQ_of (transferTaken_contexts s d g l u) u.handle).trans hy
  unfold transferTaken at hctx
  unfold scheduledData
  simp only [hto, next_matches hnext, hnear, hawake, Bool.and_false, Bool.false_eq_true, if_false, if_true, hctx, transferTaken]

/-- A transfer for a core that the context does not have is discarded. -/
theorem scheduledData_noCore (hto : chanTo s d g l u.hdr.context.val u.hdr.dstLocal.val = .noCore)
    (hnext : nextTransfer? s (g / 8) (carried s g l) d = some u) (hnear : u.near = false) :
    scheduledData d g l u.hdr u.data s = transferTaken s d g l u := by
  unfold scheduledData
  simp only [hto, next_matches hnext, hnear, Bool.false_and, Bool.false_eq_true, if_false]
  cases ctx? (readTaken (takeTransfer s (g / 8) (carried s g l) d u) d u) u.handle with
  | none => rfl
  | some y => rfl

end

/-! ### A core takes a transfer (R183, R265, R267) -/

/-- A core's region with a transfer's data, and its move told of the arrival. -/
def dataTaken (s : State) (k : CtxCore) (u : Transfer) : State :=
  let a := regionAddr k (32 * u.hdr.dstOff)
  let r := writeMem s a u.data u.poison
  match u.move with
  | some id => modMove r.1 u.core id fun m =>
      { m with dst := if u.hdr.ctrEn || m.kind == 4 then m.dst.filter (· != a) else m.dst,
               dstCores := if u.hdr.ctrEn then m.dstCores.filter (· != k.core) else m.dstCores,
               bad := if r.2 && m.bad == .ok then .poison else m.bad }
  | none => r.1

section
variable {s : State} {x : Context} {k : CtxCore} {u : Transfer} {a : Nat}

theorem takeData_eq (hok : regionOk x (32 * u.hdr.dstOff) u.data.length = true) : takeData s x k u =
    if u.hdr.ctrEn then postCounter (dataTaken s k u) x k.core u.hdr.ctr.val u.hdr.amount.val else dataTaken s k u := by
  unfold takeData
  dsimp only
  rw [hok]
  rfl

theorem dataTaken_only (s : State) (k : CtxCore) (u : Transfer) :
    Only 0x10000 (writeMem s (regionAddr k (32 * u.hdr.dstOff)) u.data u.poison).1 (dataTaken s k u) := by
  unfold dataTaken
  dsimp only
  split
  · exact modMove_only _ _ _ .refl ⟨rfl⟩
  · exact .refl

/-- A core that takes a transfer stores its data, and beyond it changes cores, contexts and reports only. -/
theorem takeData_after_write (s : State) (hok : regionOk x (32 * u.hdr.dstOff) u.data.length = true) :
    Only 0x38000 (writeMem s (regionAddr k (32 * u.hdr.dstOff)) u.data u.poison).1 (takeData s x k u) := by
  rw [takeData_eq hok]
  have hdata := (dataTaken_only s k u).mono (m := 0x38000) ⟨rfl⟩
  exact onlyIte (postCounter_only x _ _ _ hdata ⟨rfl⟩) hdata

theorem byteAt_takeData (hok : regionOk x (32 * u.hdr.dstOff) u.data.length = true) (z : Nat) :
    byteAt (takeData s x k u) z = byteAt (writeMem s (regionAddr k (32 * u.hdr.dstOff)) u.data u.poison).1 z :=
  byteAt_of ((takeData_after_write s hok).out .mem rfl).symm ((takeData_after_write s hok).out .written rfl).symm z

theorem dataTaken_contexts (s : State) (k : CtxCore) (u : Transfer) : (dataTaken s k u).contexts = s.contexts :=
  ((dataTaken_only s k u).out .contexts rfl).symm.trans ((writeMem_only (m := 0x83c2) _ _ _ .refl ⟨rfl⟩).out .contexts rfl).symm

/-- The context's part on the core, once the transfer has posted its counter. -/
theorem part_takeData (hok : regionOk x (32 * u.hdr.dstOff) u.data.length = true)
    (hk : (ctx? s x.handle).bind (ctxCore? · k.core) = some k) (hfits : counter k u.hdr.ctr + u.hdr.amount ≤ 65535) :
    ∃ k', (ctx? (takeData s x k u) x.handle).bind (ctxCore? · k.core) = some k' ∧
      counter k' u.hdr.ctr = counter k u.hdr.ctr + (if u.hdr.ctrEn then u.hdr.amount.val else 0) := by
  have hk' : (ctx? (dataTaken s k u) x.handle).bind (ctxCore? · k.core) = some k := by rw [ctxQ_of (dataTaken_contexts s k u), hk]
  rw [takeData_eq hok]
  cases u.hdr.ctrEn with
  | false => exact ⟨k, hk', rfl⟩
  | true => exact ⟨_, part_postCounter hk', by rw [counter_setCounter, if_pos rfl, minNat, if_pos hfits]; rfl⟩

end

/-! ### A stack takes a transfer (R235, R238) -/

section
variable {s : State} {x : Context} {u : Transfer} {m : MoveRec} {id : Nat}

theorem takeNear_of_unshared (hmove : u.move = some id) (hm : findMove? s u.core id = some m)
    (hshare : sharersOf s (m.dst.headD 0) u.data.length = []) :
    Only 0x10000 (writeMem s (m.dst.headD 0) u.data u.poison).1 (takeNear s x u) := by
  unfold takeNear
  rw [hmove, Option.bind_some, hm]
  dsimp only
  rw [hshare]
  exact modMove_only _ _ _ .refl ⟨rfl⟩

end

/-! ### Posts (R106, R213, R214) -/

/-- A core's remote posts, by number and destination. -/
def postKeys (y : CoreState) : List (Nat × Nat) := y.remote.map fun q => (q.id, q.dst)

section
variable {s : State} {c id dst : Nat}

theorem cores_queueTransfer (s : State) (i idx : Nat) (u : Transfer) : (queueTransfer s i idx u).cores = s.cores :=
  ((queueTransfer_only (m := 0x1000800) i idx u .refl ⟨rfl⟩).out .cores rfl).symm

/-- A post that goes on its way stays among those not confirmed. -/
theorem postKeys_sendPost (x : Context) (c : Nat) (s : State) (p : RemotePost) :
    postKeys (core (sendPost x c s p) c) = postKeys (core s c) := by
  have hsent : ∀ n : Nat, postKeys (core (modCore s c fun y =>
      { y with remote := y.remote.map fun r => if r.id == n then { r with sent := true } else r }) c) = postKeys (core s c) := by
    intro n
    rw [core_modCore_self]
    unfold postKeys
    rw [List.map_map]
    refine List.map_congr_left fun r _ => ?_
    rw [Function.comp_apply]
    split <;> rfl
  unfold sendPost
  dsimp only
  split
  · rfl
  · split
    · rfl
    · split
      · exact hsent _
      · split
        · exact hsent _
        · rw [core_of (cores_queueTransfer _ _ _ _)]
          exact hsent _

theorem postKeys_sendPosts (s : State) (c : Nat) : postKeys (core (sendPosts s c) c) = postKeys (core s c) := by
  unfold sendPosts
  split
  · rfl
  · exact List.foldlRecOn _ _ (motive := fun t => postKeys (core t c) = postKeys (core s c)) rfl
      fun t ht p _ => (postKeys_sendPost _ c t p).trans ht

/-- The post that a destination confirms is no longer among those of its core. -/
theorem remote_confirmPost (s : State) (c id dst : Nat) :
    ∀ q ∈ (core (confirmPost s c id dst) c).remote, ¬ (q.id = id ∧ q.dst = dst) := by
  rintro q hq ⟨rfl, rfl⟩
  have hmem : (q.id, q.dst) ∈ postKeys (core (confirmPost s c q.id q.dst) c) := List.mem_map_of_mem hq
  rw [confirmPost, postKeys_sendPosts, core_modCore_self] at hmem
  obtain ⟨p, hp, heq⟩ := List.mem_map.1 hmem
  obtain ⟨hid, hdst⟩ := Prod.mk.inj heq
  have hnot := (List.mem_filter.1 hp).2
  simp [hid, hdst] at hnot

/-- A post that a core's counter can take, and that its issuer is then told of. -/
theorem confirmPost_postCounter {x : Context} {k : CtxCore} {n v i a : Nat} (hk : (ctx? s x.handle).bind (ctxCore? · c) = some k)
    (hfits : counter k n + v ≤ 65535) :
    ∃ k', (ctx? (confirmPost (postCounter s x c n v) a i c) x.handle).bind (ctxCore? · c) = some k' ∧
      counter k' n = counter k n + v ∧
      (∀ q ∈ (core (confirmPost (postCounter s x c n v) a i c) a).remote, ¬ (q.id = i ∧ q.dst = c)) ∧
      (confirmPost (postCounter s x c n v) a i c).mem = s.mem := by
  have honly : Only 0x1010800 (postCounter s x c n v) (confirmPost (postCounter s x c n v) a i c) := confirmPost_only a i c .refl ⟨rfl⟩
  refine ⟨setCounter k n (minNat (counter k n + v) 65535), ?_, ?_, remote_confirmPost _ a i c, ?_⟩
  · rw [ctxQ_of (honly.out .contexts rfl).symm]
    exact part_postCounter hk
  · rw [counter_setCounter, if_pos rfl, minNat, if_pos hfits]
  · exact (honly.out .mem rfl).symm.trans ((postCounter_only (m := 0x38000) x c n v .refl ⟨rfl⟩).out .mem rfl).symm

end

/-! ### POST_TOKEN (R106, R213, R268) -/

section
variable {s : State} {no loc n v : Nat} {x : Context} {k : CtxCore}

theorem postToken_link {a b : CoreNo} {p : RemotePost} (hb : runCtx? s b = some x) (ha : runCtx? s a = some x) (hno : ctxNo x.handle = no)
    (hp : nextPost? s a b = some p) (hctr : p.ctr = n) (hamount : p.amount = v) :
    postToken (.link a b) no loc n v s = confirmPost (postCounter s x b n v) a p.id b := by
  unfold postToken
  simp only [hb, hp, ha, hno, hctr, hamount, bne_self_eq_false, Bool.or_self, Bool.false_eq_true, if_false]

theorem postToken_link_none {a b : CoreNo} (hp : nextPost? s a b = none) : postToken (.link a b) no loc n v s = s := by
  unfold postToken
  simp only [hp]
  split
  · next h => cases h
  · rfl

theorem postToken_mismatch {d : SiteNo} {g : Fin 128} {l : Fin 32} (hto : chanTo s d g l no loc = .mismatch) :
    postToken (.channel d g l) no loc n v s = ctxDiscard s d := by
  unfold postToken
  simp only [hto]

theorem postToken_channel {d : SiteNo} {g : Fin 128} {l : Fin 32} {u : Transfer} {y : Context} (hto : chanTo s d g l no loc = .core x k)
    (hnext : nextTransfer? s (g / 8) (carried s g l) d = some u) (hhdr : u.hdr = postHdr u.handle loc n v)
    (hy : ctx? s u.handle = some y) : postToken (.channel d g l) no loc n v s =
      confirmPost (postCounter (takeTransfer s (g / 8) (carried s g l) d u) y k.core n v) u.core u.id k.core := by
  have hfilter : (nextTransfer? s (g / 8) (carried s g l) d).filter (fun t => t.hdr == postHdr t.handle loc n v) = some u := by
    rw [hnext, Option.filter_some, if_pos (beq_iff_eq.2 hhdr)]
  have hctx := (ctxQ_of (takeTransfer_contexts s (g / 8) (carried s g l) d u) u.handle).trans hy
  unfold postToken
  simp only [hto, hfilter, hctx]

end

/-! ### CREDIT_MESSAGE (R271, R294) -/

section
variable {s : State} {i j n : Nat}

theorem creditMessage_self (s : State) (i n : Nat) : creditMessage i i n s = s := if_pos (beq_self_eq_true i)

/-- A source's credits toward a receiver with those that are returned. -/
def creditsReturned (s : State) (i j n : Nat) : State :=
  putField s (Reg.basinCredit j i) 9 0 (minNat 512 (field s (Reg.basinCredit j i) 9 0 + n))

theorem creditMessage_eq (h : i ≠ j) : creditMessage i j n s =
    modSite (creditsReturned s i j n) i fun x => { x with recvHeld := tmod 0 x.recvHeld j fun h => h - n } :=
  if_neg (by simpa using h)

theorem creditMessage_spec (h : i ≠ j) :
    field (creditMessage i j n s) (Reg.basinCredit j i) 9 0 = minNat 512 (field s (Reg.basinCredit j i) 9 0 + n) ∧
      tget 0 (site (creditMessage i j n s) i).recvHeld j = tget 0 (site s i).recvHeld j - n := by
  have hle : minNat 512 (field s (Reg.basinCredit j i) 9 0 + n) < 2 ^ (9 + 1 - 0) := by rw [minNat_eq_min]; omega
  rw [creditMessage_eq h]
  constructor
  · rw [field_of (modSite_regs _ _ _), creditsReturned, field_putField _ _ _ _ _ (by decide), Nat.mod_eq_of_lt hle]
  · rw [site_modSite_self]
    exact tget_tput_self _ _ _ _

end

/-! ### The commands of this family as updates of the state -/

section
variable (s : State) (d : SiteNo)

theorem exec_ringSettled (n : Fin 1024) : exec (.ringSettled d n) s = .next (ringSettled d n s) := rfl
theorem exec_retuneLate (n : Fin 1024) : exec (.retuneLate d n) s = .next (retuneLate d n s) := rfl
theorem exec_channelFailed (n : Fin 1024) : exec (.channelFailed d n) s = .next (channelFailed d n s) := rfl
theorem exec_receiptConfirmation (g : Fin 128) (l : Fin 32) (n : Nat) :
    exec (.receiptConfirmation d g l n) s = .next (receiptConfirmation d g l n s) := rfl
theorem exec_scheduledData (g : Fin 128) (l : Fin 32) (h : ChanHdr) (bs : List Byte) :
    exec (.scheduledData d g l h bs) s = .next (scheduledData d g l h bs s) := rfl
theorem exec_postToken (p : TokenPath) (no : Fin 16) (loc : Fin 4) (n : Fin 32) (v : Fin 256) :
    exec (.postToken p no loc n v) s = .next (postToken p no loc n v s) := rfl
theorem exec_creditMessage (j : SiteNo) (n : Nat) : exec (.creditMessage d j n) s = .next (creditMessage d j n s) := rfl

end

/-! ### The obligation -/

theorem ctxDiscard_mem (s : State) (d : Nat) : (ctxDiscard s d).mem = s.mem :=
  ((ctxDiscard_only (m := 0x8022) d .refl ⟨rfl⟩).out .mem rfl).symm

section
variable {s : State} {d n : Nat} {r : Ring}

/-- Where a site has no such ring, none of the three events of a ring changes anything. -/
theorem ringEvents_of_no_ring (h : tfind (site s d).rings n = none) :
    ringSettled d n s = s ∧ retuneLate d n s = s ∧ channelFailed d n s = s := by
  refine ⟨?_, ?_, ?_⟩
  · unfold ringSettled; rw [h]
  · unfold retuneLate; rw [h]
  · unfold channelFailed; rw [h]

/-- A late ring of a grant fails, and its lateness is flagged (R264). -/
theorem retuneLate_spec (hr : tfind (site s d).rings n = some r) (hs : r.settled = false) (hf : r.failed = false)
    (hrep : r.replacement = false) (hdue : r.since + 4000 ≤ s.time.now) :
    regBit (retuneLate d n s) (Reg.basinFlags d) 0 = true ∧ regBit (retuneLate d n s) (Reg.basinFlags d) 1 = true ∧
      tget false (site (retuneLate d n s) (n / 8 / 8)).paused (carried s (n / 8) r.lambda) = true ∧
      (∀ k, freeRing? s d (n / 8) = some k → ∃ q, tfind (site (retuneLate d n s) d).rings n = some { r with failed := true } ∧
        tfind (site (retuneLate d n s) d).rings (8 * (n / 8) + k) = some q ∧ q.lambda = r.lambda ∧ q.handle = r.handle ∧
        q.settled = false ∧ q.replacement = true ∧ q.since = s.time.now) ∧
      (freeRing? s d (n / 8) = none → regBit (retuneLate d n s) (Reg.basinFlags d) 2 = true ∧
        tget false (site (retuneLate d n s) (n / 8 / 8)).failedTx (32 * (n / 8 % 8) + r.lambda) = true) := by
  let u := raiseFlag s (Reg.basinFlags d) 0
  have hu : tfind (site u d).rings n = some r := hr
  rw [retuneLate_due hr hs hf hrep hdue]
  refine ⟨?_, ?_, paused_failRing hu hf hrep, fun k hk => ?_, fun hk => ⟨?_, ?_⟩⟩
  · rw [regBit_failRing hu hf hrep (by decide), regBit_raiseFlag_self, ite_self]
  · rw [regBit_failRing hu hf hrep (by decide), if_pos (.inl rfl)]
  · obtain ⟨hold, hnew⟩ := rings_failRing hu hf hrep (k := k) hk
    exact ⟨_, hold, hnew, rfl, rfl, rfl, rfl, rfl⟩
  · rw [regBit_failRing hu hf hrep (by decide), if_pos (.inr ⟨rfl, hk⟩)]
  · rw [failRing_of_full hu hf hrep hk]
    exact failedTx_failChannel _ _ _ _

end

section
variable {s : State} {d g l : Nat} {u : Transfer} {x : Context} {k : CtxCore}

/-- From one state to the next the bytes at an address are stored: a reader then sees them there, and every other byte as before. -/
def Stores (s t : State) (a : Nat) (bs : List Byte) : Prop :=
  loadBytes t a bs.length = bs ∧ ∀ z, ¬ (a ≤ z ∧ z < a + bs.length) → byteAt t z = byteAt s z

/-- A state that reads as the write of a transfer's data to lines that are not poisoned. -/
theorem stores_of_write {t : State} {a : Nat}
    (ht : ∀ z, byteAt t z = byteAt (writeMem (transferTaken s d g l u) a u.data u.poison).1 z)
    (hclean : ∀ i, i < u.data.length → poisonedAt s (a + i) = false) : Stores s t a u.data := by
  constructor
  · refine (List.map_congr_left fun i _ => ht _).trans (loadBytes_writeMem _ _ _ _ fun i hi => ?_)
    rw [poisonedAt_transferTaken, hclean i hi]
  · intro z hz
    rw [ht, byteAt_writeMem_outside _ _ _ _ _ hz, byteAt_transferTaken]

/-- A transfer to a core of the running context (R265, R267). -/
theorem scheduledData_core_spec (hto : chanTo s d g l u.hdr.context.val u.hdr.dstLocal.val = .core x k) (hx : ctx? s x.handle = some x)
    (hk : ctxCore? x k.core = some k) (hnext : nextTransfer? s (g / 8) (carried s g l) d = some u) (hhandle : u.handle = x.handle)
    (hnear : u.near = false) (hok : regionOk x (32 * u.hdr.dstOff) u.data.length = true)
    (hclean : ∀ i, i < u.data.length → poisonedAt s (regionAddr k (32 * u.hdr.dstOff) + i) = false)
    (hfits : counter k u.hdr.ctr + u.hdr.amount ≤ 65535) :
    Stores s (scheduledData d g l u.hdr u.data s) (regionAddr k (32 * u.hdr.dstOff)) u.data ∧
      ∃ k', (ctx? (scheduledData d g l u.hdr u.data s) x.handle).bind (ctxCore? · k.core) = some k' ∧
        counter k' u.hdr.ctr = counter k u.hdr.ctr + (if u.hdr.ctrEn then u.hdr.amount.val else 0) := by
  have hpart : (ctx? (transferTaken s d g l u) x.handle).bind (ctxCore? · k.core) = some k := by
    rw [ctxQ_of (transferTaken_contexts s d g l u), hx]
    exact hk
  rw [scheduledData_core hto hnext hnear (by rw [hhandle]; exact hx)]
  exact ⟨stores_of_write (byteAt_takeData hok) hclean, part_takeData hok hpart hfits⟩

/-- A transfer to a stack whose lines no site holds (R235, R238). -/
theorem scheduledData_near_spec {m : MoveRec} {id : Nat} (hto : chanTo s d g l u.hdr.context.val u.hdr.dstLocal.val = .noCore)
    (hx : ctx? s u.handle = some x) (hnext : nextTransfer? s (g / 8) (carried s g l) d = some u) (hnear : u.near = true)
    (hawake : stackAsleep s d = false) (hreq : u.req = none) (hmove : u.move = some id) (hm : findMove? s u.core id = some m)
    (hshare : sharersOf s (m.dst.headD 0) u.data.length = [])
    (hclean : ∀ i, i < u.data.length → poisonedAt s (m.dst.headD 0 + i) = false) :
    Stores s (scheduledData d g l u.hdr u.data s) (m.dst.headD 0) u.data ∧
      (scheduledData d g l u.hdr u.data s).contexts = s.contexts := by
  have hshare' : sharersOf (transferTaken s d g l u) (m.dst.headD 0) u.data.length = [] := by
    rw [transferTaken_of_no_read hreq, sharersOf_of (sharers_takeTransfer _ _ _ _ _), hshare]
  have hm' : findMove? (transferTaken s d g l u) u.core id = some m := by
    rw [transferTaken_of_no_read hreq, findMove?, core_of ((takeTransfer_sites _ _ _ _ _).out .cores rfl).symm]
    exact hm
  have honly := takeNear_of_unshared (x := x) hmove hm' hshare'
  rw [scheduledData_near hto hnext hnear hawake hx]
  refine ⟨stores_of_write (byteAt_of (honly.out .mem rfl).symm (honly.out .written rfl).symm) hclean, ?_⟩
  rw [← honly.out .contexts rfl, ← (writeMem_only (m := 0x83c2) _ _ _ .refl ⟨rfl⟩).out .contexts rfl, transferTaken_contexts]

end

/-- Settles O25: the events of rings and channels by what they leave of a site's rings, flags and transmit channels; transfers by the
write that their receiver makes; tokens by the post of the counter and the posts that its issuer keeps. -/
theorem basinEventsTakeEffect : Obligations.BasinEventsTakeEffect := by
  refine ⟨fun s d n r hr => ⟨fun hdone => ?_, fun hs hf => ?_⟩, fun s d n hnone => ?_,
    fun s d n r hr hs hf hrep => ⟨fun hearly => ?_, fun hdue => ?_⟩,
    fun s d n r i hr hs hf hrep hi => ⟨fun hearly => ?_, fun hdue => ?_⟩,
    fun s i idx h ds => ⟨fun h30 => slot30_placeIndex h30, fun h30 h31 => slot31_placeIndex h30 h31, fun h30 h31 hopen => ?_⟩,
    fun s d g l good e he => ?_, fun s d g l good he => ?_,
    fun s d g l u x k a hto hx hk hnext hhandle hnear hpoison ha hok hclean hfits => ?_,
    fun s d g l u x m id hto hx hnext hnear hpoison hawake hreq hmove hm hshare hclean => ?_,
    fun s d g l u hnext => ⟨fun hnear hsleep hto => ?_, fun hnear hto => ?_⟩,
    fun s d g l h bs => ⟨fun hto => ?_, fun hto => ?_, fun hto hnext => ?_⟩,
    fun s a b no loc n v x k p hruns ha hno hp hctr hamount hfits => ?_,
    fun s d g l no loc n v u x k hto hx hk hnext hhandle hhdr hfits => ?_,
    fun s a b no loc n v hp => ?_, fun s d g l no loc n v hto => ?_, fun s i j n => ⟨?_, fun hij => ?_⟩⟩
  · rw [exec_ringSettled, ringSettled_done hr hdone]
  · obtain ⟨hring, hmax, hresumed⟩ := ringSettled_spec hr hs hf
    exact ⟨_, exec_ringSettled s d n, hring,
      ((ringSettled_only (m := 0x1000802) d n .refl ⟨rfl⟩).out .mem rfl).symm, hmax, hresumed⟩
  · obtain ⟨hsettled, hlate, hfailed⟩ := ringEvents_of_no_ring hnone
    rw [exec_ringSettled, exec_retuneLate, exec_channelFailed, hsettled, hlate, hfailed]
    exact ⟨rfl, rfl, rfl⟩
  · rw [exec_retuneLate, retuneLate_early hr hearly]
  · exact ⟨_, exec_retuneLate s d n, retuneLate_spec hr hs hf hrep hdue⟩
  · rw [exec_channelFailed, channelFailed_early hr hearly]
  · subst hi
    refine ⟨failChannel s d (n / 8) r.lambda, chanDue s (n / 8) r.lambda, ?_, ?_, ringsOn_failChannel _ _ _ _,
      failedTx_failChannel _ _ _ _, paused_failChannel _ _ _ _, spareDue_failChannel _ _ _ _, rfl, rfl⟩
    · rw [exec_channelFailed, channelFailed_due hr hs hf hrep hdue]
    · rw [regBit_failChannel _ _ _ _ (by decide), if_pos rfl]
  · rw [placeIndex_folds h30 h31 hopen]
    exact foldIndex_spec _ _ _
  · exact ⟨_, exec_receiptConfirmation s d g l good,
      ((receiptConfirmation_only (m := 0x1000800) _ _ _ _ .refl ⟨rfl⟩).out .mem rfl).symm, receiptConfirmation_spec d.isLt he⟩
  · rw [exec_receiptConfirmation, receiptConfirmation_of_no_ring he]
  · subst ha
    obtain ⟨⟨hload, hother⟩, k', hk', hcount⟩ := scheduledData_core_spec hto hx hk hnext hhandle hnear hok hclean hfits
    exact ⟨_, k', exec_scheduledData s d g l u.hdr u.data, hload, hother, hk', hcount⟩
  · obtain ⟨⟨hload, hother⟩, hcontexts⟩ :=
      scheduledData_near_spec hto hx hnext hnear hawake hreq hmove hm hshare hclean
    exact ⟨_, exec_scheduledData s d g l u.hdr u.data, hload, hother, hcontexts⟩
  · rw [exec_scheduledData, scheduledData_asleep hto hnext hnear hsleep]
  · refine ⟨transferTaken s d g l u, ?_, ((transferTaken_only s d g l u).out .mem rfl).symm, transferTaken_contexts s d g l u⟩
    rw [exec_scheduledData, scheduledData_noCore hto hnext hnear]
  · obtain ⟨hflag, hcontexts, r, hreport, hcls, hcode, -⟩ := ctxDiscard_spec s d
    refine ⟨ctxDiscard s d, r, ?_, ctxDiscard_mem s d, hcontexts, hflag, hreport, hcls, hcode⟩
    rw [exec_scheduledData, scheduledData_mismatch hto]
  · rw [exec_scheduledData, scheduledData_nothing hto]
  · rw [exec_scheduledData, scheduledData_not_next hto hnext]
  · obtain ⟨k', hk', hcount, hremote, hmem⟩ := confirmPost_postCounter (a := a) (i := p.id) hruns.part hfits
    refine ⟨_, k', ?_, hk', hcount, hremote, hmem⟩
    rw [exec_postToken, postToken_link hruns.1 ha hno hp hctr hamount]
  · have hpart : (ctx? (takeTransfer s (g / 8) (carried s g l) d u) x.handle).bind (ctxCore? · k.core) = some k := by
      rw [ctxQ_of (takeTransfer_contexts _ _ _ _ _), hx]
      exact hk
    obtain ⟨k', hk', hcount, hremote, hmem⟩ := confirmPost_postCounter (a := u.core) (i := u.id) hpart hfits
    refine ⟨_, k', ?_, hk', hcount, hremote, ?_⟩
    · rw [exec_postToken, postToken_channel hto hnext hhdr (by rw [hhandle]; exact hx)]
    · rw [hmem]
      exact ((takeTransfer_sites _ _ _ _ _).out .mem rfl).symm
  · rw [exec_postToken, postToken_link_none hp]
  · obtain ⟨hflag, hcontexts, -⟩ := ctxDiscard_spec s d
    exact ⟨ctxDiscard s d, by rw [exec_postToken, postToken_mismatch hto], hflag, hcontexts, ctxDiscard_mem s d⟩
  · rw [exec_creditMessage, creditMessage_self]
  · have hne : i.val ≠ j.val := fun h => hij (Fin.ext h)
    exact ⟨_, exec_creditMessage s i j n, ((creditMessage_only (m := 0x1000002) _ _ _ .refl ⟨rfl⟩).out .mem rfl).symm,
      creditMessage_spec hne⟩

end Sys2Proof.Machine

/-! PROOFS. The family 07_memory_tiers: the canonical form of the memories and their marks (R244 to R246, R249, R485, R601), what
stores nothing (R244, R245), and the near tier's addresses (R222). -/

namespace Sys2Proof.Machine

/-! ### The canonical form at reset (R244, R601) -/

/-- Settles O50: every memory and every table of marks is empty at reset. -/
theorem memoriesAreCanonicalAtReset : Obligations.MemoriesAreCanonicalAtReset :=
  ⟨rfl, rfl, rfl, rfl, rfl⟩

/-! ### The near tier's addresses (R222) -/

theorem zoneOf_eq_near_iff (a i : Nat) : zoneOf a = .near i ↔ a < farBase ∧ a / 2 ^ 36 = i := by
  unfold zoneOf
  by_cases hnear : a < farBase
  · simp [hnear]
  · rw [if_neg hnear]
    constructor
    · split_ifs <;> intro h <;> cases h
    · exact fun h => absurd h.1 hnear

/-- Settles O55: an address is in a stack exactly if its quotient by 64 GiB, below 16, is the stack's site. -/
theorem nearTierIsNotInterleaved : Obligations.NearTierIsNotInterleaved := by
  intro i a
  have hi := i.isLt
  have hbase : farBase = 2 ^ 40 := rfl
  refine ⟨?_, fun hnear => ?_⟩
  · rw [zoneOf_eq_near_iff, hbase]
    omega
  · have howner : ownerSite a = i := by rw [ownerSite, hnear]
    rw [zoneOf_eq_near_iff, hbase] at hnear
    unfold bits
    omega

/-! ### Commands that store nothing (R235, R240, R244, R245) -/

/-- Settles O54: what a reader sees of a byte rests on the memory and on the written bits of its pages, and both are outside the
footprint. -/
theorem commandsThatStoreNothingKeepEveryByte : Obligations.CommandsThatStoreNothingKeepEveryByte := by
  intro c s t a hmem hwritten hexec
  have hkeeps : s.mem = t.mem := commandsChangeOnlyTheirFootprint c s t .mem hexec hmem
  have hpages : s.written = t.written := commandsChangeOnlyTheirFootprint c s t .written hexec hwritten
  exact byteAt_of hkeeps.symm hpages.symm a

/-! ### Every step keeps the canonical form (R244 to R246, R249, R485) -/

section
variable {s : State}

/-- The memories and their marks. -/
def memoryParts : List StatePart := [.mem, .hostMem, .written, .poison, .corePoison]

/-- A command whose footprint holds no memory and no marks keeps their form. -/
theorem exec_keeps_memOk_of_footprint {c : Instr} (hc : (memoryParts.all fun p => p ∉ footprint c) = true) (h : MemOk s) :
    ∃ t, exec c s = .next t ∧ MemOk t := by
  obtain ⟨t, hexec, honly⟩ := exec_within_footprint c s
  have hagree (p : StatePart) (hp : p ∈ memoryParts) : Agree s t p := honly.agree (of_decide_eq_true (List.all_eq_true.1 hc p hp))
  exact ⟨t, hexec, memOk_of h ⟨(hagree .mem (by decide)).symm, (hagree .hostMem (by decide)).symm, (hagree .written (by decide)).symm,
    (hagree .poison (by decide)).symm, (hagree .corePoison (by decide)).symm⟩⟩

theorem selectRefs_memOk (h : MemOk s) : MemOk (selectRefs s) :=
  (selectRefs_only (m := 0x2002) .refl ⟨rfl⟩).memOk rfl h

theorem reject_memOk (i : Nat) (hd : SbHead) (reason : Byte) (h : MemOk s) : MemOk (reject i hd reason s) :=
  (reject_only (m := 0x1008822) i hd reason .refl ⟨rfl⟩).memOk rfl h

theorem sidebandReplyTimeout_memOk (i : Nat) (h : MemOk s) : MemOk (sidebandReplyTimeout i s) :=
  (sidebandReplyTimeout_only (m := 0x1018822) i .refl ⟨rfl⟩).memOk rfl h

theorem springLocked_memOk (n : Nat) (h : MemOk s) : MemOk (springLocked n s) :=
  (springLocked_only (m := 0x110000000022) n .refl ⟨rfl⟩).memOk rfl h

/-- One arm for each command whose footprint holds a memory or marks; the last arm is for all the others. -/
theorem exec_keeps_memOk (c : Instr) (h : MemOk s) : ∃ t, exec c s = .next t ∧ MemOk t := by
  cases c with
  | busMasterEnable => exact ⟨_, rfl, busMasterEnable_memOk _ _ h⟩
  | refMonitorWindow => exact ⟨_, rfl, advanceStart_memOk (selectRefs_memOk (refMonitorWindow_memOk _ _ h))⟩
  | domainReady => exact ⟨_, rfl, domainReady_memOk _ h⟩
  | refSelectTimeout => exact ⟨_, rfl, refSelectTimeout_memOk _ h⟩
  | memoryTraining => exact ⟨_, rfl, memoryTraining_memOk _ _ _ _ h⟩
  | tileAlignment => exact ⟨_, rfl, tileAlignment_memOk _ _ h⟩
  | tickEnd => exact ⟨_, rfl, tickEnd_memOk h⟩
  | stepDeadline => exact ⟨_, rfl, stepDeadline_memOk h⟩
  | stepCommit => exact ⟨_, rfl, stepCommit_memOk h⟩
  | crossingPartnerReset => exact ⟨_, rfl, crossingPartnerReset_memOk _ h⟩
  | mma => exact ⟨_, rfl, mma_memOk _ _ _ h⟩
  | merge => exact ⟨_, rfl, merge_memOk _ _ _ h⟩
  | vld => exact ⟨_, rfl, vld_memOk _ _ _ h⟩
  | drain => exact ⟨_, rfl, drain_memOk _ _ h⟩
  | vst => exact ⟨_, rfl, vst_memOk _ _ h⟩
  | move => exact ⟨_, rfl, move_memOk _ _ _ h⟩
  | moveComplete => exact ⟨_, rfl, moveComplete_memOk _ _ _ h⟩
  | setsel => exact ⟨_, rfl, setsel_memOk _ _ _ h⟩
  | rdstat => exact ⟨_, rfl, rdstat_memOk _ _ h⟩
  | operandParityFault => exact ⟨_, rfl, operandParityFault_memOk _ _ h⟩
  | siteReset => exact ⟨_, rfl, advanceStart_memOk (siteReset_memOk _ _ h)⟩
  | caps => exact ⟨_, rfl, advanceStart_memOk (caps_memOk _ _ _ h)⟩
  | reject => exact ⟨_, rfl, advanceStart_memOk (reject_memOk _ _ _ h)⟩
  | commit => exact ⟨_, rfl, advanceStart_memOk (commit_memOk _ h)⟩
  | sidebandReplyTimeout => exact ⟨_, rfl, advanceStart_memOk (sidebandReplyTimeout_memOk _ h)⟩
  | outletLight => exact ⟨_, rfl, outletLight_memOk _ _ h⟩
  | inval => exact ⟨_, rfl, inval_memOk _ _ _ h⟩
  | invalAck => exact ⟨_, rfl, invalAck_memOk _ _ _ h⟩
  | scrub => exact ⟨_, rfl, scrub_memOk _ _ _ _ h⟩
  | poisonNotice => exact ⟨_, rfl, poisonNotice_memOk h⟩
  | scheduledData => exact ⟨_, rfl, scheduledData_memOk _ _ _ _ _ h⟩
  | lossOfSignal => exact ⟨_, rfl, lossOfSignal_memOk _ _ h⟩
  | lossOfLock => exact ⟨_, rfl, lossOfLock_memOk _ _ h⟩
  | fibreSwap => exact ⟨_, rfl, fibreSwap_memOk _ _ h⟩
  | helloTimeout => exact ⟨_, rfl, helloTimeout_memOk _ h⟩
  | readData => exact ⟨_, rfl, readData_memOk _ _ h⟩
  | writeAck => exact ⟨_, rfl, writeAck_memOk _ _ h⟩
  | atomicResult => exact ⟨_, rfl, atomicResult_memOk _ _ h⟩
  | refusal => exact ⟨_, rfl, refusal_memOk _ _ h⟩
  | neighbourHello => exact ⟨_, rfl, neighbourHello_memOk _ _ h⟩
  | linkState => exact ⟨_, rfl, linkStateMsg_memOk _ _ h⟩
  | weirMsg => exact ⟨_, rfl, weirMsg_memOk _ _ h⟩
  | egressDrainTimeout => exact ⟨_, rfl, egressDrainTimeout_memOk _ h⟩
  | powerExcessTimeout => exact ⟨_, rfl, powerExcessTimeout_memOk _ h⟩
  | springFailed => exact ⟨_, rfl, springFailedAt_memOk _ _ h⟩
  | springLockTimeout => exact ⟨_, rfl, springLockTimeout_memOk _ h⟩
  | springLocked => exact ⟨_, rfl, advanceStart_memOk (springLocked_memOk _ h)⟩
  | calibrationDone => exact ⟨_, rfl, calibrationDone_memOk _ _ h⟩
  | linkTrained => exact ⟨_, rfl, linkTrained_memOk _ h⟩
  | linkSleepEnter => exact ⟨_, rfl, linkSleepEnter_memOk _ h⟩
  | read => exact ⟨_, rfl, readPacket_memOk _ _ _ h⟩
  | write => exact ⟨_, rfl, writePacket_memOk _ _ h⟩
  | atomic => exact ⟨_, rfl, atomicPacket_memOk _ _ h⟩
  | timeSync => exact ⟨_, rfl, timeSync_memOk _ _ _ _ _ h⟩
  | flaggedStoreRelease => exact ⟨_, rfl, flaggedStoreRelease_memOk _ _ h⟩
  | dmaBurstComplete => exact ⟨_, rfl, dmaBurstComplete_memOk _ _ _ h⟩
  | dmaHalt => exact ⟨_, rfl, dmaHalt_memOk _ _ h⟩
  | partCreate => exact ⟨_, rfl, execReq_memOk _ _ h fun _ _ ht => partCreate_memOk _ ht⟩
  | destroyTimeout => exact ⟨_, rfl, destroyTimeout_memOk h⟩
  | partMem => exact ⟨_, rfl, execNow_memOk _ _ h fun _ _ ht => partMem_memOk _ ht⟩
  | pondArea => exact ⟨_, rfl, execNow_memOk _ _ h fun _ _ ht => pondArea_memOk _ ht⟩
  | planLoad => exact ⟨_, rfl, execNow_memOk _ _ h fun _ _ ht => planLoad_memOk _ ht⟩
  | maintCancel => exact ⟨_, rfl, execNow_memOk _ _ h fun _ _ ht => maintCancel_memOk _ ht⟩
  | activityDone => exact ⟨_, rfl, activityDone_memOk _ _ _ _ h⟩
  | linkSleep => exact ⟨_, rfl, execReq_memOk _ _ h fun _ _ ht => linkSleep_memOk _ ht⟩
  | linkWake => exact ⟨_, rfl, execNow_memOk _ _ h fun _ _ ht => linkWake_memOk _ ht⟩
  | explicitFault => exact ⟨_, rfl, explicitFault_memOk _ _ h⟩
  | gapBoundExpiry => exact ⟨_, rfl, gapBoundExpiry_memOk h⟩
  | switchoverComplete => exact ⟨_, rfl, switchoverComplete_memOk h⟩
  | islandToVkeep => exact ⟨_, rfl, islandToVkeep_memOk h⟩
  | domainVoltageFault => exact ⟨_, rfl, domainVoltageFault_memOk _ h⟩
  | throttleStep => exact ⟨_, rfl, throttleStep_memOk _ h⟩
  | housekeepingRoundEnd => exact ⟨_, rfl, housekeepingRoundEnd_memOk _ _ _ h⟩
  | thermalTrip => exact ⟨_, rfl, thermalTrip_memOk _ _ _ h⟩
  | weirBoot => exact ⟨_, rfl, weirBoot_memOk _ _ _ _ h⟩
  | coreSelftest => exact ⟨_, rfl, coreSelftest_memOk _ h⟩
  | calStage => exact ⟨_, rfl, calStage_memOk _ _ h⟩
  | stageBoundExpiry => exact ⟨_, rfl, stageBoundExpiry_memOk _ h⟩
  | moveLastByteLeftSource => exact ⟨_, rfl, moveLastByteLeftSource_memOk _ _ h⟩
  | _ => exact exec_keeps_memOk_of_footprint rfl h

end

/-- Settles O53: a step runs the front command on the rest of the queue, or a cycle of the backbone clock, and each keeps the form. -/
theorem everyStepKeepsTheMemoriesCanonical : Obligations.EveryStepKeepsTheMemoriesCanonical := by
  intro s t h hstep
  cases hqueue : s.pending with
  | nil =>
    rw [step_of_idle hqueue] at hstep
    cases hstep
    exact idleCycle_memOk h
  | cons c cs =>
    rw [step_of_pending hqueue] at hstep
    have hrest : MemOk { s with pending := cs } := memOk_of h ⟨rfl, rfl, rfl, rfl, rfl⟩
    obtain ⟨u, hexec, hu⟩ := exec_keeps_memOk c hrest
    cases hexec.symm.trans hstep
    exact hu

end Sys2Proof.Machine

/-! PROOFS. The family 07_memory_tiers: replies, invalidations and Weir messages at a site port (R235, R275, R281, R385, R388, R404,
R410, R411). -/

namespace Sys2Proof.Machine

set_option Elab.async false

/-! ### What rests on one part of the state -/

theorem mem_of_exec {c : Instr} {s t : State} (h : exec c s = .next t) (hc : decide (.mem ∈ footprint c) = false) :
    t.mem = s.mem :=
  (commandsChangeOnlyTheirFootprint c s t .mem h (of_decide_eq_false hc)).symm

section
variable {s t : State}

theorem keyOk_of (hregs : t.regs = s.regs) (hupsets : t.upsets = s.upsets) (i key dir : Nat) : keyOk t i key dir = keyOk s i key dir := by
  simp only [keyOk, keyUpset, reg_of hregs, hupsets]

theorem findMove_of (h : t.cores = s.cores) (c id : Nat) : findMove? t c id = findMove? s c id := by
  rw [findMove?, core_of h, findMove?]

theorem cacheGet_of {i : Nat} (h : (site t i).cache = (site s i).cache) (line : Nat) : cacheGet t i line = cacheGet s i line := by
  rw [cacheGet, h, cacheGet]

/-! ### The end of a move's request (R160, R385, R411) -/

theorem findMove_modMove {c id : Nat} {m : MoveRec} {f : MoveRec → MoveRec} (hf : ∀ m, (f m).id = m.id)
    (hm : findMove? s c id = some m) : findMove? (modMove s c id f) c id = some (f m) := by
  have hid : m.id = id := by simpa using List.find?_some hm
  have hkeep (q : MoveRec) : (if q.id == id then f q else q).id = q.id := by split <;> simp [hf]
  have hsame : (fun q : MoveRec => q.id == id) ∘ (fun q => if q.id == id then f q else q) = fun q => q.id == id :=
    funext fun q => congrArg (· == id) (hkeep q)
  rw [findMove?] at hm
  rw [findMove?, modMove, core_modCore_self, List.find?_map, hsame, hm, Option.map_some, if_pos (by simpa using hid)]

/-- The requests that a site port has out, and the numbers of the flagged stores that it holds. -/
def requestsOf (x : SiteState) : List OpenReq × List Nat := (x.outstanding, x.flagged.map (·.seq))

theorem requestsOf_failFlagged (s : State) (i : Nat) (r : OpenReq) (code b : Nat) :
    requestsOf (site (failFlagged s i r code) b) = requestsOf (site s b) := by
  unfold failFlagged
  split
  · rfl
  · refine site_modSite_keeps requestsOf s i b fun x => ?_
    simp only [requestsOf, List.map_map, Prod.mk.injEq, true_and]
    refine List.map_congr_left fun q _ => ?_
    simp only [Function.comp_apply]
    split <;> rfl

theorem requestsOf_cacheFill (s : State) (p i line : Nat) (bs : List Byte) (b : Nat) :
    requestsOf (site (cacheFill s p i line bs) b) = requestsOf (site s b) := by
  have hdrop (k : Nat) : requestsOf (site (cacheDrop s i (· == k)) b) = requestsOf (site s b) := site_modSite_keeps requestsOf s i b
  unfold cacheFill
  dsimp only
  generalize List.filter _ _ = mates
  split
  · rfl
  · refine (site_modSite_keeps requestsOf _ i b).trans ?_
    cases mates with
    | nil => rfl
    | cons k ks =>
      dsimp only
      split
      · exact hdrop k
      · rfl

section
variable {i c id : Nat} {r : OpenReq}

/-- A request of a move ends: the move takes its status and data, and the site port's other requests stay. -/
theorem finishReq_of_move (hissuer : r.issuer = .move c id) (code : Nat) (data : List Byte) (fill : Bool) :
    (∀ b, requestsOf (site (finishReq s i r code data fill) b) = requestsOf (site s b)) ∧
      ∀ m, findMove? s c id = some m → findMove? (finishReq s i r code data fill) c id =
        some (moveAnswered m (statusOfCode code) r.addr (32 * r.p.len) data) := by
  have hsites (b : Nat) := requestsOf_failFlagged s i r code b
  have hcores : (failFlagged s i r code).cores = s.cores := ((failFlagged_only (m := 0x1000000) i r code .refl ⟨rfl⟩).out .cores rfl).symm
  have hmove (m : MoveRec) (hm : findMove? s c id = some m) :=
    findMove_modMove (f := fun m => moveAnswered m (statusOfCode code) r.addr (32 * r.p.len) data) (fun _ => rfl)
      ((findMove_of hcores c id).trans hm)
  simp only [finishReq, hissuer]
  split
  · refine ⟨fun b => (requestsOf_cacheFill _ _ _ _ _ b).trans (hsites b), fun m hm => ?_⟩
    rw [findMove_of ((cacheFill_only (m := 0x1000000) _ _ _ _ .refl ⟨rfl⟩).out .cores rfl).symm]
    exact hmove m hm
  · exact ⟨hsites, hmove⟩

end

/-! ### Replies (R275, R385, R410, R411) -/

section
variable {i : Nat} {r : Packet} {q : OpenReq}

/-- A request without attached requesters has left the site port. -/
def requestGone (s : State) (i : Nat) (q : OpenReq) : State :=
  modSite (dropCombining s i q.p) i fun x => { x with outstanding := x.outstanding.filter fun o => o.seq != q.seq }

theorem outstanding_requestGone (s : State) (i : Nat) (q : OpenReq) :
    (site (requestGone s i q) i).outstanding = (site s i).outstanding.filter fun o => o.seq != q.seq := by
  rw [requestGone, site_modSite_self, dropCombining, site_modSite_self]

theorem deliverReply_of_found {c id : Nat} (hhop : r.hop = 0) (hq : (site s i).outstanding.find? (fun o => o.p.tag == r.tag) = some q)
    (hissuer : q.issuer = .move c id) (halone : attachedTo (site s i) q.p = []) :
    deliverReply s i r = finishReq (requestGone s i q) i q (replyCode q.p r) r.data ((r.op0 == 1 && r.type == 0x10) || q.outlet.isSome) := by
  simp [deliverReply, hhop, hq, halone, answerOwn, hissuer, answerAll, requestGone]

theorem deliverReply_of_move {c id : Nat} {m : MoveRec} (hhop : r.hop = 0)
    (hq : (site s i).outstanding.find? (fun o => o.p.tag == r.tag) = some q) (hissuer : q.issuer = .move c id)
    (halone : attachedTo (site s i) q.p = []) (hm : findMove? s c id = some m) :
    (site (deliverReply s i r) i).outstanding = (site s i).outstanding.filter (fun o => o.seq != q.seq) ∧
      findMove? (deliverReply s i r) c id =
        some (moveAnswered m (statusOfCode (replyCode q.p r)) q.addr (32 * q.p.len) r.data) := by
  rw [deliverReply_of_found hhop hq hissuer halone]
  obtain ⟨hrequests, hmove⟩ := finishReq_of_move (s := requestGone s i q) (i := i) hissuer (replyCode q.p r) r.data
    ((r.op0 == 1 && r.type == 0x10) || q.outlet.isSome)
  obtain ⟨hout, -⟩ := Prod.mk.inj (hrequests i)
  exact ⟨hout.trans (outstanding_requestGone s i q), hmove m hm⟩

theorem deliverReply_of_none (hhop : r.hop = 0) (hnone : ∀ q ∈ (site s i).outstanding, q.p.tag ≠ r.tag) :
    deliverReply s i r = discardReply s := by
  have hfind : (site s i).outstanding.find? (fun q => q.p.tag == r.tag) = none :=
    List.find?_eq_none.2 fun q hq => by simpa using hnone q hq
  simp [deliverReply, hhop, hfind]

theorem exec_reply_own {p : Packet} {e : Instr} {i : SiteNo} {T : Nat} (s : State)
    (he : (T = 0x10 ∧ e = .readData (.own i) p) ∨ (T = 0x11 ∧ e = .writeAck (.own i) p) ∨ (T = 0x12 ∧ e = .atomicResult (.own i) p) ∨
      (T = 0x13 ∧ e = .refusal (.own i) p)) :
    exec e s = .next (deliverReply s i { p with type := T }) := by
  rcases he with ⟨rfl, rfl⟩ | ⟨rfl, rfl⟩ | ⟨rfl, rfl⟩ | ⟨rfl, rfl⟩ <;> rfl

/-- A discarded reply is flagged, and changes nothing of a site, a core or the memory. -/
theorem discardReply_spec (s : State) : regBit (discardReply s) Reg.fabricFlags 4 = true ∧ (discardReply s).sites = s.sites ∧
    (discardReply s).cores = s.cores ∧ (discardReply s).mem = s.mem :=
  ⟨regBit_raiseFlag_self _ _ _, rfl, rfl, rfl⟩

end

/-! ### A refusal for a key (R280, R281) -/

/-- A packet that a key check refuses is flagged and reported. -/
theorem keyRefused_spec (s : State) (i : Nat) (p : Packet) : (keyRefused s i p).out = s.out ∧
    regBit (keyRefused s i p) (Reg.basinFlags i) 4 = true ∧
    ∃ e, (keyRefused s i p).faults.inTransit = s.faults.inTransit ++ [e] ∧ e.cls = 12 ∧ e.code = 1 ∧ e.unit = unitNo 0x02 i :=
  ⟨rfl, (regBit_of (raise_regs _ _ _ _ _ _ _ _) _ _).trans (regBit_raiseFlag_self _ _ _), _, rfl, rfl, rfl, rfl⟩

/-- The flag of a site port for refused keys is set, and a report is on its way to the combiner. -/
structure RefusalStands (i : Nat) (e : Report) (s : State) : Prop where
  flag : regBit s (Reg.basinFlags i) 4 = true
  report : e ∈ s.faults.inTransit

namespace RefusalStands
variable {i j off v n c id : Nat} {e : Report}

/-- Every part but the registers and the reports. -/
def quietParts : Nat := 0xFFFFFFFFFFFF7FFD

theorem quiet (ht : Only quietParts s t) (h : RefusalStands i e s) : RefusalStands i e t := by
  have hregs : t.regs = s.regs := (ht.out .regs rfl).symm
  have hfaults : t.faults = s.faults := (ht.out .faults rfl).symm
  exact ⟨(regBit_of hregs _ _).trans h.flag, hfaults ▸ h.report⟩

theorem ite {p : Prop} [Decidable p] (h : RefusalStands i e s) (h' : RefusalStands i e t) : RefusalStands i e (if p then s else t) := by
  split
  · exact h
  · exact h'

theorem foldl {α : Type} {f : State → α → State} {l : List α} (hf : ∀ t, RefusalStands i e t → ∀ a ∈ l, RefusalStands i e (f t a))
    (h : RefusalStands i e s) : RefusalStands i e (l.foldl f s) :=
  List.foldlRecOn l f (motive := RefusalStands i e) h hf

theorem putReg_other (hne : Reg.basinFlags i ≠ off) (h : RefusalStands i e s) : RefusalStands i e (putReg s off v) :=
  ⟨by rw [regBit, reg_putReg_other _ _ _ _ hne]; exact h.flag, h.report⟩

theorem addPairSat (hne : Reg.basinFlags i ≠ off) (h : RefusalStands i e s) : RefusalStands i e (addPairSat s off n) :=
  putReg_other hne h

theorem putBit {b : Bool} (hb : j = 4 → b = true) (h : RefusalStands i e s) : RefusalStands i e (putBit s off j b) := by
  refine ⟨?_, h.report⟩
  rw [regBit_putBit]
  split
  · next hj => exact hb hj.2.symm
  · exact h.flag

theorem raiseFlag (h : RefusalStands i e s) : RefusalStands i e (raiseFlag s off j) :=
  ⟨(h.putBit (off := off) (j := j) (b := true) fun _ => rfl).flag, h.report⟩

theorem raise {cls code unit part d0 d1 src : Nat} (h : RefusalStands i e s) :
    RefusalStands i e (raise s cls code unit part d0 d1 src) :=
  ⟨h.flag, List.mem_append_left _ h.report⟩

theorem putField_high {hi lo : Nat} (hlo : 4 < lo) (hle : lo ≤ hi + 1) (h : RefusalStands i e s) :
    RefusalStands i e (putField s off hi lo v) := by
  refine ⟨?_, h.report⟩
  rw [regBit, putField, reg_putReg]
  split
  · next heq => rw [bit_setBits_other _ _ _ _ _ hle (.inl hlo), ← heq]; exact h.flag
  · exact h.flag

theorem keyRefused {p : Packet} (h : RefusalStands i e s) : RefusalStands i e (keyRefused s j p) :=
  (h.addPairSat (by unfold Reg.basinFlags Reg.basinKeyRefused; omega)).raiseFlag.raise

theorem discardReply (hi : i < 16) (h : RefusalStands i e s) : RefusalStands i e (discardReply s) :=
  (h.addPairSat (by unfold Reg.basinFlags Reg.fabricRepliesDiscarded; omega)).raiseFlag

theorem noteViolation {o code d0 : Nat} (h : RefusalStands i e s) : RefusalStands i e (noteViolation s o code d0) := by
  have hcount : RefusalStands i e (Machine.addPairSat s (Reg.linkViolations o) 1) :=
    h.addPairSat (by unfold Reg.basinFlags Reg.linkViolations; omega)
  have hflags : RefusalStands i e (Machine.raiseFlag (Machine.raiseFlag (Machine.addPairSat s (Reg.linkViolations o) 1)
    (Reg.linkFlags o) 4) Reg.fabricFlags 3) := hcount.raiseFlag.raiseFlag
  unfold Machine.noteViolation
  exact quiet (modLink_only _ _ .refl ⟨rfl⟩) hflags.raise

/-! Copies: DMA_CH_STAT of any channel leaves bit 4 of every register. -/

theorem dmaStat {ch : Nat} (h : RefusalStands i e s) : RefusalStands i e (dmaStat s ch) :=
  (((h.putField_high (by omega) (by omega)).putBit (by omega)).putBit (by omega)).putBit (by omega)

theorem endCopy {ch status cause : Nat} {r : CopyRec} (h : RefusalStands i e s) : RefusalStands i e (endCopy s ch r status cause) :=
  (h.quiet (putDma_only _ _ .refl ⟨rfl⟩)).dmaStat.quiet (complete_only _ _ _ .refl ⟨rfl⟩)

theorem copyProgress {ch : Nat} (h : RefusalStands i e s) : RefusalStands i e (copyProgress s ch) := by
  unfold Machine.copyProgress
  split
  · exact h
  · refine ite h ?_
    split
    · exact h.endCopy
    · exact ite h.endCopy h

theorem copyAnswered {ch : Nat} {f : CopyRec → CopyRec} (h : RefusalStands i e s) : RefusalStands i e (copyAnswered s ch id f) := by
  unfold Machine.copyAnswered
  split
  · exact ite (h.quiet (modCopy_only _ _ .refl ⟨rfl⟩)).copyProgress h
  · exact h

theorem answerCopy {ch a code : Nat} {data : List Byte} (h : RefusalStands i e s) :
    RefusalStands i e (answerCopy s ch id a n code data) := by
  unfold Machine.answerCopy
  refine copyAnswered ?_
  split
  · exact ite (h.quiet (hostWrite_only _ _ _ .refl ⟨rfl⟩)) h
  · exact h

/-! Requests and replies. -/

theorem finishReq {r : OpenReq} {code : Nat} {data : List Byte} {fill : Bool} (h : RefusalStands i e s) :
    RefusalStands i e (finishReq s j r code data fill) := by
  have hfail := h.quiet (failFlagged_only j r code .refl ⟨rfl⟩)
  unfold Machine.finishReq
  split
  · have hmove (f : MoveRec → MoveRec) (c id : Nat) := hfail.quiet (modMove_only c id f .refl ⟨rfl⟩)
    exact ite ((hmove _ _ _).quiet (cacheFill_only _ _ _ _ .refl ⟨rfl⟩)) (hmove _ _ _)
  · exact hfail.answerCopy
  · exact hfail

theorem exitReply {o : Nat} {p : Packet} (hi : i < 16) (h : RefusalStands i e s) : RefusalStands i e (exitReply s o p) := by
  have hpaid := h.quiet (takePaid_only o p .refl ⟨rfl⟩)
  have hunpay := hpaid.quiet (unpay_only (takePaid s o p).2 o p .refl ⟨rfl⟩)
  exact ite hunpay.keyRefused (ite (hpaid.quiet (queueAtLink_only _ _ .refl ⟨rfl⟩)) (hunpay.discardReply hi).raise)

theorem sendOn {p : Packet} {deliver : State → State} (hi : i < 16) (h : RefusalStands i e s) (hd : RefusalStands i e (deliver s)) :
    RefusalStands i e (sendOn s j p deliver) := by
  have hsubmit (r : OpenReq) := h.quiet (submitOpen_only j r .refl ⟨rfl⟩)
  exact ite (ite (h.exitReply hi) (hsubmit _)) (ite (ite (h.exitReply hi) (hsubmit _)) (ite hd (hsubmit _)))

theorem answerOwn {r : OpenReq} {code : Nat} {data : List Byte} {fill : Bool} {reply : Packet} (h : RefusalStands i e s) :
    RefusalStands i e (answerOwn s j r code data fill reply) := by
  unfold Machine.answerOwn
  split
  · exact h.quiet (emit_only _ .refl ⟨rfl⟩)
  · exact h.finishReq

theorem answerAttached {q : OpenReq} {r : Packet} {rank code : Nat} {fill : Bool} (hi : i < 16) (h : RefusalStands i e s) :
    RefusalStands i e (answerAttached s j q r rank code fill) := by
  unfold Machine.answerAttached
  split
  · exact h.sendOn hi (h.quiet (emit_only _ .refl ⟨rfl⟩))
  · exact h.finishReq

theorem deliverReply {r : Packet} (hi : i < 16) (h : RefusalStands i e s) : RefusalStands i e (deliverReply s j r) := by
  have hcount : RefusalStands i e (if r.type == 0x13 && 0 < r.hop then Machine.addPairSat s Reg.fabricRefusalsRx 1 else s) :=
    ite (h.addPairSat (by unfold Reg.basinFlags Reg.fabricRefusalsRx; omega)) h
  unfold Machine.deliverReply
  extract_lets link x u
  split
  · exact ite (hcount.discardReply hi).noteViolation (hcount.discardReply hi)
  · exact foldl (fun _ ht _ _ => ht.answerAttached hi)
      (((ite hcount.noteViolation hcount).quiet (modSite_only _ _ (dropCombining_only _ _ .refl ⟨rfl⟩) ⟨rfl⟩)).answerOwn)

theorem routeReply {r : Packet} (hi : i < 16) (h : RefusalStands i e s) : RefusalStands i e (routeReply s j r) :=
  h.sendOn hi (h.deliverReply hi)

theorem refuse {q : Packet} {code : Nat} (hi : i < 16) (h : RefusalStands i e s) : RefusalStands i e (refuse s j q code) := by
  have hcount : RefusalStands i e (if 0 < q.hop || 0 < q.rlen then Machine.addPairSat s Reg.fabricRefusalsTx 1 else s) :=
    ite (h.addPairSat (by unfold Reg.basinFlags Reg.fabricRefusalsTx; omega)) h
  exact hcount.routeReply hi

end RefusalStands

/-! ### Invalidations (R235, R271, R281) -/

section
variable {o h region : Nat}

theorem keyOk_received (src dst : Nat) (p : Packet) (i key dir : Nat) : keyOk (received s src dst p) i key dir = keyOk s i key dir :=
  keyOk_of rfl rfl i key dir

/-- An accepted INVAL takes the lines of the region from the sharer's cache. -/
theorem cacheGet_inval (hkey : keyOk s h (regionKey s region) dirBasin = true) (line : Nat) :
    cacheGet (inval o h region s) h line = if line / 256 = region then none else cacheGet s h line := by
  have hkey' : keyOk (received s o h (invalPacket s 0x04 o h region)) h (regionKey s region) dirBasin = true :=
    (keyOk_received _ _ _ _ _ _).trans hkey
  have hcache : (site (inval o h region s) h).cache = tdrop (site s h).cache fun k => k / 256 == region := by
    rw [inval, if_neg (by simpa [invalPacket] using hkey')]
    rw [submitOpen, site_modSite_self, Machine.addPairSat, site_putReg, cacheForget, site_modSite_self, cacheDrop,
      site_modSite_self, received, site_modSite_self]
  rw [cacheGet, hcache, tfind_tdrop, cacheGet]
  simp

/-- A refused INVAL is flagged and reported, whatever its refusal meets on its way. -/
theorem inval_refused (hh : h < 16) (hkey : keyOk s h (regionKey s region) dirBasin = false) :
    ∃ e, RefusalStands h e (inval o h region s) ∧ e.cls = 12 ∧ e.code = 1 ∧ e.unit = unitNo 0x02 h := by
  obtain ⟨-, hflag, e, he, hcls, hcode, hunit⟩ :=
    keyRefused_spec (received s o h (invalPacket s 0x04 o h region)) h (invalPacket s 0x04 o h region)
  have hkey' : keyOk (received s o h (invalPacket s 0x04 o h region)) h (regionKey s region) dirBasin = false :=
    (keyOk_received _ _ _ _ _ _).trans hkey
  have hstands := RefusalStands.mk (e := e) hflag (he ▸ List.mem_append_right _ (List.mem_singleton_self e))
  refine ⟨e, ?_, hcls, hcode, hunit⟩
  rw [inval, if_pos (by simpa [invalPacket] using hkey')]
  exact hstands.refuse hh

/-- The owner has taken an INVAL_ACK: the sharer's bit is clear. -/
def sharerLeft (o h region : Nat) (s : State) : State :=
  modSite (received s h o (invalPacket s 0x14 h o region)) o fun x =>
    { x with sharers := tmod 0 x.sharers region fun m => setBit m h false }

/-- The held writes of a site lose a sharer, and those that wait for none are applied. -/
def ackSite (region sharer : Nat) (s : State) (i : Nat) : State :=
  applyReady (modSite s i fun x => { x with heldWrites := x.heldWrites.map (ackWrite region sharer) }) i

/-- The held writes of a site lose a sharer, and those that wait for none leave. -/
def readyLeft (region sharer : Nat) (s : State) (i : Nat) : State :=
  modSite (modSite s i fun x => { x with heldWrites := x.heldWrites.map (ackWrite region sharer) }) i
    fun x => { x with heldWrites := x.heldWrites.filter fun w => !w.waiting.isEmpty }

theorem readyLeft_only (region sharer : Nat) (s : State) (i : Nat) : Only 0x1000000 s (readyLeft region sharer s i) :=
  modSite_only _ _ (modSite_only _ _ .refl ⟨rfl⟩) ⟨rfl⟩

theorem site_readyLeft (region sharer : Nat) (s : State) (i j : Nat) : site (readyLeft region sharer s i) j =
    if j = i then { site s i with
      heldWrites := ((site s i).heldWrites.map (ackWrite region sharer)).filter fun w => !w.waiting.isEmpty } else site s j := by
  rw [readyLeft, site_modSite, site_modSite_self, site_modSite]
  split <;> rfl

theorem ackSite_eq {region sharer i : Nat} {ws : List HeldWrite}
    (hready : ((site s i).heldWrites.map (ackWrite region sharer)).filter (·.waiting.isEmpty) = ws) :
    ackSite region sharer s i = ws.foldl (fun s w => applyHeld s i w) (readyLeft region sharer s i) := by
  rw [ackSite, applyReady, site_modSite_self, ← hready]
  rfl

theorem invalAck_accepted (hkey : keyOk s o (regionKey s region) dirBasin = true) :
    invalAck o h region s = (List.range 16).foldl (ackSite region h) (sharerLeft o h region s) := by
  have hkey' : keyOk (received s h o (invalPacket s 0x14 h o region)) o (regionKey s region) dirBasin = true :=
    (keyOk_received _ _ _ _ _ _).trans hkey
  rw [invalAck, if_neg (by simpa [invalPacket] using hkey')]
  rfl

theorem heldWrites_sharerLeft (o h region : Nat) (s : State) (i : Nat) :
    (site (sharerLeft o h region s) i).heldWrites = (site s i).heldWrites :=
  (site_modSite_keeps SiteState.heldWrites _ o i).trans (site_modSite_keeps SiteState.heldWrites s o i)

theorem sharers_sharerLeft (o h region : Nat) (s : State) (j : Nat) :
    bit (tget 0 (site (sharerLeft o h region s) o).sharers region) j =
      if j = h then false else bit (tget 0 (site s o).sharers region) j := by
  have hreceived : (site (received s h o (invalPacket s 0x14 h o region)) o).sharers = (site s o).sharers :=
    site_modSite_keeps SiteState.sharers s o o
  rw [sharerLeft, site_modSite_self]
  dsimp only
  rw [hreceived, tmod, tget_tput_self, bit_setBit]

/-- A state that differs in nothing that its sites hold. -/
structure SameSites (s t : State) : Prop where
  only : Only 0x1000000 s t
  reads : ∀ i, site t i = site s i

theorem SameSites.refl : SameSites s s := ⟨.refl, fun _ => rfl⟩

theorem SameSites.trans {u : State} (h : SameSites s t) (h' : SameSites t u) : SameSites s u :=
  ⟨h.only.trans h'.only, fun i => (h'.reads i).trans (h.reads i)⟩

theorem ackSite_idle {i : Nat} (hheld : (site s i).heldWrites = []) : SameSites s (ackSite region h s i) := by
  rw [ackSite_eq (ws := []) (by rw [hheld]; rfl)]
  refine ⟨readyLeft_only region h s i, fun j => ?_⟩
  rw [List.foldl_nil, site_readyLeft, hheld]
  split
  · next hj => rw [hj, List.map_nil, List.filter_nil, ← hheld]
  · rfl

theorem ackSites_idle (l : List Nat) (hheld : ∀ i ∈ l, (site s i).heldWrites = []) :
    SameSites s (l.foldl (ackSite region h) s) :=
  List.foldlRecOn l (ackSite region h) (motive := SameSites s) .refl fun _ ht i hi =>
    ht.trans (ackSite_idle ((congrArg SiteState.heldWrites (ht.reads i)).trans (hheld i hi)))

theorem applyHeld_of_transit {i : Nat} {w : HeldWrite} (hreply : w.reply = none) (hissuer : w.issuer = .transit) :
    applyHeld s i w = (writeMem s w.addr w.data w.poison).1 := by
  simp only [applyHeld, hreply, hissuer]

/-- The write that the site held for that sharer alone. -/
theorem ackSite_applies {w : HeldWrite} (hheld : (site s o).heldWrites = [w]) (hwait : w.waiting = [(region, h)])
    (hreply : w.reply = none) (hissuer : w.issuer = .transit) :
    ackSite region h s o = (writeMem (readyLeft region h s o) w.addr w.data w.poison).1 ∧
    ∀ i, (site (ackSite region h s o) i).heldWrites = if i = o then [] else (site s i).heldWrites := by
  have hempty : (ackWrite region h w).waiting = [] := by simp [ackWrite, hwait]
  have heq : ackSite region h s o = (writeMem (readyLeft region h s o) w.addr w.data w.poison).1 := by
    rw [ackSite_eq (ws := [ackWrite region h w]) (by rw [hheld]; simp [hempty])]
    exact applyHeld_of_transit (w := ackWrite region h w) hreply hissuer
  refine ⟨heq, fun i => ?_⟩
  rw [heq, site_of ((writeMem_only (m := 0x83c2) _ _ _ .refl ⟨rfl⟩).out .sites rfl).symm, site_readyLeft, hheld]
  split
  · simp [hempty]
  · rfl

theorem stores_of_only {v : State} {a : Nat} {bs : List Byte} {pois : List Nat} (hv : Only 0x1000000 s v)
    (ht : Only 0x1000000 (writeMem v a bs pois).1 t) (hclean : ∀ i, i < bs.length → poisonedAt s (a + i) = false) :
    Stores s t a bs := by
  have hbyte (z : Nat) : byteAt t z = byteAt (writeMem v a bs pois).1 z :=
    byteAt_of (ht.out .mem rfl).symm (ht.out .written rfl).symm z
  have hclean' (i : Nat) (hi : i < bs.length) : poisonedAt v (a + i) = false :=
    (poisonedAt_of (hv.out .poison rfl).symm (hv.out .corePoison rfl).symm (hv.out .written rfl).symm _).trans (hclean i hi)
  refine ⟨(List.map_congr_left fun i _ => hbyte _).trans (loadBytes_writeMem _ _ _ _ hclean'), fun z hz => ?_⟩
  rw [hbyte, byteAt_writeMem_outside _ _ _ _ _ hz]
  exact byteAt_of (hv.out .mem rfl).symm (hv.out .written rfl).symm z

theorem sharerLeft_only (o h region : Nat) (s : State) : Only 0x1000000 s (sharerLeft o h region s) :=
  modSite_only _ _ (received_only _ _ _ .refl ⟨rfl⟩) ⟨rfl⟩

/-- Where no site holds a write, an accepted INVAL_ACK clears the sharer's bit and does no more. -/
theorem invalAck_of_none_held (hkey : keyOk s o (regionKey s region) dirBasin = true)
    (hnone : ∀ i < 16, (site s i).heldWrites = []) : SameSites (sharerLeft o h region s) (invalAck o h region s) := by
  rw [invalAck_accepted hkey]
  exact ackSites_idle _ fun i hi => (heldWrites_sharerLeft o h region s i).trans (hnone i (List.mem_range.1 hi))

/-- A write that one site holds for the sharer alone is written. -/
theorem invalAck_applies {w : HeldWrite} (hkey : keyOk s o (regionKey s region) dirBasin = true) (ho : o < 16)
    (hheld : (site s o).heldWrites = [w]) (hothers : ∀ i < 16, i ≠ o → (site s i).heldWrites = [])
    (hwait : w.waiting = [(region, h)]) (hreply : w.reply = none) (hissuer : w.issuer = .transit)
    (hclean : ∀ i, i < w.data.length → poisonedAt s (w.addr + i) = false) :
    (site (invalAck o h region s) o).heldWrites = [] ∧ Stores s (invalAck o h region s) w.addr w.data := by
  obtain ⟨before, after, hsplit⟩ := List.append_of_mem (List.mem_range.2 ho)
  have hnodup : (before ++ o :: after).Nodup := hsplit ▸ List.nodup_range
  have hlt (i : Nat) (hi : i ∈ before ∨ i ∈ after) : i < 16 := by
    rw [← List.mem_range, hsplit]
    simp only [List.mem_append, List.mem_cons]
    tauto
  have hne (i : Nat) (hi : i ∈ before ∨ i ∈ after) : i ≠ o := by
    rintro rfl
    obtain ⟨-, hafter, hdisjoint⟩ := List.nodup_append.1 hnodup
    rcases hi with hi | hi
    · exact hdisjoint i hi i List.mem_cons_self rfl
    · exact (List.nodup_cons.1 hafter).1 hi
  have hleft := heldWrites_sharerLeft o h region s
  have hbefore : SameSites (sharerLeft o h region s) (before.foldl (ackSite region h) (sharerLeft o h region s)) :=
    ackSites_idle before fun i hi => (hleft i).trans (hothers i (hlt i (.inl hi)) (hne i (.inl hi)))
  rw [invalAck_accepted hkey, hsplit, List.foldl_append, List.foldl_cons]
  generalize before.foldl (ackSite region h) (sharerLeft o h region s) = u at hbefore
  have hsame (i : Nat) : (site u i).heldWrites = (site s i).heldWrites :=
    (congrArg SiteState.heldWrites (hbefore.reads i)).trans (hleft i)
  obtain ⟨hwrite, hrest⟩ := ackSite_applies (region := region) (h := h) ((hsame o).trans hheld) hwait hreply hissuer
  have hafter : SameSites (ackSite region h u o) (after.foldl (ackSite region h) (ackSite region h u o)) :=
    ackSites_idle after fun i hi => by
      rw [hrest, if_neg (hne i (.inr hi)), hsame, hothers i (hlt i (.inr hi)) (hne i (.inr hi))]
  refine ⟨by rw [hafter.reads, hrest, if_pos rfl], ?_⟩
  rw [hwrite] at hafter ⊢
  exact stores_of_only (((sharerLeft_only o h region s).trans hbefore.only).trans (readyLeft_only region h u o)) hafter.only hclean

end

/-! ### Weir messages of the site itself (R281, R388, R404) -/

theorem weirMsg_own_refused {i : SiteNo} {p : Packet} (h : p.key ≠ 0 ∨ ¬ (p.srcAgent = 0x41 ∨ p.srcAgent = 0x42)) :
    weirMsg (.own i) p s = keyRefused s i { p with type := 0x23 } := by
  unfold weirMsg
  exact if_pos (by simpa using h)

theorem weirMsg_own_delivered {i : SiteNo} {p : Packet} (hkey : p.key = 0) (hagent : p.srcAgent = 0x41 ∨ p.srcAgent = 0x42)
    (hroute : p.rlen = 0) (hdst : p.dst = ownCoord s) (hsite : p.dstSite = i) :
    weirMsg (.own i) p s =
      emit s (.answer i { p with type := 0x23, hop := 0, src := ownCoord s, srcSite := i.val, time := s.time.now }) := by
  have hweir : (p.srcAgent == 0x41 || p.srcAgent == 0x42) = true := by simpa using hagent
  simp only [weirMsg, hkey, hweir]
  simp [weirMsgFrom, hroute, hdst, hsite]

end

/-! ### The commands -/

section
variable (s : State)

theorem exec_inval (o h : SiteNo) (region : Nat) : exec (.inval o h region) s = .next (inval o h region s) := rfl
theorem exec_invalAck (o h : SiteNo) (region : Nat) : exec (.invalAck o h region) s = .next (invalAck o h region s) := rfl
theorem exec_weirMsg (via : Arrival) (p : Packet) : exec (.weirMsg via p) s = .next (weirMsg via p s) := rfl

end

/-- Settles O21: replies by the request that they find at their site port; invalidations by the sharer's cache, the owner's sharer
bits and the writes it holds; Weir messages of the site itself by their key and agent. -/
theorem repliesCompleteRequests : Obligations.RepliesCompleteRequests := by
  refine ⟨fun s i p q m c id T e he hhop hq hissuer halone hm => ?_, fun s i p e he hhop hnone => ?_, fun s o h region hkey => ?_,
    fun s o h region hkey => ?_, fun s o h region hkey hnone => ?_,
    fun s o h region w hkey hheld hothers hwait hreply hissuer _ hclean => ?_, fun s i p hp => ?_,
    fun s i p hkey hagent hroute hdst hsite => ?_⟩
  · exact ⟨_, exec_reply_own s he, deliverReply_of_move hhop hq hissuer halone hm⟩
  · obtain ⟨T, hT⟩ : ∃ T, exec e s = .next (deliverReply s i { p with type := T }) := by
      rcases he with rfl | rfl | rfl | rfl
      exacts [⟨0x10, rfl⟩, ⟨0x11, rfl⟩, ⟨0x12, rfl⟩, ⟨0x13, rfl⟩]
    exact ⟨discardReply s, by rw [hT, deliverReply_of_none (r := { p with type := T }) hhop hnone], discardReply_spec s⟩
  · refine ⟨_, exec_inval s o h region, mem_of_exec (exec_inval s o h region) rfl,
      fun line hline => ?_, fun line hline => ?_⟩
    · rw [cacheGet_inval hkey, if_pos hline]
    · rw [cacheGet_inval hkey, if_neg hline]
  · obtain ⟨e, hstands, hfields⟩ := inval_refused (o := o) h.isLt hkey
    exact ⟨_, e, exec_inval s o h region, hstands.flag, hstands.report, hfields⟩
  · have hsame := invalAck_of_none_held (h := h) hkey hnone
    refine ⟨_, exec_invalAck s o h region, ((sharerLeft_only o h region s).trans hsame.only).out .mem rfl |>.symm, fun j => ?_⟩
    rw [hsame.reads, sharers_sharerLeft]
    simp only [Fin.ext_iff]
  · obtain ⟨hwritten, hload, hother⟩ := invalAck_applies hkey o.isLt hheld hothers hwait hreply hissuer hclean
    exact ⟨_, exec_invalAck s o h region, hwritten, hload, hother⟩
  · obtain ⟨hout, hflag, e, hreport, hfields⟩ := keyRefused_spec s i { p with type := 0x23 }
    exact ⟨_, e, by rw [exec_weirMsg, weirMsg_own_refused hp], hout, hflag, hreport, hfields⟩
  · exact ⟨_, { p with type := 0x23, hop := 0, src := ownCoord s, srcSite := i.val, time := s.time.now },
      (exec_weirMsg s _ p).trans (congrArg _ (weirMsg_own_delivered hkey hagent hroute hdst hsite)), rfl, rfl, rfl, rfl, rfl⟩

end Sys2Proof.Machine

/-! PROOFS. The family 07_memory_tiers: refresh, the scrubber and flagged stores (R225, R228, R229, R246 to R249, R397). -/

namespace Sys2Proof.Machine

set_option Elab.async false

/-! ### Refresh (R225, R228, R229) -/

section
variable {s : State} {i bank : Nat}

@[simp] theorem site_showRefresh (s : State) (i b : Nat) : site (showRefresh s i) b = site s b := rfl

theorem reg_showRefresh (s : State) (i : Nat) :
    reg (showRefresh s i) (Reg.memRefresh i) = refreshInterval ((site s i).bankBand.foldl (fun m e => maxNat m e.2) 0) :=
  reg_putReg_self _ _ _

/-- Whether a bank's refresh takes up the wanted band: a faster or equal rate, or every bank has been refreshed. -/
def takesBand (x : SiteState) (bank : Nat) : Bool :=
  decide (refreshRate (tget 0 x.bankBand bank) ≤ refreshRate x.wantBand) ||
    (List.range Config.hbmBanks).all fun j => tget false x.refreshed j

theorem hbmRefresh_spec (hawake : regBit s (Reg.memCfg i) 3 = false) (hbank : bank < Config.hbmBanks) :
    (∀ j, tget 0 (site (hbmRefresh i bank s) i).bankBand j =
      if j = bank ∧ takesBand (site s i) bank = true then (site s i).wantBand else tget 0 (site s i).bankBand j) ∧
    (site (hbmRefresh i bank s) i).rfm = (site s i).rfm.filter (· != bank) ∧
    reg (hbmRefresh i bank s) (Reg.memRefresh i) =
      refreshInterval ((site (hbmRefresh i bank s) i).bankBand.foldl (fun m e => maxNat m e.2) 0) := by
  rw [hbmRefresh, if_neg (by simp [hawake, hbank])]
  refine ⟨fun j => ?_, ?_, reg_showRefresh _ i⟩
  · rw [site_showRefresh, site_putSite_self]
    change tget 0 (if takesBand (site s i) bank = true then tput 0 (site s i).bankBand bank (site s i).wantBand else (site s i).bankBand) j = _
    split
    · next htakes => rw [tget_tput]; simp only [htakes, and_true]
    · next hkeeps => simp [hkeeps]
  · rw [site_showRefresh, site_putSite_self]

theorem hbmRefresh_off (h : regBit s (Reg.memCfg i) 3 = true ∨ Config.hbmBanks ≤ bank) : hbmRefresh i bank s = s :=
  if_pos (by simpa using h)

theorem rfm_refreshManagementRequest (hbank : bank < Config.hbmBanks) :
    (site (refreshManagementRequest i bank s) i).rfm = (site s i).rfm.filter (· != bank) ++ [bank] := by
  rw [refreshManagementRequest, if_neg (by omega), site_modSite_self]

end

/-! ### The scrubber (R246 to R249) -/

section
variable {s t : State} {i a n : Nat}

theorem partOfAddr_of (hparts : t.parts = s.parts) (hfar : t.far = s.far) (a : Nat) : partOfAddr t a = partOfAddr s a := by
  simp only [partOfAddr, partOfNear, partOfPond, partOfCore, farSlot_of hfar, hparts]

theorem zoneOf_stackLine (hi : i < 16) (hn : n < 2 ^ 30) : zoneOf (i * 2 ^ 36 + 64 * n) = .near i := by
  have hbase : farBase = 2 ^ 40 := rfl
  rw [zoneOf_eq_near_iff, hbase]
  omega

theorem lineBase_of_near (hz : zoneOf a = .near i) (ha : a % 64 = 0) : a / lineSize a * lineSize a = a := by
  rw [lineSize, hz]
  dsimp only
  omega

theorem ownerSite_of_near (hz : zoneOf a = .near i) : ownerSite a = i := by rw [ownerSite, hz]

/-- A line of a written page that is not poisoned is decoded. -/
theorem lineDecoded_corrected (hmem : inMemory a = true) (hw : pageWritten s a = true) (hclean : poisonedAt s a = false) :
    lineDecoded s a .corrected = lineCorrected s a := by
  simp [lineDecoded, hmem, hw, hclean]

theorem lineDecoded_uncorrectable (hmem : inMemory a = true) (hw : pageWritten s a = true) (hclean : poisonedAt s a = false) :
    lineDecoded s a .uncorrectable = lineUncorrectable s a := by
  simp [lineDecoded, hmem, hw, hclean]

/-- A corrected error of a stack's line is counted and reported. -/
theorem lineCorrected_near (hz : zoneOf a = .near i) (ha : a % 64 = 0) :
    lineCorrected s a = raise (addPairSat s (Reg.memHbmCe i) 1) 6 1 (unitNo 0x05 i) (partOfAddr s a) a 0 (srcHbm i) := by
  simp only [lineCorrected, lineBase_of_near hz ha, ownerSite_of_near hz, hz]

/-- A stack's line that is found uncorrectable is poisoned and reported, and its owner is owed a notice. -/
theorem lineUncorrectable_near (hz : zoneOf a = .near i) (ha : a % 64 = 0) :
    lineUncorrectable s a = oweNotice (raise (setPoison (addPairSat s (Reg.memHbmUe i) 1) a true) 7 1 (unitNo 0x05 i)
      (partOfAddr s a) a 0 (srcHbm i)) a := by
  simp only [lineUncorrectable, lineBase_of_near hz ha, ownerSite_of_near hz, hz] <;> rfl

theorem poison_setPoison_near (hz : zoneOf a = .near i) : tget false (setPoison s a true).poison (a / 64) = true := by
  have hput : tget false (tput false s.poison (a / 64) true) (a / 64) = true := tget_tput_self _ _ _ _
  unfold setPoison
  rw [hz]
  dsimp only
  split
  · exact hput
  · rw [if_pos rfl, (rowReport_poison _ _).1]
    exact hput

theorem poisonedAt_setPoison_near (hz : zoneOf a = .near i) (hw : pageWritten s a = true) : poisonedAt (setPoison s a true) a = true := by
  have hw' : pageWritten (setPoison s a true) a = true := (pageWritten_setPoison s a a true).trans hw
  have hmark := poison_setPoison_near (s := s) hz
  simp only [poisonedAt, hz, hw', hmark, Bool.and_self]

theorem notices_rowReport (s : State) (a : Nat) : (rowReport s a).faults.notices = s.faults.notices := by
  unfold rowReport
  split <;> rfl

theorem notices_setPoison_near (hz : zoneOf a = .near i) (b : Bool) : (setPoison s a b).faults.notices = s.faults.notices := by
  have hput (u : State) (r v : Nat) : (putReg u r v).faults.notices = u.faults.notices := rfl
  unfold setPoison
  rw [hz]
  dsimp only
  split
  · rfl
  · split
    · exact (notices_rowReport _ _).trans (hput _ _ _)
    · exact hput _ _ _

/-- The owner of a line is owed a notice; a line that no partition holds owes none. -/
theorem notices_oweNotice (hpart : partOfAddr s a ≠ 0xFF) :
    (oweNotice s a).faults.notices =
      s.faults.notices ++ [{ tick := tickOf s, part := partOfAddr s a, type := 1, words := [a, ownerSite a] }] := by
  rw [oweNotice, if_neg (by simpa using hpart)]

theorem poisonedAt_oweNotice (s : State) (a b : Nat) : poisonedAt (oweNotice s a) b = poisonedAt s b := by
  unfold oweNotice
  dsimp only
  split <;> rfl

/-- An uncorrectable line of a stack reads as poison, and its owner is owed a notice. -/
theorem lineUncorrectable_spec (hz : zoneOf a = .near i) (ha : a % 64 = 0) (hw : pageWritten s a = true) :
    poisonedAt (lineUncorrectable s a) a = true ∧
      (partOfAddr s a ≠ 0xFF → ∃ w, (lineUncorrectable s a).faults.notices = s.faults.notices ++ [w] ∧ w.part = partOfAddr s a ∧
        w.words = [a, i]) := by
  rw [lineUncorrectable_near hz ha]
  refine ⟨?_, fun hpart => ?_⟩
  · rw [poisonedAt_oweNotice]
    exact poisonedAt_setPoison_near (s := addPairSat s (Reg.memHbmUe i) 1) hz hw
  · have honly := setPoison_only (m := 0x8302) (s := addPairSat s (Reg.memHbmUe i) 1) a true .refl ⟨rfl⟩
    have howner : partOfAddr (raise (setPoison (addPairSat s (Reg.memHbmUe i) 1) a true) 7 1 (unitNo 0x05 i) (partOfAddr s a) a 0
        (srcHbm i)) a =
        partOfAddr s a := partOfAddr_of (honly.out .parts rfl).symm (honly.out .far rfl).symm a
    refine ⟨_, (notices_oweNotice (howner.trans_ne hpart)).trans (congrArg (· ++ _) ?_), howner, ?_⟩
    · exact (notices_setPoison_near (s := addPairSat s (Reg.memHbmUe i) 1) hz true).trans rfl
    · dsimp only
      rw [ownerSite_of_near hz]

theorem scrubMoves_regs_only (s : State) (i : Nat) (pond : Bool) (line : Nat) : Only 0x2 s (scrubMoves s i pond line) :=
  scrubMoves_only i pond line .refl ⟨rfl⟩

theorem pageWritten_of (h : t.written = s.written) (a : Nat) : pageWritten t a = pageWritten s a := by
  rw [pageWritten, h, pageWritten]

theorem reg_scrubMoves_memHbmCe (s : State) (i n : Nat) : reg (scrubMoves s i false n) (Reg.memHbmCe i) = reg s (Reg.memHbmCe i) := by
  have hpos : Reg.memHbmCe i ≠ Reg.memScrubPos i := by unfold Reg.memHbmCe Reg.memScrubPos; omega
  have hpass : Reg.memHbmCe i ≠ Reg.memScrubPass i := by unfold Reg.memHbmCe Reg.memScrubPass; omega
  rw [scrubMoves, if_neg Bool.false_ne_true]
  split
  · rw [addPairSat, reg_putReg_other _ _ _ _ hpass, reg_putReg_other _ _ _ _ hpos]
  · exact reg_putReg_other _ _ _ _ hpos

/-- The scrub position has moved past a stack's line, and the line's run of uncorrectable errors goes on or ends (R250). -/
def runsNoted (i n : Nat) (s : State) : EccOutcome → State
  | .uncorrectable => scrubRuns (scrubMoves s i false n) i (i * 2 ^ 36 + 64 * n)
  | _ => modSite (scrubMoves s i false n) i fun x => { x with ueRuns := tdel x.ueRuns ((i * 2 ^ 36 + 64 * n) / 64) }

theorem runsNoted_only (i n : Nat) (s : State) (o : EccOutcome) : Only 0x1008002 s (runsNoted i n s o) := by
  have hmoves : Only 0x1008002 s (scrubMoves s i false n) := scrubMoves_only _ _ _ .refl ⟨rfl⟩
  cases o with
  | uncorrectable => exact scrubRuns_only _ _ hmoves ⟨rfl⟩
  | clean | onDie | corrected => unfold runsNoted; exact modSite_only _ _ hmoves ⟨rfl⟩

section
variable (hon : regBit s (Reg.memCfg i) 4 = true) (hawake : regBit s (Reg.memCfg i) 3 = false) (hn : n < 2 ^ 30)
  (hw : pageWritten s (i * 2 ^ 36 + 64 * n) = true) (hclean : poisonedAt s (i * 2 ^ 36 + 64 * n) = false)
include hon hawake hn hw hclean

/-- A stack's line that the scrubber reads: its runs of errors, and then the decoder's report. -/
theorem scrub_reads (o : EccOutcome) : scrub i false n o s = lineDecoded (runsNoted i n s o) (i * 2 ^ 36 + 64 * n) o := by
  have honly := scrubMoves_regs_only s i false n
  have hw' := (pageWritten_of (honly.out .written rfl).symm _).trans hw
  have hclean' := (poisonedAt_of (honly.out .poison rfl).symm (honly.out .corePoison rfl).symm (honly.out .written rfl).symm _).trans hclean
  have hrange : lineInRange s i false n = true := by simpa only [lineInRange, Bool.false_eq_true, if_false, decide_eq_true_eq] using hn
  rw [scrub, if_neg (by simp [hon, hawake, hrange])]
  dsimp only [lineAddr]
  rw [if_neg Bool.false_ne_true, if_neg (by rw [hw', hclean']; decide)]
  cases o <;> rfl

/-- A line with an error that is corrected: it is counted and reported, and no poison is marked. -/
theorem scrub_corrected (hi : i < 16) :
    (scrub i false n .corrected s).poison = s.poison ∧
      reg (scrub i false n .corrected s) (Reg.memHbmCe i) = satAdd 64 (reg s (Reg.memHbmCe i)) 1 ∧
      ∃ r, (scrub i false n .corrected s).faults.inTransit = s.faults.inTransit ++ [r] ∧ r.cls = 6 ∧ r.code = 1 ∧
        r.unit = unitNo 0x05 i ∧ r.d0 = i * 2 ^ 36 + 64 * n := by
  have hz := zoneOf_stackLine hi hn
  have honly := runsNoted_only i n s .corrected
  have hfaults : (runsNoted i n s .corrected).faults = s.faults := ((scrubMoves_regs_only s i false n).out .faults rfl).symm
  have hw' := (pageWritten_of (honly.out .written rfl).symm _).trans hw
  have hclean' := (poisonedAt_of (honly.out .poison rfl).symm (honly.out .corePoison rfl).symm (honly.out .written rfl).symm _).trans hclean
  rw [scrub_reads hon hawake hn hw hclean, lineDecoded_corrected (by rw [inMemory, hz]) hw' hclean', lineCorrected_near hz (by omega)]
  refine ⟨(honly.out .poison rfl).symm, ?_, ?_⟩
  · exact (reg_addPairSat_self _ _ _).trans (congrArg (satAdd 64 · 1) (reg_scrubMoves_memHbmCe s i n))
  · rw [← hfaults]
    exact ⟨_, rfl, rfl, rfl, rfl, rfl⟩

theorem scrub_uncorrectable (hi : i < 16) :
    poisonedAt (scrub i false n .uncorrectable s) (i * 2 ^ 36 + 64 * n) = true ∧
      (partOfAddr s (i * 2 ^ 36 + 64 * n) ≠ 0xFF → ∃ w, (scrub i false n .uncorrectable s).faults.notices = s.faults.notices ++ [w] ∧
        w.part = partOfAddr s (i * 2 ^ 36 + 64 * n) ∧ w.words = [i * 2 ^ 36 + 64 * n, i]) := by
  have hz := zoneOf_stackLine hi hn
  have honly := runsNoted_only i n s .uncorrectable
  have hw' := (pageWritten_of (honly.out .written rfl).symm _).trans hw
  have hclean' := (poisonedAt_of (honly.out .poison rfl).symm (honly.out .corePoison rfl).symm (honly.out .written rfl).symm _).trans hclean
  have howner := partOfAddr_of (honly.out .parts rfl).symm (honly.out .far rfl).symm (i * 2 ^ 36 + 64 * n)
  have hnotices : (runsNoted i n s .uncorrectable).faults.notices = s.faults.notices := by
    have hmoves : (scrubMoves s i false n).faults = s.faults := ((scrubMoves_regs_only s i false n).out .faults rfl).symm
    rw [← hmoves, runsNoted, scrubRuns]
    split <;> rfl
  rw [scrub_reads hon hawake hn hw hclean, lineDecoded_uncorrectable (by rw [inMemory, hz]) hw' hclean', ← howner, ← hnotices]
  exact lineUncorrectable_spec hz (by omega) hw'

end

/-- A line of a page that nothing has written is passed over. -/
theorem scrub_unwritten (h : pageWritten s (i * 2 ^ 36 + 64 * n) = false) (o : EccOutcome) : Only 0x2 s (scrub i false n o s) := by
  have honly := scrubMoves_regs_only s i false n
  have hw := (pageWritten_of (honly.out .written rfl).symm _).trans h
  unfold scrub
  split
  · exact .refl
  · dsimp only [lineAddr]
    rw [if_neg Bool.false_ne_true, if_pos (by rw [hw]; rfl)]
    exact honly

end

/-! ### Flagged stores (R397) -/

section
variable {s : State} {i tag : Nat} {r : OpenReq}

/-- A flagged store leaves the held ones. -/
def flaggedLeft (s : State) (i : Nat) (r : OpenReq) : State :=
  modSite s i fun x => { x with flagged := x.flagged.filter fun q => q.seq != r.seq }

theorem flaggedLeft_only (s : State) (i : Nat) (r : OpenReq) : Only 0x1000000 s (flaggedLeft s i r) := modSite_only _ _ .refl ⟨rfl⟩

theorem flagged_flaggedLeft (s : State) (i : Nat) (r : OpenReq) : r.seq ∉ (site (flaggedLeft s i r) i).flagged.map (·.seq) := by
  rw [flaggedLeft, site_modSite_self]
  simp

theorem flaggedStoreRelease_waits (hr : (site s i).flagged.find? (fun r => r.p.tag == tag) = some r) (hearly : earlierStore s i r = true) :
    flaggedStoreRelease i tag s = s := by
  rw [flaggedStoreRelease, hr]
  exact if_pos hearly

theorem flaggedStoreRelease_leaves (hr : (site s i).flagged.find? (fun r => r.p.tag == tag) = some r) (hdue : earlierStore s i r = false) :
    flaggedStoreRelease i tag s = if r.fail != 0 then finishReq (flaggedLeft s i r) i r r.fail [] false
      else checkAndSend (flaggedLeft s i r) i (partOfCore (flaggedLeft s i r) r.core) r := by
  rw [flaggedStoreRelease, hr]
  exact if_neg (by simp [hdue])

/-- A store that an earlier failure has failed ends its move's request with that status. -/
theorem flaggedStoreRelease_failed {c id : Nat} {m : MoveRec} (hr : (site s i).flagged.find? (fun r => r.p.tag == tag) = some r)
    (hdue : earlierStore s i r = false) (hfail : r.fail ≠ 0) (hissuer : r.issuer = .move c id) (hm : findMove? s c id = some m) :
    r.seq ∉ (site (flaggedStoreRelease i tag s) i).flagged.map (·.seq) ∧
      findMove? (flaggedStoreRelease i tag s) c id = some (moveAnswered m (statusOfCode r.fail) r.addr (32 * r.p.len) []) := by
  rw [flaggedStoreRelease_leaves hr hdue, if_pos (by simpa using hfail)]
  obtain ⟨hrequests, hmove⟩ := finishReq_of_move (s := flaggedLeft s i r) (i := i) hissuer r.fail [] false
  obtain ⟨-, hseqs⟩ := Prod.mk.inj (hrequests i)
  exact ⟨hseqs ▸ flagged_flaggedLeft s i r, hmove m hm⟩

theorem checkReq_of {t : State} (ht : Only 0x1000000 s t) (i part : Nat) (r : OpenReq) : checkReq t i part r = checkReq s i part r := by
  have hregs : t.regs = s.regs := (ht.out .regs rfl).symm
  have hupsets : t.upsets = s.upsets := (ht.out .upsets rfl).symm
  have hparts : t.parts = s.parts := (ht.out .parts rfl).symm
  have hisland : t.island = s.island := (ht.out .island rfl).symm
  simp only [checkReq, keyOk_of hregs hupsets, hparts, hasCoord, regBit_of hregs, egressOk, hisland] <;> rfl

/-- A store combines with nothing: it goes into the site's own egress queue where that has room. -/
theorem sendReq_store (htype : r.p.type = 0x02) (hdst : r.dst = i) (hroom : roomFor (site s i) = true) :
    ∃ u : State, (∀ b, site u b = site s b) ∧ sendReq s i r = modSite u i fun x =>
      { x with egressQ := x.egressQ ++ [r], outstanding := x.outstanding ++ [r] } := by
  have hsites (n : Nat) : ∀ b, site (if r.outlet.isSome then addPairSat s Reg.fabricReqOut n else s) b = site s b := by
    intro b
    split <;> rfl
  refine ⟨if r.outlet.isSome then addPairSat s Reg.fabricReqOut 1 else s, hsites 1, ?_⟩
  have hattach (u : State) : attachRead u i (Reg.basinCombined i) r = none := by
    have hnone : (site u i).combining.findIdx? (fun e => r.p.type == 0x01 && !chanRead r.p && sameReq e.p r.p && e.reqs.length < 63) =
        none := List.findIdx?_eq_none_iff.2 fun e _ => by simp [htype]
    rw [attachRead, hnone]
  have hopen (u : State) : openEntry u i r.p = u := if_neg (by simp [htype])
  rw [sendReq]
  simp only [hattach, hopen]
  exact if_pos (by simp [hdst, hsites, hroom])

theorem flaggedStoreRelease_sent (hr : (site s i).flagged.find? (fun r => r.p.tag == tag) = some r) (hdue : earlierStore s i r = false)
    (hok : r.fail = 0) (htype : r.p.type = 0x02) (hdst : r.dst = i) (hroom : roomFor (site s i) = true)
    (hcheck : checkReq s i (partOfCore s r.core) r = 0) :
    r.seq ∉ (site (flaggedStoreRelease i tag s) i).flagged.map (·.seq) ∧
      (site (flaggedStoreRelease i tag s) i).egressQ = (site s i).egressQ ++ [r] ∧
      (site (flaggedStoreRelease i tag s) i).outstanding = (site s i).outstanding ++ [r] := by
  have hleft : site (flaggedLeft s i r) i = { site s i with flagged := (site s i).flagged.filter fun q => q.seq != r.seq } :=
    site_modSite_self _ _ _
  have hcheck' : checkReq (flaggedLeft s i r) i (partOfCore (flaggedLeft s i r) r.core) r = 0 :=
    (checkReq_of (flaggedLeft_only s i r) _ _ _).trans hcheck
  have hroom' : roomFor (site (flaggedLeft s i r) i) = true := by rw [hleft]; exact hroom
  obtain ⟨u, hu, hsend⟩ := sendReq_store (s := flaggedLeft s i r) htype hdst hroom'
  have hgone := flagged_flaggedLeft s i r
  rw [flaggedStoreRelease_leaves hr hdue, if_neg (by simp [hok]), checkAndSend, hcheck']
  simp only [hsend, site_modSite_self, hu]
  exact ⟨hgone, by rw [hleft], by rw [hleft]⟩

end

/-! ### The commands -/

section
variable (s : State) (i : SiteNo)

theorem exec_hbmRefresh (b : Nat) : exec (.hbmRefresh i b) s = .next (hbmRefresh i b s) := rfl
theorem exec_refreshManagementRequest (b : Nat) :
    exec (.refreshManagementRequest i b) s = .next (refreshManagementRequest i b s) := rfl
theorem exec_scrub (pond : Bool) (n : Nat) (o : EccOutcome) : exec (.scrub i pond n o) s = .next (scrub i pond n o s) := rfl
theorem exec_flaggedStoreRelease (g : Nat) : exec (.flaggedStoreRelease i g) s = .next (flaggedStoreRelease i g s) := rfl

end

/-- Settles O22: a refresh by the band it takes up; the scrubber by the decoder's report of a line that it reads; a flagged store by
the stores before it, its failure, and the checks of its site port. -/
theorem refreshScrubAndFlaggedStores : Obligations.RefreshScrubAndFlaggedStores := by
  refine ⟨fun s i b up hawake hb hup => ?_, fun s i b h => ?_, fun s i b hb => ?_,
    fun s i n hon hawake hn hw hclean => ⟨?_, ?_⟩, fun s i n e hw => ?_,
    fun s i g r hr => ⟨fun hearly => ?_, fun hdue => ⟨fun c id m hfail hissuer hm => ?_,
      fun c id hok _ htype hdst hroom hcheck => ?_⟩⟩⟩
  · obtain ⟨hbands, hrfm, hreg⟩ := hbmRefresh_spec hawake hb
    subst hup
    exact ⟨_, exec_hbmRefresh s i b, hbands, hrfm, mem_of_exec (exec_hbmRefresh s i b) rfl, hreg⟩
  · rw [exec_hbmRefresh, hbmRefresh_off h]
  · refine ⟨_, exec_refreshManagementRequest s i b, ?_, fun j hj => ?_,
      mem_of_exec (exec_refreshManagementRequest s i b) rfl⟩
    · simp [rfm_refreshManagementRequest hb]
    · simp [rfm_refreshManagementRequest hb, hj]
  · obtain ⟨hpoison, hcount, r, hreport, hfields⟩ := scrub_corrected hon hawake hn hw hclean i.isLt
    exact ⟨_, r, exec_scrub s i false n _, mem_of_exec (exec_scrub s i false n _) rfl, hpoison, hcount, hreport, hfields⟩
  · exact ⟨_, exec_scrub s i false n _, mem_of_exec (exec_scrub s i false n _) rfl,
      scrub_uncorrectable hon hawake hn hw hclean i.isLt⟩
  · have honly := scrub_unwritten hw e
    exact ⟨_, exec_scrub s i false n e, (honly.out .mem rfl).symm, (honly.out .poison rfl).symm, (honly.out .faults rfl).symm⟩
  · rw [exec_flaggedStoreRelease, flaggedStoreRelease_waits hr hearly]
  · obtain ⟨hgone, hmove⟩ := flaggedStoreRelease_failed hr hdue hfail hissuer hm
    exact ⟨_, exec_flaggedStoreRelease s i g, fun q hq hseq => hgone (hseq ▸ List.mem_map_of_mem hq), hmove⟩
  · obtain ⟨hgone, hqueued, hout⟩ := flaggedStoreRelease_sent hr hdue hok htype hdst hroom hcheck
    exact ⟨_, exec_flaggedStoreRelease s i g, fun q hq hseq => hgone (hseq ▸ List.mem_map_of_mem hq), hqueued, hout⟩

end Sys2Proof.Machine

/-! PROOFS. The family 07_memory_tiers: the entries of a queue pair, their completions, and the notices of poison (R178, R248, R440 to
R444, R446, R448, R449). -/

namespace Sys2Proof.Machine

set_option Elab.async false

/-! ### SQ_FETCH (R441, R443) -/

section
variable {s : State} {n : Nat} {r : SqRead}

theorem sqFetch_idle (h : (qp s n).mode ≠ 1 ∨ mayMaster s (qp s n).owner = false ∨ (qp s n).fetchPos = (qp s n).tail) :
    sqFetch n r s = s :=
  if_pos (by simpa [or_assoc] using h)

section
variable (hmode : (qp s n).mode = 1) (hmaster : mayMaster s (qp s n).owner = true) (hmore : (qp s n).fetchPos ≠ (qp s n).tail)
include hmode hmaster hmore

theorem sqFetch_takes (ws : List DWord) : sqFetch n (.entry ws) s = putQp s n { qp s n with
    fetched := (qp s n).fetched ++ [{ words := ws, seq := (qp s n).nextSeq, stamp := copyTick s copyHost, status := 0, cq := n }],
    nextSeq := (qp s n).nextSeq + 1, fetchPos := ((qp s n).fetchPos + 1) % sqSize (qp s n) } :=
  if_neg (by simp [hmode, hmaster, hmore])

theorem sqFetch_fails (hr : ∀ ws, r ≠ .entry ws) : sqFetch n r s = qpErrorState s n := by
  unfold sqFetch
  rw [if_neg (by simp [hmode, hmaster, hmore])]
  cases r with
  | entry ws => exact absurd rfl (hr ws)
  | ur | ca | cto | poisoned => rfl

end

/-- A queue pair in error is flagged and reported. -/
theorem qpErrorState_spec (s : State) (n : Nat) :
    qp (qpErrorState s n) n = { qp s n with mode := 2, fetchError := true } ∧ regBit (qpErrorState s n) Reg.queueFlags 2 = true ∧
      ∃ e, (qpErrorState s n).faults.inTransit = s.faults.inTransit ++ [e] ∧ e.cls = 14 ∧ e.code = 2 ∧ e.unit = unitNo 0x15 n := by
  unfold qpErrorState
  dsimp only
  refine ⟨?_, ?_, _, rfl, rfl, rfl, rfl⟩
  · rw [qp_of (raise_qps _ _ _ _ _ _ _ _), qp_of (raiseFlag_qps _ _ _), qp_modQp_self]
  · rw [regBit_of (raise_regs _ _ _ _ _ _ _ _), regBit_raiseFlag_self]

end

/-! ### Entries that start (R178, R442, R444, R450) -/

section
variable {s : State} {n : Nat} {e : SqEntry}

theorem accepted_dropHead (s : State) (n : Nat) : (qp (dropHead s n) n).accepted = (qp s n).accepted.drop 1 := by
  rw [dropHead, qp_modQp_self]

theorem queueNop_starts (h : headOf s n 3 = some e) :
    queueNop n s = complete (dropHead s n) e.seq e.cq (Cpl.plain (eTag e) 0 n) := by
  rw [queueNop, h]

theorem queueNop_waits (h : headOf s n 3 = none) : queueNop n s = s := by rw [queueNop, h]

theorem contextFor_dropHead (s : State) (n fn c : Nat) : contextFor (dropHead s n) fn c = contextFor s fn c := rfl

/-- The dispatch that an entry asks for. -/
def dispatchOf (s : State) (n : Nat) (e : SqEntry) : Dispatch :=
  { qp := n, seq := e.seq, fn := (qp s n).owner, tag := eTag e, cq := e.cq, argDpa := eArgDpa e, argLen := eArgLen e,
    granted := tickOf s }

theorem dispatch_asks (h : headOf s n 1 = some e) (hctx : contextFor s (qp s n).owner (eContext e) = true) :
    dispatch n s = { dropHead s n with startReqs := s.startReqs ++ [{ handle := eContext e, d := dispatchOf s n e }] } := by
  rw [dispatch, h]
  exact if_neg (by simp [contextFor_dropHead, hctx])

theorem dispatch_refused (h : headOf s n 1 = some e) (hctx : contextFor s (qp s n).owner (eContext e) = false) :
    dispatch n s = complete (dropHead s n) e.seq e.cq (Cpl.plain (eTag e) 0x06 n) := by
  rw [dispatch, h]
  exact if_pos (by simp [contextFor_dropHead, hctx])

theorem dispatch_waits (h : headOf s n 1 = none) : dispatch n s = s := by rw [dispatch, h]

/-- The copy that an entry asks for. -/
def copyOf (s : State) (n : Nat) (e : SqEntry) : CopyRec :=
  { qp := n, seq := e.seq, fn := (qp s n).owner, cq := e.cq, tag := eTag e, toHost := eDir e, host := eHost e, dpa := eDpa e,
    len := eLen e, moved := 0, tStart := none, crossing := false, refused := none, poison := false, bounds := false,
    held := 0, err := none, id := s.nextId }

theorem copy_queues (h : headOf s n 2 = some e) :
    copy n s = dmaStat (putDma { dropHead s n with nextId := s.nextId + 1 } (qp s n).channel
      { dmaCh s (qp s n).channel with copies := (dmaCh s (qp s n).channel).copies ++ [copyOf s n e] }) (qp s n).channel := by
  rw [copy, h]
  rfl

theorem copy_waits (h : headOf s n 2 = none) : copy n s = s := by rw [copy, h]

theorem copy_spec (h : headOf s n 2 = some e) :
    (dmaCh (copy n s) (qp s n).channel).copies = (dmaCh s (qp s n).channel).copies ++ [copyOf s n e] ∧
      (qp (copy n s) n).accepted = (qp s n).accepted.drop 1 ∧ (copy n s).hostMem = s.hostMem ∧ (copy n s).mem = s.mem := by
  have honly : Only 0x1000208000002 s (copy n s) := copy_only n .refl ⟨rfl⟩
  have hstat (u : State) (ch : Nat) := dmaStat_only (m := 0x2) (s := u) ch .refl ⟨rfl⟩
  refine ⟨?_, ?_, (honly.out .hostMem rfl).symm, (honly.out .mem rfl).symm⟩
  · rw [copy_queues h, dmaCh_of ((hstat _ _).out .dma rfl).symm, dmaCh_putDma_self]
  · rw [copy_queues h, qp_of ((hstat _ _).out .qps rfl).symm, qp_putDma]
    exact accepted_dropHead s n

end

/-! ### Completion entries (R440, R446, R448, R449) -/

section
variable {s : State} {n : Nat} {ws : List Nat}

theorem length_withTag (ws : List Nat) (i : Nat) (p : Bool) : (withTag ws i p).length = ws.length := by simp [withTag]
theorem length_withHead (ws : List Nat) (head : Nat) : (withHead ws head).length = ws.length := by simp [withHead]

theorem length_wordBytes (ws : List Nat) : (wordBytes ws).length = 8 * ws.length := by
  induction ws with
  | nil => rfl
  | cons w ws ih =>
    rw [wordBytes, List.flatMap_cons, List.length_append, length_leBytes, ← wordBytes, ih, List.length_cons]
    omega

/-- What was written to host memory is read back. -/
theorem readBytes_writeBytes (m : List Host.Cell) (a : Nat) (bs : List Byte) :
    readBytes (writeBytes m a bs) a bs.length = bs := by
  refine List.ext_getElem (by simp [readBytes]) fun i _ hi => ?_
  simp only [readBytes, List.getElem_map, List.getElem_range]
  rw [readByte_writeBytes, if_pos (by omega), Nat.add_sub_cancel_left, List.getD_eq_getElem _ _ hi]

theorem qp_cqInterrupt (s : State) (n k : Nat) :
    qp (cqInterrupt s n) k = if k = n then { qp s n with unreported := 0, oldest := none } else qp s k := by
  rw [cqInterrupt]
  dsimp only
  rw [qp_of ((msix_only (m := 0x802) _ _ .refl ⟨rfl⟩).out .qps rfl).symm, qp_putQp]

theorem hostMem_cqInterrupt (s : State) (n : Nat) : (cqInterrupt s n).hostMem = s.hostMem :=
  ((cqInterrupt_only (m := 0x8000802) n .refl ⟨rfl⟩).out .hostMem rfl).symm

/-- The place of a completion queue's next slot in its owner's host memory. -/
def cqSlot (q : QpState) : Nat := 2 ^ 64 * q.owner + (q.cqBase + 64 * q.cqTail)

/-- An entry as it stands in memory: with the phase tag and with the head of its SQ. -/
def cqEntry (s : State) (n : Nat) (ws : List Nat) : List Nat :=
  withHead (withTag ws 1 (qp s n).phaseTag) (qp s (bits (ws.getD 1 0) 51 34)).head

/-- A completion queue that has taken an entry. -/
def cqMoved (s : State) (n : Nat) : QpState :=
  let q := qp s n
  let next := (q.cqTail + 1) % cqSize q
  { q with cqTail := next, phaseTag := if next == 0 then !q.phaseTag else q.phaseTag, reserved := q.reserved - 1,
           unreported := q.unreported + 1, oldest := some (q.oldest.getD s.time.now) }

/-- The entry stands in host memory and the queue has taken it; it may complete a group. -/
def cqTaken (s : State) (n : Nat) (ws : List Nat) : State :=
  putQp { s with hostMem := writeBytes s.hostMem (cqSlot (qp s n)) (wordBytes (cqEntry s n ws)) } n (cqMoved s n)

theorem cqWrite_cases (s : State) (n : Nat) (ws : List Nat) :
    cqWrite s n ws = cqInterrupt (cqTaken s n ws) n ∨ cqWrite s n ws = cqTaken s n ws :=
  ite_eq_or_eq _ _ _

theorem hostMem_cqWrite (s : State) (n : Nat) (ws : List Nat) :
    (cqWrite s n ws).hostMem = writeBytes s.hostMem (cqSlot (qp s n)) (wordBytes (cqEntry s n ws)) := by
  rcases cqWrite_cases s n ws with h | h
  · rw [h, hostMem_cqInterrupt]
    rfl
  · rw [h]
    rfl

/-- An interrupt ends a group of a queue, and changes no more of the queue pairs. -/
theorem qp_cqWrite_keeps {α : Type} (g : QpState → α) (hg : ∀ q u o, g { q with unreported := u, oldest := o } = g q)
    (s : State) (n : Nat) (ws : List Nat) (k : Nat) : g (qp (cqWrite s n ws) k) = g (if k = n then cqMoved s n else qp s k) := by
  have htaken (k : Nat) : qp (cqTaken s n ws) k = if k = n then cqMoved s n else qp s k := qp_putQp _ _ _ _
  rcases cqWrite_cases s n ws with h | h
  · rw [h, qp_cqInterrupt]
    split
    · next hk => rw [hg, htaken, if_pos rfl]
    · next hk => rw [htaken, if_neg hk]
  · rw [h, htaken]

theorem open_cqWrite (s : State) (n : Nat) (ws : List Nat) (k : Nat) : (qp (cqWrite s n ws) k).open_ = (qp s k).open_ := by
  rw [qp_cqWrite_keeps QpState.open_ fun _ _ _ => rfl]
  split
  · next hk => rw [hk]; rfl
  · rfl

theorem cqTail_cqWrite (s : State) (n : Nat) (ws : List Nat) :
    (qp (cqWrite s n ws) n).cqTail = ((qp s n).cqTail + 1) % cqSize (qp s n) := by
  rw [qp_cqWrite_keeps QpState.cqTail fun _ _ _ => rfl, if_pos rfl]
  rfl

end

section
variable {s : State} {x : Ended}

/-- An entry is resolved: it is in progress no longer, and a status of RETRY is counted. -/
def entryResolved (s : State) (x : Ended) : State :=
  let s := modQp s x.cpl.sq fun q => { q with open_ := q.open_.filter (· != x.seq) }
  if x.cpl.status == 0x05 then addPairSat s Reg.queueRetries 1 else s

theorem qp_entryResolved (s : State) (x : Ended) (k : Nat) : qp (entryResolved s x) k =
    if k = x.cpl.sq then { qp s k with open_ := (qp s k).open_.filter (· != x.seq) } else qp s k := by
  have hmod : qp (modQp s x.cpl.sq fun q => { q with open_ := q.open_.filter (· != x.seq) }) k =
      if k = x.cpl.sq then { qp s k with open_ := (qp s k).open_.filter (· != x.seq) } else qp s k := by
    rw [modQp, qp_putQp]
    split
    · next hk => rw [hk]
    · rfl
  rw [← hmod, entryResolved]
  split <;> rfl

/-- All of a queue pair but its entries in progress stands. -/
theorem qp_entryResolved_keeps {α : Type} (g : QpState → α) (k : Nat)
    (hg : ∀ q l, g { q with open_ := l } = g q := by exact fun _ _ => rfl) : g (qp (entryResolved s x) k) = g (qp s k) := by
  rw [qp_entryResolved]
  split
  · exact hg _ _
  · rfl

theorem mayMaster_entryResolved (fn : Nat) : mayMaster (entryResolved s x) fn = mayMaster s fn := by
  rw [entryResolved]
  split <;> rfl

theorem hostMem_entryResolved : (entryResolved s x).hostMem = s.hostMem := by
  rw [entryResolved]
  split <;> rfl

theorem writeCompletion_eq (s : State) (x : Ended) : writeCompletion s x =
    if (qp (entryResolved s x) x.cq).mode == 0 then entryResolved s x
    else if mayMaster (entryResolved s x) (qp (entryResolved s x) x.cq).owner then cqWrite (entryResolved s x) x.cq x.cpl.words
    else putQp (entryResolved s x) x.cq
      { qp (entryResolved s x) x.cq with blocked := (qp (entryResolved s x) x.cq).blocked ++ [x.cpl.words] } := rfl

theorem writeCompletion_gone (h : (qp s x.cq).mode = 0) : writeCompletion s x = entryResolved s x := by
  rw [writeCompletion_eq, if_pos (by rw [qp_entryResolved_keeps QpState.mode, h]; rfl)]

theorem writeCompletion_waits (h : (qp s x.cq).mode ≠ 0) (hmaster : mayMaster s (qp s x.cq).owner = false) :
    writeCompletion s x = putQp (entryResolved s x) x.cq
      { qp (entryResolved s x) x.cq with blocked := (qp (entryResolved s x) x.cq).blocked ++ [x.cpl.words] } := by
  rw [writeCompletion_eq, if_neg (by rw [qp_entryResolved_keeps QpState.mode]; simpa using h),
    if_neg (by rw [mayMaster_entryResolved, qp_entryResolved_keeps QpState.owner, hmaster]; decide)]

theorem writeCompletion_writes (h : (qp s x.cq).mode ≠ 0) (hmaster : mayMaster s (qp s x.cq).owner = true) :
    writeCompletion s x = cqWrite (entryResolved s x) x.cq x.cpl.words := by
  rw [writeCompletion_eq, if_neg (by rw [qp_entryResolved_keeps QpState.mode]; simpa using h),
    if_pos (by rw [mayMaster_entryResolved, qp_entryResolved_keeps QpState.owner, hmaster])]

/-- The bytes of a completion stand at the completion queue's next slot, and no other byte of host memory changes. -/
theorem writeCompletion_hostMem (h : (qp s x.cq).mode ≠ 0) (hmaster : mayMaster s (qp s x.cq).owner = true) :
    readBytes (writeCompletion s x).hostMem (cqSlot (qp s x.cq)) 64 = wordBytes (cqEntry s x.cq x.cpl.words) ∧
      ∀ z, ¬ (cqSlot (qp s x.cq) ≤ z ∧ z < cqSlot (qp s x.cq) + 64) →
        readByte (writeCompletion s x).hostMem z = readByte s.hostMem z := by
  have hlength : (wordBytes (cqEntry s x.cq x.cpl.words)).length = 64 := by
    rw [length_wordBytes, cqEntry, length_withHead, length_withTag]
    rfl
  have hslot : cqSlot (qp (entryResolved s x) x.cq) = cqSlot (qp s x.cq) := qp_entryResolved_keeps cqSlot x.cq
  have hentry : cqEntry (entryResolved s x) x.cq x.cpl.words = cqEntry s x.cq x.cpl.words := by
    rw [cqEntry, qp_entryResolved_keeps QpState.phaseTag, qp_entryResolved_keeps QpState.head, cqEntry]
  rw [writeCompletion_writes h hmaster, hostMem_cqWrite, hslot, hentry, hostMem_entryResolved]
  refine ⟨?_, fun z hz => ?_⟩
  · conv_lhs => rw [← hlength]
    exact readBytes_writeBytes _ _ _
  · rw [readByte_writeBytes, hlength, if_neg hz]

theorem writeCompletion_qp (h : (qp s x.cq).mode ≠ 0) (hmaster : mayMaster s (qp s x.cq).owner = true) :
    (qp (writeCompletion s x) x.cpl.sq).open_ = (qp s x.cpl.sq).open_.filter (· != x.seq) ∧
      (qp (writeCompletion s x) x.cq).cqTail = ((qp s x.cq).cqTail + 1) % cqSize (qp s x.cq) := by
  rw [writeCompletion_writes h hmaster, open_cqWrite, cqTail_cqWrite, qp_entryResolved_keeps QpState.cqTail, qp_entryResolved_keeps cqSize]
  exact ⟨by rw [qp_entryResolved, if_pos rfl], rfl⟩

end

/-! ### Coalescing (R449) -/

section
variable {s : State} {n a : Nat}

theorem coalescingTimeout_due (ha : (qp s n).oldest = some a) (hmode : (qp s n).mode ≠ 0)
    (hdue : a + 1000 * (qp s n).coalTime < s.time.now) : coalescingTimeout n s = cqInterrupt s n := by
  rw [coalescingTimeout]
  simp [ha, hmode, hdue]

theorem coalescingTimeout_early (ha : (qp s n).oldest = some a) (hearly : s.time.now ≤ a + 1000 * (qp s n).coalTime) :
    coalescingTimeout n s = s := by
  rw [coalescingTimeout]
  simp [ha, hearly]

theorem coalescingTimeout_idle (h : (qp s n).oldest = none ∨ (qp s n).mode = 0) : coalescingTimeout n s = s := by
  rw [coalescingTimeout]
  rcases h with h | h
  · simp [h]
  · cases ho : (qp s n).oldest <;> simp [h]

end

/-! ### Notices of poison (R248) -/

section
variable {s : State} {w : Notice} {ws : List Notice}

theorem poisonNotice_waits (h : s.faults.notices = w :: ws) (hearly : s.faults.nextTick ≤ w.tick ∨ weirServes s = false) :
    poisonNotice s = s := by
  rw [poisonNotice, h]
  exact if_pos (by simpa using hearly)

theorem poisonNotice_goes (h : s.faults.notices = w :: ws) (hdue : w.tick < s.faults.nextTick) (hserves : weirServes s = true) :
    poisonNotice s = partEvent { s with faults := { s.faults with notices := ws } } w.part w.type w.words := by
  rw [poisonNotice, h]
  exact if_neg (by simp [hdue, hserves])

theorem poisonNotice_none (h : s.faults.notices = []) : poisonNotice s = s := by rw [poisonNotice, h]

end

/-! ### The commands -/

section
variable (s : State) (n : QpNo)

theorem exec_sqFetch (r : SqRead) : exec (.sqFetch n r) s = .next (sqFetch n r s) := rfl
theorem exec_queueNop : exec (.queueNop n) s = .next (queueNop n s) := rfl
theorem exec_dispatch : exec (.dispatch n) s = .next (dispatch n s) := rfl
theorem exec_copy : exec (.copy n) s = .next (copy n s) := rfl
theorem exec_coalescingTimeout : exec (.coalescingTimeout n) s = .next (coalescingTimeout n s) := rfl
theorem exec_poisonNotice : exec .poisonNotice s = .next (poisonNotice s) := rfl

end

/-- Settles O23: an entry by its fetch, its start by its type, and its completion by the write to its completion queue; a group of
completions by its age; a notice by its tick. -/
theorem queueEntriesAreFetchedAndCompleted : Obligations.QueueEntriesAreFetchedAndCompleted := by
  refine ⟨fun s n ws hmode hmaster hmore => ?_, fun s n r hmode hmaster hmore hr => ?_, fun s n r h => ?_, fun s n e h => ?_,
    fun s n e h hctx => ?_, fun s n e h hctx => ?_, fun s n e h => ?_, fun s n => ⟨fun h => ?_, fun h => ?_, fun h => ?_⟩,
    fun s x h hmaster => ?_, fun s x h hmaster => ?_, fun s x h => ?_, fun s n a ha hmode => ⟨fun hdue => ?_, fun hearly => ?_⟩,
    fun s n h => ?_, fun s w ws h => ⟨fun hdue hserves => ?_, fun hearly => ?_⟩, fun s h => ?_⟩
  · refine ⟨_, _, by rw [exec_sqFetch, sqFetch_takes hmode hmaster hmore ws], by rw [qp_putQp_self], rfl, rfl, rfl,
      by rw [qp_putQp_self], by rw [qp_putQp_self], fun k hk => qp_putQp_other _ _ _ _ hk⟩
  · obtain ⟨hqp, hflag, e, hreport, hfields⟩ := qpErrorState_spec s n
    exact ⟨_, e, by rw [exec_sqFetch, sqFetch_fails hmode hmaster hmore hr], hqp, hflag, hreport, hfields⟩
  · rw [exec_sqFetch, sqFetch_idle h]
  · exact ⟨_, (exec_queueNop s n).trans (congrArg _ (queueNop_starts h)), accepted_dropHead s n, rfl, rfl, rfl⟩
  · exact ⟨_, dispatchOf s n e, (exec_dispatch s n).trans (congrArg _ (dispatch_asks h hctx)), rfl, rfl, rfl, rfl, rfl, rfl, rfl, rfl, rfl,
      accepted_dropHead s n, rfl, rfl⟩
  · exact ⟨_, (exec_dispatch s n).trans (congrArg _ (dispatch_refused h hctx)), rfl, accepted_dropHead s n, rfl⟩
  · obtain ⟨hcopies, haccepted, hmems⟩ := copy_spec h
    exact ⟨_, copyOf s n e, exec_copy s n, hcopies, rfl, rfl, rfl, rfl, rfl, rfl, rfl, rfl, rfl, rfl, rfl, haccepted, hmems⟩
  · rw [exec_dispatch, dispatch_waits h]
  · rw [exec_copy, copy_waits h]
  · rw [exec_queueNop, queueNop_waits h]
  · obtain ⟨hopen, htail⟩ := writeCompletion_qp h hmaster
    exact ⟨hopen, htail, writeCompletion_hostMem h hmaster⟩
  · rw [writeCompletion_waits h hmaster, qp_putQp_self, qp_entryResolved_keeps QpState.blocked]
    exact ⟨hostMem_entryResolved, rfl⟩
  · rw [writeCompletion_gone h, hostMem_entryResolved]
  · refine ⟨_, exec_coalescingTimeout s n, ?_, ?_⟩
    · rw [coalescingTimeout_due ha hmode hdue, qp_cqInterrupt, if_pos rfl]
    · rw [coalescingTimeout_due ha hmode hdue, hostMem_cqInterrupt]
  · rw [exec_coalescingTimeout, coalescingTimeout_early ha hearly]
  · rw [exec_coalescingTimeout, coalescingTimeout_idle h]
  · have honly := partEvent_only (m := 0x8400000c22) (s := { s with faults := { s.faults with notices := ws } }) w.part w.type w.words
      .refl ⟨rfl⟩
    refine ⟨_, exec_poisonNotice s, ?_⟩
    rw [poisonNotice_goes h hdue hserves]
    exact ⟨(honly.out .faults rfl).symm, (honly.out .mem rfl).symm⟩
  · rw [exec_poisonNotice, poisonNotice_waits h hearly]
  · rw [exec_poisonNotice, poisonNotice_none h]

end Sys2Proof.Machine
